-- ==== Sys2Proof/Word.lean ====
section
/-! DEFINITION. The word types of the TZ16: a register word has 32 bits (R243) and a byte has 8. -/

namespace Sys2Proof

/-- A register word: 32 bits (R243). -/
abbrev Word := BitVec 32

/-- A byte of a frame, a flow unit or a memory. -/
abbrev Byte := BitVec 8

end Sys2Proof
end

