-- ==== Sys2Proof/Syntax.lean ====
section
/-! DEFINITION. The commands of the TZ16: one constructor per row of the table of operations and events, with the
operands that the row's rules name. `req` is a requester code of Table 6.1; `data` is the word written. Times that a
command carries are what the world outside the block measures. -/

namespace Sys2Proof

/-- The ends at which flow units arrive: the Crossing field end, the Crossing host end, and this part's twin link. -/
inductive LinkId
  | field | host | twin
deriving DecidableEq, Repr

/-- What a wake detector is given: a differential signal of so many ns without a break, or the TC10 wake-up pulse
(R141, R142). -/
inductive WakeSignal
  | burst (ns : Nat)
  | tc10
deriving DecidableEq, Repr

/-- A link that has been false for `ns` without a break (Table 7.5). -/
structure LinkDown where
  port : Nat
  ns : Nat
deriving DecidableEq, Repr

/-- The commands. -/
inductive Instr
  -- Crossing receive, resets, start-up
  /-- FLOW_UNIT_RECEIVE (R599). One unit of 64 bytes as it arrives at end `l`. -/
  | flowUnitReceive (l : LinkId) (bytes : List Byte)
  /-- PIN_RESET (R67). How long FRST_N has been low, ns. -/
  | pinReset (lowNs : Nat)
  /-- POWER_GOOD_RESET (R67). How long PD_PG has been low, ns. -/
  | powerGoodReset (lowNs : Nat)
  /-- COLD_RESET (R875). -/
  | coldReset
  /-- INTERNAL_RESET_RELEASE (R67). Time since the later of the two pins rose or the software reset began, and the levels of STRAP0 to STRAP3. -/
  | internalResetRelease (afterNs : Nat) (straps : Nat)
  /-- LINE_TURN_ON (R82). Line 0 or 1, its voltage in mV, and the PD_CLASS resistance (none: open). -/
  | lineTurnOn (line : Nat) (mv : Nat) (classOhms : Option Nat)
  /-- LINE_TURN_OFF (R82). Line 0 or 1 and its voltage in mV. -/
  | lineTurnOff (line : Nat) (mv : Nat)
  /-- TWIN_FAULT_IN_CHANGE (R633). The level recognised (low is asserted) and how long it has lasted. -/
  | twinFaultInChange (asserted : Bool) (ns : Nat)
  /-- FABRIC_PLL_LOCK (R873). -/
  | fabricPllLock
  /-- INITIALISATION_COMPLETE (R169). -/
  | initialisationComplete
  /-- CONFIG_SOURCE_RESOLVED (R172). -/
  | configSourceResolved
  /-- SOFTWARE_RESET (R165). Requester and the word written to F_GLB_RESET. -/
  | softwareReset (req : Nat) (data : Word)
  /-- START_GO (R178). Requester and the word written to F_GLB_START. -/
  | startGo (req : Nat) (data : Word)
  -- clocks and power
  /-- FINE_TICK (R533). -/
  | fineTick
  /-- SAFELIGHT_TICK (R103). Levels at FGPIO0 to FGPIO23, bit n. -/
  | safelightTick (pads : Nat)
  /-- CROSS_CHECK_OVERRUN (R103). -/
  | crossCheckOverrun
  /-- SL_CAL_UPDATE (R138). The measured safelight period, units of 2^-16 ns. -/
  | slCalUpdate (period : Nat)
  /-- NAP_ENTRY (R106). -/
  | napEntry
  /-- NAP_EXIT (R107). -/
  | napExit
  /-- DARK_NOW (R111). Requester and the word written to F_PWR_CTRL. -/
  | darkNow (req : Nat) (data : Word)
  /-- DARK_AUTO_REQUEST (R110). -/
  | darkAutoRequest
  /-- DARK_DRAIN_DONE (R112). -/
  | darkDrainDone
  /-- DARK_DRAIN_TIMEOUT (R112). -/
  | darkDrainTimeout
  /-- DARK_POINT_OF_NO_RETURN (R112). -/
  | darkPointOfNoReturn
  /-- WAKE_CAUSE (R125). The bit of F_PWR_WAKE_SRC that names the cause. -/
  | wakeCause (bit : Nat)
  /-- RESUME_IMAGE_LOADED (R117). -/
  | resumeImageLoaded
  /-- DARK_TIME_RECONCILE (R588). -/
  | darkTimeReconcile
  /-- FLASH_OPERATION_DONE (R755). -/
  | flashOperationDone
  /-- FLASH_OPERATION_TIMEOUT (R756). -/
  | flashOperationTimeout
  /-- EXPOSURE_NAP_LEAD (R135). Exposure entry. -/
  | exposureNapLead (entry : Nat)
  /-- EXPOSURE_WINDOW_START (R136). Exposure entry. -/
  | exposureWindowStart (entry : Nat)
  /-- EXPOSURE_WINDOW_END (R146). Exposure entry. -/
  | exposureWindowEnd (entry : Nat)
  /-- EXPOSURE_BASE_WRITE (R157). Requester and the word written to F_PWR_EXP_BASE_SEC_HI. -/
  | exposureBaseWrite (req : Nat) (data : Word)
  /-- WAKE_BURST_SEND (R145). Port. -/
  | wakeBurstSend (port : Nat)
  /-- WAKE_BURST_DETECT (R148). Port and the signal at its detector. -/
  | wakeBurstDetect (port : Nat) (sig : WakeSignal)
  /-- SLEEP_LOST (R147). Port. -/
  | sleepLost (port : Nat)
  /-- DERATE_SAMPLE (R149). Line voltage in 10 mV and die temperature in 0.1 degrees C, two's complement of 16 bits. -/
  | derateSample (vline : Nat) (tj : Nat)
  /-- DERATE_READMIT (R154). -/
  | derateReadmit
  -- host die power
  /-- HOST_POWER_STATE_CHANGE (R130). 0 for D0, 3 for D3hot, 4 for D3cold. -/
  | hostPowerStateChange (d : Nat)
  /-- HOST_RESET (R715). -/
  | hostReset
  /-- HOST_RESET_RELEASE (R183). -/
  | hostResetRelease
  -- key
  /-- KEY_READ_HEADER (R213). Requester. -/
  | keyReadHeader (req : Nat)
  /-- KEY_COMMIT (R217). Requester. -/
  | keyCommit (req : Nat)
  /-- KEY_FORCED_COMMIT (R220). Requester. -/
  | keyForcedCommit (req : Nat)
  /-- KEY_ABORT (R226). Requester. -/
  | keyAbort (req : Nat)
  /-- KEY_PRESENCE_POLL (R214, R195). How many keys answer the inventory. -/
  | keyPresencePoll (answers : Nat)
  /-- KEY_REPLY (R221). -/
  | keyReply
  /-- KEY_REPLY_TIMEOUT (R230). -/
  | keyReplyTimeout
  /-- INVENTORY (R193). How many other keys in the field answer as well. -/
  | inventory (others : Nat)
  /-- LOAD_BUFFER (R193). Offset in the page buffer and 32 bytes. -/
  | loadBuffer (off : Nat) (data : List Byte)
  /-- PROGRAM_PAGE (R222). Transaction number, slot, page and the CRC-32C the reader sent. -/
  | programPage (txn : Nat) (slot : Nat) (page : Nat) (crc : Nat)
  /-- VERIFY_SLOT (R225). Slot and size in bytes. -/
  | verifySlot (slot : Nat) (size : Nat)
  /-- WRITE_POINTER (R223). Transaction number, pointer copy and its 32 bytes. -/
  | writePointer (txn : Nat) (ptr : Nat) (data : List Byte)
  -- registers, proof, locks
  /-- REGISTER_WRITE (R245). Requester, field-die address, byte enables and data. -/
  | registerWrite (req : Nat) (addr : Nat) (be : Nat) (data : Word)
  /-- SQ_CLEAR (R253). Requester, address of the SQ register and the word written. -/
  | sqClear (req : Nat) (addr : Nat) (data : Word)
  /-- VOTER_CHECK (R262). -/
  | voterCheck
  /-- PROOF_SWEEP_START (R268). -/
  | proofSweepStart
  /-- PROOF_SWEEP_END (R269). -/
  | proofSweepEnd
  /-- PROOF_COMMIT (R272). Requester. -/
  | proofCommit (req : Nat)
  /-- PROOF_COMMIT_IF_EQUAL (R272). Requester. -/
  | proofCommitIfEqual (req : Nat)
  /-- LOCK_ACQUIRE (R276). Requester and lock. -/
  | lockAcquire (req : Nat) (n : Nat)
  /-- LOCK_RELEASE (R279). Requester and lock. -/
  | lockRelease (req : Nat) (n : Nat)
  /-- LOCK_EXPIRED (R282). Lock. -/
  | lockExpired (n : Nat)
  /-- TABLE_ENTRY_WRITE (R285). Requester, address in a table window and the word. -/
  | tableEntryWrite (req : Nat) (addr : Nat) (data : Word)
  -- ports
  /-- PORT_MODE_WRITE (R293). Requester, port and word. -/
  | portModeWrite (req : Nat) (n : Nat) (data : Word)
  /-- MODE_CHANGE_HOLD_END (R296). Port. -/
  | modeChangeHoldEnd (n : Nat)
  /-- MAX_FRAME_WRITE (R325). Requester, port and word. -/
  | maxFrameWrite (req : Nat) (n : Nat) (data : Word)
  /-- LINK_ESTABLISHED (R302). Port, and whether auto-negotiation resolved it as master. -/
  | linkEstablished (n : Nat) (master : Bool)
  /-- LINK_LOSS (R302). Port, and how long its link has been false. -/
  | linkLoss (n : LinkDown)
  /-- SLEEP_REQUEST_WRITE (R310). Requester, port and word. -/
  | sleepRequestWrite (req : Nat) (n : Nat) (data : Word)
  /-- SLEEP_QUIET (R311). Port. -/
  | sleepQuiet (n : Nat)
  /-- TC10_SLEEP_ACK (R312). Port. -/
  | tc10SleepAck (n : Nat)
  /-- TC10_SLEEP_TIMEOUT (R312). Port. -/
  | tc10SleepTimeout (n : Nat)
  /-- TC10_SLEEP_RETRY (R312). Port. -/
  | tc10SleepRetry (n : Nat)
  /-- PARTNER_SLEEP (R313). Port, and whether by a TC10 request instead of silence. -/
  | partnerSleep (n : Nat) (tc10 : Bool)
  /-- WAKE_NOW (R314). Requester, port and word. -/
  | wakeNow (req : Nat) (n : Nat) (data : Word)
  /-- PODL_SLEEP_REQUEST (R306). Trunk. -/
  | podlSleepRequest (n : Nat)
  /-- PODL_WAKE_REQ (R307). Trunk, and whether software wrote wake_req. -/
  | podlWakeReq (n : Nat) (bySoftware : Bool)
  /-- VERIFY_SEND (R320). Port. -/
  | verifySend (n : Nat)
  /-- VERIFY_RESPONSE (R319). Port. -/
  | verifyResponse (n : Nat)
  /-- VERIFY_FAIL (R320). Port. -/
  | verifyFail (n : Nat)
  /-- PAUSE_RECEIVE (R331). Port and quanta. -/
  | pauseReceive (n : Nat) (quanta : Nat)
  /-- PAUSE_EXPIRE (R331). Port and queue. -/
  | pauseExpire (n : Nat) (q : Nat)
  /-- PAUSE_CAPPED (R332). Port and queue. -/
  | pauseCapped (n : Nat) (q : Nat)
  -- frame path
  /-- FRAME_START (R324). Port, and the sub-tick phase of its timestamp point in ns. -/
  | frameStart (port : Nat) (phase : Nat)
  /-- FRAME_END (R326). Port, the last bytes received, the condition that the PHY or the assembly of fragments reports (0 none, 4 or 5 as Table 7.7, 8 or 0x18 a bad fragment or SMD, 0x20 a verify frame), and the number of fragments (0 for an express frame). -/
  | frameEnd (port : Nat) (bytes : List Byte) (cond : Nat) (frags : Nat)
  /-- SHORT_PASS (R384). Port and the bytes received since the last command, up to byte 64. -/
  | shortPass (port : Nat) (bytes : List Byte)
  /-- FULL_PASS (R387). Port and the bytes received since the last command. -/
  | fullPass (port : Nat) (bytes : List Byte)
  /-- KEY_CAPTURE_ARM (R402). Requester and the word written to F_CLS_CAP_CTRL. -/
  | keyCaptureArm (req : Nat) (data : Word)
  /-- LEARN (R420). Ingress port of the frame. -/
  | learn (port : Nat)
  /-- AGER_TICK (R425). -/
  | agerTick
  /-- AGE_WRITE (R427). Requester and word. -/
  | ageWrite (req : Nat) (data : Word)
  /-- FDB_FLUSH (R429). Requester and word. -/
  | fdbFlush (req : Nat) (data : Word)
  /-- FDB_FLUSH_DONE (R430). -/
  | fdbFlushDone
  /-- AGG_WRITE (R438). Requester, group and word. -/
  | aggWrite (req : Nat) (g : Nat) (data : Word)
  /-- MEMBER_REJOIN (R439). Group and slot. -/
  | memberRejoin (g : Nat) (slot : Nat)
  /-- TRANSMIT_START (R474). Port. -/
  | transmitStart (port : Nat)
  /-- TRANSMIT_END (R462). Port, and the sub-tick phase of the timestamp point in ns. -/
  | transmitEnd (port : Nat) (phase : Nat)
  /-- QUEUE_FLUSH (R478). Requester and word. -/
  | queueFlush (req : Nat) (data : Word)
  /-- QUEUE_FLUSH_DONE (R478). -/
  | queueFlushDone
  /-- BUF_PORT_CFG_WRITE (R487). Requester, port and word. -/
  | bufPortCfgWrite (req : Nat) (n : Nat) (data : Word)
  /-- WATERMARK_RESET (R487). Requester and word. -/
  | watermarkReset (req : Nat) (data : Word)
  /-- BUFFER_AUDIT (R483). Port whose queue links or charges met the uncorrectable error. -/
  | bufferAudit (port : Nat)
  -- streams and gates
  /-- UNLATCH (R497). Requester and word. -/
  | unlatch (req : Nat) (data : Word)
  /-- RATE_LIMITER_WRITE (R516). Requester, port, whether F_STR_RL_n_BURST is written, and word. -/
  | rateLimiterWrite (req : Nat) (n : Nat) (burst : Bool) (data : Word)
  /-- GATE_EDGE (R519). Port. -/
  | gateEdge (port : Nat)
  /-- SCHEDULE_TRIGGER (R522). Requester and word. -/
  | scheduleTrigger (req : Nat) (data : Word)
  /-- SCHEDULE_CHANGE (R525). Port, or 17 for the stream gate windows. -/
  | scheduleChange (port : Nat)
  /-- NETWORK_CYCLE_BOUNDARY (R527). -/
  | networkCycleBoundary
  -- time
  /-- A_STEP (R539). Requester and word. -/
  | aStep (req : Nat) (data : Word)
  /-- B_STEP (R539). Requester and word. -/
  | bStep (req : Nat) (data : Word)
  /-- A_SET (R539). Requester and the word written to F_TIM_A_SET_SEC_HI. -/
  | aSet (req : Nat) (data : Word)
  /-- B_OFF_WRITE (R539). Requester and the word written to F_TIM_B_OFF_SEC_HI. -/
  | bOffWrite (req : Nat) (data : Word)
  /-- INC_WRITE (R534). Requester and the word written to F_TIM_A_INC_HI. -/
  | incWrite (req : Nat) (data : Word)
  /-- RATE_WRITE (R536). Requester and word. -/
  | rateWrite (req : Nat) (data : Word)
  /-- DOMAIN_SWITCH_REQUEST (R543). Requester and the word written to F_TIM_SYS. -/
  | domainSwitchRequest (req : Nat) (data : Word)
  /-- XC_INTERVAL_END (R550). -/
  | xcIntervalEnd
  /-- SYNC_RECEIVE (R561). Instance and port. -/
  | syncReceive (n : Nat) (port : Nat)
  /-- SYNC_TIMEOUT (R556). Instance. -/
  | syncTimeout (n : Nat)
  /-- SYNC_SEND (R556). Instance. -/
  | syncSend (n : Nat)
  /-- PTP_MESSAGE_RECEIVE (R552). Port, the message from its common header on, and its ingress timestamp in ns of system time. -/
  | ptpMessageReceive (port : Nat) (bytes : List Byte) (ts : Nat)
  /-- PDELAY_EXCHANGE (R554). Port, whether the response came, and the measured link delay and rate ratio. -/
  | pdelayExchange (port : Nat) (answered : Bool) (mld : Nat) (nrr : Nat)
  /-- SHUTTER_ARM (R578). Requester, shutter and word. -/
  | shutterArm (req : Nat) (k : Nat) (data : Word)
  /-- SHUTTER_EDGE (R577). Shutter. -/
  | shutterEdge (k : Nat)
  /-- CAPTURE_EDGE (R582). Capture input, direction and sub-tick phase in ns. -/
  | captureEdge (k : Nat) (rising : Bool) (phase : Nat)
  /-- TSQ_POP (R574). Requester and address of the POP register: a field-die address, or 0x1000000 + the host-die offset. -/
  | tsqPop (req : Nat) (addr : Nat)
  /-- TSR_SEND (R573). Port. -/
  | tsrSend (port : Nat)
  /-- TIME_MESSAGE_SEND (R583). -/
  | timeMessageSend
  /-- TIME_MESSAGE_RECEIVE (R584). Host_local at the message's arrival, ns. -/
  | timeMessageReceive (hostLocal : Nat)
  /-- PTM_DIALOGUE (R585). PTM master time and host_local at t1. -/
  | ptmDialogue (master : Nat) (hostLocal : Nat)
  /-- CORR_SNAP (R586). Word. -/
  | corrSnap (data : Word)
  /-- TIME_CAPTURE_SNAP (R538). Requester and word. -/
  | timeCaptureSnap (req : Nat) (data : Word)
  -- the Crossing
  /-- ACK_SEND (R600). End. -/
  | ackSend (l : LinkId)
  /-- REPLAY_TIMEOUT (R602). End. -/
  | replayTimeout (l : LinkId)
  /-- LANE_FAILURE (R606). End whose receiver declares it, and lane (4 the spare). -/
  | laneFailure (l : LinkId) (lane : Nat)
  /-- SPARE_RECEIVE (R607). End that receives SPARE and the lane named. -/
  | spareReceive (l : LinkId) (lane : Nat)
  /-- SPARE_REPEAT (R607). End. -/
  | spareRepeat (l : LinkId)
  /-- SPARE_DATA_SEEN (R607). End. -/
  | spareDataSeen (l : LinkId)
  /-- TRAINING_LANE_PHASE (R610). End, and the lanes that failed the test, bit k (bit 4 the spare), receive and transmit. -/
  | trainingLanePhase (l : LinkId) (rxBad : Nat) (txBad : Nat)
  /-- TRAINING_RESTART (R611). End. -/
  | trainingRestart (l : LinkId)
  /-- TRAIN_RECEIVE (R612). End. -/
  | trainReceive (l : LinkId)
  /-- TRAIN_ECHO_RECEIVE (R615). End, and the measured transit in units of 2^-4 ns. -/
  | trainEchoReceive (l : LinkId) (halfInterval : Nat)
  /-- CROSSING_TRAINING_COMPLETE (R612). End. -/
  | crossingTrainingComplete (l : LinkId)
  /-- RETRAIN (R610). End, requester and word written to its CTRL register. -/
  | retrain (l : LinkId) (req : Nat) (data : Word)
  /-- APERTURE_READ (R626). Function, aperture offset and byte enables. -/
  | apertureRead (f : Nat) (off : Nat) (be : Nat)
  /-- APERTURE_READ_TIMEOUT (R626). Tag. -/
  | apertureReadTimeout (tag : Nat)
  /-- APERTURE_WRITE (R628). Function, aperture offset, byte enables of the first and the last word, and the words of one request. -/
  | apertureWrite (f : Nat) (off : Nat) (firstBe : Nat) (lastBe : Nat) (words : List Word)
  /-- REGW (R620). -/
  | regw
  /-- REGR (R620). -/
  | regr
  /-- REGC (R626). -/
  | regc
  /-- EVT (R709). -/
  | evt
  /-- FN_RESET_RECEIVE (R281). -/
  | fnResetReceive
  /-- HOLD_PURGE (R630). Writing function and word. -/
  | holdPurge (f : Nat) (data : Word)
  -- twin
  /-- HELLO (R640). -/
  | hello
  /-- GRANT (R641). -/
  | grant
  /-- STATUS_SEND (R655). -/
  | statusSend
  /-- STATUS (R656). -/
  | status
  /-- STATUS_ABSENCE (R655). -/
  | statusAbsence
  /-- RECORD_APPLY (R648). -/
  | recordApply
  /-- RECORD_LOST (R648). -/
  | recordLost
  /-- RELINQUISH (R656). -/
  | relinquish
  /-- TAKEOVER (R657). -/
  | takeover
  /-- REQ (R659). -/
  | req
  /-- HANDOVER (R660). -/
  | handover
  /-- TWIN_ENABLE_WRITE (R664). Requester and word. -/
  | twinEnableWrite (req : Nat) (data : Word)
  /-- HOLDOFF_RESET (R662). -/
  | holdoffReset
  -- host rings
  /-- TX_TAIL_DOORBELL (R681). Function, its local queue pair and word. -/
  | txTailDoorbell (f : Nat) (ring : Nat) (data : Word)
  /-- RX_TAIL_DOORBELL (R681). Function, its local queue pair and word. -/
  | rxTailDoorbell (f : Nat) (ring : Nat) (data : Word)
  /-- CQ_HEAD_DOORBELL (R681). Function, its local queue pair and word. -/
  | cqHeadDoorbell (f : Nat) (ring : Nat) (data : Word)
  /-- RING_ENABLE_WRITE (R678). Function and word written to H_FUN_Q_CTRL of the selected queue pair. -/
  | ringEnableWrite (f : Nat) (data : Word)
  /-- FUNCTION_CONFIG_WRITE (R674). Writing function, function configured, whether FN_CFG, and word. -/
  | functionConfigWrite (f : Nat) (target : Nat) (cfg : Bool) (data : Word)
  /-- TX_FETCH_DONE (R684). Queue pair, the descriptors fetched and the frame bytes fetched. -/
  | txFetchDone (qp : Nat) (descs : List (List Byte)) (data : List Byte)
  /-- DMA_ERROR (R689). Queue pair, and the cookie of the frame's first descriptor, 0 when it could not be read. -/
  | dmaError (qp : Nat) (cookie : Nat)
  /-- TX_FRAME_CROSS (R685). -/
  | txFrameCross
  /-- DATA (R617). Receiving end. -/
  | data (l : LinkId)
  /-- LAUNCH_STORE_ARRIVAL (R693). -/
  | launchStoreArrival
  /-- LAUNCH_RELEASE (R694). -/
  | launchRelease
  /-- RX_DELIVERY (R701). The receive descriptors that the host die reads. -/
  | rxDelivery (descs : List (List Byte))
  /-- INTERRUPT_MODERATION (R707). Queue pair (2048 the event ring) and cause: 0 count, 1 time, 2 irq_now. -/
  | interruptModeration (qp : Nat) (cause : Nat)
  /-- FLR (R711). Function. -/
  | flr (f : Nat)
  /-- HOT_RESET (R712). -/
  | hotReset
  /-- STEERING_ENTRY_WRITE (R700). Writing function, BAR0 offset and word. -/
  | steeringEntryWrite (f : Nat) (off : Nat) (data : Word)
  -- check-value engines
  /-- CHK_POLY_WRITE (R723). Writing function, engine and word. -/
  | chkPolyWrite (f : Nat) (n : Nat) (data : Word)
  /-- CHK_RUN_WRITE (R733). Writing function, engine and the word written to H_CHK_n_RUN_HI. -/
  | chkRunWrite (f : Nat) (n : Nat) (data : Word)
  /-- CHK_HOLD_WRITE (R732). Writing function, engine and word. -/
  | chkHoldWrite (f : Nat) (n : Nat) (data : Word)
  -- serial port
  /-- SPI_ROLE_WRITE (R736). Requester and word. -/
  | spiRoleWrite (req : Nat) (data : Word)
  /-- READ (R747). Address, words, and the period of the serial clock in ns. -/
  | read (addr : Nat) (count : Nat) (period : Nat)
  /-- WRITE (R748). Address, words and CRC received. -/
  | write (addr : Nat) (words : List Word) (crc : Nat)
  /-- STATUS_COMMAND (R744). -/
  | statusCommand
  /-- ID (R744). -/
  | id
  /-- MGR_RESET (R738). Key bytes received. -/
  | mgrReset (key : Nat)
  /-- MANAGER_TIMEOUT (R738). -/
  | managerTimeout
  /-- SPI_SEL_ABORT (R749). Command byte and address received. -/
  | spiSelAbort (cmd : Nat) (addr : Nat)
  /-- SPI_SLAVE_WRITE (R751). Requester and word. -/
  | spiSlaveWrite (req : Nat) (data : Word)
  /-- WINDOW_DOORBELL (R717). Window address and word. -/
  | windowDoorbell (addr : Nat) (data : Word)
  -- pins
  /-- PIN_OUT_WRITE (R763). Requester, register offset (0x10, 0x14, 0x18 or 0x1C) and word. -/
  | pinOutWrite (req : Nat) (off : Nat) (data : Word)
  /-- PIN_CFG_WRITE (R761). Requester, pin and word. -/
  | pinCfgWrite (req : Nat) (n : Nat) (data : Word)
  /-- PIN_EDGE (R771). Pin and direction. -/
  | pinEdge (n : Nat) (rising : Bool)
  /-- HOST_PIN_EDGE (R774). Pin and direction. -/
  | hostPinEdge (n : Nat) (rising : Bool)
  /-- DISCREPANCY_FAULT (R777). Pair: 0 STOP, 1 BREAK. -/
  | discrepancyFault (pair : Nat)
  /-- PAIR_ACTION_WRITE (R787). Requester, pair, whether _ACT is written, and word. -/
  | pairActionWrite (req : Nat) (pair : Nat) (act : Bool) (data : Word)
  -- counters and faults
  /-- COUNTER_SNAPSHOT (R798). Requester and word. -/
  | counterSnapshot (req : Nat) (data : Word)
  /-- SNAPSHOT_DONE (R799). Whether the serial bank. -/
  | snapshotDone (serial : Bool)
  /-- SCRUB_PASS (R815). -/
  | scrubPass
  /-- WATCHDOG (R819). Table-engine instance. -/
  | watchdog (inst : Nat)
  /-- STATE_TABLE_COMMIT (R830). Requester and word. -/
  | stateTableCommit (req : Nat) (data : Word)
  /-- STATE_TABLE_CHECK_DONE (R831). -/
  | stateTableCheckDone
  /-- HOST_FAULT_LATCH (R820). Host fault code, function, and for HOST_ECC where the word lies: 0 replay buffer, 1 hold queue, 2 frame buffer, 3 descriptor store. -/
  | hostFaultLatch (code : Nat) (func : Nat) (place : Nat)
  -- perturbation
  /-- PTB_ARM (R834). Die, requester and word. -/
  | ptbArm (host : Bool) (req : Nat) (data : Word)
  /-- PTB_DELAY (R835). Requester and word. -/
  | ptbDelay (req : Nat) (data : Word)
  /-- PTB_HOLD (R835). Requester and word. -/
  | ptbHold (req : Nat) (data : Word)
  /-- PTB_HOLD_END (R841). -/
  | ptbHoldEnd
  /-- PTB_LANE (R836). Die, requester and word. -/
  | ptbLane (host : Bool) (req : Nat) (data : Word)
  /-- PTB_ACK (R835). Die, requester and word. -/
  | ptbAck (host : Bool) (req : Nat) (data : Word)
  /-- PTB_SKEW (R835). Requester and word. -/
  | ptbSkew (req : Nat) (data : Word)
  /-- PTB_XC (R835). Requester and word. -/
  | ptbXc (req : Nat) (data : Word)
  /-- PTB_PROOF (R835). Requester and word. -/
  | ptbProof (req : Nat) (data : Word)
  /-- PTB_PAIR (R835). Requester and word. -/
  | ptbPair (req : Nat) (data : Word)
  /-- PTB_ECC (R836). Die, requester and word. -/
  | ptbEcc (host : Bool) (req : Nat) (data : Word)
  /-- PTB_TMR (R836). Requester and word. -/
  | ptbTmr (req : Nat) (data : Word)
  /-- PTB_LOCK (R836). Requester and word. -/
  | ptbLock (req : Nat) (data : Word)
  /-- PTB_WDOG (R835). Requester and word. -/
  | ptbWdog (req : Nat) (data : Word)
  /-- PTB_DMA (R835). Requester and word. -/
  | ptbDma (req : Nat) (data : Word)
  /-- PTB_LIFETIME_EXPIRY (R839). Die. -/
  | ptbLifetimeExpiry (host : Bool)
  -- segments
  /-- PLCA_WRITE (R340). Requester, segment and word. -/
  | plcaWrite (req : Nat) (n : Nat) (data : Word)
  /-- BEACON_SEND (R343). Segment. -/
  | beaconSend (n : Nat)
  /-- BEACON_RECEIVE (R351). Segment. -/
  | beaconReceive (n : Nat)
  /-- TO_TIMER_EXPIRY (R344). Segment. -/
  | toTimerExpiry (n : Nat)
  /-- TRANSMIT_OPPORTUNITY (R357). Segment. -/
  | transmitOpportunity (n : Nat)
  /-- BURST_TIMER_EXPIRY (R348). Segment. -/
  | burstTimerExpiry (n : Nat)
  /-- BEACON_TIMEOUT (R352). Segment. -/
  | beaconTimeout (n : Nat)
  /-- DOWN_MS_EXPIRY (R354). Segment. -/
  | downMsExpiry (n : Nat)
  /-- PLCA_OVERLAP (R362). Segment. -/
  | plcaOverlap (n : Nat)
  /-- TX_OVERLAP (R364). Segment. -/
  | txOverlap (n : Nat)
  /-- OVERLAP_WINDOW_END (R366). Segment. -/
  | overlapWindowEnd (n : Nat)
  /-- TSR (R575). -/
  | tsr
  /-- VDD_SL_LOSS (R875). Voltage at PD_VCOMB in mV. -/
  | vddSlLoss (mv : Nat)
  /-- DARKROOM_POWER_GOOD_FALL (R114). -/
  | darkroomPowerGoodFall
  /-- OVER_VOLTAGE_TURN_OFF (R82). Line voltage in mV. -/
  | overVoltageTurnOff (mv : Nat)
  /-- OVER_VOLTAGE_RECOVERY (R82). Line voltage in mV. -/
  | overVoltageRecovery (mv : Nat)
  /-- SCCP_EXCHANGE (R305). Trunk and the sccp_state that the exchange leaves. -/
  | sccpExchange (n : Nat) (state : Nat)
  /-- ANNOUNCE_SEND (R555). Instance. -/
  | announceSend (n : Nat)
  /-- ANNOUNCE_TIMEOUT (R555). Instance. -/
  | announceTimeout (n : Nat)
  /-- EXPOSURE_WAKE_POINT (R139). Exposure entry and port. -/
  | exposureWakePoint (entry : Nat) (port : Nat)
  /-- PARTNER_AWAKE (R144). Port. -/
  | partnerAwake (port : Nat)
  /-- POST_OVERLAP_SILENCE (R363). Segment. -/
  | postOverlapSilence (n : Nat)
  /-- HOLDOFF_ELAPSED (R659). -/
  | holdoffElapsed
  /-- VECTOR_UNMASK (R669). Vector. -/
  | vectorUnmask (v : Nat)
deriving DecidableEq, Repr

end Sys2Proof
end

