-- ==== Sys2Proof/Decode.lean ====
section
/-! DEFINITION. The commands that a word spells. No row of the table of operations and events gives bits, so no word
spells a command. -/

namespace Sys2Proof

/-- The command that a word of `nbits` bits spells: none, as no row of the table gives bits. -/
def decodeTableWord (_nbits _w : Nat) : Option Instr := none

end Sys2Proof
end

