-- ==== Sys2Proof/Machine/Bits.lean ====
section
/-! DEFINITION. Bit fields, signed readings, byte order, and the cyclic redundancy checks that the spec uses. -/

namespace Sys2Proof.Machine

/-- A named bit field: the address of its register and its highest and lowest bit. -/
structure Fld where
  addr : Nat
  hi   : Nat
  lo   : Nat
deriving DecidableEq, Repr

/-- Bits `hi` down to `lo` of a number. -/
def bitsOf (w hi lo : Nat) : Nat := (w >>> lo) % 2 ^ (hi + 1 - lo)

/-- Bit `i` of a number, as 0 or 1. -/
def bitOf (w i : Nat) : Nat := (w >>> i) % 2

/-- Whether bit `i` of a number is set. -/
def hasBit (w i : Nat) : Bool := (w >>> i) % 2 == 1

/-- `w` with bits `hi` down to `lo` replaced by the low bits of `v`. -/
def putBits (w hi lo v : Nat) : Nat :=
  w - (bitsOf w hi lo <<< lo) + ((v % 2 ^ (hi + 1 - lo)) <<< lo)

/-- `w` with bit `i` set. -/
def setBit (w i : Nat) : Nat := if hasBit w i then w else w + 2 ^ i

/-- `w` with bit `i` cleared. -/
def clrBit (w i : Nat) : Nat := if hasBit w i then w - 2 ^ i else w

/-- Bits of `a` that `b` lacks, over 32 bits. -/
def andNot (a b : Nat) : Nat := a - Nat.land a b

/-- A number of `n` bits read as two's complement. -/
def toSigned (n v : Nat) : Int := if v % 2 ^ n < 2 ^ (n - 1) then (v % 2 ^ n : Nat) else ((v % 2 ^ n : Nat) : Int) - (2 ^ n : Nat)

/-- An integer as an `n`-bit two's complement number. -/
def ofSigned (n : Nat) (i : Int) : Nat := (i % ((2 ^ n : Nat) : Int)).toNat

/-- A natural number as a register word. -/
def word (n : Nat) : Word := BitVec.ofNat 32 n

/-- How many of the low `n` bits of `w` are set. -/
def popCount (w : Nat) : Nat → Nat
  | 0 => 0
  | n + 1 => popCount w n + bitOf w n

/-- The four bytes of a word, least significant first. -/
def bytesLE (w : Nat) : List Byte :=
  [BitVec.ofNat 8 w, BitVec.ofNat 8 (w >>> 8), BitVec.ofNat 8 (w >>> 16), BitVec.ofNat 8 (w >>> 24)]

/-- The number that bytes spell, least significant first. -/
def leBytes : List Byte → Nat
  | [] => 0
  | b :: bs => b.toNat + 256 * leBytes bs

/-- The number that bytes spell, most significant first (network order). -/
def beBytes (bs : List Byte) : Nat := bs.foldl (fun a b => a * 256 + b.toNat) 0

/-- A number as `n` bytes, most significant first. -/
def bytesBE (n v : Nat) : List Byte :=
  (List.range n).map (fun i => BitVec.ofNat 8 (v >>> (8 * (n - 1 - i))))

/-- Byte `i` of a list, 0 past its end. -/
def byteAt (bs : List Byte) (i : Nat) : Nat := (bs.getD i 0).toNat

/-- The big-endian number in `n` bytes from offset `i`. -/
def beAt (bs : List Byte) (i n : Nat) : Nat := beBytes ((bs.drop i).take n)

/-- Little-endian word `k` of a byte list. -/
def wordAt (bs : List Byte) (k : Nat) : Nat := leBytes ((bs.drop (4 * k)).take 4)

/-- `bs` padded with zero bytes, or cut, to `n` bytes. -/
def fitBytes (n : Nat) (bs : List Byte) : List Byte := (bs ++ List.replicate n 0).take n

/-- One bit of a reflected cyclic redundancy check. -/
def crcBit (poly c : Nat) : Nat := if c % 2 == 1 then Nat.xor (c / 2) poly else c / 2

/-- One byte of a reflected cyclic redundancy check. -/
def crcByte (poly c : Nat) (b : Byte) : Nat :=
  crcBit poly (crcBit poly (crcBit poly (crcBit poly (crcBit poly (crcBit poly (crcBit poly (crcBit poly
    (Nat.xor c b.toNat))))))))

/-- The register of a reflected cyclic redundancy check after the bytes `bs`, from the register value `c`. -/
def crcRun (poly c : Nat) (bs : List Byte) : Nat := bs.foldl (crcByte poly) c

/-- The reflected polynomial of CRC-32C, 0x1EDC6F41 (R597). -/
def polyC : Nat := 0x82F63B78

/-- The reflected polynomial of the Ethernet FCS, 0x04C11DB7. -/
def polyFcs : Nat := 0xEDB88320

/-- CRC-32C of bytes: initial value and final exclusive-OR 0xFFFFFFFF (R267, R597). -/
def crc32c (bs : List Byte) : Nat := Nat.xor (crcRun polyC 0xFFFFFFFF bs) 0xFFFFFFFF

/-- The Ethernet frame check sequence of bytes, as a number whose low byte is sent first. -/
def fcs32 (bs : List Byte) : Nat := Nat.xor (crcRun polyFcs 0xFFFFFFFF bs) 0xFFFFFFFF

/-- One bit of a 32-bit reflected check run backwards: `crcBit` undone. The polynomial has bit 31 set, so bit 31 of
the register says whether the polynomial was added. -/
def uncrcBit (poly c : Nat) : Nat :=
  if hasBit c 31 then (2 * Nat.xor c poly + 1) % 2 ^ 32 else (2 * c) % 2 ^ 32

/-- One byte of a 32-bit reflected check run backwards. -/
def uncrcByte (poly c : Nat) (b : Byte) : Nat :=
  Nat.xor (uncrcBit poly (uncrcBit poly (uncrcBit poly (uncrcBit poly (uncrcBit poly (uncrcBit poly
    (uncrcBit poly (uncrcBit poly c)))))))) b.toNat

/-- The seed for which a 60-byte body carries the given CRC: the initial register is the ones' complement of the
sequence number (R597), found by running the check backwards over the body (R599). -/
def seedOf (body : List Byte) (crc : Nat) : Nat :=
  Nat.xor (body.reverse.foldl (uncrcByte polyC) (Nat.xor crc 0xFFFFFFFF)) 0xFFFFFFFF

/-- The CRC of a 60-byte body sent under the sequence number `seed` (R597). -/
def seededCrc (seed : Nat) (body : List Byte) : Nat :=
  Nat.xor (crcRun polyC (Nat.xor seed 0xFFFFFFFF) body) 0xFFFFFFFF

/-- Fold a state through a list of indices 0 to `n - 1`. -/
def forRange {σ : Type} (n : Nat) (f : Nat → σ → σ) (s : σ) : σ := (List.range n).foldl (fun t i => f i t) s

/-- Fold a state through a list. -/
def forAll {α σ : Type} (xs : List α) (f : α → σ → σ) (s : σ) : σ := xs.foldl (fun t x => f x t) s

end Sys2Proof.Machine
end

