-- ==== Sys2Proof/Machine/RegNames.lean ====
section
/-! DEFINITION. The field die's registers and their fields by name: the address of each register (chapter 23) and
the bit positions its owning chapter gives each field. A register with an index takes it as its argument. -/

namespace Sys2Proof.Machine

/-- `F_GLB_ID`: 06 Table 6.11 (R1). -/
def F_GLB_ID : Nat := 0x000000
def F_GLB_ID_order : Fld := ⟨F_GLB_ID, 31, 24⟩
def F_GLB_ID_die : Fld := ⟨F_GLB_ID, 23, 16⟩
def F_GLB_ID_revision : Fld := ⟨F_GLB_ID, 15, 8⟩
def F_GLB_ID_generation : Fld := ⟨F_GLB_ID, 7, 0⟩
/-- `F_GLB_STRAP`: 04 Table 4.7 R159. -/
def F_GLB_STRAP : Nat := 0x000040
def F_GLB_STRAP_strap : Fld := ⟨F_GLB_STRAP, 3, 0⟩
/-- `F_GLB_RST_CAUSE`: 04 Table 4.7 R163. -/
def F_GLB_RST_CAUSE : Nat := 0x000044
def F_GLB_RST_CAUSE_cause : Fld := ⟨F_GLB_RST_CAUSE, 3, 0⟩
/-- `F_GLB_BOOT_CNT`: 04 Table 4.7 R164. -/
def F_GLB_BOOT_CNT : Nat := 0x000048
def F_GLB_BOOT_CNT_count : Fld := ⟨F_GLB_BOOT_CNT, 31, 0⟩
/-- `F_GLB_CFG_SRC`: 04 Table 4.7 R172. -/
def F_GLB_CFG_SRC : Nat := 0x00004C
def F_GLB_CFG_SRC_size : Fld := ⟨F_GLB_CFG_SRC, 31, 16⟩
def F_GLB_CFG_SRC_key_seen : Fld := ⟨F_GLB_CFG_SRC, 8, 8⟩
def F_GLB_CFG_SRC_state : Fld := ⟨F_GLB_CFG_SRC, 7, 4⟩
def F_GLB_CFG_SRC_source : Fld := ⟨F_GLB_CFG_SRC, 3, 0⟩
/-- `F_GLB_RESET`: 04 Table 4.7 R165. -/
def F_GLB_RESET : Nat := 0x000050
def F_GLB_RESET_reset : Fld := ⟨F_GLB_RESET, 31, 0⟩
/-- `F_GLB_START`: 04 Table 4.7 R178. -/
def F_GLB_START : Nat := 0x000054
def F_GLB_START_go : Fld := ⟨F_GLB_START, 0, 0⟩
/-- `F_GLB_DIE_ID_LO`: 04 Table 4.7 R187. -/
def F_GLB_DIE_ID_LO : Nat := 0x000058
def F_GLB_DIE_ID_LO_id_lo : Fld := ⟨F_GLB_DIE_ID_LO, 31, 0⟩
/-- `F_GLB_DIE_ID_HI`: 04 Table 4.7 R187. -/
def F_GLB_DIE_ID_HI : Nat := 0x00005C
def F_GLB_DIE_ID_HI_id_hi : Fld := ⟨F_GLB_DIE_ID_HI, 31, 0⟩
/-- `F_GLB_BASE_MAC_LO`: 04 Table 4.7 R188. -/
def F_GLB_BASE_MAC_LO : Nat := 0x000060
def F_GLB_BASE_MAC_LO_octets36 : Fld := ⟨F_GLB_BASE_MAC_LO, 31, 0⟩
/-- `F_GLB_BASE_MAC_HI`: 04 Table 4.7 R188. -/
def F_GLB_BASE_MAC_HI : Nat := 0x000064
def F_GLB_BASE_MAC_HI_octets12 : Fld := ⟨F_GLB_BASE_MAC_HI, 15, 0⟩
/-- `F_GLB_CNT_SNAP`: 20 Table 20.7 R798. -/
def F_GLB_CNT_SNAP : Nat := 0x000080
def F_GLB_CNT_SNAP_busy : Fld := ⟨F_GLB_CNT_SNAP, 31, 31⟩
def F_GLB_CNT_SNAP_snap_no : Fld := ⟨F_GLB_CNT_SNAP, 30, 16⟩
def F_GLB_CNT_SNAP_group : Fld := ⟨F_GLB_CNT_SNAP, 15, 0⟩
/-- `F_PWR_CTRL`: 03 Table 3.6. -/
def F_PWR_CTRL : Nat := 0x010000
def F_PWR_CTRL_tc10_en : Fld := ⟨F_PWR_CTRL, 7, 7⟩
def F_PWR_CTRL_resume_en : Fld := ⟨F_PWR_CTRL, 6, 6⟩
def F_PWR_CTRL_derate_en : Fld := ⟨F_PWR_CTRL, 5, 5⟩
def F_PWR_CTRL_dark_auto : Fld := ⟨F_PWR_CTRL, 4, 4⟩
def F_PWR_CTRL_dark_now : Fld := ⟨F_PWR_CTRL, 2, 2⟩
def F_PWR_CTRL_nap_en : Fld := ⟨F_PWR_CTRL, 1, 1⟩
/-- `F_PWR_STATE`: 03 Table 3.7 R105. -/
def F_PWR_STATE : Nat := 0x010004
def F_PWR_STATE_dark_outcome : Fld := ⟨F_PWR_STATE, 31, 24⟩
def F_PWR_STATE_resume_stat : Fld := ⟨F_PWR_STATE, 7, 4⟩
def F_PWR_STATE_state : Fld := ⟨F_PWR_STATE, 3, 0⟩
/-- `F_PWR_WAKE_SRC`: 03 Table 3.8 R125. -/
def F_PWR_WAKE_SRC : Nat := 0x010008
def F_PWR_WAKE_SRC_exposure : Fld := ⟨F_PWR_WAKE_SRC, 20, 20⟩
def F_PWR_WAKE_SRC_break_pair : Fld := ⟨F_PWR_WAKE_SRC, 17, 17⟩
def F_PWR_WAKE_SRC_stop_pair : Fld := ⟨F_PWR_WAKE_SRC, 16, 16⟩
def F_PWR_WAKE_SRC_det : Fld := ⟨F_PWR_WAKE_SRC, 11, 0⟩
/-- `F_PWR_WAKE_CAUSE`: 03 Table 3.8 R116. -/
def F_PWR_WAKE_CAUSE : Nat := 0x01000C
def F_PWR_WAKE_CAUSE_exposure : Fld := ⟨F_PWR_WAKE_CAUSE, 20, 20⟩
def F_PWR_WAKE_CAUSE_break_pair : Fld := ⟨F_PWR_WAKE_CAUSE, 17, 17⟩
def F_PWR_WAKE_CAUSE_stop_pair : Fld := ⟨F_PWR_WAKE_CAUSE, 16, 16⟩
def F_PWR_WAKE_CAUSE_det : Fld := ⟨F_PWR_WAKE_CAUSE, 11, 0⟩
/-- `F_PWR_DARK_CFG`: 03 Table 3.9. -/
def F_PWR_DARK_CFG : Nat := 0x010010
def F_PWR_DARK_CFG_dark_idle : Fld := ⟨F_PWR_DARK_CFG, 31, 16⟩
def F_PWR_DARK_CFG_dark_min : Fld := ⟨F_PWR_DARK_CFG, 15, 0⟩
/-- `F_PWR_NAP_CFG`: 03 Table 3.9 R135. -/
def F_PWR_NAP_CFG : Nat := 0x010014
def F_PWR_NAP_CFG_nap_lead : Fld := ⟨F_PWR_NAP_CFG, 31, 16⟩
def F_PWR_NAP_CFG_nap_idle : Fld := ⟨F_PWR_NAP_CFG, 15, 0⟩
/-- `F_PWR_LINK_LEAD`: 03 Table 3.9 R137. -/
def F_PWR_LINK_LEAD : Nat := 0x010018
def F_PWR_LINK_LEAD_link_lead : Fld := ⟨F_PWR_LINK_LEAD, 15, 0⟩
/-- `F_PWR_TOL`: 03 Table 3.9 R139. -/
def F_PWR_TOL : Nat := 0x01001C
def F_PWR_TOL_tol_local : Fld := ⟨F_PWR_TOL, 15, 0⟩
/-- `F_PWR_PWAKE`: 03 Table 3.9 R146. -/
def F_PWR_PWAKE : Nat := 0x010020
def F_PWR_PWAKE_pwake_lim : Fld := ⟨F_PWR_PWAKE, 15, 0⟩
/-- `F_PWR_SL_CAL`: 03 Table 3.9 R138. -/
def F_PWR_SL_CAL : Nat := 0x010024
def F_PWR_SL_CAL_tick_len : Fld := ⟨F_PWR_SL_CAL, 31, 0⟩
/-- `F_PWR_SL_CNT_LO`: 03 Table 3.9. -/
def F_PWR_SL_CNT_LO : Nat := 0x010028
def F_PWR_SL_CNT_LO_count_lo : Fld := ⟨F_PWR_SL_CNT_LO, 31, 0⟩
/-- `F_PWR_SL_CNT_HI`: 03 Table 3.9. -/
def F_PWR_SL_CNT_HI : Nat := 0x01002C
def F_PWR_SL_CNT_HI_count_hi : Fld := ⟨F_PWR_SL_CNT_HI, 15, 0⟩
/-- `F_PWR_DARK_WAKE`: 03 Table 3.9 R137. -/
def F_PWR_DARK_WAKE : Nat := 0x010030
def F_PWR_DARK_WAKE_wake_tick : Fld := ⟨F_PWR_DARK_WAKE, 31, 0⟩
/-- `F_PWR_DARK_EPOCH`: 03 Table 3.9 R119. -/
def F_PWR_DARK_EPOCH : Nat := 0x010034
def F_PWR_DARK_EPOCH_epoch : Fld := ⟨F_PWR_DARK_EPOCH, 31, 0⟩
/-- `F_PWR_RESUME_ADDR`: 03 Table 3.9 R122. -/
def F_PWR_RESUME_ADDR : Nat := 0x010038
def F_PWR_RESUME_ADDR_addr : Fld := ⟨F_PWR_RESUME_ADDR, 31, 16⟩
/-- `F_PWR_PTOL`: 03 Table 3.9 R139. -/
def F_PWR_PTOL (n : Nat) : Nat := 0x010040 + n * 0x4
def F_PWR_PTOL_tol_partner (n : Nat) : Fld := ⟨F_PWR_PTOL n, 15, 0⟩
/-- `F_PWR_EVT`: 03 Table 3.9. -/
def F_PWR_EVT : Nat := 0x010070
def F_PWR_EVT_seq : Fld := ⟨F_PWR_EVT, 31, 16⟩
def F_PWR_EVT_flags : Fld := ⟨F_PWR_EVT, 7, 0⟩
/-- `F_PWR_EVT_INFO`: 03 Table 3.9. -/
def F_PWR_EVT_INFO : Nat := 0x010074
def F_PWR_EVT_INFO_port : Fld := ⟨F_PWR_EVT_INFO, 12, 8⟩
def F_PWR_EVT_INFO_index : Fld := ⟨F_PWR_EVT_INFO, 5, 0⟩
/-- `F_PWR_MEAS`: 03 Table 3.9 R149. -/
def F_PWR_MEAS : Nat := 0x010078
def F_PWR_MEAS_tj : Fld := ⟨F_PWR_MEAS, 31, 16⟩
def F_PWR_MEAS_vline : Fld := ⟨F_PWR_MEAS, 15, 0⟩
/-- `F_PWR_BUDGET`: 03 Table 3.9 R152. -/
def F_PWR_BUDGET : Nat := 0x01007C
def F_PWR_BUDGET_budget : Fld := ⟨F_PWR_BUDGET, 31, 16⟩
def F_PWR_BUDGET_demand : Fld := ⟨F_PWR_BUDGET, 15, 0⟩
/-- `F_PWR_SHED`: 03 Table 3.9 R153. -/
def F_PWR_SHED : Nat := 0x010080
def F_PWR_SHED_shed : Fld := ⟨F_PWR_SHED, 15, 0⟩
/-- `F_PWR_DERATE`: 03 Table 3.9 R154. -/
def F_PWR_DERATE : Nat := 0x010084
def F_PWR_DERATE_readmit : Fld := ⟨F_PWR_DERATE, 31, 16⟩
def F_PWR_DERATE_hyst : Fld := ⟨F_PWR_DERATE, 7, 0⟩
/-- `F_PWR_COST`: 03 Table 3.9 R150. -/
def F_PWR_COST : Nat := 0x010088
def F_PWR_COST_cost : Fld := ⟨F_PWR_COST, 31, 0⟩
/-- `F_PWR_SHPRI0`: 03 Table 3.9 R151. -/
def F_PWR_SHPRI0 : Nat := 0x01008C
def F_PWR_SHPRI0_pri : Fld := ⟨F_PWR_SHPRI0, 31, 0⟩
/-- `F_PWR_SHPRI1`: 03 Table 3.9 R151. -/
def F_PWR_SHPRI1 : Nat := 0x010090
def F_PWR_SHPRI1_pri : Fld := ⟨F_PWR_SHPRI1, 31, 0⟩
/-- `F_PWR_CURVE_V0`: 03 Table 3.9 R149. -/
def F_PWR_CURVE_V0 : Nat := 0x010094
def F_PWR_CURVE_V0_volt : Fld := ⟨F_PWR_CURVE_V0, 31, 0⟩
/-- `F_PWR_CURVE_V1`: 03 Table 3.9 R149. -/
def F_PWR_CURVE_V1 : Nat := 0x010098
def F_PWR_CURVE_V1_volt : Fld := ⟨F_PWR_CURVE_V1, 31, 0⟩
/-- `F_PWR_CURVE_T0`: 03 Table 3.9 R149. -/
def F_PWR_CURVE_T0 : Nat := 0x01009C
def F_PWR_CURVE_T0_temp : Fld := ⟨F_PWR_CURVE_T0, 31, 0⟩
/-- `F_PWR_CURVE_T1`: 03 Table 3.9 R149. -/
def F_PWR_CURVE_T1 : Nat := 0x0100A0
def F_PWR_CURVE_T1_temp : Fld := ⟨F_PWR_CURVE_T1, 31, 0⟩
/-- `F_PWR_EXP_BASE_NS`: 03 Table 3.9 R131. -/
def F_PWR_EXP_BASE_NS : Nat := 0x0100A4
def F_PWR_EXP_BASE_NS_ns : Fld := ⟨F_PWR_EXP_BASE_NS, 31, 0⟩
/-- `F_PWR_EXP_BASE_SEC_LO`: 03 Table 3.9 R131. -/
def F_PWR_EXP_BASE_SEC_LO : Nat := 0x0100A8
def F_PWR_EXP_BASE_SEC_LO_sec_lo : Fld := ⟨F_PWR_EXP_BASE_SEC_LO, 31, 0⟩
/-- `F_PWR_EXP_BASE_SEC_HI`: 03 Table 3.9 R157. -/
def F_PWR_EXP_BASE_SEC_HI : Nat := 0x0100AC
def F_PWR_EXP_BASE_SEC_HI_sec_hi : Fld := ⟨F_PWR_EXP_BASE_SEC_HI, 15, 0⟩
/-- `F_CFG_PROOF_CMD`: 06 Table 6.7 R272. -/
def F_CFG_PROOF_CMD : Nat := 0x020000
def F_CFG_PROOF_CMD_op : Fld := ⟨F_CFG_PROOF_CMD, 3, 0⟩
/-- `F_CFG_PROOF_EXP`: 06 Table 6.7 R272. -/
def F_CFG_PROOF_EXP : Nat := 0x020004
def F_CFG_PROOF_EXP_expect : Fld := ⟨F_CFG_PROOF_EXP, 31, 0⟩
/-- `F_CFG_PROOF`: 06 Table 6.7 R269. -/
def F_CFG_PROOF : Nat := 0x020008
def F_CFG_PROOF_proof : Fld := ⟨F_CFG_PROOF, 31, 0⟩
/-- `F_CFG_PROOF_RUN`: 06 Table 6.7 R268. -/
def F_CFG_PROOF_RUN : Nat := 0x02000C
def F_CFG_PROOF_RUN_run : Fld := ⟨F_CFG_PROOF_RUN, 31, 0⟩
/-- `F_CFG_PROOF_STAT`: 06 Table 6.7 R273. -/
def F_CFG_PROOF_STAT : Nat := 0x020010
def F_CFG_PROOF_STAT_sweep_cnt : Fld := ⟨F_CFG_PROOF_STAT, 31, 16⟩
def F_CFG_PROOF_STAT_result : Fld := ⟨F_CFG_PROOF_STAT, 15, 8⟩
def F_CFG_PROOF_STAT_busy : Fld := ⟨F_CFG_PROOF_STAT, 2, 2⟩
def F_CFG_PROOF_STAT_stale : Fld := ⟨F_CFG_PROOF_STAT, 1, 1⟩
def F_CFG_PROOF_STAT_committed : Fld := ⟨F_CFG_PROOF_STAT, 0, 0⟩
/-- `F_CFG_TMR_CNT`: 06 Table 6.7 R263. -/
def F_CFG_TMR_CNT : Nat := 0x020020
def F_CFG_TMR_CNT_count : Fld := ⟨F_CFG_TMR_CNT, 31, 0⟩
/-- `F_CFG_TMR_LAST`: 06 Table 6.7 R263. -/
def F_CFG_TMR_LAST : Nat := 0x020024
def F_CFG_TMR_LAST_copy : Fld := ⟨F_CFG_TMR_LAST, 9, 8⟩
def F_CFG_TMR_LAST_field : Fld := ⟨F_CFG_TMR_LAST, 5, 0⟩
/-- `F_CFG_LOCK_LIFE`: 06 Table 6.7 R282. -/
def F_CFG_LOCK_LIFE : Nat := 0x020030
def F_CFG_LOCK_LIFE_life_ms : Fld := ⟨F_CFG_LOCK_LIFE, 15, 0⟩
/-- `F_CFG_LK_REJ`: 06 Table 6.7 R246. -/
def F_CFG_LK_REJ : Nat := 0x020040
def F_CFG_LK_REJ_count : Fld := ⟨F_CFG_LK_REJ, 31, 0⟩
/-- `F_CFG_EVT`: 06 Table 6.8. -/
def F_CFG_EVT : Nat := 0x020070
def F_CFG_EVT_seq : Fld := ⟨F_CFG_EVT, 31, 16⟩
def F_CFG_EVT_flags : Fld := ⟨F_CFG_EVT, 7, 0⟩
/-- `F_CFG_EVT_INFO`: 06 Table 6.9. -/
def F_CFG_EVT_INFO : Nat := 0x020074
def F_CFG_EVT_INFO_requester : Fld := ⟨F_CFG_EVT_INFO, 31, 24⟩
def F_CFG_EVT_INFO_addr : Fld := ⟨F_CFG_EVT_INFO, 23, 0⟩
/-- `F_CFG_LOCK`: 06 Table 6.10 R276. -/
def F_CFG_LOCK (n : Nat) : Nat := 0x020100 + n * 0x4
def F_CFG_LOCK_granted (n : Nat) : Fld := ⟨F_CFG_LOCK n, 31, 31⟩
def F_CFG_LOCK_orphan (n : Nat) : Fld := ⟨F_CFG_LOCK n, 30, 30⟩
def F_CFG_LOCK_state (n : Nat) : Fld := ⟨F_CFG_LOCK n, 29, 28⟩
def F_CFG_LOCK_owner (n : Nat) : Fld := ⟨F_CFG_LOCK n, 23, 16⟩
def F_CFG_LOCK_grants (n : Nat) : Fld := ⟨F_CFG_LOCK n, 15, 1⟩
def F_CFG_LOCK_release (n : Nat) : Fld := ⟨F_CFG_LOCK n, 0, 0⟩
/-- `F_CFG_LOCK_ACQ`: 06 Table 6.10 R276. -/
def F_CFG_LOCK_ACQ (n : Nat) : Nat := 0x020180 + n * 0x4
def F_CFG_LOCK_ACQ_granted (n : Nat) : Fld := ⟨F_CFG_LOCK_ACQ n, 31, 31⟩
def F_CFG_LOCK_ACQ_orphan (n : Nat) : Fld := ⟨F_CFG_LOCK_ACQ n, 30, 30⟩
def F_CFG_LOCK_ACQ_state (n : Nat) : Fld := ⟨F_CFG_LOCK_ACQ n, 29, 28⟩
def F_CFG_LOCK_ACQ_owner (n : Nat) : Fld := ⟨F_CFG_LOCK_ACQ n, 23, 16⟩
def F_CFG_LOCK_ACQ_grants (n : Nat) : Fld := ⟨F_CFG_LOCK_ACQ n, 15, 1⟩
/-- `F_KEY_CFG`: 05 Table 5.8 R214. -/
def F_KEY_CFG : Nat := 0x030000
def F_KEY_CFG_poll : Fld := ⟨F_KEY_CFG, 31, 16⟩
def F_KEY_CFG_retries : Fld := ⟨F_KEY_CFG, 6, 4⟩
/-- `F_KEY_CMD`: 05 Table 5.8 R217. -/
def F_KEY_CMD : Nat := 0x030004
def F_KEY_CMD_op : Fld := ⟨F_KEY_CMD, 3, 0⟩
/-- `F_KEY_STAT`: 05 Table 5.8 R212. -/
def F_KEY_STAT : Nat := 0x030008
def F_KEY_STAT_busy : Fld := ⟨F_KEY_STAT, 31, 31⟩
def F_KEY_STAT_present : Fld := ⟨F_KEY_STAT, 30, 30⟩
def F_KEY_STAT_blank : Fld := ⟨F_KEY_STAT, 29, 29⟩
def F_KEY_STAT_ptr_single : Fld := ⟨F_KEY_STAT, 28, 28⟩
def F_KEY_STAT_step : Fld := ⟨F_KEY_STAT, 27, 24⟩
def F_KEY_STAT_image_big : Fld := ⟨F_KEY_STAT, 17, 17⟩
def F_KEY_STAT_active : Fld := ⟨F_KEY_STAT, 16, 16⟩
/-- `F_KEY_RESULT`: 05 Table 5.8 R241. -/
def F_KEY_RESULT : Nat := 0x03000C
def F_KEY_RESULT_code : Fld := ⟨F_KEY_RESULT, 31, 24⟩
def F_KEY_RESULT_step : Fld := ⟨F_KEY_RESULT, 23, 20⟩
def F_KEY_RESULT_key_err : Fld := ⟨F_KEY_RESULT, 15, 8⟩
def F_KEY_RESULT_page : Fld := ⟨F_KEY_RESULT, 6, 0⟩
/-- `F_KEY_GEN`: 05 Table 5.8 R212. -/
def F_KEY_GEN : Nat := 0x030010
def F_KEY_GEN_gen : Fld := ⟨F_KEY_GEN, 31, 0⟩
/-- `F_KEY_LIFE0`: 05 Table 5.8 R236. -/
def F_KEY_LIFE0 : Nat := 0x030014
def F_KEY_LIFE0_life0 : Fld := ⟨F_KEY_LIFE0, 31, 0⟩
/-- `F_KEY_LIFE1`: 05 Table 5.8 R236. -/
def F_KEY_LIFE1 : Nat := 0x030018
def F_KEY_LIFE1_life1 : Fld := ⟨F_KEY_LIFE1, 31, 0⟩
/-- `F_KEY_TXN`: 05 Table 5.8 R235. -/
def F_KEY_TXN : Nat := 0x03001C
def F_KEY_TXN_txn : Fld := ⟨F_KEY_TXN, 31, 0⟩
/-- `F_KEY_UID_LO`: 05 Table 5.8 R212. -/
def F_KEY_UID_LO : Nat := 0x030020
def F_KEY_UID_LO_uid_lo : Fld := ⟨F_KEY_UID_LO, 31, 0⟩
/-- `F_KEY_UID_HI`: 05 Table 5.8 R212. -/
def F_KEY_UID_HI : Nat := 0x030024
def F_KEY_UID_HI_uid_hi : Fld := ⟨F_KEY_UID_HI, 31, 0⟩
/-- `F_KEY_PERS`: 05 Table 5.8 R210. -/
def F_KEY_PERS : Nat := 0x030028
def F_KEY_PERS_order : Fld := ⟨F_KEY_PERS, 23, 16⟩
def F_KEY_PERS_flags : Fld := ⟨F_KEY_PERS, 15, 8⟩
def F_KEY_PERS_generation : Fld := ⟨F_KEY_PERS, 7, 0⟩
/-- `F_KEY_EDITION`: 05 Table 5.8 R208. -/
def F_KEY_EDITION : Nat := 0x03002C
def F_KEY_EDITION_edition : Fld := ⟨F_KEY_EDITION, 31, 0⟩
/-- `F_KEY_FORCED`: 05 Table 5.8 R212. -/
def F_KEY_FORCED : Nat := 0x030030
def F_KEY_FORCED_forced : Fld := ⟨F_KEY_FORCED, 15, 0⟩
/-- `F_KEY_SERIAL`: 05 Table 5.8 R208. -/
def F_KEY_SERIAL (n : Nat) : Nat := 0x030040 + n * 0x4
def F_KEY_SERIAL_serial (n : Nat) : Fld := ⟨F_KEY_SERIAL n, 31, 0⟩
/-- `F_KEY_NAME`: 05 Table 5.8 R208. -/
def F_KEY_NAME (n : Nat) : Nat := 0x030060 + n * 0x4
def F_KEY_NAME_name (n : Nat) : Fld := ⟨F_KEY_NAME n, 31, 0⟩
/-- `F_KEY_EVT`: 05 Table 5.8. -/
def F_KEY_EVT : Nat := 0x030080
def F_KEY_EVT_seq : Fld := ⟨F_KEY_EVT, 31, 16⟩
def F_KEY_EVT_flags : Fld := ⟨F_KEY_EVT, 6, 0⟩
/-- `F_SPI_CTRL`: 18 Table 18.4 R735. -/
def F_SPI_CTRL : Nat := 0x040000
def F_SPI_CTRL_role : Fld := ⟨F_SPI_CTRL, 31, 31⟩
def F_SPI_CTRL_master_mode : Fld := ⟨F_SPI_CTRL, 8, 8⟩
def F_SPI_CTRL_div : Fld := ⟨F_SPI_CTRL, 7, 0⟩
/-- `F_SPI_SLAVE`: 18 Table 18.4 R751. -/
def F_SPI_SLAVE : Nat := 0x040004
def F_SPI_SLAVE_cmd_lanes : Fld := ⟨F_SPI_SLAVE, 21, 20⟩
def F_SPI_SLAVE_addr_lanes : Fld := ⟨F_SPI_SLAVE, 19, 18⟩
def F_SPI_SLAVE_data_lanes : Fld := ⟨F_SPI_SLAVE, 17, 16⟩
def F_SPI_SLAVE_dummy : Fld := ⟨F_SPI_SLAVE, 7, 0⟩
/-- `F_SPI_MGR`: 18 Table 18.4 R738. -/
def F_SPI_MGR : Nat := 0x040008
def F_SPI_MGR_mgr_to_ms : Fld := ⟨F_SPI_MGR, 15, 0⟩
/-- `F_SPI_MFLASH0`: 18 Table 18.4 R753. -/
def F_SPI_MFLASH0 : Nat := 0x040010
def F_SPI_MFLASH0_read_op : Fld := ⟨F_SPI_MFLASH0, 31, 24⟩
def F_SPI_MFLASH0_cmd_lanes : Fld := ⟨F_SPI_MFLASH0, 21, 20⟩
def F_SPI_MFLASH0_addr_lanes : Fld := ⟨F_SPI_MFLASH0, 19, 18⟩
def F_SPI_MFLASH0_data_lanes : Fld := ⟨F_SPI_MFLASH0, 17, 16⟩
def F_SPI_MFLASH0_dummy : Fld := ⟨F_SPI_MFLASH0, 15, 8⟩
def F_SPI_MFLASH0_addr4 : Fld := ⟨F_SPI_MFLASH0, 0, 0⟩
/-- `F_SPI_MFLASH1`: 18 Table 18.4. -/
def F_SPI_MFLASH1 : Nat := 0x040014
def F_SPI_MFLASH1_prog_op : Fld := ⟨F_SPI_MFLASH1, 31, 24⟩
def F_SPI_MFLASH1_erase_op : Fld := ⟨F_SPI_MFLASH1, 23, 16⟩
def F_SPI_MFLASH1_wren_op : Fld := ⟨F_SPI_MFLASH1, 15, 8⟩
def F_SPI_MFLASH1_rdsr_op : Fld := ⟨F_SPI_MFLASH1, 7, 0⟩
/-- `F_SPI_MFLASH2`: 18 Table 18.4. -/
def F_SPI_MFLASH2 : Nat := 0x040018
def F_SPI_MFLASH2_erase_64k : Fld := ⟨F_SPI_MFLASH2, 0, 0⟩
/-- `F_SPI_STAT`: 18 Table 18.4. -/
def F_SPI_STAT : Nat := 0x040020
def F_SPI_STAT_cmd_busy : Fld := ⟨F_SPI_STAT, 31, 31⟩
def F_SPI_STAT_flash_busy : Fld := ⟨F_SPI_STAT, 30, 30⟩
def F_SPI_STAT_last_cmd : Fld := ⟨F_SPI_STAT, 15, 8⟩
/-- `F_SPI_ABORTS`: 18 Table 18.4 R749. -/
def F_SPI_ABORTS : Nat := 0x040024
def F_SPI_ABORTS_aborts : Fld := ⟨F_SPI_ABORTS, 31, 0⟩
/-- `F_SPI_EVT`: 18 Table 18.4. -/
def F_SPI_EVT : Nat := 0x040070
def F_SPI_EVT_seq : Fld := ⟨F_SPI_EVT, 31, 16⟩
def F_SPI_EVT_flags : Fld := ⟨F_SPI_EVT, 5, 0⟩
/-- `F_SPI_EVT_INFO`: 18 Table 18.4. -/
def F_SPI_EVT_INFO : Nat := 0x040074
def F_SPI_EVT_INFO_cmd : Fld := ⟨F_SPI_EVT_INFO, 31, 24⟩
def F_SPI_EVT_INFO_addr : Fld := ⟨F_SPI_EVT_INFO, 23, 0⟩
/-- `F_PIN_IN`: 19 Table 19.3 R770. -/
def F_PIN_IN : Nat := 0x050000
def F_PIN_IN_level : Fld := ⟨F_PIN_IN, 23, 0⟩
/-- `F_PIN_OUT`: 19 Table 19.3 R763. -/
def F_PIN_OUT : Nat := 0x050010
def F_PIN_OUT_out : Fld := ⟨F_PIN_OUT, 23, 4⟩
/-- `F_PIN_OUT_S`: 19 Table 19.3 R763. -/
def F_PIN_OUT_S : Nat := 0x050014
def F_PIN_OUT_S_set : Fld := ⟨F_PIN_OUT_S, 23, 4⟩
/-- `F_PIN_OUT_C`: 19 Table 19.3 R763. -/
def F_PIN_OUT_C : Nat := 0x050018
def F_PIN_OUT_C_clr : Fld := ⟨F_PIN_OUT_C, 23, 4⟩
/-- `F_PIN_OUT_T`: 19 Table 19.3 R763. -/
def F_PIN_OUT_T : Nat := 0x05001C
def F_PIN_OUT_T_tgl : Fld := ⟨F_PIN_OUT_T, 23, 4⟩
/-- `F_PIN_REJ`: 19 Table 19.3 R763. -/
def F_PIN_REJ : Nat := 0x050020
def F_PIN_REJ_count : Fld := ⟨F_PIN_REJ, 31, 0⟩
/-- `F_PIN_PAIR_CFG`: 19 Table 19.3 R782. -/
def F_PIN_PAIR_CFG (n : Nat) : Nat := 0x050040 + n * 0x10
def F_PIN_PAIR_CFG_antivalent (n : Nat) : Fld := ⟨F_PIN_PAIR_CFG n, 31, 31⟩
def F_PIN_PAIR_CFG_disc (n : Nat) : Fld := ⟨F_PIN_PAIR_CFG n, 15, 0⟩
/-- `F_PIN_PAIR_STAT`: 19 Table 19.3 R781. -/
def F_PIN_PAIR_STAT (n : Nat) : Nat := 0x050044 + n * 0x10
def F_PIN_PAIR_STAT_state (n : Nat) : Fld := ⟨F_PIN_PAIR_STAT n, 31, 31⟩
def F_PIN_PAIR_STAT_disc_fault (n : Nat) : Fld := ⟨F_PIN_PAIR_STAT n, 30, 30⟩
def F_PIN_PAIR_STAT_samp_a (n : Nat) : Fld := ⟨F_PIN_PAIR_STAT n, 29, 29⟩
def F_PIN_PAIR_STAT_samp_b (n : Nat) : Fld := ⟨F_PIN_PAIR_STAT n, 28, 28⟩
def F_PIN_PAIR_STAT_run (n : Nat) : Fld := ⟨F_PIN_PAIR_STAT n, 15, 0⟩
/-- `F_PIN_PAIR_GATE`: 19 Table 19.3 R783. -/
def F_PIN_PAIR_GATE (n : Nat) : Nat := 0x050048 + n * 0x10
def F_PIN_PAIR_GATE_ports (n : Nat) : Fld := ⟨F_PIN_PAIR_GATE n, 24, 8⟩
def F_PIN_PAIR_GATE_queues (n : Nat) : Fld := ⟨F_PIN_PAIR_GATE n, 7, 0⟩
/-- `F_PIN_PAIR_ACT`: 19 Table 19.3 R783. -/
def F_PIN_PAIR_ACT (n : Nat) : Nat := 0x05004C + n * 0x10
def F_PIN_PAIR_ACT_out_force (n : Nat) : Fld := ⟨F_PIN_PAIR_ACT n, 23, 4⟩
def F_PIN_PAIR_ACT_shut_off (n : Nat) : Fld := ⟨F_PIN_PAIR_ACT n, 3, 0⟩
/-- `F_PIN_EVT`: 19 Table 19.3. -/
def F_PIN_EVT : Nat := 0x050070
def F_PIN_EVT_seq : Fld := ⟨F_PIN_EVT, 31, 16⟩
def F_PIN_EVT_flags : Fld := ⟨F_PIN_EVT, 5, 0⟩
/-- `F_PIN_EVT_INFO`: 19 Table 19.3. -/
def F_PIN_EVT_INFO : Nat := 0x050074
def F_PIN_EVT_INFO_requester : Fld := ⟨F_PIN_EVT_INFO, 31, 24⟩
def F_PIN_EVT_INFO_pin : Fld := ⟨F_PIN_EVT_INFO, 4, 0⟩
/-- `F_PIN_EDGE`: 19 Table 19.3 R771. -/
def F_PIN_EDGE : Nat := 0x050078
def F_PIN_EDGE_seq : Fld := ⟨F_PIN_EDGE, 31, 16⟩
def F_PIN_EDGE_flags : Fld := ⟨F_PIN_EDGE, 15, 0⟩
/-- `F_PIN_CFG`: 19 Table 19.4 R761. -/
def F_PIN_CFG (n : Nat) : Nat := 0x050100 + n * 0x4
def F_PIN_CFG_owner (n : Nat) : Fld := ⟨F_PIN_CFG n, 31, 24⟩
def F_PIN_CFG_dir (n : Nat) : Fld := ⟨F_PIN_CFG n, 8, 8⟩
def F_PIN_CFG_func (n : Nat) : Fld := ⟨F_PIN_CFG n, 7, 7⟩
def F_PIN_CFG_edge (n : Nat) : Fld := ⟨F_PIN_CFG n, 6, 5⟩
def F_PIN_CFG_safe_en (n : Nat) : Fld := ⟨F_PIN_CFG n, 4, 4⟩
def F_PIN_CFG_safe_val (n : Nat) : Fld := ⟨F_PIN_CFG n, 3, 3⟩
/-- `F_FLT_TKO`: 21 Table 21.10 R808. -/
def F_FLT_TKO : Nat := 0x060000
def F_FLT_TKO_tko : Fld := ⟨F_FLT_TKO, 15, 0⟩
/-- `F_FLT_COVER`: 21 Table 21.10 R824. -/
def F_FLT_COVER : Nat := 0x060004
def F_FLT_COVER_cover : Fld := ⟨F_FLT_COVER, 5, 0⟩
/-- `F_FLT_TBL_CORR`: 21 Table 21.10. -/
def F_FLT_TBL_CORR : Nat := 0x060010
def F_FLT_TBL_CORR_corrected : Fld := ⟨F_FLT_TBL_CORR, 31, 0⟩
/-- `F_FLT_SCRUB`: 21 Table 21.10 R815. -/
def F_FLT_SCRUB : Nat := 0x060014
def F_FLT_SCRUB_passes : Fld := ⟨F_FLT_SCRUB, 31, 0⟩
/-- `F_FLT_ST_COMMIT`: 21 Table 21.10 R830. -/
def F_FLT_ST_COMMIT : Nat := 0x060020
def F_FLT_ST_COMMIT_go : Fld := ⟨F_FLT_ST_COMMIT, 31, 31⟩
def F_FLT_ST_COMMIT_force : Fld := ⟨F_FLT_ST_COMMIT, 30, 30⟩
def F_FLT_ST_COMMIT_machine : Fld := ⟨F_FLT_ST_COMMIT, 1, 0⟩
/-- `F_FLT_ST_STAT`: 21 Table 21.10 R830. -/
def F_FLT_ST_STAT : Nat := 0x060024
def F_FLT_ST_STAT_busy : Fld := ⟨F_FLT_ST_STAT, 31, 31⟩
def F_FLT_ST_STAT_unchecked : Fld := ⟨F_FLT_ST_STAT, 19, 16⟩
def F_FLT_ST_STAT_machine : Fld := ⟨F_FLT_ST_STAT, 9, 8⟩
def F_FLT_ST_STAT_result : Fld := ⟨F_FLT_ST_STAT, 7, 0⟩
/-- `F_FLT_EVT`: 21 Table 21.10 R803. -/
def F_FLT_EVT : Nat := 0x060070
def F_FLT_EVT_seq : Fld := ⟨F_FLT_EVT, 31, 16⟩
def F_FLT_EVT_flags : Fld := ⟨F_FLT_EVT, 15, 0⟩
/-- `F_FLT_EVT2`: 21 Table 21.10 R824. -/
def F_FLT_EVT2 : Nat := 0x060078
def F_FLT_EVT2_seq : Fld := ⟨F_FLT_EVT2, 31, 16⟩
def F_FLT_EVT2_flags : Fld := ⟨F_FLT_EVT2, 1, 0⟩
/-- `F_FLT_LOGPTR`: 21 Table 21.10 R806. -/
def F_FLT_LOGPTR : Nat := 0x06007C
def F_FLT_LOGPTR_wraps : Fld := ⟨F_FLT_LOGPTR, 31, 16⟩
def F_FLT_LOGPTR_next : Fld := ⟨F_FLT_LOGPTR, 3, 0⟩
/-- `F_FLT_LOG_A`: 21 Table 21.10 R806. -/
def F_FLT_LOG_A (n : Nat) : Nat := 0x060100 + n * 0x10
def F_FLT_LOG_A_valid (n : Nat) : Fld := ⟨F_FLT_LOG_A n, 31, 31⟩
def F_FLT_LOG_A_ptb (n : Nat) : Fld := ⟨F_FLT_LOG_A n, 30, 30⟩
def F_FLT_LOG_A_code (n : Nat) : Fld := ⟨F_FLT_LOG_A n, 27, 24⟩
def F_FLT_LOG_A_seq (n : Nat) : Fld := ⟨F_FLT_LOG_A n, 15, 0⟩
/-- `F_FLT_LOG_B`: 21 Table 21.10 R874. -/
def F_FLT_LOG_B (n : Nat) : Nat := 0x060104 + n * 0x10
def F_FLT_LOG_B_instance (n : Nat) : Fld := ⟨F_FLT_LOG_B n, 23, 0⟩
/-- `F_FLT_LOG_NS`: 21 Table 21.10 R806. -/
def F_FLT_LOG_NS (n : Nat) : Nat := 0x060108 + n * 0x10
def F_FLT_LOG_NS_ns (n : Nat) : Fld := ⟨F_FLT_LOG_NS n, 31, 0⟩
/-- `F_FLT_LOG_SEC`: 21 Table 21.10 R806. -/
def F_FLT_LOG_SEC (n : Nat) : Nat := 0x06010C + n * 0x10
def F_FLT_LOG_SEC_sec (n : Nat) : Fld := ⟨F_FLT_LOG_SEC n, 31, 0⟩
/-- `F_PTB_ARM`: 22 Table 22.3 R834. -/
def F_PTB_ARM : Nat := 0x070000
def F_PTB_ARM_key : Fld := ⟨F_PTB_ARM, 31, 16⟩
def F_PTB_ARM_armed : Fld := ⟨F_PTB_ARM, 15, 15⟩
def F_PTB_ARM_owner : Fld := ⟨F_PTB_ARM, 7, 0⟩
/-- `F_PTB_LIFE`: 22 Table 22.3 R839. -/
def F_PTB_LIFE : Nat := 0x070004
def F_PTB_LIFE_life_ms : Fld := ⟨F_PTB_LIFE, 15, 0⟩
/-- `F_PTB_ACTIVE`: 22 Table 22.3 R835. -/
def F_PTB_ACTIVE : Nat := 0x070008
def F_PTB_ACTIVE_active : Fld := ⟨F_PTB_ACTIVE, 11, 0⟩
/-- `F_PTB_DELAY`: 22 Table 22.1 R835. -/
def F_PTB_DELAY : Nat := 0x070010
def F_PTB_DELAY_queues : Fld := ⟨F_PTB_DELAY, 31, 24⟩
def F_PTB_DELAY_port : Fld := ⟨F_PTB_DELAY, 20, 16⟩
def F_PTB_DELAY_delay : Fld := ⟨F_PTB_DELAY, 15, 0⟩
/-- `F_PTB_HOLD`: 22 Table 22.1 R835. -/
def F_PTB_HOLD : Nat := 0x070014
def F_PTB_HOLD_queues : Fld := ⟨F_PTB_HOLD, 31, 24⟩
def F_PTB_HOLD_port : Fld := ⟨F_PTB_HOLD, 20, 16⟩
def F_PTB_HOLD_hold_ms : Fld := ⟨F_PTB_HOLD, 15, 0⟩
/-- `F_PTB_LANE`: 22 Table 22.1 R836. -/
def F_PTB_LANE : Nat := 0x070018
def F_PTB_LANE_link : Fld := ⟨F_PTB_LANE, 31, 30⟩
def F_PTB_LANE_dir : Fld := ⟨F_PTB_LANE, 29, 29⟩
def F_PTB_LANE_lane : Fld := ⟨F_PTB_LANE, 26, 24⟩
def F_PTB_LANE_mode : Fld := ⟨F_PTB_LANE, 17, 16⟩
def F_PTB_LANE_n : Fld := ⟨F_PTB_LANE, 15, 0⟩
/-- `F_PTB_ACK`: 22 Table 22.1 R835. -/
def F_PTB_ACK : Nat := 0x07001C
def F_PTB_ACK_link : Fld := ⟨F_PTB_ACK, 31, 30⟩
def F_PTB_ACK_drop_n : Fld := ⟨F_PTB_ACK, 7, 0⟩
/-- `F_PTB_SKEW`: 22 Table 22.1 R835. -/
def F_PTB_SKEW : Nat := 0x070020
def F_PTB_SKEW_sl_skew : Fld := ⟨F_PTB_SKEW, 31, 16⟩
/-- `F_PTB_XC`: 22 Table 22.1 R835. -/
def F_PTB_XC : Nat := 0x070024
def F_PTB_XC_ofs : Fld := ⟨F_PTB_XC, 31, 0⟩
/-- `F_PTB_PROOF`: 22 Table 22.1 R835. -/
def F_PTB_PROOF : Nat := 0x070028
def F_PTB_PROOF_mask : Fld := ⟨F_PTB_PROOF, 31, 0⟩
/-- `F_PTB_PAIR`: 22 Table 22.1 R835. -/
def F_PTB_PAIR : Nat := 0x07002C
def F_PTB_PAIR_pairs : Fld := ⟨F_PTB_PAIR, 17, 16⟩
def F_PTB_PAIR_eff_disc : Fld := ⟨F_PTB_PAIR, 15, 0⟩
/-- `F_PTB_ECC`: 22 Table 22.1 R836. -/
def F_PTB_ECC : Nat := 0x070030
def F_PTB_ECC_go : Fld := ⟨F_PTB_ECC, 31, 31⟩
def F_PTB_ECC_double : Fld := ⟨F_PTB_ECC, 30, 30⟩
def F_PTB_ECC_target : Fld := ⟨F_PTB_ECC, 29, 28⟩
def F_PTB_ECC_where : Fld := ⟨F_PTB_ECC, 23, 0⟩
/-- `F_PTB_TMR`: 22 Table 22.1 R836. -/
def F_PTB_TMR : Nat := 0x070034
def F_PTB_TMR_go : Fld := ⟨F_PTB_TMR, 31, 31⟩
def F_PTB_TMR_mode : Fld := ⟨F_PTB_TMR, 30, 29⟩
def F_PTB_TMR_copy : Fld := ⟨F_PTB_TMR, 28, 27⟩
def F_PTB_TMR_row : Fld := ⟨F_PTB_TMR, 21, 16⟩
def F_PTB_TMR_mask : Fld := ⟨F_PTB_TMR, 15, 0⟩
/-- `F_PTB_LOCK`: 22 Table 22.1 R836. -/
def F_PTB_LOCK : Nat := 0x070038
def F_PTB_LOCK_go : Fld := ⟨F_PTB_LOCK, 31, 31⟩
def F_PTB_LOCK_lock : Fld := ⟨F_PTB_LOCK, 4, 0⟩
/-- `F_PTB_WDOG`: 22 Table 22.1 R835. -/
def F_PTB_WDOG : Nat := 0x07003C
def F_PTB_WDOG_go : Fld := ⟨F_PTB_WDOG, 31, 31⟩
def F_PTB_WDOG_instance : Fld := ⟨F_PTB_WDOG, 4, 0⟩
/-- `F_PTB_EVT`: 22 Table 22.3. -/
def F_PTB_EVT : Nat := 0x070070
def F_PTB_EVT_seq : Fld := ⟨F_PTB_EVT, 31, 16⟩
def F_PTB_EVT_flags : Fld := ⟨F_PTB_EVT, 2, 0⟩
/-- `F_PTB_EVT_INFO`: 22 Table 22.3. -/
def F_PTB_EVT_INFO : Nat := 0x070074
def F_PTB_EVT_INFO_requester : Fld := ⟨F_PTB_EVT_INFO, 31, 24⟩
def F_PTB_EVT_INFO_cause : Fld := ⟨F_PTB_EVT_INFO, 1, 0⟩
/-- `F_PORT_MODE`: 07 Table 7.8 R293. -/
def F_PORT_MODE (n : Nat) : Nat := 0x100000 + n * 0x1000
def F_PORT_MODE_phy_mode (n : Nat) : Fld := ⟨F_PORT_MODE n, 6, 4⟩
def F_PORT_MODE_role (n : Nat) : Fld := ⟨F_PORT_MODE n, 3, 2⟩
def F_PORT_MODE_enable (n : Nat) : Fld := ⟨F_PORT_MODE n, 0, 0⟩
/-- `F_PORT_STAT`: 07 Table 7.9 R297. -/
def F_PORT_STAT (n : Nat) : Nat := 0x100004 + n * 0x1000
def F_PORT_STAT_state (n : Nat) : Fld := ⟨F_PORT_STAT n, 31, 28⟩
def F_PORT_STAT_down_reason (n : Nat) : Fld := ⟨F_PORT_STAT n, 27, 24⟩
def F_PORT_STAT_role_res (n : Nat) : Fld := ⟨F_PORT_STAT n, 17, 16⟩
def F_PORT_STAT_verify_state (n : Nat) : Fld := ⟨F_PORT_STAT n, 10, 8⟩
def F_PORT_STAT_preempt_active (n : Nat) : Fld := ⟨F_PORT_STAT n, 7, 7⟩
def F_PORT_STAT_paused (n : Nat) : Fld := ⟨F_PORT_STAT n, 6, 6⟩
def F_PORT_STAT_tc10 (n : Nat) : Fld := ⟨F_PORT_STAT n, 5, 5⟩
def F_PORT_STAT_category (n : Nat) : Fld := ⟨F_PORT_STAT n, 1, 0⟩
/-- `F_PORT_MAXFRM`: 07 Table 7.10 R325. -/
def F_PORT_MAXFRM (n : Nat) : Nat := 0x100008 + n * 0x1000
def F_PORT_MAXFRM_max_frame (n : Nat) : Fld := ⟨F_PORT_MAXFRM n, 11, 0⟩
/-- `F_PORT_SLEEP`: 07 Table 7.11. -/
def F_PORT_SLEEP (n : Nat) : Nat := 0x10000C + n * 0x1000
def F_PORT_SLEEP_sleep_idle (n : Nat) : Fld := ⟨F_PORT_SLEEP n, 31, 16⟩
def F_PORT_SLEEP_wake_on_tx (n : Nat) : Fld := ⟨F_PORT_SLEEP n, 3, 3⟩
def F_PORT_SLEEP_sleep_follow (n : Nat) : Fld := ⟨F_PORT_SLEEP n, 2, 2⟩
def F_PORT_SLEEP_sleep_req (n : Nat) : Fld := ⟨F_PORT_SLEEP n, 1, 1⟩
def F_PORT_SLEEP_wake_now (n : Nat) : Fld := ⟨F_PORT_SLEEP n, 0, 0⟩
/-- `F_PORT_PREEMPT`: 07 Table 7.12. -/
def F_PORT_PREEMPT (n : Nat) : Nat := 0x100010 + n * 0x1000
def F_PORT_PREEMPT_verify_ms (n : Nat) : Fld := ⟨F_PORT_PREEMPT n, 23, 16⟩
def F_PORT_PREEMPT_express (n : Nat) : Fld := ⟨F_PORT_PREEMPT n, 15, 8⟩
def F_PORT_PREEMPT_add_frag (n : Nat) : Fld := ⟨F_PORT_PREEMPT n, 5, 4⟩
def F_PORT_PREEMPT_verify_dis (n : Nat) : Fld := ⟨F_PORT_PREEMPT n, 1, 1⟩
def F_PORT_PREEMPT_preempt_en (n : Nat) : Fld := ⟨F_PORT_PREEMPT n, 0, 0⟩
/-- `F_PORT_PAUSE`: 07 Table 7.13. -/
def F_PORT_PAUSE (n : Nat) : Nat := 0x100014 + n * 0x1000
def F_PORT_PAUSE_pause_cap (n : Nat) : Fld := ⟨F_PORT_PAUSE n, 31, 16⟩
def F_PORT_PAUSE_pause_mask (n : Nat) : Fld := ⟨F_PORT_PAUSE n, 15, 8⟩
def F_PORT_PAUSE_pause_rx (n : Nat) : Fld := ⟨F_PORT_PAUSE n, 0, 0⟩
/-- `F_PORT_PODL`: 07 Table 7.14 R305. -/
def F_PORT_PODL (n : Nat) : Nat := 0x100018 + n * 0x1000
def F_PORT_PODL_line_live (n : Nat) : Fld := ⟨F_PORT_PODL n, 16, 16⟩
def F_PORT_PODL_class (n : Nat) : Fld := ⟨F_PORT_PODL n, 15, 12⟩
def F_PORT_PODL_sccp_state (n : Nat) : Fld := ⟨F_PORT_PODL n, 11, 8⟩
def F_PORT_PODL_wake_req (n : Nat) : Fld := ⟨F_PORT_PODL n, 2, 2⟩
def F_PORT_PODL_sleep_ok (n : Nat) : Fld := ⟨F_PORT_PODL n, 1, 1⟩
/-- `F_PORT_EVT`: 07 Table 7.15. -/
def F_PORT_EVT (n : Nat) : Nat := 0x100020 + n * 0x1000
def F_PORT_EVT_seq (n : Nat) : Fld := ⟨F_PORT_EVT n, 31, 16⟩
def F_PORT_EVT_flags (n : Nat) : Fld := ⟨F_PORT_EVT n, 7, 0⟩
/-- `F_MDS_PLCA`: 08 Table 8.1 R340. -/
def F_MDS_PLCA (n : Nat) : Nat := 0x120000 + n * 0x100
def F_MDS_PLCA_role (n : Nat) : Fld := ⟨F_MDS_PLCA n, 24, 24⟩
def F_MDS_PLCA_node_id (n : Nat) : Fld := ⟨F_MDS_PLCA n, 20, 16⟩
def F_MDS_PLCA_node_count (n : Nat) : Fld := ⟨F_MDS_PLCA n, 13, 8⟩
def F_MDS_PLCA_to_timer (n : Nat) : Fld := ⟨F_MDS_PLCA n, 7, 0⟩
/-- `F_MDS_BURST`: 08 Table 8.1 R348. -/
def F_MDS_BURST (n : Nat) : Nat := 0x120004 + n * 0x100
def F_MDS_BURST_burst_count (n : Nat) : Fld := ⟨F_MDS_BURST n, 15, 8⟩
def F_MDS_BURST_burst_timer (n : Nat) : Fld := ⟨F_MDS_BURST n, 7, 0⟩
/-- `F_MDS_LOSS`: 08 Table 8.1 R352. -/
def F_MDS_LOSS (n : Nat) : Nat := 0x120008 + n * 0x100
def F_MDS_LOSS_beacon_to (n : Nat) : Fld := ⟨F_MDS_LOSS n, 31, 16⟩
def F_MDS_LOSS_down_ms (n : Nat) : Fld := ⟨F_MDS_LOSS n, 15, 0⟩
/-- `F_MDS_WIN`: 08 Table 8.1 R365. -/
def F_MDS_WIN (n : Nat) : Nat := 0x12000C + n * 0x100
def F_MDS_WIN_win_cycles (n : Nat) : Fld := ⟨F_MDS_WIN n, 15, 0⟩
/-- `F_MDS_DELAY`: 08 Table 8.1 R371. -/
def F_MDS_DELAY (n : Nat) : Nat := 0x120010 + n * 0x100
def F_MDS_DELAY_delay_ns (n : Nat) : Fld := ⟨F_MDS_DELAY n, 31, 0⟩
/-- `F_MDS_STAT`: 08 Table 8.1 R349. -/
def F_MDS_STAT (n : Nat) : Nat := 0x120020 + n * 0x100
def F_MDS_STAT_plca_active (n : Nat) : Fld := ⟨F_MDS_STAT n, 31, 31⟩
def F_MDS_STAT_standby_silent (n : Nat) : Fld := ⟨F_MDS_STAT n, 30, 30⟩
def F_MDS_STAT_cur_to (n : Nat) : Fld := ⟨F_MDS_STAT n, 20, 16⟩
/-- `F_MDS_CYCLE`: 08 Table 8.1 R349. -/
def F_MDS_CYCLE (n : Nat) : Nat := 0x120024 + n * 0x100
def F_MDS_CYCLE_cycle_max (n : Nat) : Fld := ⟨F_MDS_CYCLE n, 31, 16⟩
def F_MDS_CYCLE_cycle_last (n : Nat) : Fld := ⟨F_MDS_CYCLE n, 15, 0⟩
/-- `F_MDS_SEEN`: 08 Table 8.1 R366. -/
def F_MDS_SEEN (n : Nat) : Nat := 0x120028 + n * 0x100
def F_MDS_SEEN_seen (n : Nat) : Fld := ⟨F_MDS_SEEN n, 31, 0⟩
/-- `F_MDS_EVT`: 08 Table 8.1. -/
def F_MDS_EVT (n : Nat) : Nat := 0x120030 + n * 0x100
def F_MDS_EVT_seq (n : Nat) : Fld := ⟨F_MDS_EVT n, 31, 16⟩
def F_MDS_EVT_flags (n : Nat) : Fld := ⟨F_MDS_EVT n, 5, 0⟩
/-- `F_MDS_EVT_INFO`: 08 Table 8.1. -/
def F_MDS_EVT_INFO (n : Nat) : Nat := 0x120034 + n * 0x100
def F_MDS_EVT_INFO_node (n : Nat) : Fld := ⟨F_MDS_EVT_INFO n, 20, 16⟩
/-- `F_CLS_QMAP`: 09 Table 9.5 R395. -/
def F_CLS_QMAP : Nat := 0x140010
def F_CLS_QMAP_qmap : Fld := ⟨F_CLS_QMAP, 23, 0⟩
/-- `F_CLS_CAP_CTRL`: 09 Table 9.5 R402. -/
def F_CLS_CAP_CTRL : Nat := 0x140020
def F_CLS_CAP_CTRL_arm : Fld := ⟨F_CLS_CAP_CTRL, 31, 31⟩
def F_CLS_CAP_CTRL_done : Fld := ⟨F_CLS_CAP_CTRL, 30, 30⟩
def F_CLS_CAP_CTRL_port : Fld := ⟨F_CLS_CAP_CTRL, 4, 0⟩
/-- `F_CLS_CAP`: 09 Table 9.5 R402. -/
def F_CLS_CAP (k : Nat) : Nat := 0x140040 + k * 0x4
def F_CLS_CAP_key (k : Nat) : Fld := ⟨F_CLS_CAP k, 31, 0⟩
/-- `F_CLS_CAP_RES`: 09 Table 9.5 R402. -/
def F_CLS_CAP_RES : Nat := 0x140068
def F_CLS_CAP_RES_hit : Fld := ⟨F_CLS_CAP_RES, 31, 31⟩
def F_CLS_CAP_RES_rule : Fld := ⟨F_CLS_CAP_RES, 26, 16⟩
def F_CLS_CAP_RES_class : Fld := ⟨F_CLS_CAP_RES, 9, 7⟩
def F_CLS_CAP_RES_colour : Fld := ⟨F_CLS_CAP_RES, 6, 5⟩
def F_CLS_CAP_RES_queue : Fld := ⟨F_CLS_CAP_RES, 2, 0⟩
/-- `F_CLS_EVT`: 09 Table 9.5. -/
def F_CLS_EVT : Nat := 0x140070
def F_CLS_EVT_seq : Fld := ⟨F_CLS_EVT, 31, 16⟩
def F_CLS_EVT_flags : Fld := ⟨F_CLS_EVT, 1, 0⟩
/-- `F_CLS_EVT_INFO`: 09 Table 9.5. -/
def F_CLS_EVT_INFO : Nat := 0x140074
def F_CLS_EVT_INFO_code : Fld := ⟨F_CLS_EVT_INFO, 23, 16⟩
def F_CLS_EVT_INFO_index : Fld := ⟨F_CLS_EVT_INFO, 10, 0⟩
/-- `F_CLS_PORT`: 09 Table 9.5 R389. -/
def F_CLS_PORT (n : Nat) : Nat := 0x140100 + n * 0x4
def F_CLS_PORT_err_drop (n : Nat) : Fld := ⟨F_CLS_PORT n, 14, 9⟩
def F_CLS_PORT_dei_yellow (n : Nat) : Fld := ⟨F_CLS_PORT n, 3, 3⟩
def F_CLS_PORT_def_pcp (n : Nat) : Fld := ⟨F_CLS_PORT n, 2, 0⟩
/-- `F_CLS_PCPMAP`: 09 Table 9.5 R395. -/
def F_CLS_PCPMAP (n : Nat) : Nat := 0x140180 + n * 0x4
def F_CLS_PCPMAP_pcpmap (n : Nat) : Fld := ⟨F_CLS_PCPMAP n, 23, 0⟩
/-- `F_FWD_AGE`: 10 Table 10.6 R425. -/
def F_FWD_AGE : Nat := 0x160000
def F_FWD_AGE_age_s : Fld := ⟨F_FWD_AGE, 15, 0⟩
/-- `F_FWD_RSVD`: 10 Table 10.6 R410. -/
def F_FWD_RSVD : Nat := 0x160004
def F_FWD_RSVD_release : Fld := ⟨F_FWD_RSVD, 15, 0⟩
/-- `F_FWD_FLUSH`: 10 Table 10.6 R429. -/
def F_FWD_FLUSH : Nat := 0x160008
def F_FWD_FLUSH_go : Fld := ⟨F_FWD_FLUSH, 31, 31⟩
def F_FWD_FLUSH_busy : Fld := ⟨F_FWD_FLUSH, 30, 30⟩
def F_FWD_FLUSH_match : Fld := ⟨F_FWD_FLUSH, 29, 28⟩
def F_FWD_FLUSH_incl_static : Fld := ⟨F_FWD_FLUSH, 27, 27⟩
def F_FWD_FLUSH_port : Fld := ⟨F_FWD_FLUSH, 20, 16⟩
def F_FWD_FLUSH_vid : Fld := ⟨F_FWD_FLUSH, 11, 0⟩
/-- `F_FWD_FDB_CNT`: 10 Table 10.6. -/
def F_FWD_FDB_CNT : Nat := 0x16000C
def F_FWD_FDB_CNT_static : Fld := ⟨F_FWD_FDB_CNT, 30, 16⟩
def F_FWD_FDB_CNT_learned : Fld := ⟨F_FWD_FDB_CNT, 14, 0⟩
/-- `F_FWD_AGG`: 10 Table 10.6 R438. -/
def F_FWD_AGG (g : Nat) : Nat := 0x160020 + g * 0x4
def F_FWD_AGG_slot_en (g : Nat) : Fld := ⟨F_FWD_AGG g, 31, 28⟩
def F_FWD_AGG_hash_l3 (g : Nat) : Fld := ⟨F_FWD_AGG g, 27, 27⟩
def F_FWD_AGG_slots (g : Nat) : Fld := ⟨F_FWD_AGG g, 19, 0⟩
/-- `F_FWD_AGG_STAT`: 10 Table 10.6 R439. -/
def F_FWD_AGG_STAT (g : Nat) : Nat := 0x160030 + g * 0x4
def F_FWD_AGG_STAT_active (g : Nat) : Fld := ⟨F_FWD_AGG_STAT g, 3, 0⟩
/-- `F_FWD_AGG_REJOIN`: 10 Table 10.6 R439. -/
def F_FWD_AGG_REJOIN : Nat := 0x160040
def F_FWD_AGG_REJOIN_rejoin_ms : Fld := ⟨F_FWD_AGG_REJOIN, 15, 0⟩
/-- `F_FWD_MIR`: 10 Table 10.6 R446. -/
def F_FWD_MIR (s : Nat) : Nat := 0x160050 + s * 0x10
def F_FWD_MIR_en (s : Nat) : Fld := ⟨F_FWD_MIR s, 31, 31⟩
def F_FWD_MIR_dest (s : Nat) : Fld := ⟨F_FWD_MIR s, 4, 0⟩
/-- `F_FWD_MIR_ING`: 10 Table 10.6 R446. -/
def F_FWD_MIR_ING (s : Nat) : Nat := 0x160054 + s * 0x10
def F_FWD_MIR_ING_ing (s : Nat) : Fld := ⟨F_FWD_MIR_ING s, 16, 0⟩
/-- `F_FWD_MIR_EGR`: 10 Table 10.6 R446. -/
def F_FWD_MIR_EGR (s : Nat) : Nat := 0x160058 + s * 0x10
def F_FWD_MIR_EGR_egr (s : Nat) : Fld := ⟨F_FWD_MIR_EGR s, 16, 0⟩
/-- `F_FWD_EVT`: 10 Table 10.6. -/
def F_FWD_EVT : Nat := 0x160070
def F_FWD_EVT_seq : Fld := ⟨F_FWD_EVT, 31, 16⟩
def F_FWD_EVT_flags : Fld := ⟨F_FWD_EVT, 4, 0⟩
/-- `F_FWD_EVT_INFO`: 10 Table 10.6. -/
def F_FWD_EVT_INFO : Nat := 0x160074
def F_FWD_EVT_INFO_code : Fld := ⟨F_FWD_EVT_INFO, 23, 16⟩
def F_FWD_EVT_INFO_index : Fld := ⟨F_FWD_EVT_INFO, 14, 0⟩
/-- `F_FWD_PORT`: 10 Table 10.6 R406. -/
def F_FWD_PORT (n : Nat) : Nat := 0x160100 + n * 0x4
def F_FWD_PORT_pvid (n : Nat) : Fld := ⟨F_FWD_PORT n, 31, 20⟩
def F_FWD_PORT_accept (n : Nat) : Fld := ⟨F_FWD_PORT n, 19, 18⟩
def F_FWD_PORT_tag_mode (n : Nat) : Fld := ⟨F_FWD_PORT n, 17, 17⟩
def F_FWD_PORT_flush_on_down (n : Nat) : Fld := ⟨F_FWD_PORT n, 5, 5⟩
def F_FWD_PORT_ingress_filter (n : Nat) : Fld := ⟨F_FWD_PORT n, 4, 4⟩
def F_FWD_PORT_learn_en (n : Nat) : Fld := ⟨F_FWD_PORT n, 3, 3⟩
def F_FWD_PORT_flood_bc (n : Nat) : Fld := ⟨F_FWD_PORT n, 2, 2⟩
def F_FWD_PORT_flood_mc (n : Nat) : Fld := ⟨F_FWD_PORT n, 1, 1⟩
def F_FWD_PORT_flood_uc (n : Nat) : Fld := ⟨F_FWD_PORT n, 0, 0⟩
/-- `F_FWD_CT`: 10 Table 10.6 R451. -/
def F_FWD_CT (n : Nat) : Nat := 0x160180 + n * 0x4
def F_FWD_CT_classes (n : Nat) : Fld := ⟨F_FWD_CT n, 7, 0⟩
/-- `F_BUF_POOL`: 11 Table 11.2 R463. -/
def F_BUF_POOL : Nat := 0x180000
def F_BUF_POOL_shared_size : Fld := ⟨F_BUF_POOL, 30, 16⟩
def F_BUF_POOL_shared_used : Fld := ⟨F_BUF_POOL, 14, 0⟩
/-- `F_BUF_YEL`: 11 Table 11.2. -/
def F_BUF_YEL : Nat := 0x180004
def F_BUF_YEL_yel_shared : Fld := ⟨F_BUF_YEL, 14, 0⟩
/-- `F_BUF_CTRL`: 11 Table 11.2. -/
def F_BUF_CTRL : Nat := 0x180008
def F_BUF_CTRL_wm_reset : Fld := ⟨F_BUF_CTRL, 0, 0⟩
/-- `F_BUF_POOL_WM`: 11 Table 11.2. -/
def F_BUF_POOL_WM : Nat := 0x18000C
def F_BUF_POOL_WM_shared_wm : Fld := ⟨F_BUF_POOL_WM, 14, 0⟩
/-- `F_BUF_FLUSH`: 11 Table 11.2 R478. -/
def F_BUF_FLUSH : Nat := 0x180010
def F_BUF_FLUSH_go : Fld := ⟨F_BUF_FLUSH, 31, 31⟩
def F_BUF_FLUSH_busy : Fld := ⟨F_BUF_FLUSH, 30, 30⟩
def F_BUF_FLUSH_port : Fld := ⟨F_BUF_FLUSH, 20, 16⟩
def F_BUF_FLUSH_queues : Fld := ⟨F_BUF_FLUSH, 7, 0⟩
/-- `F_BUF_ECC_CNT`: 11 Table 11.2 R481. -/
def F_BUF_ECC_CNT : Nat := 0x180020
def F_BUF_ECC_CNT_corrected : Fld := ⟨F_BUF_ECC_CNT, 31, 0⟩
/-- `F_BUF_ECC_UNC`: 11 Table 11.2 R482. -/
def F_BUF_ECC_UNC : Nat := 0x180024
def F_BUF_ECC_UNC_uncorrected : Fld := ⟨F_BUF_ECC_UNC, 31, 0⟩
/-- `F_BUF_EVT`: 11 Table 11.2. -/
def F_BUF_EVT : Nat := 0x180070
def F_BUF_EVT_seq : Fld := ⟨F_BUF_EVT, 31, 16⟩
def F_BUF_EVT_flags : Fld := ⟨F_BUF_EVT, 4, 0⟩
/-- `F_BUF_EVT_INFO`: 11 Table 11.2. -/
def F_BUF_EVT_INFO : Nat := 0x180074
def F_BUF_EVT_INFO_port : Fld := ⟨F_BUF_EVT_INFO, 28, 24⟩
def F_BUF_EVT_INFO_cell : Fld := ⟨F_BUF_EVT_INFO, 13, 0⟩
/-- `F_BUF_PORT_CFG`: 11 Table 11.2 R487. -/
def F_BUF_PORT_CFG (n : Nat) : Nat := 0x180100 + n * 0x10
def F_BUF_PORT_CFG_rsv_q (n : Nat) : Fld := ⟨F_BUF_PORT_CFG n, 31, 24⟩
def F_BUF_PORT_CFG_rsv (n : Nat) : Fld := ⟨F_BUF_PORT_CFG n, 12, 0⟩
/-- `F_BUF_PORT_LIM`: 11 Table 11.2. -/
def F_BUF_PORT_LIM (n : Nat) : Nat := 0x180104 + n * 0x10
def F_BUF_PORT_LIM_port_lim (n : Nat) : Fld := ⟨F_BUF_PORT_LIM n, 14, 0⟩
/-- `F_BUF_PORT_USE`: 11 Table 11.2. -/
def F_BUF_PORT_USE (n : Nat) : Nat := 0x180108 + n * 0x10
def F_BUF_PORT_USE_shr_used (n : Nat) : Fld := ⟨F_BUF_PORT_USE n, 30, 16⟩
def F_BUF_PORT_USE_res_used (n : Nat) : Fld := ⟨F_BUF_PORT_USE n, 12, 0⟩
/-- `F_BUF_PORT_WM`: 11 Table 11.2. -/
def F_BUF_PORT_WM (n : Nat) : Nat := 0x18010C + n * 0x10
def F_BUF_PORT_WM_shr_wm (n : Nat) : Fld := ⟨F_BUF_PORT_WM n, 30, 16⟩
def F_BUF_PORT_WM_res_wm (n : Nat) : Fld := ⟨F_BUF_PORT_WM n, 12, 0⟩
/-- `F_STR_SCHED`: 12 Table 12.3 R527. -/
def F_STR_SCHED : Nat := 0x1A0000
def F_STR_SCHED_master_port : Fld := ⟨F_STR_SCHED, 4, 0⟩
/-- `F_STR_NCYC`: 12 Table 12.3 R527. -/
def F_STR_NCYC : Nat := 0x1A0004
def F_STR_NCYC_ncyc : Fld := ⟨F_STR_NCYC, 29, 0⟩
/-- `F_STR_CHG_MASK`: 12 Table 12.3 R522. -/
def F_STR_CHG_MASK : Nat := 0x1A0008
def F_STR_CHG_MASK_sgate : Fld := ⟨F_STR_CHG_MASK, 17, 17⟩
def F_STR_CHG_MASK_ports : Fld := ⟨F_STR_CHG_MASK, 16, 0⟩
/-- `F_STR_CHG`: 12 Table 12.3 R522. -/
def F_STR_CHG : Nat := 0x1A000C
def F_STR_CHG_gen : Fld := ⟨F_STR_CHG, 15, 0⟩
/-- `F_STR_CHG_STAT`: 12 Table 12.3 R523. -/
def F_STR_CHG_STAT : Nat := 0x1A0010
def F_STR_CHG_STAT_last_gen : Fld := ⟨F_STR_CHG_STAT, 31, 16⟩
def F_STR_CHG_STAT_result : Fld := ⟨F_STR_CHG_STAT, 15, 8⟩
def F_STR_CHG_STAT_repeats : Fld := ⟨F_STR_CHG_STAT, 7, 1⟩
def F_STR_CHG_STAT_pending : Fld := ⟨F_STR_CHG_STAT, 0, 0⟩
/-- `F_STR_UNLATCH`: 12 Table 12.3 R497. -/
def F_STR_UNLATCH : Nat := 0x1A0020
def F_STR_UNLATCH_kind : Fld := ⟨F_STR_UNLATCH, 31, 31⟩
def F_STR_UNLATCH_index : Fld := ⟨F_STR_UNLATCH, 11, 0⟩
/-- `F_STR_EVT`: 12 Table 12.3. -/
def F_STR_EVT : Nat := 0x1A0070
def F_STR_EVT_seq : Fld := ⟨F_STR_EVT, 31, 16⟩
def F_STR_EVT_flags : Fld := ⟨F_STR_EVT, 6, 0⟩
/-- `F_STR_EVT_INFO`: 12 Table 12.3. -/
def F_STR_EVT_INFO : Nat := 0x1A0074
def F_STR_EVT_INFO_port : Fld := ⟨F_STR_EVT_INFO, 28, 24⟩
def F_STR_EVT_INFO_code : Fld := ⟨F_STR_EVT_INFO, 23, 16⟩
def F_STR_EVT_INFO_index : Fld := ⟨F_STR_EVT_INFO, 11, 0⟩
/-- `F_STR_GCL_CTRL`: 12 Table 12.4. -/
def F_STR_GCL_CTRL (n : Nat) : Nat := 0x1A0400 + n * 0x40
def F_STR_GCL_CTRL_gate_en (n : Nat) : Fld := ⟨F_STR_GCL_CTRL n, 31, 31⟩
def F_STR_GCL_CTRL_admin_len (n : Nat) : Fld := ⟨F_STR_GCL_CTRL n, 8, 0⟩
/-- `F_STR_GCL_CYCLE`: 12 Table 12.4. -/
def F_STR_GCL_CYCLE (n : Nat) : Nat := 0x1A0404 + n * 0x40
def F_STR_GCL_CYCLE_cycle_ns (n : Nat) : Fld := ⟨F_STR_GCL_CYCLE n, 29, 0⟩
/-- `F_STR_GCL_EXT`: 12 Table 12.4 R526. -/
def F_STR_GCL_EXT (n : Nat) : Nat := 0x1A0408 + n * 0x40
def F_STR_GCL_EXT_ext_ns (n : Nat) : Fld := ⟨F_STR_GCL_EXT n, 29, 0⟩
/-- `F_STR_GCL_BASE_NS`: 12 Table 12.4. -/
def F_STR_GCL_BASE_NS (n : Nat) : Nat := 0x1A040C + n * 0x40
def F_STR_GCL_BASE_NS_ns (n : Nat) : Fld := ⟨F_STR_GCL_BASE_NS n, 29, 0⟩
/-- `F_STR_GCL_BASE_SEC_LO`: 12 Table 12.4. -/
def F_STR_GCL_BASE_SEC_LO (n : Nat) : Nat := 0x1A0410 + n * 0x40
def F_STR_GCL_BASE_SEC_LO_sec_lo (n : Nat) : Fld := ⟨F_STR_GCL_BASE_SEC_LO n, 31, 0⟩
/-- `F_STR_GCL_BASE_SEC_HI`: 12 Table 12.4. -/
def F_STR_GCL_BASE_SEC_HI (n : Nat) : Nat := 0x1A0414 + n * 0x40
def F_STR_GCL_BASE_SEC_HI_sec_hi (n : Nat) : Fld := ⟨F_STR_GCL_BASE_SEC_HI n, 15, 0⟩
/-- `F_STR_GCL_HOLD`: 12 Table 12.4 R520. -/
def F_STR_GCL_HOLD (n : Nat) : Nat := 0x1A0418 + n * 0x40
def F_STR_GCL_HOLD_hold_adv (n : Nat) : Fld := ⟨F_STR_GCL_HOLD n, 15, 0⟩
/-- `F_STR_GCL_OPER`: 12 Table 12.4. -/
def F_STR_GCL_OPER (n : Nat) : Nat := 0x1A041C + n * 0x40
def F_STR_GCL_OPER_oper_gen (n : Nat) : Fld := ⟨F_STR_GCL_OPER n, 31, 16⟩
def F_STR_GCL_OPER_active (n : Nat) : Fld := ⟨F_STR_GCL_OPER n, 15, 15⟩
def F_STR_GCL_OPER_oper_len (n : Nat) : Fld := ⟨F_STR_GCL_OPER n, 8, 0⟩
/-- `F_STR_GCL_OCYC`: 12 Table 12.4. -/
def F_STR_GCL_OCYC (n : Nat) : Nat := 0x1A0420 + n * 0x40
def F_STR_GCL_OCYC_oper_cycle (n : Nat) : Fld := ⟨F_STR_GCL_OCYC n, 29, 0⟩
/-- `F_STR_GCL_CUR`: 12 Table 12.4 R530. -/
def F_STR_GCL_CUR (n : Nat) : Nat := 0x1A0424 + n * 0x40
def F_STR_GCL_CUR_short (n : Nat) : Fld := ⟨F_STR_GCL_CUR n, 15, 8⟩
def F_STR_GCL_CUR_entry (n : Nat) : Fld := ⟨F_STR_GCL_CUR n, 7, 0⟩
/-- `F_STR_GCL_CT_NS`: 12 Table 12.4 R849. -/
def F_STR_GCL_CT_NS (n : Nat) : Nat := 0x1A0428 + n * 0x40
def F_STR_GCL_CT_NS_ns (n : Nat) : Fld := ⟨F_STR_GCL_CT_NS n, 29, 0⟩
/-- `F_STR_GCL_CT_SEC_LO`: 12 Table 12.4. -/
def F_STR_GCL_CT_SEC_LO (n : Nat) : Nat := 0x1A042C + n * 0x40
def F_STR_GCL_CT_SEC_LO_sec_lo (n : Nat) : Fld := ⟨F_STR_GCL_CT_SEC_LO n, 31, 0⟩
/-- `F_STR_GCL_CT_SEC_HI`: 12 Table 12.4. -/
def F_STR_GCL_CT_SEC_HI (n : Nat) : Nat := 0x1A0430 + n * 0x40
def F_STR_GCL_CT_SEC_HI_sec_hi (n : Nat) : Fld := ⟨F_STR_GCL_CT_SEC_HI n, 15, 0⟩
/-- `F_STR_RL_CFG`: 12 Table 12.4 R515. -/
def F_STR_RL_CFG (n : Nat) : Nat := 0x1A0434 + n * 0x40
def F_STR_RL_CFG_qmask (n : Nat) : Fld := ⟨F_STR_RL_CFG n, 31, 24⟩
def F_STR_RL_CFG_rate (n : Nat) : Fld := ⟨F_STR_RL_CFG n, 23, 0⟩
/-- `F_STR_RL_BURST`: 12 Table 12.4 R515. -/
def F_STR_RL_BURST (n : Nat) : Nat := 0x1A0438 + n * 0x40
def F_STR_RL_BURST_burst (n : Nat) : Fld := ⟨F_STR_RL_BURST n, 23, 0⟩
/-- `F_TIM_SYS`: 13 Table 13.4 R543. -/
def F_TIM_SYS : Nat := 0x1C0000
def F_TIM_SYS_xc_en : Fld := ⟨F_TIM_SYS, 8, 8⟩
def F_TIM_SYS_active : Fld := ⟨F_TIM_SYS, 4, 4⟩
def F_TIM_SYS_auto_sw : Fld := ⟨F_TIM_SYS, 1, 1⟩
def F_TIM_SYS_domain : Fld := ⟨F_TIM_SYS, 0, 0⟩
/-- `F_TIM_SLEW`: 13 Table 13.4 R546. -/
def F_TIM_SLEW : Nat := 0x1C0004
def F_TIM_SLEW_slew_ppb : Fld := ⟨F_TIM_SLEW, 23, 0⟩
/-- `F_TIM_XC`: 13 Table 13.4 R550. -/
def F_TIM_XC : Nat := 0x1C0008
def F_TIM_XC_xc_lim : Fld := ⟨F_TIM_XC, 31, 0⟩
/-- `F_TIM_DELTA`: 13 Table 13.4 R537. -/
def F_TIM_DELTA : Nat := 0x1C000C
def F_TIM_DELTA_delta : Fld := ⟨F_TIM_DELTA, 31, 0⟩
/-- `F_TIM_CAP_CTRL`: 13 Table 13.4 R538. -/
def F_TIM_CAP_CTRL : Nat := 0x1C0010
def F_TIM_CAP_CTRL_snap : Fld := ⟨F_TIM_CAP_CTRL, 0, 0⟩
/-- `F_TIM_CAP_SYS_NS`: 13 Table 13.4. -/
def F_TIM_CAP_SYS_NS : Nat := 0x1C0014
def F_TIM_CAP_SYS_NS_sys : Fld := ⟨F_TIM_CAP_SYS_NS, 31, 0⟩
/-- `F_TIM_CAP_SYS_SEC_LO`: 13 Table 13.4. -/
def F_TIM_CAP_SYS_SEC_LO : Nat := 0x1C0018
def F_TIM_CAP_SYS_SEC_LO_sys : Fld := ⟨F_TIM_CAP_SYS_SEC_LO, 31, 0⟩
/-- `F_TIM_CAP_SYS_SEC_HI`: 13 Table 13.4. -/
def F_TIM_CAP_SYS_SEC_HI : Nat := 0x1C001C
def F_TIM_CAP_SYS_SEC_HI_sys : Fld := ⟨F_TIM_CAP_SYS_SEC_HI, 15, 0⟩
/-- `F_TIM_CAP_A_NS`: 13 Table 13.4. -/
def F_TIM_CAP_A_NS : Nat := 0x1C0020
def F_TIM_CAP_A_NS_a : Fld := ⟨F_TIM_CAP_A_NS, 31, 0⟩
/-- `F_TIM_CAP_A_SEC_LO`: 13 Table 13.4. -/
def F_TIM_CAP_A_SEC_LO : Nat := 0x1C0024
def F_TIM_CAP_A_SEC_LO_a : Fld := ⟨F_TIM_CAP_A_SEC_LO, 31, 0⟩
/-- `F_TIM_CAP_A_SEC_HI`: 13 Table 13.4. -/
def F_TIM_CAP_A_SEC_HI : Nat := 0x1C0028
def F_TIM_CAP_A_SEC_HI_a : Fld := ⟨F_TIM_CAP_A_SEC_HI, 15, 0⟩
/-- `F_TIM_CAP_B_NS`: 13 Table 13.4. -/
def F_TIM_CAP_B_NS : Nat := 0x1C002C
def F_TIM_CAP_B_NS_b : Fld := ⟨F_TIM_CAP_B_NS, 31, 0⟩
/-- `F_TIM_CAP_B_SEC_LO`: 13 Table 13.4. -/
def F_TIM_CAP_B_SEC_LO : Nat := 0x1C0030
def F_TIM_CAP_B_SEC_LO_b : Fld := ⟨F_TIM_CAP_B_SEC_LO, 31, 0⟩
/-- `F_TIM_CAP_B_SEC_HI`: 13 Table 13.4. -/
def F_TIM_CAP_B_SEC_HI : Nat := 0x1C0034
def F_TIM_CAP_B_SEC_HI_b : Fld := ⟨F_TIM_CAP_B_SEC_HI, 15, 0⟩
/-- `F_TIM_CAP_CNT_LO`: 13 Table 13.4. -/
def F_TIM_CAP_CNT_LO : Nat := 0x1C0038
def F_TIM_CAP_CNT_LO_c : Fld := ⟨F_TIM_CAP_CNT_LO, 31, 0⟩
/-- `F_TIM_CAP_CNT_HI`: 13 Table 13.4. -/
def F_TIM_CAP_CNT_HI : Nat := 0x1C003C
def F_TIM_CAP_CNT_HI_c : Fld := ⟨F_TIM_CAP_CNT_HI, 31, 0⟩
/-- `F_TIM_A_INC_LO`: 13 Table 13.4 R534. -/
def F_TIM_A_INC_LO : Nat := 0x1C0040
def F_TIM_A_INC_LO_frac : Fld := ⟨F_TIM_A_INC_LO, 31, 0⟩
/-- `F_TIM_A_INC_HI`: 13 Table 13.4 R534. -/
def F_TIM_A_INC_HI : Nat := 0x1C0044
def F_TIM_A_INC_HI_int : Fld := ⟨F_TIM_A_INC_HI, 3, 0⟩
/-- `F_TIM_A_SET_NS`: 13 Table 13.4 R539. -/
def F_TIM_A_SET_NS : Nat := 0x1C0048
def F_TIM_A_SET_NS_set : Fld := ⟨F_TIM_A_SET_NS, 31, 0⟩
/-- `F_TIM_A_SET_SEC_LO`: 13 Table 13.4 R539. -/
def F_TIM_A_SET_SEC_LO : Nat := 0x1C004C
def F_TIM_A_SET_SEC_LO_set : Fld := ⟨F_TIM_A_SET_SEC_LO, 31, 0⟩
/-- `F_TIM_A_SET_SEC_HI`: 13 Table 13.4 R539. -/
def F_TIM_A_SET_SEC_HI : Nat := 0x1C0050
def F_TIM_A_SET_SEC_HI_set : Fld := ⟨F_TIM_A_SET_SEC_HI, 15, 0⟩
/-- `F_TIM_A_STEP`: 13 Table 13.4 R539. -/
def F_TIM_A_STEP : Nat := 0x1C0054
def F_TIM_A_STEP_step : Fld := ⟨F_TIM_A_STEP, 31, 0⟩
/-- `F_TIM_DARK_E_LO`: 13 Table 13.4 R588. -/
def F_TIM_DARK_E_LO : Nat := 0x1C0058
def F_TIM_DARK_E_LO_e : Fld := ⟨F_TIM_DARK_E_LO, 31, 0⟩
/-- `F_TIM_DARK_E_HI`: 13 Table 13.4 R588. -/
def F_TIM_DARK_E_HI : Nat := 0x1C005C
def F_TIM_DARK_E_HI_e : Fld := ⟨F_TIM_DARK_E_HI, 31, 0⟩
/-- `F_TIM_DARK_ERR`: 13 Table 13.4 R590. -/
def F_TIM_DARK_ERR : Nat := 0x1C0060
def F_TIM_DARK_ERR_err : Fld := ⟨F_TIM_DARK_ERR, 31, 0⟩
/-- `F_TIM_EVT`: 13 Table 13.4. -/
def F_TIM_EVT : Nat := 0x1C0070
def F_TIM_EVT_seq : Fld := ⟨F_TIM_EVT, 31, 16⟩
def F_TIM_EVT_flags : Fld := ⟨F_TIM_EVT, 11, 0⟩
/-- `F_TIM_EVT_INFO`: 13 Table 13.4. -/
def F_TIM_EVT_INFO : Nat := 0x1C0074
def F_TIM_EVT_INFO_port : Fld := ⟨F_TIM_EVT_INFO, 28, 24⟩
def F_TIM_EVT_INFO_index : Fld := ⟨F_TIM_EVT_INFO, 3, 0⟩
/-- `F_TIM_B_RATE`: 13 Table 13.4 R535. -/
def F_TIM_B_RATE : Nat := 0x1C0080
def F_TIM_B_RATE_rate : Fld := ⟨F_TIM_B_RATE, 31, 0⟩
/-- `F_TIM_B_OFF_NS`: 13 Table 13.4 R535. -/
def F_TIM_B_OFF_NS : Nat := 0x1C0084
def F_TIM_B_OFF_NS_off : Fld := ⟨F_TIM_B_OFF_NS, 31, 0⟩
/-- `F_TIM_B_OFF_SEC_LO`: 13 Table 13.4 R535. -/
def F_TIM_B_OFF_SEC_LO : Nat := 0x1C0088
def F_TIM_B_OFF_SEC_LO_off : Fld := ⟨F_TIM_B_OFF_SEC_LO, 31, 0⟩
/-- `F_TIM_B_OFF_SEC_HI`: 13 Table 13.4 R539. -/
def F_TIM_B_OFF_SEC_HI : Nat := 0x1C008C
def F_TIM_B_OFF_SEC_HI_off : Fld := ⟨F_TIM_B_OFF_SEC_HI, 15, 0⟩
/-- `F_TIM_B_STEP`: 13 Table 13.4 R539. -/
def F_TIM_B_STEP : Nat := 0x1C0090
def F_TIM_B_STEP_step : Fld := ⟨F_TIM_B_STEP, 31, 0⟩
/-- `F_TIM_B_ANCHOR_LO`: 13 Table 13.4 R536. -/
def F_TIM_B_ANCHOR_LO : Nat := 0x1C0094
def F_TIM_B_ANCHOR_LO_anchor : Fld := ⟨F_TIM_B_ANCHOR_LO, 31, 0⟩
/-- `F_TIM_B_ANCHOR_HI`: 13 Table 13.4 R536. -/
def F_TIM_B_ANCHOR_HI : Nat := 0x1C0098
def F_TIM_B_ANCHOR_HI_anchor : Fld := ⟨F_TIM_B_ANCHOR_HI, 31, 0⟩
/-- `F_TIM_TSQ_CFG`: 13 Table 13.4 R573. -/
def F_TIM_TSQ_CFG : Nat := 0x1C00A0
def F_TIM_TSQ_CFG_mirror : Fld := ⟨F_TIM_TSQ_CFG, 16, 0⟩
/-- `F_TIM_CAP_IN_CFG`: 13 Table 13.4 R582. -/
def F_TIM_CAP_IN_CFG : Nat := 0x1C00A4
def F_TIM_CAP_IN_CFG_edges : Fld := ⟨F_TIM_CAP_IN_CFG, 7, 0⟩
/-- `F_TIM_SEG`: 13 Table 13.4. -/
def F_TIM_SEG : Nat := 0x1C00A8
def F_TIM_SEG_inst : Fld := ⟨F_TIM_SEG, 3, 0⟩
/-- `F_TIM_PTP_CFG`: 13 Table 13.5 R551. -/
def F_TIM_PTP_CFG (n : Nat) : Nat := 0x1C0100 + n * 0x40
def F_TIM_PTP_CFG_en (n : Nat) : Fld := ⟨F_TIM_PTP_CFG n, 31, 31⟩
def F_TIM_PTP_CFG_steer (n : Nat) : Fld := ⟨F_TIM_PTP_CFG n, 30, 30⟩
def F_TIM_PTP_CFG_bmca (n : Nat) : Fld := ⟨F_TIM_PTP_CFG n, 29, 29⟩
def F_TIM_PTP_CFG_gm_capable (n : Nat) : Fld := ⟨F_TIM_PTP_CFG n, 28, 28⟩
def F_TIM_PTP_CFG_domain_number (n : Nat) : Fld := ⟨F_TIM_PTP_CFG n, 23, 16⟩
def F_TIM_PTP_CFG_log_sync (n : Nat) : Fld := ⟨F_TIM_PTP_CFG n, 15, 12⟩
def F_TIM_PTP_CFG_log_announce (n : Nat) : Fld := ⟨F_TIM_PTP_CFG n, 11, 8⟩
def F_TIM_PTP_CFG_queue (n : Nat) : Fld := ⟨F_TIM_PTP_CFG n, 2, 0⟩
/-- `F_TIM_PTP_PRIO`: 13 Table 13.5 R555. -/
def F_TIM_PTP_PRIO (n : Nat) : Nat := 0x1C0104 + n * 0x40
def F_TIM_PTP_PRIO_priority1 (n : Nat) : Fld := ⟨F_TIM_PTP_PRIO n, 31, 24⟩
def F_TIM_PTP_PRIO_priority2 (n : Nat) : Fld := ⟨F_TIM_PTP_PRIO n, 23, 16⟩
def F_TIM_PTP_PRIO_clockClass (n : Nat) : Fld := ⟨F_TIM_PTP_PRIO n, 15, 8⟩
def F_TIM_PTP_PRIO_clockAccuracy (n : Nat) : Fld := ⟨F_TIM_PTP_PRIO n, 7, 0⟩
/-- `F_TIM_PTP_VAR`: 13 Table 13.5. -/
def F_TIM_PTP_VAR (n : Nat) : Nat := 0x1C0108 + n * 0x40
def F_TIM_PTP_VAR_variance (n : Nat) : Fld := ⟨F_TIM_PTP_VAR n, 15, 0⟩
/-- `F_TIM_PTP_ROLE`: 13 Table 13.5 R555. -/
def F_TIM_PTP_ROLE (n : Nat) : Nat := 0x1C010C + n * 0x40
def F_TIM_PTP_ROLE_roles (n : Nat) : Fld := ⟨F_TIM_PTP_ROLE n, 23, 0⟩
/-- `F_TIM_PTP_TO`: 13 Table 13.5 R556. -/
def F_TIM_PTP_TO (n : Nat) : Nat := 0x1C0110 + n * 0x40
def F_TIM_PTP_TO_announce_to (n : Nat) : Fld := ⟨F_TIM_PTP_TO n, 7, 4⟩
def F_TIM_PTP_TO_sync_to (n : Nat) : Fld := ⟨F_TIM_PTP_TO n, 3, 0⟩
/-- `F_TIM_PTP_LOCK`: 13 Table 13.5 R564. -/
def F_TIM_PTP_LOCK (n : Nat) : Nat := 0x1C0114 + n * 0x40
def F_TIM_PTP_LOCK_lock_n (n : Nat) : Fld := ⟨F_TIM_PTP_LOCK n, 23, 16⟩
def F_TIM_PTP_LOCK_lock_ns (n : Nat) : Fld := ⟨F_TIM_PTP_LOCK n, 15, 0⟩
/-- `F_TIM_PTP_STAT`: 13 Table 13.5 R564. -/
def F_TIM_PTP_STAT (n : Nat) : Nat := 0x1C0118 + n * 0x40
def F_TIM_PTP_STAT_state (n : Nat) : Fld := ⟨F_TIM_PTP_STAT n, 31, 28⟩
def F_TIM_PTP_STAT_slave_port (n : Nat) : Fld := ⟨F_TIM_PTP_STAT n, 20, 16⟩
def F_TIM_PTP_STAT_steps (n : Nat) : Fld := ⟨F_TIM_PTP_STAT n, 15, 0⟩
/-- `F_TIM_PTP_OFFS`: 13 Table 13.5 R561. -/
def F_TIM_PTP_OFFS (n : Nat) : Nat := 0x1C011C + n * 0x40
def F_TIM_PTP_OFFS_e (n : Nat) : Fld := ⟨F_TIM_PTP_OFFS n, 31, 0⟩
/-- `F_TIM_PTP_FREQ`: 13 Table 13.5 R563. -/
def F_TIM_PTP_FREQ (n : Nat) : Nat := 0x1C0120 + n * 0x40
def F_TIM_PTP_FREQ_y (n : Nat) : Fld := ⟨F_TIM_PTP_FREQ n, 31, 0⟩
/-- `F_TIM_PTP_GM_LO`: 13 Table 13.5 R559. -/
def F_TIM_PTP_GM_LO (n : Nat) : Nat := 0x1C0124 + n * 0x40
def F_TIM_PTP_GM_LO_gm_id (n : Nat) : Fld := ⟨F_TIM_PTP_GM_LO n, 31, 0⟩
/-- `F_TIM_PTP_GM_HI`: 13 Table 13.5 R559. -/
def F_TIM_PTP_GM_HI (n : Nat) : Nat := 0x1C0128 + n * 0x40
def F_TIM_PTP_GM_HI_gm_id (n : Nat) : Fld := ⟨F_TIM_PTP_GM_HI n, 31, 0⟩
/-- `F_TIM_PORT_PDLY`: 13 Table 13.6 R554. -/
def F_TIM_PORT_PDLY (n : Nat) : Nat := 0x1C0200 + n * 0x20
def F_TIM_PORT_PDLY_log_pdelay (n : Nat) : Fld := ⟨F_TIM_PORT_PDLY n, 31, 24⟩
def F_TIM_PORT_PDLY_allowed_lost (n : Nat) : Fld := ⟨F_TIM_PORT_PDLY n, 23, 16⟩
def F_TIM_PORT_PDLY_ptp_en (n : Nat) : Fld := ⟨F_TIM_PORT_PDLY n, 2, 2⟩
def F_TIM_PORT_PDLY_pdelay_en (n : Nat) : Fld := ⟨F_TIM_PORT_PDLY n, 1, 1⟩
def F_TIM_PORT_PDLY_one_step (n : Nat) : Fld := ⟨F_TIM_PORT_PDLY n, 0, 0⟩
/-- `F_TIM_PORT_THRESH`: 13 Table 13.6 R554. -/
def F_TIM_PORT_THRESH (n : Nat) : Nat := 0x1C0204 + n * 0x20
def F_TIM_PORT_THRESH_thresh_ns (n : Nat) : Fld := ⟨F_TIM_PORT_THRESH n, 31, 0⟩
/-- `F_TIM_PORT_ASYM`: 13 Table 13.6 R561. -/
def F_TIM_PORT_ASYM (n : Nat) : Nat := 0x1C0208 + n * 0x20
def F_TIM_PORT_ASYM_asym (n : Nat) : Fld := ⟨F_TIM_PORT_ASYM n, 31, 0⟩
/-- `F_TIM_PORT_LAT`: 13 Table 13.6 R567. -/
def F_TIM_PORT_LAT (n : Nat) : Nat := 0x1C020C + n * 0x20
def F_TIM_PORT_LAT_lat_rx (n : Nat) : Fld := ⟨F_TIM_PORT_LAT n, 31, 16⟩
def F_TIM_PORT_LAT_lat_tx (n : Nat) : Fld := ⟨F_TIM_PORT_LAT n, 15, 0⟩
/-- `F_TIM_PORT_MLD`: 13 Table 13.6 R554. -/
def F_TIM_PORT_MLD (n : Nat) : Nat := 0x1C0210 + n * 0x20
def F_TIM_PORT_MLD_mld (n : Nat) : Fld := ⟨F_TIM_PORT_MLD n, 31, 0⟩
/-- `F_TIM_PORT_NRR`: 13 Table 13.6. -/
def F_TIM_PORT_NRR (n : Nat) : Nat := 0x1C0214 + n * 0x20
def F_TIM_PORT_NRR_nrr (n : Nat) : Fld := ⟨F_TIM_PORT_NRR n, 31, 0⟩
/-- `F_TIM_PORT_STAT`: 13 Table 13.6 R554. -/
def F_TIM_PORT_STAT (n : Nat) : Nat := 0x1C0218 + n * 0x20
def F_TIM_PORT_STAT_lost (n : Nat) : Fld := ⟨F_TIM_PORT_STAT n, 15, 8⟩
def F_TIM_PORT_STAT_role1 (n : Nat) : Fld := ⟨F_TIM_PORT_STAT n, 5, 4⟩
def F_TIM_PORT_STAT_role0 (n : Nat) : Fld := ⟨F_TIM_PORT_STAT n, 3, 2⟩
def F_TIM_PORT_STAT_as_capable (n : Nat) : Fld := ⟨F_TIM_PORT_STAT n, 0, 0⟩
/-- `F_TIM_SHUT_START_NS`: 13 Table 13.7 R577. -/
def F_TIM_SHUT_START_NS (k : Nat) : Nat := 0x1C0400 + k * 0x20
def F_TIM_SHUT_START_NS_ns (k : Nat) : Fld := ⟨F_TIM_SHUT_START_NS k, 31, 0⟩
/-- `F_TIM_SHUT_START_SEC_LO`: 13 Table 13.7. -/
def F_TIM_SHUT_START_SEC_LO (k : Nat) : Nat := 0x1C0404 + k * 0x20
def F_TIM_SHUT_START_SEC_LO_sec_lo (k : Nat) : Fld := ⟨F_TIM_SHUT_START_SEC_LO k, 31, 0⟩
/-- `F_TIM_SHUT_START_SEC_HI`: 13 Table 13.7. -/
def F_TIM_SHUT_START_SEC_HI (k : Nat) : Nat := 0x1C0408 + k * 0x20
def F_TIM_SHUT_START_SEC_HI_sec_hi (k : Nat) : Fld := ⟨F_TIM_SHUT_START_SEC_HI k, 15, 0⟩
/-- `F_TIM_SHUT_STOP_NS`: 13 Table 13.7. -/
def F_TIM_SHUT_STOP_NS (k : Nat) : Nat := 0x1C040C + k * 0x20
def F_TIM_SHUT_STOP_NS_ns (k : Nat) : Fld := ⟨F_TIM_SHUT_STOP_NS k, 31, 0⟩
/-- `F_TIM_SHUT_STOP_SEC_LO`: 13 Table 13.7. -/
def F_TIM_SHUT_STOP_SEC_LO (k : Nat) : Nat := 0x1C0410 + k * 0x20
def F_TIM_SHUT_STOP_SEC_LO_sec_lo (k : Nat) : Fld := ⟨F_TIM_SHUT_STOP_SEC_LO k, 31, 0⟩
/-- `F_TIM_SHUT_STOP_SEC_HI`: 13 Table 13.7. -/
def F_TIM_SHUT_STOP_SEC_HI (k : Nat) : Nat := 0x1C0414 + k * 0x20
def F_TIM_SHUT_STOP_SEC_HI_sec_hi (k : Nat) : Fld := ⟨F_TIM_SHUT_STOP_SEC_HI k, 15, 0⟩
/-- `F_TIM_SHUT_PERIOD`: 13 Table 13.7. -/
def F_TIM_SHUT_PERIOD (k : Nat) : Nat := 0x1C0418 + k * 0x20
def F_TIM_SHUT_PERIOD_period (k : Nat) : Fld := ⟨F_TIM_SHUT_PERIOD k, 29, 0⟩
/-- `F_TIM_SHUT_CTRL`: 13 Table 13.7 R578. -/
def F_TIM_SHUT_CTRL (k : Nat) : Nat := 0x1C041C + k * 0x20
def F_TIM_SHUT_CTRL_arm (k : Nat) : Fld := ⟨F_TIM_SHUT_CTRL k, 31, 31⟩
def F_TIM_SHUT_CTRL_invert (k : Nat) : Fld := ⟨F_TIM_SHUT_CTRL k, 1, 1⟩
def F_TIM_SHUT_CTRL_level (k : Nat) : Fld := ⟨F_TIM_SHUT_CTRL k, 0, 0⟩
/-- `F_TIM_CAPIN_POP`: 13 Table 13.7 R582. -/
def F_TIM_CAPIN_POP (k : Nat) : Nat := 0x1C0500 + k * 0x10
def F_TIM_CAPIN_POP_valid (k : Nat) : Fld := ⟨F_TIM_CAPIN_POP k, 31, 31⟩
def F_TIM_CAPIN_POP_rising (k : Nat) : Fld := ⟨F_TIM_CAPIN_POP k, 30, 30⟩
/-- `F_TIM_CAPIN_NS`: 13 Table 13.7. -/
def F_TIM_CAPIN_NS (k : Nat) : Nat := 0x1C0504 + k * 0x10
def F_TIM_CAPIN_NS_ns (k : Nat) : Fld := ⟨F_TIM_CAPIN_NS k, 31, 0⟩
/-- `F_TIM_CAPIN_SEC_LO`: 13 Table 13.7. -/
def F_TIM_CAPIN_SEC_LO (k : Nat) : Nat := 0x1C0508 + k * 0x10
def F_TIM_CAPIN_SEC_LO_sec_lo (k : Nat) : Fld := ⟨F_TIM_CAPIN_SEC_LO k, 31, 0⟩
/-- `F_TIM_CAPIN_SEC_HI`: 13 Table 13.7. -/
def F_TIM_CAPIN_SEC_HI (k : Nat) : Nat := 0x1C050C + k * 0x10
def F_TIM_CAPIN_SEC_HI_level (k : Nat) : Fld := ⟨F_TIM_CAPIN_SEC_HI k, 28, 24⟩
def F_TIM_CAPIN_SEC_HI_time (k : Nat) : Fld := ⟨F_TIM_CAPIN_SEC_HI k, 15, 0⟩
/-- `F_TIM_TSQ_POP`: 13 Table 13.7 R574 (n=0..11,16). -/
def F_TIM_TSQ_POP (n : Nat) : Nat := 0x1C0600 + n * 0x10
def F_TIM_TSQ_POP_valid (n : Nat) : Fld := ⟨F_TIM_TSQ_POP n, 31, 31⟩
def F_TIM_TSQ_POP_status (n : Nat) : Fld := ⟨F_TIM_TSQ_POP n, 25, 24⟩
def F_TIM_TSQ_POP_reason (n : Nat) : Fld := ⟨F_TIM_TSQ_POP n, 23, 16⟩
def F_TIM_TSQ_POP_id (n : Nat) : Fld := ⟨F_TIM_TSQ_POP n, 15, 0⟩
/-- `F_TIM_TSQ_NS`: 13 Table 13.7. -/
def F_TIM_TSQ_NS (n : Nat) : Nat := 0x1C0604 + n * 0x10
def F_TIM_TSQ_NS_ns (n : Nat) : Fld := ⟨F_TIM_TSQ_NS n, 31, 0⟩
/-- `F_TIM_TSQ_SEC_LO`: 13 Table 13.7. -/
def F_TIM_TSQ_SEC_LO (n : Nat) : Nat := 0x1C0608 + n * 0x10
def F_TIM_TSQ_SEC_LO_sec_lo (n : Nat) : Fld := ⟨F_TIM_TSQ_SEC_LO n, 31, 0⟩
/-- `F_TIM_TSQ_SEC_HI`: 13 Table 13.7. -/
def F_TIM_TSQ_SEC_HI (n : Nat) : Nat := 0x1C060C + n * 0x10
def F_TIM_TSQ_SEC_HI_level (n : Nat) : Fld := ⟨F_TIM_TSQ_SEC_HI n, 29, 24⟩
def F_TIM_TSQ_SEC_HI_time (n : Nat) : Fld := ⟨F_TIM_TSQ_SEC_HI n, 15, 0⟩
/-- `F_XNG_CTRL`: 14 Table 14.10. -/
def F_XNG_CTRL : Nat := 0x1E0000
def F_XNG_CTRL_fw_thresh : Fld := ⟨F_XNG_CTRL, 23, 16⟩
def F_XNG_CTRL_retry_lim : Fld := ⟨F_XNG_CTRL, 15, 8⟩
def F_XNG_CTRL_retrain : Fld := ⟨F_XNG_CTRL, 1, 1⟩
def F_XNG_CTRL_spare_en : Fld := ⟨F_XNG_CTRL, 0, 0⟩
/-- `F_XNG_STAT`: 14 Table 14.10. -/
def F_XNG_STAT : Nat := 0x1E0004
def F_XNG_STAT_link : Fld := ⟨F_XNG_STAT, 31, 28⟩
def F_XNG_STAT_ever_up : Fld := ⟨F_XNG_STAT, 27, 27⟩
def F_XNG_STAT_rx_failed : Fld := ⟨F_XNG_STAT, 14, 12⟩
def F_XNG_STAT_rx_spare_bad : Fld := ⟨F_XNG_STAT, 11, 11⟩
def F_XNG_STAT_tx_failed : Fld := ⟨F_XNG_STAT, 10, 8⟩
def F_XNG_STAT_tx_spare_bad : Fld := ⟨F_XNG_STAT, 7, 7⟩
/-- `F_XNG_TX_SEQ`: 14 Table 14.10. -/
def F_XNG_TX_SEQ : Nat := 0x1E0008
def F_XNG_TX_SEQ_tx_next : Fld := ⟨F_XNG_TX_SEQ, 31, 0⟩
/-- `F_XNG_RX_SEQ`: 14 Table 14.10. -/
def F_XNG_RX_SEQ : Nat := 0x1E000C
def F_XNG_RX_SEQ_rx_expect : Fld := ⟨F_XNG_RX_SEQ, 31, 0⟩
/-- `F_XNG_REPLAY`: 14 Table 14.10. -/
def F_XNG_REPLAY : Nat := 0x1E0010
def F_XNG_REPLAY_level : Fld := ⟨F_XNG_REPLAY, 9, 0⟩
/-- `F_XNG_EVTQ`: 14 Table 14.10 R621. -/
def F_XNG_EVTQ : Nat := 0x1E0014
def F_XNG_EVTQ_level : Fld := ⟨F_XNG_EVTQ, 8, 0⟩
/-- `F_XNG_EVT`: 14 Table 14.10. -/
def F_XNG_EVT : Nat := 0x1E0070
def F_XNG_EVT_seq : Fld := ⟨F_XNG_EVT, 31, 16⟩
def F_XNG_EVT_flags : Fld := ⟨F_XNG_EVT, 7, 0⟩
/-- `F_XNG_EVT_INFO`: 14 Table 14.10. -/
def F_XNG_EVT_INFO : Nat := 0x1E0074
def F_XNG_EVT_INFO_type : Fld := ⟨F_XNG_EVT_INFO, 11, 8⟩
def F_XNG_EVT_INFO_dir : Fld := ⟨F_XNG_EVT_INFO, 4, 4⟩
def F_XNG_EVT_INFO_lane : Fld := ⟨F_XNG_EVT_INFO, 2, 0⟩
/-- `F_TWN_CTRL`: 15 Table 15.7. -/
def F_TWN_CTRL : Nat := 0x1F0000
def F_TWN_CTRL_enable : Fld := ⟨F_TWN_CTRL, 31, 31⟩
def F_TWN_CTRL_want : Fld := ⟨F_TWN_CTRL, 17, 16⟩
def F_TWN_CTRL_retrain : Fld := ⟨F_TWN_CTRL, 8, 8⟩
def F_TWN_CTRL_rev_en : Fld := ⟨F_TWN_CTRL, 4, 4⟩
def F_TWN_CTRL_spare_en : Fld := ⟨F_TWN_CTRL, 0, 0⟩
/-- `F_TWN_TIMING`: 15 Table 15.7. -/
def F_TWN_TIMING : Nat := 0x1F0004
def F_TWN_TIMING_rec_to : Fld := ⟨F_TWN_TIMING, 31, 16⟩
def F_TWN_TIMING_rec_miss : Fld := ⟨F_TWN_TIMING, 7, 0⟩
/-- `F_TWN_REVERT`: 15 Table 15.7. -/
def F_TWN_REVERT : Nat := 0x1F0008
def F_TWN_REVERT_holdoff_s : Fld := ⟨F_TWN_REVERT, 31, 16⟩
def F_TWN_REVERT_cap_s : Fld := ⟨F_TWN_REVERT, 15, 0⟩
/-- `F_TWN_STAT`: 15 Table 15.7. -/
def F_TWN_STAT : Nat := 0x1F0010
def F_TWN_STAT_role : Fld := ⟨F_TWN_STAT, 31, 28⟩
def F_TWN_STAT_designation : Fld := ⟨F_TWN_STAT, 27, 27⟩
def F_TWN_STAT_peer_seen : Fld := ⟨F_TWN_STAT, 26, 26⟩
def F_TWN_STAT_synced : Fld := ⟨F_TWN_STAT, 25, 25⟩
def F_TWN_STAT_pin_in : Fld := ⟨F_TWN_STAT, 24, 24⟩
def F_TWN_STAT_link : Fld := ⟨F_TWN_STAT, 23, 20⟩
def F_TWN_STAT_form_code : Fld := ⟨F_TWN_STAT, 19, 16⟩
def F_TWN_STAT_rx_failed : Fld := ⟨F_TWN_STAT, 14, 12⟩
def F_TWN_STAT_tx_failed : Fld := ⟨F_TWN_STAT, 10, 8⟩
/-- `F_TWN_PEER`: 15 Table 15.7. -/
def F_TWN_PEER : Nat := 0x1F0014
def F_TWN_PEER_role : Fld := ⟨F_TWN_PEER, 15, 8⟩
def F_TWN_PEER_want : Fld := ⟨F_TWN_PEER, 5, 4⟩
def F_TWN_PEER_synced : Fld := ⟨F_TWN_PEER, 1, 1⟩
def F_TWN_PEER_fault : Fld := ⟨F_TWN_PEER, 0, 0⟩
/-- `F_TWN_REC`: 15 Table 15.7. -/
def F_TWN_REC : Nat := 0x1F0018
def F_TWN_REC_rec_no : Fld := ⟨F_TWN_REC, 31, 0⟩
/-- `F_TWN_HOLD`: 15 Table 15.7. -/
def F_TWN_HOLD : Nat := 0x1F001C
def F_TWN_HOLD_cur_s : Fld := ⟨F_TWN_HOLD, 31, 16⟩
def F_TWN_HOLD_left_s : Fld := ⟨F_TWN_HOLD, 15, 0⟩
/-- `F_TWN_REVCNT`: 15 Table 15.7. -/
def F_TWN_REVCNT : Nat := 0x1F0020
def F_TWN_REVCNT_reversions : Fld := ⟨F_TWN_REVCNT, 31, 0⟩
/-- `F_TWN_TRANSIT`: 15 Table 15.7. -/
def F_TWN_TRANSIT : Nat := 0x1F0024
def F_TWN_TRANSIT_transit : Fld := ⟨F_TWN_TRANSIT, 19, 0⟩
/-- `F_TWN_TERR`: 15 Table 15.7. -/
def F_TWN_TERR : Nat := 0x1F0028
def F_TWN_TERR_e_tw : Fld := ⟨F_TWN_TERR, 31, 0⟩
/-- `F_TWN_EVT`: 15 Table 15.7. -/
def F_TWN_EVT : Nat := 0x1F0070
def F_TWN_EVT_seq : Fld := ⟨F_TWN_EVT, 31, 16⟩
def F_TWN_EVT_flags : Fld := ⟨F_TWN_EVT, 15, 0⟩
/-- `F_TWN_EVT_INFO`: 15 Table 15.7. -/
def F_TWN_EVT_INFO : Nat := 0x1F0074
def F_TWN_EVT_INFO_rec_no : Fld := ⟨F_TWN_EVT_INFO, 31, 0⟩

end Sys2Proof.Machine
end

