-- ==== Sys2Proof/Machine/RegMap.lean ====
section
/-! DEFINITION. The field die's address map (chapter 23): for every register its access codes (R245, Table 6.2), reset
value, safelight mark and sweep mark (R847, R848), and for every table window its layout (Table 23.2). -/

namespace Sys2Proof.Machine

/-- Access codes of register fields (Table 6.2). `rwLow` is an RW field of which software may write bit 0 only
(F_KEY_PERS.flags, R210). HL words are `ro`. -/
inductive Acc
  | rw | ro | wo | sq | ws | wc | wt | rwLow
deriving DecidableEq, Repr

/-- One field of a register: bits `hi` to `lo`, its access code, whether it is triplicated (TV), the lock that a
write needs (LK), and whether its chapter marks it "not proof-covered". -/
structure RegField where
  hi : Nat
  lo : Nat
  acc : Acc
  tv : Bool
  lk : Option Nat
  np : Bool
deriving DecidableEq, Repr

/-- The reset value of a register: one value for every index, the value of F_PORT_n_MODE (Table 7.8), or that of
F_TIM_PTP_n_CFG (Table 13.5). -/
inductive RegReset
  | const (v : Nat)
  | port
  | ptp
deriving DecidableEq, Repr

/-- A register or an indexed family of registers: `count` words from `base` at `stride`. -/
structure RegRow where
  base : Nat
  stride : Nat
  count : Nat
  reset : RegReset
  sl : Bool
  sweep : Bool
  fields : List RegField
deriving DecidableEq, Repr

/-- The registers of block GLB, in address order of their tables (chapter 23). -/
def rowsGlb : List RegRow :=
  [
  -- F_GLB_ID
  ⟨0x000000, 0x4, 1, .const 0x0101A101, false, false,
   [⟨31, 24, .ro, false, none, false⟩, ⟨23, 16, .ro, false, none, false⟩, ⟨15, 8, .ro, false, none, false⟩, ⟨7, 0, .ro, false, none, false⟩]⟩,
  -- F_GLB_STRAP
  ⟨0x000040, 0x4, 1, .const 0, false, false,
   [⟨3, 0, .ro, false, none, false⟩]⟩,
  -- F_GLB_RST_CAUSE
  ⟨0x000044, 0x4, 1, .const 1, true, false,
   [⟨3, 0, .ro, false, none, false⟩]⟩,
  -- F_GLB_BOOT_CNT
  ⟨0x000048, 0x4, 1, .const 1, true, false,
   [⟨31, 0, .ro, false, none, false⟩]⟩,
  -- F_GLB_CFG_SRC
  ⟨0x00004C, 0x4, 1, .const 0, false, false,
   [⟨31, 16, .ro, false, none, false⟩, ⟨8, 8, .ro, false, none, false⟩, ⟨7, 4, .ro, false, none, false⟩, ⟨3, 0, .ro, false, none, false⟩]⟩,
  -- F_GLB_RESET
  ⟨0x000050, 0x4, 1, .const 0, false, false,
   [⟨31, 0, .wo, false, none, false⟩]⟩,
  -- F_GLB_START
  ⟨0x000054, 0x4, 1, .const 0, false, false,
   [⟨0, 0, .wo, false, none, false⟩]⟩,
  -- F_GLB_DIE_ID_LO
  ⟨0x000058, 0x4, 1, .const 0, false, false,
   [⟨31, 0, .ro, false, none, false⟩]⟩,
  -- F_GLB_DIE_ID_HI
  ⟨0x00005C, 0x4, 1, .const 0, false, false,
   [⟨31, 0, .ro, false, none, false⟩]⟩,
  -- F_GLB_BASE_MAC_LO
  ⟨0x000060, 0x4, 1, .const 0, false, true,
   [⟨31, 0, .rw, false, none, false⟩]⟩,
  -- F_GLB_BASE_MAC_HI
  ⟨0x000064, 0x4, 1, .const 0x0000027A, false, true,
   [⟨15, 0, .rw, false, none, false⟩]⟩,
  -- F_GLB_CNT_SNAP
  ⟨0x000080, 0x4, 1, .const 0, false, false,
   [⟨31, 31, .ro, false, none, false⟩, ⟨30, 16, .ro, false, none, false⟩, ⟨15, 0, .rw, false, none, true⟩]⟩]

/-- The registers of block PWR, in address order of their tables (chapter 23). -/
def rowsPwr : List RegRow :=
  [
  -- F_PWR_CTRL
  ⟨0x010000, 0x4, 1, .const 0, false, true,
   [⟨7, 7, .rw, false, none, false⟩, ⟨6, 6, .rw, false, none, false⟩, ⟨5, 5, .rw, false, none, false⟩, ⟨4, 4, .rw, false, none, false⟩, ⟨2, 2, .wo, false, none, false⟩, ⟨1, 1, .rw, false, none, false⟩]⟩,
  -- F_PWR_STATE
  ⟨0x010004, 0x4, 1, .const 0, false, false,
   [⟨31, 24, .ro, false, none, false⟩, ⟨7, 4, .ro, false, none, false⟩, ⟨3, 0, .ro, false, none, false⟩]⟩,
  -- F_PWR_WAKE_SRC
  ⟨0x010008, 0x4, 1, .const 0x00100FFF, true, true,
   [⟨20, 20, .rw, false, none, false⟩, ⟨17, 17, .rw, false, none, false⟩, ⟨16, 16, .rw, false, none, false⟩, ⟨11, 0, .rw, false, none, false⟩]⟩,
  -- F_PWR_WAKE_CAUSE
  ⟨0x01000C, 0x4, 1, .const 0, true, false,
   [⟨20, 20, .ro, false, none, false⟩, ⟨17, 17, .ro, false, none, false⟩, ⟨16, 16, .ro, false, none, false⟩, ⟨11, 0, .ro, false, none, false⟩]⟩,
  -- F_PWR_DARK_CFG
  ⟨0x010010, 0x4, 1, .const 0x03E80064, false, true,
   [⟨31, 16, .rw, false, none, false⟩, ⟨15, 0, .rw, false, none, false⟩]⟩,
  -- F_PWR_NAP_CFG
  ⟨0x010014, 0x4, 1, .const 0x07D00020, false, true,
   [⟨31, 16, .rw, false, none, false⟩, ⟨15, 0, .rw, false, none, false⟩]⟩,
  -- F_PWR_LINK_LEAD
  ⟨0x010018, 0x4, 1, .const 0, false, true,
   [⟨15, 0, .rw, false, none, false⟩]⟩,
  -- F_PWR_TOL
  ⟨0x01001C, 0x4, 1, .const 0x000003E8, false, true,
   [⟨15, 0, .rw, false, none, false⟩]⟩,
  -- F_PWR_PWAKE
  ⟨0x010020, 0x4, 1, .const 0x00000040, false, true,
   [⟨15, 0, .rw, false, none, false⟩]⟩,
  -- F_PWR_SL_CAL
  ⟨0x010024, 0x4, 1, .const 0x77359400, true, false,
   [⟨31, 0, .ro, false, none, false⟩]⟩,
  -- F_PWR_SL_CNT_LO
  ⟨0x010028, 0x4, 1, .const 0, true, false,
   [⟨31, 0, .ro, false, none, false⟩]⟩,
  -- F_PWR_SL_CNT_HI
  ⟨0x01002C, 0x4, 1, .const 0, true, false,
   [⟨15, 0, .ro, false, none, false⟩]⟩,
  -- F_PWR_DARK_WAKE
  ⟨0x010030, 0x4, 1, .const 0xFFFFFFFF, true, false,
   [⟨31, 0, .ro, false, none, false⟩]⟩,
  -- F_PWR_DARK_EPOCH
  ⟨0x010034, 0x4, 1, .const 0, true, false,
   [⟨31, 0, .ro, false, none, false⟩]⟩,
  -- F_PWR_RESUME_ADDR
  ⟨0x010038, 0x4, 1, .const 0, false, true,
   [⟨31, 16, .rw, false, none, false⟩]⟩,
  -- F_PWR_PTOL
  ⟨0x010040, 0x4, 12, .const 0x000003E8, false, true,
   [⟨15, 0, .rw, false, none, false⟩]⟩,
  -- F_PWR_EVT
  ⟨0x010070, 0x4, 1, .const 0, false, false,
   [⟨31, 16, .ro, false, none, false⟩, ⟨7, 0, .sq, false, none, false⟩]⟩,
  -- F_PWR_EVT_INFO
  ⟨0x010074, 0x4, 1, .const 0, false, false,
   [⟨12, 8, .ro, false, none, false⟩, ⟨5, 0, .ro, false, none, false⟩]⟩,
  -- F_PWR_MEAS
  ⟨0x010078, 0x4, 1, .const 0, false, false,
   [⟨31, 16, .ro, false, none, false⟩, ⟨15, 0, .ro, false, none, false⟩]⟩,
  -- F_PWR_BUDGET
  ⟨0x01007C, 0x4, 1, .const 0xFFFF0000, false, false,
   [⟨31, 16, .ro, false, none, false⟩, ⟨15, 0, .ro, false, none, false⟩]⟩,
  -- F_PWR_SHED
  ⟨0x010080, 0x4, 1, .const 0, false, false,
   [⟨15, 0, .ro, false, none, false⟩]⟩,
  -- F_PWR_DERATE
  ⟨0x010084, 0x4, 1, .const 0x03E80005, false, true,
   [⟨31, 16, .rw, false, none, false⟩, ⟨7, 0, .rw, false, none, false⟩]⟩,
  -- F_PWR_COST
  ⟨0x010088, 0x4, 1, .const 0x1405091C, false, true,
   [⟨31, 0, .rw, false, none, false⟩]⟩,
  -- F_PWR_SHPRI0
  ⟨0x01008C, 0x4, 1, .const 0, false, true,
   [⟨31, 0, .rw, false, none, false⟩]⟩,
  -- F_PWR_SHPRI1
  ⟨0x010090, 0x4, 1, .const 0, false, true,
   [⟨31, 0, .rw, false, none, false⟩]⟩,
  -- F_PWR_CURVE_V0
  ⟨0x010094, 0x4, 1, .const 0x90786050, false, true,
   [⟨31, 0, .rw, false, none, false⟩]⟩,
  -- F_PWR_CURVE_V1
  ⟨0x010098, 0x4, 1, .const 0xF0D8C0A8, false, true,
   [⟨31, 0, .rw, false, none, false⟩]⟩,
  -- F_PWR_CURVE_T0
  ⟨0x01009C, 0x4, 1, .const 0x552800D8, false, true,
   [⟨31, 0, .rw, false, none, false⟩]⟩,
  -- F_PWR_CURVE_T1
  ⟨0x0100A0, 0x4, 1, .const 0x78736E64, false, true,
   [⟨31, 0, .rw, false, none, false⟩]⟩,
  -- F_PWR_EXP_BASE_NS
  ⟨0x0100A4, 0x4, 1, .const 0, false, true,
   [⟨31, 0, .rw, false, none, false⟩]⟩] ++
  [
  -- F_PWR_EXP_BASE_SEC_LO
  ⟨0x0100A8, 0x4, 1, .const 0, false, true,
   [⟨31, 0, .rw, false, none, false⟩]⟩,
  -- F_PWR_EXP_BASE_SEC_HI
  ⟨0x0100AC, 0x4, 1, .const 0, false, true,
   [⟨15, 0, .rw, false, none, false⟩]⟩]

/-- The registers of block CFG, in address order of their tables (chapter 23). -/
def rowsCfg : List RegRow :=
  [
  -- F_CFG_PROOF_CMD
  ⟨0x020000, 0x4, 1, .const 0, false, false,
   [⟨3, 0, .wo, false, (some 0), false⟩]⟩,
  -- F_CFG_PROOF_EXP
  ⟨0x020004, 0x4, 1, .const 0, false, false,
   [⟨31, 0, .wo, false, none, false⟩]⟩,
  -- F_CFG_PROOF
  ⟨0x020008, 0x4, 1, .const 0, false, false,
   [⟨31, 0, .ro, true, none, false⟩]⟩,
  -- F_CFG_PROOF_RUN
  ⟨0x02000C, 0x4, 1, .const 0, false, false,
   [⟨31, 0, .ro, false, none, false⟩]⟩,
  -- F_CFG_PROOF_STAT
  ⟨0x020010, 0x4, 1, .const 0x0000FF00, false, false,
   [⟨31, 16, .ro, false, none, false⟩, ⟨15, 8, .ro, false, none, false⟩, ⟨2, 2, .ro, false, none, false⟩, ⟨1, 1, .ro, false, none, false⟩, ⟨0, 0, .ro, false, none, false⟩]⟩,
  -- F_CFG_TMR_CNT
  ⟨0x020020, 0x4, 1, .const 0, false, false,
   [⟨31, 0, .ro, false, none, false⟩]⟩,
  -- F_CFG_TMR_LAST
  ⟨0x020024, 0x4, 1, .const 0, false, false,
   [⟨9, 8, .ro, false, none, false⟩, ⟨5, 0, .ro, false, none, false⟩]⟩,
  -- F_CFG_LOCK_LIFE
  ⟨0x020030, 0x4, 1, .const 0, false, true,
   [⟨15, 0, .rw, true, none, false⟩]⟩,
  -- F_CFG_LK_REJ
  ⟨0x020040, 0x4, 1, .const 0, false, false,
   [⟨31, 0, .ro, false, none, false⟩]⟩,
  -- F_CFG_EVT
  ⟨0x020070, 0x4, 1, .const 0, false, false,
   [⟨31, 16, .ro, false, none, false⟩, ⟨7, 0, .sq, false, none, false⟩]⟩,
  -- F_CFG_EVT_INFO
  ⟨0x020074, 0x4, 1, .const 0xFF000000, false, false,
   [⟨31, 24, .ro, false, none, false⟩, ⟨23, 0, .ro, false, none, false⟩]⟩,
  -- F_CFG_LOCK
  ⟨0x020100, 0x4, 32, .const 0x00FF0000, false, false,
   [⟨31, 31, .ro, false, none, false⟩, ⟨30, 30, .ro, false, none, false⟩, ⟨29, 28, .ro, false, none, false⟩, ⟨23, 16, .ro, false, none, false⟩, ⟨15, 1, .ro, false, none, false⟩, ⟨0, 0, .wo, false, none, false⟩]⟩,
  -- F_CFG_LOCK_ACQ
  ⟨0x020180, 0x4, 32, .const 0x00FF0000, false, false,
   [⟨31, 31, .ro, false, none, false⟩, ⟨30, 30, .ro, false, none, false⟩, ⟨29, 28, .ro, false, none, false⟩, ⟨23, 16, .ro, false, none, false⟩, ⟨15, 1, .ro, false, none, false⟩]⟩]

/-- The registers of block KEY, in address order of their tables (chapter 23). -/
def rowsKey : List RegRow :=
  [
  -- F_KEY_CFG
  ⟨0x030000, 0x4, 1, .const 0x00000030, false, true,
   [⟨31, 16, .rw, false, none, false⟩, ⟨6, 4, .rw, false, none, false⟩]⟩,
  -- F_KEY_CMD
  ⟨0x030004, 0x4, 1, .const 0, false, false,
   [⟨3, 0, .wo, false, (some 1), false⟩]⟩,
  -- F_KEY_STAT
  ⟨0x030008, 0x4, 1, .const 0, false, false,
   [⟨31, 31, .ro, false, none, false⟩, ⟨30, 30, .ro, false, none, false⟩, ⟨29, 29, .ro, false, none, false⟩, ⟨28, 28, .ro, false, none, false⟩, ⟨27, 24, .ro, false, none, false⟩, ⟨17, 17, .ro, false, none, false⟩, ⟨16, 16, .ro, false, none, false⟩]⟩,
  -- F_KEY_RESULT
  ⟨0x03000C, 0x4, 1, .const 0xFF000000, false, false,
   [⟨31, 24, .ro, false, none, false⟩, ⟨23, 20, .ro, false, none, false⟩, ⟨15, 8, .ro, false, none, false⟩, ⟨6, 0, .ro, false, none, false⟩]⟩,
  -- F_KEY_GEN
  ⟨0x030010, 0x4, 1, .const 0, false, false,
   [⟨31, 0, .ro, false, none, false⟩]⟩,
  -- F_KEY_LIFE0
  ⟨0x030014, 0x4, 1, .const 0, false, false,
   [⟨31, 0, .ro, false, none, false⟩]⟩,
  -- F_KEY_LIFE1
  ⟨0x030018, 0x4, 1, .const 0, false, false,
   [⟨31, 0, .ro, false, none, false⟩]⟩,
  -- F_KEY_TXN
  ⟨0x03001C, 0x4, 1, .const 0, false, false,
   [⟨31, 0, .ro, false, none, false⟩]⟩,
  -- F_KEY_UID_LO
  ⟨0x030020, 0x4, 1, .const 0, false, false,
   [⟨31, 0, .ro, false, none, false⟩]⟩,
  -- F_KEY_UID_HI
  ⟨0x030024, 0x4, 1, .const 0, false, false,
   [⟨31, 0, .ro, false, none, false⟩]⟩,
  -- F_KEY_PERS
  ⟨0x030028, 0x4, 1, .const 0x00010001, false, true,
   [⟨23, 16, .ro, false, none, false⟩, ⟨15, 8, .rwLow, false, none, false⟩, ⟨7, 0, .ro, false, none, false⟩]⟩,
  -- F_KEY_EDITION
  ⟨0x03002C, 0x4, 1, .const 0, false, true,
   [⟨31, 0, .rw, false, none, false⟩]⟩,
  -- F_KEY_FORCED
  ⟨0x030030, 0x4, 1, .const 0, false, false,
   [⟨15, 0, .ro, false, none, false⟩]⟩,
  -- F_KEY_SERIAL
  ⟨0x030040, 0x4, 4, .const 0, false, true,
   [⟨31, 0, .rw, false, none, false⟩]⟩,
  -- F_KEY_NAME
  ⟨0x030060, 0x4, 8, .const 0, false, true,
   [⟨31, 0, .rw, false, none, false⟩]⟩,
  -- F_KEY_EVT
  ⟨0x030080, 0x4, 1, .const 0, false, false,
   [⟨31, 16, .ro, false, none, false⟩, ⟨6, 0, .sq, false, none, false⟩]⟩]

/-- The registers of block SPI, in address order of their tables (chapter 23). -/
def rowsSpi : List RegRow :=
  [
  -- F_SPI_CTRL
  ⟨0x040000, 0x4, 1, .const 0x0000000A, false, true,
   [⟨31, 31, .rw, false, none, false⟩, ⟨8, 8, .rw, false, none, false⟩, ⟨7, 0, .rw, false, none, false⟩]⟩,
  -- F_SPI_SLAVE
  ⟨0x040004, 0x4, 1, .const 0x00000010, false, false,
   [⟨21, 20, .rw, false, none, true⟩, ⟨19, 18, .rw, false, none, true⟩, ⟨17, 16, .rw, false, none, true⟩, ⟨7, 0, .rw, false, none, true⟩]⟩,
  -- F_SPI_MGR
  ⟨0x040008, 0x4, 1, .const 0, false, true,
   [⟨15, 0, .rw, false, none, false⟩]⟩,
  -- F_SPI_MFLASH0
  ⟨0x040010, 0x4, 1, .const 0x0B000800, false, true,
   [⟨31, 24, .rw, false, none, false⟩, ⟨21, 20, .rw, false, none, false⟩, ⟨19, 18, .rw, false, none, false⟩, ⟨17, 16, .rw, false, none, false⟩, ⟨15, 8, .rw, false, none, false⟩, ⟨0, 0, .rw, false, none, false⟩]⟩,
  -- F_SPI_MFLASH1
  ⟨0x040014, 0x4, 1, .const 0x02200605, false, true,
   [⟨31, 24, .rw, false, none, false⟩, ⟨23, 16, .rw, false, none, false⟩, ⟨15, 8, .rw, false, none, false⟩, ⟨7, 0, .rw, false, none, false⟩]⟩,
  -- F_SPI_MFLASH2
  ⟨0x040018, 0x4, 1, .const 0, false, true,
   [⟨0, 0, .rw, false, none, false⟩]⟩,
  -- F_SPI_STAT
  ⟨0x040020, 0x4, 1, .const 0, false, false,
   [⟨31, 31, .ro, false, none, false⟩, ⟨30, 30, .ro, false, none, false⟩, ⟨15, 8, .ro, false, none, false⟩]⟩,
  -- F_SPI_ABORTS
  ⟨0x040024, 0x4, 1, .const 0, false, false,
   [⟨31, 0, .ro, false, none, false⟩]⟩,
  -- F_SPI_EVT
  ⟨0x040070, 0x4, 1, .const 0, false, false,
   [⟨31, 16, .ro, false, none, false⟩, ⟨5, 0, .sq, false, none, false⟩]⟩,
  -- F_SPI_EVT_INFO
  ⟨0x040074, 0x4, 1, .const 0, false, false,
   [⟨31, 24, .ro, false, none, false⟩, ⟨23, 0, .ro, false, none, false⟩]⟩]

/-- The registers of block PIN, in address order of their tables (chapter 23). -/
def rowsPin : List RegRow :=
  [
  -- F_PIN_IN
  ⟨0x050000, 0x4, 1, .const 0, false, false,
   [⟨23, 0, .ro, false, none, false⟩]⟩,
  -- F_PIN_OUT
  ⟨0x050010, 0x4, 1, .const 0, false, false,
   [⟨23, 4, .rw, false, none, true⟩]⟩,
  -- F_PIN_OUT_S
  ⟨0x050014, 0x4, 1, .const 0, false, false,
   [⟨23, 4, .ws, false, none, false⟩]⟩,
  -- F_PIN_OUT_C
  ⟨0x050018, 0x4, 1, .const 0, false, false,
   [⟨23, 4, .wc, false, none, false⟩]⟩,
  -- F_PIN_OUT_T
  ⟨0x05001C, 0x4, 1, .const 0, false, false,
   [⟨23, 4, .wt, false, none, false⟩]⟩,
  -- F_PIN_REJ
  ⟨0x050020, 0x4, 1, .const 0, false, false,
   [⟨31, 0, .ro, false, none, false⟩]⟩,
  -- F_PIN_PAIR_CFG
  ⟨0x050040, 0x10, 2, .const 0x00000021, true, true,
   [⟨31, 31, .rw, false, none, false⟩, ⟨15, 0, .rw, false, none, false⟩]⟩,
  -- F_PIN_PAIR_STAT
  ⟨0x050044, 0x10, 2, .const 0, true, false,
   [⟨31, 31, .ro, false, none, false⟩, ⟨30, 30, .ro, false, none, false⟩, ⟨29, 29, .ro, false, none, false⟩, ⟨28, 28, .ro, false, none, false⟩, ⟨15, 0, .ro, false, none, false⟩]⟩,
  -- F_PIN_PAIR_GATE
  ⟨0x050048, 0x10, 2, .const 0, false, true,
   [⟨24, 8, .rw, false, none, false⟩, ⟨7, 0, .rw, false, none, false⟩]⟩,
  -- F_PIN_PAIR_ACT
  ⟨0x05004C, 0x10, 2, .const 0, false, true,
   [⟨23, 4, .rw, false, none, false⟩, ⟨3, 0, .rw, false, none, false⟩]⟩,
  -- F_PIN_EVT
  ⟨0x050070, 0x4, 1, .const 0, false, false,
   [⟨31, 16, .ro, false, none, false⟩, ⟨5, 0, .sq, false, none, false⟩]⟩,
  -- F_PIN_EVT_INFO
  ⟨0x050074, 0x4, 1, .const 0xFF000000, false, false,
   [⟨31, 24, .ro, false, none, false⟩, ⟨4, 0, .ro, false, none, false⟩]⟩,
  -- F_PIN_EDGE
  ⟨0x050078, 0x4, 1, .const 0, false, false,
   [⟨31, 16, .ro, false, none, false⟩, ⟨15, 0, .sq, false, none, false⟩]⟩,
  -- F_PIN_CFG
  ⟨0x050110, 0x4, 20, .const 0xFF000000, false, true,
   [⟨31, 24, .rw, false, none, false⟩, ⟨8, 8, .rw, false, none, false⟩, ⟨7, 7, .rw, false, none, false⟩, ⟨6, 5, .rw, false, none, false⟩, ⟨4, 4, .rw, false, none, false⟩, ⟨3, 3, .rw, false, none, false⟩]⟩]

/-- The registers of block FLT, in address order of their tables (chapter 23). -/
def rowsFlt : List RegRow :=
  [
  -- F_FLT_TKO
  ⟨0x060000, 0x4, 1, .const 0x0000011E, false, true,
   [⟨15, 0, .rw, false, none, false⟩]⟩,
  -- F_FLT_COVER
  ⟨0x060004, 0x4, 1, .const 0x00000021, false, false,
   [⟨5, 0, .ro, false, none, false⟩]⟩,
  -- F_FLT_TBL_CORR
  ⟨0x060010, 0x4, 1, .const 0, false, false,
   [⟨31, 0, .ro, false, none, false⟩]⟩,
  -- F_FLT_SCRUB
  ⟨0x060014, 0x4, 1, .const 0, false, false,
   [⟨31, 0, .ro, false, none, false⟩]⟩,
  -- F_FLT_ST_COMMIT
  ⟨0x060020, 0x4, 1, .const 0, false, false,
   [⟨31, 31, .wo, false, none, false⟩, ⟨30, 30, .wo, false, none, false⟩, ⟨1, 0, .wo, false, none, false⟩]⟩,
  -- F_FLT_ST_STAT
  ⟨0x060024, 0x4, 1, .const 0x000000FF, false, false,
   [⟨31, 31, .ro, false, none, false⟩, ⟨19, 16, .ro, false, none, false⟩, ⟨9, 8, .ro, false, none, false⟩, ⟨7, 0, .ro, false, none, false⟩]⟩,
  -- F_FLT_EVT
  ⟨0x060070, 0x4, 1, .const 0, false, false,
   [⟨31, 16, .ro, false, none, false⟩, ⟨15, 0, .sq, false, none, false⟩]⟩,
  -- F_FLT_EVT2
  ⟨0x060078, 0x4, 1, .const 0, false, false,
   [⟨31, 16, .ro, false, none, false⟩, ⟨1, 0, .sq, false, none, false⟩]⟩,
  -- F_FLT_LOGPTR
  ⟨0x06007C, 0x4, 1, .const 0, false, false,
   [⟨31, 16, .ro, false, none, false⟩, ⟨3, 0, .ro, false, none, false⟩]⟩,
  -- F_FLT_LOG_A
  ⟨0x060100, 0x10, 16, .const 0, false, false,
   [⟨31, 31, .ro, false, none, false⟩, ⟨30, 30, .ro, false, none, false⟩, ⟨27, 24, .ro, false, none, false⟩, ⟨15, 0, .ro, false, none, false⟩]⟩,
  -- F_FLT_LOG_B
  ⟨0x060104, 0x10, 16, .const 0, false, false,
   [⟨23, 0, .ro, false, none, false⟩]⟩,
  -- F_FLT_LOG_NS
  ⟨0x060108, 0x10, 16, .const 0, false, false,
   [⟨31, 0, .ro, false, none, false⟩]⟩,
  -- F_FLT_LOG_SEC
  ⟨0x06010C, 0x10, 16, .const 0, false, false,
   [⟨31, 0, .ro, false, none, false⟩]⟩]

/-- The registers of block PTB, in address order of their tables (chapter 23). -/
def rowsPtb : List RegRow :=
  [
  -- F_PTB_ARM
  ⟨0x070000, 0x4, 1, .const 0x000000FF, false, false,
   [⟨31, 16, .wo, false, none, false⟩, ⟨15, 15, .ro, false, none, false⟩, ⟨7, 0, .ro, false, none, false⟩]⟩,
  -- F_PTB_LIFE
  ⟨0x070004, 0x4, 1, .const 0, false, false,
   [⟨15, 0, .rw, false, none, true⟩]⟩,
  -- F_PTB_ACTIVE
  ⟨0x070008, 0x4, 1, .const 0, false, false,
   [⟨11, 0, .ro, false, none, false⟩]⟩,
  -- F_PTB_DELAY
  ⟨0x070010, 0x4, 1, .const 0, false, false,
   [⟨31, 24, .rw, false, none, true⟩, ⟨20, 16, .rw, false, none, true⟩, ⟨15, 0, .rw, false, none, true⟩]⟩,
  -- F_PTB_HOLD
  ⟨0x070014, 0x4, 1, .const 0, false, false,
   [⟨31, 24, .rw, false, none, true⟩, ⟨20, 16, .rw, false, none, true⟩, ⟨15, 0, .rw, false, none, true⟩]⟩,
  -- F_PTB_LANE
  ⟨0x070018, 0x4, 1, .const 0, false, false,
   [⟨31, 30, .rw, false, none, true⟩, ⟨29, 29, .rw, false, none, true⟩, ⟨26, 24, .rw, false, none, true⟩, ⟨17, 16, .rw, false, none, true⟩, ⟨15, 0, .rw, false, none, true⟩]⟩,
  -- F_PTB_ACK
  ⟨0x07001C, 0x4, 1, .const 0, false, false,
   [⟨31, 30, .rw, false, none, true⟩, ⟨7, 0, .rw, false, none, true⟩]⟩,
  -- F_PTB_SKEW
  ⟨0x070020, 0x4, 1, .const 0, false, false,
   [⟨31, 16, .rw, false, none, true⟩]⟩,
  -- F_PTB_XC
  ⟨0x070024, 0x4, 1, .const 0, false, false,
   [⟨31, 0, .rw, false, none, true⟩]⟩,
  -- F_PTB_PROOF
  ⟨0x070028, 0x4, 1, .const 0, false, false,
   [⟨31, 0, .rw, false, none, true⟩]⟩,
  -- F_PTB_PAIR
  ⟨0x07002C, 0x4, 1, .const 0, false, false,
   [⟨17, 16, .rw, false, none, true⟩, ⟨15, 0, .rw, false, none, true⟩]⟩,
  -- F_PTB_ECC
  ⟨0x070030, 0x4, 1, .const 0, false, false,
   [⟨31, 31, .rw, false, none, true⟩, ⟨30, 30, .rw, false, none, true⟩, ⟨29, 28, .rw, false, none, true⟩, ⟨23, 0, .rw, false, none, true⟩]⟩,
  -- F_PTB_TMR
  ⟨0x070034, 0x4, 1, .const 0, false, false,
   [⟨31, 31, .rw, false, none, true⟩, ⟨30, 29, .rw, false, none, true⟩, ⟨28, 27, .rw, false, none, true⟩, ⟨21, 16, .rw, false, none, true⟩, ⟨15, 0, .rw, false, none, true⟩]⟩,
  -- F_PTB_LOCK
  ⟨0x070038, 0x4, 1, .const 0, false, false,
   [⟨31, 31, .rw, false, none, true⟩, ⟨4, 0, .rw, false, none, true⟩]⟩,
  -- F_PTB_WDOG
  ⟨0x07003C, 0x4, 1, .const 0, false, false,
   [⟨31, 31, .rw, false, none, true⟩, ⟨4, 0, .rw, false, none, true⟩]⟩,
  -- F_PTB_EVT
  ⟨0x070070, 0x4, 1, .const 0, false, false,
   [⟨31, 16, .ro, false, none, false⟩, ⟨2, 0, .sq, false, none, false⟩]⟩,
  -- F_PTB_EVT_INFO
  ⟨0x070074, 0x4, 1, .const 0xFF000000, false, false,
   [⟨31, 24, .ro, false, none, false⟩, ⟨1, 0, .ro, false, none, false⟩]⟩]

/-- The registers of block PORT, in address order of their tables (chapter 23). -/
def rowsPort : List RegRow :=
  [
  -- F_PORT_MODE
  ⟨0x100000, 0x1000, 16, .port, false, true,
   [⟨6, 4, .rw, true, none, false⟩, ⟨3, 2, .rw, false, none, false⟩, ⟨0, 0, .rw, true, none, false⟩]⟩,
  -- F_PORT_STAT
  ⟨0x100004, 0x1000, 16, .const 0, false, false,
   [⟨31, 28, .ro, false, none, false⟩, ⟨27, 24, .ro, false, none, false⟩, ⟨17, 16, .ro, false, none, false⟩, ⟨10, 8, .ro, false, none, false⟩, ⟨7, 7, .ro, false, none, false⟩, ⟨6, 6, .ro, false, none, false⟩, ⟨5, 5, .ro, false, none, false⟩, ⟨1, 0, .ro, false, none, false⟩]⟩,
  -- F_PORT_MAXFRM
  ⟨0x100008, 0x1000, 16, .const 0x00000800, false, true,
   [⟨11, 0, .rw, false, none, false⟩]⟩,
  -- F_PORT_SLEEP
  ⟨0x10000C, 0x1000, 12, .const 0x00200000, false, true,
   [⟨31, 16, .rw, false, none, false⟩, ⟨3, 3, .rw, false, none, false⟩, ⟨2, 2, .rw, false, none, false⟩, ⟨1, 1, .rw, false, none, true⟩, ⟨0, 0, .wo, false, none, false⟩]⟩,
  -- F_PORT_PREEMPT
  ⟨0x100010, 0x1000, 12, .const 0x000AFF00, false, true,
   [⟨23, 16, .rw, false, none, false⟩, ⟨15, 8, .rw, false, none, false⟩, ⟨5, 4, .rw, false, none, false⟩, ⟨1, 1, .rw, false, none, false⟩, ⟨0, 0, .rw, false, none, false⟩]⟩,
  -- F_PORT_PAUSE
  ⟨0x100014, 0x1000, 4, .const 0x0064FF00, false, true,
   [⟨31, 16, .rw, false, none, false⟩, ⟨15, 8, .rw, false, none, false⟩, ⟨0, 0, .rw, false, none, false⟩]⟩,
  -- F_PORT_PODL
  ⟨0x100018, 0x1000, 2, .const 0, false, true,
   [⟨16, 16, .ro, false, none, false⟩, ⟨15, 12, .ro, false, none, false⟩, ⟨11, 8, .ro, false, none, false⟩, ⟨2, 2, .wo, false, none, false⟩, ⟨1, 1, .rw, false, none, false⟩]⟩,
  -- F_PORT_EVT
  ⟨0x100020, 0x1000, 16, .const 0, false, false,
   [⟨31, 16, .ro, false, none, false⟩, ⟨7, 0, .sq, false, none, false⟩]⟩]

/-- The registers of block MDS, in address order of their tables (chapter 23). -/
def rowsMds : List RegRow :=
  [
  -- F_MDS_PLCA
  ⟨0x120000, 0x100, 4, .const 0x00002020, false, true,
   [⟨24, 24, .rw, true, none, false⟩, ⟨20, 16, .rw, true, none, false⟩, ⟨13, 8, .rw, true, none, false⟩, ⟨7, 0, .rw, false, none, false⟩]⟩,
  -- F_MDS_BURST
  ⟨0x120004, 0x100, 4, .const 0x00000080, false, true,
   [⟨15, 8, .rw, false, none, false⟩, ⟨7, 0, .rw, false, none, false⟩]⟩,
  -- F_MDS_LOSS
  ⟨0x120008, 0x100, 4, .const 0x07D0000A, false, true,
   [⟨31, 16, .rw, false, none, false⟩, ⟨15, 0, .rw, false, none, false⟩]⟩,
  -- F_MDS_WIN
  ⟨0x12000C, 0x100, 4, .const 0x00000400, false, true,
   [⟨15, 0, .rw, false, none, false⟩]⟩,
  -- F_MDS_DELAY
  ⟨0x120010, 0x100, 4, .const 0, false, true,
   [⟨31, 0, .rw, false, none, false⟩]⟩,
  -- F_MDS_STAT
  ⟨0x120020, 0x100, 4, .const 0, false, false,
   [⟨31, 31, .ro, false, none, false⟩, ⟨30, 30, .ro, false, none, false⟩, ⟨20, 16, .ro, false, none, false⟩]⟩,
  -- F_MDS_CYCLE
  ⟨0x120024, 0x100, 4, .const 0, false, false,
   [⟨31, 16, .ro, false, none, false⟩, ⟨15, 0, .ro, false, none, false⟩]⟩,
  -- F_MDS_SEEN
  ⟨0x120028, 0x100, 4, .const 0, false, false,
   [⟨31, 0, .ro, false, none, false⟩]⟩,
  -- F_MDS_EVT
  ⟨0x120030, 0x100, 4, .const 0, false, false,
   [⟨31, 16, .ro, false, none, false⟩, ⟨5, 0, .sq, false, none, false⟩]⟩,
  -- F_MDS_EVT_INFO
  ⟨0x120034, 0x100, 4, .const 0, false, false,
   [⟨20, 16, .ro, false, none, false⟩]⟩]

/-- The registers of block CLS, in address order of their tables (chapter 23). -/
def rowsCls : List RegRow :=
  [
  -- F_CLS_QMAP
  ⟨0x140010, 0x4, 1, .const 0x00FAC688, false, true,
   [⟨23, 0, .rw, false, none, false⟩]⟩,
  -- F_CLS_CAP_CTRL
  ⟨0x140020, 0x4, 1, .const 0, false, false,
   [⟨31, 31, .wo, false, none, false⟩, ⟨30, 30, .ro, false, none, false⟩, ⟨4, 0, .rw, false, none, true⟩]⟩,
  -- F_CLS_CAP
  ⟨0x140040, 0x4, 10, .const 0, false, false,
   [⟨31, 0, .ro, false, none, false⟩]⟩,
  -- F_CLS_CAP_RES
  ⟨0x140068, 0x4, 1, .const 0, false, false,
   [⟨31, 31, .ro, false, none, false⟩, ⟨26, 16, .ro, false, none, false⟩, ⟨9, 7, .ro, false, none, false⟩, ⟨6, 5, .ro, false, none, false⟩, ⟨2, 0, .ro, false, none, false⟩]⟩,
  -- F_CLS_EVT
  ⟨0x140070, 0x4, 1, .const 0, false, false,
   [⟨31, 16, .ro, false, none, false⟩, ⟨1, 0, .sq, false, none, false⟩]⟩,
  -- F_CLS_EVT_INFO
  ⟨0x140074, 0x4, 1, .const 0, false, false,
   [⟨23, 16, .ro, false, none, false⟩, ⟨10, 0, .ro, false, none, false⟩]⟩,
  -- F_CLS_PORT
  ⟨0x140100, 0x4, 17, .const 0, false, true,
   [⟨14, 9, .rw, false, none, false⟩, ⟨3, 3, .rw, false, none, false⟩, ⟨2, 0, .rw, false, none, false⟩]⟩,
  -- F_CLS_PCPMAP
  ⟨0x140180, 0x4, 17, .const 0x00FAC681, false, true,
   [⟨23, 0, .rw, false, none, false⟩]⟩]

/-- The registers of block FWD, in address order of their tables (chapter 23). -/
def rowsFwd : List RegRow :=
  [
  -- F_FWD_AGE
  ⟨0x160000, 0x4, 1, .const 0x0000012C, false, true,
   [⟨15, 0, .rw, false, none, false⟩]⟩,
  -- F_FWD_RSVD
  ⟨0x160004, 0x4, 1, .const 0, false, true,
   [⟨15, 0, .rw, false, none, false⟩]⟩,
  -- F_FWD_FLUSH
  ⟨0x160008, 0x4, 1, .const 0, false, false,
   [⟨31, 31, .wo, false, none, false⟩, ⟨30, 30, .ro, false, none, false⟩, ⟨29, 28, .rw, false, none, true⟩, ⟨27, 27, .rw, false, none, true⟩, ⟨20, 16, .rw, false, none, true⟩, ⟨11, 0, .rw, false, none, true⟩]⟩,
  -- F_FWD_FDB_CNT
  ⟨0x16000C, 0x4, 1, .const 0, false, false,
   [⟨30, 16, .ro, false, none, false⟩, ⟨14, 0, .ro, false, none, false⟩]⟩,
  -- F_FWD_AGG
  ⟨0x160020, 0x4, 4, .const 0, false, true,
   [⟨31, 28, .rw, false, none, false⟩, ⟨27, 27, .rw, false, none, false⟩, ⟨19, 0, .rw, false, none, false⟩]⟩,
  -- F_FWD_AGG_STAT
  ⟨0x160030, 0x4, 4, .const 0, false, false,
   [⟨3, 0, .ro, false, none, false⟩]⟩,
  -- F_FWD_AGG_REJOIN
  ⟨0x160040, 0x4, 1, .const 0x00000064, false, true,
   [⟨15, 0, .rw, false, none, false⟩]⟩,
  -- F_FWD_MIR
  ⟨0x160050, 0x10, 2, .const 0, false, true,
   [⟨31, 31, .rw, false, none, false⟩, ⟨4, 0, .rw, false, none, false⟩]⟩,
  -- F_FWD_MIR_ING
  ⟨0x160054, 0x10, 2, .const 0, false, true,
   [⟨16, 0, .rw, false, none, false⟩]⟩,
  -- F_FWD_MIR_EGR
  ⟨0x160058, 0x10, 2, .const 0, false, true,
   [⟨16, 0, .rw, false, none, false⟩]⟩,
  -- F_FWD_EVT
  ⟨0x160070, 0x4, 1, .const 0, false, false,
   [⟨31, 16, .ro, false, none, false⟩, ⟨4, 0, .sq, false, none, false⟩]⟩,
  -- F_FWD_EVT_INFO
  ⟨0x160074, 0x4, 1, .const 0, false, false,
   [⟨23, 16, .ro, false, none, false⟩, ⟨14, 0, .ro, false, none, false⟩]⟩,
  -- F_FWD_PORT
  ⟨0x160100, 0x4, 17, .const 0x0010003F, false, true,
   [⟨31, 20, .rw, false, none, false⟩, ⟨19, 18, .rw, false, none, false⟩, ⟨17, 17, .rw, false, none, false⟩, ⟨5, 5, .rw, false, none, false⟩, ⟨4, 4, .rw, false, none, false⟩, ⟨3, 3, .rw, false, none, false⟩, ⟨2, 2, .rw, false, none, false⟩, ⟨1, 1, .rw, false, none, false⟩, ⟨0, 0, .rw, false, none, false⟩]⟩,
  -- F_FWD_CT
  ⟨0x160180, 0x4, 17, .const 0, false, true,
   [⟨7, 0, .rw, true, none, false⟩]⟩]

/-- The registers of block BUF, in address order of their tables (chapter 23). -/
def rowsBuf : List RegRow :=
  [
  -- F_BUF_POOL
  ⟨0x180000, 0x4, 1, .const 0x3BC00000, false, false,
   [⟨30, 16, .ro, false, none, false⟩, ⟨14, 0, .ro, false, none, false⟩]⟩,
  -- F_BUF_YEL
  ⟨0x180004, 0x4, 1, .const 0x00004000, false, true,
   [⟨14, 0, .rw, false, none, false⟩]⟩,
  -- F_BUF_CTRL
  ⟨0x180008, 0x4, 1, .const 0, false, false,
   [⟨0, 0, .wo, false, none, false⟩]⟩,
  -- F_BUF_POOL_WM
  ⟨0x18000C, 0x4, 1, .const 0, false, false,
   [⟨14, 0, .ro, false, none, false⟩]⟩,
  -- F_BUF_FLUSH
  ⟨0x180010, 0x4, 1, .const 0, false, false,
   [⟨31, 31, .wo, false, none, false⟩, ⟨30, 30, .ro, false, none, false⟩, ⟨20, 16, .rw, false, none, true⟩, ⟨7, 0, .rw, false, none, true⟩]⟩,
  -- F_BUF_ECC_CNT
  ⟨0x180020, 0x4, 1, .const 0, false, false,
   [⟨31, 0, .ro, false, none, false⟩]⟩,
  -- F_BUF_ECC_UNC
  ⟨0x180024, 0x4, 1, .const 0, false, false,
   [⟨31, 0, .ro, false, none, false⟩]⟩,
  -- F_BUF_EVT
  ⟨0x180070, 0x4, 1, .const 0, false, false,
   [⟨31, 16, .ro, false, none, false⟩, ⟨4, 0, .sq, false, none, false⟩]⟩,
  -- F_BUF_EVT_INFO
  ⟨0x180074, 0x4, 1, .const 0, false, false,
   [⟨28, 24, .ro, false, none, false⟩, ⟨13, 0, .ro, false, none, false⟩]⟩,
  -- F_BUF_PORT_CFG
  ⟨0x180100, 0x10, 17, .const 0xFF000040, false, true,
   [⟨31, 24, .rw, false, none, false⟩, ⟨12, 0, .rw, false, none, false⟩]⟩,
  -- F_BUF_PORT_LIM
  ⟨0x180104, 0x10, 17, .const 0x00001000, false, true,
   [⟨14, 0, .rw, false, none, false⟩]⟩,
  -- F_BUF_PORT_USE
  ⟨0x180108, 0x10, 17, .const 0, false, false,
   [⟨30, 16, .ro, false, none, false⟩, ⟨12, 0, .ro, false, none, false⟩]⟩,
  -- F_BUF_PORT_WM
  ⟨0x18010C, 0x10, 17, .const 0, false, false,
   [⟨30, 16, .ro, false, none, false⟩, ⟨12, 0, .ro, false, none, false⟩]⟩]

/-- The registers of block STR, in address order of their tables (chapter 23). -/
def rowsStr : List RegRow :=
  [
  -- F_STR_SCHED
  ⟨0x1A0000, 0x4, 1, .const 0, false, true,
   [⟨4, 0, .rw, true, none, false⟩]⟩,
  -- F_STR_NCYC
  ⟨0x1A0004, 0x4, 1, .const 0x000F4240, false, false,
   [⟨29, 0, .ro, false, none, false⟩]⟩,
  -- F_STR_CHG_MASK
  ⟨0x1A0008, 0x4, 1, .const 0, false, false,
   [⟨17, 17, .rw, false, none, true⟩, ⟨16, 0, .rw, false, none, true⟩]⟩,
  -- F_STR_CHG
  ⟨0x1A000C, 0x4, 1, .const 0, false, false,
   [⟨15, 0, .wo, false, (some 2), false⟩]⟩,
  -- F_STR_CHG_STAT
  ⟨0x1A0010, 0x4, 1, .const 0x0000FF00, false, false,
   [⟨31, 16, .ro, false, none, false⟩, ⟨15, 8, .ro, false, none, false⟩, ⟨7, 1, .ro, false, none, false⟩, ⟨0, 0, .ro, false, none, false⟩]⟩,
  -- F_STR_UNLATCH
  ⟨0x1A0020, 0x4, 1, .const 0, false, false,
   [⟨31, 31, .wo, false, none, false⟩, ⟨11, 0, .wo, false, none, false⟩]⟩,
  -- F_STR_EVT
  ⟨0x1A0070, 0x4, 1, .const 0, false, false,
   [⟨31, 16, .ro, false, none, false⟩, ⟨6, 0, .sq, false, none, false⟩]⟩,
  -- F_STR_EVT_INFO
  ⟨0x1A0074, 0x4, 1, .const 0, false, false,
   [⟨28, 24, .ro, false, none, false⟩, ⟨23, 16, .ro, false, none, false⟩, ⟨11, 0, .ro, false, none, false⟩]⟩,
  -- F_STR_GCL_CTRL
  ⟨0x1A0400, 0x40, 17, .const 0, false, true,
   [⟨31, 31, .rw, false, none, false⟩, ⟨8, 0, .rw, false, none, false⟩]⟩,
  -- F_STR_GCL_CYCLE
  ⟨0x1A0404, 0x40, 17, .const 0x000F4240, false, true,
   [⟨29, 0, .rw, false, none, false⟩]⟩,
  -- F_STR_GCL_EXT
  ⟨0x1A0408, 0x40, 17, .const 0, false, true,
   [⟨29, 0, .rw, false, none, false⟩]⟩,
  -- F_STR_GCL_BASE_NS
  ⟨0x1A040C, 0x40, 17, .const 0, false, true,
   [⟨29, 0, .rw, false, none, false⟩]⟩,
  -- F_STR_GCL_BASE_SEC_LO
  ⟨0x1A0410, 0x40, 17, .const 0, false, true,
   [⟨31, 0, .rw, false, none, false⟩]⟩,
  -- F_STR_GCL_BASE_SEC_HI
  ⟨0x1A0414, 0x40, 17, .const 0, false, true,
   [⟨15, 0, .rw, false, none, false⟩]⟩,
  -- F_STR_GCL_HOLD
  ⟨0x1A0418, 0x40, 17, .const 0, false, true,
   [⟨15, 0, .rw, false, none, false⟩]⟩,
  -- F_STR_GCL_OPER
  ⟨0x1A041C, 0x40, 17, .const 0, false, false,
   [⟨31, 16, .ro, false, none, false⟩, ⟨15, 15, .ro, false, none, false⟩, ⟨8, 0, .ro, false, none, false⟩]⟩,
  -- F_STR_GCL_OCYC
  ⟨0x1A0420, 0x40, 17, .const 0, false, false,
   [⟨29, 0, .ro, false, none, false⟩]⟩,
  -- F_STR_GCL_CUR
  ⟨0x1A0424, 0x40, 17, .const 0, false, false,
   [⟨15, 8, .ro, false, none, false⟩, ⟨7, 0, .ro, false, none, false⟩]⟩,
  -- F_STR_GCL_CT_NS
  ⟨0x1A0428, 0x40, 17, .const 0, false, false,
   [⟨29, 0, .ro, false, none, false⟩]⟩,
  -- F_STR_GCL_CT_SEC_LO
  ⟨0x1A042C, 0x40, 17, .const 0, false, false,
   [⟨31, 0, .ro, false, none, false⟩]⟩,
  -- F_STR_GCL_CT_SEC_HI
  ⟨0x1A0430, 0x40, 17, .const 0, false, false,
   [⟨15, 0, .ro, false, none, false⟩]⟩,
  -- F_STR_RL_CFG
  ⟨0x1A0434, 0x40, 17, .const 0, false, true,
   [⟨31, 24, .rw, false, none, false⟩, ⟨23, 0, .rw, false, none, false⟩]⟩,
  -- F_STR_RL_BURST
  ⟨0x1A0438, 0x40, 17, .const 0, false, true,
   [⟨23, 0, .rw, false, none, false⟩]⟩]

/-- The registers of block TIM, in address order of their tables (chapter 23). -/
def rowsTim : List RegRow :=
  [
  -- F_TIM_SYS
  ⟨0x1C0000, 0x4, 1, .const 0, false, true,
   [⟨8, 8, .rw, false, none, false⟩, ⟨4, 4, .ro, false, none, false⟩, ⟨1, 1, .rw, false, (some 3), false⟩, ⟨0, 0, .rw, true, (some 3), false⟩]⟩,
  -- F_TIM_SLEW
  ⟨0x1C0004, 0x4, 1, .const 0x00002710, false, true,
   [⟨23, 0, .rw, false, none, false⟩]⟩,
  -- F_TIM_XC
  ⟨0x1C0008, 0x4, 1, .const 0x0000C350, false, true,
   [⟨31, 0, .rw, false, none, false⟩]⟩,
  -- F_TIM_DELTA
  ⟨0x1C000C, 0x4, 1, .const 0, false, false,
   [⟨31, 0, .ro, false, none, false⟩]⟩,
  -- F_TIM_CAP_CTRL
  ⟨0x1C0010, 0x4, 1, .const 0, false, false,
   [⟨0, 0, .wo, false, none, false⟩]⟩,
  -- F_TIM_CAP_SYS_NS
  ⟨0x1C0014, 0x4, 1, .const 0, false, false,
   [⟨31, 0, .ro, false, none, false⟩]⟩,
  -- F_TIM_CAP_SYS_SEC_LO
  ⟨0x1C0018, 0x4, 1, .const 0, false, false,
   [⟨31, 0, .ro, false, none, false⟩]⟩,
  -- F_TIM_CAP_SYS_SEC_HI
  ⟨0x1C001C, 0x4, 1, .const 0, false, false,
   [⟨15, 0, .ro, false, none, false⟩]⟩,
  -- F_TIM_CAP_A_NS
  ⟨0x1C0020, 0x4, 1, .const 0, false, false,
   [⟨31, 0, .ro, false, none, false⟩]⟩,
  -- F_TIM_CAP_A_SEC_LO
  ⟨0x1C0024, 0x4, 1, .const 0, false, false,
   [⟨31, 0, .ro, false, none, false⟩]⟩,
  -- F_TIM_CAP_A_SEC_HI
  ⟨0x1C0028, 0x4, 1, .const 0, false, false,
   [⟨15, 0, .ro, false, none, false⟩]⟩,
  -- F_TIM_CAP_B_NS
  ⟨0x1C002C, 0x4, 1, .const 0, false, false,
   [⟨31, 0, .ro, false, none, false⟩]⟩,
  -- F_TIM_CAP_B_SEC_LO
  ⟨0x1C0030, 0x4, 1, .const 0, false, false,
   [⟨31, 0, .ro, false, none, false⟩]⟩,
  -- F_TIM_CAP_B_SEC_HI
  ⟨0x1C0034, 0x4, 1, .const 0, false, false,
   [⟨15, 0, .ro, false, none, false⟩]⟩,
  -- F_TIM_CAP_CNT_LO
  ⟨0x1C0038, 0x4, 1, .const 0, false, false,
   [⟨31, 0, .ro, false, none, false⟩]⟩,
  -- F_TIM_CAP_CNT_HI
  ⟨0x1C003C, 0x4, 1, .const 0, false, false,
   [⟨31, 0, .ro, false, none, false⟩]⟩,
  -- F_TIM_A_INC_LO
  ⟨0x1C0040, 0x4, 1, .const 0, false, false,
   [⟨31, 0, .rw, false, none, true⟩]⟩,
  -- F_TIM_A_INC_HI
  ⟨0x1C0044, 0x4, 1, .const 0x00000008, false, false,
   [⟨3, 0, .rw, false, none, true⟩]⟩,
  -- F_TIM_A_SET_NS
  ⟨0x1C0048, 0x4, 1, .const 0, false, false,
   [⟨31, 0, .wo, false, (some 3), false⟩]⟩,
  -- F_TIM_A_SET_SEC_LO
  ⟨0x1C004C, 0x4, 1, .const 0, false, false,
   [⟨31, 0, .wo, false, (some 3), false⟩]⟩,
  -- F_TIM_A_SET_SEC_HI
  ⟨0x1C0050, 0x4, 1, .const 0, false, false,
   [⟨15, 0, .wo, false, (some 3), false⟩]⟩,
  -- F_TIM_A_STEP
  ⟨0x1C0054, 0x4, 1, .const 0, false, false,
   [⟨31, 0, .wo, false, (some 3), false⟩]⟩,
  -- F_TIM_DARK_E_LO
  ⟨0x1C0058, 0x4, 1, .const 0, false, false,
   [⟨31, 0, .ro, false, none, false⟩]⟩,
  -- F_TIM_DARK_E_HI
  ⟨0x1C005C, 0x4, 1, .const 0, false, false,
   [⟨31, 0, .ro, false, none, false⟩]⟩,
  -- F_TIM_DARK_ERR
  ⟨0x1C0060, 0x4, 1, .const 0x80000000, false, false,
   [⟨31, 0, .ro, false, none, false⟩]⟩,
  -- F_TIM_EVT
  ⟨0x1C0070, 0x4, 1, .const 0, false, false,
   [⟨31, 16, .ro, false, none, false⟩, ⟨11, 0, .sq, false, none, false⟩]⟩,
  -- F_TIM_EVT_INFO
  ⟨0x1C0074, 0x4, 1, .const 0, false, false,
   [⟨28, 24, .ro, false, none, false⟩, ⟨3, 0, .ro, false, none, false⟩]⟩,
  -- F_TIM_B_RATE
  ⟨0x1C0080, 0x4, 1, .const 0, false, false,
   [⟨31, 0, .rw, false, none, true⟩]⟩,
  -- F_TIM_B_OFF_NS
  ⟨0x1C0084, 0x4, 1, .const 0, false, false,
   [⟨31, 0, .rw, false, none, true⟩]⟩,
  -- F_TIM_B_OFF_SEC_LO
  ⟨0x1C0088, 0x4, 1, .const 0, false, false,
   [⟨31, 0, .rw, false, none, true⟩]⟩] ++
  [
  -- F_TIM_B_OFF_SEC_HI
  ⟨0x1C008C, 0x4, 1, .const 0, false, false,
   [⟨15, 0, .rw, false, none, true⟩]⟩,
  -- F_TIM_B_STEP
  ⟨0x1C0090, 0x4, 1, .const 0, false, false,
   [⟨31, 0, .wo, false, (some 3), false⟩]⟩,
  -- F_TIM_B_ANCHOR_LO
  ⟨0x1C0094, 0x4, 1, .const 0, false, false,
   [⟨31, 0, .ro, false, none, false⟩]⟩,
  -- F_TIM_B_ANCHOR_HI
  ⟨0x1C0098, 0x4, 1, .const 0, false, false,
   [⟨31, 0, .ro, false, none, false⟩]⟩,
  -- F_TIM_TSQ_CFG
  ⟨0x1C00A0, 0x4, 1, .const 0x00010FFF, false, true,
   [⟨16, 0, .rw, false, none, false⟩]⟩,
  -- F_TIM_CAP_IN_CFG
  ⟨0x1C00A4, 0x4, 1, .const 0, false, true,
   [⟨7, 0, .rw, false, none, false⟩]⟩,
  -- F_TIM_SEG
  ⟨0x1C00A8, 0x4, 1, .const 0, false, true,
   [⟨3, 0, .rw, false, none, false⟩]⟩,
  -- F_TIM_PTP_CFG
  ⟨0x1C0100, 0x40, 2, .ptp, false, true,
   [⟨31, 31, .rw, false, none, false⟩, ⟨30, 30, .rw, false, none, false⟩, ⟨29, 29, .rw, false, none, false⟩, ⟨28, 28, .rw, false, none, false⟩, ⟨23, 16, .rw, false, none, false⟩, ⟨15, 12, .rw, false, none, false⟩, ⟨11, 8, .rw, false, none, false⟩, ⟨2, 0, .rw, false, none, false⟩]⟩,
  -- F_TIM_PTP_PRIO
  ⟨0x1C0104, 0x40, 2, .const 0xF6F8F8FE, false, true,
   [⟨31, 24, .rw, false, none, false⟩, ⟨23, 16, .rw, false, none, false⟩, ⟨15, 8, .rw, false, none, false⟩, ⟨7, 0, .rw, false, none, false⟩]⟩,
  -- F_TIM_PTP_VAR
  ⟨0x1C0108, 0x40, 2, .const 0x0000436A, false, true,
   [⟨15, 0, .rw, false, none, false⟩]⟩,
  -- F_TIM_PTP_ROLE
  ⟨0x1C010C, 0x40, 2, .const 0x00555555, false, true,
   [⟨23, 0, .rw, false, none, false⟩]⟩,
  -- F_TIM_PTP_TO
  ⟨0x1C0110, 0x40, 2, .const 0x00000033, false, true,
   [⟨7, 4, .rw, false, none, false⟩, ⟨3, 0, .rw, false, none, false⟩]⟩,
  -- F_TIM_PTP_LOCK
  ⟨0x1C0114, 0x40, 2, .const 0x00040064, false, true,
   [⟨23, 16, .rw, false, none, false⟩, ⟨15, 0, .rw, false, none, false⟩]⟩,
  -- F_TIM_PTP_STAT
  ⟨0x1C0118, 0x40, 2, .const 0x001F0000, false, false,
   [⟨31, 28, .ro, false, none, false⟩, ⟨20, 16, .ro, false, none, false⟩, ⟨15, 0, .ro, false, none, false⟩]⟩,
  -- F_TIM_PTP_OFFS
  ⟨0x1C011C, 0x40, 2, .const 0, false, false,
   [⟨31, 0, .ro, false, none, false⟩]⟩,
  -- F_TIM_PTP_FREQ
  ⟨0x1C0120, 0x40, 2, .const 0, false, false,
   [⟨31, 0, .ro, false, none, false⟩]⟩,
  -- F_TIM_PTP_GM_LO
  ⟨0x1C0124, 0x40, 2, .const 0, false, false,
   [⟨31, 0, .ro, false, none, false⟩]⟩,
  -- F_TIM_PTP_GM_HI
  ⟨0x1C0128, 0x40, 2, .const 0, false, false,
   [⟨31, 0, .ro, false, none, false⟩]⟩,
  -- F_TIM_PORT_PDLY
  ⟨0x1C0200, 0x20, 12, .const 0x00090006, false, true,
   [⟨31, 24, .rw, false, none, false⟩, ⟨23, 16, .rw, false, none, false⟩, ⟨2, 2, .rw, false, none, false⟩, ⟨1, 1, .rw, false, none, false⟩, ⟨0, 0, .rw, false, none, false⟩]⟩,
  -- F_TIM_PORT_THRESH
  ⟨0x1C0204, 0x20, 12, .const 0x00000320, false, true,
   [⟨31, 0, .rw, false, none, false⟩]⟩,
  -- F_TIM_PORT_ASYM
  ⟨0x1C0208, 0x20, 12, .const 0, false, true,
   [⟨31, 0, .rw, false, none, false⟩]⟩,
  -- F_TIM_PORT_LAT
  ⟨0x1C020C, 0x20, 12, .const 0, false, true,
   [⟨31, 16, .rw, false, none, false⟩, ⟨15, 0, .rw, false, none, false⟩]⟩,
  -- F_TIM_PORT_MLD
  ⟨0x1C0210, 0x20, 12, .const 0, false, false,
   [⟨31, 0, .ro, false, none, false⟩]⟩,
  -- F_TIM_PORT_NRR
  ⟨0x1C0214, 0x20, 12, .const 0, false, false,
   [⟨31, 0, .ro, false, none, false⟩]⟩,
  -- F_TIM_PORT_STAT
  ⟨0x1C0218, 0x20, 12, .const 0, false, false,
   [⟨15, 8, .ro, false, none, false⟩, ⟨5, 4, .ro, false, none, false⟩, ⟨3, 2, .ro, false, none, false⟩, ⟨0, 0, .ro, false, none, false⟩]⟩,
  -- F_TIM_SHUT_START_NS
  ⟨0x1C0400, 0x20, 4, .const 0, false, true,
   [⟨31, 0, .rw, false, none, false⟩]⟩,
  -- F_TIM_SHUT_START_SEC_LO
  ⟨0x1C0404, 0x20, 4, .const 0, false, true,
   [⟨31, 0, .rw, false, none, false⟩]⟩,
  -- F_TIM_SHUT_START_SEC_HI
  ⟨0x1C0408, 0x20, 4, .const 0, false, true,
   [⟨15, 0, .rw, false, none, false⟩]⟩,
  -- F_TIM_SHUT_STOP_NS
  ⟨0x1C040C, 0x20, 4, .const 0, false, true,
   [⟨31, 0, .rw, false, none, false⟩]⟩,
  -- F_TIM_SHUT_STOP_SEC_LO
  ⟨0x1C0410, 0x20, 4, .const 0, false, true,
   [⟨31, 0, .rw, false, none, false⟩]⟩] ++
  [
  -- F_TIM_SHUT_STOP_SEC_HI
  ⟨0x1C0414, 0x20, 4, .const 0, false, true,
   [⟨15, 0, .rw, false, none, false⟩]⟩,
  -- F_TIM_SHUT_PERIOD
  ⟨0x1C0418, 0x20, 4, .const 0, false, true,
   [⟨29, 0, .rw, false, none, false⟩]⟩,
  -- F_TIM_SHUT_CTRL
  ⟨0x1C041C, 0x20, 4, .const 0, false, true,
   [⟨31, 31, .rw, false, none, true⟩, ⟨1, 1, .rw, false, none, false⟩, ⟨0, 0, .ro, false, none, false⟩]⟩,
  -- F_TIM_CAPIN_POP
  ⟨0x1C0500, 0x10, 4, .const 0, false, false,
   [⟨31, 31, .ro, false, none, false⟩, ⟨30, 30, .ro, false, none, false⟩]⟩,
  -- F_TIM_CAPIN_NS
  ⟨0x1C0504, 0x10, 4, .const 0, false, false,
   [⟨31, 0, .ro, false, none, false⟩]⟩,
  -- F_TIM_CAPIN_SEC_LO
  ⟨0x1C0508, 0x10, 4, .const 0, false, false,
   [⟨31, 0, .ro, false, none, false⟩]⟩,
  -- F_TIM_CAPIN_SEC_HI
  ⟨0x1C050C, 0x10, 4, .const 0, false, false,
   [⟨28, 24, .ro, false, none, false⟩, ⟨15, 0, .ro, false, none, false⟩]⟩,
  -- F_TIM_TSQ_POP
  ⟨0x1C0600, 0x10, 17, .const 0, false, false,
   [⟨31, 31, .ro, false, none, false⟩, ⟨25, 24, .ro, false, none, false⟩, ⟨23, 16, .ro, false, none, false⟩, ⟨15, 0, .ro, false, none, false⟩]⟩,
  -- F_TIM_TSQ_NS
  ⟨0x1C0604, 0x10, 17, .const 0, false, false,
   [⟨31, 0, .ro, false, none, false⟩]⟩,
  -- F_TIM_TSQ_SEC_LO
  ⟨0x1C0608, 0x10, 17, .const 0, false, false,
   [⟨31, 0, .ro, false, none, false⟩]⟩,
  -- F_TIM_TSQ_SEC_HI
  ⟨0x1C060C, 0x10, 17, .const 0, false, false,
   [⟨29, 24, .ro, false, none, false⟩, ⟨15, 0, .ro, false, none, false⟩]⟩]

/-- The registers of block XNG, in address order of their tables (chapter 23). -/
def rowsXng : List RegRow :=
  [
  -- F_XNG_CTRL
  ⟨0x1E0000, 0x4, 1, .const 0x00101001, false, true,
   [⟨23, 16, .rw, false, none, false⟩, ⟨15, 8, .rw, false, none, false⟩, ⟨1, 1, .wo, false, none, false⟩, ⟨0, 0, .rw, true, none, false⟩]⟩,
  -- F_XNG_STAT
  ⟨0x1E0004, 0x4, 1, .const 0x00007700, false, false,
   [⟨31, 28, .ro, false, none, false⟩, ⟨27, 27, .ro, false, none, false⟩, ⟨14, 12, .ro, false, none, false⟩, ⟨11, 11, .ro, false, none, false⟩, ⟨10, 8, .ro, false, none, false⟩, ⟨7, 7, .ro, false, none, false⟩]⟩,
  -- F_XNG_TX_SEQ
  ⟨0x1E0008, 0x4, 1, .const 0, false, false,
   [⟨31, 0, .ro, false, none, false⟩]⟩,
  -- F_XNG_RX_SEQ
  ⟨0x1E000C, 0x4, 1, .const 0, false, false,
   [⟨31, 0, .ro, false, none, false⟩]⟩,
  -- F_XNG_REPLAY
  ⟨0x1E0010, 0x4, 1, .const 0, false, false,
   [⟨9, 0, .ro, false, none, false⟩]⟩,
  -- F_XNG_EVTQ
  ⟨0x1E0014, 0x4, 1, .const 0, false, false,
   [⟨8, 0, .ro, false, none, false⟩]⟩,
  -- F_XNG_EVT
  ⟨0x1E0070, 0x4, 1, .const 0, false, false,
   [⟨31, 16, .ro, false, none, false⟩, ⟨7, 0, .sq, false, none, false⟩]⟩,
  -- F_XNG_EVT_INFO
  ⟨0x1E0074, 0x4, 1, .const 0, false, false,
   [⟨11, 8, .ro, false, none, false⟩, ⟨4, 4, .ro, false, none, false⟩, ⟨2, 0, .ro, false, none, false⟩]⟩]

/-- The registers of block TWN, in address order of their tables (chapter 23). -/
def rowsTwn : List RegRow :=
  [
  -- F_TWN_CTRL
  ⟨0x1F0000, 0x4, 1, .const 0x00000011, false, true,
   [⟨31, 31, .rw, true, none, false⟩, ⟨17, 16, .rw, false, (some 4), true⟩, ⟨8, 8, .wo, false, none, false⟩, ⟨4, 4, .rw, false, none, false⟩, ⟨0, 0, .rw, false, none, false⟩]⟩,
  -- F_TWN_TIMING
  ⟨0x1F0004, 0x4, 1, .const 0x00190001, false, true,
   [⟨31, 16, .rw, false, none, false⟩, ⟨7, 0, .rw, false, none, false⟩]⟩,
  -- F_TWN_REVERT
  ⟨0x1F0008, 0x4, 1, .const 0x003C0F00, false, true,
   [⟨31, 16, .rw, false, none, false⟩, ⟨15, 0, .rw, false, none, false⟩]⟩,
  -- F_TWN_STAT
  ⟨0x1F0010, 0x4, 1, .const 0x01007700, false, false,
   [⟨31, 28, .ro, false, none, false⟩, ⟨27, 27, .ro, false, none, false⟩, ⟨26, 26, .ro, false, none, false⟩, ⟨25, 25, .ro, false, none, false⟩, ⟨24, 24, .ro, false, none, false⟩, ⟨23, 20, .ro, false, none, false⟩, ⟨19, 16, .ro, false, none, false⟩, ⟨14, 12, .ro, false, none, false⟩, ⟨10, 8, .ro, false, none, false⟩]⟩,
  -- F_TWN_PEER
  ⟨0x1F0014, 0x4, 1, .const 0, false, false,
   [⟨15, 8, .ro, false, none, false⟩, ⟨5, 4, .ro, false, none, false⟩, ⟨1, 1, .ro, false, none, false⟩, ⟨0, 0, .ro, false, none, false⟩]⟩,
  -- F_TWN_REC
  ⟨0x1F0018, 0x4, 1, .const 0, false, false,
   [⟨31, 0, .ro, false, none, false⟩]⟩,
  -- F_TWN_HOLD
  ⟨0x1F001C, 0x4, 1, .const 0x003C0000, false, false,
   [⟨31, 16, .ro, false, none, false⟩, ⟨15, 0, .ro, false, none, false⟩]⟩,
  -- F_TWN_REVCNT
  ⟨0x1F0020, 0x4, 1, .const 0, false, false,
   [⟨31, 0, .ro, false, none, false⟩]⟩,
  -- F_TWN_TRANSIT
  ⟨0x1F0024, 0x4, 1, .const 0, false, false,
   [⟨19, 0, .ro, false, none, false⟩]⟩,
  -- F_TWN_TERR
  ⟨0x1F0028, 0x4, 1, .const 0, false, false,
   [⟨31, 0, .ro, false, none, false⟩]⟩,
  -- F_TWN_EVT
  ⟨0x1F0070, 0x4, 1, .const 0, false, false,
   [⟨31, 16, .ro, false, none, false⟩, ⟨15, 0, .sq, false, none, false⟩]⟩,
  -- F_TWN_EVT_INFO
  ⟨0x1F0074, 0x4, 1, .const 0, false, false,
   [⟨31, 0, .ro, false, none, false⟩]⟩]

/-- The rows of the block that holds address `a` (Table 23.1). -/
def blockRows (a : Nat) : List RegRow :=
  if a < 0x010000 then rowsGlb
  else if a < 0x020000 then rowsPwr
  else if a < 0x030000 then rowsCfg
  else if a < 0x040000 then rowsKey
  else if a < 0x050000 then rowsSpi
  else if a < 0x060000 then rowsPin
  else if a < 0x070000 then rowsFlt
  else if a < 0x080000 then rowsPtb
  else if a < 0x100000 then []
  else if a < 0x110000 then rowsPort
  else if a < 0x120000 then []
  else if a < 0x120400 then rowsMds
  else if a < 0x140000 then []
  else if a < 0x150000 then rowsCls
  else if a < 0x160000 then []
  else if a < 0x170000 then rowsFwd
  else if a < 0x180000 then []
  else if a < 0x190000 then rowsBuf
  else if a < 0x1A0000 then []
  else if a < 0x1B0000 then rowsStr
  else if a < 0x1C0000 then []
  else if a < 0x1D0000 then rowsTim
  else if a < 0x1E0000 then []
  else if a < 0x1F0000 then rowsXng
  else if a < 0x200000 then rowsTwn
  else []

/-- Whether address `a` is one of the words of row `r`. -/
def RegRow.covers (r : RegRow) (a : Nat) : Bool :=
  decide (r.base ≤ a) && (a - r.base) % r.stride == 0 && decide ((a - r.base) / r.stride < r.count)

/-- The row of the register at address `a`, if the manual defines one there. The timestamp queues of P12 to P15 do not
exist (R572), so their words are undefined. -/
def regRow (a : Nat) : Option RegRow :=
  if 0x1C06C0 ≤ a ∧ a < 0x1C0700 then none else (blockRows a).find? (fun r => r.covers a)

/-- The reset value of word `a` of row `r` (R847). -/
def RegRow.resetAt (r : RegRow) (a : Nat) : Word :=
  match r.reset with
  | .const v => word v
  | .port =>
    let n := (a - r.base) / r.stride
    word (if n < 4 then 0x01 else if n < 12 then 0x25 else 0x31)
  | .ptp => word (if (a - r.base) / r.stride = 0 then 0xB000D007 else 0x7001D007)

/-- How software may use a table: covered by the proof, or written by hardware only (Table 23.2). -/
inductive TblKind
  | swept | hw
deriving DecidableEq, Repr

/-- A table window: `entries` of `words` words from `base`, an instance every `inst` bytes (`insts` of them). -/
structure TblRow where
  base : Nat
  words : Nat
  entries : Nat
  insts : Nat
  inst : Nat
  kind : TblKind
deriving DecidableEq, Repr

/-- The table windows of Table 23.2, without the counter window, the snapshot view and the serial window. -/
def tblRows : List TblRow := [
  ⟨0x400000, 4, 64, 1, 0x400, .swept⟩,      -- exposure
  ⟨0x401000, 1, 64, 1, 0x100, .swept⟩,      -- derating curve
  ⟨0x402000, 1, 8, 1, 0x20, .swept⟩,        -- wake ramp
  ⟨0x410000, 16, 32, 4, 0x800, .swept⟩,     -- state tables, admin
  ⟨0x414000, 16, 32, 4, 0x800, .hw⟩,        -- state tables, operational
  ⟨0x420000, 16, 64, 1, 0x1000, .swept⟩,    -- format
  ⟨0x440000, 32, 2048, 1, 0x40000, .swept⟩, -- rule
  ⟨0x480000, 4, 16448, 1, 0x50000, .swept⟩, -- filtering database
  ⟨0x4D0000, 2, 4096, 1, 0x8000, .swept⟩,   -- VLAN
  ⟨0x4E0000, 1, 256, 4, 0x400, .swept⟩,     -- home bucket
  ⟨0x500000, 1, 136, 1, 0x220, .swept⟩,     -- queue
  ⟨0x501000, 1, 136, 1, 0x220, .hw⟩,        -- occupancy
  ⟨0x510000, 4, 4096, 1, 0x10000, .swept⟩,  -- stream context
  ⟨0x520000, 1, 4096, 1, 0x4000, .hw⟩,      -- stream status
  ⟨0x530000, 4, 4096, 1, 0x10000, .swept⟩,  -- meter
  ⟨0x540000, 2, 4096, 1, 0x8000, .hw⟩,      -- meter state
  ⟨0x548000, 1, 256, 1, 0x400, .swept⟩,     -- stream gate instance
  ⟨0x549000, 1, 256, 1, 0x400, .hw⟩,        -- stream gate state
  ⟨0x550000, 4, 1024, 1, 0x4000, .swept⟩,   -- window, admin
  ⟨0x554000, 4, 1024, 1, 0x4000, .hw⟩,      -- window, operational
  ⟨0x560000, 2, 256, 17, 0x800, .swept⟩,    -- gate list, admin
  ⟨0x570000, 2, 256, 17, 0x800, .hw⟩,       -- gate list, operational
  ⟨0x580000, 1, 136, 1, 0x220, .swept⟩,     -- shaper
  ⟨0x581000, 1, 136, 1, 0x220, .hw⟩,        -- credit
  ⟨0x590000, 2, 32, 1, 0x100, .swept⟩]      -- servo curve

/-- Whether table `t` holds a word at address `a` (R844). -/
def TblRow.covers (t : TblRow) (a : Nat) : Bool :=
  decide (t.base ≤ a) && a % 4 == 0 &&
  decide ((a - t.base) / t.inst < t.insts) &&
  decide ((a - t.base) % t.inst < t.entries * t.words * 4)

/-- The table that holds a word at address `a`. -/
def tblRow (a : Nat) : Option TblRow := tblRows.find? (fun t => t.covers a)

/-- The address of word 0 of the entry that holds address `a` of table `t`. -/
def TblRow.entryBase (t : TblRow) (a : Nat) : Nat :=
  let i := (a - t.base) / t.inst
  let e := ((a - t.base) % t.inst) / (4 * t.words)
  t.base + i * t.inst + e * (4 * t.words)

/-- The number of the entry, within its instance, that holds address `a` of table `t`. -/
def TblRow.entryIdx (t : TblRow) (a : Nat) : Nat := ((a - t.base) % t.inst) / (4 * t.words)

/-- The instance that holds address `a` of table `t`. -/
def TblRow.instIdx (t : TblRow) (a : Nat) : Nat := (a - t.base) / t.inst

/-- The word of its entry that address `a` of table `t` is. -/
def TblRow.wordIdx (t : TblRow) (a : Nat) : Nat := (a - t.entryBase a) / 4

end Sys2Proof.Machine
end

