-- ==== Sys2Proof/Machine/Defaults.lean ====
section
/-! DEFINITION. What every word of the field address space reads as when nothing has been written since a field-die
reset: the reset values of the registers (chapter 23) and of the tables. -/

namespace Sys2Proof.Machine

/-- The vendor contents of format entries 0 to 9 (Table 9.3), words 0 to 12. The selection fields of an entry that
Table 9.3 shows without a selection are 0. -/
def vendorFormat (e : Nat) : List Nat :=
  match e with
  | 0 => [0x80007000, 0xFFFFC640, 0x81008001, 0x88A88002, 0x08008004, 0x86DD8005, 0x88F78006, 0x08068007, 0x00000000, 0x00000000, 0x00C00000]
  | 1 => [0xC0002000, 0xFFFFC140, 0x81008003, 0x08008004, 0x86DD8005, 0x88F78006, 0x08068007]
  | 2 => [0xC0002000, 0xFFFFC140, 0x81008003, 0x08008004, 0x86DD8005, 0x88F78006, 0x08068007]
  | 3 => [0xC0002000, 0xFFFFC140, 0x08008004, 0x86DD8005, 0x88F78006, 0x08068007]
  | 4 => [0xA4000000, 0x00FF84C0, 0x00068008, 0x00118009, 0x00000000, 0x00000000, 0x00000000, 0x00000000, 0x00000000, 0x00000000, 0x00461228, 0x20890000]
  | 5 => [0x80014000, 0x00FF8340, 0x00068008, 0x00118009, 0x00000000, 0x00000000, 0x00000000, 0x00000000, 0x00000000, 0x00000000, 0x00460C28, 0x48890000]
  | 6 => [0x80011000, 0x00000000, 0x00000000, 0x00000000, 0x00000000, 0x00000000, 0x00000000, 0x00000000, 0x00000000, 0x00000000, 0x002D082E]
  | 7 => [0x8000E000]
  | 8 => [0xAC300000, 0x00000000, 0x00000000, 0x00000000, 0x00000000, 0x00000000, 0x00000000, 0x00000000, 0x00000000, 0x00000000, 0x008D0000]
  | 9 => [0x80004000, 0x00000000, 0x00000000, 0x00000000, 0x00000000, 0x00000000, 0x00000000, 0x00000000, 0x00000000, 0x00000000, 0x008D0000]
  | _ => []

/-- The vendor contents of the state tables, word `w` of state `st` of machine `m` (Tables 21.8, 7.2, 15.3). The spec
does not list them. DESIGN CHOICE (log entry 4): every state of the machine is valid, state `rest` is the rest state,
and every state has one valid transition of guard 0x00 to the rest state, with no action bit, so that the contents
pass I1 to I4. -/
def vendorState (m st w : Nat) : Nat :=
  let (states, rest) := match m with
    | 0 => (8, 2)
    | 1 => (9, 0)
    | 2 => (5, 0)
    | _ => (4, 0)
  if states ≤ st then 0
  else if w = 0 then 0x80000000 + (if st = rest then 0x40000000 else 0)
  else if w = 1 then 0x80000000 + rest * 2 ^ 24
  else 0

/-- The reset value of the table word at address `a` of table `t`: Tables 3.11, 9.3, 10.8, 10.9, 11.3 and 13.2; every
other table word resets to 0. -/
def tableDefault (t : TblRow) (a : Nat) : Word :=
  let e := t.entryIdx a
  let w := t.wordIdx a
  if t.base = 0x401000 then word 0x0000FFFF
  else if t.base = 0x410000 ∨ t.base = 0x414000 then word (vendorState (t.instIdx a) e w)
  else if t.base = 0x420000 then word ((vendorFormat e).getD w 0)
  else if t.base = 0x4D0000 then (if w = 0 ∧ 1 ≤ e ∧ e ≤ 4094 then word 0x8001FFFF else 0)
  else if t.base = 0x4E0000 then word (e % 4)
  else if t.base = 0x500000 then word 0x10001000
  else if t.base = 0x590000 then
    word (if e % 16 = 0 then (if w = 0 then 0x800003E8 else 0x04000080)
          else if e % 16 = 1 then (if w = 0 then 0x800186A0 else 0x06000100) else 0)
  else 0

/-- What an unlisted address of the field address space reads as: the register's or table word's reset value, 0 where
the manual defines nothing (R244). -/
def fieldDefault (a : Nat) : Word :=
  if a < 0x400000 then
    match regRow a with
    | some r => r.resetAt a
    | none => 0
  else
    match tblRow a with
    | some t => tableDefault t a
    | none => 0

/-- Whether address `a` is a register marked SL (R847). -/
def isSl (a : Nat) : Bool :=
  match regRow a with
  | some r => r.sl
  | none => false

end Sys2Proof.Machine
end

