-- ==== Sys2Proof/Machine/HostRegNames.lean ====
section
/-! DEFINITION. The host die's registers and their fields by name. A physical-function register is keyed by its
BAR0 offset; a per-function register by function * 0x10000 + its BAR0 offset; a register of the queue-pair bank by
0x1000000 + global queue pair * 0x40 + its offset from BAR0 0x3000 (so every queue pair has its own home). -/

namespace Sys2Proof.Machine

/-- `H_GLB_ID`: 06 Table 6.11. -/
def H_GLB_ID : Nat := 0x0000
def H_GLB_ID_order : Fld := ⟨H_GLB_ID, 31, 24⟩
def H_GLB_ID_die : Fld := ⟨H_GLB_ID, 23, 16⟩
def H_GLB_ID_revision : Fld := ⟨H_GLB_ID, 15, 8⟩
def H_GLB_ID_generation : Fld := ⟨H_GLB_ID, 7, 0⟩
/-- `H_XNG_CTRL`: 14 Table 14.10. -/
def H_XNG_CTRL : Nat := 0x1000
def H_XNG_CTRL_fw_thresh : Fld := ⟨H_XNG_CTRL, 23, 16⟩
def H_XNG_CTRL_retry_lim : Fld := ⟨H_XNG_CTRL, 15, 8⟩
def H_XNG_CTRL_retrain : Fld := ⟨H_XNG_CTRL, 1, 1⟩
def H_XNG_CTRL_spare_en : Fld := ⟨H_XNG_CTRL, 0, 0⟩
/-- `H_XNG_STAT`: 14 Table 14.10. -/
def H_XNG_STAT : Nat := 0x1004
def H_XNG_STAT_link : Fld := ⟨H_XNG_STAT, 31, 28⟩
def H_XNG_STAT_ever_up : Fld := ⟨H_XNG_STAT, 27, 27⟩
def H_XNG_STAT_rx_failed : Fld := ⟨H_XNG_STAT, 14, 12⟩
def H_XNG_STAT_rx_spare_bad : Fld := ⟨H_XNG_STAT, 11, 11⟩
def H_XNG_STAT_tx_failed : Fld := ⟨H_XNG_STAT, 10, 8⟩
def H_XNG_STAT_tx_spare_bad : Fld := ⟨H_XNG_STAT, 7, 7⟩
/-- `H_XNG_TX_SEQ`: 14 Table 14.10. -/
def H_XNG_TX_SEQ : Nat := 0x1008
def H_XNG_TX_SEQ_tx_next : Fld := ⟨H_XNG_TX_SEQ, 31, 0⟩
/-- `H_XNG_RX_SEQ`: 14 Table 14.10. -/
def H_XNG_RX_SEQ : Nat := 0x100C
def H_XNG_RX_SEQ_rx_expect : Fld := ⟨H_XNG_RX_SEQ, 31, 0⟩
/-- `H_XNG_REPLAY`: 14 Table 14.10. -/
def H_XNG_REPLAY : Nat := 0x1010
def H_XNG_REPLAY_level : Fld := ⟨H_XNG_REPLAY, 9, 0⟩
/-- `H_XNG_HOLD`: 14 Table 14.10 R631. -/
def H_XNG_HOLD : Nat := 0x1014
def H_XNG_HOLD_credit_held : Fld := ⟨H_XNG_HOLD, 31, 31⟩
def H_XNG_HOLD_level : Fld := ⟨H_XNG_HOLD, 12, 0⟩
/-- `H_XNG_TRANSIT`: 14 Table 14.10 R615. -/
def H_XNG_TRANSIT : Nat := 0x1018
def H_XNG_TRANSIT_transit : Fld := ⟨H_XNG_TRANSIT, 19, 0⟩
/-- `H_XNG_BOOT`: 14 Table 14.10 R182. -/
def H_XNG_BOOT : Nat := 0x101C
def H_XNG_BOOT_boot : Fld := ⟨H_XNG_BOOT, 31, 0⟩
/-- `H_XNG_EVT`: 14 Table 14.10. -/
def H_XNG_EVT : Nat := 0x1070
def H_XNG_EVT_seq : Fld := ⟨H_XNG_EVT, 31, 16⟩
def H_XNG_EVT_flags : Fld := ⟨H_XNG_EVT, 7, 0⟩
/-- `H_XNG_EVT_INFO`: 14 Table 14.10. -/
def H_XNG_EVT_INFO : Nat := 0x1074
def H_XNG_EVT_INFO_type : Fld := ⟨H_XNG_EVT_INFO, 11, 8⟩
def H_XNG_EVT_INFO_dir : Fld := ⟨H_XNG_EVT_INFO, 4, 4⟩
def H_XNG_EVT_INFO_lane : Fld := ⟨H_XNG_EVT_INFO, 2, 0⟩
/-- `H_FUN_FN_QP`: 16 Table 16.11 R672. -/
def H_FUN_FN_QP (f : Nat) : Nat := 0x2000 + f * 0x8
def H_FUN_FN_QP_qp_base (f : Nat) : Fld := ⟨H_FUN_FN_QP f, 26, 16⟩
def H_FUN_FN_QP_qp_count (f : Nat) : Fld := ⟨H_FUN_FN_QP f, 11, 0⟩
/-- `H_FUN_FN_CFG`: 16 Table 16.11 R674. -/
def H_FUN_FN_CFG (f : Nat) : Nat := 0x2004 + f * 0x8
def H_FUN_FN_CFG_ap_en (f : Nat) : Fld := ⟨H_FUN_FN_CFG f, 31, 31⟩
def H_FUN_FN_CFG_directed_ok (f : Nat) : Fld := ⟨H_FUN_FN_CFG f, 30, 30⟩
def H_FUN_FN_CFG_accept_bc (f : Nat) : Fld := ⟨H_FUN_FN_CFG f, 29, 29⟩
def H_FUN_FN_CFG_accept_mc (f : Nat) : Fld := ⟨H_FUN_FN_CFG f, 28, 28⟩
def H_FUN_FN_CFG_promisc (f : Nat) : Fld := ⟨H_FUN_FN_CFG f, 27, 27⟩
def H_FUN_FN_CFG_def_qp (f : Nat) : Fld := ⟨H_FUN_FN_CFG f, 26, 16⟩
def H_FUN_FN_CFG_vec_count (f : Nat) : Fld := ⟨H_FUN_FN_CFG f, 8, 0⟩
/-- `H_FUN_STEER`: 16 Table 16.12 R700 (entry i word w at 0x2400+16i+4w). -/
def H_FUN_STEER (w : Nat) : Nat := 0x2400 + w * 0x4
def H_FUN_STEER_word (w : Nat) : Fld := ⟨H_FUN_STEER w, 31, 0⟩
/-- `H_INT_EVQ_BASE_LO`: 16 Table 16.13. -/
def H_INT_EVQ_BASE_LO : Nat := 0x5800
def H_INT_EVQ_BASE_LO_base : Fld := ⟨H_INT_EVQ_BASE_LO, 31, 0⟩
/-- `H_INT_EVQ_BASE_HI`: 16 Table 16.13. -/
def H_INT_EVQ_BASE_HI : Nat := 0x5804
def H_INT_EVQ_BASE_HI_base : Fld := ⟨H_INT_EVQ_BASE_HI, 31, 0⟩
/-- `H_INT_EVQ_CTRL`: 16 Table 16.13. -/
def H_INT_EVQ_CTRL : Nat := 0x5808
def H_INT_EVQ_CTRL_en : Fld := ⟨H_INT_EVQ_CTRL, 31, 31⟩
def H_INT_EVQ_CTRL_size : Fld := ⟨H_INT_EVQ_CTRL, 19, 16⟩
def H_INT_EVQ_CTRL_ev_vector : Fld := ⟨H_INT_EVQ_CTRL, 8, 0⟩
/-- `H_INT_EVQ_MOD`: 16 Table 16.13. -/
def H_INT_EVQ_MOD : Nat := 0x580C
def H_INT_EVQ_MOD_ev_count : Fld := ⟨H_INT_EVQ_MOD, 31, 16⟩
def H_INT_EVQ_MOD_ev_us : Fld := ⟨H_INT_EVQ_MOD, 15, 0⟩
/-- `H_INT_EVQ_HEAD`: 16 Table 16.13. -/
def H_INT_EVQ_HEAD : Nat := 0x5810
def H_INT_EVQ_HEAD_head : Fld := ⟨H_INT_EVQ_HEAD, 31, 0⟩
/-- `H_INT_EVQ_TAIL`: 16 Table 16.13. -/
def H_INT_EVQ_TAIL : Nat := 0x5814
def H_INT_EVQ_TAIL_tail : Fld := ⟨H_INT_EVQ_TAIL, 31, 0⟩
/-- `H_INT_EVQ_LOST`: 16 Table 16.13. -/
def H_INT_EVQ_LOST : Nat := 0x5818
def H_INT_EVQ_LOST_lost : Fld := ⟨H_INT_EVQ_LOST, 31, 0⟩
/-- `H_CHK_CTRL`: 17 Table 17.2 R732. -/
def H_CHK_CTRL (n : Nat) : Nat := 0x6000 + n * 0x20
def H_CHK_CTRL_hold (n : Nat) : Fld := ⟨H_CHK_CTRL n, 31, 31⟩
def H_CHK_CTRL_busy (n : Nat) : Fld := ⟨H_CHK_CTRL n, 30, 30⟩
def H_CHK_CTRL_owner (n : Nat) : Fld := ⟨H_CHK_CTRL n, 29, 24⟩
def H_CHK_CTRL_poly (n : Nat) : Fld := ⟨H_CHK_CTRL n, 1, 0⟩
/-- `H_CHK_RUN_LO`: 17 Table 17.2 R733. -/
def H_CHK_RUN_LO (n : Nat) : Nat := 0x6004 + n * 0x20
def H_CHK_RUN_LO_run_lo (n : Nat) : Fld := ⟨H_CHK_RUN_LO n, 31, 0⟩
/-- `H_CHK_RUN_HI`: 17 Table 17.2 R733. -/
def H_CHK_RUN_HI (n : Nat) : Nat := 0x6008 + n * 0x20
def H_CHK_RUN_HI_run_hi (n : Nat) : Fld := ⟨H_CHK_RUN_HI n, 31, 0⟩
/-- `H_CHK_FIN_LO`: 17 Table 17.2. -/
def H_CHK_FIN_LO (n : Nat) : Nat := 0x600C + n * 0x20
def H_CHK_FIN_LO_fin_lo (n : Nat) : Fld := ⟨H_CHK_FIN_LO n, 31, 0⟩
/-- `H_CHK_FIN_HI`: 17 Table 17.2. -/
def H_CHK_FIN_HI (n : Nat) : Nat := 0x6010 + n * 0x20
def H_CHK_FIN_HI_fin_hi (n : Nat) : Fld := ⟨H_CHK_FIN_HI n, 31, 0⟩
/-- `H_CHK_FRAMES`: 17 Table 17.2. -/
def H_CHK_FRAMES (n : Nat) : Nat := 0x6014 + n * 0x20
def H_CHK_FRAMES_frames (n : Nat) : Fld := ⟨H_CHK_FRAMES n, 31, 0⟩
/-- `H_CHK_BYTES`: 17 Table 17.2. -/
def H_CHK_BYTES (n : Nat) : Nat := 0x6018 + n * 0x20
def H_CHK_BYTES_bytes (n : Nat) : Fld := ⟨H_CHK_BYTES n, 31, 0⟩
/-- `H_TSQ_POP`: 13 Table 13.9 R574. -/
def H_TSQ_POP (q : Nat) : Nat := 0x7000 + q * 0x10
def H_TSQ_POP_valid (q : Nat) : Fld := ⟨H_TSQ_POP q, 31, 31⟩
def H_TSQ_POP_status (q : Nat) : Fld := ⟨H_TSQ_POP q, 25, 24⟩
def H_TSQ_POP_reason (q : Nat) : Fld := ⟨H_TSQ_POP q, 23, 16⟩
def H_TSQ_POP_id (q : Nat) : Fld := ⟨H_TSQ_POP q, 15, 0⟩
/-- `H_TSQ_NS`: 13 Table 13.9. -/
def H_TSQ_NS (q : Nat) : Nat := 0x7004 + q * 0x10
def H_TSQ_NS_ns (q : Nat) : Fld := ⟨H_TSQ_NS q, 31, 0⟩
/-- `H_TSQ_SEC_LO`: 13 Table 13.9. -/
def H_TSQ_SEC_LO (q : Nat) : Nat := 0x7008 + q * 0x10
def H_TSQ_SEC_LO_sec_lo (q : Nat) : Fld := ⟨H_TSQ_SEC_LO q, 31, 0⟩
/-- `H_TSQ_SEC_HI`: 13 Table 13.9. -/
def H_TSQ_SEC_HI (q : Nat) : Nat := 0x700C + q * 0x10
def H_TSQ_SEC_HI_level (q : Nat) : Fld := ⟨H_TSQ_SEC_HI q, 29, 24⟩
def H_TSQ_SEC_HI_time (q : Nat) : Fld := ⟨H_TSQ_SEC_HI q, 15, 0⟩
/-- `H_TSQ_OVF`: 13 Table 13.9 R575. -/
def H_TSQ_OVF (q : Nat) : Nat := 0x7100 + q * 0x4
def H_TSQ_OVF_ovf (q : Nat) : Fld := ⟨H_TSQ_OVF q, 31, 0⟩
/-- `H_TSQ_PTM_CFG`: 13 Table 13.9 R585. -/
def H_TSQ_PTM_CFG : Nat := 0x71F0
def H_TSQ_PTM_CFG_ptm_ms : Fld := ⟨H_TSQ_PTM_CFG, 15, 0⟩
/-- `H_TSQ_CORR_CTRL`: 13 Table 13.9 R586. -/
def H_TSQ_CORR_CTRL : Nat := 0x7200
def H_TSQ_CORR_CTRL_snap : Fld := ⟨H_TSQ_CORR_CTRL, 0, 0⟩
/-- `H_TSQ_CORR_SYS_NS`: 13 Table 13.9. -/
def H_TSQ_CORR_SYS_NS : Nat := 0x7204
def H_TSQ_CORR_SYS_NS_ns : Fld := ⟨H_TSQ_CORR_SYS_NS, 31, 0⟩
/-- `H_TSQ_CORR_SYS_SEC_LO`: 13 Table 13.9. -/
def H_TSQ_CORR_SYS_SEC_LO : Nat := 0x7208
def H_TSQ_CORR_SYS_SEC_LO_sec_lo : Fld := ⟨H_TSQ_CORR_SYS_SEC_LO, 31, 0⟩
/-- `H_TSQ_CORR_SYS_SEC_HI`: 13 Table 13.9. -/
def H_TSQ_CORR_SYS_SEC_HI : Nat := 0x720C
def H_TSQ_CORR_SYS_SEC_HI_sec_hi : Fld := ⟨H_TSQ_CORR_SYS_SEC_HI, 15, 0⟩
/-- `H_TSQ_CORR_SYS_LOC_LO`: 13 Table 13.9. -/
def H_TSQ_CORR_SYS_LOC_LO : Nat := 0x7210
def H_TSQ_CORR_SYS_LOC_LO_lo : Fld := ⟨H_TSQ_CORR_SYS_LOC_LO, 31, 0⟩
/-- `H_TSQ_CORR_SYS_LOC_HI`: 13 Table 13.9. -/
def H_TSQ_CORR_SYS_LOC_HI : Nat := 0x7214
def H_TSQ_CORR_SYS_LOC_HI_hi : Fld := ⟨H_TSQ_CORR_SYS_LOC_HI, 31, 0⟩
/-- `H_TSQ_CORR_PTM_LO`: 13 Table 13.9. -/
def H_TSQ_CORR_PTM_LO : Nat := 0x7218
def H_TSQ_CORR_PTM_LO_lo : Fld := ⟨H_TSQ_CORR_PTM_LO, 31, 0⟩
/-- `H_TSQ_CORR_PTM_HI`: 13 Table 13.9. -/
def H_TSQ_CORR_PTM_HI : Nat := 0x721C
def H_TSQ_CORR_PTM_HI_hi : Fld := ⟨H_TSQ_CORR_PTM_HI, 31, 0⟩
/-- `H_TSQ_CORR_PTM_LOC_LO`: 13 Table 13.9. -/
def H_TSQ_CORR_PTM_LOC_LO : Nat := 0x7220
def H_TSQ_CORR_PTM_LOC_LO_lo : Fld := ⟨H_TSQ_CORR_PTM_LOC_LO, 31, 0⟩
/-- `H_TSQ_CORR_PTM_LOC_HI`: 13 Table 13.9. -/
def H_TSQ_CORR_PTM_LOC_HI : Nat := 0x7224
def H_TSQ_CORR_PTM_LOC_HI_hi : Fld := ⟨H_TSQ_CORR_PTM_LOC_HI, 31, 0⟩
/-- `H_PIN_IN`: 19 Table 19.5. -/
def H_PIN_IN : Nat := 0x8000
def H_PIN_IN_level : Fld := ⟨H_PIN_IN, 15, 0⟩
/-- `H_PIN_OUT`: 19 Table 19.5. -/
def H_PIN_OUT : Nat := 0x8010
def H_PIN_OUT_out : Fld := ⟨H_PIN_OUT, 15, 0⟩
/-- `H_PIN_OUT_S`: 19 Table 19.5. -/
def H_PIN_OUT_S : Nat := 0x8014
def H_PIN_OUT_S_set : Fld := ⟨H_PIN_OUT_S, 15, 0⟩
/-- `H_PIN_OUT_C`: 19 Table 19.5. -/
def H_PIN_OUT_C : Nat := 0x8018
def H_PIN_OUT_C_clr : Fld := ⟨H_PIN_OUT_C, 15, 0⟩
/-- `H_PIN_OUT_T`: 19 Table 19.5. -/
def H_PIN_OUT_T : Nat := 0x801C
def H_PIN_OUT_T_tgl : Fld := ⟨H_PIN_OUT_T, 15, 0⟩
/-- `H_PIN_DIR`: 19 Table 19.5. -/
def H_PIN_DIR : Nat := 0x8020
def H_PIN_DIR_dir : Fld := ⟨H_PIN_DIR, 15, 0⟩
/-- `H_PIN_EDGE_CFG`: 19 Table 19.5. -/
def H_PIN_EDGE_CFG : Nat := 0x8024
def H_PIN_EDGE_CFG_edge : Fld := ⟨H_PIN_EDGE_CFG, 31, 0⟩
/-- `H_PIN_EVT`: 19 Table 19.5 R774. -/
def H_PIN_EVT : Nat := 0x8070
def H_PIN_EVT_seq : Fld := ⟨H_PIN_EVT, 31, 16⟩
def H_PIN_EVT_flags : Fld := ⟨H_PIN_EVT, 15, 0⟩
/-- `H_FLT_COVER`: 21 Table 21.11. -/
def H_FLT_COVER : Nat := 0x9004
def H_FLT_COVER_cover : Fld := ⟨H_FLT_COVER, 1, 0⟩
/-- `H_FLT_ECC_CNT`: 21 Table 21.11. -/
def H_FLT_ECC_CNT : Nat := 0x9010
def H_FLT_ECC_CNT_corrected : Fld := ⟨H_FLT_ECC_CNT, 31, 0⟩
/-- `H_FLT_EVT`: 21 Table 21.11. -/
def H_FLT_EVT : Nat := 0x9070
def H_FLT_EVT_seq : Fld := ⟨H_FLT_EVT, 31, 16⟩
def H_FLT_EVT_flags : Fld := ⟨H_FLT_EVT, 3, 0⟩
/-- `H_FLT_EVT_INFO`: 21 Table 21.11. -/
def H_FLT_EVT_INFO : Nat := 0x9074
def H_FLT_EVT_INFO_func : Fld := ⟨H_FLT_EVT_INFO, 5, 0⟩
/-- `H_PTB_ARM`: 22 Table 22.3. -/
def H_PTB_ARM : Nat := 0x9100
def H_PTB_ARM_key : Fld := ⟨H_PTB_ARM, 31, 16⟩
def H_PTB_ARM_armed : Fld := ⟨H_PTB_ARM, 15, 15⟩
def H_PTB_ARM_owner : Fld := ⟨H_PTB_ARM, 7, 0⟩
/-- `H_PTB_LIFE`: 22 Table 22.3. -/
def H_PTB_LIFE : Nat := 0x9104
def H_PTB_LIFE_life_ms : Fld := ⟨H_PTB_LIFE, 15, 0⟩
/-- `H_PTB_LANE`: 22 Table 22.2. -/
def H_PTB_LANE : Nat := 0x9108
def H_PTB_LANE_dir : Fld := ⟨H_PTB_LANE, 29, 29⟩
def H_PTB_LANE_lane : Fld := ⟨H_PTB_LANE, 26, 24⟩
def H_PTB_LANE_mode : Fld := ⟨H_PTB_LANE, 17, 16⟩
def H_PTB_LANE_n : Fld := ⟨H_PTB_LANE, 15, 0⟩
/-- `H_PTB_ACK`: 22 Table 22.2. -/
def H_PTB_ACK : Nat := 0x910C
def H_PTB_ACK_drop_n : Fld := ⟨H_PTB_ACK, 7, 0⟩
/-- `H_PTB_DMA`: 22 Table 22.2. -/
def H_PTB_DMA : Nat := 0x9110
def H_PTB_DMA_function : Fld := ⟨H_PTB_DMA, 29, 24⟩
def H_PTB_DMA_us : Fld := ⟨H_PTB_DMA, 15, 0⟩
/-- `H_PTB_ECC`: 22 Table 22.2. -/
def H_PTB_ECC : Nat := 0x9114
def H_PTB_ECC_go : Fld := ⟨H_PTB_ECC, 31, 31⟩
def H_PTB_ECC_double : Fld := ⟨H_PTB_ECC, 30, 30⟩
def H_PTB_ECC_target : Fld := ⟨H_PTB_ECC, 29, 28⟩
def H_PTB_ECC_word : Fld := ⟨H_PTB_ECC, 15, 0⟩
/-- `H_PTB_EVT`: 22 Table 22.3. -/
def H_PTB_EVT : Nat := 0x9170
def H_PTB_EVT_seq : Fld := ⟨H_PTB_EVT, 31, 16⟩
def H_PTB_EVT_flags : Fld := ⟨H_PTB_EVT, 2, 0⟩
/-- `H_PTB_EVT_INFO`: 22 R852. -/
def H_PTB_EVT_INFO : Nat := 0x9174
def H_PTB_EVT_INFO_requester : Fld := ⟨H_PTB_EVT_INFO, 31, 24⟩
def H_PTB_EVT_INFO_cause : Fld := ⟨H_PTB_EVT_INFO, 1, 0⟩
/-- `H_XNG_PAGE`: 14 Table 14.11 R624. -/
def H_XNG_PAGE (f : Nat) : Nat := f * 0x10000 + 0x1100
def H_XNG_PAGE_page (f : Nat) : Fld := ⟨H_XNG_PAGE f, 9, 0⟩
/-- `H_XNG_AP_STAT`: 14 Table 14.11 R626. -/
def H_XNG_AP_STAT (f : Nat) : Nat := f * 0x10000 + 0x1104
def H_XNG_AP_STAT_local_cnt (f : Nat) : Fld := ⟨H_XNG_AP_STAT f, 31, 16⟩
def H_XNG_AP_STAT_timeout (f : Nat) : Fld := ⟨H_XNG_AP_STAT f, 1, 1⟩
def H_XNG_AP_STAT_barrier (f : Nat) : Fld := ⟨H_XNG_AP_STAT f, 0, 0⟩
/-- `H_XNG_EPOCH`: 14 Table 14.11 R629. -/
def H_XNG_EPOCH (f : Nat) : Nat := f * 0x10000 + 0x1108
def H_XNG_EPOCH_epoch (f : Nat) : Fld := ⟨H_XNG_EPOCH f, 7, 0⟩
/-- `H_XNG_PURGE`: 14 Table 14.11 R630. -/
def H_XNG_PURGE (f : Nat) : Nat := f * 0x10000 + 0x110C
def H_XNG_PURGE_go (f : Nat) : Fld := ⟨H_XNG_PURGE f, 31, 31⟩
def H_XNG_PURGE_func (f : Nat) : Fld := ⟨H_XNG_PURGE f, 15, 8⟩
def H_XNG_PURGE_epoch (f : Nat) : Fld := ⟨H_XNG_PURGE f, 7, 0⟩
/-- `H_FUN_QSEL`: 16 Table 16.11. -/
def H_FUN_QSEL (f : Nat) : Nat := f * 0x10000 + 0x3000
def H_FUN_QSEL_qsel (f : Nat) : Fld := ⟨H_FUN_QSEL f, 10, 0⟩
/-- `H_FUN_FSTAT`: 16 Table 16.11. -/
def H_FUN_FSTAT (f : Nat) : Nat := f * 0x10000 + 0x3080
def H_FUN_FSTAT_function (f : Nat) : Fld := ⟨H_FUN_FSTAT f, 29, 24⟩
/-- `H_FUN_ECFG`: 16 Table 16.11. -/
def H_FUN_ECFG (f : Nat) : Nat := f * 0x10000 + 0x3084
def H_FUN_ECFG_ev_vector (f : Nat) : Fld := ⟨H_FUN_ECFG f, 8, 0⟩
/-- `H_FUN_EVT`: 16 Table 16.11. -/
def H_FUN_EVT (f : Nat) : Nat := f * 0x10000 + 0x30F0
def H_FUN_EVT_seq (f : Nat) : Fld := ⟨H_FUN_EVT f, 31, 16⟩
def H_FUN_EVT_flags (f : Nat) : Fld := ⟨H_FUN_EVT f, 6, 0⟩
/-- `H_FUN_EVT_INFO`: 16 Table 16.11. -/
def H_FUN_EVT_INFO (f : Nat) : Nat := f * 0x10000 + 0x30F4
def H_FUN_EVT_INFO_qp (f : Nat) : Fld := ⟨H_FUN_EVT_INFO f, 10, 0⟩
/-- `H_FUN_Q_CTRL`: 16 Table 16.11 R678. -/
def H_FUN_Q_CTRL (q : Nat) : Nat := 0x1000000 + q * 0x40 + 0x04
def H_FUN_Q_CTRL_tx_en (q : Nat) : Fld := ⟨H_FUN_Q_CTRL q, 31, 31⟩
def H_FUN_Q_CTRL_rx_en (q : Nat) : Fld := ⟨H_FUN_Q_CTRL q, 30, 30⟩
def H_FUN_Q_CTRL_cq_en (q : Nat) : Fld := ⟨H_FUN_Q_CTRL q, 29, 29⟩
def H_FUN_Q_CTRL_tx_hi (q : Nat) : Fld := ⟨H_FUN_Q_CTRL q, 24, 24⟩
def H_FUN_Q_CTRL_tx_size (q : Nat) : Fld := ⟨H_FUN_Q_CTRL q, 23, 20⟩
def H_FUN_Q_CTRL_rx_size (q : Nat) : Fld := ⟨H_FUN_Q_CTRL q, 19, 16⟩
def H_FUN_Q_CTRL_cq_size (q : Nat) : Fld := ⟨H_FUN_Q_CTRL q, 15, 12⟩
def H_FUN_Q_CTRL_vector (q : Nat) : Fld := ⟨H_FUN_Q_CTRL q, 10, 0⟩
/-- `H_FUN_Q_TXBASE_LO`: 16 Table 16.11. -/
def H_FUN_Q_TXBASE_LO (q : Nat) : Nat := 0x1000000 + q * 0x40 + 0x08
def H_FUN_Q_TXBASE_LO_lo (q : Nat) : Fld := ⟨H_FUN_Q_TXBASE_LO q, 31, 0⟩
/-- `H_FUN_Q_TXBASE_HI`: 16 Table 16.11. -/
def H_FUN_Q_TXBASE_HI (q : Nat) : Nat := 0x1000000 + q * 0x40 + 0x0C
def H_FUN_Q_TXBASE_HI_hi (q : Nat) : Fld := ⟨H_FUN_Q_TXBASE_HI q, 31, 0⟩
/-- `H_FUN_Q_RXBASE_LO`: 16 Table 16.11. -/
def H_FUN_Q_RXBASE_LO (q : Nat) : Nat := 0x1000000 + q * 0x40 + 0x10
def H_FUN_Q_RXBASE_LO_lo (q : Nat) : Fld := ⟨H_FUN_Q_RXBASE_LO q, 31, 0⟩
/-- `H_FUN_Q_RXBASE_HI`: 16 Table 16.11. -/
def H_FUN_Q_RXBASE_HI (q : Nat) : Nat := 0x1000000 + q * 0x40 + 0x14
def H_FUN_Q_RXBASE_HI_hi (q : Nat) : Fld := ⟨H_FUN_Q_RXBASE_HI q, 31, 0⟩
/-- `H_FUN_Q_CQBASE_LO`: 16 Table 16.11. -/
def H_FUN_Q_CQBASE_LO (q : Nat) : Nat := 0x1000000 + q * 0x40 + 0x18
def H_FUN_Q_CQBASE_LO_lo (q : Nat) : Fld := ⟨H_FUN_Q_CQBASE_LO q, 31, 0⟩
/-- `H_FUN_Q_CQBASE_HI`: 16 Table 16.11. -/
def H_FUN_Q_CQBASE_HI (q : Nat) : Nat := 0x1000000 + q * 0x40 + 0x1C
def H_FUN_Q_CQBASE_HI_hi (q : Nat) : Fld := ⟨H_FUN_Q_CQBASE_HI q, 31, 0⟩
/-- `H_FUN_Q_MOD`: 16 Table 16.11 R707. -/
def H_FUN_Q_MOD (q : Nat) : Nat := 0x1000000 + q * 0x40 + 0x20
def H_FUN_Q_MOD_mod_count (q : Nat) : Fld := ⟨H_FUN_Q_MOD q, 31, 16⟩
def H_FUN_Q_MOD_mod_us (q : Nat) : Fld := ⟨H_FUN_Q_MOD q, 15, 0⟩
/-- `H_FUN_Q_TXHEAD`: 16 Table 16.11 R677. -/
def H_FUN_Q_TXHEAD (q : Nat) : Nat := 0x1000000 + q * 0x40 + 0x24
def H_FUN_Q_TXHEAD_count (q : Nat) : Fld := ⟨H_FUN_Q_TXHEAD q, 31, 0⟩
/-- `H_FUN_Q_TXTAIL`: 16 Table 16.11 R677. -/
def H_FUN_Q_TXTAIL (q : Nat) : Nat := 0x1000000 + q * 0x40 + 0x28
def H_FUN_Q_TXTAIL_count (q : Nat) : Fld := ⟨H_FUN_Q_TXTAIL q, 31, 0⟩
/-- `H_FUN_Q_RXHEAD`: 16 Table 16.11 R677. -/
def H_FUN_Q_RXHEAD (q : Nat) : Nat := 0x1000000 + q * 0x40 + 0x2C
def H_FUN_Q_RXHEAD_count (q : Nat) : Fld := ⟨H_FUN_Q_RXHEAD q, 31, 0⟩
/-- `H_FUN_Q_RXTAIL`: 16 Table 16.11 R677. -/
def H_FUN_Q_RXTAIL (q : Nat) : Nat := 0x1000000 + q * 0x40 + 0x30
def H_FUN_Q_RXTAIL_count (q : Nat) : Fld := ⟨H_FUN_Q_RXTAIL q, 31, 0⟩
/-- `H_FUN_Q_CQHEAD`: 16 Table 16.11 R677. -/
def H_FUN_Q_CQHEAD (q : Nat) : Nat := 0x1000000 + q * 0x40 + 0x34
def H_FUN_Q_CQHEAD_count (q : Nat) : Fld := ⟨H_FUN_Q_CQHEAD q, 31, 0⟩
/-- `H_FUN_Q_CQTAIL`: 16 Table 16.11 R677. -/
def H_FUN_Q_CQTAIL (q : Nat) : Nat := 0x1000000 + q * 0x40 + 0x38
def H_FUN_Q_CQTAIL_count (q : Nat) : Fld := ⟨H_FUN_Q_CQTAIL q, 31, 0⟩
/-- `H_FUN_Q_STAT`: 16 Table 16.11 R679. -/
def H_FUN_Q_STAT (q : Nat) : Nat := 0x1000000 + q * 0x40 + 0x3C
def H_FUN_Q_STAT_stopped (q : Nat) : Fld := ⟨H_FUN_Q_STAT q, 31, 31⟩
def H_FUN_Q_STAT_error (q : Nat) : Fld := ⟨H_FUN_Q_STAT q, 30, 30⟩
def H_FUN_Q_STAT_err_code (q : Nat) : Fld := ⟨H_FUN_Q_STAT q, 15, 8⟩

end Sys2Proof.Machine
end

