-- ==== Sys2Proof/Config.lean ====
section
/-! DEFINITION. What an implementation fixes and what the spec leaves open: constants without a body, so that no
proof can see a value of them. Each is named in a log entry under notes/assumptions. -/

namespace Sys2Proof.Config

/-- A value the spec leaves open, fresh at each use: applied to the counter `freeCtr` of the state. -/
opaque freeValue : Nat → BitVec 64

/-- Whether the vendor entries of state machine `m` use guard code `g` (invariant I4 of Table 21.9: the spec does
not list the vendor contents). -/
opaque vendorGuard : Nat → Nat → Bool

/-- Whether the vendor entries of state machine `m` use the action bits `a` (invariant I4 of Table 21.9). -/
opaque vendorAction : Nat → Nat → Bool

/-- The built-in receive latency of the integrated PHY in mode `m` of Table 7.1, ns (R567: the spec gives no figure). -/
opaque phyRx : Nat → BitVec 16

/-- The built-in transmit latency of the integrated PHY in mode `m`, ns (R567). -/
opaque phyTx : Nat → BitVec 16

end Sys2Proof.Config
end

