-- ==== Sys2Proof/Machine/Store.lean ====
section
/-! DEFINITION. Sparse storage by address in one canonical form: addresses strictly rising, and no entry equal to
what an unlisted address reads as. Registers, tables, counters and memories are all held this way. -/

namespace Sys2Proof.Machine

/-- What `m` holds at address `k`; an unlisted address reads `dflt k`. -/
def Store.get {α : Type} (dflt : Nat → α) : List (Nat × α) → Nat → α
  | [], k => dflt k
  | (a, v) :: m, k => if k = a then v else Store.get dflt m k

/-- `m` with address `k` listed as `v`, whatever `k` reads as unlisted. -/
def Store.insert {α : Type} (k : Nat) (v : α) : List (Nat × α) → List (Nat × α)
  | [] => [(k, v)]
  | (a, w) :: m => if k < a then (k, v) :: (a, w) :: m else if k = a then (k, v) :: m else (a, w) :: Store.insert k v m

/-- `m` with address `k` unlisted. -/
def Store.erase {α : Type} (k : Nat) (m : List (Nat × α)) : List (Nat × α) := m.filter (fun e => e.1 ≠ k)

/-- Write `v` at address `k`: the entry goes when `v` is what the unlisted address reads as. -/
def Store.set {α : Type} [DecidableEq α] (dflt : Nat → α) (m : List (Nat × α)) (k : Nat) (v : α) : List (Nat × α) :=
  if v = dflt k then Store.erase k m else Store.insert k v m

/-- The canonical form: addresses strictly rising, and no entry equal to its unlisted value. -/
abbrev Store.wf {α : Type} (dflt : Nat → α) (m : List (Nat × α)) : Prop :=
  m.Pairwise (fun a b => a.1 < b.1) ∧ ∀ e ∈ m, e.2 ≠ dflt e.1

/-- Unlist every address that `p` names. -/
def Store.clear {α : Type} (p : Nat → Bool) (m : List (Nat × α)) : List (Nat × α) := m.filter (fun e => !p e.1)

end Sys2Proof.Machine
end

