-- ==== Sys2Proof/Machine/State.lean ====
section
/-! DEFINITION. The state of the TZ16 as plain data: the field die, the host die, the identity key, and the queue of
waiting commands. A register's value lives in `FieldDie.reg` or `HostDie.reg` under its address; what the spec gives the
machine without a register lives in the records below. -/

namespace Sys2Proof.Machine

/-- The two order codes (R1): with a host die, or field die only. -/
inductive OrderCode
  | di | fo
deriving DecidableEq, Repr

/-- Where the field die stands between reset and running (Table 4.3, Table 3.5). -/
inductive Phase
  | unpowered    -- the field rails are off: before the line is applied, after it is removed, or in darkroom
  | inReset      -- internal reset asserted (R67)
  | released     -- internal reset released, fabric PLL locking
  | locked       -- fabric PLL locked, fine tick running
  | resolving    -- initialised, configuration source being resolved
  | running      -- T_cfg passed
deriving DecidableEq, Repr

/-- A flow unit without its CRC: the header word and the payload, zero-padded to 56 bytes on the wire (R596). -/
structure FlowUnit where
  header : Nat := 0
  payload : List Byte := []
deriving DecidableEq, Repr

/-- One end of a link: the Crossing field end, the Crossing host end, or the twin link (R591, R634). Its times are fine
ticks, the model's one measure of intervals at both dies. -/
structure Link where
  tick : Nat := 0                           -- the fine tick at which this end last acted
  phase : Nat := 0                          -- 0 waiting, 1 lane phase, 2 exchange, 3 UP (Table 14.10)
  everUp : Bool := false                    -- trained since this die's reset
  fresh : Bool := true                      -- R613
  txNext : Nat := 0                         -- next sequence number to send
  expect : Nat := 0                         -- E
  replay : List (Nat × FlowUnit) := []      -- units awaiting ACK, oldest first (R602)
  times : List Nat := []                    -- the tick at which each of them was last sent, in the same order (R602)
  resends : Nat := 0                        -- resends of the same first unit (R604)
  resendOf : Option Nat := none             -- the first unit of the last resend
  unacked : Nat := 0                        -- units accepted since the last ACK sent (R600)
  ackAt : Nat := 0                          -- when the first of them was accepted
  nakOf : Option Nat := none                -- E of the last NAK sent, while it suppresses another (R601)
  nakAt : Nat := 0                          -- when that NAK was sent
  rxFailed : Nat := 7                       -- data lane carried on the spare, receive direction, 7 none
  txFailed : Nat := 7                       -- as above, transmit direction
  rxSpareBad : Bool := false
  txSpareBad : Bool := false
  sparing : Option Nat := none              -- lane whose SPARE has been sent and not yet answered (R607)
  spareAt : Nat := 0                        -- when that SPARE last went out
  laneAt : Nat := 0                         -- when the lane phase last began (R611)
  peerTrain : Option (Bool × Nat × Nat × Nat) := none  -- TRAIN received: fresh, boot, next sent, next expected (R612)
  echoed : Bool := false                    -- TRAIN_ECHO received in this training
  rxOpen : Bool := false                    -- a DATA frame is open at the receiver (Table 14.9)
  rxBytes : List Byte := []                 -- bytes of the frame being taken from the inbox
  rxMeta : List Nat := []                   -- its DATA meta fields, first unit first
  fwTimes : List Nat := []                  -- times of the firewall discards of the last millisecond (R623)
  inbox : List FlowUnit := []               -- accepted units not yet consumed, oldest first (R605)
  waiting : List FlowUnit := []             -- register messages and status messages waiting to be sent (R622)
  ackAmnesty : Nat := 0                     -- ACK points still to be suppressed by perturbation (Table 22.1)
  transit : Nat := 0                        -- units of 2^-4 ns (R615, R635)
  closed : Bool := false                    -- accepts nothing more: darkroom entry (R614)
  corruptTx : Bool := false                 -- the next sequenced unit sent leaves with a wrong CRC (Table 22.1)
  corruptRx : Bool := false                 -- the next sequenced unit received counts as corrupt (Table 22.1)
deriving DecidableEq, Repr

/-- What a final classification gives a frame (R395), and the key fields later stages use. -/
structure ClsResult where
  short : Bool := false
  status : Nat := 0
  cls : Nat := 0
  colour : Nat := 0                         -- 0 green, 1 yellow, 2 red
  queue : Nat := 0
  rule : Option Nat := none
  vid : Nat := 0
  pcp : Nat := 0
  dei : Nat := 0
  tags : Nat := 0
  tag0 : Bool := false                      -- the first tag carries a VID other than 0 (R407)
  slots : List (Nat × Nat) := []            -- filled key slots (R378)
  key : List Nat := []                      -- key words 0 to 9 (Table 9.2)
deriving DecidableEq, Repr

/-- An instant as its own fine tick gives it (R538): in domain A and in domain B, and on the local clock of 8 ns times
the fine-tick count, ns. -/
structure Stamp where
  a : Nat := 0
  b : Nat := 0
  c : Int := 0
deriving DecidableEq, Repr

/-- A frame the field die holds: in reception, or referenced by copies. -/
structure Frame where
  id : Nat := 0
  port : Nat := 0
  bytes : List Byte := []                   -- received so far; with the FCS once it has ended
  rx : Bool := true                         -- in reception
  held : Bool := false                      -- its assembly waits while an express frame is received (R323)
  accepted : Bool := false                  -- accepted whole by the ingress MAC
  bad : Nat := 0                            -- discard reason of Table 7.7 that ended it, 0 none
  maxFrame : Nat := 2048                    -- max_frame in force when reception began (R324)
  ts : Nat := 0                             -- ingress timestamp in system time, ns
  at_ : Stamp := {}                         -- its instant in both domains and on the local clock (R538)
  shortDone : Bool := false                 -- the short pass has run
  final : Option ClsResult := none          -- the final classification
  dropped : Bool := false                   -- a drop of it has been counted (R28, R326)
  untag : Nat := 0                          -- the untag mask of its vid's entry as stage 5 read it (R434, R436)
  directed : Option Nat := none             -- directed port set of its transmit descriptor (R409)
  tsReq : Option Nat := none                -- timestamp identifier, when one was requested (R571)
  learn : Bool := false                     -- a learn is pending from step 6 (R420)
  stream : Option Nat := none               -- its stream (R494)
  sdu : Nat := 0                            -- the stream's max_sdu as stage 4 read it (R495)
  blocks : Bool := false                    -- the stream's block_oversize as stage 4 read it
  prov : Nat := 0                           -- P, as stage 4 took it (R491)
  rest : List Byte := []                    -- P16: bytes that have not entered stage 1 yet (R694)
  metered : Option (Nat × Bool × Nat) := none  -- meter, whether the excess bucket paid, and P (R509)
  octets : Option (Nat × Nat × Nat) := none -- operational window, its occurrence (cycle start), and P counted in its sum (R503)
  ptp : Option (Nat × Nat) := none          -- made by the gPTP engine: instance, and what its transmission completes (R557)
deriving DecidableEq, Repr

/-- What an egress port does with a frame's tags (R435, R436). -/
inductive TagAct
  | keep
  | strip
  | setVid (vid : Nat)
  | insert (tci : Nat)
deriving DecidableEq, Repr

/-- An egress copy of a frame (R466). -/
structure Copy where
  frame : Nat := 0
  port : Nat := 0
  queue : Nat := 0
  colour : Nat := 0
  cells : Nat := 0                          -- its charge (R457)
  reserve : Bool := false                   -- charged to the port's reserve, else to the pool (R459)
  mirror : Bool := false
  ct : Bool := false                        -- cut through (R30)
  tag : TagAct := .keep
  stomp : Nat := 0                          -- ingress reason or CELL_ECC code that ends it with an inverted FCS
  stomped : Bool := false
  start : Nat := 0                          -- fine tick at which its transmission started
  sent : Nat := 0                           -- bytes of it sent in earlier fragments
  frag : Bool := false                      -- it has been preempted at least once
  joined : Nat := 0                         -- fine tick at which it joined its queue (F_PTB_DELAY, Table 22.1)
  ts : Nat := 0                             -- system time at the start of its transmission, ns
  at_ : Stamp := {}                         -- that instant in both domains and on the local clock (R538)
  paid : Nat := 0                           -- P that the rate level paid for it at its start, 0 none (R515)
  seen : List Nat := []                     -- erroneous cells that it has read (R482)
deriving DecidableEq, Repr

/-- The stop of one queue by PAUSE (R331, R332). -/
structure PauseStop where
  until_ : Nat := 0                         -- in units of 0.1 ns; 0 not stopped
  since : Nat := 0                          -- start of the unbroken stop
  ignore : Nat := 0                         -- PAUSE is not honoured before this time
deriving DecidableEq, Repr

/-- What a port holds besides its registers. -/
structure PortX where
  holds : List Nat := []                    -- reasons of Table 7.4 that hold it in HELD
  since : Nat := 0                          -- fine tick of its last state change
  quietFrom : Nat := 0                      -- fine tick since which nothing has been in reception
  sleepSent : Bool := false                 -- TC10 sleep request sent, answer awaited
  sleepAt : Nat := 0                        -- fine tick at which it was sent (R312)
  drained : Bool := false                   -- SLEEP_ENTRY has found the egress empty: no further frame starts (R311)
  retry : Bool := false                     -- the attempt is to be repeated (R312)
  windows : List Nat := []                  -- exposure entries whose open windows hold it out of SLEEP (R136)
  wakeAt : Nat := 0                         -- fine tick at which a wake held back by the wake ramp begins (R156)
  persist : Option Nat := none              -- fine tick at which persistent wake began (R146)
  burstAt : Option Nat := none              -- fine tick of the last wake burst of this wake (R145)
  partnerAwake : Bool := false              -- R144
  verify : Nat := 0                         -- verify frames sent in this verification (R320)
  verifyAt : Nat := 0                       -- fine tick of the last of them
  stops : List PauseStop := []
  differ : Nat := 0                         -- consecutive safelight ticks of disagreement (R336)
  gclDiffer : Nat := 0                      -- as above for the gate list (R531)
  modeBad : Bool := false                   -- R878
  upSince : Nat := 0                        -- fine tick since which it has counted as link-up (R439)
  sending : Option Copy := none             -- the copy on the wire
  preempted : Option Copy := none           -- a preempted remainder (R529)
deriving DecidableEq, Repr

/-- What a segment controller holds besides its registers (chapter 8). -/
structure SegX where
  active : Bool := false                    -- a cycle is running
  toNode : Nat := 0                         -- node whose opportunity runs
  toStart : Nat := 0                        -- when it began, or when its wait for burst_timer began, in units of 0.1 ns
  cycleStart : Nat := 0                     -- end of the last beacon, in units of 0.1 ns
  beacons : Nat := 0                        -- beacons seen without loss since TRAINING (R351)
  beaconsSent : Nat := 0                    -- beacons sent, wrapping (Table 15.5)
  lostAt : Option Nat := none               -- fine tick of beacon_lost (R354)
  burst : Nat := 0                          -- further frames sent in this opportunity (R348)
  used : Bool := false                      -- a transmission has begun in this opportunity
  waiting : Bool := false                   -- holding the opportunity for burst_timer
  winCycles : Nat := 0                      -- cycles of the running overlap window
  winOverlaps : Nat := 0                    -- overlaps of the running window
  winSeen : Nat := 0                        -- nodes heard in the running window
  hearing : Bool := false                   -- another node's transmission is under way
  silentWait : Bool := false                -- after an overlap: no frame is accepted (R363)
  takeoverWait : Bool := false              -- after take-over: a coordinator awaits silence, a follower a beacon (R369)
  plca : Option Word := none                -- value in effect until the next beacon, when it differs (R342)
  burstReg : Option Word := none            -- as above for F_MDS_n_BURST
deriving DecidableEq, Repr

/-- What a port's gates hold besides their registers (chapter 12). Times in ns of system time. -/
structure GateX where
  base : Nat := 0                           -- operational base time
  cycleStart : Nat := 0                     -- start of the running cycle
  entryStart : Nat := 0                     -- start of the running entry
  states : Nat := 0xFF                      -- open queues
  hold : Bool := false                      -- preemption hold asserted (R520)
  pending : Bool := false                   -- a change is pending
  ct : Nat := 0                             -- its change time (R525)
  pendLen : Nat := 0
  pendCycle : Nat := 0
  pendBase : Nat := 0
  pendExt : Nat := 0
  pendHold : Nat := 0
  pendGen : Nat := 0
  pendOff : Bool := false                   -- the pending list is one with gate_en 0
  pendList : List (Nat × Nat) := []         -- words 0 and 1 of the copied entries
  pendTrig : Nat := 0                       -- number of the accepted trigger that it comes from (R526)
  ext : Nat := 0                            -- operational ext_ns
  holdAdv : Nat := 0                        -- operational hold_adv
  rlLevel : Int := 0                        -- rate level, units of 10^-6 byte (R515)
deriving DecidableEq, Repr

/-- The time that a Sync, with its Follow_Up, has carried to an instance. -/
structure SyncTime where
  origin : Nat := 0                         -- originTimestamp or preciseOriginTimestamp, ns
  domTs : Nat := 0                          -- ingress timestamp in the steered domain, ns
  localTs : Int := 0                        -- ingress timestamp on the local clock, ns (R553)
  corr : Int := 0                           -- correctionField, units of 2^-16 ns
  tlv : List Byte := []                     -- the Follow_Up information TLV
deriving DecidableEq, Repr

/-- What one gPTP instance holds besides its registers (chapter 13). -/
structure PtpX where
  integral : Int := 0                       -- I, units of 2^-8 ppb
  good : Nat := 0                           -- consecutive offsets within lock_ns
  badRun : Nat := 0                         -- consecutive offsets beyond lock_ns
  lastSync : Nat := 0                       -- fine tick of the last Sync on the slave port
  seqSync : Nat := 0                        -- next Sync sequenceId
  seqAnnounce : Nat := 0                    -- next Announce sequenceId
  heard : List (Nat × Nat × List Byte) := [] -- per port: fine tick and bytes of the last qualified Announce
  carried : Option (Nat × Nat) := none      -- slave port that a state record gave, with the fine tick that counts (R652, R657)
  sync : Option SyncTime := none            -- the last time received on the slave port
  syncNew : Bool := false                   -- the servo has not used it yet
  pendingSync : Option (Nat × Nat × SyncTime) := none -- two-step Sync awaiting Follow_Up: port and sequenceId
  afterWake : Bool := false                 -- the first offset after a wake is to be recorded (R590)
deriving DecidableEq, Repr

/-- One entry of a timestamp or capture queue (Table 13.7). -/
structure TsEntry where
  status : Nat := 0
  reason : Nat := 0
  id : Nat := 0
  ts : Nat := 0                             -- ns
deriving DecidableEq, Repr

/-- One shutter (R577 to R580). Times in ns of system time. -/
structure Shutter where
  armed : Bool := false
  start : Nat := 0
  stop : Nat := 0
  period : Nat := 0
  active : Bool := false
  missing : Bool := false                   -- the pulse at this time is held back and has been reported (R786)
  next : Option (Nat × Nat × Nat) := none   -- values re-armed during a pulse: start, stop, period (R579)
deriving DecidableEq, Repr

/-- The time unit's state besides its registers (chapter 13). -/
structure TimeX where
  c : Nat := 0                              -- fine-tick count
  a : Nat := 0                              -- domain A, units of 2^-32 ns
  bOff : Nat := 0                           -- off of domain B, units of 2^-32 ns
  delta : Int := 0                          -- Δ, units of 2^-32 ns
  residue : Nat := 0                        -- slew residue (R546)
  aStep : Option Int := none                -- sum of the steps to apply to A at the next fine tick, ns
  bStep : Option Int := none                -- as above for off
  aSet : Option Nat := none                 -- set of A at the next fine tick, ns
  bSet : Option Nat := none                 -- set of off at the next fine tick, ns
  steps : Nat := 0                          -- step count of TIME messages (R583)
  xcOn : Bool := false                      -- cross-check enabled
  xcPrev : Option Int := none               -- D of the previous interval
  xcVoid : Bool := false                    -- the running interval is void
  xcStart : Nat := 0                        -- start of the running interval, system time ns
  xcLog : Int := 0                          -- log_sync as it stood then
  differ : Nat := 0                         -- consecutive safelight ticks of disagreement (R548)
  shutters : List Shutter := List.replicate 4 {}
  captures : List (List TsEntry) := List.replicate 4 []  -- capture queues of inputs 0 to 3; status 1 rising
  capLast : List (Option Nat) := List.replicate 4 none   -- last recorded edge of each input: 8 × c + phase
  tsq : List (List TsEntry) := List.replicate 17 []      -- timestamp queues of ports 0 to 16 (12 to 15 unused)
  pdMeasured : Nat := 0                     -- ports, bit n, whose meanLinkDelay has been measured
  pdSeq : List Nat := List.replicate 12 0   -- next sequenceId of peer-delay requests, per port
  heardAt : List (Nat × Nat × Stamp) := []  -- the latest 32 consumed frames: port, ingress timestamp, its instant (R538)
  timeDue : Bool := false                   -- a TIME message is due after a step or switch
  lastMs : Nat := 0                         -- last whole millisecond announced
  darkA : Nat := 0                          -- A, off, c, Δ recorded at darkroom entry (R587)
  darkB : Nat := 0
  darkC : Nat := 0
  darkN0 : Nat := 0
  darkCal : Nat := 0
  darkDelta : Int := 0
  darkActive : Nat := 0                     -- the domain in use at entry
  darkSlave : Nat := 0                      -- the instances, bit n, that had a slave port at entry (R590)
deriving DecidableEq, Repr

/-- The stream block's state besides its tables (chapter 12). -/
structure StrX where
  refill : List (Nat × List Nat) := []      -- per meter: C and E below one byte (2^-20 byte) and their residues (R506)
  resid : List (Nat × Int) := []            -- per shaped queue 8n + q: credit below one unit, units of 10^-6 (R512)
  octets : List (Nat × List (Nat × Nat)) := [] -- per operational window: its occurrences (cycle starts, ns) and their sums
  pendWin : Option Nat := none              -- boundary time from which pending windows apply (R525), ns
  pendWords : List (Nat × Word) := []       -- copied admin windows, by operational address
  pendTrig : Nat := 0                       -- number of the accepted trigger that the windows come from
  trigs : Nat := 0                          -- accepted triggers
  lastMask : Nat := 0                       -- F_STR_CHG_MASK at the last accepted trigger
  lastCt : Nat := 0                         -- its change time: that of its lowest port, else of the windows, ns
  netStart : Nat := 0                       -- start of the running network cycle, ns
  cycles : List Nat := []                   -- starts of the network cycles by which frames are judged, latest first, ns (R499)
deriving DecidableEq, Repr

/-- Forwarding state besides its registers and tables (chapter 10). -/
structure FwdX where
  armed : Bool := false                     -- a key capture is armed (R402)
  fullLatched : Bool := false               -- a failed learn since the last insertion (R419)
  ageTick : Nat := 0                        -- fine tick of the last ager phase start (R427)
  meetAt : Nat := 0                         -- fabric cycle to which the next two belong (R428)
  learnHits : List Nat := []                -- entries that a learn has hit in it
  agedOut : List Nat := []                  -- entries that the ager has invalidated in it
deriving DecidableEq, Repr

/-- The power manager's state besides its registers (chapter 3). -/
structure PwrX where
  sl : Nat := 0                             -- coarse timekeeper count (48 bits)
  slStart : Nat := 0                        -- fine tick of the last safelight edge
  slFirst : Bool := true                    -- no full safelight tick has been counted yet
  overran : Bool := false                   -- the running safelight tick has already overrun (R103)
  idle : Nat := 0                           -- fine ticks for which the nap conditions have held without a break (R106)
  napCause : Bool := false                  -- a cause of R107 has come about since NAP was entered
  rxAt : Nat := 0                           -- fine tick from which dark_idle counts: the last received frame, or the last refused request (R110)
  autoLast : Option Nat := none             -- outcome of the automatic request before (R110)
  autoNow : Bool := false                   -- the running entry came from an automatic request
  entryTick : Nat := 0                      -- fine tick of the acceptance (Table 3.4)
  drained : Option Nat := none              -- safelight count at the end of the drain
  dark : Bool := false                      -- PD_EN has been driven low for darkroom
  wakePending : Bool := false               -- a wake cause latched after PD_EN went low (R114)
  waking : Bool := false                    -- the exit sequence runs
  timeDone : Bool := false                  -- its system time has been re-established (Table 3.5)
  pgLow : Bool := false                     -- PD_PG has fallen since PD_EN went low for darkroom
  mask : Nat := 0                           -- wake mask captured at darkroom entry: F_PWR_WAKE_SRC with its armed detectors (Table 3.4)
  tc10 : Bool := false                      -- tc10_en as it stood then: the detectors take the TC10 pulse too (R142)
  wakeTick : Option Nat := none             -- wake tick captured at darkroom entry, safelight ticks after it
  resumeAt : Nat := 0                       -- flash address of the resume image, as it stood at darkroom entry
  expBase : Nat := 0                        -- exposure base in force, ns (R157)
  lost : Bool := false                      -- the resume image of the running exit has failed (R129)
  expOpen : List (Nat × Nat) := []          -- open windows: entry, and end in ns
  expDone : List (Nat × Nat) := []          -- per entry: start of the last window begun, ns
  expCount : Nat := 0                       -- windows opened, wrapping (Table 15.5)
  okFor : Nat := 0                          -- 1 ms samples in a row in which the budget has covered readmission (R154)
  overRaised : Bool := false                      -- an unbroken period of excess demand has been reported (R152)
  lineLive : List Bool := [false, false]    -- PD_VLINE0, 1 has risen past turn-on and not yet fallen past turn-off
  lineAbove : List Bool := [false, false]   -- PD_VLINE0, 1 above the turn-on threshold (R305)
  lineOff : List Bool := [true, true]       -- PD_VLINE0, 1 has been below the turn-off threshold since its last application
  lineClass : List Nat := [0, 0]            -- class code read at the last application of each line, 0 none (R80)
  sccp : List Nat := [0, 0]                 -- SCCP state of each front end (Table 7.10)
  ov : Bool := false                        -- over-voltage turn-off in force
  vddSl : Bool := true                      -- VDD_SL within its operating range
  resetTicks : Nat := 0                     -- safelight ticks since the internal reset was asserted (R163)
  lockTicks : Nat := 0                      -- safelight edges since the fabric PLL locked (R588)
deriving DecidableEq, Repr

/-- Configuration, locks, proof and voters besides their registers (chapter 6). -/
structure CfgX where
  grantTick : List (Nat × Nat) := []        -- fine tick of the grant of each HELD lock (R282)
  sweeping : Bool := false                  -- a sweep runs
  commit : Option Nat := none               -- pending commit request: its op
  commitSweep : Bool := false               -- the running sweep is the commit sweep
  covered : Bool := false                   -- a covered write since the request (Table 6.5)
  expect : Nat := 0                         -- F_CFG_PROOF_EXP as written
  tmr : List (Nat × Nat × Nat) := []        -- corrupted copies: entry of the TMR store, copy, its triplicated bits
  image : List Byte := []                   -- staged image (R207, R275)
  build : Option (List Byte) := none        -- build buffer waiting for a key commit to end
deriving DecidableEq, Repr

/-- The fault unit's state besides its registers (chapter 21). -/
structure FltX where
  latched : List (Nat × Nat) := []          -- fault code and instance latched since the flag was last clear (R811)
  dark : List (Nat × Nat) := []             -- latched in darkroom, to be logged after wake (R814)
  held : Option Bool := none                -- FAULT_F level held in darkroom (R115)
  heldTwin : Option Bool := none            -- TWIN_FAULT_OUT level held in darkroom
  badWords : List (Nat × Nat) := []         -- table words with bit errors: address, and the wrong ones of bits 0 and 1
  badCells : List (Nat × Nat × Nat) := []   -- buffer cells with bit errors: cell, frame that holds it, and the wrong ones of bits 0 and 1
  stChecking : Option (Nat × Bool) := none  -- state-table commit being checked: machine, force (R830)
  stopped : List Nat := []                  -- table-engine instances stopped by perturbation
deriving DecidableEq, Repr

/-- The twin controller's state besides its registers (chapter 15). -/
structure TwnX where
  boundaryB : Option Nat := none            -- boundary B at which roles take effect, ns
  toActive : Bool := false                  -- at B this part becomes ACTIVE, else STANDBY
  cause : Nat := 0                          -- 0 formation, 1 reversion, 2 want, 3 take-over
  lost : Nat := 0                           -- consecutive records lost
  evL : Bool := false                       -- evidence L
  statusAt : Option Nat := none             -- fine tick of the last STATUS
  recAt : Nat := 0                          -- system time at the arrival of the last record header, ns
  recEnd : Nat := 0                         -- system time at the arrival of the last record trailer, ns
  recFor : Option Nat := none               -- boundary whose record has been applied or has counted as lost, ns
  recDue : Bool := false                    -- the record for the boundary of a handover is still to be applied (R660)
  resync : Bool := false                    -- the next record carries resync_start
  copyFrom : Option Nat := none             -- next FDB entry of the running resync copy
  fdbq : List (Nat × Bool) := []            -- FDB changes: entry index, whether write
  fdbSent : List (Nat × Nat) := []          -- changes carried: sequence number of the unit, count
  syncedAt : Option Nat := none             -- since when it has been synchronised, fine ticks
  reversions : List Nat := []               -- fine ticks of the completed reversions of the last 600 s
  reqSent : Bool := false
  differ : Nat := 0                         -- consecutive safelight ticks of disagreement (R665)
  aloneAtB : Bool := false                  -- enable 0: to ALONE at the next boundary (R664)
  confAt : Bool := false                    -- role conflict: to STANDBY at the next boundary (R663)
deriving DecidableEq, Repr

/-- One counter snapshot bank (R798, R799). -/
structure SnapBank where
  view : List (Nat × Nat) := []             -- copied counters, by counter-window address
  num : Nat := 0
  group : Nat := 0
  copying : Option (List (Nat × Nat) × Nat) := none   -- values being copied, and the group
deriving DecidableEq, Repr

/-- The shared buffer's state besides its registers and tables (chapter 11). -/
structure BufX where
  frames : List Frame := []                 -- frames held, oldest first
  nextId : Nat := 0
  waiting : List Copy := []                 -- admitted, not yet joined their queue (R460)
  queued : List Copy := []                  -- joined, in the order in which they joined (R473)
  noCellAt : Option Nat := none             -- fine tick of the last no_cell (R472)
deriving DecidableEq, Repr

/-- The key reader's state besides its registers (chapter 5). -/
structure KeyX where
  op : Nat := 0                             -- transaction in progress: 0 none, 1 header read, 2 commit, 3 forced commit
  step : Nat := 0                           -- step of Table 5.7
  part : Nat := 0                           -- which of the step's reads is out
  page : Nat := 0                           -- page of steps 2 and 3
  off : Nat := 0                            -- offset of the last LOAD_BUFFER
  tries : Nat := 0                          -- repetitions of the command that is out (R230)
  rejects : Nat := 0                        -- repetitions of the page's PROGRAM_PAGE before this loading (R231)
  abort : Bool := false                     -- an abort waits for the next command boundary (R226)
  cmd : Option (Nat × List Nat × List Byte) := none  -- the command that is out: code, arguments, data
  reply : Option (Nat × List Byte) := none  -- the key's answer to it: status and data
  uid : Nat := 0                            -- UID that answered the inventory
  txn : Nat := 0                            -- last transaction number used (R235)
  target : Nat := 0                         -- slot being written
  ptrs : List Byte := []                    -- pointer copies and transaction record as read
  failed : Bool := false                    -- key_fail at start-up: no polling until software asks (R215)
  sentAt : Nat := 0                         -- fine tick at which the command that is out was sent (R230)
  pollAt : Nat := 0                         -- fine tick of the last presence poll (R214)
  seen : Option Nat := none                 -- a key answered the start-up inventory: how many others did (R195)
  gone : Bool := false                      -- the start-up read has met no answer, or no further one, after its repetitions
deriving DecidableEq, Repr

/-- The serial port's state besides its registers (chapter 18). -/
structure SpiX where
  staged : Option Word := none              -- F_SPI_SLAVE waiting for the next falling edge of SPI_SEL (R751)
  flash : Nat := 0                          -- resume write: 0 idle, 1 erasing, 2 programming
  flashAt : Nat := 0                        -- next offset of the operation
  flashSince : Nat := 0                     -- fine tick at which the operation began (Table 18.3)
  image : List Byte := []                   -- the image being written
  restart : Bool := false                   -- the write restarts when the running operation completes (R757)
  lastCmdTick : Nat := 0                    -- fine tick of the last command (R738)
  timedOut : Bool := false                  -- the manager time-out has fired in this silence
  crcLast : Bool := false                   -- crc_err of STATUS: the last WRITE failed its check
  badLast : Bool := false                   -- bad_cmd of STATUS
  roleHeld : Option Word := none            -- F_SPI_ROLE written inside a WRITE, judged at its end
deriving DecidableEq, Repr

/-- The pins and pairs besides their registers (chapter 19). -/
structure PinX where
  pads : Nat := 0                           -- last sampled pad levels
  twinIn : Bool := true                     -- TWIN_FAULT_IN is asserted, as its filter sees it (R62, R633)
  differ : List Nat := List.replicate 24 0  -- per pin: consecutive safelight ticks of disagreement (R768)
  forced : Nat := 0                         -- outputs forced by a pair in DEMAND (R783)
  gateStop : List (Nat × Nat) := []         -- per pair in DEMAND: ports and queues closed
  shutOff : Nat := 0                        -- shutters held inactive by a pair in DEMAND
deriving DecidableEq, Repr

/-- Perturbation besides its registers (chapter 22), for either die. -/
structure PtbX where
  holdUntil : Nat := 0                      -- fine tick at which F_PTB_HOLD ends
  lifeFrom : Nat := 0                       -- fine tick of the arming or of the last write of the lifetime (R839)
  active : Nat := 0                         -- host die: active controls, bit 2 lane, 3 ACK, 4 DMA
deriving DecidableEq, Repr

/-- A frame at P16 before stage 1 (R690, R693). -/
structure LaunchFrame where
  req : Nat := 0                            -- function, or 0x40 for the serial window
  launchEn : Bool := false
  launch : Nat := 0                         -- launch time, ns modulo 2^64
  tsReq : Bool := false
  tsId : Nat := 0
  directed : Bool := false
  ports : Nat := 0
  bytes : List Byte := []                   -- with the FCS
deriving DecidableEq, Repr

/-- Completions of one ring pair since its last interrupt, and whether one of them asked for an interrupt at once
(R707). -/
structure Moder where
  count : Nat := 0
  since : Nat := 0                          -- fine tick at which the first of them was written
  now : Bool := false
deriving DecidableEq, Repr

/-- What a die sends to the world: the model's own record, oldest first. -/
inductive Output
  | frame (port : Nat) (bytes : List Byte)            -- a frame on the wire, FCS included
  | unit (l : LinkId) (seed : Nat) (u : FlowUnit)     -- a flow unit in a slot, under its seed
  | corruptUnit (l : LinkId) (u : FlowUnit)           -- a flow unit in a slot, with a wrong CRC
  | slot (l : LinkId) (lanes : List (List Byte))      -- the two blocks of each lane in that slot, spare last; [] idle blocks (R592)
  | lanePhase (l : LinkId)                            -- training patterns of the lane phase
  | wakeBurst (port : Nat) (tc10 : Bool)
  | sleepRequest (port : Nat)                         -- TC10 sleep request
  | verify (port : Nat) (response : Bool)             -- 802.3br verify or response frame
  | beacon (seg : Nat)
  | keyCommand (code : Nat) (args : List Nat) (data : List Byte)
  | flash (op : Nat) (addr : Nat) (data : List Byte)  -- serial-flash command
  | spiReply (bytes : List Byte)
  | hostWrite (addr : Nat) (bytes : List Byte)        -- a posted write to host memory
  | hostRead (tag : Nat) (data : Word)                -- completion of an aperture read
  | msix (vector : Nat)
  | ptmRequest
  | shutter (k level ns : Nat)                        -- an edge of a shutter output and its instant in system time (R577)
deriving DecidableEq, Repr

/-- The field die. -/
structure FieldDie where
  order : OrderCode := .di
  dieId : Nat := 0                          -- fused die identifier, 64 bits
  straps : Nat := 0                         -- levels at STRAP0 to STRAP3
  phase : Phase := .inReset
  resetBy : Nat := 1                        -- reset triggers seen since the internal reset was last released (F_GLB_RST_CAUSE bits)
  reg : List (Nat × Word) := []             -- registers and table words by field-die address
  staged : List (Nat × Nat × Word) := []    -- staged words: requester, address, value (R251)
  cnt : List (Nat × Nat) := []              -- counters by counter-window address
  snapHost : SnapBank := {}
  snapSerial : SnapBank := {}
  window : List (Nat × Byte) := []          -- the 64 KiB serial window's memory (R716)
  arrivals : List LaunchFrame := []         -- whole frames at P16 that the launch store has not judged yet
  launch : List LaunchFrame := []           -- the launch store, in arrival order (R693)
  winMod : List (Nat × Moder) := []         -- moderation of the window's ring pairs
  evtq : List FlowUnit := []                -- queued EVT messages, oldest first (R621)
  evtLost : Bool := false                   -- the next EVT message carries lost 1
  xng : Link := {}
  twin : Link := {}
  cfg : CfgX := {}
  flt : FltX := {}
  twn : TwnX := {}
  pwr : PwrX := {}
  ports : List PortX := List.replicate 17 {}
  segs : List SegX := List.replicate 4 {}
  gates : List GateX := List.replicate 17 {}
  ptp : List PtpX := List.replicate 2 {}
  tim : TimeX := {}
  str : StrX := {}
  fwd : FwdX := {}
  buf : BufX := {}
  key : KeyX := {}
  spi : SpiX := {}
  pin : PinX := {}
  ptb : PtbX := {}
  freeCtr : Nat := 0                        -- the model's own: how many free values the field die has taken
  out : List Output := []
deriving DecidableEq, Repr

/-- One held register message at the host end (R628): a REGW with its function and epoch, or an FN_RESET. -/
structure Held where
  fn : Nat := 0
  epoch : Nat := 0
  unit : FlowUnit := {}
  writes : Nat := 0                         -- writes in it; 0 for FN_RESET
deriving DecidableEq, Repr

/-- One transmit frame that the host die has fetched or is sending (chapter 16). -/
structure TxFrame where
  qp : Nat := 0                             -- global queue pair
  descs : Nat := 1                          -- descriptors it took
  status : Nat := 0                         -- completion status: 0 OK, 1 BAD_DESC, 2 DMA_ERROR
  cookie : Nat := 0
  tsId : Nat := 0
  irq : Bool := false
  attrs : List Byte := []                   -- the 16 bytes of transmit attributes (Table 16.4)
  bytes : List Byte := []                   -- with padding and FCS
  covered : Nat := 0                        -- bytes of its buffers
  chk : Option (Nat × Nat × Nat) := none    -- engine, chk_start and chk_mode
  value : Nat := 0                          -- its check value, once computed
  chkNew : Nat := 0                         -- the engine's running value after it
  chkBytes : Nat := 0                       -- bytes the engine covered
  chkWrite : Option Nat := none             -- running value written while it is computed (R733)
  unitsLeft : List FlowUnit := []           -- units not yet sent
  lastSeq : Option Nat := none              -- sequence number of its last unit, once sent
  acked : Bool := false                     -- an ACK covers its last unit
  dead : Bool := false                      -- aborted by a reset: no completion (R711)
deriving DecidableEq, Repr

/-- The host die. -/
structure HostDie where
  reg : List (Nat × Word) := []             -- registers (see HostRegNames for the keys)
  cnt : List (Nat × Nat) := []              -- 64-bit counters: queue pair counters and the Crossing host end's
  staged : List (Nat × Nat × Word) := []
  inReset : Bool := true                    -- PERST_N low or VDD33_H lost
  dstate : Nat := 0                         -- 0 D0, 3 D3hot, 4 D3cold
  xng : Link := {}
  holdq : List Held := []                   -- held writes and announcements in issue order (R628)
  reads : List (Nat × Nat) := []            -- outstanding aperture reads: tag, function
  readAt : List (Nat × Nat) := []           -- when each was issued: tag, fine tick (R626)
  tags : Nat := 0                           -- next tag
  bme : List Nat := []                      -- functions with Bus Master Enable (R668)
  msixEn : List Nat := []                   -- functions with MSI-X Enable (R669)
  msixMask : List Nat := []                 -- functions with Function Mask (R669)
  vfEnable : Bool := false
  numVfs : Nat := 0
  msixPba : List Nat := []                  -- vectors with a pending message: 256 × function + vector
  mod : List (Nat × Moder) := []            -- moderation per global queue pair, and of the event ring at 2048
  evLost : Bool := false                    -- the next event record carries lost 1 (R710)
  ready : List TxFrame := []                -- fetched frames that have not started, oldest first
  sending : Option TxFrame := none          -- the frame whose units are being sent
  crossing : List TxFrame := []             -- frames sent whole whose completion is not written yet, oldest first
  rxFrames : List (List Byte × List Nat) := [] -- frames received from P16 awaiting delivery, with their DATA meta
  mirrors : List (List TsEntry) := List.replicate 13 []  -- mirror queues of P0 to P11 and P16 (R575)
  localNs : Nat := 0                        -- host_local (R584): ns since PERST_N rose, as last read
  corrSys : Nat × Nat := (0, 0)             -- latest system-time pair, ns
  corrPtm : Nat × Nat := (0, 0)             -- latest PTM pair, ns
  ptb : PtbX := {}
  latched : List Nat := []                  -- host faults latched
  rrHi : Nat := 2047                        -- queue pair last served with tx_hi 1 (R685)
  rrLo : Nat := 2047                        -- queue pair last served with tx_hi 0
  freeCtr : Nat := 0
  out : List Output := []
deriving DecidableEq, Repr

/-- The Ndory identity key (NDK-64): the chip the reader talks to (chapter 5). -/
structure KeyChip where
  present : Bool := false
  uid : Nat := 0                            -- 64 bits
  mem : List (Nat × Byte) := []             -- its memory (Table 5.2); a byte never written reads 0xFF
  buffer : List (Nat × Byte) := []          -- its volatile page buffer
deriving DecidableEq, Repr

/-- The whole machine: the queue of waiting commands and the agents they act on. -/
structure State where
  pending : List Instr := []                -- waiting commands, first in first out
  fld : FieldDie := {}
  hst : HostDie := {}
  key : KeyChip := {}
  flash : List (Nat × Byte) := []           -- contents of the serial configuration flash, 0xFF when erased
deriving DecidableEq, Repr

/-- The machine right after reset: the field die in its first (cold) reset, the host die held in reset, every
register at its reset value, no key presented, the flash erased, nothing waiting. -/
def State.reset : State := {}

/-- Why a command faults: nothing in the spec stops the block, so nothing raises it. -/
inductive Fault
  /-- Not raised by any command: the spec gives every command an effect (safe). -/
  | none
deriving DecidableEq, Repr

/-- Why a command is refused. -/
inductive Refusal
  /-- A command without a meaning in this model, by its mnemonic: raised by Dispatch only (safe). -/
  | notModelled (mnemonic : String)
deriving DecidableEq, Repr

end Sys2Proof.Machine
end

