-- ==== Sys2Proof/Machine/Ops.lean ====
section
/-! DEFINITION. The named operations on the field die's state: registers, counters, time, events and the sending of
units. Every family of commands is written over these. -/

namespace Sys2Proof.Machine

/-! ### Registers -/

/-- The word held at field-die address `a`. -/
def FieldDie.rd (f : FieldDie) (a : Nat) : Word := Store.get fieldDefault f.reg a

/-- The word held at field-die address `a`, as a number. -/
def FieldDie.rdN (f : FieldDie) (a : Nat) : Nat := (f.rd a).toNat

/-- The field die with word `w` held at address `a`. -/
def FieldDie.wr (f : FieldDie) (a : Nat) (w : Word) : FieldDie := { f with reg := Store.set fieldDefault f.reg a w }

/-- As `wr`, the word given as a number. -/
def FieldDie.wrN (f : FieldDie) (a : Nat) (v : Nat) : FieldDie := f.wr a (word v)

/-- The value of a register field. -/
def FieldDie.get (f : FieldDie) (r : Fld) : Nat := bitsOf (f.rdN r.addr) r.hi r.lo

/-- Whether a register field is not 0. -/
def FieldDie.flag (f : FieldDie) (r : Fld) : Bool := f.get r != 0

/-- The field die with the register field `r` at value `v`. -/
def FieldDie.put (f : FieldDie) (r : Fld) (v : Nat) : FieldDie := f.wr r.addr (word (putBits (f.rdN r.addr) r.hi r.lo v))

/-- The register field `r` advanced by `n`, wrapping in its width. -/
def FieldDie.bump (f : FieldDie) (r : Fld) (n : Nat) : FieldDie := f.put r (f.get r + n)

/-! ### Lists of like things -/

/-- Element `i` of a list, or the default one. -/
def elemAt {α : Type} [Inhabited α] (xs : List α) (i : Nat) : α := xs.getD i default

/-- `xs` with element `i` changed by `g`; past the end nothing changes. -/
def modAt {α : Type} (xs : List α) (i : Nat) (g : α → α) : List α := xs.modify i g

def FieldDie.portX (f : FieldDie) (n : Nat) : PortX := f.ports.getD n {}
def FieldDie.setPortX (f : FieldDie) (n : Nat) (g : PortX → PortX) : FieldDie := { f with ports := modAt f.ports n g }
def FieldDie.segX (f : FieldDie) (n : Nat) : SegX := f.segs.getD n {}
def FieldDie.setSegX (f : FieldDie) (n : Nat) (g : SegX → SegX) : FieldDie := { f with segs := modAt f.segs n g }
def FieldDie.gateX (f : FieldDie) (n : Nat) : GateX := f.gates.getD n {}
def FieldDie.setGateX (f : FieldDie) (n : Nat) (g : GateX → GateX) : FieldDie := { f with gates := modAt f.gates n g }
def FieldDie.ptpX (f : FieldDie) (n : Nat) : PtpX := f.ptp.getD n {}
def FieldDie.setPtpX (f : FieldDie) (n : Nat) (g : PtpX → PtpX) : FieldDie := { f with ptp := modAt f.ptp n g }

/-! ### Free values -/

/-- A value the spec leaves open: fresh at each use, unconstrained. -/
def FieldDie.free (f : FieldDie) : Nat × FieldDie :=
  ((Config.freeValue f.freeCtr).toNat, { f with freeCtr := f.freeCtr + 1 })

/-! ### Counters (chapter 20) -/

/-- Counter-window address of counter `k` of port `n` (Table 20.1). -/
def cPort (n k : Nat) : Nat := 0xE00000 + 0x800 * n + 8 * k
/-- Counter `j` of queue `q` of port `n` (Table 20.3). -/
def cQueue (n q j : Nat) : Nat := cPort n (128 + 16 * q + j)
def cStream (i k : Nat) : Nat := 0xE10000 + 0x40 * i + 8 * k
def cMeter (m k : Nat) : Nat := 0xE50000 + 0x20 * m + 8 * k
def cRule (r : Nat) : Nat := 0xE70000 + 8 * r
def cSeg (s k : Nat) : Nat := 0xE78000 + 0x200 * s + 8 * k
def cXng (k : Nat) : Nat := 0xE7A000 + 8 * k
def cTwin (k : Nat) : Nat := 0xE7A200 + 8 * k
def cGlobal (k : Nat) : Nat := 0xE7A400 + 8 * k

/-- A counter's value. -/
def FieldDie.cntAt (f : FieldDie) (a : Nat) : Nat := Store.get (fun _ => 0) f.cnt a

/-- Advance a counter by `n`; it wraps at 2^64 (R788). -/
def FieldDie.countN (f : FieldDie) (a n : Nat) : FieldDie :=
  { f with cnt := Store.set (fun _ => 0) f.cnt a ((f.cntAt a + n) % 2 ^ 64) }

/-- Advance a counter by 1. -/
def FieldDie.count (f : FieldDie) (a : Nat) : FieldDie := f.countN a 1

/-- Count a drop under reason `code` at port `n` (R796). -/
def FieldDie.countDrop (f : FieldDie) (n code : Nat) : FieldDie := f.count (cPort n (32 + code))

/-- The queue counter of a stage 6 or 7 reason (Table 20.3). -/
def queueDropIdx (code : Nat) : Option Nat :=
  if code = 0x0A then some 2
  else if code = 0x0D then some 3
  else if 0x20 ≤ code ∧ code ≤ 0x28 then some (4 + (code - 0x20))
  else none

/-- Count a stage 6 or 7 drop at its egress port and queue (R796). -/
def FieldDie.countQDrop (f : FieldDie) (n q code : Nat) : FieldDie :=
  let f := f.countDrop n code
  match queueDropIdx code with
  | some j => f.count (cQueue n q j)
  | none => f

/-! ### Time -/

/-- One second in units of 2^-32 ns. -/
def secFix : Nat := 1000000000 * 2 ^ 32

/-- The modulus of a domain: 2^48 seconds, in units of 2^-32 ns (R533, R535). -/
def domMod : Nat := 2 ^ 48 * secFix

/-- An integer reduced into a domain's range. -/
def domWrap (x : Int) : Nat := (x % (domMod : Int)).toNat

/-- The anchor of domain B (R535). -/
def FieldDie.anchor (f : FieldDie) : Nat := f.rdN F_TIM_B_ANCHOR_LO + 2 ^ 32 * f.rdN F_TIM_B_ANCHOR_HI

/-- The rate of domain B (R535). -/
def FieldDie.bRate (f : FieldDie) : Int := toSigned 32 (f.rdN F_TIM_B_RATE)

/-- What the rate has added to domain B since its anchor: 8 ns × (c − anchor) × rate × 2^-40, in units of 2^-32 ns. -/
def FieldDie.bDrift (f : FieldDie) : Int := ((f.tim.c : Int) - (f.anchor : Int)) * f.bRate / 32

/-- Domain B at the present fine tick, in units of 2^-32 ns (R535). -/
def FieldDie.domB (f : FieldDie) : Nat := domWrap ((f.tim.bOff : Int) + 8 * f.tim.c * 2 ^ 32 + f.bDrift)

/-- Domain A, in units of 2^-32 ns. -/
def FieldDie.domA (f : FieldDie) : Nat := f.tim.a

/-- The domain in use: 0 A, 1 B. -/
def FieldDie.activeDom (f : FieldDie) : Nat := f.get F_TIM_SYS_active

/-- System time in units of 2^-32 ns: the selected domain plus Δ (R537). -/
def FieldDie.sysFix (f : FieldDie) : Nat :=
  domWrap ((if f.activeDom = 0 then f.domA else f.domB : Nat) + f.tim.delta)

/-- System time in whole nanoseconds. -/
def FieldDie.sysNs (f : FieldDie) : Nat := f.sysFix / 2 ^ 32

/-- A domain value in units of 2^-32 ns, moved by `d` ns and read to 1 ns; it wraps in the domain's range. -/
def readNs (v : Nat) (d : Int) : Nat := domWrap ((v : Int) + d * 2 ^ 32) / 2 ^ 32

/-- System time `d` ns after this fine tick. -/
def FieldDie.sysAt (f : FieldDie) (d : Int) : Nat := readNs f.sysFix d

/-- The instant `d` ns after this fine tick (R538). -/
def FieldDie.stampAt (f : FieldDie) (d : Int) : Stamp := { a := readNs f.domA d, b := readNs f.domB d, c := 8 * (f.tim.c : Int) + d }

/-- The instant `d` ns after another. -/
def Stamp.plus (x : Stamp) (d : Int) : Stamp := { a := readNs (x.a * 2 ^ 32) d, b := readNs (x.b * 2 ^ 32) d, c := x.c + d }

/-- Nanoseconds within the second of a time in ns. -/
def nsOf (t : Nat) : Nat := t % 1000000000
/-- Whole seconds of a time in ns. -/
def secOf (t : Nat) : Nat := t / 1000000000
/-- A time in ns from nanoseconds and the two words of seconds. -/
def timeOf (ns lo hi : Nat) : Nat := (lo + 2 ^ 32 * (hi % 65536)) * 1000000000 + ns

/-- The fine-tick count. -/
def FieldDie.now (f : FieldDie) : Nat := f.tim.c

/-- Fine ticks in a millisecond and in a microsecond (a fine tick is 8 ns). -/
def msTicks : Nat := 125000
def usTicks : Nat := 125

/-! ### Links: sending (R598, R602, R603) -/

/-- The sequence number after `n`; 0xFFFFFFFF is skipped (R598). -/
def seqNext (n : Nat) : Nat := if n = 0xFFFFFFFE then 0 else (n + 1) % 2 ^ 32

/-- The seed of every unsequenced unit (R598). -/
def unseqSeed : Nat := 0xFFFFFFFF

/-- Whether a sender may start a new sequenced unit (R603). -/
def Link.canSend (l : Link) : Bool := l.phase == 3 && decide (l.replay.length < 512)

/-- The link after sending a new sequenced unit. -/
def Link.sent (l : Link) (u : FlowUnit) : Link :=
  { l with txNext := seqNext l.txNext, replay := l.replay ++ [(l.txNext, u)], times := l.times ++ [l.tick] }

/-- A CTRL unit of the given kind (Table 14.8). -/
def ctrlUnit (kind low : Nat) (words : List Nat) : FlowUnit :=
  { header := 0x80000000 + kind * 2 ^ 24 + low, payload := words.flatMap bytesLE }

/-- The type code of a unit (Table 14.1, Table 15.1). -/
def FlowUnit.type (u : FlowUnit) : Nat := bitsOf u.header 31 28

/-- Payload word `k` of a unit. -/
def FlowUnit.w (u : FlowUnit) (k : Nat) : Nat := wordAt u.payload k

/-- The 60 bytes of a unit that its CRC covers (R596, R597). -/
def FlowUnit.body (u : FlowUnit) : List Byte := bytesLE u.header ++ fitBytes 56 u.payload

/-- The 64 bytes of a unit sent under `seed`. -/
def FlowUnit.bytes (u : FlowUnit) (seed : Nat) : List Byte := u.body ++ bytesLE (seededCrc seed u.body)

/-- Record that the field die sent something. -/
def FieldDie.emit (f : FieldDie) (o : Output) : FieldDie := { f with out := f.out ++ [o] }

/-- Whether a link end carries data on lane `k`, given the data lane that the spare stands in for. -/
def laneUsed (failed k : Nat) : Bool := if k = 4 then failed != 7 else k != failed

/-- Whether F_PTB_LANE disturbs the blocks of a link in one direction: a lane that carries data has invalid sync headers
or no block lock (Table 22.1). -/
def FieldDie.laneNoise (f : FieldDie) (who : LinkId) (dir : Nat) : Bool :=
  let l := if who = .twin then f.twin else f.xng
  decide (2 ≤ f.get F_PTB_LANE_mode) && f.get F_PTB_LANE_link == (if who = .twin then 1 else 0) && f.get F_PTB_LANE_dir == dir &&
    laneUsed (if dir = 1 then l.txFailed else l.rxFailed) (f.get F_PTB_LANE_lane)

/-- Change the field die's end of a link. -/
def FieldDie.setLink (f : FieldDie) (who : LinkId) (g : Link → Link) : FieldDie :=
  if who = .twin then { f with twin := g f.twin } else { f with xng := g f.xng }

/-- What the four data lanes and the spare carry in the slot of a unit of bytes `bs` (R592, R593): byte `b` travels on
lane `b` mod 4, in its turn, so that each lane sends 16 bytes as two blocks; the lane that the spare stands in for sends
idle blocks, and so does an unused spare. -/
def slotLanes (failed : Nat) (bs : List Byte) : List (List Byte) :=
  (List.range 5).map (fun k =>
    if laneUsed failed k then (List.range 16).map (fun j => bs.getD (4 * j + (if k = 4 then failed else k)) 0) else [])

/-- A unit goes out whole under its seed. -/
def FieldDie.emitUnit (f : FieldDie) (who : LinkId) (seed : Nat) (u : FlowUnit) : FieldDie :=
  (f.emit (.unit who seed u)).emit (.slot who (slotLanes (if who = .twin then f.twin else f.xng).txFailed (u.bytes seed)))

/-- Put a unit into a slot of a link. Perturbation may spoil it: the next sequenced unit (mode 1), or any unit that a
disturbed lane carries (which ones is open). -/
def FieldDie.putUnit (f : FieldDie) (who : LinkId) (seed : Nat) (u : FlowUnit) : FieldDie :=
  let f := f.count (if who = .twin then cTwin 0 else cXng 0)
  if (if who = .twin then f.twin else f.xng).corruptTx && seed != unseqSeed then
    (f.setLink who (fun l => { l with corruptTx := false })).emit (.corruptUnit who u)
  else if f.laneNoise who 1 then
    let (v, f) := f.free
    if v % 2 = 1 then f.emit (.corruptUnit who u) else f.emitUnit who seed u
  else f.emitUnit who seed u

/-- Send a new sequenced unit on the Crossing. While the link is not UP it waits in the replay buffer, from which
training resends it (R479, R612). -/
def FieldDie.sendXng (f : FieldDie) (u : FlowUnit) : FieldDie :=
  let g := { f with xng := { f.xng with tick := f.now }.sent u }
  if f.xng.phase = 3 then g.putUnit .field f.xng.txNext u else g

/-- Send an unsequenced control unit on the Crossing. -/
def FieldDie.ctrlXng (f : FieldDie) (u : FlowUnit) : FieldDie := f.putUnit .field unseqSeed u

/-- Send a new sequenced unit on the twin link. -/
def FieldDie.sendTwin (f : FieldDie) (u : FlowUnit) : FieldDie :=
  { f with twin := { f.twin with tick := f.now }.sent u }.putUnit .twin f.twin.txNext u

/-- Send an unsequenced control unit on the twin link. -/
def FieldDie.ctrlTwin (f : FieldDie) (u : FlowUnit) : FieldDie := f.putUnit .twin unseqSeed u

/-! ### Events (R252 to R256, R621) -/

/-- `seq` after one advance (R254). -/
def seqStep (n : Nat) : Nat := if n = 0xFFFF then 1 else n + 1

/-- Set a flag of the SQ register at `a`: seq advances whether or not the flag was set (R252). -/
def FieldDie.setFlag (f : FieldDie) (a bit : Nat) : FieldDie :=
  let w := f.rdN a
  f.wrN a (putBits (setBit w bit) 31 16 (seqStep (bitsOf w 31 16)))

/-- The EVT_INFO register that goes with an SQ register, if its block has one. -/
def infoAddr (a : Nat) : Option Nat :=
  if a = F_PIN_EDGE then some F_PIN_EVT_INFO
  else if a = F_PWR_EVT ∨ a = F_CFG_EVT ∨ a = F_SPI_EVT ∨ a = F_PIN_EVT ∨ a = F_PTB_EVT ∨ a = F_CLS_EVT ∨ a = F_FWD_EVT
      ∨ a = F_BUF_EVT ∨ a = F_STR_EVT ∨ a = F_TIM_EVT ∨ a = F_XNG_EVT ∨ a = F_TWN_EVT then some (a + 4)
  else if 0x120000 ≤ a ∧ a < 0x120400 then some (a + 4)
  else none

/-- An EVT message (Table 14.7). -/
def evtUnit (w0 w1 w2 w3 : Nat) : FlowUnit :=
  { header := 0x50000000, payload := bytesLE w0 ++ bytesLE w1 ++ bytesLE w2 ++ bytesLE w3 }

/-- Queue an EVT message. One that finds 256 waiting is discarded and counted, and evt_lost is raised (R621); the
report of evt_lost itself then finds the same full queue and is not queued. -/
def FieldDie.queueEvt (f : FieldDie) (u : FlowUnit) : FieldDie :=
  if f.evtq.length < 256 then { f with evtq := f.evtq ++ [u] }
  else ({ f with evtLost := true }.count (cXng 14)).setFlag F_XNG_EVT 7

/-- Raise an event: set the flag and report it in an EVT message of kind 0x01 with the block's EVT_INFO (R256). -/
def FieldDie.raise (f : FieldDie) (a bit : Nat) : FieldDie :=
  let f := f.setFlag a bit
  let info := match infoAddr a with
    | some i => f.rdN i
    | none => 0
  f.queueEvt (evtUnit (0x01000000 + a) (bitsOf (f.rdN a) 31 16 * 2 ^ 16 + 2 ^ bit) info 0)

/-- Whether a flag of an SQ register is set. -/
def FieldDie.sq (f : FieldDie) (a bit : Nat) : Bool := hasBit (f.rdN a) bit

/-- The EVT message that announces a kind alone (Table 14.7): the words it does not use are 0 (R596). -/
def FieldDie.announce (f : FieldDie) (kind : Nat) : FieldDie := f.queueEvt (evtUnit (kind * 2 ^ 24) 0 0 0)

/-! ### The proof's staleness (R270) -/

/-- A covered field or table word has been written. stale is a latched state, so proof_stale is sent when it becomes 1
and not again for a write while it already is (log 130). -/
def FieldDie.touchProof (f : FieldDie) : FieldDie :=
  let f := { f with cfg := { f.cfg with covered := true } }
  if f.flag F_CFG_PROOF_STAT_stale then f else (f.put F_CFG_PROOF_STAT_stale 1).announce 3

/-! ### Roles and levels -/

/-- The data-path role (Table 15.3): 0 ALONE, 1 PAIRING, 2 ACTIVE, 3 STANDBY, 4 FAILED. -/
def FieldDie.role (f : FieldDie) : Nat := f.get F_TWN_STAT_role

/-- Whether stage 5 counts the part as the standby of a formed pair (R638). -/
def FieldDie.standbyPath (f : FieldDie) : Bool := f.role == 3 || f.role == 4

/-- Whether the fabric runs: T_cfg has passed and the rails are on. -/
def FieldDie.isRunning (f : FieldDie) : Bool := f.phase == .running

/-- Something that ends NAP has come about, and what R106 asks to hold without a break has been broken: the start of a
frame, a flow unit, a serial command, a register, table, lock or key operation, table-engine activity, a message of the
time unit or a fault (R106, R107). -/
def FieldDie.napBreak (f : FieldDie) : FieldDie := { f with pwr := { f.pwr with idle := 0, napCause := true } }

/-- Whether the register file is powered and out of reset. -/
def FieldDie.powered (f : FieldDie) : Bool := f.phase == .locked || f.phase == .resolving || f.phase == .running

/-- Whether table-engine instance `k` makes steps: F_PTB_WDOG can stop one (Table 22.1). -/
def FieldDie.engineRuns (f : FieldDie) (k : Nat) : Bool := !f.flt.stopped.contains k

/-- Whether a take-over fault is latched (R808). -/
def FieldDie.takeoverFault (f : FieldDie) : Bool := Nat.land (f.rdN F_FLT_EVT % 65536) (f.get F_FLT_TKO_tko) != 0

/-- The level of FAULT_F: high while the die runs with no fault latched, one that waits since darkroom to be logged
included; held in darkroom (R88, R115, R169). -/
def FieldDie.faultF (f : FieldDie) : Bool :=
  match f.flt.held with
  | some b => b
  | none => (f.phase == .resolving || f.phase == .running) && f.rdN F_FLT_EVT % 65536 == 0 && f.flt.dark.isEmpty

/-- The level of TWIN_FAULT_OUT (R88, R115, R808). -/
def FieldDie.twinFaultOut (f : FieldDie) : Bool :=
  match f.flt.heldTwin with
  | some b => b
  | none => (f.phase == .resolving || f.phase == .running) && !f.takeoverFault

end Sys2Proof.Machine
end

