-- ==== Sys2Proof/Machine/Buffer.lean ====
section
/-! DEFINITION. Shared buffer and egress queues (chapter 11): charges, admission, discards and flushes; and the
transmit-timestamp entries that a discard writes (Table 13.3). -/

namespace Sys2Proof.Machine

/-! ### Transmit-timestamp queues -/

/-- Whether port `n` has a transmit-timestamp queue (R572). -/
def hasTsq (n : Nat) : Bool := decide (n < 12) || n == 16

/-- Write an entry into port `n`'s queue; one that finds 32 entries is discarded and counted (R572). -/
def tsqPush (n : Nat) (e : TsEntry) (f : FieldDie) : FieldDie :=
  if !hasTsq n then f
  else if (f.tim.tsq.getD n []).length < 32 then
    { f with tim := { f.tim with tsq := modAt f.tim.tsq n (fun q => q ++ [e]) } }
  else ((f.count (cPort n 28)).put F_TIM_EVT_INFO_port n).raise F_TIM_EVT 5

/-- The entry that an event writes for a frame that carries a timestamp request (R571). -/
def tsqFrame (fr : Frame) (n status reason ts : Nat) (f : FieldDie) : FieldDie :=
  match fr.tsReq with
  | some id => tsqPush n { status := status, reason := reason, id := id, ts := ts } f
  | none => f

/-- The frame a copy belongs to. -/
def FieldDie.frameOf (f : FieldDie) (id : Nat) : Frame := (f.buf.frames.find? (fun fr => fr.id == id)).getD {}

/-- Change the frame with number `id`. -/
def FieldDie.setFrame (f : FieldDie) (id : Nat) (g : Frame → Frame) : FieldDie :=
  { f with buf := { f.buf with frames := f.buf.frames.map (fun fr => if fr.id == id then g fr else fr) } }

/-! ### Charges (R457 to R465) -/

/-- Cells of a frame of `n` bytes (R457). -/
def cellsOf (n : Nat) : Nat := (n + 127) / 128

/-- Address of the occupancy entry of queue `q` of port `n` (Table 11.4). -/
def occAddr (n q : Nat) : Nat := 0x501000 + 4 * (8 * n + q)

/-- Address of the queue-table entry of queue `q` of port `n` (Table 11.3). -/
def queueAddr (n q : Nat) : Nat := 0x500000 + 4 * (8 * n + q)

/-- used_pq: cells charged to queue `q` of port `n`. -/
def FieldDie.used (f : FieldDie) (n q : Nat) : Nat := bitsOf (f.rdN (occAddr n q)) 14 0

/-- Recompute shared_size (R463). -/
def refreshPool (f : FieldDie) : FieldDie :=
  let sum := (List.range 17).foldl (fun a n => a + max (f.get (F_BUF_PORT_CFG_rsv n)) (f.get (F_BUF_PORT_USE_res_used n))) 0
  f.put F_BUF_POOL_shared_size (16384 - sum)

/-- Raise the watermarks that the present charges exceed. -/
def raiseWm (n q : Nat) (f : FieldDie) : FieldDie :=
  let w := f.rdN (occAddr n q)
  let f := f.wrN (occAddr n q) (putBits w 30 16 (max (bitsOf w 30 16) (bitsOf w 14 0)))
  let f := f.put (F_BUF_PORT_WM_shr_wm n) (max (f.get (F_BUF_PORT_WM_shr_wm n)) (f.get (F_BUF_PORT_USE_shr_used n)))
  let f := f.put (F_BUF_PORT_WM_res_wm n) (max (f.get (F_BUF_PORT_WM_res_wm n)) (f.get (F_BUF_PORT_USE_res_used n)))
  f.put F_BUF_POOL_WM_shared_wm (max (f.get F_BUF_POOL_WM_shared_wm) (f.get F_BUF_POOL_shared_used))

/-- Charge `c` cells to queue `q` of port `n`, from its reserve or from the pool (R465). -/
def chargeAdd (n q c : Nat) (reserve : Bool) (f : FieldDie) : FieldDie :=
  let w := f.rdN (occAddr n q)
  let f := f.wrN (occAddr n q) (putBits w 14 0 (bitsOf w 14 0 + c))
  let f := if reserve then f.put (F_BUF_PORT_USE_res_used n) (f.get (F_BUF_PORT_USE_res_used n) + c)
    else (f.put (F_BUF_PORT_USE_shr_used n) (f.get (F_BUF_PORT_USE_shr_used n) + c)).put
      F_BUF_POOL_shared_used (f.get F_BUF_POOL_shared_used + c)
  refreshPool (raiseWm n q f)

/-- Return `c` cells of a charge (R458, R462). -/
def chargeSub (n q c : Nat) (reserve : Bool) (f : FieldDie) : FieldDie :=
  let w := f.rdN (occAddr n q)
  let f := f.wrN (occAddr n q) (putBits w 14 0 (bitsOf w 14 0 - c))
  let f := if reserve then f.put (F_BUF_PORT_USE_res_used n) (f.get (F_BUF_PORT_USE_res_used n) - c)
    else (f.put (F_BUF_PORT_USE_shr_used n) (f.get (F_BUF_PORT_USE_shr_used n) - c)).put
      F_BUF_POOL_shared_used (f.get F_BUF_POOL_shared_used - c)
  refreshPool f

/-- Release a copy's whole charge (R462). -/
def releaseCopy (c : Copy) (f : FieldDie) : FieldDie := chargeSub c.port c.queue c.cells c.reserve f

/-- Discard an admitted copy under `code`: counted, its timestamp entry written, its charge released (R465, R571). -/
def discardCopy (code : Nat) (c : Copy) (f : FieldDie) : FieldDie :=
  let f := f.countQDrop c.port c.queue code
  let f := if c.mirror then f else tsqFrame (f.frameOf c.frame) c.port 2 code f.sysNs f
  releaseCopy c f

/-- Take out of the queues every copy that `p` names and discard each under `code`. -/
def discardQueued (p : Copy → Bool) (code : Nat) (f : FieldDie) : FieldDie :=
  let gone := f.buf.queued.filter p
  let f := { f with buf := { f.buf with queued := f.buf.queued.filter (fun c => !p c) } }
  forAll gone (discardCopy code) f

/-- Empty the eight queues of port `n`, and the copies admitted to them that have not joined yet, under `code` (R299). -/
def emptyPort (n code : Nat) (f : FieldDie) : FieldDie :=
  let gone := f.buf.waiting.filter (fun c => c.port == n)
  let f := discardQueued (fun c => c.port == n) code f
  let f := { f with buf := { f.buf with waiting := f.buf.waiting.filter (fun c => c.port != n) } }
  forAll gone (discardCopy code) f

/-! ### Admission (Table 11.1) -/

/-- The outcome of the admission tests: a refusal reason, or an admission charged to the reserve or the pool. -/
inductive Admit
  | refused (code : Nat)
  | reserve
  | pool
deriving DecidableEq, Repr

/-- The tests of Table 11.1, in order, for a copy of `cells` cells. -/
def admitTest (f : FieldDie) (n q cells colour : Nat) (mirror : Bool) : Admit :=
  let qt := f.rdN (queueAddr n q)
  let used := f.used n q
  let pool := f.get F_BUF_POOL_shared_used
  if hasBit qt 31 then .refused 0x20
  else if colour = 2 then .refused 0x21
  else if bitsOf qt 30 16 < used + cells then .refused 0x22
  else if colour = 0 ∧ mirror = false ∧ hasBit (f.get (F_BUF_PORT_CFG_rsv_q n)) q
      ∧ f.get (F_BUF_PORT_USE_res_used n) + cells ≤ f.get (F_BUF_PORT_CFG_rsv n) then .reserve
  else if colour = 1 ∧ (bitsOf qt 14 0 < used + cells ∨ f.get F_BUF_YEL_yel_shared < pool + cells) then .refused 0x23
  else if f.get (F_BUF_PORT_LIM_port_lim n) < f.get (F_BUF_PORT_USE_shr_used n) + cells then .refused 0x24
  else if f.get F_BUF_POOL_shared_size < pool + cells then .refused 0x25
  else .pool

/-- The first NO_CELL refusal after a millisecond without one raises no_cell (R472). -/
def noCell (n : Nat) (f : FieldDie) : FieldDie :=
  let quiet := match f.buf.noCellAt with
    | some t => decide (t + msTicks ≤ f.now)
    | none => true
  if quiet then
    ({ f with buf := { f.buf with noCellAt := some f.now } }.put F_BUF_EVT_INFO_port n).raise F_BUF_EVT 3
  else f

/-- Whether a copy waits for its frame to be accepted before it joins its queue (R460). -/
def joinsAtOnce (fr : Frame) (c : Copy) : Bool := c.ct || fr.accepted

/-- Before a copy joins a queue of port `n`: a port in SLEEP_ENTRY whose queues are empty, with nothing in transmission,
starts no frame any more (R311). -/
def noteDrained (n : Nat) (f : FieldDie) : FieldDie :=
  let x := f.portX n
  if n < 12 ∧ f.get (F_PORT_STAT_state n) = 4 ∧ x.sending = none ∧ x.preempted = none
      ∧ f.buf.queued.any (fun c => c.port == n) = false then
    f.setPortX n (fun x => { x with drained := true })
  else f

/-- Put an admitted copy into its queue, or among those that wait for the frame to be accepted (R460). -/
def placeCopy (fr : Frame) (c : Copy) (f : FieldDie) : FieldDie :=
  if joinsAtOnce fr c then
    let f := noteDrained c.port f
    { f with buf := { f.buf with queued := f.buf.queued ++ [{ c with joined := f.now }] } }
  else { f with buf := { f.buf with waiting := f.buf.waiting ++ [c] } }

/-- Take one copy through admission: answers whether it was admitted (R466 to R468). -/
def admitCopy (fr : Frame) (c : Copy) (f : FieldDie) : Bool × FieldDie :=
  match admitTest f c.port c.queue c.cells c.colour c.mirror with
  | .refused code =>
    let f := if code = 0x25 then noCell c.port f else f
    if c.mirror then (false, f.countQDrop c.port c.queue 0x26)
    else (false, tsqFrame fr c.port 2 code f.sysNs (f.countQDrop c.port c.queue code))
  | .reserve => (true, placeCopy fr { c with reserve := true } (chargeAdd c.port c.queue c.cells true f))
  | .pool => (true, placeCopy fr { c with reserve := false } (chargeAdd c.port c.queue c.cells false f))

/-- Admit the copies of a frame one at a time; answers the ports at which a copy was admitted (R468, R470). -/
def admitCopies (fr : Frame) (cs : List Copy) (f : FieldDie) : List Nat × FieldDie :=
  cs.foldl (fun (a : List Nat × FieldDie) c => let r := admitCopy fr c a.2; (if r.1 then a.1 ++ [c.port] else a.1, r.2)) ([], f)

/-- The MAC has accepted frame `id` of `len` bytes: reduce the provisional charges of its copies, and let those that
wait join their queues (R458, R460). -/
def settleFrame (id len : Nat) (f : FieldDie) : FieldDie :=
  let n := cellsOf len
  let reduce := fun (c : Copy) => if c.frame == id then { c with cells := min c.cells n } else c
  let mine := fun (cs : List Copy) => cs.filter (fun (c : Copy) => c.frame == id && decide (n < c.cells))
  let sending := f.ports.filterMap (fun p => p.sending) ++ f.ports.filterMap (fun p => p.preempted)
  let excess := mine f.buf.waiting ++ mine f.buf.queued ++ mine sending
  let f := forAll excess (fun (c : Copy) f => chargeSub c.port c.queue (c.cells - n) c.reserve f) f
  let f := { f with ports := f.ports.map (fun (p : PortX) => { p with sending := p.sending.map reduce, preempted := p.preempted.map reduce }) }
  let f := forAll (f.buf.waiting.filter (fun (c : Copy) => c.frame == id)) (fun (c : Copy) f => noteDrained c.port f) f
  let waiting := f.buf.waiting.map reduce
  let queued := f.buf.queued.map reduce
  { f with buf := { f.buf with
      queued := queued ++ (waiting.filter (fun (c : Copy) => c.frame == id)).map (fun (c : Copy) => { c with joined := f.now })
      waiting := waiting.filter (fun (c : Copy) => c.frame != id) } }

/-- The MAC has discarded frame `id` under `reason`: its stored copies are released uncounted (R461), its cut-through
copies are marked to end with an inverted FCS (R327). -/
def dropFrameCopies (id reason : Nat) (f : FieldDie) : FieldDie :=
  let gone := f.buf.waiting.filter (fun (c : Copy) => c.frame == id)
  let mark := fun (c : Copy) => if c.frame == id && c.ct then { c with stomp := reason, stomped := true } else c
  let f := { f with
    buf := { f.buf with waiting := f.buf.waiting.filter (fun (c : Copy) => c.frame != id), queued := f.buf.queued.map mark }
    ports := f.ports.map (fun (p : PortX) => { p with sending := p.sending.map mark, preempted := p.preempted.map mark }) }
  forAll gone releaseCopy f

/-- Whether any copy refers to frame `id`. -/
def FieldDie.frameUsed (f : FieldDie) (id : Nat) : Bool :=
  f.buf.waiting.any (fun c => c.frame == id) || f.buf.queued.any (fun c => c.frame == id) ||
  f.ports.any (fun p => p.sending.any (fun c => c.frame == id) || p.preempted.any (fun c => c.frame == id))

/-- Forget the frames that nothing needs any more: ended, classified or discarded, with no copy and no pending learn. -/
def forgetFrames (f : FieldDie) : FieldDie :=
  { f with buf := { f.buf with frames := f.buf.frames.filter (fun fr =>
      fr.rx || f.frameUsed fr.id || fr.learn || (fr.accepted && fr.final == none)) } }

/-- Shortest form of a queue flush (R478): every copy in the named queues whose transmission has not started. -/
def flushQueues (port queues : Nat) (f : FieldDie) : FieldDie :=
  discardQueued (fun c => c.port == port && hasBit queues c.queue) 0x28 f

end Sys2Proof.Machine
end

