-- ==== Sys2Proof/Machine/Fdb.lean ====
section
/-! DEFINITION. The filtering database, the VLAN table and aggregation groups (chapter 10): lookup, learning,
invalidation, and the changes that the twin's state record carries. -/

namespace Sys2Proof.Machine

/-- Address of word `w` of filtering-database entry `i` (Table 10.7). -/
def fdbAddr (i w : Nat) : Nat := 0x480000 + 16 * i + 4 * w

/-- The 12-bit hash of an address and vid (R412, R492). -/
def macHash (addr vid : Nat) : Nat :=
  let k := vid * 2 ^ 48 + addr
  Nat.xor (bitsOf k 11 0) (Nat.xor (bitsOf k 23 12) (Nat.xor (bitsOf k 35 24) (Nat.xor (bitsOf k 47 36) (bitsOf k 59 48))))

/-- The MAC address of an entry's words 1 and 2. -/
def entryMac (lo hi : Nat) : Nat := bitsOf hi 15 0 * 2 ^ 32 + lo

/-- One entry as read: its four words. -/
structure FdbEntry where
  w0 : Nat
  w1 : Nat
  w2 : Nat
  w3 : Nat
deriving DecidableEq, Repr

def FieldDie.fdb (f : FieldDie) (i : Nat) : FdbEntry :=
  ⟨f.rdN (fdbAddr i 0), f.rdN (fdbAddr i 1), f.rdN (fdbAddr i 2), f.rdN (fdbAddr i 3)⟩

def FdbEntry.valid (e : FdbEntry) : Bool := hasBit e.w0 31
def FdbEntry.isStatic (e : FdbEntry) : Bool := hasBit e.w0 30
def FdbEntry.maskDst (e : FdbEntry) : Bool := hasBit e.w0 29
def FdbEntry.discard (e : FdbEntry) : Bool := hasBit e.w0 28
def FdbEntry.mac (e : FdbEntry) : Nat := entryMac e.w1 e.w2
def FdbEntry.vid (e : FdbEntry) : Nat := bitsOf e.w2 27 16
def FdbEntry.agg (e : FdbEntry) : Bool := hasBit e.w3 31 && !e.maskDst
/-- A single destination as a port number, or 0x18 + g for group g (as F_FWD_FLUSH.port names them). -/
def FdbEntry.dest (e : FdbEntry) : Nat := if e.agg then 0x18 + bitsOf e.w3 30 29 else bitsOf e.w3 28 24

/-- The entries that may hold a pair: the four ways of its set, then the CAM (R413). -/
def fdbCands (addr vid : Nat) : List Nat :=
  (List.range 4).map (fun w => 4 * macHash addr vid + w) ++ (List.range 64).map (fun i => 16384 + i)

/-- The valid entry that holds an address and vid (R413). -/
def fdbFind (f : FieldDie) (addr vid : Nat) : Option Nat :=
  (fdbCands addr vid).find? (fun i => (f.fdb i).valid && (f.fdb i).mac == addr && (f.fdb i).vid == vid)

/-- The numbers of all valid entries, in ascending order. -/
def fdbValid (f : FieldDie) : List Nat :=
  (f.reg.filter (fun e => decide (0x480000 ≤ e.1) && decide (e.1 < 0x4D0000) && e.1 % 16 == 0 && hasBit e.2.toNat 31)).map
    (fun e => (e.1 - 0x480000) / 16)

/-- A filtering-database change joins the queue of the state record while the part is ACTIVE; one that finds 4,096
waiting empties the queue and starts a resync (R424, R645, R647). -/
def fdbChanged (i : Nat) (write : Bool) (f : FieldDie) : FieldDie :=
  if f.role ≠ 2 then f
  else if f.twn.fdbq.length < 4096 then { f with twn := { f.twn with fdbq := f.twn.fdbq ++ [(i, write)] } }
  else { f with twn := { f.twn with fdbq := [], fdbSent := [], resync := true } }

/-- Keep the counts of valid static and learned entries. -/
def fdbRecount (f : FieldDie) : FieldDie :=
  let vs := fdbValid f
  let st := (vs.filter (fun i => (f.fdb i).isStatic)).length
  (f.put F_FWD_FDB_CNT_static st).put F_FWD_FDB_CNT_learned (vs.length - st)

/-- Invalidate entry `i`. -/
def fdbInvalidate (i : Nat) (f : FieldDie) : FieldDie :=
  fdbChanged i false (f.wrN (fdbAddr i 0) (clrBit (f.fdb i).w0 31))

/-- Invalidate every valid entry that `p` names: on a standby part only table writes and state records change the
database (R423). -/
def fdbPurge (p : FdbEntry → Bool) (f : FieldDie) : FieldDie :=
  if f.standbyPath then f
  else fdbRecount (forAll ((fdbValid f).filter (fun i => p (f.fdb i))) fdbInvalidate f)

/-! ### Groups (R438 to R445) -/

/-- The port of slot `s` of group `g`. -/
def slotPort (f : FieldDie) (g s : Nat) : Nat := bitsOf (f.get (F_FWD_AGG_slots g)) (5 * s + 4) (5 * s)

/-- Whether slot `s` of group `g` is enabled. -/
def slotEn (f : FieldDie) (g s : Nat) : Bool := hasBit (f.get (F_FWD_AGG_slot_en g)) s

/-- The group and slot whose enabled slot names port `n`. -/
def groupOf (f : FieldDie) (n : Nat) : Option (Nat × Nat) :=
  ((List.range 16).map (fun k => (k / 4, k % 4))).find? (fun gs => slotEn f gs.1 gs.2 && slotPort f gs.1 gs.2 == n)

/-- Active slots of group `g`. -/
def activeSlots (f : FieldDie) (g : Nat) : List Nat :=
  (List.range 4).filter (fun s => hasBit (f.get (F_FWD_AGG_STAT_active g)) s)

/-- The learned entries whose destination is group `g` (R431). -/
def groupEntries (g : Nat) (e : FdbEntry) : Bool := !e.isStatic && e.agg && e.dest == 0x18 + g

/-- Set the active slots of group `g`; a change raises member_change (R445). A group left without an active member
loses the learned entries whose destination it is (R431). -/
def setActive (g v : Nat) (f : FieldDie) : FieldDie :=
  if f.get (F_FWD_AGG_STAT_active g) = v then f
  else
    let f := ((f.put (F_FWD_AGG_STAT_active g) v).put F_FWD_EVT_INFO_index g).raise F_FWD_EVT 3
    if v = 0 then fdbPurge (groupEntries g) f else f

/-- Port `n` stops counting as link-up: its slot becomes inactive at once (R439). -/
def memberDown (n : Nat) (f : FieldDie) : FieldDie :=
  match groupOf f n with
  | some (g, s) => setActive g (clrBit (f.get (F_FWD_AGG_STAT_active g)) s) f
  | none => f

/-- Flush-on-down (R431): the learned entries whose destination is the port. -/
def flushOnDown (n : Nat) (f : FieldDie) : FieldDie :=
  if f.flag (F_FWD_PORT_flush_on_down n) then fdbPurge (fun e => !e.isStatic && !e.maskDst && e.dest == n) f else f

/-! ### Learning (R414 to R420) -/

/-- An entry's words for a learned pair. -/
def learnedWords (addr vid dest : Nat) : FdbEntry :=
  ⟨0x80000000, addr % 2 ^ 32, vid * 2 ^ 16 + addr / 2 ^ 32, if dest < 0x18 then dest * 2 ^ 24 else 0x80000000 + (dest - 0x18) * 2 ^ 29⟩

/-- Write an entry. -/
def fdbWrite (i : Nat) (e : FdbEntry) (f : FieldDie) : FieldDie :=
  fdbChanged i true ((((f.wrN (fdbAddr i 0) e.w0).wrN (fdbAddr i 1) e.w1).wrN (fdbAddr i 2) e.w2).wrN (fdbAddr i 3) e.w3)

/-- Start the record of a fabric cycle in which learns and the ager may meet (R428). -/
def meetCycle (f : FieldDie) : FieldDie :=
  if f.fwd.meetAt = f.now then f else { f with fwd := { f.fwd with meetAt := f.now, learnHits := [], agedOut := [] } }

/-- A learn hit reaches an entry that the ager has invalidated in the same fabric cycle: the learn applies, and the entry
is not aged (R428). -/
def fdbRevive (addr vid : Nat) (f : FieldDie) : FieldDie :=
  match f.fwd.agedOut.find? (fun i => !(f.fdb i).valid && (f.fdb i).mac == addr && (f.fdb i).vid == vid) with
  | some i => (fdbRecount (f.wrN (fdbAddr i 0) (setBit (f.fdb i).w0 31))).countN (cGlobal 3) (2 ^ 64 - 1)
  | none => f

/-- Learn `addr` in `vid` from port `n` (R415 to R419). -/
def fdbLearn (n addr vid : Nat) (f : FieldDie) : FieldDie :=
  let f := fdbRevive addr vid (meetCycle f)
  let dest := match groupOf f n with
    | some (g, _) => 0x18 + g
    | none => n
  match fdbFind f addr vid with
  | some i =>
    let e := f.fdb i
    if e.isStatic then
      if e.maskDst || e.dest != dest then f.count (cGlobal 1) else f
    else
      let moved := e.maskDst || e.dest != dest
      let e' : FdbEntry := { e with w0 := putBits e.w0 11 8 0, w3 := if moved then (learnedWords addr vid dest).w3 else e.w3 }
      let e' : FdbEntry := if moved then { e' with w0 := clrBit e'.w0 29 } else e'
      let f := if moved then f.count (cGlobal 0) else f
      let f := { f with fwd := { f.fwd with learnHits := f.fwd.learnHits ++ [i] } }
      if e' = e then f else fdbWrite i e' f
  | none =>
    match (fdbCands addr vid).find? (fun i => !(f.fdb i).valid) with
    | some i =>
      let f := { f with fwd := { f.fwd with fullLatched := false } }
      fdbRecount (fdbWrite i (learnedWords addr vid dest) f)
    | none =>
      let f := f.count (cGlobal 2)
      if f.fwd.fullLatched then f else { f with fwd := { f.fwd with fullLatched := true } }.raise F_FWD_EVT 0

/-! ### VLANs -/

def vlanAddr (v w : Nat) : Nat := 0x4D0000 + 8 * v + 4 * w
def vlanValid (f : FieldDie) (v : Nat) : Bool := hasBit (f.rdN (vlanAddr v 0)) 31
def vlanLearnDis (f : FieldDie) (v : Nat) : Bool := hasBit (f.rdN (vlanAddr v 0)) 30
/-- The members of a vid, Pn at bit n. -/
def vlanMembers (f : FieldDie) (v : Nat) : Nat := bitsOf (f.rdN (vlanAddr v 0)) 16 0
def vlanUntag (f : FieldDie) (v : Nat) : Nat := bitsOf (f.rdN (vlanAddr v 1)) 16 0

end Sys2Proof.Machine
end

