-- ==== Sys2Proof/Machine/Meter.lean ====
section
/-! DEFINITION. Meters, stream-gate octet sums, and what the ingress MAC's verdict on a frame does to them (chapter 12,
R503, R506 to R511), with the discard of a frame at the ingress MAC (R326, R327, R461). -/

namespace Sys2Proof.Machine

/-! ### Meters -/

def meterAddr (m w : Nat) : Nat := 0x530000 + 16 * m + 4 * w
/-- Address of a meter's bucket: 0 the committed bucket C, 1 the excess bucket E (Table 12.7). -/
def bucketAddr (m b : Nat) : Nat := 0x540000 + 8 * m + 4 * b

def meterValid (f : FieldDie) (m : Nat) : Bool := hasBit (f.rdN (meterAddr m 0)) 31
/-- The size of bucket `b`: cbs or ebs. -/
def bucketSize (f : FieldDie) (m b : Nat) : Nat := bitsOf (f.rdN (meterAddr m (2 + b))) 23 0
/-- The bytes in bucket `b`. -/
def bucketLevel (f : FieldDie) (m b : Nat) : Nat := bitsOf (f.rdN (bucketAddr m b)) 23 0
def setBucket (m b v : Nat) (f : FieldDie) : FieldDie := f.wrN (bucketAddr m b) (v % 2 ^ 24)

/-- The parts of a meter's buckets below one byte, and the residues of their increases: C, residue of C, E, residue
of E (R506). -/
def meterFrac (f : FieldDie) (m : Nat) : List Nat := Store.get (fun _ => [0, 0, 0, 0]) f.str.refill m
def setMeterFrac (m : Nat) (v : List Nat) (f : FieldDie) : FieldDie :=
  { f with str := { f.str with refill := Store.set (fun _ => [0, 0, 0, 0]) f.str.refill m v } }

/-- One fine tick of a meter (R506). Levels are counted in units of 2^-20 byte. -/
def meterTick (m : Nat) (f : FieldDie) : FieldDie :=
  let w0 := f.rdN (meterAddr m 0)
  let cir := bitsOf w0 23 0
  let eir := bitsOf (f.rdN (meterAddr m 1)) 23 0
  let fr := meterFrac f m
  let tc := cir * 2 ^ 20 + fr.getD 1 0
  let te := eir * 2 ^ 20 + fr.getD 3 0
  let capC := bucketSize f m 0 * 2 ^ 20
  let capE := bucketSize f m 1 * 2 ^ 20
  let c := bucketLevel f m 0 * 2 ^ 20 + fr.getD 0 0 + tc / 1000000
  let spill := c - capC
  let c := min c capC
  let e := bucketLevel f m 1 * 2 ^ 20 + fr.getD 2 0 + te / 1000000 + (if hasBit w0 30 then spill else 0)
  let e := min e capE
  setMeterFrac m [c % 2 ^ 20, tc % 1000000, e % 2 ^ 20, te % 1000000]
    (setBucket m 0 (c / 2 ^ 20) (setBucket m 1 (e / 2 ^ 20) f))

/-- The numbers of the valid meters. -/
def validMeters (f : FieldDie) : List Nat :=
  (f.reg.filter (fun e => decide (0x530000 ≤ e.1) && decide (e.1 < 0x540000) && e.1 % 16 == 0 && hasBit e.2.toNat 31)).map
    (fun e => (e.1 - 0x530000) / 16)

/-- Set a meter's buckets full or empty (R511). -/
def meterFill (m : Nat) (full : Bool) (f : FieldDie) : FieldDie :=
  setMeterFrac m [0, 0, 0, 0]
    (setBucket m 0 (if full then bucketSize f m 0 else 0) (setBucket m 1 (if full then bucketSize f m 1 else 0) f))

/-- Return bytes to a bucket, up to its size (R509); a bucket that is full holds nothing below one byte besides. -/
def meterReturn (m b n : Nat) (f : FieldDie) : FieldDie :=
  if bucketLevel f m b + n < bucketSize f m b then setBucket m b (bucketLevel f m b + n) f
  else setMeterFrac m ((meterFrac f m).set (2 * b) 0) (setBucket m b (bucketSize f m b) f)

/-- Whether stage 4 leaves buckets, latches and octet sums as they are (R651). -/
def stage4Frozen (f : FieldDie) : Bool := f.standbyPath

/-- Meter a frame of `len` bytes and input colour `colour` (R507): the result colour and the bucket that paid. -/
def meterFrame (m len colour : Nat) (f : FieldDie) : (Nat × Option Nat) × FieldDie :=
  let input := if hasBit (f.rdN (meterAddr m 0)) 29 then colour else 0
  let pay := fun (b : Nat) (f : FieldDie) => if stage4Frozen f then f else setBucket m b (bucketLevel f m b - len) f
  if input = 0 ∧ len ≤ bucketLevel f m 0 then ((0, some 0), (pay 0 f).count (cMeter m 0))
  else if input ≠ 2 ∧ len ≤ bucketLevel f m 1 then ((1, some 1), (pay 1 f).count (cMeter m 1))
  else ((2, none), f.count (cMeter m 2))

/-! ### Octet sums (R503) -/

/-- The sums of window `w`, by the start of the network cycle in which each occurrence lies. -/
def octetSums (f : FieldDie) (w : Nat) : List (Nat × Nat) := Store.get (fun _ => []) f.str.octets w

/-- The sum of window `w` for its occurrence in the cycle that began at `cyc`. -/
def octetSum (f : FieldDie) (w cyc : Nat) : Nat := Store.get (fun _ => 0) (octetSums f w) cyc

/-- Set the sum of one occurrence; the sums of the latest 128 are kept. -/
def setOctetSum (w cyc v : Nat) (f : FieldDie) : FieldDie :=
  let sums := Store.set (fun _ => 0) (octetSums f w) cyc v
  { f with str := { f.str with octets := Store.set (fun _ => []) f.str.octets w (sums.drop (sums.length - 128)) } }

/-! ### The verdict of the ingress MAC -/

/-- A frame metered and summed with P is accepted with its true length: what P exceeded it by goes back (R503, R509). -/
def settleStage4 (fr : Frame) (len : Nat) (f : FieldDie) : FieldDie :=
  let f := match fr.metered with
    | some (m, ex, p) =>
      if stage4Frozen f then f else (meterReturn m (if ex then 1 else 0) (p - len) f).count (cMeter m 3)
    | none => f
  match fr.octets with
  | some (w, cyc, p) => if stage4Frozen f then f else setOctetSum w cyc (octetSum f w cyc - p + len) f
  | none => f

/-- A frame metered or summed before its end is discarded by the MAC: all of it goes back (R503, R509). -/
def revertStage4 (fr : Frame) (f : FieldDie) : FieldDie :=
  let f := match fr.metered with
    | some (m, ex, p) =>
      if stage4Frozen f then f else (meterReturn m (if ex then 1 else 0) p f).count (cMeter m 3)
    | none => f
  match fr.octets with
  | some (w, cyc, p) => if stage4Frozen f then f else setOctetSum w cyc (octetSum f w cyc - p) f
  | none => f

/-! ### The rate level (R515) -/

/-- The length of a frame of `len` bytes after a tag action. -/
def tagLen (t : TagAct) (len : Nat) : Nat :=
  match t with
  | .strip => len - 4
  | .insert _ => len + 4
  | _ => len

/-- The copies of frame `id` that port `n` has started and not finished. -/
def startedCopies (f : FieldDie) (n id : Nat) : List Copy :=
  ((f.portX n).sending.toList ++ (f.portX n).preempted.toList).filter (fun c => c.frame == id)

/-- The length of frame `id` has become known: the rate levels of the ports where its copies have started with P are
corrected (R515). -/
def settleRate (id len : Nat) (f : FieldDie) : FieldDie :=
  forRange 17 (fun n f => forAll (startedCopies f n id) (fun c f =>
    if c.paid = 0 then f
    else f.setGateX n (fun x => { x with rlLevel := x.rlLevel + ((c.paid : Int) - (tagLen c.tag len : Int)) * 1000000 })) f) f

/-- End the reception of a frame under a reason of Table 7.7, or PLCA_OVERLAP or HOST_ABORT: counted at the ingress
port, its copies released or to be ended with an inverted FCS, its learn abandoned (R326, R327, R420, R461). A frame that
an early pass has dropped is counted under that reason and under no other (R28, R326; log entry 126). -/
def rejectFrame (fr : Frame) (reason : Nat) (f : FieldDie) : FieldDie :=
  let f := if fr.dropped then f else f.countDrop fr.port reason
  let f := settleRate fr.id fr.bytes.length (revertStage4 fr f)
  let f := dropFrameCopies fr.id reason f
  f.setFrame fr.id (fun x => { x with
    rx := false, accepted := false, bad := reason, dropped := true, learn := false, metered := none, octets := none })

/-- The frame in reception at a port. -/
def FieldDie.inRx (f : FieldDie) (n : Nat) : Option Frame := f.buf.frames.find? (fun fr => fr.port == n && fr.rx && !fr.held)

/-- After an express frame, the assembly that it interrupted at port `n` goes on (R323). -/
def resumeAssembly (n : Nat) (f : FieldDie) : FieldDie :=
  { f with buf := { f.buf with frames := f.buf.frames.map (fun fr => if fr.port == n && fr.rx then { fr with held := false } else fr) } }

/-- An express frame begins while a frame is being assembled at port `n`: the assembly waits (R323). -/
def holdAssembly (n : Nat) (f : FieldDie) : FieldDie :=
  { f with buf := { f.buf with frames := f.buf.frames.map (fun fr => if fr.port == n && fr.rx then { fr with held := true } else fr) } }

end Sys2Proof.Machine
end

