-- ==== Sys2Proof/Machine/Faults.lean ====
section
/-! DEFINITION. The field fault unit (chapter 21), with the part of the twin controller that a fault reaches: the
roles, RELINQUISH and FAILED (R656, R808 to R811). -/

namespace Sys2Proof.Machine

/-! ### Roles -/

/-- Set the data-path role; segments of a standby part fall silent (R637, R368). A stopped twin machine makes no
step. -/
def setRole (r : Nat) (f : FieldDie) : FieldDie :=
  if f.engineRuns 17 then
    let f := f.napBreak.put F_TWN_STAT_role r
    forRange 4 (fun n f => f.put (F_MDS_STAT_standby_silent n) (if r = 3 then 1 else 0)) f
  else f

/-- Cancel a granted change of roles (R661). -/
def cancelHandover (f : FieldDie) : FieldDie := { f with twn := { f.twn with boundaryB := none, reqSent := false } }

/-- A ROLE unit (Table 15.2). -/
def roleUnit (kind : Nat) (words : List Nat) : FlowUnit :=
  { header := 0xA0000000 + kind * 2 ^ 24, payload := words.flatMap bytesLE }

/-- Send a sequenced unit on the twin link when it can be sent; otherwise it waits (R622). -/
def postTwin (u : FlowUnit) (f : FieldDie) : FieldDie :=
  if f.twin.canSend then f.sendTwin u else { f with twin := { f.twin with waiting := f.twin.waiting ++ [u] } }

/-- Enter FAILED: the part stops forwarding and applying records (R656, R809). -/
def enterFailed (f : FieldDie) : FieldDie :=
  cancelHandover (setRole 4 { f with twn := { f.twn with syncedAt := none, recDue := false } })

/-- Whether the last STATUS of the partner, within 3 ms, reported STANDBY with no fault (R656). -/
def standbyReady (f : FieldDie) : Bool :=
  match f.twn.statusAt with
  | some t => decide (f.now ≤ t + 3 * msTicks) && f.get F_TWN_PEER_role == 3 && f.get F_TWN_PEER_fault == 0
  | none => false

/-- What a take-over fault starts: R656 on an ACTIVE part, R809 on a STANDBY part, nothing else otherwise. -/
def takeoverFault (f : FieldDie) : FieldDie :=
  if f.role = 2 then
    let f := cancelHandover f
    if standbyReady f then enterFailed (postTwin (roleUnit 3 []) f) else f.raise F_TWN_EVT 13
  else if f.role = 3 then enterFailed f
  else f

/-! ### The fault log -/

/-- The ptb mark of a fault (R806, R837): a control is active, or the error was put there by a one-shot control, as
every TMR difference, table word and cell error of this model is (Table 22.4). -/
def ptbMark (code inst : Nat) (f : FieldDie) : Bool :=
  f.rdN F_PTB_ACTIVE != 0 || code == 1 || code == 2 || (code == 0 && decide (inst < 0x8000))

/-- Write a log entry (R806): fault code, seq, instance and the time of detection. -/
def logFault (code inst : Nat) (f : FieldDie) : FieldDie :=
  let i := f.get F_FLT_LOGPTR_next
  let seq := bitsOf (f.rdN F_FLT_EVT) 31 16
  let ptb := if ptbMark code inst f then 1 else 0
  let f := if hasBit (f.rdN (F_FLT_LOG_A i)) 31 then f.bump F_FLT_LOGPTR_wraps 1 else f
  let f := f.wrN (F_FLT_LOG_A i) (0x80000000 + ptb * 2 ^ 30 + code * 2 ^ 24 + seq)
  let f := f.wrN (F_FLT_LOG_B i) inst
  let f := f.wrN (F_FLT_LOG_NS i) (nsOf f.sysNs)
  let f := f.wrN (F_FLT_LOG_SEC i) (secOf f.sysNs)
  f.put F_FLT_LOGPTR_next ((i + 1) % 16)

/-- The EVT message of kind 0x04 (R807) for the entry at log index `i`. -/
def faultEvt (code inst i : Nat) (f : FieldDie) : FieldDie :=
  let seq := bitsOf (f.rdN F_FLT_EVT) 31 16
  let ptb := if ptbMark code inst f then 0x100 else 0
  let tko := if hasBit (f.get F_FLT_TKO_tko) code then 0x200 else 0
  f.queueEvt (evtUnit (0x04000000 + code * 2 ^ 16 + tko + ptb + i) (seq * 2 ^ 16 + inst % 65536) (nsOf f.sysNs)
    (secOf f.sysNs))

/-- A fault is detected (R803, R811): the same instance while its flag is set latches nothing more; otherwise the flag
is set, the log entry written, the message queued, and a take-over fault acts on the role. -/
def latchFault (code inst : Nat) (f : FieldDie) : FieldDie :=
  if f.sq F_FLT_EVT code ∧ (code, inst) ∈ f.flt.latched then f
  else
    let f := f.napBreak.setFlag F_FLT_EVT code
    let f := { f with flt := { f.flt with latched := f.flt.latched ++ [(code, inst)] } }
    let i := f.get F_FLT_LOGPTR_next
    let f := faultEvt code inst i (logFault code inst f)
    if hasBit (f.get F_FLT_TKO_tko) code then takeoverFault f else f

/-- A discrepancy fault found without the register file drives FAULT_F low; its entry and message wait for the wake
(R115, R814). -/
def latchDark (code inst : Nat) (f : FieldDie) : FieldDie :=
  if (code, inst) ∈ f.flt.dark then f
  else { f with flt := { f.flt with dark := f.flt.dark ++ [(code, inst)], held := f.flt.held.map (fun _ => false) } }

/-! ### F_FLT_COVER (Table 21.5) -/

/-- Whether the spare of a link is enabled and not declared failed in either direction (R824). -/
def spareOk (l : Link) (en : Bool) : Bool := en && !l.rxSpareBad && !l.txSpareBad

/-- The value of F_FLT_COVER that the present state gives. -/
def coverNow (f : FieldDie) : Nat :=
  (if f.flag F_CFG_PROOF_STAT_committed && !f.flag F_CFG_PROOF_STAT_stale then 0 else 1) +
  (if f.rdN F_PTB_ACTIVE = 0 then 0 else 2) +
  (if f.get F_FLT_ST_STAT_unchecked = 0 then 0 else 4) +
  (if f.order == .fo || spareOk f.xng (f.flag F_XNG_CTRL_spare_en) then 0 else 8) +
  (if !f.flag F_TWN_CTRL_enable || spareOk f.twin (f.flag F_TWN_CTRL_spare_en) then 0 else 16) +
  (if f.flag F_TIM_SYS_xc_en && f.flag (F_TIM_PTP_CFG_en 0) && f.flag (F_TIM_PTP_CFG_en 1) then 0 else 32)

/-- Bring F_FLT_COVER up to date; a change raises cover_change (R824). -/
def refreshCover (f : FieldDie) : FieldDie :=
  if f.get F_FLT_COVER_cover = coverNow f then f else (f.put F_FLT_COVER_cover (coverNow f)).raise F_FLT_EVT2 0

/-! ### What every command on the field die ends with -/

/-- Send what waits for the Crossing, as far as the replay buffer has room: completions first, then EVT messages
(R622). The first EVT message after a loss carries lost 1 (R621). -/
def pumpXng : Nat → FieldDie → FieldDie
  | 0, f => f
  | k + 1, f =>
    if !f.xng.canSend then f
    else match f.xng.waiting with
      | u :: us => pumpXng k ({ f with xng := { f.xng with waiting := us } }.sendXng u)
      | [] => match f.evtq with
        | u :: us =>
          let u' := if f.evtLost then { u with header := u.header + 2 ^ 27 } else u
          pumpXng k ({ f with evtq := us, evtLost := false }.sendXng u')
        | [] => f

/-- Send what waits for the twin link. -/
def pumpTwin : Nat → FieldDie → FieldDie
  | 0, f => f
  | k + 1, f =>
    if !f.twin.canSend then f
    else match f.twin.waiting with
      | u :: us => pumpTwin k ({ f with twin := { f.twin with waiting := us } }.sendTwin u)
      | [] => f

/-- The end of every command on the field die: F_FLT_COVER follows its conditions, waiting messages leave, frames that
nothing needs are forgotten. -/
def settle (f : FieldDie) : FieldDie :=
  if f.powered then forgetFrames (pumpTwin 64 (pumpXng 320 (refreshCover f))) else f

/-- A command on the field die alone. -/
def State.onField (s : State) (g : FieldDie → FieldDie) : Host.Outcome State Fault Refusal :=
  .next { s with fld := settle (g s.fld) }

/-- Whether requester `req` can write a field-die register: anyone from T_cfg on, the image loader before it (R247). -/
def FieldDie.canWrite (f : FieldDie) (req : Nat) : Bool := f.isRunning || (req == 0x41 && f.powered)

/-- A register, table or lock operation of requester `req`. -/
def State.onWrite (s : State) (req : Nat) (g : FieldDie → FieldDie) : Host.Outcome State Fault Refusal :=
  s.onField (fun f => if f.canWrite req then g f.napBreak else f)

/-- An event on a running field die. -/
def State.onRun (s : State) (g : FieldDie → FieldDie) : Host.Outcome State Fault Refusal :=
  s.onField (fun f => if f.isRunning then g f else f)

/-- An event on a running field die, for a port, segment or other thing of number `n` below `lim`. -/
def State.onItem (s : State) (n lim : Nat) (g : FieldDie → FieldDie) : Host.Outcome State Fault Refusal :=
  s.onRun (fun f => if n < lim then g f else f)

/-- A register write of requester `req`, for a register of number `n` below `lim`. -/
def State.onItemWrite (s : State) (req n lim : Nat) (g : FieldDie → FieldDie) : Host.Outcome State Fault Refusal :=
  s.onWrite req (fun f => if n < lim then g f else f)

end Sys2Proof.Machine
end

