-- ==== Sys2Proof/Machine/Counters.lean ====
section
/-! DEFINITION. Counter snapshots (chapter 20, R798 to R800) and the counter window (R794, R795). -/

namespace Sys2Proof.Machine

/-- The counters of a group code: base address and how many (Table 20.1). -/
def groupRange (g : Nat) : Option (Nat × Nat) :=
  if g ≤ 0x10 then some (cPort g 0, 256)
  else if 0x1000 ≤ g ∧ g < 0x2000 then some (cStream (g - 0x1000) 0, 8)
  else if 0x2000 ≤ g ∧ g < 0x3000 then some (cMeter (g - 0x2000) 0, 4)
  else if g = 0x3000 then some (cRule 0, 2048)
  else if 0x3100 ≤ g ∧ g < 0x3104 then some (cSeg (g - 0x3100) 0, 64)
  else if g = 0x3200 then some (cXng 0, 64)
  else if g = 0x3201 then some (cTwin 0, 64)
  else if g = 0x3202 then some (cGlobal 0, 64)
  else none

/-- Whether address `a` is that of a counter of group `g`. -/
def inGroup (g a : Nat) : Bool :=
  match groupRange g with
  | some (b, n) => decide (b ≤ a) && decide (a < b + 8 * n)
  | none => false

/-- Start a snapshot of group `g`: its counters as they stand, unless a copy runs or the code is undefined (R800). -/
def SnapBank.start (b : SnapBank) (f : FieldDie) (g : Nat) : SnapBank :=
  if b.copying.isSome ∨ groupRange g = none then b
  else { b with group := g, copying := some (f.cnt.filter (fun e => inGroup g e.1), g) }

/-- The copy is complete: the view takes the new values together, and snap_no advances (R798, R799). -/
def SnapBank.done (b : SnapBank) : SnapBank :=
  match b.copying with
  | some (vals, g) => { b with
      copying := none
      num := (b.num + 1) % 2 ^ 15
      view := forAll vals (fun e v => Store.set (fun _ => 0) v e.1 e.2) (Store.clear (inGroup g) b.view) }
  | none => b

/-- What F_GLB_CNT_SNAP reads as for a bank (Table 20.7). -/
def SnapBank.read (b : SnapBank) : Nat := (if b.copying.isSome then 2 ^ 31 else 0) + b.num * 2 ^ 16 + b.group

/-- A write of F_GLB_CNT_SNAP by `req`: host functions share one bank, the manager has its own (R799). -/
def writeSnap (req data : Nat) (f : FieldDie) : FieldDie :=
  if req < 0x40 then { f with snapHost := f.snapHost.start f (bitsOf data 15 0) }
  else if req = 0x40 then { f with snapSerial := f.snapSerial.start f (bitsOf data 15 0) }
  else f

/-- COUNTER_SNAPSHOT (R798). -/
def execCounterSnapshot (req : Nat) (data : Word) (s : State) : Host.Outcome State Fault Refusal :=
  s.onWrite req (writeSnap req data.toNat)

/-- SNAPSHOT_DONE (R798): the copy of a bank is complete. -/
def execSnapshotDone (serial : Bool) (s : State) : Host.Outcome State Fault Refusal :=
  s.onRun (fun f => if serial then { f with snapSerial := f.snapSerial.done } else { f with snapHost := f.snapHost.done })

/-- The bank that requester `req` reads. -/
def bankOf (f : FieldDie) (req : Nat) : SnapBank := if req = 0x40 then f.snapSerial else f.snapHost

/-- A word of the counter window or of a copy of it: the low or the high half of a 64-bit count (R794). -/
def countWord (m : List (Nat × Nat)) (a : Nat) : Nat :=
  let v := Store.get (fun _ => 0) m (a / 8 * 8)
  if a % 8 < 4 then v % 2 ^ 32 else v / 2 ^ 32

end Sys2Proof.Machine
end

