-- ==== Sys2Proof/Machine/Link.lean ====
section
/-! DEFINITION. One end of a link (chapter 14, R596 to R613): what it does with received units, acknowledgement and
replay, lane sparing, training, and the firewall. The Crossing's two ends and the twin link share these functions; each
end carries out the effects they name. -/

namespace Sys2Proof.Machine

/-- What a link function asks its end to do. -/
inductive LinkFx
  | count (k n : Nat)                       -- advance counter k of the link's group (Table 20.5)
  | send (seed : Nat) (u : FlowUnit)        -- put a unit into a slot
  | patterns                                -- send the patterns of the lane phase
  | blocks (lane : Nat)                     -- block errors have been counted on a receive lane; how many is open
  | event (bit : Nat)                       -- raise a flag of the link's EVT register
  | lane (bit dir lane : Nat)               -- the same, with the lane recorded
  | discard (type : Nat) (over_ : Bool)     -- a firewall discard; `over_`: the threshold is reached
  | acked (seqs : List Nat)                 -- units that an ACK has covered
  | ackSkipped (left : Nat)                 -- perturbation took an ACK
deriving DecidableEq, Repr

/-- A link function's answer. -/
abbrev LinkAns := Link × List LinkFx

/-- Do one link function after another. -/
def LinkAns.next (a : LinkAns) (g : Link → LinkAns) : LinkAns := ((g a.1).1, a.2 ++ (g a.1).2)

/-- The sequence number before `n` (R598). -/
def seqPrev (n : Nat) : Nat := if n = 0 then 0xFFFFFFFE else n - 1

/-! ### Sending (R600 to R604) -/

/-- An ACK of `n`. -/
def ackUnit (n : Nat) : FlowUnit := ctrlUnit 0 0 [n]
/-- A NAK of `n`. -/
def nakUnit (n : Nat) : FlowUnit := ctrlUnit 1 0 [n]

/-- An ACK point (R600): the last accepted unit is acknowledged, unless perturbation takes the ACK. -/
def ackPoint (l : Link) : LinkAns :=
  if 0 < l.ackAmnesty then ({ l with unacked := 0, ackAmnesty := l.ackAmnesty - 1 }, [.ackSkipped (l.ackAmnesty - 1)])
  else ({ l with unacked := 0 }, [.send unseqSeed (ackUnit (seqPrev l.expect))])

/-- Whether a NAK sent at fine tick `t` still suppresses another (R601): 2 µs. -/
def nakFresh (t now : Nat) : Bool := decide (t ≤ now) && decide (now < t + 2 * usTicks)

/-- Send NAK(E), unless one for the same E went out within 2 µs (R601); `anyway` is the sparing sequence's exception. -/
def sendNak (now : Nat) (anyway : Bool) (l : Link) : LinkAns :=
  if anyway = false ∧ l.nakOf = some l.expect ∧ nakFresh l.nakAt now then (l, [])
  else ({ l with nakOf := some l.expect, nakAt := now }, [.count 3 1, .send unseqSeed (nakUnit l.expect)])

/-- The lane phase begins (R610); a link that was UP has gone down. -/
def startTraining (l : Link) : LinkAns :=
  ({ l with
      phase := 1, laneAt := l.tick, peerTrain := none, echoed := false, sparing := none, nakOf := none, unacked := 0
      resends := 0, resendOf := none },
   (if l.phase = 3 then [.event 1] else []) ++ [.patterns])

/-- Resend the replay buffer from `from_` on (R602), counting the resend (R604). -/
def resend (retryLim from_ : Nat) (l : Link) : LinkAns :=
  match l.replay.dropWhile (fun e => e.1 != from_) with
  | [] => (l, [])
  | es =>
    let n := if l.resendOf = some from_ then l.resends + 1 else 1
    let l := { l with resendOf := some from_, resends := n }
    if max 1 retryLim ≤ n then LinkAns.next (l, [.count 2 1, .event 5]) startTraining
    else
      ({ l with times := l.times.take (l.replay.length - es.length) ++ es.map (fun _ => l.tick) },
       .count 2 1 :: es.map (fun e => .send e.1 e.2))

/-- An ACK of `n` frees every unit up to it (R602). -/
def takeAck (n : Nat) (l : Link) : LinkAns :=
  if l.replay.any (fun e => e.1 == n) then
    let rest := (l.replay.dropWhile (fun e => e.1 != n)).drop 1
    let gone := (l.replay.take (l.replay.length - rest.length)).map (fun e => e.1)
    ({ l with replay := rest, times := l.times.drop gone.length, resends := 0, resendOf := none }, [.acked gone])
  else (l, [])

/-- A NAK is received (R602). -/
def takeNak (retryLim n : Nat) (l : Link) : LinkAns := LinkAns.next (l, [.count 4 1]) (resend retryLim n)

/-- Whether the oldest unit has gone 4 µs without an ACK since it was last sent (R602). -/
def ackLate (l : Link) : Bool := decide (l.times.headD 0 + 4 * usTicks ≤ l.tick)

/-- REPLAY_TIMEOUT (R602): the oldest unit has gone 4 µs without an ACK. -/
def replayTimeout (retryLim : Nat) (l : Link) : LinkAns :=
  if l.phase ≠ 3 ∨ ackLate l = false then (l, [])
  else match l.replay with
    | e :: _ => LinkAns.next (l, [.count 7 1]) (resend retryLim e.1)
    | [] => (l, [])

/-! ### The firewall (R623, R636, Table 14.9) -/

/-- Whether an end receives a type at all (R16, R17, R636). -/
def typeOk (who : LinkId) (t : Nat) : Bool :=
  match who with
  | .field => t == 1 || t == 2 || t == 3 || t == 8
  | .host => t == 1 || t == 4 || t == 5 || t == 6 || t == 7 || t == 8
  | .twin => t == 8 || t == 9 || t == 10

/-- Fields of a DATA header (Table 14.5). -/
def dataFirst (u : FlowUnit) : Bool := hasBit u.header 27
def dataLast (u : FlowUnit) : Bool := hasBit u.header 26
def dataLen (u : FlowUnit) : Nat := bitsOf u.header 24 19

/-- Whether an accepted unit passes the firewall. -/
def firewallOk (who : LinkId) (l : Link) (u : FlowUnit) : Bool :=
  typeOk who u.type &&
  (if u.type = 8 then who == .field && bitsOf u.header 27 24 == 5
   else if u.type = 1 then
     decide (1 ≤ dataLen u) && decide (dataLen u ≤ 56) && (dataLast u || dataLen u == 56) && (dataFirst u != l.rxOpen)
   else if u.type = 2 then decide (1 ≤ bitsOf u.header 3 0) && decide (bitsOf u.header 3 0 ≤ 7)
   else true)

/-- Units of the open frame that wait in the inbox go with it. -/
def dropOpenUnits : List FlowUnit → List FlowUnit
  | [] => []
  | u :: us => if u.type = 1 then (if dataLast u then u :: us else dropOpenUnits us) else u :: dropOpenUnits us

/-- Discard the open frame. -/
def dropOpen (l : Link) : Link :=
  if l.rxOpen = false then l
  else
    let whole := l.inbox.any (fun u => u.type == 1 && dataLast u)
    { l with
      rxOpen := false
      inbox := (dropOpenUnits l.inbox.reverse).reverse
      rxBytes := if whole then l.rxBytes else []
      rxMeta := if whole then l.rxMeta else [] }

/-- The firewall discards a unit (R623): counted by type, and against the threshold of one millisecond. -/
def fwDiscard (thresh now : Nat) (u : FlowUnit) (l : Link) : LinkAns :=
  let times := l.fwTimes.filter (fun t => decide (t ≤ now) && decide (now < t + msTicks)) ++ [now]
  let full := max 1 thresh ≤ times.length
  let l := if u.type = 1 then dropOpen l else l
  ({ l with fwTimes := if full then [] else times }, [.discard u.type full])

/-- An accepted unit passes to the inbox (R605). -/
def accept (u : FlowUnit) (l : Link) : Link :=
  { l with inbox := l.inbox ++ [u], rxOpen := if u.type = 1 then !dataLast u else l.rxOpen }

/-! ### Receiving (R599, Table 14.2) -/

/-- The unit that 64 bytes spell. -/
def unitOf (bs : List Byte) : FlowUnit := { header := wordAt bs 0, payload := (bs.drop 4).take 56 }

/-- The seed under which 64 bytes check (R599). -/
def unitSeed (bs : List Byte) : Nat := seedOf (bs.take 60) (wordAt bs 15)

/-- SPARE_RECEIVE: the sender moves lane `k` to the spare. -/
def spareReceive (k : Nat) (l : Link) : LinkAns :=
  if l.phase = 3 ∧ k < 4 then ({ l with txFailed := k, resends := 0 }, []) else (l, [])

/-- An unsequenced CTRL unit: ACK and NAK act at once, TRAIN and TRAIN_ECHO wait to be consumed. SPARE is handed to the
lanes. -/
def takeCtrl (retryLim : Nat) (u : FlowUnit) (l : Link) : LinkAns :=
  let k := bitsOf u.header 27 24
  if l.phase = 3 ∧ k = 0 then takeAck (u.w 0) l
  else if l.phase = 3 ∧ k = 1 then takeNak retryLim (u.w 0) l
  else if k = 2 then spareReceive (bitsOf u.header 2 0) l
  else if l.phase = 2 ∧ (k = 3 ∨ k = 4) then ({ l with inbox := l.inbox ++ [u] }, [])
  else (l, [])

/-- What a link end does with 64 received bytes. A unit under the reserved seed that is no unsequenced CTRL unit is
discarded by the firewall when it is a CTRL unit (Table 14.9), and is corrupt otherwise (log 132). -/
def linkReceive (who : LinkId) (retryLim fwThresh now : Nat) (bs : List Byte) (l : Link) : LinkAns :=
  let u := unitOf bs
  let s := unitSeed bs
  let ctrl := s == unseqSeed && u.type == 8 && decide (bitsOf u.header 27 24 ≤ 4)
  if l.phase < 2 ∨ l.closed then (l, [])
  else if ctrl then takeCtrl retryLim u l
  else if l.phase < 3 then (l, [])
  else if l.corruptRx ∨ bs.length ≠ 64 then LinkAns.next ({ l with corruptRx := false }, [.count 6 1]) (sendNak now false)
  else if s = l.expect then
    let l := { l with
      expect := seqNext l.expect
      unacked := l.unacked + 1
      ackAt := if l.unacked = 0 then now else l.ackAt
      nakOf := none }
    let a : LinkAns := if firewallOk who l u then (accept u l, [.count 1 1]) else LinkAns.next (l, [.count 1 1]) (fwDiscard fwThresh now u)
    if 32 ≤ l.unacked then a.next ackPoint else a
  else
    let back := (l.expect + 2 ^ 32 - s) % 2 ^ 32
    if s = unseqSeed then
      (if u.type = 8 then fwDiscard fwThresh now u l else LinkAns.next (l, [.count 6 1]) (sendNak now false))
    else if back ≤ 512 then ({ l with unacked := 0 }, [.count 5 1, .send unseqSeed (ackUnit (seqPrev l.expect))])
    else if 2 ^ 32 - 512 ≤ back then sendNak now false l
    else LinkAns.next (l, [.count 6 1]) (sendNak now false)

/-! ### Lanes (R606 to R609) -/

/-- LANE_FAILURE: the receiver declares lane `k` failed, 4 the spare, after errors in its blocks. -/
def laneFailure (spareEn : Bool) (k : Nat) (l : Link) : LinkAns :=
  if l.phase ≠ 3 ∨ 4 < k ∨ (k < 4 ∧ l.rxFailed = k) ∨ (k = 4 ∧ l.rxSpareBad) then (l, [])
  else if k = 4 ∧ l.rxFailed = 7 then ({ l with rxSpareBad := true }, [.blocks k, .lane 2 0 4])
  else if spareEn = false ∨ l.rxSpareBad ∨ l.rxFailed ≠ 7 ∨ (l.sparing.isSome ∧ l.sparing ≠ some k) then
    LinkAns.next (l, [.blocks k, .lane 3 0 k]) startTraining
  else ({ l with sparing := some k, spareAt := l.tick }, [.blocks k, .send unseqSeed (ctrlUnit 2 k [])])

/-- SPARE_REPEAT: SPARE goes out again every 1 µs until data is seen on the spare lane. -/
def spareRepeat (l : Link) : LinkAns :=
  match l.sparing with
  | some k =>
    if l.phase = 3 ∧ l.spareAt + usTicks ≤ l.tick then ({ l with spareAt := l.tick }, [.send unseqSeed (ctrlUnit 2 k [])])
    else (l, [])
  | none => (l, [])

/-- SPARE_DATA_SEEN: the lane is taken from the spare from now on, NAK(E) goes out, and lane_spared is raised. -/
def spareDataSeen (now : Nat) (l : Link) : LinkAns :=
  match l.sparing with
  | some k => if l.phase = 3 then LinkAns.next ({ l with rxFailed := k, sparing := none }, [.lane 2 0 k]) (sendNak now true) else (l, [])
  | none => (l, [])

/-! ### Training (R610 to R613) -/

/-- The first data lane that a test failed, 7 none. -/
def failedLane (bad : Nat) : Nat := ((List.range 4).find? (hasBit bad)).getD 7

/-- The TRAIN unit of an end with boot count `boot` (R612). -/
def trainUnit (boot : Nat) (l : Link) : FlowUnit := ctrlUnit 3 0 [if l.fresh then 1 else 0, boot, l.txNext, l.expect]

/-- TRAINING_LANE_PHASE (R611): with four healthy lanes in both directions the assignment passes and TRAIN goes out. -/
def lanePhase (boot rxBad txBad : Nat) (l : Link) : LinkAns :=
  if l.phase ≠ 1 ∨ 1 < popCount rxBad 5 ∨ 1 < popCount txBad 5 then (l, [])
  else
    let l := { l with
      phase := 2
      rxFailed := failedLane rxBad
      txFailed := failedLane txBad
      rxSpareBad := hasBit rxBad 4
      txSpareBad := hasBit txBad 4
      inbox := l.inbox.filter (fun u => !(u.type == 8 && bitsOf u.header 27 24 != 5)) }
    (l, [.send unseqSeed (trainUnit boot l)])

/-- TRAINING_RESTART (R611): the lane phase starts again, 1 ms after it last did. -/
def trainingRestart (l : Link) : LinkAns :=
  if (l.phase = 1 ∨ l.phase = 2) ∧ l.laneAt + msTicks ≤ l.tick then startTraining l else (l, [])

/-- Whether a waiting unit is a CTRL unit of kind `k`. -/
def isCtrl (k : Nat) (u : FlowUnit) : Bool := u.type == 8 && bitsOf u.header 27 24 == k

/-- TRAIN_RECEIVE: the peer's TRAIN is taken and echoed. -/
def trainReceive (l : Link) : LinkAns :=
  match l.inbox.find? (isCtrl 3) with
  | some u =>
    if l.phase = 2 then
      ({ l with inbox := l.inbox.erase u, peerTrain := some (hasBit (u.w 0) 0, u.w 1, u.w 2, u.w 3) }, [.send unseqSeed (ctrlUnit 4 0 [])])
    else (l, [])
  | none => (l, [])

/-- TRAIN_ECHO_RECEIVE: the echo is taken, and with it the measured transit. -/
def trainEcho (half : Nat) (l : Link) : LinkAns :=
  match l.inbox.find? (isCtrl 4) with
  | some u => if l.phase = 2 then ({ l with inbox := l.inbox.erase u, echoed := true, transit := half }, []) else (l, [])
  | none => (l, [])

/-- Whether the exchange is complete. -/
def trained (l : Link) : Bool := l.phase == 2 && l.peerTrain.isSome && l.echoed

/-- The link comes UP (R612, R613): replay resumes from the peer's expected number, or both directions restart at 0. -/
def trainingComplete (l : Link) : LinkAns :=
  match l.peerTrain with
  | some (peerFresh, _, _, expects) =>
    if trained l = false then (l, [])
    else
      let up := fun (l : Link) => { l with phase := 3, everUp := true, fresh := false, peerTrain := none, echoed := false, unacked := 0 }
      if peerFresh then
        let l' := dropOpen { l with replay := [], times := [], txNext := 0, expect := 0 }
        (up l', [.count 13 l.replay.length, .event 0])
      else if l.fresh then
        let l' := dropOpen { l with expect := 0, times := l.replay.map (fun _ => l.tick) }
        (up l', .event 0 :: l.replay.map (fun e => .send e.1 e.2))
      else
        let rest := l.replay.dropWhile (fun e => decide ((expects + 2 ^ 32 - e.1) % 2 ^ 32 ≤ 512) && e.1 != expects)
        let gone := (l.replay.take (l.replay.length - rest.length)).map (fun e => e.1)
        (up { l with replay := rest, times := rest.map (fun _ => l.tick) }, .acked gone :: .event 0 :: rest.map (fun e => .send e.1 e.2))
  | none => (l, [])

/-- A write of retrain (Table 14.10): training starts, on a link that is no longer waiting. -/
def retrain (l : Link) : LinkAns := if l.phase = 0 then (l, []) else startTraining l

end Sys2Proof.Machine
end

