-- ==== Sys2Proof/Machine/HostOps.lean ====
section
/-! DEFINITION. The named operations on the host die's state (chapters 14 and 16): registers, counters, MSI-X messages,
completions, event records and the sending of flow units. -/

namespace Sys2Proof.Machine

/-! ### Registers and counters -/

/-- What an unwritten host register reads as: its reset value (Table 23.20); the MSI-X table resets with every vector
masked. -/
def hostDefault (a : Nat) : Word :=
  if 0x1000000 ≤ a then
    word (if a % 0x40 = 0x04 then 0x00333000 else if a % 0x40 = 0x20 then 0x00010000 else 0)
  else if 0x4000 ≤ a % 0x10000 ∧ a % 0x10000 < 0x5000 then word (if a % 16 = 12 then 1 else 0)
  else if a = H_GLB_ID then word 0x0102A101
  else if a = H_XNG_CTRL then word 0x00101001
  else if a = H_FUN_FN_QP 0 then word 0x800
  else if a = H_FUN_FN_CFG 0 then word 0xF8000100
  else if a = H_INT_EVQ_CTRL then word 0x00030000
  else if a = H_INT_EVQ_MOD then word 0x00010000
  else if 0x6000 ≤ a ∧ a < 0x6100 ∧ a % 0x20 = 4 then word 0xFFFFFFFF
  else if a = H_PTB_ARM then word 0xFF
  else if a = H_PTB_EVT_INFO then word 0xFF000000
  else 0

/-- The word held at a host key. -/
def HostDie.rd (h : HostDie) (a : Nat) : Word := Store.get hostDefault h.reg a
/-- As `rd`, as a number. -/
def HostDie.rdN (h : HostDie) (a : Nat) : Nat := (h.rd a).toNat
/-- The host die with word `w` held at key `a`. -/
def HostDie.wr (h : HostDie) (a : Nat) (w : Word) : HostDie := { h with reg := Store.set hostDefault h.reg a w }
/-- As `wr`, the word given as a number. -/
def HostDie.wrN (h : HostDie) (a v : Nat) : HostDie := h.wr a (word v)
/-- The value of a register field. -/
def HostDie.get (h : HostDie) (r : Fld) : Nat := bitsOf (h.rdN r.addr) r.hi r.lo
/-- Whether a register field is not 0. -/
def HostDie.flag (h : HostDie) (r : Fld) : Bool := h.get r != 0
/-- The host die with the register field `r` at value `v`. -/
def HostDie.put (h : HostDie) (r : Fld) (v : Nat) : HostDie := h.wr r.addr (word (putBits (h.rdN r.addr) r.hi r.lo v))
/-- The register field `r` advanced by `n`, wrapping in its width. -/
def HostDie.bump (h : HostDie) (r : Fld) (n : Nat) : HostDie := h.put r (h.get r + n)

/-- Keys of the host counters (R801, R802): rx_no_match, counter `k` of the Crossing host end, counter `j` of global
queue pair `q`. -/
def hcNoMatch : Nat := 0
def hcXng (k : Nat) : Nat := 0x100 + k
def hcQp (q j : Nat) : Nat := 0x1000 + 8 * q + j

/-- A host counter's value. -/
def HostDie.cntAt (h : HostDie) (a : Nat) : Nat := Store.get (fun _ => 0) h.cnt a
/-- Advance a host counter by `n`; it wraps at 2^64 (R788). -/
def HostDie.countN (h : HostDie) (a n : Nat) : HostDie :=
  { h with cnt := Store.set (fun _ => 0) h.cnt a ((h.cntAt a + n) % 2 ^ 64) }
/-- Advance a host counter by 1. -/
def HostDie.count (h : HostDie) (a : Nat) : HostDie := h.countN a 1

/-- Record that the host die sent something. -/
def HostDie.emit (h : HostDie) (o : Output) : HostDie := { h with out := h.out ++ [o] }

/-- A value the spec leaves open, fresh at each use. -/
def HostDie.free (h : HostDie) : Nat × HostDie :=
  ((Config.freeValue h.freeCtr).toNat, { h with freeCtr := h.freeCtr + 1 })

/-! ### Functions (R671 to R674) -/

/-- Whether function `f` exists: the physical function, or a virtual function that VF Enable and NumVFs cover. -/
def fnExists (h : HostDie) (f : Nat) : Bool := f == 0 || (h.vfEnable && decide (f ≤ h.numVfs) && decide (f < 64))

/-- Whether function `f` owns global queue pair `q` (R672). -/
def ownsQp (h : HostDie) (f q : Nat) : Bool :=
  decide (h.get (H_FUN_FN_QP_qp_base f) ≤ q) && decide (q < h.get (H_FUN_FN_QP_qp_base f) + h.get (H_FUN_FN_QP_qp_count f))

/-- The function that owns global queue pair `q`. -/
def qpOwner (h : HostDie) (q : Nat) : Option Nat := (List.range 64).find? (fun f => ownsQp h f q)

/-- The global number of local queue pair `l` of function `f`, when the function owns it. -/
def globalQp (h : HostDie) (f l : Nat) : Option Nat :=
  if l < h.get (H_FUN_FN_QP_qp_count f) then some (h.get (H_FUN_FN_QP_qp_base f) + l) else none

/-- The local number of global queue pair `q` at function `f`. -/
def localQp (h : HostDie) (f q : Nat) : Nat := q - h.get (H_FUN_FN_QP_qp_base f)

/-- Whether the host die may reach host memory for function `f` (R668). -/
def busMaster (h : HostDie) (f : Nat) : Bool := h.bme.contains f

/-! ### MSI-X (R669, R707, R708) -/

/-- Key of word `w` of MSI-X vector `v` of function `f`. -/
def msixAddr (f v w : Nat) : Nat := f * 0x10000 + 0x4000 + 16 * v + 4 * w

/-- Whether a vector is masked: by its own mask bit or by the Function Mask. -/
def vectorMasked (h : HostDie) (f v : Nat) : Bool := hasBit (h.rdN (msixAddr f v 3)) 0 || h.msixMask.contains f

/-- Send the MSI-X message of vector `v` of function `f`: nothing for a vector the function does not have, without
Bus Master Enable, or without MSI-X Enable; the PBA bit for a masked vector. -/
def sendMsix (f v : Nat) (h : HostDie) : HostDie :=
  if h.get (H_FUN_FN_CFG_vec_count f) ≤ v ∨ busMaster h f = false ∨ f ∉ h.msixEn then h
  else if vectorMasked h f v then { h with msixPba := if 256 * f + v ∈ h.msixPba then h.msixPba else h.msixPba ++ [256 * f + v] }
  else h.emit (.msix (256 * f + v))

/-- A vector becomes unmasked: its pending message is sent (R669). -/
def flushPba (f v : Nat) (h : HostDie) : HostDie :=
  if 256 * f + v ∈ h.msixPba ∧ vectorMasked h f v = false then
    sendMsix f v { h with msixPba := h.msixPba.filter (fun x => x != 256 * f + v) }
  else h

/-- The moderation state of a queue pair, or of the event ring at 2048. -/
def HostDie.moder (h : HostDie) (q : Nat) : Moder := Store.get (fun _ => {}) h.mod q
def HostDie.setModer (h : HostDie) (q : Nat) (m : Moder) : HostDie := { h with mod := Store.set (fun _ => {}) h.mod q m }

/-! ### Rings (R676, R677, R705, R706) -/

/-- Entries of a ring from its size field. -/
def ringSize (k : Nat) : Nat := 2 ^ k

/-- The difference of two free-running counts. -/
def cntDiff (a b : Nat) : Nat := (a + 2 ^ 32 - b) % 2 ^ 32

/-- Base of the completion ring of queue pair `q`. -/
def cqBase (h : HostDie) (q : Nat) : Nat := h.rdN (H_FUN_Q_CQBASE_LO q) + 2 ^ 32 * h.rdN (H_FUN_Q_CQBASE_HI q)

/-- Entries of the completion ring of queue pair `q`. -/
def cqSize (h : HostDie) (q : Nat) : Nat := ringSize (h.get (H_FUN_Q_CTRL_cq_size q))

/-- Free entries of the completion ring of queue pair `q`. -/
def cqFree (h : HostDie) (q : Nat) : Nat := cqSize h q - cntDiff (h.rdN (H_FUN_Q_CQTAIL q)) (h.rdN (H_FUN_Q_CQHEAD q))

/-- Phase bit of the entry of count `n` in a ring of `size` entries (R706). -/
def phaseOf (n size : Nat) : Nat := if (n / size) % 2 = 0 then 1 else 0

/-- A 32-byte ring entry from eight words. -/
def entryBytes (ws : List Nat) : List Byte := fitBytes 32 (ws.flatMap bytesLE)

/-- The contents of a completion (Table 16.6). -/
structure Completion where
  cookie : Nat := 0
  kind : Nat := 1
  status : Nat := 0
  count : Nat := 1
  length : Nat := 0
  value : Nat := 0
  info : Nat := 0
  tsLow : Nat := 0
  now : Bool := false                       -- the frame asked for its interrupt at once
deriving DecidableEq, Repr

/-- The eight words of a completion with its phase bit. -/
def Completion.words (c : Completion) (phase : Nat) : List Nat :=
  [c.cookie, c.kind * 2 ^ 28 + c.status * 2 ^ 24 + c.count * 2 ^ 20 + c.length, c.value % 2 ^ 32, c.value / 2 ^ 32 % 2 ^ 32,
   c.info, c.tsLow, 0, phase * 2 ^ 31]

/-- Write a completion of queue pair `q` (R705), and count it for the moderation (R707). -/
def pushCompletion (q : Nat) (c : Completion) (h : HostDie) : HostDie :=
  let t := h.rdN (H_FUN_Q_CQTAIL q)
  let n := cqSize h q
  let h := h.emit (.hostWrite (cqBase h q + 32 * (t % n)) (entryBytes (c.words (phaseOf t n))))
  let h := h.wrN (H_FUN_Q_CQTAIL q) ((t + 1) % 2 ^ 32)
  let m := h.moder q
  h.setModer q { count := m.count + 1, since := if m.count = 0 then h.xng.tick else m.since, now := m.now || c.now }

/-! ### Event records (R709, R710) -/

/-- Set a flag of a host SQ register; seq advances (R252, R254). -/
def HostDie.setFlag (h : HostDie) (a bit : Nat) : HostDie :=
  let w := h.rdN a
  h.wrN a (putBits (setBit w bit) 31 16 (seqStep (bitsOf w 31 16)))

/-- Entries of the event ring. -/
def evqSize (h : HostDie) : Nat := ringSize (h.get H_INT_EVQ_CTRL_size)

/-- Whether the event ring takes another record. -/
def evqRoom (h : HostDie) : Bool :=
  h.flag H_INT_EVQ_CTRL_en && busMaster h 0 && decide (cntDiff (h.rdN H_INT_EVQ_TAIL) (h.rdN H_INT_EVQ_HEAD) < evqSize h)

/-- Write an event record of four words (Table 16.7); one that finds the ring full or disabled is discarded and counted,
and evq_lost is set without a record of its own. -/
def writeRecord (ws : List Nat) (lost host : Bool) (h : HostDie) : HostDie :=
  if evqRoom h then
    let t := h.rdN H_INT_EVQ_TAIL
    let n := evqSize h
    let w4 := (if lost || h.evLost then 2 ^ 31 else 0) + (if host then 2 ^ 30 else 0)
    let base := h.rdN H_INT_EVQ_BASE_LO + 2 ^ 32 * h.rdN H_INT_EVQ_BASE_HI
    let h := h.emit (.hostWrite (base + 32 * (t % n))
      (entryBytes ([ws.getD 0 0, ws.getD 1 0, ws.getD 2 0, ws.getD 3 0, w4, 0, 0, phaseOf t n * 2 ^ 31])))
    let h := { h.wrN H_INT_EVQ_TAIL ((t + 1) % 2 ^ 32) with evLost := false }
    let m := h.moder 2048
    h.setModer 2048 { m with count := m.count + 1, since := if m.count = 0 then h.xng.tick else m.since }
  else
    ({ h with evLost := true }.bump ⟨H_INT_EVQ_LOST, 31, 0⟩ 1).setFlag (H_FUN_EVT 0) 6

/-- The EVT_INFO register that goes with a host SQ register, if its block has one. -/
def hostInfo (a : Nat) : Option Nat :=
  if a = H_XNG_EVT ∨ a = H_FLT_EVT ∨ a = H_PTB_EVT ∨ a % 0x10000 = 0x30F0 then some (a + 4) else none

/-- Hardware sets a host SQ flag: an event record follows (R709), and a virtual function's own flag sends its message
to ev_vector at once. -/
def HostDie.raise (h : HostDie) (a bit : Nat) : HostDie :=
  let h := h.setFlag a bit
  let info := match hostInfo a with
    | some i => h.rdN i
    | none => 0
  let h := writeRecord [0x01000000 + a % 0x10000, bitsOf (h.rdN a) 31 16 * 2 ^ 16 + 2 ^ bit, info, 0] false true h
  let f := a / 0x10000
  if 0 < f ∧ f < 64 ∧ a % 0x10000 = 0x30F0 then sendMsix f (h.get (H_FUN_ECFG_ev_vector f)) h else h

/-- Raise a queue event of function `f`, with its local queue pair or the like recorded. -/
def funEvent (f bit qp : Nat) (h : HostDie) : HostDie := (h.put (H_FUN_EVT_INFO_qp f) qp).raise (H_FUN_EVT f) bit

/-! ### Host faults (chapter 21) -/

/-- host_local reads `v` (R584): the count of PCIE_REFCLK, which the command brings, starts at 0 when PERST_N rises and
never runs back (log 131). -/
def HostDie.readLocal (h : HostDie) (v : Nat) : HostDie := { h with localNs := max h.localNs (v % 2 ^ 64) }

/-- The level of FAULT_H: high while the host die runs with no fault latched in H_FLT_EVT, low at all other times, its
reset included (R53, R88, R820). -/
def HostDie.faultH (h : HostDie) : Bool := !h.inReset && h.rdN H_FLT_EVT % 65536 == 0

/-- The value of H_FLT_COVER that the present state gives (Table 21.11). -/
def hostCover (h : HostDie) : Nat :=
  (if h.ptb.active = 0 then 0 else 1) +
  (if h.flag H_XNG_CTRL_spare_en && !h.xng.rxSpareBad && !h.xng.txSpareBad then 0 else 2)

/-! ### Sending (R598, R603, R622) -/

/-- Whether H_PTB_LANE disturbs the blocks of the Crossing host end in one direction (Table 22.2). -/
def HostDie.laneNoise (h : HostDie) (dir : Nat) : Bool :=
  decide (2 ≤ h.get H_PTB_LANE_mode) && h.get H_PTB_LANE_dir == dir &&
    laneUsed (if dir = 1 then h.xng.txFailed else h.xng.rxFailed) (h.get H_PTB_LANE_lane)

/-- A unit goes out whole under its seed. -/
def HostDie.emitUnit (h : HostDie) (seed : Nat) (u : FlowUnit) : HostDie :=
  (h.emit (.unit .host seed u)).emit (.slot .host (slotLanes h.xng.txFailed (u.bytes seed)))

/-- Put a unit into a slot from the host end; perturbation may spoil it, as at the field end. -/
def HostDie.putUnit (h : HostDie) (seed : Nat) (u : FlowUnit) : HostDie :=
  let h := h.count (hcXng 0)
  if h.xng.corruptTx && seed != unseqSeed then
    { h with xng := { h.xng with corruptTx := false } }.emit (.corruptUnit .host u)
  else if h.laneNoise 1 then
    let (v, h) := h.free
    if v % 2 = 1 then h.emit (.corruptUnit .host u) else h.emitUnit seed u
  else h.emitUnit seed u

/-- Send a new sequenced unit on the Crossing from the host end. -/
def HostDie.sendXng (h : HostDie) (u : FlowUnit) : HostDie :=
  { h with xng := h.xng.sent u }.putUnit h.xng.txNext u

/-- Send an unsequenced control unit from the host end. -/
def HostDie.ctrlXng (h : HostDie) (u : FlowUnit) : HostDie := h.putUnit unseqSeed u

/-- Writes held in the hold queue (R631). -/
def heldWrites (h : HostDie) : Nat := h.holdq.foldl (fun n m => n + m.writes) 0

end Sys2Proof.Machine
end

