-- ==== Sys2Proof/Machine/Engines.lean ====
section
/-! DEFINITION. The check-value engines (chapter 17), the CRC-16 that serial WRITEs share with them (R746), and the sending of what
the host end has ready. -/

namespace Sys2Proof.Machine

/-- One bit of a check that is not reflected, over `n` bits. -/
def crcUpBit (n poly c : Nat) : Nat :=
  if hasBit c (n - 1) then Nat.xor ((2 * c) % 2 ^ n) poly else (2 * c) % 2 ^ n

/-- One byte of a check that is not reflected. -/
def crcUpByte (n poly c : Nat) (b : Byte) : Nat :=
  let u := crcUpBit n poly
  u (u (u (u (u (u (u (u (Nat.xor c (b.toNat * 2 ^ (n - 8))))))))))

/-- The initial value of polynomial `p` (Table 17.1). -/
def chkInit (p : Nat) : Nat := if p = 0 ∨ p = 1 then 0xFFFFFFFF else if p = 2 then 0xFFFF else 0

/-- The final exclusive-OR of polynomial `p` (Table 17.1). -/
def chkXor (p : Nat) : Nat := if p = 0 ∨ p = 1 then 0xFFFFFFFF else 0

/-- The running value of polynomial `p` after the bytes `bs`, from the value `c` (R721). -/
def chkRun (p c : Nat) (bs : List Byte) : Nat :=
  if p = 0 then crcRun polyFcs c bs
  else if p = 1 then crcRun polyC c bs
  else if p = 2 then bs.foldl (crcUpByte 16 0x1021) c
  else bs.foldl (crcUpByte 64 0x42F0E1EBA9EA3693) c

/-- The CRC-16 of a serial WRITE (R746). -/
def crc16 (bs : List Byte) : Nat := chkRun 2 0xFFFF bs

/-- The running value of engine `n`. -/
def engineRun (h : HostDie) (n : Nat) : Nat := h.rdN (H_CHK_RUN_LO n) + 2 ^ 32 * h.rdN (H_CHK_RUN_HI n)

/-- The width of polynomial `p` in bits (Table 17.1). -/
def chkWidth (p : Nat) : Nat := if p = 2 then 16 else if p = 3 then 64 else 32

/-- Set the running value of engine `n`, and the finished value that its registers show: the bits above the polynomial's
width read 0 (R722). -/
def setEngine (n v : Nat) (h : HostDie) : HostDie :=
  let v := v % 2 ^ chkWidth (h.get (H_CHK_CTRL_poly n))
  let fin := Nat.xor v (chkXor (h.get (H_CHK_CTRL_poly n)))
  (((h.wrN (H_CHK_RUN_LO n) (v % 2 ^ 32)).wrN (H_CHK_RUN_HI n) (v / 2 ^ 32 % 2 ^ 32)).wrN
    (H_CHK_FIN_LO n) (fin % 2 ^ 32)).wrN (H_CHK_FIN_HI n) (fin / 2 ^ 32 % 2 ^ 32)

/-- A frame that starts on the Crossing is computed (R724 to R726, R729): its value and the engine's next running value
are known at once; the engine takes them when the computation ends. -/
def chkCompute (x : TxFrame) (h : HostDie) : TxFrame × HostDie :=
  match x.chk with
  | none => (x, h)
  | some (n, start, mode) =>
    let p := h.get (H_CHK_CTRL_poly n)
    let seed := if hasBit mode 0 then engineRun h n else chkInit p
    let bytes := (x.bytes.take x.covered).drop start
    let v := chkRun p seed bytes
    ({ x with value := Nat.xor v (chkXor p), chkNew := v, chkBytes := bytes.length }, h.put (H_CHK_CTRL_busy n) 1)

/-- The computation of a frame ends: the engine takes the new running value, or the one written meanwhile (R733). -/
def chkEnd (x : TxFrame) (h : HostDie) : HostDie :=
  match x.chk with
  | none => h
  | some (n, _, _) =>
    let h := setEngine n (x.chkWrite.getD x.chkNew) (h.put (H_CHK_CTRL_busy n) 0)
    (h.bump ⟨H_CHK_FRAMES n, 31, 0⟩ 1).bump ⟨H_CHK_BYTES n, 31, 0⟩ x.chkBytes

/-- A frame aborted by a reset leaves its engine as it stood before it (R731); a running value written meanwhile
takes effect. -/
def chkUndo (x : TxFrame) (h : HostDie) : HostDie :=
  match x.chk with
  | none => h
  | some (n, _, _) =>
    let h := h.put (H_CHK_CTRL_busy n) 0
    match x.chkWrite with
    | some v => setEngine n v h
    | none => h

/-- An FLR of an engine's owner (R734). -/
def resetEngine (n : Nat) (h : HostDie) : HostDie := setEngine n (chkInit (h.get (H_CHK_CTRL_poly n))) (h.put (H_CHK_CTRL_hold n) 0)

/-! ### What the host end has ready (R622) -/

/-- The last unit of a frame has been sent: its computation ends, it is counted, it waits for its ACK, and a ring that
was disabled meanwhile has stopped (R679, R691). An aborted frame leaves nothing behind (R711). -/
def frameCrossed (x : TxFrame) (seq : Nat) (h : HostDie) : HostDie :=
  if x.dead then h
  else
    let h := ((chkEnd x h).count (hcQp x.qp 0)).countN (hcQp x.qp 1) x.bytes.length
    let h := { h with crossing := h.crossing ++ [{ x with unitsLeft := [], lastSeq := some seq }] }
    if h.flag (H_FUN_Q_CTRL_tx_en x.qp) then h else h.put (H_FUN_Q_STAT_stopped x.qp) 1

/-- Send the next unit of the frame in progress. -/
def sendFrameUnit (x : TxFrame) (h : HostDie) : HostDie :=
  match x.unitsLeft with
  | [] => { h with sending := none }
  | u :: us =>
    let seq := h.xng.txNext
    let h := h.sendXng u
    if us = [] then frameCrossed x seq { h with sending := none } else { h with sending := some { x with unitsLeft := us } }

/-- Send what the host end has ready, as far as the link permits: the frame in progress, then register messages and
announcements in issue order (R622, R628). -/
def pumpHost : Nat → HostDie → HostDie
  | 0, h => h
  | k + 1, h =>
    if !h.xng.canSend then h
    else match h.sending with
      | some x => pumpHost k (sendFrameUnit x h)
      | none => match h.holdq with
        | m :: ms => pumpHost k ({ h with holdq := ms }.sendXng m.unit)
        | [] => h


end Sys2Proof.Machine
end

