-- ==== Sys2Proof/Machine/Rings.lean ====
section
/-! DEFINITION. Rings, doorbells, transmission, delivery, interrupts and resets of the host die (chapter 16), and the
check-value engines' registers (chapter 17). -/

namespace Sys2Proof.Machine

/-! ### Completions in frame order (R688, R689, R691, R692) -/

/-- Whether a completion of queue pair `q` can be written. -/
def cqRoom (h : HostDie) (q : Nat) : Bool :=
  h.flag (H_FUN_Q_CTRL_cq_en q) && decide (0 < cqFree h q) &&
  (match qpOwner h q with
    | some f => busMaster h f
    | none => false)

/-- The completion of a transmit frame. -/
def txCompletion (x : TxFrame) : Completion :=
  { cookie := x.cookie, kind := 1, status := x.status, count := min x.descs 8,
    length := if x.status = 0 then x.bytes.length else 0, value := x.value, info := x.tsId, now := x.irq }

/-- Raise a queue event for global queue pair `q`. -/
def qpEvent (q bit : Nat) (h : HostDie) : HostDie :=
  match qpOwner h q with
  | some f => funEvent f bit (localQp h f q) h
  | none => h

/-- The transmit ring of `q` stops with an error (R689). -/
def dmaStop (q : Nat) (h : HostDie) : HostDie :=
  let h := ((h.put (H_FUN_Q_STAT_stopped q) 1).put (H_FUN_Q_STAT_error q) 1).put (H_FUN_Q_STAT_err_code q) 1
  qpEvent q 2 { h with ready := h.ready.filter (fun x => x.qp != q) }

/-- The oldest crossed frame whose completion is due: acknowledged, first of its ring, with room for it. -/
def dueCrossed (h : HostDie) : Option TxFrame :=
  h.crossing.find? (fun x => x.acked && cqRoom h x.qp &&
    (h.crossing.find? (fun y => y.qp == x.qp)) == some x)

/-- The fetched frame that ends with BAD_DESC or DMA_ERROR and is next in its ring, with room for its completion. -/
def dueBad (h : HostDie) : Option TxFrame :=
  h.ready.find? (fun x => x.status != 0 && cqRoom h x.qp &&
    (h.ready.find? (fun y => y.qp == x.qp)) == some x &&
    !h.crossing.any (fun y => y.qp == x.qp) && !(h.sending.any (fun y => y.qp == x.qp)))

/-- Write the transmit completions that are due, in frame order within each ring. -/
def pumpCompletions : Nat → HostDie → HostDie
  | 0, h => h
  | k + 1, h =>
    match dueCrossed h with
    | some x => pumpCompletions k (pushCompletion x.qp (txCompletion x) { h with crossing := h.crossing.erase x })
    | none =>
      match dueBad h with
      | some x =>
        let h := { h with ready := h.ready.erase x }
        let h := h.wrN (H_FUN_Q_TXHEAD x.qp) ((h.rdN (H_FUN_Q_TXHEAD x.qp) + x.descs) % 2 ^ 32)
        let h := pushCompletion x.qp (txCompletion x) h
        pumpCompletions k (if x.status = 2 then dmaStop x.qp h else h)
      | none => h

/-- What every command on the host die ends with: ready units leave, completions are written, H_FLT_COVER follows. -/
def settleHost (h : HostDie) : HostDie :=
  if h.inReset then h
  else
    let h := pumpHost 600 h
    let h := pumpCompletions (h.crossing.length + h.ready.length) h
    h.put H_FLT_COVER_cover (hostCover h)

/-- The host die at the present fine tick, by which the model measures the host end's intervals. -/
def State.hostNow (s : State) : HostDie := { s.hst with xng := { s.hst.xng with tick := s.fld.now } }

/-- A command on the host die alone, without effect while it is held in reset. -/
def State.onHost (s : State) (g : HostDie → HostDie) : Host.Outcome State Fault Refusal :=
  .next { s with hst := settleHost (if s.hst.inReset then s.hst else g s.hostNow) }

/-- As `onHost`, for a function that exists. -/
def State.onFn (s : State) (f : Nat) (g : HostDie → HostDie) : Host.Outcome State Fault Refusal :=
  s.onHost (fun h => if fnExists h f then g h else h)

/-! ### Doorbells (R681, R682, Table 16.2) -/

/-- The judgement of a doorbell value. -/
inductive Bell
  | same | stale | overrun | accept
deriving DecidableEq, Repr

/-- A transmit or receive tail: `t` the tail, `h` the head, `size` the ring's entries. -/
def judgeTail (v t h size : Nat) : Bell :=
  if v = t then .same else if 2 ^ 31 ≤ cntDiff v t then .stale else if size < cntDiff v h then .overrun else .accept

/-- A completion head: `t` the head, `tail` the completion tail. -/
def judgeHead (v t tail : Nat) : Bell :=
  if v = t then .same else if 2 ^ 31 ≤ cntDiff v t then .stale else if 2 ^ 31 ≤ cntDiff tail v then .overrun else .accept

/-- What a doorbell does once judged: `a` is the register it moves. -/
def ringBell (f l q a v : Nat) (b : Bell) (h : HostDie) : HostDie :=
  match b with
  | .same => h
  | .stale => h.count (hcQp q 4)
  | .overrun => funEvent f 1 l h
  | .accept => h.wrN a v

/-- A doorbell of local queue pair `l` of function `f`; `en` is its ring's enable. -/
def doorbell (f l : Nat) (en : Nat → Fld) (g : Nat → HostDie → HostDie) (h : HostDie) : HostDie :=
  match globalQp h f l with
  | none => funEvent f 0 l h
  | some q => if h.flag (en q) then g q h else h.count (hcQp q 4)

/-- A write to the transmit tail doorbell. -/
def txBell (f l v : Nat) (h : HostDie) : HostDie :=
  doorbell f l H_FUN_Q_CTRL_tx_en (fun q h =>
    ringBell f l q (H_FUN_Q_TXTAIL q) v (judgeTail v (h.rdN (H_FUN_Q_TXTAIL q)) (h.rdN (H_FUN_Q_TXHEAD q)) (ringSize (h.get (H_FUN_Q_CTRL_tx_size q)))) h) h

/-- A write to the receive tail doorbell. -/
def rxBell (f l v : Nat) (h : HostDie) : HostDie :=
  doorbell f l H_FUN_Q_CTRL_rx_en (fun q h =>
    ringBell f l q (H_FUN_Q_RXTAIL q) v (judgeTail v (h.rdN (H_FUN_Q_RXTAIL q)) (h.rdN (H_FUN_Q_RXHEAD q)) (ringSize (h.get (H_FUN_Q_CTRL_rx_size q)))) h) h

/-- A write to the completion head doorbell. -/
def cqBell (f l v : Nat) (h : HostDie) : HostDie :=
  doorbell f l H_FUN_Q_CTRL_cq_en (fun q h =>
    ringBell f l q (H_FUN_Q_CQHEAD q) v (judgeHead v (h.rdN (H_FUN_Q_CQHEAD q)) (h.rdN (H_FUN_Q_CQTAIL q))) h) h

/-- TX_TAIL_DOORBELL (R681). -/
def execTxTailDoorbell (f ring : Nat) (data : Word) (s : State) : Host.Outcome State Fault Refusal := s.onFn f (txBell f ring data.toNat)

/-- RX_TAIL_DOORBELL (R681). -/
def execRxTailDoorbell (f ring : Nat) (data : Word) (s : State) : Host.Outcome State Fault Refusal := s.onFn f (rxBell f ring data.toNat)

/-- CQ_HEAD_DOORBELL (R681). -/
def execCqHeadDoorbell (f ring : Nat) (data : Word) (s : State) : Host.Outcome State Fault Refusal := s.onFn f (cqBell f ring data.toNat)

/-! ### Ring and function registers (R674, R678 to R680) -/

/-- A ring is written enabled: its counts return to 0 where it was disabled. -/
def startRing (was now_ : Bool) (head tail : Nat) (h : HostDie) : HostDie :=
  if !was && now_ then (h.wrN head 0).wrN tail 0 else h

/-- The size field that a write leaves: kept while its ring is enabled. -/
def keepSize (on : Bool) (old new hi lo : Nat) : Nat := if on then putBits new hi lo (bitsOf old hi lo) else new

/-- A geometry write that an enabled ring refuses (R678). -/
def geometryRefused (q : Nat) (h : HostDie) : HostDie := qpEvent q 2 (h.put (H_FUN_Q_STAT_err_code q) 2)

/-- A write of H_FUN_Q_CTRL of global queue pair `q` (R678 to R680). -/
def writeQCtrl (q data : Nat) (h : HostDie) : HostDie :=
  let old := h.rdN (H_FUN_Q_CTRL q)
  let tx := hasBit old 31
  let rx := hasBit old 30
  let cq := hasBit old 29
  let w := keepSize cq old (keepSize rx old (keepSize tx old data 23 20) 19 16) 15 12
  let refused := w != data
  let w := Nat.land w 0xE1FFF7FF
  let h := h.wrN (H_FUN_Q_CTRL q) w
  let h := startRing tx (hasBit w 31) (H_FUN_Q_TXHEAD q) (H_FUN_Q_TXTAIL q) h
  let h := startRing rx (hasBit w 30) (H_FUN_Q_RXHEAD q) (H_FUN_Q_RXTAIL q) h
  let h := startRing cq (hasBit w 29) (H_FUN_Q_CQHEAD q) (H_FUN_Q_CQTAIL q) h
  let h := if !tx && hasBit w 31 then
      ((h.put (H_FUN_Q_STAT_stopped q) 0).put (H_FUN_Q_STAT_error q) 0).put (H_FUN_Q_STAT_err_code q) 0 else h
  let h := if (hasBit w 31 || hasBit w 30) && !hasBit w 29 then
      qpEvent q 2 ((h.put (H_FUN_Q_STAT_stopped q) 1).put (H_FUN_Q_STAT_err_code q) 3)
    else if !cq && hasBit w 29 && h.get (H_FUN_Q_STAT_err_code q) == 3 then
      (h.put (H_FUN_Q_STAT_stopped q) 0).put (H_FUN_Q_STAT_err_code q) 0
    else h
  let h := if tx && !hasBit w 31 then
      let h := { h with ready := h.ready.filter (fun x => x.qp != q) }
      if h.sending.any (fun x => x.qp == q) then h else h.put (H_FUN_Q_STAT_stopped q) 1
    else h
  if refused then geometryRefused q h else h

/-- RING_ENABLE_WRITE (R678): a write of H_FUN_Q_CTRL of the queue pair that the function has selected. -/
def execRingEnableWrite (f : Nat) (data : Word) (s : State) : Host.Outcome State Fault Refusal :=
  s.onFn f (fun h => match globalQp h f (h.get (H_FUN_QSEL_qsel f)) with
    | some q => writeQCtrl q data.toNat h
    | none => h)

/-- Whether some ring of function `f` is enabled. -/
def fnRingsOn (h : HostDie) (f : Nat) : Bool :=
  h.reg.any (fun e => decide (0x1000000 ≤ e.1) && e.1 % 0x40 == 4 && ownsQp h f ((e.1 - 0x1000000) / 0x40) && bitsOf e.2.toNat 31 29 != 0)

/-- Whether a new queue-pair range of function `t` is refused (R674). -/
def qpRangeBad (h : HostDie) (t base count : Nat) : Bool :=
  decide (2048 < base + count) ||
  (List.range 64).any (fun g => g != t && decide (0 < count) && decide (0 < h.get (H_FUN_FN_QP_qp_count g)) &&
    decide (base < h.get (H_FUN_FN_QP_qp_base g) + h.get (H_FUN_FN_QP_qp_count g)) && decide (h.get (H_FUN_FN_QP_qp_base g) < base + count)) ||
  ((base != h.get (H_FUN_FN_QP_qp_base t) || count != h.get (H_FUN_FN_QP_qp_count t)) && fnRingsOn h t)

/-- Whether a new vec_count of function `t` is refused (R673, R674). -/
def vecCountBad (h : HostDie) (t n : Nat) : Bool :=
  decide (256 < n) ||
  decide (2048 < (List.range 64).foldl (fun a g => a + (if g = t then n else h.get (H_FUN_FN_CFG_vec_count g))) 0) ||
  (t != 0 && h.vfEnable && n != h.get (H_FUN_FN_CFG_vec_count t))

/-- A write of H_FUN_FN_f_QP or H_FUN_FN_f_CFG of function `t` (R674). -/
def writeFnConfig (t : Nat) (cfg : Bool) (data : Nat) (h : HostDie) : HostDie :=
  let bad := if cfg then vecCountBad h t (bitsOf data 8 0) else qpRangeBad h t (bitsOf data 26 16) (bitsOf data 11 0)
  if bad then funEvent 0 3 t h
  else if cfg then h.wrN (H_FUN_FN_CFG t) (Nat.land data 0xFFFF01FF)
  else h.wrN (H_FUN_FN_QP t) (Nat.land data 0x07FF0FFF)

/-- FUNCTION_CONFIG_WRITE (R674): only the physical function reaches these registers (R671). -/
def execFunctionConfigWrite (f target : Nat) (cfg : Bool) (data : Word) (s : State) : Host.Outcome State Fault Refusal :=
  s.onFn f (fun h => if f = 0 ∧ target < 64 then writeFnConfig target cfg data.toNat h else h)

/-! ### Steering (R698 to R700) -/

/-- Word `w` of steering entry `i`. -/
def steerWord (h : HostDie) (i w : Nat) : Nat := h.rdN (H_FUN_STEER (4 * i + w))

/-- The address of steering entry `i`. -/
def steerMac (h : HostDie) (i : Nat) : Nat := bitsOf (steerWord h i 0) 15 0 * 2 ^ 32 + steerWord h i 1

/-- The valid steering entry for an address. -/
def steerFind (h : HostDie) (da : Nat) : Option Nat :=
  (List.range 64).find? (fun i => hasBit (steerWord h i 0) 31 && steerMac h i == da)

/-- A write of word `w` of steering entry `i` (R285, R286, R700). -/
def writeSteer (i w data : Nat) (h : HostDie) : HostDie :=
  let live := hasBit (steerWord h i 0) 31
  let a := H_FUN_STEER (4 * i + w)
  if w = 0 then
    if !hasBit data 31 then h.wrN a (Nat.land data 0x003FFFFF)
    else if live then h
    else
      let fn := bitsOf data 21 16
      let mac := bitsOf data 15 0 * 2 ^ 32 + steerWord h i 1
      let ok := steerFind h mac == none &&
        decide (bitsOf (steerWord h i 2) 26 16 + 2 ^ bitsOf (steerWord h i 2) 1 0 - 1 < h.get (H_FUN_FN_QP_qp_count fn))
      if ok then h.wrN a (Nat.land data 0x803FFFFF) else funEvent 0 4 0 (h.wrN a (Nat.land data 0x003FFFFF))
  else if live then h
  else if w = 1 then h.wrN a data
  else if w = 2 then h.wrN a (Nat.land data 0x07FF0003)
  else h

/-- STEERING_ENTRY_WRITE (R700): a word of the steering table at BAR0 offset `off`. -/
def execSteeringEntryWrite (f off : Nat) (data : Word) (s : State) : Host.Outcome State Fault Refusal :=
  s.onFn f (fun h => if f = 0 ∧ 0x2400 ≤ off ∧ off < 0x2800 ∧ off % 4 = 0 then
    writeSteer ((off - 0x2400) / 16) (off / 4 % 4) data.toNat h else h)

/-! ### Transmit (R684 to R692) -/

/-- Fields of a transmit descriptor (Table 16.3): the word at byte offset 4 × `k`. -/
def descLen (d : List Byte) : Nat := bitsOf (wordAt d 2) 15 0

/-- Whether the descriptors of a frame are bad (R688); `winOk` is the further test of their buffers, `chkBad` the one of
the engine fields, `directedOk` R675. -/
def badDescs (ds : List (List Byte)) (directedOk : Bool) (chkBad : Nat → Nat → Nat → Bool) : Bool :=
  match ds with
  | [] => true
  | d :: later =>
    let w := wordAt d 2
    let total := (ds.map descLen).sum
    ds.any (fun x => descLen x == 0) || decide (2044 < total) || decide (8 < ds.length) ||
    bitsOf w 31 26 != 0 || hasBit w 20 || bitsOf (wordAt d 3) 29 27 != 0 || bitsOf (wordAt d 6) 31 17 != 0 ||
    later.any (fun x => bitsOf (wordAt x 2) 31 17 != 0 || wordAt x 3 != 0 || wordAt x 4 != 0 || wordAt x 5 != 0 ||
      wordAt x 6 != 0 || wordAt x 7 != 0) ||
    (hasBit w 19 && (bitsOf (wordAt d 6) 15 0 == 0 || !directedOk)) ||
    (hasBit w 24 && chkBad (bitsOf w 23 21) (bitsOf (wordAt d 3) 26 16) total)

/-- The frame that buffers of `data` make: padded to 60 bytes, with its FCS (R687). -/
def frameBytes (data : List Byte) : List Byte :=
  let b := if data.length < 60 then fitBytes 60 data else data
  b ++ bytesLE (fcs32 b)

/-- The attribute block of a frame (Table 16.4) from its first descriptor. -/
def attrBytes (d : List Byte) (req : Nat) : List Byte :=
  let w := wordAt d 2
  let launch := if hasBit w 18 then bytesLE (wordAt d 4) ++ bytesLE (wordAt d 5) else List.replicate 8 0
  let flags := bitOf w 18 + 2 * bitOf w 17 + 4 * bitOf w 19
  launch ++ (bytesLE (bitsOf (wordAt d 3) 15 0)).take 2 ++ [BitVec.ofNat 8 flags, BitVec.ofNat 8 req] ++
    (bytesLE (bitsOf (wordAt d 6) 16 0)).take 3 ++ [0]

/-- Descriptors of queue pair `q` that fetched frames hold already. -/
def readyDescs (h : HostDie) (q : Nat) : Nat := ((h.ready.filter (fun x => x.qp == q)).map (fun x => x.descs)).sum

/-- Descriptors posted on queue pair `q` beyond those fetched. -/
def postedTx (h : HostDie) (q : Nat) : Nat :=
  cntDiff (h.rdN (H_FUN_Q_TXTAIL q)) (h.rdN (H_FUN_Q_TXHEAD q)) - readyDescs h q

/-- Whether the host die fetches for queue pair `q` of function `f` (R668, R680, R689). -/
def mayFetch (h : HostDie) (f q : Nat) : Bool :=
  busMaster h f && h.dstate == 0 && h.flag (H_FUN_Q_CTRL_tx_en q) && h.flag (H_FUN_Q_CTRL_cq_en q) && !h.flag (H_FUN_Q_STAT_stopped q) &&
  !h.ready.any (fun x => x.qp == q && x.status == 2)

/-- Whether the engine fields of a descriptor of function `f` break R727. -/
def chkBad (h : HostDie) (f n start total : Nat) : Bool := h.get (H_CHK_CTRL_owner n) != f || decide (total ≤ start)

/-- The frame that descriptors and data of queue pair `q` of function `f` make. -/
def fetchedFrame (h : HostDie) (f q : Nat) (ds : List (List Byte)) (data : List Byte) : TxFrame :=
  let d := ds.headD []
  let w := wordAt d 2
  let total := (ds.map descLen).sum
  let bad := badDescs ds (h.flag (H_FUN_FN_CFG_directed_ok f)) (chkBad h f)
  { qp := q, descs := ds.length, status := if bad then 1 else 0, cookie := wordAt d 7, tsId := bitsOf (wordAt d 3) 15 0,
    irq := hasBit w 25, attrs := attrBytes d f, bytes := frameBytes (fitBytes total data), covered := total,
    chk := if hasBit w 24 then some (bitsOf w 23 21, bitsOf (wordAt d 3) 26 16, bitsOf (wordAt d 3) 31 30) else none }

/-- Whether descriptors are those of one whole frame: eop stands in the last of them and in no other (R684). -/
def wholeFrame (ds : List (List Byte)) : Bool :=
  match ds.getLast? with
  | some d => hasBit (wordAt d 2) 16 && ds.dropLast.all (fun x => !hasBit (wordAt x 2) 16)
  | none => false

/-- TX_FETCH_DONE (R684): all descriptors of a frame, up to its eop descriptor, and all of its data are fetched. -/
def txFetchDone (q : Nat) (ds : List (List Byte)) (data : List Byte) (h : HostDie) : HostDie :=
  match qpOwner h q with
  | some f =>
    if mayFetch h f q ∧ wholeFrame ds ∧ ds.length ≤ postedTx h q then { h with ready := h.ready ++ [fetchedFrame h f q ds data] } else h
  | none => h

def execTxFetchDone (qp : Nat) (descs : List (List Byte)) (data : List Byte) (s : State) : Host.Outcome State Fault Refusal :=
  s.onHost (txFetchDone qp descs data)

/-- DMA_ERROR (R689): a descriptor or buffer read of queue pair `qp` failed; `cookie` is that of the frame's first
descriptor, 0 when it could not be read. -/
def execDmaError (qp cookie : Nat) (s : State) : Host.Outcome State Fault Refusal :=
  s.onHost (fun h => match qpOwner h qp with
    | some f =>
      if mayFetch h f qp ∧ 0 < postedTx h qp then
        { h with ready := h.ready ++ [{ qp := qp, descs := 1, status := 2, cookie := cookie % 2 ^ 32 }] }
      else h
    | none => h)

/-- Cut a list into pieces of at most 56 bytes. -/
def chunk56 : Nat → List Byte → List (List Byte)
  | 0, _ => []
  | k + 1, bs => if bs.length ≤ 56 then [bs] else bs.take 56 :: chunk56 k (bs.drop 56)

/-- The DATA units of a payload (Table 14.5); `meta` gives the meta field of unit `i`. -/
def dataUnits (payload : List Byte) (meta_ : Nat → Nat) : List FlowUnit :=
  let cs := chunk56 (payload.length + 1) payload
  (List.range cs.length).map (fun i =>
    let c := cs.getD i []
    { header := 0x10000000 + (if i = 0 then 2 ^ 27 else 0) + (if i + 1 = cs.length then 2 ^ 26 else 0) + c.length * 2 ^ 19 + meta_ i,
      payload := c })

/-- The next frame of a ring, when the ring counts as holding a whole frame ready (R685, R692, R732). -/
def ringNext (h : HostDie) (q : Nat) : Option TxFrame :=
  match h.ready.find? (fun x => x.qp == q) with
  | some x =>
    let held := match x.chk with
      | some (n, _, _) => h.flag (H_CHK_CTRL_hold n)
      | none => false
    if x.status = 0 ∧ cqRoom h q ∧ held = false then some x else none
  | none => none

/-- The ring chosen among those of one level: round robin after the ring last served. -/
def chooseRing (h : HostDie) (hi : Bool) : Option Nat :=
  let last := if hi then h.rrHi else h.rrLo
  let cands := ((h.ready.map (fun x => x.qp)).filter (fun q => h.flag (H_FUN_Q_CTRL_tx_hi q) == hi && (ringNext h q).isSome))
  cands.foldl (fun (a : Option Nat) q => match a with
    | none => some q
    | some b => if (q + 2047 - last) % 2048 < (b + 2047 - last) % 2048 then some q else some b) none

/-- Start frame `x` on the Crossing: its descriptors leave the ring. -/
def startFrame (x : TxFrame) (hi : Bool) (h : HostDie) : HostDie :=
  let h := { h with ready := h.ready.erase x }
  let h := h.wrN (H_FUN_Q_TXHEAD x.qp) ((h.rdN (H_FUN_Q_TXHEAD x.qp) + x.descs) % 2 ^ 32)
  let h := if hi then { h with rrHi := x.qp } else { h with rrLo := x.qp }
  let r := chkCompute x h
  { r.2 with sending := some { r.1 with unitsLeft := dataUnits (x.attrs ++ x.bytes) (fun _ => 0) } }

/-- TX_FRAME_CROSS (R685): the host die chooses a ready frame and sends it. -/
def txFrameCross (h : HostDie) : HostDie :=
  if h.sending.isSome ∨ h.xng.canSend = false ∨ h.holdq ≠ [] then h
  else
    let pick := fun (hi : Bool) => (chooseRing h hi).bind (ringNext h)
    match pick true with
    | some x => startFrame x true h
    | none => match pick false with
      | some x => startFrame x false h
      | none => h

def execTxFrameCross (s : State) : Host.Outcome State Fault Refusal := s.onHost txFrameCross

/-- An ACK covers units: the frames whose last unit is among them (R691). -/
def ackFrames (covered : Nat → Bool) (h : HostDie) : HostDie :=
  { h with crossing := h.crossing.map (fun x => if x.lastSeq.any covered then { x with acked := true } else x) }

/-! ### Receive (R698 to R704) -/

/-- Where a frame is steered: functions and their local queue pairs. -/
def steerTargets (h : HostDie) (bs : List Byte) : List (Nat × Nat) :=
  let da := beAt bs 0 6
  match steerFind h da with
  | some i =>
    let x := (bs.drop 6).take 6 |>.foldl (fun a b => Nat.xor a b.toNat) 0
    [(bitsOf (steerWord h i 0) 21 16, bitsOf (steerWord h i 2) 26 16 + x % 2 ^ bitsOf (steerWord h i 2) 1 0)]
  | none =>
    let takes := fun (f : Nat) => if da = 0xFFFFFFFFFFFF then h.flag (H_FUN_FN_CFG_accept_bc f)
      else if hasBit da 40 then h.flag (H_FUN_FN_CFG_accept_mc f) else h.flag (H_FUN_FN_CFG_promisc f)
    ((List.range 64).filter (fun f => fnExists h f && takes f)).map (fun f => (f, h.get (H_FUN_FN_CFG_def_qp f)))

/-- Whether a receive descriptor is good (Table 16.5). -/
def rxDescOk (d : List Byte) : Bool :=
  let w := wordAt d 2
  decide (256 ≤ bitsOf w 15 0) && decide (bitsOf w 15 0 ≤ 2048) && bitsOf w 31 16 == 0 &&
  wordAt d 3 == 0 && wordAt d 4 == 0 && wordAt d 5 == 0 && wordAt d 6 == 0

/-- Descriptors a frame of `len` bytes takes from `ds`: how many are walked, the bad ones among them and the good ones;
none when they do not suffice or more than eight good ones would be used. -/
def rxPlan (len : Nat) : List (List Byte) → Nat → List (List Byte) → List (List Byte) → Option (Nat × List (List Byte) × List (List Byte))
  | ds, n, bad, good =>
    if len ≤ (good.map descLen).sum then some (n, bad, good)
    else match ds with
      | [] => none
      | d :: ds => if rxDescOk d then (if good.length < 8 then rxPlan len ds (n + 1) bad (good ++ [d]) else none)
        else rxPlan len ds (n + 1) (bad ++ [d]) good

/-- The 64-bit value with low 32 bits `ts` nearest to `ref` (R704). -/
def widenTs (ts ref : Nat) : Nat :=
  let base := ref / 2 ^ 32 * 2 ^ 32 + ts
  if ref + 2 ^ 31 < base then (base + 2 ^ 64 - 2 ^ 32) % 2 ^ 64 else if base + 2 ^ 31 ≤ ref then base + 2 ^ 32 else base

/-- Writes of a frame's bytes into its descriptors' buffers. -/
def rxWrites : List (List Byte) → List Byte → HostDie → HostDie
  | [], _, h => h
  | d :: ds, bs, h =>
    let a := wordAt d 0 + 2 ^ 32 * wordAt d 1
    rxWrites ds (bs.drop (descLen d)) (h.emit (.hostWrite a (bs.take (descLen d))))

/-- A receive completion that returns a skipped descriptor. -/
def skippedCompletion (d : List Byte) : Completion := { cookie := wordAt d 7, kind := 2, status := 1, count := 1 }

/-- Deliver a frame to local queue pair `l` of function `f`, with the descriptors `ds` read for it; the result says
how many descriptors the ring gave up. -/
def deliverTo (f l : Nat) (bs : List Byte) (ts port : Nat) (ds : List (List Byte)) (h : HostDie) : Nat × HostDie :=
  match globalQp h f l with
  | none => (0, h)
  | some q =>
    if h.flag (H_FUN_Q_CTRL_rx_en q) = false ∨ h.flag (H_FUN_Q_CTRL_cq_en q) = false ∨ busMaster h f = false then
      (0, h.count (hcQp q 7))
    else
      let head := h.rdN (H_FUN_Q_RXHEAD q)
      let posted := ds.take (cntDiff (h.rdN (H_FUN_Q_RXTAIL q)) head)
      match rxPlan bs.length posted 0 [] [] with
      | none => (0, h.count (hcQp q 5))
      | some (n, bad, good) =>
        if cqFree h q < bad.length + 1 then (0, h.count (hcQp q 6))
        else
          let h := forAll bad (fun d h => pushCompletion q (skippedCompletion d) h) h
          let h := rxWrites good bs h
          let h := h.wrN (H_FUN_Q_RXHEAD q) ((head + n) % 2 ^ 32)
          let ref := h.corrSys.1
          let h := pushCompletion q { cookie := wordAt (good.headD []) 7, kind := 2, count := good.length, length := bs.length, value := widenTs ts ref, info := port * 2 ^ 16, tsLow := ts } h
          (n, (h.count (hcQp q 2)).countN (hcQp q 3) bs.length)

/-- RX_DELIVERY (R701): the oldest frame from P16 is steered and delivered. `descs` are the receive descriptors that
the host die reads, for the functions that take the frame in ascending order, one after the other. -/
def rxDelivery (descs : List (List Byte)) (h : HostDie) : HostDie :=
  match h.rxFrames with
  | [] => h
  | (bs, ms) :: rest =>
    let h := { h with rxFrames := rest }
    let m0 := ms.getD 0 0
    let m1 := ms.getD 1 0
    let ts := bitsOf m0 18 0 + 2 ^ 19 * bitsOf m1 12 0
    let port := bitsOf m1 17 13
    let ts' := steerTargets h bs
    if ts' = [] then h.count hcNoMatch
    else (ts'.foldl (fun (a : List (List Byte) × HostDie) t =>
        let r := deliverTo t.1 t.2 bs ts port a.1 a.2
        (a.1.drop r.1, r.2)) (descs, h)).2

def execRxDelivery (descs : List (List Byte)) (s : State) : Host.Outcome State Fault Refusal := s.onHost (rxDelivery descs)

/-! ### Interrupts (R707 to R709) -/

/-- Whether moderation `m` fires for a cause at fine tick `now`, `w` being its register: 0 the count is reached, 1 mod_us
microseconds have passed since the first of the completions was written, 2 one of them asked for it at once (R707). -/
def modDue (m : Moder) (w now cause : Nat) : Bool :=
  decide (0 < m.count) &&
  (if cause = 0 then decide (max 1 (bitsOf w 31 16) ≤ m.count)
   else if cause = 1 then bitsOf w 15 0 != 0 && decide (m.since + bitsOf w 15 0 * usTicks ≤ now)
   else m.now)

/-- Whether the moderation of a queue pair (2048: the event ring) fires for a cause. -/
def modFires (h : HostDie) (q cause : Nat) : Bool :=
  modDue (h.moder q) (if q = 2048 then h.rdN H_INT_EVQ_MOD else h.rdN (H_FUN_Q_MOD q)) h.xng.tick cause

/-- INTERRUPT_MODERATION (R707): the moderation fires and its MSI-X message is sent; count and timer clear. -/
def interruptModeration (q cause : Nat) (h : HostDie) : HostDie :=
  if modFires h q cause then
    let h := h.setModer q {}
    if q = 2048 then sendMsix 0 (h.get H_INT_EVQ_CTRL_ev_vector) h
    else match qpOwner h q with
      | some f => sendMsix f (h.get (H_FUN_Q_CTRL_vector q)) h
      | none => h
  else h

/-- VECTOR_UNMASK (R669): vector `v % 256` of function `v / 256` is unmasked and its pending message is sent. -/
def execVectorUnmask (v : Nat) (s : State) : Host.Outcome State Fault Refusal :=
  s.onFn (v / 256) (fun h =>
    let a := msixAddr (v / 256) (v % 256) 3
    flushPba (v / 256) (v % 256) (h.wrN a (clrBit (h.rdN a) 0)))

/-! ### Function-level and hot reset (R711 to R714, R734) -/

/-- An FN_RESET announcement (Table 14.8). -/
def fnResetUnit (fn epoch : Nat) : FlowUnit := ctrlUnit 5 (fn * 2 ^ 16 + epoch * 2 ^ 8) []

/-- The rest of a frame whose units have begun is replaced by one unit with abort 1 (Table 16.8). -/
def abortSending (x : TxFrame) : TxFrame :=
  match x.unitsLeft with
  | u :: _ => { x with unitsLeft := [{ u with header := setBit (setBit u.header 26) 25 }], dead := true, chk := none }
  | [] => x

/-- Everything of function `f` that a reset clears at the host die, its announcement left out. -/
def resetFn (f : Nat) (h : HostDie) : HostDie :=
  let mine := fun (x : TxFrame) => ownsQp h f x.qp
  let h := match h.sending with
    | some x => if mine x then chkUndo x { h with sending := some (abortSending x) } else h
    | none => h
  let epoch := (h.get (H_XNG_EPOCH_epoch f) + 1) % 256
  let isQp := fun (a : Nat) => decide (0x1000000 ≤ a) && ownsQp h f ((a - 0x1000000) / 0x40)
  let own := fun (a : Nat) => decide (a / 0x10000 = f) && a != H_XNG_EPOCH f &&
    ((decide (0x1100 ≤ a % 0x10000) && decide (a % 0x10000 < 0x1110)) || (decide (0x3000 ≤ a % 0x10000) && decide (a % 0x10000 < 0x5000)))
  let engines := (List.range 8).filter (fun n => h.get (H_CHK_CTRL_owner n) == f)
  let h := { h with
    ready := h.ready.filter (fun x => !mine x)
    crossing := h.crossing.filter (fun x => !mine x)
    mod := h.mod.filter (fun e => !(decide (e.1 < 2048) && ownsQp h f e.1))
    staged := h.staged.filter (fun e => e.1 != f)
    reads := h.reads.filter (fun r => r.2 != f)
    msixPba := h.msixPba.filter (fun v => v / 256 != f)
    bme := h.bme.filter (fun g => g != f)
    msixEn := h.msixEn.filter (fun g => g != f)
    msixMask := h.msixMask.filter (fun g => g != f)
    reg := Store.clear (fun a => isQp a || own a) h.reg }
  forAll engines resetEngine (h.put (H_XNG_EPOCH_epoch f) epoch)

/-- Queue an announcement behind the writes already waiting (R281, R628). -/
def announceReset (fn : Nat) (h : HostDie) : HostDie :=
  let e := h.get (H_XNG_EPOCH_epoch (if fn = 0xFF then 0 else fn))
  { h with holdq := h.holdq ++ [{ fn := fn, epoch := e, unit := fnResetUnit fn e, writes := 0 }] }

/-- End host perturbation (R839): every held control returns to its reset value and the die is disarmed. -/
def endHostPtb (cause : Nat) (h : HostDie) : HostDie :=
  let was := h.flag H_PTB_ARM_armed
  let h := { h with ptb := {}, xng := { h.xng with ackAmnesty := 0 } }
  let h := ((((h.wrN H_PTB_LANE 0).wrN H_PTB_ACK 0).wrN H_PTB_DMA 0).wrN H_PTB_ARM 0xFF)
  if was then (h.put H_PTB_EVT_INFO_cause cause).raise H_PTB_EVT 1 else h

/-- A hot reset, or an FLR of the physical function: every function at once (R712). -/
def resetAll (h : HostDie) : HostDie :=
  let h := forRange 64 resetFn h
  let wide := fun (a : Nat) => (decide (0x2000 ≤ a) && decide (a < 0x2800)) || (decide (0x5800 ≤ a) && decide (a < 0x581C)) ||
    (decide (0x6000 ≤ a) && decide (a < 0x6100))
  let h := { h with
    vfEnable := false
    numVfs := 0
    evLost := false
    mod := h.mod.filter (fun e => e.1 != 2048)
    reg := Store.clear wide h.reg }
  announceReset 0xFF (endHostPtb 3 h)

/-- FLR (R711, R712). -/
def execFlr (f : Nat) (s : State) : Host.Outcome State Fault Refusal :=
  s.onFn f (fun h => if f = 0 then resetAll h else announceReset f (resetFn f h))

/-- HOT_RESET (R712). -/
def execHotReset (s : State) : Host.Outcome State Fault Refusal := s.onHost resetAll

/-! ### Engine registers (R723, R732, R733) -/

/-- Set a running value, or hold it back while a frame is computed on the engine (R733). -/
def writeRun (n v : Nat) (h : HostDie) : HostDie :=
  match h.sending with
  | some x =>
    if (x.chk.map (fun c => c.1)) = some n then { h with sending := some { x with chkWrite := some v } } else setEngine n v h
  | none => setEngine n v h

/-- Whether a register write of H_CHK_n_CTRL counts as one of poly, which sets the running value (R723): not when it changes
hold and leaves poly as it was, as the switch of contexts does (R732). -/
def chkSets (n data : Nat) (h : HostDie) : Bool :=
  !(bitOf data 31 != h.get (H_CHK_CTRL_hold n) && bitsOf data 1 0 == h.get (H_CHK_CTRL_poly n))

/-- A write of H_CHK_n_CTRL: hold, owner and poly; `sets` tells whether the running value becomes the polynomial's initial
value. -/
def writeChkCtrl (sets : Bool) (n data : Nat) (h : HostDie) : HostDie :=
  let h := ((h.put (H_CHK_CTRL_hold n) (bitOf data 31)).put (H_CHK_CTRL_owner n) (bitsOf data 29 24)).put (H_CHK_CTRL_poly n) (bitsOf data 1 0)
  if sets then writeRun n (chkInit (bitsOf data 1 0)) h else h

/-- A write of H_CHK_n_RUN_HI applies the staged low word with it (R250). -/
def writeChkRun (f n data : Nat) (h : HostDie) : HostDie :=
  let lo := match h.staged.find? (fun e => e.1 == f && e.2.1 == H_CHK_RUN_LO n) with
    | some e => e.2.2.toNat
    | none => h.rdN (H_CHK_RUN_LO n)
  writeRun n (lo + 2 ^ 32 * data) { h with staged := h.staged.filter (fun e => !(e.1 == f && e.2.1 == H_CHK_RUN_LO n)) }

/-- CHK_POLY_WRITE (R723): a write of poly, by H_CHK_n_CTRL, even when its value is unchanged. -/
def execChkPolyWrite (f n : Nat) (data : Word) (s : State) : Host.Outcome State Fault Refusal :=
  s.onFn f (fun h => if f = 0 ∧ n < 8 then writeChkCtrl true n data.toNat h else h)

/-- CHK_RUN_WRITE (R733): a write of H_CHK_n_RUN_HI. -/
def execChkRunWrite (f n : Nat) (data : Word) (s : State) : Host.Outcome State Fault Refusal :=
  s.onFn f (fun h => if f = 0 ∧ n < 8 then writeChkRun f n data.toNat h else h)

/-- CHK_HOLD_WRITE (R732): a write of hold, by H_CHK_n_CTRL; poly counts as written only where it changes. -/
def execChkHoldWrite (f n : Nat) (data : Word) (s : State) : Host.Outcome State Fault Refusal :=
  s.onFn f (fun h => if f = 0 ∧ n < 8 then writeChkCtrl (bitsOf data.toNat 1 0 != h.get (H_CHK_CTRL_poly n)) n data.toNat h else h)

end Sys2Proof.Machine
end

