-- ==== Sys2Proof/Machine/Port.lean ====
section
/-! DEFINITION. The port life-cycle (chapter 7): the states of Table 7.2, their changes, and everything an entry into a
state does; the modes of Table 7.1; and what counts as link-down (R408). -/

namespace Sys2Proof.Machine

/-- The state of port `n`, 0 to 15 (Table 7.2). -/
def portState (f : FieldDie) (n : Nat) : Nat := f.get (F_PORT_STAT_state n)

/-- States that count as link-down: DISABLED, HELD, TRAINING and SLEEP_LOST. -/
def stateDown (st : Nat) : Bool := st == 0 || st == 1 || st == 2 || st == 7

/-- States that count as link-up: UP and SLEEP_ENTRY. -/
def stateUp (st : Nat) : Bool := st == 3 || st == 4

/-- Whether port `n` counts as link-down; P16 follows R20, and R3 on the TZ16-FO (R408). -/
def linkDown (f : FieldDie) (n : Nat) : Bool := if n = 16 then !f.xng.everUp else stateDown (portState f n)

/-- Whether port `n` counts as link-up. -/
def linkUp (f : FieldDie) (n : Nat) : Bool := if n = 16 then f.xng.everUp else stateUp (portState f n)

/-- The data-path category of a state (R335): 0 DISABLED, 1 AWAKE, 2 ASLEEP, 3 none. -/
def stateCategory (st : Nat) : Nat := if st = 0 then 0 else if st = 5 then 2 else if st = 7 then 3 else 1

/-- phy_mode of port `n`; P16 is not asked. -/
def phyMode (f : FieldDie) (n : Nat) : Nat := f.get (F_PORT_MODE_phy_mode n)

/-- Whether port `n` accepts mode `m` (Table 7.1). -/
def modeOk (n m : Nat) : Bool :=
  if n < 4 then m == 0 || m == 1 else if n < 12 then m == 2 else m == 3

/-- Whether port `n` runs in a T1 mode. -/
def isT1 (f : FieldDie) (n : Nat) : Bool := phyMode f n == 0 || phyMode f n == 2

/-- Speed of port `n` in kb/s (Table 7.1); P16 counts as faster than every other port (R452). -/
def portSpeed (f : FieldDie) (n : Nat) : Nat :=
  if n = 16 then 1000000000
  else if phyMode f n = 0 then 1000000
  else if phyMode f n = 1 then 2500000
  else if phyMode f n = 2 then 100000
  else 10000

/-- The time of one byte at port `n`, in units of 0.1 ns. -/
def byteTime (f : FieldDie) (n : Nat) : Nat :=
  if phyMode f n = 0 then 80 else if phyMode f n = 1 then 32 else if phyMode f n = 2 then 800 else 8000

/-- The built-in receive latency of port `n`'s integrated PHY; 2500BASE-X has none (R567, R568). -/
def phyRx (f : FieldDie) (n : Nat) : Nat := if phyMode f n = 1 then 0 else (Config.phyRx (phyMode f n)).toNat

/-- Its built-in transmit latency. -/
def phyTx (f : FieldDie) (n : Nat) : Nat := if phyMode f n = 1 then 0 else (Config.phyTx (phyMode f n)).toNat

/-- The present fine tick in units of 0.1 ns. -/
def FieldDie.now10 (f : FieldDie) : Nat := 80 * f.now

/-- Address of the shaper entry and of the credit of queue `q` of port `n` (Table 12.7). -/
def shaperAddr (n q : Nat) : Nat := 0x580000 + 4 * (8 * n + q)
def creditAddr (n q : Nat) : Nat := 0x581000 + 4 * (8 * n + q)

/-- Set every credit of port `n` to 0 (R514). -/
def clearCredits (n : Nat) (f : FieldDie) : FieldDie :=
  let f := forRange 8 (fun q f => f.wr (creditAddr n q) 0) f
  { f with str := { f.str with resid := f.str.resid.filter (fun e => e.1 / 8 != n) } }

/-- Cut off what port `n` is sending: counted as tx_abort and never resumed (R328). -/
def abortCopy (n : Nat) (c : Copy) (f : FieldDie) : FieldDie :=
  let f := f.count (cPort n 5)
  let fr := f.frameOf c.frame
  let (v, f) := f.free
  let f := if c.mirror then f else tsqFrame fr n 2 (v % 256) f.sysNs f
  releaseCopy c f

/-- End every transmission of port `n` (R328). -/
def abortTx (n : Nat) (f : FieldDie) : FieldDie :=
  let x := f.portX n
  let f := f.setPortX n (fun x => { x with sending := none, preempted := none })
  let f := match x.sending with
    | some c => abortCopy n c f
    | none => f
  match x.preempted with
  | some c => abortCopy n c f
  | none => f

/-- A state change ends reception at port `n`: TRUNCATED (R326). -/
def truncateRx (n : Nat) (f : FieldDie) : FieldDie :=
  forAll (f.buf.frames.filter (fun fr => fr.port == n && fr.rx)) (fun fr f => rejectFrame fr 5 f) f

/-- Keep F_PORT_n_STAT.preempt_active (R319). -/
def refreshPreempt (n : Nat) (f : FieldDie) : FieldDie :=
  if n < 12 then
    let on := f.flag (F_PORT_PREEMPT_preempt_en n) && (f.flag (F_PORT_PREEMPT_verify_dis n) || f.get (F_PORT_STAT_verify_state n) == 2)
    f.put (F_PORT_STAT_preempt_active n) (if on then 1 else 0)
  else f

/-- Start verification (R320), or show that none applies. -/
def startVerify (n : Nat) (f : FieldDie) : FieldDie :=
  if 12 ≤ n then f.put (F_PORT_STAT_verify_state n) 4
  else
    let f := f.setPortX n (fun x => { x with verify := 0, verifyAt := 0 })
    let st := if !f.flag (F_PORT_PREEMPT_preempt_en n) then 0
      else if f.flag (F_PORT_PREEMPT_verify_dis n) then 4 else 1
    refreshPreempt n (f.put (F_PORT_STAT_verify_state n) st)

/-- Forget what the segment controller of port `n` was doing (P12 to P15). -/
def quietSegment (n : Nat) (f : FieldDie) : FieldDie :=
  if 12 ≤ n then
    let k := n - 12
    let f := f.setSegX k (fun x => { x with active := false, beacons := 0, lostAt := none, used := false, waiting := false, burst := 0, silentWait := false })
    (f.put (F_MDS_STAT_plca_active k) 0).put (F_MDS_STAT_cur_to k) 0
  else f

/-- The status fields of a port that leaves state `old` for `st` (R301). -/
def showState (n old st reason : Nat) (f : FieldDie) : FieldDie :=
  let f := (f.put (F_PORT_STAT_state n) st).put (F_PORT_STAT_category n) (stateCategory st)
  let f := f.setPortX n (fun x => { x with since := f.now, sleepSent := false, drained := false })
  if stateDown st && !stateDown old then f.put (F_PORT_STAT_down_reason n) reason else f

/-- A port that leaves UP or SLEEP_ENTRY: its groups (R439), the frames it was receiving and sending (R326, R328) and its
credits (R514). A frame in reception as the port falls silent for SLEEP may still be received whole within sleep_idle
(R316); one that is still there when the port leaves SLEEP is not. -/
def leaveUp (n old st : Nat) (f : FieldDie) : FieldDie :=
  let f := if stateUp old && !stateUp st then memberDown n (abortTx n f) else f
  let f := if (stateUp old && !stateUp st && st != 5) || (old == 5 && st != 5) then truncateRx n f else f
  if old = 3 ∧ st ≠ 3 then clearCredits n f else f

/-- A port whose state counts as link-down: its queues are emptied (R299), flush-on-down (R431), its segment is quiet,
and from UP it raises link_down (R304). -/
def nowDown (n old st : Nat) (f : FieldDie) : FieldDie :=
  let f := if stateDown st then quietSegment n (flushOnDown n (emptyPort n 0x0A f)) else f
  if old = 3 ∧ stateDown st then f.raise (F_PORT_EVT n) 1 else f

/-- A port that enters UP: link_up (R304) and verification (R320). -/
def nowUp (n old st : Nat) (f : FieldDie) : FieldDie :=
  if st = 3 then
    let f := if stateUp old then f else f.setPortX n (fun x => { x with upSince := f.now })
    startVerify n ((f.count (cPort n 7)).raise (F_PORT_EVT n) 0)
  else f

/-- A frame in reception since before the port fell silent for SLEEP is truncated once sleep_idle has passed (R316). -/
def sleepCut (n : Nat) (f : FieldDie) : FieldDie :=
  if portState f n = 5 ∧ (f.portX n).since + f.get (F_PORT_SLEEP_sleep_idle n) < f.now then truncateRx n f else f

/-- Put port `n` into state `st`; `reason` is the link-down reason when the state counts as link-down. A stopped port
machine makes no step. A step of the table engine ends NAP (R107). -/
def enterState (n st reason : Nat) (f : FieldDie) : FieldDie :=
  if f.engineRuns n = false then f
  else
    let old := portState f n
    nowUp n old st (nowDown n old st (leaveUp n old st (showState n old st reason f.napBreak)))

/-- A hold of the given reason begins on port `n` (R298, R301): the port enters HELD unless it is DISABLED. -/
def holdBegin (n reason : Nat) (f : FieldDie) : FieldDie :=
  let f := f.setPortX n (fun x => { x with holds := if reason ∈ x.holds then x.holds else x.holds ++ [reason] })
  let f := f.put (F_PORT_STAT_down_reason n) reason
  if portState f n = 0 then f else enterState n 1 reason f

/-- A hold ends: when it was the last one, a HELD port starts training (Table 7.3). -/
def holdEnd (n reason : Nat) (f : FieldDie) : FieldDie :=
  let f := f.setPortX n (fun x => { x with holds := x.holds.filter (fun r => r != reason) })
  if portState f n = 1 ∧ (f.portX n).holds = [] then enterState n 2 1 f else f

/-- enable becomes 0: DISABLED from any state (Table 7.3, R301). -/
def disablePort (n : Nat) (f : FieldDie) : FieldDie :=
  (enterState n 0 6 f).put (F_PORT_STAT_down_reason n) 6

/-- enable becomes 1 on a DISABLED port: TRAINING, or HELD with the hold's reason (Table 7.3). -/
def enablePort (n : Nat) (f : FieldDie) : FieldDie :=
  if portState f n ≠ 0 then f
  else match (f.portX n).holds with
    | [] => enterState n 2 1 f
    | r :: _ => (enterState n 1 r f).put (F_PORT_STAT_down_reason n) r

/-- What follows when the mode fields of a port change from `old` to the word now held (R296, Table 7.3), by a write
or by a changed vote (R877). -/
def modeChanged (n old : Nat) (f : FieldDie) : FieldDie :=
  if f.isRunning = false then f else
  let w := f.rdN (F_PORT_MODE n)
  let f := if bitOf old 0 = 1 ∧ bitOf w 0 = 0 then disablePort n f
    else if bitOf old 0 = 0 ∧ bitOf w 0 = 1 then enablePort n f else f
  let m := bitsOf w 6 4
  let t1 := m = 0 ∨ m = 2
  if bitOf w 0 = 1 ∧ bitOf old 0 = 1 ∧ (bitsOf old 6 4 ≠ m ∨ (t1 ∧ bitsOf old 3 2 ≠ bitsOf w 3 2)) then
    (holdBegin n 5 f).put (F_PORT_STAT_role_res n) 0
  else f

/-- A voted phy_mode that the port does not accept holds it in HELD, and mode_reject is raised once; one that it
accepts again lets it train (R878). -/
def votedMode (n : Nat) (f : FieldDie) : FieldDie :=
  if modeOk n (phyMode f n) then
    if (f.portX n).modeBad then holdEnd n 5 (f.setPortX n (fun x => { x with modeBad := false })) else f
  else if (f.portX n).modeBad then f
  else holdBegin n 5 ((f.setPortX n (fun x => { x with modeBad := true })).raise (F_PORT_EVT n) 3)

/-! ### Sleep (R309 to R316) -/

/-- Whether any egress queue of port `n` holds a frame. -/
def queuesBusy (f : FieldDie) (n : Nat) : Bool := f.buf.queued.any (fun c => c.port == n)

/-- Whether a sleep request would be effective, with "the port is in UP" left out (R310, R334). -/
def sleepWanted (f : FieldDie) (n : Nat) : Bool :=
  decide (n < 12) && isT1 f n && f.flag (F_PORT_SLEEP_sleep_req n) && (f.portX n).windows.isEmpty &&
  (!f.flag (F_PORT_SLEEP_wake_on_tx n) || !queuesBusy f n)

/-- Start a sleep entry where a request is effective (R310), unless a refused attempt still waits for its
repetition (R312). -/
def trySleep (n : Nat) (f : FieldDie) : FieldDie :=
  if portState f n = 3 ∧ sleepWanted f n ∧ (f.portX n).retry = false then enterState n 4 0 f else f

/-- The link of port `n` is declared sleep-lost (R147). -/
def declareLost (n : Nat) (f : FieldDie) : FieldDie :=
  if f.engineRuns n then ((enterState n 7 7 f).put F_PWR_EVT_INFO_port n).raise F_PWR_EVT 1 else f

/-- The end of the window of a waking port whose partner is not awake: persistent wake for pwake_lim milliseconds from
now on, or none and the link is lost (R146, R147). -/
def beginPersist (n : Nat) (f : FieldDie) : FieldDie :=
  let f := f.setPortX n (fun x => { x with persist := some f.now })
  if f.get F_PWR_PWAKE_pwake_lim = 0 then declareLost n f else f

/-- Send a wake burst, with the TC10 pulse when tc10_en is 1 (R141, R142). -/
def sendBurst (n : Nat) (f : FieldDie) : FieldDie :=
  (f.setPortX n (fun x => { x with burstAt := some f.now })).emit (.wakeBurst n (f.flag F_PWR_CTRL_tc10_en))

/-- Enter WAKING and send the first burst (R314, R315). The window of a wake with none ends at that burst (R315). DESIGN
CHOICE (log entry 115): such a window is no exposure, so no missed exposure is counted or reported. -/
def startWake (n : Nat) (windowed : Bool) (f : FieldDie) : FieldDie :=
  if f.engineRuns n = false then f
  else
    let f := enterState n 6 0 f
    let f := f.setPortX n (fun x => { x with persist := none, wakeAt := f.now, partnerAwake := false })
    let f := sendBurst n (f.put (F_PORT_STAT_tc10 n) (f.get F_PWR_CTRL_tc10_en))
    if windowed then f else beginPersist n f

/-- A wake cause on a sleeping port (R314). -/
def wakePort (n : Nat) (windowed : Bool) (f : FieldDie) : FieldDie :=
  if portState f n = 5 then startWake n windowed f else f

/-- The request category of port `n` (R334): 0 DISABLED, 1 AWAKE, 2 ASLEEP. -/
def requestCategory (f : FieldDie) (n : Nat) : Nat :=
  if !f.flag (F_PORT_MODE_enable n) then 0 else if sleepWanted f n then 2 else 1

end Sys2Proof.Machine
end

