-- ==== Sys2Proof/Machine/Parse.lean ====
section
/-! DEFINITION. The parser and the classifier (chapter 9): the walk over the format table, the 320-bit key, and the
rule lookup. -/

namespace Sys2Proof.Machine

/-- Word `w` of format entry `e` (Table 9.6). -/
def fmtWord (f : FieldDie) (e w : Nat) : Nat := f.rdN (0x420000 + 64 * e + 4 * w)

/-- What a walk has gathered (R379, R382). -/
structure Walk where
  status : Nat := 0
  walked : Nat := 0
  finalFmt : Nat := 0
  etype : Nat := 0
  tags : Nat := 0
  tci : Option Nat := none        -- tag control information of the first tag, when its bytes were available
  slots : List (Nat × Nat) := []  -- filled key slots and their bytes
deriving DecidableEq, Repr

/-- What a pass may read of a frame: the bytes present, the window's end, and where the FCS begins, beyond every window
while the frame's end is not known (R384, R385, R387). -/
structure Window where
  bytes : List Byte
  win : Nat
  fcs : Nat
deriving DecidableEq, Repr

/-- Where the bytes that may be copied into the key end. -/
def Window.avail (v : Window) : Nat := min v.win v.fcs

/-- The window of the short pass (R384, R385). -/
def shortWindow (fr : Frame) : Window := ⟨fr.bytes, 64, 4096⟩

/-- The window of the full pass: before the FCS when the frame has ended (R387). A frame still in reception has 132 bytes
then, so that its FCS lies beyond the window (`awaitsFull`). -/
def fullWindow (fr : Frame) : Window := ⟨fr.bytes, 128, if fr.rx then 4096 else fr.bytes.length - 4⟩

/-- Set a key slot; a later copy replaces an earlier one (R378). -/
def setSlot (k v : Nat) (m : List (Nat × Nat)) : List (Nat × Nat) := Store.insert k v m

/-- Carry out one extraction command (R378). -/
def extract (v : Window) (off cmd : Nat) (m : List (Nat × Nat)) : List (Nat × Nat) :=
  let src := off + bitsOf cmd 15 9
  let n := bitsOf cmd 8 5
  let dst := bitsOf cmd 4 0
  if n = 0 ∨ 8 < n ∨ v.avail < src + n then m
  else forRange n (fun i m => setSlot (dst + i) (byteAt v.bytes (src + i)) m) m

/-- The six extraction commands of entry `e`. -/
def extractAll (f : FieldDie) (v : Window) (e off : Nat) (m : List (Nat × Nat)) : List (Nat × Nat) :=
  forRange 3 (fun j m =>
    let w := fmtWord f e (10 + j)
    extract v off (bitsOf w 15 0) (extract v off (bitsOf w 31 16) m)) m

/-- The entry that follows a selection value in entry `e`: none when the walk ends (R375). -/
def nextEntry (f : FieldDie) (e sel : Nat) : Option Nat :=
  match (List.range 8).find? (fun i => let w := fmtWord f e (2 + i); hasBit w 15 && bitsOf w 31 16 == sel) with
  | some i => some (bitsOf (fmtWord f e (2 + i)) 5 0)
  | none => let w := fmtWord f e 1
    if hasBit w 6 then none else some (bitsOf w 5 0)

/-- The length of the header of entry `e` at `off`: the byte that gives it, if any, and the length (R374). -/
def headerLength (f : FieldDie) (v : Window) (e off : Nat) : Option Nat × Nat :=
  let w := fmtWord f e 0
  let fixed := bitsOf w 17 11
  if hasBit w 29 then
    let at_ := off + bitsOf w 24 18
    let b := byteAt v.bytes at_
    let part := if bitsOf w 28 27 = 0 then b % 16 else if bitsOf w 28 27 = 1 then b / 16 else b
    (some at_, part * 2 ^ bitsOf w 26 25 + fixed)
  else (none, fixed)

/-- One header of the walk, at `off`, by entry `e`: what the walk holds after it, and where it goes on (Table 9.1,
R381, R382). A first tag whose bytes 0 and 1 reach past the window starts at the window's last byte: no header follows it
inside the window, and its status is that of any header there; one whose bytes reach into the FCS extends into it. -/
def walkHeader (f : FieldDie) (v : Window) (e off : Nat) (k : Walk) : Walk × Option (Nat × Nat) :=
  let w0 := fmtWord f e 0
  let w1 := fmtWord f e 1
  let tag := hasBit w0 30
  let (lenAt, len) := headerLength f v e off
  let selEn := hasBit w1 15
  let selAt := off + bitsOf w1 13 7
  let selN := if hasBit w1 14 then 2 else 1
  let selOk := selEn && decide (selAt + selN ≤ v.avail)
  let sel := Nat.land (beAt v.bytes selAt selN) (bitsOf w1 31 16)
  let noTag := tag && k.tags == 0 && decide (v.fcs < off + 2)
  let tooLate := fun (edge : Nat) =>
    (match lenAt with
      | some a => decide (edge ≤ a)
      | none => false) || (selEn && decide (edge < selAt + selN))
  let next := if selOk then nextEntry f e sel else none
  let lenKnown := match lenAt with
    | some a => decide (a < v.avail)
    | none => true
  let status :=
    if tooLate v.win || (next.isSome && lenKnown && decide (v.win ≤ off + len)) then 1
    else if tooLate v.fcs || noTag || decide (v.fcs < off + len) then 2
    else if hasBit w0 29 && len == 0 then 3
    else match next with
      | none => 0
      | some e' => if !hasBit (fmtWord f e' 0) 31 then 4 else if 12 ≤ k.walked + 1 then 5 else 0
  let k' : Walk := { k with
    status := status
    walked := k.walked + 1
    finalFmt := e
    etype := if selOk then sel else k.etype
    tags := if tag then min 3 (k.tags + 1) else k.tags
    tci := if tag && k.tags == 0 && decide (off + 2 ≤ v.avail) then some (beAt v.bytes off 2) else k.tci
    slots := extractAll f v e off k.slots }
  (k', if status = 0 then next.map (fun e' => (e', off + len)) else none)

/-- The walk from entry `e` at `off`, at most `n` headers (R373, R377). -/
def walkFrom (f : FieldDie) (v : Window) : Nat → Nat → Nat → Walk → Walk
  | 0, _, _, k => k
  | n + 1, e, off, k =>
    match walkHeader f v e off k with
    | (k', some (e', off')) => walkFrom f v n e' off' k'
    | (k', none) => k'

/-- The walk of a frame (R373, R381). -/
def walkFrame (f : FieldDie) (v : Window) : Walk :=
  if hasBit (fmtWord f 0 0) 31 then walkFrom f v 12 0 0 {} else { status := 6 }

/-- Byte of key slot `k`, 0 when unfilled. -/
def slotByte (m : List (Nat × Nat)) (k : Nat) : Nat := Store.get (fun _ => 0) m k

/-- The ten key words of Table 9.2, word 0 first. -/
def keyWords (port status short tags pcp dei vid : Nat) (k : Walk) : List Nat :=
  let slotWord := fun (j : Nat) => slotByte k.slots (4 * j) * 2 ^ 24 + slotByte k.slots (4 * j + 1) * 2 ^ 16 +
    slotByte k.slots (4 * j + 2) * 2 ^ 8 + slotByte k.slots (4 * j + 3)
  let present := k.slots.foldl (fun a e => setBit a e.1) 0
  (List.range 7).map (fun i => slotWord (6 - i)) ++
  [present, k.finalFmt * 2 ^ 26 + k.walked * 2 ^ 22 + k.etype,
   port * 2 ^ 27 + status * 2 ^ 24 + short * 2 ^ 23 + tags * 2 ^ 21 + pcp * 2 ^ 18 + dei * 2 ^ 17 + vid * 2 ^ 5]

/-! ### Rules (R393 to R395) -/

def ruleWord (f : FieldDie) (r w : Nat) : Nat := f.rdN (0x440000 + 128 * r + 4 * w)

/-- The numbers of the valid rules, in ascending order. -/
def validRules (f : FieldDie) : List Nat :=
  (f.reg.filter (fun e => decide (0x440000 ≤ e.1) && decide (e.1 < 0x480000) && e.1 % 128 == 0 && hasBit e.2.toNat 31)).map
    (fun e => (e.1 - 0x440000) / 128)

/-- Whether rule `r` matches a key (R393). -/
def ruleMatches (f : FieldDie) (r : Nat) (key : List Nat) : Bool :=
  (List.range 10).all (fun i =>
    let m := ruleWord f r (11 + i)
    Nat.land (key.getD (9 - i) 0) m == Nat.land (ruleWord f r (1 + i)) m)

/-- The rule that applies: the lowest-numbered match (R394). -/
def ruleFor (f : FieldDie) (key : List Nat) : Option Nat := (validRules f).find? (fun r => ruleMatches f r key)

/-- The port VID (R406). -/
def portVid (f : FieldDie) (n : Nat) : Nat := f.get (F_FWD_PORT_pvid n)

/-- One pass over a frame from port `n`: walk, key and classification (R379, R380, R395). -/
def classify (f : FieldDie) (n : Nat) (v : Window) (short : Bool) : ClsResult :=
  let k := walkFrame f v
  let (pcp, dei) := match k.tci with
    | some t => (bitsOf t 15 13, bitOf t 12)
    | none => (f.get (F_CLS_PORT_def_pcp n), 0)
  let tagVid := match k.tci with
    | some t => t % 4096
    | none => 0
  let vid := if tagVid = 0 then portVid f n else tagVid
  let key := keyWords n k.status (if short then 1 else 0) k.tags pcp dei vid k
  let rule := ruleFor f key
  let act := fun (bit : Nat) => match rule with
    | some r => if hasBit (ruleWord f r 0) bit then some (ruleWord f r 0) else none
    | none => none
  let cls := match act 30 with
    | some w => bitsOf w 23 21
    | none => bitsOf (f.get (F_CLS_PCPMAP_pcpmap n)) (3 * pcp + 2) (3 * pcp)
  let colour := match act 29 with
    | some w => bitsOf w 20 19
    | none => if f.flag (F_CLS_PORT_dei_yellow n) && dei == 1 then 1 else 0
  let queue := match act 28 with
    | some w => bitsOf w 18 16
    | none => bitsOf (f.get F_CLS_QMAP_qmap) (3 * cls + 2) (3 * cls)
  { short := short, status := k.status, cls := cls, colour := colour, queue := queue, rule := rule, vid := vid,
    pcp := pcp, dei := dei, tags := k.tags, tag0 := tagVid != 0, slots := k.slots, key := key }

/-- Whether a short-pass result is final (R386). -/
def shortFinal (f : FieldDie) (n : Nat) (r : ClsResult) : Bool :=
  hasBit (f.get (F_FWD_CT_classes n)) r.cls &&
  (r.status == 0 || (r.status == 1 && !hasBit (f.get (F_CLS_PORT_err_drop n)) 0))

/-- Whether the final status drops the frame at stage 2 (R389): err_drop holds status s at bit s + 8 of its register. -/
def parseDrops (f : FieldDie) (n : Nat) (r : ClsResult) : Bool :=
  decide (1 ≤ r.status) && decide (r.status ≤ 6) && hasBit (f.get (F_CLS_PORT_err_drop n)) (r.status - 1)

/-- Record a capture (R402). -/
def capture (n : Nat) (r : ClsResult) (f : FieldDie) : FieldDie :=
  if f.fwd.armed && f.get F_CLS_CAP_CTRL_port == n then
    let f := { f with fwd := { f.fwd with armed := false } }
    let f := forRange 10 (fun k f => f.wrN (F_CLS_CAP k) (r.key.getD k 0)) f
    let f := f.wrN F_CLS_CAP_RES ((match r.rule with
      | some k => 0x80000000 + k * 2 ^ 16
      | none => 0) + r.cls * 2 ^ 7 + r.colour * 2 ^ 5 + r.queue)
    f.put F_CLS_CAP_CTRL_done 1
  else f

/-- Count a final classification (R390, R398) and record a capture. -/
def countFinal (n : Nat) (r : ClsResult) (f : FieldDie) : FieldDie :=
  capture n r (f.count (match r.rule with
    | some k => cRule k
    | none => cPort n 9))

end Sys2Proof.Machine
end

