-- ==== Sys2Proof/Machine/Gate.lean ====
section
/-! DEFINITION. Time gates as the frame path reads them (chapter 12): open gates, the time to a gate's closure and to the
next hold point, spans, and wire times (R518, R520, R528, R530), with the stops that input pairs force (R783, R784). -/

namespace Sys2Proof.Machine

def gclAddr (n e w : Nat) : Nat := 0x560000 + 0x800 * n + 8 * e + 4 * w
def operAddr (n e w : Nat) : Nat := 0x570000 + 0x800 * n + 8 * e + 4 * w

/-- One entry of a list laid out in its cycle: from and to, in ns from the cycle's start, its states and its op. -/
structure GateSpan where
  from_ : Nat
  to_ : Nat
  states : Nat
  op : Nat
deriving DecidableEq, Repr

/-- Lay entries (words 0 and 1) out over a cycle (R518): the last one holds to the cycle's end, and what lies beyond it
is cut. -/
def layOut (cycle : Nat) : Nat → List (Nat × Nat) → List GateSpan
  | _, [] => []
  | t, (w0, w1) :: rest =>
    if cycle ≤ t then []
    else
      let e := if rest = [] then cycle else min cycle (t + 8 * bitsOf w1 26 0)
      ⟨t, e, bitsOf w0 7 0, bitsOf w0 25 24⟩ :: layOut cycle e rest

/-- The operational list of port `n`. -/
def operList (f : FieldDie) (n : Nat) : List (Nat × Nat) :=
  (List.range (f.get (F_STR_GCL_OPER_oper_len n))).map (fun e => (f.rdN (operAddr n e 0), f.rdN (operAddr n e 1)))

def operCycle (f : FieldDie) (n : Nat) : Nat := f.get (F_STR_GCL_OCYC_oper_cycle n)

/-- Whether an operational list is active on port `n`. -/
def listActive (f : FieldDie) (n : Nat) : Bool := f.flag (F_STR_GCL_OPER_active n)

/-- The operational list of port `n` laid out over its cycle. -/
def operSpans (f : FieldDie) (n : Nat) : List GateSpan := layOut (operCycle f n) 0 (operList f n)

/-- Whether a pair in DEMAND holds queue `q` of port `n` closed (R783). -/
def forcedClosed (f : FieldDie) (n q : Nat) : Bool := f.pin.gateStop.any (fun g => hasBit g.1 n && hasBit g.2 q)

/-- Whether the gate of queue `q` of port `n` is open (R517, R783). -/
def gateOpen (f : FieldDie) (n q : Nat) : Bool :=
  (!listActive f n || hasBit (f.gateX n).states q) && !forcedClosed f n q

/-- The time from `p` within a cycle to the first span, at or after it or in the next cycle, that `stop` names. -/
def untilSpan (cycle p : Nat) (spans : List GateSpan) (stop : GateSpan → Bool) : Option Nat :=
  match spans.find? (fun g => decide (p < g.from_) && stop g) with
  | some g => some (g.from_ - p)
  | none => (spans.find? stop).map (fun g => cycle + g.from_ - p)

/-- The latest start of a cycle of `len` from `base` that is not after `t` (R121, R518). -/
def cycleFrom (base len t : Nat) : Nat := ((t : Int) - (((t : Int) - (base : Int)) % (len : Int))).toNat

/-- Whether the cycle that began before S is extended up to the change time, and S (R526). -/
def extension (f : FieldDie) (n : Nat) : Option Nat :=
  let g := f.gateX n
  if g.pending ∧ 0 < g.ct then
    let s := cycleFrom g.base (operCycle f n) (g.ct - 1)
    if g.ct - s ≤ g.ext then some s else none
  else none

/-- The time from which the running list of port `n` starts nothing more: the change time, or the start of the cycle that
the one before it is extended over (R526). -/
def listEnds (f : FieldDie) (n : Nat) : Option Nat :=
  let g := f.gateX n
  match extension f n with
  | some s => some s
  | none => if g.pending ∧ f.sysNs < g.ct then some g.ct else none

/-- Whether the running list of port `n` still starts something in `d` ns. -/
def runsOn (f : FieldDie) (n d : Nat) : Bool := (listEnds f n).all (fun t => decide (f.sysNs + d < t))

/-- Time in ns until the running list of port `n` next starts a span that `stop` names. -/
def nextSpan (f : FieldDie) (n : Nat) (stop : GateSpan → Bool) : Option Nat :=
  if listActive f n then
    (untilSpan (operCycle f n) (f.sysNs - (f.gateX n).cycleStart) (operSpans f n) stop).filter (runsOn f n)
  else none

/-- A pending list laid out over its cycle: the entries within its length. -/
def pendSpans (g : GateX) : List GateSpan := layOut g.pendCycle 0 (g.pendList.take g.pendLen)

/-- Time in ns until the pending list of port `n`, from its change time on, starts a span that `stop` names (R526). -/
def nextPending (f : FieldDie) (n : Nat) (stop : GateSpan → Bool) : Option Nat :=
  let g := f.gateX n
  if g.pending ∧ f.sysNs < g.ct ∧ g.pendOff = false then
    ((pendSpans g).find? stop).map (fun s => g.ct - f.sysNs + s.from_)
  else none

/-- The earlier of two times, as far as they are there. -/
def earlier (a b : Option Nat) : Option Nat :=
  match a, b with
  | some x, some y => some (min x y)
  | some x, none => some x
  | none, y => y

/-- Time in ns until the gate of an open queue closes: none when it does not (R528). -/
def closesIn (f : FieldDie) (n q : Nat) : Option Nat :=
  let closed := fun (s : GateSpan) => !hasBit s.states q
  earlier (nextSpan f n closed) (nextPending f n closed)

/-- Whether preemption is active at port `n` (R319). -/
def preemptOn (f : FieldDie) (n : Nat) : Bool := decide (n < 12) && f.flag (F_PORT_STAT_preempt_active n)

/-- Whether queue `q` of port `n` is preemptable (R318, R319). -/
def preemptable (f : FieldDie) (n q : Nat) : Bool := preemptOn f n && !hasBit (f.get (F_PORT_PREEMPT_express n)) q

/-- The hold points of the running list within its cycle, ns (R520): hold_adv before each SetAndHold entry. -/
def holdPoints (f : FieldDie) (n : Nat) : List Nat :=
  let cyc := operCycle f n
  ((operSpans f n).filter (fun s => s.op == 1)).map (fun s => (s.from_ + cyc - (f.gateX n).holdAdv % cyc) % cyc)

/-- Times in ns until the next hold point of each SetAndHold entry of the running list (R520). -/
def listHolds (f : FieldDie) (n : Nat) : List Nat :=
  if listActive f n then
    let p := f.sysNs - (f.gateX n).cycleStart
    ((holdPoints f n).map (fun t => if p ≤ t then t - p else operCycle f n + t - p)).filter
      (fun d => runsOn f n (d + (f.gateX n).holdAdv))
  else []

/-- As above for a pending list that takes its place. -/
def pendingHolds (f : FieldDie) (n : Nat) : List Nat :=
  let g := f.gateX n
  if g.pending ∧ f.sysNs < g.ct ∧ g.pendOff = false then
    let starts := ((pendSpans g).filter (fun s => s.op == 1)).map (fun s => g.ct - f.sysNs + s.from_)
    (starts.filter (fun d => decide (g.pendHold ≤ d))).map (fun d => d - g.pendHold)
  else []

/-- Time in ns until the next hold point: none when there is none, or when preemption is not active. -/
def holdsIn (f : FieldDie) (n : Nat) : Option Nat :=
  if preemptOn f n then (listHolds f n ++ pendingHolds f n).foldl (fun a d => earlier a (some d)) none else none

/-- Wire time of `len` bytes at port `n`, in units of 0.1 ns. -/
def wireTime (f : FieldDie) (n len : Nat) : Nat :=
  if n < 12 then (len + 8) * byteTime f n
  else if n < 16 then 8 * (len + 20) * 1000
  else (len + 55) / 56 * 280

/-- The least number of bytes of a fragment before the port may preempt it (R321). -/
def minFrag (f : FieldDie) (n : Nat) : Nat := (f.get (F_PORT_PREEMPT_add_frag n) + 1) * 64 - 4

/-- The longest unbroken open span of queue `q`, in ns, counted across the cycle's wrap (R530); none when it is open
all the time. -/
def longestSpan (f : FieldDie) (n q : Nat) : Option Nat :=
  let spans := operSpans f n
  if spans.all (fun s => hasBit s.states q) then none
  else
    let r := (spans ++ spans).foldl (fun (a : Nat × Nat) s =>
      if hasBit s.states q then let run := a.1 + (s.to_ - s.from_); (run, max a.2 run) else (0, a.2)) (0, 0)
    some r.2

/-- A piece of a cycle: how long it is, whether queue `q` may start in it, and whether a hold point begins it. -/
structure GatePiece where
  len : Nat
  open_ : Bool
  hold : Bool
deriving DecidableEq, Repr

/-- Cut a span at time `t` of the cycle. -/
def cutSpan (t : Nat) (g : GateSpan) : List GateSpan :=
  if g.from_ < t ∧ t < g.to_ then [{ g with to_ := t }, { g with from_ := t }] else [g]

/-- Whether the running list asserts the preemption hold at time `t` of its cycle: the latest hold point lies after the
latest SetAndRelease entry, in this cycle or in the one before it (R520). -/
def heldAt (f : FieldDie) (n t : Nat) : Bool :=
  let ago := fun (x : Nat) => if x ≤ t then t - x else operCycle f n + t - x
  let nearest := fun (xs : List Nat) => xs.foldl (fun a x => earlier a (some (ago x))) none
  match nearest (holdPoints f n), nearest (((operSpans f n).filter (fun s => s.op == 2)).map (fun s => s.from_)) with
  | some h, some r => decide (h ≤ r)
  | some _, none => true
  | none, _ => false

/-- The cycle of the running list in pieces, cut at its gate edges and, where preemption is active, at its hold points. A
preemptable queue starts nothing while the hold is asserted (R529). -/
def gatePieces (f : FieldDie) (n q : Nat) : List GatePiece :=
  let pts := if preemptOn f n then holdPoints f n else []
  (pts.foldl (fun gs t => gs.flatMap (cutSpan t)) (operSpans f n)).map (fun g =>
    { len := g.to_ - g.from_
      open_ := hasBit g.states q && !(preemptable f n q && heldAt f n g.from_)
      hold := pts.contains g.from_ })

/-- The longest time in ns that queue `q` of port `n` has before its gate closes or a hold point comes, counted across
the cycle's wrap; none when neither ever does (R528, R530). -/
def longestRun (f : FieldDie) (n q : Nat) : Option Nat :=
  let ps := gatePieces f n q
  if ps.all (fun p => p.open_ && !p.hold) then none
  else
    let r := (ps ++ ps).foldl (fun (a : Nat × Nat) p =>
      if p.open_ then let run := (if p.hold then 0 else a.1) + p.len; (run, max a.2 run) else (0, a.2)) (0, 0)
    some r.2

/-- Whether a copy of `len` bytes of queue `q` meets R528 within an open span of `d` ns. -/
def fitsSpan (f : FieldDie) (n q len d : Nat) : Bool :=
  decide (wireTime f n len ≤ 10 * d) ||
  (preemptable f n q && decide ((8 + minFrag f n) * byteTime f n ≤ 10 * d) && decide (minFrag f n + 64 ≤ len))

/-- Whether a head copy of known length can never meet R528 within its queue's gate (R530). -/
def neverFits (f : FieldDie) (n q len : Nat) : Bool :=
  listActive f n && (match longestRun f n q with
    | some d => !fitsSpan f n q len d
    | none => false)

/-- Whether a copy (or remainder) of `len` bytes of queue `q` may start now (R528). -/
def mayStart (f : FieldDie) (n q len : Nat) : Bool :=
  let lim := earlier (closesIn f n q) (holdsIn f n)
  gateOpen f n q && !(preemptable f n q && (f.gateX n).hold) &&
  (match lim with
    | none => true
    | some d =>
      decide (wireTime f n len ≤ 10 * d) ||
      (preemptable f n q &&
        (let sent := 10 * d / byteTime f n - 8
         decide (minFrag f n ≤ sent) && decide (sent + 64 ≤ len))))

end Sys2Proof.Machine
end

