-- ==== Sys2Proof/Machine/Stream.lean ====
section
/-! DEFINITION. Stage 4 (chapter 12): stream identification, the stream filter, the stream gate and the meter. -/

namespace Sys2Proof.Machine

def streamWord (f : FieldDie) (i w : Nat) : Nat := f.rdN (0x510000 + 16 * i + 4 * w)
def streamStatusAddr (i : Nat) : Nat := 0x520000 + 4 * i
def sgateWord (f : FieldDie) (i : Nat) : Nat := f.rdN (0x548000 + 4 * i)
def sgateStateAddr (i : Nat) : Nat := 0x549000 + 4 * i
def windowWord (f : FieldDie) (i w : Nat) : Nat := f.rdN (0x554000 + 16 * i + 4 * w)

/-- Destination and source address of a frame. -/
def frameDa (bs : List Byte) : Nat := beAt bs 0 6
def frameSa (bs : List Byte) : Nat := beAt bs 6 6

def streamMaxSdu (f : FieldDie) (i : Nat) : Nat := bitsOf (streamWord f i 2) 27 16

/-- Whether stream entry `i` applies to a lookup of the given kind (R493). -/
def streamApplies (f : FieldDie) (i kind addr vid pcp port : Nat) : Bool :=
  let w0 := streamWord f i 0
  hasBit w0 31 && bitOf w0 30 == kind && bitsOf w0 27 16 == vid && entryMac (streamWord f i 1) w0 == addr &&
  hasBit (streamWord f i 3) port && hasBit (streamWord f i 2) (pcp + 8)

/-- The entry of a lookup (R492, R493). -/
def streamLookup (f : FieldDie) (kind addr vid pcp port : Nat) : Option Nat :=
  ((List.range 4).map (fun w => 4 * (macHash addr vid % 1024) + w)).find?
    (fun i => streamApplies f i kind addr vid pcp port)

/-- The stream of a frame (R494). -/
def streamOf (f : FieldDie) (bs : List Byte) (vid pcp port : Nat) : Option Nat :=
  match streamLookup f 0 (frameDa bs) vid pcp port with
  | some i => some i
  | none => streamLookup f 1 (frameSa bs) vid pcp port

/-- The provisional length of a frame from port `n` (R491). -/
def provisional (f : FieldDie) (n : Nat) (stream : Option Nat) : Nat :=
  let m := match stream with
    | some i => streamMaxSdu f i
    | none => 0
  if m ≠ 0 then m else if n = 16 then 2048 else f.get (F_PORT_MAXFRM_max_frame n)

/-- The length that a frame is tested with: its own when it has ended, else P. -/
def testLength (f : FieldDie) (fr : Frame) (stream : Option Nat) : Nat :=
  if fr.rx then provisional f fr.port stream else fr.bytes.length

/-- Latch stream `i` blocked and report it (R496). -/
def blockStream (i : Nat) (f : FieldDie) : FieldDie :=
  if stage4Frozen f then f
  else ((f.wrN (streamStatusAddr i) 1).put F_STR_EVT_INFO_index i).raise F_STR_EVT 5

/-- A frame of stream `i` exceeds max_sdu: with block_oversize the stream latches blocked (R496). -/
def oversizeStream (i : Nat) (blocks : Bool) (f : FieldDie) : FieldDie := if blocks then blockStream i f else f

/-- Latch instance `g` closed (R500, R503). -/
def latchGate (g : Nat) (f : FieldDie) : FieldDie := if stage4Frozen f then f else f.wrN (sgateStateAddr g) 1

/-- The start of the network cycle that contains an ingress timestamp (R499): the latest of those by which frames are
judged that is not after it. -/
def gateCycle (f : FieldDie) (ts : Nat) : Nat := (f.str.cycles.find? (fun t => decide (t ≤ ts))).getD (f.str.cycles.getLastD 0)

/-- The instant within its network cycle at which a frame is judged (R499). -/
def gateInstant (f : FieldDie) (ts : Nat) : Nat := ts - gateCycle f ts

/-- The operational window of instance `g` with the lowest index that covers `x` (R499, R502). -/
def coveringWindow (f : FieldDie) (g x : Nat) : Option Nat :=
  (List.range 1024).find? (fun i =>
    let w0 := windowWord f i 0
    hasBit w0 31 && bitsOf w0 7 0 == g && decide (bitsOf (windowWord f i 1) 29 0 ≤ x) && decide (x < bitsOf (windowWord f i 2) 29 0))

/-- The outcome of a part of stage 4: a drop, or the frame's queue and colour as they go on. -/
inductive Stage
  | drop (code : Nat)
  | pass (queue colour : Nat)
deriving DecidableEq, Repr

/-- The stream gate (R499 to R503). -/
def streamGate (fr : Frame) (i queue colour len : Nat) (f : FieldDie) : Stage × FieldDie :=
  let g := bitsOf (streamWord f i 2) 7 0
  let w := sgateWord f g
  if !hasBit (streamWord f i 2) 31 then (.pass queue colour, f)
  else if hasBit (f.rdN (sgateStateAddr g)) 0 then (.drop 0x32, f)
  else if !hasBit w 31 then (.pass queue colour, f)
  else
    match coveringWindow f g (gateInstant f fr.ts) with
    | none =>
      if hasBit w 30 then
        (.drop 0x32, if hasBit w 29 then ((latchGate g f).put F_STR_EVT_INFO_index g).raise F_STR_EVT 4 else f)
      else (.pass queue colour, f)
    | some k =>
      let queue := if hasBit (windowWord f k 0) 30 then bitsOf (windowWord f k 0) 26 24 else queue
      let lim := bitsOf (windowWord f k 3) 23 0
      if lim = 0 then (.pass queue colour, f)
      else
        let cyc := gateCycle f fr.ts
        if lim < octetSum f k cyc + len then (.drop 0x33, if hasBit w 28 then latchGate g f else f)
        else if stage4Frozen f then (.pass queue colour, f)
        else
          let f := setOctetSum k cyc (octetSum f k cyc + len) f
          (.pass queue colour, if fr.rx then f.setFrame fr.id (fun x => { x with octets := some (k, cyc, len) }) else f)

/-- The meter of a stream (R507, R508, R511). -/
def streamMeter (fr : Frame) (i queue colour len : Nat) (f : FieldDie) : Stage × FieldDie :=
  if !hasBit (streamWord f i 2) 30 then (.pass queue colour, f)
  else
    let m := bitsOf (streamWord f i 3) 31 20
    if !meterValid f m then (.pass queue colour, f.count (cStream i 7))
    else
      let ((c, paid), f) := meterFrame m len colour f
      let f := match paid with
        | some b => if fr.rx then f.setFrame fr.id (fun x => { x with metered := some (m, b == 1, len) }) else f
        | none => f
      if c = 2 ∧ hasBit (streamWord f i 0) 29 then (.drop 0x34, f) else (.pass queue c, f)

/-- Stage 4 (R489, R490): the frame's queue and colour afterwards, or its drop. -/
def stage4 (fr : Frame) (r : ClsResult) (f : FieldDie) : Stage × FieldDie :=
  let stream := streamOf f fr.bytes r.vid r.pcp fr.port
  let f := f.setFrame fr.id (fun x => { x with prov := provisional f fr.port stream })
  match stream with
  | none => (.pass r.queue r.colour, f)
  | some i =>
    let m := streamMaxSdu f i
    let blocks := hasBit (streamWord f i 0) 28
    let f := (f.count (cStream i 0)).setFrame fr.id (fun x => { x with stream := some i, sdu := m, blocks := blocks })
    let len := testLength f fr (some i)
    let dropped := fun (code : Nat) (f : FieldDie) => (Stage.drop code, f.count (cStream i (2 + (code - 0x30))))
    if m ≠ 0 ∧ m < len then dropped 0x30 (oversizeStream i blocks f)
    else if hasBit (f.rdN (streamStatusAddr i)) 0 then dropped 0x31 f
    else match streamGate fr i r.queue r.colour len f with
      | (.drop code, f) => dropped code f
      | (.pass q c, f) =>
        match streamMeter fr i q c len f with
        | (.drop code, f) => dropped code f
        | (.pass q c, f) => (.pass q c, f.count (cStream i 1))

end Sys2Proof.Machine
end

