-- ==== Sys2Proof/Machine/Forward.lean ====
section
/-! DEFINITION. Stage 5, mirroring, and admission of a frame's copies (chapters 10 and 11): what follows once a frame's
classification is final. -/

namespace Sys2Proof.Machine

/-- Ports P0 to P16 named in a mask. -/
def portsIn (m : Nat) : List Nat := (List.range 17).filter (fun n => hasBit m n)

/-- The mask of a list of ports. -/
def portMask (ps : List Nat) : Nat := ps.foldl setBit 0

/-- The flood set (R405). -/
def allPorts : Nat := 0x1FFFF

/-- Ports of the enabled slots of group `g`. -/
def groupPorts (f : FieldDie) (g : Nat) : Nat :=
  portMask (((List.range 4).filter (fun s => slotEn f g s)).map (fun s => slotPort f g s))

/-- A frame is dropped at stages 2 to 5 (R403, Table 13.3). -/
def stageDrop (fr : Frame) (code : Nat) (f : FieldDie) : FieldDie :=
  (tsqFrame fr 16 2 code f.sysNs (f.countDrop fr.port code)).setFrame fr.id (fun x => { x with dropped := true })

/-- Whether the accept setting of the ingress port admits the frame (R407). -/
def acceptsFrame (f : FieldDie) (n : Nat) (r : ClsResult) : Bool :=
  let a := f.get (F_FWD_PORT_accept n)
  let tagged := decide (0 < r.tags) && r.tag0
  if a = 1 then tagged else if a = 2 then !tagged else true

/-- Whether a unicast source address can be learned here (R414). -/
def learnable (f : FieldDie) (fr : Frame) (r : ClsResult) : Bool :=
  let sa := frameSa fr.bytes
  !hasBit sa 40 && sa != 0 && f.flag (F_FWD_PORT_learn_en fr.port) && !vlanLearnDis f r.vid

/-- The k of a reserved destination 01-80-C2-00-00-0k (R410). -/
def reservedK (da : Nat) : Option Nat := if da / 16 = 0x0180C200000 then some (da % 16) else none

/-- The kind of a destination that misses: 2 broadcast, 1 multicast, 0 unknown unicast (R405). -/
def floodBit (da : Nat) : Nat := if da = 0xFFFFFFFFFFFF then 2 else if hasBit da 40 then 1 else 0

/-- The bucket of a frame in group `g` (R440). -/
def bucketOf (f : FieldDie) (g : Nat) (bs : List Byte) (r : ClsResult) : Nat :=
  let x := (bs.take 12).foldl (fun a b => Nat.xor a b.toNat) (Nat.xor (r.vid / 256) (r.vid % 256))
  if f.flag (F_FWD_AGG_hash_l3 g) then (List.range 8).foldl (fun a i => Nat.xor a (slotByte r.slots (9 + i))) x else x

/-- The member that a group's frame goes to (R441): none when no member is active. -/
def groupMember (f : FieldDie) (g b : Nat) : Option Nat :=
  let h := bitsOf (f.rdN (0x4E0000 + 0x400 * g + 4 * b)) 1 0
  let act := activeSlots f g
  if h ∈ act then some (slotPort f g h)
  else if act = [] then none
  else some (slotPort f g (act.getD (b % act.length) 0))

/-- Reduce each group that remains in the set to one member (R404, R443). -/
def reduceGroups (f : FieldDie) (bs : List Byte) (r : ClsResult) (set : Nat) : Nat :=
  forRange 4 (fun g m =>
    let ps := groupPorts f g
    if Nat.land m ps = 0 then m
    else
      let rest := andNot m ps
      match groupMember f g (bucketOf f g bs r) with
      | some p => setBit rest p
      | none => rest) set

/-- A mask with every group of which it names a member port (R443). -/
def withGroups (f : FieldDie) (m : Nat) : Nat :=
  forRange 4 (fun g m => if Nat.land m (groupPorts f g) = 0 then m else Nat.lor m (groupPorts f g)) m

/-- The outcome of stage 5 before mirroring. -/
inductive Fwd
  | drop (code : Nat)
  | consumed
  | ports (set : Nat)
deriving DecidableEq, Repr

/-- Step 10 (R408): ports that count as link-down are removed. -/
def step10 (f : FieldDie) (set : Nat) : Fwd :=
  let m := portMask ((portsIn set).filter (fun n => !linkDown f n))
  if m = 0 then .drop 0x17 else .ports m

/-- Step 9 and step 10 (R404). -/
def step9 (f : FieldDie) (fr : Frame) (r : ClsResult) (set : Nat) (flood : Bool) : Fwd :=
  let m1 := Nat.land set (vlanMembers f r.vid)
  let k := floodBit (frameDa fr.bytes)
  let m2 := if flood then portMask ((portsIn m1).filter (fun n =>
      if k = 2 then f.flag (F_FWD_PORT_flood_bc n) else if k = 1 then f.flag (F_FWD_PORT_flood_mc n)
      else f.flag (F_FWD_PORT_flood_uc n))) else m1
  if m2 = 0 then .drop 0x17
  else
    let own := match groupOf f fr.port with
      | some (g, _) => Nat.lor (groupPorts f g) (2 ^ fr.port)
      | none => 2 ^ fr.port
    let m3 := andNot m2 own
    if m3 = 0 then .drop 0x16 else step10 f (reduceGroups f fr.bytes r m3)

/-- Step 8: the destination in the filtering database. -/
def step8 (f : FieldDie) (fr : Frame) (r : ClsResult) : Fwd :=
  match fdbFind f (frameDa fr.bytes) r.vid with
  | some i =>
    let e := f.fdb i
    if e.discard then .drop 0x15
    else if e.maskDst then step9 f fr r (withGroups f (bitsOf e.w3 16 0)) false
    else if e.agg then step9 f fr r (groupPorts f (bitsOf e.w3 30 29)) false
    else step9 f fr r (2 ^ bitsOf e.w3 28 24) false
  | none => step9 f fr r allPorts true

/-- Stage 5 up to step 10 (Table 10.1): the outcome, and whether the source address is to be learned. -/
def stage5 (f : FieldDie) (fr : Frame) (r : ClsResult) : Fwd × Bool :=
  if f.standbyPath then (.drop 0x10, false)
  else match fr.directed with
  | some set => (step10 f (clrBit set 16), false)
  | none =>
    if r.vid = 4095 ∨ vlanValid f r.vid = false then (.drop 0x11, false)
    else if acceptsFrame f fr.port r = false then (.drop 0x12, false)
    else if f.flag (F_FWD_PORT_ingress_filter fr.port) && !hasBit (vlanMembers f r.vid) fr.port then (.drop 0x13, false)
    else
      let learn := learnable f fr r
      match reservedK (frameDa fr.bytes) with
      | some k =>
        if fr.port ≠ 16 ∧ k = 14 ∧ beAt fr.bytes 12 2 = 0x88F7 then (.consumed, learn)
        else if hasBit (f.get F_FWD_RSVD_release) k then (step8 f fr r, learn)
        else if fr.port = 16 then (.drop 0x14, learn)
        else (step10 f (2 ^ 16), learn)
      | none => (step8 f fr r, learn)

/-- Whether egress port `n` of a frame is served by cut-through (R30, R388, R452). -/
def cutsThrough (f : FieldDie) (fr : Frame) (r : ClsResult) (queue n : Nat) : Bool :=
  r.short && n != 16 && hasBit (f.get (F_FWD_CT_classes fr.port)) r.cls &&
  decide (portSpeed f n ≤ portSpeed f fr.port) && gateOpen f n queue

/-- The charge of a copy of a frame (R457). -/
def chargeOf (f : FieldDie) (fr : Frame) : Nat :=
  if fr.rx then cellsOf (if fr.port = 16 then 2048 else f.get (F_PORT_MAXFRM_max_frame fr.port)) else cellsOf fr.bytes.length

/-- Mirror copies of a frame that has completed stage 5 (R446, R447). -/
def mirrorCopies (fr : Frame) (set queue colour cells : Nat) (f : FieldDie) : List Copy × FieldDie :=
  (List.range 2).foldl (fun (a : List Copy × FieldDie) s =>
    let f := a.2
    if f.flag (F_FWD_MIR_en s) && (hasBit (f.get (F_FWD_MIR_ING_ing s)) fr.port || Nat.land set (f.get (F_FWD_MIR_EGR_egr s)) != 0) then
      let d := f.get (F_FWD_MIR_dest s)
      if d = fr.port ∨ 16 < d ∨ linkDown f d then (a.1, f.count (cGlobal (4 + s)))
      else (a.1 ++ [{ frame := fr.id, port := d, queue := queue, colour := colour, cells := cells, mirror := true }], f)
    else a) ([], f)

/-- With wake_on_tx set, a copy admitted to a queue of a sleeping port wakes it (R314). -/
def wakeOnTx (n : Nat) (f : FieldDie) : FieldDie :=
  if n < 12 ∧ portState f n = 5 ∧ f.flag (F_PORT_SLEEP_wake_on_tx n) then startWake n false f else f

/-- Stage 6 for every copy of a frame (R466 to R470, R29). -/
def stage6 (fr : Frame) (r : ClsResult) (set queue colour : Nat) (f : FieldDie) : FieldDie :=
  let cells := chargeOf f fr
  let own := (portsIn set).map (fun n =>
    ({ frame := fr.id, port := n, queue := queue, colour := colour, cells := cells, ct := cutsThrough f fr r queue n } : Copy))
  let (mir, f) := mirrorCopies fr set queue colour cells f
  let (admitted, f) := admitCopies fr (own ++ mir) f
  if admitted = [] then (f.countDrop fr.port 0x29).setFrame fr.id (fun x => { x with dropped := true })
  else forAll admitted wakeOnTx f

/-- Mark a frame decided. -/
def decide_ (fr : Frame) (r : ClsResult) (f : FieldDie) : FieldDie := f.setFrame fr.id (fun x => { x with final := some r })

/-- The final result of a frame: parse drop, counts, and stages 4 to 6 (R389, R390, R398, R489, R403). -/
def finish (fr : Frame) (r : ClsResult) (f : FieldDie) : FieldDie :=
  let f := (decide_ fr r f).count (cPort fr.port (10 + r.status))
  if parseDrops f fr.port r then stageDrop fr 0x0C f
  else
    let f := countFinal fr.port r f
    match stage4 fr r f with
    | (.drop code, f) => stageDrop fr code f
    | (.pass queue colour, f) =>
      let (out, learn) := stage5 f fr r
      let f := f.setFrame fr.id (fun x => { x with
        learn := learn, untag := vlanUntag f r.vid, final := some { r with queue := queue, colour := colour } })
      match out with
      | .drop code => stageDrop fr code f
      | .consumed =>
        let heard := f.tim.heardAt ++ [(fr.port, fr.ts, fr.at_)]
        { f with tim := { f.tim with heardAt := heard.drop (heard.length - 32) } }.count (cPort fr.port 18)
      | .ports set => stage6 (f.frameOf fr.id) { r with queue := queue, colour := colour } set queue colour f

/-- Whether a frame is a MAC control frame, which never reaches stage 5 (R329). -/
def isMacControl (bs : List Byte) : Bool := beAt bs 12 2 == 0x8808

/-- Append bytes to the frame in reception at port `n`. -/
def takeBytes (n : Nat) (bs : List Byte) (f : FieldDie) : FieldDie :=
  match f.inRx n with
  | some fr => f.setFrame fr.id (fun x => { x with bytes := x.bytes ++ bs })
  | none => f

/-- Whether the fabric naps: a frame is then held at the MAC (R107, R108, R356). -/
def napping (f : FieldDie) : Bool := f.get F_PWR_STATE_state == 1

/-- Whether a short pass is made for a frame of port `n`, and still has to be (R384). -/
def wantsShort (f : FieldDie) (n : Nat) (fr : Frame) : Bool :=
  fr.final == none && !fr.shortDone && decide (64 ≤ fr.bytes.length) && !isMacControl fr.bytes && f.get (F_FWD_CT_classes n) != 0

/-- The frame of port `n` that awaits a short pass: in reception, or accepted since byte 64. -/
def awaitsShort (f : FieldDie) (n : Nat) : Option Frame :=
  f.buf.frames.find? (fun fr => fr.port == n && !fr.held && (fr.rx || fr.accepted) && wantsShort f n fr)

/-- The short pass of port `n` (R384, R386). -/
def shortPassOp (n : Nat) (bytes : List Byte) (f : FieldDie) : FieldDie :=
  let f := takeBytes n bytes f
  if napping f then f
  else match awaitsShort f n with
  | some fr =>
    let r := classify f n (shortWindow fr) true
    let f := f.setFrame fr.id (fun x => { x with shortDone := true })
    if shortFinal f n r then finish { fr with shortDone := true } r f else f
  | none => f

/-- The frame of port `n` that awaits a full pass: not yet classified, with no short pass to come (R387), and accepted, or
in reception with so many bytes that none of the first 128 belongs to its FCS (log entry 127). -/
def awaitsFull (f : FieldDie) (n : Nat) : Option Frame :=
  f.buf.frames.find? (fun fr => fr.port == n && !fr.held && fr.final == none && !wantsShort f n fr &&
    (if fr.rx then decide (132 ≤ fr.bytes.length) else fr.accepted))

/-- The full pass of port `n` (R387). -/
def fullPassOp (n : Nat) (bytes : List Byte) (f : FieldDie) : FieldDie :=
  let f := takeBytes n bytes f
  if napping f then f
  else match awaitsFull f n with
  | some fr =>
    if isMacControl fr.bytes = false then
      finish fr (classify f n (fullWindow fr) false) f
    else f
  | none => f

end Sys2Proof.Machine
end

