-- ==== Sys2Proof/Machine/Access.lean ====
section
/-! DEFINITION. Register access by the access codes (R245, Table 6.2): LK refusals (R246), staged multi-word values
(R250, R251), sequence-number clears (R253), the marking of the proof as stale (R270), and hardware locks
(R276 to R284). -/

namespace Sys2Proof.Machine

/-! ### Locks -/

/-- State of lock `n`: 0 FREE, 1 HELD, 2 ORPHANED (Table 6.10). -/
def lockState (f : FieldDie) (n : Nat) : Nat := f.get (F_CFG_LOCK_state n)

/-- Whether requester `req` owns lock `n` for LK purposes (R283); the image loader needs none (R247). -/
def ownsLock (f : FieldDie) (req n : Nat) : Bool :=
  req == 0x41 || (lockState f n == 1 && f.get (F_CFG_LOCK_owner n) == req)

/-- Record the requester and address of a refused access (Table 6.9). -/
def noteAccess (req addr : Nat) (f : FieldDie) : FieldDie :=
  (f.put F_CFG_EVT_INFO_requester req).put F_CFG_EVT_INFO_addr addr

/-- A refusal that raises lk_reject (R246, R274, R279). -/
def lkReject (req addr : Nat) (f : FieldDie) : FieldDie :=
  ((noteAccess req addr f).bump F_CFG_LK_REJ_count 1).raise F_CFG_EVT 4

/-- Whether lock `n` can be granted at all (Table 6.6). -/
def lockExists (n : Nat) : Bool := decide (n < 5) || (decide (16 ≤ n) && decide (n < 32))

/-- The word of Table 6.10 that an acquire read returns: granted to the owner, and orphan when this grant followed
ORPHANED. -/
def lockWord (f : FieldDie) (n : Nat) (granted orphan : Bool) : Word :=
  word (putBits (putBits (f.rdN (F_CFG_LOCK n)) 31 31 (if granted then 1 else 0)) 30 30 (if orphan then 1 else 0))

/-- A read of F_CFG_LOCK_ACQ_n by `req` (R276 to R278): the word read and the state it leaves. -/
def acquireLock (req n : Nat) (f : FieldDie) : Word × FieldDie :=
  if !lockExists n then (f.rd (F_CFG_LOCK n), f)
  else if lockState f n = 1 then (lockWord f n (f.get (F_CFG_LOCK_owner n) == req) false, f)
  else
    let orphan := lockState f n == 2
    let f := ((f.put (F_CFG_LOCK_state n) 1).put (F_CFG_LOCK_owner n) req).bump (F_CFG_LOCK_grants n) 1
    let f := { f with cfg := { f.cfg with grantTick := Store.set (fun _ => 0) f.cfg.grantTick n f.now } }
    (lockWord f n true orphan, f)

/-- A write of 1 to release (R279): the owner frees the lock, anyone else is refused. -/
def releaseLock (req n : Nat) (f : FieldDie) : FieldDie :=
  if lockState f n = 1 ∧ f.get (F_CFG_LOCK_owner n) = req then
    (f.put (F_CFG_LOCK_state n) 0).put (F_CFG_LOCK_owner n) 0xFF
  else if n < 32 then lkReject req (F_CFG_LOCK n) f
  else f

/-- Pins with safe_en whose owner code `p` names fall to their safe level in F_PIN_OUT (R765). -/
def pinFall (p : Nat → Bool) (f : FieldDie) : FieldDie :=
  forRange 20 (fun i f =>
    let n := i + 4
    if f.flag (F_PIN_CFG_safe_en n) && p (f.get (F_PIN_CFG_owner n)) then
      f.wrN F_PIN_OUT (if f.flag (F_PIN_CFG_safe_val n) then setBit (f.rdN F_PIN_OUT) n else clrBit (f.rdN F_PIN_OUT) n)
    else f) f

/-- A HELD lock becomes ORPHANED, keeping its former owner (R280, R282); `bit` is the event raised. Pins that the lock
owns fall to their safe level. -/
def orphanLock (bit n : Nat) (f : FieldDie) : FieldDie :=
  if lockState f n = 1 then
    pinFall (fun c => c == 0x80 + n) (((noteAccess (f.get (F_CFG_LOCK_owner n)) n f).put (F_CFG_LOCK_state n) 2).raise F_CFG_EVT bit)
  else f

/-- Orphan every lock whose owner `p` names (R280). -/
def orphanOwned (p : Nat → Bool) (f : FieldDie) : FieldDie :=
  forRange 32 (fun n f => if lockState f n = 1 && p (f.get (F_CFG_LOCK_owner n)) then orphanLock 2 n f else f) f

/-- Every lock FREE with grants at 0 (R284). -/
def freeLocks (f : FieldDie) : FieldDie := forRange 32 (fun n f => f.wr (F_CFG_LOCK n) 0x00FF0000) f

/-! ### Writes by access code -/

/-- Whether a field of a register is covered by the proof (R265). -/
def RegField.covered (r : RegField) (sweep : Bool) : Bool :=
  sweep && (r.acc == .rw || r.acc == .rwLow) && !r.np

/-- What a write of `data` makes of one field of the word `w` held at `addr`: RW fields take the written bits, unless
an LK field's lock is not owned; nothing else is stored (Table 6.2, R246). The result says whether an LK refusal
occurred and whether a covered field was written. -/
def writeField (f : FieldDie) (req : Nat) (sweep : Bool) (data : Nat) (r : RegField) (a : Nat × Bool × Bool) :
    Nat × Bool × Bool :=
  let v := bitsOf data r.hi r.lo
  let locked := match r.lk with
    | some l => !ownsLock f req l
    | none => false
  match r.acc with
  | .rw =>
    if locked then (a.1, a.2.1 || v != bitsOf a.1 r.hi r.lo, a.2.2)
    else (putBits a.1 r.hi r.lo v, a.2.1, a.2.2 || r.covered sweep)
  | .rwLow => (putBits a.1 r.lo r.lo (v % 2), a.2.1, a.2.2 || r.covered sweep)
  | .wo => (a.1, a.2.1 || locked, a.2.2)
  | _ => a

/-! ### The triplicated store (R261, Table 6.4) -/

/-- The register of entry `i` of the TMR store, counted over the rows of Table 6.4 in the order listed. -/
def tmrReg (i : Nat) : Nat :=
  if i = 0 then F_CFG_PROOF
  else if i = 1 then F_CFG_LOCK_LIFE
  else if i < 18 then F_PORT_MODE (i - 2)
  else if i < 22 then F_MDS_PLCA (i - 18)
  else if i < 39 then F_FWD_CT (i - 22)
  else if i = 39 then F_STR_SCHED
  else if i = 40 then F_TIM_SYS
  else if i = 41 then F_TWN_CTRL
  else F_XNG_CTRL

/-- How many entries the TMR store has. -/
def tmrCount : Nat := 43

/-- The bits of a register that are stored in triplicate. -/
def tmrMask (addr : Nat) : Nat :=
  match regRow addr with
  | some row => row.fields.foldl (fun m r => if r.tv then putBits m r.hi r.lo (2 ^ 32 - 1) else m) 0
  | none => 0

/-- A write replaces all three copies of the triplicated fields it writes (Table 6.2). -/
def dropTmr (addr : Nat) (f : FieldDie) : FieldDie :=
  { f with cfg := { f.cfg with tmr := f.cfg.tmr.filter (fun e => tmrReg e.1 != addr) } }

/-- Store a write by its access codes: refusals counted and raised, the proof touched when a covered field was
written (R245, R246, R270). -/
def storeWrite (req addr data : Nat) (f : FieldDie) : FieldDie :=
  match regRow addr with
  | none => f
  | some row =>
    let r := row.fields.foldl (fun a fld => writeField f req row.sweep data fld a) (f.rdN addr, false, false)
    let f := f.wrN addr r.1
    let f := if row.fields.any (fun (x : RegField) => x.tv && (x.acc == .rw || x.acc == .rwLow) && (match x.lk with
        | some l => ownsLock f req l
        | none => true)) then dropTmr addr f else f
    let f := if r.2.1 then lkReject req addr f else f
    if r.2.2 then f.touchProof else f

/-- The words of the multi-word value that holds the register at `addr`, in ascending order (R250). -/
def stageGroup (addr : Nat) : List Nat :=
  let triple := fun (base stride count : Nat) =>
    if base ≤ addr ∧ addr < base + stride * count ∧ (addr - base) % stride < 12 then
      let b := base + (addr - base) / stride * stride
      [b, b + 4, b + 8]
    else []
  if addr = F_GLB_BASE_MAC_LO ∨ addr = F_GLB_BASE_MAC_HI then [F_GLB_BASE_MAC_LO, F_GLB_BASE_MAC_HI]
  else if addr = F_TIM_A_INC_LO ∨ addr = F_TIM_A_INC_HI then [F_TIM_A_INC_LO, F_TIM_A_INC_HI]
  else if F_PWR_EXP_BASE_NS ≤ addr ∧ addr ≤ F_PWR_EXP_BASE_SEC_HI then triple F_PWR_EXP_BASE_NS 12 1
  else if F_TIM_A_SET_NS ≤ addr ∧ addr ≤ F_TIM_A_SET_SEC_HI then triple F_TIM_A_SET_NS 12 1
  else if F_TIM_B_OFF_NS ≤ addr ∧ addr ≤ F_TIM_B_OFF_SEC_HI then triple F_TIM_B_OFF_NS 12 1
  else if 0x1C0400 ≤ addr ∧ addr < 0x1C0480 then
    (if (addr - 0x1C0400) % 32 < 12 then triple 0x1C0400 32 4 else triple 0x1C040C 32 4)
  else if 0x1A040C ≤ addr ∧ addr < 0x1A0840 then triple 0x1A040C 64 17
  else []

/-- The staged word of requester `req` for `addr`. -/
def stagedWord (f : FieldDie) (req addr : Nat) : Option Word :=
  (f.staged.find? (fun e => e.1 == req && e.2.1 == addr)).map (fun e => e.2.2)

/-- Stage a word (R250). -/
def stageWord (req addr : Nat) (w : Word) (f : FieldDie) : FieldDie :=
  { f with staged := f.staged.filter (fun e => !(e.1 == req && e.2.1 == addr)) ++ [(req, addr, w)] }

/-- Forget staged words of the requesters that `p` names (R251). -/
def dropStaged (p : Nat → Bool) (f : FieldDie) : FieldDie := { f with staged := f.staged.filter (fun e => !p e.1) }

/-- Whether the register at `addr` has an LK field whose lock `req` does not own. -/
def lkDenied (f : FieldDie) (req addr : Nat) : Bool :=
  match regRow addr with
  | some row => row.fields.any (fun r => match r.lk with
      | some l => !ownsLock f req l
      | none => false)
  | none => false

/-- The value that word `addr` of a value takes at its application: the staged word, else the value in effect for an
RW value (R250). -/
def stagedOr (f : FieldDie) (req addr : Nat) : Nat :=
  match stagedWord f req addr with
  | some w => w.toNat
  | none => f.rdN addr

/-- The value that word `addr` of a write-only value takes at its application: the staged word, else 0 (R250). -/
def stagedOrZero (f : FieldDie) (req addr : Nat) : Nat :=
  match stagedWord f req addr with
  | some w => w.toNat
  | none => 0

/-- Clear the staged words of a value. -/
def clearStaged (req : Nat) (addrs : List Nat) (f : FieldDie) : FieldDie :=
  { f with staged := f.staged.filter (fun e => !(e.1 == req && addrs.contains e.2.1)) }

/-- Apply a multi-word RW value: every staged word and the highest word together (R250). -/
def applyGroup (req addr data : Nat) (f : FieldDie) : FieldDie :=
  let g := stageGroup addr
  let low := g.filter (fun a => a != addr && (stagedWord f req a).isSome)
  clearStaged req g (storeWrite req addr data (forAll low (fun a f => storeWrite req a (stagedOr f req a) f) f))

/-- A write of fewer than 32 bits is discarded and raises bad_access (R243). -/
def badAccess (req addr : Nat) (f : FieldDie) : FieldDie := (noteAccess req addr f).raise F_CFG_EVT 7

/-- A clear write of the SQ register at `addr` (R253): with the current sequence number it clears the flags written
as 1, and seq advances. -/
def sqClearWrite (addr data : Nat) (f : FieldDie) : FieldDie :=
  let w := f.rdN addr
  if bitsOf data 31 16 = bitsOf w 31 16 then
    let flags := andNot (bitsOf w 15 0) (bitsOf data 15 0)
    let f := f.wrN addr (seqStep (bitsOf w 31 16) * 2 ^ 16 + flags)
    if addr = F_FLT_EVT then
      let f := { f with flt := { f.flt with latched := f.flt.latched.filter (fun e => hasBit flags e.1) } }
      forRange 2 (fun p f => if hasBit flags (10 + p) then f else f.put (F_PIN_PAIR_STAT_disc_fault p) 0) f
    else f
  else f

/-- A FAILED part with no take-over fault latched counts as cleared and enters STANDBY (R658, R810). -/
def failedCleared (f : FieldDie) : FieldDie :=
  if f.role = 4 ∧ f.takeoverFault = false then setRole 3 f else f

/-- Whether the register at `addr` holds SQ flags. -/
def isSqReg (addr : Nat) : Bool :=
  match regRow addr with
  | some row => row.fields.any (fun r => r.acc == .sq)
  | none => false

/-- A write to an SQ register: the clear, and what a cleared take-over fault permits. -/
def sqWrite (addr data : Nat) (f : FieldDie) : FieldDie :=
  if isSqReg addr then
    let f := sqClearWrite addr data f
    if addr = F_FLT_EVT then failedCleared f else f
  else f

/-! ### Perturbation and resets of requesters (R280, R839) -/

/-- The held field controls: address and bit of F_PTB_ACTIVE (Table 22.1). -/
def heldControls : List (Nat × Nat) :=
  [(F_PTB_DELAY, 0), (F_PTB_HOLD, 1), (F_PTB_LANE, 2), (F_PTB_ACK, 3), (F_PTB_SKEW, 4), (F_PTB_XC, 5), (F_PTB_PROOF, 6), (F_PTB_PAIR, 7), (F_PTB_WDOG, 11)]

/-- End field perturbation (R839): every held control returns to its reset value and the die is disarmed; ptb_end is
raised with its cause. -/
def endPtb (cause : Nat) (f : FieldDie) : FieldDie :=
  if f.flag F_PTB_ARM_armed = false then f
  else
    let f := forAll heldControls (fun c f => f.wr c.1 0) f
    let f := (f.wr F_PTB_ACTIVE 0).wrN F_PTB_ARM 0xFF
    let f := { f with
      ptb := {}
      flt := { f.flt with stopped := [] }
      xng := { f.xng with ackAmnesty := 0 }
      twin := { f.twin with ackAmnesty := 0 } }
    (f.put F_PTB_EVT_INFO_cause cause).raise F_PTB_EVT 1

/-- Requesters that `p` names have undergone a reset of R280: their locks are orphaned, their staged words discarded
(R251), the pins they own fall to their safe level, and perturbation that one of them armed ends. -/
def requesterReset (p : Nat → Bool) (f : FieldDie) : FieldDie :=
  let f := pinFall (fun c => decide (c ≤ 0x40) && p c) (dropStaged p (orphanOwned p f))
  if f.flag F_PTB_ARM_armed && p (f.get F_PTB_ARM_owner) then endPtb 3 f else f

end Sys2Proof.Machine
end

