-- ==== Sys2Proof/Machine/Ports.lean ====
section
/-! DEFINITION. The port commands (chapter 7): modes and their holds, link establishment and loss, sleep, Power over
Data Lines, verification for preemption, and PAUSE. -/

namespace Sys2Proof.Machine

/-! ### Register writes of a port -/

/-- A write of F_PORT_n_MODE (R293, R296). Each write of 0 to enable leaves reason DISABLED (R301). -/
def writePortMode (req n data : Nat) (f : FieldDie) : FieldDie :=
  if modeOk n (bitsOf data 6 4) = false ∨ bitsOf data 3 2 = 3 then f.raise (F_PORT_EVT n) 3
  else
    let old := f.rdN (F_PORT_MODE n)
    let f := modeChanged n old (votedMode n (storeWrite req (F_PORT_MODE n) data f))
    if f.isRunning ∧ hasBit data 0 = false then f.put (F_PORT_STAT_down_reason n) 6 else f

/-- A write of F_PORT_n_MAXFRM (R324, R325). -/
def writeMaxFrame (req n data : Nat) (f : FieldDie) : FieldDie :=
  let v := bitsOf data 11 0
  if v < 64 ∨ 2048 < v then f.raise (F_PORT_EVT n) 3 else storeWrite req (F_PORT_MAXFRM n) data f

/-- A write of F_PORT_n_SLEEP: wake_now and sleep_req act in the order of Table 7.3 (R298, R310, R314). -/
def writeSleep (req n data : Nat) (f : FieldDie) : FieldDie :=
  let f := storeWrite req (F_PORT_SLEEP n) data f
  let off := hasBit data 1 == false
  let f := if off then f.setPortX n (fun x => { x with retry := false }) else f
  if f.isRunning = false then f
  else
    let st := portState f n
    if hasBit data 0 ∧ (st = 5 ∨ st = 7) then startWake n false f
    else if off ∧ st = 5 then startWake n false f
    else if off ∧ st = 7 then enterState n 2 1 f
    else if off ∧ st = 4 then enterState n 3 0 f
    else trySleep n f

/-- A write of F_PORT_n_PREEMPT: setting preempt_en starts verification on a port that is up (R319, R320). -/
def writePreempt (req n data : Nat) (f : FieldDie) : FieldDie :=
  let old := f.rdN (F_PORT_PREEMPT n)
  let f := storeWrite req (F_PORT_PREEMPT n) data f
  let w := f.rdN (F_PORT_PREEMPT n)
  if bitOf old 0 = 0 ∧ bitOf w 0 = 1 ∧ stateUp (portState f n) then startVerify n f
  else if bitOf w 0 = 0 ∧ stateUp (portState f n) then refreshPreempt n (f.put (F_PORT_STAT_verify_state n) 0)
  else refreshPreempt n f

/-- A field of F_PORT_n_PODL follows the front end while the register file is out of reset; a change raises podl_change
(R308). -/
def showPodl (n : Nat) (r : Fld) (v : Nat) (f : FieldDie) : FieldDie :=
  if (f.powered || f.phase == .released) && f.get r != v then (f.put r v).raise (F_PORT_EVT n) 6 else f

/-- SCCP state of trunk `n`, as the front end holds it. -/
def sccpOf (f : FieldDie) (n : Nat) : Nat := f.pwr.sccp.getD n 0

/-- Set the SCCP state of trunk `n` (R305, R308). -/
def setSccp (n st : Nat) (f : FieldDie) : FieldDie :=
  showPodl n (F_PORT_PODL_sccp_state n) st { f with pwr := { f.pwr with sccp := modAt f.pwr.sccp n (fun _ => st) } }

/-- Request wake from the PoDL sleep state (R307). -/
def podlWake (n : Nat) (f : FieldDie) : FieldDie :=
  if sccpOf f n = 3 then setSccp n 4 f else f

/-- A write of F_PORT_n_PODL. -/
def writePodl (req n data : Nat) (f : FieldDie) : FieldDie :=
  let f := storeWrite req (F_PORT_PODL n) data f
  if hasBit data 2 then podlWake n f else f

/-! ### PAUSE (R330 to R333) -/

/-- pause_cap in units of 0.1 ns (R333). -/
def pauseCap (f : FieldDie) (n : Nat) : Nat := min 1000 (max 1 (f.get (F_PORT_PAUSE_pause_cap n))) * 10000

/-- The stop of queue `q` of port `n`. -/
def pauseStop (f : FieldDie) (n q : Nat) : PauseStop := (f.portX n).stops.getD q {}

/-- Whether PAUSE stops queue `q` of port `n` at this fine tick. A stop ends with its time alone, whatever states the port
passes through (R331). -/
def pauseStopped (f : FieldDie) (n q : Nat) : Bool := decide (f.now10 < (pauseStop f n q).until_)

/-- Change the stop of a queue, and keep paused. -/
def setStop (n q : Nat) (g : PauseStop → PauseStop) (f : FieldDie) : FieldDie :=
  let f := f.setPortX n (fun x => { x with stops := modAt (if x.stops.length < 8 then x.stops ++ List.replicate (8 - x.stops.length) {} else x.stops) q g })
  f.put (F_PORT_STAT_paused n) (if (List.range 8).any (pauseStopped f n) then 1 else 0)

/-- A PAUSE frame with `quanta` is received whole at port `n` (R330 to R332). -/
def pauseFrame (n quanta : Nat) (f : FieldDie) : FieldDie :=
  if n < 4 ∧ f.flag (F_PORT_PAUSE_pause_rx n) then
    let f := f.count (cPort n 6)
    if quanta = 0 then forRange 8 (fun q f => setStop n q (fun p => { p with until_ := 0 }) f) f
    else
      let mask := f.get (F_PORT_PAUSE_pause_mask n)
      forRange 8 (fun q f =>
        let p := pauseStop f n q
        if hasBit mask q ∧ p.ignore ≤ f.now10 then
          setStop n q (fun x => { x with
            since := if p.until_ ≠ 0 ∧ f.now10 ≤ p.until_ then x.since else f.now10
            until_ := f.now10 + quanta * 64 * byteTime f n }) f
        else f) f
  else f.countDrop n 7

/-! ### Meanings -/

/-- PORT_MODE_WRITE (R293): see `writePortMode`. -/
def execPortModeWrite (req n : Nat) (data : Word) (s : State) : Host.Outcome State Fault Refusal :=
  s.onItemWrite req n 16 (writePortMode req n data.toNat)

/-- MODE_CHANGE_HOLD_END (R296): the MODE_CHANGE hold ends, unless the voted mode is still one that the port does not
accept (R878). -/
def execModeChangeHoldEnd (n : Nat) (s : State) : Host.Outcome State Fault Refusal :=
  s.onItem n 16 (fun f => if 5 ∈ (f.portX n).holds ∧ (f.portX n).modeBad = false then holdEnd n 5 f else f)

/-- MAX_FRAME_WRITE (R325): see `writeMaxFrame`. -/
def execMaxFrameWrite (req n : Nat) (data : Word) (s : State) : Host.Outcome State Fault Refusal :=
  s.onItemWrite req n 16 (writeMaxFrame req n data.toNat)

/-- LINK_ESTABLISHED (R302): a port in TRAINING or WAKING enters UP, after a wake not before the wake ramp's delay
(R156). The links of P12 to P15 come up with their beacons (R350, R351). -/
def linkEstablished (n : Nat) (master : Bool) (f : FieldDie) : FieldDie :=
  let st := portState f n
  if (st = 2 ∨ st = 6) ∧ (f.portX n).wakeAt ≤ f.now then
    let role := if !isT1 f n then 0
      else if f.get (F_PORT_MODE_role n) = 1 then 1
      else if f.get (F_PORT_MODE_role n) = 2 then 2
      else if master then 1 else 2
    trySleep n (enterState n 3 0 (f.put (F_PORT_STAT_role_res n) role))
  else f

def execLinkEstablished (n : Nat) (master : Bool) (s : State) : Host.Outcome State Fault Refusal :=
  s.onItem n 12 (linkEstablished n master)

/-- The link of port `n` is lost: TRAINING with reason NO_PARTNER. -/
def loseLink (n : Nat) (f : FieldDie) : FieldDie := (enterState n 2 1 f).put (F_PORT_STAT_role_res n) 0

/-- How long the link must have been false without a break for a loss at port `n`, ns (Table 7.5). -/
def lossTime (f : FieldDie) (n : Nat) : Nat := if phyMode f n = 1 then 10000 else 200000

/-- LINK_LOSS (R302): a port in UP whose link has been false for the time of Table 7.5 enters TRAINING. -/
def execLinkLoss (n : LinkDown) (s : State) : Host.Outcome State Fault Refusal :=
  s.onItem n.port 12 (fun f => if portState f n.port = 3 ∧ lossTime f n.port ≤ n.ns then loseLink n.port f else f)

/-- SLEEP_REQUEST_WRITE (R310): a write of F_PORT_n_SLEEP that sets or clears sleep_req. -/
def execSleepRequestWrite (req n : Nat) (data : Word) (s : State) : Host.Outcome State Fault Refusal :=
  s.onItemWrite req n 12 (writeSleep req n data.toNat)

/-- Whether the egress of port `n` is empty: no queued copy, none being sent or preempted (R311). -/
def egressEmpty (f : FieldDie) (n : Nat) : Bool :=
  !queuesBusy f n && (f.portX n).sending == none && (f.portX n).preempted == none

/-- SLEEP_QUIET (R311, R312): with the egress found empty, after which no further frame starts, and reception quiet for
sleep_idle fine ticks, the port enters SLEEP or sends the TC10 sleep request. -/
def sleepQuiet (n : Nat) (f : FieldDie) : FieldDie :=
  if portState f n = 4 ∧ (egressEmpty f n ∨ (f.portX n).drained) ∧ f.inRx n = none ∧ (f.portX n).sleepSent = false
      ∧ (f.portX n).quietFrom + f.get (F_PORT_SLEEP_sleep_idle n) ≤ f.now then
    if f.flag F_PWR_CTRL_tc10_en then
      ((f.setPortX n (fun x => { x with sleepSent := true, sleepAt := f.now, drained := true })).put (F_PORT_STAT_tc10 n) 1).emit (.sleepRequest n)
    else enterState n 5 0 (f.put (F_PORT_STAT_tc10 n) 0)
  else f

def execSleepQuiet (n : Nat) (s : State) : Host.Outcome State Fault Refusal := s.onItem n 12 (sleepQuiet n)

/-- The fine tick up to which the partner's acknowledgement counts: 40 µs after the sleep request (R312). -/
def ackLimit (f : FieldDie) (n : Nat) : Nat := (f.portX n).sleepAt + 40 * usTicks

/-- TC10_SLEEP_ACK (R312): the partner acknowledges the sleep request within 40 µs and the port enters SLEEP. -/
def execTc10SleepAck (n : Nat) (s : State) : Host.Outcome State Fault Refusal :=
  s.onItem n 12 (fun f => if portState f n = 4 ∧ (f.portX n).sleepSent ∧ f.now ≤ ackLimit f n then enterState n 5 0 f else f)

/-- TC10_SLEEP_TIMEOUT (R312): 40 µs without the acknowledgement, and the port returns to UP and raises
sleep_refused. -/
def execTc10SleepTimeout (n : Nat) (s : State) : Host.Outcome State Fault Refusal :=
  s.onItem n 12 (fun f =>
    if portState f n = 4 ∧ (f.portX n).sleepSent ∧ ackLimit f n ≤ f.now then
      (enterState n 3 0 (f.setPortX n (fun x => { x with retry := true, sleepSent := false }))).raise (F_PORT_EVT n) 7
    else f)

/-- TC10_SLEEP_RETRY (R312): 1 ms after the refusal the attempt is repeated while the request stays effective. -/
def execTc10SleepRetry (n : Nat) (s : State) : Host.Outcome State Fault Refusal :=
  s.onItem n 12 (fun f =>
    if (f.portX n).retry ∧ (f.portX n).since + msTicks ≤ f.now then
      trySleep n (f.setPortX n (fun x => { x with retry := false }))
    else f)

/-- PARTNER_SLEEP (R313): with sleep_follow 1 a port that is up follows its partner to SLEEP; with sleep_follow 0
silence is link loss and a TC10 request is refused. DEDUCED (log entry 116): a port that an open window holds out of
SLEEP (R136) does as with sleep_follow 0. -/
def partnerSleep (n : Nat) (tc10 : Bool) (f : FieldDie) : FieldDie :=
  if portState f n = 3 ∧ isT1 f n then
    if f.flag (F_PORT_SLEEP_sleep_follow n) ∧ (f.portX n).windows = [] then
      enterState n 5 0 (f.put (F_PORT_STAT_tc10 n) (if tc10 then 1 else 0))
    else if tc10 then f
    else loseLink n f
  else f

def execPartnerSleep (n : Nat) (tc10 : Bool) (s : State) : Host.Outcome State Fault Refusal :=
  s.onItem n 12 (partnerSleep n tc10)

/-- WAKE_NOW (R314): a write of F_PORT_n_SLEEP that sets wake_now. -/
def execWakeNow (req n : Nat) (data : Word) (s : State) : Host.Outcome State Fault Refusal :=
  s.onItemWrite req n 12 (writeSleep req n data.toNat)

/-- Whether the PD_VLINE of trunk `n` has risen past the turn-on threshold and not fallen past the turn-off one since. -/
def lineLive (f : FieldDie) (n : Nat) : Bool := f.pwr.lineLive.getD n false

/-- Whether the PD_VLINE of trunk `n` is above the turn-on threshold. -/
def lineAbove (f : FieldDie) (n : Nat) : Bool := f.pwr.lineAbove.getD n false

/-- PODL_SLEEP_REQUEST (R306): accepted only with sleep_ok 1 and the other PD_VLINE above the turn-on threshold. The
front end works in every power state (Table 2.5); without the register file sleep_ok is not set. -/
def execPodlSleepRequest (n : Nat) (s : State) : Host.Outcome State Fault Refusal :=
  s.onField (fun f => if n < 2 ∧ f.flag (F_PORT_PODL_sleep_ok n) ∧ lineAbove f (1 - n) then setSccp n 3 f else f)

/-- PODL_WAKE_REQ (R307): software writes wake_req, or by itself, in every power state, when the other PD_VLINE is below
the turn-on threshold. -/
def execPodlWakeReq (n : Nat) (bySoftware : Bool) (s : State) : Host.Outcome State Fault Refusal :=
  s.onField (fun f => if n < 2 ∧ (if bySoftware then f.isRunning else !lineAbove f (1 - n)) then podlWake n f else f)

/-- verify_ms in fine ticks: 0 acts as 1, and values above 128 as 128 (Table 7.12). -/
def verifyGap (f : FieldDie) (n : Nat) : Nat := min 128 (max 1 (f.get (F_PORT_PREEMPT_verify_ms n))) * msTicks

/-- VERIFY_SEND (R320): a verify frame every verify_ms milliseconds, up to 3 of them, while verification runs. -/
def execVerifySend (n : Nat) (s : State) : Host.Outcome State Fault Refusal :=
  s.onItem n 12 (fun f =>
    if f.get (F_PORT_STAT_verify_state n) = 1 ∧ portState f n = 3 ∧ (f.portX n).verify < 3
        ∧ ((f.portX n).verify = 0 ∨ (f.portX n).verifyAt + verifyGap f n ≤ f.now) then
      (f.setPortX n (fun x => { x with verify := x.verify + 1, verifyAt := f.now })).emit (.verify n false)
    else f)

/-- VERIFY_RESPONSE (R319): a response to a verify frame makes verification succeed. -/
def execVerifyResponse (n : Nat) (s : State) : Host.Outcome State Fault Refusal :=
  s.onItem n 12 (fun f =>
    if f.get (F_PORT_STAT_verify_state n) = 1 ∧ 0 < (f.portX n).verify then
      refreshPreempt n (f.put (F_PORT_STAT_verify_state n) 2)
    else f)

/-- VERIFY_FAIL (R320): no response within verify_ms milliseconds of the third verify frame. -/
def execVerifyFail (n : Nat) (s : State) : Host.Outcome State Fault Refusal :=
  s.onItem n 12 (fun f =>
    if f.get (F_PORT_STAT_verify_state n) = 1 ∧ 3 ≤ (f.portX n).verify ∧ (f.portX n).verifyAt + verifyGap f n ≤ f.now then
      (refreshPreempt n (f.put (F_PORT_STAT_verify_state n) 3)).raise (F_PORT_EVT n) 4
    else f)

/-- PAUSE_RECEIVE (R331): see `pauseFrame`. -/
def execPauseReceive (n quanta : Nat) (s : State) : Host.Outcome State Fault Refusal :=
  s.onItem n 16 (fun f => if stateUp (portState f n) then pauseFrame n (quanta % 65536) f else f)

/-- PAUSE_EXPIRE (R331): the stop of queue `q` has run its time. When it ended is kept, because a PAUSE at that very
instant goes on without a break (R332). -/
def execPauseExpire (n q : Nat) (s : State) : Host.Outcome State Fault Refusal :=
  s.onItem n 4 (fun f => if q < 8 ∧ (pauseStop f n q).until_ ≤ f.now10 then setStop n q id f else f)

/-- PAUSE_CAPPED (R332): a queue stopped for pause_cap without a break is released, and honours no PAUSE for the time of
one frame of 2,068 bytes. A stop whose time ends with pause_cap itself is one. -/
def execPauseCapped (n q : Nat) (s : State) : Host.Outcome State Fault Refusal :=
  s.onItem n 4 (fun f =>
    if q < 8 ∧ (pauseStop f n q).until_ ≠ 0 ∧ (pauseStop f n q).since + pauseCap f n ≤ min f.now10 (pauseStop f n q).until_ then
      (setStop n q (fun p => { p with until_ := 0, ignore := f.now10 + 2068 * byteTime f n }) f).raise (F_PORT_EVT n) 5
    else f)

end Sys2Proof.Machine
end

