-- ==== Sys2Proof/Machine/Frames.lean ====
section
/-! DEFINITION. The frame path up to the egress queues (chapters 7, 9, 10 and 11): reception, the passes, learning,
ageing, flushing, aggregation and the buffer's registers. -/

namespace Sys2Proof.Machine

/-- Where the power manager stands (Table 3.7): 0 RUN, 1 NAP, 2 DARK_ENTRY, 3 WAKING. -/
def powerState (f : FieldDie) : Nat := f.get F_PWR_STATE_state

/-- What the ingress timestamp of a frame adds to its fine tick, ns (R567): the phase at its timestamp point, less the
built-in latency and lat_rx. P16 has neither. -/
def rxShift (f : FieldDie) (n phase : Nat) : Int :=
  if n = 16 then 0
  else (phase % 8 : Nat) - (phyRx f n : Int) - (if n < 12 then f.get (F_TIM_PORT_LAT_lat_rx n) else 0 : Nat)

/-- The ingress timestamp of a frame in system time (R567, R569). -/
def ingressTs (f : FieldDie) (n phase : Nat) : Nat := f.sysAt (rxShift f n phase)

/-- Begin a frame at the MAC of port `n`, with its ingress timestamp; it ends NAP (R107). -/
def beginRx (n phase : Nat) (f : FieldDie) : FieldDie :=
  let lim := if n = 16 then 2048 else f.get (F_PORT_MAXFRM_max_frame n)
  let fr : Frame := { id := f.buf.nextId, port := n, ts := ingressTs f n phase, at_ := f.stampAt (rxShift f n phase), maxFrame := lim }
  { f with buf := { f.buf with frames := f.buf.frames ++ [fr], nextId := f.buf.nextId + 1 } }.napBreak

/-! ### Opportunities of a segment -/

/-- Nodes of a cycle: a follower knows no count. -/
def segNodes (f : FieldDie) (k : Nat) : Nat :=
  if f.flag (F_MDS_PLCA_role k) then 32 else f.get (F_MDS_PLCA_node_count k)

/-- The node whose opportunity runs (R349): the next one's begins at `toStart`. -/
def runNode (f : FieldDie) (k : Nat) : Nat :=
  let x := f.segX k
  if x.toStart ≤ f.now10 then x.toNode % 32 else f.get (F_MDS_STAT_cur_to k)

/-- Bring F_MDS_n_STAT.cur_to to the present fine tick (R349). -/
def showNode (k : Nat) (f : FieldDie) : FieldDie :=
  let x := f.segX k
  if x.active ∧ x.toStart ≤ f.now10 then
    f.put (F_MDS_STAT_cur_to k) (if x.toNode < segNodes f k then x.toNode else 0)
  else f

/-- The running opportunity ends and the next node's begins at `start`. -/
def nextNode (k start : Nat) (f : FieldDie) : FieldDie :=
  showNode k (f.setSegX k (fun x => { x with
    toNode := x.toNode + 1, toStart := start, used := false, waiting := false, burst := 0 }))

/-- A transmission begins in the running opportunity of a segment whose opportunities are timed (R344, R366). -/
def segSeen (n : Nat) (f : FieldDie) : FieldDie :=
  if 12 ≤ n ∧ n < 16 ∧ (f.segX (n - 12)).active then
    let node := runNode f (n - 12)
    f.setSegX (n - 12) (fun x => { x with used := true, hearing := true, winSeen := setBit x.winSeen node })
  else f

/-- FRAME_START (R324, R113, R326): a frame begins reception, or is refused by the power or the port state. Every
transmission on a segment counts in its opportunity, received or not (R346). -/
def frameStart (n phase : Nat) (f : FieldDie) : FieldDie :=
  let st := portState f n
  if (f.inRx n ≠ none ∧ (12 ≤ n ∨ f.buf.frames.any (fun fr => fr.port == n && fr.held))) ∨
      (12 ≤ n ∧ (f.segX (n - 12)).silentWait) then f
  else
    let f := segSeen n f
    if stateUp st = false then f
    else if powerState f = 2 then f.countDrop n 6
    else if st = 4 ∧ (f.portX n).sleepSent then f.countDrop n 9
    else beginRx n phase (holdAssembly n f)

def execFrameStart (port phase : Nat) (s : State) : Host.Outcome State Fault Refusal :=
  s.onItem port 16 (frameStart port phase)

/-- The condition of Table 7.7 under which a received frame is discarded, 0 when the MAC accepts it; `cond` is what the
PHY or the fragment assembly reported at the frame's end: 0 none, 4 PHY_ERROR, 5 TRUNCATED, 8 a fragment with a wrong
count or mCRC, 0x18 a fragment with an SMD that does not belong (R323, R326). -/
def macVerdict (bs : List Byte) (maxFrame cond : Nat) : Nat :=
  let n := bs.length
  if maxFrame + 1 < n then 3
  else if cond = 4 ∨ cond = 5 then cond
  else if maxFrame < n then 3
  else if cond = 8 ∨ cond = 0x18 then 8
  else if n < 64 then 2
  else if leBytes (bs.drop (n - 4)) ≠ fcs32 (bs.take (n - 4)) then 1
  else if isMacControl bs then 7
  else 0

/-- Whether some copy of frame `id` is cut through. -/
def hasCt (f : FieldDie) (id : Nat) : Bool :=
  f.buf.queued.any (fun c => c.frame == id && c.ct) ||
  f.ports.any (fun p => p.sending.any (fun c => c.frame == id && c.ct) || p.preempted.any (fun c => c.frame == id && c.ct))

/-- Whether a frame that was decided before its end turns out to exceed its stream's max_sdu (R498); one that has been
dropped already is seen by no later stage (R28). -/
def tooLong (fr : Frame) (len : Nat) : Bool :=
  fr.final.isSome && fr.stream.isSome && !fr.dropped && fr.sdu != 0 && decide (fr.sdu < len)

/-- The MAC accepts frame `fr` whole: counted, charges, meters and rate levels settled, its copies join their queues (R458,
R460, R503, R509, R515, R792); one that turns out too long for its stream is dropped at stage 4 (R498). -/
def acceptFrame (fr : Frame) (f : FieldDie) : FieldDie :=
  let len := fr.bytes.length
  let f := (f.count (cPort fr.port 0)).countN (cPort fr.port 1) len
  let f := settleStage4 fr len (settleRate fr.id len f)
  let f := f.setFrame fr.id (fun x => { x with rx := false, accepted := true, metered := none, octets := none })
  let f := if tooLong fr len then
      let i := fr.stream.getD 0
      oversizeStream i fr.blocks (dropFrameCopies fr.id 0x30 ((stageDrop fr 0x30 f).count (cStream i 2)))
    else f
  settleFrame fr.id len f

/-- End the frame in reception at port `n` (R326): `cond` is the condition reported with its end. -/
def endRx (n cond : Nat) (f : FieldDie) : FieldDie :=
  match f.inRx n with
  | none => f
  | some fr =>
    let f := f.setPortX n (fun x => { x with quietFrom := f.now })
    let f := { f with pwr := { f.pwr with rxAt := f.now } }
    let v := macVerdict fr.bytes fr.maxFrame cond
    if v = 0 then acceptFrame fr f
    else if v = 7 ∧ n < 16 ∧ beAt fr.bytes 14 2 = 1 then
      pauseFrame n (beAt fr.bytes 16 2) (f.setFrame fr.id (fun x => { x with rx := false, bad := 7 }))
    else rejectFrame fr v f

/-- Another node's transmission on a segment ends: its opportunity ends at the end of the gap (R345, R346). -/
def segFrameEnd (n : Nat) (f : FieldDie) : FieldDie :=
  if 12 ≤ n ∧ n < 16 then
    let f := f.setPortX n (fun x => { x with quietFrom := f.now })
    if (f.segX (n - 12)).hearing then
      nextNode (n - 12) (f.now10 + 96000) (f.setSegX (n - 12) (fun x => { x with hearing := false }))
    else f
  else f

/-- A verify frame has been received at port `n`: it is answered, and is no frame of the data path (R317, R329). -/
def verifyReceived (n : Nat) (f : FieldDie) : FieldDie :=
  match f.inRx n with
  | some fr => (f.setFrame fr.id (fun x => { x with rx := false, dropped := true })).emit (.verify n true)
  | none => f

/-- The condition with which a frame ends: one at a port that has fallen silent for SLEEP longer than sleep_idle ago is
truncated (R316). -/
def endCond (f : FieldDie) (n cond : Nat) : Nat :=
  if n < 12 ∧ portState f n = 5 ∧ (f.portX n).since + f.get (F_PORT_SLEEP_sleep_idle n) < f.now then 5 else cond

/-- FRAME_END (R326): reception ends, with the last bytes, the condition that the PHY or the fragment assembly reports
(0x20: it was a verify frame), and the number of fragments that the frame came in, 0 for a frame not sent preemptable
(R323). -/
def frameEnd (n : Nat) (bytes : List Byte) (cond frags : Nat) (f : FieldDie) : FieldDie :=
  if f.inRx n = none then segFrameEnd n f
  else if cond = 0x20 ∧ n < 12 then resumeAssembly n (verifyReceived n f)
  else
    let f := f.countN (cPort n 22) frags
    let f := if cond = 8 then f.count (cPort n 24) else if cond = 0x18 then f.count (cPort n 25)
      else if 1 < frags then f.count (cPort n 26) else f
    segFrameEnd n (resumeAssembly n (endRx n (endCond f n cond) (takeBytes n bytes f)))

def execFrameEnd (port : Nat) (bytes : List Byte) (cond frags : Nat) (s : State) : Host.Outcome State Fault Refusal :=
  s.onItem port 16 (frameEnd port bytes cond frags)

/-- SHORT_PASS (R384): see `shortPassOp`; the bytes of a frame at P16 are there already. -/
def execShortPass (port : Nat) (bytes : List Byte) (s : State) : Host.Outcome State Fault Refusal :=
  s.onItem port 17 (shortPassOp port (if port = 16 then [] else bytes))

/-- The frame that is entering stage 1 at P16 has entered whole (R694); a MAC control frame is never forwarded (R329). -/
def finishP16 (f : FieldDie) : FieldDie :=
  match f.inRx 16 with
  | some fr =>
    let fr' := { fr with bytes := fr.bytes ++ fr.rest, rest := [] }
    let f := f.setFrame fr.id (fun _ => fr')
    if isMacControl fr'.bytes then rejectFrame fr' 7 f else acceptFrame fr' f
  | none => f

/-- The full pass of a frame at P16. It enters stage 1 at 32 bytes in a fine tick (R694): 64 ns after byte 128 a frame of
up to 384 bytes has entered whole, and a longer one still enters (R387, R457). -/
def fullPassP16 (f : FieldDie) : FieldDie :=
  match f.inRx 16 with
  | some fr =>
    let bs := fr.bytes ++ fr.rest
    if 384 < bs.length then
      finishP16 (fullPassOp 16 [] (f.setFrame fr.id (fun x => { x with bytes := bs.take 384, rest := bs.drop 384 })))
    else fullPassOp 16 [] (finishP16 f)
  | none => fullPassOp 16 [] f

/-- FULL_PASS (R387): see `fullPassOp` and `fullPassP16`. -/
def execFullPass (port : Nat) (bytes : List Byte) (s : State) : Host.Outcome State Fault Refusal :=
  s.onItem port 17 (fun f => if port = 16 then fullPassP16 f else fullPassOp port bytes f)

/-- KEY_CAPTURE_ARM (R402): a write of F_CLS_CAP_CTRL. -/
def writeCapCtrl (req data : Nat) (f : FieldDie) : FieldDie :=
  let f := storeWrite req F_CLS_CAP_CTRL data f
  if hasBit data 31 then { f with fwd := { f.fwd with armed := true } }.put F_CLS_CAP_CTRL_done 0 else f

def execKeyCaptureArm (req : Nat) (data : Word) (s : State) : Host.Outcome State Fault Refusal :=
  s.onWrite req (writeCapCtrl req data.toNat)

/-- LEARN (R420): the learn that a frame accepted whole left pending takes effect; a standby part learns nothing (R423). -/
def learnOp (n : Nat) (f : FieldDie) : FieldDie :=
  match f.buf.frames.find? (fun fr => fr.port == n && fr.learn && fr.accepted) with
  | some fr =>
    let f := f.setFrame fr.id (fun x => { x with learn := false })
    match fr.final with
    | some r => if f.standbyPath then f else fdbLearn n (frameSa fr.bytes) r.vid f
    | none => f
  | none => f

def execLearn (port : Nat) (s : State) : Host.Outcome State Fault Refusal := s.onItem port 17 (learnOp port)

/-! ### Ageing and flushing (R425 to R431) -/

/-- The ager's period in fine ticks: age_s × 125 ms. -/
def agePeriod (f : FieldDie) : Nat := f.get F_FWD_AGE_age_s * 125 * msTicks

/-- An entry grows older by one tick, and at 8 it is invalidated. -/
def ageEntry (i : Nat) (f : FieldDie) : FieldDie :=
  let e := f.fdb i
  let age := bitsOf e.w0 11 8 + 1
  if 8 ≤ age then
    (fdbInvalidate i { f with fwd := { f.fwd with agedOut := f.fwd.agedOut ++ [i] } }).count (cGlobal 3)
  else f.wrN (fdbAddr i 0) (putBits e.w0 11 8 age)

/-- One tick of the ager (R425): every valid learned entry grows older, and one that reaches 8 is invalidated,
but for those that a learn has hit in the same fabric cycle (R428). On a standby part nothing ages (R423). -/
def agerTick (f : FieldDie) : FieldDie :=
  if f.get F_FWD_AGE_age_s = 0 ∨ f.now < f.fwd.ageTick + agePeriod f then f
  else
    let f := { f with fwd := { f.fwd with ageTick := f.fwd.ageTick + agePeriod f } }
    let f := meetCycle f
    if f.standbyPath then f
    else fdbRecount (forAll ((fdbValid f).filter (fun i => !(f.fdb i).isStatic && !f.fwd.learnHits.contains i)) ageEntry f)

def execAgerTick (s : State) : Host.Outcome State Fault Refusal := s.onRun agerTick

/-- AGE_WRITE (R427): a write of F_FWD_AGE restarts the tick phase. -/
def writeAge (req data : Nat) (f : FieldDie) : FieldDie :=
  let f := storeWrite req F_FWD_AGE data f
  { f with fwd := { f.fwd with ageTick := f.now } }

def execAgeWrite (req : Nat) (data : Word) (s : State) : Host.Outcome State Fault Refusal :=
  s.onWrite req (writeAge req data.toNat)

/-- Whether an entry matches the flush setting (R429). -/
def flushMatch (match_ port vid : Nat) (incl : Bool) (e : FdbEntry) : Bool :=
  (incl || !e.isStatic) &&
  (match_ == 0 || match_ == 2 || (!e.maskDst && e.dest == port)) &&
  (match_ == 0 || match_ == 1 || e.vid == vid)

/-- FDB_FLUSH (R429, R430): a write of F_FWD_FLUSH. -/
def writeFdbFlush (req data : Nat) (f : FieldDie) : FieldDie :=
  let f := storeWrite req F_FWD_FLUSH data f
  if hasBit data 31 ∧ f.get F_FWD_FLUSH_busy = 0 then
    (fdbPurge (flushMatch (f.get F_FWD_FLUSH_match) (f.get F_FWD_FLUSH_port) (f.get F_FWD_FLUSH_vid)
      (f.flag F_FWD_FLUSH_incl_static)) f).put F_FWD_FLUSH_busy 1
  else f

def execFdbFlush (req : Nat) (data : Word) (s : State) : Host.Outcome State Fault Refusal :=
  s.onWrite req (writeFdbFlush req data.toNat)

/-- FDB_FLUSH_DONE (R430). -/
def execFdbFlushDone (s : State) : Host.Outcome State Fault Refusal :=
  s.onRun (fun f => if f.flag F_FWD_FLUSH_busy then (f.put F_FWD_FLUSH_busy 0).raise F_FWD_EVT 4 else f)

/-! ### Aggregation (R438 to R445) -/

/-- Whether slot `s` of group `g` is active by its rule (R439). -/
def slotActive (f : FieldDie) (g s : Nat) : Bool :=
  let p := slotPort f g s
  slotEn f g s && linkUp f p &&
  decide ((f.portX p).upSince + f.get F_FWD_AGG_REJOIN_rejoin_ms * msTicks ≤ f.now)

/-- The ports of the enabled slots that a set of register values gives. -/
def aggPorts (ws : List Nat) : List Nat :=
  ws.flatMap (fun w => ((List.range 4).filter (fun s => hasBit w (28 + s))).map (fun s => bitsOf w (5 * s + 4) (5 * s)))

/-- A write of F_FWD_AGG_g (R438, R444). -/
def writeAgg (req g data : Nat) (f : FieldDie) : FieldDie :=
  let ws := (List.range 4).map (fun k => if k = g then data else f.rdN (F_FWD_AGG k))
  let ps := aggPorts ws
  if ps.any (fun p => decide (15 < p)) ∨ ps.eraseDups.length ≠ ps.length then (f.put F_FWD_EVT_INFO_index g).raise F_FWD_EVT 2
  else
    let old := f.rdN (F_FWD_AGG g)
    let before := aggPorts [old]
    let f := storeWrite req (F_FWD_AGG g) data f
    let w := f.rdN (F_FWD_AGG g)
    let after := aggPorts [w]
    if bitsOf old 31 28 = bitsOf w 31 28 ∧ bitsOf old 19 0 = bitsOf w 19 0 then f
    else
      let moved := before.filter (fun p => !after.contains p) ++ after.filter (fun p => !before.contains p)
      let f := fdbPurge (fun e => !e.isStatic && !e.maskDst && (e.dest == 0x18 + g || moved.contains e.dest)) f
      setActive g (((List.range 4).filter (slotActive f g)).foldl setBit 0) f

/-- AGG_WRITE (R438): see `writeAgg`. -/
def execAggWrite (req g : Nat) (data : Word) (s : State) : Host.Outcome State Fault Refusal :=
  s.onItemWrite req g 4 (writeAgg req g data.toNat)

/-- MEMBER_REJOIN (R439): a member whose port has been link-up for rejoin_ms becomes active. -/
def execMemberRejoin (g slot : Nat) (s : State) : Host.Outcome State Fault Refusal :=
  s.onItem g 4 (fun f => if slot < 4 ∧ slotActive f g slot then setActive g (setBit (f.get (F_FWD_AGG_STAT_active g)) slot) f else f)

/-! ### The buffer's registers (R478, R483, R487) -/

/-- A write of F_BUF_FLUSH (R478). -/
def writeBufFlush (req data : Nat) (f : FieldDie) : FieldDie :=
  let f := storeWrite req F_BUF_FLUSH data f
  if hasBit data 31 ∧ f.get F_BUF_FLUSH_busy = 0 then
    (flushQueues (f.get F_BUF_FLUSH_port) (f.get F_BUF_FLUSH_queues) f).put F_BUF_FLUSH_busy 1
  else f

/-- QUEUE_FLUSH (R478): see `writeBufFlush`. -/
def execQueueFlush (req : Nat) (data : Word) (s : State) : Host.Outcome State Fault Refusal :=
  s.onWrite req (writeBufFlush req data.toNat)

/-- QUEUE_FLUSH_DONE (R478). -/
def execQueueFlushDone (s : State) : Host.Outcome State Fault Refusal :=
  s.onRun (fun f => if f.flag F_BUF_FLUSH_busy then
    ((f.put F_BUF_FLUSH_busy 0).put F_BUF_EVT_INFO_port (f.get F_BUF_FLUSH_port)).raise F_BUF_EVT 4 else f)

/-- A write of F_BUF_PORT_n_CFG (R487). -/
def writeBufPortCfg (req n data : Nat) (f : FieldDie) : FieldDie :=
  let rsv := bitsOf data 12 0
  let sum := (List.range 17).foldl (fun a k => a + (if k = n then rsv else f.get (F_BUF_PORT_CFG_rsv k))) 0
  if 4096 < rsv ∨ 16384 < sum then (f.put F_BUF_EVT_INFO_port n).raise F_BUF_EVT 2
  else refreshPool (storeWrite req (F_BUF_PORT_CFG n) data f)

/-- BUF_PORT_CFG_WRITE (R487): see `writeBufPortCfg`. -/
def execBufPortCfgWrite (req n : Nat) (data : Word) (s : State) : Host.Outcome State Fault Refusal :=
  s.onItemWrite req n 17 (writeBufPortCfg req n data.toNat)

/-- A write of F_BUF_CTRL: wm_reset sets every watermark to its present charge (Table 11.2). -/
def writeBufCtrl (data : Nat) (f : FieldDie) : FieldDie :=
  if hasBit data 0 then
    let f := forRange 136 (fun k f =>
      let a := occAddr 0 k
      f.wrN a (putBits (f.rdN a) 30 16 (bitsOf (f.rdN a) 14 0))) f
    let f := forRange 17 (fun n f =>
      (f.put (F_BUF_PORT_WM_shr_wm n) (f.get (F_BUF_PORT_USE_shr_used n))).put (F_BUF_PORT_WM_res_wm n) (f.get (F_BUF_PORT_USE_res_used n))) f
    f.put F_BUF_POOL_WM_shared_wm (f.get F_BUF_POOL_shared_used)
  else f

/-- WATERMARK_RESET (R487): see `writeBufCtrl`. -/
def execWatermarkReset (req : Nat) (data : Word) (s : State) : Host.Outcome State Fault Refusal :=
  s.onWrite req (writeBufCtrl data.toNat)

/-- BUFFER_AUDIT (R483): an uncorrectable error in the queue links or charges of port `n` empties its queues under
CELL_ECC, its charges return to 0 and BUF_ECC latches; the audit gives every unreferenced cell back. DESIGN CHOICE (log
entry 51): a copy in transmission, whose charge is gone too, ends with an inverted FCS under CELL_ECC. -/
def bufferAudit (n : Nat) (f : FieldDie) : FieldDie :=
  let f := emptyPort n 0x27 f
  let cut := fun (c : Copy) => { c with cells := 0, stomp := if c.stomped then c.stomp else 0x27, stomped := true }
  let f := f.setPortX n (fun x => { x with sending := x.sending.map cut, preempted := x.preempted.map cut })
  let f := forRange 8 (fun q f => f.wrN (occAddr n q) (putBits (f.rdN (occAddr n q)) 14 0 0)) f
  let shr := f.get (F_BUF_PORT_USE_shr_used n)
  let f := (f.put (F_BUF_PORT_USE_shr_used n) 0).put (F_BUF_PORT_USE_res_used n) 0
  let f := refreshPool (f.put F_BUF_POOL_shared_used (f.get F_BUF_POOL_shared_used - shr))
  latchFault 0 (0x8000 + n) f

def execBufferAudit (port : Nat) (s : State) : Host.Outcome State Fault Refusal := s.onItem port 17 (bufferAudit port)

/-! ### Latches and rate limiters (R497, R501, R516) -/

/-- A write of F_STR_UNLATCH (R497, R501). -/
def writeUnlatch (data : Nat) (f : FieldDie) : FieldDie :=
  let i := bitsOf data 11 0
  if hasBit data 31 then f.wr (streamStatusAddr i) 0
  else if i < 256 then f.wr (sgateStateAddr i) 0
  else f

/-- UNLATCH (R497): see `writeUnlatch`. -/
def execUnlatch (req : Nat) (data : Word) (s : State) : Host.Outcome State Fault Refusal :=
  s.onWrite req (writeUnlatch data.toNat)

/-- A write of F_STR_RL_n_CFG or F_STR_RL_n_BURST sets the level to burst (R516). -/
def writeRl (req n addr data : Nat) (f : FieldDie) : FieldDie :=
  let f := storeWrite req addr data f
  f.setGateX n (fun x => { x with rlLevel := (f.get (F_STR_RL_BURST_burst n) : Int) * 1000000 })

/-- RATE_LIMITER_WRITE (R516): see `writeRl`. -/
def execRateLimiterWrite (req n : Nat) (burst : Bool) (data : Word) (s : State) : Host.Outcome State Fault Refusal :=
  s.onItemWrite req n 17 (writeRl req n (if burst then F_STR_RL_BURST n else F_STR_RL_CFG n) data.toNat)

end Sys2Proof.Machine
end

