-- ==== Sys2Proof/Machine/Launch.lean ====
section
/-! DEFINITION. The launch store and the entry of P16's frames into stage 1 (chapter 16, R690, R693 to R697). -/

namespace Sys2Proof.Machine

/-- The frame that a field-bound payload carries: its attribute block, then its bytes (R617, Table 16.4). -/
def launchOf (payload : List Byte) : LaunchFrame :=
  let flags := byteAt payload 10
  { req := byteAt payload 11, launchEn := hasBit flags 0, launch := leBytes (payload.take 8), tsReq := hasBit flags 1,
    tsId := leBytes ((payload.drop 8).take 2), directed := hasBit flags 2, ports := leBytes ((payload.drop 12).take 3) % 2 ^ 17,
    bytes := payload.drop 16 }

/-- Cells that a frame takes in the launch store, its attribute block included (R693). -/
def launchCells (x : LaunchFrame) : Nat := cellsOf (16 + x.bytes.length)

/-- Whether the launch store has no room for frame `x`. -/
def launchFull (f : FieldDie) (x : LaunchFrame) : Bool :=
  decide (64 ≤ f.launch.length) || decide (256 < (f.launch.map launchCells).sum + launchCells x)

/-- The launch time of a frame less system time, in ns, both taken modulo 2^64 and the difference read as signed. -/
def launchAhead (f : FieldDie) (x : LaunchFrame) : Int := toSigned 64 (x.launch + 2 ^ 64 - f.sysNs % 2 ^ 64)

/-- The P16 timestamp entry of a frame that carries a request. -/
def launchEntry (x : LaunchFrame) (status reason : Nat) (f : FieldDie) : FieldDie :=
  if x.tsReq then tsqPush 16 { status := status, reason := reason, id := x.tsId, ts := f.sysNs } f else f

/-- A frame at P16 is discarded before stage 1 under `code`. -/
def dropLaunch (code : Nat) (x : LaunchFrame) (f : FieldDie) : FieldDie := launchEntry x 2 code (f.countDrop 16 code)

/-- A frame enters stage 1 at P16 (R570, R694, R696): its first 64 bytes are there for a short pass, the rest follows.
In DARK_ENTRY it is discarded under POWER_STATE. -/
def enterStage1 (x : LaunchFrame) (f : FieldDie) : FieldDie :=
  if powerState f = 2 then dropLaunch 6 x f
  else
    let f := launchEntry x 1 0 (beginRx 16 0 (finishP16 f))
    f.setFrame (f.buf.nextId - 1) (fun fr => { fr with
      bytes := x.bytes.take 64
      rest := x.bytes.drop 64
      directed := if x.directed then some x.ports else none
      tsReq := if x.tsReq then some x.tsId else none })

/-- Whether a held frame's launch time has come. -/
def launchDue (f : FieldDie) (x : LaunchFrame) : Bool := decide (launchAhead f x ≤ 0)

/-- Release the oldest held frame whose launch time has come. -/
def releaseOne (f : FieldDie) : FieldDie :=
  match f.launch.find? (launchDue f) with
  | some x => enterStage1 x { f with launch := f.launch.erase x }
  | none => f

/-- Release every held frame whose launch time has come. -/
def releaseDue (f : FieldDie) : FieldDie := forRange f.launch.length (fun _ f => releaseOne f) f

/-- A frame reaches the launch store (R693, R695, R696). None is taken in DARK_ENTRY (R113). -/
def storeArrival (x : LaunchFrame) (f : FieldDie) : FieldDie :=
  if powerState f = 2 then dropLaunch 6 x f
  else if x.launchEn = false then enterStage1 x (releaseDue f)
  else if launchFull f x then dropLaunch 0x0F x (f.count (cPort 16 19))
  else if 1000000000 < launchAhead f x then dropLaunch 0x0F x (f.count (cPort 16 20))
  else if launchAhead f x < 0 then enterStage1 x (f.count (cPort 16 21))
  else if launchAhead f x = 0 then enterStage1 x f
  else { f with launch := f.launch ++ [x] }

/-- LAUNCH_STORE_ARRIVAL (R693): the oldest whole frame at P16 is judged. -/
def launchStoreArrival (f : FieldDie) : FieldDie :=
  match f.arrivals with
  | x :: xs => storeArrival x { f with arrivals := xs }
  | [] => f

def execLaunchStoreArrival (s : State) : Host.Outcome State Fault Refusal := s.onRun launchStoreArrival

/-- LAUNCH_RELEASE (R694). -/
def execLaunchRelease (s : State) : Host.Outcome State Fault Refusal := s.onRun releaseOne

/-- Discard under `code` the frames of the requesters that `p` names which have not entered stage 1. -/
def purgeLaunch (p : Nat → Bool) (code : Nat) (f : FieldDie) : FieldDie :=
  let gone := (f.arrivals ++ f.launch).filter (fun x => p x.req)
  forAll gone (dropLaunch code) { f with
    arrivals := f.arrivals.filter (fun x => !p x.req)
    launch := f.launch.filter (fun x => !p x.req) }

end Sys2Proof.Machine
end

