-- ==== Sys2Proof/Machine/Window.lean ====
section
/-! DEFINITION. The serial window (chapter 16, R716 to R720): 16 ring pairs in the field die's own memory, with the
descriptors, completions, doorbell judgement and moderation of the host rings. -/

namespace Sys2Proof.Machine

/-! ### The window's memory -/

/-- The byte at window offset `o`. -/
def winByte (f : FieldDie) (o : Nat) : Byte := Store.get (fun _ => 0) f.window o

/-- `n` bytes from window offset `o`. -/
def winBytes (f : FieldDie) (o n : Nat) : List Byte := (List.range n).map (fun i => winByte f (o + i))

/-- The word at window offset `o`. -/
def winWord (f : FieldDie) (o : Nat) : Nat := leBytes (winBytes f o 4)

/-- Store bytes from window offset `o`; the window ends at 0xFFFF. -/
def winStore : Nat → List Byte → FieldDie → FieldDie
  | _, [], f => f
  | o, b :: bs, f =>
    winStore (o + 1) bs (if o < 0x10000 then { f with window := Store.set (fun _ => 0) f.window o b } else f)

/-- Store a word at window offset `o`. -/
def setWin (o v : Nat) (f : FieldDie) : FieldDie := winStore o (bytesLE v) f

/-- Offset of word `w` of ring pair `k` (Table 16.10). -/
def pairOff (k w : Nat) : Nat := 0x40 * k + w

def winCtrl (f : FieldDie) (k : Nat) : Nat := winWord f (pairOff k 0)
def winTxSize (f : FieldDie) (k : Nat) : Nat := ringSize (bitsOf (winCtrl f k) 23 20)
def winRxSize (f : FieldDie) (k : Nat) : Nat := ringSize (bitsOf (winCtrl f k) 19 16)
def winCqSize (f : FieldDie) (k : Nat) : Nat := ringSize (bitsOf (winCtrl f k) 15 12)
def winBase (f : FieldDie) (k w : Nat) : Nat := bitsOf (winWord f (pairOff k w)) 15 0

/-- Free entries of pair `k`'s completion ring. -/
def winCqFree (f : FieldDie) (k : Nat) : Nat :=
  winCqSize f k - cntDiff (winWord f (pairOff k 0x24)) (winWord f (pairOff k 0x18))

def FieldDie.winModer (f : FieldDie) (k : Nat) : Moder := Store.get (fun _ => {}) f.winMod k
def FieldDie.setWinModer (f : FieldDie) (k : Nat) (m : Moder) : FieldDie := { f with winMod := Store.set (fun _ => {}) f.winMod k m }

/-- Write a completion into pair `k`'s ring (R705 to R707). -/
def winCompletion (k : Nat) (c : Completion) (f : FieldDie) : FieldDie :=
  let t := winWord f (pairOff k 0x24)
  let n := winCqSize f k
  let f := winStore (winBase f k 0x0C + 32 * (t % n)) (entryBytes (c.words (phaseOf t n))) f
  let f := setWin (pairOff k 0x24) ((t + 1) % 2 ^ 32) f
  let m := f.winModer k
  f.setWinModer k { count := m.count + 1, since := if m.count = 0 then f.now else m.since, now := m.now || c.now }

/-- Set bits of pair `k`'s status word: stopped, error and code. -/
def setWinStat (k : Nat) (stopped err : Bool) (code : Nat) (f : FieldDie) : FieldDie :=
  setWin (pairOff k 0x2C) ((if stopped then 2 ^ 31 else 0) + (if err then 2 ^ 30 else 0) + code * 2 ^ 8) f

/-! ### Transmission -/

/-- Whether a buffer lies wholly within the window's memory (R717). -/
def winBufferOk (d : List Byte) : Bool :=
  let a := wordAt d 0 + 2 ^ 32 * wordAt d 1
  decide (0x0800 ≤ a) && decide (a + descLen d ≤ 0x10000)

/-- Descriptor of count `n` of the ring of `size` entries at window offset `base`. -/
def winDesc (f : FieldDie) (base size n : Nat) : List Byte := winBytes f (base + 32 * (n % size)) 32

/-- The descriptors of the next frame of pair `k`, up to its eop descriptor; none while it is not posted whole. -/
def winFrame (f : FieldDie) (k : Nat) : Nat → Nat → Option (List (List Byte))
  | 0, _ => none
  | fuel + 1, n =>
    let d := winDesc f (winBase f k 0x04) (winTxSize f k) n
    if hasBit (wordAt d 2) 16 then some [d] else (winFrame f k fuel (n + 1)).map (fun ds => d :: ds)

/-- Send the next whole frame that pair `k` has posted, while its completion ring has room (R684, R688, R692, R717). -/
def winSend (k : Nat) (f : FieldDie) : FieldDie :=
  let w := winCtrl f k
  let head := winWord f (pairOff k 0x1C)
  let posted := cntDiff (winWord f (pairOff k 0x10)) head
  if hasBit w 31 = false ∨ hasBit w 29 = false ∨ winCqFree f k = 0 then f
  else match winFrame f k posted head with
    | none => f
    | some ds =>
      let d := ds.headD []
      let w2 := wordAt d 2
      let bad := badDescs ds true (fun _ _ _ => true) || ds.any (fun x => !winBufferOk x)
      let data := ds.flatMap (fun x => winBytes f (wordAt x 0) (descLen x))
      let bytes := frameBytes data
      let f := setWin (pairOff k 0x1C) ((head + ds.length) % 2 ^ 32) f
      let c : Completion := { cookie := wordAt d 7, kind := 1, status := if bad then 1 else 0, count := min ds.length 8, length := if bad then 0 else bytes.length, info := bitsOf (wordAt d 3) 15 0, now := hasBit w2 25 }
      let f := winCompletion k c f
      if bad then f else { f with arrivals := f.arrivals ++ [launchOf (attrBytes d 0x40 ++ bytes)] }

/-- Send every whole frame that pair `k` has posted. -/
def winSendAll (k : Nat) (f : FieldDie) : FieldDie :=
  forRange (cntDiff (winWord f (pairOff k 0x10)) (winWord f (pairOff k 0x1C))) (fun _ f => winSend k f) f

/-! ### Delivery (R718) -/

/-- Whether queue `q` of P16 is delivered to the window. -/
def toWindow (f : FieldDie) (q : Nat) : Bool := hasBit (winWord f 0x400) 31 && hasBit (winWord f 0x400) q

/-- The receive descriptors that pair `k` has posted. -/
def winPosted (f : FieldDie) (k : Nat) : List (List Byte) :=
  let head := winWord f (pairOff k 0x20)
  (List.range (min (cntDiff (winWord f (pairOff k 0x14)) head) (winRxSize f k))).map (fun i =>
    winDesc f (winBase f k 0x08) (winRxSize f k) (head + i))

/-- As `rxPlan`, a buffer outside the window's memory being bad as well. -/
def winRxPlan (len : Nat) (ds : List (List Byte)) : Option (Nat × List (List Byte) × List (List Byte)) :=
  rxPlan len (ds.map (fun d => if winBufferOk d then d else d.take 8 ++ [0, 0] ++ d.drop 10)) 0 [] []

/-- Write a frame's bytes into the buffers of its descriptors. -/
def winRxWrites : List (List Byte) → List Byte → FieldDie → FieldDie
  | [], _, f => f
  | d :: ds, bs, f => winRxWrites ds (bs.drop (descLen d)) (winStore (wordAt d 0) (bs.take (descLen d)) f)

/-- Deliver a frame taken from queue `q` of P16 to its ring pair, whole or not at all (R702, R718). -/
def winDeliver (q : Nat) (bs : List Byte) (ts port : Nat) (f : FieldDie) : FieldDie :=
  let k := bitsOf (winWord f 0x404) (4 * q + 3) (4 * q)
  let w := winCtrl f k
  if hasBit w 30 = false ∨ hasBit w 29 = false then f
  else match winRxPlan bs.length (winPosted f k) with
    | none => f
    | some (n, bad, good) =>
      if winCqFree f k < bad.length + 1 then f
      else
        let f := forAll bad (fun d f => winCompletion k (skippedCompletion d) f) f
        let f := winRxWrites good bs f
        let f := setWin (pairOff k 0x20) ((winWord f (pairOff k 0x20) + n) % 2 ^ 32) f
        winCompletion k { cookie := wordAt (good.headD []) 7, kind := 2, count := good.length, length := bs.length, value := ts % 2 ^ 64, info := port * 2 ^ 16, tsLow := ts % 2 ^ 32 } f

/-! ### Writes (R681, R716, R717) -/

/-- A write of pair `k`'s first word (R678 to R680). -/
def winWriteCtrl (k data : Nat) (f : FieldDie) : FieldDie :=
  let old := winCtrl f k
  let w := keepSize (hasBit old 29) old (keepSize (hasBit old 30) old (keepSize (hasBit old 31) old data 23 20) 19 16) 15 12
  let refused := w != data
  let w := Nat.land w 0xE1FFF000
  let start := fun (b h t : Nat) (f : FieldDie) => if !hasBit old b && hasBit w b then setWin (pairOff k t) 0 (setWin (pairOff k h) 0 f) else f
  let f := start 29 0x18 0x24 (start 30 0x20 0x14 (start 31 0x1C 0x10 (setWin (pairOff k 0) w f)))
  let f := if !hasBit old 31 && hasBit w 31 then setWinStat k false false 0 f
    else if hasBit old 31 && !hasBit w 31 then setWinStat k true false 0 f else f
  let f := if (hasBit w 31 || hasBit w 30) && !hasBit w 29 then setWinStat k true false 3 f
    else if !hasBit old 29 && hasBit w 29 && bitsOf (winWord f (pairOff k 0x2C)) 15 8 == 3 then setWinStat k false false 0 f else f
  let f := if refused then setWin (pairOff k 0x2C) (putBits (winWord f (pairOff k 0x2C)) 15 8 2) f else f
  winSendAll k f

/-- A write of a ring base: kept while its ring, whose enable is bit `b` of the first word, is enabled (R678). -/
def winWriteBase (k o b data : Nat) (f : FieldDie) : FieldDie :=
  if hasBit (winCtrl f k) b ∧ data ≠ winWord f (pairOff k o) then
    setWin (pairOff k 0x2C) (putBits (winWord f (pairOff k 0x2C)) 15 8 2) f
  else setWin (pairOff k o) (data % 2 ^ 16) f

/-- A doorbell of pair `k` (Table 16.2): to a disabled ring it has no effect. -/
def winBell (k o data : Nat) (f : FieldDie) : FieldDie :=
  let t := winWord f (pairOff k o)
  let en := hasBit (winCtrl f k) (if o = 0x10 then 31 else if o = 0x14 then 30 else 29)
  let b := if o = 0x10 then judgeTail data t (winWord f (pairOff k 0x1C)) (winTxSize f k)
    else if o = 0x14 then judgeTail data t (winWord f (pairOff k 0x20)) (winRxSize f k)
    else judgeHead data t (winWord f (pairOff k 0x24))
  if en && b == .accept then winSendAll k (setWin (pairOff k o) data f) else f

/-- A write of window offset `o` by the serial manager (Tables 16.9 and 16.10). -/
def winWrite (o data : Nat) (f : FieldDie) : FieldDie :=
  if o % 4 ≠ 0 ∨ 0x10000 ≤ o then f
  else if 0x800 ≤ o then setWin o data f
  else if o < 0x400 then
    let k := o / 0x40
    let r := o % 0x40
    if r = 0 then winWriteCtrl k data f
    else if r = 0x04 then winWriteBase k r 31 data f
    else if r = 0x08 then winWriteBase k r 30 data f
    else if r = 0x0C then winWriteBase k r 29 data f
    else if r = 0x10 ∨ r = 0x14 ∨ r = 0x18 then winBell k r data f
    else if r = 0x28 then setWin o data f
    else f
  else if o = 0x400 then setWin o (Nat.land data 0x800000FF) f
  else if o = 0x404 then setWin o data f
  else if o = 0x408 then setWin o (andNot (winWord f o) (data % 2 ^ 16)) f
  else if o = 0x40C then setWin o (data % 2 ^ 16) f
  else f

/-- Whether the window interrupt is asserted (R719). -/
def winIrq (f : FieldDie) : Bool := Nat.land (winWord f 0x408) (winWord f 0x40C) != 0

/-- WINDOW_DOORBELL (R717): a doorbell write of the serial manager at field-die address `addr`. -/
def execWindowDoorbell (addr : Nat) (data : Word) (s : State) : Host.Outcome State Fault Refusal :=
  s.onRun (fun f =>
    let o := addr - 0xF00000
    if 0xF00000 ≤ addr ∧ o < 0x400 ∧ (o % 0x40 = 0x10 ∨ o % 0x40 = 0x14 ∨ o % 0x40 = 0x18) then winWrite o data.toNat f else f)

/-- Whether the moderation of window pair `k` fires for a cause (R707). -/
def winModFires (f : FieldDie) (k cause : Nat) : Bool :=
  let m := f.winModer k
  let w := winWord f (pairOff k 0x28)
  modDue m w f.now cause

/-- The moderation of window pair `k` fires: its pending bit is set (R719). -/
def winInterrupt (k cause : Nat) (f : FieldDie) : FieldDie :=
  if winModFires f k cause then setWin 0x408 (setBit (winWord f 0x408) k) (f.setWinModer k {}) else f

/-- INTERRUPT_MODERATION (R707, R719): see `interruptModeration`; from 4096 on the number names a window pair. -/
def execInterruptModeration (qp cause : Nat) (s : State) : Host.Outcome State Fault Refusal :=
  if qp < 4096 then s.onHost (fun h => if qp ≤ 2048 then interruptModeration qp cause h else h)
  else s.onItem (qp - 4096) 16 (winInterrupt (qp - 4096) cause)

/-- A serial-manager reset at the window (R720): its frames in the launch store are discarded, its contexts return to
reset, its memory keeps its content. -/
def winReset (f : FieldDie) : FieldDie :=
  purgeLaunch (fun r => r == 0x40) 0x0E { f with window := Store.clear (fun o => decide (o < 0x800)) f.window, winMod := [] }

end Sys2Proof.Machine
end

