-- ==== Sys2Proof/Machine/Transmit.lean ====
section
/-! DEFINITION. Egress (chapters 7, 10, 11 and 12): eligibility of queues, the start of a copy, preemption, and the end
of a transmission, on the wire and to the Crossing. -/

namespace Sys2Proof.Machine

/-! ### Lengths and bytes on the wire -/

/-- What egress port `c.port` does with the tags of a copy's frame (R435, R436). The untag mask is that of the vid's entry
as stage 5 saw it, valid (R288, R434; log entry 128). -/
def tagAct (f : FieldDie) (fr : Frame) (c : Copy) : TagAct :=
  match fr.final with
  | some r =>
    if c.mirror || fr.directed.isSome || !f.flag (F_FWD_PORT_tag_mode c.port) then .keep
    else if hasBit fr.untag c.port then (if r.tags = 0 then .keep else .strip)
    else if r.tags = 0 then .insert (r.pcp * 2 ^ 13 + r.dei * 2 ^ 12 + r.vid) else .setVid r.vid
  | none => .keep

/-- A frame's bytes without its FCS, after a tag action. -/
def retag (t : TagAct) (bs : List Byte) : List Byte :=
  match t with
  | .keep => bs
  | .strip => bs.take 12 ++ bs.drop 16
  | .setVid vid => bs.take 14 ++ bytesBE 2 (beAt bs 14 2 / 4096 * 4096 + vid) ++ bs.drop 16
  | .insert tci => bs.take 12 ++ bytesBE 2 0x8100 ++ bytesBE 2 tci ++ bs.drop 12

/-- The bytes of a frame as a copy leaves: with a correct FCS, or with its ones' complement (R327, R437). -/
def outBytes (t : TagAct) (bs : List Byte) (stomp : Bool) : List Byte :=
  let body := retag t (bs.take (bs.length - 4))
  let fcs := fcs32 body
  body ++ bytesLE (if stomp then 0xFFFFFFFF - fcs else fcs)

/-- The length of a copy on the wire: known once its frame has ended, else P (R491, R528). -/
def copyLen (f : FieldDie) (c : Copy) : Nat :=
  let fr := f.frameOf c.frame
  if fr.rx then fr.prov
  else tagLen (if c.frag ∨ c.tag ≠ .keep then c.tag else tagAct f fr c) fr.bytes.length

/-! ### Eligibility (R474, R512, R515, R528 to R530) -/

/-- Whether a perturbation register of Table 22.1 (queues, port) names queue `q` of port `n`. -/
def ptbNames (w n q : Nat) : Bool := bitsOf w 20 16 == n && hasBit (bitsOf w 31 24) q

/-- The credit of a queue, in units of 2^-8 bit. -/
def credit (f : FieldDie) (n q : Nat) : Int := toSigned 32 (f.rdN (creditAddr n q))

/-- Whether a queue's shaper permits it to start (R512, R513). -/
def shaperOk (f : FieldDie) (n q : Nat) : Bool :=
  n == 16 || !hasBit (f.rdN (shaperAddr n q)) 31 || decide (0 ≤ credit f n q)

/-- Whether the port's rate limiter permits queue `q` (R515). -/
def rateOk (f : FieldDie) (n q : Nat) : Bool := !hasBit (f.get (F_STR_RL_CFG_qmask n)) q || decide (0 ≤ (f.gateX n).rlLevel)

/-- Whether a copy has waited out the perturbation delay of its queue (Table 22.1). -/
def delayOk (f : FieldDie) (c : Copy) : Bool :=
  let w := f.rdN F_PTB_DELAY
  !ptbNames w c.port c.queue || decide (c.joined + bitsOf w 15 0 ≤ f.now)

/-- Whether P16 has room for every unit of a frame of `len` bytes (R479). -/
def p16Room (f : FieldDie) (len : Nat) : Bool := decide (f.xng.replay.length + (len + 55) / 56 ≤ 512)

/-- The head copy of a queue (R473). -/
def headCopy (f : FieldDie) (n q : Nat) : Option Copy := f.buf.queued.find? (fun c => c.port == n && c.queue == q)

/-- The copy that queue `q` of port `n` may start now: its head, or the preempted remainder that belongs to it. -/
def startable (f : FieldDie) (n q : Nat) : Option Copy :=
  match (f.portX n).preempted with
  | some p =>
    if p.queue = q then (if mayStart f n q (copyLen f p - p.sent) then some p else none)
    else if preemptable f n q then none
    else (headCopy f n q).filter (fun c => headOk c)
  | none => (headCopy f n q).filter (fun c => headOk c)
where
  /-- Whether the head copy of an eligible queue may start. -/
  headOk (c : Copy) : Bool :=
    mayStart f n q (copyLen f c) && shaperOk f n q && rateOk f n q && !pauseStopped f n q &&
    !ptbNames (f.rdN F_PTB_HOLD) n q && delayOk f c && (n != 16 || p16Room f (copyLen f c))

/-- The startable copy of the highest-numbered queue among those that `p` names (R474, R475). -/
def firstOf (f : FieldDie) (n : Nat) (p : Nat → Bool) : Option Copy :=
  [7, 6, 5, 4, 3, 2, 1, 0].findSome? (fun q => if p q then startable f n q else none)

/-- The copy that port `n` starts next (R474): an express copy never waits for a preempted remainder (R529). -/
def chooseCopy (f : FieldDie) (n : Nat) : Option Copy :=
  match (f.portX n).preempted with
  | some _ => (firstOf f n (fun q => !preemptable f n q)).or (firstOf f n (fun _ => true))
  | none => firstOf f n (fun _ => true)

/-- Discard the head copies of known length that can never fit their queue's open span (R530). -/
def purgeOverrun (n : Nat) (f : FieldDie) : FieldDie :=
  forRange 8 (fun q f => forRange (f.buf.queued.length) (fun _ f =>
    match headCopy f n q with
    | some c => if (f.frameOf c.frame).rx = false ∧ neverFits f n q (copyLen f c) then discardQueued (fun x => x == c) 0x0D f else f
    | none => f) f) f

/-! ### Cell errors (R481, R482) -/

/-- Record a cell in F_BUF_EVT_INFO. -/
def noteCell (cell : Nat) (f : FieldDie) : FieldDie := f.put F_BUF_EVT_INFO_cell cell

/-- The cells of a frame are read for copy `c`: single-bit errors are corrected, a double-bit error ends the copy. It
meets each error once, and every other copy meets a double-bit one by itself (R481, R482). -/
def readCells (c : Copy) (f : FieldDie) : Copy × FieldDie :=
  let mine := f.flt.badCells.filter (fun e => e.2.1 == c.frame && !c.seen.contains e.1)
  let f := { f with flt := { f.flt with badCells := f.flt.badCells.filter (fun e => !(e.2.1 == c.frame && e.2.2 != 3)) } }
  let f := forAll mine (fun e f =>
    if e.2.2 = 3 then latchFault 0 e.1 ((noteCell e.1 (f.bump F_BUF_ECC_UNC_uncorrected 1)).raise F_BUF_EVT 1)
    else (noteCell e.1 (f.bump F_BUF_ECC_CNT_corrected 1)).raise F_BUF_EVT 0) f
  let c := { c with seen := c.seen ++ (mine.filter (fun e => e.2.2 == 3)).map (fun e => e.1) }
  (if c.stomped = false ∧ mine.any (fun e => e.2.2 == 3) then { c with stomp := 0x27, stomped := true } else c, f)

/-! ### Starting -/

/-- Whether the port's rate limiter applies to a copy. -/
def rateLimited (f : FieldDie) (c : Copy) : Bool := hasBit (f.get (F_STR_RL_CFG_qmask c.port)) c.queue

/-- The rate level pays for a copy that starts (R515). -/
def payRate (c : Copy) (f : FieldDie) : FieldDie :=
  if c.frag = false ∧ rateLimited f c then
    f.setGateX c.port (fun x => { x with rlLevel := x.rlLevel - ((copyLen f c : Int) + 20) * 1000000 })
  else f

/-- The copy with its tag action, its start, its start time, and what the rate level pays when that is P (R515). -/
def launched (f : FieldDie) (c : Copy) : Copy :=
  if c.frag then { c with start := f.now }
  else { c with
    tag := tagAct f (f.frameOf c.frame) c
    start := f.now
    ts := f.sysNs
    at_ := f.stampAt 0
    paid := if rateLimited f c ∧ (f.frameOf c.frame).rx then copyLen f c else 0 }

/-- Take a copy out of its queue, or the remainder out of its place. -/
def takeCopy (c : Copy) (f : FieldDie) : FieldDie :=
  if c.frag then f.setPortX c.port (fun x => { x with preempted := none })
  else { f with buf := { f.buf with queued := f.buf.queued.erase c } }

/-- Start copy `c` at its port. -/
def startCopy (c : Copy) (f : FieldDie) : FieldDie :=
  let f := payRate c f
  let r := readCells (launched f c) (takeCopy c f)
  r.2.setPortX c.port (fun x => { x with sending := some r.1 })

/-- The DATA units that carry a frame to the host die (R617). -/
def hostUnits (bs : List Byte) (ts port : Nat) : List FlowUnit :=
  dataUnits bs (fun i => if i = 0 then bitsOf ts 18 0 else if i = 1 then port * 2 ^ 13 + bitsOf ts 31 19 else 0)

/-- Start copy `c` at P16: its units are sent to the host die, or the serial window takes the frame (R617, R718). -/
def startP16 (c : Copy) (f : FieldDie) : FieldDie :=
  let f := startCopy c f
  match (f.portX 16).sending with
  | some c' =>
    let fr := f.frameOf c'.frame
    let bs := outBytes c'.tag fr.bytes c'.stomped
    if toWindow f c'.queue then (if c'.stomped then f else winDeliver c'.queue bs fr.ts fr.port f)
    else forAll (hostUnits bs (fr.ts % 2 ^ 32) fr.port) (fun u f => f.sendXng u) f
  | none => f

/-! ### Preemption (R321, R528) -/

/-- Bytes of the running fragment of a copy that have been sent. -/
def fragSent (f : FieldDie) (n : Nat) (c : Copy) : Nat := (80 * (f.now - c.start)) / byteTime f n - 8

/-- Whether the copy on the wire may be preempted now (R321). -/
def canPreempt (f : FieldDie) (n : Nat) (c : Copy) : Bool :=
  preemptable f n c.queue && (f.portX n).preempted == none && decide (minFrag f n ≤ fragSent f n c) &&
  decide (c.sent + fragSent f n c + 64 ≤ copyLen f c)

/-- Preempt the copy on the wire of port `n`. -/
def preemptNow (n : Nat) (f : FieldDie) : FieldDie :=
  match (f.portX n).sending with
  | some c =>
    if canPreempt f n c then
      let c' := { c with sent := c.sent + fragSent f n c, frag := true }
      (f.setPortX n (fun x => { x with sending := none, preempted := some c' })).count (cPort n 23)
    else f
  | none => f

/-- The express copy that waits at port `n` (R318). -/
def expressCopy (f : FieldDie) (n : Nat) : Option Copy := firstOf f n (fun q => !preemptable f n q)

/-! ### TRANSMIT_START -/

/-- Whether port `n` starts frames at all: in SLEEP_ENTRY not after its queues have been empty (R311). -/
def mayTransmit (f : FieldDie) (n : Nat) : Bool :=
  n == 16 || (stateUp (portState f n) && !(portState f n == 4 && (f.portX n).drained))

/-- TRANSMIT_START (R474): the port starts the copy that R474 chooses; an express copy preempts a preemptable one that
is on the wire. -/
def transmitStart (n : Nat) (f : FieldDie) : FieldDie :=
  if mayTransmit f n = false then f
  else
    let f := purgeOverrun n f
    match (f.portX n).sending with
    | none =>
      match chooseCopy f n with
      | some c => if n = 16 then startP16 c f else startCopy c f
      | none => f
    | some c =>
      match expressCopy f n with
      | some e => if canPreempt f n c then startCopy e (preemptNow n f) else f
      | none => f

/-- TRANSMIT_START (R474); a segment's port sends in TRANSMIT_OPPORTUNITY. -/
def execTransmitStart (port : Nat) (s : State) : Host.Outcome State Fault Refusal :=
  s.onItem port 17 (fun f => if port < 12 ∨ port = 16 then transmitStart port f else f)

/-! ### TRANSMIT_END -/

/-- What the egress timestamp of a copy adds to the fine tick of its start, ns (R567): the phase at its timestamp point,
the built-in latency and lat_tx. P16 has neither. -/
def txShift (f : FieldDie) (c : Copy) (phase : Nat) : Nat :=
  if c.port = 16 then 0
  else phase % 8 + phyTx f c.port + (if c.port < 12 then f.get (F_TIM_PORT_LAT_lat_tx c.port) else 0)

/-- The egress timestamp of a copy in system time (R567). -/
def egressTs (f : FieldDie) (c : Copy) (phase : Nat) : Nat := readNs (c.ts * 2 ^ 32) (txShift f c phase)

/-- Its instant in both domains and on the local clock (R538). -/
def egressAt (f : FieldDie) (c : Copy) (phase : Nat) : Stamp := c.at_.plus (txShift f c phase)

/-- A copy has been sent whole with a correct FCS (R792). -/
def countSent (c : Copy) (len : Nat) (f : FieldDie) : FieldDie :=
  (((f.count (cPort c.port 2)).countN (cPort c.port 3) len).count (cQueue c.port c.queue 0)).countN (cQueue c.port c.queue 1) len

/-- A copy has ended with an inverted FCS (R327, R482). -/
def countStomp (c : Copy) (f : FieldDie) : FieldDie :=
  if c.stomp = 0x27 then f.countQDrop c.port c.queue 0x27 else f.count (cPort c.port 4)

/-- The last bit of the copy on the wire leaves port `n`: counted, its timestamp entry written, its cells released
(R462, R477, R571). -/
def finishCopy (n phase : Nat) (c : Copy) (f : FieldDie) : FieldDie :=
  let (c, f) := if n = 16 then (c, f) else readCells c f
  let fr := f.frameOf c.frame
  let bs := outBytes c.tag fr.bytes c.stomped
  let ts := egressTs f c phase
  let f := f.setPortX n (fun x => { x with sending := none })
  let f := if c.frag then f.count (cPort n 23) else f
  let f := if c.stomped then countStomp c f else countSent c bs.length f
  let f := if c.mirror then f else tsqFrame fr n (if c.stomped then 3 else 0) (if c.stomped then c.stomp else 0) ts f
  let f := if n = 16 then f else f.emit (.frame n bs)
  releaseCopy c f

/-- TRANSMIT_END (R462): the frame on the wire has been received to its end, and its last bit leaves. -/
def transmitEnd (n phase : Nat) (f : FieldDie) : FieldDie :=
  match (f.portX n).sending with
  | some c => if (f.frameOf c.frame).rx then f else finishCopy n phase c f
  | none => f

end Sys2Proof.Machine
end

