-- ==== Sys2Proof/Machine/Segments.lean ====
section
/-! DEFINITION. Multidrop segments and PLCA (chapter 8): beacons, opportunities, bursts, losses and overlaps, with the
end of a transmission at every port. Times on a segment are in units of 0.1 ns: one bit time is 1,000. -/

namespace Sys2Proof.Machine

/-- The register values in effect: to_timer and the burst fields change at the next beacon (R342). -/
def segToTimer (f : FieldDie) (k : Nat) : Nat :=
  match (f.segX k).plca with
  | some w => bitsOf w.toNat 7 0
  | none => f.get (F_MDS_PLCA_to_timer k)
def segBurst (f : FieldDie) (k : Nat) : Nat :=
  match (f.segX k).burstReg with
  | some w => w.toNat
  | none => f.rdN (F_MDS_BURST k)
def segBurstCount (f : FieldDie) (k : Nat) : Nat := bitsOf (segBurst f k) 15 8
def segBurstTimer (f : FieldDie) (k : Nat) : Nat := max 1 (bitsOf (segBurst f k) 7 0)

/-- Whether segment `k` is a coordinator. -/
def isCoord (f : FieldDie) (k : Nat) : Bool := f.get (F_MDS_PLCA_role k) == 0

/-- Whether a standby part keeps segment `k` silent (R368). -/
def segSilent (f : FieldDie) (k : Nat) : Bool := f.flag (F_MDS_STAT_standby_silent k)

/-- Whether the running opportunity is this node's own and it may send in it. A follower that has taken over sends only
after the next beacon (R369). -/
def ownTurn (f : FieldDie) (k : Nat) : Bool :=
  let x := f.segX k
  x.active && !x.takeoverWait && x.toNode == f.get (F_MDS_PLCA_node_id k) && portState f (12 + k) == 3 && f.flag (F_MDS_STAT_plca_active k) && !segSilent f k

/-! ### Configuration (R340 to R342) -/

/-- Whether a value of F_MDS_n_PLCA is accepted (R340). -/
def plcaOk (data : Nat) : Bool :=
  let id := bitsOf data 20 16
  (if hasBit data 24 then decide (1 ≤ id) else id == 0) && decide (1 ≤ bitsOf data 13 8) && decide (bitsOf data 13 8 ≤ 32) &&
  decide (1 ≤ bitsOf data 7 0)

/-- What follows a change of role, node_id or node_count from the word `old` (R341, R877). -/
def plcaChanged (k old : Nat) (f : FieldDie) : FieldDie :=
  let w := f.rdN (F_MDS_PLCA k)
  if f.isRunning ∧ f.flag (F_PORT_MODE_enable (12 + k)) ∧
      (bitOf old 24 ≠ bitOf w 24 ∨ bitsOf old 20 16 ≠ bitsOf w 20 16 ∨ bitsOf old 13 8 ≠ bitsOf w 13 8) then
    holdBegin (12 + k) 5 f
  else f

/-- A write of F_MDS_n_PLCA (R340 to R342). -/
def writePlca (req k data : Nat) (f : FieldDie) : FieldDie :=
  if plcaOk data = false then f.raise (F_MDS_EVT k) 4
  else
    let old := f.rd (F_MDS_PLCA k)
    let f := storeWrite req (F_MDS_PLCA k) data f
    let f := f.setSegX k (fun x => if x.active && x.plca == none then { x with plca := some old } else x)
    plcaChanged k old.toNat f

/-- A write of F_MDS_n_BURST (R342). -/
def writeSegBurst (req k data : Nat) (f : FieldDie) : FieldDie :=
  let old := f.rd (F_MDS_BURST k)
  let f := storeWrite req (F_MDS_BURST k) data f
  f.setSegX k (fun x => if x.active && x.burstReg == none then { x with burstReg := some old } else x)

/-- PLCA_WRITE (R340). -/
def execPlcaWrite (req n : Nat) (data : Word) (s : State) : Host.Outcome State Fault Refusal :=
  s.onItemWrite req n 4 (writePlca req n data.toNat)

/-! ### Beacons (R343, R349 to R354, R367) -/

/-- A cycle of `len` units of 0.1 ns has been completed: whole microseconds, rounded up, saturating (R349). -/
def cycleDone (k len : Nat) (f : FieldDie) : FieldDie :=
  let us := min 0xFFFF ((len + 9999) / 10000)
  let f := (f.put (F_MDS_CYCLE_cycle_last k) us).put (F_MDS_CYCLE_cycle_max k) (max us (f.get (F_MDS_CYCLE_cycle_max k)))
  f.setSegX k (fun x => { x with winCycles := x.winCycles + 1 })

/-- Opportunity timing starts over at the end of a beacon; new timer values apply (R342). The first window of overlaps
starts when plca_active becomes 1 (R365). -/
def beaconEnds (k at_ : Nat) (f : FieldDie) : FieldDie :=
  let fresh := !f.flag (F_MDS_STAT_plca_active k)
  let f := (f.put (F_MDS_STAT_plca_active k) 1).put (F_MDS_STAT_cur_to k) 0
  f.setSegX k (fun x => { x with
    active := true
    toNode := 0
    toStart := at_
    cycleStart := at_
    burst := 0
    used := false
    waiting := false
    hearing := false
    takeoverWait := false
    plca := none
    burstReg := none
    lostAt := none
    winCycles := if fresh then 0 else x.winCycles
    winOverlaps := if fresh then 0 else x.winOverlaps
    winSeen := if fresh then 0 else x.winSeen })

/-- Whether the segment has been silent for 2 × to_timer bit times (R369). -/
def silenceOk (f : FieldDie) (k : Nat) : Bool :=
  f.inRx (12 + k) == none && !(f.segX k).hearing && decide (80 * (f.portX (12 + k)).quietFrom + 2000 * segToTimer f k ≤ f.now10)

/-- Whether a coordinator's next beacon is due (R343, R369): after take-over when the segment has been silent; else when
no cycle runs, or the last opportunity of its cycle has ended. -/
def beaconDue (f : FieldDie) (k : Nat) : Bool :=
  let x := f.segX k
  if x.takeoverWait then silenceOk f k
  else !x.active || (decide (segNodes f k ≤ x.toNode) && decide (x.toStart ≤ f.now10))

/-- BEACON_SEND (R343, R350): the coordinator sends a beacon; the first one, after a wake not before the wake ramp's
delay (R156), brings the port up. -/
def beaconSend (k : Nat) (f : FieldDie) : FieldDie :=
  let x := f.segX k
  let st := portState f (12 + k)
  if isCoord f k ∧ segSilent f k = false ∧ (st = 3 ∨ (st = 2 ∧ (f.portX (12 + k)).wakeAt ≤ f.now)) ∧ beaconDue f k ∧
      (f.portX (12 + k)).sending = none then
    let f := (f.count (cSeg k 0)).emit (.beacon k)
    let f := if x.active then cycleDone k (f.now10 + 20000 - x.cycleStart) f else f
    let f := f.setSegX k (fun x => { x with beaconsSent := (x.beaconsSent + 1) % 2 ^ 32 })
    let f := beaconEnds k (f.now10 + 20000) f
    if st = 2 then enterState (12 + k) 3 0 f else f
  else f

def execBeaconSend (n : Nat) (s : State) : Host.Outcome State Fault Refusal := s.onItem n 4 (beaconSend n)

/-- An overlap is counted in the running window; the third raises overlap_burst with its node (R365). -/
def windowOverlap (k node : Nat) (f : FieldDie) : FieldDie :=
  let f := f.setSegX k (fun x => { x with winOverlaps := x.winOverlaps + 1 })
  if (f.segX k).winOverlaps = 3 then (f.put (F_MDS_EVT_INFO_node k) node).raise (F_MDS_EVT k) 0 else f

/-- Another transmission is detected while this port transmits (R364). -/
def txOverlap (k : Nat) (f : FieldDie) : FieldDie :=
  if (f.portX (12 + k)).sending.isSome then
    windowOverlap k (f.get (F_MDS_PLCA_node_id k)) ((f.count (cSeg k 5)).raise (F_MDS_EVT k) 5)
  else f

/-- A beacon that times this node's opportunities: at a follower, or at the silent coordinator of a standby part. -/
def beaconHeard (k : Nat) (f : FieldDie) : FieldDie :=
  let x := f.segX k
  let n := 12 + k
  let late := decide (x.cycleStart + max 1 (f.get (F_MDS_LOSS_beacon_to k)) * 10000 < f.now10)
  let seen := if portState f n = 2 ∧ late then 1 else x.beacons + 1
  let back := x.lostAt.isSome
  let f := if x.active then cycleDone k (f.now10 - x.cycleStart) f else f
  let f := (beaconEnds k f.now10 f).setSegX k (fun x => { x with beacons := seen })
  let f := if back then f.raise (F_MDS_EVT k) 2 else f
  if portState f n = 2 ∧ 2 ≤ seen ∧ (f.portX n).wakeAt ≤ f.now then
    (enterState n 3 0 f)
  else f

/-- PLCA_OVERLAP (R361 to R363): a second transmission begins while a frame is being received. -/
def plcaOverlap (k : Nat) (f : FieldDie) : FieldDie :=
  match f.inRx (12 + k) with
  | some fr =>
    let node := runNode f k
    let f := (rejectFrame fr 0x0B f).count (cSeg k (32 + node))
    let f := f.setPortX (12 + k) (fun x => { x with quietFrom := f.now })
    windowOverlap k node (f.setSegX k (fun x => { x with silentWait := true, hearing := false }))
  | none => f

/-- BEACON_RECEIVE (R351, R353, R367): a beacon has ended on the segment. One that arrives while the port transmits, or
while it receives a frame, is an overlap and is not received whole, so it restarts nothing (R361, R364); after an overlap
nothing is received before the silence (R363). -/
def beaconReceive (k : Nat) (f : FieldDie) : FieldDie :=
  let st := portState f (12 + k)
  if st ≠ 2 ∧ st ≠ 3 then f
  else
    let f := f.setPortX (12 + k) (fun x => { x with quietFrom := f.now })
    if (f.portX (12 + k)).sending.isSome then txOverlap k f
    else if (f.inRx (12 + k)).isSome then plcaOverlap k f
    else if (f.segX k).silentWait then f
    else if isCoord f k ∧ segSilent f k = false then (f.count (cSeg k 2)).raise (F_MDS_EVT k) 3
    else beaconHeard k (f.count (cSeg k 1))

def execBeaconReceive (n : Nat) (s : State) : Host.Outcome State Fault Refusal := s.onItem n 4 (beaconReceive n)

/-- BEACON_TIMEOUT (R352): a follower in UP has received no beacon for beacon_to microseconds. -/
def beaconTimeout (k : Nat) (f : FieldDie) : FieldDie :=
  let x := f.segX k
  if isCoord f k = false ∧ portState f (12 + k) = 3 ∧ x.active ∧ x.cycleStart + max 1 (f.get (F_MDS_LOSS_beacon_to k)) * 10000 ≤ f.now10 then
    let f := f.setSegX k (fun x => { x with active := false, lostAt := some f.now, beacons := 0, used := false, waiting := false, burst := 0 })
    let f := (f.put (F_MDS_STAT_plca_active k) 0).put (F_MDS_STAT_cur_to k) 0
    (f.count (cSeg k 6)).raise (F_MDS_EVT k) 1
  else f

def execBeaconTimeout (n : Nat) (s : State) : Host.Outcome State Fault Refusal := s.onItem n 4 (beaconTimeout n)

/-- DOWN_MS_EXPIRY (R354): no beacon within down_ms of the loss: the link is lost. -/
def downMsExpiry (k : Nat) (f : FieldDie) : FieldDie :=
  match (f.segX k).lostAt with
  | some t =>
    if portState f (12 + k) = 3 ∧ t + max 1 (f.get (F_MDS_LOSS_down_ms k)) * msTicks ≤ f.now then
      enterState (12 + k) 2 1 (f.count (cSeg k 7))
    else f
  | none => f

def execDownMsExpiry (n : Nat) (s : State) : Host.Outcome State Fault Refusal := s.onItem n 4 (downMsExpiry n)

/-! ### Opportunities (R344 to R348, R357) -/

/-- TO_TIMER_EXPIRY (R344): an opportunity in which no transmission began ends; an own one has been yielded. -/
def toTimerExpiry (k : Nat) (f : FieldDie) : FieldDie :=
  let x := f.segX k
  if x.active ∧ x.used = false ∧ x.toNode < segNodes f k ∧ x.toStart + segToTimer f k * 1000 ≤ f.now10 then
    nextNode k (x.toStart + segToTimer f k * 1000) (if ownTurn f k then f.count (cSeg k 4) else f)
  else f

def execToTimerExpiry (n : Nat) (s : State) : Host.Outcome State Fault Refusal := s.onItem n 4 (toTimerExpiry n)

/-- TRANSMIT_OPPORTUNITY (R347, R348, R357): at the start of its own opportunity, within one bit time, or after a frame
of it once the gap has passed and while burst_timer runs, the node starts the frame that R357 chooses. -/
def transmitOpportunity (k : Nat) (f : FieldDie) : FieldDie :=
  let x := f.segX k
  let n := 12 + k
  let start := !x.used && decide (x.toStart ≤ f.now10) && decide (f.now10 ≤ x.toStart + 1000)
  let more := x.waiting && decide (x.toStart ≤ f.now10) && decide (f.now10 ≤ x.toStart + segBurstTimer f k * 1000)
  if ownTurn f k ∧ (f.portX n).sending = none ∧ (start ∨ more) then
    let f := purgeOverrun n f
    match chooseCopy f n with
    | some c =>
      let f := if start then f.count (cSeg k 3) else f
      let f := f.setSegX k (fun x => { x with
        used := true
        waiting := false
        burst := if start then 0 else x.burst + 1
        winSeen := setBit x.winSeen (x.toNode % 32) })
      startCopy c f
    | none => f
  else f

def execTransmitOpportunity (n : Nat) (s : State) : Host.Outcome State Fault Refusal := s.onItem n 4 (transmitOpportunity n)

/-- BURST_TIMER_EXPIRY (R348): nothing became eligible while the opportunity was held. -/
def burstTimerExpiry (k : Nat) (f : FieldDie) : FieldDie :=
  let x := f.segX k
  if x.active ∧ x.waiting ∧ x.toStart + segBurstTimer f k * 1000 ≤ f.now10 then nextNode k (x.toStart + segBurstTimer f k * 1000) f else f

def execBurstTimerExpiry (n : Nat) (s : State) : Host.Outcome State Fault Refusal := s.onItem n 4 (burstTimerExpiry n)

/-- After a frame of the node's own opportunity: it holds the opportunity for a further frame, or the opportunity ends
at the end of the gap (R348). -/
def segSent (n : Nat) (f : FieldDie) : FieldDie :=
  if 12 ≤ n ∧ n < 16 then
    let k := n - 12
    let x := f.segX k
    if x.active = false then f
    else if x.burst < segBurstCount f k then f.setSegX k (fun x => { x with waiting := true, toStart := f.now10 + 96000 })
    else nextNode k (f.now10 + 96000) f
  else f

/-- The end of a transmission (R462), after which a segment's opportunity goes on or ends, and an effective sleep request
that waited for the queues to empty takes effect (R310). -/
def portTransmitEnd (port phase : Nat) (f : FieldDie) : FieldDie :=
  if (f.portX port).sending = none then f
  else
    let g := transmitEnd port phase f
    if (g.portX port).sending = none then (if port < 12 then trySleep port g else segSent port g) else g

/-! ### Overlaps (R361 to R366) -/

def execPlcaOverlap (n : Nat) (s : State) : Host.Outcome State Fault Refusal := s.onItem n 4 (plcaOverlap n)

/-- TX_OVERLAP (R364). -/
def execTxOverlap (n : Nat) (s : State) : Host.Outcome State Fault Refusal := s.onItem n 4 (txOverlap n)

/-- OVERLAP_WINDOW_END (R365, R366): after win_cycles cycles F_MDS_n_SEEN is updated and a new window starts. -/
def overlapWindowEnd (k : Nat) (f : FieldDie) : FieldDie :=
  let x := f.segX k
  if max 1 (f.get (F_MDS_WIN_win_cycles k)) ≤ x.winCycles then
    (f.setSegX k (fun x => { x with winCycles := 0, winOverlaps := 0, winSeen := 0 })).wrN (F_MDS_SEEN k) x.winSeen
  else f

def execOverlapWindowEnd (n : Nat) (s : State) : Host.Outcome State Fault Refusal := s.onItem n 4 (overlapWindowEnd n)

/-- POST_OVERLAP_SILENCE (R363): once the segment has been silent for 96 bit times frames are accepted again, and the
opportunity in which the overlap fell has ended. -/
def postOverlapSilence (k : Nat) (f : FieldDie) : FieldDie :=
  let x := f.segX k
  if x.silentWait ∧ 80 * (f.portX (12 + k)).quietFrom + 96000 ≤ f.now10 then
    let f := f.setSegX k (fun x => { x with silentWait := false, hearing := false })
    if x.active then nextNode k f.now10 f else f
  else f

def execPostOverlapSilence (n : Nat) (s : State) : Host.Outcome State Fault Refusal := s.onItem n 4 (postOverlapSilence n)

end Sys2Proof.Machine
end

