-- ==== Sys2Proof/Machine/Schedule.lean ====
section
/-! DEFINITION. Gate control lists and schedule changes (chapter 12): gate edges, triggers, changes, and the network
cycle with the stream gate windows. Times are in ns of system time. -/

namespace Sys2Proof.Machine

/-! ### Gate edges (R518 to R520) -/

/-- The start of the running cycle of port `n`. -/
def runningCycle (f : FieldDie) (n : Nat) : Nat :=
  let cyc := operCycle f n
  let c := cycleFrom (f.gateX n).base cyc f.sysNs
  match extension f n with
  | some s => if s ≤ f.sysNs then s - cyc else c
  | none => c

/-- The number of the entry that runs `p` ns into its cycle: the last one when the cycle is extended. -/
def runningEntry (spans : List GateSpan) (p : Nat) : Nat := (spans.findIdx? (fun g => decide (p < g.to_))).getD (spans.length - 1)

/-- Whether the preemption hold is asserted, from the entries up to the running one: `old` when none of them sets or
releases it (R520). -/
def holdAt (spans : List GateSpan) (entry : Nat) (old : Bool) : Bool :=
  match (spans.take (entry + 1)).reverse.find? (fun g => g.op == 1 || g.op == 2) with
  | some g => g.op == 1
  | none => old

/-- Whether a SetAndHold entry of the running list, or of a pending list that takes its place, starts within hold_adv
(R520). -/
def holdSoon (f : FieldDie) (n : Nat) : Bool :=
  let g := f.gateX n
  let near := fun (adv : Nat) (d : Option Nat) => match d with
    | some d => decide (0 < adv) && decide (d ≤ adv)
    | none => false
  near g.holdAdv (nextSpan f n (fun s => s.op == 1)) || near g.pendHold (nextPending f n (fun s => s.op == 1))

/-- Assert or release the preemption hold of port `n`: a hold that it begins is counted, and a preemptable copy is
preempted (R520, R528). -/
def setHold (n : Nat) (hold : Bool) (f : FieldDie) : FieldDie :=
  let old := (f.gateX n).hold
  let f := f.setGateX n (fun x => { x with hold := hold })
  let f := if hold && !old && preemptOn f n then f.count (cPort n 27) else f
  if hold then preemptNow n f else f

/-- Bring the gates of port `n` to system time; a copy whose gate closes or which meets a hold is preempted (R528). With
no list active every gate is open (R517), and a hold comes only ahead of a pending list (R520). -/
def refreshGate (n : Nat) (f : FieldDie) : FieldDie :=
  if listActive f n = false then
    if holdSoon f n = (f.gateX n).hold then f else setHold n (holdSoon f n) f
  else
    let spans := operSpans f n
    let c := runningCycle f n
    let p := f.sysNs - c
    let e := runningEntry spans p
    let sp := spans.getD e ⟨0, 0, 0xFF, 0⟩
    let hold := holdAt spans e (f.gateX n).hold || holdSoon f n
    let f := f.setGateX n (fun x => { x with cycleStart := c, entryStart := c + sp.from_, states := sp.states })
    let f := setHold n hold (f.put (F_STR_GCL_CUR_entry n) e)
    match (f.portX n).sending with
    | some cp => if hasBit sp.states cp.queue then f else preemptNow n f
    | none => f

/-- GATE_EDGE (R519): system time has reached an edge of the port's operational list. -/
def execGateEdge (port : Nat) (s : State) : Host.Outcome State Fault Refusal := s.onItem port 17 (refreshGate port)

/-! ### Triggers (R522 to R526) -/

/-- The reason for which the admin list of port `n` is refused (R523), 0 none. -/
def adminRefused (f : FieldDie) (n : Nat) : Nat :=
  let len := f.get (F_STR_GCL_CTRL_admin_len n)
  let cyc := f.get (F_STR_GCL_CYCLE_cycle_ns n)
  if len = 0 ∨ 256 < len then 2
  else if cyc < 31250 ∨ 1000000000 < cyc then 3
  else if (List.range len).any (fun e => !hasBit (f.rdN (gclAddr n e 0)) 31) then 4
  else 0

/-- The admin base time of port `n`. -/
def adminBase (f : FieldDie) (n : Nat) : Nat :=
  timeOf (f.get (F_STR_GCL_BASE_NS_ns n)) (f.rdN (F_STR_GCL_BASE_SEC_LO n)) (f.rdN (F_STR_GCL_BASE_SEC_HI n))

/-- The first instant base + N × cycle at or after `t` (R525). -/
def changeTime (base cyc t : Nat) : Nat := if t ≤ base then base else base + (t - base + cyc - 1) / cyc * cyc

/-- Copy the whole admin list and the parameters of port `n` into pending storage (R524, R525); a trigger that a state
record carries brings its change time (R649). -/
def makePending (n gen : Nat) (at_ : Option Nat) (f : FieldDie) : FieldDie :=
  let len := f.get (F_STR_GCL_CTRL_admin_len n)
  let cyc := f.get (F_STR_GCL_CYCLE_cycle_ns n)
  let ct := at_.getD (changeTime (adminBase f n) cyc (f.sysNs + 64000))
  let list := (List.range 256).map (fun e => (f.rdN (gclAddr n e 0), f.rdN (gclAddr n e 1)))
  f.setGateX n (fun x => { x with
    pending := true
    ct := ct
    pendLen := len
    pendCycle := cyc
    pendBase := ct
    pendExt := f.get (F_STR_GCL_EXT_ext_ns n)
    pendHold := f.get (F_STR_GCL_HOLD_hold_adv n)
    pendGen := gen
    pendOff := !f.flag (F_STR_GCL_CTRL_gate_en n)
    pendList := list
    pendTrig := f.str.trigs })

/-- The admin windows that are not all zero, at their operational addresses. -/
def adminWindows (f : FieldDie) : List (Nat × Word) :=
  (f.reg.filter (fun e => decide (0x550000 ≤ e.1) && decide (e.1 < 0x554000))).map (fun e => (e.1 + 0x4000, e.2))

/-- Cancel any pending change. -/
def cancelPending (f : FieldDie) : FieldDie :=
  { f with
    gates := f.gates.map (fun x => { x with pending := false })
    str := { f.str with pendWin := none, pendWords := [] } }

/-- Whether a change is pending. -/
def anyPending (f : FieldDie) : Bool := f.gates.any (fun x => x.pending) || f.str.pendWin.isSome

/-- A trigger of generation `gen` for the ports and windows of `mask` (R522 to R525). -/
def trigger (mask gen : Nat) (at_ : Option Nat) (f : FieldDie) : FieldDie :=
  if gen = f.get F_STR_CHG_STAT_last_gen then f.bump F_STR_CHG_STAT_repeats 1
  else
    let ports := portsIn (bitsOf mask 16 0)
    let sgate := hasBit mask 17
    match ports.find? (fun n => adminRefused f n != 0) with
    | some n => ((f.put F_STR_CHG_STAT_result (adminRefused f n)).put F_STR_EVT_INFO_port n).raise F_STR_EVT 3
    | none =>
      let f := f.put F_STR_CHG_STAT_last_gen gen
      if ports = [] ∧ sgate = false then ((cancelPending f).put F_STR_CHG_STAT_result 5).put F_STR_CHG_STAT_pending 0
      else
        let f := { f with str := { f.str with trigs := f.str.trigs + 1 } }
        let f := forAll ports (fun n f => makePending n gen at_ f) f
        let due := at_.getD (f.sysNs + 64000)
        let f := if sgate then { f with str := { f.str with pendWin := some due, pendWords := adminWindows f, pendTrig := f.str.trigs } } else f
        let f := { f with str := { f.str with lastMask := mask, lastCt := ports.head?.elim due (fun n => (f.gateX n).ct) } }
        (f.put F_STR_CHG_STAT_result 0).put F_STR_CHG_STAT_pending 1

/-- A write of F_STR_CHG: it needs the SCHED lock (R246). -/
def writeChg (req data : Nat) (f : FieldDie) : FieldDie :=
  if lkDenied f req F_STR_CHG then lkReject req F_STR_CHG f else trigger (f.rdN F_STR_CHG_MASK) (bitsOf data 15 0) none f

/-- SCHEDULE_TRIGGER (R522). -/
def execScheduleTrigger (req : Nat) (data : Word) (s : State) : Host.Outcome State Fault Refusal :=
  s.onWrite req (writeChg req data.toNat)

/-! ### Changes (R525, R526, R530) -/

/-- Whether something of the accepted trigger with number `t` is pending. -/
def trigPending (f : FieldDie) (t : Nat) : Bool :=
  f.gates.any (fun x => x.pending && x.pendTrig == t) || (f.str.pendWin.isSome && f.str.pendTrig == t)

/-- A port or the windows have changed as trigger `t` asked: when nothing of it is pending any more it is complete, and
chg_done is raised once for it (R526); the result shows the last trigger. -/
def changeDone (t : Nat) (f : FieldDie) : FieldDie :=
  let f := if anyPending f then f else f.put F_STR_CHG_STAT_pending 0
  if trigPending f t then f
  else (if t = f.str.trigs then f.put F_STR_CHG_STAT_result 1 else f).raise F_STR_EVT 2

/-- The queues whose longest open span is shorter than a 2,048-byte frame (R530). -/
def shortQueues (f : FieldDie) (n : Nat) : Nat :=
  ((List.range 8).filter (fun q => match longestSpan f n q with
    | some d => decide (10 * d < wireTime f n 2048)
    | none => false)).foldl setBit 0

/-- Write an operational list. -/
def writeOper (n : Nat) (list : List (Nat × Nat)) (f : FieldDie) : FieldDie :=
  forRange list.length (fun e f => (f.wrN (operAddr n e 0) (list.getD e (0, 0)).1).wrN (operAddr n e 1) (list.getD e (0, 0)).2) f

/-- The change time of port `n` has come: the pending list becomes operational and begins with entry 0 (R526). -/
def portChange (n : Nat) (f : FieldDie) : FieldDie :=
  let g := f.gateX n
  if g.pending = false ∨ f.sysNs < g.ct then f
  else
    let f := writeOper n g.pendList f
    let f := ((f.put (F_STR_GCL_OPER_oper_gen n) g.pendGen).put (F_STR_GCL_OPER_active n) (if g.pendOff then 0 else 1)).put
      (F_STR_GCL_OPER_oper_len n) g.pendLen
    let f := f.put (F_STR_GCL_OCYC_oper_cycle n) g.pendCycle
    let f := f.setGateX n (fun x => { x with
      pending := false, base := x.pendBase, ext := x.pendExt, holdAdv := x.pendHold, hold := false, states := 0xFF, cycleStart := x.ct, entryStart := x.ct })
    let f := f.put (F_STR_GCL_CUR_short n) (if g.pendOff then 0 else shortQueues f n)
    changeDone g.pendTrig (purgeOverrun n (refreshGate n f))

/-- The pending stream gate windows become operational (R525). -/
def applyWindows (f : FieldDie) : FieldDie :=
  let words := f.str.pendWords
  let f := { f with
    reg := Store.clear (fun a => decide (0x554000 ≤ a) && decide (a < 0x558000)) f.reg
    str := { f.str with pendWin := none, pendWords := [], octets := [] } }
  changeDone f.str.pendTrig (forAll words (fun e f => f.wr e.1 e.2) f)

/-- The windows change at the first boundary at least 64 µs after the trigger. -/
def windowsDue (f : FieldDie) : Bool :=
  match f.str.pendWin with
  | some t => decide (t ≤ f.str.netStart)
  | none => false

/-- SCHEDULE_CHANGE (R526): a port's change time, or with 17 the change of the stream gate windows (R525). -/
def execScheduleChange (port : Nat) (s : State) : Host.Outcome State Fault Refusal :=
  s.onItem port 18 (fun f => if port = 17 then (if windowsDue f then applyWindows f else f) else portChange port f)

/-! ### The network cycle (R527) -/

/-- The port whose list gives the network cycle, when that list is active. -/
def scheduleMaster (f : FieldDie) : Option Nat :=
  let n := f.get F_STR_SCHED_master_port
  if n < 17 ∧ listActive f n then some n else none

/-- The length of the network cycle. -/
def networkCycle (f : FieldDie) : Nat :=
  match scheduleMaster f with
  | some n => operCycle f n
  | none => 1000000

/-- The latest boundary that is not after system time. -/
def networkBoundary (f : FieldDie) : Nat :=
  match scheduleMaster f with
  | some n => runningCycle f n
  | none => f.sysNs / 1000000 * 1000000

/-- Every fabric cycle F_STR_NCYC reads the current length, and frames are judged against the boundaries that the schedule
master then gives (R527); the latest 128 are kept for frames whose timestamp lies before them (R499). -/
def trackCycle (f : FieldDie) : FieldDie :=
  let b := networkBoundary f
  let f := f.put F_STR_NCYC_ncyc (networkCycle f)
  if f.str.cycles.head? = some b then f else { f with str := { f.str with cycles := (b :: f.str.cycles).take 128 } }

/-- The network cycle ends at a boundary. -/
def beginNetworkCycle (b : Nat) (f : FieldDie) : FieldDie :=
  let f := trackCycle { f with str := { f.str with netStart := b } }
  if windowsDue f then applyWindows f else f

end Sys2Proof.Machine
end

