-- ==== Sys2Proof/Machine/Exposure.lean ====
section
/-! DEFINITION. Exposures, wake bursts of sleeping ports, and derating (chapter 3). Times are in ns of system time. -/

namespace Sys2Proof.Machine

/-! ### The exposure table (R131 to R134, Table 3.10) -/

def expWord (f : FieldDie) (e w : Nat) : Nat := f.rdN (0x400000 + 16 * e + 4 * w)
def expValid (f : FieldDie) (e : Nat) : Bool := hasBit (expWord f e 0) 31
/-- 0 nap exposure, 1 darkroom exposure. -/
def expKind (f : FieldDie) (e : Nat) : Nat := bitsOf (expWord f e 0) 30 29
def expPorts (f : FieldDie) (e : Nat) : Nat := bitsOf (expWord f e 0) 15 0

/-- Word `w` of an entry in ns; a nap exposure rounds down to a whole fine tick (R133). -/
def expTime (f : FieldDie) (e w : Nat) : Nat :=
  let t := expWord f e w * (if hasBit (expWord f e 0) 28 then 1000000 else 1)
  if expKind f e = 0 then t / 8 * 8 else t

/-- Whether an entry is degenerate (R134). One safelight tick is 30,517.578125 ns. -/
def expRejected (f : FieldDie) (e : Nat) : Bool :=
  decide (1 < expKind f e) ||
  (if expKind f e = 0 then decide (expTime f e 2 < 8) else decide (expTime f e 2 ≤ 30517)) ||
  (expTime f e 3 != 0 && decide (expTime f e 3 < expTime f e 1 + expTime f e 2))

/-- Start of the first window of an entry that ends after `t` (R131): none when no window does. -/
def expWindow (f : FieldDie) (e t : Nat) : Option Nat :=
  let s := f.pwr.expBase + expTime f e 1
  let len := expTime f e 2
  let p := expTime f e 3
  if t < s + len then some s
  else if p = 0 then none
  else some (s + ((t - (s + len)) / p + 1) * p)

/-- Whether a window of entry `e` is open. -/
def expIsOpen (f : FieldDie) (e : Nat) : Bool := f.pwr.expOpen.any (fun w => w.1 == e)

/-- Start of the entry's next window that has not begun. -/
def expNext (f : FieldDie) (e : Nat) : Option Nat :=
  let last := (f.pwr.expDone.find? (fun d => d.1 == e)).map (fun d => d.2)
  match expWindow f e f.sysNs with
  | some s =>
    if last ≠ some s then some s
    else if expTime f e 3 = 0 then none else some (s + expTime f e 3)
  | none => none

/-- The valid entries. -/
def expEntries (f : FieldDie) : List Nat := (List.range 64).filter (expValid f)

/-- The entry whose next window starts first (Table 15.5): 0 when there is none. -/
def nextExposure (f : FieldDie) : Nat :=
  ((expEntries f).foldl (fun (b : Option (Nat × Nat)) e =>
    match expNext f e, b with
    | some s, some c => if s < c.2 then some (e, s) else b
    | some s, none => some (e, s)
    | none, _ => b) none).elim 0 (fun b => b.1)

/-- nap_lead, at least 2,000 ns (R135). -/
def napLead (f : FieldDie) : Nat := max 2000 (f.get F_PWR_NAP_CFG_nap_lead)

/-- Leave NAP (R107). -/
def leaveNap (f : FieldDie) : FieldDie := if f.get F_PWR_STATE_state = 1 then f.put F_PWR_STATE_state 0 else f

/-- EXPOSURE_NAP_LEAD (R135): a nap exposure reaches nap_lead before its window. -/
def exposureNapLead (e : Nat) (f : FieldDie) : FieldDie :=
  match expNext f e with
  | some s => if expValid f e ∧ expKind f e = 0 ∧ s ≤ f.sysNs + napLead f then leaveNap f else f
  | none => f

def execExposureNapLead (entry : Nat) (s : State) : Host.Outcome State Fault Refusal := s.onItem entry 64 (exposureNapLead entry)

/-! ### Windows (R131, R132, R136) -/

/-- Ports P0 to P15 that a mask names. -/
def expPortList (m : Nat) : List Nat := (List.range 16).filter (hasBit m)

/-- Entry `e` holds port `n` out of SLEEP: a sleep entry is withdrawn, and a port asleep begins its wake. A wake that has
gone on into persistent wake is that of a window again (log entry 122). -/
def holdAwake (e n : Nat) (f : FieldDie) : FieldDie :=
  let f := f.setPortX n (fun x => { x with windows := x.windows.filter (fun w => w != e) ++ [e], persist := none })
  if portState f n = 4 then enterState n 3 0 f else if n < 12 then wakePort n true f else f

/-- EXPOSURE_WINDOW_START (R136). -/
def exposureStart (e : Nat) (f : FieldDie) : FieldDie :=
  match expNext f e with
  | some s =>
    if expValid f e ∧ expIsOpen f e = false ∧ s ≤ f.sysNs then
      let f := { f with pwr := { f.pwr with
        expOpen := f.pwr.expOpen ++ [(e, s + expTime f e 2)]
        expDone := f.pwr.expDone.filter (fun d => d.1 != e) ++ [(e, s)]
        expCount := (f.pwr.expCount + 1) % 2 ^ 32 } }
      forAll (expPortList (expPorts f e)) (holdAwake e) (leaveNap f)
    else f
  | none => f

def execExposureWindowStart (entry : Nat) (s : State) : Host.Outcome State Fault Refusal := s.onItem entry 64 (exposureStart entry)

/-- A missed exposure of port `n` (R146). -/
def missExposure (n : Nat) (f : FieldDie) : FieldDie := (f.count (cPort n 8)).raise F_PWR_EVT 2

/-- Entry `e` no longer holds port `n`: a partner that is not awake is missed and persistent wake begins (R146, R147), or
the port may sleep again. -/
def releaseAwake (e n : Nat) (f : FieldDie) : FieldDie :=
  if e ∉ (f.portX n).windows then f
  else
    let f := f.setPortX n (fun x => { x with windows := x.windows.filter (fun w => w != e) })
    if (f.portX n).windows ≠ [] then f
    else if portState f n = 6 ∧ (f.portX n).partnerAwake = false then beginPersist n (missExposure n f)
    else trySleep n f

/-- Entry `e` is no longer valid: a window of it that is open is absent from now on (R288), and no exposure is missed by
it. A port that was waking for it goes on as one whose window has ended (log entry 122). -/
def closeExposure (e : Nat) (f : FieldDie) : FieldDie :=
  let f := { f with pwr := { f.pwr with
    expOpen := f.pwr.expOpen.filter (fun w => w.1 != e)
    expDone := f.pwr.expDone.filter (fun d => d.1 != e) } }
  forRange 16 (fun n f =>
    if e ∉ (f.portX n).windows then f
    else
      let f := f.setPortX n (fun x => { x with windows := x.windows.filter (fun w => w != e) })
      if (f.portX n).windows ≠ [] then f
      else if portState f n = 6 ∧ (f.portX n).partnerAwake = false then beginPersist n f
      else trySleep n f) f

/-- EXPOSURE_WINDOW_END (R146). -/
def exposureEnd (e : Nat) (f : FieldDie) : FieldDie :=
  if f.pwr.expOpen.any (fun w => w.1 == e && decide (w.2 ≤ f.sysNs)) then
    let f := { f with pwr := { f.pwr with expOpen := f.pwr.expOpen.filter (fun w => w.1 != e) } }
    forRange 16 (releaseAwake e) f
  else f

def execExposureWindowEnd (entry : Nat) (s : State) : Host.Outcome State Fault Refusal := s.onItem entry 64 (exposureEnd entry)

/-- Whole windows of entry `e` that lie after `t0` and end by `t1`. -/
def windowsPassed (f : FieldDie) (e t0 t1 : Nat) : Nat :=
  match expWindow f e t0 with
  | some s0 =>
    let p := expTime f e 3
    let s := if t0 < s0 then some s0 else if p = 0 then none else some (s0 + p)
    match s with
    | some s =>
      if t1 < s + expTime f e 2 then 0 else if p = 0 then 1 else (t1 - (s + expTime f e 2)) / p + 1
    | none => 0
  | none => 0

/-- System time has stepped from `t0` to `t1`: a window passed over whole is missed on every port it names. -/
def missWindows (t0 t1 : Nat) (f : FieldDie) : FieldDie :=
  forAll (expEntries f) (fun e f =>
    let k := windowsPassed f e t0 t1
    if k = 0 then f
    else forAll (expPortList (expPorts f e)) (fun n f => (f.countN (cPort n 8) (k - 1) |> missExposure n)) f) f

/-- A write of F_PWR_EXP_BASE_SEC_HI: the three words become the new base (R157). -/
def writeExpBase (req data : Nat) (f : FieldDie) : FieldDie :=
  let f := applyGroup req F_PWR_EXP_BASE_SEC_HI data f
  { f with pwr := { f.pwr with expBase := timeOf (f.rdN F_PWR_EXP_BASE_NS) (f.rdN F_PWR_EXP_BASE_SEC_LO) (f.rdN F_PWR_EXP_BASE_SEC_HI) } }

/-- EXPOSURE_BASE_WRITE (R157): see `writeExpBase`. -/
def execExposureBaseWrite (req : Nat) (data : Word) (s : State) : Host.Outcome State Fault Refusal :=
  s.onWrite req (writeExpBase req data.toNat)

/-! ### Guard margin and wake points (R137, R139) -/

/-- The largest F_PWR_PTOL_n among the ports of a mask. -/
def worstPartner (f : FieldDie) (m : Nat) : Nat := ((List.range 12).filter (hasBit m)).foldl (fun a n => max a (f.get (F_PWR_PTOL_tol_partner n))) 0

/-- The guard margin in safelight ticks for a sleep of `ns` (R139). Tolerances are in units of 10^-7. -/
def guardTicks (f : FieldDie) (partner ns : Nat) : Nat :=
  (2 * (f.get F_PWR_TOL_tol_local + partner) * ns * 32768 + 10 ^ 16 - 1) / 10 ^ 16 + 2

/-- Safelight ticks in ns, by the calibrated tick length (R138). -/
def ticksNs (f : FieldDie) (ticks : Nat) : Nat := ticks * f.rdN F_PWR_SL_CAL / 65536

/-- EXPOSURE_WAKE_POINT (R139): a sleeping port reaches the guard margin before a window that names it. -/
def exposureWake (e n : Nat) (f : FieldDie) : FieldDie :=
  match expNext f e with
  | some s =>
    let slept := 8 * (f.now - (f.portX n).since)
    let g := ticksNs f (guardTicks f (worstPartner f (expPorts f e)) (slept + (s - f.sysNs)))
    if expValid f e ∧ hasBit (expPorts f e) n ∧ s ≤ f.sysNs + g then wakePort n true f else f
  | none => f

def execExposureWakePoint (entry port : Nat) (s : State) : Host.Outcome State Fault Refusal :=
  s.onItem port 12 (fun f => if entry < 64 then exposureWake entry port f else f)

/-! ### Wake bursts (R141 to R147) -/

/-- Whether a waking port may send a burst at this fine tick: its wake has begun, its partner is not awake, and 250 µs
have passed since the last burst; in persistent wake 1 ms, while pwake_lim milliseconds from the window's end have not
passed (R145, R146). The first burst waits for nothing. -/
def burstDue (f : FieldDie) (n : Nat) : Bool :=
  let x := f.portX n
  portState f n == 6 && !x.partnerAwake && decide (x.wakeAt ≤ f.now) &&
  (match x.burstAt with
   | none => true
   | some b =>
     match x.persist with
     | none => decide (b + 250 * usTicks ≤ f.now)
     | some p => decide (b + msTicks ≤ f.now) && decide (f.now ≤ p + f.get F_PWR_PWAKE_pwake_lim * msTicks))

/-- A waking port sends a burst. The first one of a delayed wake without a window ends that window (R315), and with
pwake_lim 0 the link is lost (R147). -/
def wakeBurst (n : Nat) (f : FieldDie) : FieldDie :=
  if burstDue f n then
    let over_ := (f.portX n).burstAt.isNone && (f.portX n).persist.isSome && f.get F_PWR_PWAKE_pwake_lim == 0
    let f := sendBurst n f
    if over_ then declareLost n f else f
  else f

/-- WAKE_BURST_SEND (R145): see `wakeBurst`. -/
def execWakeBurstSend (port : Nat) (s : State) : Host.Outcome State Fault Refusal := s.onItem port 12 (wakeBurst port)

/-- PARTNER_AWAKE (R144). -/
def execPartnerAwake (port : Nat) (s : State) : Host.Outcome State Fault Refusal :=
  s.onItem port 12 (fun f => if portState f port = 6 then f.setPortX port (fun x => { x with partnerAwake := true }) else f)

/-- Whether persistent wake of port `n` has run its pwake_lim milliseconds (R146). -/
def persistOver (f : FieldDie) (n : Nat) : Bool :=
  match (f.portX n).persist with
  | some p => decide (p + f.get F_PWR_PWAKE_pwake_lim * msTicks ≤ f.now)
  | none => false

/-- SLEEP_LOST (R147): persistent wake has ended without the partner awake. -/
def execSleepLost (port : Nat) (s : State) : Host.Outcome State Fault Refusal :=
  s.onItem port 12 (fun f =>
    if portState f port = 6 ∧ (f.portX port).partnerAwake = false ∧ persistOver f port then declareLost port f else f)

/-! ### Derating (R149 to R154) -/

/-- Index of the chosen breakpoint: the best of those that `ok` admits, `better` comparing two values. -/
def pickBreak (ok : Int → Bool) (better : Int → Int → Bool) (vs : List Int) : Option Nat :=
  ((List.range vs.length).foldl (fun (b : Option Nat) i =>
    let v := vs.getD i 0
    if ok v = false then b
    else match b with
      | some j => if better v (vs.getD j 0) then some i else b
      | none => some i) none)

/-- The eight bytes of a pair of breakpoint registers. -/
def breakBytes (f : FieldDie) (lo hi : Nat) : List Nat :=
  (List.range 8).map (fun i => bitsOf (if i < 4 then f.rdN lo else f.rdN hi) (8 * (i % 4) + 7) (8 * (i % 4)))

/-- The budget for a line voltage in 10 mV and a temperature in 0.1 °C (R149). -/
def budgetOf (f : FieldDie) (vline : Nat) (tj : Int) : Nat :=
  let vs := (breakBytes f F_PWR_CURVE_V0 F_PWR_CURVE_V1).map (fun b => (25 * b : Int))
  let ts := (breakBytes f F_PWR_CURVE_T0 F_PWR_CURVE_T1).map (fun b => 10 * toSigned 8 b)
  let col := (pickBreak (fun v => decide (v ≤ (vline : Int))) (fun a b => decide (b < a)) vs).getD 0
  let row := (pickBreak (fun t => decide (tj ≤ t)) (fun a b => decide (a < b)) ts).getD 7
  bitsOf (f.rdN (0x401000 + 4 * (8 * row + col))) 15 0

/-- The cost of port `n` in its mode, 10 mW (R150). DESIGN CHOICE (log entry 123): a voted phy_mode that is reserved
(R878), for which F_PWR_COST holds no figure, costs as 10BASE-T1S does. -/
def portCost (f : FieldDie) (n : Nat) : Nat :=
  let c := f.rdN F_PWR_COST
  if phyMode f n = 0 then bitsOf c 7 0
  else if phyMode f n = 1 then bitsOf c 31 24
  else if phyMode f n = 2 then bitsOf c 15 8
  else bitsOf c 23 16

/-- Whether port `n` is enabled and not asleep. -/
def drawsPower (f : FieldDie) (n : Nat) : Bool := f.flag (F_PORT_MODE_enable n) && portState f n != 5

/-- Demand of the ports that `p` admits. -/
def demandOf (f : FieldDie) (p : Nat → Bool) : Nat := (((List.range 16).filter (fun n => drawsPower f n && p n)).map (portCost f)).sum

/-- Whether port `n` is shed. -/
def isShed (f : FieldDie) (n : Nat) : Bool := hasBit (f.rdN F_PWR_SHED) n

/-- Current demand (R150). -/
def demand (f : FieldDie) : Nat := demandOf f (fun n => !isShed f n)

/-- Shed priority of port `n`. -/
def shedPri (f : FieldDie) (n : Nat) : Nat :=
  bitsOf (f.rdN (if n < 8 then F_PWR_SHPRI0 else F_PWR_SHPRI1)) (4 * (n % 8) + 3) (4 * (n % 8))

/-- The port that is shed next (R151). -/
def nextShed (f : FieldDie) : Option Nat :=
  (List.range 16).foldl (fun (b : Option Nat) n =>
    if drawsPower f n = false ∨ isShed f n ∨ shedPri f n = 0 then b
    else match b with
      | some m => if shedPri f m ≤ shedPri f n then some n else b
      | none => some n) none

/-- Whether demand exceeds a budget. -/
def overBudget (f : FieldDie) (budget : Nat) : Bool := budget != 0xFFFF && decide (budget < demand f)

/-- Shed ports until demand no longer exceeds the budget (R151, R153). -/
def shedPorts (budget : Nat) : Nat → FieldDie → FieldDie
  | 0, f => f
  | k + 1, f =>
    if overBudget f budget = false then f
    else match nextShed f with
      | some n => shedPorts budget k ((holdBegin n 4 (f.wrN F_PWR_SHED (setBit (f.rdN F_PWR_SHED) n))).raise F_PWR_EVT 4)
      | none => f

/-- Whether the budget covers readmission (R154). -/
def coversReadmit (f : FieldDie) (budget : Nat) : Bool :=
  budget == 0xFFFF || decide (demandOf f (fun _ => true) + f.get F_PWR_DERATE_hyst ≤ budget)

/-- DERATE_SAMPLE (R149 to R152): the 1 ms sample. -/
def derateSample (vline tj : Nat) (f : FieldDie) : FieldDie :=
  let f := f.wrN F_PWR_MEAS (tj % 65536 * 65536 + vline % 65536)
  let budget := budgetOf f (vline % 65536) (toSigned 16 tj)
  let f := if f.flag F_PWR_CTRL_derate_en then shedPorts budget 16 f else f
  let f := (f.put F_PWR_BUDGET_budget budget).put F_PWR_BUDGET_demand (demand f)
  let over_ := overBudget f budget && f.flag F_PWR_CTRL_derate_en
  let g := { f with pwr := { f.pwr with
    overRaised := over_
    okFor := if f.rdN F_PWR_SHED ≠ 0 ∧ coversReadmit f budget then f.pwr.okFor + 1 else 0 } }
  if over_ && !f.pwr.overRaised then g.raise F_PWR_EVT 7 else g

def execDerateSample (vline tj : Nat) (s : State) : Host.Outcome State Fault Refusal := s.onRun (derateSample vline tj)

/-- DERATE_READMIT (R154): the shed ports are readmitted together once the samples of readmit milliseconds, the first and
the last of them included, have all covered them (log entry 97). -/
def derateReadmit (f : FieldDie) : FieldDie :=
  let shed := f.rdN F_PWR_SHED
  if shed = 0 ∨ f.pwr.okFor ≤ f.get F_PWR_DERATE_readmit then f
  else
    let f := { f with pwr := { f.pwr with okFor := 0 } }.wrN F_PWR_SHED 0
    (forAll ((List.range 16).filter (hasBit shed)) (fun n f => holdEnd n 4 f) f).raise F_PWR_EVT 5

def execDerateReadmit (s : State) : Host.Outcome State Fault Refusal := s.onRun derateReadmit

end Sys2Proof.Machine
end

