-- ==== Sys2Proof/Machine/Time.lean ====
section
/-! DEFINITION. Time (chapter 13): steps, sets and frequency writes, the domain switch and its slew, the cross-check,
shutters, captures, timestamp queues, TIME messages and PTM, and the fine tick that moves all of them. -/

namespace Sys2Proof.Machine

/-- Raise a time event, with its shutter, instance or domain recorded (Table 13.4). -/
def timeEvt (bit index : Nat) (f : FieldDie) : FieldDie := (f.put F_TIM_EVT_INFO_index index).raise F_TIM_EVT bit

/-! ### Instances that steer a domain (R541, R564) -/

/-- Whether instance `n` is enabled. -/
def ptpOn (f : FieldDie) (n : Nat) : Bool := f.flag (F_TIM_PTP_CFG_en n)

/-- The enabled instance that steers domain `d`. -/
def steeredBy (f : FieldDie) (d : Nat) : Option Nat := [0, 1].find? (fun n => ptpOn f n && f.get (F_TIM_PTP_CFG_steer n) == d)

/-- State of an instance (Table 13.5): 0 disabled, 1 FREE, 2 UNLOCKED, 3 LOCKED, 4 LOST. -/
def ptpState (f : FieldDie) (n : Nat) : Nat := f.get (F_TIM_PTP_STAT_state n)

/-- Set the state of an instance; entering LOCKED raises sync_locked, leaving it or entering LOST raises sync_lost. -/
def setPtpState (n st : Nat) (f : FieldDie) : FieldDie :=
  let old := ptpState f n
  if old = st then f
  else
    let f := (f.put (F_TIM_PTP_STAT_state n) st).setPtpX n (fun x => { x with good := 0, badRun := 0 })
    if st = 3 then timeEvt 8 n f else if old = 3 ∨ st = 4 then timeEvt 7 n f else f

/-- A step takes a LOCKED or UNLOCKED steering instance to UNLOCKED, with its integral kept (R541). -/
def unlockSteering (d : Nat) (f : FieldDie) : FieldDie :=
  match steeredBy f d with
  | some n => if ptpState f n = 3 ∨ ptpState f n = 2 then setPtpState n 2 f else f
  | none => f

/-! ### Steps (R539 to R542) -/

/-- Set off of domain B; its registers read its whole nanoseconds. -/
def setBOff (v : Nat) (f : FieldDie) : FieldDie :=
  let ns := v / 2 ^ 32
  let f := { f with tim := { f.tim with bOff := v } }
  ((f.wrN F_TIM_B_OFF_NS (nsOf ns)).wrN F_TIM_B_OFF_SEC_LO (secOf ns % 2 ^ 32)).wrN F_TIM_B_OFF_SEC_HI (secOf ns / 2 ^ 32 % 65536)

/-- What every applied step does besides moving its domain (R539, R541, R542, R550, R583). -/
def stepDone (d : Nat) (f : FieldDie) : FieldDie :=
  let f := unlockSteering d (timeEvt 4 d { f with tim := { f.tim with xcVoid := true } })
  if f.activeDom = d then { f with tim := { f.tim with timeDue := true, steps := f.tim.steps + 1 } } else f

/-- Apply the set and the steps that wait for domain A: their sum takes effect (R540). -/
def applyA (f : FieldDie) : FieldDie :=
  if f.tim.aSet = none ∧ f.tim.aStep = none then f
  else
    let base := match f.tim.aSet with
      | some v => v * 2 ^ 32
      | none => f.tim.a
    stepDone 0 { f with tim := { f.tim with a := domWrap ((base : Int) + f.tim.aStep.getD 0 * 2 ^ 32), aSet := none, aStep := none } }

/-- Apply the set and the steps that wait for domain B. -/
def applyB (f : FieldDie) : FieldDie :=
  if f.tim.bSet = none ∧ f.tim.bStep = none then f
  else
    let base := match f.tim.bSet with
      | some v => v * 2 ^ 32
      | none => f.tim.bOff
    let v := domWrap ((base : Int) + f.tim.bStep.getD 0 * 2 ^ 32)
    stepDone 1 (setBOff v { f with tim := { f.tim with bSet := none, bStep := none } })

/-- Ask for a step of domain `d` by `v` ns at the next fine tick. -/
def askStep (d : Nat) (v : Int) (f : FieldDie) : FieldDie :=
  if d = 0 then { f with tim := { f.tim with aStep := some (f.tim.aStep.getD 0 + v) } }
  else { f with tim := { f.tim with bStep := some (f.tim.bStep.getD 0 + v) } }

/-- A time write that a standby part refuses (R653), or else its effect. -/
def unlessStandby (d : Nat) (g : FieldDie → FieldDie) (f : FieldDie) : FieldDie := if f.role = 3 then timeEvt 10 d f else g f

/-- A write of F_TIM_A_STEP (domain 0) or F_TIM_B_STEP (domain 1): under the TIME lock (R246, R539). -/
def writeStep (req d data : Nat) (f : FieldDie) : FieldDie :=
  let addr := if d = 0 then F_TIM_A_STEP else F_TIM_B_STEP
  if lkDenied f req addr then lkReject req addr f else unlessStandby d (askStep d (toSigned 32 data)) f

/-- A write of F_TIM_A_SET_SEC_HI: the staged value is set at the next fine tick; a word not staged counts as 0. -/
def writeASet (req data : Nat) (f : FieldDie) : FieldDie :=
  if lkDenied f req F_TIM_A_SET_SEC_HI then lkReject req F_TIM_A_SET_SEC_HI f
  else
    let v := timeOf (stagedOrZero f req F_TIM_A_SET_NS) (stagedOrZero f req F_TIM_A_SET_SEC_LO) data
    unlessStandby 0 (fun f => { f with tim := { f.tim with aSet := some v } })
      (clearStaged req [F_TIM_A_SET_NS, F_TIM_A_SET_SEC_LO, F_TIM_A_SET_SEC_HI] f)

/-- A write of F_TIM_B_OFF_SEC_HI: off is set at the next fine tick. -/
def writeBOff (req data : Nat) (f : FieldDie) : FieldDie :=
  let v := timeOf (stagedOr f req F_TIM_B_OFF_NS) (stagedOr f req F_TIM_B_OFF_SEC_LO) data
  unlessStandby 1 (fun f => { f with tim := { f.tim with bSet := some v } })
    (clearStaged req [F_TIM_B_OFF_NS, F_TIM_B_OFF_SEC_LO, F_TIM_B_OFF_SEC_HI] f)

/-- Set inc, in units of 2^-32 ns. -/
def setInc (v : Nat) (f : FieldDie) : FieldDie :=
  (f.wrN F_TIM_A_INC_LO (v % 2 ^ 32)).wrN F_TIM_A_INC_HI (v / 2 ^ 32 % 16)

/-- inc, in units of 2^-32 ns (R533). -/
def incOf (f : FieldDie) : Nat := f.rdN F_TIM_A_INC_LO + 2 ^ 32 * f.get F_TIM_A_INC_HI_int

/-- A write of F_TIM_A_INC_HI (R534, R541). -/
def writeInc (req data : Nat) (f : FieldDie) : FieldDie :=
  let v := stagedOr f req F_TIM_A_INC_LO + 2 ^ 32 * (data % 16)
  let f := clearStaged req [F_TIM_A_INC_LO, F_TIM_A_INC_HI] f
  unlessStandby 0 (fun f =>
    if v * 1000 < 7875 * 2 ^ 32 ∨ 8125 * 2 ^ 32 < v * 1000 ∨ (steeredBy f 0).isSome then timeEvt 10 0 f else setInc v f) f

/-- Change rate of domain B, continuously (R536). -/
def setRate (r : Nat) (f : FieldDie) : FieldDie :=
  let f := setBOff (domWrap ((f.tim.bOff : Int) + f.bDrift)) f
  ((f.wrN F_TIM_B_ANCHOR_LO (f.now % 2 ^ 32)).wrN F_TIM_B_ANCHOR_HI (f.now / 2 ^ 32 % 2 ^ 32)).wrN F_TIM_B_RATE r

/-- A write of F_TIM_B_RATE (R536, R541). -/
def writeRate (data : Nat) (f : FieldDie) : FieldDie :=
  unlessStandby 1 (fun f => if (steeredBy f 1).isSome then timeEvt 10 1 f else setRate data f) f

/-- A_STEP (R539): see `writeStep`. -/
def execAStep (req : Nat) (data : Word) (s : State) : Host.Outcome State Fault Refusal := s.onWrite req (writeStep req 0 data.toNat)
/-- B_STEP (R539): see `writeStep`. -/
def execBStep (req : Nat) (data : Word) (s : State) : Host.Outcome State Fault Refusal := s.onWrite req (writeStep req 1 data.toNat)
/-- A_SET (R539): see `writeASet`. -/
def execASet (req : Nat) (data : Word) (s : State) : Host.Outcome State Fault Refusal := s.onWrite req (writeASet req data.toNat)
/-- B_OFF_WRITE (R539): see `writeBOff`. -/
def execBOffWrite (req : Nat) (data : Word) (s : State) : Host.Outcome State Fault Refusal := s.onWrite req (writeBOff req data.toNat)
/-- INC_WRITE (R534): see `writeInc`. -/
def execIncWrite (req : Nat) (data : Word) (s : State) : Host.Outcome State Fault Refusal := s.onWrite req (writeInc req data.toNat)
/-- RATE_WRITE (R536): see `writeRate`. -/
def execRateWrite (req : Nat) (data : Word) (s : State) : Host.Outcome State Fault Refusal := s.onWrite req (writeRate data.toNat)

/-! ### The domain switch (R543 to R547) -/

/-- A difference of two domains as a signed number, units of 2^-32 ns. -/
def domDiff (x : Int) : Int :=
  let w := domWrap x
  if w < domMod / 2 then (w : Int) else (w : Int) - (domMod : Int)

/-- The value of domain `d`. -/
def FieldDie.dom (f : FieldDie) (d : Nat) : Nat := if d = 0 then f.domA else f.domB

/-- Switch to domain `y`, or refuse it (R544, R545, R547). -/
def switchTo (y : Nat) (f : FieldDie) : FieldDie :=
  let delta := domDiff ((f.dom f.activeDom : Int) + f.tim.delta - (f.dom y : Int))
  if secFix < delta.natAbs then timeEvt 3 y f
  else timeEvt 2 y ({ f with tim := { f.tim with delta := delta, timeDue := true } }.put F_TIM_SYS_active y)

/-- The requested domain has been named: a switch is requested when it is not the active one (R543). -/
def domainNamed (f : FieldDie) : FieldDie :=
  if f.get F_TIM_SYS_domain = f.activeDom then f else switchTo (f.get F_TIM_SYS_domain) f

/-- The cross-check is enabled while xc_en and both instances' enables are 1; enabling starts a first interval (R550). -/
def refreshXc (f : FieldDie) : FieldDie :=
  let on := f.flag F_TIM_SYS_xc_en && ptpOn f 0 && ptpOn f 1
  if on = f.tim.xcOn then f
  else { f with tim := { f.tim with
    xcOn := on
    xcPrev := none
    xcVoid := false
    xcStart := f.sysNs
    xcLog := toSigned 4 (f.get (F_TIM_PTP_CFG_log_sync 0)) } }

/-- A write of F_TIM_SYS: domain and auto_sw need the TIME lock; a domain named under it requests a switch. One that an
image names is requested at T_cfg. -/
def writeTimSys (req data : Nat) (f : FieldDie) : FieldDie :=
  let may := !lkDenied f req F_TIM_SYS
  let f := refreshXc (storeWrite req F_TIM_SYS data f)
  if may && f.isRunning then domainNamed f else f

/-- DOMAIN_SWITCH_REQUEST (R543): see `writeTimSys`. -/
def execDomainSwitchRequest (req : Nat) (data : Word) (s : State) : Host.Outcome State Fault Refusal :=
  s.onWrite req (writeTimSys req data.toNat)

/-! ### The cross-check (R550) -/

/-- 2 to the power `l` seconds, in ns. -/
def pow2Sec (l : Int) : Nat := if 0 ≤ l then 1000000000 * 2 ^ l.toNat else 1000000000 / 2 ^ (-l).toNat

/-- XC_INTERVAL_END (R550): D is recorded, with the perturbation of Table 22.1 added, and compared. -/
def xcIntervalEnd (f : FieldDie) : FieldDie :=
  if f.tim.xcOn = false ∨ f.sysNs < f.tim.xcStart + pow2Sec f.tim.xcLog then f
  else
    let d := domDiff ((f.domA : Int) - (f.domB : Int)) + toSigned 32 (f.rdN F_PTB_XC) * 2 ^ 32
    let bad := match f.tim.xcPrev with
      | some p => !f.tim.xcVoid && decide (f.rdN F_TIM_XC * 2 ^ 32 < (d - p).natAbs)
      | none => false
    let f := { f with tim := { f.tim with
      xcPrev := some d
      xcVoid := false
      xcStart := f.sysNs
      xcLog := toSigned 4 (f.get (F_TIM_PTP_CFG_log_sync 0)) } }
    if bad then latchFault 5 0 f else f

def execXcIntervalEnd (s : State) : Host.Outcome State Fault Refusal := s.onRun xcIntervalEnd

/-! ### Shutters (R577 to R581) -/

/-- Shutter `k`. -/
def FieldDie.shutter (f : FieldDie) (k : Nat) : Shutter := f.tim.shutters.getD k {}
def FieldDie.setShutter (f : FieldDie) (k : Nat) (g : Shutter → Shutter) : FieldDie :=
  { f with tim := { f.tim with shutters := modAt f.tim.shutters k g } }

/-- Whether time `t` falls in a pulse of the values in force. -/
def Shutter.pulseAt (x : Shutter) (t : Nat) : Bool :=
  decide (x.start ≤ t) && (if x.period = 0 then decide (t < x.stop) else decide ((t - x.start) % x.period < x.stop - x.start))

/-- The shutter at time `t`: a pulse in progress completes before re-armed values apply, be it held inactive or not (R579). -/
def Shutter.at_ (x : Shutter) (t : Nat) : Shutter :=
  if x.pulseAt t && (x.active || x.next.isSome) then { x with active := x.active || x.armed }
  else
    let y := match x.next with
      | some (a, b, p) => { x with start := a, stop := b, period := p, next := none }
      | none => x
    { y with active := y.armed && y.pulseAt t }

/-- A shutter that a pair in DEMAND holds inactive (R786): each pulse it misses is reported once. -/
def holdShutter (k t : Nat) (f : FieldDie) : FieldDie :=
  let x := f.shutter k
  let y := x.at_ t
  let g := f.setShutter k (fun _ => { y with active := false, missing := y.active })
  if y.active && !x.missing && !x.active then timeEvt 1 k g else g

/-- Bring shutter `k` to system time `t`, and its level with it: high when active, or low with invert 1. The output moves
at that instant (R577). -/
def moveShutter (k t : Nat) (f : FieldDie) : FieldDie :=
  let old := f.get (F_TIM_SHUT_CTRL_level k)
  let f := if hasBit f.pin.shutOff k then holdShutter k t f else f.setShutter k (fun x => { x.at_ t with missing := false })
  let level := ((if (f.shutter k).active then 1 else 0) + f.get (F_TIM_SHUT_CTRL_invert k)) % 2
  if level = old then f else (f.put (F_TIM_SHUT_CTRL_level k) level).emit (.shutter k level t)

/-- Bring shutter `k` to the present system time. -/
def refreshShutter (k : Nat) (f : FieldDie) : FieldDie := moveShutter k f.sysNs f

/-- System time runs from `t0` up to `t1` within a fine tick: every edge is placed at its own nanosecond (R577). -/
def runShutters (t0 t1 : Nat) (f : FieldDie) : FieldDie :=
  forRange 4 (fun k f =>
    if (f.shutter k).armed || (f.shutter k).active then forRange (min 16 (t1 - t0)) (fun i f => moveShutter k (t0 + 1 + i) f) f
    else f) f

/-- Whether a whole pulse of an armed shutter begins after `t0` and ends by `t1`; after a pulse in progress, the re-armed
values give the pulses. -/
def Shutter.passed (x : Shutter) (t0 t1 : Nat) : Bool :=
  let (start, stop, period) := if x.active then x.next.getD (x.start, x.stop, x.period) else (x.start, x.stop, x.period)
  x.armed &&
  (if period = 0 then decide (t0 < start) && decide (stop ≤ t1)
   else
    let k := if t0 < start then 0 else (t0 - start) / period + 1
    decide (stop + k * period ≤ t1))

/-- System time has stepped from `t0` to `t1`: whole pulses passed over are missed (R580). -/
def missShutters (t0 t1 : Nat) (f : FieldDie) : FieldDie :=
  forRange 4 (fun k f => if (f.shutter k).passed t0 t1 then timeEvt 1 k f else f) f

/-- System time has just moved from `t0` by a step: what it has stepped over is missed (R580). -/
def timeMoved (t0 : Nat) (f : FieldDie) : FieldDie :=
  if f.sysNs = t0 then f else missWindows t0 f.sysNs (missShutters t0 f.sysNs f)

/-- The value that three words of a shutter's time hold. -/
def shutTime (f : FieldDie) (a : Nat) : Nat := timeOf (f.rdN a) (f.rdN (a + 4)) (f.rdN (a + 8))

/-- A write of F_TIM_SHUT_k_CTRL (R578, R579). -/
def writeShutter (req k data : Nat) (f : FieldDie) : FieldDie :=
  let f := storeWrite req (F_TIM_SHUT_CTRL k) data f
  if hasBit data 31 = false then refreshShutter k (f.setShutter k (fun x => { x with armed := false, next := none }))
  else
    let a := shutTime f (F_TIM_SHUT_START_NS k)
    let b := shutTime f (F_TIM_SHUT_STOP_NS k)
    let p := f.get (F_TIM_SHUT_PERIOD_period k)
    let reject := fun (bit : Nat) (f : FieldDie) =>
      timeEvt bit k (refreshShutter k ((f.put (F_TIM_SHUT_CTRL_arm k) 0).setShutter k (fun x => { x with armed := false, next := none })))
    if b < a + 8 then reject 0 f
    else if (p ≠ 0 ∧ p < b - a + 8) ∨ (p = 0 ∧ b < f.sysNs) then reject 10 f
    else if (f.shutter k).active then f.setShutter k (fun x => { x with armed := true, next := some (a, b, p) })
    else refreshShutter k (f.setShutter k (fun _ => { armed := true, start := a, stop := b, period := p }))

/-- SHUTTER_ARM (R578): see `writeShutter`. -/
def execShutterArm (req k : Nat) (data : Word) (s : State) : Host.Outcome State Fault Refusal :=
  s.onItemWrite req k 4 (writeShutter req k data.toNat)

/-- SHUTTER_EDGE (R577): system time has reached an edge of shutter `k`. -/
def execShutterEdge (k : Nat) (s : State) : Host.Outcome State Fault Refusal := s.onItem k 4 (refreshShutter k)

/-! ### Captures (R582) -/

/-- Whether capture input `k` records an edge of the given direction. -/
def captureOn (f : FieldDie) (k : Nat) (rising : Bool) : Bool :=
  hasBit (f.get F_TIM_CAP_IN_CFG_edges) (2 * k + (if rising then 0 else 1))

/-- CAPTURE_EDGE (R582): an edge at capture input `k`, which takes the pad level whenever its pin's dir is 0 (R760). -/
def captureEdge (k : Nat) (rising : Bool) (phase : Nat) (f : FieldDie) : FieldDie :=
  let t := 8 * f.now + phase % 8
  let near := match f.tim.capLast.getD k none with
    | some l => decide (t ≤ l + 16)
    | none => false
  if captureOn f k rising = false ∨ f.flag (F_PIN_CFG_dir (8 + k)) then f
  else if near then f.count (cGlobal (6 + k))
  else if 16 ≤ (f.tim.captures.getD k []).length then timeEvt 6 k (f.count (cGlobal (10 + k)))
  else
    let e : TsEntry := { status := if rising then 1 else 0, ts := f.sysAt (phase % 8 : Nat) }
    { f with tim := { f.tim with
      captures := modAt f.tim.captures k (fun q => q ++ [e])
      capLast := modAt f.tim.capLast k (fun _ => some t) } }

def execCaptureEdge (k : Nat) (rising : Bool) (phase : Nat) (s : State) : Host.Outcome State Fault Refusal :=
  s.onItem k 4 (captureEdge k rising phase)

/-! ### Timestamp queues (R573 to R576) -/

/-- The SEC_HI word of an entry: the level left, and the high seconds. -/
def tsHigh (e : TsEntry) (level : Nat) : Nat := level * 2 ^ 24 + secOf e.ts / 2 ^ 32 % 65536

/-- The first word of a timestamp entry. -/
def tsFirst (e : TsEntry) : Nat := 2 ^ 31 + e.status % 4 * 2 ^ 24 + e.reason % 256 * 2 ^ 16 + e.id % 65536

/-- Leave an entry in the four registers from `a`; the first holds what the read returned. -/
def popWords (a first : Nat) (e : TsEntry) (level : Nat) : List (Nat × Word) :=
  [(a, word first), (a + 4, word (nsOf e.ts)), (a + 8, word (secOf e.ts % 2 ^ 32)), (a + 12, word (tsHigh e level))]

/-- A read of F_TIM_TSQ_n_POP (R574). -/
def popTsq (n : Nat) (f : FieldDie) : FieldDie :=
  match f.tim.tsq.getD n [] with
  | [] => f.wr (F_TIM_TSQ_POP n) 0
  | e :: es =>
    let f := { f with tim := { f.tim with tsq := modAt f.tim.tsq n (fun _ => es) } }
    forAll (popWords (F_TIM_TSQ_POP n) (tsFirst e) e es.length) (fun w f => f.wr w.1 w.2) f

/-- A read of F_TIM_CAPIN_k_POP (R574, R582). -/
def popCapture (k : Nat) (f : FieldDie) : FieldDie :=
  match f.tim.captures.getD k [] with
  | [] => f.wr (F_TIM_CAPIN_POP k) 0
  | e :: es =>
    let f := { f with tim := { f.tim with captures := modAt f.tim.captures k (fun _ => es) } }
    forAll (popWords (F_TIM_CAPIN_POP k) (2 ^ 31 + e.status % 2 * 2 ^ 30) e es.length) (fun w f => f.wr w.1 w.2) f

/-- A read of H_TSQ_q_POP (R574, R575). -/
def popMirror (q : Nat) (h : HostDie) : HostDie :=
  match h.mirrors.getD q [] with
  | [] => h.wr (H_TSQ_POP q) 0
  | e :: es =>
    let h := { h with mirrors := modAt h.mirrors q (fun _ => es) }
    forAll (popWords (H_TSQ_POP q) (tsFirst e) e es.length) (fun w h => h.wr w.1 w.2) h

/-- The timestamp queue whose POP register lies at `addr`. -/
def tsqAt (addr : Nat) : Option Nat := (List.range 17).find? (fun n => hasTsq n && F_TIM_TSQ_POP n == addr)

/-- The capture input whose POP register lies at `addr`. -/
def captureAt (addr : Nat) : Option Nat := (List.range 4).find? (fun k => F_TIM_CAPIN_POP k == addr)

/-- A read of the POP register at field-die address `addr`; any other address is left alone. -/
def popAt (addr : Nat) (f : FieldDie) : FieldDie :=
  match tsqAt addr with
  | some n => popTsq n f
  | none => match captureAt addr with
    | some k => popCapture k f
    | none => f

/-- A read of the POP register at host-die offset `off`. -/
def popHostAt (off : Nat) (h : HostDie) : HostDie :=
  match (List.range 13).find? (fun q => H_TSQ_POP q == off) with
  | some q => popMirror q h
  | none => h

/-- TSQ_POP (R574): a read of a POP register of either die. -/
def execTsqPop (req addr : Nat) (s : State) : Host.Outcome State Fault Refusal :=
  if addr < 0x1000000 then s.onField (fun f => if f.canWrite req then popAt addr f.napBreak else f)
  else s.onHost (popHostAt (addr - 0x1000000))

/-- A TSR message (Table 14.7). -/
def tsrUnit (n : Nat) (e : TsEntry) (level : Nat) : FlowUnit :=
  { header := 0x60000000 + n * 2 ^ 23, payload := ((popWords 0 (tsFirst e) e level).map (fun w => bytesLE w.2.toNat)).flatten }

/-- TSR_SEND (R573, R576): the oldest entry of a mirrored queue leaves when the Crossing field end accepts it. -/
def tsrSend (n : Nat) (f : FieldDie) : FieldDie :=
  if hasBit (f.get F_TIM_TSQ_CFG_mirror) n = false ∨ f.xng.everUp = false ∨ f.xng.canSend = false then f
  else match f.tim.tsq.getD n [] with
    | [] => f
    | e :: es => { f with tim := { f.tim with tsq := modAt f.tim.tsq n (fun _ => es) } }.sendXng (tsrUnit n e es.length)

def execTsrSend (port : Nat) (s : State) : Host.Outcome State Fault Refusal := s.onItem port 17 (tsrSend port)

/-! ### TIME messages and PTM (R583 to R586) -/

/-- Δ in whole nanoseconds. -/
def deltaNs (f : FieldDie) : Int := f.tim.delta / (2 ^ 32 : Int)

/-- A TIME message of the present fine tick (Table 14.7). -/
def timeUnit (f : FieldDie) : FlowUnit :=
  let t := f.sysNs
  { header := 0x70000000
    payload := bytesLE (nsOf t) ++ bytesLE (secOf t % 2 ^ 32) ++ bytesLE (f.activeDom * 65536 + secOf t / 2 ^ 32 % 65536) ++
      bytesLE (ofSigned 32 (deltaNs f)) ++ bytesLE (f.tim.steps % 65536) }

/-- Whether a TIME message is due: a new whole millisecond, a step of the selected domain, or a switch. -/
def timeMessageDue (f : FieldDie) : Bool := f.tim.timeDue || f.sysNs / 1000000 != f.tim.lastMs

/-- TIME_MESSAGE_SEND (R583): a message that the Crossing field end cannot accept is not sent later. -/
def timeMessageSend (f : FieldDie) : FieldDie :=
  if timeMessageDue f then
    let g := { f with tim := { f.tim with timeDue := false, lastMs := f.sysNs / 1000000 } }
    if f.xng.canSend then g.sendXng (timeUnit f) else g
  else f

def execTimeMessageSend (s : State) : Host.Outcome State Fault Refusal := s.onRun timeMessageSend

/-- PTM_DIALOGUE (R585): the dialogue latches the PTM master time at t1 with host_local at t1. -/
def ptmDialogue (master hostLocal : Nat) (h : HostDie) : HostDie :=
  let h := h.readLocal hostLocal
  if h.flag H_TSQ_PTM_CFG_ptm_ms then { h.emit .ptmRequest with corrPtm := (master % 2 ^ 64, h.localNs) } else h

def execPtmDialogue (master hostLocal : Nat) (s : State) : Host.Outcome State Fault Refusal := s.onHost (ptmDialogue master hostLocal)

/-- Write a 64-bit number to two registers. -/
def put64 (lo hi v : Nat) (h : HostDie) : HostDie := (h.wrN lo (v % 2 ^ 32)).wrN hi (v / 2 ^ 32 % 2 ^ 32)

/-- CORR_SNAP (R586): the latest pairs go into the correlation registers. -/
def corrSnap (data : Nat) (h : HostDie) : HostDie :=
  if hasBit data 0 then
    let t := h.corrSys.1
    let h := put64 H_TSQ_CORR_SYS_SEC_LO H_TSQ_CORR_SYS_SEC_HI (secOf t) (h.wrN H_TSQ_CORR_SYS_NS (nsOf t))
    let h := put64 H_TSQ_CORR_SYS_LOC_LO H_TSQ_CORR_SYS_LOC_HI h.corrSys.2 h
    let h := put64 H_TSQ_CORR_PTM_LO H_TSQ_CORR_PTM_HI h.corrPtm.1 h
    put64 H_TSQ_CORR_PTM_LOC_LO H_TSQ_CORR_PTM_LOC_HI h.corrPtm.2 h
  else h

def execCorrSnap (data : Word) (s : State) : Host.Outcome State Fault Refusal := s.onHost (corrSnap data.toNat)

/-- Write a time in ns to three registers from `a`. -/
def putTime (a t : Nat) (f : FieldDie) : FieldDie :=
  ((f.wrN a (nsOf t)).wrN (a + 4) (secOf t % 2 ^ 32)).wrN (a + 8) (secOf t / 2 ^ 32 % 65536)

/-- A write of F_TIM_CAP_CTRL: system time, both domains and c are captured at one fine tick. -/
def writeTimCap (data : Nat) (f : FieldDie) : FieldDie :=
  if hasBit data 0 then
    let f := putTime F_TIM_CAP_B_NS (f.domB / 2 ^ 32) (putTime F_TIM_CAP_A_NS (f.domA / 2 ^ 32) (putTime F_TIM_CAP_SYS_NS f.sysNs f))
    (f.wrN F_TIM_CAP_CNT_LO (f.now % 2 ^ 32)).wrN F_TIM_CAP_CNT_HI (f.now / 2 ^ 32 % 2 ^ 32)
  else f

/-- TIME_CAPTURE_SNAP (R538): see `writeTimCap`. -/
def execTimeCaptureSnap (req : Nat) (data : Word) (s : State) : Host.Outcome State Fault Refusal :=
  s.onWrite req (writeTimCap data.toNat)

/-! ### The fine tick (R102, R506, R512, R515, R533, R546) -/

/-- Δ moves towards 0 (R546). -/
def slewTick (f : FieldDie) : FieldDie :=
  if f.tim.delta = 0 then { f with tim := { f.tim with residue := 0 } }
  else
    let r := f.tim.residue + f.get F_TIM_SLEW_slew_ppb * 8 * 2 ^ 32
    let m := r / 1000000000
    if f.tim.delta.natAbs ≤ m then { f with tim := { f.tim with delta := 0, residue := 0 } }
    else { f with tim := { f.tim with
      delta := if 0 < f.tim.delta then f.tim.delta - (m : Int) else f.tim.delta + (m : Int)
      residue := r % 1000000000 } }

/-- One fine tick of a port's rate level (R515), units of 10^-6 byte. -/
def rateTick (n : Nat) (f : FieldDie) : FieldDie :=
  let cap : Int := (f.get (F_STR_RL_BURST_burst n) : Int) * 1000000
  let v := (f.gateX n).rlLevel + (f.get (F_STR_RL_CFG_rate n) : Int)
  f.setGateX n (fun x => { x with rlLevel := if cap < v then cap else v })

/-- The bounds of a credit, units of 2^-8 bit. -/
def creditCap : Int := 2 ^ 31 - 1

/-- The change of a queue's credit over one fine tick, in units of 2^-8 bit times 10^-6 (R512, R513): 8 ns at 1 kb/s is
2048 of them. -/
def creditRate (f : FieldDie) (n q : Nat) : Int :=
  let speed : Int := (portSpeed f n : Int)
  let slope : Int := min (bitsOf (f.rdN (shaperAddr n q)) 23 0 : Int) speed
  let wire := (f.portX n).sending.any (fun c => c.queue == q)
  let holds := (headCopy f n q).isSome || (f.portX n).preempted.any (fun c => c.queue == q)
  if wire then (slope - speed) * 2048
  else if holds then (if gateOpen f n q then slope * 2048 else 0)
  else if gateOpen f n q then slope * 2048 else 0

/-- One fine tick of the credit of queue `q` of port `n`: an empty queue's positive credit is set to 0, and its negative
credit rises no further than 0. -/
def creditTick (n q : Nat) (f : FieldDie) : FieldDie :=
  if hasBit (f.rdN (shaperAddr n q)) 31 = false ∨ n = 16 then f
  else
    let key := 8 * n + q
    let res := Store.get (fun _ => (0 : Int)) f.str.resid key
    let full := credit f n q * 1000000 + res + creditRate f n q
    let idle := !(f.portX n).sending.any (fun c => c.queue == q) && (headCopy f n q).isNone &&
      !(f.portX n).preempted.any (fun c => c.queue == q)
    let full := if idle && decide (0 < full) then 0 else full
    let c := full / 1000000
    let lim := if creditCap < c then creditCap else if c < -(2 ^ 31) then -(2 ^ 31) else c
    let f := f.wrN (creditAddr n q) (ofSigned 32 lim)
    { f with str := { f.str with resid := Store.set (fun _ => 0) f.str.resid key (if lim = c then full % 1000000 else 0) } }

/-- The queues whose shaper is enabled, as 8n + q. -/
def shapedQueues (f : FieldDie) : List Nat :=
  (f.reg.filter (fun e => decide (0x580000 ≤ e.1) && decide (e.1 < 0x580220) && hasBit e.2.toNat 31)).map (fun e => (e.1 - 0x580000) / 4)

/-- What the pairs in DEMAND hold: closed gates, forced pins and silenced shutters (R783, R787). -/
def refreshStops (f : FieldDie) : FieldDie :=
  let on := [0, 1].filter (fun p => f.get (F_PIN_PAIR_STAT_state p) == 0)
  { f with pin := { f.pin with
    gateStop := on.map (fun p => (f.get (F_PIN_PAIR_GATE_ports p), f.get (F_PIN_PAIR_GATE_queues p)))
    forced := on.foldl (fun a p => Nat.lor a (f.get (F_PIN_PAIR_ACT_out_force p) * 16)) 0
    shutOff := on.foldl (fun a p => Nat.lor a (f.get (F_PIN_PAIR_ACT_shut_off p))) 0 } }

/-- The conditions of R106 under which the fabric may nap. -/
def napIdle (f : FieldDie) : Bool :=
  !f.buf.frames.any (fun fr => fr.rx) && f.buf.queued.isEmpty && f.buf.waiting.isEmpty &&
  f.ports.all (fun p => p.sending.isNone && p.preempted.isNone) &&
  f.key.op == 0 && !f.flag F_FWD_FLUSH_busy && !f.flag F_BUF_FLUSH_busy && f.flt.stChecking.isNone &&
  f.xng.inbox.isEmpty && f.xng.waiting.isEmpty && f.evtq.isEmpty && f.twin.inbox.isEmpty && f.twin.waiting.isEmpty &&
  f.pwr.expOpen.isEmpty &&
  (expEntries f).all (fun e => match expNext f e with
    | some t => decide (f.sysNs + napLead f < t)
    | none => true) &&
  !timeMessageDue f && decide (napLead f < 1000000 - f.sysNs % 1000000)

/-- c and domain A advance and waiting steps apply. System time runs on before a step that takes effect in this fine tick,
whose origin is then no pulse's edge any more (R577, R580). -/
def clockTick (f : FieldDie) : FieldDie :=
  let tp := f.sysNs
  let f := { f with tim := { f.tim with c := f.tim.c + 1, a := domWrap ((f.tim.a + incOf f : Nat) : Int) } }
  let t0 := f.sysNs
  let g := applyB (applyA f)
  if g.sysNs = t0 then runShutters tp t0 g else timeMoved (t0 - 1) (runShutters tp (t0 - 1) g)

/-- FINE_TICK: c and domain A advance, waiting steps apply, Δ slews, meters, rate levels and credits move, and what
system time decides is judged again. -/
def fineTick (f : FieldDie) : FieldDie :=
  let f := refreshXc (slewTick (clockTick f))
  let f := if stage4Frozen f then f else forAll (validMeters f) meterTick f
  let f := forRange 17 rateTick f
  let f := forAll (shapedQueues f) (fun k f => creditTick (k / 8) (k % 8) f) f
  let f := trackCycle (forRange 17 refreshGate (refreshStops f))
  let f := forRange 4 showNode (forRange 4 refreshShutter f)
  let f := if timeMessageDue f then f.napBreak else { f with pwr := { f.pwr with idle := if napIdle f then f.pwr.idle + 1 else 0 } }
  if f.isRunning then forRange 12 sleepCut (forRange 12 trySleep f) else f

end Sys2Proof.Machine
end

