-- ==== Sys2Proof/Machine/Crossing.lean ====
section
/-! DEFINITION. The ends of the Crossing and of the twin link (chapters 14 and 15): the effects of the link functions at
each end, training, and the aperture and hold queue of the host end. -/

namespace Sys2Proof.Machine

/-! ### Effects at each end -/

/-- A perturbation control ends: its register returns to its reset value (R839). -/
def endControl (addr bit : Nat) (f : FieldDie) : FieldDie := (f.wr addr (fieldDefault addr)).wrN F_PTB_ACTIVE (clrBit (f.rdN F_PTB_ACTIVE) bit)

/-- An effect at the Crossing field end. -/
def xngFx (x : LinkFx) (f : FieldDie) : FieldDie :=
  match x with
  | .count k n => f.countN (cXng k) n
  | .blocks k => f.free.2.countN (cXng (8 + k)) f.free.1
  | .send s u => f.putUnit .field s u
  | .patterns => f.emit (.lanePhase .field)
  | .event b => f.raise F_XNG_EVT b
  | .lane b d k =>
    let f := ((f.put F_XNG_EVT_INFO_dir d).put F_XNG_EVT_INFO_lane k).raise F_XNG_EVT b
    if b = 3 then latchFault 6 (16 * d + k) f else f
  | .discard t o =>
    let f := (f.count (cXng (16 + t))).put F_XNG_EVT_INFO_type t
    if o then f.raise F_XNG_EVT 4 else f
  | .acked _ => f
  | .ackSkipped n => if n = 0 then endControl F_PTB_ACK 3 f else f

/-- Changes the filtering database queue has had acknowledged (R645). -/
def fdbAcked (seqs : List Nat) (f : FieldDie) : FieldDie :=
  let n := ((f.twn.fdbSent.filter (fun e => e.1 ∈ seqs)).map (fun e => e.2)).sum
  { f with twn := { f.twn with fdbSent := f.twn.fdbSent.filter (fun e => e.1 ∉ seqs), fdbq := f.twn.fdbq.drop n } }

/-- An effect at the twin link's end: of its events only link_down has a flag (R634). -/
def twinFx (x : LinkFx) (f : FieldDie) : FieldDie :=
  match x with
  | .count k n => f.countN (cTwin k) n
  | .blocks k => f.free.2.countN (cTwin (8 + k)) f.free.1
  | .send s u => f.putUnit .twin s u
  | .patterns => f.emit (.lanePhase .twin)
  | .event b => if b = 1 then f.raise F_TWN_EVT 6 else f
  | .lane b d k => if b = 3 then latchFault 7 (16 * d + k) f else f
  | .discard t _ => f.count (cTwin (16 + t))
  | .acked seqs => fdbAcked seqs f
  | .ackSkipped n => if n = 0 then endControl F_PTB_ACK 3 f else f

/-- A host fault is detected (R803, R811, R820): flag, event record; the same fault of the same function while its flag is
set latches nothing more. -/
def hostFault (code fn : Nat) (h : HostDie) : HostDie :=
  if hasBit (h.rdN H_FLT_EVT) code ∧ 256 * code + fn ∈ h.latched then h
  else
    let h := if code = 3 then h.put H_FLT_EVT_INFO_func fn else h
    ({ h with latched := h.latched ++ [256 * code + fn] }).raise H_FLT_EVT code

/-- An effect at the Crossing host end. -/
def hostFx (x : LinkFx) (h : HostDie) : HostDie :=
  match x with
  | .count k n => h.countN (hcXng k) n
  | .blocks k => h.free.2.countN (hcXng (8 + k)) h.free.1
  | .send s u => h.putUnit s u
  | .patterns => h.emit (.lanePhase .host)
  | .event b =>
    let h := if b = 1 then { h with holdq := h.holdq.filter (fun m => m.unit.type != 3) } else h
    h.raise H_XNG_EVT b
  | .lane b d k =>
    let h := ((h.put H_XNG_EVT_INFO_dir d).put H_XNG_EVT_INFO_lane k).raise H_XNG_EVT b
    if b = 3 then hostFault 1 0 h else h
  | .discard t o =>
    let h := (h.count (hcXng (16 + t))).put H_XNG_EVT_INFO_type t
    if o then h.raise H_XNG_EVT 4 else h
  | .acked seqs => ackFrames (fun n => n ∈ seqs) h
  | .ackSkipped n => if n = 0 then { h.wr H_PTB_ACK 0 with ptb := { h.ptb with active := clrBit h.ptb.active 3 } } else h

/-- Run a link function at an end. -/
def FieldDie.onXng (g : Link → LinkAns) (f : FieldDie) : FieldDie :=
  let a := g { f.xng with tick := f.now }
  forAll a.2 xngFx { f with xng := a.1 }
def FieldDie.onTwin (g : Link → LinkAns) (f : FieldDie) : FieldDie :=
  let a := g { f.twin with tick := f.now }
  forAll a.2 twinFx { f with twin := a.1 }
def HostDie.onXng (g : Link → LinkAns) (h : HostDie) : HostDie := forAll (g h.xng).2 hostFx { h with xng := (g h.xng).1 }

/-- The committed proof, 0 when none is committed or it is stale (Table 15.2). -/
def proofWord (f : FieldDie) : Nat :=
  if f.flag F_CFG_PROOF_STAT_committed && !f.flag F_CFG_PROOF_STAT_stale then f.rdN F_CFG_PROOF else 0

/-- HELLO (Table 15.2). -/
def helloUnit (f : FieldDie) : FlowUnit :=
  roleUnit 1 ([f.get F_GLB_ID_order * 2 ^ 24 + f.get F_TWN_STAT_designation * 65536 + f.role * 256 + f.get F_TWN_CTRL_enable,
    f.rdN F_GLB_BASE_MAC_LO, f.rdN F_GLB_BASE_MAC_HI] ++ (List.range 8).map (fun i => f.rdN (F_KEY_NAME i)) ++ [proofWord f])

/-- A command at one of the three ends. A TZ16-FO has no Crossing. -/
def State.onLink (s : State) (l : LinkId) (gf gt : FieldDie → FieldDie) (gh : HostDie → HostDie) : Host.Outcome State Fault Refusal :=
  match l with
  | .field => s.onRun (fun f => if f.order = .di then gf f else f)
  | .twin => s.onRun gt
  | .host => s.onHost gh

/-- retry_lim of an end; the twin link takes that of F_XNG_CTRL (R634). -/
def fieldRetry (f : FieldDie) : Nat := f.get F_XNG_CTRL_retry_lim
def hostRetry (h : HostDie) : Nat := h.get H_XNG_CTRL_retry_lim

/-! ### Receiving and acknowledging -/

/-- Perturbation spoils some of the blocks that a disturbed lane brings in, and with them units; how many and which ones
is open. -/
def FieldDie.rxNoise (who : LinkId) (f : FieldDie) : FieldDie :=
  if f.laneNoise who 0 then
    let f := (if who = .twin then twinFx else xngFx) (.blocks (f.get F_PTB_LANE_lane)) f
    let (v, f) := f.free
    f.setLink who (fun l => { l with corruptRx := l.corruptRx || v % 2 == 1 })
  else f

/-- As above at the host end. -/
def HostDie.rxNoise (h : HostDie) : HostDie :=
  if h.laneNoise 0 then
    let h := hostFx (.blocks (h.get H_PTB_LANE_lane)) h
    let (v, h) := h.free
    { h with xng := { h.xng with corruptRx := h.xng.corruptRx || v % 2 == 1 } }
  else h

/-- A unit arrives at the twin link's end: the arrivals of a record's header and trailer units are timed (R648, R652). -/
def twinReceive (bytes : List Byte) (f : FieldDie) : FieldDie :=
  let n := f.twin.inbox.length
  let f := (f.napBreak.rxNoise .twin).onTwin (linkReceive .twin (fieldRetry f) (f.get F_XNG_CTRL_fw_thresh) f.now bytes)
  let k := bitsOf (unitOf bytes).header 27 24
  if n < f.twin.inbox.length ∧ (unitOf bytes).type = 9 then
    { f with twn := { f.twn with
      recAt := if k = 0 then f.sysNs else f.twn.recAt
      recEnd := if k = 15 then f.sysNs else f.twn.recEnd } }
  else f

/-- FLOW_UNIT_RECEIVE (R599): at the field die its arrival ends NAP (R107). The host end measures its intervals by the model's one count of fine ticks. -/
def execFlowUnitReceive (l : LinkId) (bytes : List Byte) (s : State) : Host.Outcome State Fault Refusal :=
  s.onLink l
    (fun f => (f.napBreak.rxNoise .field).onXng (linkReceive .field (fieldRetry f) (f.get F_XNG_CTRL_fw_thresh) f.now bytes))
    (twinReceive bytes)
    (fun h => h.rxNoise.onXng (linkReceive .host (hostRetry h) (h.get H_XNG_CTRL_fw_thresh) s.fld.now bytes))

/-- An ACK of what has been accepted since the last one, if anything (R614). -/
def ackNow (l : Link) : LinkAns := if l.phase = 3 ∧ 0 < l.unacked then ackPoint l else (l, [])

/-- An ACK that is due (R600): 1 µs after the first unit that no ACK covers. -/
def ackDue (l : Link) : LinkAns := if l.ackAt + usTicks ≤ l.tick then ackNow l else (l, [])

/-- ACK_SEND (R600): see `ackDue`. -/
def execAckSend (l : LinkId) (s : State) : Host.Outcome State Fault Refusal :=
  s.onLink l (FieldDie.onXng ackDue) (FieldDie.onTwin ackDue) (HostDie.onXng ackDue)

/-- REPLAY_TIMEOUT (R602): see `replayTimeout`. -/
def execReplayTimeout (l : LinkId) (s : State) : Host.Outcome State Fault Refusal :=
  s.onLink l (fun f => f.onXng (replayTimeout (fieldRetry f))) (fun f => f.onTwin (replayTimeout (fieldRetry f)))
    (fun h => h.onXng (replayTimeout (hostRetry h)))

/-! ### Lanes -/

/-- LANE_FAILURE (R606): see `laneFailure`. -/
def execLaneFailure (l : LinkId) (lane : Nat) (s : State) : Host.Outcome State Fault Refusal :=
  s.onLink l (fun f => f.onXng (laneFailure (f.flag F_XNG_CTRL_spare_en) lane))
    (fun f => f.onTwin (laneFailure (f.flag F_TWN_CTRL_spare_en) lane))
    (fun h => h.onXng (laneFailure (h.flag H_XNG_CTRL_spare_en) lane))

/-- SPARE_RECEIVE (Table 14.3): see `spareReceive`. -/
def execSpareReceive (l : LinkId) (lane : Nat) (s : State) : Host.Outcome State Fault Refusal :=
  s.onLink l (FieldDie.onXng (spareReceive lane)) (FieldDie.onTwin (spareReceive lane)) (HostDie.onXng (spareReceive lane))

/-- SPARE_REPEAT (R607): see `spareRepeat`. -/
def execSpareRepeat (l : LinkId) (s : State) : Host.Outcome State Fault Refusal :=
  s.onLink l (FieldDie.onXng spareRepeat) (FieldDie.onTwin spareRepeat) (HostDie.onXng spareRepeat)

/-- SPARE_DATA_SEEN (Table 14.3): see `spareDataSeen`. -/
def execSpareDataSeen (l : LinkId) (s : State) : Host.Outcome State Fault Refusal :=
  s.onLink l (fun f => f.onXng (spareDataSeen f.now)) (fun f => f.onTwin (spareDataSeen f.now)) (HostDie.onXng (spareDataSeen s.fld.now))

/-! ### Training -/

/-- TRAINING_LANE_PHASE (R611): see `lanePhase`. -/
def execTrainingLanePhase (l : LinkId) (rxBad txBad : Nat) (s : State) : Host.Outcome State Fault Refusal :=
  s.onLink l (fun f => f.onXng (lanePhase (f.rdN F_GLB_BOOT_CNT) rxBad txBad)) (fun f => f.onTwin (lanePhase (f.rdN F_GLB_BOOT_CNT) rxBad txBad))
    (HostDie.onXng (lanePhase 0 rxBad txBad))

/-- TRAINING_RESTART (R611): see `trainingRestart`. -/
def execTrainingRestart (l : LinkId) (s : State) : Host.Outcome State Fault Refusal :=
  s.onLink l (FieldDie.onXng trainingRestart) (FieldDie.onTwin trainingRestart) (HostDie.onXng trainingRestart)

/-- TRAIN_RECEIVE (R612): see `trainReceive`. -/
def execTrainReceive (l : LinkId) (s : State) : Host.Outcome State Fault Refusal :=
  s.onLink l (FieldDie.onXng trainReceive) (FieldDie.onTwin trainReceive) (HostDie.onXng trainReceive)

/-- TRAIN_ECHO_RECEIVE (R615, R635): see `trainEcho`. -/
def execTrainEchoReceive (l : LinkId) (halfInterval : Nat) (s : State) : Host.Outcome State Fault Refusal :=
  s.onLink l (FieldDie.onXng (trainEcho halfInterval)) (FieldDie.onTwin (trainEcho halfInterval)) (HostDie.onXng (trainEcho halfInterval))

/-- Whether the peer's TRAIN said that it is fresh. -/
def peerFresh (l : Link) : Bool := l.peerTrain.any (fun p => p.1)

/-- Training completes at the field end: a fresh host end is reported, and P16 is link-up (R20, R613). -/
def fieldTrained (f : FieldDie) : FieldDie :=
  if trained f.xng = false then f
  else
    let fresh := peerFresh f.xng
    let first := !f.xng.everUp
    let f := f.onXng trainingComplete
    let f := if first then f.setPortX 16 (fun x => { x with upSince := f.now }) else f
    if fresh then f.raise F_XNG_EVT 6 else f

/-- Training completes at the twin link's end: HELLO goes out again, and an end that lost its state needs a full copy. -/
def twinTrained (f : FieldDie) : FieldDie :=
  if trained f.twin = false then f
  else
    let lost := peerFresh f.twin || f.twin.fresh
    let f := (f.onTwin trainingComplete).put F_TWN_STAT_peer_seen 0
    let f := { f with twn := { f.twn with
      resync := f.twn.resync || lost
      fdbSent := if lost then [] else f.twn.fdbSent } }
    postTwin (helloUnit f) f

/-- Purge the held register messages that `p` names, counting their writes (R182, R630). -/
def purgeHeld (p : Held → Bool) (h : HostDie) : HostDie :=
  let gone := h.holdq.filter (fun m => decide (0 < m.writes) && p m)
  { h with holdq := h.holdq.filter (fun m => !(decide (0 < m.writes) && p m)) }.countN (hcXng 15) (gone.map (fun (m : Held) => m.writes)).sum

/-- Training completes at the host end (R182, R613): a new boot count purges every held write; a fresh field end has lost
the units that were waiting for its ACK, and their frames get no completion. -/
def hostTrained (h : HostDie) : HostDie :=
  match h.xng.peerTrain with
  | some (fresh, boot, _, _) =>
    if trained h.xng = false then h
    else
      let news := h.xng.everUp && h.rdN H_XNG_BOOT != boot % 2 ^ 32
      let h := if fresh then { h with crossing := h.crossing.filter (fun x => x.acked) } else h
      let h := if news then (purgeHeld (fun _ => true) h).raise H_XNG_EVT 6 else h
      (h.wrN H_XNG_BOOT boot).onXng trainingComplete
  | none => h

/-- CROSSING_TRAINING_COMPLETE (R612): the link comes UP. -/
def execCrossingTrainingComplete (l : LinkId) (s : State) : Host.Outcome State Fault Refusal := s.onLink l fieldTrained twinTrained hostTrained

/-! ### The host end: aperture and hold queue (R624 to R632) -/

/-- A read is answered at the host end with all-ones (R626). -/
def localAnswer (f tag : Nat) (late : Bool) (h : HostDie) : HostDie :=
  let h := (h.put (H_XNG_AP_STAT_barrier f) 1).put (H_XNG_AP_STAT_timeout f) (if late then 1 else 0)
  (h.bump (H_XNG_AP_STAT_local_cnt f) 1).emit (.hostRead tag 0xFFFFFFFF)

/-- The field-die address of an aperture access (R624). -/
def apertureAddr (h : HostDie) (f off : Nat) : Nat := h.get (H_XNG_PAGE_page f) * 0x4000 + off % 0x4000 / 4 * 4

/-- A tag that no outstanding read holds. -/
def freeTag (h : HostDie) : Option Nat := (List.range 64).find? (fun t => !h.reads.any (fun r => r.1 == t))

/-- A REGR message (Table 14.6). -/
def regrUnit (req tag be addr : Nat) : FlowUnit :=
  { header := 0x30000000 + req * 2 ^ 20 + tag * 2 ^ 12, payload := bytesLE (be % 16 * 2 ^ 28 + addr % 2 ^ 24) }

/-- APERTURE_READ (R626, R675): a message is sent, or the read is answered at once. -/
def apertureRead (f off be : Nat) (h : HostDie) : HostDie :=
  if h.dstate ≠ 0 then h
  else if h.flag (H_FUN_FN_CFG_ap_en f) = false ∨ h.xng.phase ≠ 3 then localAnswer f 64 false h
  else match freeTag h with
    | some t => { h with
        reads := h.reads ++ [(t, f)]
        readAt := Store.set (fun _ => 0) h.readAt t h.xng.tick
        holdq := h.holdq ++ [{ fn := f, epoch := 0, unit := regrUnit f t be (apertureAddr h f off), writes := 0 }] }
    | none => h

def execApertureRead (f off be : Nat) (s : State) : Host.Outcome State Fault Refusal := s.onFn f (apertureRead f off be)

/-- Whether a held message is the REGR of tag `t`. -/
def isRegr (t : Nat) (m : Held) : Bool := m.unit.type == 3 && bitsOf m.unit.header 19 12 == t

/-- Whether a read of tag `t` has waited 50 µs since its issue (R626). -/
def apertureLate (t : Nat) (h : HostDie) : Bool := decide (Store.get (fun _ => 0) h.readAt t + 50 * usTicks ≤ h.xng.tick)

/-- APERTURE_READ_TIMEOUT (R626): no REGC within 50 µs. -/
def apertureReadTimeout (t : Nat) (h : HostDie) : HostDie :=
  match h.reads.find? (fun r => r.1 == t) with
  | some r => if apertureLate t h = false then h else localAnswer r.2 t true { h with
      reads := h.reads.filter (fun x => x.1 != t)
      holdq := h.holdq.filter (fun m => !isRegr t m) }
  | none => h

def execApertureReadTimeout (tag : Nat) (s : State) : Host.Outcome State Fault Refusal := s.onHost (apertureReadTimeout tag)

/-- The slots of a request of consecutive words (R625). -/
def regwSlots (addr firstBe lastBe : Nat) (ws : List Word) : List Byte :=
  (List.range ws.length).flatMap (fun i =>
    let be := if i = 0 then firstBe else if i + 1 = ws.length then lastBe else 15
    bytesLE (be % 16 * 2 ^ 28 + (addr + 4 * i) % 2 ^ 24) ++ bytesLE (ws.getD i 0).toNat)

/-- A REGW message with its slots (Table 14.6). -/
def regwUnit (fn epoch count : Nat) (slots : List Byte) : FlowUnit :=
  { header := 0x20000000 + fn * 2 ^ 20 + epoch * 2 ^ 12 + count, payload := slots }

/-- Add a request's slots to the hold queue: into the waiting REGW of the same function and epoch when it has room
(R620), else as a REGW of its own. -/
def holdWrite (fn count : Nat) (slots : List Byte) (h : HostDie) : HostDie :=
  let e := h.get (H_XNG_EPOCH_epoch fn)
  let own : Held := { fn := fn, epoch := e, unit := regwUnit fn e count slots, writes := count }
  match h.holdq.getLast? with
  | some m =>
    if 0 < m.writes ∧ m.fn = fn ∧ m.epoch = e ∧ m.writes + count ≤ 7 then
      { h with holdq := h.holdq.dropLast ++ [{ m with writes := m.writes + count, unit := regwUnit fn e (m.writes + count) (m.unit.payload ++ slots) }] }
    else { h with holdq := h.holdq ++ [own] }
  | none => { h with holdq := h.holdq ++ [own] }

/-- APERTURE_WRITE (R620, R631, R675, R714): the request's writes join the hold queue; a full queue returns no credit, so
that no request arrives. -/
def apertureWrite (f off firstBe lastBe : Nat) (ws : List Word) (h : HostDie) : HostDie :=
  if h.dstate ≠ 0 ∨ ws = [] then h
  else if 7 < ws.length then h.raise (H_FUN_EVT f) 5
  else if h.flag (H_FUN_FN_CFG_ap_en f) = false then h.countN (hcXng 32) ws.length
  else
    let n := heldWrites h
    if 4096 < n + ws.length then h
    else
      let h := holdWrite f ws.length (regwSlots (apertureAddr h f off) firstBe lastBe ws) h
      if n < 3072 ∧ 3072 ≤ n + ws.length then h.raise H_XNG_EVT 7 else h

def execApertureWrite (f off firstBe lastBe : Nat) (words : List Word) (s : State) : Host.Outcome State Fault Refusal :=
  s.onFn f (apertureWrite f off firstBe lastBe words)

/-- A write of H_XNG_PURGE (R630): the physical function may name any function, another acts on itself. -/
def holdPurge (f data : Nat) (h : HostDie) : HostDie :=
  if hasBit data 31 = false then h
  else
    let t := if f = 0 then bitsOf data 15 8 else f
    let e := bitsOf data 7 0
    let h := purgeHeld (fun m => m.fn == t && m.epoch == e) h
    if t < 64 ∧ h.get (H_XNG_EPOCH_epoch t) = e then h.bump (H_XNG_EPOCH_epoch t) 1 else h

/-- HOLD_PURGE (R630): see `holdPurge`. -/
def execHoldPurge (f : Nat) (data : Word) (s : State) : Host.Outcome State Fault Refusal := s.onFn f (holdPurge f data.toNat)

/-! ### Host events from outside (chapters 16 and 21) -/

/-- The reaction to an uncorrectable host word (R821), by where it lies. -/
def eccReaction (place : Nat) (h : HostDie) : HostDie :=
  if place = 0 then h.onXng (fun l => startTraining { l with fresh := true, replay := [], times := [], txNext := 0 })
  else if place = 1 then
    match h.holdq.find? (fun m => decide (0 < m.writes)) with
    | some m => { h with holdq := h.holdq.erase m }.countN (hcXng 15) m.writes
    | none => h
  else if place = 2 then
    match h.sending with
    | some x => chkUndo x { h with sending := some (abortSending x) }
    | none => h
  else h

/-- HOST_FAULT_LATCH (R803, R820, R821): a host fault of Table 21.3 is detected. -/
def hostFaultLatch (code fn place : Nat) (h : HostDie) : HostDie :=
  let h := hostFault code fn h
  if code = 0 then eccReaction place h
  else if code = 3 then forAll ((List.range 2048).filter (ownsQp h fn)) (fun q h => if h.flag (H_FUN_Q_CTRL_tx_en q) then dmaStop q h else h) h
  else h

def execHostFaultLatch (code func place : Nat) (s : State) : Host.Outcome State Fault Refusal :=
  s.onHost (fun h => if code < 4 ∧ func < 64 then hostFaultLatch code func place h else h)

end Sys2Proof.Machine
end

