-- ==== Sys2Proof/Machine/Pins.lean ====
section
/-! DEFINITION. General-purpose pins of both dies and the two-channel pairs (chapter 19). -/

namespace Sys2Proof.Machine

/-! ### Ownership and writes (R761 to R763) -/

/-- Whether requester `req` may change the output of pin `n` (R762, R764). -/
def pinAllowed (f : FieldDie) (req n : Nat) : Bool :=
  let o := f.get (F_PIN_CFG_owner n)
  req == 0x41 || o == 0xFF || (decide (o ≤ 0x40) && o == req) ||
  (decide (0x80 ≤ o) && decide (o < 0xA0) && lockState f (o - 0x80) == 1 && f.get (F_CFG_LOCK_owner (o - 0x80)) == req)

/-- The bits of pins 4 to 23. -/
def pinMask : Nat := 0xFFFFF0

/-- F_PIN_OUT after a write at `off`, of pins that all may be written: 0x10 the value, 0x14 set, 0x18 clear, 0x1C invert. -/
def pinProposal (off old data : Nat) : Nat :=
  if off = 0x10 then Nat.land data pinMask
  else if off = 0x14 then Nat.lor old (Nat.land data pinMask)
  else if off = 0x18 then andNot old (Nat.land data pinMask)
  else Nat.xor old (Nat.land data pinMask)

/-- The pins a write names: those of its 1 bits, or for F_PIN_OUT itself those it would change. -/
def pinNamed (off old data : Nat) : Nat := if off = 0x10 then Nat.xor old (Nat.land data pinMask) else Nat.land data pinMask

/-- A write of F_PIN_OUT or of its set, clear and invert registers (R763). -/
def writePinOut (req off data : Nat) (f : FieldDie) : FieldDie :=
  let old := f.rdN F_PIN_OUT
  let new := pinProposal off old data
  let named := pinNamed off old data
  let may := ((List.range 20).filter (fun i => pinAllowed f req (i + 4))).foldl (fun a i => setBit a (i + 4)) 0
  let f := f.wrN F_PIN_OUT (Nat.lor (andNot old may) (Nat.land new may))
  match (List.range 20).find? (fun i => hasBit (andNot named may) (i + 4)) with
  | some i => (((f.bump ⟨F_PIN_REJ, 31, 0⟩ 1).put F_PIN_EVT_INFO_requester req).put F_PIN_EVT_INFO_pin (i + 4)).raise F_PIN_EVT 4
  | none => f

/-- PIN_OUT_WRITE (R763): see `writePinOut`. -/
def execPinOutWrite (req off : Nat) (data : Word) (s : State) : Host.Outcome State Fault Refusal :=
  s.onWrite req (fun f => if off = 0x10 ∨ off = 0x14 ∨ off = 0x18 ∨ off = 0x1C then writePinOut req off data.toNat f else f)

/-- Whether an owner code exists (Table 19.2). -/
def ownerOk (o : Nat) : Bool := decide (o ≤ 0x40) || (decide (0x80 ≤ o) && decide (o < 0xA0)) || o == 0xC0 || o == 0xFF

/-- A write of F_PIN_n_CFG (R761, R762). Pins 4 to 7 have no edge field. -/
def writePinCfg (req n data : Nat) (f : FieldDie) : FieldDie :=
  if (13 ≤ n ∧ hasBit data 7) ∨ ownerOk (bitsOf data 31 24) = false then (f.put F_PIN_EVT_INFO_pin n).raise F_PIN_EVT 4
  else storeWrite req (F_PIN_CFG n) (if n < 8 then putBits data 6 5 0 else data) f

/-- PIN_CFG_WRITE (R761): see `writePinCfg`. -/
def execPinCfgWrite (req n : Nat) (data : Word) (s : State) : Host.Outcome State Fault Refusal :=
  s.onItemWrite req n 24 (fun f => if 4 ≤ n then writePinCfg req n data.toNat f else f)

/-! ### Levels (R760, R766, R769, R770, R785) -/

/-- The level that an output drives, or none for a pin that does not drive its pad. A stop action forces every output that
it names, whatever its function (R783). -/
def pinDrive (f : FieldDie) (n : Nat) : Option Bool :=
  let w := f.rdN (F_PIN_CFG n)
  let shutter := hasBit w 7 && decide (n < 8)
  let irq := hasBit w 7 && n == 12
  if f.powered = false ∨ n < 4 ∨ 23 < n then none
  else if !shutter && !irq && (hasBit w 7 || !hasBit w 8) then none
  else if hasBit f.pin.forced n then some (hasBit w 3)
  else if shutter then some (f.flag (F_TIM_SHUT_CTRL_level (n - 4)))
  else if irq then some (!winIrq f)
  else if bitsOf w 31 24 = 0xC0 then some (f.role == 2)
  else some (hasBit (f.rdN F_PIN_OUT) n)

/-- F_PIN_IN: pads 4 to 23, and the channel levels of the last safelight tick. -/
def pinIn (f : FieldDie) : Nat :=
  Nat.land f.pin.pads pinMask + f.get (F_PIN_PAIR_STAT_samp_a 0) + 2 * f.get (F_PIN_PAIR_STAT_samp_b 0) +
    4 * f.get (F_PIN_PAIR_STAT_samp_a 1) + 8 * f.get (F_PIN_PAIR_STAT_samp_b 1)

/-- Whether a two-bit edge field selects an edge: 1 rising, 2 falling, 3 both. -/
def edgeSelected (sel : Nat) (rising : Bool) : Bool := hasBit sel (if rising then 0 else 1)

/-- PIN_EDGE (R771): a recognised edge at a field pin. -/
def pinEdge (n : Nat) (rising : Bool) (f : FieldDie) : FieldDie :=
  let f := { f with pin := { f.pin with pads := if rising then setBit f.pin.pads n else clrBit f.pin.pads n } }
  if 8 ≤ n ∧ edgeSelected (f.get (F_PIN_CFG_edge n)) rising then (f.put F_PIN_EVT_INFO_pin n).raise F_PIN_EDGE (n - 8) else f

def execPinEdge (n : Nat) (rising : Bool) (s : State) : Host.Outcome State Fault Refusal :=
  s.onItem n 24 (fun f => if 4 ≤ n then pinEdge n rising f else f)

/-- The level that host pin `n` drives, or none for an input (Table 19.5); every host pin is an input while PERST_N is low
(Table 2.4). -/
def hostPinDrive (h : HostDie) (n : Nat) : Option Bool :=
  if h.inReset ∨ 16 ≤ n ∨ hasBit (h.rdN H_PIN_DIR) n = false then none else some (hasBit (h.rdN H_PIN_OUT) n)

/-- HOST_PIN_EDGE (R774): a recognised edge at a host pin. -/
def hostPinEdge (n : Nat) (rising : Bool) (h : HostDie) : HostDie :=
  let h := h.wrN H_PIN_IN (if rising then setBit (h.rdN H_PIN_IN) n else clrBit (h.rdN H_PIN_IN) n)
  if edgeSelected (bitsOf (h.rdN H_PIN_EDGE_CFG) (2 * n + 1) (2 * n)) rising then h.raise H_PIN_EVT n else h

def execHostPinEdge (n : Nat) (rising : Bool) (s : State) : Host.Outcome State Fault Refusal :=
  s.onHost (fun h => if n < 16 then hostPinEdge n rising h else h)

/-! ### Two-channel pairs (R775 to R782) -/

/-- The discrepancy count in force: disc, or eff_disc under perturbation; 0 acts as 1. -/
def effDisc (f : FieldDie) (p : Nat) : Nat :=
  max 1 (if hasBit (f.rdN F_PTB_PAIR) (16 + p) then bitsOf (f.rdN F_PTB_PAIR) 15 0 else f.get (F_PIN_PAIR_CFG_disc p))

/-- Set the combined state of a pair; a change raises pair_change while the register file is powered (R780). -/
def setPair (p st : Nat) (f : FieldDie) : FieldDie :=
  if f.get (F_PIN_PAIR_STAT_state p) = st then f
  else
    let f := f.put (F_PIN_PAIR_STAT_state p) st
    if f.powered then (f.put F_PIN_EVT_INFO_pin (2 * p)).raise F_PIN_EVT p else f

/-- The discrepancy fault (R777): latched once run has reached the count, and the state is forced to DEMAND. -/
def discrepancy (p : Nat) (f : FieldDie) : FieldDie :=
  if f.flag (F_PIN_PAIR_STAT_disc_fault p) ∨ f.get (F_PIN_PAIR_STAT_run p) < effDisc f p then f
  else
    let f := setPair p 0 (f.put (F_PIN_PAIR_STAT_disc_fault p) 1)
    if f.powered then latchFault (10 + p) p ((f.put F_PIN_EVT_INFO_pin (2 * p)).raise F_PIN_EVT (2 + p)) else latchDark (10 + p) p f

/-- DISCREPANCY_FAULT (R777): see `discrepancy`. -/
def execDiscrepancyFault (pair : Nat) (s : State) : Host.Outcome State Fault Refusal :=
  s.onField (fun f => if pair < 2 ∧ f.pwr.vddSl then refreshStops (discrepancy pair f) else f)

/-- One safelight tick of pair `p` at the pad levels `pads` (R775 to R778). -/
def pairTick (pads p : Nat) (f : FieldDie) : FieldDie :=
  let a := bitOf pads (2 * p)
  let b := bitOf pads (2 * p + 1)
  let f := (f.put (F_PIN_PAIR_STAT_samp_a p) a).put (F_PIN_PAIR_STAT_samp_b p) b
  let b' := if f.flag (F_PIN_PAIR_CFG_antivalent p) then 1 - b else b
  if a = b' then
    let f := f.put (F_PIN_PAIR_STAT_run p) 0
    if f.flag (F_PIN_PAIR_STAT_disc_fault p) then f else setPair p a f
  else discrepancy p (f.put (F_PIN_PAIR_STAT_run p) (min 65535 (f.get (F_PIN_PAIR_STAT_run p) + 1)))

/-- PAIR_ACTION_WRITE (R787): a write of F_PIN_PAIR_n_GATE or _ACT; it acts at the next fine tick. -/
def execPairActionWrite (req pair : Nat) (act : Bool) (data : Word) (s : State) : Host.Outcome State Fault Refusal :=
  s.onItemWrite req pair 2 (storeWrite req (if act then F_PIN_PAIR_ACT pair else F_PIN_PAIR_GATE pair) data.toNat)

/-- One safelight tick of the output comparison of pin `n` (R768). -/
def padTick (pads n : Nat) (f : FieldDie) : FieldDie :=
  let bad := match pinDrive f n with
    | some l => !f.flag (F_PIN_CFG_func n) && l != hasBit pads n
    | none => false
  let c := if bad then f.pin.differ.getD n 0 + 1 else 0
  let f := { f with pin := { f.pin with differ := modAt f.pin.differ n (fun _ => c) } }
  if c = 3 then (f.put F_PIN_EVT_INFO_pin n).raise F_PIN_EVT 5 else f

end Sys2Proof.Machine
end

