-- ==== Sys2Proof/Machine/Image.lean ====
section
/-! DEFINITION. The words that the proof covers and their proof (R265 to R267), and the configuration image: its
canonical form (R207, R208) and its checks (R204, R205, R210). -/

namespace Sys2Proof.Machine

/-! ### What the proof covers -/

/-- The covered bits of a register row. -/
def RegRow.coverMask (row : RegRow) : Nat :=
  row.fields.foldl (fun m r => if r.covered row.sweep then putBits m r.hi r.lo (2 ^ 32 - 1) else m) 0

/-- Every register row of the field address space. -/
def allRegRows : List RegRow :=
  [rowsGlb, rowsPwr, rowsCfg, rowsKey, rowsSpi, rowsPin, rowsFlt, rowsPtb, rowsPort, rowsMds, rowsCls, rowsFwd, rowsBuf,
    rowsStr, rowsTim, rowsXng, rowsTwn].flatten

/-- The registers with a covered bit, with their masks, in ascending address order. -/
def coveredRegs : List (Nat × Nat) :=
  forAll (allRegRows.filter (fun r => r.coverMask != 0))
    (fun (row : RegRow) m => forRange row.count (fun i m => Store.insert (row.base + row.stride * i) row.coverMask m) m) []

/-- The covered tables (R266). -/
def sweptTables : List TblRow := tblRows.filter (fun t => t.kind == .swept)

/-- The addresses of a table's entries, ascending. -/
def TblRow.entryAddrs (t : TblRow) : List Nat :=
  (List.range t.insts).flatMap (fun i => (List.range t.entries).map (fun e => t.base + i * t.inst + 4 * t.words * e))

/-- The words of an entry as the sweep reads them: a filtering-database entry with static 0 contributes 0 (R266). -/
def sweepEntry (f : FieldDie) (t : TblRow) (b : Nat) : List Nat :=
  if t.base = 0x480000 ∧ hasBit (f.rdN b) 30 = false then List.replicate t.words 0
  else (List.range t.words).map (fun w => f.rdN (b + 4 * w))

/-- The words of a covered register as the sweep reads it. -/
def sweepReg (f : FieldDie) (c : Nat × Nat) : Nat := Nat.land (f.rdN c.1) c.2

/-- The word stream of the sweep (R267). -/
def proofStream (f : FieldDie) : List Nat :=
  coveredRegs.map (sweepReg f) ++ sweptTables.flatMap (fun t => t.entryAddrs.flatMap (sweepEntry f t))

/-- The proof of the present configuration (R267). -/
def proofValue (f : FieldDie) : Nat := crc32c ((proofStream f).flatMap bytesLE)

/-! ### The canonical image (R207 to R209) -/

/-- Maximal runs of items whose address follows the one before by `step`. -/
def runsOf {α : Type} (step : Nat) : List (Nat × α) → List (Nat × List α)
  | [] => []
  | (a, x) :: xs =>
    match runsOf step xs with
    | (b, ys) :: rs => if b = a + step then (a, x :: ys) :: rs else (a, [x]) :: (b, ys) :: rs
    | [] => [(a, [x])]

/-- The words of a register run (Table 5.6). -/
def regRecord (r : Nat × List Nat) : List Nat := [0x01000000 + r.2.length, r.1] ++ r.2

/-- The words of a table run of `w` words per entry (Table 5.6). -/
def tblRecord (w stride : Nat) (r : Nat × List (List Nat)) : List Nat :=
  [0x02000000 + w * 65536 + r.2.length, r.1, stride] ++ r.2.flatten

/-- The entries of a table that differ from their reset value, with their words. -/
def changedEntries (f : FieldDie) (t : TblRow) : List (Nat × List Nat) :=
  (t.entryAddrs.map (fun b => (b, sweepEntry f t b))).filter
    (fun e => e.2 != (List.range t.words).map (fun w => (fieldDefault (e.1 + 4 * w)).toNat))

/-- Cut words into entries of `w`. -/
def entriesOf (w : Nat) : Nat → List Nat → List (List Nat)
  | 0, _ => []
  | n + 1, ws => ws.take w :: entriesOf w n (ws.drop w)

/-- The table runs of one table, one for each maximal range (R208). DESIGN CHOICE (log entry 74): a run's entries hold at
most 16 words (Table 5.6), so the run over rules, of 32 words each, counts every rule as two entries of 16. -/
def tableRecords (f : FieldDie) (t : TblRow) : List (List Nat) :=
  let w := min 16 t.words
  (runsOf (4 * t.words) (changedEntries f t)).map (fun r => tblRecord w (4 * w) (r.1, r.2.flatMap (entriesOf w (t.words / w))))

/-- The records of the canonical image. -/
def imageRecords (f : FieldDie) : List (List Nat) :=
  (runsOf 4 (coveredRegs.map (fun c => (c.1, sweepReg f c)))).map regRecord ++ sweptTables.flatMap (tableRecords f)

/-- The order code of the part (Table 6.11). -/
def FieldDie.orderCode (f : FieldDie) : Nat := if f.order = .di then 1 else 2

/-- The base MAC address, octet 1 first. -/
def imageMac (f : FieldDie) : List Byte := bytesBE 2 (f.rdN F_GLB_BASE_MAC_HI) ++ bytesBE 4 (f.rdN F_GLB_BASE_MAC_LO)

/-- The image header but for its CRC (Table 5.5). -/
def imageHead (f : FieldDie) (proof size records : Nat) : List Byte :=
  bytesLE 0x4D49444E ++ bytesLE (1 + 128 * 65536) ++ bytesLE size ++
  bytesLE (1 + f.get F_KEY_PERS_flags * 256 + f.orderCode * 65536) ++
  imageMac f ++ [0, 0] ++ (List.range 4).flatMap (fun i => bytesLE (f.rdN (F_KEY_SERIAL i))) ++
  (List.range 8).flatMap (fun i => bytesLE (f.rdN (F_KEY_NAME i))) ++
  bytesLE proof ++ bytesLE (f.rdN F_KEY_EDITION) ++ bytesLE (f.rdN F_GLB_DIE_ID_LO) ++ bytesLE (f.rdN F_GLB_DIE_ID_HI) ++
  bytesLE records ++ List.replicate 32 0

/-- The header with its CRC: 128 bytes. -/
def imageHeader (f : FieldDie) (proof size records : Nat) : List Byte :=
  let h := fitBytes 124 (imageHead f proof size records)
  h ++ bytesLE (crc32c h)

/-- The canonical image of the present configuration under `proof` (R208). -/
def canonicalImage (f : FieldDie) (proof : Nat) : List Byte :=
  let rs := imageRecords f
  let body := rs.flatten.flatMap bytesLE
  let im := imageHeader f proof (128 + body.length + 4) rs.length ++ body
  im ++ bytesLE (crc32c im)

/-- The longest image (R123, R209). -/
def imageMax : Nat := 30720

/-! ### Checks (R204, R205, R210) -/

/-- Fields of a header (Table 5.5). -/
def headSize (h : List Byte) : Nat := wordAt h 2
def headProof (h : List Byte) : Nat := wordAt h 18
def headUnit (h : List Byte) : List Byte := (h.drop 16).take 6 ++ (h.drop 24).take 48
def headSwitch (h : List Byte) : List Byte := (h.drop 16).take 6 ++ (h.drop 40).take 32

/-- Whether a header passes its own check: magic, version, length, size and CRC. -/
def headOk (h : List Byte) : Bool :=
  wordAt h 0 == 0x4D49444E && wordAt h 1 == 1 + 128 * 65536 && decide (132 ≤ headSize h) && decide (headSize h ≤ imageMax) &&
  headSize h % 4 == 0 && wordAt h 31 == crc32c (h.take 124)

/-- Whether a part of order code `order` supports the personality (R210). -/
def persOk (order : Nat) (h : List Byte) : Bool := byteAt h 12 == 1 && byteAt h 14 == order && byteAt h 13 < 2

/-- One record of an image: a register run, or a table run with its words per entry and stride. -/
inductive ImgRec
  | regs (addr : Nat) (ws : List Nat)
  | table (addr w stride : Nat) (entries : List (List Nat))
deriving DecidableEq, Repr

/-- Whether address `a` lies in a table window of Table 23.2: a table, or the counter window, the snapshot view or the
serial window. -/
def inTableWindow (a : Nat) : Bool := (tblRow a).isSome || (decide (0xE00000 ≤ a) && decide (a < 0xF10000))

/-- The record at the head of `ws`, if it passes R205, and the words after it. -/
def takeRecord (ws : List Nat) : Option (ImgRec × List Nat) :=
  let h := ws.getD 0 0
  let n := bitsOf h 15 0
  let w := bitsOf h 23 16
  let a := ws.getD 1 0
  if n = 0 ∨ 4096 < n then none
  else if bitsOf h 31 24 = 1 then
    let d := (ws.drop 2).take n
    if w = 0 ∧ d.length = n ∧ a % 4 = 0 ∧ (List.range n).all (fun i => coveredRegs.any (fun c => c.1 == a + 4 * i)) then
      some (.regs a d, ws.drop (2 + n))
    else none
  else if bitsOf h 31 24 = 2 then
    let s := ws.getD 2 0
    let d := (ws.drop 3).take (n * w)
    let inside := (List.range n).all (fun i => (List.range w).all (fun k => inTableWindow (a + s * i + 4 * k)))
    if 1 ≤ w ∧ w ≤ 16 ∧ d.length = n * w ∧ 4 * w ≤ s ∧ inside then
      some (.table a w s (entriesOf w n d), ws.drop (3 + n * w))
    else none
  else none

/-- The `n` records of an image, when every one passes. -/
def takeRecords : Nat → List Nat → Option (List ImgRec)
  | 0, ws => if ws = [] then some [] else none
  | n + 1, ws =>
    match takeRecord ws with
    | some (r, rest) => (takeRecords n rest).map (fun rs => r :: rs)
    | none => none

/-- The words of a byte list. -/
def wordsOf (bs : List Byte) : List Nat := (List.range (bs.length / 4)).map (wordAt bs)

/-- The records of a whole image that passes its header, record and image checks (R204, R210). -/
def checkImage (order : Nat) (img : List Byte) : Option (List ImgRec) :=
  let n := headSize img
  if headOk img ∧ persOk order img ∧ img.length = n ∧ leBytes (img.drop (n - 4)) = crc32c (img.take (n - 4)) then
    takeRecords (wordAt img 22) (wordsOf ((img.take (n - 4)).drop 128))
  else none

end Sys2Proof.Machine
end

