-- ==== Sys2Proof/Machine/Ptp.lean ====
section
/-! DEFINITION. The gPTP engine and its servo (R551 to R566, R370 to R372). The layout of gPTP messages, the comparison
of priority vectors and the port states of the BMCA are those of IEEE 802.1AS-2020, which the spec names (PRESUMED, log
entry 30). -/

namespace Sys2Proof.Machine

/-! ### Identities and messages -/

/-- The base MAC address. -/
def baseMac (f : FieldDie) : Nat := f.get F_GLB_BASE_MAC_HI_octets12 * 2 ^ 32 + f.rdN F_GLB_BASE_MAC_LO

/-- The gPTP clock identity (Table 4.6): the base address with 0xFF_FE after its third octet. -/
def ownClock (f : FieldDie) : Nat := baseMac f / 2 ^ 24 * 2 ^ 40 + 0xFFFE * 2 ^ 24 + baseMac f % 2 ^ 24

/-- messageType of a gPTP message. -/
def ptpType (m : List Byte) : Nat := byteAt m 0 % 16
/-- domainNumber of a gPTP message. -/
def ptpDomain (m : List Byte) : Nat := byteAt m 4
/-- correctionField of a gPTP message, units of 2^-16 ns. -/
def ptpCorr (m : List Byte) : Int := toSigned 64 (beAt m 8 8)
/-- sequenceId of a gPTP message. -/
def ptpSeq (m : List Byte) : Nat := beAt m 30 2
/-- twoStepFlag of a gPTP message. -/
def ptpTwoStep (m : List Byte) : Bool := hasBit (byteAt m 6) 1
/-- The timestamp in bytes 34 to 43 of a gPTP message, ns. -/
def ptpTime (m : List Byte) : Nat := beAt m 34 6 * 1000000000 + beAt m 40 4

/-- The ten bytes of a timestamp. -/
def timeBytes (ns : Nat) : List Byte := bytesBE 6 (secOf ns) ++ bytesBE 4 (nsOf ns)

/-- A common header: message type, length, domainNumber, octets 6 and 7 of the flags, correctionField, port number,
sequenceId and logMessageInterval. -/
def ptpHeader (f : FieldDie) (ty len dom flags : Nat) (corr : Int) (port seq : Nat) (logi : Int) : List Byte :=
  bytesBE 1 (0x10 + ty) ++ bytesBE 1 0x12 ++ bytesBE 2 len ++ bytesBE 1 dom ++ bytesBE 1 0 ++ bytesBE 2 flags ++
    bytesBE 8 (ofSigned 64 corr) ++ bytesBE 4 0 ++ bytesBE 8 (ownClock f) ++ bytesBE 2 (port + 1) ++ bytesBE 2 seq ++
    bytesBE 1 0 ++ bytesBE 1 (ofSigned 8 logi)

/-- The Follow_Up information TLV of a grandmaster. -/
def ownTlv : List Byte := bytesBE 2 3 ++ bytesBE 2 28 ++ bytesBE 3 0x0080C2 ++ bytesBE 3 1 ++ List.replicate 22 0

/-- Queue a gPTP message at port `n` (R558): it passes the admission of queue `q` like any other copy. `what` names what
its transmission completes: the instance, and 0 two-step Sync, 1 one-step Sync, 2 Pdelay_Resp. -/
def engineSend (n q : Nat) (what : Option (Nat × Nat)) (m : List Byte) (f : FieldDie) : FieldDie :=
  let hdr := bytesBE 6 0x0180C200000E ++ bytesBE 6 ((baseMac f + n) % 2 ^ 48) ++ bytesBE 2 0x88F7
  let body := if (hdr ++ m).length < 60 then fitBytes 60 (hdr ++ m) else hdr ++ m
  let bs := body ++ bytesLE (fcs32 body)
  let fr : Frame := { id := f.buf.nextId, port := 31, bytes := bs, rx := false, accepted := true, shortDone := true, final := some {}, directed := some 0, ptp := what }
  let f := { f with buf := { f.buf with frames := f.buf.frames ++ [fr], nextId := f.buf.nextId + 1 } }
  (admitCopy fr { frame := fr.id, port := n, queue := q, cells := cellsOf bs.length, joined := f.now } f).2

/-- The message in a frame that the engine made. -/
def engineMsg (fr : Frame) : List Byte := fr.bytes.drop 14

/-! ### Grandmaster identity (R559) -/

/-- The grandmaster identity that an instance shows. -/
def gmShown (f : FieldDie) (n : Nat) : Nat := f.rdN (F_TIM_PTP_GM_HI n) * 2 ^ 32 + f.rdN (F_TIM_PTP_GM_LO n)

/-- Show a grandmaster identity; a change raises gm_change. -/
def setGm (n id : Nat) (f : FieldDie) : FieldDie :=
  if gmShown f n = id then f
  else timeEvt 11 n ((f.wrN (F_TIM_PTP_GM_HI n) (id / 2 ^ 32 % 2 ^ 32)).wrN (F_TIM_PTP_GM_LO n) (id % 2 ^ 32))

/-- The slave port of an instance, when it has one. -/
def slavePort (f : FieldDie) (n : Nat) : Option Nat :=
  let p := f.get (F_TIM_PTP_STAT_slave_port n)
  if p < 12 then some p else none

/-- Whether an instance sends time as grandmaster (R556). -/
def actsAsGm (f : FieldDie) (n : Nat) : Bool :=
  ptpOn f n && f.flag (F_TIM_PTP_CFG_gm_capable n) && ((slavePort f n).isNone || ptpState f n == 4)

/-- The last qualified Announce of port `p`. -/
def heardOn (f : FieldDie) (n p : Nat) : Option (List Byte) := ((f.ptpX n).heard.find? (fun h => h.1 == p)).map (fun h => h.2.2)

/-- Bring the grandmaster identity up to date. -/
def refreshGm (n : Nat) (f : FieldDie) : FieldDie :=
  if ptpOn f n = false then f
  else if actsAsGm f n then setGm n (ownClock f) f
  else match (slavePort f n).bind (heardOn f n) with
    | some m => setGm n (beAt m 53 8) f
    | none => f

/-! ### Best master and port roles (R555) -/

/-- Compare two priority vectors, field by field. -/
def vecLess : List Nat → List Nat → Bool
  | x :: xs, y :: ys => decide (x < y) || (x == y && vecLess xs ys)
  | _, _ => false

/-- The instance's own root vector: priority1 counts as 255 when it is not gm_capable. -/
def ownRoot (f : FieldDie) (n : Nat) : List Nat :=
  [if f.flag (F_TIM_PTP_CFG_gm_capable n) then f.get (F_TIM_PTP_PRIO_priority1 n) else 255, f.get (F_TIM_PTP_PRIO_clockClass n),
   f.get (F_TIM_PTP_PRIO_clockAccuracy n), f.get (F_TIM_PTP_VAR_variance n), f.get (F_TIM_PTP_PRIO_priority2 n), ownClock f]

/-- The root vector of an Announce. -/
def announceRoot (m : List Byte) : List Nat := [byteAt m 47, byteAt m 48, byteAt m 49, beAt m 50 2, byteAt m 52, beAt m 53 8]

/-- The vector of an Announce received on port `p`: root, steps removed, sender, sender's port, and `p`. -/
def announceVec (p : Nat) (m : List Byte) : List Nat := announceRoot m ++ [beAt m 61 2, beAt m 20 8, beAt m 28 2, p]

/-- Whether a port runs gPTP at all. -/
def ptpPort (f : FieldDie) (p : Nat) : Bool := f.flag (F_TIM_PORT_PDLY_ptp_en p) && linkUp f p

/-- The port and vector of the best Announce. -/
def bestHeard (f : FieldDie) (n : Nat) : Option (Nat × List Nat) :=
  (f.ptpX n).heard.foldl (fun b h =>
    let v := announceVec h.1 h.2.2
    match b with
    | none => some (h.1, v)
    | some c => if vecLess v c.2 then some (h.1, v) else b) none

/-- The slave port that the BMCA or the static roles give. The one that a state record gave stands until its port has
been heard (R657, log 133). -/
def chosenSlave (f : FieldDie) (n : Nat) : Option Nat :=
  if f.flag (F_TIM_PTP_CFG_bmca n) then
    match (f.ptpX n).carried, bestHeard f n with
    | some (_, p), _ => some p
    | none, some (p, v) => if vecLess (v.take 6) (ownRoot f n) then some p else none
    | none, none => none
  else (List.range 12).find? (fun p => bitsOf (f.get (F_TIM_PTP_ROLE_roles n)) (2 * p + 1) (2 * p) == 2)

/-- The vector that port `p` would announce. -/
def masterVec (f : FieldDie) (n p : Nat) : List Nat :=
  match chosenSlave f n, bestHeard f n with
  | some _, some (_, v) => v.take 6 ++ [v.getD 6 0 + 1, ownClock f, p + 1, p]
  | _, _ => ownRoot f n ++ [0, ownClock f, p + 1, p]

/-- The role of port `p` in instance `n`: 0 disabled, 1 master, 2 slave, 3 passive. -/
def roleOf (f : FieldDie) (n p : Nat) : Nat :=
  if ptpOn f n = false ∨ f.flag (F_TIM_PORT_PDLY_ptp_en p) = false then 0
  else if f.flag (F_TIM_PTP_CFG_bmca n) then
    if f.flag (F_TIM_PORT_STAT_as_capable p) = false ∨ linkUp f p = false then 0
    else if chosenSlave f n = some p then 2
    else match heardOn f n p with
      | some m => if vecLess (announceVec p m) (masterVec f n p) then 3 else 1
      | none => 1
  else
    let r := bitsOf (f.get (F_TIM_PTP_ROLE_roles n)) (2 * p + 1) (2 * p)
    if r = 2 ∧ chosenSlave f n ≠ some p then 3 else r

/-- The instance's state follows its slave port (R564, R565). After a wake it stays UNLOCKED until its first offset
(R590). -/
def slaveChanged (n : Nat) (old : Option Nat) (f : FieldDie) : FieldDie :=
  let new := slavePort f n
  if ptpOn f n = false then setPtpState n 0 f
  else if new = none then (if (f.ptpX n).afterWake then f else setPtpState n 1 f)
  else if new ≠ old ∨ ptpState f n < 2 then
    setPtpState n 2 (f.setPtpX n (fun x => { x with lastSync := f.now, sync := none, syncNew := false, pendingSync := none }))
  else f

/-- Whether port `p` takes part in the instance's choice of a best master: it has its link and runs gPTP, and under the
BMCA it is asCapable (R554, R555). -/
def ptpCapable (f : FieldDie) (n p : Nat) : Bool :=
  ptpPort f p && (!f.flag (F_TIM_PTP_CFG_bmca n) || f.flag (F_TIM_PORT_STAT_as_capable p))

/-- Work out the roles of instance `n`. What was heard on a port that takes no part is forgotten. -/
def refreshRoles (n : Nat) (f : FieldDie) : FieldDie :=
  let f := f.setPtpX n (fun x => { x with
    heard := x.heard.filter (fun h => ptpCapable f n h.1)
    carried := x.carried.filter (fun c => ptpCapable f n c.2) })
  let old := slavePort f n
  let roles := (List.range 12).map (roleOf f n)
  let slave := if ptpOn f n then (chosenSlave f n).getD 31 else 31
  let f := forRange 12 (fun p f => f.put (if n = 0 then F_TIM_PORT_STAT_role0 p else F_TIM_PORT_STAT_role1 p) (roles.getD p 0)) f
  refreshGm n (slaveChanged n old (f.put (F_TIM_PTP_STAT_slave_port n) slave))

/-- Work out the roles of both instances. -/
def refreshPtp (f : FieldDie) : FieldDie := refreshXc (refreshRoles 1 (refreshRoles 0 f))

/-! ### Configuration writes (R551, Table 13.5) -/

/-- Whether a value of F_TIM_PTP_n_CFG is refused. -/
def ptpCfgBad (f : FieldDie) (n data : Nat) : Bool :=
  let ls := toSigned 4 (bitsOf data 15 12)
  let la := toSigned 4 (bitsOf data 11 8)
  let o := 1 - n
  decide (ls < -7) || decide (3 < ls) || decide (la < -3) || decide (3 < la) || decide (127 < bitsOf data 23 16) ||
  (hasBit data 31 && ptpOn f o &&
    (bitsOf data 23 16 == f.get (F_TIM_PTP_CFG_domain_number o) || bitOf data 30 == f.get (F_TIM_PTP_CFG_steer o)))

/-- A write of F_TIM_PTP_n_CFG. -/
def writePtpCfg (req n data : Nat) (f : FieldDie) : FieldDie :=
  if ptpCfgBad f n data then timeEvt 10 n f else refreshPtp (storeWrite req (F_TIM_PTP_CFG n) data f)

/-! ### Peer delay (R554) -/

/-- Whether port `p` is asCapable: its delay has been measured and lies within the threshold, and few enough responses
have been lost. -/
def asCapable (f : FieldDie) (p : Nat) : Bool :=
  f.flag (F_TIM_PORT_PDLY_pdelay_en p) && hasBit f.tim.pdMeasured p &&
  decide (f.rdN (F_TIM_PORT_MLD p) ≤ f.rdN (F_TIM_PORT_THRESH p) * 256) &&
  decide (f.get (F_TIM_PORT_STAT_lost p) ≤ f.get (F_TIM_PORT_PDLY_allowed_lost p))

/-- Bring as_capable of port `p` up to date, and the roles with it. -/
def refreshCapable (p : Nat) (f : FieldDie) : FieldDie :=
  let v := if asCapable f p then 1 else 0
  if f.get (F_TIM_PORT_STAT_as_capable p) = v then f else refreshPtp (f.put (F_TIM_PORT_STAT_as_capable p) v)

/-- A write of F_TIM_PORT_n_PDLY or F_TIM_PORT_n_THRESH. -/
def writePdly (req p addr data : Nat) (f : FieldDie) : FieldDie := refreshPtp (refreshCapable p (storeWrite req addr data f))

/-- A Pdelay_Req of port `p`. -/
def pdelayReq (f : FieldDie) (p seq : Nat) : List Byte :=
  ptpHeader f 2 54 0 0x0008 0 p seq (toSigned 8 (f.get (F_TIM_PORT_PDLY_log_pdelay p))) ++ List.replicate 20 0

/-- PDELAY_EXCHANGE (R554, R558): the request goes out on queue 7, and the response gives the link delay and rate
ratio, or is lost. -/
def pdelayExchange (p : Nat) (answered : Bool) (mld nrr : Nat) (f : FieldDie) : FieldDie :=
  if f.flag (F_TIM_PORT_PDLY_pdelay_en p) = false ∨ ptpPort f p = false then f
  else
    let seq := f.tim.pdSeq.getD p 0
    let f := { f with tim := { f.tim with pdSeq := modAt f.tim.pdSeq p (fun s => (s + 1) % 65536) } }
    let f := engineSend p 7 none (pdelayReq f p seq) f
    let f := if answered then
        (({ f with tim := { f.tim with pdMeasured := setBit f.tim.pdMeasured p } }.wrN (F_TIM_PORT_MLD p) mld).wrN (F_TIM_PORT_NRR p) nrr).put
          (F_TIM_PORT_STAT_lost p) 0
      else f.put (F_TIM_PORT_STAT_lost p) (min 255 (f.get (F_TIM_PORT_STAT_lost p) + 1))
    refreshCapable p f

def execPdelayExchange (port : Nat) (answered : Bool) (mld nrr : Nat) (s : State) : Host.Outcome State Fault Refusal :=
  s.onItem port 12 (pdelayExchange port answered mld nrr)

/-- A Pdelay_Req received at `ts`: answered on queue 7, two-step. -/
def pdelayAnswer (p : Nat) (m : List Byte) (ts : Nat) (f : FieldDie) : FieldDie :=
  if f.flag (F_TIM_PORT_PDLY_pdelay_en p) then
    engineSend p 7 (some (0, 2)) (ptpHeader f 3 54 0 0x0208 (ptpCorr m) p (ptpSeq m) 127 ++ timeBytes ts ++ (m.drop 20).take 10) f
  else f

/-! ### Messages received (R552, R372) -/

/-- The enabled instance of a domainNumber. -/
def instOf (f : FieldDie) (d : Nat) : Option Nat := [0, 1].find? (fun n => ptpOn f n && f.get (F_TIM_PTP_CFG_domain_number n) == d)

/-- The reading of domain `d` at an instant. -/
def Stamp.dom (x : Stamp) (d : Nat) : Nat := if d = 0 then x.a else x.b

/-- The instant of a message received at port `p` with ingress timestamp `ts`: that which the consumed frame kept (R538).
One that no such frame has is taken as so long before the present fine tick as system time says. -/
def heardInstant (f : FieldDie) (p ts : Nat) : Stamp :=
  match f.tim.heardAt.find? (fun e => e.1 == p && e.2.1 == ts) with
  | some e => e.2.2
  | none => f.stampAt ((ts : Int) - (f.sysNs : Int))

/-- A Sync received on the slave port of instance `n`. -/
def syncMsg (n p : Nat) (m : List Byte) (ts : Nat) (f : FieldDie) : FieldDie :=
  if slavePort f n ≠ some p then f
  else
    let x := heardInstant f p ts
    let t : SyncTime := { origin := ptpTime m, domTs := x.dom (f.get (F_TIM_PTP_CFG_steer n)), localTs := x.c, corr := ptpCorr m, tlv := (m.drop 44).take 32 }
    if ptpTwoStep m then f.setPtpX n (fun x => { x with pendingSync := some (p, ptpSeq m, t) })
    else f.setPtpX n (fun x => { x with sync := some t, syncNew := true, pendingSync := none })

/-- A Follow_Up that completes the pending Sync of instance `n`. -/
def followUpMsg (n p : Nat) (m : List Byte) (f : FieldDie) : FieldDie :=
  match (f.ptpX n).pendingSync with
  | some (q, seq, t) =>
    if q = p ∧ seq = ptpSeq m then
      let t := { t with origin := ptpTime m, corr := t.corr + ptpCorr m, tlv := (m.drop 44).take 32 }
      f.setPtpX n (fun x => { x with sync := some t, syncNew := true, pendingSync := none })
    else f
  | none => f

/-- The clock identities of an Announce's path trace. -/
def pathTrace (m : List Byte) : List Nat :=
  if beAt m 64 2 = 8 then (List.range (beAt m 66 2 / 8)).map (fun i => beAt m (68 + 8 * i) 8) else []

/-- An Announce received by instance `n`: kept when it qualifies, and the roles follow. -/
def announceMsg (n p : Nat) (m : List Byte) (f : FieldDie) : FieldDie :=
  let own := ownClock f
  if beAt m 20 8 = own ∨ 255 ≤ beAt m 61 2 ∨ own ∈ pathTrace m ∨ (f.flag (F_TIM_PTP_CFG_bmca n) ∧ f.flag (F_TIM_PORT_STAT_as_capable p) = false) then f
  else refreshRoles n (f.setPtpX n (fun x => { x with
    heard := x.heard.filter (fun h => h.1 != p) ++ [(p, f.now, m)]
    carried := x.carried.filter (fun c => c.2 != p) }))

/-- A gPTP message received at port `p` (R552, R560, R372). -/
def ptpReceive (p : Nat) (m : List Byte) (ts : Nat) (f : FieldDie) : FieldDie :=
  let ty := ptpType m
  if p < 12 ∧ f.flag (F_TIM_PORT_PDLY_ptp_en p) = false then f
  else if ty = 2 then (if p < 12 then pdelayAnswer p m ts f else f)
  else if ty = 3 ∨ ty = 10 then f
  else match instOf f (ptpDomain m) with
    | none => f.count (cPort p 17)
    | some n =>
      let f := if ty = 0 then f.count (cPort p 29) else if ty = 12 then f.count (cPort p 31) else f
      if 12 ≤ p ∨ f.standbyPath then f
      else if ty = 0 then syncMsg n p m ts f
      else if ty = 8 then followUpMsg n p m f
      else if ty = 11 then announceMsg n p m f
      else f

/-- PTP_MESSAGE_RECEIVE (R552): see `ptpReceive`. -/
def execPtpMessageReceive (port : Nat) (bytes : List Byte) (ts : Nat) (s : State) : Host.Outcome State Fault Refusal :=
  s.onItem port 16 (ptpReceive port bytes ts)

/-! ### The servo (R561 to R564) -/

/-- Word `w` of servo curve entry `i` of instance `n`. -/
def servoWord (f : FieldDie) (n i w : Nat) : Nat := f.rdN (0x590000 + 8 * (16 * n + i) + 4 * w)

/-- The gains kp and ki that the curve of instance `n` gives for an offset. -/
def servoEntry (f : FieldDie) (n : Nat) (e : Int) : Option (Nat × Nat) :=
  ((List.range 16).find? (fun i => hasBit (servoWord f n i 0) 31 && decide (e.natAbs ≤ bitsOf (servoWord f n i 0) 23 0))).map
    (fun i => (bitsOf (servoWord f n i 1) 31 16, bitsOf (servoWord f n i 1) 15 0))

/-- A quotient rounded to the nearest integer. -/
def roundDiv (x : Int) (d : Nat) : Int := (2 * x + (d : Int)) / (2 * (d : Int))

/-- y limited to ±500,000 ppb, units of 2^-8 ppb. -/
def limitY (y : Int) : Int := if 128000000 < y then 128000000 else if y < -128000000 then -128000000 else y

/-- Apply y to the steered domain (R563). -/
def applyY (d : Nat) (y : Int) (f : FieldDie) : FieldDie :=
  if d = 0 then setInc (8 * 2 ^ 32 + roundDiv (y * (8 * 2 ^ 32)) 256000000000).toNat f
  else setRate (ofSigned 32 (roundDiv (y * 2 ^ 40) 256000000000)) f

/-- The lock counts of an offset (R564). -/
def servoLock (n : Nat) (e : Int) (f : FieldDie) : FieldDie :=
  let lim := max 1 (f.get (F_TIM_PTP_LOCK_lock_n n))
  let near := decide (e.natAbs ≤ f.get (F_TIM_PTP_LOCK_lock_ns n))
  let f := f.setPtpX n (fun x => { x with good := if near then x.good + 1 else 0, badRun := if near then 0 else x.badRun + 1 })
  if ptpState f n = 2 ∧ lim ≤ (f.ptpX n).good then setPtpState n 3 f
  else if ptpState f n = 3 ∧ lim ≤ (f.ptpX n).badRun then setPtpState n 2 f
  else f

/-- The servo of instance `n` takes offset `e` and steers domain `d` (R562, R563). -/
def servo (n d : Nat) (e : Int) (f : FieldDie) : FieldDie :=
  match servoEntry f n e with
  | none => askStep d (-e) (setPtpState n 2 (f.bump (F_TIM_PTP_STAT_steps n) 1))
  | some (kp, ki) =>
    let i := (f.ptpX n).integral + (ki : Int) * e
    let y := limitY (-((kp : Int) * e + i))
    let f := (f.setPtpX n (fun x => { x with integral := i })).wrN (F_TIM_PTP_FREQ n) (ofSigned 32 y)
    applyY d y f

/-- A signed number of ns in a 32-bit register; one outside its range is a value the spec leaves open. -/
def nsWord (e : Int) (f : FieldDie) : Nat × FieldDie :=
  if -(2 ^ 31) ≤ e ∧ e < 2 ^ 31 then (ofSigned 32 e, f) else (f.free.1 % 2 ^ 32, f.free.2)

/-- The offset of R561 in ns, from sums in units of 2^-16 ns. -/
def syncOffset (f : FieldDie) (p : Nat) (t : SyncTime) : Int :=
  (((t.domTs : Int) - (t.origin : Int) - toSigned 32 (f.rdN (F_TIM_PORT_ASYM p))) * 65536 - t.corr - (f.rdN (F_TIM_PORT_MLD p) : Int) * 256) / 65536

/-- SYNC_RECEIVE (R561): the time received on the slave port gives an offset. -/
def syncReceive (n p : Nat) (f : FieldDie) : FieldDie :=
  match (f.ptpX n).sync with
  | some t =>
    if ptpOn f n = false ∨ f.standbyPath ∨ slavePort f n ≠ some p ∨ (f.ptpX n).syncNew = false then f
    else
      let e := syncOffset f p t
      let (w, f) := nsWord e f
      let f := f.wrN (F_TIM_PTP_OFFS n) w
      let f := if (f.ptpX n).afterWake then f.wrN F_TIM_DARK_ERR w else f
      let f := f.setPtpX n (fun x => { x with syncNew := false, afterWake := false, lastSync := f.now })
      let f := if ptpState f n = 3 then f else setPtpState n 2 f
      refreshGm n (servoLock n e (servo n (f.get (F_TIM_PTP_CFG_steer n)) e f))
  | none => f

def execSyncReceive (n port : Nat) (s : State) : Host.Outcome State Fault Refusal := s.onItem n 2 (syncReceive n port)

/-! ### Loss of Sync (R549, R556, R564) -/

/-- An interval of 2^`l` seconds, in fine ticks. -/
def intervalTicks (l : Int) : Nat := pow2Sec l / 8

/-- With auto_sw, the loss of the active domain's instance switches to the other domain if its instance is LOCKED. -/
def autoSwitch (n : Nat) (f : FieldDie) : FieldDie :=
  let o := 1 - n
  if f.flag F_TIM_SYS_auto_sw ∧ f.get (F_TIM_PTP_CFG_steer n) = f.activeDom ∧ ptpOn f o ∧ ptpState f o = 3 then
    switchTo (f.get (F_TIM_PTP_CFG_steer o)) f
  else f

/-- SYNC_TIMEOUT (R556): no Sync for sync_to intervals; an instance without a slave port is FREE (R565). -/
def syncTimeout (n : Nat) (f : FieldDie) : FieldDie :=
  if ptpOn f n = false ∨ f.standbyPath then f
  else match slavePort f n with
    | none => refreshGm n (setPtpState n 1 f)
    | some _ =>
      let wait := f.get (F_TIM_PTP_TO_sync_to n) * intervalTicks (toSigned 4 (f.get (F_TIM_PTP_CFG_log_sync n)))
      if ptpState f n = 4 ∨ f.now < (f.ptpX n).lastSync + wait then f
      else refreshGm n (autoSwitch n (setPtpState n 4 f))

def execSyncTimeout (n : Nat) (s : State) : Host.Outcome State Fault Refusal := s.onItem n 2 (syncTimeout n)

/-- ANNOUNCE_TIMEOUT (R555): Announces older than announce_to intervals are forgotten, and the roles are worked out. -/
def announceTimeout (n : Nat) (f : FieldDie) : FieldDie :=
  if ptpOn f n = false ∨ f.standbyPath then f
  else
    let wait := f.get (F_TIM_PTP_TO_announce_to n) * intervalTicks (toSigned 4 (f.get (F_TIM_PTP_CFG_log_announce n)))
    refreshRoles n (f.setPtpX n (fun x => { x with
      heard := x.heard.filter (fun h => decide (f.now < h.2.1 + wait))
      carried := x.carried.filter (fun c => decide (f.now < c.1 + wait)) }))

def execAnnounceTimeout (n : Nat) (s : State) : Host.Outcome State Fault Refusal := s.onItem n 2 (announceTimeout n)

/-! ### Sending Sync and Announce (R553, R556 to R558, R370, R371) -/

/-- The ports on which instance `n` sends: its master ports, and the segments whose time it carries. -/
def sendPorts (f : FieldDie) (n : Nat) : List Nat :=
  (List.range 16).filter (fun p =>
    if p < 12 then ptpPort f p && f.get (if n = 0 then F_TIM_PORT_STAT_role0 p else F_TIM_PORT_STAT_role1 p) == 1
    else linkUp f p && f.get (F_MDS_STAT_standby_silent (p - 12)) == 0 && bitOf (f.get F_TIM_SEG_inst) (p - 12) == n)

/-- Whether a port sends one-step (R557). -/
def oneStep (f : FieldDie) (p : Nat) : Bool := decide (p < 4) && f.flag (F_TIM_PORT_PDLY_one_step p)

/-- A Sync of instance `n` for port `p`: a one-step Sync takes its time as it leaves. -/
def syncBytes (f : FieldDie) (n p seq : Nat) : List Byte :=
  let dom := f.get (F_TIM_PTP_CFG_domain_number n)
  let logi := toSigned 4 (f.get (F_TIM_PTP_CFG_log_sync n))
  if oneStep f p then ptpHeader f 0 76 dom 0x0008 0 p seq logi ++ List.replicate 10 0 ++ ownTlv
  else ptpHeader f 0 44 dom 0x0208 0 p seq logi ++ List.replicate 10 0

/-- SYNC_SEND (R556): Sync goes out on the master ports, from the steered domain as grandmaster or relaying the slave
port's time. -/
def syncSend (n : Nat) (f : FieldDie) : FieldDie :=
  if ptpOn f n = false ∨ f.standbyPath ∨ (actsAsGm f n = false ∧ (ptpState f n = 4 ∨ (f.ptpX n).sync = none)) then f
  else
    let seq := (f.ptpX n).seqSync
    let q := f.get (F_TIM_PTP_CFG_queue n)
    let f := forAll (sendPorts f n) (fun p f => engineSend p q (some (n, if oneStep f p then 1 else 0)) (syncBytes f n p seq) f) f
    f.setPtpX n (fun x => { x with seqSync := (seq + 1) % 65536 })

def execSyncSend (n : Nat) (s : State) : Host.Outcome State Fault Refusal := s.onItem n 2 (syncSend n)

/-- The rest of an Announce after its header, as grandmaster; currentUtcOffset and timeSource are values that the spec
leaves open. -/
def ownAnnounce (n : Nat) (f : FieldDie) : List Byte × FieldDie :=
  let (u, f) := f.free
  let (t, f) := f.free
  let r := ownRoot f n
  (List.replicate 10 0 ++ bytesBE 2 u ++ bytesBE 1 0 ++ bytesBE 1 (r.getD 0 0) ++ bytesBE 1 (r.getD 1 0) ++ bytesBE 1 (r.getD 2 0) ++
    bytesBE 2 (r.getD 3 0) ++ bytesBE 1 (r.getD 4 0) ++ bytesBE 8 (ownClock f) ++ bytesBE 2 0 ++ bytesBE 1 t, f)

/-- The rest of a relayed Announce: one step further from the grandmaster. -/
def relayAnnounce (m : List Byte) : List Byte := (m.drop 34).take 27 ++ bytesBE 2 (beAt m 61 2 + 1) ++ (m.drop 63).take 1

/-- ANNOUNCE_SEND (R555): Announce goes out on the master ports. -/
def announceSend (n : Nat) (f : FieldDie) : FieldDie :=
  let heard := (slavePort f n).bind (heardOn f n)
  if ptpOn f n = false ∨ f.standbyPath ∨ (actsAsGm f n = false ∧ heard = none) then f
  else
    let (rest, path, f) := match (if actsAsGm f n then none else heard) with
      | some m => (relayAnnounce m, pathTrace m ++ [ownClock f], f)
      | none => ((ownAnnounce n f).1, [ownClock f], (ownAnnounce n f).2)
    let tlv := bytesBE 2 8 ++ bytesBE 2 (8 * path.length) ++ path.flatMap (bytesBE 8)
    let seq := (f.ptpX n).seqAnnounce
    let dom := f.get (F_TIM_PTP_CFG_domain_number n)
    let logi := toSigned 4 (f.get (F_TIM_PTP_CFG_log_announce n))
    let q := f.get (F_TIM_PTP_CFG_queue n)
    let msg := fun (p : Nat) => ptpHeader f 11 (68 + 8 * path.length) dom 0x0008 0 p seq logi ++ rest ++ tlv
    let f := forAll (sendPorts f n) (fun p f => engineSend p q none (msg p) f) f
    f.setPtpX n (fun x => { x with seqAnnounce := (seq + 1) % 65536 })

def execAnnounceSend (n : Nat) (s : State) : Host.Outcome State Fault Refusal := s.onItem n 2 (announceSend n)

/-! ### What a transmission completes (R553, R557, R371) -/

/-- Origin, correction and TLV of time sent by instance `n` in a Sync that left at instant `x` (R553, R556). The residence
time is measured on the local clock. -/
def sentTime (f : FieldDie) (n : Nat) (x : Stamp) : Nat × Int × List Byte :=
  match (if actsAsGm f n then none else (f.ptpX n).sync), slavePort f n with
  | some t, some p =>
    let nrr := toSigned 32 (f.rdN (F_TIM_PORT_NRR p))
    let ratio : Int := 2 ^ 41 + toSigned 32 (beAt t.tlv 10 4) + 2 * nrr
    let res : Int := (x.c - t.localTs) * 65536 * ratio / 2 ^ 41
    let corr := t.corr + res + (f.rdN (F_TIM_PORT_MLD p) : Int) * 256 + toSigned 32 (f.rdN (F_TIM_PORT_ASYM p)) * 65536
    (t.origin, corr, t.tlv.take 10 ++ bytesBE 4 (ofSigned 32 (ratio - 2 ^ 41)) ++ t.tlv.drop 14)
  | _, _ => (x.dom (f.get (F_TIM_PTP_CFG_steer n)), 0, ownTlv)

/-- Insert time into a one-step Sync, and recompute its FCS (R557). -/
def oneStepBytes (bs : List Byte) (x : Nat × Int × List Byte) : List Byte :=
  let b := bs.take 22 ++ bytesBE 8 (ofSigned 64 x.2.1) ++ (bs.drop 30).take 18 ++ timeBytes x.1 ++ x.2.2
  b ++ bytesLE (fcs32 b)

/-- A one-step Sync about to end at port `n` carries its own egress time. -/
def beforeEnd (n phase : Nat) (f : FieldDie) : FieldDie :=
  match (f.portX n).sending with
  | some c => match (f.frameOf c.frame).ptp with
    | some (i, 1) =>
      let x := sentTime f i (egressAt f c phase)
      f.setFrame c.frame (fun fr => { fr with bytes := oneStepBytes fr.bytes x })
    | _ => f
  | none => f

/-- A two-step Sync or a Pdelay_Resp has left port `n` at system time `ts`, instant `at_`: its Follow_Up is queued. -/
def afterEnd (n ts : Nat) (at_ : Stamp) (fr : Frame) (f : FieldDie) : FieldDie :=
  let m := engineMsg fr
  match fr.ptp with
  | some (i, 0) =>
    let x := sentTime f i at_
    let seg : Int := if 12 ≤ n then (f.rdN (F_MDS_DELAY (n - 12)) : Int) * 65536 else 0
    let msg := ptpHeader f 8 76 (ptpDomain m) 0x0008 (x.2.1 + seg) n (ptpSeq m) (toSigned 8 (byteAt m 33)) ++ timeBytes x.1 ++ x.2.2
    engineSend n (f.get (F_TIM_PTP_CFG_queue i)) none msg (f.count (cPort n 30))
  | some (_, 1) => f.count (cPort n 30)
  | some (_, 2) =>
    engineSend n 7 none (ptpHeader f 10 54 0 0x0008 0 n (ptpSeq m) 127 ++ timeBytes ts ++ (m.drop 44).take 10) f
  | _ => f

/-- TRANSMIT_END (R462): see `portTransmitEnd`, with what the engine's own frames complete. -/
def execTransmitEnd (port phase : Nat) (s : State) : Host.Outcome State Fault Refusal :=
  s.onItem port 17 (fun f =>
    match (f.portX port).sending with
    | some c =>
      let fr := f.frameOf c.frame
      let g := portTransmitEnd port phase (beforeEnd port phase f)
      if (g.portX port).sending ≠ some c ∧ c.stomped = false then afterEnd port (egressTs f c phase) (egressAt f c phase) fr g else g
    | none => f)

end Sys2Proof.Machine
end

