-- ==== Sys2Proof/Machine/Twin.lean ====
section
/-! DEFINITION. The twin pair (chapter 15): formation, the state record, take-over, handover and the hold-off. -/

namespace Sys2Proof.Machine

/-! ### Units -/

/-- The three words of a time in ns. -/
def timeWords (t : Nat) : List Nat := [nsOf t, secOf t % 2 ^ 32, secOf t / 2 ^ 32 % 65536]

/-- The time in ns that three words hold. -/
def wordsTime (u : FlowUnit) (k : Nat) : Nat := timeOf (u.w k) (u.w (k + 1)) (u.w (k + 2))

/-- The oldest ROLE unit that waits, when it is of the given kind, and the die without it. -/
def takeRole (kind : Nat) (f : FieldDie) : Option (FlowUnit × FieldDie) :=
  match f.twin.inbox.find? (fun u => u.type == 10) with
  | some u =>
    if bitsOf u.header 27 24 = kind then some (u, { f with twin := { f.twin with inbox := f.twin.inbox.erase u } }) else none
  | none => none

/-- Act on the oldest waiting ROLE unit, when it is of the given kind. -/
def onRole (kind : Nat) (g : FlowUnit → FieldDie → FieldDie) (f : FieldDie) : FieldDie :=
  match takeRole kind f with
  | some (u, f) => g u f
  | none => f

/-- The `k`-th own network-cycle boundary after now. -/
def boundaryAfter (f : FieldDie) (k : Nat) : Nat := networkBoundary f + k * networkCycle f

/-! ### Evidence and decisions (R655, R661, Table 15.6) -/

/-- P: TWIN_FAULT_IN is asserted. -/
def evP (f : FieldDie) : Bool := f.flag F_TWN_STAT_pin_in

/-- The first own boundary at least 2 µs after now (R657). -/
def takeoverBoundary (f : FieldDie) : Nat :=
  let d := f.sysNs + 2000 - networkBoundary f
  boundaryAfter f (max 1 ((d + networkCycle f - 1) / networkCycle f))

/-- Raise link_down when the twin link is down. -/
def reportDown (f : FieldDie) : FieldDie := if f.twin.phase = 3 then f else f.raise F_TWN_EVT 6

/-- Table 15.6. `byRecord`: the change comes from a lost record, whose rec_lost has been raised already. -/
def decideRole (byRecord : Bool) (f : FieldDie) : FieldDie :=
  if f.role = 3 then
    if evP f && f.twn.evL then { f with twn := { f.twn with boundaryB := some (takeoverBoundary f), toActive := true, cause := 3 } }
    else
      let f := if f.twn.cause = 3 then { f with twn := { f.twn with boundaryB := none } } else f
      if evP f then f.raise F_TWN_EVT 5
      else if f.twn.evL then reportDown (if byRecord then f else f.raise F_TWN_EVT 4)
      else f
  else if f.role = 2 then
    if evP f then f.raise F_TWN_EVT 7 else if f.twn.evL then reportDown f else f
  else f

/-- P or L has changed: a granted handover is cancelled, and the decision is taken again. -/
def evidenceChanged (byRecord : Bool) (f : FieldDie) : FieldDie :=
  let f := if f.twn.boundaryB.isSome ∧ (f.twn.cause = 1 ∨ f.twn.cause = 2) then cancelHandover f else f
  decideRole byRecord f

/-- Set evidence L. -/
def setEvL (l byRecord : Bool) (f : FieldDie) : FieldDie :=
  if f.twn.evL = l then f else evidenceChanged byRecord { f with twn := { f.twn with evL := l } }

/-- TWIN_FAULT_IN has had a level for `ns` (R633, Table 2.15): 400 ns are recognised, up to 200 ns are ignored, and
what lies between is open. The pin works in every power state (R62); the register follows it while the register file is
out of reset, and shows it from the release on. -/
def twinFaultIn (asserted : Bool) (ns : Nat) (f : FieldDie) : FieldDie :=
  let (seen, f) := if 400 ≤ ns then (true, f) else if ns ≤ 200 then (false, f) else (hasBit f.free.1 0, f.free.2)
  if seen = false then f
  else
    let f := { f with pin := { f.pin with twinIn := asserted } }
    if (f.powered || f.phase == .released) = false ∨ evP f = asserted then f
    else evidenceChanged false (f.put F_TWN_STAT_pin_in (if asserted then 1 else 0))

/-- TWIN_FAULT_IN_CHANGE (R633): see `twinFaultIn`. -/
def execTwinFaultInChange (asserted : Bool) (ns : Nat) (s : State) : Host.Outcome State Fault Refusal :=
  s.onField (fun f => if f.pwr.vddSl then twinFaultIn asserted ns f else f)

/-! ### Formation (R640 to R642, R663) -/

/-- The first check of Table 15.4 that fails, 0 none. -/
def formCheck (f : FieldDie) (u : FlowUnit) : Nat :=
  if bitsOf (u.w 0) 31 24 ≠ f.get F_GLB_ID_order then 1
  else if u.w 1 ≠ f.rdN F_GLB_BASE_MAC_LO ∨ u.w 2 ≠ f.rdN F_GLB_BASE_MAC_HI ∨
      (List.range 8).any (fun i => u.w (3 + i) != f.rdN (F_KEY_NAME i)) then 2
  else if bitOf (u.w 0) 16 = f.get F_TWN_STAT_designation then 3
  else if proofWord f = 0 ∨ u.w 11 = 0 ∨ u.w 11 ≠ proofWord f then 4
  else if bitOf (u.w 0) 0 = 0 then 5
  else 0

/-- The part that will be active sends GRANT for its second boundary. -/
def grantAt (active : Bool) (cause : Nat) (f : FieldDie) : FieldDie :=
  let b := boundaryAfter f 2
  postTwin (roleUnit 5 (timeWords b)) { f with twn := { f.twn with boundaryB := some b, toActive := active, cause := cause } }

/-- HELLO (R640, R641, R663). -/
def helloReceived (u : FlowUnit) (f : FieldDie) : FieldDie :=
  let f := f.put F_TWN_STAT_peer_seen 1
  let peer := bitsOf (u.w 0) 15 8
  if f.role = 2 ∧ peer = 2 then
    if f.flag F_TWN_STAT_designation then { f with twn := { f.twn with confAt := true } }.raise F_TWN_EVT 10
    else { f with twn := { f.twn with resync := true } }
  else if f.role = 1 ∨ (f.role = 2 ∧ peer = 1) then
    let c := formCheck f u
    let f := f.put F_TWN_STAT_form_code c
    if c ≠ 0 then f.raise F_TWN_EVT 1
    else if f.role = 2 ∨ (peer ≠ 2 ∧ f.flag F_TWN_STAT_designation = false) then grantAt true 0 f
    else f
  else f

def execHello (s : State) : Host.Outcome State Fault Refusal := s.onRun (onRole 1 helloReceived)

/-- GRANT (R641, R659): boundary B is named, at formation or for this part's own request. -/
def grantReceived (u : FlowUnit) (f : FieldDie) : FieldDie :=
  let b := wordsTime u 0
  if f.role = 1 ∧ f.flag F_TWN_STAT_peer_seen ∧ f.get F_TWN_STAT_form_code = 0 then
    { f with twn := { f.twn with boundaryB := some b, toActive := false, cause := 0 } }
  else if f.role = 3 ∧ f.twn.reqSent ∧ f.twn.boundaryB = none then { f with twn := { f.twn with boundaryB := some b, toActive := true } }
  else f

def execGrant (s : State) : Host.Outcome State Fault Refusal := s.onRun (onRole 5 grantReceived)

/-! ### STATUS and requests (Table 15.2, R656, R659, R664, R666) -/

/-- Whether the part belongs to a formed pair. -/
def inPair (f : FieldDie) : Bool := f.role == 2 || f.role == 3 || f.role == 4

/-- A STATUS. -/
def statusUnit (f : FieldDie) : FlowUnit :=
  roleUnit 2 [f.role * 256 + f.get F_TWN_CTRL_want * 16 + f.get F_TWN_STAT_synced * 2 + (if f.takeoverFault then 1 else 0)]

/-- STATUS_SEND (R655): a STATUS that cannot be sent now is not sent later. -/
def statusSend (f : FieldDie) : FieldDie := if inPair f && f.twin.canSend then f.sendTwin (statusUnit f) else f

def execStatusSend (s : State) : Host.Outcome State Fault Refusal := s.onRun statusSend

/-- Fine ticks in a second. -/
def secTicks : Nat := 125000000

/-- Whether the hold-off permits a reversion request: synchronised for the current hold-off, or a partner that wants to
be standby (R659, R666). -/
def holdoffOver (f : FieldDie) : Bool :=
  f.get F_TWN_PEER_want == 2 ||
  (match f.twn.syncedAt with
   | some t => decide (t + f.get F_TWN_HOLD_cur_s * secTicks ≤ f.now)
   | none => false)

/-- The cause for which this part wants to become active now: 1 reversion, 2 want, 0 none (R659). -/
def wantsActive (f : FieldDie) : Nat :=
  if f.role ≠ 3 ∨ f.flag F_TWN_STAT_synced = false ∨ f.rdN F_FLT_EVT % 65536 ≠ 0 then 0
  else if f.get F_TWN_CTRL_want = 1 then 2
  else if f.flag F_TWN_STAT_designation = false ∧ f.flag F_TWN_CTRL_rev_en ∧ f.get F_TWN_PEER_want ≠ 1 ∧ holdoffOver f then 1
  else 0

/-- Send REQ once when the part wants to become active. -/
def tryReq (f : FieldDie) : FieldDie :=
  let c := wantsActive f
  if c = 0 then (if f.twn.boundaryB = none then { f with twn := { f.twn with reqSent := false } } else f)
  else if f.twn.reqSent ∨ f.twn.boundaryB.isSome ∨ f.twin.phase ≠ 3 then f
  else postTwin (roleUnit 4 [c]) { f with twn := { f.twn with reqSent := true, cause := c } }

/-- HOLDOFF_ELAPSED (R659): see `tryReq`. -/
def execHoldoffElapsed (s : State) : Host.Outcome State Fault Refusal := s.onRun tryReq

/-- STATUS (R656): F_TWN_PEER is updated; an ACTIVE part has its evidence that the partner is there, and a partner back
from FAILED gets a full copy (R658). -/
def statusReceived (u : FlowUnit) (f : FieldDie) : FieldDie :=
  let w := u.w 0
  let back := f.role == 2 && f.get F_TWN_PEER_role == 4 && bitsOf w 15 8 == 3
  let freed := f.get F_TWN_PEER_want == 1 && bitsOf w 5 4 != 1
  let f := (((f.put F_TWN_PEER_role (bitsOf w 15 8)).put F_TWN_PEER_want (bitsOf w 5 4)).put F_TWN_PEER_synced (bitOf w 1)).put F_TWN_PEER_fault (bitOf w 0)
  let f := { f with twn := { f.twn with
    statusAt := some f.now
    resync := f.twn.resync || back
    reqSent := f.twn.reqSent && !(freed && f.twn.boundaryB.isNone) } }
  tryReq (if f.role = 2 then setEvL false false f else f)

def execStatus (s : State) : Host.Outcome State Fault Refusal := s.onRun (onRole 2 statusReceived)

/-- STATUS_ABSENCE (R655): an ACTIVE part has received no STATUS for 3 ms. -/
def statusAbsence (f : FieldDie) : FieldDie :=
  let gone : Bool := match f.twn.statusAt with
    | some t => decide (t + 3 * msTicks ≤ f.now)
    | none => true
  if f.role = 2 ∧ gone then setEvL true false f else f

def execStatusAbsence (s : State) : Host.Outcome State Fault Refusal := s.onRun statusAbsence

/-- RELINQUISH (R656): evidence L at once. -/
def execRelinquish (s : State) : Host.Outcome State Fault Refusal :=
  s.onRun (onRole 3 (fun _ f => if f.role = 3 then setEvL true false f else f))

/-- REQ (R659): granted, or refused while this part's own want is 1. -/
def reqReceived (u : FlowUnit) (f : FieldDie) : FieldDie :=
  if f.role ≠ 2 then f
  else if f.get F_TWN_CTRL_want = 1 then f.raise F_TWN_EVT 15
  else grantAt false (u.w 0) f

def execReq (s : State) : Host.Outcome State Fault Refusal := s.onRun (onRole 4 reqReceived)

/-- enable is now 0: a standby or failed part goes to ALONE at its next boundary, any other at once (R639, R664). -/
def twinOff (f : FieldDie) : FieldDie :=
  if f.role = 3 ∨ f.role = 4 then { f with twn := { f.twn with aloneAtB := true } } else setRole 0 f

/-- Twin training starts on a link that still waits (R610, R634). -/
def twinStart (f : FieldDie) : FieldDie := if f.twin.phase = 0 then f.onTwin startTraining else f

/-- enable is now 1 (R639). -/
def twinOn (f : FieldDie) : FieldDie :=
  let f := twinStart f
  if f.role = 0 then setRole 1 { f with twn := { f.twn with aloneAtB := false } }
  else { f with twn := { f.twn with aloneAtB := false } }

/-- Whether a write of enable 0 is refused (R664). -/
def enableKept (f : FieldDie) (data : Nat) : Bool :=
  f.flag F_TWN_CTRL_enable && !hasBit data 31 && f.role == 2 && f.get F_TWN_PEER_role == 3

/-- enable of F_TWN_CTRL has changed from `was`, by a write or by a changed vote (R877). -/
def enableChanged (was : Bool) (f : FieldDie) : FieldDie :=
  if f.flag F_TWN_CTRL_enable then (if was then f else twinOn f) else (if was then twinOff f else f)

/-- A write of F_TWN_CTRL (R639, R664): a refused enable 0 leaves enable at 1. -/
def writeTwnCtrl (req data : Nat) (f : FieldDie) : FieldDie :=
  let g := if enableKept f data then (storeWrite req F_TWN_CTRL (setBit data 31) f).raise F_TWN_EVT 15
    else enableChanged (f.flag F_TWN_CTRL_enable) (storeWrite req F_TWN_CTRL data f)
  tryReq (if hasBit data 8 then g.onTwin startTraining else g)

/-- TWIN_ENABLE_WRITE (R664): see `writeTwnCtrl`. -/
def execTwinEnableWrite (req : Nat) (data : Word) (s : State) : Host.Outcome State Fault Refusal :=
  s.onWrite req (writeTwnCtrl req data.toNat)

/-! ### The hold-off (R662) -/

/-- Reversions completed within the last 600 s. -/
def recentReversions (f : FieldDie) : List Nat := f.twn.reversions.filter (fun t => decide (f.now < t + 600 * secTicks))

/-- A reversion to the designated primary has completed. -/
def reversionDone (f : FieldDie) : FieldDie :=
  let rs := recentReversions f ++ [f.now]
  let f := { f with twn := { f.twn with reversions := rs } }.bump F_TWN_REVCNT_reversions 1
  if 3 ≤ rs.length then
    (f.put F_TWN_HOLD_cur_s (min (2 * f.get F_TWN_HOLD_cur_s) (f.get F_TWN_REVERT_cap_s))).raise F_TWN_EVT 12
  else f

/-- HOLDOFF_RESET (R662): 600 s with no reversion. -/
def holdoffReset (f : FieldDie) : FieldDie :=
  if recentReversions f = [] then
    { f with twn := { f.twn with reversions := [] } }.put F_TWN_HOLD_cur_s (f.get F_TWN_REVERT_holdoff_s)
  else f

def execHoldoffReset (s : State) : Host.Outcome State Fault Refusal := s.onRun holdoffReset

/-- F_TWN_HOLD.left_s: seconds before REQ may be sent, rounded up. -/
def holdLeft (f : FieldDie) : Nat :=
  match f.twn.syncedAt with
  | some t => (t + f.get F_TWN_HOLD_cur_s * secTicks - f.now + secTicks - 1) / secTicks
  | none => f.get F_TWN_HOLD_cur_s

/-! ### The state record: sending (R643 to R647, Table 15.5) -/

/-- rt in ns (R646). -/
def recordTime (f : FieldDie) : Nat := min (max 5 (f.get F_TWN_TIMING_rec_to) * 1000) (networkCycle f - 4000)

/-- U (R646). -/
def recordUnits (f : FieldDie) : Nat := (recordTime f - 2000) * 100 / 2112

/-- A unit of a record: section, index and payload words. -/
def recUnit (section_ idx : Nat) (words : List Nat) : FlowUnit :=
  { header := 0x90000000 + section_ * 2 ^ 24 + idx, payload := words.flatMap bytesLE }

/-- `xs` cut into pieces of `n`. -/
def chunksOf {α : Type} (n : Nat) : Nat → List α → List (List α)
  | 0, _ => []
  | k + 1, xs => if xs = [] then [] else xs.take n :: chunksOf n k (xs.drop n)

/-- The meters that are not full (R644). -/
def partMeters (f : FieldDie) : List Nat :=
  (validMeters f).filter (fun m => decide (bucketLevel f m 0 < bucketSize f m 0) || decide (bucketLevel f m 1 < bucketSize f m 1))

/-- A meter entry: two words. -/
def meterEntry (f : FieldDie) (m : Nat) : List Nat :=
  let v := m * 2 ^ 48 + bucketLevel f m 0 * 2 ^ 24 + bucketLevel f m 1
  [v % 2 ^ 32, v / 2 ^ 32]

/-- An FDB entry of a record: five words. -/
def fdbRecord (f : FieldDie) (c : Nat × Bool) : List Nat :=
  [(if c.2 then 2 ^ 31 else 0) + c.1, (f.fdb c.1).w0, (f.fdb c.1).w1, (f.fdb c.1).w2, (f.fdb c.1).w3]

/-- The servo unit of instance `n`. -/
def servoUnitWords (f : FieldDie) (n : Nat) : List Nat :=
  let off := ofSigned 64 (domDiff ((f.dom (f.get (F_TIM_PTP_CFG_steer n)) : Int) - (f.sysFix : Int)) / (2 ^ 32 : Int))
  [ptpState f n * 2 ^ 28 + f.get (F_TIM_PTP_STAT_slave_port n) * 65536, f.rdN (F_TIM_PTP_FREQ n), ofSigned 32 (f.ptpX n).integral,
   off % 2 ^ 32, off / 2 ^ 32, f.rdN (F_TIM_PTP_GM_HI n), f.rdN (F_TIM_PTP_GM_LO n)] ++
  (if n = 0 then [ofSigned 32 (deltaNs f), f.activeDom + 2 * f.get F_TIM_SYS_auto_sw] else [])

/-- The gate phase of port `n` at `tb`: two words. -/
def gateWords (f : FieldDie) (tb n : Nat) : List Nat :=
  [f.get (F_STR_GCL_OPER_oper_gen n) * 65536 + f.get (F_STR_GCL_CUR_entry n) * 256 + f.get (F_STR_GCL_OPER_active n), tb - (f.gateX n).cycleStart]

/-- The PLCA word of segment `k`. -/
def plcaWord (f : FieldDie) (k : Nat) : Nat :=
  f.get (F_MDS_STAT_plca_active k) * 2 ^ 31 + (f.segX k).toNode % 32 * 65536 + (f.segX k).beaconsSent % 65536

/-- The FDB entries that a record can carry: the rest of a resync copy first, then changes that no unit in flight
carries. -/
def fdbToSend (f : FieldDie) : List (Nat × Bool) × List (Nat × Bool) :=
  let copy := match f.twn.copyFrom with
    | some i => ((fdbValid f).filter (fun j => decide (i ≤ j) && !(f.fdb j).isStatic)).map (fun j => (j, true))
    | none => []
  (copy, f.twn.fdbq.drop ((f.twn.fdbSent.map (fun e => e.2)).sum))

/-- The sequence number of the unit that will be sent after `k` others. -/
def seqAhead (f : FieldDie) (k : Nat) : Nat := (List.range (f.twin.waiting.length + k)).foldl (fun s _ => seqNext s) f.twin.txNext

/-- The record for boundary `tb`, and the state after its start. -/
def startRecord (tb : Nat) (f : FieldDie) : FieldDie :=
  let no := (f.rdN F_TWN_REC + 1) % 2 ^ 32
  let begin_ := f.twn.resync
  let f := if begin_ then { f with twn := { f.twn with resync := false, copyFrom := some 0, fdbSent := [] } }.raise F_TWN_EVT 8 else f
  let u := recordUnits f
  let parts := partMeters f
  let ms := parts.take (7 * (u - 8))
  let mUnits := chunksOf 7 1024 ms
  let room := 2 * (u - 8 - mUnits.length)
  let (copy, changes) := fdbToSend f
  let cp := copy.take room
  let ch := changes.take (room - cp.length)
  let fUnits := chunksOf 2 4096 ((cp.map (fun c => (c, false))) ++ (ch.map (fun c => (c, true))))
  let synced := copy.length ≤ room
  let total := 8 + mUnits.length + fUnits.length
  let flags := (if ms.length = parts.length then 1 else 0) + (if synced then 2 else 0) + (if begin_ then 4 else 0)
  let hdr := [no, nsOf tb, secOf tb % 2 ^ 32, secOf tb / 2 ^ 32 % 65536 + flags * 65536, ms.length * 65536 + (cp.length + ch.length),
    (if f.flag F_CFG_PROOF_STAT_committed then f.rdN F_CFG_PROOF else 0), networkCycle f, f.get F_STR_CHG_STAT_last_gen, f.str.lastMask] ++
    timeWords f.str.lastCt ++ [nextExposure f, f.pwr.expCount]
  let gates := chunksOf 14 3 ((List.range 17).flatMap (gateWords f tb))
  let units := ([(0, hdr), (1, servoUnitWords f 0), (1, servoUnitWords f 1)] ++ gates.map (fun g => (2, g)) ++ [(3, (List.range 4).map (plcaWord f))] ++
    mUnits.map (fun m => (4, m.flatMap (meterEntry f))) ++ fUnits.map (fun e => (5, e.flatMap (fun c => fdbRecord f c.1))) ++ [(15, [no, total])])
  let first := 7 + mUnits.length
  let carried := (List.range fUnits.length).filterMap (fun i =>
    let n := ((fUnits.getD i []).filter (fun c => c.2)).length
    if n = 0 then none else some (seqAhead f (first + i), n))
  let f := { f with twn := { f.twn with
    copyFrom := if synced then none else (cp.getLast?).elim f.twn.copyFrom (fun c => some (c.1 + 1))
    fdbSent := f.twn.fdbSent ++ carried } }
  let f := ((f.wrN F_TWN_REC no).count (cTwin 32)).countN (cTwin 35) ch.length
  forRange units.length (fun i f => let x := units.getD i (0, []); postTwin (recUnit x.1 i x.2) f) f

/-! ### Boundaries (R527, R641, R663, R664) -/

/-- Roles that take effect at a boundary `b`: formation, a resolved conflict, and enable 0. -/
def boundaryRoles (b : Nat) (f : FieldDie) : FieldDie :=
  let f := if f.twn.cause = 0 ∧ f.twn.boundaryB.any (fun t => decide (t ≤ b)) then
      let g := { f with twn := { f.twn with boundaryB := none, resync := f.twn.resync || f.twn.toActive, statusAt := none, lost := 0, evL := false, recFor := some b } }
      (setRole (if f.twn.toActive then 2 else 3) g).raise F_TWN_EVT 0
    else f
  let f := if f.twn.confAt then setRole 3 { f with twn := { f.twn with confAt := false, recFor := some b } } else f
  if f.twn.aloneAtB then setRole 0 { f with twn := { f.twn with aloneAtB := false, boundaryB := none } } else f

/-- The network cycle ends: the boundary is taken once, with the record of an ACTIVE part (R643). -/
def takeBoundary (f : FieldDie) : FieldDie :=
  let b := networkBoundary f
  if b = f.str.netStart then f
  else
    let f := beginNetworkCycle b f
    let f := if f.role = 2 ∧ f.twin.phase = 3 then startRecord b f else f
    boundaryRoles b f

/-- NETWORK_CYCLE_BOUNDARY (R527): see `takeBoundary`. -/
def execNetworkCycleBoundary (s : State) : Host.Outcome State Fault Refusal := s.onRun takeBoundary

/-! ### The state record: applying (R648 to R654) -/

/-- A whole record at the front of the waiting record units: its units, none while it is not whole (R648). -/
def wholeRecord (us : List FlowUnit) : Option (List FlowUnit) :=
  let us := us.dropWhile (fun u => bitsOf u.header 27 24 != 0)
  let rec_ := us.take ((us.takeWhile (fun u => bitsOf u.header 27 24 != 15)).length + 1)
  match rec_.head?, rec_.getLast? with
  | some h, some t =>
    if bitsOf t.header 27 24 = 15 ∧ t.w 0 = h.w 0 ∧ t.w 1 = rec_.length ∧
      (List.range rec_.length).all (fun i => (rec_.getD i {}).header % 65536 == i) then some rec_ else none
  | _, _ => none

/-- Drop the waiting record units: up to and with the first trailer, or all of them. -/
def dropRecord (l : Link) : Link :=
  let recs := l.inbox.filter (fun u => u.type == 9)
  let rest := (recs.dropWhile (fun u => bitsOf u.header 27 24 != 15)).drop 1
  { l with inbox := l.inbox.filter (fun u => u.type != 9) ++ rest }

/-- The units of a section of a record. -/
def sectionOf (k : Nat) (us : List FlowUnit) : List FlowUnit := us.filter (fun u => bitsOf u.header 27 24 == k)

/-- Apply one FDB entry of a record: unit `u`, half `i`. -/
def applyFdb (u : FlowUnit) (i : Nat) (f : FieldDie) : FieldDie :=
  let k := 5 * i
  let idx := bitsOf (u.w k) 14 0
  if 16448 ≤ idx then f
  else if hasBit (u.w k) 31 then
    (((f.wrN (fdbAddr idx 0) (u.w (k + 1))).wrN (fdbAddr idx 1) (u.w (k + 2))).wrN (fdbAddr idx 2) (u.w (k + 3))).wrN (fdbAddr idx 3) (u.w (k + 4))
  else f.wrN (fdbAddr idx 0) (clrBit (f.fdb idx).w0 31)

/-- Set a meter's level to whole bytes. -/
def setMeter (m c e : Nat) (f : FieldDie) : FieldDie := setMeterFrac m [0, 0, 0, 0] (setBucket m 0 c (setBucket m 1 e f))

/-- Apply the meter entries of a record (R649). -/
def applyMeters (complete : Bool) (es : List (Nat × Nat × Nat)) (f : FieldDie) : FieldDie :=
  let f := forAll es (fun e f => if e.1 < 4096 then setMeter e.1 e.2.1 e.2.2 f else f) f
  if complete then
    forAll ((validMeters f).filter (fun m => !es.any (fun e => e.1 == m))) (fun m f => meterFill m true f) f
  else f

/-- The meter entries of a section. -/
def meterEntries (us : List FlowUnit) (n : Nat) : List (Nat × Nat × Nat) :=
  (List.range n).map (fun i =>
    let u := us.getD (i / 7) {}
    let v := u.w (2 * (i % 7)) + 2 ^ 32 * u.w (2 * (i % 7) + 1)
    (bitsOf v 59 48, bitsOf v 47 24, bitsOf v 23 0))

/-- Put domain `d` at `v`, in units of 2^-32 ns. -/
def setDomain (d v : Nat) (f : FieldDie) : FieldDie :=
  if d = 0 then { f with tim := { f.tim with a := v } }
  else setBOff (domWrap ((v : Int) - 8 * f.now * 2 ^ 32 - f.bDrift)) f

/-- Instance `n` takes its carried state, slave port and grandmaster; one that does not steer the selected domain takes
its integral, its frequency and its domain as well (R652, R657). -/
def applyServo (n : Nat) (u : FlowUnit) (f : FieldDie) : FieldDie :=
  let f := (f.put (F_TIM_PTP_STAT_state n) (bitsOf (u.w 0) 31 28)).put (F_TIM_PTP_STAT_slave_port n) (bitsOf (u.w 0) 20 16)
  let f := (f.wrN (F_TIM_PTP_GM_HI n) (u.w 5)).wrN (F_TIM_PTP_GM_LO n) (u.w 6)
  let p := bitsOf (u.w 0) 20 16
  let f := f.setPtpX n (fun x => { x with carried := if p < 12 then some (f.now, p) else none })
  let d := f.get (F_TIM_PTP_CFG_steer n)
  if d = f.activeDom then f
  else
    let f := (f.setPtpX n (fun x => { x with integral := toSigned 32 (u.w 2) })).wrN (F_TIM_PTP_FREQ n) (u.w 1)
    let f := if ptpOn f n then applyY d (toSigned 32 (u.w 1)) f else f
    setDomain d (domWrap ((f.sysFix : Int) + toSigned 64 (u.w 3 + 2 ^ 32 * u.w 4) * 2 ^ 32)) f

/-- Time as a record carries it (R652). -/
def applyTime (tb : Nat) (us : List FlowUnit) (f : FieldDie) : FieldDie :=
  let u0 := us.getD 0 {}
  let e : Int := (f.twn.recAt : Int) - ((tb + 1000 + f.twin.transit / 16 : Nat) : Int)
  let (w, f) := nsWord e f
  let f := f.wrN F_TWN_TERR w
  let t0 := f.sysNs
  let f := { f with tim := { f.tim with delta := toSigned 32 (u0.w 7) * 2 ^ 32 } }
  let f := timeMoved t0 ((f.put F_TIM_SYS_active (bitOf (u0.w 8) 0)).put F_TIM_SYS_auto_sw (bitOf (u0.w 8) 1))
  let f := applyServo 1 (us.getD 1 {}) (applyServo 0 u0 f)
  match steeredBy f f.activeDom with
  | some n => servo n f.activeDom e f
  | none => f

/-- Apply a whole record (R649, R650, R654). -/
def applyRecord (us : List FlowUnit) (f : FieldDie) : FieldDie :=
  let h := us.getD 0 {}
  let flags := bitsOf (h.w 3) 31 16
  let tb := timeOf (h.w 1) (h.w 2) (h.w 3 % 65536)
  let own := if f.flag F_CFG_PROOF_STAT_committed then f.rdN F_CFG_PROOF else 0
  let f := if h.w 5 ≠ own ∨ f.flag F_CFG_PROOF_STAT_stale then f.raise F_TWN_EVT 9 else f
  let f := if hasBit flags 2 then
      (forAll ((fdbValid f).filter (fun i => !(f.fdb i).isStatic)) (fun i (f : FieldDie) => f.wrN (fdbAddr i 0) (clrBit (f.fdb i).w0 31))
        ({ f with twn := { f.twn with syncedAt := none } }.put F_TWN_STAT_synced 0)).raise F_TWN_EVT 8
    else f
  let nf := h.w 4 % 65536
  let fs := sectionOf 5 us
  let f := fdbRecount (forRange nf (fun i f => applyFdb (fs.getD (i / 2) {}) (i % 2) f) f)
  let f := applyMeters (hasBit flags 0) (meterEntries (sectionOf 4 us) (bitsOf (h.w 4) 31 16)) f
  let f := if bitsOf (h.w 7) 15 0 = f.get F_STR_CHG_STAT_last_gen then f
    else trigger (h.w 8) (bitsOf (h.w 7) 15 0) (some (wordsTime h 9)) f
  let f := applyTime tb (sectionOf 1 us) f
  let f := if hasBit flags 1 then
      { f with twn := { f.twn with syncedAt := some (f.twn.syncedAt.getD f.now) } }.put F_TWN_STAT_synced 1
    else f
  (f.wrN F_TWN_REC (h.w 0)).count (cTwin 33)

/-- Whether the whole record `us` arrived by T_b + rt (R648). -/
def recordInTime (us : List FlowUnit) (f : FieldDie) : Bool := decide (f.twn.recEnd ≤ wordsTime (us.getD 0 {}) 1 + recordTime f)

/-- The whole record that waits and arrived in time. -/
def readyRecord (f : FieldDie) : Option (List FlowUnit) :=
  (wholeRecord (f.twin.inbox.filter (fun u => u.type == 9))).filter (fun us => recordInTime us f)

/-- RECORD_APPLY (R648, R660): a STANDBY part, or the new ACTIVE part of a handover once, applies a record that has
arrived whole and in time; any other part discards it. -/
def recordApply (f : FieldDie) : FieldDie :=
  match readyRecord f with
  | none => f
  | some us =>
    let f := { f with twin := dropRecord f.twin }
    let b := networkBoundary f
    if f.twn.recFor = some b ∨ (f.role ≠ 3 ∧ (f.role ≠ 2 ∨ f.twn.recDue = false)) then f
    else
      let f := applyRecord us { f with twn := { f.twn with recFor := some b, recDue := false, lost := 0 } }
      tryReq (if f.role = 3 then setEvL false false f else f)

def execRecordApply (s : State) : Host.Outcome State Fault Refusal := s.onRun recordApply

/-- RECORD_LOST (R648): the record of the running cycle's boundary is not whole by T_b + rt. -/
def recordLost (f : FieldDie) : FieldDie :=
  let b := networkBoundary f
  if (f.role ≠ 3 ∧ (f.role ≠ 2 ∨ f.twn.recDue = false)) ∨ f.twn.recFor = some b ∨ f.sysNs < b + recordTime f ∨
      (readyRecord f).isSome then f
  else
    let no : Nat := (((f.twin.inbox.filter (fun u => u.type == 9 && bitsOf u.header 27 24 == 0)).head?).map (fun u => u.w 0)).getD
      ((f.rdN F_TWN_REC + 1 + f.twn.lost) % 2 ^ 32)
    let f : FieldDie := { f with
      twin := dropRecord f.twin
      twn := { f.twn with recFor := some b, recDue := false, lost := f.twn.lost + 1, syncedAt := none } }
    let f : FieldDie := (((f.put F_TWN_STAT_synced 0).wrN F_TWN_EVT_INFO no).count (cTwin 34)).raise F_TWN_EVT 4
    if f.role = 3 ∧ max 1 (f.get F_TWN_TIMING_rec_miss) ≤ f.twn.lost then setEvL true true f else f

def execRecordLost (s : State) : Host.Outcome State Fault Refusal := s.onRun recordLost

/-! ### Changes of role (R657, R660) -/

/-- Whether boundary B has come for a change of one of the causes that `p` names. -/
def boundaryDue (f : FieldDie) (p : Nat → Bool) : Bool := p f.twn.cause && f.twn.boundaryB.any (fun b => decide (b ≤ f.sysNs))

/-- The gPTP instances go on in the state and with the slave port that the records carried; their time-outs run from
now (R657). -/
def resumePtp (f : FieldDie) : FieldDie :=
  refreshPtp (forRange 2 (fun n f => f.setPtpX n (fun x => { x with
    lastSync := f.now, carried := x.carried.map (fun c => (f.now, c.2)) })) f)

/-- Become ACTIVE: what a new active part starts afresh. -/
def becomeActive (f : FieldDie) : FieldDie :=
  resumePtp (setRole 2 { f with twn := { f.twn with
    boundaryB := none, reqSent := false, lost := 0, evL := false, statusAt := some f.now, fdbq := [], fdbSent := [], copyFrom := none } })

/-- TAKEOVER (R651, R657): the standby becomes ACTIVE at B. -/
def takeover (f : FieldDie) : FieldDie :=
  if f.role ≠ 3 ∨ boundaryDue f (fun c => c == 3) = false then f
  else
    let f := becomeActive (takeBoundary f)
    let f := forAll ((fdbValid f).filter (fun i => !(f.fdb i).isStatic)) (fun i f => f.wrN (fdbAddr i 0) (putBits (f.fdb i).w0 11 8 0)) f
    let f := { f with fwd := { f.fwd with ageTick := f.now } }
    let f := forRange 4 (fun k f => f.setSegX k (fun x => { x with takeoverWait := true })) f
    let f := f.raise F_TWN_EVT 2
    if f.flag F_TWN_STAT_synced then f else f.raise F_TWN_EVT 14

def execTakeover (s : State) : Host.Outcome State Fault Refusal := s.onRun takeover

/-- HANDOVER (R660): at B the active part becomes STANDBY and the requester ACTIVE. -/
def handover (f : FieldDie) : FieldDie :=
  if boundaryDue f (fun c => c == 1 || c == 2) = false then f
  else
    let f := takeBoundary f
    let rev := f.twn.cause == 1
    let f := if f.twn.toActive then becomeActive { f with twn := { f.twn with recDue := true } }
      else setRole 3 ({ f with twn := { f.twn with
        boundaryB := none, syncedAt := none, lost := 0, evL := false, recFor := some f.str.netStart, fdbq := [], fdbSent := [], copyFrom := none } }.put
          F_TWN_STAT_synced 0)
    let f := f.raise F_TWN_EVT 3
    if rev then reversionDone f else f

def execHandover (s : State) : Host.Outcome State Fault Refusal := s.onRun handover

/-- One safelight tick of the comparison of want with the role (R665). -/
def wantTick (f : FieldDie) : FieldDie :=
  let w := f.get F_TWN_CTRL_want
  let bad := (w == 1 && f.role != 2) || (w == 2 && f.role != 3 && f.role != 4)
  let n := if bad then f.twn.differ + 1 else 0
  let f := { f with twn := { f.twn with differ := n } }
  if n = 3 then f.raise F_TWN_EVT 11 else f

end Sys2Proof.Machine
end

