-- ==== Sys2Proof/Machine/Proof.lean ====
section
/-! DEFINITION. The proof's sweeps and commits (R268 to R275), the resume image's write to the flash (R122, R755 to
R758), the voters (R262 to R264, R877) and the hardware locks' commands (R276 to R284). -/

namespace Sys2Proof.Machine

/-! ### The resume write (R755 to R758) -/

/-- Set resume_stat (Table 3.7). -/
def setResume (v : Nat) (f : FieldDie) : FieldDie := f.put F_PWR_STATE_resume_stat v

/-- The resume write ends with resume_stat 3 and resume_fail (R124, R756). -/
def resumeFailed (f : FieldDie) : FieldDie :=
  let f := { f with spi := { f.spi with flash := 0, restart := false } }
  (setResume 3 (f.put F_SPI_STAT_flash_busy 0)).raise F_PWR_EVT 6

/-- The flash address of offset `o` of the resume region. -/
def resumeAddr (f : FieldDie) (o : Nat) : Nat := f.get F_PWR_RESUME_ADDR_addr * 65536 + o

/-- Bytes of one erase unit (Table 18.3). -/
def eraseUnit (f : FieldDie) : Nat := if f.flag F_SPI_MFLASH2_erase_64k then 65536 else 4096

/-- How the master talks to the flash from T_cfg on (R741, R742, R753): lanes of each phase, address bytes, dummy clocks,
clock mode 0 or 3, and the clock's period in units of 2 ns. -/
structure FlashProfile where
  cmdLanes : Nat
  addrLanes : Nat
  dataLanes : Nat
  addrBytes : Nat
  dummy : Nat
  mode : Nat
  div : Nat
deriving DecidableEq, Repr

/-- Lanes that a lane code stands for (Table 18.4). -/
def laneCount (code : Nat) : Nat := if code = 0 then 2 else if code = 1 then 4 else 8

/-- The flash profile that the registers give; at their reset values it is the form of the start-up read (R174, R752). -/
def flashProfile (f : FieldDie) : FlashProfile :=
  { cmdLanes := laneCount (f.get F_SPI_MFLASH0_cmd_lanes), addrLanes := laneCount (f.get F_SPI_MFLASH0_addr_lanes),
    dataLanes := laneCount (f.get F_SPI_MFLASH0_data_lanes), addrBytes := if f.flag F_SPI_MFLASH0_addr4 then 4 else 3,
    dummy := f.get F_SPI_MFLASH0_dummy, mode := if f.flag F_SPI_CTRL_master_mode then 3 else 0, div := max 5 (f.get F_SPI_CTRL_div) }

/-- The levels of lanes 0 to `k` − 1 on the successive sampling edges of byte `b` (R740). -/
def laneEdges (k : Nat) (b : Byte) : List (List Bool) :=
  (List.range (8 / k)).map (fun j => (List.range k).map (fun i => hasBit b.toNat (8 - k * (j + 1) + i)))

/-- Enable writing, then erase the unit at offset `o` of the region. -/
def sendErase (o : Nat) (f : FieldDie) : FieldDie :=
  ({ f with spi := { f.spi with flash := 1, flashAt := o, flashSince := f.now } }.emit (.flash (f.get F_SPI_MFLASH1_wren_op) 0 [])).emit
    (.flash (f.get F_SPI_MFLASH1_erase_op) (resumeAddr f o) [])

/-- A 256-byte page of an image, the last one padded with 0xFF. -/
def imagePage (img : List Byte) (o : Nat) : List Byte := ((img.drop o).take 256 ++ List.replicate 256 0xFF).take 256

/-- Enable writing, then program the page at offset `o`. -/
def sendProgram (o : Nat) (f : FieldDie) : FieldDie :=
  ({ f with spi := { f.spi with flash := 2, flashAt := o, flashSince := f.now } }.emit (.flash (f.get F_SPI_MFLASH1_wren_op) 0 [])).emit
    (.flash (f.get F_SPI_MFLASH1_prog_op) (resumeAddr f o) (imagePage f.spi.image o))

/-- The image of a running resume write is no longer the committed one, and no other takes its place: the flash operation
in progress completes and the write then ends. -/
def voidResume (f : FieldDie) : FieldDie :=
  if f.spi.flash = 0 then f else { f with spi := { f.spi with image := [], restart := true } }

/-- A commit calls for a resume write of `img` (R122, R757). An image that does not fit, or one for which the serial port
has no flash (R758), cannot be written; without resume_en none is. A write of an older image goes on in neither case. -/
def startResume (img : List Byte) (f : FieldDie) : FieldDie :=
  if f.flag F_PWR_CTRL_resume_en = false then voidResume f
  else if f.get F_SPI_CTRL_role = 1 ∨ imageMax < img.length then (setResume 3 (voidResume f)).raise F_PWR_EVT 6
  else
    let busy := f.spi.flash != 0
    let f := setResume 1 { f with spi := { f.spi with image := img, restart := busy } }
    if busy then f else sendErase 0 (f.put F_SPI_STAT_flash_busy 1)

/-- The flash after `bytes` have been written from address `a` on. -/
def flashStore : Nat → List Byte → List (Nat × Byte) → List (Nat × Byte)
  | _, [], m => m
  | a, b :: bs, m => flashStore (a + 1) bs (Store.set (fun _ => 0xFF) m a b)

/-- The flash after the bytes of `n` addresses from `a` have been erased. -/
def flashErase (a n : Nat) (m : List (Nat × Byte)) : List (Nat × Byte) :=
  m.filter (fun e => !(decide (a ≤ e.1) && decide (e.1 < a + n)))

/-- `n` bytes of the flash from address `a`. -/
def flashRead (m : List (Nat × Byte)) (a n : Nat) : List Byte := (List.range n).map (fun i => Store.get (fun _ => 0xFF) m (a + i))

/-- The flash after the running operation completes: the unit erased, or the page programmed. -/
def flashApplied (f : FieldDie) (m : List (Nat × Byte)) : List (Nat × Byte) :=
  let o := f.spi.flashAt
  if f.spi.flash = 1 then flashErase (resumeAddr f o / eraseUnit f * eraseUnit f) (eraseUnit f) m
  else if f.spi.flash = 2 then flashStore (resumeAddr f o) (imagePage f.spi.image o) m
  else m

/-- Step 3 of Table 18.3: what the flash returns is compared with the image. -/
def resumeVerify (m : List (Nat × Byte)) (f : FieldDie) : FieldDie :=
  let n := f.spi.image.length
  let f := f.emit (.flash (f.get F_SPI_MFLASH0_read_op) (resumeAddr f 0) [])
  if crc32c (flashRead m (resumeAddr f 0) n) = crc32c f.spi.image then
    setResume (if f.flag F_PWR_CTRL_resume_en then 2 else 0)
      ({ f with spi := { f.spi with flash := 0 } }.put F_SPI_STAT_flash_busy 0)
  else resumeFailed f

/-- The running operation has completed, as the status register has shown: the next one begins (R755), or the write
restarts (R757). `m` is the flash after the operation. -/
def flashNext (m : List (Nat × Byte)) (f : FieldDie) : FieldDie :=
  let o := f.spi.flashAt
  let f := f.emit (.flash (f.get F_SPI_MFLASH1_rdsr_op) 0 [])
  if f.spi.restart then
    if f.spi.image = [] then { f with spi := { f.spi with flash := 0, restart := false } }.put F_SPI_STAT_flash_busy 0
    else sendErase 0 { f with spi := { f.spi with restart := false } }
  else if f.spi.flash = 1 then
    let o := o + eraseUnit f
    if o < imageMax then sendErase o f else sendProgram 0 f
  else if f.spi.flash = 2 then
    if o + 256 < f.spi.image.length then sendProgram (o + 256) f else resumeVerify m f
  else f

/-- FLASH_OPERATION_DONE (R755). -/
def execFlashOperationDone (s : State) : Host.Outcome State Fault Refusal :=
  if s.fld.isRunning ∧ s.fld.spi.flash ≠ 0 then
    let m := flashApplied s.fld s.flash
    .next { s with fld := settle (flashNext m s.fld), flash := m }
  else s.onField id

/-- `n` bytes that the spec leaves open. -/
def freeBytes : Nat → FieldDie → List Byte × FieldDie
  | 0, f => ([], f)
  | n + 1, f =>
    let (v, f) := f.free
    let (bs, f) := freeBytes n f
    (BitVec.ofNat 8 v :: bs, f)

/-- The time-out of the running operation in milliseconds (Table 18.3). -/
def flashLimit (f : FieldDie) : Nat := if f.spi.flash = 2 then 10 else if f.flag F_SPI_MFLASH2_erase_64k then 3000 else 500

/-- Whether the running operation has exceeded its time-out. -/
def flashLate (f : FieldDie) : Bool := f.spi.flash != 0 && decide (f.spi.flashSince + flashLimit f * msTicks ≤ f.now)

/-- FLASH_OPERATION_TIMEOUT (R756): what the operation left in its unit or page is open. -/
def execFlashOperationTimeout (s : State) : Host.Outcome State Fault Refusal :=
  if s.fld.isRunning ∧ flashLate s.fld then
    let f := s.fld
    let (a, n) := if f.spi.flash = 1 then (resumeAddr f f.spi.flashAt / eraseUnit f * eraseUnit f, eraseUnit f)
      else (resumeAddr f f.spi.flashAt, 256)
    let (bs, f) := freeBytes n f
    .next { s with fld := settle (resumeFailed f), flash := flashStore a bs s.flash }
  else s.onField id

/-! ### Commits (R272 to R275) -/

/-- A write of F_CFG_PROOF_CMD (R272 to R274). -/
def writeProofCmd (req data : Nat) (f : FieldDie) : FieldDie :=
  let op := bitsOf data 3 0
  if lkDenied f req F_CFG_PROOF_CMD then lkReject req F_CFG_PROOF_CMD f
  else if op ≠ 1 ∧ op ≠ 2 then f
  else if f.flag F_CFG_PROOF_STAT_busy then lkReject req F_CFG_PROOF_CMD f
  else
    let f := { f with cfg := { f.cfg with commit := some op, commitSweep := false, sweeping := false, covered := false } }
    f.put F_CFG_PROOF_STAT_busy 1

/-- PROOF_COMMIT (R272): op 0x1. -/
def execProofCommit (req : Nat) (s : State) : Host.Outcome State Fault Refusal := s.onWrite req (writeProofCmd req 1)

/-- PROOF_COMMIT_IF_EQUAL (R272): op 0x2. -/
def execProofCommitIfEqual (req : Nat) (s : State) : Host.Outcome State Fault Refusal := s.onWrite req (writeProofCmd req 2)

/-- PROOF_SWEEP_START (R268): a sweep starts; the first one after a request is its commit sweep (R273). -/
def execProofSweepStart (s : State) : Host.Outcome State Fault Refusal :=
  s.onRun (fun f => if f.cfg.sweeping then f
    else { f with cfg := { f.cfg with sweeping := true, commitSweep := f.cfg.commit.isSome } })

/-- Whether a key commit is in progress. -/
def keyCommitting (f : FieldDie) : Bool := f.key.op == 2 || f.key.op == 3

/-- The canonical image becomes the staged image, or waits for the key commit in progress to end (R275). One that is
too large is not staged (R209). -/
def stageImage (img : List Byte) (f : FieldDie) : FieldDie :=
  let big := decide (imageMax < img.length)
  let f := f.put F_KEY_STAT_image_big (if big then 1 else 0)
  if big then f
  else if keyCommitting f then { f with cfg := { f.cfg with build := some img } }
  else { f with cfg := { f.cfg with image := img } }

/-- The code of Table 6.5 for a commit sweep that ends at `v`. -/
def commitCode (f : FieldDie) (op v : Nat) : Nat :=
  if f.cfg.covered then 2
  else if op = 2 ∧ v ≠ f.cfg.expect then 1
  else if f.flag F_CFG_PROOF_STAT_committed ∧ v = f.rdN F_CFG_PROOF then 3
  else 0

/-- The commit sweep ends at `v` (Table 6.5). -/
def endCommit (op v : Nat) (f : FieldDie) : FieldDie :=
  let code := commitCode f op v
  let f := { f with cfg := { f.cfg with commit := none, commitSweep := false } }
  let f := (f.put F_CFG_PROOF_STAT_busy 0).put F_CFG_PROOF_STAT_result code
  if code = 0 ∨ code = 3 then
    let f := if code = 0 then dropTmr F_CFG_PROOF ((f.wrN F_CFG_PROOF v).put F_CFG_PROOF_STAT_committed 1) else f
    let f := (f.put F_CFG_PROOF_STAT_stale 0).raise F_CFG_EVT 0
    let img := canonicalImage f v
    let f := stageImage img f
    if code = 0 ∨ f.get F_PWR_STATE_resume_stat ≠ 2 then startResume img f else f
  else f.raise F_CFG_EVT 1

/-- A sweep ends at `v` (R268, R269). -/
def endSweep (v : Nat) (f : FieldDie) : FieldDie :=
  let f := (f.wrN F_CFG_PROOF_RUN v).bump F_CFG_PROOF_STAT_sweep_cnt 1
  let f := { f with cfg := { f.cfg with sweeping := false } }
  let f := match f.cfg.commit with
    | some op => if f.cfg.commitSweep then endCommit op v f else f
    | none => f
  if f.flag F_CFG_PROOF_STAT_committed ∧ f.flag F_CFG_PROOF_STAT_stale = false ∧ Nat.xor v (f.rdN F_PTB_PROOF) ≠ f.rdN F_CFG_PROOF then
    latchFault 3 0 f
  else f

/-- PROOF_SWEEP_END (R269). The whole result is taken from the configuration at the sweep's end; when a sweep reads each
word is not stated (log 129). -/
def execProofSweepEnd (s : State) : Host.Outcome State Fault Refusal :=
  s.onRun (fun f => if f.cfg.sweeping then endSweep (proofValue f) f else f)

/-! ### The voters (R262 to R264, R877) -/

/-- Copy `c` of the triplicated bits of entry `i`, in their places of the word. -/
def tmrCopy (f : FieldDie) (i c : Nat) : Nat :=
  match f.cfg.tmr.find? (fun e => e.1 == i && e.2.1 == c) with
  | some e => e.2.2
  | none => Nat.land (f.rdN (tmrReg i)) (tmrMask (tmrReg i))

/-- The word of entry `i` with its triplicated bits those of `v`. -/
def setTmr (i v : Nat) (f : FieldDie) : FieldDie :=
  let a := tmrReg i
  f.wrN a (andNot (f.rdN a) (tmrMask a) + Nat.land v (tmrMask a))

/-- The voted value of entry `i` with copies `w`: that of two copies that agree, else the reset value (R262, R264). The
entry's triplicated bits are voted as one unit (log 24). -/
def votedCopies (i : Nat) (w : Nat → Nat) : Nat :=
  if w 0 = w 1 ∨ w 0 = w 2 then w 0 else if w 1 = w 2 then w 1 else (fieldDefault (tmrReg i)).toNat

/-- One copy of entry `i` differed from the other two and is rewritten (R263). -/
def tmrCorrected (i copy : Nat) (f : FieldDie) : FieldDie :=
  (((f.bump F_CFG_TMR_CNT_count 1).put F_CFG_TMR_LAST_copy copy).put F_CFG_TMR_LAST_field i).raise F_CFG_EVT 6

/-- All three copies of entry `i` differ: its bits have their reset values, and fault 2 is latched (R264). -/
def tmrLost (i : Nat) (f : FieldDie) : FieldDie :=
  latchFault 2 i ((f.put F_CFG_TMR_LAST_copy 3).put F_CFG_TMR_LAST_field i)

/-- What the voter reports of entry `i` with copies `w` (R263, R264). -/
def voteReport (i : Nat) (w : Nat → Nat) (f : FieldDie) : FieldDie :=
  if w 0 = w 1 ∧ w 1 = w 2 then f
  else if w 1 = w 2 then tmrCorrected i 0 f
  else if w 0 = w 2 then tmrCorrected i 1 f
  else if w 0 = w 1 then tmrCorrected i 2 f
  else tmrLost i f

/-- What follows when the voted value of entry `i` has changed from the word `old` (R877). -/
def votedChange (i old : Nat) (f : FieldDie) : FieldDie :=
  if f.rdN (tmrReg i) = old then f
  else if 2 ≤ i ∧ i < 18 then modeChanged (i - 2) old (votedMode (i - 2) f)
  else if 18 ≤ i ∧ i < 22 then plcaChanged (i - 18) old f
  else if i = 40 then domainNamed f
  else if i = 41 then enableChanged (hasBit old 31) f
  else f

/-- Vote entry `i` when a copy of it is damaged: its bits and all copies take the voted value (R263, R264, R877). -/
def voteEntry (i : Nat) (f : FieldDie) : FieldDie :=
  if f.cfg.tmr.any (fun e => e.1 == i) then
    let old := f.rdN (tmrReg i)
    let w := tmrCopy f i
    let f := setTmr i (votedCopies i w) f
    votedChange i old (voteReport i w { f with cfg := { f.cfg with tmr := f.cfg.tmr.filter (fun e => e.1 != i) } })
  else f

/-- VOTER_CHECK (R262). -/
def execVoterCheck (s : State) : Host.Outcome State Fault Refusal := s.onRun (forRange tmrCount voteEntry)

/-! ### Locks (R276 to R284) -/

/-- LOCK_ACQUIRE (R276 to R278): a read of F_CFG_LOCK_ACQ_n by `req`. -/
def execLockAcquire (req n : Nat) (s : State) : Host.Outcome State Fault Refusal :=
  s.onItem n 32 (fun f => (acquireLock req n f.napBreak).2)

/-- LOCK_RELEASE (R279). -/
def execLockRelease (req n : Nat) (s : State) : Host.Outcome State Fault Refusal := s.onItemWrite req n 32 (releaseLock req n)

/-- Whether lock `n` has been HELD for life_ms milliseconds, less the tolerance of 1 ms (R282). -/
def lockOver (f : FieldDie) (n : Nat) : Bool :=
  let life := f.get F_CFG_LOCK_LIFE_life_ms
  life != 0 && lockState f n == 1 && decide (Store.get (fun _ => 0) f.cfg.grantTick n + (life - 1) * msTicks ≤ f.now)

/-- LOCK_EXPIRED (R282). -/
def execLockExpired (n : Nat) (s : State) : Host.Outcome State Fault Refusal :=
  s.onItem n 32 (fun f => if lockOver f n then orphanLock 3 n f else f)

end Sys2Proof.Machine
end

