-- ==== Sys2Proof/Machine/Tables.lean ====
section
/-! DEFINITION. Table entries written by software (R285 to R288): the bits each table stores, the owning chapters'
entry checks (R134, Tables 9.4, 10.5, 12.5 and 13.8), and what a write brings about. -/

namespace Sys2Proof.Machine

/-- The bits that word `w` of an entry of the table at `base` stores; the others are reserved (R249) or, for the age of
a filtering-database entry, hardware's. -/
def entryMask (base w : Nat) : Nat :=
  let pick := fun (ms : List Nat) => ms.getD w 0
  let all := 0xFFFFFFFF
  if base = 0x400000 then pick [0xF000FFFF, all, all, all]
  else if base = 0x401000 then 0xFFFF
  else if base = 0x402000 then 0x8FFFFFFF
  else if base = 0x410000 then (if w = 0 then 0xC0FFFFFF else if w < 9 then 0x9FFFFFFF else 0)
  else if base = 0x420000 then
    (if w = 0 then 0xFFFFF800 else if w = 1 then all else if w < 10 then 0xFFFF803F else if w < 13 then all else 0)
  else if base = 0x440000 then (if w = 0 then 0xF0FF0000 else if w < 21 then all else 0)
  else if base = 0x480000 then pick [0xF0000000, all, 0x0FFFFFFF, 0xFF01FFFF]
  else if base = 0x4D0000 then pick [0xC001FFFF, 0x0001FFFF]
  else if base = 0x4E0000 then 3
  else if base = 0x500000 then 0xFFFF7FFF
  else if base = 0x510000 then pick [all, all, 0xCFFFFFFF, 0xFFF1FFFF]
  else if base = 0x530000 then pick [0xF0FFFFFF, 0x00FFFFFF, 0x00FFFFFF, 0x00FFFFFF]
  else if base = 0x548000 then 0xF0000000
  else if base = 0x550000 then pick [0xC70000FF, 0x3FFFFFFF, 0x3FFFFFFF, 0x00FFFFFF]
  else if base = 0x560000 then pick [0x830000FF, 0x07FFFFFF]
  else if base = 0x580000 then 0x80FFFFFF
  else if base = 0x590000 then pick [0x80FFFFFF, all]
  else 0

/-! ### Entry checks -/

/-- The code of Table 9.4 under which format entry `e` is rejected. -/
def formatCheck (f : FieldDie) (e : Nat) : Option Nat :=
  let w0 := fmtWord f e 0
  let w1 := fmtWord f e 1
  let part := bitsOf w0 28 27
  let cands := (List.range 8).map (fun i => fmtWord f e (2 + i))
  let cmds := (List.range 3).flatMap (fun j => [bitsOf (fmtWord f e (10 + j)) 31 16, bitsOf (fmtWord f e (10 + j)) 15 0])
  let badCmd := fun (c : Nat) =>
    let n := bitsOf c 8 5
    decide (8 < n) || (decide (1 ≤ n) && decide (28 < bitsOf c 4 0 + n))
  if hasBit w0 29 = false ∧ bitsOf w0 17 11 = 0 then some 1
  else if part = 3 ∨ (hasBit w0 29 ∧ part = 2 ∧ 1 < bitsOf w0 26 25) then some 2
  else if hasBit w1 14 = false ∧ (bitsOf w1 31 24 ≠ 0 ∨ cands.any (fun c => hasBit c 15 && bitsOf c 31 24 != 0)) then some 3
  else if cmds.any badCmd then some 4
  else none

/-- The code of Table 9.4 under which rule `r` is rejected. -/
def ruleCheck (f : FieldDie) (r : Nat) : Option Nat :=
  let v := fun i => ruleWord f r (1 + i)
  let stray := (List.range 10).any (fun i => andNot (v i) (ruleWord f r (11 + i)) != 0)
  let reserved := bitsOf (v 0) 4 0 != 0 || bitsOf (v 1) 21 16 != 0 || bitsOf (v 2) 31 28 != 0
  if stray || reserved then some 0x10 else if bitsOf (ruleWord f r 0) 20 19 = 3 then some 0x11 else none

/-- The code of Table 10.5 under which filtering-database entry `i` is rejected. -/
def fdbCheck (f : FieldDie) (i : Nat) : Option Nat :=
  let e := f.fdb i
  let twin := (fdbCands e.mac e.vid).any (fun j =>
    j != i && (f.fdb j).valid && (f.fdb j).isStatic && (f.fdb j).mac == e.mac && (f.fdb j).vid == e.vid)
  if (fdbCands e.mac e.vid).contains i = false then some 1
  else if twin then some 2
  else if e.vid = 0 ∨ e.vid = 4095 then some 3
  else if e.maskDst = false ∧ hasBit e.w3 31 = false ∧ 16 < bitsOf e.w3 28 24 then some 4
  else if e.maskDst ∧ hasBit e.w3 31 then some 5
  else none

/-- The code of Table 12.5 under which stream entry `i` is rejected. -/
def streamCheck (f : FieldDie) (i : Nat) : Option Nat :=
  let w0 := streamWord f i 0
  let vid := bitsOf w0 27 16
  let mac := entryMac (streamWord f i 1) w0
  let sdu := streamMaxSdu f i
  let set_ := macHash mac vid % 1024
  let twin := (List.range 4).any (fun w =>
    let j := 4 * set_ + w
    let v := streamWord f j 0
    j != i && hasBit v 31 && bitsOf v 30 30 == bitsOf w0 30 30 && bitsOf v 27 16 == vid && entryMac (streamWord f j 1) v == mac)
  if i / 4 ≠ set_ then some 1
  else if twin then some 2
  else if vid = 0 ∨ vid = 4095 then some 3
  else if 1 ≤ sdu ∧ sdu < 64 then some 4
  else none

/-- An entry event of the STR block: Table 12.5. -/
def strReject (bit port code index : Nat) (f : FieldDie) : FieldDie :=
  (((f.put F_STR_EVT_INFO_port port).put F_STR_EVT_INFO_code code).put F_STR_EVT_INFO_index index).raise F_STR_EVT bit

/-- What a rejected entry `e` of instance `inst` of the table at `base` raises; nothing when it passes its checks. -/
def entryReject (base inst e : Nat) (f : FieldDie) : Option (FieldDie → FieldDie) :=
  if base = 0x400000 then
    if expRejected f e then some (fun f => (f.put F_PWR_EVT_INFO_index e).raise F_PWR_EVT 0) else none
  else if base = 0x420000 then
    (formatCheck f e).map (fun c f => ((f.put F_CLS_EVT_INFO_code c).put F_CLS_EVT_INFO_index e).raise F_CLS_EVT 0)
  else if base = 0x440000 then
    (ruleCheck f e).map (fun c f => ((f.put F_CLS_EVT_INFO_code c).put F_CLS_EVT_INFO_index e).raise F_CLS_EVT 1)
  else if base = 0x480000 then
    (fdbCheck f e).map (fun c f => ((f.put F_FWD_EVT_INFO_code c).put F_FWD_EVT_INFO_index e).raise F_FWD_EVT 1)
  else if base = 0x4D0000 then
    if e = 0 ∨ e = 4095 then
      some (fun f => ((f.put F_FWD_EVT_INFO_code 0x10).put F_FWD_EVT_INFO_index e).raise F_FWD_EVT 1)
    else none
  else if base = 0x510000 then (streamCheck f e).map (fun c => strReject 1 (f.get F_STR_EVT_INFO_port) c e)
  else if base = 0x530000 then
    if 2500000 < bitsOf (f.rdN (meterAddr e 0)) 23 0 ∨ 2500000 < bitsOf (f.rdN (meterAddr e 1)) 23 0 then
      some (strReject 1 (f.get F_STR_EVT_INFO_port) 0x10 e)
    else none
  else if base = 0x550000 then
    let start := f.rdN (0x550000 + 16 * e + 4)
    let stop := f.rdN (0x550000 + 16 * e + 8)
    if stop < start + 8 then some (strReject 0 (f.get F_STR_EVT_INFO_port) 0x20 e)
    else if 1000000000 ≤ start then some (strReject 1 (f.get F_STR_EVT_INFO_port) 0x21 e)
    else none
  else if base = 0x560000 then
    if f.rdN (gclAddr inst e 1) = 0 then some (strReject 0 inst 0x30 e)
    else if bitsOf (f.rdN (gclAddr inst e 0)) 25 24 = 3 then some (strReject 1 inst 0x31 e)
    else none
  else if base = 0x590000 then
    if bitsOf (f.rdN (0x590000 + 8 * e)) 23 0 = 0 then some (fun f => (f.put F_TIM_EVT_INFO_index (e / 16)).raise F_TIM_EVT 10)
    else none
  else none

/-- An accepted filtering-database entry: a learned entry elsewhere with its address and vid goes (R433). -/
def fdbBecameValid (i : Nat) (f : FieldDie) : FieldDie :=
  let e := f.fdb i
  let others := (fdbCands e.mac e.vid).filter (fun j =>
    j != i && (f.fdb j).valid && !(f.fdb j).isStatic && (f.fdb j).mac == e.mac && (f.fdb j).vid == e.vid)
  fdbRecount (forAll others fdbInvalidate f)

/-- What follows when entry `e` of the table at `base` becomes valid. -/
def entryAccepted (base e : Nat) (f : FieldDie) : FieldDie :=
  if base = 0x480000 then fdbBecameValid e f
  else if base = 0x530000 then meterFill e (hasBit (f.rdN (meterAddr e 0)) 28) f
  else f

/-! ### Writes -/

/-- The writable bits of the table word at `addr`: the shaper entries of P16 are reserved (R513). -/
def wordMask (t : TblRow) (addr : Nat) : Nat :=
  if t.base = 0x580000 ∧ 128 ≤ t.entryIdx addr then 0 else entryMask t.base (t.wordIdx addr)

/-- Store a word of a table entry: its bit errors go with the old content (Table 22.1), and every write to a
filtering-database entry is a change for the state record (R424). -/
def storeTable (t : TblRow) (addr data : Nat) (f : FieldDie) : FieldDie :=
  let f := f.wrN addr (Nat.land data (wordMask t addr))
  let f := if t.base = 0x480000 then fdbChanged (t.entryIdx addr) true f else f
  { f with flt := { f.flt with badWords := f.flt.badWords.filter (fun b => b.1 != addr) } }.touchProof

/-- A write to the valid word of a multi-word entry, with its valid bit as written (R285, R286). -/
def writeValidWord (t : TblRow) (addr data : Nat) (f : FieldDie) : FieldDie :=
  let e := t.entryIdx addr
  let was := hasBit (f.rdN addr) 31
  let f := storeTable t addr data f
  if hasBit data 31 then
    match entryReject t.base (t.instIdx addr) e f with
    | some ev => ev (f.wrN addr (clrBit (f.rdN addr) 31))
    | none => entryAccepted t.base e f
  else if was ∧ t.base = 0x480000 then fdbRecount f
  else if was ∧ t.base = 0x400000 then closeExposure e f
  else f

/-- A word written to a table (R285 to R288, R845). -/
def tableWrite (req addr data : Nat) (f : FieldDie) : FieldDie :=
  match tblRow addr with
  | none => f
  | some t =>
    if t.kind = .hw then f
    else if t.words = 1 then
      let f := storeTable t addr data f
      if t.base = 0x580000 then
        let i := t.entryIdx addr
        { f with str := { f.str with resid := Store.set (fun _ => (0 : Int)) f.str.resid i 0 } }.wr (creditAddr (i / 8) (i % 8)) 0
      else f
    else
      let base := t.entryBase addr
      let live := hasBit (f.rdN base) 31
      if addr = base then
        if live ∧ hasBit data 31 then (noteAccess req addr f).raise F_CFG_EVT 5 else writeValidWord t addr data f
      else if live then (noteAccess req addr f).raise F_CFG_EVT 5
      else storeTable t addr data f

/-- TABLE_ENTRY_WRITE (R285). -/
def execTableEntryWrite (req addr : Nat) (data : Word) (s : State) : Host.Outcome State Fault Refusal :=
  s.onWrite req (tableWrite req addr data.toNat)

/-- The address of word 0 of the table entry that holds address `a`; `a` itself where there is none. -/
def wordEntry (a : Nat) : Nat :=
  match tblRow a with
  | some t => t.entryBase a
  | none => a

/-- The words of a table run by the table entry that they belong to, whatever entries the run counts. -/
def runEntries : List (Nat × Nat) → List (Nat × List (Nat × Nat))
  | [] => []
  | x :: xs =>
    match runEntries xs with
    | (b, ys) :: rest => if wordEntry x.1 = b then (b, x :: ys) :: rest else (wordEntry x.1, [x]) :: (b, ys) :: rest
    | [] => [(wordEntry x.1, [x])]

/-- Write the words that an image gives the entry at `b`, its valid bit last (R206). An entry that is valid already, and
of which the run names only other words, is replaced in the same way. -/
def writeEntry (b : Nat) (xs : List (Nat × Nat)) (f : FieldDie) : FieldDie :=
  match tblRow b with
  | none => f
  | some t =>
    if t.words = 1 then forAll xs (fun x f => tableWrite 0x41 x.1 x.2 f) f
    else
      let head := ((xs.find? (fun x => x.1 == b)).map (fun x => x.2)).getD (f.rdN b)
      let f := tableWrite 0x41 b (clrBit head 31) f
      let f := forAll (xs.filter (fun x => x.1 != b)) (fun x f => tableWrite 0x41 x.1 x.2 f) f
      if hasBit head 31 then tableWrite 0x41 b head f else f

/-- Apply a table run: entry `i` of it lies at `a + stride * i`. -/
def applyRun (a stride : Nat) (es : List (List Nat)) (f : FieldDie) : FieldDie :=
  let xs := (List.range es.length).flatMap (fun i =>
    let ws := es.getD i []
    (List.range ws.length).map (fun k => (a + stride * i + 4 * k, ws.getD k 0)))
  forAll (runEntries xs) (fun e f => writeEntry e.1 e.2 f) f

end Sys2Proof.Machine
end

