-- ==== Sys2Proof/Machine/Key.lean ====
section
/-! DEFINITION. The Ndory identity key and its reader (chapter 5): the NDK-64's memory and custom commands, and the
reader's transactions. -/

namespace Sys2Proof.Machine

/-! ### The key (R193 to R196, R222 to R225, R232 to R234) -/

/-- A byte of the key's memory. -/
def KeyChip.byte (k : KeyChip) (a : Nat) : Byte := Store.get (fun _ => 0xFF) k.mem a

/-- `n` bytes of the key's memory from address `a`. -/
def KeyChip.bytes (k : KeyChip) (a n : Nat) : List Byte := (List.range n).map (fun i => k.byte (a + i))

/-- Program bytes into the key's memory. -/
def KeyChip.program : Nat → List Byte → KeyChip → KeyChip
  | _, [], k => k
  | a, b :: bs, k => KeyChip.program (a + 1) bs { k with mem := Store.set (fun _ => 0xFF) k.mem a b }

/-- First address of a slot (Table 5.2). DESIGN CHOICE (log entry 117): an active byte of a valid pointer copy that is
neither 0 nor 1 names slot 1, and F_KEY_STAT.active shows its lowest bit. -/
def slotBase (slot : Nat) : Nat := if slot = 0 then 0x0800 else 0x8800

/-- First address of a pointer copy. -/
def ptrBase (copy : Nat) : Nat := 0x0100 + 32 * copy

/-- Rewrite the transaction record (Table 5.4). -/
def KeyChip.record (txn code status : Nat) (k : KeyChip) : KeyChip :=
  let r := bytesLE txn ++ [BitVec.ofNat 8 code, BitVec.ofNat 8 status] ++ List.replicate 22 0xFF
  k.program 0x0140 (r ++ bytesLE (crc32c r))

/-- Whether a persistent command is a repetition of the one recorded (R233). -/
def KeyChip.repeated (k : KeyChip) (txn code : Nat) : Bool :=
  leBytes (k.bytes 0x0140 4) == txn && (k.byte 0x0144).toNat == code

/-- The answer to a repeated persistent command: the stored status. -/
def KeyChip.stored (k : KeyChip) : Nat × List Byte := ((k.byte 0x0145).toNat, [])

/-- The 256 bytes of the page buffer; a byte not loaded reads 0xFF. -/
def KeyChip.page (k : KeyChip) : List Byte := (List.range 256).map (fun i => Store.get (fun _ => 0xFF) k.buffer i)

/-- Load bytes into the page buffer. -/
def KeyChip.load : Nat → List Byte → KeyChip → KeyChip
  | _, [], k => k
  | o, b :: bs, k => KeyChip.load (o + 1) bs { k with buffer := Store.set (fun _ => 0xFF) k.buffer o b }

/-- The key executes command `cmd` of the reader and answers `ans`; the answer reaches the reader when the command is
the one it has out. -/
def State.keyDoes (s : State) (cmd : Nat × List Nat × List Byte) (k : KeyChip) (ans : Nat × List Byte) (f : FieldDie) : State :=
  { s with
    key := k
    fld := if f.key.cmd = some cmd then { f with key := { f.key with reply := some ans } } else f }

/-- The carrier is on only for the duration of a key transaction: the start-up read, or one that the reader has begun
(R189, R190). A presence poll's carrier comes and goes with its one command. -/
def carrierOn (f : FieldDie) : Bool :=
  !hasBit f.straps 1 && ((f.phase == .resolving && !f.pwr.waking) || (f.isRunning && f.key.op != 0))

/-- Whether the key takes a command that follows the inventory: it lies in the field, and the command is addressed to
its UID (Table 5.1). -/
def keyTakes (f : FieldDie) (k : KeyChip) : Bool := carrierOn f && k.present && f.key.uid == k.uid

/-- The key's answer to the inventory of the start-up read (Table 4.4 step 1): how many others answered. -/
def startAnswer (others : Nat) (uid : Nat) (f : FieldDie) : FieldDie :=
  { f with key := { f.key with seen := some others, uid := uid, tries := 0 } }

/-- INVENTORY (R193, R195): the key answers with its UID; the status says whether other keys answered too. -/
def execInventory (others : Nat) (s : State) : Host.Outcome State Fault Refusal :=
  if s.key.present ∧ carrierOn s.fld then
    if s.fld.phase = .resolving then .next { s with fld := startAnswer others s.key.uid s.fld }
    else .next (s.keyDoes (0x01, [], []) s.key (if others = 0 then 0 else 1, bytesLE s.key.uid ++ bytesLE (s.key.uid / 2 ^ 32)) s.fld)
  else .next s

/-- LOAD_BUFFER (R193): 32 bytes into the page buffer. -/
def execLoadBuffer (off : Nat) (data : List Byte) (s : State) : Host.Outcome State Fault Refusal :=
  if keyTakes s.fld s.key ∧ off + 32 ≤ 256 ∧ data.length = 32 then
    .next (s.keyDoes (0xC2, [off], data) (s.key.load off data) (0, []) s.fld)
  else .next s

/-- Whether the key programs a page of its buffer: the place exists and the buffer matches the CRC-32C (R222). -/
def KeyChip.pageOk (k : KeyChip) (slot page crc : Nat) : Bool :=
  decide (slot < 2) && decide (page < 120) && crc32c k.page == crc

/-- The page buffer programmed into its page, with the record, in one operation (R232). -/
def KeyChip.putPage (k : KeyChip) (txn slot page : Nat) : KeyChip :=
  (k.program (slotBase slot + 256 * page) k.page).record txn 0xC4 0

/-- PROGRAM_PAGE (R222, R232 to R234): the error code of a rejection is open. -/
def execProgramPage (txn slot page crc : Nat) (s : State) : Host.Outcome State Fault Refusal :=
  let k := s.key
  let cmd := (0xC4, [txn, slot, page, crc], [])
  if keyTakes s.fld k = false then .next s
  else if k.repeated txn 0xC4 then .next (s.keyDoes cmd k k.stored s.fld)
  else if k.pageOk slot page crc then .next (s.keyDoes cmd (k.putPage txn slot page) (0, []) s.fld)
  else
    let (v, f) := s.fld.free
    .next (s.keyDoes cmd k (v % 255 + 1, []) f)

/-- VERIFY_SLOT (R225): the CRC-32C of a slot over `size` bytes. -/
def execVerifySlot (slot size : Nat) (s : State) : Host.Outcome State Fault Refusal :=
  if keyTakes s.fld s.key ∧ slot < 2 ∧ size ≤ imageMax then
    .next (s.keyDoes (0xC6, [slot, size], []) s.key (0, bytesLE (crc32c (s.key.bytes (slotBase slot) size))) s.fld)
  else .next s

/-- A pointer copy written in one block operation, with the record (R223, R232). -/
def KeyChip.putPointer (k : KeyChip) (txn ptr : Nat) (data : List Byte) : KeyChip :=
  (k.program (ptrBase ptr) data).record txn 0xC8 0

/-- WRITE_POINTER (R223, R232, R233): a pointer copy in one block operation. -/
def execWritePointer (txn ptr : Nat) (data : List Byte) (s : State) : Host.Outcome State Fault Refusal :=
  let k := s.key
  let cmd := (0xC8, [txn, ptr], data)
  if keyTakes s.fld k = false ∨ 2 ≤ ptr ∨ data.length ≠ 32 then .next s
  else if k.repeated txn 0xC8 then .next (s.keyDoes cmd k k.stored s.fld)
  else .next (s.keyDoes cmd (k.putPointer txn ptr data) (0, []) s.fld)

/-- A page that an interruption leaves half programmed: its bytes and the record's are open (Table 5.7 step 3). -/
def tornPage (slot page : Nat) (f : FieldDie) (k : KeyChip) : FieldDie × KeyChip :=
  let (bs, f) := freeBytes 256 f
  let (r, f) := freeBytes 32 f
  (f, (k.program (slotBase slot + 256 * page) bs).program 0x0140 r)

/-- A pointer copy that an interruption leaves failing its crc, whatever else it holds; the record is open (R223). -/
def tornPointer (ptr : Nat) (f : FieldDie) (k : KeyChip) : FieldDie × KeyChip :=
  let (bs, f) := freeBytes 28 f
  let (v, f) := f.free
  let (r, f) := freeBytes 32 f
  (f, (k.program (ptrBase ptr) (bs ++ bytesLE (crc32c bs + 1 + v % (2 ^ 32 - 1)))).program 0x0140 r)

/-- The field collapses, or the key is removed, while command `c` is out (R166, R221, R223): the key has not begun it,
has completed it, or has been interrupted in it. A repeated or rejected command writes nothing. -/
def keyCutIn (c : Nat) (args : List Nat) (data : List Byte) (f : FieldDie) (k : KeyChip) : FieldDie × KeyChip :=
  let arg := fun (i : Nat) => args.getD i 0
  let (v, f) := f.free
  if v % 3 = 0 ∨ k.repeated (arg 0) c then (f, k)
  else if c = 0xC4 then
    if k.pageOk (arg 1) (arg 2) (arg 3) = false then (f, k)
    else if v % 3 = 1 then (f, k.putPage (arg 0) (arg 1) (arg 2)) else tornPage (arg 1) (arg 2) f k
  else if v % 3 = 1 then (f, k.putPointer (arg 0) (arg 1) data) else tornPointer (arg 1) f k

/-- What the key holds after it has lost its field: see `keyCutIn`; its page buffer is lost in any case. -/
def keyCut (f : FieldDie) (k : KeyChip) : FieldDie × KeyChip :=
  let r := match f.key.cmd with
    | some (c, args, data) =>
      if k.present = false ∨ f.key.reply.isSome ∨ (c ≠ 0xC4 ∧ c ≠ 0xC8) then (f, k) else keyCutIn c args data f k
    | none => (f, k)
  (r.1, { r.2 with buffer := [] })

/-! ### Reading a key (R196 to R201) -/

/-- Whether factory bytes name an NDK-64 (R196). -/
def factoryOk (b : List Byte) : Bool := wordAt b 0 == 0x40 + 64 * 65536

/-- Fields of a pointer copy (Table 5.3). -/
def ptrGen (p : List Byte) : Nat := wordAt p 1
def ptrActive (p : List Byte) : Nat := byteAt p 8
def ptrForced (p : List Byte) : Nat := leBytes ((p.drop 10).take 2)
def ptrLife (p : List Byte) (slot : Nat) : Nat := wordAt p (3 + slot)

/-- R197. -/
def ptrValid (p : List Byte) : Bool := wordAt p 0 == 0x4250444E && wordAt p 7 == crc32c (p.take 28)
def ptrBlank (p : List Byte) : Bool := p.all (fun b => b == 0xFF)

/-- The selected copy of two (R198). -/
def ptrSelect (a b : List Byte) : Option (List Byte) :=
  if ptrValid a then (if ptrValid b && decide (ptrGen a < ptrGen b) then some b else some a)
  else if ptrValid b then some b else none

/-- Whether ptr_single is set (R199). -/
def ptrSingle (a b : List Byte) : Bool := (ptrValid a || ptrValid b) && !(ptrValid a && ptrValid b && a == b)

/-- The two copies and the transaction record of the 96 bytes read. -/
def copyA (d : List Byte) : List Byte := d.take 32
def copyB (d : List Byte) : List Byte := (d.drop 32).take 32
def txnRecord (d : List Byte) : List Byte := (d.drop 64).take 32

/-- The registers that a read of the pointer copies fills (R212, R213). DESIGN CHOICE (log entry 118): with no valid
copy they show 0. -/
def fillKeyRegs (a b : List Byte) (f : FieldDie) : FieldDie :=
  let p := (ptrSelect a b).getD (List.replicate 32 0)
  let f := f.put F_KEY_STAT_blank (if ptrBlank a && ptrBlank b then 1 else 0)
  let f := (f.put F_KEY_STAT_active (ptrActive p)).put F_KEY_STAT_ptr_single (if ptrSingle a b then 1 else 0)
  let f := ((f.wrN F_KEY_GEN (ptrGen p)).wrN F_KEY_LIFE0 (ptrLife p 0)).wrN F_KEY_LIFE1 (ptrLife p 1)
  let f := f.wrN F_KEY_FORCED (ptrForced p)
  if ptrSingle a b then f.raise F_KEY_EVT 5 else f

/-- The registers that an answered inventory fills. -/
def fillKeyUid (uid : Nat) (f : FieldDie) : FieldDie :=
  ((f.wrN F_KEY_UID_LO uid).wrN F_KEY_UID_HI (uid / 2 ^ 32)).put F_KEY_STAT_present 1

/-- Whether a header carries the running unit identity (R203). -/
def ownUnit (f : FieldDie) (h : List Byte) : Bool :=
  headOk h && headUnit h == imageMac f ++ (List.range 4).flatMap (fun i => bytesLE (f.rdN (F_KEY_SERIAL i))) ++
    (List.range 8).flatMap (fun i => bytesLE (f.rdN (F_KEY_NAME i)))

/-! ### The reader's transactions -/

/-- Send a command to the key: every command after the inventory carries the key's UID (Table 5.1), and a custom command
the manufacturer code of that UID (R194). -/
def keySend (code : Nat) (args : List Nat) (data : List Byte) (f : FieldDie) : FieldDie :=
  let uid := if code = 0x01 then [] else [f.key.uid]
  let mfg := if 0xC0 ≤ code then [f.key.uid / 2 ^ 48 % 256] else []
  let f := f.napBreak
  { f with key := { f.key with cmd := some (code, args, data), reply := none, sentAt := f.now } }.emit
    (.keyCommand code (uid ++ mfg ++ args) data)

/-- Read `n` blocks of the key from block `b` (Table 5.1). -/
def keyRead (b n : Nat) (f : FieldDie) : FieldDie := keySend 0x33 [b, n] [] f

/-- Set the step of the running commit (Table 5.8). -/
def keyStep (step : Nat) (f : FieldDie) : FieldDie :=
  let f := { f with key := { f.key with step := step, part := 0, tries := 0 } }
  if keyCommitting f then f.put F_KEY_STAT_step step else f

/-- Write F_KEY_RESULT. -/
def keyResult (code step err page : Nat) (f : FieldDie) : FieldDie :=
  f.wrN F_KEY_RESULT (code * 2 ^ 24 + step * 2 ^ 20 + err * 2 ^ 8 + page)

/-- The transaction ends under `code` of Table 5.9; a waiting image becomes the staged one (R241, R275). -/
def keyEnd (code err : Nat) (f : FieldDie) : FieldDie :=
  let commit := keyCommitting f
  let f := keyResult code f.key.step err f.key.page f
  let f := { f with key := { f.key with op := 0, step := 0, part := 0, page := 0, off := 0, tries := 0, abort := false, cmd := none, reply := none } }
  let f := (f.put F_KEY_STAT_busy 0).put F_KEY_STAT_step 0
  if commit then
    let f := match f.cfg.build with
      | some img => { f with cfg := { f.cfg with image := img, build := none } }
      | none => f
    f.raise F_KEY_EVT (if code = 0 then 1 else 2)
  else f

/-- Start a transaction with its inventory. -/
def keyStart (op : Nat) (f : FieldDie) : FieldDie :=
  let f := { f with key := { f.key with op := op, failed := false, abort := false, page := 0, off := 0, rejects := 0 } }
  keySend 0x01 [] [] (keyStep 1 (f.put F_KEY_STAT_busy 1))

/-- The code under which a commit is refused at once (R218). DESIGN CHOICE (log entry 119): of several cases that hold
at once, the first of the list decides. -/
def commitRefused (f : FieldDie) : Option Nat :=
  if f.flag F_KEY_STAT_busy then some 0x09
  else if hasBit (f.rdN F_GLB_STRAP) 1 then some 0x0A
  else if f.flag F_CFG_PROOF_STAT_committed = false ∨ f.flag F_CFG_PROOF_STAT_stale then some 0x03
  else if f.flag F_KEY_STAT_image_big then some 0x06
  else none

/-- A request for a commit, forced or not (R217, R218). -/
def keyCommitRequest (op : Nat) (f : FieldDie) : FieldDie :=
  match commitRefused f with
  | some code => (keyResult code 0 0 0 f).raise F_KEY_EVT 2
  | none => keyStart op f

/-- A request to read the header (R213). -/
def keyHeaderRequest (f : FieldDie) : FieldDie :=
  if f.flag F_KEY_STAT_busy then f
  else if hasBit (f.rdN F_GLB_STRAP) 1 then keyResult 0x0A 0 0 0 f
  else keyStart 1 f

/-- A request for a key transaction ends the stop of presence polling, be it refused or not (R215). -/
def keyAsked (op : Nat) (f : FieldDie) : FieldDie :=
  if op = 1 ∨ op = 2 ∨ op = 3 then { f with key := { f.key with failed := false } } else f

/-- What op `op` of F_KEY_CMD asks for (R213, R217, R226). -/
def keyRequest (op : Nat) (f : FieldDie) : FieldDie :=
  if op = 1 then keyHeaderRequest f
  else if op = 2 ∨ op = 3 then keyCommitRequest op f
  else if op = 4 ∧ keyCommitting f ∧ f.key.step ≤ 4 then { f with key := { f.key with abort := true } }
  else f

/-- A write of F_KEY_CMD (R215, R217, R226). -/
def writeKeyCmd (req data : Nat) (f : FieldDie) : FieldDie :=
  if lkDenied f req F_KEY_CMD then lkReject req F_KEY_CMD f
  else keyRequest (bitsOf data 3 0) (keyAsked (bitsOf data 3 0) f)

/-- KEY_READ_HEADER (R213). -/
def execKeyReadHeader (req : Nat) (s : State) : Host.Outcome State Fault Refusal := s.onWrite req (writeKeyCmd req 1)

/-- KEY_COMMIT (R217). -/
def execKeyCommit (req : Nat) (s : State) : Host.Outcome State Fault Refusal := s.onWrite req (writeKeyCmd req 2)

/-- KEY_FORCED_COMMIT (R220). -/
def execKeyForcedCommit (req : Nat) (s : State) : Host.Outcome State Fault Refusal := s.onWrite req (writeKeyCmd req 3)

/-- KEY_ABORT (R226). -/
def execKeyAbort (req : Nat) (s : State) : Host.Outcome State Fault Refusal := s.onWrite req (writeKeyCmd req 4)

/-- Whether a presence poll is due: `poll` seconds after the last one, while no other transaction runs (R214, R215). -/
def pollDue (f : FieldDie) : Bool :=
  f.get F_KEY_CFG_poll != 0 && !f.flag F_KEY_STAT_busy && !f.key.failed && !hasBit (f.rdN F_GLB_STRAP) 1 && f.engineRuns 16 &&
  decide (f.key.pollAt + f.get F_KEY_CFG_poll * 1000 * msTicks ≤ f.now)

/-- What a presence poll finds: how many keys answer its inventory, and the UID of the one in the holder. Of several
none is used, and they count as a key that answered (R195). -/
def pollFound (answers uid : Nat) (f : FieldDie) : FieldDie :=
  if 2 ≤ answers then (f.put F_KEY_STAT_present 1).raise F_KEY_EVT 6
  else if f.flag F_KEY_STAT_present then
    if answers = 1 ∧ uid = f.rdN F_KEY_UID_LO + 2 ^ 32 * f.rdN F_KEY_UID_HI then f
    else (f.put F_KEY_STAT_present 0).raise F_KEY_EVT 4
  else if answers = 1 then fillKeyUid uid f
  else f

/-- KEY_PRESENCE_POLL (R214, R215): an inventory, and what it finds. -/
def presencePoll (answers uid : Nat) (f : FieldDie) : FieldDie :=
  if pollDue f then
    let f := f.napBreak
    pollFound answers uid ({ f with key := { f.key with pollAt := f.now } }.emit (.keyCommand 0x01 [] []))
  else f

/-- KEY_PRESENCE_POLL (R214): see `presencePoll`. -/
def execKeyPresencePoll (answers : Nat) (s : State) : Host.Outcome State Fault Refusal :=
  s.onRun (presencePoll (if s.key.present then answers else 0) s.key.uid)

/-! ### The commit's steps (Table 5.7) -/

/-- Load the next 32 bytes of the page (step 2). -/
def sendLoad (off : Nat) (f : FieldDie) : FieldDie :=
  let f := { f with key := { f.key with off := off } }
  keySend 0xC2 [off] (((imagePage f.cfg.image (256 * f.key.page)).drop off).take 32) f

/-- The transaction number after `t` (R235). -/
def txnNext (t : Nat) : Nat := if (t + 1) % 2 ^ 32 = 0 then 1 else (t + 1) % 2 ^ 32

/-- Take the next transaction number. -/
def takeTxn (f : FieldDie) : FieldDie :=
  let t := txnNext f.key.txn
  { f with key := { f.key with txn := t } }.wrN F_KEY_TXN t

/-- PROGRAM_PAGE of the present page (step 3). -/
def sendPage (f : FieldDie) : FieldDie :=
  keySend 0xC4 [f.key.txn, f.key.target, f.key.page, crc32c (imagePage f.cfg.image (256 * f.key.page))] [] f

/-- The pointer copy that a commit writes (step 5). DESIGN CHOICE (log entry 120): the count of forced commits wraps in
its 16 bits. -/
def newPointer (f : FieldDie) : List Byte :=
  let p := (ptrSelect (copyA f.key.ptrs) (copyB f.key.ptrs)).getD (List.replicate 32 0)
  let t := f.key.target
  let life := fun (k : Nat) => bytesLE (ptrLife p k + (if k = t then 1 else 0))
  let forced := ptrForced p + (if f.key.op = 3 then 1 else 0)
  let img := f.cfg.image
  let r := bytesLE 0x4250444E ++ bytesLE (ptrGen p + 1) ++ [BitVec.ofNat 8 t, 0] ++ (bytesLE forced).take 2 ++
    life 0 ++ life 1 ++ bytesLE img.length ++ img.drop (img.length - 4)
  r ++ bytesLE (crc32c r)

/-- Go from step 1 to the writing steps, or refuse (R219): `own` says that the active image carries the running unit
identity. -/
def openDone (own : Bool) (f : FieldDie) : FieldDie :=
  let a := copyA f.key.ptrs
  let b := copyB f.key.ptrs
  let blank := ptrBlank a && ptrBlank b
  let forced := f.key.op == 3
  let sel := ptrSelect a b
  let t := match sel with
    | some p => if ptrActive p = 0 then 1 else 0
    | none => 0
  let life := ptrLife (sel.getD (List.replicate 32 0)) t
  if !forced && !blank && sel.isNone then keyEnd 0x0E 0 f
  else if !forced && !blank && !own then keyEnd 0x08 0 f
  else if !forced && decide (95000 ≤ life) then keyEnd 0x04 0 f
  else if 100000 ≤ life then keyEnd 0x05 0 f
  else
    let f := { f with key := { f.key with target := t, page := 0, txn := wordAt (txnRecord f.key.ptrs) 0 } }
    sendLoad 0 (keyStep 2 f)

/-- The reads of step 1, and those of a header read (R212, R221), as their answers arrive: 0 inventory, 1 system
information, 2 factory block, 3 pointer copies and transaction record, 4 header of the active slot. -/
def openReply (status : Nat) (d : List Byte) (f : FieldDie) : FieldDie :=
  let next := fun (p : Nat) (f : FieldDie) => { f with key := { f.key with part := p, tries := 0 } }
  if f.key.part = 0 then
    let uid := leBytes (d.take 8)
    if status = 0 then keySend 0x3B [] [] (next 1 (fillKeyUid uid { f with key := { f.key with uid := uid } }))
    else keyEnd 0x0B 0 ((f.put F_KEY_STAT_present 1).raise F_KEY_EVT 6)
  else if f.key.part = 1 then
    if wordAt d 0 = 32 ∧ wordAt d 1 = 2048 then keyRead 0 1 (next 2 f) else keyEnd 0x0C 0 f
  else if f.key.part = 2 then
    if factoryOk d then keyRead 8 (if keyCommitting f then 3 else 2) (next 3 f) else keyEnd 0x0C 0 f
  else if f.key.part = 3 then
    let f := fillKeyRegs (copyA d) (copyB d) { f with key := { f.key with ptrs := d } }
    match ptrSelect (copyA d) (copyB d) with
    | some p => keyRead (slotBase (ptrActive p) / 32) 4 (next 4 f)
    | none =>
      if keyCommitting f then openDone false f
      else keyEnd (if ptrBlank (copyA d) && ptrBlank (copyB d) then 0 else 0x0E) 0 f
  else if keyCommitting f then openDone (ownUnit f d) f
  else keyEnd 0 0 f

/-- Repeat the command that is out, within the retries, or end the transaction under `code` (R230). -/
def keyRetry (code err : Nat) (f : FieldDie) : FieldDie :=
  if f.key.tries < f.get F_KEY_CFG_retries then
    let f := { f with key := { f.key with tries := f.key.tries + 1 } }
    match f.key.cmd with
    | some (c, args, data) => keySend c args data f
    | none => f
  else keyEnd code err f

/-- Repeat steps 2 and 3 for a rejected page, within the retries (R231). -/
def pageRetry (err : Nat) (f : FieldDie) : FieldDie :=
  if f.key.tries < f.get F_KEY_CFG_retries then
    let n := f.key.tries + 1
    let f := keyStep 2 f
    sendLoad 0 { f with key := { f.key with rejects := n } }
  else keyEnd 0x02 err f

/-- Step 7 has read both copies back. -/
def closeReply (d : List Byte) (f : FieldDie) : FieldDie :=
  let p := copyA d
  if ptrValid p ∧ copyB d = p ∧ ptrActive p = f.key.target then
    let f := fillKeyRegs p p f
    let f := if 90000 ≤ ptrLife p f.key.target then f.raise F_KEY_EVT 3 else f
    keyEnd 0 0 f
  else keyEnd 0x07 0 f

/-- The key's answer to the command that is out: the transaction proceeds (R221). DESIGN CHOICE (log entry 121): the
PROGRAM_PAGE that repeats a rejected one (R231) carries the same transaction number, as repetitions under R230 do. -/
def keyReplied (status : Nat) (d : List Byte) (f : FieldDie) : FieldDie :=
  let step := f.key.step
  let last := (f.cfg.image.length + 255) / 256 ≤ f.key.page + 1
  if f.key.abort ∧ step ≤ 4 then keyEnd 0x0D 0 f
  else if step = 1 then openReply status d f
  else if step = 3 ∧ status ≠ 0 then pageRetry status f
  else if status ≠ 0 then keyRetry 0x02 status f
  else if step = 2 then
    if f.key.off + 32 < 256 then
      sendLoad (f.key.off + 32) { f with key := { f.key with tries := 0 } }
    else
      let n := f.key.rejects
      let f := keyStep 3 f
      sendPage (if n = 0 then takeTxn f else { f with key := { f.key with tries := n } })
  else if step = 3 then
    if last then keySend 0xC6 [f.key.target, f.cfg.image.length] [] (keyStep 4 f)
    else sendLoad 0 (keyStep 2 { f with key := { f.key with page := f.key.page + 1, rejects := 0 } })
  else if step = 4 then
    if wordAt d 0 = crc32c f.cfg.image then
      let f := takeTxn (keyStep 5 f)
      keySend 0xC8 [f.key.txn, 0] (newPointer f) f
    else keyEnd 0x07 0 f
  else if step = 5 then
    let f := takeTxn (keyStep 6 f)
    keySend 0xC8 [f.key.txn, 1] (newPointer f) f
  else if step = 6 then keyRead 8 2 (keyStep 7 f)
  else if step = 7 then closeReply d f
  else f

/-- What the key has to say to the command that is out: reads and system information come from its memory, the other
answers from the commands that the key has executed. -/
def keyAnswer (k : KeyChip) (f : FieldDie) : Option (Nat × List Byte) :=
  match f.key.cmd with
  | some (c, args, _) =>
    if c = 0x33 then (if keyTakes f k then some (0, k.bytes (32 * args.getD 0 0) (32 * args.getD 1 0)) else none)
    else if c = 0x3B then (if keyTakes f k then some (0, bytesLE 32 ++ bytesLE 2048) else none)
    else f.key.reply
  | none => none

/-- When the carrier goes off, the key's page buffer is lost (R189). -/
def carrierOff (f : FieldDie) (k : KeyChip) : KeyChip := if f.key.op = 0 then { k with buffer := [] } else k

/-- The fine tick up to which the reader waits for an answer: 80 ms after VERIFY_SLOT, 20 ms after every other command
(R230). -/
def replyLimit (f : FieldDie) : Nat :=
  f.key.sentAt + (if (f.key.cmd.map (fun c => c.1)) = some 0xC6 then 80 else 20) * msTicks

/-- KEY_REPLY (R221): the key's answer arrives within the wait. -/
def execKeyReply (s : State) : Host.Outcome State Fault Refusal :=
  match keyAnswer s.key s.fld with
  | some (st, d) =>
    if s.fld.isRunning ∧ s.fld.key.op ≠ 0 ∧ s.fld.engineRuns 16 ∧ s.fld.now ≤ replyLimit s.fld then
      let f := keyReplied st d s.fld
      .next { s with fld := settle f, key := carrierOff f s.key }
    else .next s
  | none => .next s

/-- No answer has come in time (R219, R230). -/
def keySilent (f : FieldDie) : FieldDie :=
  if f.key.abort ∧ f.key.step ≤ 4 then keyEnd 0x0D 0 f
  else if f.key.step = 1 ∧ f.key.part = 0 then
    if f.key.tries < f.get F_KEY_CFG_retries then keyRetry 0x01 0 f else keyEnd 0x01 0 (f.put F_KEY_STAT_present 0)
  else keyRetry 0x02 0 f

/-- No answer has come in the start-up read: after the retries no key has answered, or the one that answered is lost. -/
def startSilent (f : FieldDie) : FieldDie :=
  if f.key.tries < f.get F_KEY_CFG_retries then { f with key := { f.key with tries := f.key.tries + 1 } }
  else { f with key := { f.key with gone := true } }

/-- The field die becomes `g` of what it was; a transaction that this ends takes the field from the key in the middle of
whatever the key was doing (R221). -/
def State.keyMayStop (s : State) (g : FieldDie → FieldDie) : Host.Outcome State Fault Refusal :=
  if s.fld.key.op ≠ 0 ∧ (g s.fld).key.op = 0 then
    .next { s with fld := settle (g (keyCut s.fld s.key).1), key := (keyCut s.fld s.key).2 }
  else .next { s with fld := settle (g s.fld) }

/-- KEY_REPLY_TIMEOUT (R230): no answer within the wait. -/
def execKeyReplyTimeout (s : State) : Host.Outcome State Fault Refusal :=
  if s.fld.phase = .resolving ∧ carrierOn s.fld then .next { s with fld := startSilent s.fld }
  else if s.fld.isRunning ∧ s.fld.key.op ≠ 0 ∧ s.fld.key.cmd.isSome ∧ s.fld.engineRuns 16 ∧ replyLimit s.fld ≤ s.fld.now then
    s.keyMayStop keySilent
  else .next s

end Sys2Proof.Machine
end

