-- ==== Sys2Proof/Machine/StateTables.lean ====
section
/-! DEFINITION. State tables (chapter 21, R829 to R832): the invariants of Table 21.9 and the commit of an admin table.
The commands of this model carry out the vendor contents' behaviour; a table that software installs changes the
operational table and no behaviour (log entry 5). -/

namespace Sys2Proof.Machine

/-- Word `w` of state `st` of machine `m` in the admin table, and the operational table's word. -/
def adminTblAddr (m st w : Nat) : Nat := 0x410000 + 0x800 * m + 0x40 * st + 4 * w
def operTblAddr (m st w : Nat) : Nat := 0x414000 + 0x800 * m + 0x40 * st + 4 * w

/-- The state word and the valid transition words of an admin state (Table 21.8). -/
def adminState (f : FieldDie) (m st : Nat) : Nat := f.rdN (adminTblAddr m st 0)
def transitions (f : FieldDie) (m st : Nat) : List Nat :=
  ((List.range 8).map (fun i => f.rdN (adminTblAddr m st (1 + i)))).filter (fun w => hasBit w 31)

def stateValid (f : FieldDie) (m st : Nat) : Bool := hasBit (adminState f m st) 31
def stateRest (f : FieldDie) (m st : Nat) : Bool := stateValid f m st && hasBit (adminState f m st) 30
def validStates (f : FieldDie) (m : Nat) : List Nat := (List.range 32).filter (stateValid f m)

/-- Fields of a transition word. -/
def transNext (w : Nat) : Nat := bitsOf w 28 24
def transGuard (w : Nat) : Nat := bitsOf w 23 16

/-- I1: every valid transition names a valid state. -/
def inv1 (f : FieldDie) (m : Nat) : Bool :=
  (validStates f m).all (fun st => (transitions f m st).all (fun w => stateValid f m (transNext w)))

/-- Whether a transition of state `st` is taken without an event: guard 0x00, or the timeout guard with a timeout. -/
def ownTransition (f : FieldDie) (m st w : Nat) : Bool :=
  transGuard w == 0 || (transGuard w == 1 && bitsOf (adminState f m st) 23 0 != 0)

/-- I2: every valid state but the rest state has such a transition. -/
def inv2 (f : FieldDie) (m : Nat) : Bool :=
  (validStates f m).all (fun st => stateRest f m st || (transitions f m st).any (ownTransition f m st))

/-- Whether state `st` reaches the rest state within `k` steps of guards 0x00 and 0x01: the states that reach it grow
step by step. -/
def reaching (f : FieldDie) (m : Nat) : Nat → List Nat
  | 0 => (List.range 32).filter (stateRest f m)
  | k + 1 =>
    let prev := reaching f m k
    (validStates f m).filter (fun st => prev.contains st ||
      (transitions f m st).any (fun w => decide (transGuard w ≤ 1) && prev.contains (transNext w)))

/-- I3: every valid state reaches the rest state within 32 steps. -/
def inv3 (f : FieldDie) (m : Nat) : Bool :=
  let r := reaching f m 32
  (validStates f m).all (fun st => r.contains st)

/-- I4: guards and actions are those of the vendor entries, and exactly one state is the rest state. The vendor's
codes beyond 0x00 and 0 are open. -/
def inv4 (f : FieldDie) (m : Nat) : Bool :=
  (validStates f m).all (fun st => (transitions f m st).all (fun w =>
    (transGuard w == 0 || Config.vendorGuard m (transGuard w)) && (bitsOf w 15 0 == 0 || Config.vendorAction m (bitsOf w 15 0)))) &&
  ((List.range 32).filter (stateRest f m)).length == 1

/-- The states of machine `m` that its running instances are in (R831): the ports' states, the key step, the twin role,
the power state. -/
def runningStates (f : FieldDie) (m : Nat) : List Nat :=
  if m = 0 then (List.range 16).map (portState f)
  else if m = 1 then [if f.key.op = 0 then 0 else if f.key.op = 1 then 8 else f.key.step]
  else if m = 2 then [f.role]
  else [f.get F_PWR_STATE_state]

/-- The result of the check of machine `m` (Table 21.9). -/
def checkResult (f : FieldDie) (m : Nat) (force : Bool) : Nat :=
  let code := if inv1 f m = false then 1 else if inv2 f m = false then 2 else if inv3 f m = false then 3
    else if inv4 f m = false then 4 else 0
  if (runningStates f m).all (stateValid f m) = false then (if code = 0 ∨ force then 5 else code)
  else if code ≠ 0 ∧ force then 6 else code

/-- Copy the admin table of machine `m` to its operational table (R831). -/
def installTable (m : Nat) (f : FieldDie) : FieldDie :=
  let f := forRange 32 (fun st f => forRange 16 (fun w f => f.wr (operTblAddr m st w) (f.rd (adminTblAddr m st w))) f) f
  { f with flt := { f.flt with badWords := f.flt.badWords.filter (fun b => !(decide (operTblAddr m 0 0 ≤ b.1) && decide (b.1 < operTblAddr m 32 0))) } }

/-- A write of F_FLT_ST_COMMIT (R830). -/
def writeStCommit (data : Nat) (f : FieldDie) : FieldDie :=
  if hasBit data 31 = false ∨ f.flag F_FLT_ST_STAT_busy then f
  else
    let f := { f with flt := { f.flt with stChecking := some (bitsOf data 1 0, hasBit data 30) } }
    (f.put F_FLT_ST_STAT_busy 1).put F_FLT_ST_STAT_machine (bitsOf data 1 0)

/-- STATE_TABLE_COMMIT (R830). -/
def execStateTableCommit (req : Nat) (data : Word) (s : State) : Host.Outcome State Fault Refusal :=
  s.onWrite req (writeStCommit data.toNat)

/-- Set or clear the unchecked bit of machine `m`. -/
def setUnchecked (m : Nat) (on : Bool) (f : FieldDie) : FieldDie :=
  let u := f.get F_FLT_ST_STAT_unchecked
  f.put F_FLT_ST_STAT_unchecked (if on then setBit u m else clrBit u m)

/-- The check is done (R831, R832). -/
def stCheckDone (f : FieldDie) : FieldDie :=
  match f.flt.stChecking with
  | none => f
  | some (m, force) =>
    let code := checkResult f m force
    let f := { f with flt := { f.flt with stChecking := none } }
    let f := (f.put F_FLT_ST_STAT_busy 0).put F_FLT_ST_STAT_result code
    if code = 0 then setUnchecked m false (installTable m f)
    else if code = 6 then setUnchecked m true (installTable m f)
    else f.raise F_FLT_EVT2 1

/-- STATE_TABLE_CHECK_DONE (R831). -/
def execStateTableCheckDone (s : State) : Host.Outcome State Fault Refusal := s.onRun stCheckDone

end Sys2Proof.Machine
end

