-- ==== Sys2Proof/Machine/Reset.lean ====
section
/-! DEFINITION. The line front end, the field-die resets, and start-up as far as initialisation (chapters 2 and 4). -/

namespace Sys2Proof.Machine

/-! ### The line (R76, R80, R82) -/

/-- What a comparator with its threshold between `lo` and `hi` does with a level that has risen to `v`: it answers
surely outside that range, and either way within it. -/
def risesPast (lo hi v : Nat) (f : FieldDie) : Bool × FieldDie :=
  if hi < v then (true, f) else if v < lo then (false, f) else (hasBit f.free.1 0, f.free.2)

/-- As above for a level that has fallen to `v`. -/
def fallsPast (lo hi v : Nat) (f : FieldDie) : Bool × FieldDie :=
  if v < lo then (true, f) else if hi < v then (false, f) else (hasBit f.free.1 0, f.free.2)

/-- PD_EN is released high: some line is on, no over-voltage, and not in darkroom. DESIGN CHOICE (log entry 114): Table
2.11 names only the over-voltage turn-off of the line rising; here it forces PD_EN low, and one over-voltage state stands
for both lines, so that over-voltage of either turns the supply of both off. -/
def pdEn (f : FieldDie) : Bool := f.pwr.lineLive.any id && !f.pwr.ov && !f.pwr.dark

/-- The resistors of Table 2.10, ohms, for the codes 6 to 15. -/
def classOhms : List Nat := [10000, 12700, 16200, 20500, 26100, 33200, 42200, 53600, 68100, 86600]

/-- The class code that a PD_CLASS resistance selects: 0 when the SCCP response is disabled (R79). -/
def classCode (r : Option Nat) : Nat :=
  match r with
  | none => 0
  | some v =>
    match (List.range 10).find? (fun i =>
        let c := classOhms.getD i 0
        decide (97 * c ≤ 100 * v) && decide (100 * v ≤ 103 * c)) with
    | some i => 6 + i
    | none => 0

/-- Line `n` is above its turn-on threshold, or not; line_live shows it (R305). -/
def setAbove (n : Nat) (on : Bool) (f : FieldDie) : FieldDie :=
  showPodl n (F_PORT_PODL_line_live n) (if on then 1 else 0) { f with pwr := { f.pwr with
    lineAbove := modAt f.pwr.lineAbove n (fun _ => on) } }

/-- Line `n` rises to `mv`: above the turn-on threshold it is live, and an application that begins with it reads the
class resistor (R80). -/
def lineOn (n mv : Nat) (r : Option Nat) (f : FieldDie) : FieldDie :=
  if lineAbove f n then f
  else
    let (on, f) := risesPast 18000 19500 mv f
    if on = false then f
    else
      let cls := if f.pwr.lineOff.getD n true then classCode r else f.pwr.lineClass.getD n 0
      let f := { f with pwr := { f.pwr with
        lineLive := modAt f.pwr.lineLive n (fun _ => true)
        lineOff := modAt f.pwr.lineOff n (fun _ => false)
        lineClass := modAt f.pwr.lineClass n (fun _ => cls) } }
      let f := if f.powered || f.phase == .released then f.put (F_PORT_PODL_class n) cls else f
      setAbove n true f

/-- LINE_TURN_ON (R82). -/
def execLineTurnOn (line mv : Nat) (classOhms : Option Nat) (s : State) : Host.Outcome State Fault Refusal :=
  s.onField (fun f => if line < 2 then lineOn line mv classOhms f else f)

/-- The turn-off comparator of line `n` at a level that has fallen to `mv`: past it PD_EN loses this line, and the next
rise past turn-on begins an application. -/
def lineOffAt (n mv : Nat) (f : FieldDie) : FieldDie :=
  let (off, f) := fallsPast 16000 17500 mv f
  if off then { f with pwr := { f.pwr with
    lineLive := modAt f.pwr.lineLive n (fun _ => false)
    lineOff := modAt f.pwr.lineOff n (fun _ => true) } }
  else f

/-- The turn-on comparator of line `n` at a level that has fallen to `mv`: the line is no longer above the turn-on
threshold, and a trunk whose other line it is requests wake from PoDL sleep by PODL_WAKE_REQ (R305 to R307). -/
def lineBelow (n mv : Nat) (f : FieldDie) : FieldDie :=
  if lineAbove f n = false then f
  else
    let (below, f) := fallsPast 18000 19500 mv f
    if below then setAbove n false f else f

/-- Line `n` falls to `mv`. -/
def lineDown (n mv : Nat) (f : FieldDie) : FieldDie :=
  if lineLive f n = false then f else lineOffAt n mv (lineBelow n mv f)

/-- LINE_TURN_OFF (R82): with no line left, PD_EN goes low and the board's converter stops. -/
def execLineTurnOff (line mv : Nat) (s : State) : Host.Outcome State Fault Refusal :=
  s.onField (fun f => if line < 2 then lineDown line mv f else f)

/-- OVER_VOLTAGE_TURN_OFF (R82). What it turns off is log entry 114's: see `pdEn`. -/
def execOverVoltageTurnOff (mv : Nat) (s : State) : Host.Outcome State Fault Refusal :=
  s.onField (fun f =>
    if f.pwr.ov then f else let (b, f) := risesPast 61000 64000 mv f; { f with pwr := { f.pwr with ov := b } })

/-- OVER_VOLTAGE_RECOVERY (R82). -/
def execOverVoltageRecovery (mv : Nat) (s : State) : Host.Outcome State Fault Refusal :=
  s.onField (fun f =>
    if f.pwr.ov then let (b, f) := fallsPast 60500 63000 mv f; { f with pwr := { f.pwr with ov := !b } } else f)

/-- SCCP_EXCHANGE (R305): an exchange with the power source of trunk `n` leaves the state idle, classified or powered.
PoDL sleep and its end have commands of their own. With the response disabled there is no exchange (R79). -/
def execSccpExchange (n state : Nat) (s : State) : Host.Outcome State Fault Refusal :=
  s.onField (fun f => if n < 2 ∧ state < 3 ∧ f.pwr.lineClass.getD n 0 ≠ 0 then setSccp n state f else f)

/-! ### Resets of the field die (R67, R162 to R166) -/

/-- What the front end holds in `PwrX` whatever becomes of the die. -/
def linePwr (p : PwrX) : PwrX :=
  { lineLive := p.lineLive, lineAbove := p.lineAbove, lineOff := p.lineOff, lineClass := p.lineClass, sccp := p.sccp, ov := p.ov }

/-- What the front end and the safelight domain hold in `PwrX` through every reset but a cold one: the coarse timekeeper,
and what a darkroom entry captured (R116, R162). -/
def keptPwr (p : PwrX) : PwrX :=
  { linePwr p with sl := p.sl, vddSl := p.vddSl, mask := p.mask, tc10 := p.tc10, wakeTick := p.wakeTick, resumeAt := p.resumeAt }

/-- What the safelight domain keeps of the time unit: the snapshot of a darkroom entry (R116, R587). -/
def keptTime (t : TimeX) : TimeX :=
  { darkA := t.darkA, darkB := t.darkB, darkC := t.darkC, darkN0 := t.darkN0, darkCal := t.darkCal, darkDelta := t.darkDelta,
    darkActive := t.darkActive, darkSlave := t.darkSlave }

/-- The levels at the pins, which no reset changes. -/
def keptPins (p : PinX) : PinX := { pads := p.pads, twinIn := p.twinIn }

/-- A field-die reset begins: everything but the registers marked SL, the rest of the safelight domain, the front end and
the pads is lost (R162). -/
def resetField (f : FieldDie) : FieldDie :=
  { order := f.order
    dieId := f.dieId
    straps := f.straps
    resetBy := f.resetBy
    reg := f.reg.filter (fun e => isSl e.1)
    pwr := keptPwr f.pwr
    tim := keptTime f.tim
    pin := keptPins f.pin
    freeCtr := f.freeCtr
    out := f.out }

/-- Whether the internal reset is released. -/
def released (f : FieldDie) : Bool := f.powered || f.phase == .released

/-- What a loss of the fabric leaves in the serial flash: the unit or page of a running operation is open (R756). -/
def flashCut (f : FieldDie) (m : List (Nat × Byte)) : FieldDie × List (Nat × Byte) :=
  if f.spi.flash = 0 then (f, m)
  else
    let (a, n) := if f.spi.flash = 1 then (resumeAddr f f.spi.flashAt / eraseUnit f * eraseUnit f, eraseUnit f)
      else (resumeAddr f f.spi.flashAt, 256)
    let (bs, f) := freeBytes n f
    (f, flashStore a bs m)

/-- The fabric stops and becomes `g` of what it was: a flash operation is cut off, and the key loses its field in the
middle of whatever it was doing (R166, R221). -/
def State.fabricStops (s : State) (g : FieldDie → FieldDie) : Host.Outcome State Fault Refusal :=
  let c := flashCut s.fld s.flash
  let k := keyCut c.1 s.key
  .next { s with fld := g k.1, flash := c.2, key := k.2 }

/-- A reset trigger of cause bit `bit` that has certainly come about, while the internal reset is released (R163). -/
def State.fieldReset (s : State) (bit : Nat) : Host.Outcome State Fault Refusal :=
  s.fabricStops (fun f => resetField { f with resetBy := setBit f.resetBy bit })

/-- A trigger that has either come about completely or not at all (R91). -/
def State.resetIf (s : State) (seen : Bool) (bit : Nat) : Host.Outcome State Fault Refusal :=
  if seen then s.fieldReset bit else .next s

/-- A low of `lowNs` at a pin whose trigger needs more than `ignored` and at most `full` of it, in the internal reset that
another source has begun. Its own trigger has come about when enough of the low lay before that reset (R163): surely, not
at all, or either way, as far as the safelight ticks since the reset say; one of them is 30,517.578125 ns. A low in a cold
reset or a darkroom exit is not recorded. -/
def lateTrigger (ignored full lowNs bit : Nat) (f : FieldDie) : FieldDie :=
  if f.phase ≠ .inReset ∨ hasBit f.resetBy 0 ∨ f.pwr.waking ∨ f.pwr.vddSl = false then f
  else if 30518 * (f.pwr.resetTicks + 1) + full ≤ lowNs then { f with resetBy := setBit f.resetBy bit }
  else if lowNs ≤ 30517 * (f.pwr.resetTicks - 1) + ignored then f
  else if hasBit f.free.1 0 then { f.free.2 with resetBy := setBit f.resetBy bit }
  else f.free.2

/-- PIN_RESET (R67, R91, R163): FRST_N has been low for `lowNs`. -/
def execPinReset (lowNs : Nat) (s : State) : Host.Outcome State Fault Refusal :=
  if released s.fld then
    if 1000 ≤ lowNs then s.fieldReset 1
    else if lowNs ≤ 100 then .next s
    else { s with fld := s.fld.free.2 }.resetIf (hasBit s.fld.free.1 0) 1
  else .next { s with fld := lateTrigger 100 1000 lowNs 1 s.fld }

/-- POWER_GOOD_RESET (R67, R91, R163): PD_PG has been low for `lowNs`, outside darkroom and its exit (Table 4.2). -/
def execPowerGoodReset (lowNs : Nat) (s : State) : Host.Outcome State Fault Refusal :=
  if released s.fld ∧ s.fld.pwr.vddSl ∧ s.fld.pwr.waking = false then
    if 2000 ≤ lowNs then s.fieldReset 2
    else if lowNs ≤ 500 then .next s
    else { s with fld := s.fld.free.2 }.resetIf (hasBit s.fld.free.1 0) 2
  else .next { s with fld := lateTrigger 500 2000 lowNs 2 s.fld }

/-- SOFTWARE_RESET (R165): 0x0000A55A written to F_GLB_RESET by any requester; any other value has no effect. -/
def execSoftwareReset (req : Nat) (data : Word) (s : State) : Host.Outcome State Fault Refusal :=
  if s.fld.canWrite req ∧ data = 0x0000A55A then s.fieldReset 3 else .next s

/-- The die with its safelight domain lost (R875). -/
def darkDie (f : FieldDie) : FieldDie :=
  { order := f.order
    dieId := f.dieId
    phase := .unpowered
    pwr := { linePwr f.pwr with vddSl := false }
    pin := keptPins f.pin
    freeCtr := f.freeCtr
    out := f.out }

/-- VDD_SL_LOSS (R875): PD_VCOMB has fallen to `mv`. At 8.0 V or more VDD_SL stays in range, below 5.0 V it leaves it,
and between them it may do either. -/
def execVddSlLoss (mv : Nat) (s : State) : Host.Outcome State Fault Refusal :=
  if s.fld.pwr.vddSl then
    if mv < 5000 then s.fabricStops darkDie
    else if 8000 ≤ mv then .next s
    else if hasBit s.fld.free.1 0 then { s with fld := s.fld.free.2 }.fabricStops darkDie
    else .next { s with fld := s.fld.free.2 }
  else .next s

/-- COLD_RESET (R875): VDD_SL returns into its range. -/
def execColdReset (s : State) : Host.Outcome State Fault Refusal :=
  if s.fld.pwr.vddSl then .next s
  else .next { s with fld := { darkDie s.fld with phase := .inReset, resetBy := 1, pwr := linePwr s.fld.pwr } }

/-! ### Release and initialisation (R159, R163, R164, R169) -/

/-- F_GLB_BOOT_CNT after a reset: 1 after a cold one, else one more, from 0xFFFFFFFF to 1 (R164). -/
def nextBoot (f : FieldDie) : Nat :=
  if hasBit f.resetBy 0 ∨ f.rdN F_GLB_BOOT_CNT = 0xFFFFFFFF then 1 else f.rdN F_GLB_BOOT_CNT + 1

/-- The registers whose reset values the straps, the fuses, the order code and the front end give (R159, R185, R188,
R308, R633, R736). -/
def identityRegs (f : FieldDie) : FieldDie :=
  let f := (f.wrN F_GLB_STRAP f.straps).wrN F_GLB_ID (if f.order = .di then 0x0101A101 else 0x0201A101)
  let f := f.wrN F_KEY_PERS (f.orderCode * 65536 + 1)
  let f := (f.wrN F_GLB_DIE_ID_LO (f.dieId % 2 ^ 32)).wrN F_GLB_DIE_ID_HI (f.dieId / 2 ^ 32)
  let f := f.wrN F_GLB_BASE_MAC_LO (f.dieId % 2 ^ 32)
  let f := (f.put F_SPI_CTRL_role (bitOf f.straps 0)).put F_TWN_STAT_designation (bitOf f.straps 2)
  let f := f.put F_TWN_STAT_pin_in (if f.pin.twinIn then 1 else 0)
  forRange 2 (fun n f =>
    ((f.put (F_PORT_PODL_line_live n) (if lineAbove f n then 1 else 0)).put (F_PORT_PODL_class n) (f.pwr.lineClass.getD n 0)).put
      (F_PORT_PODL_sccp_state n) (sccpOf f n)) f

/-- The internal reset is released. A darkroom exit neither samples the straps nor counts as a reset (R120, R159). -/
def releaseReset (straps : Nat) (f : FieldDie) : FieldDie :=
  if f.pwr.waking then identityRegs { f with phase := .released }
  else
    let boot := nextBoot f
    let cause := f.resetBy
    identityRegs (((({ f with phase := .released, straps := straps % 16, resetBy := 0 }).wrN F_GLB_RST_CAUSE cause).wrN F_GLB_BOOT_CNT boot))

/-- INTERNAL_RESET_RELEASE (R67): 90 µs to 100 µs after the later of FRST_N and PD_PG has risen; PD_PG rises only while
PD_EN is high. -/
def execInternalResetRelease (afterNs straps : Nat) (s : State) : Host.Outcome State Fault Refusal :=
  s.onField (fun f =>
    if f.phase = .inReset ∧ pdEn f ∧ f.pwr.vddSl ∧ 90000 ≤ afterNs ∧ afterNs ≤ 100000 then releaseReset straps f else f)

/-- FABRIC_PLL_LOCK (R171, R873): the fine tick starts; the first one reads 0. -/
def execFabricPllLock (s : State) : Host.Outcome State Fault Refusal :=
  s.onField (fun f => if f.phase = .released then { f with phase := .locked, pwr := { f.pwr with lockTicks := 0 } } else f)

/-- INITIALISATION_COMPLETE (R169): the resolution of the configuration source begins. -/
def execInitialisationComplete (s : State) : Host.Outcome State Fault Refusal :=
  s.onField (fun f => if f.phase = .locked ∧ f.pwr.waking = false then { f with phase := .resolving } else f)

/-- START_GO (R178): a HELD_START hold ends; a CONFIG_FAIL hold does not. -/
def startGo (data : Nat) (f : FieldDie) : FieldDie :=
  if hasBit data 0 = false then f
  else
    let f := if f.get F_GLB_CFG_SRC_state = 2 then f.put F_GLB_CFG_SRC_state 1 else f
    forRange 16 (fun n f => holdEnd n 3 f) f

def execStartGo (req : Nat) (data : Word) (s : State) : Host.Outcome State Fault Refusal := s.onWrite req (startGo data.toNat)

end Sys2Proof.Machine
end

