-- ==== Sys2Proof/Machine/Dark.lean ====
section
/-! DEFINITION. Nap, darkroom entry and wake causes (chapter 3). -/

namespace Sys2Proof.Machine

/-! ### Nap (R106, R107) -/

/-- NAP_ENTRY (R106): the conditions have held for nap_idle fine ticks without a break. -/
def napEntry (f : FieldDie) : FieldDie :=
  if f.flag F_PWR_CTRL_nap_en ∧ powerState f = 0 ∧ f.get F_PWR_NAP_CFG_nap_idle ≤ f.pwr.idle ∧ napIdle f ∧ f.engineRuns 18 then
    { f with pwr := { f.pwr with napCause := false } }.put F_PWR_STATE_state 1
  else f

def execNapEntry (s : State) : Host.Outcome State Fault Refusal := s.onRun napEntry

/-- NAP_EXIT (R107): one of its causes has come about since NAP was entered (log entry 92). -/
def execNapExit (s : State) : Host.Outcome State Fault Refusal :=
  s.onRun (fun f => if f.engineRuns 18 ∧ f.pwr.napCause then leaveNap f else f)

/-- SL_CAL_UPDATE (R138): the measured safelight period, in units of 2^-16 ns, shifted by F_PTB_SKEW (units of 0.1 ppm). -/
def slCalUpdate (period : Nat) (f : FieldDie) : FieldDie :=
  if powerState f = 0 then
    f.wrN F_PWR_SL_CAL (((period : Int) * (10000000 + toSigned 16 (f.get F_PTB_SKEW_sl_skew)) / 10000000).toNat % 2 ^ 32)
  else f

def execSlCalUpdate (period : Nat) (s : State) : Host.Outcome State Fault Refusal := s.onRun (slCalUpdate period)

/-! ### The next darkroom exposure (R137, R139) -/

/-- The detectors that darkroom arms: T1 ports that are neither disabled nor held. -/
def armedPorts (f : FieldDie) : Nat :=
  ((List.range 12).filter (fun n => isT1 f n && portState f n != 0 && portState f n != 1)).foldl setBit 0

/-- The start of the next darkroom exposure's window, ns: that of an open one has passed. -/
def darkNext (f : FieldDie) : Option Nat :=
  (expEntries f).foldl (fun (b : Option Nat) e =>
    if expKind f e ≠ 1 then b
    else match expNext f e, b with
      | some t, some c => some (min t c)
      | some t, none => some t
      | none, _ => b) none

/-- Whether a darkroom exposure's window is open: it holds the field die in RUN until it ends. -/
def darkWindow (f : FieldDie) : Bool := f.pwr.expOpen.any (fun w => expKind f w.1 == 1)

/-- The wake tick for an entry now, as safelight ticks from it: negative when it has passed (R137). -/
def wakeTickOf (f : FieldDie) (start : Nat) : Int :=
  let ns := start - f.sysNs
  let lead := 50 + f.get F_PWR_LINK_LEAD_link_lead + guardTicks f (worstPartner f (armedPorts f)) ns
  ((ns * 65536 / f.rdN F_PWR_SL_CAL : Nat) : Int) - (lead : Int)

/-! ### Requests (R110, R111, Table 3.3) -/

/-- Whether some lock is held; an orphaned one counts (R284). -/
def lockHeld (f : FieldDie) : Bool := (List.range 32).any (fun n => lockState f n == 1 || lockState f n == 2)

/-- Condition 0x09: an enabled wake source. -/
def wakeEnabled (f : FieldDie) : Bool :=
  let w := f.rdN F_PWR_WAKE_SRC
  (hasBit w 20 && (darkNext f).isSome) || hasBit w 16 || hasBit w 17 || (List.range 12).any (fun n => hasBit w n && isT1 f n)

/-- Condition 0x0A: the next wake tick lies dark_min milliseconds ahead. -/
def wakeFarOff (f : FieldDie) : Bool :=
  !darkWindow f &&
  (match darkNext f with
   | some t =>
     let k := wakeTickOf f t
     decide (0 ≤ k) && decide (f.get F_PWR_DARK_CFG_dark_min * 1000000 * 65536 ≤ k.toNat * f.rdN F_PWR_SL_CAL)
   | none => true)

/-- The code of the first condition of Table 3.3 that fails at the request, 0 none. -/
def darkCode (f : FieldDie) : Nat :=
  if inPair f then 1
  else if !f.flag F_CFG_PROOF_STAT_committed || f.flag F_CFG_PROOF_STAT_stale then 2
  else if !f.flag F_PWR_CTRL_resume_en || f.get F_SPI_CTRL_role != 0 || f.get F_PWR_STATE_resume_stat != 2 then 3
  else if lockHeld f then 5
  else if f.key.op != 0 then 6
  else if f.rdN F_FLT_EVT % 65536 != 0 then 7
  else if f.rdN F_PTB_ACTIVE != 0 then 8
  else if !wakeEnabled f then 9
  else if !wakeFarOff f then 10
  else 0

/-- A request is refused, or its entry abandoned for want of a drain: an automatic one reports only a changed outcome and
restarts the dark_idle count (R110). -/
def darkRefuse (auto : Bool) (code : Nat) (f : FieldDie) : FieldDie :=
  let old := f.pwr.autoLast
  let f := f.put F_PWR_STATE_dark_outcome code
  let f := if auto then { f with pwr := { f.pwr with autoLast := some code, rxAt := f.now } } else f
  if auto && old == some code then f else f.raise F_PWR_EVT 3

/-- The entry begins (Table 3.4): DARK_ENTRY, frames held for launch are discarded under POWER_STATE (chapter 16), and the
EVT message announces it. -/
def darkBegin (auto : Bool) (f : FieldDie) : FieldDie :=
  let f := purgeLaunch (fun _ => true) 6 f
  { f with pwr := { f.pwr with entryTick := f.now, autoNow := auto, drained := none } }.put F_PWR_STATE_state 2 |>.announce 2

/-- A darkroom request, judged on the state `f`. -/
def darkRequest (auto : Bool) (f : FieldDie) : FieldDie :=
  if f.engineRuns 18 = false ∨ 1 < powerState f then f
  else if darkCode f = 0 then darkBegin auto f
  else darkRefuse auto (darkCode f) f

/-- What a change of F_PWR_CTRL brings with it: resume_stat reads 0 while resume_en is 0, and a change of dark_auto
starts the dark_idle count. -/
def pwrCtrlChanged (old : Nat) (f : FieldDie) : FieldDie :=
  let f := if f.flag F_PWR_CTRL_resume_en then f else setResume 0 f
  if bitOf old 4 = f.get F_PWR_CTRL_dark_auto then f else { f with pwr := { f.pwr with rxAt := f.now } }

/-- A write of F_PWR_CTRL. A dark_now in it is judged on the state at the moment of the write: that the write itself
leaves the proof stale (R270) comes after. -/
def writePwrCtrl (req data : Nat) (f : FieldDie) : FieldDie :=
  let old := f.rdN F_PWR_CTRL
  let f := if hasBit data 2 then darkRequest false f else f
  pwrCtrlChanged old (storeWrite req F_PWR_CTRL data f)

/-- DARK_NOW (R111): see `writePwrCtrl`. -/
def execDarkNow (req : Nat) (data : Word) (s : State) : Host.Outcome State Fault Refusal := s.onWrite req (writePwrCtrl req data.toNat)

/-- DARK_AUTO_REQUEST (R110): dark_idle milliseconds without a received frame. -/
def darkAuto (f : FieldDie) : FieldDie :=
  if f.flag F_PWR_CTRL_dark_auto ∧ f.pwr.rxAt + f.get F_PWR_DARK_CFG_dark_idle * msTicks ≤ f.now then darkRequest true f else f

def execDarkAutoRequest (s : State) : Host.Outcome State Fault Refusal := s.onRun darkAuto

/-! ### The entry (R112 to R116, Table 3.4) -/

/-- Whether the egress queues and the Crossing field end are empty: on a link that is not UP nothing more can leave. -/
def drainedNow (f : FieldDie) : Bool :=
  !f.buf.frames.any (fun fr => fr.rx) && f.buf.queued.isEmpty && f.buf.waiting.isEmpty &&
  f.ports.all (fun p => p.sending.isNone && p.preempted.isNone) && f.xng.replay.isEmpty && f.xng.inbox.isEmpty &&
  (f.xng.phase != 3 || (f.xng.waiting.isEmpty && f.evtq.isEmpty))

/-- A port at the end of the drain: a T1 port goes to SLEEP, any other falls silent (Table 3.4). -/
def darkPort (n : Nat) (f : FieldDie) : FieldDie :=
  if portState f n = 0 ∨ portState f n = 1 then f
  else if n < 12 ∧ isT1 f n then enterState n 5 0 f
  else holdBegin n 8 f

/-- At a safelight edge after the drain the safelight domain captures the wake tick, the wake mask and the snapshot of
time (Table 3.4, R116, R587). -/
def darkCapture (f : FieldDie) : FieldDie :=
  let armed := armedPorts f
  let tick := (darkNext f).map (fun t => (wakeTickOf f t).toNat)
  let (shown, f) : Nat × FieldDie := match tick with
    | none => (0xFFFFFFFF, f)
    | some k => if k < 0xFFFFFFFF then (k, f) else f.free
  let slaves := (List.range 2).foldl (fun a i => if ptpOn f i && f.get (F_TIM_PTP_STAT_slave_port i) != 31 then setBit a i else a) 0
  let w := f.rdN F_PWR_WAKE_SRC
  { f with
    pwr := { f.pwr with
      mask := Nat.land w 0x130000 + Nat.land w armed
      tc10 := f.flag F_PWR_CTRL_tc10_en
      wakeTick := tick
      resumeAt := resumeAddr f 0 }
    tim := { f.tim with
      darkA := f.domA
      darkB := f.domB
      darkC := f.now
      darkN0 := f.pwr.sl
      darkCal := f.rdN F_PWR_SL_CAL
      darkDelta := f.tim.delta
      darkActive := f.activeDom
      darkSlave := slaves } }.wrN F_PWR_DARK_WAKE shown

/-- The first safelight edge after the drain: see `darkCapture`. -/
def captureTick (f : FieldDie) : FieldDie :=
  if f.isRunning ∧ powerState f = 2 ∧ f.pwr.drained.map (fun d => d + 1) = some f.pwr.sl then darkCapture f else f

/-- DARK_DRAIN_DONE (R112): within 1 ms the drain has ended. The field end sends its last ACK and accepts nothing more
(R614). -/
def drainDone (f : FieldDie) : FieldDie :=
  if powerState f = 2 ∧ f.pwr.drained = none ∧ f.now ≤ f.pwr.entryTick + msTicks ∧ drainedNow f then
    let f := f.onXng ackNow
    forRange 16 darkPort { f with
      xng := { f.xng with closed := true }
      pwr := { f.pwr with drained := some f.pwr.sl, wakeTick := none } }
  else f

def execDarkDrainDone (s : State) : Host.Outcome State Fault Refusal := s.onRun drainDone

/-- DARK_DRAIN_TIMEOUT (R112): the drain would take longer than 1 ms. -/
def drainTimeout (f : FieldDie) : FieldDie :=
  if powerState f = 2 ∧ f.pwr.drained = none ∧ f.pwr.entryTick + msTicks ≤ f.now then
    darkRefuse f.pwr.autoNow 4 (f.put F_PWR_STATE_state 0)
  else f

def execDarkDrainTimeout (s : State) : Host.Outcome State Fault Refusal := s.onRun drainTimeout

/-- Registers and operational tables that stay through darkroom: those marked SL, the phases of gates, windows and
shutters (R121, R581), and the servo's frequencies (R587). -/
def staysDark (f : FieldDie) (a : Nat) : Bool :=
  isSl a || (decide (0x1A0000 ≤ a) && decide (a < 0x1B0000) && a != F_STR_EVT && a != F_STR_EVT_INFO) ||
  (decide (0x554000 ≤ a) && decide (a < 0x558000)) || (decide (0x570000 ≤ a) && decide (a < 0x579000)) ||
  (decide (0x1C0400 ≤ a) && decide (a < 0x1C0480)) ||
  ((a == F_TIM_A_INC_LO || a == F_TIM_A_INC_HI) && (steeredBy f 0).isSome) || (a == F_TIM_B_RATE && (steeredBy f 1).isSome) ||
  a == F_TIM_PTP_FREQ 0 || a == F_TIM_PTP_FREQ 1

/-- The time unit in darkroom: the snapshot and the shutters. -/
def darkTime (t : TimeX) : TimeX :=
  { c := t.darkC, shutters := t.shutters.map (fun x => { x with active := false, missing := false }), darkA := t.darkA, darkB := t.darkB,
    darkC := t.darkC, darkN0 := t.darkN0, darkCal := t.darkCal, darkDelta := t.darkDelta, darkActive := t.darkActive, darkSlave := t.darkSlave }

/-- The field die in darkroom: what R116, R121, R581, R587 and R614 name stays, all else is lost (R118). FAULT_F and
TWIN_FAULT_OUT hold their levels (R115). -/
def darkroom (f : FieldDie) : FieldDie :=
  { order := f.order
    dieId := f.dieId
    straps := f.straps
    phase := .unpowered
    resetBy := f.resetBy
    reg := Store.set fieldDefault (f.reg.filter (fun e => staysDark f e.1)) F_PWR_WAKE_CAUSE 0
    xng := { everUp := f.xng.everUp, fresh := f.xng.fresh, txNext := f.xng.txNext, expect := f.xng.expect }
    flt := { held := some f.faultF, heldTwin := some f.twinFaultOut }
    pwr := { keptPwr f.pwr with dark := true }
    ports := f.ports.map (fun x => { holds := x.holds.filter (fun r => r == 3) })
    gates := f.gates.map (fun g => { g with rlLevel := 0 })
    ptp := f.ptp.map (fun x => { integral := x.integral })
    tim := darkTime f.tim
    str := { f.str with refill := [], resid := [], octets := [] }
    pin := keptPins f.pin
    freeCtr := f.freeCtr
    out := f.out }

/-- Whether two safelight ticks have passed since the drain ended: PD_EN goes low. -/
def pastReturn (f : FieldDie) : Bool :=
  f.isRunning && powerState f == 2 &&
  (match f.pwr.drained with
   | some d => decide (d + 2 ≤ f.pwr.sl)
   | none => false)

/-- DARK_POINT_OF_NO_RETURN (R112): PD_EN is driven low. -/
def execDarkPointOfNoReturn (s : State) : Host.Outcome State Fault Refusal :=
  if pastReturn s.fld then s.fabricStops darkroom else .next s

/-! ### Wake causes (R114, R125) -/

/-- From an entry back to RUN: ingress resumes, the Crossing accepts again, ports that fell silent return, and those that
the entry put to sleep wake. -/
def darkReturn (f : FieldDie) : FieldDie :=
  let slept := f.pwr.drained.isSome
  let f := { f with pwr := { f.pwr with drained := none }, xng := { f.xng with closed := false } }.put F_PWR_STATE_state 0
  let f := forRange 16 (fun n f => if 8 ∈ (f.portX n).holds then holdEnd n 8 f else f) f
  if slept then forRange 12 (fun n f => if portState f n = 5 ∧ sleepWanted f n = false then startWake n false f else f) f else f

/-- The entry is abandoned for a wake cause (R114): outcome 0x11. -/
def darkAbandon (f : FieldDie) : FieldDie :=
  let f := f.put F_PWR_STATE_dark_outcome 0x11
  let f := if f.pwr.autoNow then { f with pwr := { f.pwr with rxAt := f.now, autoLast := some 0x11 } } else f
  darkReturn f

/-- The exit sequence starts: WAKING, PD_EN high (Table 3.5). Every exit advances the epoch (R119). The levels held in
DARKROOM (R115) are held no longer. -/
def startExit (f : FieldDie) : FieldDie :=
  let f := { f with
    phase := .inReset
    flt := { f.flt with held := none, heldTwin := none }
    pwr := { f.pwr with dark := false, waking := true, pgLow := false, wakePending := false } }
  (f.bump ⟨F_PWR_DARK_EPOCH, 31, 0⟩ 1).put F_PWR_STATE_state 3

/-- A wake cause in darkroom is latched; the exit waits for PD_PG to be low (R114). -/
def darkCause (bit : Nat) (f : FieldDie) : FieldDie :=
  if hasBit f.pwr.mask bit = false then f
  else
    let f := f.wrN F_PWR_WAKE_CAUSE (setBit (f.rdN F_PWR_WAKE_CAUSE) bit)
    if f.pwr.pgLow then startExit f else { f with pwr := { f.pwr with wakePending := true } }

/-- A burst at the detector of port `n` (R148): in darkroom a wake cause; else it wakes its port, and in an entry it is a
wake cause that abandons the entry (R114). A port without a detector (R143) sees none. -/
def burstSeen (n : Nat) (f : FieldDie) : FieldDie :=
  if f.pwr.dark then darkCause n f
  else if f.isRunning = false ∨ isT1 f n = false then f
  else
    let asleep := portState f n == 5 || portState f n == 7
    let f := if powerState f = 2 && hasBit (f.rdN F_PWR_WAKE_SRC) n && asleep then darkAbandon f else f
    if portState f n = 5 ∨ portState f n = 7 then startWake n false f
    else if portState f n = 4 then enterState n 3 0 f
    else f

/-- A wake cause is recognised: in darkroom it starts the exit, during the entry it abandons it; else it does nothing. -/
def wakeCauseSeen (bit : Nat) (f : FieldDie) : FieldDie :=
  if f.pwr.dark then darkCause bit f
  else if f.isRunning ∧ powerState f = 2 ∧ hasBit (f.rdN F_PWR_WAKE_SRC) bit then darkAbandon f
  else f

/-- Whether a bit of F_PWR_WAKE_SRC names a cause. -/
def isCause (bit : Nat) : Bool := decide (bit < 12) || bit == 16 || bit == 17 || bit == 20

/-- WAKE_CAUSE (R125): the bits of the detectors are bursts at their ports. -/
def execWakeCause (bit : Nat) (s : State) : Host.Outcome State Fault Refusal :=
  s.onField (fun f => if bit < 12 then burstSeen bit f else if isCause bit then wakeCauseSeen bit f else f)

/-- DARKROOM_POWER_GOOD_FALL (R114): PD_PG is low in darkroom; a latched cause starts the exit now. -/
def powerGoodFall (f : FieldDie) : FieldDie :=
  if f.pwr.dark = false then f
  else
    let f := { f with pwr := { f.pwr with pgLow := true } }
    if f.pwr.wakePending then startExit f else f

def execDarkroomPowerGoodFall (s : State) : Host.Outcome State Fault Refusal := s.onField powerGoodFall

/-- Whether the detectors take the TC10 wake-up pulse: tc10_en, in darkroom as it stood at the entry (R142). -/
def takesTc10 (f : FieldDie) : Bool := if f.pwr.dark then f.pwr.tc10 else f.flag F_PWR_CTRL_tc10_en

/-- WAKE_BURST_DETECT (R141, R142, R148): a signal of `ns` at the detector: 16 µs are recognised, less than 4 µs are
ignored, and what lies between is open. With tc10_en 1 the detector recognises the TC10 wake-up pulse too. -/
def burstDetect (n : Nat) (sig : WakeSignal) (f : FieldDie) : FieldDie :=
  if 12 ≤ n then f
  else match sig with
    | .tc10 => if takesTc10 f then burstSeen n f else f
    | .burst ns =>
      if ns < 4000 then f
      else if 16000 ≤ ns then burstSeen n f
      else
        let (v, f) := f.free
        if v % 2 = 1 then burstSeen n f else f

def execWakeBurstDetect (port : Nat) (sig : WakeSignal) (s : State) : Host.Outcome State Fault Refusal :=
  s.onField (burstDetect port sig)

end Sys2Proof.Machine
end

