-- ==== Sys2Proof/Machine/Ptb.lean ====
section
/-! DEFINITION. Perturbation for test (chapter 22): arming and ownership (R834), the controls of Tables 22.1 and 22.2,
and their ends (R839 to R841). -/

namespace Sys2Proof.Machine

/-! ### The field die: ownership -/

/-- A write that R834 turns away. -/
def ptbReject (req : Nat) (f : FieldDie) : FieldDie := (f.put F_PTB_EVT_INFO_requester req).raise F_PTB_EVT 0

/-- A one-shot control finds nothing to act on (R836). -/
def ptbVoid (f : FieldDie) : FieldDie := f.raise F_PTB_EVT 2

/-- Whether `req` has armed the die. -/
def ptbOwned (f : FieldDie) (req : Nat) : Bool := f.flag F_PTB_ARM_armed && f.get F_PTB_ARM_owner == req

/-- Do `g` for the owner of the armed die; anyone else is rejected (R834). -/
def asOwner (req : Nat) (g : FieldDie → FieldDie) (f : FieldDie) : FieldDie := if ptbOwned f req then g f else ptbReject req f

/-- A write of F_PTB_ARM (R834). -/
def writePtbArm (req data : Nat) (f : FieldDie) : FieldDie :=
  let key := bitsOf data 31 16
  if f.flag F_PTB_ARM_armed && !ptbOwned f req then ptbReject req f
  else if key = 0xD0B0 then
    { (f.put F_PTB_ARM_armed 1).put F_PTB_ARM_owner req with ptb := { f.ptb with lifeFrom := f.now } }
  else if key = 0 then endPtb 1 f
  else ptbReject req f

/-! ### The field die: held controls -/

/-- A held control takes a value; bit `c` of F_PTB_ACTIVE follows (R835). -/
def setControl (req addr c data : Nat) (f : FieldDie) : FieldDie :=
  let f := storeWrite req addr data f
  let on := f.rd addr != fieldDefault addr
  f.wrN F_PTB_ACTIVE (if on then setBit (f.rdN F_PTB_ACTIVE) c else clrBit (f.rdN F_PTB_ACTIVE) c)

/-- F_PTB_HOLD: the named queues start no frame for hold_ms. -/
def writePtbHold (req data : Nat) (f : FieldDie) : FieldDie :=
  let f := setControl req F_PTB_HOLD 1 data f
  { f with ptb := { f.ptb with holdUntil := f.now + f.get F_PTB_HOLD_hold_ms * msTicks } }

/-- F_PTB_ACK: the receiver of the named link leaves out its next drop_n ACKs. -/
def writePtbAck (req data : Nat) (f : FieldDie) : FieldDie :=
  let f := setControl req F_PTB_ACK 3 data f
  let n := f.get F_PTB_ACK_drop_n
  let l := f.get F_PTB_ACK_link
  { f with
    xng := { f.xng with ackAmnesty := if l = 0 then n else 0 }
    twin := { f.twin with ackAmnesty := if l = 1 then n else 0 } }

/-- F_PTB_WDOG: an instance makes no step. -/
def writePtbWdog (req data : Nat) (f : FieldDie) : FieldDie :=
  let f := setControl req F_PTB_WDOG 11 data f
  { f with flt := { f.flt with stopped := if f.flag F_PTB_WDOG_go then [f.get F_PTB_WDOG_instance] else [] } }

/-- Whether a lane setting makes a receiver lose its lane (R606): every nth sync header is bad with n of 4 or less, or
block lock is dropped. -/
def laneLost (mode n : Nat) : Bool := mode == 3 || (mode == 2 && decide (1 ≤ n) && decide (n ≤ 4))

/-- The link that bits [31:30] of F_PTB_LANE name, when the part has it. -/
def ptbLink (f : FieldDie) (l : Nat) : Option LinkId :=
  if l = 0 ∧ f.order = .di then some .field else if l = 1 then some .twin else none

/-- F_PTB_LANE: mode 1 spoils the CRC of the next sequenced unit; modes 2 and 3 are held. A receive lane that they break
is declared failed at this end; a transmit lane is for the other end to judge. -/
def writePtbLane (req data : Nat) (f : FieldDie) : FieldDie :=
  let f := setControl req F_PTB_LANE 2 data f
  let mode := f.get F_PTB_LANE_mode
  let tx := f.flag F_PTB_LANE_dir
  let lane := f.get F_PTB_LANE_lane
  match ptbLink f (f.get F_PTB_LANE_link) with
  | none => if mode = 1 then ptbVoid (f.wrN F_PTB_ACTIVE (clrBit (f.rdN F_PTB_ACTIVE) 2)) else f
  | some who =>
    if mode = 1 then
      (f.wrN F_PTB_ACTIVE (clrBit (f.rdN F_PTB_ACTIVE) 2)).setLink who
        (fun l => if tx then { l with corruptTx := true } else { l with corruptRx := true })
    else if !tx && laneLost mode (f.get F_PTB_LANE_n) then
      (if who = .twin then f.onTwin (laneFailure (f.flag F_TWN_CTRL_spare_en) lane)
       else f.onXng (laneFailure (f.flag F_XNG_CTRL_spare_en) lane))
    else f

/-! ### The field die: one-shot controls -/

/-- Flip bit 0, and bit 1 as well for a double error, of what bits are already wrong. -/
def flipBits (old : Nat) (double : Bool) : Nat := Nat.xor old (if double then 3 else 1)

/-- The table word at `a` gets a bit error. -/
def flipWord (a : Nat) (double : Bool) (f : FieldDie) : FieldDie :=
  { f with flt := { f.flt with badWords := Store.set (fun _ => 0) f.flt.badWords a (flipBits (Store.get (fun _ => 0) f.flt.badWords a) double) } }

/-- Cell `c` gets a bit error. Which frame holds the cell is open, as the spec gives cells no order of allocation; in a
free cell the error vanishes with the next write. -/
def flipCell (c : Nat) (double : Bool) (f : FieldDie) : FieldDie :=
  match f.flt.badCells.find? (fun e => e.1 == c) with
  | some e =>
    let rest := f.flt.badCells.filter (fun e => e.1 != c)
    let m := flipBits e.2.2 double
    { f with flt := { f.flt with badCells := if m = 0 then rest else rest ++ [(c, e.2.1, m)] } }
  | none =>
    let (v, f) := f.free
    match f.buf.frames[v % (f.buf.frames.length + 1)]? with
    | some fr => { f with flt := { f.flt with badCells := f.flt.badCells ++ [(c, fr.id, flipBits 0 double)] } }
    | none => f

/-- F_PTB_ECC. -/
def writePtbEcc (req data : Nat) (f : FieldDie) : FieldDie :=
  let f := storeWrite req F_PTB_ECC data f
  let a := f.get F_PTB_ECC_where
  let double := f.flag F_PTB_ECC_double
  if f.flag F_PTB_ECC_go = false then f
  else if f.get F_PTB_ECC_target = 0 ∧ a < 16384 then flipCell a double f
  else if f.get F_PTB_ECC_target = 1 ∧ (tblRow a).isSome then flipWord (a / 4 * 4) double f
  else ptbVoid f

/-- The bits of `m`, lowest first, laid onto the bits set in `places`, lowest first, for `n` places of a word from bit
`i` on: how the mask of F_PTB_TMR lies on the triplicated bits of a row. -/
def spreadMask (places m : Nat) : Nat → Nat → Nat
  | 0, _ => 0
  | n + 1, i =>
    if hasBit places i then bitOf m 0 * 2 ^ i + spreadMask places (m / 2) n (i + 1) else spreadMask places m n (i + 1)

/-- The copies of row `i` become `w`: the data path uses the voted value at once, with what follows from its change
(R262, R877), and the copies that differ from it wait for the voter (R263, R264). -/
def setCopies (i : Nat) (w : Nat → Nat) (f : FieldDie) : FieldDie :=
  let old := f.rdN (tmrReg i)
  let f := setTmr i (votedCopies i w) f
  let v := Nat.land (f.rdN (tmrReg i)) (tmrMask (tmrReg i))
  let off := ([0, 1, 2].filter (fun c => w c != v)).map (fun c => (i, c, w c))
  votedChange i old { f with cfg := { f.cfg with tmr := f.cfg.tmr.filter (fun e => e.1 != i) ++ off } }

/-- Copy `c` of row `i` becomes `v`. -/
def setCopy (i c v : Nat) (f : FieldDie) : FieldDie := setCopies i (fun k => if k = c then v else tmrCopy f i k) f

/-- F_PTB_TMR. -/
def writePtbTmr (req data : Nat) (f : FieldDie) : FieldDie :=
  let g := storeWrite req F_PTB_TMR data f
  let i := g.get F_PTB_TMR_row
  let mode := g.get F_PTB_TMR_mode
  let raw := g.get F_PTB_TMR_mask
  let places := tmrMask (tmrReg i)
  let m := spreadMask places raw 32 0
  if g.flag F_PTB_TMR_go = false ∨ mode = 0 ∨ mode = 3 then g
  else if tmrCount ≤ i then ptbVoid g
  else if mode = 1 then
    (if g.get F_PTB_TMR_copy < 3 then setCopy i (g.get F_PTB_TMR_copy) (Nat.xor (tmrCopy g i (g.get F_PTB_TMR_copy)) m) g else ptbVoid g)
  else if m = 0 ∨ raw = 0xFFFF ∨ m = places then ptbReject req f
  else
    let w := tmrCopy g i
    setCopies i (fun k => if k = 0 then w 0 else if k = 1 then Nat.xor (w 1) m else andNot places (w 0)) g

/-- F_PTB_LOCK. -/
def writePtbLock (req data : Nat) (f : FieldDie) : FieldDie :=
  let f := storeWrite req F_PTB_LOCK data f
  let n := f.get F_PTB_LOCK_lock
  if f.flag F_PTB_LOCK_go = false then f
  else if lockState f n = 1 then orphanLock 2 n f
  else ptbVoid f

/-! ### The field die: the block's registers -/

/-- A write of F_PTB_LIFE starts the lifetime again (R839). -/
def writePtbLife (req data : Nat) (f : FieldDie) : FieldDie :=
  { storeWrite req F_PTB_LIFE data f with ptb := { f.ptb with lifeFrom := f.now } }

/-- What the owner's write of a register of the PTB block does. -/
def ptbWrite (req addr data : Nat) (f : FieldDie) : FieldDie :=
  if addr = F_PTB_LIFE then writePtbLife req data f
  else if addr = F_PTB_DELAY then setControl req addr 0 data f
  else if addr = F_PTB_HOLD then writePtbHold req data f
  else if addr = F_PTB_LANE then writePtbLane req data f
  else if addr = F_PTB_ACK then writePtbAck req data f
  else if addr = F_PTB_SKEW then setControl req addr 4 data f
  else if addr = F_PTB_XC then setControl req addr 5 data f
  else if addr = F_PTB_PROOF then setControl req addr 6 data f
  else if addr = F_PTB_PAIR then setControl req addr 7 data f
  else if addr = F_PTB_ECC then writePtbEcc req data f
  else if addr = F_PTB_TMR then writePtbTmr req data f
  else if addr = F_PTB_LOCK then writePtbLock req data f
  else if addr = F_PTB_WDOG then writePtbWdog req data f
  else if addr = F_PTB_EVT then sqWrite addr data f
  else f

/-- A write to a register of the PTB block (R834). -/
def writePtb (req addr data : Nat) (f : FieldDie) : FieldDie :=
  if addr = F_PTB_ARM then writePtbArm req data f
  else if (regRow addr).isSome then asOwner req (ptbWrite req addr data) f
  else f

/-! ### The host die (Table 22.2) -/

/-- A write that R834 turns away, at the host die. -/
def hostPtbReject (fn : Nat) (h : HostDie) : HostDie := (h.put H_PTB_EVT_INFO_requester fn).raise H_PTB_EVT 0

/-- Whether function `fn` has armed the host die. -/
def hostPtbOwned (h : HostDie) (fn : Nat) : Bool := h.flag H_PTB_ARM_armed && h.get H_PTB_ARM_owner == fn

/-- A write of H_PTB_ARM (R834) at fine tick `now`. -/
def writeHostArm (now fn data : Nat) (h : HostDie) : HostDie :=
  let key := bitsOf data 31 16
  if h.flag H_PTB_ARM_armed && !hostPtbOwned h fn then hostPtbReject fn h
  else if key = 0xD0B0 then
    { (h.put H_PTB_ARM_armed 1).put H_PTB_ARM_owner fn with ptb := { h.ptb with lifeFrom := now } }
  else if key = 0 then endHostPtb 1 h
  else hostPtbReject fn h

/-- A held host control takes a value, in the bits that its register has. -/
def setHostControl (addr c mask data : Nat) (h : HostDie) : HostDie :=
  let h := h.wrN addr (Nat.land data mask)
  { h with ptb := { h.ptb with active := if h.rdN addr = 0 then clrBit h.ptb.active c else setBit h.ptb.active c } }

/-- H_PTB_LANE: as F_PTB_LANE, at the Crossing host end. -/
def writeHostLane (data : Nat) (h : HostDie) : HostDie :=
  let h := setHostControl H_PTB_LANE 2 0x2703FFFF data h
  let mode := h.get H_PTB_LANE_mode
  let tx := h.flag H_PTB_LANE_dir
  if mode = 1 then
    { h with
      ptb := { h.ptb with active := clrBit h.ptb.active 2 }
      xng := if tx then { h.xng with corruptTx := true } else { h.xng with corruptRx := true } }
  else if !tx && laneLost mode (h.get H_PTB_LANE_n) then h.onXng (laneFailure (h.flag H_XNG_CTRL_spare_en) (h.get H_PTB_LANE_lane))
  else h

/-- H_PTB_ACK: as F_PTB_ACK. -/
def writeHostAck (data : Nat) (h : HostDie) : HostDie :=
  let h := setHostControl H_PTB_ACK 3 0xFF data h
  { h with xng := { h.xng with ackAmnesty := h.get H_PTB_ACK_drop_n } }

/-- Whether the host SRAM that H_PTB_ECC names holds anything now. -/
def hostPlaceUsed (h : HostDie) (place : Nat) : Bool :=
  if place = 0 then !h.xng.replay.isEmpty else if place = 1 then decide (0 < heldWrites h) else if place = 2 then h.sending.isSome else true

/-- H_PTB_ECC: the word is read again, and the error found, or it is rewritten first; which is open. -/
def writeHostEcc (data : Nat) (h : HostDie) : HostDie :=
  let h := h.wrN H_PTB_ECC (Nat.land data 0xF000FFFF)
  let place := h.get H_PTB_ECC_target
  if h.flag H_PTB_ECC_go = false then h
  else if hostPlaceUsed h place = false then h.raise H_PTB_EVT 2
  else
    let (v, h) := h.free
    if v % 2 = 0 then h
    else if h.flag H_PTB_ECC_double then hostFaultLatch 0 0 place h
    else h.bump ⟨H_FLT_ECC_CNT, 31, 0⟩ 1

/-- A clear write of a host SQ register (R253). -/
def hostSqWrite (addr data : Nat) (h : HostDie) : HostDie :=
  let w := h.rdN addr
  if bitsOf data 31 16 = bitsOf w 31 16 then
    let flags := andNot (bitsOf w 15 0) (bitsOf data 15 0)
    let h := h.wrN addr (seqStep (bitsOf w 31 16) * 2 ^ 16 + flags)
    if addr = H_FLT_EVT then { h with latched := h.latched.filter (fun e => hasBit flags (e / 256)) } else h
  else h

/-- What the owner's write of an H_PTB register does. -/
def hostPtbWrite (now addr data : Nat) (h : HostDie) : HostDie :=
  if addr = H_PTB_LIFE then { h.wrN H_PTB_LIFE (bitsOf data 15 0) with ptb := { h.ptb with lifeFrom := now } }
  else if addr = H_PTB_LANE then writeHostLane data h
  else if addr = H_PTB_ACK then writeHostAck data h
  else if addr = H_PTB_DMA then setHostControl H_PTB_DMA 4 0x3F00FFFF data h
  else if addr = H_PTB_ECC then writeHostEcc data h
  else if addr = H_PTB_EVT then hostSqWrite addr data h
  else h

/-- Whether an offset is that of a register of the H_PTB block. -/
def isHostPtb (addr : Nat) : Bool :=
  [H_PTB_LIFE, H_PTB_LANE, H_PTB_ACK, H_PTB_DMA, H_PTB_ECC, H_PTB_EVT, H_PTB_EVT_INFO].contains addr

/-- A write of function `fn` to an H_PTB register (R834): the block lies in the physical function's BAR0. -/
def writeHostPtb (now fn addr data : Nat) (h : HostDie) : HostDie :=
  if fn ≠ 0 then h
  else if addr ≠ H_PTB_ARM ∧ isHostPtb addr = false then h
  else if addr = H_PTB_ARM then writeHostArm now fn data h
  else if hostPtbOwned h fn then hostPtbWrite now addr data h
  else hostPtbReject fn h

/-! ### The commands -/

/-- A write of a PTB register at either die. -/
def State.onPtb (s : State) (host : Bool) (req fieldAddr hostAddr data : Nat) : Host.Outcome State Fault Refusal :=
  if host then s.onHost (writeHostPtb s.fld.now req hostAddr data) else s.onWrite req (writePtb req fieldAddr data)

/-- PTB_ARM (R834). -/
def execPtbArm (host : Bool) (req : Nat) (data : Word) (s : State) : Host.Outcome State Fault Refusal :=
  s.onPtb host req F_PTB_ARM H_PTB_ARM data.toNat

/-- PTB_DELAY (Table 22.1, c = 0). -/
def execPtbDelay (req : Nat) (data : Word) (s : State) : Host.Outcome State Fault Refusal := s.onWrite req (writePtb req F_PTB_DELAY data.toNat)

/-- PTB_HOLD (Table 22.1, c = 1). -/
def execPtbHold (req : Nat) (data : Word) (s : State) : Host.Outcome State Fault Refusal := s.onWrite req (writePtb req F_PTB_HOLD data.toNat)

/-- PTB_HOLD_END (Table 22.1, R841): hold_ms has passed. -/
def execPtbHoldEnd (s : State) : Host.Outcome State Fault Refusal :=
  s.onRun (fun f => if hasBit (f.rdN F_PTB_ACTIVE) 1 && decide (f.ptb.holdUntil ≤ f.now) then endControl F_PTB_HOLD 1 f else f)

/-- PTB_LANE (Tables 22.1 and 22.2). -/
def execPtbLane (host : Bool) (req : Nat) (data : Word) (s : State) : Host.Outcome State Fault Refusal :=
  s.onPtb host req F_PTB_LANE H_PTB_LANE data.toNat

/-- PTB_ACK (Tables 22.1 and 22.2). -/
def execPtbAck (host : Bool) (req : Nat) (data : Word) (s : State) : Host.Outcome State Fault Refusal :=
  s.onPtb host req F_PTB_ACK H_PTB_ACK data.toNat

/-- PTB_SKEW (Table 22.1, c = 4). -/
def execPtbSkew (req : Nat) (data : Word) (s : State) : Host.Outcome State Fault Refusal := s.onWrite req (writePtb req F_PTB_SKEW data.toNat)

/-- PTB_XC (Table 22.1, c = 5). -/
def execPtbXc (req : Nat) (data : Word) (s : State) : Host.Outcome State Fault Refusal := s.onWrite req (writePtb req F_PTB_XC data.toNat)

/-- PTB_PROOF (Table 22.1, c = 6). -/
def execPtbProof (req : Nat) (data : Word) (s : State) : Host.Outcome State Fault Refusal := s.onWrite req (writePtb req F_PTB_PROOF data.toNat)

/-- PTB_PAIR (Table 22.1, c = 7). -/
def execPtbPair (req : Nat) (data : Word) (s : State) : Host.Outcome State Fault Refusal := s.onWrite req (writePtb req F_PTB_PAIR data.toNat)

/-- PTB_ECC (Tables 22.1 and 22.2). -/
def execPtbEcc (host : Bool) (req : Nat) (data : Word) (s : State) : Host.Outcome State Fault Refusal :=
  s.onPtb host req F_PTB_ECC H_PTB_ECC data.toNat

/-- PTB_TMR (Table 22.1, c = 9). -/
def execPtbTmr (req : Nat) (data : Word) (s : State) : Host.Outcome State Fault Refusal := s.onWrite req (writePtb req F_PTB_TMR data.toNat)

/-- PTB_LOCK (Table 22.1, c = 10). -/
def execPtbLock (req : Nat) (data : Word) (s : State) : Host.Outcome State Fault Refusal := s.onWrite req (writePtb req F_PTB_LOCK data.toNat)

/-- PTB_WDOG (Table 22.1, c = 11). -/
def execPtbWdog (req : Nat) (data : Word) (s : State) : Host.Outcome State Fault Refusal := s.onWrite req (writePtb req F_PTB_WDOG data.toNat)

/-- PTB_DMA (Table 22.2): the delay itself is time, which the fetches' own commands carry. -/
def execPtbDma (req : Nat) (data : Word) (s : State) : Host.Outcome State Fault Refusal :=
  s.onHost (writeHostPtb s.fld.now req H_PTB_DMA data.toNat)

/-- Whether a lifetime of `ms` that began at `from_` has passed. -/
def lifeOver (now from_ ms : Nat) : Bool := ms != 0 && decide (from_ + ms * msTicks ≤ now)

/-- PTB_LIFETIME_EXPIRY (R839). -/
def execPtbLifetimeExpiry (host : Bool) (s : State) : Host.Outcome State Fault Refusal :=
  if host then
    s.onHost (fun h => if h.flag H_PTB_ARM_armed && lifeOver s.fld.now h.ptb.lifeFrom (h.get H_PTB_LIFE_life_ms) then endHostPtb 2 h else h)
  else
    s.onRun (fun f => if lifeOver f.now f.ptb.lifeFrom (f.get F_PTB_LIFE_life_ms) then endPtb 2 f else f)

end Sys2Proof.Machine
end

