-- ==== Sys2Proof/Machine/Engine.lean ====
section
/-! DEFINITION. Table protection with its scrubber, and the table-engine watchdog (chapter 21, R815 to R819). -/

namespace Sys2Proof.Machine

/-! ### The watchdog (R818, R819) -/

/-- Instance `k` of the table engine goes to the rest state of its machine (R819). -/
def restInstance (k : Nat) (f : FieldDie) : FieldDie :=
  if k < 16 then (if f.flag (F_PORT_MODE_enable k) then enterState k 2 1 f else disablePort k f)
  else if k = 16 then (if f.key.op = 0 then f else keyEnd 2 0 f)
  else if k = 17 then (if inPair f then enterFailed f else setRole 0 f)
  else if powerState f = 2 then darkReturn f
  else f.put F_PWR_STATE_state 0

/-- F_PTB_WDOG clears itself when WATCHDOG latches for the instance it names (Table 22.1). -/
def wdogControl (k : Nat) (f : FieldDie) : FieldDie :=
  if f.flt.stopped.contains k then endControl F_PTB_WDOG 11 { f with flt := { f.flt with stopped := [] } } else f

/-- WATCHDOG (R818): instance `k` has made no step for 250 µs. A fault of the table engine orphans the locks that it
holds (R280). -/
def watchdog (k : Nat) (f : FieldDie) : FieldDie :=
  orphanOwned (fun c => c == 0x41) (restInstance k (wdogControl k (latchFault 8 k f)))

def execWatchdog (inst : Nat) (s : State) : Host.Outcome State Fault Refusal :=
  if inst < 19 ∧ s.fld.isRunning then s.keyMayStop (watchdog inst) else .next s

/-! ### Uncorrectable table words (R816) -/

/-- The instances of machine `m`: 0 ports, 1 key, 2 twin, 3 power (Table 21.7). -/
def machineInsts (m : Nat) : List Nat := if m = 0 then List.range 16 else [15 + m]

/-- An operational state table is reloaded from the vendor contents. -/
def reloadTable (m : Nat) (f : FieldDie) : FieldDie :=
  let f := { f with reg := f.reg.filter (fun e => !(decide (operTblAddr m 0 0 ≤ e.1) && decide (e.1 < operTblAddr m 32 0))) }
  forAll (machineInsts m) restInstance (setUnchecked m false f)

/-- An entry of several words whose valid bit is bit 31 of word 0 becomes invalid. -/
def invalidate (t : TblRow) (a : Nat) (f : FieldDie) : FieldDie :=
  let b := t.entryBase a
  if t.base = 0x480000 then
    if hasBit (f.rdN b) 31 then fdbRecount (fdbInvalidate (t.entryIdx a) f) else f
  else
    let f := f.wrN b (clrBit (f.rdN b) 31)
    if t.base = 0x400000 then closeExposure (t.entryIdx a) f else f

/-- What becomes of the entry of an uncorrectable word at `a` of table `t` (R816): the first item that applies. -/
def tableLost (t : TblRow) (a : Nat) (f : FieldDie) : FieldDie :=
  if t.base = 0x414000 then reloadTable (t.instIdx a) f
  else if t.base = 0x570000 then
    let n := t.instIdx a
    (f.put (F_STR_GCL_OPER_active n) 0).setGateX n (fun x => { x with states := 0xFF, hold := false })
  else if t.base = 0x540000 then meterFill (t.entryIdx a) true f
  else if t.base = 0x581000 then
    { f with str := { f.str with resid := Store.set (fun _ => (0 : Int)) f.str.resid (t.entryIdx a) 0 } }.wr a 0
  else if t.words = 1 then f.wr a (fieldDefault a)
  else invalidate t a f

/-- A table word is read: a correctable error is corrected and counted (R804), an uncorrectable one latches TABLE_ECC with
the word's address and costs the entry. It is found once. -/
def checkWord (a : Nat) (f : FieldDie) : FieldDie :=
  let m := Store.get (fun _ => 0) f.flt.badWords a
  if m = 0 then f
  else
    let f := { f with flt := { f.flt with badWords := Store.set (fun _ => 0) f.flt.badWords a 0 } }
    if m ≠ 3 then f.bump ⟨F_FLT_TBL_CORR, 31, 0⟩ 1
    else match tblRow a with
      | some t => tableLost t a (latchFault 1 a f)
      | none => f

/-- SCRUB_PASS (R815): in RUN every word of every table is read once. -/
def scrubPass (f : FieldDie) : FieldDie :=
  if powerState f = 0 then
    forAll (f.flt.badWords.map (fun b => b.1)) checkWord (f.bump F_FLT_SCRUB_passes 1)
  else f

def execScrubPass (s : State) : Host.Outcome State Fault Refusal :=
  s.keyMayStop (fun f => if f.isRunning then scrubPass f else f)

end Sys2Proof.Machine
end

