-- ==== Sys2Proof/Machine/RegAccess.lean ====
section
/-! DEFINITION. The field die's register file as its requesters see it (chapter 6): a write of any word of the address
space with what its register brings about, and a read of any word. -/

namespace Sys2Proof.Machine

/-! ### The serial port's registers (R735, R736, R738, R739, R751) -/

/-- A serial-manager reset (R739). -/
def managerReset (f : FieldDie) : FieldDie :=
  let f := winReset (requesterReset (fun r => r == 0x40) f)
  { f with spi := { f.spi with crcLast := false, badLast := false } }.raise F_SPI_EVT 2

/-- The silence of the manager is measured from now (R738). -/
def heardManager (f : FieldDie) : FieldDie := { f with spi := { f.spi with lastCmdTick := f.now, timedOut := false } }

/-- A write that changes role is judged (R736); other fields of the register are written either way. A change to master is
a serial-manager reset; one to slave begins a silence, and leaves a time-out that has occurred as it is (R738). -/
def judgeRole (req data : Nat) (f : FieldDie) : FieldDie :=
  let old := f.get F_SPI_CTRL_role
  if f.spi.flash ≠ 0 then (storeWrite req F_SPI_CTRL (putBits data 31 31 old) f).raise F_SPI_EVT 5
  else if old = 1 then managerReset (storeWrite req F_SPI_CTRL data f)
  else
    let f := storeWrite req F_SPI_CTRL data f
    { f with spi := { f.spi with lastCmdTick := f.now } }

/-- A write of F_SPI_CTRL. A change of role by the manager itself waits for the end of its WRITE. -/
def writeSpiCtrl (req data : Nat) (f : FieldDie) : FieldDie :=
  let f := if req = 0x40 then { f with spi := { f.spi with roleHeld := none } } else f
  if bitOf data 31 = f.get F_SPI_CTRL_role then storeWrite req F_SPI_CTRL data f
  else if req = 0x40 then { f with spi := { f.spi with roleHeld := some (word data) } }
  else judgeRole req data f

/-- SPI_SEL rises at the end of a WRITE: a held change of role is judged. -/
def writeEnds (f : FieldDie) : FieldDie :=
  match f.spi.roleHeld with
  | some w => judgeRole 0x40 w.toNat { f with spi := { f.spi with roleHeld := none } }
  | none => f

/-- Whether a lane code of 3 stands in bits 21 to 16 (Table 18.4). -/
def laneCodeBad (data : Nat) : Bool := bitsOf data 21 20 == 3 || bitsOf data 19 18 == 3 || bitsOf data 17 16 == 3

/-- A write of F_SPI_SLAVE: in effect from the next falling edge of SPI_SEL (R751). -/
def writeSpiSlave (data : Nat) (f : FieldDie) : FieldDie :=
  if laneCodeBad data then f.raise F_SPI_EVT 3 else { f with spi := { f.spi with staged := some (word data) } }

/-- A write to the SPI block. -/
def spiWrite (req addr data : Nat) (f : FieldDie) : FieldDie :=
  if addr = F_SPI_CTRL then writeSpiCtrl req data f
  else if addr = F_SPI_SLAVE then writeSpiSlave data f
  else if addr = F_SPI_MGR then heardManager (storeWrite req addr data f)
  else if addr = F_SPI_MFLASH0 ∧ laneCodeBad data then f.raise F_SPI_EVT 3
  else storeWrite req addr data f

/-! ### Writes by block -/

/-- A word below the highest of a multi-word value is staged (R250). A write-only value under a lock that the requester
does not hold is refused at once: the write is an attempt to act (R246). -/
def stageLow (req addr data : Nat) (f : FieldDie) : FieldDie :=
  if lkDenied f req addr then lkReject req addr f else stageWord req addr (word data) f

/-- Whether `addr` is a word of a multi-word value other than its highest. -/
def isStagedLow (addr : Nat) : Bool :=
  match (stageGroup addr).getLast? with
  | some top => addr != top
  | none => false

/-- A write to the GLB block. The software reset itself is carried out by the machine, once the message that carries the
write has been applied as far as this word. -/
def glbWrite (req addr data : Nat) (f : FieldDie) : FieldDie :=
  if addr = F_GLB_RESET then (if data = 0x0000A55A then { f with resetBy := setBit f.resetBy 3 } else f)
  else if addr = F_GLB_START then startGo data f
  else if addr = F_GLB_BASE_MAC_HI then refreshGm 1 (refreshGm 0 (applyGroup req addr data f))
  else if addr = F_GLB_CNT_SNAP then writeSnap req data f
  else storeWrite req addr data f

/-- A write to the PWR block. -/
def pwrWrite (req addr data : Nat) (f : FieldDie) : FieldDie :=
  if addr = F_PWR_CTRL then writePwrCtrl req data f
  else if addr = F_PWR_EXP_BASE_SEC_HI then writeExpBase req data f
  else storeWrite req addr data f

/-- A write to the CFG block. -/
def cfgWrite (req addr data : Nat) (f : FieldDie) : FieldDie :=
  if addr = F_CFG_PROOF_CMD then writeProofCmd req data f
  else if addr = F_CFG_PROOF_EXP then { f with cfg := { f.cfg with expect := data } }
  else if F_CFG_LOCK 0 ≤ addr ∧ addr < F_CFG_LOCK 32 then
    (if hasBit data 0 ∧ addr % 4 = 0 then releaseLock req ((addr - F_CFG_LOCK 0) / 4) f else f)
  else storeWrite req addr data f

/-- A write to the PIN block. -/
def pinWrite (req addr data : Nat) (f : FieldDie) : FieldDie :=
  if addr = F_PIN_OUT ∨ addr = F_PIN_OUT_S ∨ addr = F_PIN_OUT_C ∨ addr = F_PIN_OUT_T then writePinOut req (addr % 0x100) data f
  else if F_PIN_CFG 4 ≤ addr ∧ addr < F_PIN_CFG 24 ∧ addr % 4 = 0 then writePinCfg req ((addr - F_PIN_CFG 0) / 4) data f
  else storeWrite req addr data f

/-- A write to the FLT block. -/
def fltWrite (req addr data : Nat) (f : FieldDie) : FieldDie :=
  if addr = F_FLT_TKO then failedCleared (storeWrite req addr data f)
  else if addr = F_FLT_ST_COMMIT then writeStCommit data f
  else storeWrite req addr data f

/-- A write to the PORT blocks. -/
def portWrite (req addr data : Nat) (f : FieldDie) : FieldDie :=
  let n := (addr - 0x100000) / 0x1000
  let o := addr % 0x1000
  if o = 0x00 then writePortMode req n data f
  else if o = 0x08 then writeMaxFrame req n data f
  else if o = 0x0C ∧ n < 12 then writeSleep req n data f
  else if o = 0x10 ∧ n < 12 then writePreempt req n data f
  else if o = 0x18 ∧ n < 2 then writePodl req n data f
  else storeWrite req addr data f

/-- A write to the MDS block. -/
def mdsWrite (req addr data : Nat) (f : FieldDie) : FieldDie :=
  let k := (addr - 0x120000) / 0x100
  let o := addr % 0x100
  if o = 0x00 then writePlca req k data f else if o = 0x04 then writeSegBurst req k data f else storeWrite req addr data f

/-- A write to the FWD block. -/
def fwdWrite (req addr data : Nat) (f : FieldDie) : FieldDie :=
  if addr = F_FWD_AGE then writeAge req data f
  else if addr = F_FWD_FLUSH then writeFdbFlush req data f
  else if F_FWD_AGG 0 ≤ addr ∧ addr < F_FWD_AGG 4 ∧ addr % 4 = 0 then writeAgg req ((addr - F_FWD_AGG 0) / 4) data f
  else storeWrite req addr data f

/-- A write to the BUF block. -/
def bufWrite (req addr data : Nat) (f : FieldDie) : FieldDie :=
  if addr = F_BUF_CTRL then writeBufCtrl data f
  else if addr = F_BUF_FLUSH then writeBufFlush req data f
  else if F_BUF_PORT_CFG 0 ≤ addr ∧ addr < F_BUF_PORT_CFG 17 ∧ addr % 16 = 0 then
    writeBufPortCfg req ((addr - F_BUF_PORT_CFG 0) / 16) data f
  else storeWrite req addr data f

/-- A write to the STR block. -/
def strWrite (req addr data : Nat) (f : FieldDie) : FieldDie :=
  let n := (addr - 0x1A0400) / 0x40
  let o := addr % 0x40
  if addr = F_STR_CHG then writeChg req data f
  else if addr = F_STR_UNLATCH then writeUnlatch data f
  else if 0x1A0400 ≤ addr ∧ n < 17 ∧ o = 0x14 then applyGroup req addr data f
  else if 0x1A0400 ≤ addr ∧ n < 17 ∧ (o = 0x34 ∨ o = 0x38) then writeRl req n addr data f
  else storeWrite req addr data f

/-- A write to the registers of one gPTP instance or of one port's time unit. -/
def ptpWrite (req addr data : Nat) (f : FieldDie) : FieldDie :=
  if addr < 0x1C0200 then
    let n := (addr - 0x1C0100) / 0x40
    if addr % 0x40 = 0 then (if n < 2 then writePtpCfg req n data f else f) else refreshPtp (storeWrite req addr data f)
  else writePdly req ((addr - 0x1C0200) / 0x20) addr data f

/-- A write to the TIM block. -/
def timWrite (req addr data : Nat) (f : FieldDie) : FieldDie :=
  let k := (addr - 0x1C0400) / 0x20
  if addr = F_TIM_SYS then writeTimSys req data f
  else if addr = F_TIM_CAP_CTRL then writeTimCap data f
  else if addr = F_TIM_A_INC_HI then writeInc req data f
  else if addr = F_TIM_A_SET_SEC_HI then writeASet req data f
  else if addr = F_TIM_A_STEP then writeStep req 0 data f
  else if addr = F_TIM_B_RATE then writeRate data f
  else if addr = F_TIM_B_OFF_SEC_HI then writeBOff req data f
  else if addr = F_TIM_B_STEP then writeStep req 1 data f
  else if 0x1C0100 ≤ addr ∧ addr < 0x1C0400 then ptpWrite req addr data f
  else if 0x1C0400 ≤ addr ∧ addr < 0x1C0480 ∧ (addr % 0x20 = 0x08 ∨ addr % 0x20 = 0x14) then applyGroup req addr data f
  else if 0x1C0400 ≤ addr ∧ addr < 0x1C0480 ∧ addr % 0x20 = 0x1C then writeShutter req k data f
  else storeWrite req addr data f

/-- A write of F_XNG_CTRL. -/
def writeXngCtrl (req data : Nat) (f : FieldDie) : FieldDie :=
  let f := storeWrite req F_XNG_CTRL data f
  if hasBit data 1 ∧ f.isRunning then f.onXng retrain else f

/-- A write to the XNG or TWN block. -/
def linkWrite (req addr data : Nat) (f : FieldDie) : FieldDie :=
  if addr = F_XNG_CTRL then writeXngCtrl req data f
  else if addr = F_TWN_CTRL then (if f.isRunning then writeTwnCtrl req data f else storeWrite req addr data f)
  else if addr = F_TWN_REVERT then
    let f := storeWrite req addr data f
    if recentReversions f = [] then holdoffReset f else f
  else storeWrite req addr data f

/-- A write to a register block. -/
def blockWrite (req addr data : Nat) (f : FieldDie) : FieldDie :=
  if 0x070000 ≤ addr ∧ addr < 0x080000 then writePtb req addr data f
  else if isSqReg addr then sqWrite addr data f
  else if isStagedLow addr then stageLow req addr data f
  else if addr < 0x010000 then glbWrite req addr data f
  else if addr < 0x020000 then pwrWrite req addr data f
  else if addr < 0x030000 then cfgWrite req addr data f
  else if addr = F_KEY_CMD then writeKeyCmd req data f
  else if addr < 0x040000 then storeWrite req addr data f
  else if addr < 0x050000 then spiWrite req addr data f
  else if addr < 0x060000 then pinWrite req addr data f
  else if addr < 0x070000 then fltWrite req addr data f
  else if 0x100000 ≤ addr ∧ addr < 0x110000 then portWrite req addr data f
  else if 0x120000 ≤ addr ∧ addr < 0x120400 then mdsWrite req addr data f
  else if addr = F_CLS_CAP_CTRL then writeCapCtrl req data f
  else if 0x160000 ≤ addr ∧ addr < 0x170000 then fwdWrite req addr data f
  else if 0x180000 ≤ addr ∧ addr < 0x190000 then bufWrite req addr data f
  else if 0x1A0000 ≤ addr ∧ addr < 0x1B0000 then strWrite req addr data f
  else if 0x1C0000 ≤ addr ∧ addr < 0x1D0000 then timWrite req addr data f
  else if 0x1E0000 ≤ addr then linkWrite req addr data f
  else storeWrite req addr data f

/-- A whole word written anywhere in the field address space (R242 to R251, R842 to R845). -/
def writeWord (req addr data : Nat) (f : FieldDie) : FieldDie :=
  if addr < 0x200000 then blockWrite req addr data f
  else if addr < 0xE00000 then tableWrite req addr data f
  else if 0xF00000 ≤ addr ∧ addr < 0xF10000 ∧ req = 0x40 then winWrite (addr - 0xF00000) data f
  else f

/-- A write access of requester `req` with byte enables `be` (R243, R247). Nothing is written once a software reset has
been asked for. DESIGN CHOICE (log entry 124): a write of fewer than 32 bits raises bad_access at an address without a
register too, where R244 has a whole write raise nothing. -/
def fieldWrite (req addr be data : Nat) (f : FieldDie) : FieldDie :=
  if f.canWrite req = false ∨ f.resetBy ≠ 0 then f
  else if be ≠ 15 then badAccess req addr f.napBreak
  else writeWord req addr data f.napBreak

/-- An access to the register file, and the software reset that it may have asked for (R165). -/
def State.onAccess (s : State) (g : FieldDie → FieldDie) : Host.Outcome State Fault Refusal :=
  let f := g s.fld
  if released s.fld ∧ f.resetBy ≠ 0 then { s with fld := f }.fieldReset 3 else .next { s with fld := settle f }

/-! ### Reads (R243, R244, R849) -/

/-- The lane fields that a link's status shows: lanes carried on the spare in either direction. -/
def linkLanes (l : Link) : Nat := l.rxFailed % 8 * 2 ^ 12 + l.txFailed % 8 * 2 ^ 8

/-- F_XNG_STAT and H_XNG_STAT (Table 14.10). -/
def linkStat (l : Link) : Nat :=
  l.phase * 2 ^ 28 + (if l.everUp then 2 ^ 27 else 0) + linkLanes l + (if l.rxSpareBad then 2 ^ 11 else 0) + (if l.txSpareBad then 2 ^ 7 else 0)

/-- A read of F_STR_GCL_n_CT_NS: the pending change time, its seconds captured into the two registers that follow. Once a
change has been carried out the value is open until the next one is pending. -/
def readChangeTime (n : Nat) (f : FieldDie) : Nat × FieldDie :=
  let x := f.gateX n
  let (t, f) := if x.pending ∨ x.ct = 0 then (x.ct, f) else f.free
  (nsOf t, (f.wrN (F_STR_GCL_CT_SEC_LO n) (secOf t % 2 ^ 32)).wrN (F_STR_GCL_CT_SEC_HI n) (secOf t / 2 ^ 32 % 65536))

/-- The words that are read from state held elsewhere than in the register file, without a side effect. -/
def liveWord (req addr : Nat) (f : FieldDie) : Nat :=
  if addr = F_GLB_CNT_SNAP then (bankOf f req).read
  else if addr = F_PWR_SL_CNT_LO then f.pwr.sl % 2 ^ 32
  else if addr = F_PWR_SL_CNT_HI then f.pwr.sl / 2 ^ 32 % 65536
  else if addr = F_SPI_STAT then putBits (f.rdN addr) 31 31 (if req = 0x40 then 1 else 0)
  else if addr = F_PIN_IN then pinIn f
  else if addr = F_PIN_OUT_S ∨ addr = F_PIN_OUT_C ∨ addr = F_PIN_OUT_T then f.rdN F_PIN_OUT
  else if addr = F_TIM_DELTA then ofSigned 32 (deltaNs f)
  else if addr = F_XNG_STAT then linkStat f.xng
  else if addr = F_XNG_TX_SEQ then f.xng.txNext
  else if addr = F_XNG_RX_SEQ then f.xng.expect
  else if addr = F_XNG_REPLAY then f.xng.replay.length
  else if addr = F_XNG_EVTQ then f.evtq.length
  else if addr = F_TWN_STAT then
    putBits (putBits (putBits (f.rdN addr) 23 20 f.twin.phase) 14 12 f.twin.rxFailed) 10 8 f.twin.txFailed
  else if addr = F_TWN_TRANSIT then f.twin.transit % 2 ^ 20
  else if addr = F_TWN_HOLD then putBits (f.rdN addr) 15 0 (if f.role = 3 then holdLeft f else 0)
  else f.rdN addr

/-- A word of the field address space as requester `req` reads it, and the state the read leaves. -/
def readWord (req addr : Nat) (f : FieldDie) : Word × FieldDie :=
  let n := (addr - 0x1A0400) / 0x40
  if F_CFG_LOCK_ACQ 0 ≤ addr ∧ addr < F_CFG_LOCK_ACQ 32 ∧ addr % 4 = 0 then acquireLock req ((addr - F_CFG_LOCK_ACQ 0) / 4) f
  else if (tsqAt addr).isSome ∨ (captureAt addr).isSome then
    let f := popAt addr f
    (f.rd addr, f)
  else if 0x1A0400 ≤ addr ∧ n < 17 ∧ addr = F_STR_GCL_CT_NS n then
    let (v, f) := readChangeTime n f
    (word v, f)
  else if addr < 0x200000 then (word (liveWord req addr f), f)
  else if addr < 0xE00000 then
    let f := checkWord addr f
    (f.rd addr, f)
  else if addr < 0xE80000 then (word (countWord f.cnt addr), f)
  else if addr < 0xF00000 then (word (countWord (bankOf f req).view (addr - 0x80000)), f)
  else if addr < 0xF10000 then (word (winWord f (addr - 0xF00000)), f)
  else (0, f)

/-- The bytes of a word that byte enables name. -/
def laneMask (be : Nat) : Nat :=
  (if hasBit be 0 then 0xFF else 0) + (if hasBit be 1 then 0xFF00 else 0) + (if hasBit be 2 then 0xFF0000 else 0) +
    (if hasBit be 3 then 0xFF000000 else 0)

/-- A read access with byte enables `be` (R243): the addressed bytes of the whole word; what stands in the others is open. -/
def fieldRead (req addr be : Nat) (f : FieldDie) : Word × FieldDie :=
  let (w, f) := readWord req (addr / 4 * 4) f
  if be % 16 = 15 then (w, f)
  else
    let (v, f) := f.free
    (word (Nat.land w.toNat (laneMask be) + andNot (v % 2 ^ 32) (laneMask be)), f)

/-! ### Commands -/

/-- SQ_CLEAR (R253): a clear write to an SQ register. -/
def execSqClear (req addr : Nat) (data : Word) (s : State) : Host.Outcome State Fault Refusal :=
  s.onWrite req (fun f => if isSqReg addr then blockWrite req addr data.toNat f else f)

/-- SPI_ROLE_WRITE (R736): a write of F_SPI_CTRL; one by the serial manager is a WRITE of that word alone. -/
def execSpiRoleWrite (req : Nat) (data : Word) (s : State) : Host.Outcome State Fault Refusal :=
  s.onWrite req (fun f => if req = 0x40 then writeEnds (writeSpiCtrl req data.toNat f) else writeSpiCtrl req data.toNat f)

/-- SPI_SLAVE_WRITE (R751): see `writeSpiSlave`. -/
def execSpiSlaveWrite (req : Nat) (data : Word) (s : State) : Host.Outcome State Fault Refusal :=
  s.onWrite req (writeSpiSlave data.toNat)

end Sys2Proof.Machine
end

