-- ==== Sys2Proof/Machine/HostAccess.lean ====
section
/-! DEFINITION. The host die's registers as its functions see them: BAR0, the doorbells of BAR2, the enables in PCI Express
configuration space, and the commands that reach registers of either die. -/

namespace Sys2Proof.Machine

/-! ### Writes to BAR0 (R670, R671, Tables 14.10, 14.11, 16.11 to 16.13, 19.5) -/

/-- A write of H_XNG_CTRL. -/
def writeHostXng (data : Nat) (h : HostDie) : HostDie :=
  let h := h.wrN H_XNG_CTRL (Nat.land data 0x00FFFF01)
  if hasBit data 1 then h.onXng retrain else h

/-- The low word of a 64-bit host value is staged for the function that wrote it (R250, R251). -/
def stageHost (fn key data : Nat) (h : HostDie) : HostDie :=
  { h with staged := h.staged.filter (fun e => !(e.1 == fn && e.2.1 == key)) ++ [(fn, key, word data)] }

/-- The high word of a 64-bit host value is written: both words are applied together, a low word not staged keeping its
value. -/
def applyHost (fn lo data : Nat) (h : HostDie) : HostDie :=
  let v := match h.staged.find? (fun e => e.1 == fn && e.2.1 == lo) with
    | some e => e.2.2.toNat
    | none => h.rdN lo
  { (h.wrN lo v).wrN (lo + 4) data with staged := h.staged.filter (fun e => !(e.1 == fn && e.2.1 == lo)) }

/-- The enable of the ring whose base lies at offset `o` of the queue-pair registers: bit 31, 30 or 29 of its CTRL. -/
def baseEnabled (q o : Nat) (h : HostDie) : Bool :=
  hasBit (h.rdN (H_FUN_Q_CTRL q)) (if o < 0x10 then 31 else if o < 0x18 then 30 else 29)

/-- A write at offset `o` of the queue-pair registers of global queue pair `q`; of an enabled ring's base one that would
change it is refused (R678). -/
def writeQueue (fn q o data : Nat) (h : HostDie) : HostDie :=
  let k := 0x1000000 + 0x40 * q + o
  if o = 0x04 then writeQCtrl q data h
  else if o = 0x20 then h.wrN k data
  else if 0x08 ≤ o ∧ o < 0x20 then
    if o % 8 = 0 then stageHost fn k data h
    else if baseEnabled q o h then
      let g := applyHost fn (k - 4) data h
      let kept := { h with staged := g.staged }
      if g.rd k = h.rd k ∧ g.rd (k - 4) = h.rd (k - 4) then kept else geometryRefused q kept
    else applyHost fn (k - 4) data h
  else h

/-- A write to the MSI-X table of function `fn`: of a vector's control word only the mask bit is held. A vector that becomes
unmasked sends its pending message (R669). -/
def writeMsix (fn o data : Nat) (h : HostDie) : HostDie :=
  let v := o / 16
  if v < h.get (H_FUN_FN_CFG_vec_count fn) then
    let h := h.wrN (fn * 0x10000 + 0x4000 + o) (if o % 16 = 12 then data % 2 else data)
    if o % 16 = 12 then flushPba fn v h else h
  else h

/-- A write to the registers that every function has in its own BAR0. -/
def writeOwn (fn off data : Nat) (h : HostDie) : HostDie :=
  if off = 0x1100 then h.wrN (H_XNG_PAGE fn) (bitsOf data 9 0)
  else if off = 0x1104 then (if hasBit data 0 then h.put (H_XNG_AP_STAT_barrier fn) 0 else h)
  else if off = 0x110C then holdPurge fn data h
  else if off = 0x3000 then h.wrN (H_FUN_QSEL fn) (bitsOf data 10 0)
  else if 0x3004 ≤ off ∧ off < 0x3040 then
    match globalQp h fn (h.get (H_FUN_QSEL_qsel fn)) with
    | some q => writeQueue fn q (off - 0x3000) data h
    | none => h
  else if off = 0x3084 then h.wrN (H_FUN_ECFG fn) (bitsOf data 8 0)
  else if off = 0x30F0 then hostSqWrite (H_FUN_EVT fn) data h
  else if 0x4000 ≤ off ∧ off < 0x5000 then writeMsix fn (off - 0x4000) data h
  else h

/-- A write of H_INT_EVQ_HEAD, judged as a completion head (Table 16.13). -/
def writeEvqHead (data : Nat) (h : HostDie) : HostDie :=
  match judgeHead data (h.rdN H_INT_EVQ_HEAD) (h.rdN H_INT_EVQ_TAIL) with
  | .same => h
  | .stale => h
  | .overrun => h.raise (H_FUN_EVT 0) 1
  | .accept => h.wrN H_INT_EVQ_HEAD data

/-- A write to the event ring's registers. -/
def writeEvq (off data : Nat) (h : HostDie) : HostDie :=
  if off = H_INT_EVQ_BASE_LO then stageHost 0 off data h
  else if off = H_INT_EVQ_BASE_HI then applyHost 0 H_INT_EVQ_BASE_LO data h
  else if off = H_INT_EVQ_CTRL then
    let was := h.flag H_INT_EVQ_CTRL_en
    let h := h.wrN off (Nat.land data 0x800F01FF)
    if !was && h.flag H_INT_EVQ_CTRL_en then (h.wrN H_INT_EVQ_HEAD 0).wrN H_INT_EVQ_TAIL 0 else h
  else if off = H_INT_EVQ_MOD then h.wrN off data
  else if off = H_INT_EVQ_HEAD then writeEvqHead data h
  else h

/-- A write to the check-value engines. -/
def writeChk (fn off data : Nat) (h : HostDie) : HostDie :=
  let n := (off - 0x6000) / 0x20
  if off % 0x20 = 0x00 then writeChkCtrl (chkSets n data h) n data h
  else if off % 0x20 = 0x04 then stageHost fn off data h
  else if off % 0x20 = 0x08 then writeChkRun fn n data h
  else h

/-- A write to the host pins (R773, Table 19.5). -/
def writeHostPin (off data : Nat) (h : HostDie) : HostDie :=
  let old := h.rdN H_PIN_OUT
  let d := data % 65536
  if off = H_PIN_OUT then h.wrN H_PIN_OUT d
  else if off = H_PIN_OUT_S then h.wrN H_PIN_OUT (Nat.lor old d)
  else if off = H_PIN_OUT_C then h.wrN H_PIN_OUT (andNot old d)
  else if off = H_PIN_OUT_T then h.wrN H_PIN_OUT (Nat.xor old d)
  else if off = H_PIN_DIR then h.wrN H_PIN_DIR d
  else if off = H_PIN_EDGE_CFG then h.wrN H_PIN_EDGE_CFG data
  else h

/-- Whether an offset is that of an SQ register of the physical function's BAR0 alone. -/
def isHostSq (off : Nat) : Bool := off == H_XNG_EVT || off == H_PIN_EVT || off == H_FLT_EVT

/-- A write to the registers of the physical function's BAR0 alone, at fine tick `now`. -/
def writePf (now off data : Nat) (h : HostDie) : HostDie :=
  if isHostSq off then hostSqWrite off data h
  else if off = H_XNG_CTRL then writeHostXng data h
  else if 0x2000 ≤ off ∧ off < 0x2200 then writeFnConfig ((off - 0x2000) / 8) (off % 8 == 4) data h
  else if 0x2400 ≤ off ∧ off < 0x2800 then writeSteer ((off - 0x2400) / 16) (off / 4 % 4) data h
  else if 0x5800 ≤ off ∧ off < 0x581C then writeEvq off data h
  else if 0x6000 ≤ off ∧ off < 0x6100 then writeChk 0 off data h
  else if off = H_TSQ_PTM_CFG then h.wrN off (data % 65536)
  else if off = H_TSQ_CORR_CTRL then corrSnap data h
  else if 0x8000 ≤ off ∧ off < 0x8078 then writeHostPin off data h
  else if 0x9100 ≤ off ∧ off < 0x9180 then writeHostPtb now 0 off data h
  else h

/-- Whether an offset lies in the ranges that every function's BAR0 shows (R671, Table 23.19). -/
def ownRange (off : Nat) : Bool :=
  (decide (0x1100 ≤ off) && decide (off < 0x1110)) || (decide (0x3000 ≤ off) && decide (off < 0x3088)) ||
    (decide (0x30F0 ≤ off) && decide (off < 0x30F8)) || (decide (0x4000 ≤ off) && decide (off < 0x5020))

/-- A write of function `fn` at a BAR0 offset (R670, R671): 4-byte aligned and whole, or through the aperture. -/
def hostWrite (now fn off be data : Nat) (h : HostDie) : HostDie :=
  if 0xC000 ≤ off then apertureWrite fn (off - 0xC000) be be [word data] h
  else if off % 4 ≠ 0 ∨ be ≠ 15 then h
  else if ownRange off then writeOwn fn off data h
  else if fn = 0 then writePf now off data h
  else h

/-! ### Doorbells (R681, R682, R857, R858) -/

/-- A write of function `fn` at a BAR2 offset. -/
def bellWrite (fn off data : Nat) (h : HostDie) : HostDie :=
  let l := off / 0x20
  let o := off % 0x20
  if o = 0x00 then txBell fn l data h
  else if o = 0x08 then rxBell fn l data h
  else if o = 0x10 then cqBell fn l data h
  else if o = 0x18 ∨ o = 0x1C then funEvent fn 0 l h
  else h

/-! ### Configuration space (R667 to R669) -/

/-- A capability of PCI Express that Table 16.1 names. -/
inductive PcieCap
  | powerManagement | msix | pcieEndpoint | flr | aspmL1 | aer | ari | sriov | ptmRequester
  | msi | ats | pri | pasid | ltr | tph | l0s | l1Substates
deriving DecidableEq, Repr

/-- What a function presents in its configuration space (Table 16.1): BARs are 64-bit and not prefetchable, sizes in
bytes. -/
structure PcieIdentity where
  vendor : Nat := 0x1F8C
  device : Nat
  revision : Nat := 0xA1
  classCode : Nat := 0x020000
  bar0 : Nat := 65536
  bar2 : Nat := 65536
  msixTable : Nat := 0x4000                 -- offset in BAR0
  msixPba : Nat := 0x5000
  msixSize : Nat                            -- vectors
  maxPayload : Nat := 256
  maxRead : Nat := 512                      -- the largest read request it can be set to
  caps : List PcieCap
deriving DecidableEq, Repr

/-- The identity and capabilities of function `fn` (R667). -/
def pcieIdentity (h : HostDie) (fn : Nat) : PcieIdentity :=
  if fn = 0 then
    { device := 0x7160, msixSize := h.get (H_FUN_FN_CFG_vec_count 0),
      caps := [.powerManagement, .msix, .pcieEndpoint, .flr, .aspmL1, .aer, .ari, .sriov, .ptmRequester] }
  else { device := 0x7161, msixSize := h.get (H_FUN_FN_CFG_vec_count fn), caps := [.msix, .pcieEndpoint, .flr, .aer] }

/-- TotalVFs, First VF Offset and VF Stride of the physical function (Table 16.1). -/
def sriovNumbers : Nat × Nat × Nat := (63, 1, 1)

/-- `xs` with `n` in it, or not. -/
def member (n : Nat) (on : Bool) (xs : List Nat) : List Nat :=
  if on then (if n ∈ xs then xs else xs ++ [n]) else xs.filter (fun x => x != n)

/-- Every vector of function `fn` that has become unmasked sends its pending message. -/
def flushAll (fn : Nat) (h : HostDie) : HostDie := forRange 256 (flushPba fn) h

/-- The enables of function `fn` in its configuration space, by number: 0 Bus Master Enable, 1 MSI-X Enable, 2 Function
Mask, and of the physical function 3 VF Enable, 4 NumVFs. -/
def writePcieCfg (fn k data : Nat) (h : HostDie) : HostDie :=
  if k = 0 then { h with bme := member fn (hasBit data 0) h.bme }
  else if k = 1 then flushAll fn { h with msixEn := member fn (hasBit data 0) h.msixEn }
  else if k = 2 then flushAll fn { h with msixMask := member fn (hasBit data 0) h.msixMask }
  else if k = 3 ∧ fn = 0 then { h with vfEnable := hasBit data 0 }
  else if k = 4 ∧ fn = 0 then { h with numVfs := data % 65536 }
  else h

/-! ### Reads of the host die (R671, R801, R802, R857) -/

/-- The low or high half of a 64-bit host counter. -/
def hostCount (h : HostDie) (k off : Nat) : Nat := if off % 8 < 4 then h.cntAt k % 2 ^ 32 else h.cntAt k / 2 ^ 32

/-- A word of the MSI-X pending-bit array of function `fn`. -/
def pbaWord (h : HostDie) (fn o : Nat) : Nat :=
  ((List.range 32).filter (fun i => h.msixPba.contains (256 * fn + 8 * (o / 4 * 4) + i))).foldl setBit 0

/-- A read of the registers that every function has in its own BAR0. -/
def readOwn (fn off : Nat) (h : HostDie) : Nat :=
  if 0x3004 ≤ off ∧ off < 0x3080 then
    match globalQp h fn (h.get (H_FUN_QSEL_qsel fn)) with
    | some q => if off < 0x3040 then h.rdN (0x1000000 + 0x40 * q + (off - 0x3000)) else hostCount h (hcQp q ((off - 0x3040) / 8)) off
    | none => 0
  else if off = 0x3080 then fn * 2 ^ 24
  else if 0x5000 ≤ off then pbaWord h fn (off - 0x5000)
  else h.rdN (fn * 0x10000 + off)

/-- A read of the registers of the physical function's BAR0 alone. -/
def readPf (off : Nat) (h : HostDie) : Nat :=
  if off = H_XNG_STAT then linkStat h.xng
  else if off = H_XNG_TX_SEQ then h.xng.txNext
  else if off = H_XNG_RX_SEQ then h.xng.expect
  else if off = H_XNG_REPLAY then h.xng.replay.length
  else if off = H_XNG_HOLD then heldWrites h + (if 4096 ≤ heldWrites h then 2 ^ 31 else 0)
  else if off = H_XNG_TRANSIT then h.xng.transit % 2 ^ 20
  else if 0x1200 ≤ off ∧ off < 0x1400 then hostCount h (hcXng ((off - 0x1200) / 8)) off
  else if 0x3088 ≤ off ∧ off < 0x3090 then hostCount h hcNoMatch off
  else if 0x6000 ≤ off ∧ off < 0x6100 ∧ off % 0x20 = 0 then
    let n := (off - 0x6000) / 0x20
    putBits (h.rdN off) 30 30 (if h.sending.any (fun x => x.chk.any (fun c => c.1 == n)) then 1 else 0)
  else if H_PIN_OUT_S ≤ off ∧ off ≤ H_PIN_OUT_T then h.rdN H_PIN_OUT
  else h.rdN off

/-- What function `fn` reads at a BAR0 offset outside the aperture, but for the side effect of a mirror queue's POP
register, which `popHostAt` gives. -/
def hostRead (fn off : Nat) (h : HostDie) : Nat :=
  if off = H_GLB_ID then h.rdN H_GLB_ID else if ownRange off then readOwn fn off h else if fn = 0 then readPf off h else 0

/-- What function `fn` reads at a BAR2 offset (R857). -/
def bellRead (fn off : Nat) (h : HostDie) : Nat :=
  match globalQp h fn (off / 0x20) with
  | none => 0
  | some q =>
    let o := off % 0x20
    if o = 0x00 then h.rdN (H_FUN_Q_TXTAIL q)
    else if o = 0x08 then h.rdN (H_FUN_Q_RXTAIL q)
    else if o = 0x10 then h.rdN (H_FUN_Q_CQHEAD q)
    else 0

/-! ### Commands -/

/-- REGISTER_WRITE (R245): below 0x1000000 a field-die address; from there a BAR0 offset of the writing function, from
0x1010000 a BAR2 offset, and from 0x3000000 one of its enables in configuration space. -/
def execRegisterWrite (req addr be : Nat) (data : Word) (s : State) : Host.Outcome State Fault Refusal :=
  if addr < 0x1000000 then
    s.onAccess (fun f => if req = 0x40 then writeEnds (fieldWrite req addr be data.toNat f) else fieldWrite req addr be data.toNat f)
  else if addr < 0x1010000 then s.onFn req (hostWrite s.fld.now req (addr - 0x1000000) be data.toNat)
  else if addr < 0x1020000 then s.onFn req (fun h => if be = 15 then bellWrite req (addr - 0x1010000) data.toNat h else h)
  else if 0x3000000 ≤ addr then s.onFn req (writePcieCfg req (addr - 0x3000000) data.toNat)
  else s.onHost id

/-- RETRAIN (R610): a write of the CTRL register of a link end. -/
def execRetrain (l : LinkId) (req : Nat) (data : Word) (s : State) : Host.Outcome State Fault Refusal :=
  match l with
  | .field => s.onWrite req (writeXngCtrl req data.toNat)
  | .twin => s.onWrite req (linkWrite req F_TWN_CTRL data.toNat)
  | .host => s.onFn req (fun h => if req = 0 then writeHostXng data.toNat h else h)

end Sys2Proof.Machine
end

