-- ==== Sys2Proof/Machine/Startup.lean ====
section
/-! DEFINITION. The resolution of the configuration source at start-up (Table 4.4), the loading of an image
(R204 to R206), and the exit from darkroom (Table 3.5). -/

namespace Sys2Proof.Machine

/-! ### Loading an image (R206) -/

/-- Write one register of an image: only its covered fields are loaded. On wake the shutters keep their phases (R581). -/
def loadReg (a v : Nat) (f : FieldDie) : FieldDie :=
  let m := ((coveredRegs.find? (fun c => c.1 == a)).map (fun c => c.2)).getD 0
  let w := Nat.land v m + andNot (f.rdN a) m
  if f.pwr.waking ∧ 0x1C0400 ≤ a ∧ a < 0x1C0480 then f.wrN a w else fieldWrite 0x41 a 15 w f

/-- Apply one record. -/
def loadRecord (r : ImgRec) (f : FieldDie) : FieldDie :=
  match r with
  | .regs a ws => forRange ws.length (fun i f => loadReg (a + 4 * i) (ws.getD i 0) f) f
  | .table a _ st es => applyRun a st es f

/-- The identity that a header carries (R188, Table 5.12). -/
def loadIdentity (h : List Byte) (f : FieldDie) : FieldDie :=
  let mac := (h.drop 16).take 6
  let f := f.wrN F_GLB_BASE_MAC_HI (256 * byteAt mac 0 + byteAt mac 1)
  let f := f.wrN F_GLB_BASE_MAC_LO (2 ^ 24 * byteAt mac 2 + 2 ^ 16 * byteAt mac 3 + 256 * byteAt mac 4 + byteAt mac 5)
  let f := forRange 4 (fun i f => f.wrN (F_KEY_SERIAL i) (wordAt h (6 + i))) f
  let f := forRange 8 (fun i f => f.wrN (F_KEY_NAME i) (wordAt h (10 + i))) f
  (f.put F_KEY_PERS_flags (byteAt h 13)).wrN F_KEY_EDITION (wordAt h 19)

/-- Apply the records of an image; that they touch the proof is not reported. -/
def loadRecords (recs : List ImgRec) (f : FieldDie) : FieldDie :=
  dropStaged (fun r => r == 0x41) (forAll recs loadRecord (f.put F_CFG_PROOF_STAT_stale 1))

/-- Loading an image commits the proof that it holds (R175). -/
def commitLoaded (proof : Nat) (f : FieldDie) : FieldDie :=
  let f := dropTmr F_CFG_PROOF ((f.wrN F_CFG_PROOF proof).put F_CFG_PROOF_STAT_committed 1)
  let f := { f with cfg := { f.cfg with covered := false } }.put F_CFG_PROOF_STAT_stale 0
  stageImage (canonicalImage f proof) f

/-- Load a whole image that has passed its checks. -/
def loadImage (img : List Byte) (recs : List ImgRec) (f : FieldDie) : FieldDie :=
  commitLoaded (headProof img) (loadRecords recs (loadIdentity img f))

/-! ### The source (R172, Table 4.4) -/

/-- What the resolution has found: code of the source, state of F_GLB_CFG_SRC, the image to load, and whether key_fail
(R176) and key_multiple (R195) are raised. -/
structure Source where
  code : Nat := 0
  state : Nat := 1
  image : Option (List Byte × List ImgRec) := none
  keyFail : Bool := false
  multiple : Bool := false
deriving DecidableEq, Repr

/-- The image in the flash at byte address `a`, when it passes its checks. -/
def flashImage (order a : Nat) (m : List (Nat × Byte)) : Option (List Byte × List ImgRec) :=
  let h := flashRead m a 128
  if headOk h then
    let img := flashRead m a (headSize h)
    (checkImage order img).map (fun rs => (img, rs))
  else none

/-- The start-up image, when the flash rows apply: STRAP0 is 0. -/
def startImage (f : FieldDie) (m : List (Nat × Byte)) : Option (List Byte × List ImgRec) :=
  if hasBit f.straps 0 then none else flashImage f.orderCode 0 m

/-- Steps 5 and 6: the key answered and cannot be used. -/
def keyUnusable (f : FieldDie) (m : List (Nat × Byte)) : Source :=
  match startImage f m with
  | some i => { code := 4, image := some i, keyFail := true }
  | none => { code := 5, state := 3, keyFail := true }

/-- Steps 7 and 8: no key. -/
def noKey (f : FieldDie) (m : List (Nat × Byte)) : Source :=
  match startImage f m with
  | some i => { code := 3, image := some i }
  | none => { code := 0, state := if hasBit f.straps 3 then 2 else 1 }

/-- Steps 3 and 4, with the header `h` of the active slot at key address `b`. -/
def keySource (f : FieldDie) (k : KeyChip) (m : List (Nat × Byte)) (b : Nat) (h : List Byte) : Source :=
  let fromKey : Source :=
    let img := k.bytes b (headSize h)
    match checkImage f.orderCode img with
    | some rs => { code := 1, image := some (img, rs) }
    | none => keyUnusable f m
  let fh := flashRead m 0 128
  if hasBit f.straps 0 = false ∧ headOk fh ∧ headUnit fh = headUnit h ∧ headProof fh = headProof h then
    match startImage f m with
    | some i => { code := 2, image := some i }
    | none => fromKey
  else fromKey

/-- What answers the inventory of step 1: none, or a key and how many others. What INVENTORY and KEY_REPLY_TIMEOUT have
reported counts; where nothing has been reported, a key that is present answers alone. -/
def keyAnswers (f : FieldDie) (k : KeyChip) : Option Nat :=
  if hasBit f.straps 1 then none
  else match f.key.seen with
    | some n => some n
    | none => if k.present && !f.key.gone then some 0 else none

/-- The whole resolution. Several keys count as one that answered and failed its check (R195), and so does a key that is
lost while it is read. -/
def resolveSource (f : FieldDie) (k : KeyChip) (m : List (Nat × Byte)) : Source :=
  if keyAnswers f k = none then noKey f m
  else if keyAnswers f k ≠ some 0 then { keyUnusable f m with multiple := true }
  else if f.key.gone ∨ factoryOk (k.bytes 0 8) = false then keyUnusable f m
  else
    let a := k.bytes (ptrBase 0) 32
    let b := k.bytes (ptrBase 1) 32
    if ptrBlank a && ptrBlank b then noKey f m
    else match ptrSelect a b with
      | none => keyUnusable f m
      | some p =>
        let s := slotBase (ptrActive p)
        let h := k.bytes s 128
        if headOk h && persOk f.orderCode h then keySource f k m s h else keyUnusable f m

/-- The registers that the start-up read of the key fills (R212). Of several keys none is used. Whether a key that is lost
during the read has given its pointer copies before is open. -/
def fillStartKey (k : KeyChip) (f : FieldDie) : FieldDie :=
  match keyAnswers f k with
  | none => f
  | some 0 =>
    let f := (f.put F_GLB_CFG_SRC_key_seen 1) |> fillKeyUid k.uid
    let (read, f) := if f.key.gone then (hasBit f.free.1 0, f.free.2) else (true, f)
    if read && factoryOk (k.bytes 0 8) then fillKeyRegs (k.bytes (ptrBase 0) 32) (k.bytes (ptrBase 1) 32) f else f
  | some _ => (f.put F_GLB_CFG_SRC_key_seen 1).put F_KEY_STAT_present 1

/-- Apply what the resolution found. -/
def applySource (s : Source) (f : FieldDie) : FieldDie :=
  let f := if s.keyFail then { f with key := { f.key with failed := true } }.raise F_KEY_EVT 0 else f
  let f := if s.multiple then f.raise F_KEY_EVT 6 else f
  let f := match s.image with
    | some i => (loadImage i.1 i.2 f).put F_GLB_CFG_SRC_size i.1.length
    | none => f
  (f.put F_GLB_CFG_SRC_state s.state).put F_GLB_CFG_SRC_source s.code

/-! ### T_cfg -/

/-- Port `n` starts: link acquisition, or its hold. -/
def startPort (n : Nat) (f : FieldDie) : FieldDie :=
  if f.flag (F_PORT_MODE_enable n) then enablePort n f else f.put (F_PORT_STAT_down_reason n) 6

/-- The fabric forwards from now on: what a load has written takes effect, and the links start training. That of a
TZ16-FO never completes it (R3). -/
def startFabric (f : FieldDie) : FieldDie :=
  let f := { f with phase := .running, pwr := { f.pwr with rxAt := f.now }, fwd := { f.fwd with ageTick := f.now } }
  let f := domainNamed (refreshPtp (refreshPool f))
  let f := beginNetworkCycle (networkBoundary f) f
  let f := if f.flag F_TWN_CTRL_enable then twinOn f else f
  heardManager (f.onXng startTraining)

/-- The reason of the hold under which the ports start, if any (Table 4.4 step 6, R177). -/
def startHold (s : Source) : Option Nat :=
  if s.code = 5 then some 2 else if s.state = 2 then some 3 else none

/-- All ports P0 to P15 start. -/
def startPorts (hold : Option Nat) (f : FieldDie) : FieldDie :=
  let f := match hold with
    | some r => forRange 16 (holdBegin · r) f
    | none => f
  forRange 16 startPort f

/-- The flash copy of the configuration that was loaded (R175): one loaded from the key is written, as after any commit
(R122), and fails where its canonical image does not fit; one loaded from the flash is current. -/
def startFlash (s : Source) (f : FieldDie) : FieldDie :=
  if s.code = 1 then startResume (if f.flag F_KEY_STAT_image_big then List.replicate (imageMax + 1) 0 else f.cfg.image) f
  else if s.image.isSome then setResume 2 f
  else f

/-- T_cfg: the source is resolved, its configuration applied, and the fabric starts. -/
def configResolved (k : KeyChip) (m : List (Nat × Byte)) (f : FieldDie) : FieldDie :=
  let s := resolveSource f k m
  startFlash s (startPorts (startHold s) (startFabric (applySource s (fillStartKey k f))))

/-- CONFIG_SOURCE_RESOLVED (R172). -/
def execConfigSourceResolved (s : State) : Host.Outcome State Fault Refusal :=
  s.onField (fun f => if f.phase = .resolving ∧ f.pwr.waking = false then configResolved s.key s.flash f else f)

/-! ### Exit from darkroom: system time (R588, R590) -/

/-- E in units of 2^-32 ns: the safelight ticks since the entry, by the calibrated tick length. -/
def darkElapsed (f : FieldDie) : Nat := (f.pwr.sl - f.tim.darkN0) * f.tim.darkCal * 2 ^ 16

/-- Both domains advance by E, and Δ is restored (R588). -/
def darkDomains (f : FieldDie) : FieldDie :=
  let e := darkElapsed f
  let c : Nat := f.tim.darkC + e / (8 * 2 ^ 32)
  let f := setBOff (domWrap ((f.tim.darkB : Int) + (e : Int) - ((8 * c * 2 ^ 32 : Nat) : Int))) { f with tim := { f.tim with
    c := c
    a := domWrap ((f.tim.darkA + e : Nat) : Int)
    delta := f.tim.darkDelta
    lastMs := 0 } }
  (f.wrN F_TIM_B_ANCHOR_LO (c % 2 ^ 32)).wrN F_TIM_B_ANCHOR_HI (c / 2 ^ 32) |>.put F_TIM_SYS_active f.tim.darkActive

/-- A single pulse of an armed shutter that lay in darkroom, the last `e` ns, is missed (R581). -/
def missDark (e : Nat) (f : FieldDie) : FieldDie :=
  forRange 4 (fun k f => if (f.shutter k).period = 0 ∧ (f.shutter k).passed (f.sysNs - e) f.sysNs then timeEvt 1 k f else f) f

/-- System time is re-established: E is shown, in ns. -/
def darkReconcile (f : FieldDie) : FieldDie :=
  let ns := darkElapsed f / 2 ^ 32
  let f := missDark ns (darkDomains f)
  let f := { f with tim := { f.tim with lastMs := f.sysNs / 1000000 }, pwr := { f.pwr with timeDone := true, slStart := f.now } }
  ((f.wrN F_TIM_DARK_E_LO (ns % 2 ^ 32)).wrN F_TIM_DARK_E_HI (ns / 2 ^ 32)).wrN F_TIM_DARK_ERR 0x80000000

/-- An instance resumes: UNLOCKED with its integral when it had a slave port at entry, else FREE (R590). -/
def darkServo (n : Nat) (f : FieldDie) : FieldDie :=
  if ptpOn f n ∧ hasBit f.tim.darkSlave n then
    setPtpState n 2 (f.setPtpX n (fun x => { x with afterWake := true, lastSync := f.now }))
  else f

/-! ### Exit from darkroom: the resume image (R117, R129) -/

/-- Whether the restored configuration gives the proof held in its image (R117). -/
def resumeOk (f : FieldDie) : Bool := f.flag F_CFG_PROOF_STAT_committed && proofValue f == f.rdN F_CFG_PROOF

/-- The restored configuration is in force: its proof committed, meters full (R118). -/
def resumeImage (img : List Byte) (recs : List ImgRec) (f : FieldDie) : FieldDie :=
  let f := setResume 2 (loadImage img recs f)
  forAll (validMeters f) (fun m f => meterFill m true f) f

/-- Registers that carry system time across the exit (R588). -/
def isDarkTime (a : Nat) : Bool :=
  a == F_TIM_B_ANCHOR_LO || a == F_TIM_B_ANCHOR_HI || a == F_TIM_DARK_E_LO || a == F_TIM_DARK_E_HI || a == F_TIM_DARK_ERR || a == F_TIM_SYS ||
  a == F_TIM_B_OFF_NS || a == F_TIM_B_OFF_SEC_LO || a == F_TIM_B_OFF_SEC_HI

/-- R129: the die goes on as at start-up without a configuration source. -/
def resumeLost (f : FieldDie) : FieldDie :=
  let g := identityRegs { f with
    reg := f.reg.filter (fun e => isSl e.1 || isDarkTime e.1)
    gates := List.replicate 17 {}
    ports := List.replicate 17 {}
    str := {}
    cfg := {}
    tim := { f.tim with shutters := List.replicate 4 {} } }
  let g := g.wrN F_TIM_SYS (putBits (fieldDefault F_TIM_SYS).toNat F_TIM_SYS_active.hi F_TIM_SYS_active.lo f.activeDom)
  let g := g.put F_PWR_STATE_state 3
  let g := g.put F_GLB_CFG_SRC_state (if hasBit f.straps 3 then 2 else 1)
  latchFault 9 0 ({ g with pwr := { g.pwr with expBase := 0, lost := true } }.raise F_PWR_EVT 6)

/-- The resume image is read, checked and restored. -/
def resumeLoad (m : List (Nat × Byte)) (f : FieldDie) : FieldDie :=
  let f := f.put F_TIM_SYS_active f.tim.darkActive
  match flashImage f.orderCode f.pwr.resumeAt m with
  | some i =>
    let g := resumeImage i.1 i.2 f
    if resumeOk g then g.put F_GLB_CFG_SRC_state 1 else resumeLost f
  | none => resumeLost f

/-! ### Exit from darkroom: RUN -/

/-- The delays of the valid wake ramp entries that name port `n`, in fine ticks (R156). -/
def rampDelays (f : FieldDie) (n : Nat) : List Nat :=
  ((List.range 8).map (fun i => f.rdN (0x402000 + 4 * i))).filterMap (fun w =>
    if hasBit w 31 && hasBit w (n + 12) then some (bitsOf w 11 0 * usTicks) else none)

/-- The delay of port `n` after the PHY-start point: the smallest of those of its entries, 0 when none names it (R156,
R158). -/
def rampDelay (f : FieldDie) (n : Nat) : Nat :=
  match rampDelays f n with
  | [] => 0
  | d :: ds => ds.foldl min d

/-- Whether the wake was for a darkroom exposure that names port `n`: its bursts are those of a window (R145). -/
def wakeWindowed (f : FieldDie) (n : Nat) : Bool :=
  hasBit (f.rdN F_PWR_WAKE_CAUSE) 20 &&
  (expEntries f).any (fun e => expKind f e == 1 && hasBit (expPorts f e) n && (expNext f e).isSome && expNext f e == darkNext f)

/-- A T1 port begins its wake `d` fine ticks from now: at once, or with its first burst, at which the window of a wake
with none ends (R315), then. -/
def wakeAfter (n d : Nat) (f : FieldDie) : FieldDie :=
  if d = 0 then startWake n (wakeWindowed f n) f
  else (enterState n 6 0 f).setPortX n (fun x => { x with
    wakeAt := f.now + d
    persist := if wakeWindowed f n then none else some (f.now + d)
    burstAt := none
    partnerAwake := false })

/-- A port after a wake: a T1 port wakes its partner, any other acquires its link, at once or after the wake ramp's delay
(R156). -/
def wakePortUp (n : Nat) (f : FieldDie) : FieldDie :=
  if f.flag (F_PORT_MODE_enable n) = false then f.put (F_PORT_STAT_down_reason n) 6
  else
    let d := rampDelay f n
    if (f.portX n).holds ≠ [] ∨ 12 ≤ n ∨ isT1 f n = false then
      (enablePort n f).setPortX n (fun x => { x with wakeAt := f.now + d })
    else wakeAfter n d f

/-- Faults latched in darkroom are logged (R814). -/
def logDark (f : FieldDie) : FieldDie :=
  let xs := f.flt.dark
  forAll xs (fun x f => latchFault x.1 x.2 f) { f with flt := { f.flt with dark := [], held := none, heldTwin := none } }

/-- RUN: both halves of the exit are done. Without its resume image the die starts its ports as at start-up (R129). -/
def wakeDone (f : FieldDie) : FieldDie :=
  if f.pwr.timeDone = false ∨ f.phase ≠ .resolving then f
  else
    let lost := f.pwr.lost
    let f := { f with pwr := { f.pwr with waking := false, timeDone := false, lost := false } }
    let f := (f.put F_PWR_STATE_state 0).put F_PWR_STATE_dark_outcome 0x10
    let f := forRange 2 darkServo (startFabric (logDark f))
    let hold := if f.get F_GLB_CFG_SRC_state = 2 then some 3 else none
    if lost then startPorts hold f
    else forRange 16 wakePortUp (match hold with
      | some r => forRange 16 (holdBegin · r) f
      | none => f)

/-- RESUME_IMAGE_LOADED (R117). -/
def execResumeImageLoaded (s : State) : Host.Outcome State Fault Refusal :=
  s.onField (fun f =>
    if f.phase = .locked ∧ f.pwr.waking then wakeDone { resumeLoad s.flash f with phase := .resolving } else f)

/-- DARK_TIME_RECONCILE (R588): at the first safelight edge after the fabric PLL has locked. -/
def execDarkTimeReconcile (s : State) : Host.Outcome State Fault Refusal :=
  s.onField (fun f =>
    if (f.phase = .locked ∨ f.phase = .resolving) ∧ f.pwr.waking ∧ f.pwr.timeDone = false ∧ f.pwr.lockTicks = 1 ∧ f.now = f.pwr.slStart then
      wakeDone (darkReconcile f)
    else f)

end Sys2Proof.Machine
end

