-- ==== Sys2Proof/Machine/Serial.lean ====
section
/-! DEFINITION. The commands of the serial port in slave mode (chapter 18). A command of the model is one assertion of
SPI_SEL. -/

namespace Sys2Proof.Machine

/-! ### Shared parts -/

/-- Whether the slave answers at all: role 1, and initialisation complete (R876). -/
def slaveOn (f : FieldDie) : Bool := f.get F_SPI_CTRL_role == 1 && (f.phase == .resolving || f.isRunning)

/-- SPI_SEL falls: a staged F_SPI_SLAVE takes effect (R751), and the command ends NAP (R107). -/
def selFall (f : FieldDie) : FieldDie :=
  let f := f.napBreak
  match f.spi.staged with
  | some w => storeWrite 0x40 F_SPI_SLAVE w.toNat { f with spi := { f.spi with staged := none } }
  | none => f

/-- The status byte (Table 18.2), with `late` for a READ. -/
def statusByte (f : FieldDie) (late : Bool) : Byte :=
  BitVec.ofNat 8 ((if late then 0x80 else 0) + (if f.spi.crcLast then 0x40 else 0) + (if f.spi.badLast then 0x20 else 0) +
    (if f.isRunning then 0 else 0x10) + (if winIrq f then 0x02 else 0))

/-- Raise an event of the serial port with the command and address that caused it. -/
def spiEvt (bit cmd addr : Nat) (f : FieldDie) : FieldDie :=
  ((f.put F_SPI_EVT_INFO_cmd cmd).put F_SPI_EVT_INFO_addr addr).raise F_SPI_EVT bit

/-- A bad command (R744): no effect, and it has not completed. -/
def spiBad (cmd addr : Nat) (f : FieldDie) : FieldDie := spiEvt 3 cmd addr { f with spi := { f.spi with badLast := true } }

/-- A command completes (R738, R744). -/
def spiDone (cmd : Nat) (f : FieldDie) : FieldDie :=
  heardManager ({ f with spi := { f.spi with badLast := false } }.put F_SPI_STAT_last_cmd cmd)

/-- Whether the address phase of a READ or WRITE of `count` words is bad (R744), or comes before T_cfg (R876). -/
def accessBad (f : FieldDie) (addr count : Nat) : Bool :=
  !f.isRunning || count == 0 || decide (64 < count) || decide (2 ^ 24 ≤ addr) || addr % 4 != 0

/-! ### Commands -/

/-- Read `n` consecutive words from `addr` (R745). -/
def readWords : Nat → Nat → FieldDie → List Word × FieldDie
  | 0, _, f => ([], f)
  | n + 1, addr, f =>
    let (w, f) := readWord 0x40 (addr % 2 ^ 24) f
    let (ws, f) := readWords n (addr + 4) f
    (w :: ws, f)

/-- Whether the data phase of a READ begins before its words are ready (R747): it begins `dummy` clocks and a half after
the commit point. -/
def readLate (f : FieldDie) (count period : Nat) : Bool :=
  decide ((2 * f.get F_SPI_SLAVE_dummy + 1) * period < 2 * (300 + 4 * count))

/-- READ (R747): the accesses take place whether or not the data come late. -/
def spiRead (addr count period : Nat) (f : FieldDie) : FieldDie :=
  if slaveOn f = false then f
  else
    let f := selFall f
    if accessBad f addr count then spiBad 0x0B (addr % 2 ^ 24) f
    else
      let late := readLate f count period
      let st := statusByte f late
      let (ws, f) := readWords count addr f
      let data := if late then List.replicate (4 * count) 0xFF else ws.flatMap (fun w => bytesBE 4 w.toNat)
      let f := if late then spiEvt 4 0x0B addr f else f
      (spiDone 0x0B f).emit (.spiReply (st :: data))

def execRead (addr count period : Nat) (s : State) : Host.Outcome State Fault Refusal := s.onField (spiRead addr count period)

/-- Write consecutive words from `addr` (R745, R748). -/
def writeWords : List Word → Nat → FieldDie → FieldDie
  | [], _, f => f
  | w :: ws, addr, f => writeWords ws (addr + 4) (fieldWrite 0x40 (addr % 2 ^ 24) 15 w.toNat f)

/-- The CRC-16 of a WRITE (R746). -/
def writeCrc (addr : Nat) (ws : List Word) : Nat :=
  crc16 (bytesBE 1 0x02 ++ bytesBE 4 addr ++ bytesBE 1 ws.length ++ ws.flatMap (fun w => bytesBE 4 w.toNat))

/-- WRITE (R746, R748): with a wrong CRC it completes and applies nothing. SPI_SEL rises at its end. -/
def spiWriteCmd (addr : Nat) (ws : List Word) (crc : Nat) (f : FieldDie) : FieldDie :=
  if slaveOn f = false then f
  else
    let f := selFall f
    if accessBad f addr ws.length then spiBad 0x02 (addr % 2 ^ 24) f
    else if writeCrc addr ws = crc then
      let f := writeWords ws addr { f with spi := { f.spi with crcLast := false } }
      if f.resetBy ≠ 0 then f else spiDone 0x02 (writeEnds f)
    else spiDone 0x02 (spiEvt 0 0x02 addr { f with spi := { f.spi with crcLast := true } })

def execWrite (addr : Nat) (words : List Word) (crc : Nat) (s : State) : Host.Outcome State Fault Refusal :=
  s.onAccess (spiWriteCmd addr words crc)

/-- STATUS (R744): the status byte, and F_SPI_STAT with cmd_busy 1. -/
def spiStatus (f : FieldDie) : FieldDie :=
  if slaveOn f = false then f
  else
    let f := selFall f
    let reply := statusByte f false :: bytesBE 4 (liveWord 0x40 F_SPI_STAT f)
    (spiDone 0x05 f).emit (.spiReply reply)

def execStatusCommand (s : State) : Host.Outcome State Fault Refusal := s.onField spiStatus

/-- ID (R744): F_GLB_ID. -/
def spiId (f : FieldDie) : FieldDie :=
  if slaveOn f = false then f
  else
    let f := selFall f
    (spiDone 0x9F f).emit (.spiReply (bytesBE 4 (f.rdN F_GLB_ID)))

def execId (s : State) : Host.Outcome State Fault Refusal := s.onField spiId

/-- MGR_RESET (R738): a serial-manager reset when the confirmation byte is 0xA5. -/
def spiMgrReset (key : Nat) (f : FieldDie) : FieldDie :=
  if slaveOn f = false then f
  else
    let f := selFall f
    if f.isRunning = false ∨ key ≠ 0xA5 then spiBad 0x99 0 f
    else spiDone 0x99 (managerReset f)

def execMgrReset (key : Nat) (s : State) : Host.Outcome State Fault Refusal := s.onField (spiMgrReset key)

/-- MANAGER_TIMEOUT (R738): silence of mgr_to_ms milliseconds is one serial-manager reset. -/
def managerTimeout (f : FieldDie) : FieldDie :=
  let ms := f.get F_SPI_MGR_mgr_to_ms
  if f.get F_SPI_CTRL_role = 1 ∧ ms ≠ 0 ∧ f.spi.timedOut = false ∧ f.spi.lastCmdTick + ms * msTicks ≤ f.now then
    managerReset { f with spi := { f.spi with timedOut := true } }
  else f

def execManagerTimeout (s : State) : Host.Outcome State Fault Refusal := s.onRun managerTimeout

/-- SPI_SEL_ABORT (R749): SPI_SEL rises before the commit point of command `cmd`, or within the command byte, which a
`cmd` of 256 or more stands for. STATUS and ID have no commit point; any other code is bad once it is received. -/
def spiAbort (cmd addr : Nat) (f : FieldDie) : FieldDie :=
  if slaveOn f = false then f
  else
    let f := selFall f
    let hasCommit := cmd == 0x0B || cmd == 0x02 || cmd == 0x99
    if cmd = 0x05 ∨ cmd = 0x9F then f
    else if 256 ≤ cmd then spiEvt 1 0 0 (f.bump F_SPI_ABORTS_aborts 1)
    else if hasCommit && f.isRunning then spiEvt 1 cmd (addr % 2 ^ 24) (f.bump F_SPI_ABORTS_aborts 1)
    else spiBad cmd 0 f

def execSpiSelAbort (cmd addr : Nat) (s : State) : Host.Outcome State Fault Refusal := s.onField (spiAbort cmd addr)

end Sys2Proof.Machine
end

