-- ==== Sys2Proof/Machine/Messages.lean ====
section
/-! DEFINITION. What the two ends of the Crossing do with the messages that they have accepted (chapters 13, 14 and 16),
and the reset and power states of the host die. -/

namespace Sys2Proof.Machine

/-! ### Register messages at the field end (R620) -/

/-- Whether a unit is a register message: REGW, REGR or FN_RESET. -/
def isRegMsg (u : FlowUnit) : Bool := u.type == 2 || u.type == 3 || (u.type == 8 && bitsOf u.header 27 24 == 5)

/-- The register message that is next in order, when it is of type `t`. -/
def nextRegMsg (f : FieldDie) (t : Nat) : Option FlowUnit :=
  match f.xng.inbox.find? isRegMsg with
  | some u => if u.type = t then some u else none
  | none => none

/-- The field end has consumed unit `u`. -/
def consume (u : FlowUnit) (f : FieldDie) : FieldDie := { f with xng := { f.xng with inbox := f.xng.inbox.erase u } }

/-- Slot `i` of a REGW: byte enables, address and data. -/
def regwSlot (u : FlowUnit) (i : Nat) : Nat × Nat × Nat := (bitsOf (u.w (2 * i)) 31 28, bitsOf (u.w (2 * i)) 23 0, u.w (2 * i + 1))

/-- Apply the slots of a REGW in order. -/
def applyRegw (u : FlowUnit) (f : FieldDie) : FieldDie :=
  forRange (bitsOf u.header 3 0) (fun i f =>
    let s := regwSlot u i
    fieldWrite (bitsOf u.header 27 20) s.2.1 s.1 s.2.2 f) f

/-- REGW (R620): the next register message is applied. -/
def fieldRegw (f : FieldDie) : FieldDie :=
  match nextRegMsg f 2 with
  | some u => applyRegw u (consume u f)
  | none => f

def execRegw (s : State) : Host.Outcome State Fault Refusal := s.onAccess (fun f => if f.isRunning then fieldRegw f else f)

/-- The REGC that answers a REGR (Table 14.6). -/
def regcUnit (req tag : Nat) (data : Word) : FlowUnit :=
  { header := 0x40000000 + req * 2 ^ 20 + tag * 2 ^ 12, payload := bytesLE data.toNat }

/-- REGR (R620): the address is read, and the answer waits to be sent. -/
def fieldRegr (f : FieldDie) : FieldDie :=
  match nextRegMsg f 3 with
  | some u =>
    let req := bitsOf u.header 27 20
    let (w, f) := fieldRead req (bitsOf (u.w 0) 23 0) (bitsOf (u.w 0) 31 28) (consume u f)
    { f with xng := { f.xng with waiting := f.xng.waiting ++ [regcUnit req (bitsOf u.header 19 12) w] } }
  | none => f

def execRegr (s : State) : Host.Outcome State Fault Refusal := s.onRun (fun f => fieldRegr f.napBreak)

/-- FN_RESET of function `fn`, 0xFF for all of them (R281, Table 16.8). -/
def fnReset (fn : Nat) (f : FieldDie) : FieldDie :=
  let p := fun (r : Nat) => if fn = 0xFF then decide (r < 0x40) else r == fn
  purgeLaunch p 0x0E (requesterReset p f)

/-- FN_RESET_RECEIVE (R281). -/
def fieldFnReset (f : FieldDie) : FieldDie :=
  match nextRegMsg f 8 with
  | some u => fnReset (bitsOf u.header 23 16) (consume u f)
  | none => f

def execFnResetReceive (s : State) : Host.Outcome State Fault Refusal := s.onRun fieldFnReset

/-! ### Messages at the host end -/

/-- The oldest accepted unit of type `t` at the host end, and the die without it. -/
def takeHost (h : HostDie) (t : Nat) : Option (FlowUnit × HostDie) :=
  match h.xng.inbox.find? (fun u => u.type == t) with
  | some u => some (u, { h with xng := { h.xng with inbox := h.xng.inbox.erase u } })
  | none => none

/-- REGC (R626): it completes its read, or is late. -/
def hostRegc (h : HostDie) : HostDie :=
  match takeHost h 4 with
  | some (u, h) =>
    let t := bitsOf u.header 19 12
    if h.reads.any (fun r => r.1 == t) then
      { h with reads := h.reads.filter (fun r => r.1 != t) }.emit (.hostRead t (word (u.w 0)))
    else h.count (hcXng 14)
  | none => h

def execRegc (s : State) : Host.Outcome State Fault Refusal := s.onHost hostRegc

/-- EVT (R709): an event record with the message's words. -/
def hostEvt (h : HostDie) : HostDie :=
  match takeHost h 5 with
  | some (u, h) => writeRecord [u.w 0, u.w 1, u.w 2, u.w 3] (hasBit u.header 27) false h
  | none => h

def execEvt (s : State) : Host.Outcome State Fault Refusal := s.onHost hostEvt

/-- The timestamp entry that a TSR carries (Table 13.7). -/
def tsrEntry (u : FlowUnit) : TsEntry :=
  { status := bitsOf (u.w 0) 25 24, reason := bitsOf (u.w 0) 23 16, id := bitsOf (u.w 0) 15 0, ts := timeOf (u.w 1) (u.w 2) (u.w 3) }

/-- TSR (R575): the entry joins its mirror queue of 32, or is counted as lost. -/
def hostTsr (h : HostDie) : HostDie :=
  match takeHost h 6 with
  | some (u, h) =>
    let p := bitsOf u.header 27 23
    let q := if p = 16 then 12 else p
    if 12 < q ∨ (p ≠ 16 ∧ q = 12) then h
    else if 32 ≤ (h.mirrors.getD q []).length then h.bump (H_TSQ_OVF_ovf q) 1
    else { h with mirrors := modAt h.mirrors q (fun es => es ++ [tsrEntry u]) }
  | none => h

def execTsr (s : State) : Host.Outcome State Fault Refusal := s.onHost hostTsr

/-- TIME_MESSAGE_RECEIVE (R584): the message's system time is latched with host_local at its leaving instant: the count
at its arrival less the Crossing transit. -/
def hostTime (hostLocal : Nat) (h : HostDie) : HostDie :=
  let h := h.readLocal hostLocal
  match takeHost h 7 with
  | some (u, h) => { h with corrSys := (timeOf (u.w 0) (u.w 1) (u.w 2), (h.localNs + 2 ^ 64 - h.xng.transit / 16) % 2 ^ 64) }
  | none => h

def execTimeMessageReceive (hostLocal : Nat) (s : State) : Host.Outcome State Fault Refusal := s.onHost (hostTime hostLocal)

/-! ### DATA (R617 to R619) -/

/-- A link whose oldest DATA unit has been taken into the frame in assembly. -/
def takeData (l : Link) : Option (FlowUnit × Link) :=
  match l.inbox.find? (fun u => u.type == 1) with
  | some u => some (u, { l with
      inbox := l.inbox.erase u
      rxBytes := l.rxBytes ++ u.payload.take (bitsOf u.header 24 19)
      rxMeta := l.rxMeta ++ [bitsOf u.header 18 0] })
  | none => none

/-- DATA at the host end: the last unit of a frame makes it ready for delivery. -/
def hostData (h : HostDie) : HostDie :=
  match takeData h.xng with
  | some (u, l) =>
    if hasBit u.header 26 then
      { h with xng := { l with rxBytes := [], rxMeta := [] }, rxFrames := h.rxFrames ++ [(l.rxBytes, l.rxMeta)] }
    else { h with xng := l }
  | none => h

/-- DATA at the field end: the last unit of a frame ends it at P16, or discards it (R619). -/
def fieldData (f : FieldDie) : FieldDie :=
  match takeData f.xng with
  | some (u, l) =>
    if hasBit u.header 26 then
      let f := { f with xng := { l with rxBytes := [], rxMeta := [] } }
      if hasBit u.header 25 then f.countDrop 16 0x0E
      else { f with arrivals := f.arrivals ++ [launchOf l.rxBytes] }
    else { f with xng := l }
  | none => f

/-- DATA (R617): no DATA crosses the twin link. -/
def execData (l : LinkId) (s : State) : Host.Outcome State Fault Refusal := s.onLink l fieldData id hostData

/-! ### Reset and power states of the host die (R130, R167, R183, R715) -/

/-- HOST_RESET (R715): the whole host die is reset, and nothing on the field die (R168, R184). What the field die discards
for it goes with the FN_RESET that follows the next training (R281). -/
def execHostReset (s : State) : Host.Outcome State Fault Refusal :=
  .next { s with hst := { inReset := true, freeCtr := s.hst.freeCtr, out := s.hst.out } }

/-- HOST_RESET_RELEASE (R183, R281): training starts, and FN_RESET for all functions waits behind it. A TZ16-FO has no
host die. -/
def execHostResetRelease (s : State) : Host.Outcome State Fault Refusal :=
  if s.hst.inReset ∧ s.fld.order = .di then
    .next { s with hst := settleHost (announceReset 0xFF ({ s.hostNow with inReset := false }.onXng startTraining)) }
  else .next s

/-- The Crossing host end is taken down (R130). -/
def linkOff (l : Link) : LinkAns := ({ l with phase := 0, peerTrain := none, echoed := false, sparing := none },
  if l.phase = 3 then [.event 1] else [])

/-- HOST_POWER_STATE_CHANGE (R130): `d` is 0 for D0, 3 for D3hot, 4 for D3cold. -/
def hostPower (d : Nat) (h : HostDie) : HostDie :=
  if d = h.dstate then h
  else if d = 0 then { h with dstate := 0 }.onXng startTraining
  else if d = 3 ∨ d = 4 then { h with dstate := d }.onXng linkOff
  else h

def execHostPowerStateChange (d : Nat) (s : State) : Host.Outcome State Fault Refusal := s.onHost (hostPower d)

end Sys2Proof.Machine
end

