-- ==== Sys2Proof/Machine/Ticks.lean ====
section
/-! DEFINITION. The safelight tick: the coarse timekeeper, the clock cross-check, the sampling of the pairs, and the
comparisons of management requests with the data path. -/

namespace Sys2Proof.Machine

/-! ### The clock cross-check (R103) -/

/-- Whether the cross-check runs: in RUN and NAP, from the end of initialisation on. -/
def xcheckOn (f : FieldDie) : Bool := (f.phase == .resolving || f.isRunning) && decide (powerState f < 2)

/-- Fine ticks since the last safelight edge as the cross-check counts them: F_PTB_SKEW shifts the safelight period, in
units of 0.1 ppm (Table 22.1). -/
def xcheckCount (f : FieldDie) : Nat :=
  (((f.now - f.pwr.slStart : Nat) : Int) * (10000000 + toSigned 16 (f.get F_PTB_SKEW_sl_skew)) / 10000000).toNat

/-- A safelight tick ends: a count outside 3,806 to 3,823 is a CLOCK fault. The first tick after the fine tick starts is
not whole and is not judged. -/
def xcheckTick (f : FieldDie) : FieldDie :=
  let n := xcheckCount f
  let bad := xcheckOn f && !f.pwr.slFirst && (decide (n < 3806) || decide (3823 < n))
  let f := if bad then latchFault 4 0 f else f
  { f with pwr := { f.pwr with slStart := f.now, slFirst := !f.powered, overran := false } }

/-- CROSS_CHECK_OVERRUN (R103): the count within the running safelight tick has passed 3,823. -/
def xcheckOverrun (f : FieldDie) : FieldDie :=
  if xcheckOn f ∧ f.pwr.overran = false ∧ 3823 < xcheckCount f then
    latchFault 4 1 { f with pwr := { f.pwr with overran := true } }
  else f

def execCrossCheckOverrun (s : State) : Host.Outcome State Fault Refusal := s.onField xcheckOverrun

/-! ### Comparisons (R336, R531, R548, R665, R768) -/

/-- One safelight tick of the comparison of request and data path of port `n` (R336, R337). SLEEP_LOST is never
compared. -/
def portDiffer (n : Nat) (f : FieldDie) : FieldDie :=
  let bad := portState f n != 7 && requestCategory f n != stateCategory (portState f n)
  let c := if bad then (f.portX n).differ + 1 else 0
  let f := f.setPortX n (fun x => { x with differ := c })
  if c = 3 then f.raise (F_PORT_EVT n) 2 else f

/-- As above for a port's gate list: the generation of the last trigger that named it (R531). -/
def gclDiffer (n : Nat) (f : FieldDie) : FieldDie :=
  let g := f.gateX n
  let bad := g.ct != 0 && decide (g.ct ≤ f.sysNs) && g.pendGen != f.get (F_STR_GCL_OPER_oper_gen n)
  let c := if bad then (f.portX n).gclDiffer + 1 else 0
  let f := f.setPortX n (fun x => { x with gclDiffer := c })
  if c = 3 then (f.put F_STR_EVT_INFO_port n).raise F_STR_EVT 6 else f

/-- As above for the domain in use (R548). -/
def domDiffer (f : FieldDie) : FieldDie :=
  let c := if f.get F_TIM_SYS_domain = f.activeDom then 0 else f.tim.differ + 1
  let f := { f with tim := { f.tim with differ := c } }
  if c = 3 then f.raise F_TIM_EVT 9 else f

/-- The comparisons of one safelight tick, from T_cfg on. -/
def compareTick (f : FieldDie) : FieldDie :=
  if f.isRunning then wantTick (domDiffer (forRange 17 gclDiffer (forRange 16 portDiffer f))) else f

/-! ### The ticks -/

/-- FINE_TICK (R102, R533): the fine tick runs from fabric PLL lock on. The port roles follow what the links and the base
address have become (R555, R559). -/
def execFineTick (s : State) : Host.Outcome State Fault Refusal :=
  s.onField (fun f =>
    if f.powered then
      let f := fineTick f
      if f.isRunning && !f.standbyPath then refreshPtp f else f
    else f)

/-- A pair is sampled; a change of its combined state is a wake cause (R125). -/
def pairSample (pads p : Nat) (f : FieldDie) : FieldDie :=
  let old := f.get (F_PIN_PAIR_STAT_state p)
  let f := pairTick pads p f
  if f.get (F_PIN_PAIR_STAT_state p) = old then f else wakeCauseSeen (16 + p) f

/-- The coarse timekeeper reaches the wake tick (R125). -/
def wakeTickSeen (f : FieldDie) : FieldDie :=
  match f.pwr.wakeTick with
  | some k => if (f.pwr.dark ∨ f.pwr.drained.isSome) ∧ f.tim.darkN0 + k ≤ f.pwr.sl then wakeCauseSeen 20 f else f
  | none => f

/-- The counts of safelight ticks that start anew with the internal reset and with the lock of the fabric PLL. -/
def phaseTicks (f : FieldDie) : FieldDie :=
  if f.phase = .inReset then { f with pwr := { f.pwr with resetTicks := f.pwr.resetTicks + 1 } }
  else if f.powered then { f with pwr := { f.pwr with lockTicks := f.pwr.lockTicks + 1 } }
  else f

/-- One tick of the safelight clock at the pad levels `pads`. -/
def safelightTick (pads : Nat) (f : FieldDie) : FieldDie :=
  let f := phaseTicks { f with pwr := { f.pwr with sl := (f.pwr.sl + 1) % 2 ^ 48 } }
  let f := captureTick (wakeTickSeen (xcheckTick f))
  let f := refreshStops (pairSample pads 1 (pairSample pads 0 f))
  let f := if f.powered then forRange 24 (padTick pads) f else f
  compareTick { f with pin := { f.pin with pads := pads } }

/-- SAFELIGHT_TICK (R103): the safelight clock runs while VDD_SL is in range. `pads` holds the levels at FGPIO0 to
FGPIO23. -/
def execSafelightTick (pads : Nat) (s : State) : Host.Outcome State Fault Refusal :=
  s.onField (fun f => if f.pwr.vddSl then safelightTick pads f else f)

end Sys2Proof.Machine
end

