-- ==== Sys2Proof/Machine/Dispatch.lean ====
section
/-! DEFINITION. One arm per command: a direct call of its meaning. -/

namespace Sys2Proof.Machine

/-- The effect of a command on everything but the queue. -/
def exec (i : Instr) (s : State) : Host.Outcome State Fault Refusal :=
  match i with
  | .flowUnitReceive l bytes => Sys2Proof.Machine.execFlowUnitReceive l bytes s
  | .pinReset lowNs => Sys2Proof.Machine.execPinReset lowNs s
  | .powerGoodReset lowNs => Sys2Proof.Machine.execPowerGoodReset lowNs s
  | .coldReset => Sys2Proof.Machine.execColdReset s
  | .internalResetRelease afterNs straps => Sys2Proof.Machine.execInternalResetRelease afterNs straps s
  | .lineTurnOn line mv classOhms => Sys2Proof.Machine.execLineTurnOn line mv classOhms s
  | .lineTurnOff line mv => Sys2Proof.Machine.execLineTurnOff line mv s
  | .twinFaultInChange asserted ns => Sys2Proof.Machine.execTwinFaultInChange asserted ns s
  | .fabricPllLock => Sys2Proof.Machine.execFabricPllLock s
  | .initialisationComplete => Sys2Proof.Machine.execInitialisationComplete s
  | .configSourceResolved => Sys2Proof.Machine.execConfigSourceResolved s
  | .softwareReset req data => Sys2Proof.Machine.execSoftwareReset req data s
  | .startGo req data => Sys2Proof.Machine.execStartGo req data s
  | .fineTick => Sys2Proof.Machine.execFineTick s
  | .safelightTick pads => Sys2Proof.Machine.execSafelightTick pads s
  | .crossCheckOverrun => Sys2Proof.Machine.execCrossCheckOverrun s
  | .slCalUpdate period => Sys2Proof.Machine.execSlCalUpdate period s
  | .napEntry => Sys2Proof.Machine.execNapEntry s
  | .napExit => Sys2Proof.Machine.execNapExit s
  | .darkNow req data => Sys2Proof.Machine.execDarkNow req data s
  | .darkAutoRequest => Sys2Proof.Machine.execDarkAutoRequest s
  | .darkDrainDone => Sys2Proof.Machine.execDarkDrainDone s
  | .darkDrainTimeout => Sys2Proof.Machine.execDarkDrainTimeout s
  | .darkPointOfNoReturn => Sys2Proof.Machine.execDarkPointOfNoReturn s
  | .wakeCause bit => Sys2Proof.Machine.execWakeCause bit s
  | .resumeImageLoaded => Sys2Proof.Machine.execResumeImageLoaded s
  | .darkTimeReconcile => Sys2Proof.Machine.execDarkTimeReconcile s
  | .flashOperationDone => Sys2Proof.Machine.execFlashOperationDone s
  | .flashOperationTimeout => Sys2Proof.Machine.execFlashOperationTimeout s
  | .exposureNapLead entry => Sys2Proof.Machine.execExposureNapLead entry s
  | .exposureWindowStart entry => Sys2Proof.Machine.execExposureWindowStart entry s
  | .exposureWindowEnd entry => Sys2Proof.Machine.execExposureWindowEnd entry s
  | .exposureBaseWrite req data => Sys2Proof.Machine.execExposureBaseWrite req data s
  | .wakeBurstSend port => Sys2Proof.Machine.execWakeBurstSend port s
  | .wakeBurstDetect port ns => Sys2Proof.Machine.execWakeBurstDetect port ns s
  | .sleepLost port => Sys2Proof.Machine.execSleepLost port s
  | .derateSample vline tj => Sys2Proof.Machine.execDerateSample vline tj s
  | .derateReadmit => Sys2Proof.Machine.execDerateReadmit s
  | .hostPowerStateChange d => Sys2Proof.Machine.execHostPowerStateChange d s
  | .hostReset => Sys2Proof.Machine.execHostReset s
  | .hostResetRelease => Sys2Proof.Machine.execHostResetRelease s
  | .keyReadHeader req => Sys2Proof.Machine.execKeyReadHeader req s
  | .keyCommit req => Sys2Proof.Machine.execKeyCommit req s
  | .keyForcedCommit req => Sys2Proof.Machine.execKeyForcedCommit req s
  | .keyAbort req => Sys2Proof.Machine.execKeyAbort req s
  | .keyPresencePoll answers => Sys2Proof.Machine.execKeyPresencePoll answers s
  | .keyReply => Sys2Proof.Machine.execKeyReply s
  | .keyReplyTimeout => Sys2Proof.Machine.execKeyReplyTimeout s
  | .inventory others => Sys2Proof.Machine.execInventory others s
  | .loadBuffer off data => Sys2Proof.Machine.execLoadBuffer off data s
  | .programPage txn slot page crc => Sys2Proof.Machine.execProgramPage txn slot page crc s
  | .verifySlot slot size => Sys2Proof.Machine.execVerifySlot slot size s
  | .writePointer txn ptr data => Sys2Proof.Machine.execWritePointer txn ptr data s
  | .registerWrite req addr be data => Sys2Proof.Machine.execRegisterWrite req addr be data s
  | .sqClear req addr data => Sys2Proof.Machine.execSqClear req addr data s
  | .voterCheck => Sys2Proof.Machine.execVoterCheck s
  | .proofSweepStart => Sys2Proof.Machine.execProofSweepStart s
  | .proofSweepEnd => Sys2Proof.Machine.execProofSweepEnd s
  | .proofCommit req => Sys2Proof.Machine.execProofCommit req s
  | .proofCommitIfEqual req => Sys2Proof.Machine.execProofCommitIfEqual req s
  | .lockAcquire req n => Sys2Proof.Machine.execLockAcquire req n s
  | .lockRelease req n => Sys2Proof.Machine.execLockRelease req n s
  | .lockExpired n => Sys2Proof.Machine.execLockExpired n s
  | .tableEntryWrite req addr data => Sys2Proof.Machine.execTableEntryWrite req addr data s
  | .portModeWrite req n data => Sys2Proof.Machine.execPortModeWrite req n data s
  | .modeChangeHoldEnd n => Sys2Proof.Machine.execModeChangeHoldEnd n s
  | .maxFrameWrite req n data => Sys2Proof.Machine.execMaxFrameWrite req n data s
  | .linkEstablished n master => Sys2Proof.Machine.execLinkEstablished n master s
  | .linkLoss n => Sys2Proof.Machine.execLinkLoss n s
  | .sleepRequestWrite req n data => Sys2Proof.Machine.execSleepRequestWrite req n data s
  | .sleepQuiet n => Sys2Proof.Machine.execSleepQuiet n s
  | .tc10SleepAck n => Sys2Proof.Machine.execTc10SleepAck n s
  | .tc10SleepTimeout n => Sys2Proof.Machine.execTc10SleepTimeout n s
  | .tc10SleepRetry n => Sys2Proof.Machine.execTc10SleepRetry n s
  | .partnerSleep n tc10 => Sys2Proof.Machine.execPartnerSleep n tc10 s
  | .wakeNow req n data => Sys2Proof.Machine.execWakeNow req n data s
  | .podlSleepRequest n => Sys2Proof.Machine.execPodlSleepRequest n s
  | .podlWakeReq n bySoftware => Sys2Proof.Machine.execPodlWakeReq n bySoftware s
  | .verifySend n => Sys2Proof.Machine.execVerifySend n s
  | .verifyResponse n => Sys2Proof.Machine.execVerifyResponse n s
  | .verifyFail n => Sys2Proof.Machine.execVerifyFail n s
  | .pauseReceive n quanta => Sys2Proof.Machine.execPauseReceive n quanta s
  | .pauseExpire n q => Sys2Proof.Machine.execPauseExpire n q s
  | .pauseCapped n q => Sys2Proof.Machine.execPauseCapped n q s
  | .frameStart port phase => Sys2Proof.Machine.execFrameStart port phase s
  | .frameEnd port bytes cond frags => Sys2Proof.Machine.execFrameEnd port bytes cond frags s
  | .shortPass port bytes => Sys2Proof.Machine.execShortPass port bytes s
  | .fullPass port bytes => Sys2Proof.Machine.execFullPass port bytes s
  | .keyCaptureArm req data => Sys2Proof.Machine.execKeyCaptureArm req data s
  | .learn port => Sys2Proof.Machine.execLearn port s
  | .agerTick => Sys2Proof.Machine.execAgerTick s
  | .ageWrite req data => Sys2Proof.Machine.execAgeWrite req data s
  | .fdbFlush req data => Sys2Proof.Machine.execFdbFlush req data s
  | .fdbFlushDone => Sys2Proof.Machine.execFdbFlushDone s
  | .aggWrite req g data => Sys2Proof.Machine.execAggWrite req g data s
  | .memberRejoin g slot => Sys2Proof.Machine.execMemberRejoin g slot s
  | .transmitStart port => Sys2Proof.Machine.execTransmitStart port s
  | .transmitEnd port phase => Sys2Proof.Machine.execTransmitEnd port phase s
  | .queueFlush req data => Sys2Proof.Machine.execQueueFlush req data s
  | .queueFlushDone => Sys2Proof.Machine.execQueueFlushDone s
  | .bufPortCfgWrite req n data => Sys2Proof.Machine.execBufPortCfgWrite req n data s
  | .watermarkReset req data => Sys2Proof.Machine.execWatermarkReset req data s
  | .bufferAudit port => Sys2Proof.Machine.execBufferAudit port s
  | .unlatch req data => Sys2Proof.Machine.execUnlatch req data s
  | .rateLimiterWrite req n burst data => Sys2Proof.Machine.execRateLimiterWrite req n burst data s
  | .gateEdge port => Sys2Proof.Machine.execGateEdge port s
  | .scheduleTrigger req data => Sys2Proof.Machine.execScheduleTrigger req data s
  | .scheduleChange port => Sys2Proof.Machine.execScheduleChange port s
  | .networkCycleBoundary => Sys2Proof.Machine.execNetworkCycleBoundary s
  | .aStep req data => Sys2Proof.Machine.execAStep req data s
  | .bStep req data => Sys2Proof.Machine.execBStep req data s
  | .aSet req data => Sys2Proof.Machine.execASet req data s
  | .bOffWrite req data => Sys2Proof.Machine.execBOffWrite req data s
  | .incWrite req data => Sys2Proof.Machine.execIncWrite req data s
  | .rateWrite req data => Sys2Proof.Machine.execRateWrite req data s
  | .domainSwitchRequest req data => Sys2Proof.Machine.execDomainSwitchRequest req data s
  | .xcIntervalEnd => Sys2Proof.Machine.execXcIntervalEnd s
  | .syncReceive n port => Sys2Proof.Machine.execSyncReceive n port s
  | .syncTimeout n => Sys2Proof.Machine.execSyncTimeout n s
  | .syncSend n => Sys2Proof.Machine.execSyncSend n s
  | .ptpMessageReceive port bytes ts => Sys2Proof.Machine.execPtpMessageReceive port bytes ts s
  | .pdelayExchange port answered mld nrr => Sys2Proof.Machine.execPdelayExchange port answered mld nrr s
  | .shutterArm req k data => Sys2Proof.Machine.execShutterArm req k data s
  | .shutterEdge k => Sys2Proof.Machine.execShutterEdge k s
  | .captureEdge k rising phase => Sys2Proof.Machine.execCaptureEdge k rising phase s
  | .tsqPop req addr => Sys2Proof.Machine.execTsqPop req addr s
  | .tsrSend port => Sys2Proof.Machine.execTsrSend port s
  | .timeMessageSend => Sys2Proof.Machine.execTimeMessageSend s
  | .timeMessageReceive hostLocal => Sys2Proof.Machine.execTimeMessageReceive hostLocal s
  | .ptmDialogue master hostLocal => Sys2Proof.Machine.execPtmDialogue master hostLocal s
  | .corrSnap data => Sys2Proof.Machine.execCorrSnap data s
  | .timeCaptureSnap req data => Sys2Proof.Machine.execTimeCaptureSnap req data s
  | .ackSend l => Sys2Proof.Machine.execAckSend l s
  | .replayTimeout l => Sys2Proof.Machine.execReplayTimeout l s
  | .laneFailure l lane => Sys2Proof.Machine.execLaneFailure l lane s
  | .spareReceive l lane => Sys2Proof.Machine.execSpareReceive l lane s
  | .spareRepeat l => Sys2Proof.Machine.execSpareRepeat l s
  | .spareDataSeen l => Sys2Proof.Machine.execSpareDataSeen l s
  | .trainingLanePhase l rxBad txBad => Sys2Proof.Machine.execTrainingLanePhase l rxBad txBad s
  | .trainingRestart l => Sys2Proof.Machine.execTrainingRestart l s
  | .trainReceive l => Sys2Proof.Machine.execTrainReceive l s
  | .trainEchoReceive l halfInterval => Sys2Proof.Machine.execTrainEchoReceive l halfInterval s
  | .crossingTrainingComplete l => Sys2Proof.Machine.execCrossingTrainingComplete l s
  | .retrain l req data => Sys2Proof.Machine.execRetrain l req data s
  | .apertureRead f off be => Sys2Proof.Machine.execApertureRead f off be s
  | .apertureReadTimeout tag => Sys2Proof.Machine.execApertureReadTimeout tag s
  | .apertureWrite f off firstBe lastBe words => Sys2Proof.Machine.execApertureWrite f off firstBe lastBe words s
  | .regw => Sys2Proof.Machine.execRegw s
  | .regr => Sys2Proof.Machine.execRegr s
  | .regc => Sys2Proof.Machine.execRegc s
  | .evt => Sys2Proof.Machine.execEvt s
  | .fnResetReceive => Sys2Proof.Machine.execFnResetReceive s
  | .holdPurge f data => Sys2Proof.Machine.execHoldPurge f data s
  | .hello => Sys2Proof.Machine.execHello s
  | .grant => Sys2Proof.Machine.execGrant s
  | .statusSend => Sys2Proof.Machine.execStatusSend s
  | .status => Sys2Proof.Machine.execStatus s
  | .statusAbsence => Sys2Proof.Machine.execStatusAbsence s
  | .recordApply => Sys2Proof.Machine.execRecordApply s
  | .recordLost => Sys2Proof.Machine.execRecordLost s
  | .relinquish => Sys2Proof.Machine.execRelinquish s
  | .takeover => Sys2Proof.Machine.execTakeover s
  | .req => Sys2Proof.Machine.execReq s
  | .handover => Sys2Proof.Machine.execHandover s
  | .twinEnableWrite req data => Sys2Proof.Machine.execTwinEnableWrite req data s
  | .holdoffReset => Sys2Proof.Machine.execHoldoffReset s
  | .txTailDoorbell f ring data => Sys2Proof.Machine.execTxTailDoorbell f ring data s
  | .rxTailDoorbell f ring data => Sys2Proof.Machine.execRxTailDoorbell f ring data s
  | .cqHeadDoorbell f ring data => Sys2Proof.Machine.execCqHeadDoorbell f ring data s
  | .ringEnableWrite f data => Sys2Proof.Machine.execRingEnableWrite f data s
  | .functionConfigWrite f target cfg data => Sys2Proof.Machine.execFunctionConfigWrite f target cfg data s
  | .txFetchDone qp descs data => Sys2Proof.Machine.execTxFetchDone qp descs data s
  | .dmaError qp cookie => Sys2Proof.Machine.execDmaError qp cookie s
  | .txFrameCross => Sys2Proof.Machine.execTxFrameCross s
  | .data l => Sys2Proof.Machine.execData l s
  | .launchStoreArrival => Sys2Proof.Machine.execLaunchStoreArrival s
  | .launchRelease => Sys2Proof.Machine.execLaunchRelease s
  | .rxDelivery descs => Sys2Proof.Machine.execRxDelivery descs s
  | .interruptModeration qp cause => Sys2Proof.Machine.execInterruptModeration qp cause s
  | .flr f => Sys2Proof.Machine.execFlr f s
  | .hotReset => Sys2Proof.Machine.execHotReset s
  | .steeringEntryWrite f off data => Sys2Proof.Machine.execSteeringEntryWrite f off data s
  | .chkPolyWrite f n data => Sys2Proof.Machine.execChkPolyWrite f n data s
  | .chkRunWrite f n data => Sys2Proof.Machine.execChkRunWrite f n data s
  | .chkHoldWrite f n data => Sys2Proof.Machine.execChkHoldWrite f n data s
  | .spiRoleWrite req data => Sys2Proof.Machine.execSpiRoleWrite req data s
  | .read addr count period => Sys2Proof.Machine.execRead addr count period s
  | .write addr words crc => Sys2Proof.Machine.execWrite addr words crc s
  | .statusCommand => Sys2Proof.Machine.execStatusCommand s
  | .id => Sys2Proof.Machine.execId s
  | .mgrReset key => Sys2Proof.Machine.execMgrReset key s
  | .managerTimeout => Sys2Proof.Machine.execManagerTimeout s
  | .spiSelAbort cmd addr => Sys2Proof.Machine.execSpiSelAbort cmd addr s
  | .spiSlaveWrite req data => Sys2Proof.Machine.execSpiSlaveWrite req data s
  | .windowDoorbell addr data => Sys2Proof.Machine.execWindowDoorbell addr data s
  | .pinOutWrite req off data => Sys2Proof.Machine.execPinOutWrite req off data s
  | .pinCfgWrite req n data => Sys2Proof.Machine.execPinCfgWrite req n data s
  | .pinEdge n rising => Sys2Proof.Machine.execPinEdge n rising s
  | .hostPinEdge n rising => Sys2Proof.Machine.execHostPinEdge n rising s
  | .discrepancyFault pair => Sys2Proof.Machine.execDiscrepancyFault pair s
  | .pairActionWrite req pair act data => Sys2Proof.Machine.execPairActionWrite req pair act data s
  | .counterSnapshot req data => Sys2Proof.Machine.execCounterSnapshot req data s
  | .snapshotDone serial => Sys2Proof.Machine.execSnapshotDone serial s
  | .scrubPass => Sys2Proof.Machine.execScrubPass s
  | .watchdog inst => Sys2Proof.Machine.execWatchdog inst s
  | .stateTableCommit req data => Sys2Proof.Machine.execStateTableCommit req data s
  | .stateTableCheckDone => Sys2Proof.Machine.execStateTableCheckDone s
  | .hostFaultLatch code func place => Sys2Proof.Machine.execHostFaultLatch code func place s
  | .ptbArm host req data => Sys2Proof.Machine.execPtbArm host req data s
  | .ptbDelay req data => Sys2Proof.Machine.execPtbDelay req data s
  | .ptbHold req data => Sys2Proof.Machine.execPtbHold req data s
  | .ptbHoldEnd => Sys2Proof.Machine.execPtbHoldEnd s
  | .ptbLane host req data => Sys2Proof.Machine.execPtbLane host req data s
  | .ptbAck host req data => Sys2Proof.Machine.execPtbAck host req data s
  | .ptbSkew req data => Sys2Proof.Machine.execPtbSkew req data s
  | .ptbXc req data => Sys2Proof.Machine.execPtbXc req data s
  | .ptbProof req data => Sys2Proof.Machine.execPtbProof req data s
  | .ptbPair req data => Sys2Proof.Machine.execPtbPair req data s
  | .ptbEcc host req data => Sys2Proof.Machine.execPtbEcc host req data s
  | .ptbTmr req data => Sys2Proof.Machine.execPtbTmr req data s
  | .ptbLock req data => Sys2Proof.Machine.execPtbLock req data s
  | .ptbWdog req data => Sys2Proof.Machine.execPtbWdog req data s
  | .ptbDma req data => Sys2Proof.Machine.execPtbDma req data s
  | .ptbLifetimeExpiry host => Sys2Proof.Machine.execPtbLifetimeExpiry host s
  | .plcaWrite req n data => Sys2Proof.Machine.execPlcaWrite req n data s
  | .beaconSend n => Sys2Proof.Machine.execBeaconSend n s
  | .beaconReceive n => Sys2Proof.Machine.execBeaconReceive n s
  | .toTimerExpiry n => Sys2Proof.Machine.execToTimerExpiry n s
  | .transmitOpportunity n => Sys2Proof.Machine.execTransmitOpportunity n s
  | .burstTimerExpiry n => Sys2Proof.Machine.execBurstTimerExpiry n s
  | .beaconTimeout n => Sys2Proof.Machine.execBeaconTimeout n s
  | .downMsExpiry n => Sys2Proof.Machine.execDownMsExpiry n s
  | .plcaOverlap n => Sys2Proof.Machine.execPlcaOverlap n s
  | .txOverlap n => Sys2Proof.Machine.execTxOverlap n s
  | .overlapWindowEnd n => Sys2Proof.Machine.execOverlapWindowEnd n s
  | .tsr => Sys2Proof.Machine.execTsr s
  | .vddSlLoss mv => Sys2Proof.Machine.execVddSlLoss mv s
  | .darkroomPowerGoodFall => Sys2Proof.Machine.execDarkroomPowerGoodFall s
  | .overVoltageTurnOff mv => Sys2Proof.Machine.execOverVoltageTurnOff mv s
  | .overVoltageRecovery mv => Sys2Proof.Machine.execOverVoltageRecovery mv s
  | .sccpExchange n state => Sys2Proof.Machine.execSccpExchange n state s
  | .announceSend n => Sys2Proof.Machine.execAnnounceSend n s
  | .announceTimeout n => Sys2Proof.Machine.execAnnounceTimeout n s
  | .exposureWakePoint entry port => Sys2Proof.Machine.execExposureWakePoint entry port s
  | .partnerAwake port => Sys2Proof.Machine.execPartnerAwake port s
  | .postOverlapSilence n => Sys2Proof.Machine.execPostOverlapSilence n s
  | .holdoffElapsed => Sys2Proof.Machine.execHoldoffElapsed s
  | .vectorUnmask v => Sys2Proof.Machine.execVectorUnmask v s

end Sys2Proof.Machine
end

