-- ==== Sys2Proof/Safety.lean ====
section
/-! DEFINITION. The terms in which claims about runs are made: which agent a command reaches, what a command leaves as it
was, and the invariant of the byte memories. -/

namespace Sys2Proof.Machine

/-! ### Agents -/

/-- Commands that act at the host die: on its rings, registers, link end, pins, resets and power. A register write and a
pop name the die by their address, a perturbation write and a link command by their operand. -/
def reachesHost : Instr → Bool
  | .hostReset | .hostResetRelease | .hostPowerStateChange _ | .hotReset | .flr _ => true
  | .txTailDoorbell .. | .rxTailDoorbell .. | .cqHeadDoorbell .. | .ringEnableWrite .. | .functionConfigWrite .. => true
  | .txFetchDone .. | .dmaError .. | .txFrameCross | .rxDelivery _ | .steeringEntryWrite .. | .vectorUnmask _ => true
  | .chkPolyWrite .. | .chkRunWrite .. | .chkHoldWrite .. => true
  | .apertureRead .. | .apertureReadTimeout _ | .apertureWrite .. | .holdPurge .. | .regc | .evt | .tsr => true
  | .timeMessageReceive _ | .ptmDialogue .. | .corrSnap _ | .hostPinEdge .. | .hostFaultLatch .. | .ptbDma .. => true
  | .ptbArm host _ _ | .ptbLane host _ _ | .ptbAck host _ _ | .ptbEcc host _ _ | .ptbLifetimeExpiry host => host
  | .interruptModeration qp _ => decide (qp < 4096)
  | .registerWrite _ addr _ _ | .tsqPop _ addr => decide (0x1000000 ≤ addr)
  | .flowUnitReceive l _ | .ackSend l | .replayTimeout l | .laneFailure l _ | .spareReceive l _ | .spareRepeat l
  | .spareDataSeen l | .trainingLanePhase l _ _ | .trainingRestart l | .trainReceive l | .trainEchoReceive l _
  | .crossingTrainingComplete l | .retrain l _ _ | .data l => decide (l = .host)
  | _ => false



/-- Commands that can stop the fabric: the resets, the register messages that can ask for one, the loss of the safelight
supply, and darkroom. -/
def stopsFabric : Instr → Bool
  | .pinReset _ | .powerGoodReset _ | .softwareReset .. | .vddSlLoss _ | .darkPointOfNoReturn => true
  | .registerWrite .. | .regw | .write .. => true
  | _ => false

/-- Commands by which bytes of the key's memory can change: the two that the key programs it for, and everything that can
cut one of them off. -/
def writesKey : Instr → Bool
  | .programPage .. | .writePointer .. | .keyReplyTimeout | .watchdog _ | .scrubPass => true
  | c => stopsFabric c

/-- Commands by which bytes of the serial flash can change: the end of an operation, and everything that can cut one
off. -/
def writesFlash : Instr → Bool
  | .flashOperationDone | .flashOperationTimeout => true
  | c => stopsFabric c

/-- The reader has no command out that programs the key's memory. -/
def keyStill (f : FieldDie) : Bool := f.key.cmd.all (fun c => c.1 != 0xC4 && c.1 != 0xC8)

/-! ### What a command leaves as it was -/

/-- Only the field die has moved. -/
structure FieldOnly (s t : State) : Prop where
  pending : t.pending = s.pending
  hst : t.hst = s.hst
  key : t.key = s.key
  flash : t.flash = s.flash

/-- Only the host die has moved. -/
structure HostOnly (s t : State) : Prop where
  pending : t.pending = s.pending
  fld : t.fld = s.fld
  key : t.key = s.key
  flash : t.flash = s.flash

/-- The field die with its registers, counters, links, frames, messages and outputs put aside: what is left is every
piece of state that has no register and no queue of its own. -/
def FieldDie.core (f : FieldDie) : FieldDie :=
  { f with reg := [], cnt := [], evtq := [], evtLost := false, xng := {}, twin := {}, buf := {}, freeCtr := 0, out := [] }

/-- As `core`, with the time for which the die has been quiet enough for NAP, which any activity breaks (R106, R107), put
aside as well. -/
def FieldDie.rest (f : FieldDie) : FieldDie := { f.core with pwr := { f.pwr with idle := 0, napCause := false } }

/-- The registers that the end of any command can move: F_FLT_COVER follows its conditions and raises its event (R824),
and a full message queue raises evt_lost (R621). -/
def coverRegs : List Nat := [F_FLT_COVER, F_FLT_EVT2, F_XNG_EVT]

/-- Every register and table word of the field die but those listed, and those of `coverRegs`, reads as before. -/
def RegsSame (but : List Nat) (f g : FieldDie) : Prop := ∀ a, a ∉ but → a ∉ coverRegs → g.rd a = f.rd a

/-- The frame of a command on the field die: no other agent moves, what has no register (but the quiet time before NAP)
becomes that of `f'` (the die before the command, with the items named there changed), counters but those of the links'
own sending and the copies that wait are those of `f'`, and every register and table word but those listed reads as
before. -/
structure FieldFrame (but : List Nat) (f' : FieldDie) (s t : State) : Prop where
  only : FieldOnly s t
  rest : t.fld.rest = f'.rest
  cnts : ∀ a, a ≠ cXng 0 → a ≠ cXng 14 → a ≠ cTwin 0 → t.fld.cntAt a = f'.cntAt a
  queued : t.fld.buf.queued = f'.buf.queued
  waiting : t.fld.buf.waiting = f'.buf.waiting
  regs : RegsSame but s.fld t.fld

/-- What queues, frames and a port's change of state can move in the port's own record, put aside. -/
def PortX.strip (p : PortX) : PortX :=
  { p with
    sending := none, preempted := none, since := 0, sleepSent := false, drained := false, upSince := 0
    verify := 0, verifyAt := 0 }

/-- The rate level of a port, which the copies that it starts and finishes move (R515), put aside. -/
def GateX.strip (x : GateX) : GateX := { x with rlLevel := 0 }

/-- What queues, frames and a port's change of state can move, put aside. -/
def FieldDie.side (f : FieldDie) : FieldDie :=
  { f.rest with
    ports := f.ports.map PortX.strip
    gates := f.gates.map GateX.strip
    segs := []
    str := {}
    tim := { f.tim with tsq := [] }
    fwd := {}
    twn := { f.twn with fdbq := [], fdbSent := [], resync := false } }

/-- The registers of port `n` that a change of its state moves: its status, its events, and its segment's status. -/
def portRegs (n : Nat) : List Nat := F_PORT_STAT n :: F_PORT_EVT n :: if 12 ≤ n then [F_MDS_STAT (n - 12)] else []

/-- The frame of a command that moves frames and queues: no other agent moves, nothing of the die's configuration,
locks, keys, pins, power, gates or time moves but what `f'` says, and every register below those of the parser reads as
before but those listed. -/
structure LowFrame (but : List Nat) (f' : FieldDie) (s t : State) : Prop where
  only : FieldOnly s t
  side : t.fld.side = f'.side
  regs : ∀ a, a < 0x140000 → a ∉ but → a ∉ coverRegs → t.fld.rd a = s.fld.rd a

/-- The frame of a change of port `n`'s state: that of `LowFrame`, with the port's own status, events and segment
status beside the registers listed. -/
def PortFrame (n : Nat) (but : List Nat) (f' : FieldDie) (s t : State) : Prop := LowFrame (portRegs n ++ but) f' s t

/-- The host die with what the end of any command there can move put aside: its registers, counters, its link end, and the
frames, messages and records on their way out. -/
def HostDie.core (h : HostDie) : HostDie :=
  { h with
    reg := [], cnt := [], xng := {}, holdq := [], msixPba := [], mod := [], evLost := false, ready := [], sending := none
    crossing := [], freeCtr := 0, out := [] }

/-- The host registers that the end of any command there can move: heads, tails and status of queue pairs, the events of
functions, the event ring's tail and losses, the engines, and H_FLT_COVER. -/
def hostMoves (a : Nat) : Bool :=
  (decide (0x1000000 ≤ a) && (a % 0x40 == 0x24 || a % 0x40 == 0x38 || a % 0x40 == 0x3C)) ||
  (decide (a < 0x400000) && (a % 0x10000 == 0x30F0 || a % 0x10000 == 0x30F4)) ||
  a == H_INT_EVQ_TAIL || a == H_INT_EVQ_LOST || a == H_FLT_COVER || (decide (0x6000 ≤ a) && decide (a < 0x6100))

/-- Every fetched frame that asks for a check value names one of the eight engines. -/
def HostDie.enginesNamed (h : HostDie) : Bool :=
  (h.ready ++ h.sending.toList).all (fun x => x.chk.all (fun c => decide (c.1 < 8)))

/-- No frame that waits to cross has been acknowledged or aborted. -/
def HostDie.readyFresh (h : HostDie) : Bool := h.ready.all (fun x => !x.acked && !x.dead)

/-- The frame of a command on the host die: no other agent moves, what has no register and no queue becomes that of `h'`,
and, while fetched frames name engines that exist, every register but those listed, and those of `hostMoves`, reads as
before. -/
structure HostFrame (but : List Nat) (h' : HostDie) (s t : State) : Prop where
  only : HostOnly s t
  core : t.hst.core = h'.core
  regs : s.hst.enginesNamed = true → ∀ a, a ∉ but → hostMoves a = false → t.hst.rd a = s.hst.rd a

/-! ### Darkroom -/

/-- Whether a detector recognises a signal (R141, R142). -/
def recognised (f : FieldDie) : WakeSignal → Bool
  | .burst ns => decide (16000 ≤ ns)
  | .tc10 => takesTc10 f

/-- Whether a detector ignores a signal. -/
def ignored (f : FieldDie) : WakeSignal → Bool
  | .burst ns => decide (ns < 4000)
  | .tc10 => !takesTc10 f

/-- A field die in darkroom whose exit sequence has begun (R114, Table 3.5): in reset, waking, and holding FAULT_F and
TWIN_FAULT_OUT no longer. -/
def exitBegun (f : FieldDie) : FieldDie :=
  { f with
    phase := .inReset
    flt := { f.flt with held := none, heldTwin := none }
    pwr := { f.pwr with dark := false, waking := true, pgLow := false, wakePending := false } }

/-! ### The three ends of the links -/

/-- The REGC that answers REGR `u` (R620, Table 14.6): it carries what the addressed register reads. -/
def answerTo (u : FlowUnit) (f : FieldDie) : FlowUnit :=
  regcUnit (bitsOf u.header 27 20) (bitsOf u.header 19 12)
    (fieldRead (bitsOf u.header 27 20) (bitsOf (u.w 0) 23 0) (bitsOf (u.w 0) 31 28) f).1

/-- The end that a link command names. -/
def State.linkEnd (s : State) (l : LinkId) : Link :=
  match l with
  | .field => s.fld.xng
  | .twin => s.fld.twin
  | .host => s.hst.xng

/-- Whether that end acts on a link command: the field die runs, and has a Crossing; the host die is not in reset. -/
def State.linkActs (s : State) (l : LinkId) : Bool :=
  match l with
  | .field => s.fld.phase == .running && s.fld.order == .di
  | .twin => s.fld.phase == .running
  | .host => !s.hst.inReset

/-- What the die of that end has sent. -/
def State.linkOut (s : State) (l : LinkId) : List Output :=
  match l with
  | .host => s.hst.out
  | _ => s.fld.out

/-- Whether perturbation disturbs the blocks of that end in one direction, 0 received, 1 sent. -/
def State.linkNoise (s : State) (l : LinkId) (dir : Nat) : Bool :=
  match l with
  | .host => s.hst.laneNoise dir
  | _ => s.fld.laneNoise l dir

/-- retry_lim of that end. -/
def State.linkRetries (s : State) (l : LinkId) : Nat :=
  match l with
  | .host => hostRetry s.hst
  | _ => fieldRetry s.fld

/-- Whether that end may spare a lane. -/
def State.linkSpares (s : State) (l : LinkId) : Bool :=
  match l with
  | .field => s.fld.flag F_XNG_CTRL_spare_en
  | .twin => s.fld.flag F_TWN_CTRL_spare_en
  | .host => s.hst.flag H_XNG_CTRL_spare_en

/-- Counter `k` of that end's group (Table 20.5). -/
def State.linkCount (s : State) (l : LinkId) (k : Nat) : Nat :=
  match l with
  | .field => s.fld.cntAt (cXng k)
  | .twin => s.fld.cntAt (cTwin k)
  | .host => s.hst.cntAt (hcXng k)

/-- Flag `b` of that end's events; of them the twin link has only link_down. -/
def State.linkFlag (s : State) (l : LinkId) (b : Nat) : Bool :=
  match l with
  | .field => s.fld.sq F_XNG_EVT b
  | .twin => b != 1 || s.fld.sq F_TWN_EVT 6
  | .host => hasBit (s.hst.rdN H_XNG_EVT) b

/-- Only the die of that end has moved. -/
def LinkOnly (l : LinkId) (s t : State) : Prop :=
  match l with
  | .host => HostOnly s t
  | _ => FieldOnly s t

/-- The frame of a link command: no other agent moves, of the die's counters only the link's, of its registers only the
link's events and those listed, with the perturbation control that a suppressed ACK can end; a record's header unit is
timed, and the units in flight of the filtering database queue follow their ACKs. -/
def LinkFrame (but : List Nat) (l : LinkId) (s t : State) : Prop :=
  match l with
  | .field => FieldFrame (F_XNG_EVT_INFO :: (if s.fld.xng.ackAmnesty = 0 then [] else [F_PTB_ACK, F_PTB_ACTIVE]) ++ but)
      { s.fld with cnt := t.fld.cnt } s t ∧ ∀ a, (∀ k, k < 32 → a ≠ cXng k) → a ≠ cTwin 0 → t.fld.cntAt a = s.fld.cntAt a
  | .twin => FieldFrame (F_TWN_EVT :: (if s.fld.twin.ackAmnesty = 0 then [] else [F_PTB_ACK, F_PTB_ACTIVE]) ++ but)
      { s.fld with
        cnt := t.fld.cnt
        twn := { s.fld.twn with recAt := t.fld.twn.recAt, fdbSent := t.fld.twn.fdbSent, fdbq := t.fld.twn.fdbq } } s t ∧
      ∀ a, (∀ k, k < 32 → a ≠ cTwin k) → a ≠ cXng 0 → a ≠ cXng 14 → t.fld.cntAt a = s.fld.cntAt a
  | .host => HostFrame (H_XNG_EVT :: H_XNG_EVT_INFO :: (if s.hst.xng.ackAmnesty = 0 then [] else [H_PTB_ACK]) ++ but)
      { s.hst with ptb := if s.hst.xng.ackAmnesty = 0 then s.hst.ptb else t.hst.ptb } s t

/-- A field-die reset has begun by the cause of bit `bit` (R162, R163): the die is in reset with the cause noted, every
register marked SL keeps its value and every other register and table word takes its reset value, counters and frames are
gone, the coarse timekeeper goes on, and the host die stands as it was, as does the key's memory unless a command that
programs it is out. -/
structure ResetBegun (bit : Nat) (s t : State) : Prop where
  phase : t.fld.phase = .inReset
  cause : t.fld.resetBy = setBit s.fld.resetBy bit
  regs : ∀ a, t.fld.rd a = if isSl a then s.fld.rd a else fieldDefault a
  cnt : t.fld.cnt = []
  buf : t.fld.buf = {}
  staged : t.fld.staged = []
  sl : t.fld.pwr.sl = s.fld.pwr.sl
  pending : t.pending = s.pending
  hst : t.hst = s.hst
  keyMem : keyStill s.fld = true → t.key.mem = s.key.mem
  keyBuffer : t.key.buffer = []

/-- The lists that stand for a fixed number of like things have that number: ports, segments, gates, gPTP instances,
shutters, capture and timestamp queues, peer-delay sequence numbers, pins, trunks, and the mirror queues of the host die.
The frames that the host die has fetched name engines that it has, and those that wait to cross are whole. -/
structure Shape (s : State) : Prop where
  ports : s.fld.ports.length = 17
  segs : s.fld.segs.length = 4
  gates : s.fld.gates.length = 17
  ptp : s.fld.ptp.length = 2
  shutters : s.fld.tim.shutters.length = 4
  captures : s.fld.tim.captures.length = 4
  capLast : s.fld.tim.capLast.length = 4
  tsq : s.fld.tim.tsq.length = 17
  pdSeq : s.fld.tim.pdSeq.length = 12
  differ : s.fld.pin.differ.length = 24
  lineLive : s.fld.pwr.lineLive.length = 2
  lineAbove : s.fld.pwr.lineAbove.length = 2
  lineOff : s.fld.pwr.lineOff.length = 2
  lineClass : s.fld.pwr.lineClass.length = 2
  sccp : s.fld.pwr.sccp.length = 2
  mirrors : s.hst.mirrors.length = 13
  engines : s.hst.enginesNamed = true
  fresh : s.hst.readyFresh = true

/-! ### The byte memories -/

/-- The canonical form of the key's memory and page buffer, of the serial flash, and of the serial window's memory. -/
def MemoriesCanonical (s : State) : Prop :=
  Store.wf (fun _ => 0xFF) s.key.mem ∧ Store.wf (fun _ => 0xFF) s.key.buffer ∧ Store.wf (fun _ => 0xFF) s.flash ∧
    Store.wf (fun _ => 0) s.fld.window

end Sys2Proof.Machine
end

