-- ==== Sys2Proof/Certificates/Slice0/Obligations.lean ====
section
/-! DEFINITION. What is claimed of the model, for the provers: one proposition per claim, with the rules of the spec that it
rests on. -/

open Sys2Proof Sys2Proof.Machine

/-- For every command c and state s, step of s with c at the front of its queue is exec of c on s with the rest of the
queue. (spec/00_scope.md, spec/opcode_table.json) -/
def Obligations.StepRunsTheFrontCommand : Prop :=
    ∀ (c : Instr) (s : State), step { s with pending := c :: s.pending } = exec c s

/-- For every state whose queue is empty, step answers that state unchanged. This is the model's own choice, log entry 1.
(spec/01_architecture.md) -/
def Obligations.EmptyQueueIdles : Prop :=
    ∀ s : State, s.pending = [] → step s = .next s

/-- For every command and every state, exec answers a next state, no command faults or is refused, and the queue of
waiting commands is left as it is. (spec/opcode_table.json, spec/21_faults_guarantees.md) -/
def Obligations.EveryCommandAnswersANextState : Prop :=
    ∀ (c : Instr) (s : State), ∃ t, exec c s = .next t ∧ t.pending = s.pending

/-- For every command and state: a command that does not act at the host die leaves the host die as it is; one that acts
at the host die leaves the field die as it is; the bytes of the key's memory change only by PROGRAM_PAGE, WRITE_POINTER
and what can cut one of them off, those of the flash only by the end of a flash operation and what can cut one off:
a field-die reset, the loss of the safelight supply, darkroom, a register message that can ask for a reset, and for the
key also a time-out of its reader and a fault of the table engine. (R1, R162, R166, R184, R193, R222, R223, R715, R755,
R756) -/
def Obligations.CommandsReachTheirOwnAgentOnly : Prop :=
    ∀ (c : Instr) (s t : State), exec c s = .next t →
    (reachesHost c = false → t.hst = s.hst) ∧
    (reachesHost c = true → t.fld = s.fld) ∧
    (writesKey c = false → t.key.mem = s.key.mem) ∧
    (writesFlash c = false → t.flash = s.flash)

/-- For every state whose key memory, page buffer, flash and serial-window memory are in canonical form (addresses
strictly rising, no entry equal to the erased value, 0 in the window), a step that answers a next state leaves them in
that form. (spec/05_identity_key.md, spec/18_serial_port.md, R222, R223, R716, R755, R756) -/
def Obligations.MemoriesStayCanonical : Prop :=
    ∀ s t : State, MemoriesCanonical s → step s = .next t → MemoriesCanonical t

/-- For every state in which the lists that stand for the 17 ports, 4 segments, 17 gate machines, 2 gPTP instances, 4
shutters, 4 capture inputs, 17 timestamp queues, 24 pins, 2 trunks and 13 mirror queues have those lengths, and in
which the frames that the host die has fetched name one of its eight engines and wait neither acknowledged nor
aborted, a step that answers a next state leaves all that so. (spec/01_architecture.md, R575, R577, R727) -/
def Obligations.ListsKeepTheirLength : Prop :=
    ∀ s t : State, Shape s → step s = .next t → Shape t

/-- The state after reset has its memories in canonical form and its lists whole; nothing waits in its queue, the field
die is in reset by power-on, and every register and table word of either die reads its reset value.
(spec/05_identity_key.md, spec/18_serial_port.md, spec/01_architecture.md, spec/23_address_map.md) -/
def Obligations.ResetMeetsTheInvariants : Prop :=
    MemoriesCanonical State.reset ∧ Shape State.reset ∧ State.reset.pending = [] ∧ State.reset.fld.phase = .inReset ∧
    State.reset.fld.resetBy = 1 ∧ State.reset.hst.inReset = true ∧ (∀ a, State.reset.fld.rd a = fieldDefault a) ∧
    ∀ a, State.reset.hst.rd a = hostDefault a

/-- A released field die that sees FRST_N low for 1 us or more, PD_PG low for 2 us or more outside a darkroom exit, or
0x0000A55A written to F_GLB_RESET, enters reset: the cause is noted, SL registers keep their values, all other
registers and table words take their reset values, counters, frames and staged words are gone, the timekeeper goes on,
host die and key memory stand. A low of FRST_N for 100 ns or less, of PD_PG for 500 ns or less, and any other value
written, change nothing. (R67, R162, R163, R165, R789, R847) -/
def Obligations.FieldResetsKeepOnlyTheSafelightDomain : Prop :=
    (∀ (s : State) (lowNs : Nat), released s.fld = true → 1000 ≤ lowNs →
      ∃ t, exec (.pinReset lowNs) s = .next t ∧ ResetBegun 1 s t) ∧
    (∀ (s : State) (lowNs : Nat), released s.fld = true → s.fld.pwr.vddSl = true → s.fld.pwr.waking = false → 2000 ≤ lowNs →
      ∃ t, exec (.powerGoodReset lowNs) s = .next t ∧ ResetBegun 2 s t) ∧
    (∀ (s : State) (req : Nat), s.fld.canWrite req = true →
      ∃ t, exec (.softwareReset req 0x0000A55A) s = .next t ∧ ResetBegun 3 s t) ∧
    (∀ (s : State) (lowNs : Nat), lowNs ≤ 100 → exec (.pinReset lowNs) s = .next s) ∧
    (∀ (s : State) (lowNs : Nat), lowNs ≤ 500 → exec (.powerGoodReset lowNs) s = .next s) ∧
    (∀ (s : State) (req : Nat) (data : Word), data ≠ 0x0000A55A → exec (.softwareReset req data) s = .next s)

/-- A low of FRST_N between 100 ns and 1 us, and a low of PD_PG between 500 ns and 2 us outside a darkroom exit, either
begin a whole field-die reset or change nothing (but the model's own counter of free values). (R91) -/
def Obligations.ResetPulsesBetweenTheLengths : Prop :=
    (∀ (s : State) (lowNs : Nat), released s.fld = true → 100 < lowNs → lowNs < 1000 →
      ∃ t, exec (.pinReset lowNs) s = .next t ∧
        (ResetBegun 1 s t ∨ t = { s with fld := { s.fld with freeCtr := s.fld.freeCtr + 1 } })) ∧
    (∀ (s : State) (lowNs : Nat), released s.fld = true → s.fld.pwr.vddSl = true → s.fld.pwr.waking = false →
      500 < lowNs → lowNs < 2000 →
      ∃ t, exec (.powerGoodReset lowNs) s = .next t ∧
        (ResetBegun 2 s t ∨ t = { s with fld := { s.fld with freeCtr := s.fld.freeCtr + 1 } }))

/-- With PD_VCOMB below 5.0 V the safelight supply leaves its range: every register, SL or not, takes its reset value, the
timekeeper is 0 and the die is unpowered; at 8.0 V or more nothing happens. Its return puts the die into the reset of
cause bit 0 with every register at its reset value. (R163, R847, R875) -/
def Obligations.SafelightLossAndColdReset : Prop :=
    (∀ (s : State) (mv : Nat), s.fld.pwr.vddSl = true → mv < 5000 →
      ∃ t, exec (.vddSlLoss mv) s = .next t ∧ t.fld.phase = .unpowered ∧ t.fld.pwr.vddSl = false ∧ t.fld.pwr.sl = 0 ∧
        (∀ a, t.fld.rd a = fieldDefault a) ∧ t.fld.cnt = [] ∧ t.hst = s.hst ∧
        (keyStill s.fld = true → t.key.mem = s.key.mem) ∧ t.pending = s.pending) ∧
    (∀ (s : State) (mv : Nat), 8000 ≤ mv → exec (.vddSlLoss mv) s = .next s) ∧
    (∀ s : State, s.fld.pwr.vddSl = false →
      ∃ t, exec .coldReset s = .next t ∧ t.fld.phase = .inReset ∧ t.fld.resetBy = 1 ∧ t.fld.pwr.vddSl = true ∧
        t.fld.pwr.sl = 0 ∧ (∀ a, t.fld.rd a = fieldDefault a) ∧ FieldOnly s t)

/-- Released 90 us to 100 us after the pins, with PD_EN high and no darkroom exit running, the die latches the straps in
F_GLB_STRAP, records the causes seen in F_GLB_RST_CAUSE and counts the boot in F_GLB_BOOT_CNT (1 after a cold reset,
else one more, 0xFFFFFFFF to 1). The PLL lock then starts the fine tick and initialisation leads to the resolution of
the configuration source; neither moves anything else. (R67, R159, R163, R164, R169, R873) -/
def Obligations.ResetReleaseAndStartUp : Prop :=
    (∀ (s : State) (afterNs straps : Nat), s.fld.phase = .inReset → pdEn s.fld = true → s.fld.pwr.vddSl = true →
      s.fld.pwr.waking = false → s.fld.resetBy < 16 → 90000 ≤ afterNs → afterNs ≤ 100000 →
      ∃ t, exec (.internalResetRelease afterNs straps) s = .next t ∧ t.fld.phase = .released ∧ t.fld.straps = straps % 16 ∧
        t.fld.rdN F_GLB_STRAP = straps % 16 ∧ t.fld.rdN F_GLB_RST_CAUSE = s.fld.resetBy ∧ t.fld.resetBy = 0 ∧
        t.fld.rdN F_GLB_BOOT_CNT = (if hasBit s.fld.resetBy 0 ∨ s.fld.rdN F_GLB_BOOT_CNT = 0xFFFFFFFF then 1
          else s.fld.rdN F_GLB_BOOT_CNT + 1) ∧ FieldOnly s t) ∧
    (∀ s : State, s.fld.phase = .released →
      ∃ t, exec .fabricPllLock s = .next t ∧ FieldFrame [] { s.fld with phase := .locked } s t) ∧
    (∀ s : State, s.fld.phase = .locked → s.fld.pwr.waking = false →
      ∃ t, exec .initialisationComplete s = .next t ∧ FieldFrame [] { s.fld with phase := .resolving } s t)

/-- With initialisation done and no darkroom exit running, the resolution of the configuration source leads to the running
fabric. On a running die a write of F_GLB_START with go 1 takes F_GLB_CFG_SRC from HELD_START (2) to 1 and leaves no
port with the start hold. (R172, R177, R178) -/
def Obligations.ConfigurationResolvedStartsTheFabric : Prop :=
    (∀ s : State, s.fld.phase = .resolving → s.fld.pwr.waking = false →
      ∃ t, exec .configSourceResolved s = .next t ∧ t.fld.phase = .running ∧ FieldOnly s t) ∧
    (∀ (s : State) (req : Nat) (data : Word), s.fld.canWrite req = true → hasBit data.toNat 0 = true →
      s.fld.get F_GLB_CFG_SRC_state = 2 →
      ∃ t, exec (.startGo req data) s = .next t ∧ t.fld.get F_GLB_CFG_SRC_state = 1 ∧
        (∀ n, n < 16 → 3 ∉ (t.fld.portX n).holds) ∧ FieldOnly s t)

/-- A line that rises above 19.5 V is on and live, its class that of its resistor when the line had been below the turn-off
threshold; one that falls to between 17.5 V and 18.0 V is on but not live; one that falls below 16.0 V is off, and its
next rise reads the class again. Above 64.0 V over-voltage holds until the level is below 60.5 V (one state for both
lines: the model's choice, log entry 114). An SCCP exchange leaves the state it ends in, a permitted PoDL sleep request
leaves 3, and from 3 a wake leaves 4, by software or while the other line is not live. On a powered die F_PORT_n_PODL
follows. (R80, R82, R305, R306, R307) -/
def Obligations.LinePowerFrontEnds : Prop :=
    (∀ (s : State) (line mv : Nat) (r : Option Nat), line < 2 → Shape s → lineAbove s.fld line = false → 19500 < mv →
      ∃ t, exec (.lineTurnOn line mv r) s = .next t ∧ lineLive t.fld line = true ∧ lineAbove t.fld line = true ∧
        t.fld.pwr.lineOff.getD line true = false ∧
        t.fld.pwr.lineClass.getD line 0 =
          (if s.fld.pwr.lineOff.getD line true then classCode r else s.fld.pwr.lineClass.getD line 0) ∧
        (s.fld.powered = true → t.fld.get (F_PORT_PODL_line_live line) = 1) ∧
        FieldFrame [F_PORT_PODL line, F_PORT_EVT line] { s.fld with pwr := t.fld.pwr } s t) ∧
    (∀ (s : State) (line mv : Nat), line < 2 → Shape s → lineLive s.fld line = true → lineAbove s.fld line = true →
      (17500 < mv → mv < 18000 →
        ∃ t, exec (.lineTurnOff line mv) s = .next t ∧ lineLive t.fld line = true ∧ lineAbove t.fld line = false ∧
          (s.fld.powered = true → t.fld.get (F_PORT_PODL_line_live line) = 0) ∧
          FieldFrame [F_PORT_PODL line, F_PORT_EVT line]
            { s.fld with pwr := { s.fld.pwr with lineAbove := t.fld.pwr.lineAbove } } s t) ∧
      (mv < 16000 →
        ∃ t, exec (.lineTurnOff line mv) s = .next t ∧ lineLive t.fld line = false ∧ lineAbove t.fld line = false ∧
          t.fld.pwr.lineOff.getD line true = true ∧
          (s.fld.powered = true → t.fld.get (F_PORT_PODL_line_live line) = 0) ∧
          FieldFrame [F_PORT_PODL line, F_PORT_EVT line] { s.fld with pwr := { s.fld.pwr with
            lineLive := t.fld.pwr.lineLive, lineAbove := t.fld.pwr.lineAbove, lineOff := t.fld.pwr.lineOff } } s t)) ∧
    (∀ (s : State) (mv : Nat), s.fld.pwr.ov = false → 64000 < mv →
      ∃ t, exec (.overVoltageTurnOff mv) s = .next t ∧ FieldFrame [] { s.fld with pwr := { s.fld.pwr with ov := true } } s t) ∧
    (∀ (s : State) (mv : Nat), s.fld.pwr.ov = true → mv < 60500 →
      ∃ t, exec (.overVoltageRecovery mv) s = .next t ∧ FieldFrame [] { s.fld with pwr := { s.fld.pwr with ov := false } } s t) ∧
    (∀ (s : State) (n state : Nat), n < 2 → state < 3 → s.fld.pwr.lineClass.getD n 0 ≠ 0 → Shape s →
      ∃ t, exec (.sccpExchange n state) s = .next t ∧ sccpOf t.fld n = state ∧
        (s.fld.powered = true → t.fld.get (F_PORT_PODL_sccp_state n) = state) ∧
        FieldFrame [F_PORT_PODL n, F_PORT_EVT n] { s.fld with pwr := { s.fld.pwr with sccp := t.fld.pwr.sccp } } s t) ∧
    (∀ (s : State) (n : Nat), n < 2 → s.fld.flag (F_PORT_PODL_sleep_ok n) = true → lineAbove s.fld (1 - n) = true → Shape s →
      ∃ t, exec (.podlSleepRequest n) s = .next t ∧ sccpOf t.fld n = 3 ∧
        (s.fld.powered = true → t.fld.get (F_PORT_PODL_sccp_state n) = 3) ∧
        FieldFrame [F_PORT_PODL n, F_PORT_EVT n] { s.fld with pwr := { s.fld.pwr with sccp := t.fld.pwr.sccp } } s t) ∧
    (∀ (s : State) (n : Nat) (bySoftware : Bool), n < 2 → (bySoftware = true → s.fld.phase = .running) →
      (bySoftware = false → lineAbove s.fld (1 - n) = false) → sccpOf s.fld n = 3 → Shape s →
      ∃ t, exec (.podlWakeReq n bySoftware) s = .next t ∧ sccpOf t.fld n = 4 ∧
        (s.fld.powered = true → t.fld.get (F_PORT_PODL_sccp_state n) = 4) ∧
        FieldFrame [F_PORT_PODL n, F_PORT_EVT n] { s.fld with pwr := { s.fld.pwr with sccp := t.fld.pwr.sccp } } s t)

/-- On a port, a write of max_frame outside 64 to 2,048 leaves the field (and everything but the port's events) unchanged
and raises mode_reject; one inside the range becomes max_frame and, being covered, marks the proof as stale. (R325) -/
def Obligations.MaxFrameOutsideItsRangeIsRefused : Prop :=
    (∀ (s : State) (req n : Nat) (data : Word), s.fld.canWrite req = true → n < 16 →
      (bitsOf data.toNat 11 0 < 64 ∨ 2048 < bitsOf data.toNat 11 0) →
      ∃ t, exec (.maxFrameWrite req n data) s = .next t ∧ t.fld.sq (F_PORT_EVT n) 3 = true ∧
        t.fld.get (F_PORT_MAXFRM_max_frame n) = s.fld.get (F_PORT_MAXFRM_max_frame n) ∧
        FieldFrame [F_PORT_EVT n] s.fld s t) ∧
    (∀ (s : State) (req n : Nat) (data : Word), s.fld.canWrite req = true → n < 16 →
      64 ≤ bitsOf data.toNat 11 0 → bitsOf data.toNat 11 0 ≤ 2048 →
      ∃ t, exec (.maxFrameWrite req n data) s = .next t ∧
        t.fld.get (F_PORT_MAXFRM_max_frame n) = bitsOf data.toNat 11 0 ∧ t.fld.flag F_CFG_PROOF_STAT_stale = true ∧
        FieldFrame [F_PORT_MAXFRM n, F_CFG_PROOF_STAT] { s.fld with cfg := t.fld.cfg } s t)

/-- A write of F_PORT_n_MODE with a mode that the port does not accept, or the reserved role, changes nothing but
mode_reject. On a running die a write that clears enable on an enabled port takes the port from any state to DISABLED
with reason 6 and holds the mode written; one that leaves enable 0 shows reason 6 too. When the mode-change hold is a
HELD port's last, its end starts training. (R293, R296, R298, R301) -/
def Obligations.PortModesAndTheirHold : Prop :=
    (∀ (s : State) (req n : Nat) (data : Word), s.fld.canWrite req = true → n < 16 →
      (modeOk n (bitsOf data.toNat 6 4) = false ∨ bitsOf data.toNat 3 2 = 3) →
      ∃ t, exec (.portModeWrite req n data) s = .next t ∧ t.fld.sq (F_PORT_EVT n) 3 = true ∧
        FieldFrame [F_PORT_EVT n] s.fld s t) ∧
    (∀ (s : State) (req n : Nat) (data : Word), s.fld.isRunning = true → n < 16 → s.fld.engineRuns n = true →
      modeOk n (bitsOf data.toNat 6 4) = true → bitsOf data.toNat 3 2 ≠ 3 → (s.fld.portX n).modeBad = false →
      s.fld.flag (F_PORT_MODE_enable n) = true → hasBit data.toNat 0 = false →
      ∃ t, exec (.portModeWrite req n data) s = .next t ∧ portState t.fld n = 0 ∧
        t.fld.get (F_PORT_STAT_down_reason n) = 6 ∧ t.fld.get (F_PORT_MODE_phy_mode n) = bitsOf data.toNat 6 4 ∧
        t.fld.get (F_PORT_MODE_role n) = bitsOf data.toNat 3 2 ∧ t.fld.get (F_PORT_MODE_enable n) = 0 ∧
        PortFrame n [F_PORT_MODE n, F_CFG_PROOF_STAT] { s.fld with cfg := t.fld.cfg } s t) ∧
    (∀ (s : State) (req n : Nat) (data : Word), s.fld.isRunning = true → n < 16 →
      modeOk n (bitsOf data.toNat 6 4) = true → bitsOf data.toNat 3 2 ≠ 3 → (s.fld.portX n).modeBad = false →
      s.fld.flag (F_PORT_MODE_enable n) = false → hasBit data.toNat 0 = false →
      ∃ t, exec (.portModeWrite req n data) s = .next t ∧ t.fld.get (F_PORT_STAT_down_reason n) = 6 ∧
        t.fld.get (F_PORT_MODE_phy_mode n) = bitsOf data.toNat 6 4 ∧ t.fld.get (F_PORT_MODE_role n) = bitsOf data.toNat 3 2 ∧
        portState t.fld n = portState s.fld n ∧
        FieldFrame [F_PORT_MODE n, F_PORT_STAT n, F_CFG_PROOF_STAT] { s.fld with cfg := t.fld.cfg } s t) ∧
    (∀ (s : State) (n : Nat), s.fld.phase = .running → n < 16 → s.fld.engineRuns n = true → portState s.fld n = 1 →
      5 ∈ (s.fld.portX n).holds → (∀ r ∈ (s.fld.portX n).holds, r = 5) → (s.fld.portX n).modeBad = false →
      ∃ t, exec (.modeChangeHoldEnd n) s = .next t ∧ portState t.fld n = 2 ∧
        PortFrame n [] (s.fld.setPortX n (fun x => { x with holds := [] })) s t)

/-- A port P0 to P11 in TRAINING or WAKING whose link is established, after a wake not before the wake ramp's delay, enters
UP (and goes on to SLEEP_ENTRY at once where a sleep request is effective): link_up is raised, the resolved role is
shown, and verification starts where it applies. One in UP whose link has
been false for the time of its mode enters TRAINING with reason NO_PARTNER: link_down is raised, the resolved role is
none, and what it was sending is cut off; a shorter loss changes nothing. (R156, R294, R298, R301, R302, R304, R310,
R320, R328) -/
def Obligations.PortLinkComesAndGoes : Prop :=
    (∀ (s : State) (n : Nat) (master : Bool), s.fld.phase = .running → n < 12 → s.fld.engineRuns n = true →
      (portState s.fld n = 2 ∨ portState s.fld n = 6) → (s.fld.portX n).wakeAt ≤ s.fld.now →
      ∃ t, exec (.linkEstablished n master) s = .next t ∧ t.fld.sq (F_PORT_EVT n) 0 = true ∧
        portState t.fld n = (if sleepWanted s.fld n = true ∧ (s.fld.portX n).retry = false then 4 else 3) ∧
        t.fld.get (F_PORT_STAT_role_res n) = (if isT1 s.fld n = false then 0
          else if s.fld.get (F_PORT_MODE_role n) = 1 then 1 else if s.fld.get (F_PORT_MODE_role n) = 2 then 2
          else if master then 1 else 2) ∧
        t.fld.get (F_PORT_STAT_verify_state n) = (if s.fld.flag (F_PORT_PREEMPT_preempt_en n) = false then 0
          else if s.fld.flag (F_PORT_PREEMPT_verify_dis n) then 4 else 1) ∧
        PortFrame n [] s.fld s t) ∧
    (∀ (s : State) (n ns : Nat), s.fld.phase = .running → n < 12 → s.fld.engineRuns n = true → Shape s →
      portState s.fld n = 3 →
      (lossTime s.fld n ≤ ns → ∃ t, exec (.linkLoss ⟨n, ns⟩) s = .next t ∧ portState t.fld n = 2 ∧
        t.fld.get (F_PORT_STAT_down_reason n) = 1 ∧
        t.fld.sq (F_PORT_EVT n) 1 = true ∧ t.fld.get (F_PORT_STAT_role_res n) = 0 ∧
        (t.fld.portX n).sending = none ∧ (t.fld.portX n).preempted = none ∧ PortFrame n [] s.fld s t) ∧
      (ns < lossTime s.fld n → ∃ t, exec (.linkLoss ⟨n, ns⟩) s = .next t ∧ FieldFrame [] s.fld s t))

/-- An effective sleep request takes a T1 port in UP to SLEEP_ENTRY. With its egress found empty and a quiet receiver it
then enters SLEEP, or with tc10_en 1 sends its TC10 request: the acknowledgement within 40 us takes it to SLEEP, its
absence back to UP with sleep_refused, and after 1 ms the attempt is repeated. With sleep_follow a partner's sleep takes
an UP port that no window holds to SLEEP; any other port takes silence as link loss and a TC10 request not at all (one
that a window holds by the model's choice, log entry 116). (R298, R310, R311, R312, R313) -/
def Obligations.PortSleepEntry : Prop :=
    (∀ (s : State) (req n : Nat) (data : Word), s.fld.phase = .running → n < 12 → s.fld.engineRuns n = true →
      portState s.fld n = 3 → isT1 s.fld n = true → (s.fld.portX n).windows = [] → (s.fld.portX n).retry = false →
      hasBit data.toNat 1 = true → (hasBit data.toNat 3 = true → queuesBusy s.fld n = false) →
      ∃ t, exec (.sleepRequestWrite req n data) s = .next t ∧ portState t.fld n = 4 ∧
        t.fld.get (F_PORT_SLEEP_sleep_req n) = 1 ∧
        PortFrame n [F_PORT_SLEEP n, F_CFG_PROOF_STAT] { s.fld with cfg := t.fld.cfg } s t) ∧
    (∀ (s : State) (n : Nat), s.fld.phase = .running → n < 12 → s.fld.engineRuns n = true → Shape s →
      portState s.fld n = 4 → (egressEmpty s.fld n = true ∨ (s.fld.portX n).drained = true) → s.fld.inRx n = none →
      (s.fld.portX n).sleepSent = false →
      (s.fld.portX n).quietFrom + s.fld.get (F_PORT_SLEEP_sleep_idle n) ≤ s.fld.now →
      ∃ t, exec (.sleepQuiet n) s = .next t ∧
        (s.fld.flag F_PWR_CTRL_tc10_en = false → portState t.fld n = 5) ∧
        (s.fld.flag F_PWR_CTRL_tc10_en = true → portState t.fld n = 4 ∧ (t.fld.portX n).sleepSent = true ∧
          Output.sleepRequest n ∈ t.fld.out) ∧
        t.fld.flag (F_PORT_STAT_tc10 n) = s.fld.flag F_PWR_CTRL_tc10_en ∧
        PortFrame n [] (s.fld.setPortX n (fun x => { x with
          sleepAt := if s.fld.flag F_PWR_CTRL_tc10_en then s.fld.now else x.sleepAt })) s t) ∧
    (∀ (s : State) (n : Nat), s.fld.phase = .running → n < 12 → s.fld.engineRuns n = true → Shape s →
      portState s.fld n = 4 → (s.fld.portX n).sleepSent = true →
      (s.fld.now ≤ (s.fld.portX n).sleepAt + 40 * usTicks →
        ∃ t, exec (.tc10SleepAck n) s = .next t ∧ portState t.fld n = 5 ∧ PortFrame n [] s.fld s t) ∧
      ((s.fld.portX n).sleepAt + 40 * usTicks ≤ s.fld.now →
        ∃ t, exec (.tc10SleepTimeout n) s = .next t ∧ portState t.fld n = 3 ∧ t.fld.sq (F_PORT_EVT n) 7 = true ∧
          PortFrame n [] (s.fld.setPortX n (fun x => { x with retry := true })) s t)) ∧
    (∀ (s : State) (n : Nat), s.fld.phase = .running → n < 12 → s.fld.engineRuns n = true →
      portState s.fld n = 3 → (s.fld.portX n).retry = true → (s.fld.portX n).since + msTicks ≤ s.fld.now →
      sleepWanted s.fld n = true →
      ∃ t, exec (.tc10SleepRetry n) s = .next t ∧ portState t.fld n = 4 ∧
        PortFrame n [] (s.fld.setPortX n (fun x => { x with retry := false })) s t) ∧
    (∀ (s : State) (n : Nat) (tc10 : Bool), s.fld.phase = .running → n < 12 → s.fld.engineRuns n = true →
      portState s.fld n = 3 → isT1 s.fld n = true →
      ∃ t, exec (.partnerSleep n tc10) s = .next t ∧
        (s.fld.flag (F_PORT_SLEEP_sleep_follow n) = true → (s.fld.portX n).windows = [] →
          portState t.fld n = 5 ∧ t.fld.flag (F_PORT_STAT_tc10 n) = tc10) ∧
        ((s.fld.flag (F_PORT_SLEEP_sleep_follow n) = false ∨ (s.fld.portX n).windows ≠ []) → tc10 = false →
          portState t.fld n = 2 ∧ t.fld.get (F_PORT_STAT_down_reason n) = 1) ∧
        ((s.fld.flag (F_PORT_SLEEP_sleep_follow n) = false ∨ (s.fld.portX n).windows ≠ []) → tc10 = true →
          FieldFrame [] s.fld s t) ∧
        PortFrame n [] s.fld s t)

/-- wake_now takes a sleeping port to WAKING, sends a burst and begins persistent wake; with pwake_lim 0 the link is lost
at once. While its partner is not awake a waking port sends further bursts, 250 us apart, in persistent wake 1 ms
apart for pwake_lim ms; the partner's answer is remembered and ends them; when persistent wake ends without it, the port
is SLEEP_LOST with that reason and the port number is reported with sleep_lost. (R142, R144, R145, R146, R147, R298,
R314, R315) -/
def Obligations.PortWakes : Prop :=
    (∀ (s : State) (req n : Nat) (data : Word), s.fld.phase = .running → n < 12 → s.fld.engineRuns n = true →
      portState s.fld n = 5 → hasBit data.toNat 0 = true → hasBit data.toNat 1 = true →
      ∃ t, exec (.wakeNow req n data) s = .next t ∧
        (s.fld.get F_PWR_PWAKE_pwake_lim ≠ 0 → portState t.fld n = 6) ∧
        (s.fld.get F_PWR_PWAKE_pwake_lim = 0 → portState t.fld n = 7 ∧ t.fld.sq F_PWR_EVT 1 = true) ∧
        Output.wakeBurst n (s.fld.flag F_PWR_CTRL_tc10_en) ∈ t.fld.out ∧
        PortFrame n [F_PORT_SLEEP n, F_CFG_PROOF_STAT, F_PWR_EVT_INFO, F_PWR_EVT]
          { s.fld.setPortX n (fun x => { x with
              persist := some s.fld.now, wakeAt := s.fld.now, burstAt := some s.fld.now, partnerAwake := false })
            with cfg := t.fld.cfg } s t) ∧
    (∀ (s : State) (n : Nat), s.fld.phase = .running → n < 12 → portState s.fld n = 6 →
      (s.fld.portX n).partnerAwake = false → (s.fld.portX n).wakeAt ≤ s.fld.now →
      (∀ b ∈ (s.fld.portX n).burstAt, (s.fld.portX n).persist = none → b + 250 * usTicks ≤ s.fld.now) →
      (∀ b ∈ (s.fld.portX n).burstAt, ∀ p ∈ (s.fld.portX n).persist, b + msTicks ≤ s.fld.now ∧
        s.fld.now ≤ p + s.fld.get F_PWR_PWAKE_pwake_lim * msTicks) →
      ((s.fld.portX n).burstAt = none → (s.fld.portX n).persist = none ∨ s.fld.get F_PWR_PWAKE_pwake_lim ≠ 0) →
      ∃ t, exec (.wakeBurstSend n) s = .next t ∧ Output.wakeBurst n (s.fld.flag F_PWR_CTRL_tc10_en) ∈ t.fld.out ∧
        FieldFrame [] (s.fld.setPortX n (fun x => { x with burstAt := some s.fld.now })) s t) ∧
    (∀ (s : State) (n : Nat), s.fld.phase = .running → n < 12 → portState s.fld n = 6 →
      ∃ t, exec (.partnerAwake n) s = .next t ∧
        FieldFrame [] (s.fld.setPortX n (fun x => { x with partnerAwake := true })) s t) ∧
    (∀ (s : State) (n p : Nat), s.fld.phase = .running → n < 12 → s.fld.engineRuns n = true → portState s.fld n = 6 →
      (s.fld.portX n).partnerAwake = false → (s.fld.portX n).persist = some p →
      p + s.fld.get F_PWR_PWAKE_pwake_lim * msTicks ≤ s.fld.now →
      ∃ t, exec (.sleepLost n) s = .next t ∧ portState t.fld n = 7 ∧ t.fld.get (F_PORT_STAT_down_reason n) = 7 ∧
        t.fld.get F_PWR_EVT_INFO_port = n ∧ t.fld.sq F_PWR_EVT 1 = true ∧
        PortFrame n [F_PWR_EVT_INFO, F_PWR_EVT] s.fld s t)

/-- While verification runs up to three verify frames are sent, verify_ms apart; a response makes it succeed and
preempt_active that of preempt_en, none within verify_ms of the third makes it FAILED with verify_fail. With pause_rx 1
a PAUSE stops exactly the queues of pause_mask that honour it for quanta x 512 bit times, quanta 0 ends every stop, and
it is counted; a stop ends at its time, and one of pause_cap microseconds ends with pause_capped. (R319, R320, R331,
R332, R333) -/
def Obligations.PortVerificationAndPause : Prop :=
    (∀ (s : State) (n : Nat), s.fld.phase = .running → n < 12 → s.fld.get (F_PORT_STAT_verify_state n) = 1 →
      portState s.fld n = 3 → (s.fld.portX n).verify < 3 →
      ((s.fld.portX n).verify = 0 ∨ (s.fld.portX n).verifyAt + verifyGap s.fld n ≤ s.fld.now) →
      ∃ t, exec (.verifySend n) s = .next t ∧ Output.verify n false ∈ t.fld.out ∧
        FieldFrame [] (s.fld.setPortX n (fun x => { x with verify := x.verify + 1, verifyAt := s.fld.now })) s t) ∧
    (∀ (s : State) (n : Nat), s.fld.phase = .running → n < 12 → s.fld.get (F_PORT_STAT_verify_state n) = 1 →
      0 < (s.fld.portX n).verify →
      ∃ t, exec (.verifyResponse n) s = .next t ∧ t.fld.get (F_PORT_STAT_verify_state n) = 2 ∧
        t.fld.get (F_PORT_STAT_preempt_active n) = s.fld.get (F_PORT_PREEMPT_preempt_en n) ∧
        portState t.fld n = portState s.fld n ∧ FieldFrame [F_PORT_STAT n] s.fld s t) ∧
    (∀ (s : State) (n : Nat), s.fld.phase = .running → n < 12 → s.fld.get (F_PORT_STAT_verify_state n) = 1 →
      3 ≤ (s.fld.portX n).verify → (s.fld.portX n).verifyAt + verifyGap s.fld n ≤ s.fld.now →
      ∃ t, exec (.verifyFail n) s = .next t ∧ t.fld.get (F_PORT_STAT_verify_state n) = 3 ∧
        t.fld.sq (F_PORT_EVT n) 4 = true ∧ FieldFrame [F_PORT_STAT n, F_PORT_EVT n] s.fld s t) ∧
    (∀ (s : State) (n quanta : Nat), s.fld.phase = .running → Shape s → n < 4 → quanta < 65536 →
      stateUp (portState s.fld n) = true → s.fld.flag (F_PORT_PAUSE_pause_rx n) = true →
      ∃ t, exec (.pauseReceive n quanta) s = .next t ∧ t.fld.cntAt (cPort n 6) = (s.fld.cntAt (cPort n 6) + 1) % 2 ^ 64 ∧
        (∀ q, q < 8 → (pauseStop t.fld n q).until_ = (if quanta = 0 then 0
          else if hasBit (s.fld.get (F_PORT_PAUSE_pause_mask n)) q ∧ (pauseStop s.fld n q).ignore ≤ s.fld.now10 then
            s.fld.now10 + quanta * 64 * byteTime s.fld n
          else (pauseStop s.fld n q).until_)) ∧
        (∀ m, m ≠ n → t.fld.portX m = s.fld.portX m) ∧
        FieldFrame [F_PORT_STAT n] { s.fld.count (cPort n 6) with ports := t.fld.ports } s t) ∧
    (∀ (s : State) (n q : Nat), s.fld.phase = .running → Shape s → n < 4 → q < 8 →
      (pauseStop s.fld n q).until_ ≤ s.fld.now10 →
      ∃ t, exec (.pauseExpire n q) s = .next t ∧ pauseStopped t.fld n q = false ∧
        (∀ p, p < 8 → pauseStop t.fld n p = pauseStop s.fld n p) ∧
        t.fld.get (F_PORT_STAT_paused n) = (if (List.range 8).any (pauseStopped s.fld n) then 1 else 0) ∧
        (∀ m, m ≠ n → t.fld.portX m = s.fld.portX m) ∧
        FieldFrame [F_PORT_STAT n] { s.fld with ports := t.fld.ports } s t) ∧
    (∀ (s : State) (n q : Nat), s.fld.phase = .running → Shape s → n < 4 → q < 8 → (pauseStop s.fld n q).until_ ≠ 0 →
      (pauseStop s.fld n q).since + min 1000 (max 1 (s.fld.get (F_PORT_PAUSE_pause_cap n))) * 10000 ≤ s.fld.now10 →
      (pauseStop s.fld n q).since + min 1000 (max 1 (s.fld.get (F_PORT_PAUSE_pause_cap n))) * 10000 ≤ (pauseStop s.fld n q).until_ →
      ∃ t, exec (.pauseCapped n q) s = .next t ∧ (pauseStop t.fld n q).until_ = 0 ∧
        (pauseStop t.fld n q).ignore = s.fld.now10 + 2068 * byteTime s.fld n ∧ t.fld.sq (F_PORT_EVT n) 5 = true ∧
        (∀ p, p < 8 → p ≠ q → pauseStop t.fld n p = pauseStop s.fld n p) ∧
        (∀ m, m ≠ n → t.fld.portX m = s.fld.portX m) ∧
        FieldFrame [F_PORT_STAT n, F_PORT_EVT n] { s.fld with ports := t.fld.ports } s t)

/-- A write of 1 to release by the owner of a HELD lock makes it FREE and changes nothing else. One by any other
requester, or to a lock that is not HELD, leaves the lock as it is, raises lk_reject, increments F_CFG_LK_REJ and
records the requester and the address in F_CFG_EVT_INFO. (R279) -/
def Obligations.LockReleaseByItsOwnerAlone : Prop :=
    (∀ (s : State) (req n : Nat), s.fld.canWrite req = true → n < 32 → lockState s.fld n = 1 →
      s.fld.get (F_CFG_LOCK_owner n) = req →
      ∃ t, exec (.lockRelease req n) s = .next t ∧ lockState t.fld n = 0 ∧ t.fld.get (F_CFG_LOCK_owner n) = 0xFF ∧
        t.fld.get (F_CFG_LOCK_grants n) = s.fld.get (F_CFG_LOCK_grants n) ∧ FieldFrame [F_CFG_LOCK n] s.fld s t) ∧
    (∀ (s : State) (req n : Nat), s.fld.canWrite req = true → n < 32 → req < 256 →
      (lockState s.fld n ≠ 1 ∨ s.fld.get (F_CFG_LOCK_owner n) ≠ req) →
      ∃ t, exec (.lockRelease req n) s = .next t ∧ t.fld.rd (F_CFG_LOCK n) = s.fld.rd (F_CFG_LOCK n) ∧
        t.fld.sq F_CFG_EVT 4 = true ∧ t.fld.rdN F_CFG_LK_REJ = (s.fld.rdN F_CFG_LK_REJ + 1) % 2 ^ 32 ∧
        t.fld.get F_CFG_EVT_INFO_requester = req ∧ t.fld.get F_CFG_EVT_INFO_addr = F_CFG_LOCK n ∧
        FieldFrame [F_CFG_LK_REJ, F_CFG_EVT, F_CFG_EVT_INFO] s.fld s t)

/-- A read of F_CFG_LOCK_ACQ_n of an existing lock that is not HELD makes the reader its owner, counts the grant and notes
its time; on a HELD lock it changes nothing and reads granted only for its owner. A lock HELD for its lifetime becomes
ORPHANED, keeps its former owner, and raises lock_expired; pins that it owns fall to their safe level, and nothing
else moves. (R276, R277, R278, R282, R765) -/
def Obligations.LockGrantAndExpiry : Prop :=
    (∀ (s : State) (req n : Nat), s.fld.phase = .running → (n < 5 ∨ (16 ≤ n ∧ n < 32)) → req < 256 →
      lockState s.fld n ≠ 1 →
      ∃ t, exec (.lockAcquire req n) s = .next t ∧ lockState t.fld n = 1 ∧ t.fld.get (F_CFG_LOCK_owner n) = req ∧
        t.fld.get (F_CFG_LOCK_grants n) = (s.fld.get (F_CFG_LOCK_grants n) + 1) % 2 ^ 15 ∧
        hasBit (acquireLock req n s.fld).1.toNat 31 = true ∧
        Store.get (fun _ => 0) t.fld.cfg.grantTick n = s.fld.now ∧
        FieldFrame [F_CFG_LOCK n] { s.fld with cfg := { s.fld.cfg with grantTick := t.fld.cfg.grantTick } } s t) ∧
    (∀ (s : State) (req n : Nat), s.fld.phase = .running → n < 32 → lockState s.fld n = 1 →
      ∃ t, exec (.lockAcquire req n) s = .next t ∧ FieldFrame [] s.fld s t ∧
        (lockExists n = true →
          hasBit (acquireLock req n s.fld).1.toNat 31 = (s.fld.get (F_CFG_LOCK_owner n) == req))) ∧
    (∀ (s : State) (n : Nat), s.fld.phase = .running → n < 32 → lockState s.fld n = 1 →
      s.fld.get F_CFG_LOCK_LIFE_life_ms ≠ 0 →
      Store.get (fun _ => 0) s.fld.cfg.grantTick n + s.fld.get F_CFG_LOCK_LIFE_life_ms * 125000 ≤ s.fld.now →
      ∃ t, exec (.lockExpired n) s = .next t ∧ lockState t.fld n = 2 ∧
        t.fld.get (F_CFG_LOCK_owner n) = s.fld.get (F_CFG_LOCK_owner n) ∧ t.fld.sq F_CFG_EVT 3 = true ∧
        FieldFrame [F_CFG_LOCK n, F_CFG_EVT, F_CFG_EVT_INFO, F_PIN_OUT] s.fld s t)

/-- A whole-word write of the plain register F_PWR_COST makes it the value written and marks the proof as stale. A write
with fewer than four byte enables is discarded and raises bad_access; one to the read-only F_GLB_ID changes nothing. A
clear write of an SQ register with the current sequence number clears exactly the flags written as 1 and advances the
number; with any other number it changes nothing. (R243, R245, R247, R253, R254, R270) -/
def Obligations.RegisterWritesByAccessCode : Prop :=
    (∀ (s : State) (req : Nat) (data : Word), s.fld.phase = .running → s.fld.resetBy = 0 → req ≠ 0x40 →
      ∃ t, exec (.registerWrite req F_PWR_COST 15 data) s = .next t ∧ t.fld.rd F_PWR_COST = data ∧
        t.fld.flag F_CFG_PROOF_STAT_stale = true ∧
        FieldFrame [F_PWR_COST, F_CFG_PROOF_STAT] { s.fld with cfg := t.fld.cfg } s t) ∧
    (∀ (s : State) (req addr be : Nat) (data : Word), s.fld.phase = .running → s.fld.resetBy = 0 → req < 256 → req ≠ 0x40 →
      addr < 0x1000000 → be ≠ 15 →
      ∃ t, exec (.registerWrite req addr be data) s = .next t ∧ t.fld.sq F_CFG_EVT 7 = true ∧
        t.fld.get F_CFG_EVT_INFO_requester = req ∧ t.fld.get F_CFG_EVT_INFO_addr = addr ∧
        FieldFrame [F_CFG_EVT, F_CFG_EVT_INFO] s.fld s t) ∧
    (∀ (s : State) (req : Nat) (data : Word), s.fld.phase = .running → s.fld.resetBy = 0 → req ≠ 0x40 →
      ∃ t, exec (.registerWrite req F_GLB_ID 15 data) s = .next t ∧ FieldFrame [] s.fld s t) ∧
    (∀ (s : State) (req addr : Nat) (data : Word), s.fld.phase = .running → isSqReg addr = true → addr ≠ F_FLT_EVT →
      addr ∉ coverRegs → (addr < 0x070000 ∨ 0x080000 ≤ addr) →
      ∃ t, exec (.sqClear req addr data) s = .next t ∧ FieldFrame [addr] s.fld s t ∧
        (bitsOf data.toNat 31 16 ≠ bitsOf (s.fld.rdN addr) 31 16 → t.fld.rd addr = s.fld.rd addr) ∧
        (bitsOf data.toNat 31 16 = bitsOf (s.fld.rdN addr) 31 16 →
          bitsOf (t.fld.rdN addr) 31 16 = seqStep (bitsOf (s.fld.rdN addr) 31 16) ∧
          ∀ b, b < 16 → t.fld.sq addr b = (s.fld.sq addr b && !hasBit data.toNat b)))

/-- With no copy damaged the voters change nothing. When one copy of one triplicated entry differs from the other two, it
is rewritten: the register keeps its value, F_CFG_TMR_CNT is incremented, F_CFG_TMR_LAST records entry and copy, and
tmr_corrected is raised. When all three copies of an entry differ, its copies are equal again, F_CFG_TMR_LAST records
the entry with copy 3, and fault 2 is latched. (R261, R262, R263, R264) -/
def Obligations.VotersRepairOneCopy : Prop :=
    (∀ s : State, s.fld.phase = .running → s.fld.cfg.tmr = [] →
      ∃ t, exec .voterCheck s = .next t ∧ FieldFrame [] s.fld s t) ∧
    (∀ (s : State) (i c v : Nat), s.fld.phase = .running → i < tmrCount → c < 3 → s.fld.cfg.tmr = [(i, c, v)] →
      v ≠ Nat.land (s.fld.rdN (tmrReg i)) (tmrMask (tmrReg i)) →
      ∃ t, exec .voterCheck s = .next t ∧ t.fld.cfg.tmr = [] ∧
        t.fld.rdN F_CFG_TMR_CNT = (s.fld.rdN F_CFG_TMR_CNT + 1) % 2 ^ 32 ∧ t.fld.get F_CFG_TMR_LAST_copy = c ∧
        t.fld.get F_CFG_TMR_LAST_field = i ∧ t.fld.sq F_CFG_EVT 6 = true ∧
        FieldFrame [F_CFG_TMR_CNT, F_CFG_TMR_LAST, F_CFG_EVT] { s.fld with cfg := { s.fld.cfg with tmr := [] } } s t) ∧
    (∀ (s : State) (v w : Nat), s.fld.phase = .running → s.fld.cfg.tmr = [(0, 0, v), (0, 1, w)] →
      v ≠ s.fld.rdN F_CFG_PROOF → w ≠ s.fld.rdN F_CFG_PROOF → v ≠ w → s.fld.sq F_FLT_EVT 2 = false →
      ∃ t, exec .voterCheck s = .next t ∧ t.fld.cfg.tmr = [] ∧ t.fld.get F_CFG_TMR_LAST_copy = 3 ∧
        t.fld.get F_CFG_TMR_LAST_field = 0 ∧ t.fld.rd F_CFG_PROOF = fieldDefault F_CFG_PROOF ∧
        t.fld.sq F_FLT_EVT 2 = true ∧ (2, 0) ∈ t.fld.flt.latched ∧ FieldOnly s t)

/-- A sweep starts, the first after a request being its commit sweep; its end shows the value in F_CFG_PROOF_RUN and
counts it. A commit request by a permitted requester with none running sets busy and its op. A commit sweep with no
covered write ends the first commit with the value as the proof, committed 1, stale 0, result 0 and proof_changed; one
of op 2 whose value is not the expected one leaves the proof, with result 1. (R268, R269, R272, R273, R274) -/
def Obligations.ProofSweepsAndCommits : Prop :=
    (∀ s : State, s.fld.phase = .running → s.fld.cfg.sweeping = false →
      ∃ t, exec .proofSweepStart s = .next t ∧
        FieldFrame [] { s.fld with cfg := { s.fld.cfg with sweeping := true, commitSweep := s.fld.cfg.commit.isSome } } s t) ∧
    (∀ (s : State) (req : Nat), s.fld.canWrite req = true → ownsLock s.fld req 0 = true →
      s.fld.flag F_CFG_PROOF_STAT_busy = false →
      (∃ t, exec (.proofCommit req) s = .next t ∧ t.fld.get F_CFG_PROOF_STAT_busy = 1 ∧
        t.fld.get F_CFG_PROOF_STAT_stale = s.fld.get F_CFG_PROOF_STAT_stale ∧
        FieldFrame [F_CFG_PROOF_STAT] { s.fld with cfg := { s.fld.cfg with commit := some 1, commitSweep := false, sweeping := false, covered := false } } s t) ∧
      (∃ t, exec (.proofCommitIfEqual req) s = .next t ∧ t.fld.get F_CFG_PROOF_STAT_busy = 1 ∧
        FieldFrame [F_CFG_PROOF_STAT] { s.fld with cfg := { s.fld.cfg with commit := some 2, commitSweep := false, sweeping := false, covered := false } } s t)) ∧
    (∀ s : State, s.fld.phase = .running → s.fld.cfg.sweeping = true → s.fld.cfg.commit = none →
      s.fld.flag F_CFG_PROOF_STAT_committed = false →
      ∃ t, exec .proofSweepEnd s = .next t ∧ t.fld.rd F_CFG_PROOF_RUN = word (proofValue s.fld) ∧
        t.fld.get F_CFG_PROOF_STAT_sweep_cnt = (s.fld.get F_CFG_PROOF_STAT_sweep_cnt + 1) % 2 ^ 16 ∧
        FieldFrame [F_CFG_PROOF_RUN, F_CFG_PROOF_STAT] { s.fld with cfg := { s.fld.cfg with sweeping := false } } s t) ∧
    (∀ (s : State) (op : Nat), s.fld.phase = .running → s.fld.cfg.sweeping = true → s.fld.cfg.commitSweep = true →
      s.fld.cfg.commit = some op → s.fld.cfg.covered = false → s.fld.flag F_CFG_PROOF_STAT_committed = false →
      (op = 2 → proofValue s.fld = s.fld.cfg.expect) →
      ∃ t, exec .proofSweepEnd s = .next t ∧ t.fld.rd F_CFG_PROOF = word (proofValue s.fld) ∧
        t.fld.get F_CFG_PROOF_STAT_committed = 1 ∧ t.fld.get F_CFG_PROOF_STAT_stale = 0 ∧
        t.fld.get F_CFG_PROOF_STAT_busy = 0 ∧ t.fld.get F_CFG_PROOF_STAT_result = 0 ∧ t.fld.sq F_CFG_EVT 0 = true ∧
        t.fld.cfg.commit = none ∧ FieldOnly s t) ∧
    (∀ s : State, s.fld.phase = .running → s.fld.cfg.sweeping = true → s.fld.cfg.commitSweep = true →
      s.fld.cfg.commit = some 2 → s.fld.cfg.covered = false → proofValue s.fld ≠ s.fld.cfg.expect →
      s.fld.flag F_CFG_PROOF_STAT_committed = false →
      ∃ t, exec .proofSweepEnd s = .next t ∧ t.fld.get F_CFG_PROOF_STAT_busy = 0 ∧ t.fld.get F_CFG_PROOF_STAT_result = 1 ∧
        t.fld.sq F_CFG_EVT 1 = true ∧ t.fld.cfg.commit = none ∧
        FieldFrame [F_CFG_PROOF_RUN, F_CFG_PROOF_STAT, F_CFG_EVT]
          { s.fld with cfg := { s.fld.cfg with sweeping := false, commit := none, commitSweep := false } } s t)

/-- A word other than the first of an entry that is not valid takes the bits written that the table stores, and marks the
proof as stale. While the entry is valid such a write changes nothing but entry_locked and its report. A table that
hardware writes is unchanged by software. (R285, R286, R287, R288) -/
def Obligations.TableEntriesByWord : Prop :=
    (∀ (s : State) (req addr : Nat) (data : Word) (w : TblRow), s.fld.canWrite req = true → tblRow addr = some w →
      w.kind ≠ .hw → w.words ≠ 1 → addr ≠ w.entryBase addr → addr ∉ coverRegs → addr ≠ F_CFG_PROOF_STAT →
      hasBit (s.fld.rdN (w.entryBase addr)) 31 = false →
      ∃ t, exec (.tableEntryWrite req addr data) s = .next t ∧
        t.fld.rd addr = word (Nat.land data.toNat (wordMask w addr)) ∧ t.fld.flag F_CFG_PROOF_STAT_stale = true ∧
        FieldFrame [addr, F_CFG_PROOF_STAT]
          { s.fld with cfg := { s.fld.cfg with covered := true }, flt := { s.fld.flt with badWords := t.fld.flt.badWords } } s t) ∧
    (∀ (s : State) (req addr : Nat) (data : Word) (w : TblRow), s.fld.canWrite req = true → tblRow addr = some w →
      w.kind ≠ .hw → w.words ≠ 1 → addr ≠ w.entryBase addr → hasBit (s.fld.rdN (w.entryBase addr)) 31 = true →
      ∃ t, exec (.tableEntryWrite req addr data) s = .next t ∧ t.fld.sq F_CFG_EVT 5 = true ∧
        FieldFrame [F_CFG_EVT, F_CFG_EVT_INFO] s.fld s t) ∧
    (∀ (s : State) (req addr : Nat) (data : Word) (w : TblRow), s.fld.canWrite req = true → tblRow addr = some w →
      w.kind = .hw → ∃ t, exec (.tableEntryWrite req addr data) s = .next t ∧ FieldFrame [] s.fld s t)

/-- When an erase completes, every byte of its unit reads 0xFF, and the next unit's erase or the first page's program
follows; when a page program completes, its 256 bytes are those of the image's page, padded with 0xFF; every other byte
of the flash is as before. An operation that has run for its time-out (10 ms a program, 500 ms an erase, 3 s one of
64 KB) can change only bytes of its own unit or page, and ends the write with resume_stat 3, flash_busy 0 and
resume_fail. (R755, R756) -/
def Obligations.FlashOperations : Prop :=
    (∀ (s : State) (a : Nat), s.fld.phase = .running → s.fld.spi.flash = 1 →
      ∃ t, exec .flashOperationDone s = .next t ∧ t.pending = s.pending ∧ t.hst = s.hst ∧ t.key = s.key ∧
        (s.fld.spi.restart = false → if s.fld.spi.flashAt + eraseUnit s.fld < 30720
          then t.fld.spi.flash = 1 ∧ t.fld.spi.flashAt = s.fld.spi.flashAt + eraseUnit s.fld
          else t.fld.spi.flash = 2 ∧ t.fld.spi.flashAt = 0) ∧
        Store.get (fun _ => 0xFF) t.flash a =
          (if a / eraseUnit s.fld = resumeAddr s.fld s.fld.spi.flashAt / eraseUnit s.fld then 0xFF
           else Store.get (fun _ => 0xFF) s.flash a)) ∧
    (∀ (s : State) (a : Nat), s.fld.phase = .running → s.fld.spi.flash = 2 →
      ∃ t, exec .flashOperationDone s = .next t ∧ t.pending = s.pending ∧ t.hst = s.hst ∧ t.key = s.key ∧
        Store.get (fun _ => 0xFF) t.flash a =
          (if resumeAddr s.fld s.fld.spi.flashAt ≤ a ∧ a < resumeAddr s.fld s.fld.spi.flashAt + 256 then
            s.fld.spi.image.getD (s.fld.spi.flashAt + (a - resumeAddr s.fld s.fld.spi.flashAt)) 0xFF
           else Store.get (fun _ => 0xFF) s.flash a)) ∧
    (∀ s : State, s.fld.phase = .running → (s.fld.spi.flash = 1 ∨ s.fld.spi.flash = 2) →
      s.fld.spi.flashSince + (if s.fld.spi.flash = 2 then 10 else if s.fld.flag F_SPI_MFLASH2_erase_64k then 3000 else 500)
        * msTicks ≤ s.fld.now →
      ∃ t, exec .flashOperationTimeout s = .next t ∧ t.fld.get F_PWR_STATE_resume_stat = 3 ∧
        t.fld.get F_SPI_STAT_flash_busy = 0 ∧ t.fld.spi.flash = 0 ∧ t.fld.sq F_PWR_EVT 6 = true ∧
        t.pending = s.pending ∧ t.hst = s.hst ∧ t.key = s.key ∧
        (∀ a, (s.fld.spi.flash = 1 → a / eraseUnit s.fld ≠ resumeAddr s.fld s.fld.spi.flashAt / eraseUnit s.fld) →
          (s.fld.spi.flash = 2 → a < resumeAddr s.fld s.fld.spi.flashAt ∨ resumeAddr s.fld s.fld.spi.flashAt + 256 ≤ a) →
          Store.get (fun _ => 0xFF) t.flash a = Store.get (fun _ => 0xFF) s.flash a))

/-- A permitted request for a header read or a commit starts its transaction with an inventory command and sets busy; a
commit while the reader is busy is refused with code 0x09 and commit_fail. An abort before step 5 is noted for the
next command boundary. A presence poll, due poll seconds after the last, sends an inventory: a key that is gone clears
present and raises key_removed, one that has come is shown with its UID, and of several none is used and key_multiple is
raised. (R195, R213, R214, R215, R217, R218, R226) -/
def Obligations.KeyRequests : Prop :=
    (∀ (s : State) (req : Nat), s.fld.canWrite req = true → ownsLock s.fld req 1 = true → s.fld.flag F_KEY_STAT_busy = false →
      hasBit (s.fld.rdN F_GLB_STRAP) 1 = false →
      (∃ t, exec (.keyReadHeader req) s = .next t ∧ t.fld.key.op = 1 ∧ t.fld.key.step = 1 ∧
        t.fld.key.cmd = some (0x01, [], []) ∧ t.fld.get F_KEY_STAT_busy = 1 ∧ Output.keyCommand 0x01 [] [] ∈ t.fld.out ∧
        FieldFrame [F_KEY_STAT] { s.fld with key := t.fld.key } s t) ∧
      (s.fld.flag F_CFG_PROOF_STAT_committed = true → s.fld.flag F_CFG_PROOF_STAT_stale = false →
        s.fld.flag F_KEY_STAT_image_big = false →
        (∃ t, exec (.keyCommit req) s = .next t ∧ t.fld.key.op = 2 ∧ t.fld.key.step = 1 ∧ t.fld.get F_KEY_STAT_step = 1 ∧
          t.fld.key.cmd = some (0x01, [], []) ∧ t.fld.get F_KEY_STAT_busy = 1 ∧ Output.keyCommand 0x01 [] [] ∈ t.fld.out ∧
          FieldFrame [F_KEY_STAT] { s.fld with key := t.fld.key } s t) ∧
        (∃ t, exec (.keyForcedCommit req) s = .next t ∧ t.fld.key.op = 3 ∧ t.fld.key.step = 1 ∧ t.fld.get F_KEY_STAT_step = 1 ∧
          t.fld.key.cmd = some (0x01, [], []) ∧ t.fld.get F_KEY_STAT_busy = 1 ∧ Output.keyCommand 0x01 [] [] ∈ t.fld.out ∧
          FieldFrame [F_KEY_STAT] { s.fld with key := t.fld.key } s t))) ∧
    (∀ (s : State) (req : Nat), s.fld.canWrite req = true → ownsLock s.fld req 1 = true → s.fld.flag F_KEY_STAT_busy = true →
      (∃ t, exec (.keyCommit req) s = .next t ∧ t.fld.rdN F_KEY_RESULT = 0x09000000 ∧ t.fld.sq F_KEY_EVT 2 = true ∧
        FieldFrame [F_KEY_RESULT, F_KEY_EVT] { s.fld with key := { s.fld.key with failed := false } } s t) ∧
      (keyCommitting s.fld = true → s.fld.key.step ≤ 4 →
        ∃ t, exec (.keyAbort req) s = .next t ∧
          FieldFrame [] { s.fld with key := { s.fld.key with abort := true } } s t)) ∧
    (∀ (s : State) (answers : Nat), s.fld.phase = .running → s.fld.get F_KEY_CFG_poll ≠ 0 → s.fld.engineRuns 16 = true →
      s.fld.flag F_KEY_STAT_busy = false → s.fld.key.failed = false → hasBit (s.fld.rdN F_GLB_STRAP) 1 = false →
      s.fld.key.pollAt + s.fld.get F_KEY_CFG_poll * 1000 * msTicks ≤ s.fld.now →
      (s.fld.flag F_KEY_STAT_present = true → (answers = 0 ∨ s.key.present = false ∨
          (answers = 1 ∧ s.key.uid ≠ s.fld.rdN F_KEY_UID_LO + 2 ^ 32 * s.fld.rdN F_KEY_UID_HI)) →
        ∃ t, exec (.keyPresencePoll answers) s = .next t ∧ t.fld.get F_KEY_STAT_present = 0 ∧ t.fld.sq F_KEY_EVT 4 = true ∧
          Output.keyCommand 0x01 [] [] ∈ t.fld.out ∧
          FieldFrame [F_KEY_STAT, F_KEY_EVT] { s.fld with key := { s.fld.key with pollAt := s.fld.now } } s t) ∧
      (s.fld.flag F_KEY_STAT_present = false → answers = 1 → s.key.present = true → s.key.uid < 2 ^ 64 →
        ∃ t, exec (.keyPresencePoll answers) s = .next t ∧ t.fld.get F_KEY_STAT_present = 1 ∧
          t.fld.rdN F_KEY_UID_LO + 2 ^ 32 * t.fld.rdN F_KEY_UID_HI = s.key.uid ∧ Output.keyCommand 0x01 [] [] ∈ t.fld.out ∧
          FieldFrame [F_KEY_STAT, F_KEY_UID_LO, F_KEY_UID_HI]
            { s.fld with key := { s.fld.key with pollAt := s.fld.now } } s t) ∧
      (2 ≤ answers → s.key.present = true →
        ∃ t, exec (.keyPresencePoll answers) s = .next t ∧ t.fld.sq F_KEY_EVT 6 = true ∧
          Output.keyCommand 0x01 [] [] ∈ t.fld.out ∧
          FieldFrame [F_KEY_STAT, F_KEY_EVT] { s.fld with key := { s.fld.key with pollAt := s.fld.now } } s t))

/-- When the slot check of step 4 answers in time with the image's CRC-32C, the commit goes to step 5: it takes the next
transaction number and sends the first pointer copy. The header's arrival in time ends a header read with code 0 and
busy 0, and the key's page buffer is lost. A command without an answer for 80 ms after VERIFY_SLOT, 20 ms after any
other, is sent again while retries remain; when none remains the transaction ends, with code 0x01 for the inventory, else
with code 0x02, and outside the page, the pointer copy and the record that the command may have been writing the key's
memory stands. (R189, R213, R219, R221, R230, R235) -/
def Obligations.KeyAnswers : Prop :=
    (∀ (s : State) (args : List Nat) (data d : List Byte), s.fld.phase = .running → s.fld.engineRuns 16 = true →
      keyCommitting s.fld = true → s.fld.key.step = 4 → s.fld.key.abort = false →
      s.fld.key.cmd = some (0xC6, args, data) → s.fld.key.reply = some (0, d) → wordAt d 0 = crc32c s.fld.cfg.image →
      s.fld.now ≤ s.fld.key.sentAt + 80 * msTicks →
      ∃ t, exec .keyReply s = .next t ∧ t.fld.key.step = 5 ∧ t.fld.get F_KEY_STAT_step = 5 ∧
        t.fld.key.txn = txnNext s.fld.key.txn ∧ t.fld.rd F_KEY_TXN = word (txnNext s.fld.key.txn) ∧
        t.fld.key.cmd.map (fun c => (c.1, c.2.1)) = some (0xC8, [txnNext s.fld.key.txn, 0]) ∧
        t.key = s.key ∧ t.hst = s.hst ∧ t.flash = s.flash ∧ t.pending = s.pending ∧
        RegsSame [F_KEY_STAT, F_KEY_TXN] s.fld t.fld) ∧
    (∀ (s : State) (args : List Nat) (data : List Byte), s.fld.phase = .running → s.fld.engineRuns 16 = true →
      s.key.present = true → s.fld.key.op = 1 → s.fld.key.step = 1 → s.fld.key.part = 4 → s.fld.key.abort = false →
      hasBit s.fld.straps 1 = false → s.fld.key.uid = s.key.uid → s.fld.now ≤ s.fld.key.sentAt + 20 * msTicks →
      s.fld.key.page = 0 → s.fld.key.cmd = some (0x33, args, data) →
      ∃ t, exec .keyReply s = .next t ∧ t.fld.key.op = 0 ∧ t.fld.key.cmd = none ∧ t.fld.get F_KEY_STAT_busy = 0 ∧
        t.fld.get F_KEY_RESULT_code = 0 ∧ t.key = { s.key with buffer := [] } ∧
        t.hst = s.hst ∧ t.flash = s.flash ∧ t.pending = s.pending ∧ RegsSame [F_KEY_STAT, F_KEY_RESULT] s.fld t.fld) ∧
    (∀ (s : State) (c : Nat) (args : List Nat) (data : List Byte), s.fld.phase = .running → s.fld.engineRuns 16 = true →
      s.fld.key.op ≠ 0 → s.fld.key.abort = false → s.fld.key.cmd = some (c, args, data) →
      s.fld.key.sentAt + (if c = 0xC6 then 80 else 20) * msTicks ≤ s.fld.now →
      s.fld.key.tries < s.fld.get F_KEY_CFG_retries →
      ∃ t, exec .keyReplyTimeout s = .next t ∧ t.fld.key.cmd = some (c, args, data) ∧ t.fld.key.reply = none ∧
        Output.keyCommand c ((if c = 0x01 then [] else [s.fld.key.uid]) ++
          (if 0xC0 ≤ c then [s.fld.key.uid / 2 ^ 48 % 256] else []) ++ args) data ∈ t.fld.out ∧
        FieldFrame [] { s.fld with key := { s.fld.key with
          tries := s.fld.key.tries + 1, reply := none, sentAt := s.fld.now } } s t) ∧
    (∀ (s : State) (c : Nat) (args : List Nat) (data : List Byte), s.fld.phase = .running → s.fld.engineRuns 16 = true →
      s.fld.key.op ≠ 0 → s.fld.key.abort = false → s.fld.key.cmd = some (c, args, data) → data.length ≤ 32 →
      s.fld.key.sentAt + (if c = 0xC6 then 80 else 20) * msTicks ≤ s.fld.now →
      s.fld.get F_KEY_CFG_retries ≤ s.fld.key.tries → s.fld.key.step < 16 → s.fld.key.page < 256 →
      ∃ t, exec .keyReplyTimeout s = .next t ∧ t.fld.key.op = 0 ∧ t.fld.get F_KEY_STAT_busy = 0 ∧
        t.fld.get F_KEY_RESULT_code = (if s.fld.key.step = 1 ∧ s.fld.key.part = 0 then 1 else 2) ∧
        (c ≠ 0xC4 → c ≠ 0xC8 → t.key.mem = s.key.mem) ∧
        (c = 0xC4 → ∀ a, (a < slotBase (args.getD 1 0) + 256 * args.getD 2 0 ∨
            slotBase (args.getD 1 0) + 256 * args.getD 2 0 + 256 ≤ a) → (a < 0x140 ∨ 0x160 ≤ a) →
          t.key.byte a = s.key.byte a) ∧
        (c = 0xC8 → ∀ a, (a < 0x100 + 32 * args.getD 1 0 ∨ 0x100 + 32 * args.getD 1 0 + 32 ≤ a) → (a < 0x140 ∨ 0x160 ≤ a) →
          t.key.byte a = s.key.byte a) ∧
        t.key.buffer = [] ∧ t.hst = s.hst ∧ t.flash = s.flash ∧ t.pending = s.pending ∧
        RegsSame [F_KEY_STAT, F_KEY_RESULT, F_KEY_EVT] s.fld t.fld)

/-- While the carrier is on, with a key in the field: the inventory answers its UID, at start-up it is noted with the
number of other keys. A command addressed to the key: VERIFY_SLOT answers the CRC-32C of a slot and leaves the key as it
is; LOAD_BUFFER puts its 32 bytes into the page buffer alone; PROGRAM_PAGE with the buffer's CRC-32C stores the page and
its transaction record and nothing else, WRITE_POINTER its copy and that record; a repetition of the recorded command, or
a PROGRAM_PAGE with a wrong check, stores nothing. Any other key, and a key without the carrier, does nothing. (R189,
R193, R194, R195, R222, R223, R225, R232, R233) -/
def Obligations.KeyChipCommands : Prop :=
    (∀ (s : State) (others : Nat), s.key.present = true → hasBit s.fld.straps 1 = false →
      (s.fld.phase = .running → s.fld.key.op ≠ 0 → s.fld.key.cmd = some (0x01, [], []) →
        exec (.inventory others) s = .next { s with fld := { s.fld with key := { s.fld.key with
          reply := some (if others = 0 then 0 else 1, bytesLE s.key.uid ++ bytesLE (s.key.uid / 2 ^ 32)) } } }) ∧
      (s.fld.phase = .resolving → s.fld.pwr.waking = false →
        exec (.inventory others) s = .next { s with fld := { s.fld with key := { s.fld.key with
          seen := some others, uid := s.key.uid, tries := 0 } } })) ∧
    (∀ (s : State) (txn slot page crc off size ptr : Nat) (data : List Byte), keyTakes s.fld s.key = false →
      exec (.loadBuffer off data) s = .next s ∧ exec (.programPage txn slot page crc) s = .next s ∧
        exec (.verifySlot slot size) s = .next s ∧ exec (.writePointer txn ptr data) s = .next s) ∧
    (∀ (s : State) (off : Nat) (data : List Byte), keyTakes s.fld s.key = true → off + 32 ≤ 256 → data.length = 32 →
      ∃ t, exec (.loadBuffer off data) s = .next t ∧ t.key.mem = s.key.mem ∧ t.hst = s.hst ∧ t.flash = s.flash ∧
        t.fld.reg = s.fld.reg ∧
        ∀ a, Store.get (fun _ => 0xFF) t.key.buffer a =
          (if off ≤ a ∧ a < off + 32 then data.getD (a - off) 0 else Store.get (fun _ => 0xFF) s.key.buffer a)) ∧
    (∀ (s : State) (txn slot page : Nat), keyTakes s.fld s.key = true → txn < 2 ^ 32 → s.key.repeated txn 0xC4 = false →
      slot < 2 → page < 120 →
      (∃ t, exec (.programPage txn slot page (crc32c s.key.page)) s = .next t ∧ t.key.buffer = s.key.buffer ∧
        t.hst = s.hst ∧ t.flash = s.flash ∧ t.fld.reg = s.fld.reg ∧ t.key.repeated txn 0xC4 = true ∧ t.key.stored = (0, []) ∧
        ∀ a, (slotBase slot + 256 * page ≤ a → a < slotBase slot + 256 * page + 256 →
            t.key.byte a = s.key.page.getD (a - (slotBase slot + 256 * page)) 0) ∧
          (a < slotBase slot + 256 * page ∨ slotBase slot + 256 * page + 256 ≤ a → a < 0x140 ∨ 0x160 ≤ a →
            t.key.byte a = s.key.byte a)) ∧
      (∀ crc : Nat, crc ≠ crc32c s.key.page → ∃ t, exec (.programPage txn slot page crc) s = .next t ∧ t.key = s.key ∧
        t.hst = s.hst ∧ t.flash = s.flash ∧ t.fld.reg = s.fld.reg)) ∧
    (∀ (s : State) (txn slot page crc : Nat), keyTakes s.fld s.key = true → s.key.repeated txn 0xC4 = true →
      ∃ t, exec (.programPage txn slot page crc) s = .next t ∧ t.key = s.key ∧ t.hst = s.hst ∧ t.flash = s.flash ∧
        t.fld.reg = s.fld.reg) ∧
    (∀ (s : State) (slot size : Nat), keyTakes s.fld s.key = true → slot < 2 → size ≤ 30720 →
      s.fld.key.cmd = some (0xC6, [slot, size], []) →
      ∃ t, exec (.verifySlot slot size) s = .next t ∧
        t = { s with fld := { s.fld with key := { s.fld.key with
          reply := some (0, bytesLE (crc32c (s.key.bytes (slotBase slot) size))) } } }) ∧
    (∀ (s : State) (txn ptr : Nat) (data : List Byte), keyTakes s.fld s.key = true → ptr < 2 → data.length = 32 → txn < 2 ^ 32 →
      s.key.repeated txn 0xC8 = false →
      ∃ t, exec (.writePointer txn ptr data) s = .next t ∧ t.key.buffer = s.key.buffer ∧ t.hst = s.hst ∧ t.flash = s.flash ∧
        t.fld.reg = s.fld.reg ∧ t.key.repeated txn 0xC8 = true ∧
        ∀ a, (0x100 + 32 * ptr ≤ a → a < 0x100 + 32 * ptr + 32 → t.key.byte a = data.getD (a - (0x100 + 32 * ptr)) 0) ∧
          (a < 0x100 + 32 * ptr ∨ 0x100 + 32 * ptr + 32 ≤ a → a < 0x140 ∨ 0x160 ≤ a → t.key.byte a = s.key.byte a))

/-- On a link-up port with nothing in reception but, on P0 to P11, a frame that an express one may interrupt, a frame
start outside DARK_ENTRY opens a new frame with the port's max_frame; in DARK_ENTRY, or after a TC10 sleep request, it is
counted under its reason alone. At its end a frame with a MAC condition is counted under that one reason of Table 7.7,
unless an early pass has dropped it under its own; one without is counted with its bytes as received; a verify frame is
answered. No register below the parser's moves but the port's own. (R28, R113, R317, R323, R324, R326, R792, R796) -/
def Obligations.FrameReception : Prop :=
    (∀ (s : State) (n phase : Nat), s.fld.phase = .running → n < 16 → stateUp (portState s.fld n) = true →
      (s.fld.inRx n = none ∨ (n < 12 ∧ s.fld.buf.frames.any (fun fr => fr.port == n && fr.held) = false)) →
      powerState s.fld ≠ 2 → ¬ (portState s.fld n = 4 ∧ (s.fld.portX n).sleepSent = true) →
      (12 ≤ n → (s.fld.segX (n - 12)).silentWait = false) →
      ∃ t, exec (.frameStart n phase) s = .next t ∧ t.fld.buf.nextId = s.fld.buf.nextId + 1 ∧
        (∃ fr ∈ t.fld.buf.frames, fr.id = s.fld.buf.nextId ∧ fr.port = n ∧ fr.rx = true ∧ fr.bytes = [] ∧
          fr.maxFrame = s.fld.get (F_PORT_MAXFRM_max_frame n) ∧ fr.ts = ingressTs s.fld n phase) ∧
        FieldFrame [] { s.fld with segs := t.fld.segs } s t) ∧
    (∀ (s : State) (n phase : Nat), s.fld.phase = .running → n < 16 → stateUp (portState s.fld n) = true →
      s.fld.inRx n = none → (12 ≤ n → (s.fld.segX (n - 12)).silentWait = false) →
      (powerState s.fld = 2 → ∃ t, exec (.frameStart n phase) s = .next t ∧
        t.fld.cntAt (cPort n 38) = (s.fld.cntAt (cPort n 38) + 1) % 2 ^ 64 ∧
        FieldFrame [] { s.fld.count (cPort n 38) with segs := t.fld.segs } s t) ∧
      (powerState s.fld ≠ 2 → portState s.fld n = 4 → (s.fld.portX n).sleepSent = true →
        ∃ t, exec (.frameStart n phase) s = .next t ∧
          t.fld.cntAt (cPort n 41) = (s.fld.cntAt (cPort n 41) + 1) % 2 ^ 64 ∧
          FieldFrame [] { s.fld.count (cPort n 41) with segs := t.fld.segs } s t)) ∧
    (∀ (s : State) (n cond frags : Nat) (bytes : List Byte) (fr : Frame), s.fld.phase = .running → n < 16 →
      s.fld.inRx n = some fr → portState s.fld n ≠ 5 → (cond = 0x20 → 12 ≤ n) →
      macVerdict (fr.bytes ++ bytes) fr.maxFrame cond ≠ 0 → macVerdict (fr.bytes ++ bytes) fr.maxFrame cond ≠ 7 →
      ∃ t, exec (.frameEnd n bytes cond frags) s = .next t ∧
        t.fld.cntAt (cPort n (32 + macVerdict (fr.bytes ++ bytes) fr.maxFrame cond)) =
          (s.fld.cntAt (cPort n (32 + macVerdict (fr.bytes ++ bytes) fr.maxFrame cond)) + (if fr.dropped then 0 else 1)) % 2 ^ 64 ∧
        PortFrame n [] { s.fld with pwr := { s.fld.pwr with rxAt := s.fld.now }, ports := t.fld.ports, gates := t.fld.gates } s t) ∧
    (∀ (s : State) (n frags : Nat) (bytes : List Byte) (fr : Frame), s.fld.phase = .running → n < 12 → s.fld.inRx n = some fr →
      ∃ t, exec (.frameEnd n bytes 0x20 frags) s = .next t ∧ Output.verify n true ∈ t.fld.out ∧ FieldFrame [] s.fld s t) ∧
    (∀ (s : State) (n cond frags : Nat) (bytes : List Byte) (fr : Frame), s.fld.phase = .running → n < 16 →
      s.fld.inRx n = some fr → portState s.fld n ≠ 5 → (cond = 0x20 → 12 ≤ n) →
      macVerdict (fr.bytes ++ bytes) fr.maxFrame cond = 0 →
      ∃ t, exec (.frameEnd n bytes cond frags) s = .next t ∧
        t.fld.cntAt (cPort n 0) = (s.fld.cntAt (cPort n 0) + 1) % 2 ^ 64 ∧
        t.fld.cntAt (cPort n 1) = (s.fld.cntAt (cPort n 1) + (fr.bytes.length + bytes.length)) % 2 ^ 64 ∧
        PortFrame n [] { s.fld with pwr := { s.fld.pwr with rxAt := s.fld.now }, ports := t.fld.ports, gates := t.fld.gates } s t)

/-- A short pass on a port without cut-through classes adds its bytes to the frame in reception and changes no register;
with them, outside NAP, it is run once on the frame that awaits it and makes a final classification of a class that may
cut through. The full pass, outside NAP, classifies the frame that awaits it: its status is counted, and a status that
err_drop names drops it, counted under 0x0C with no copy made; a frame in reception from P16 has then entered whole.
Arming the key capture clears done. (R384, R386, R387, R389, R398, R402, R694) -/
def Obligations.ParserPasses : Prop :=
    (∀ (s : State) (n : Nat) (bytes : List Byte) (fr : Frame), s.fld.phase = .running → n < 17 → s.fld.inRx n = some fr →
      s.fld.get (F_FWD_CT_classes n) = 0 →
      ∃ t, exec (.shortPass n bytes) s = .next t ∧
        t.fld.inRx n = some { fr with bytes := fr.bytes ++ (if n = 16 then [] else bytes) } ∧ FieldFrame [] s.fld s t) ∧
    (∀ (s : State) (n : Nat) (fr : Frame), s.fld.phase = .running → n < 17 → napping s.fld = false →
      awaitsShort s.fld n = some fr →
      ∃ t, exec (.shortPass n []) s = .next t ∧ FieldOnly s t ∧
        ∀ fr' ∈ t.fld.buf.frames, fr'.id = fr.id → fr'.shortDone = true ∧
          (shortFinal s.fld n (classify s.fld n (shortWindow fr) true) = true → fr'.final ≠ none)) ∧
    (∀ (s : State) (fr : Frame), s.fld.phase = .running → s.fld.inRx 16 = some fr →
      ∃ t, exec (.fullPass 16 []) s = .next t ∧ FieldOnly s t ∧ ∀ fr' ∈ t.fld.buf.frames, fr'.id = fr.id → fr'.rx = false) ∧
    (∀ (s : State) (n : Nat) (fr : Frame), s.fld.phase = .running → n < 17 → (n = 16 → s.fld.inRx 16 = none) →
      napping s.fld = false → awaitsFull s.fld n = some fr → isMacControl fr.bytes = false →
      ∃ t, exec (.fullPass n []) s = .next t ∧ FieldOnly s t ∧
        t.fld.cntAt (cPort n (10 + (classify s.fld n (fullWindow fr) false).status)) =
          (s.fld.cntAt (cPort n (10 + (classify s.fld n (fullWindow fr) false).status)) + 1) % 2 ^ 64 ∧
        (∀ fr' ∈ t.fld.buf.frames, fr'.id = fr.id → fr'.final ≠ none) ∧
        (parseDrops s.fld n (classify s.fld n (fullWindow fr) false) = true →
          t.fld.cntAt (cPort n 44) = (s.fld.cntAt (cPort n 44) + 1) % 2 ^ 64 ∧
          t.fld.buf.waiting = s.fld.buf.waiting ∧ t.fld.buf.queued = s.fld.buf.queued)) ∧
    (∀ (s : State) (req : Nat) (data : Word), s.fld.canWrite req = true → hasBit data.toNat 31 = true →
      ∃ t, exec (.keyCaptureArm req data) s = .next t ∧ t.fld.fwd.armed = true ∧ t.fld.get F_CLS_CAP_CTRL_done = 0 ∧
        t.fld.get F_CLS_CAP_CTRL_port = bitsOf data.toNat 4 0 ∧
        FieldFrame [F_CLS_CAP_CTRL] { s.fld with fwd := { s.fld.fwd with armed := true } } s t)

/-- On a part that is no standby: a pending learn of an unknown pair writes a free candidate entry with the pair and its
destination; a due tick of the ager ages every valid learned entry by one and invalidates those that reach 8, but for
those that a learn has hit in its fabric cycle, and leaves static entries as they are; a flush invalidates exactly the
valid entries that its setting names. On a standby part neither changes an entry. Writing F_FWD_AGE restarts the ager's
phase, and a flush's end clears busy and raises flush_done. (R415, R420, R423, R425, R427, R428, R429, R430) -/
def Obligations.FilteringDatabase : Prop :=
    (∀ (s : State) (n i : Nat) (fr : Frame) (r : ClsResult), s.fld.phase = .running → n < 17 →
      s.fld.buf.frames.find? (fun x => x.port == n && x.learn && x.accepted) = some fr → fr.final = some r → r.vid < 4096 →
      s.fld.standbyPath = false → fdbFind s.fld (frameSa fr.bytes) r.vid = none →
      (s.fld.fwd.meetAt = s.fld.now → s.fld.fwd.agedOut = []) →
      (fdbCands (frameSa fr.bytes) r.vid).find? (fun j => !(s.fld.fdb j).valid) = some i →
      ∃ t, exec (.learn n) s = .next t ∧
        t.fld.fdb i = learnedWords (frameSa fr.bytes) r.vid ((groupOf s.fld n).elim n (fun g => 0x18 + g.1)) ∧
        FieldFrame [fdbAddr i 0, fdbAddr i 1, fdbAddr i 2, fdbAddr i 3, F_FWD_FDB_CNT]
          { s.fld with
            fwd := { s.fld.fwd with
              fullLatched := false, meetAt := t.fld.fwd.meetAt, learnHits := t.fld.fwd.learnHits, agedOut := t.fld.fwd.agedOut }
            twn := { s.fld.twn with fdbq := t.fld.twn.fdbq } } s t) ∧
    (∀ s : State, s.fld.phase = .running → s.fld.get F_FWD_AGE_age_s ≠ 0 →
      s.fld.fwd.ageTick + s.fld.get F_FWD_AGE_age_s * 15625000 ≤ s.fld.now →
      ∃ t, exec .agerTick s = .next t ∧
        t.fld.fwd.ageTick = s.fld.fwd.ageTick + s.fld.get F_FWD_AGE_age_s * 15625000 ∧
        (∀ i, i < 16448 → ((s.fld.fdb i).valid = false ∨ (s.fld.fdb i).isStatic = true ∨
            (s.fld.fwd.meetAt = s.fld.now ∧ i ∈ s.fld.fwd.learnHits)) → t.fld.fdb i = s.fld.fdb i) ∧
        (s.fld.standbyPath = true → FieldFrame [] { s.fld with fwd := t.fld.fwd } s t) ∧
        (∀ i, i < 16448 → s.fld.standbyPath = false → (s.fld.fdb i).valid = true → (s.fld.fdb i).isStatic = false →
          (fdbValid s.fld).count i = 1 → (s.fld.fwd.meetAt = s.fld.now → i ∉ s.fld.fwd.learnHits) →
          (t.fld.fdb i).valid = decide (bitsOf (s.fld.fdb i).w0 11 8 < 7) ∧
          (bitsOf (s.fld.fdb i).w0 11 8 < 7 → bitsOf (t.fld.fdb i).w0 11 8 = bitsOf (s.fld.fdb i).w0 11 8 + 1) ∧
          (t.fld.fdb i).mac = (s.fld.fdb i).mac ∧ (t.fld.fdb i).vid = (s.fld.fdb i).vid) ∧
        (∀ a, a < 0x480000 ∨ 0x4D0000 ≤ a → a ≠ F_FWD_FDB_CNT → a ∉ coverRegs → t.fld.rd a = s.fld.rd a) ∧ FieldOnly s t) ∧
    (∀ (s : State) (req : Nat) (data : Word), s.fld.canWrite req = true →
      ∃ t, exec (.ageWrite req data) s = .next t ∧ t.fld.get F_FWD_AGE_age_s = bitsOf data.toNat 15 0 ∧
        FieldFrame [F_FWD_AGE, F_CFG_PROOF_STAT]
          { s.fld with cfg := t.fld.cfg, fwd := { s.fld.fwd with ageTick := s.fld.now } } s t) ∧
    (∀ (s : State) (req : Nat) (data : Word), s.fld.canWrite req = true → hasBit data.toNat 31 = true →
      s.fld.get F_FWD_FLUSH_busy = 0 →
      ∃ t, exec (.fdbFlush req data) s = .next t ∧ t.fld.get F_FWD_FLUSH_busy = 1 ∧
        (∀ i, i < 16448 → s.fld.standbyPath = false → (s.fld.fdb i).valid = true →
          (t.fld.fdb i).valid = !flushMatch (bitsOf data.toNat 29 28) (bitsOf data.toNat 20 16) (bitsOf data.toNat 11 0)
            (hasBit data.toNat 27) (s.fld.fdb i)) ∧
        (s.fld.standbyPath = true → FieldFrame [F_FWD_FLUSH] s.fld s t) ∧
        (∀ i, i < 16448 → (t.fld.fdb i).w1 = (s.fld.fdb i).w1 ∧ (t.fld.fdb i).w2 = (s.fld.fdb i).w2 ∧
          (t.fld.fdb i).w3 = (s.fld.fdb i).w3) ∧
        (∀ a, a < 0x480000 ∨ 0x4D0000 ≤ a → a ≠ F_FWD_FDB_CNT → a ≠ F_FWD_FLUSH → a ∉ coverRegs →
          t.fld.rd a = s.fld.rd a) ∧ FieldOnly s t) ∧
    (∀ s : State, s.fld.phase = .running → s.fld.flag F_FWD_FLUSH_busy = true →
      ∃ t, exec .fdbFlushDone s = .next t ∧ t.fld.get F_FWD_FLUSH_busy = 0 ∧ t.fld.sq F_FWD_EVT 4 = true ∧
        FieldFrame [F_FWD_FLUSH, F_FWD_EVT] s.fld s t)

/-- A setting that names a port above 15, or one port in two enabled slots, changes nothing but its refusal event. An
accepted change of the slots makes exactly the enabled members active whose port has been link-up for rejoin_ms. Such
a member joins the active ones at its rejoin time. (R438, R439, R444, R445) -/
def Obligations.AggregationGroups : Prop :=
    (∀ (s : State) (req g : Nat) (data : Word), s.fld.canWrite req = true → g < 4 →
      ((aggPorts ((List.range 4).map (fun k => if k = g then data.toNat else s.fld.rdN (F_FWD_AGG k)))).any (fun p => decide (15 < p)) = true ∨
       ¬ (aggPorts ((List.range 4).map (fun k => if k = g then data.toNat else s.fld.rdN (F_FWD_AGG k)))).Nodup) →
      ∃ t, exec (.aggWrite req g data) s = .next t ∧ t.fld.sq F_FWD_EVT 2 = true ∧ t.fld.get F_FWD_EVT_INFO_index = g ∧
        FieldFrame [F_FWD_EVT_INFO, F_FWD_EVT] s.fld s t) ∧
    (∀ (s : State) (req g : Nat) (data : Word), s.fld.canWrite req = true → g < 4 →
      (aggPorts ((List.range 4).map (fun k => if k = g then data.toNat else s.fld.rdN (F_FWD_AGG k)))).any (fun p => decide (15 < p)) = false →
      (aggPorts ((List.range 4).map (fun k => if k = g then data.toNat else s.fld.rdN (F_FWD_AGG k)))).Nodup →
      (bitsOf data.toNat 31 28 ≠ s.fld.get (F_FWD_AGG_slot_en g) ∨ bitsOf data.toNat 19 0 ≠ s.fld.get (F_FWD_AGG_slots g)) →
      ∃ t, exec (.aggWrite req g data) s = .next t ∧ t.fld.get (F_FWD_AGG_slot_en g) = bitsOf data.toNat 31 28 ∧
        t.fld.get (F_FWD_AGG_slots g) = bitsOf data.toNat 19 0 ∧
        (∀ m, m < 4 → hasBit (t.fld.get (F_FWD_AGG_STAT_active g)) m = slotActive t.fld g m) ∧ FieldOnly s t) ∧
    (∀ (s : State) (g slot : Nat), s.fld.phase = .running → g < 4 → slot < 4 → slotActive s.fld g slot = true →
      ∃ t, exec (.memberRejoin g slot) s = .next t ∧ hasBit (t.fld.get (F_FWD_AGG_STAT_active g)) slot = true ∧
        (∀ m, m < 4 → m ≠ slot → hasBit (t.fld.get (F_FWD_AGG_STAT_active g)) m = hasBit (s.fld.get (F_FWD_AGG_STAT_active g)) m) ∧
        FieldFrame [F_FWD_AGG_STAT g, F_FWD_EVT_INFO, F_FWD_EVT] s.fld s t)

/-- A queue flush discards exactly the queued copies of the named queues and its end clears busy and raises its event with
the port. A reserve above 4,096 cells, or a sum above 16,384, is refused; another is taken. A watermark reset sets
every watermark to its present charge. After an audit the port has no queued copy and no charge, and fault 0 is
latched. (R463, R478, R483, R487) -/
def Obligations.BufferRegisters : Prop :=
    (∀ (s : State) (req : Nat) (data : Word), s.fld.canWrite req = true → hasBit data.toNat 31 = true →
      s.fld.get F_BUF_FLUSH_busy = 0 →
      ∃ t, exec (.queueFlush req data) s = .next t ∧ t.fld.get F_BUF_FLUSH_busy = 1 ∧
        t.fld.buf.queued = s.fld.buf.queued.filter
          (fun c => !(c.port == bitsOf data.toNat 20 16 && hasBit (bitsOf data.toNat 7 0) c.queue)) ∧
        t.fld.buf.waiting = s.fld.buf.waiting ∧ LowFrame [] s.fld s t) ∧
    (∀ s : State, s.fld.phase = .running → s.fld.flag F_BUF_FLUSH_busy = true →
      ∃ t, exec .queueFlushDone s = .next t ∧ t.fld.get F_BUF_FLUSH_busy = 0 ∧ t.fld.sq F_BUF_EVT 4 = true ∧
        t.fld.get F_BUF_EVT_INFO_port = s.fld.get F_BUF_FLUSH_port ∧
        FieldFrame [F_BUF_FLUSH, F_BUF_EVT_INFO, F_BUF_EVT] s.fld s t) ∧
    (∀ (s : State) (req n : Nat) (data : Word), s.fld.canWrite req = true → n < 17 →
      ((4096 < bitsOf data.toNat 12 0 ∨ 16384 < ((List.range 17).map (fun k =>
          if k = n then bitsOf data.toNat 12 0 else s.fld.get (F_BUF_PORT_CFG_rsv k))).sum) →
        ∃ t, exec (.bufPortCfgWrite req n data) s = .next t ∧ t.fld.sq F_BUF_EVT 2 = true ∧
          FieldFrame [F_BUF_EVT_INFO, F_BUF_EVT] s.fld s t) ∧
      (bitsOf data.toNat 12 0 ≤ 4096 → ((List.range 17).map (fun k =>
          if k = n then bitsOf data.toNat 12 0 else s.fld.get (F_BUF_PORT_CFG_rsv k))).sum ≤ 16384 →
        ∃ t, exec (.bufPortCfgWrite req n data) s = .next t ∧ t.fld.get (F_BUF_PORT_CFG_rsv n) = bitsOf data.toNat 12 0 ∧
          t.fld.get (F_BUF_PORT_CFG_rsv_q n) = bitsOf data.toNat 31 24 ∧
          FieldFrame [F_BUF_PORT_CFG n, F_BUF_POOL, F_CFG_PROOF_STAT] { s.fld with cfg := t.fld.cfg } s t)) ∧
    (∀ (s : State) (req : Nat) (data : Word), s.fld.canWrite req = true → hasBit data.toNat 0 = true →
      ∃ t, exec (.watermarkReset req data) s = .next t ∧
        (∀ k, k < 136 → bitsOf (t.fld.rdN (0x501000 + 4 * k)) 30 16 = bitsOf (s.fld.rdN (0x501000 + 4 * k)) 14 0 ∧
          bitsOf (t.fld.rdN (0x501000 + 4 * k)) 14 0 = bitsOf (s.fld.rdN (0x501000 + 4 * k)) 14 0) ∧
        (∀ n, n < 17 → t.fld.get (F_BUF_PORT_WM_shr_wm n) = s.fld.get (F_BUF_PORT_USE_shr_used n) ∧
          t.fld.get (F_BUF_PORT_WM_res_wm n) = s.fld.get (F_BUF_PORT_USE_res_used n)) ∧
        t.fld.get F_BUF_POOL_WM_shared_wm = s.fld.get F_BUF_POOL_shared_used ∧ LowFrame [] s.fld s t) ∧
    (∀ (s : State) (n : Nat), s.fld.phase = .running → n < 17 → s.fld.sq F_FLT_EVT 0 = false →
      ∃ t, exec (.bufferAudit n) s = .next t ∧ (∀ c ∈ t.fld.buf.queued, c.port ≠ n) ∧ (∀ c ∈ t.fld.buf.waiting, c.port ≠ n) ∧
        (∀ q, q < 8 → t.fld.used n q = 0) ∧ t.fld.get (F_BUF_PORT_USE_shr_used n) = 0 ∧
        t.fld.get (F_BUF_PORT_USE_res_used n) = 0 ∧ t.fld.sq F_FLT_EVT 0 = true ∧ FieldOnly s t)

/-- With nothing on the wire of a link-up T1 port or trunk, or of P16 towards the host die, the start puts there the copy
that the queues' order and gates choose and takes it out of its queue, or resumes the preempted remainder that they
choose. An express copy that may start preempts a preemptable one that has sent its least fragment, whose remainder
waits. At the end of an undamaged copy whose frame has been received and is not the gPTP engine's, the port is free, the
frame has left with a correct FCS (from P16 to the host die), and it is counted with its bytes. No register below the
parser's moves but, at the end, the port's own. (R435, R462, R473, R474, R475, R477, R792) -/
def Obligations.TransmissionOfACopy : Prop :=
    (∀ (s : State) (n : Nat) (c : Copy), s.fld.phase = .running → Shape s →
      ((n < 12 ∧ stateUp (portState s.fld n) = true ∧ ¬ (portState s.fld n = 4 ∧ (s.fld.portX n).drained = true)) ∨
        (n = 16 ∧ toWindow s.fld c.queue = false)) →
      (s.fld.portX n).sending = none → s.fld.flt.badCells = [] → chooseCopy (purgeOverrun n s.fld) n = some c → c.port = n →
      ∃ t, exec (.transmitStart n) s = .next t ∧
        (∃ d, (t.fld.portX n).sending = some d ∧ d.frame = c.frame ∧ d.queue = c.queue ∧ d.start = s.fld.now ∧
          (c.frag = false → d.ts = s.fld.sysNs) ∧ (c.frag = true → d.sent = c.sent)) ∧
        (c.frag = false → t.fld.buf.queued = (purgeOverrun n s.fld).buf.queued.erase c) ∧
        (c.frag = true → (t.fld.portX n).preempted = none ∧ t.fld.buf.queued = (purgeOverrun n s.fld).buf.queued) ∧
        LowFrame [] s.fld s t) ∧
    (∀ (s : State) (n : Nat) (c e : Copy), s.fld.phase = .running → Shape s → n < 12 → stateUp (portState s.fld n) = true →
      ¬ (portState s.fld n = 4 ∧ (s.fld.portX n).drained = true) → (s.fld.portX n).sending = some c →
      s.fld.flt.badCells = [] → expressCopy (purgeOverrun n s.fld) n = some e → e.port = n → e.frag = false →
      canPreempt (purgeOverrun n s.fld) n c = true →
      ∃ t, exec (.transmitStart n) s = .next t ∧
        (∃ d, (t.fld.portX n).sending = some d ∧ d.frame = e.frame ∧ d.queue = e.queue ∧ d.start = s.fld.now) ∧
        (t.fld.portX n).preempted = some { c with sent := c.sent + fragSent (purgeOverrun n s.fld) n c, frag := true } ∧
        t.fld.buf.queued = (purgeOverrun n s.fld).buf.queued.erase e ∧
        t.fld.cntAt (cPort n 23) = (s.fld.cntAt (cPort n 23) + 1) % 2 ^ 64 ∧ LowFrame [] s.fld s t) ∧
    (∀ (s : State) (n phase : Nat) (c : Copy), s.fld.phase = .running → Shape s → n < 12 ∨ n = 16 →
      (s.fld.portX n).sending = some c → c.port = n → c.queue < 8 → c.stomped = false → s.fld.flt.badCells = [] →
      (s.fld.frameOf c.frame).rx = false → (s.fld.frameOf c.frame).ptp = none →
      ∃ t, exec (.transmitEnd n phase) s = .next t ∧ (t.fld.portX n).sending = none ∧
        (n < 12 → Output.frame n (outBytes c.tag (s.fld.frameOf c.frame).bytes false) ∈ t.fld.out) ∧
        t.fld.cntAt (cPort n 2) = (s.fld.cntAt (cPort n 2) + 1) % 2 ^ 64 ∧
        t.fld.cntAt (cPort n 3) =
          (s.fld.cntAt (cPort n 3) + (outBytes c.tag (s.fld.frameOf c.frame).bytes false).length) % 2 ^ 64 ∧
        t.fld.buf.queued = s.fld.buf.queued ∧ PortFrame n [] s.fld s t)

/-- A gate edge gives the port the states of the entry that runs; without an active list only the hold ahead of a pending
list can follow. A trigger that repeats the last generation is counted and ignored, one that names a refused list
reports the first refused port and its reason, an accepted one makes each named port's list pending at the first base
+ N x cycle that is 64 us or more ahead. At its change time the pending list is operational with its parameters. At a
boundary the windows of an accepted trigger replace the old ones, and the network cycle begins anew. UNLATCH clears the
status of the stream it names, or the state of the stream gate. A write of a port's rate limiter sets its registers and
its level to the burst, and no other port's. (R518, R519, R522, R523, R524, R525, R526, R527, R497, R501, R515, R520) -/
def Obligations.GatesFollowTheirLists : Prop :=
    (∀ (s : State) (n : Nat), s.fld.phase = .running → Shape s → n < 17 → listActive s.fld n = false →
      ∃ t, exec (.gateEdge n) s = .next t ∧ (t.fld.gateX n).hold = holdSoon s.fld n ∧
        (∀ m, m ≠ n → t.fld.gateX m = s.fld.gateX m) ∧
        (holdSoon s.fld n = (s.fld.gateX n).hold → FieldFrame [] s.fld s t) ∧
        LowFrame [] { s.fld with gates := t.fld.gates } s t) ∧
    (∀ (s : State) (n : Nat), s.fld.phase = .running → Shape s → n < 17 → listActive s.fld n = true → operSpans s.fld n ≠ [] →
      runningEntry (operSpans s.fld n) (s.fld.sysNs - runningCycle s.fld n) < 256 →
      ∃ t, exec (.gateEdge n) s = .next t ∧
        t.fld.get (F_STR_GCL_CUR_entry n) = runningEntry (operSpans s.fld n) (s.fld.sysNs - runningCycle s.fld n) ∧
        (∀ sp ∈ (operSpans s.fld n)[runningEntry (operSpans s.fld n) (s.fld.sysNs - runningCycle s.fld n)]?,
          (t.fld.gateX n).states = sp.states ∧ (t.fld.gateX n).entryStart = runningCycle s.fld n + sp.from_) ∧
        (t.fld.gateX n).cycleStart = runningCycle s.fld n ∧
        (∀ m, m ≠ n → t.fld.gateX m = s.fld.gateX m) ∧ LowFrame [] { s.fld with gates := t.fld.gates } s t) ∧
    (∀ (s : State) (req : Nat) (data : Word), s.fld.canWrite req = true → lkDenied s.fld req F_STR_CHG = false →
      bitsOf data.toNat 15 0 = s.fld.get F_STR_CHG_STAT_last_gen →
      ∃ t, exec (.scheduleTrigger req data) s = .next t ∧
        t.fld.get F_STR_CHG_STAT_repeats = (s.fld.get F_STR_CHG_STAT_repeats + 1) % 2 ^ 7 ∧
        FieldFrame [F_STR_CHG_STAT] s.fld s t) ∧
    (∀ (s : State) (req n : Nat) (data : Word), s.fld.canWrite req = true → lkDenied s.fld req F_STR_CHG = false →
      bitsOf data.toNat 15 0 ≠ s.fld.get F_STR_CHG_STAT_last_gen →
      (portsIn (s.fld.get F_STR_CHG_MASK_ports)).find? (fun m => adminRefused s.fld m != 0) = some n →
      ∃ t, exec (.scheduleTrigger req data) s = .next t ∧ t.fld.get F_STR_CHG_STAT_result = adminRefused s.fld n ∧
        t.fld.get F_STR_EVT_INFO_port = n ∧ t.fld.sq F_STR_EVT 3 = true ∧
        FieldFrame [F_STR_CHG_STAT, F_STR_EVT_INFO, F_STR_EVT] s.fld s t) ∧
    (∀ (s : State) (req n : Nat) (data : Word), s.fld.canWrite req = true → lkDenied s.fld req F_STR_CHG = false → Shape s →
      bitsOf data.toNat 15 0 ≠ s.fld.get F_STR_CHG_STAT_last_gen →
      (∀ m, m < 17 → hasBit (s.fld.get F_STR_CHG_MASK_ports) m = true → adminRefused s.fld m = 0) →
      n < 17 → hasBit (s.fld.get F_STR_CHG_MASK_ports) n = true →
      ∃ t, exec (.scheduleTrigger req data) s = .next t ∧ (t.fld.gateX n).pending = true ∧
        (t.fld.gateX n).ct = changeTime (adminBase s.fld n) (s.fld.get (F_STR_GCL_CYCLE_cycle_ns n)) (s.fld.sysNs + 64000) ∧
        (t.fld.gateX n).pendLen = s.fld.get (F_STR_GCL_CTRL_admin_len n) ∧
        (t.fld.gateX n).pendList = (List.range 256).map (fun e => (s.fld.rdN (gclAddr n e 0), s.fld.rdN (gclAddr n e 1))) ∧
        (t.fld.gateX n).pendGen = bitsOf data.toNat 15 0 ∧
        (∀ m, m < 17 → hasBit (s.fld.get F_STR_CHG_MASK_ports) m = false → t.fld.gateX m = s.fld.gateX m) ∧
        t.fld.get F_STR_CHG_STAT_last_gen = bitsOf data.toNat 15 0 ∧ t.fld.get F_STR_CHG_STAT_result = 0 ∧
        t.fld.get F_STR_CHG_STAT_pending = 1 ∧
        FieldFrame [F_STR_CHG_STAT] { s.fld with gates := t.fld.gates, str := t.fld.str } s t) ∧
    (∀ (s : State) (n : Nat), s.fld.phase = .running → Shape s → n < 17 → (s.fld.gateX n).pending = true →
      (s.fld.gateX n).ct ≤ s.fld.sysNs → (s.fld.gateX n).pendList.length ≤ 256 →
      (s.fld.gateX n).pendLen ≤ 256 → (s.fld.gateX n).pendCycle < 2 ^ 30 → (s.fld.gateX n).pendGen < 2 ^ 16 →
      ∃ t, exec (.scheduleChange n) s = .next t ∧ (t.fld.gateX n).pending = false ∧
        (t.fld.gateX n).base = (s.fld.gateX n).pendBase ∧ t.fld.get (F_STR_GCL_OPER_oper_gen n) = (s.fld.gateX n).pendGen ∧
        t.fld.get (F_STR_GCL_OPER_oper_len n) = (s.fld.gateX n).pendLen ∧
        t.fld.get (F_STR_GCL_OPER_active n) = (if (s.fld.gateX n).pendOff then 0 else 1) ∧
        operCycle t.fld n = (s.fld.gateX n).pendCycle ∧
        (∀ e, e < (s.fld.gateX n).pendList.length →
          t.fld.rd (operAddr n e 0) = word ((s.fld.gateX n).pendList.getD e (0, 0)).1 ∧
          t.fld.rd (operAddr n e 1) = word ((s.fld.gateX n).pendList.getD e (0, 0)).2) ∧
        LowFrame [] { s.fld with gates := t.fld.gates } s t) ∧
    (∀ s : State, s.fld.phase = .running → windowsDue s.fld = true → (s.fld.str.pendWords.map (fun e => e.1)).Nodup →
      (∀ e ∈ s.fld.str.pendWords, 0x554000 ≤ e.1 ∧ e.1 < 0x558000) →
      ∃ t, exec (.scheduleChange 17) s = .next t ∧ t.fld.str.pendWin = none ∧
        (∀ e ∈ s.fld.str.pendWords, t.fld.rd e.1 = e.2) ∧
        (∀ a, 0x554000 ≤ a → a < 0x558000 → a ∉ s.fld.str.pendWords.map (fun e => e.1) → t.fld.rd a = 0) ∧
        (∀ a, (a < 0x554000 ∨ 0x558000 ≤ a) → a ≠ F_STR_CHG_STAT → a ≠ F_STR_EVT → a ∉ coverRegs →
          t.fld.rd a = s.fld.rd a) ∧ FieldOnly s t) ∧
    (∀ s : State, s.fld.phase = .running → networkBoundary s.fld = s.fld.str.netStart →
      ∃ t, exec .networkCycleBoundary s = .next t ∧ FieldFrame [] s.fld s t) ∧
    (∀ s : State, s.fld.phase = .running → networkBoundary s.fld ≠ s.fld.str.netStart → s.fld.role = 0 →
      s.fld.str.pendWin = none → s.fld.twn.boundaryB = none → s.fld.twn.confAt = false → s.fld.twn.aloneAtB = false →
      ∃ t, exec .networkCycleBoundary s = .next t ∧ t.fld.get F_STR_NCYC_ncyc = networkCycle s.fld % 2 ^ 30 ∧
        FieldFrame [F_STR_NCYC] { s.fld with str := { s.fld.str with
          netStart := networkBoundary s.fld
          cycles := if s.fld.str.cycles.head? = some (networkBoundary s.fld) then s.fld.str.cycles
            else (networkBoundary s.fld :: s.fld.str.cycles).take 128 } } s t) ∧
    (∀ (s : State) (req : Nat) (data : Word), s.fld.canWrite req = true →
      ∃ t, exec (.unlatch req data) s = .next t ∧
        (hasBit data.toNat 31 = true → t.fld.rd (streamStatusAddr (bitsOf data.toNat 11 0)) = 0) ∧
        (hasBit data.toNat 31 = false → bitsOf data.toNat 11 0 < 256 →
          t.fld.rd (sgateStateAddr (bitsOf data.toNat 11 0)) = 0) ∧
        FieldFrame (if hasBit data.toNat 31 then [streamStatusAddr (bitsOf data.toNat 11 0)]
          else if bitsOf data.toNat 11 0 < 256 then [sgateStateAddr (bitsOf data.toNat 11 0)] else []) s.fld s t) ∧
    (∀ (s : State) (req n : Nat) (burst : Bool) (data : Word), s.fld.canWrite req = true → Shape s → n < 17 →
      ∃ t, exec (.rateLimiterWrite req n burst data) s = .next t ∧
        (burst = true → t.fld.get (F_STR_RL_BURST_burst n) = bitsOf data.toNat 23 0) ∧
        (burst = false → t.fld.get (F_STR_RL_CFG_rate n) = bitsOf data.toNat 23 0 ∧
          t.fld.get (F_STR_RL_CFG_qmask n) = bitsOf data.toNat 31 24) ∧
        FieldFrame [if burst then F_STR_RL_BURST n else F_STR_RL_CFG n, F_CFG_PROOF_STAT]
          { s.fld.setGateX n (fun x => { x with
              rlLevel := ((if burst then bitsOf data.toNat 23 0 else s.fld.get (F_STR_RL_BURST_burst n) : Nat) : Int) * 1000000 })
            with cfg := t.fld.cfg } s t)

/-- Under the TIME lock, on a part that is not a standby, a step of A or of B waits for the next fine tick and adds to one
that waits; a set of A takes its staged words and B's off those that are staged; an increment within its limits is
taken unless the engine steers A; a rate changes B's rate and leaves its value as it is. A standby part refuses with
set_rejected, a requester without the lock with lk_reject. (R246, R250, R534, R536, R539, R540, R541, R653) -/
def Obligations.TimeIsSteppedSetAndSteered : Prop :=
    (∀ (s : State) (req : Nat) (data : Word), s.fld.canWrite req = true → lkDenied s.fld req F_TIM_A_STEP = false → s.fld.role ≠ 3 →
      ∃ t, exec (.aStep req data) s = .next t ∧ FieldFrame [] { s.fld with tim := { s.fld.tim with
        aStep := some (s.fld.tim.aStep.getD 0 + toSigned 32 data.toNat) } } s t) ∧
    (∀ (s : State) (req : Nat) (data : Word), s.fld.canWrite req = true → lkDenied s.fld req F_TIM_B_STEP = false → s.fld.role ≠ 3 →
      ∃ t, exec (.bStep req data) s = .next t ∧ FieldFrame [] { s.fld with tim := { s.fld.tim with
        bStep := some (s.fld.tim.bStep.getD 0 + toSigned 32 data.toNat) } } s t) ∧
    (∀ (s : State) (req : Nat) (data : Word), s.fld.canWrite req = true → req < 256 →
      (lkDenied s.fld req F_TIM_A_STEP = false → s.fld.role = 3 →
        ∃ t, exec (.aStep req data) s = .next t ∧ t.fld.sq F_TIM_EVT 10 = true ∧ t.fld.get F_TIM_EVT_INFO_index = 0 ∧
          FieldFrame [F_TIM_EVT_INFO, F_TIM_EVT] s.fld s t) ∧
      (lkDenied s.fld req F_TIM_A_STEP = true →
        ∃ t, exec (.aStep req data) s = .next t ∧ t.fld.sq F_CFG_EVT 4 = true ∧ t.fld.get F_CFG_EVT_INFO_requester = req ∧
          t.fld.get F_CFG_EVT_INFO_addr = F_TIM_A_STEP ∧ t.fld.rdN F_CFG_LK_REJ = (s.fld.rdN F_CFG_LK_REJ + 1) % 2 ^ 32 ∧
          FieldFrame [F_CFG_LK_REJ, F_CFG_EVT, F_CFG_EVT_INFO] s.fld s t)) ∧
    (∀ (s : State) (req : Nat) (data : Word), s.fld.canWrite req = true → lkDenied s.fld req F_TIM_A_SET_SEC_HI = false →
      s.fld.role ≠ 3 →
      ∃ t, exec (.aSet req data) s = .next t ∧
        FieldFrame [] { clearStaged req [F_TIM_A_SET_NS, F_TIM_A_SET_SEC_LO, F_TIM_A_SET_SEC_HI] s.fld with
          tim := { s.fld.tim with aSet := some (timeOf (stagedOrZero s.fld req F_TIM_A_SET_NS)
            (stagedOrZero s.fld req F_TIM_A_SET_SEC_LO) data.toNat) } } s t) ∧
    (∀ (s : State) (req : Nat) (data : Word), s.fld.canWrite req = true → s.fld.role ≠ 3 →
      ∃ t, exec (.bOffWrite req data) s = .next t ∧
        FieldFrame [] { clearStaged req [F_TIM_B_OFF_NS, F_TIM_B_OFF_SEC_LO, F_TIM_B_OFF_SEC_HI] s.fld with
          tim := { s.fld.tim with bSet := some (timeOf (stagedOr s.fld req F_TIM_B_OFF_NS)
            (stagedOr s.fld req F_TIM_B_OFF_SEC_LO) data.toNat) } } s t) ∧
    (∀ (s : State) (req : Nat) (data : Word) (v : Nat), s.fld.canWrite req = true → s.fld.role ≠ 3 →
      v = stagedOr s.fld req F_TIM_A_INC_LO + 2 ^ 32 * (data.toNat % 16) →
      (7875 * 2 ^ 32 ≤ v * 1000 → v * 1000 ≤ 8125 * 2 ^ 32 → steeredBy s.fld 0 = none →
        ∃ t, exec (.incWrite req data) s = .next t ∧ incOf t.fld = v ∧
          FieldFrame [F_TIM_A_INC_LO, F_TIM_A_INC_HI] (clearStaged req [F_TIM_A_INC_LO, F_TIM_A_INC_HI] s.fld) s t) ∧
      (v * 1000 < 7875 * 2 ^ 32 ∨ 8125 * 2 ^ 32 < v * 1000 ∨ steeredBy s.fld 0 ≠ none →
        ∃ t, exec (.incWrite req data) s = .next t ∧ t.fld.sq F_TIM_EVT 10 = true ∧ t.fld.get F_TIM_EVT_INFO_index = 0 ∧
          FieldFrame [F_TIM_EVT_INFO, F_TIM_EVT] (clearStaged req [F_TIM_A_INC_LO, F_TIM_A_INC_HI] s.fld) s t)) ∧
    (∀ (s : State) (req : Nat) (data : Word), s.fld.canWrite req = true → s.fld.role ≠ 3 → steeredBy s.fld 1 = none →
      s.fld.now < 2 ^ 64 →
      ∃ t, exec (.rateWrite req data) s = .next t ∧ t.fld.domB = s.fld.domB ∧ t.fld.rd F_TIM_B_RATE = data ∧
        t.fld.anchor = s.fld.now ∧
        FieldFrame [F_TIM_B_OFF_NS, F_TIM_B_OFF_SEC_LO, F_TIM_B_OFF_SEC_HI, F_TIM_B_ANCHOR_LO, F_TIM_B_ANCHOR_HI, F_TIM_B_RATE]
          { s.fld with tim := { s.fld.tim with bOff := t.fld.tim.bOff } } s t)

/-- A switch requested under the TIME lock to the other domain takes effect when the difference that becomes the offset is
at most one second, and system time does not jump; otherwise the domain in use and system time stay and switch_refused
is raised. At its interval's end the cross-check records the difference of the domains and latches fault 5 when it has
changed by more than its limit. A capture leaves system time, both domains and the count in their registers. (R538,
R543, R544, R545, R547, R550) -/
def Obligations.DomainsAreSwitchedAndCompared : Prop :=
    (∀ (s : State) (req : Nat) (data : Word), s.fld.phase = .running → ownsLock s.fld req 3 = true →
      bitsOf data.toNat 0 0 ≠ s.fld.activeDom →
      ((domDiff ((s.fld.dom s.fld.activeDom : Int) + s.fld.tim.delta - (s.fld.dom (bitsOf data.toNat 0 0) : Int))).natAbs ≤ secFix →
        ∃ t, exec (.domainSwitchRequest req data) s = .next t ∧ t.fld.activeDom = bitsOf data.toNat 0 0 ∧
          t.fld.sysFix = s.fld.sysFix ∧ t.fld.sq F_TIM_EVT 2 = true ∧
          t.fld.get F_TIM_EVT_INFO_index = bitsOf data.toNat 0 0 ∧
          FieldFrame [F_TIM_SYS, F_CFG_PROOF_STAT, F_TIM_EVT_INFO, F_TIM_EVT]
            { s.fld with cfg := t.fld.cfg, tim := t.fld.tim } s t) ∧
      (secFix < (domDiff ((s.fld.dom s.fld.activeDom : Int) + s.fld.tim.delta - (s.fld.dom (bitsOf data.toNat 0 0) : Int))).natAbs →
        ∃ t, exec (.domainSwitchRequest req data) s = .next t ∧ t.fld.activeDom = s.fld.activeDom ∧
          t.fld.sysFix = s.fld.sysFix ∧ t.fld.sq F_TIM_EVT 3 = true ∧
          FieldFrame [F_TIM_SYS, F_CFG_PROOF_STAT, F_TIM_EVT_INFO, F_TIM_EVT]
            { s.fld with cfg := t.fld.cfg, tim := t.fld.tim } s t)) ∧
    (∀ (s : State) (d : Int), s.fld.phase = .running → s.fld.tim.xcOn = true →
      s.fld.tim.xcStart + pow2Sec s.fld.tim.xcLog ≤ s.fld.sysNs →
      d = domDiff ((s.fld.domA : Int) - (s.fld.domB : Int)) + toSigned 32 (s.fld.rdN F_PTB_XC) * 2 ^ 32 →
      ((s.fld.tim.xcPrev = none ∨ s.fld.tim.xcVoid = true ∨
          ∀ p ∈ s.fld.tim.xcPrev, (d - p).natAbs ≤ s.fld.rdN F_TIM_XC * 2 ^ 32) →
        ∃ t, exec .xcIntervalEnd s = .next t ∧ t.fld.tim.xcPrev = some d ∧ t.fld.tim.xcVoid = false ∧
          t.fld.tim.xcStart = s.fld.sysNs ∧ FieldFrame [] { s.fld with tim := t.fld.tim } s t) ∧
      (s.fld.tim.xcVoid = false → (∃ p ∈ s.fld.tim.xcPrev, s.fld.rdN F_TIM_XC * 2 ^ 32 < (d - p).natAbs) →
        ∃ t, exec .xcIntervalEnd s = .next t ∧ t.fld.tim.xcPrev = some d ∧ t.fld.sq F_FLT_EVT 5 = true ∧ FieldOnly s t)) ∧
    (∀ (s : State) (req : Nat) (data : Word), s.fld.canWrite req = true → hasBit data.toNat 0 = true → s.fld.now < 2 ^ 64 →
      s.fld.domA < domMod →
      ∃ t, exec (.timeCaptureSnap req data) s = .next t ∧
        timeOf (t.fld.rdN F_TIM_CAP_SYS_NS) (t.fld.rdN F_TIM_CAP_SYS_SEC_LO) (t.fld.rdN F_TIM_CAP_SYS_SEC_HI) = s.fld.sysNs ∧
        timeOf (t.fld.rdN F_TIM_CAP_A_NS) (t.fld.rdN F_TIM_CAP_A_SEC_LO) (t.fld.rdN F_TIM_CAP_A_SEC_HI) = s.fld.domA / 2 ^ 32 ∧
        timeOf (t.fld.rdN F_TIM_CAP_B_NS) (t.fld.rdN F_TIM_CAP_B_SEC_LO) (t.fld.rdN F_TIM_CAP_B_SEC_HI) = s.fld.domB / 2 ^ 32 ∧
        t.fld.rdN F_TIM_CAP_CNT_LO + 2 ^ 32 * t.fld.rdN F_TIM_CAP_CNT_HI = s.fld.now ∧
        FieldFrame [F_TIM_CAP_SYS_NS, F_TIM_CAP_SYS_SEC_LO, F_TIM_CAP_SYS_SEC_HI, F_TIM_CAP_A_NS, F_TIM_CAP_A_SEC_LO,
          F_TIM_CAP_A_SEC_HI, F_TIM_CAP_B_NS, F_TIM_CAP_B_SEC_LO, F_TIM_CAP_B_SEC_HI, F_TIM_CAP_CNT_LO, F_TIM_CAP_CNT_HI]
          s.fld s t)

/-- A fine tick advances the count and domain A by its increment, applies a waiting set and step of A together with
domain_stepped, and moves the slew offset towards 0 by its rate; no register below the ports' moves. A safelight tick
advances the coarse timekeeper and samples the pads. A count beyond 3,823 within a safelight tick latches fault 4. In
RUN the measured period becomes F_PWR_SL_CAL. NAP is entered when its conditions have held for nap_idle and left for
each of its causes. (R102, R103, R106, R107, R138, R533, R540, R546) -/
def Obligations.TheClocksTick : Prop :=
    (∀ s : State, s.fld.phase = .running → Shape s →
      ∃ t, exec .fineTick s = .next t ∧ t.fld.now = s.fld.now + 1 ∧
        t.fld.tim.a = domWrap ((match s.fld.tim.aSet with
          | some v => ((v * 2 ^ 32 : Nat) : Int)
          | none => ((domWrap ((s.fld.tim.a + incOf s.fld : Nat) : Int) : Nat) : Int)) + s.fld.tim.aStep.getD 0 * 2 ^ 32) ∧
        t.fld.tim.aSet = none ∧ t.fld.tim.aStep = none ∧
        ((s.fld.tim.aSet ≠ none ∨ s.fld.tim.aStep ≠ none) → t.fld.sq F_TIM_EVT 4 = true) ∧
        t.fld.tim.delta = (if s.fld.tim.delta.natAbs ≤ (s.fld.tim.residue + s.fld.get F_TIM_SLEW_slew_ppb * 8 * 2 ^ 32) / 1000000000 then 0
          else if 0 < s.fld.tim.delta
            then s.fld.tim.delta - (((s.fld.tim.residue + s.fld.get F_TIM_SLEW_slew_ppb * 8 * 2 ^ 32) / 1000000000 : Nat) : Int)
            else s.fld.tim.delta + (((s.fld.tim.residue + s.fld.get F_TIM_SLEW_slew_ppb * 8 * 2 ^ 32) / 1000000000 : Nat) : Int)) ∧
        (∀ a, a < 0x10000 → a ∉ coverRegs → t.fld.rd a = s.fld.rd a) ∧
        (∀ a, 0x20000 ≤ a → a < 0x60000 → t.fld.rd a = s.fld.rd a) ∧ FieldOnly s t) ∧
    (∀ (s : State) (pads : Nat), s.fld.phase = .running → s.fld.pwr.vddSl = true →
      ∃ t, exec (.safelightTick pads) s = .next t ∧ t.fld.pwr.sl = (s.fld.pwr.sl + 1) % 2 ^ 48 ∧ t.fld.pin.pads = pads ∧
        (∀ p, p < 2 → t.fld.get (F_PIN_PAIR_STAT_samp_a p) = bitOf pads (2 * p) ∧
          t.fld.get (F_PIN_PAIR_STAT_samp_b p) = bitOf pads (2 * p + 1)) ∧ FieldOnly s t) ∧
    (∀ s : State, s.fld.phase = .running → xcheckOn s.fld = true → s.fld.pwr.overran = false → 3823 < xcheckCount s.fld →
      ∃ t, exec .crossCheckOverrun s = .next t ∧ t.fld.pwr.overran = true ∧ t.fld.sq F_FLT_EVT 4 = true ∧ FieldOnly s t) ∧
    (∀ s : State, (xcheckOn s.fld = false ∨ s.fld.pwr.overran = true ∨ xcheckCount s.fld ≤ 3823) →
      ∃ t, exec .crossCheckOverrun s = .next t ∧ FieldFrame [] s.fld s t) ∧
    (∀ (s : State) (period : Nat), s.fld.phase = .running → powerState s.fld = 0 → s.fld.get F_PTB_SKEW_sl_skew = 0 →
      ∃ t, exec (.slCalUpdate period) s = .next t ∧ t.fld.rdN F_PWR_SL_CAL = period % 2 ^ 32 ∧
        FieldFrame [F_PWR_SL_CAL] s.fld s t) ∧
    (∀ s : State, s.fld.phase = .running → s.fld.flag F_PWR_CTRL_nap_en = true → powerState s.fld = 0 →
      s.fld.get F_PWR_NAP_CFG_nap_idle ≤ s.fld.pwr.idle → napIdle s.fld = true → s.fld.engineRuns 18 = true →
      ∃ t, exec .napEntry s = .next t ∧ powerState t.fld = 1 ∧ FieldFrame [F_PWR_STATE] s.fld s t) ∧
    (∀ s : State, s.fld.phase = .running → powerState s.fld = 1 → s.fld.engineRuns 18 = true →
      s.fld.pwr.napCause = true → ∃ t, exec .napExit s = .next t ∧ powerState t.fld = 0 ∧ FieldFrame [F_PWR_STATE] s.fld s t)

/-- A shutter armed with values that R578 admits takes them, is active within their pulses, and moves no other shutter;
with a stop less than 8 ns after its start it is disarmed and reports it. At an edge an unheld shutter is as its
values say at that instant. A capture input records an edge that it is set for, unless one came within 16 ns before
it, which is counted, or its queue of 16 is full, which is counted and reported. (R577, R578, R579, R582) -/
def Obligations.ShuttersAndCaptures : Prop :=
    (∀ (s : State) (req k a b p : Nat) (data : Word), s.fld.canWrite req = true → Shape s → k < 4 → hasBit data.toNat 31 = true →
      a = shutTime s.fld (F_TIM_SHUT_START_NS k) → b = shutTime s.fld (F_TIM_SHUT_STOP_NS k) →
      p = s.fld.get (F_TIM_SHUT_PERIOD_period k) → (s.fld.shutter k).active = false → hasBit s.fld.pin.shutOff k = false →
      (a + 8 ≤ b → (p = 0 → s.fld.sysNs ≤ b) → (p ≠ 0 → b - a + 8 ≤ p) →
        ∃ t, exec (.shutterArm req k data) s = .next t ∧ (t.fld.shutter k).armed = true ∧ (t.fld.shutter k).start = a ∧
          (t.fld.shutter k).stop = b ∧ (t.fld.shutter k).period = p ∧
          (t.fld.shutter k).active = (t.fld.shutter k).pulseAt s.fld.sysNs ∧
          (∀ m, m ≠ k → t.fld.shutter m = s.fld.shutter m) ∧
          FieldFrame [F_TIM_SHUT_CTRL k, F_CFG_PROOF_STAT]
            { s.fld with cfg := t.fld.cfg, tim := { s.fld.tim with shutters := t.fld.tim.shutters } } s t) ∧
      (b < a + 8 →
        ∃ t, exec (.shutterArm req k data) s = .next t ∧ (t.fld.shutter k).armed = false ∧ t.fld.sq F_TIM_EVT 0 = true ∧
          t.fld.get F_TIM_EVT_INFO_index = k ∧ t.fld.get (F_TIM_SHUT_CTRL_arm k) = 0 ∧
          (∀ m, m ≠ k → t.fld.shutter m = s.fld.shutter m) ∧
          FieldFrame [F_TIM_SHUT_CTRL k, F_CFG_PROOF_STAT, F_TIM_EVT_INFO, F_TIM_EVT]
            { s.fld with cfg := t.fld.cfg, tim := { s.fld.tim with shutters := t.fld.tim.shutters } } s t)) ∧
    (∀ (s : State) (k : Nat), s.fld.phase = .running → Shape s → k < 4 → hasBit s.fld.pin.shutOff k = false →
      ∃ t, exec (.shutterEdge k) s = .next t ∧
        t.fld.shutter k = { (s.fld.shutter k).at_ s.fld.sysNs with missing := false } ∧
        t.fld.get (F_TIM_SHUT_CTRL_level k) =
          ((if ((s.fld.shutter k).at_ s.fld.sysNs).active then 1 else 0) + s.fld.get (F_TIM_SHUT_CTRL_invert k)) % 2 ∧
        (∀ m, m ≠ k → t.fld.shutter m = s.fld.shutter m) ∧
        FieldFrame [F_TIM_SHUT_CTRL k] { s.fld with tim := { s.fld.tim with shutters := t.fld.tim.shutters } } s t) ∧
    (∀ (s : State) (k phase : Nat) (rising : Bool), s.fld.phase = .running → Shape s → k < 4 → phase < 8 →
      captureOn s.fld k rising = true → s.fld.flag (F_PIN_CFG_dir (8 + k)) = false →
      (((∀ l ∈ s.fld.tim.capLast.getD k none, l + 16 < 8 * s.fld.now + phase) → (s.fld.tim.captures.getD k []).length < 16 →
        ∃ t, exec (.captureEdge k rising phase) s = .next t ∧
          t.fld.tim.captures.getD k [] = s.fld.tim.captures.getD k [] ++
            [{ status := if rising then 1 else 0, ts := s.fld.sysAt phase }] ∧
          (∀ m, m ≠ k → t.fld.tim.captures.getD m [] = s.fld.tim.captures.getD m []) ∧
          FieldFrame [] { s.fld with tim := { s.fld.tim with
            captures := t.fld.tim.captures, capLast := t.fld.tim.capLast } } s t) ∧
      ((∀ l ∈ s.fld.tim.capLast.getD k none, l + 16 < 8 * s.fld.now + phase) → 16 ≤ (s.fld.tim.captures.getD k []).length →
        ∃ t, exec (.captureEdge k rising phase) s = .next t ∧ t.fld.sq F_TIM_EVT 6 = true ∧
          t.fld.get F_TIM_EVT_INFO_index = k ∧
          FieldFrame [F_TIM_EVT_INFO, F_TIM_EVT] (s.fld.count (cGlobal (10 + k))) s t) ∧
      (∀ l : Nat, s.fld.tim.capLast.getD k none = some l → 8 * s.fld.now + phase ≤ l + 16 →
        ∃ t, exec (.captureEdge k rising phase) s = .next t ∧
          FieldFrame [] (s.fld.count (cGlobal (6 + k))) s t)))

/-- A read of a POP register takes the oldest entry out of its queue and leaves it in the four registers; from an empty
queue it reads 0. A mirrored queue's oldest entry is sent as a TSR unit, which joins the host die's mirror queue
there, counted as lost when that holds 32. A due TIME message carries system time; the host die latches it with its
own time less the transit, a PTM dialogue latches the other pair, and the correlation snapshot leaves both in their
registers. (R573, R574, R575, R576, R583, R584, R585, R586) -/
def Obligations.TimestampQueuesAndTimeMessages : Prop :=
    (∀ (s : State) (req n : Nat) (e : TsEntry) (es : List TsEntry), s.fld.canWrite req = true → Shape s → hasTsq n = true →
      s.fld.tim.tsq.getD n [] = e :: es →
      ∃ t, exec (.tsqPop req (F_TIM_TSQ_POP n)) s = .next t ∧ t.fld.tim.tsq.getD n [] = es ∧
        t.fld.rd (F_TIM_TSQ_POP n) = word (tsFirst e) ∧ t.fld.rd (F_TIM_TSQ_POP n + 4) = word (nsOf e.ts) ∧
        t.fld.rd (F_TIM_TSQ_POP n + 8) = word (secOf e.ts % 2 ^ 32) ∧
        t.fld.rd (F_TIM_TSQ_POP n + 12) = word (tsHigh e es.length) ∧
        (∀ m, m ≠ n → t.fld.tim.tsq.getD m [] = s.fld.tim.tsq.getD m []) ∧
        FieldFrame [F_TIM_TSQ_POP n, F_TIM_TSQ_POP n + 4, F_TIM_TSQ_POP n + 8, F_TIM_TSQ_POP n + 12]
          { s.fld with tim := { s.fld.tim with tsq := t.fld.tim.tsq } } s t) ∧
    (∀ (s : State) (req n : Nat), s.fld.canWrite req = true → hasTsq n = true → s.fld.tim.tsq.getD n [] = [] →
      ∃ t, exec (.tsqPop req (F_TIM_TSQ_POP n)) s = .next t ∧ t.fld.rd (F_TIM_TSQ_POP n) = 0 ∧
        FieldFrame [F_TIM_TSQ_POP n] s.fld s t) ∧
    (∀ (s : State) (n : Nat) (e : TsEntry) (es : List TsEntry), s.fld.phase = .running → Shape s → n < 17 →
      hasBit (s.fld.get F_TIM_TSQ_CFG_mirror) n = true → s.fld.xng.everUp = true → s.fld.xng.canSend = true →
      s.fld.tim.tsq.getD n [] = e :: es → s.fld.xng.corruptTx = false → s.fld.laneNoise .field 1 = false →
      ∃ t, exec (.tsrSend n) s = .next t ∧ t.fld.tim.tsq.getD n [] = es ∧
        Output.unit .field s.fld.xng.txNext (tsrUnit n e es.length) ∈ t.fld.out ∧
        FieldFrame [] { s.fld with tim := { s.fld.tim with tsq := t.fld.tim.tsq } } s t) ∧
    (∀ s : State, s.fld.phase = .running → timeMessageDue s.fld = true → s.fld.xng.canSend = true →
      s.fld.xng.corruptTx = false → s.fld.laneNoise .field 1 = false →
      ∃ t, exec .timeMessageSend s = .next t ∧ Output.unit .field s.fld.xng.txNext (timeUnit s.fld) ∈ t.fld.out ∧
        FieldFrame [] { s.fld with tim := { s.fld.tim with timeDue := false, lastMs := s.fld.sysNs / 1000000 } } s t) ∧
    (∀ (s : State) (hostLocal : Nat) (u : FlowUnit), s.hst.inReset = false →
      s.hst.xng.inbox.find? (fun u => u.type == 7) = some u → s.hst.localNs ≤ hostLocal → hostLocal < 2 ^ 64 →
      ∃ t, exec (.timeMessageReceive hostLocal) s = .next t ∧
        HostFrame [] { s.hst with
          localNs := hostLocal
          corrSys := (timeOf (u.w 0) (u.w 1) (u.w 2), (hostLocal + 2 ^ 64 - s.hst.xng.transit / 16) % 2 ^ 64) } s t) ∧
    (∀ (s : State) (u : FlowUnit) (n : Nat), s.hst.inReset = false → Shape s → s.hst.xng.inbox.find? (fun u => u.type == 6) = some u →
      bitsOf u.header 27 23 = n → n < 12 →
      ((s.hst.mirrors.getD n []).length < 32 →
        ∃ t, exec .tsr s = .next t ∧ t.hst.mirrors.getD n [] = s.hst.mirrors.getD n [] ++ [tsrEntry u] ∧
          (∀ m, m ≠ n → t.hst.mirrors.getD m [] = s.hst.mirrors.getD m []) ∧
          HostFrame [] { s.hst with mirrors := t.hst.mirrors } s t) ∧
      (32 ≤ (s.hst.mirrors.getD n []).length →
        ∃ t, exec .tsr s = .next t ∧ t.hst.get (H_TSQ_OVF_ovf n) = (s.hst.get (H_TSQ_OVF_ovf n) + 1) % 2 ^ 32 ∧
          HostFrame [H_TSQ_OVF n] s.hst s t)) ∧
    (∀ (s : State) (m l : Nat), s.hst.inReset = false → s.hst.localNs ≤ l → l < 2 ^ 64 →
      (s.hst.flag H_TSQ_PTM_CFG_ptm_ms = true →
        ∃ t, exec (.ptmDialogue m l) s = .next t ∧ Output.ptmRequest ∈ t.hst.out ∧
          HostFrame [] { s.hst with localNs := l, corrPtm := (m % 2 ^ 64, l) } s t) ∧
      (s.hst.flag H_TSQ_PTM_CFG_ptm_ms = false →
        ∃ t, exec (.ptmDialogue m l) s = .next t ∧ HostFrame [] { s.hst with localNs := l } s t)) ∧
    (∀ (s : State) (data : Word), s.hst.inReset = false → hasBit data.toNat 0 = true →
      ∃ t, exec (.corrSnap data) s = .next t ∧ t.hst.rd H_TSQ_CORR_SYS_NS = word (nsOf s.hst.corrSys.1) ∧
        t.hst.rd H_TSQ_CORR_SYS_LOC_LO = word (s.hst.corrSys.2 % 2 ^ 32) ∧
        t.hst.rd H_TSQ_CORR_SYS_LOC_HI = word (s.hst.corrSys.2 / 2 ^ 32) ∧
        t.hst.rd H_TSQ_CORR_PTM_LO = word (s.hst.corrPtm.1 % 2 ^ 32) ∧
        t.hst.rd H_TSQ_CORR_PTM_LOC_LO = word (s.hst.corrPtm.2 % 2 ^ 32) ∧
        HostFrame [H_TSQ_CORR_SYS_NS, H_TSQ_CORR_SYS_SEC_LO, H_TSQ_CORR_SYS_SEC_HI, H_TSQ_CORR_SYS_LOC_LO,
          H_TSQ_CORR_SYS_LOC_HI, H_TSQ_CORR_PTM_LO, H_TSQ_CORR_PTM_HI, H_TSQ_CORR_PTM_LOC_LO, H_TSQ_CORR_PTM_LOC_HI] s.hst s t)

/-- A new time received on the slave port gives the offset shown and is taken once; outside the servo curve it asks for a
step that removes it, inside it the integral grows and the frequency is shown. Without Sync for its time-out an instance
is LOST, without a slave port FREE. A Sync or an Announce makes one frame for each port that the instance sends on, and
the sequenceId goes on. An Announce time-out forgets what is old, or was heard on a port that takes no part, and leaves
the roles worked out. A message of an unknown domain is counted, a one-step Sync on the slave port is kept with its
origin, correction and arrival. An exchange gives link delay and rate ratio, or one loss more, and as_capable follows.
(R551, R552, R554, R555, R556, R561, R562, R563, R564, R565) -/
def Obligations.GptpEngine : Prop :=
    (∀ (s : State) (n p : Nat) (x : SyncTime), s.fld.phase = .running → Shape s → n < 2 → (s.fld.ptpX n).sync = some x →
      ptpOn s.fld n = true → s.fld.standbyPath = false → slavePort s.fld n = some p → (s.fld.ptpX n).syncNew = true →
      -(2 ^ 31) ≤ syncOffset s.fld p x → syncOffset s.fld p x < 2 ^ 31 → (s.fld.ptpX n).afterWake = false →
      ∃ t, exec (.syncReceive n p) s = .next t ∧ t.fld.rdN (F_TIM_PTP_OFFS n) = ofSigned 32 (syncOffset s.fld p x) ∧
        (t.fld.ptpX n).syncNew = false ∧ (t.fld.ptpX n).lastSync = s.fld.now ∧
        (servoEntry s.fld n (syncOffset s.fld p x) = none → s.fld.get (F_TIM_PTP_CFG_steer n) = 0 →
          t.fld.tim.aStep = some (s.fld.tim.aStep.getD 0 - syncOffset s.fld p x)) ∧
        (servoEntry s.fld n (syncOffset s.fld p x) = none → s.fld.get (F_TIM_PTP_CFG_steer n) = 1 →
          t.fld.tim.bStep = some (s.fld.tim.bStep.getD 0 - syncOffset s.fld p x)) ∧
        (∀ kp ki, servoEntry s.fld n (syncOffset s.fld p x) = some (kp, ki) →
          (t.fld.ptpX n).integral = (s.fld.ptpX n).integral + (ki : Int) * syncOffset s.fld p x ∧
          t.fld.rdN (F_TIM_PTP_FREQ n) = ofSigned 32 (limitY (-((kp : Int) * syncOffset s.fld p x +
            ((s.fld.ptpX n).integral + (ki : Int) * syncOffset s.fld p x))))) ∧
        LowFrame [] { s.fld with ptp := t.fld.ptp, tim := t.fld.tim } s t) ∧
    (∀ (s : State) (n : Nat), s.fld.phase = .running → Shape s → n < 2 → ptpOn s.fld n = true → s.fld.standbyPath = false →
      (slavePort s.fld n = none → ∃ t, exec (.syncTimeout n) s = .next t ∧ ptpState t.fld n = 1 ∧
        LowFrame [] { s.fld with ptp := t.fld.ptp } s t) ∧
      (slavePort s.fld n ≠ none → ptpState s.fld n ≠ 4 →
        (s.fld.ptpX n).lastSync + s.fld.get (F_TIM_PTP_TO_sync_to n) *
          intervalTicks (toSigned 4 (s.fld.get (F_TIM_PTP_CFG_log_sync n))) ≤ s.fld.now →
        ∃ t, exec (.syncTimeout n) s = .next t ∧ ptpState t.fld n = 4 ∧ t.fld.sq F_TIM_EVT 7 = true ∧
          LowFrame [] { s.fld with ptp := t.fld.ptp, tim := t.fld.tim } s t)) ∧
    (∀ (s : State) (n : Nat), s.fld.phase = .running → Shape s → n < 2 → ptpOn s.fld n = true → s.fld.standbyPath = false →
      (actsAsGm s.fld n = true ∨ (ptpState s.fld n ≠ 4 ∧ (s.fld.ptpX n).sync ≠ none)) →
      ∃ t, exec (.syncSend n) s = .next t ∧ (t.fld.ptpX n).seqSync = ((s.fld.ptpX n).seqSync + 1) % 65536 ∧
        t.fld.buf.nextId = s.fld.buf.nextId + (sendPorts s.fld n).length ∧
        LowFrame [] { s.fld with ptp := t.fld.ptp } s t) ∧
    (∀ (s : State) (n : Nat), s.fld.phase = .running → Shape s → n < 2 → ptpOn s.fld n = true → s.fld.standbyPath = false →
      (actsAsGm s.fld n = true ∨ (slavePort s.fld n).bind (heardOn s.fld n) ≠ none) →
      ∃ t, exec (.announceSend n) s = .next t ∧ (t.fld.ptpX n).seqAnnounce = ((s.fld.ptpX n).seqAnnounce + 1) % 65536 ∧
        t.fld.buf.nextId = s.fld.buf.nextId + (sendPorts s.fld n).length ∧
        LowFrame [] { s.fld with ptp := t.fld.ptp } s t) ∧
    (∀ (s : State) (n : Nat), s.fld.phase = .running → Shape s → n < 2 → ptpOn s.fld n = true → s.fld.standbyPath = false →
      ∃ t, exec (.announceTimeout n) s = .next t ∧
        (t.fld.ptpX n).heard = ((s.fld.ptpX n).heard.filter (fun h => decide (s.fld.now < h.2.1 +
          s.fld.get (F_TIM_PTP_TO_announce_to n) * intervalTicks (toSigned 4 (s.fld.get (F_TIM_PTP_CFG_log_announce n)))))).filter
            (fun h => ptpCapable s.fld n h.1) ∧
        (∀ p, p < 12 → t.fld.get (if n = 0 then F_TIM_PORT_STAT_role0 p else F_TIM_PORT_STAT_role1 p) = roleOf t.fld n p) ∧
        LowFrame [] { s.fld with ptp := t.fld.ptp } s t) ∧
    (∀ (s : State) (p ts : Nat) (m : List Byte), s.fld.phase = .running → p < 12 → s.fld.flag (F_TIM_PORT_PDLY_ptp_en p) = true →
      ptpType m ≠ 2 → ptpType m ≠ 3 → ptpType m ≠ 10 → instOf s.fld (ptpDomain m) = none →
        ∃ t, exec (.ptpMessageReceive p m ts) s = .next t ∧ FieldFrame [] (s.fld.count (cPort p 17)) s t) ∧
    (∀ (s : State) (p ts n : Nat) (m : List Byte), s.fld.phase = .running → p < 12 → s.fld.flag (F_TIM_PORT_PDLY_ptp_en p) = true →
      ptpType m = 0 → instOf s.fld (ptpDomain m) = some n → s.fld.standbyPath = false → slavePort s.fld n = some p →
        ptpTwoStep m = false → Shape s → n < 2 →
        ∃ t, exec (.ptpMessageReceive p m ts) s = .next t ∧ (t.fld.ptpX n).syncNew = true ∧
          (∃ x, (t.fld.ptpX n).sync = some x ∧ x.origin = ptpTime m ∧ x.corr = ptpCorr m ∧
            x.domTs = (heardInstant s.fld p ts).dom (s.fld.get (F_TIM_PTP_CFG_steer n))) ∧
          (∀ k, k ≠ n → t.fld.ptpX k = s.fld.ptpX k) ∧
          FieldFrame [] { s.fld.count (cPort p 29) with ptp := t.fld.ptp } s t) ∧
    (∀ (s : State) (p mld nrr : Nat) (answered : Bool), s.fld.phase = .running → Shape s → p < 12 →
      s.fld.flag (F_TIM_PORT_PDLY_pdelay_en p) = true → ptpPort s.fld p = true →
      ∃ t, exec (.pdelayExchange p answered mld nrr) s = .next t ∧
        (answered = true → t.fld.rd (F_TIM_PORT_MLD p) = word mld ∧ t.fld.rd (F_TIM_PORT_NRR p) = word nrr ∧
          t.fld.get (F_TIM_PORT_STAT_lost p) = 0 ∧ hasBit t.fld.tim.pdMeasured p = true) ∧
        (answered = false → t.fld.get (F_TIM_PORT_STAT_lost p) = min 255 (s.fld.get (F_TIM_PORT_STAT_lost p) + 1) ∧
          t.fld.tim.pdMeasured = s.fld.tim.pdMeasured) ∧
        t.fld.get (F_TIM_PORT_STAT_as_capable p) = (if asCapable t.fld p then 1 else 0) ∧
        t.fld.tim.pdSeq.getD p 0 = (s.fld.tim.pdSeq.getD p 0 + 1) % 65536 ∧
        LowFrame [] { s.fld with ptp := t.fld.ptp, tim := t.fld.tim } s t)

/-- A PLCA setting outside its ranges is refused; one for a disabled segment is taken, and one that changes the node of an
enabled one in UP is taken and holds the port. A coordinator whose next beacon is due sends it, is UP, and begins a
cycle. On a segment that neither sends nor receives a frame nor waits for silence, a follower in UP begins a cycle at
the end of a beacon received, one in TRAINING is UP at its second one within beacon_to, and a coordinator only counts
and reports it. Without a beacon for beacon_to a follower loses its cycle, and after down_ms its link. (R340, R341,
R343, R350, R351, R352, R354, R877) -/
def Obligations.SegmentBeaconsAndLosses : Prop :=
    (∀ (s : State) (req k : Nat) (data : Word), s.fld.canWrite req = true → k < 4 → plcaOk data.toNat = false →
      ∃ t, exec (.plcaWrite req k data) s = .next t ∧ t.fld.sq (F_MDS_EVT k) 4 = true ∧ FieldFrame [F_MDS_EVT k] s.fld s t) ∧
    (∀ (s : State) (req k : Nat) (data : Word), s.fld.canWrite req = true → Shape s → k < 4 → plcaOk data.toNat = true →
      (s.fld.flag (F_PORT_MODE_enable (12 + k)) = false →
        ∃ t, exec (.plcaWrite req k data) s = .next t ∧ t.fld.get (F_MDS_PLCA_role k) = bitsOf data.toNat 24 24 ∧
          t.fld.get (F_MDS_PLCA_node_id k) = bitsOf data.toNat 20 16 ∧
          t.fld.get (F_MDS_PLCA_node_count k) = bitsOf data.toNat 13 8 ∧
          t.fld.get (F_MDS_PLCA_to_timer k) = bitsOf data.toNat 7 0 ∧
          FieldFrame [F_MDS_PLCA k, F_CFG_PROOF_STAT] { s.fld with cfg := t.fld.cfg, segs := t.fld.segs } s t) ∧
      (s.fld.isRunning = true → s.fld.engineRuns (12 + k) = true → s.fld.flag (F_PORT_MODE_enable (12 + k)) = true →
        portState s.fld (12 + k) = 3 → bitsOf data.toNat 20 16 ≠ s.fld.get (F_MDS_PLCA_node_id k) →
        ∃ t, exec (.plcaWrite req k data) s = .next t ∧ t.fld.get (F_MDS_PLCA_node_id k) = bitsOf data.toNat 20 16 ∧
          portState t.fld (12 + k) = 1 ∧ 5 ∈ (t.fld.portX (12 + k)).holds ∧
          PortFrame (12 + k) [F_MDS_PLCA k, F_CFG_PROOF_STAT]
            { s.fld.setPortX (12 + k) (fun x => { x with holds := (t.fld.portX (12 + k)).holds }) with cfg := t.fld.cfg } s t)) ∧
    (∀ (s : State) (k : Nat), s.fld.phase = .running → Shape s → k < 4 → s.fld.engineRuns (12 + k) = true →
      isCoord s.fld k = true → segSilent s.fld k = false →
      (portState s.fld (12 + k) = 3 ∨ (portState s.fld (12 + k) = 2 ∧ (s.fld.portX (12 + k)).wakeAt ≤ s.fld.now)) →
      beaconDue s.fld k = true → (s.fld.portX (12 + k)).sending = none →
      ∃ t, exec (.beaconSend k) s = .next t ∧ Output.beacon k ∈ t.fld.out ∧ portState t.fld (12 + k) = 3 ∧
        t.fld.get (F_MDS_STAT_plca_active k) = 1 ∧ t.fld.get (F_MDS_STAT_cur_to k) = 0 ∧
        (t.fld.segX k).active = true ∧ (t.fld.segX k).toNode = 0 ∧ (t.fld.segX k).toStart = s.fld.now10 + 20000 ∧
        t.fld.cntAt (cSeg k 0) = (s.fld.cntAt (cSeg k 0) + 1) % 2 ^ 64 ∧
        (∀ m, m ≠ k → t.fld.segX m = s.fld.segX m) ∧ PortFrame (12 + k) [F_MDS_CYCLE k] s.fld s t) ∧
    (∀ (s : State) (k : Nat), s.fld.phase = .running → Shape s → k < 4 → portState s.fld (12 + k) = 3 →
      (s.fld.portX (12 + k)).sending = none → s.fld.inRx (12 + k) = none → (s.fld.segX k).silentWait = false →
      (isCoord s.fld k = false ∨ segSilent s.fld k = true →
        ∃ t, exec (.beaconReceive k) s = .next t ∧ portState t.fld (12 + k) = 3 ∧ (t.fld.segX k).active = true ∧
          (t.fld.segX k).toNode = 0 ∧ (t.fld.segX k).toStart = s.fld.now10 ∧ t.fld.get (F_MDS_STAT_plca_active k) = 1 ∧
          (t.fld.segX k).lostAt = none ∧ (∀ m, m ≠ k → t.fld.segX m = s.fld.segX m) ∧
          FieldFrame [F_MDS_CYCLE k, F_MDS_STAT k, F_MDS_EVT k]
            { (s.fld.setPortX (12 + k) (fun x => { x with quietFrom := s.fld.now })).count (cSeg k 1) with segs := t.fld.segs } s t) ∧
      (isCoord s.fld k = true → segSilent s.fld k = false →
        ∃ t, exec (.beaconReceive k) s = .next t ∧ t.fld.sq (F_MDS_EVT k) 3 = true ∧
          FieldFrame [F_MDS_EVT k] ((s.fld.setPortX (12 + k) (fun x => { x with quietFrom := s.fld.now })).count (cSeg k 2)) s t)) ∧
    (∀ (s : State) (k : Nat), s.fld.phase = .running → Shape s → k < 4 → s.fld.engineRuns (12 + k) = true →
      portState s.fld (12 + k) = 2 → isCoord s.fld k = false → (s.fld.portX (12 + k)).sending = none →
      s.fld.inRx (12 + k) = none → (s.fld.segX k).silentWait = false → (s.fld.segX k).beacons = 1 →
      s.fld.now10 ≤ (s.fld.segX k).cycleStart + max 1 (s.fld.get (F_MDS_LOSS_beacon_to k)) * 10000 →
      (s.fld.portX (12 + k)).wakeAt ≤ s.fld.now →
      ∃ t, exec (.beaconReceive k) s = .next t ∧ portState t.fld (12 + k) = 3 ∧ (t.fld.segX k).active = true ∧
        t.fld.get (F_MDS_STAT_plca_active k) = 1 ∧ t.fld.cntAt (cSeg k 1) = (s.fld.cntAt (cSeg k 1) + 1) % 2 ^ 64 ∧
        PortFrame (12 + k) [F_MDS_CYCLE k, F_MDS_EVT k]
          (s.fld.setPortX (12 + k) (fun x => { x with quietFrom := s.fld.now })) s t) ∧
    (∀ (s : State) (k : Nat), s.fld.phase = .running → Shape s → k < 4 → isCoord s.fld k = false →
      portState s.fld (12 + k) = 3 → (s.fld.segX k).active = true →
      (s.fld.segX k).cycleStart + max 1 (s.fld.get (F_MDS_LOSS_beacon_to k)) * 10000 ≤ s.fld.now10 →
      ∃ t, exec (.beaconTimeout k) s = .next t ∧ t.fld.get (F_MDS_STAT_plca_active k) = 0 ∧ (t.fld.segX k).active = false ∧
        (t.fld.segX k).lostAt = some s.fld.now ∧ t.fld.sq (F_MDS_EVT k) 1 = true ∧
        (∀ m, m ≠ k → t.fld.segX m = s.fld.segX m) ∧
        FieldFrame [F_MDS_STAT k, F_MDS_EVT k] { s.fld.count (cSeg k 6) with segs := t.fld.segs } s t) ∧
    (∀ (s : State) (k lost : Nat), s.fld.phase = .running → Shape s → k < 4 → s.fld.engineRuns (12 + k) = true →
      portState s.fld (12 + k) = 3 → (s.fld.segX k).lostAt = some lost →
      lost + max 1 (s.fld.get (F_MDS_LOSS_down_ms k)) * msTicks ≤ s.fld.now →
      ∃ t, exec (.downMsExpiry k) s = .next t ∧ portState t.fld (12 + k) = 2 ∧
        t.fld.get (F_PORT_STAT_down_reason (12 + k)) = 1 ∧ t.fld.cntAt (cSeg k 7) = (s.fld.cntAt (cSeg k 7) + 1) % 2 ^ 64 ∧
        PortFrame (12 + k) [] s.fld s t)

/-- An opportunity in which nothing began ends after to_timer, and an own one is counted as yielded; one that burst_timer
held ends with it. At the start of its own opportunity the node starts the copy that its queues give, and starts
nothing without one. A transmission that begins during a reception rejects the frame, which is counted unless it was
dropped before, blames the running node and silences the segment, which takes frames again once it has been quiet for
96 bit times; one during its own is counted and reported. At the end of a window F_MDS_n_SEEN is what was heard in it.
(R344, R347, R348, R357, R361, R362, R363, R364, R365, R366) -/
def Obligations.SegmentOpportunities : Prop :=
    (∀ (s : State) (k : Nat), s.fld.phase = .running → Shape s → k < 4 → (s.fld.segX k).active = true →
      (s.fld.segX k).used = false → (s.fld.segX k).toNode < segNodes s.fld k →
      (s.fld.segX k).toStart + segToTimer s.fld k * 1000 ≤ s.fld.now10 →
      ∃ t, exec (.toTimerExpiry k) s = .next t ∧ (t.fld.segX k).toNode = (s.fld.segX k).toNode + 1 ∧
        (t.fld.segX k).toStart = (s.fld.segX k).toStart + segToTimer s.fld k * 1000 ∧
        (∀ m, m ≠ k → t.fld.segX m = s.fld.segX m) ∧
        FieldFrame [F_MDS_STAT k]
          { (if ownTurn s.fld k then s.fld.count (cSeg k 4) else s.fld) with segs := t.fld.segs } s t) ∧
    (∀ (s : State) (k : Nat), s.fld.phase = .running → Shape s → k < 4 → (s.fld.segX k).active = true →
      (s.fld.segX k).waiting = true → (s.fld.segX k).toStart + segBurstTimer s.fld k * 1000 ≤ s.fld.now10 →
      ∃ t, exec (.burstTimerExpiry k) s = .next t ∧ (t.fld.segX k).toNode = (s.fld.segX k).toNode + 1 ∧
        (t.fld.segX k).toStart = (s.fld.segX k).toStart + segBurstTimer s.fld k * 1000 ∧ (t.fld.segX k).waiting = false ∧
        (∀ m, m ≠ k → t.fld.segX m = s.fld.segX m) ∧
        FieldFrame [F_MDS_STAT k] { s.fld with segs := t.fld.segs } s t) ∧
    (∀ (s : State) (k : Nat) (c : Copy), s.fld.phase = .running → Shape s → k < 4 → ownTurn s.fld k = true →
      (s.fld.portX (12 + k)).sending = none → (s.fld.segX k).used = false → (s.fld.segX k).toStart ≤ s.fld.now10 →
      s.fld.now10 ≤ (s.fld.segX k).toStart + 1000 → s.fld.flt.badCells = [] →
      (chooseCopy (purgeOverrun (12 + k) s.fld) (12 + k) = some c → c.port = 12 + k → c.frag = false →
        ∃ t, exec (.transmitOpportunity k) s = .next t ∧
          (∃ d, (t.fld.portX (12 + k)).sending = some d ∧ d.frame = c.frame ∧ d.queue = c.queue ∧ d.start = s.fld.now) ∧
          (t.fld.segX k).used = true ∧ t.fld.cntAt (cSeg k 3) = (s.fld.cntAt (cSeg k 3) + 1) % 2 ^ 64 ∧
          t.fld.buf.queued = (purgeOverrun (12 + k) s.fld).buf.queued.erase c ∧ LowFrame [] s.fld s t) ∧
      (s.fld.buf.queued = [] → (s.fld.portX (12 + k)).preempted = none → ∃ t, exec (.transmitOpportunity k) s = .next t ∧ FieldFrame [] s.fld s t)) ∧
    (∀ (s : State) (k : Nat) (fr : Frame), s.fld.phase = .running → Shape s → k < 4 → s.fld.inRx (12 + k) = some fr →
      ∃ t, exec (.plcaOverlap k) s = .next t ∧ (t.fld.segX k).silentWait = true ∧
        t.fld.cntAt (cPort (12 + k) 43) = (s.fld.cntAt (cPort (12 + k) 43) + (if fr.dropped then 0 else 1)) % 2 ^ 64 ∧
        t.fld.cntAt (cSeg k (32 + runNode s.fld k)) = (s.fld.cntAt (cSeg k (32 + runNode s.fld k)) + 1) % 2 ^ 64 ∧
        LowFrame [F_MDS_EVT_INFO k, F_MDS_EVT k] (s.fld.setPortX (12 + k) (fun x => { x with quietFrom := s.fld.now })) s t) ∧
    (∀ (s : State) (k : Nat), s.fld.phase = .running → Shape s → k < 4 →
      ((s.fld.portX (12 + k)).sending ≠ none →
        ∃ t, exec (.txOverlap k) s = .next t ∧ t.fld.sq (F_MDS_EVT k) 5 = true ∧
          (t.fld.segX k).winOverlaps = (s.fld.segX k).winOverlaps + 1 ∧
          FieldFrame [F_MDS_EVT_INFO k, F_MDS_EVT k] { s.fld.count (cSeg k 5) with segs := t.fld.segs } s t) ∧
      ((s.fld.portX (12 + k)).sending = none → ∃ t, exec (.txOverlap k) s = .next t ∧ FieldFrame [] s.fld s t)) ∧
    (∀ (s : State) (k : Nat), s.fld.phase = .running → Shape s → k < 4 →
      max 1 (s.fld.get (F_MDS_WIN_win_cycles k)) ≤ (s.fld.segX k).winCycles →
      ∃ t, exec (.overlapWindowEnd k) s = .next t ∧ t.fld.rd (F_MDS_SEEN k) = word (s.fld.segX k).winSeen ∧
        FieldFrame [F_MDS_SEEN k] (s.fld.setSegX k (fun x => { x with winCycles := 0, winOverlaps := 0, winSeen := 0 })) s t) ∧
    (∀ (s : State) (k : Nat), s.fld.phase = .running → Shape s → k < 4 → (s.fld.segX k).silentWait = true →
      80 * (s.fld.portX (12 + k)).quietFrom + 96000 ≤ s.fld.now10 →
      ∃ t, exec (.postOverlapSilence k) s = .next t ∧ (t.fld.segX k).silentWait = false ∧
        ((s.fld.segX k).active = true → (t.fld.segX k).toNode = (s.fld.segX k).toNode + 1 ∧
          (t.fld.segX k).toStart = s.fld.now10) ∧
        (∀ m, m ≠ k → t.fld.segX m = s.fld.segX m) ∧
        FieldFrame [F_MDS_STAT k] { s.fld with segs := t.fld.segs } s t)

/-- A nap exposure within nap_lead ends NAP. A window that starts is open and counted, wakes the sleeping ports among P0
to P11 that it names and withdraws their sleep entries. When it ends, a port that it alone held and whose partner has
not answered is missed, and is lost at once when persistent wake is 0, else in persistent wake from then on. The three
words of the exposure base take effect together. A sleeping port wakes at its guard margin before a window. Outside
darkroom and its entry a port asleep or lost wakes for a burst of 16 us, or with tc10_en for a TC10 pulse (and, with
persistent wake 0, is lost after its first burst), and one entering SLEEP returns to UP; a burst shorter than 4 us, and
the pulse without tc10_en, are ignored, and one in between wakes a port asleep or does nothing. (R131, R135, R136, R139, R141, R142, R146, R147, R148, R157, R314, R315) -/
def Obligations.ExposuresHoldPortsAwake : Prop :=
    (∀ (s : State) (e start : Nat), s.fld.phase = .running → e < 64 → expNext s.fld e = some start → expValid s.fld e = true →
      expKind s.fld e = 0 → start ≤ s.fld.sysNs + napLead s.fld →
      ∃ t, exec (.exposureNapLead e) s = .next t ∧ powerState t.fld = (if powerState s.fld = 1 then 0 else powerState s.fld) ∧
        FieldFrame [F_PWR_STATE] s.fld s t) ∧
    (∀ (s : State) (e start : Nat), s.fld.phase = .running → Shape s → e < 64 → expNext s.fld e = some start →
      expValid s.fld e = true → expIsOpen s.fld e = false → start ≤ s.fld.sysNs →
      ∃ t, exec (.exposureWindowStart e) s = .next t ∧ expIsOpen t.fld e = true ∧
        t.fld.pwr.expCount = (s.fld.pwr.expCount + 1) % 2 ^ 32 ∧ powerState t.fld ≠ 1 ∧
        (∀ n, n < 12 → hasBit (expPorts s.fld e) n = true → s.fld.engineRuns n = true →
          (portState s.fld n = 5 → portState t.fld n = 6) ∧ (portState s.fld n = 4 → portState t.fld n = 3) ∧
          e ∈ (t.fld.portX n).windows) ∧
        (∀ n, n < 16 → hasBit (expPorts s.fld e) n = false → t.fld.portX n = s.fld.portX n ∧
          t.fld.rd (F_PORT_STAT n) = s.fld.rd (F_PORT_STAT n)) ∧
        LowFrame (F_PWR_STATE :: F_PWR_EVT_INFO :: F_PWR_EVT :: (List.range 16).flatMap portRegs) { s.fld with ports := t.fld.ports, pwr := t.fld.pwr } s t) ∧
    (∀ (s : State) (e n : Nat), s.fld.phase = .running → Shape s → e < 64 → n < 12 → s.fld.engineRuns n = true →
      s.fld.pwr.expOpen.any (fun w => w.1 == e && decide (w.2 ≤ s.fld.sysNs)) = true →
      (s.fld.portX n).windows = [e] → portState s.fld n = 6 → (s.fld.portX n).partnerAwake = false →
      ∃ t, exec (.exposureWindowEnd e) s = .next t ∧ expIsOpen t.fld e = false ∧
        t.fld.cntAt (cPort n 8) = (s.fld.cntAt (cPort n 8) + 1) % 2 ^ 64 ∧ t.fld.sq F_PWR_EVT 2 = true ∧
        (s.fld.get F_PWR_PWAKE_pwake_lim = 0 → portState t.fld n = 7) ∧
        (s.fld.get F_PWR_PWAKE_pwake_lim ≠ 0 → portState t.fld n = 6 ∧ (t.fld.portX n).persist = some s.fld.now) ∧
        LowFrame (F_PWR_STATE :: F_PWR_EVT_INFO :: F_PWR_EVT :: (List.range 16).flatMap portRegs) { s.fld with ports := t.fld.ports, pwr := t.fld.pwr } s t) ∧
    (∀ (s : State) (req : Nat) (data : Word), s.fld.canWrite req = true →
      ∃ t, exec (.exposureBaseWrite req data) s = .next t ∧
        t.fld.pwr.expBase = timeOf (stagedOr s.fld req F_PWR_EXP_BASE_NS) (stagedOr s.fld req F_PWR_EXP_BASE_SEC_LO) data.toNat ∧
        FieldFrame [F_PWR_EXP_BASE_NS, F_PWR_EXP_BASE_SEC_LO, F_PWR_EXP_BASE_SEC_HI, F_CFG_PROOF_STAT]
          { s.fld with cfg := t.fld.cfg, staged := t.fld.staged, pwr := { s.fld.pwr with expBase := t.fld.pwr.expBase } } s t) ∧
    (∀ (s : State) (e n start : Nat), s.fld.phase = .running → e < 64 → n < 12 → s.fld.engineRuns n = true →
      expNext s.fld e = some start → expValid s.fld e = true → hasBit (expPorts s.fld e) n = true →
      start ≤ s.fld.sysNs + ticksNs s.fld (guardTicks s.fld (worstPartner s.fld (expPorts s.fld e))
        (8 * (s.fld.now - (s.fld.portX n).since) + (start - s.fld.sysNs))) → Shape s →
      ∃ t, exec (.exposureWakePoint e n) s = .next t ∧ (portState s.fld n = 5 → portState t.fld n = 6) ∧
        (portState s.fld n ≠ 5 → portState t.fld n = portState s.fld n) ∧
        PortFrame n [] { s.fld with ports := t.fld.ports } s t) ∧
    (∀ (s : State) (n : Nat) (sig : WakeSignal), s.fld.phase = .running → Shape s → n < 12 → s.fld.pwr.dark = false →
      (recognised s.fld sig = true → s.fld.engineRuns n = true → isT1 s.fld n = true → powerState s.fld ≠ 2 →
        (portState s.fld n = 5 ∨ portState s.fld n = 7 →
          ∃ t, exec (.wakeBurstDetect n sig) s = .next t ∧
            portState t.fld n = (if s.fld.get F_PWR_PWAKE_pwake_lim = 0 then 7 else 6) ∧ (t.fld.portX n).wakeAt = s.fld.now ∧
            Output.wakeBurst n (s.fld.flag F_PWR_CTRL_tc10_en) ∈ t.fld.out ∧
            PortFrame n [F_PWR_EVT_INFO, F_PWR_EVT] { s.fld with ports := t.fld.ports } s t) ∧
        (portState s.fld n = 4 →
          ∃ t, exec (.wakeBurstDetect n sig) s = .next t ∧ portState t.fld n = 3 ∧ PortFrame n [] s.fld s t)) ∧
      (recognised s.fld sig = false → ignored s.fld sig = false → s.fld.engineRuns n = true → isT1 s.fld n = true →
        powerState s.fld ≠ 2 → portState s.fld n = 5 →
        ∃ t, exec (.wakeBurstDetect n sig) s = .next t ∧ (FieldFrame [] s.fld s t ∨
          portState t.fld n = (if s.fld.get F_PWR_PWAKE_pwake_lim = 0 then 7 else 6))) ∧
      (ignored s.fld sig = true → ∃ t, exec (.wakeBurstDetect n sig) s = .next t ∧ FieldFrame [] s.fld s t))

/-- A sample records its measurement and the budget of the curve; with derating off, or with a demand inside the budget,
it sheds nothing. Over the budget it sheds the next port first, reports it and holds it, and goes on until the budget is
met or no port is left to shed. Once the samples of readmit milliseconds have covered it (how they are counted is the
model's choice, log entry 97), all shed ports are readmitted together, reported and held no more. (R149, R150, R151,
R152, R154) -/
def Obligations.DeratingShedsAndReadmits : Prop :=
    (∀ (s : State) (vline tj : Nat), s.fld.phase = .running → vline < 65536 → tj < 65536 →
      (s.fld.flag F_PWR_CTRL_derate_en = false ∨ overBudget s.fld (budgetOf s.fld vline (toSigned 16 tj)) = false) →
      ∃ t, exec (.derateSample vline tj) s = .next t ∧ t.fld.rdN F_PWR_MEAS = tj * 65536 + vline ∧
        t.fld.get F_PWR_BUDGET_budget = budgetOf s.fld vline (toSigned 16 tj) ∧
        FieldFrame [F_PWR_MEAS, F_PWR_BUDGET] { s.fld with pwr := { s.fld.pwr with
          overRaised := false, okFor := t.fld.pwr.okFor } } s t) ∧
    (∀ (s : State) (vline tj n : Nat), s.fld.phase = .running → Shape s → vline < 65536 → tj < 65536 → s.fld.engineRuns n = true →
      s.fld.flag F_PWR_CTRL_derate_en = true → overBudget s.fld (budgetOf s.fld vline (toSigned 16 tj)) = true →
      nextShed s.fld = some n → portState s.fld n ≠ 0 →
      ∃ t, exec (.derateSample vline tj) s = .next t ∧ t.fld.rdN F_PWR_MEAS = tj * 65536 + vline ∧
        t.fld.get F_PWR_BUDGET_budget = budgetOf s.fld vline (toSigned 16 tj) ∧ isShed t.fld n = true ∧ portState t.fld n = 1 ∧
        t.fld.sq F_PWR_EVT 4 = true ∧ (overBudget t.fld (budgetOf s.fld vline (toSigned 16 tj)) = false ∨
          nextShed t.fld = none) ∧ FieldOnly s t) ∧
    (∀ s : State, s.fld.phase = .running → Shape s → s.fld.rdN F_PWR_SHED ≠ 0 →
      s.fld.get F_PWR_DERATE_readmit < s.fld.pwr.okFor →
      ∃ t, exec .derateReadmit s = .next t ∧ t.fld.rdN F_PWR_SHED = 0 ∧ t.fld.pwr.okFor = 0 ∧ t.fld.sq F_PWR_EVT 5 = true ∧
        (∀ n, n < 16 → hasBit (s.fld.rdN F_PWR_SHED) n = true → 4 ∉ (t.fld.portX n).holds) ∧
        (∀ n, n < 16 → hasBit (s.fld.rdN F_PWR_SHED) n = false → t.fld.portX n = s.fld.portX n) ∧ FieldOnly s t)

/-- A request is judged by the first condition that fails: with none the die enters DARK_ENTRY and the frames held for
launch are gone, else it reports the outcome. The end of the drain closes the Crossing, puts T1 ports to SLEEP and holds
the others; without it the entry is abandoned with outcome 4, for a wake cause with 0x11, and a burst's port wakes. Past
the return the die loses everything but what stays through darkroom. In darkroom a cause is latched and, once PD_PG is
low, starts the exit, one epoch further; one that the mask lacks does nothing. Without a resume image fault 9 is
latched, with one that gives its proof the configuration is loaded. Reconciliation, at the first safelight edge after
the PLL lock, adds the time slept to both domains. Image and reconciliation together lead to RUN. (R110, R111, R112,
R114, R116, R117, R119, R125, R127, R129, R148, R588) -/
def Obligations.DarkroomEntryAndExit : Prop :=
    (∀ (s : State) (req : Nat) (data : Word), s.fld.phase = .running → hasBit data.toNat 2 = true →
      s.fld.engineRuns 18 = true → powerState s.fld ≤ 1 →
      (darkCode s.fld = 0 → ∃ t, exec (.darkNow req data) s = .next t ∧ powerState t.fld = 2 ∧
        t.fld.pwr.entryTick = s.fld.now ∧ t.fld.launch = [] ∧ t.fld.arrivals = [] ∧
        LowFrame [F_PWR_CTRL, F_PWR_STATE, F_CFG_PROOF_STAT]
          { s.fld with cfg := t.fld.cfg, pwr := t.fld.pwr, launch := [], arrivals := [] } s t) ∧
      (darkCode s.fld ≠ 0 → ∃ t, exec (.darkNow req data) s = .next t ∧ powerState t.fld = powerState s.fld ∧
        t.fld.get F_PWR_STATE_dark_outcome = darkCode s.fld ∧ t.fld.sq F_PWR_EVT 3 = true ∧
        FieldFrame [F_PWR_CTRL, F_PWR_STATE, F_PWR_EVT, F_CFG_PROOF_STAT]
          { s.fld with cfg := t.fld.cfg, pwr := t.fld.pwr } s t)) ∧
    (∀ s : State, s.fld.phase = .running → s.fld.flag F_PWR_CTRL_dark_auto = true → s.fld.engineRuns 18 = true →
      s.fld.pwr.rxAt + s.fld.get F_PWR_DARK_CFG_dark_idle * msTicks ≤ s.fld.now → powerState s.fld ≤ 1 →
      (darkCode s.fld = 0 → ∃ t, exec .darkAutoRequest s = .next t ∧ powerState t.fld = 2 ∧ t.fld.pwr.autoNow = true ∧
        t.fld.pwr.entryTick = s.fld.now ∧ t.fld.launch = [] ∧ t.fld.arrivals = [] ∧
        LowFrame [F_PWR_STATE] { s.fld with pwr := t.fld.pwr, launch := [], arrivals := [] } s t) ∧
      (darkCode s.fld ≠ 0 → ∃ t, exec .darkAutoRequest s = .next t ∧ powerState t.fld = powerState s.fld ∧
        t.fld.get F_PWR_STATE_dark_outcome = darkCode s.fld ∧
        FieldFrame [F_PWR_STATE, F_PWR_EVT] { s.fld with pwr := { s.fld.pwr with
          autoLast := some (darkCode s.fld), rxAt := s.fld.now } } s t)) ∧
    (∀ s : State, s.fld.phase = .running → Shape s → powerState s.fld = 2 → s.fld.pwr.drained = none →
      s.fld.now ≤ s.fld.pwr.entryTick + msTicks → drainedNow s.fld = true →
      ∃ t, exec .darkDrainDone s = .next t ∧ t.fld.pwr.drained = some s.fld.pwr.sl ∧ t.fld.xng.closed = true ∧
        (∀ n, n < 16 → s.fld.engineRuns n = true → portState s.fld n ≠ 0 → portState s.fld n ≠ 1 →
          (n < 12 → isT1 s.fld n = true → portState t.fld n = 5) ∧
          (12 ≤ n ∨ isT1 s.fld n = false → portState t.fld n = 1 ∧ 8 ∈ (t.fld.portX n).holds)) ∧
        LowFrame ((List.range 16).flatMap portRegs)
          { s.fld with ports := t.fld.ports, pwr := { s.fld.pwr with drained := some s.fld.pwr.sl, wakeTick := none } } s t) ∧
    (∀ s : State, s.fld.phase = .running → powerState s.fld = 2 → s.fld.pwr.drained = none →
      s.fld.pwr.entryTick + msTicks ≤ s.fld.now →
      ∃ t, exec .darkDrainTimeout s = .next t ∧ powerState t.fld = 0 ∧ t.fld.get F_PWR_STATE_dark_outcome = 4 ∧
        FieldFrame [F_PWR_STATE, F_PWR_EVT] { s.fld with pwr := t.fld.pwr } s t) ∧
    (∀ s : State, pastReturn s.fld = true →
      ∃ t, exec .darkPointOfNoReturn s = .next t ∧ t.fld.phase = .unpowered ∧ t.fld.pwr.dark = true ∧
        (∀ a, staysDark s.fld a = true → a ≠ F_PWR_WAKE_CAUSE → t.fld.rd a = s.fld.rd a) ∧ t.fld.rdN F_PWR_WAKE_CAUSE = 0 ∧
        (∀ a, staysDark s.fld a = false → t.fld.rd a = fieldDefault a) ∧
        t.fld.cnt = [] ∧ t.fld.buf = {} ∧ t.fld.pwr.sl = s.fld.pwr.sl ∧ t.hst = s.hst ∧
        (keyStill s.fld = true → t.key.mem = s.key.mem) ∧ t.pending = s.pending) ∧
    (∀ (s : State) (b : Nat), isCause b = true → s.fld.pwr.dark = true → s.fld.phase = .unpowered →
      (hasBit s.fld.pwr.mask b = true → s.fld.pwr.pgLow = true →
        ∃ t, exec (.wakeCause b) s = .next t ∧ powerState t.fld = 3 ∧ hasBit (t.fld.rdN F_PWR_WAKE_CAUSE) b = true ∧
          t.fld.rdN F_PWR_DARK_EPOCH = (s.fld.rdN F_PWR_DARK_EPOCH + 1) % 2 ^ 32 ∧
          FieldFrame [F_PWR_WAKE_CAUSE, F_PWR_DARK_EPOCH, F_PWR_STATE] (exitBegun s.fld) s t) ∧
      (hasBit s.fld.pwr.mask b = true → s.fld.pwr.pgLow = false →
        ∃ t, exec (.wakeCause b) s = .next t ∧ hasBit (t.fld.rdN F_PWR_WAKE_CAUSE) b = true ∧
          FieldFrame [F_PWR_WAKE_CAUSE] { s.fld with pwr := { s.fld.pwr with wakePending := true } } s t) ∧
      (hasBit s.fld.pwr.mask b = false → ∃ t, exec (.wakeCause b) s = .next t ∧ FieldFrame [] s.fld s t)) ∧
    (∀ (s : State) (b : Nat), isCause b = true → s.fld.phase = .running → Shape s → s.fld.pwr.dark = false →
      powerState s.fld = 2 → hasBit (s.fld.rdN F_PWR_WAKE_SRC) b = true →
      (b < 12 → isT1 s.fld b = true ∧ s.fld.engineRuns b = true ∧ (portState s.fld b = 5 ∨ portState s.fld b = 7)) →
      ∃ t, exec (.wakeCause b) s = .next t ∧ powerState t.fld = 0 ∧ t.fld.get F_PWR_STATE_dark_outcome = 0x11 ∧
        t.fld.pwr.drained = none ∧ t.fld.xng.closed = false ∧
        (b < 12 → s.fld.get F_PWR_PWAKE_pwake_lim ≠ 0 → portState t.fld b = 6) ∧
        LowFrame (F_PWR_STATE :: F_PWR_EVT_INFO :: F_PWR_EVT :: (List.range 16).flatMap portRegs)
          { s.fld with ports := t.fld.ports, pwr := t.fld.pwr } s t) ∧
    (∀ s : State, s.fld.pwr.dark = true → s.fld.phase = .unpowered →
      (s.fld.pwr.wakePending = true → ∃ t, exec .darkroomPowerGoodFall s = .next t ∧ powerState t.fld = 3 ∧
        t.fld.rdN F_PWR_DARK_EPOCH = (s.fld.rdN F_PWR_DARK_EPOCH + 1) % 2 ^ 32 ∧
        FieldFrame [F_PWR_DARK_EPOCH, F_PWR_STATE] (exitBegun s.fld) s t) ∧
      (s.fld.pwr.wakePending = false → ∃ t, exec .darkroomPowerGoodFall s = .next t ∧
        FieldFrame [] { s.fld with pwr := { s.fld.pwr with pgLow := true } } s t)) ∧
    (∀ s : State, s.fld.phase = .locked → s.fld.pwr.waking = true →
      (s.fld.pwr.timeDone = false → ∃ t, exec .resumeImageLoaded s = .next t ∧ t.fld.phase = .resolving ∧
        t.fld.pwr.waking = true ∧
        (flashImage s.fld.orderCode s.fld.pwr.resumeAt s.flash = none → t.fld.sq F_FLT_EVT 9 = true) ∧
        (∀ i, flashImage s.fld.orderCode s.fld.pwr.resumeAt s.flash = some i →
          resumeOk (resumeImage i.1 i.2 (s.fld.put F_TIM_SYS_active s.fld.tim.darkActive)) = true →
          t.fld.get F_GLB_CFG_SRC_state = 1) ∧ FieldOnly s t) ∧
      (s.fld.pwr.timeDone = true → ∃ t, exec .resumeImageLoaded s = .next t ∧ t.fld.phase = .running ∧
        t.fld.pwr.waking = false ∧ powerState t.fld = 0 ∧ t.fld.get F_PWR_STATE_dark_outcome = 0x10 ∧ FieldOnly s t)) ∧
    (∀ s : State, s.fld.pwr.waking = true → s.fld.pwr.timeDone = false → s.fld.pwr.lockTicks = 1 →
      s.fld.now = s.fld.pwr.slStart → darkElapsed s.fld < 2 ^ 96 → s.fld.tim.darkC < 2 ^ 63 →
      (s.fld.phase = .locked → ∃ t, exec .darkTimeReconcile s = .next t ∧ t.fld.pwr.timeDone = true ∧
        t.fld.domA = domWrap ((s.fld.tim.darkA + darkElapsed s.fld : Nat) : Int) ∧
        t.fld.domB = domWrap ((s.fld.tim.darkB + darkElapsed s.fld : Nat) : Int) ∧ t.fld.tim.delta = s.fld.tim.darkDelta ∧
        t.fld.rdN F_TIM_DARK_E_LO + 2 ^ 32 * t.fld.rdN F_TIM_DARK_E_HI = darkElapsed s.fld / 2 ^ 32 ∧
        t.fld.rdN F_TIM_DARK_ERR = 0x80000000 ∧
        LowFrame [] { s.fld with tim := t.fld.tim, pwr := { s.fld.pwr with timeDone := true, slStart := t.fld.now } } s t) ∧
      (s.fld.phase = .resolving → ∃ t, exec .darkTimeReconcile s = .next t ∧ t.fld.phase = .running ∧
        t.fld.pwr.waking = false ∧ powerState t.fld = 0 ∧ t.fld.get F_PWR_STATE_dark_outcome = 0x10 ∧ FieldOnly s t))

/-- At an end that is up, a unit under the expected number that passes the firewall waits to be consumed, and the 32nd
since the last ACK is acknowledged; one that the firewall refuses is counted by its type and waits nowhere; both
advance the expected number. A unit received before is acknowledged again and waits nowhere. A later one, or a corrupt
one, which is counted, is answered by a NAK, unless one for the same number left within 2 us. Under the reserved seed
the firewall discards a CTRL unit of an unused kind, and any other type counts as corrupt (log entry 132). An ACK frees
what it covers. A NAK, and 4 us without an ACK, resend from a number on, and the link retrains after retry_lim resends
of one unit. An ACK that is due 1 us after the first unit it covers is sent, or taken by perturbation. (R598, R599, R600, R601, R602, R604, R605, R606, R607, R623, R634, R636) -/
def Obligations.LinkEndsReceive : Prop :=
    (∀ (s : State) (l : LinkId) (bytes : List Byte), s.linkActs l = true → s.linkNoise l 0 = false → (s.linkEnd l).phase = 3 →
      (s.linkEnd l).closed = false → (s.linkEnd l).corruptRx = false → bytes.length = 64 →
      unitSeed bytes = (s.linkEnd l).expect → unitSeed bytes ≠ unseqSeed →
      ∃ t, exec (.flowUnitReceive l bytes) s = .next t ∧ (t.linkEnd l).expect = seqNext (s.linkEnd l).expect ∧
        (firewallOk l (s.linkEnd l) (unitOf bytes) = true →
          (t.linkEnd l).inbox = (s.linkEnd l).inbox ++ [unitOf bytes]) ∧
        (firewallOk l (s.linkEnd l) (unitOf bytes) = false →
          (t.linkEnd l).inbox = (if (unitOf bytes).type = 1 then (dropOpen (s.linkEnd l)).inbox else (s.linkEnd l).inbox) ∧
          t.linkCount l (16 + (unitOf bytes).type) = (s.linkCount l (16 + (unitOf bytes).type) + 1) % 2 ^ 64) ∧
        t.linkCount l 1 = (s.linkCount l 1 + 1) % 2 ^ 64 ∧
        (t.linkEnd l).unacked = (if 32 ≤ (s.linkEnd l).unacked + 1 then 0 else (s.linkEnd l).unacked + 1) ∧
        (32 ≤ (s.linkEnd l).unacked + 1 → (s.linkEnd l).ackAmnesty = 0 → s.linkNoise l 1 = false →
          Output.unit l unseqSeed (ackUnit (s.linkEnd l).expect) ∈ t.linkOut l) ∧
        LinkFrame [] l s t) ∧
    (∀ (s : State) (l : LinkId) (bytes : List Byte), s.linkActs l = true → s.linkNoise l 0 = false → (s.linkEnd l).phase = 3 →
      (s.linkEnd l).closed = false → (s.linkEnd l).expect < 2 ^ 32 → unitSeed bytes ≠ unseqSeed →
      ((s.linkEnd l).corruptRx = true ∨ bytes.length ≠ 64 ∨ unitSeed bytes ≠ (s.linkEnd l).expect) →
      ∃ t, exec (.flowUnitReceive l bytes) s = .next t ∧ (t.linkEnd l).expect = (s.linkEnd l).expect ∧
        (t.linkEnd l).inbox = (s.linkEnd l).inbox ∧ (t.linkEnd l).corruptRx = false ∧
        ((s.linkEnd l).corruptRx = false → bytes.length = 64 →
          ((s.linkEnd l).expect + 2 ^ 32 - unitSeed bytes) % 2 ^ 32 ≤ 512 →
          (t.linkEnd l).unacked = 0 ∧ t.linkCount l 5 = (s.linkCount l 5 + 1) % 2 ^ 64 ∧ (s.linkNoise l 1 = false →
            Output.unit l unseqSeed (ackUnit (seqPrev (s.linkEnd l).expect)) ∈ t.linkOut l)) ∧
        ((s.linkEnd l).corruptRx = true ∨ bytes.length ≠ 64 ∨
            (512 < ((s.linkEnd l).expect + 2 ^ 32 - unitSeed bytes) % 2 ^ 32 ∧
              ((s.linkEnd l).expect + 2 ^ 32 - unitSeed bytes) % 2 ^ 32 < 2 ^ 32 - 512) →
          t.linkCount l 6 = (s.linkCount l 6 + 1) % 2 ^ 64) ∧
        ((s.linkEnd l).corruptRx = true ∨ bytes.length ≠ 64 ∨
            512 < ((s.linkEnd l).expect + 2 ^ 32 - unitSeed bytes) % 2 ^ 32 →
          (t.linkEnd l).unacked = (s.linkEnd l).unacked ∧ (t.linkEnd l).nakOf = some (s.linkEnd l).expect ∧
          (((s.linkEnd l).nakOf ≠ some (s.linkEnd l).expect ∨ nakFresh (s.linkEnd l).nakAt s.fld.now = false) →
            t.linkCount l 3 = (s.linkCount l 3 + 1) % 2 ^ 64 ∧ (t.linkEnd l).nakAt = s.fld.now ∧
            (s.linkNoise l 1 = false → Output.unit l unseqSeed (nakUnit (s.linkEnd l).expect) ∈ t.linkOut l))) ∧
        LinkFrame [] l s t) ∧
    (∀ (s : State) (l : LinkId) (bytes : List Byte), s.linkActs l = true → s.linkNoise l 0 = false → (s.linkEnd l).phase = 3 →
      (s.linkEnd l).closed = false → (s.linkEnd l).corruptRx = false → bytes.length = 64 → unitSeed bytes = unseqSeed →
      (s.linkEnd l).expect ≠ unseqSeed →
      ((unitOf bytes).type = 8 → 4 < bitsOf (unitOf bytes).header 27 24 →
        ∃ t, exec (.flowUnitReceive l bytes) s = .next t ∧ t.linkCount l 24 = (s.linkCount l 24 + 1) % 2 ^ 64 ∧
          (t.linkEnd l).expect = (s.linkEnd l).expect ∧ (t.linkEnd l).inbox = (s.linkEnd l).inbox ∧ LinkFrame [] l s t) ∧
      ((unitOf bytes).type ≠ 8 →
        ∃ t, exec (.flowUnitReceive l bytes) s = .next t ∧ t.linkCount l 6 = (s.linkCount l 6 + 1) % 2 ^ 64 ∧
          (t.linkEnd l).nakOf = some (s.linkEnd l).expect ∧ (t.linkEnd l).expect = (s.linkEnd l).expect ∧
          (t.linkEnd l).inbox = (s.linkEnd l).inbox ∧ LinkFrame [] l s t)) ∧
    (∀ (s : State) (l : LinkId) (bytes : List Byte), s.linkActs l = true → s.linkNoise l 0 = false → (s.linkEnd l).phase = 3 →
      (s.linkEnd l).closed = false → unitSeed bytes = unseqSeed → (unitOf bytes).type = 8 →
      bitsOf (unitOf bytes).header 27 24 = 0 → (s.linkEnd l).replay.any (fun e => e.1 == (unitOf bytes).w 0) = true →
      ∃ t, exec (.flowUnitReceive l bytes) s = .next t ∧
        ((s.linkEnd l).replay.dropWhile (fun e => e.1 != (unitOf bytes).w 0)).drop 1 <+: (t.linkEnd l).replay ∧
        (t.linkEnd l).resends = 0 ∧ (t.linkEnd l).expect = (s.linkEnd l).expect ∧
        (t.linkEnd l).inbox = (s.linkEnd l).inbox ∧ LinkFrame [] l s t) ∧
    (∀ (s : State) (l : LinkId) (bytes : List Byte), s.linkActs l = true → s.linkNoise l 0 = false → (s.linkEnd l).closed = false →
      unitSeed bytes = unseqSeed → (unitOf bytes).type = 8 →
      ((s.linkEnd l).phase = 3 → bitsOf (unitOf bytes).header 27 24 = 1 →
        ∃ t, exec (.flowUnitReceive l bytes) s = .next t ∧ t.linkCount l 4 = (s.linkCount l 4 + 1) % 2 ^ 64 ∧
          (s.linkNoise l 1 = false → (s.linkEnd l).corruptTx = false →
            1 < s.linkRetries l → (s.linkEnd l).resendOf ≠ some ((unitOf bytes).w 0) →
            ∀ e ∈ (s.linkEnd l).replay.dropWhile (fun (x : Nat × FlowUnit) => x.1 != (unitOf bytes).w 0), Output.unit l e.1 e.2 ∈ t.linkOut l) ∧
          (t.linkEnd l).expect = (s.linkEnd l).expect ∧ (t.linkEnd l).inbox = (s.linkEnd l).inbox ∧ LinkFrame [] l s t) ∧
      ((s.linkEnd l).phase = 2 → (bitsOf (unitOf bytes).header 27 24 = 3 ∨ bitsOf (unitOf bytes).header 27 24 = 4) →
        ∃ t, exec (.flowUnitReceive l bytes) s = .next t ∧ (t.linkEnd l).inbox = (s.linkEnd l).inbox ++ [unitOf bytes] ∧
          LinkFrame [] l s t)) ∧
    (∀ (s : State) (l : LinkId), s.linkActs l = true → (s.linkEnd l).phase = 3 → 0 < (s.linkEnd l).replay.length →
      (s.linkEnd l).times.headD 0 + 4 * usTicks ≤ s.fld.now →
      ∃ t, exec (.replayTimeout l) s = .next t ∧ t.linkCount l 7 = (s.linkCount l 7 + 1) % 2 ^ 64 ∧
        t.linkCount l 2 = (s.linkCount l 2 + 1) % 2 ^ 64 ∧ (t.linkEnd l).expect = (s.linkEnd l).expect ∧
        (t.linkEnd l).inbox = (s.linkEnd l).inbox ∧
        (¬ max 1 (s.linkRetries l) ≤ (if (s.linkEnd l).resendOf = ((s.linkEnd l).replay.head?).map (fun e => e.1)
            then (s.linkEnd l).resends + 1 else 1) →
          (t.linkEnd l).phase = 3 ∧ (s.linkEnd l).replay <+: (t.linkEnd l).replay ∧
          (s.linkNoise l 1 = false → (s.linkEnd l).corruptTx = false →
            ∀ e ∈ (s.linkEnd l).replay, Output.unit l e.1 e.2 ∈ t.linkOut l)) ∧
        (max 1 (s.linkRetries l) ≤ (if (s.linkEnd l).resendOf = ((s.linkEnd l).replay.head?).map (fun e => e.1)
            then (s.linkEnd l).resends + 1 else 1) →
          (t.linkEnd l).phase = 1 ∧ (t.linkEnd l).replay = (s.linkEnd l).replay ∧ t.linkFlag l 5 = true ∧
          t.linkFlag l 1 = true) ∧ LinkFrame [] l s t) ∧
    (∀ (s : State) (l : LinkId), s.linkActs l = true → (s.linkEnd l).phase = 3 → 0 < (s.linkEnd l).unacked →
      (s.linkEnd l).ackAt + usTicks ≤ s.fld.now →
      ∃ t, exec (.ackSend l) s = .next t ∧ (t.linkEnd l).unacked = 0 ∧
        (t.linkEnd l).ackAmnesty = (s.linkEnd l).ackAmnesty - 1 ∧
        ((s.linkEnd l).ackAmnesty = 0 → s.linkNoise l 1 = false →
          Output.unit l unseqSeed (ackUnit (seqPrev (s.linkEnd l).expect)) ∈ t.linkOut l) ∧
        (t.linkEnd l).expect = (s.linkEnd l).expect ∧ (t.linkEnd l).inbox = (s.linkEnd l).inbox ∧ LinkFrame [] l s t)

/-- A failed data lane moves to the spare: SPARE is sent and repeated every 1 us until data is seen on it, and the peer
moves its lane when it hears SPARE. A spare that fails is not used. Where the spare is not to be had, a failed lane, and always a write of retrain, starts
training, whose lane phase starts again after 1 ms. The lane phase passes with four healthy lanes in both directions and sends TRAIN; TRAIN is answered by its
echo; with both the link comes up, replay resuming from the number that the peer expects, or numbering starting at 0
for an end that is fresh. (R606, R607, R608, R609, R610, R611, R612, R613, R615, R634, R635) -/
def Obligations.LanesAreSparedAndLinksTrain : Prop :=
    (∀ (s : State) (l : LinkId) (lane : Nat), s.linkActs l = true → (s.linkEnd l).phase = 3 → lane < 4 → (s.linkEnd l).rxFailed ≠ lane →
      (s.linkSpares l = true → (s.linkEnd l).rxSpareBad = false → (s.linkEnd l).rxFailed = 7 → (s.linkEnd l).sparing = none →
        ∃ t, exec (.laneFailure l lane) s = .next t ∧ (t.linkEnd l).sparing = some lane ∧ (t.linkEnd l).phase = 3 ∧
          (s.linkNoise l 1 = false → Output.unit l unseqSeed (ctrlUnit 2 lane []) ∈ t.linkOut l) ∧ LinkFrame [] l s t) ∧
      (s.linkSpares l = false ∨ (s.linkEnd l).rxSpareBad = true ∨ (s.linkEnd l).rxFailed ≠ 7 →
        ∃ t, exec (.laneFailure l lane) s = .next t ∧ (t.linkEnd l).phase = 1 ∧ (t.linkEnd l).replay = (s.linkEnd l).replay ∧
          t.linkFlag l 3 = true ∧ t.linkFlag l 1 = true ∧ LinkOnly l s t)) ∧
    (∀ (s : State) (l : LinkId), s.linkActs l = true → (s.linkEnd l).phase = 3 → (s.linkEnd l).rxFailed = 7 →
      (s.linkEnd l).rxSpareBad = false →
      ∃ t, exec (.laneFailure l 4) s = .next t ∧ (t.linkEnd l).rxSpareBad = true ∧ (t.linkEnd l).phase = 3 ∧
        t.linkFlag l 2 = true ∧ LinkFrame [] l s t) ∧
    (∀ (s : State) (l : LinkId) (lane : Nat), s.linkActs l = true → (s.linkEnd l).phase = 3 → lane < 4 →
      ∃ t, exec (.spareReceive l lane) s = .next t ∧ (t.linkEnd l).txFailed = lane ∧ (t.linkEnd l).resends = 0 ∧
        (t.linkEnd l).phase = 3 ∧ (t.linkEnd l).expect = (s.linkEnd l).expect ∧ LinkFrame [] l s t) ∧
    (∀ (s : State) (l : LinkId) (lane : Nat), s.linkActs l = true → (s.linkEnd l).phase = 3 → (s.linkEnd l).sparing = some lane →
      ((s.linkEnd l).spareAt + usTicks ≤ s.fld.now →
        ∃ t, exec (.spareRepeat l) s = .next t ∧ (t.linkEnd l).sparing = some lane ∧ (t.linkEnd l).spareAt = s.fld.now ∧
        (s.linkNoise l 1 = false → Output.unit l unseqSeed (ctrlUnit 2 lane []) ∈ t.linkOut l) ∧ LinkFrame [] l s t) ∧
      (∃ t, exec (.spareDataSeen l) s = .next t ∧ (t.linkEnd l).sparing = none ∧ (t.linkEnd l).rxFailed = lane ∧
        t.linkFlag l 2 = true ∧ (s.linkNoise l 1 = false → Output.unit l unseqSeed (nakUnit (s.linkEnd l).expect) ∈ t.linkOut l) ∧
        LinkFrame [] l s t)) ∧
    (∀ (s : State) (l : LinkId) (rxBad txBad : Nat), s.linkActs l = true → (s.linkEnd l).phase = 1 → popCount rxBad 5 ≤ 1 →
      popCount txBad 5 ≤ 1 →
      ∃ t, exec (.trainingLanePhase l rxBad txBad) s = .next t ∧ (t.linkEnd l).phase = 2 ∧
        (t.linkEnd l).rxFailed = failedLane rxBad ∧ (t.linkEnd l).txFailed = failedLane txBad ∧
        (t.linkNoise l 1 = false →
          Output.unit l unseqSeed (trainUnit (if l = .host then 0 else s.fld.rdN F_GLB_BOOT_CNT) (s.linkEnd l)) ∈ t.linkOut l) ∧
        LinkFrame [] l s t) ∧
    (∀ (s : State) (l : LinkId), s.linkActs l = true → ((s.linkEnd l).phase = 1 ∨ (s.linkEnd l).phase = 2) →
      (s.linkEnd l).laneAt + msTicks ≤ s.fld.now →
      ∃ t, exec (.trainingRestart l) s = .next t ∧ (t.linkEnd l).phase = 1 ∧ (t.linkEnd l).laneAt = s.fld.now ∧
        (t.linkEnd l).peerTrain = none ∧
        (t.linkEnd l).echoed = false ∧ Output.lanePhase l ∈ t.linkOut l ∧ LinkFrame [] l s t) ∧
    (∀ (s : State) (l : LinkId) (u : FlowUnit), s.linkActs l = true → (s.linkEnd l).phase = 2 →
      (s.linkEnd l).inbox.find? (isCtrl 3) = some u →
      ∃ t, exec (.trainReceive l) s = .next t ∧ (t.linkEnd l).inbox = (s.linkEnd l).inbox.erase u ∧
        (t.linkEnd l).peerTrain = some (hasBit (u.w 0) 0, u.w 1, u.w 2, u.w 3) ∧
        (s.linkNoise l 1 = false → Output.unit l unseqSeed (ctrlUnit 4 0 []) ∈ t.linkOut l) ∧ LinkFrame [] l s t) ∧
    (∀ (s : State) (l : LinkId) (u : FlowUnit) (half : Nat), s.linkActs l = true → (s.linkEnd l).phase = 2 →
      (s.linkEnd l).inbox.find? (isCtrl 4) = some u →
      ∃ t, exec (.trainEchoReceive l half) s = .next t ∧ (t.linkEnd l).inbox = (s.linkEnd l).inbox.erase u ∧
        (t.linkEnd l).echoed = true ∧ (t.linkEnd l).transit = half ∧ LinkFrame [] l s t) ∧
    (∀ (s : State) (l : LinkId) (fresh : Bool) (boot sent expects : Nat), s.linkActs l = true → Shape s → (s.linkEnd l).phase = 2 →
      (s.linkEnd l).peerTrain = some (fresh, boot, sent, expects) → (s.linkEnd l).echoed = true →
      ∃ t, exec (.crossingTrainingComplete l) s = .next t ∧ (t.linkEnd l).phase = 3 ∧ (t.linkEnd l).everUp = true ∧
        (t.linkEnd l).fresh = false ∧ (t.linkEnd l).expect = (if fresh || (s.linkEnd l).fresh then 0 else (s.linkEnd l).expect) ∧
        (fresh = false → (s.linkEnd l).fresh = true → (s.linkEnd l).replay <+: (t.linkEnd l).replay) ∧
        (fresh = false → (s.linkEnd l).fresh = false →
          (s.linkEnd l).replay.dropWhile (fun e => decide ((expects + 2 ^ 32 - e.1) % 2 ^ 32 ≤ 512) && e.1 != expects) <+:
            (t.linkEnd l).replay) ∧
        (l = .field → t.linkFlag l 0 = true) ∧
        (l = .twin → t.fld.get F_TWN_STAT_peer_seen = 0 ∧
          t.fld.twn.resync = (s.fld.twn.resync || fresh || (s.linkEnd l).fresh)) ∧
        (l = .host → t.linkFlag l 0 = true ∧ t.hst.rdN H_XNG_BOOT = boot % 2 ^ 32 ∧
          ((s.linkEnd l).fresh = false → s.hst.rdN H_XNG_BOOT ≠ boot % 2 ^ 32 →
            t.linkFlag l 6 = true ∧ heldWrites t.hst = 0)) ∧ LinkOnly l s t) ∧
    (∀ (s : State) (req : Nat) (data : Word), hasBit data.toNat 1 = true →
      (s.fld.canWrite req = true → s.fld.phase = .running → 0 < s.fld.xng.phase →
        ∃ t, exec (.retrain .field req data) s = .next t ∧ t.fld.xng.phase = 1 ∧ t.fld.flag F_XNG_CTRL_spare_en = hasBit data.toNat 0 ∧
          t.fld.get F_XNG_CTRL_retry_lim = bitsOf data.toNat 15 8 ∧ t.fld.get F_XNG_CTRL_fw_thresh = bitsOf data.toNat 23 16 ∧
          t.fld.xng.replay = s.fld.xng.replay ∧ Output.lanePhase .field ∈ t.fld.out ∧
          FieldFrame [F_XNG_CTRL, F_CFG_PROOF_STAT] { s.fld with cfg := t.fld.cfg } s t) ∧
      (req = 0 → s.hst.inReset = false → fnExists s.hst 0 = true → 0 < s.hst.xng.phase →
        ∃ t, exec (.retrain .host req data) s = .next t ∧ t.hst.xng.phase = 1 ∧
          t.hst.rdN H_XNG_CTRL = Nat.land data.toNat 0x00FFFF01 ∧ t.hst.xng.replay = s.hst.xng.replay ∧
          Output.lanePhase .host ∈ t.hst.out ∧ HostFrame [H_XNG_CTRL, H_XNG_EVT] s.hst s t)) ∧
    (∀ (s : State) (req : Nat) (data : Word), s.fld.canWrite req = true → s.fld.phase = .running → hasBit data.toNat 8 = true →
      s.fld.flag F_TWN_CTRL_enable = true → hasBit data.toNat 31 = true →
      ∃ t, exec (.retrain .twin req data) s = .next t ∧ t.fld.twin.phase = 1 ∧ t.fld.twin.expect = s.fld.twin.expect ∧
        Output.lanePhase .twin ∈ t.fld.out ∧ t.fld.role = s.fld.role ∧
        RegsSame [F_TWN_CTRL, F_TWN_EVT, F_CFG_PROOF_STAT] s.fld t.fld ∧ FieldOnly s t)

/-- An aperture read sends REGR under a free tag, or is answered at once with all-ones where the aperture is off or the
link down; without its REGC it times out after 50 us. Up to seven writes of a request join the hold queue; eight raise an event;
with the aperture off they are counted. A purge removes the held writes of one function and epoch. REGC completes its
read, or is counted as late. At the field end a REGW of one word does what a register write of its requester does,
REGR is answered with what the register reads, and FN_RESET orphans the locks and discards the staged words and
launch-store frames of the function. (R281, R620, R622, R624, R625, R626, R630, R631, R675, R714) -/
def Obligations.RegisterMessagesCross : Prop :=
    (∀ (s : State) (f off be : Nat), s.hst.inReset = false → s.hst.enginesNamed = true → fnExists s.hst f = true → s.hst.dstate = 0 →
      (s.hst.flag (H_FUN_FN_CFG_ap_en f) = false ∨ s.hst.xng.phase ≠ 3) →
        (∃ t, exec (.apertureRead f off be) s = .next t ∧ Output.hostRead 64 0xFFFFFFFF ∈ t.hst.out ∧
          t.hst.flag (H_XNG_AP_STAT_barrier f) = true ∧ t.hst.flag (H_XNG_AP_STAT_timeout f) = false ∧
          HostFrame [H_XNG_AP_STAT f] s.hst s t)) ∧
    (∀ (s : State) (f off be tag : Nat), s.hst.inReset = false → s.hst.enginesNamed = true → fnExists s.hst f = true → s.hst.dstate = 0 →
      s.hst.flag (H_FUN_FN_CFG_ap_en f) = true → s.hst.xng.phase = 3 → freeTag s.hst = some tag →
        ∃ t, exec (.apertureRead f off be) s = .next t ∧
          (t.hst.holdq.any (fun m => m.unit == regrUnit f tag be (apertureAddr s.hst f off)) ||
            t.hst.xng.replay.any (fun e => e.2 == regrUnit f tag be (apertureAddr s.hst f off))) = true ∧
          Store.get (fun _ => 0) t.hst.readAt tag = s.fld.now ∧
          HostFrame [] { s.hst with reads := s.hst.reads ++ [(tag, f)], readAt := t.hst.readAt } s t) ∧
    (∀ (s : State) (tag f : Nat), s.hst.inReset = false → s.hst.reads.find? (fun r => r.1 == tag) = some (tag, f) →
      Store.get (fun _ => 0) s.hst.readAt tag + 50 * usTicks ≤ s.fld.now →
      ∃ t, exec (.apertureReadTimeout tag) s = .next t ∧ Output.hostRead tag 0xFFFFFFFF ∈ t.hst.out ∧
        t.hst.flag (H_XNG_AP_STAT_timeout f) = true ∧
        HostFrame [H_XNG_AP_STAT f] { s.hst with reads := s.hst.reads.filter (fun x => x.1 != tag) } s t) ∧
    (∀ (s : State) (f off first last : Nat) (ws : List Word), s.hst.inReset = false → fnExists s.hst f = true → f < 64 →
      s.hst.dstate = 0 → ws ≠ [] →
      (7 < ws.length → ∃ t, exec (.apertureWrite f off first last ws) s = .next t ∧ hasBit (t.hst.rdN (H_FUN_EVT f)) 5 = true ∧
        HostFrame [] s.hst s t) ∧
      (ws.length ≤ 7 → s.hst.flag (H_FUN_FN_CFG_ap_en f) = false →
        ∃ t, exec (.apertureWrite f off first last ws) s = .next t ∧
          t.hst.cntAt (hcXng 32) = (s.hst.cntAt (hcXng 32) + ws.length) % 2 ^ 64 ∧ HostFrame [] s.hst s t) ∧
      (ws.length ≤ 7 → s.hst.flag (H_FUN_FN_CFG_ap_en f) = true → heldWrites s.hst + ws.length ≤ 4096 →
        ∃ t, exec (.apertureWrite f off first last ws) s = .next t ∧
          (t.hst.holdq.any (fun m => decide (regwSlots (apertureAddr s.hst f off) first last ws <:+ m.unit.payload)) ||
            t.hst.xng.replay.any (fun e => decide (regwSlots (apertureAddr s.hst f off) first last ws <:+ e.2.payload))) = true ∧
          HostFrame [H_XNG_EVT] s.hst s t)) ∧
    (∀ (s : State) (f : Nat) (data : Word), s.hst.inReset = false → fnExists s.hst f = true → hasBit data.toNat 31 = true →
      ∃ t, exec (.holdPurge f data) s = .next t ∧
        t.hst.holdq.any (fun m => decide (0 < m.writes) && m.fn == (if f = 0 then bitsOf data.toNat 15 8 else f) &&
          m.epoch == bitsOf data.toNat 7 0) = false ∧
        HostFrame [H_XNG_EPOCH (if f = 0 then bitsOf data.toNat 15 8 else f)] s.hst s t) ∧
    (∀ (s : State) (u : FlowUnit), s.hst.inReset = false → s.hst.xng.inbox.find? (fun u => u.type == 4) = some u →
      ∃ t, exec .regc s = .next t ∧ t.hst.xng.inbox = s.hst.xng.inbox.erase u ∧
        (s.hst.reads.any (fun r => r.1 == bitsOf u.header 19 12) = true →
          Output.hostRead (bitsOf u.header 19 12) (word (u.w 0)) ∈ t.hst.out) ∧
        (s.hst.reads.any (fun r => r.1 == bitsOf u.header 19 12) = false →
          t.hst.cntAt (hcXng 14) = (s.hst.cntAt (hcXng 14) + 1) % 2 ^ 64) ∧
        HostFrame [] { s.hst with reads := s.hst.reads.filter (fun r => r.1 != bitsOf u.header 19 12) } s t) ∧
    (∀ (s : State) (u : FlowUnit), s.fld.phase = .running → nextRegMsg s.fld 2 = some u →
      (bitsOf u.header 3 0 = 1 → bitsOf u.header 27 20 ≠ 0x40 →
        ∃ t, exec .regw s = .next t ∧ exec (.registerWrite (bitsOf u.header 27 20) (bitsOf (u.w 0) 23 0) (bitsOf (u.w 0) 31 28)
          (word (u.w 1))) { s with fld := consume u s.fld } = .next t) ∧
      (∃ t, exec .regw s = .next t ∧ ((applyRegw u (consume u s.fld)).resetBy = 0 →
        t.fld = settle (applyRegw u (consume u s.fld)) ∧ FieldOnly s t))) ∧
    (∀ (s : State) (u : FlowUnit), s.fld.phase = .running → nextRegMsg s.fld 3 = some u →
      ∃ t, exec .regr s = .next t ∧ (t.fld.xng.waiting.any (fun y => y == answerTo u (consume u s.fld)) ||
        t.fld.xng.replay.any (fun e => e.2 == answerTo u (consume u s.fld))) = true ∧
        t.fld.xng.inbox = s.fld.xng.inbox.erase u ∧ FieldOnly s t) ∧
    (∀ (s : State) (u : FlowUnit) (fn : Nat), s.fld.phase = .running → Shape s → nextRegMsg s.fld 8 = some u →
      bitsOf u.header 23 16 = fn → fn < 0x40 →
      ∃ t, exec .fnResetReceive s = .next t ∧ t.fld.xng.inbox = s.fld.xng.inbox.erase u ∧
        (∀ n, n < 32 → lockState s.fld n = 1 → s.fld.get (F_CFG_LOCK_owner n) = fn → lockState t.fld n = 2) ∧
        (∀ n, n < 32 → s.fld.get (F_CFG_LOCK_owner n) ≠ fn → lockState t.fld n = lockState s.fld n) ∧
        t.fld.staged = s.fld.staged.filter (fun e => e.1 != fn) ∧
        t.fld.launch = s.fld.launch.filter (fun x => x.req != fn) ∧
        t.fld.arrivals = s.fld.arrivals.filter (fun x => x.req != fn) ∧ FieldOnly s t)

/-- The last DATA unit of a frame completes it: at the host end for delivery, at the field end for the launch store, where
an aborted frame is counted as a drop. A frame for the launch store without a launch time enters stage 1 behind those
whose time has come; one with a time to come is held; one that finds the store full, or a time over a second ahead, is
dropped and counted. A held frame is released at its time. EVT writes an event record. A ready frame leaves its ring
and starts on the Crossing. No DATA crosses the twin link. (R113, R617, R618, R619, R685, R690, R693, R694, R695,
R696, R709, R710) -/
def Obligations.FramesCrossBetweenTheDies : Prop :=
    (∀ (s : State) (u : FlowUnit) (l : Link), s.fld.phase = .running → s.fld.order = .di → takeData s.fld.xng = some (u, l) →
      ∃ t, exec (.data .field) s = .next t ∧ t.fld.xng.inbox = s.fld.xng.inbox.erase u ∧
        (hasBit u.header 26 = false → t.fld.xng.rxBytes = s.fld.xng.rxBytes ++ u.payload.take (bitsOf u.header 24 19) ∧
          FieldFrame [] s.fld s t) ∧
        (hasBit u.header 26 = true → t.fld.xng.rxBytes = [] ∧
          (hasBit u.header 25 = false → FieldFrame [] { s.fld with arrivals := s.fld.arrivals ++
            [launchOf (s.fld.xng.rxBytes ++ u.payload.take (bitsOf u.header 24 19))] } s t) ∧
          (hasBit u.header 25 = true → FieldFrame [] (s.fld.countDrop 16 0x0E) s t))) ∧
    (∀ (s : State) (u : FlowUnit) (l : Link), s.hst.inReset = false → takeData s.hst.xng = some (u, l) →
      ∃ t, exec (.data .host) s = .next t ∧ t.hst.xng.inbox = s.hst.xng.inbox.erase u ∧
        (hasBit u.header 26 = false → t.hst.xng.rxBytes = s.hst.xng.rxBytes ++ u.payload.take (bitsOf u.header 24 19) ∧
          HostFrame [] s.hst s t) ∧
        (hasBit u.header 26 = true → t.hst.xng.rxBytes = [] ∧
          HostFrame [] { s.hst with rxFrames := s.hst.rxFrames ++ [(l.rxBytes, l.rxMeta)] } s t)) ∧
    (∀ s : State, ∃ t, exec (.data .twin) s = .next t ∧ FieldFrame [] s.fld s t) ∧
    (∀ (s : State) (x : LaunchFrame) (xs : List LaunchFrame), s.fld.phase = .running → Shape s → s.fld.arrivals = x :: xs →
      powerState s.fld ≠ 2 →
      ∃ t, exec .launchStoreArrival s = .next t ∧ t.fld.arrivals = xs ∧
        (x.launchEn = true → launchFull s.fld x = true →
          t.fld.cntAt (cPort 16 (32 + 0x0F)) = (s.fld.cntAt (cPort 16 (32 + 0x0F)) + 1) % 2 ^ 64 ∧
          t.fld.cntAt (cPort 16 19) = (s.fld.cntAt (cPort 16 19) + 1) % 2 ^ 64 ∧ t.fld.launch = s.fld.launch) ∧
        (x.launchEn = true → launchFull s.fld x = false → 0 < launchAhead s.fld x → launchAhead s.fld x ≤ 1000000000 →
          FieldFrame [] { s.fld with arrivals := xs, launch := s.fld.launch ++ [x] } s t) ∧
        (x.launchEn = true → launchFull s.fld x = false → 1000000000 < launchAhead s.fld x →
          t.fld.cntAt (cPort 16 20) = (s.fld.cntAt (cPort 16 20) + 1) % 2 ^ 64 ∧ t.fld.launch = s.fld.launch) ∧
        (x.launchEn = true → launchFull s.fld x = false → launchAhead s.fld x ≤ 0 →
          t.fld.launch = s.fld.launch ∧ t.fld.buf.frames.any (fun fr => fr.port == 16 && fr.bytes == x.bytes.take 64) = true) ∧
        (x.launchEn = false → t.fld.launch.any (launchDue s.fld) = false ∧
          t.fld.buf.frames.any (fun fr => fr.port == 16 && fr.bytes == x.bytes.take 64) = true) ∧
        LowFrame (portRegs 16) { s.fld with arrivals := t.fld.arrivals, launch := t.fld.launch, ports := t.fld.ports, gates := t.fld.gates } s t) ∧
    (∀ (s : State) (x : LaunchFrame), s.fld.phase = .running → Shape s → s.fld.launch.find? (launchDue s.fld) = some x → powerState s.fld ≠ 2 →
      ∃ t, exec .launchRelease s = .next t ∧ t.fld.launch = s.fld.launch.erase x ∧
        t.fld.buf.frames.any (fun fr => fr.port == 16 && fr.bytes == x.bytes.take 64) = true ∧
        LowFrame (portRegs 16) { s.fld with arrivals := t.fld.arrivals, launch := t.fld.launch, ports := t.fld.ports, gates := t.fld.gates } s t) ∧
    (∀ (s : State) (u : FlowUnit), s.hst.inReset = false → s.hst.xng.inbox.find? (fun u => u.type == 5) = some u →
      ∃ t, exec .evt s = .next t ∧ t.hst.xng.inbox = s.hst.xng.inbox.erase u ∧
        (evqRoom s.hst = true → Output.hostWrite (s.hst.rdN H_INT_EVQ_BASE_LO + 2 ^ 32 * s.hst.rdN H_INT_EVQ_BASE_HI +
            32 * (s.hst.rdN H_INT_EVQ_TAIL % evqSize s.hst))
          (entryBytes [u.w 0, u.w 1, u.w 2, u.w 3, if hasBit u.header 27 || s.hst.evLost then 2 ^ 31 else 0, 0, 0,
            phaseOf (s.hst.rdN H_INT_EVQ_TAIL) (evqSize s.hst) * 2 ^ 31]) ∈ t.hst.out) ∧
        (evqRoom s.hst = false → t.hst.evLost = true ∧ hasBit (t.hst.rdN (H_FUN_EVT 0)) 6 = true) ∧
        HostFrame [] s.hst s t) ∧
    (∀ (s : State) (x : TxFrame) (q : Nat) (hi : Bool), Shape s → s.hst.inReset = false → s.hst.sending = none →
      s.hst.xng.canSend = true → s.hst.holdq = [] → (hi = false → chooseRing s.hst true = none) → chooseRing s.hst hi = some q →
      ringNext s.hst q = some x →
      ∃ t, exec .txFrameCross s = .next t ∧ x.qp = q ∧
        (t.hst.xng.replay.any (fun e => e.2 == (dataUnits (x.attrs ++ x.bytes) (fun _ => 0)).headD {})) = true ∧
        t.hst.rdN (H_FUN_Q_TXHEAD q) = (s.hst.rdN (H_FUN_Q_TXHEAD q) + x.descs) % 2 ^ 32 ∧
        HostFrame [] { s.hst with rrHi := if hi then q else s.hst.rrHi, rrLo := if hi then s.hst.rrLo else q } s t)

/-- A host reset puts the whole host die at its reset state and changes nothing on the field die; its release starts training and announces FN_RESET for every function. D3 takes the link down, D0 trains it again. A
function-level reset clears the function, advances its epoch and announces FN_RESET behind the held writes; a hot
reset, or one of the physical function, clears every function and the perturbation. A host fault sets its flag, and
one of function faults stops the transmit rings of its function. (R130, R167, R183, R281, R628, R711, R712, R715,
R803, R820, R821) -/
def Obligations.HostDieResetsAndFaults : Prop :=
    (∀ s : State, ∃ t, exec .hostReset s = .next t ∧ t.hst = { inReset := true, freeCtr := s.hst.freeCtr, out := s.hst.out } ∧
      t.fld = s.fld ∧ t.pending = s.pending ∧ t.key = s.key ∧ t.flash = s.flash) ∧
    (∀ s : State, s.hst.inReset = true → s.fld.order = .di →
      ∃ t, exec .hostResetRelease s = .next t ∧ t.hst.inReset = false ∧ t.hst.xng.phase = 1 ∧
        Output.lanePhase .host ∈ t.hst.out ∧
        t.hst.holdq.any (fun m => m.unit == fnResetUnit 0xFF (s.hst.get (H_XNG_EPOCH_epoch 0))) = true ∧
        HostFrame [H_XNG_EVT] { s.hst with inReset := false } s t) ∧
    (∀ (s : State) (d : Nat), s.hst.inReset = false → d ≠ s.hst.dstate →
      (d = 0 → ∃ t, exec (.hostPowerStateChange d) s = .next t ∧ t.hst.xng.phase = 1 ∧ HostFrame [H_XNG_EVT] { s.hst with dstate := 0 } s t) ∧
      (d = 3 ∨ d = 4 → ∃ t, exec (.hostPowerStateChange d) s = .next t ∧ t.hst.xng.phase = 0 ∧
        (s.hst.xng.phase = 3 → t.linkFlag .host 1 = true) ∧ HostFrame [H_XNG_EVT] { s.hst with dstate := d } s t)) ∧
    (∀ (s : State) (f : Nat), s.hst.inReset = false → s.hst.enginesNamed = true → fnExists s.hst f = true → 0 < f →
      ∃ t, exec (.flr f) s = .next t ∧ f ∉ t.hst.bme ∧ f ∉ t.hst.msixEn ∧ f ∉ t.hst.msixMask ∧
        t.hst.reads = s.hst.reads.filter (fun r => r.2 != f) ∧ t.hst.ready.any (fun x => ownsQp s.hst f x.qp) = false ∧
        t.hst.get (H_XNG_EPOCH_epoch f) = (s.hst.get (H_XNG_EPOCH_epoch f) + 1) % 256 ∧
        (t.hst.holdq.any (fun m => m.unit == fnResetUnit f ((s.hst.get (H_XNG_EPOCH_epoch f) + 1) % 256)) ||
          t.hst.xng.replay.any (fun e => e.2 == fnResetUnit f ((s.hst.get (H_XNG_EPOCH_epoch f) + 1) % 256))) = true ∧
        (∀ q, q < 2048 → ownsQp s.hst f q = true → t.hst.rd (H_FUN_Q_CTRL q) = hostDefault (H_FUN_Q_CTRL q) ∧
          t.hst.rdN (H_FUN_Q_TXTAIL q) = 0 ∧ t.hst.rdN (H_FUN_Q_CQBASE_LO q) = 0) ∧
        (∀ a, a / 0x10000 ≠ f → (a < 0x1000000 ∨ ownsQp s.hst f ((a - 0x1000000) / 0x40) = false) → hostMoves a = false →
          t.hst.rd a = s.hst.rd a) ∧ HostOnly s t) ∧
    (∀ s : State, s.hst.inReset = false → fnExists s.hst 0 = true → s.hst.enginesNamed = true →
      (∃ t, exec .hotReset s = .next t ∧ exec (.flr 0) s = .next t ∧ t.hst.vfEnable = false ∧ t.hst.numVfs = 0 ∧
        (∀ f, f < 64 → f ∉ t.hst.bme ∧ t.hst.get (H_XNG_EPOCH_epoch f) = (s.hst.get (H_XNG_EPOCH_epoch f) + 1) % 256) ∧
        t.hst.flag H_PTB_ARM_armed = false ∧ t.hst.rdN H_PTB_LANE = 0 ∧ t.hst.ptb = {} ∧
        (t.hst.holdq.any (fun m => m.unit.header / 2 ^ 16 == 0x85FF) || t.hst.xng.replay.any (fun e => e.2.header / 2 ^ 16 == 0x85FF)) = true ∧
        HostOnly s t)) ∧
    (∀ (s : State) (code func place : Nat), s.hst.inReset = false → code < 4 → func < 64 →
      ∃ t, exec (.hostFaultLatch code func place) s = .next t ∧ hasBit (t.hst.rdN H_FLT_EVT) code = true ∧
        256 * code + func ∈ t.hst.latched ∧
        (code = 0 → place = 0 → t.hst.xng.phase = 1 ∧ t.hst.xng.fresh = true ∧ t.hst.xng.replay = []) ∧
        (code = 3 → ∀ q, q < 2048 → ownsQp s.hst func q = true → s.hst.flag (H_FUN_Q_CTRL_tx_en q) = true →
          t.hst.flag (H_FUN_Q_STAT_stopped q) = true) ∧
        HostFrame [H_FLT_EVT, H_FLT_EVT_INFO, H_XNG_EVT] { s.hst with latched := t.hst.latched } s t)

/-- A doorbell moves its count when its value is new and within the ring, is counted when it is stale or its ring is off,
and raises an event when it is beyond the ring or names no queue pair of the function. A ring that is enabled starts
with its counts at 0, its size fixed; a transmit ring that is disabled stops. Queue-pair and vector assignments that
overlap or exceed are refused with an event. A valid steering entry changes only by being made invalid; one is made
valid only if it is unique and names a queue pair of its function. Unmasking a vector sends its pending message;
moderation sends one when it fires. (R669, R674, R678, R679, R680, R681, R682, R699, R700, R707, R708) -/
def Obligations.HostRingsFollowTheirDriver : Prop :=
    (∀ (s : State) (f l q : Nat) (data : Word), s.hst.inReset = false → fnExists s.hst f = true → f < 64 →
      (globalQp s.hst f l = none → ∃ t, exec (.txTailDoorbell f l data) s = .next t ∧ hasBit (t.hst.rdN (H_FUN_EVT f)) 0 = true ∧
        HostFrame [] s.hst s t) ∧
      (globalQp s.hst f l = some q → s.hst.flag (H_FUN_Q_CTRL_tx_en q) = false →
        ∃ t, exec (.txTailDoorbell f l data) s = .next t ∧ t.hst.cntAt (hcQp q 4) = (s.hst.cntAt (hcQp q 4) + 1) % 2 ^ 64 ∧ HostFrame [] s.hst s t) ∧
      (globalQp s.hst f l = some q → s.hst.flag (H_FUN_Q_CTRL_tx_en q) = true →
        ∃ t, exec (.txTailDoorbell f l data) s = .next t ∧
          (judgeTail data.toNat (s.hst.rdN (H_FUN_Q_TXTAIL q)) (s.hst.rdN (H_FUN_Q_TXHEAD q)) (ringSize (s.hst.get (H_FUN_Q_CTRL_tx_size q))) = .accept → t.hst.rdN (H_FUN_Q_TXTAIL q) = data.toNat) ∧
          (judgeTail data.toNat (s.hst.rdN (H_FUN_Q_TXTAIL q)) (s.hst.rdN (H_FUN_Q_TXHEAD q)) (ringSize (s.hst.get (H_FUN_Q_CTRL_tx_size q))) ≠ .accept → t.hst.rdN (H_FUN_Q_TXTAIL q) = s.hst.rdN (H_FUN_Q_TXTAIL q)) ∧
          (judgeTail data.toNat (s.hst.rdN (H_FUN_Q_TXTAIL q)) (s.hst.rdN (H_FUN_Q_TXHEAD q)) (ringSize (s.hst.get (H_FUN_Q_CTRL_tx_size q))) = .stale → t.hst.cntAt (hcQp q 4) = (s.hst.cntAt (hcQp q 4) + 1) % 2 ^ 64) ∧
          (judgeTail data.toNat (s.hst.rdN (H_FUN_Q_TXTAIL q)) (s.hst.rdN (H_FUN_Q_TXHEAD q)) (ringSize (s.hst.get (H_FUN_Q_CTRL_tx_size q))) = .overrun → hasBit (t.hst.rdN (H_FUN_EVT f)) 1 = true) ∧
          HostFrame [H_FUN_Q_TXTAIL q] s.hst s t)) ∧
    (∀ (s : State) (f l q : Nat) (data : Word), s.hst.inReset = false → fnExists s.hst f = true → f < 64 →
      (globalQp s.hst f l = none → ∃ t, exec (.rxTailDoorbell f l data) s = .next t ∧ hasBit (t.hst.rdN (H_FUN_EVT f)) 0 = true ∧
        HostFrame [] s.hst s t) ∧
      (globalQp s.hst f l = some q → s.hst.flag (H_FUN_Q_CTRL_rx_en q) = false →
        ∃ t, exec (.rxTailDoorbell f l data) s = .next t ∧ t.hst.cntAt (hcQp q 4) = (s.hst.cntAt (hcQp q 4) + 1) % 2 ^ 64 ∧ HostFrame [] s.hst s t) ∧
      (globalQp s.hst f l = some q → s.hst.flag (H_FUN_Q_CTRL_rx_en q) = true →
        ∃ t, exec (.rxTailDoorbell f l data) s = .next t ∧
          (judgeTail data.toNat (s.hst.rdN (H_FUN_Q_RXTAIL q)) (s.hst.rdN (H_FUN_Q_RXHEAD q)) (ringSize (s.hst.get (H_FUN_Q_CTRL_rx_size q))) = .accept → t.hst.rdN (H_FUN_Q_RXTAIL q) = data.toNat) ∧
          (judgeTail data.toNat (s.hst.rdN (H_FUN_Q_RXTAIL q)) (s.hst.rdN (H_FUN_Q_RXHEAD q)) (ringSize (s.hst.get (H_FUN_Q_CTRL_rx_size q))) ≠ .accept → t.hst.rdN (H_FUN_Q_RXTAIL q) = s.hst.rdN (H_FUN_Q_RXTAIL q)) ∧
          (judgeTail data.toNat (s.hst.rdN (H_FUN_Q_RXTAIL q)) (s.hst.rdN (H_FUN_Q_RXHEAD q)) (ringSize (s.hst.get (H_FUN_Q_CTRL_rx_size q))) = .stale → t.hst.cntAt (hcQp q 4) = (s.hst.cntAt (hcQp q 4) + 1) % 2 ^ 64) ∧
          (judgeTail data.toNat (s.hst.rdN (H_FUN_Q_RXTAIL q)) (s.hst.rdN (H_FUN_Q_RXHEAD q)) (ringSize (s.hst.get (H_FUN_Q_CTRL_rx_size q))) = .overrun → hasBit (t.hst.rdN (H_FUN_EVT f)) 1 = true) ∧
          HostFrame [H_FUN_Q_RXTAIL q] s.hst s t)) ∧
    (∀ (s : State) (f l q : Nat) (data : Word), s.hst.inReset = false → fnExists s.hst f = true → f < 64 →
      (globalQp s.hst f l = none → ∃ t, exec (.cqHeadDoorbell f l data) s = .next t ∧ hasBit (t.hst.rdN (H_FUN_EVT f)) 0 = true ∧
        HostFrame [] s.hst s t) ∧
      (globalQp s.hst f l = some q → s.hst.flag (H_FUN_Q_CTRL_cq_en q) = false →
        ∃ t, exec (.cqHeadDoorbell f l data) s = .next t ∧ t.hst.cntAt (hcQp q 4) = (s.hst.cntAt (hcQp q 4) + 1) % 2 ^ 64 ∧ HostFrame [] s.hst s t) ∧
      (globalQp s.hst f l = some q → s.hst.flag (H_FUN_Q_CTRL_cq_en q) = true →
        ∃ t, exec (.cqHeadDoorbell f l data) s = .next t ∧
          (judgeHead data.toNat (s.hst.rdN (H_FUN_Q_CQHEAD q)) (s.hst.rdN (H_FUN_Q_CQTAIL q)) = .accept → t.hst.rdN (H_FUN_Q_CQHEAD q) = data.toNat) ∧
          (judgeHead data.toNat (s.hst.rdN (H_FUN_Q_CQHEAD q)) (s.hst.rdN (H_FUN_Q_CQTAIL q)) ≠ .accept → t.hst.rdN (H_FUN_Q_CQHEAD q) = s.hst.rdN (H_FUN_Q_CQHEAD q)) ∧
          (judgeHead data.toNat (s.hst.rdN (H_FUN_Q_CQHEAD q)) (s.hst.rdN (H_FUN_Q_CQTAIL q)) = .stale → t.hst.cntAt (hcQp q 4) = (s.hst.cntAt (hcQp q 4) + 1) % 2 ^ 64) ∧
          (judgeHead data.toNat (s.hst.rdN (H_FUN_Q_CQHEAD q)) (s.hst.rdN (H_FUN_Q_CQTAIL q)) = .overrun → hasBit (t.hst.rdN (H_FUN_EVT f)) 1 = true) ∧
          HostFrame [H_FUN_Q_CQHEAD q] s.hst s t)) ∧
    (∀ (s : State) (f q : Nat) (data : Word), s.hst.inReset = false → fnExists s.hst f = true → f < 64 →
      globalQp s.hst f (s.hst.get (H_FUN_QSEL_qsel f)) = some q → q < 2048 → qpOwner s.hst q = some f →
      (s.hst.ready ++ s.hst.crossing ++ s.hst.sending.toList).any (fun x => x.qp == q) = false →
      (bitsOf (s.hst.rdN (H_FUN_Q_CTRL q)) 31 29 = 0 →
        ∃ t, exec (.ringEnableWrite f data) s = .next t ∧ t.hst.rdN (H_FUN_Q_CTRL q) = Nat.land data.toNat 0xE1FFF7FF ∧
          (hasBit data.toNat 31 = true → t.hst.rdN (H_FUN_Q_TXHEAD q) = 0 ∧ t.hst.rdN (H_FUN_Q_TXTAIL q) = 0 ∧
            (hasBit data.toNat 29 = true → t.hst.flag (H_FUN_Q_STAT_stopped q) = false ∧ t.hst.flag (H_FUN_Q_STAT_error q) = false ∧
              t.hst.get (H_FUN_Q_STAT_err_code q) = 0) ∧
            (hasBit data.toNat 29 = false → t.hst.flag (H_FUN_Q_STAT_stopped q) = true ∧ t.hst.get (H_FUN_Q_STAT_err_code q) = 3)) ∧
          (hasBit data.toNat 30 = true → t.hst.rdN (H_FUN_Q_RXHEAD q) = 0 ∧ t.hst.rdN (H_FUN_Q_RXTAIL q) = 0) ∧
          (hasBit data.toNat 29 = true → t.hst.rdN (H_FUN_Q_CQHEAD q) = 0 ∧ t.hst.rdN (H_FUN_Q_CQTAIL q) = 0) ∧
          HostFrame ((List.range 16).map (fun k => 0x1000000 + 0x40 * q + 4 * k)) s.hst s t) ∧
      (hasBit (s.hst.rdN (H_FUN_Q_CTRL q)) 31 = true → hasBit data.toNat 31 = true →
        ∃ t, exec (.ringEnableWrite f data) s = .next t ∧
          t.hst.get (H_FUN_Q_CTRL_tx_size q) = s.hst.get (H_FUN_Q_CTRL_tx_size q) ∧
          t.hst.rdN (H_FUN_Q_TXTAIL q) = s.hst.rdN (H_FUN_Q_TXTAIL q) ∧
          (bitsOf data.toNat 23 20 ≠ s.hst.get (H_FUN_Q_CTRL_tx_size q) → t.hst.get (H_FUN_Q_STAT_err_code q) = 2 ∧
            hasBit (t.hst.rdN (H_FUN_EVT f)) 2 = true) ∧
          HostFrame ((List.range 16).map (fun k => 0x1000000 + 0x40 * q + 4 * k)) s.hst s t) ∧
      (hasBit (s.hst.rdN (H_FUN_Q_CTRL q)) 31 = true → hasBit data.toNat 31 = false →
        ∃ t, exec (.ringEnableWrite f data) s = .next t ∧ t.hst.flag (H_FUN_Q_CTRL_tx_en q) = false ∧
          t.hst.flag (H_FUN_Q_STAT_stopped q) = true ∧
          HostFrame ((List.range 16).map (fun k => 0x1000000 + 0x40 * q + 4 * k)) s.hst s t)) ∧
    (∀ (s : State) (target : Nat) (cfg : Bool) (data : Word), s.hst.inReset = false → target < 64 →
      ∃ t, exec (.functionConfigWrite 0 target cfg data) s = .next t ∧
        (cfg = true → vecCountBad s.hst target (bitsOf data.toNat 8 0) = false →
          t.hst.rdN (H_FUN_FN_CFG target) = Nat.land data.toNat 0xFFFF01FF) ∧
        (cfg = false → qpRangeBad s.hst target (bitsOf data.toNat 26 16) (bitsOf data.toNat 11 0) = false →
          t.hst.rdN (H_FUN_FN_QP target) = Nat.land data.toNat 0x07FF0FFF) ∧
        ((if cfg then vecCountBad s.hst target (bitsOf data.toNat 8 0)
            else qpRangeBad s.hst target (bitsOf data.toNat 26 16) (bitsOf data.toNat 11 0)) = true →
          hasBit (t.hst.rdN (H_FUN_EVT 0)) 3 = true ∧ HostFrame [] s.hst s t) ∧
        HostFrame [if cfg then H_FUN_FN_CFG target else H_FUN_FN_QP target] s.hst s t) ∧
    (∀ (s : State) (i w : Nat) (data : Word), s.hst.inReset = false → i < 64 → w < 3 →
      ∃ t, exec (.steeringEntryWrite 0 (0x2400 + 16 * i + 4 * w) data) s = .next t ∧
        (hasBit (steerWord s.hst i 0) 31 = true → (w ≠ 0 ∨ hasBit data.toNat 31 = true) → HostFrame [] s.hst s t) ∧
        (hasBit (steerWord s.hst i 0) 31 = false → w = 1 → steerWord t.hst i 1 = data.toNat) ∧
        (hasBit (steerWord s.hst i 0) 31 = false → w = 2 → steerWord t.hst i 2 = Nat.land data.toNat 0x07FF0003) ∧
        (w = 0 → hasBit data.toNat 31 = false → steerWord t.hst i 0 = Nat.land data.toNat 0x003FFFFF) ∧
        (hasBit (steerWord s.hst i 0) 31 = false → w = 0 → hasBit data.toNat 31 = true →
          (steerFind s.hst (bitsOf data.toNat 15 0 * 2 ^ 32 + steerWord s.hst i 1) = none ∧
              bitsOf (steerWord s.hst i 2) 26 16 + 2 ^ bitsOf (steerWord s.hst i 2) 1 0 ≤
                s.hst.get (H_FUN_FN_QP_qp_count (bitsOf data.toNat 21 16)) → hasBit (steerWord t.hst i 0) 31 = true) ∧
          (steerFind s.hst (bitsOf data.toNat 15 0 * 2 ^ 32 + steerWord s.hst i 1) ≠ none →
            hasBit (steerWord t.hst i 0) 31 = false ∧ hasBit (t.hst.rdN (H_FUN_EVT 0)) 4 = true)) ∧
        HostFrame [H_FUN_STEER (4 * i + w)] s.hst s t) ∧
    (∀ (s : State) (v : Nat), s.hst.inReset = false → fnExists s.hst (v / 256) = true → v / 256 < 64 →
      ∃ t, exec (.vectorUnmask v) s = .next t ∧ hasBit (t.hst.rdN (msixAddr (v / 256) (v % 256) 3)) 0 = false ∧
        (v ∈ s.hst.msixPba → s.hst.msixMask.contains (v / 256) = false → v % 256 < s.hst.get (H_FUN_FN_CFG_vec_count (v / 256)) →
          busMaster s.hst (v / 256) = true → v / 256 ∈ s.hst.msixEn → Output.msix v ∈ t.hst.out) ∧
        HostFrame [msixAddr (v / 256) (v % 256) 3] s.hst s t) ∧
    (∀ (s : State) (q cause f : Nat), s.hst.inReset = false → q < 2048 → qpOwner s.hst q = some f → modFires s.hst q cause = true →
      ∃ t, exec (.interruptModeration q cause) s = .next t ∧
        (s.hst.get (H_FUN_Q_CTRL_vector q) < s.hst.get (H_FUN_FN_CFG_vec_count f) → busMaster s.hst f = true → f ∈ s.hst.msixEn →
          vectorMasked s.hst f (s.hst.get (H_FUN_Q_CTRL_vector q)) = false →
          Output.msix (256 * f + s.hst.get (H_FUN_Q_CTRL_vector q)) ∈ t.hst.out) ∧
        HostFrame [] s.hst s t) ∧
    (∀ (s : State) (cause : Nat), s.hst.inReset = false → modFires s.hst 2048 cause = true →
      ∃ t, exec (.interruptModeration 2048 cause) s = .next t ∧
        (s.hst.get H_INT_EVQ_CTRL_ev_vector < s.hst.get (H_FUN_FN_CFG_vec_count 0) → busMaster s.hst 0 = true → 0 ∈ s.hst.msixEn →
          vectorMasked s.hst 0 (s.hst.get H_INT_EVQ_CTRL_ev_vector) = false →
          Output.msix (s.hst.get H_INT_EVQ_CTRL_ev_vector) ∈ t.hst.out) ∧
        HostFrame [] s.hst s t)

/-- A fetched frame, whose last descriptor and no other ends it, is with good descriptors ready to cross; one with bad descriptors ends in a completion that says so,
and its ring goes on; a failed read stops its ring with an error. A frame from P16 is written to the buffers of good
descriptors and completed; one that finds no ring enabled, no descriptors or no room is counted, as is one that
steering sends nowhere. A write of hold or of poly sets the hold, owner and polynomial of an engine and, unless it is
one of hold that leaves poly as it was, its running value; the two words of a running value take effect together, cut to the width of the polynomial.
(R250, R684, R688, R689, R698, R701, R702, R703, R705, R723, R732, R733) -/
def Obligations.HostFramesMoveInTheirRings : Prop :=
    (∀ (s : State) (q f : Nat) (ds : List (List Byte)) (bytes : List Byte), s.hst.inReset = false → qpOwner s.hst q = some f →
      mayFetch s.hst f q = true → wholeFrame ds = true → ds.length ≤ postedTx s.hst q →
      ∃ t, exec (.txFetchDone q ds bytes) s = .next t ∧
        (badDescs ds (s.hst.flag (H_FUN_FN_CFG_directed_ok f)) (chkBad s.hst f) = false →
          fetchedFrame s.hst f q ds bytes ∈ t.hst.ready) ∧
        (badDescs ds (s.hst.flag (H_FUN_FN_CFG_directed_ok f)) (chkBad s.hst f) = true → cqRoom s.hst q = true →
          (s.hst.ready ++ s.hst.crossing ++ s.hst.sending.toList).any (fun x => x.qp == q) = false →
          t.hst.rdN (H_FUN_Q_TXHEAD q) = (s.hst.rdN (H_FUN_Q_TXHEAD q) + ds.length) % 2 ^ 32 ∧
          Output.hostWrite (cqBase s.hst q + 32 * (s.hst.rdN (H_FUN_Q_CQTAIL q) % cqSize s.hst q)) (entryBytes ((txCompletion (fetchedFrame s.hst f q ds bytes) : Completion).words (phaseOf (s.hst.rdN (H_FUN_Q_CQTAIL q)) (cqSize s.hst q)))) ∈ t.hst.out) ∧
        HostFrame [] s.hst s t) ∧
    (∀ (s : State) (q f cookie : Nat), s.hst.inReset = false → qpOwner s.hst q = some f → mayFetch s.hst f q = true →
      0 < postedTx s.hst q → cqRoom s.hst q = true → f < 64 →
      (s.hst.ready ++ s.hst.crossing ++ s.hst.sending.toList).any (fun x => x.qp == q) = false →
      ∃ t, exec (.dmaError q cookie) s = .next t ∧ t.hst.flag (H_FUN_Q_STAT_stopped q) = true ∧
        t.hst.flag (H_FUN_Q_STAT_error q) = true ∧ t.hst.get (H_FUN_Q_STAT_err_code q) = 1 ∧
        hasBit (t.hst.rdN (H_FUN_EVT f)) 2 = true ∧
        Output.hostWrite (cqBase s.hst q + 32 * (s.hst.rdN (H_FUN_Q_CQTAIL q) % cqSize s.hst q)) (entryBytes (({ cookie := cookie % 2 ^ 32, kind := 1, status := 2, count := 1 } : Completion).words (phaseOf (s.hst.rdN (H_FUN_Q_CQTAIL q)) (cqSize s.hst q)))) ∈ t.hst.out ∧ HostFrame [] s.hst s t) ∧
    (∀ (s : State) (descs : List (List Byte)) (bs : List Byte) (ms : List Nat) (rest : List (List Byte × List Nat)),
      s.hst.inReset = false → s.hst.rxFrames = (bs, ms) :: rest →
      steerTargets s.hst bs = [] → (∃ t, exec (.rxDelivery descs) s = .next t ∧
        t.hst.cntAt hcNoMatch = (s.hst.cntAt hcNoMatch + 1) % 2 ^ 64 ∧ HostFrame [] { s.hst with rxFrames := rest } s t)) ∧
    (∀ (s : State) (descs : List (List Byte)) (bs : List Byte) (ms : List Nat) (rest : List (List Byte × List Nat)) (f l q : Nat)
      (d : List Byte), s.hst.inReset = false → s.hst.rxFrames = (bs, ms) :: rest → steerTargets s.hst bs = [(f, l)] →
      globalQp s.hst f l = some q →
        ∃ t, exec (.rxDelivery descs) s = .next t ∧
          ((s.hst.flag (H_FUN_Q_CTRL_rx_en q) = false ∨ s.hst.flag (H_FUN_Q_CTRL_cq_en q) = false ∨ busMaster s.hst f = false) →
            t.hst.cntAt (hcQp q 7) = (s.hst.cntAt (hcQp q 7) + 1) % 2 ^ 64) ∧
          (s.hst.flag (H_FUN_Q_CTRL_rx_en q) = true → s.hst.flag (H_FUN_Q_CTRL_cq_en q) = true → busMaster s.hst f = true →
            (rxPlan bs.length (descs.take (cntDiff (s.hst.rdN (H_FUN_Q_RXTAIL q)) (s.hst.rdN (H_FUN_Q_RXHEAD q)))) 0 [] [] = none →
              t.hst.cntAt (hcQp q 5) = (s.hst.cntAt (hcQp q 5) + 1) % 2 ^ 64) ∧
            (descs.head? = some d → rxDescOk d = true → bs.length ≤ descLen d → bs ≠ [] →
              s.hst.rdN (H_FUN_Q_RXTAIL q) ≠ s.hst.rdN (H_FUN_Q_RXHEAD q) → 1 ≤ cqFree s.hst q →
              t.hst.rdN (H_FUN_Q_RXHEAD q) = (s.hst.rdN (H_FUN_Q_RXHEAD q) + 1) % 2 ^ 32 ∧
              t.hst.cntAt (hcQp q 2) = (s.hst.cntAt (hcQp q 2) + 1) % 2 ^ 64 ∧
              Output.hostWrite (wordAt d 0 + 2 ^ 32 * wordAt d 1) bs ∈ t.hst.out)) ∧
          HostFrame [H_FUN_Q_RXHEAD q] { s.hst with rxFrames := rest } s t) ∧
    (∀ (s : State) (n : Nat) (data : Word) (hold : Bool), s.hst.inReset = false → n < 8 →
      s.hst.sending.any (fun x => x.chk.any (fun c => c.1 == n)) = false →
      ∃ t, exec (if hold then .chkHoldWrite 0 n data else .chkPolyWrite 0 n data) s = .next t ∧
        t.hst.get (H_CHK_CTRL_hold n) = bitOf data.toNat 31 ∧ t.hst.get (H_CHK_CTRL_owner n) = bitsOf data.toNat 29 24 ∧
        t.hst.get (H_CHK_CTRL_poly n) = bitsOf data.toNat 1 0 ∧
        engineRun t.hst n = (if hold = true ∧ bitsOf data.toNat 1 0 = s.hst.get (H_CHK_CTRL_poly n) then engineRun s.hst n
          else chkInit (bitsOf data.toNat 1 0)) ∧
        HostFrame [] s.hst s t) ∧
    (∀ (s : State) (n lo : Nat) (data : Word), s.hst.inReset = false → n < 8 → lo < 2 ^ 32 →
      s.hst.sending.any (fun x => x.chk.any (fun c => c.1 == n)) = false →
      ((s.hst.staged.find? (fun e => e.1 == 0 && e.2.1 == H_CHK_RUN_LO n)).map (fun e => e.2.2.toNat)).getD
        (s.hst.rdN (H_CHK_RUN_LO n)) = lo →
      ∃ t, exec (.chkRunWrite 0 n data) s = .next t ∧ engineRun t.hst n = (lo + 2 ^ 32 * data.toNat) % 2 ^ chkWidth (s.hst.get (H_CHK_CTRL_poly n)) ∧
        HostFrame [] { s.hst with staged := s.hst.staged.filter (fun e => !(e.1 == 0 && e.2.1 == H_CHK_RUN_LO n)) } s t)

/-- HELLO notes the partner and, in a forming part, the first check that fails; where all pass the designated primary
grants the roles for its second boundary, which GRANT names to the other. Two active parts resolve their conflict by
designation. STATUS is sent by a part of a pair and updates what is known of the partner; its absence for 3 ms, or
RELINQUISH, is evidence of loss, and TWIN_FAULT_IN the other evidence; its level is followed in reset and darkroom too. A part that may become active sends REQ once.
Enable 1 starts formation and training; enable 0 ends the pair at a boundary, is refused to an active part with a
standby, and else takes effect at once. 600 s without a reversion reset the hold-off. (R633, R639, R640, R641, R655,
R656, R659, R660, R662, R663, R664) -/
def Obligations.TwinPairFormsAndReports : Prop :=
    (∀ (s : State) (u : FlowUnit), s.fld.phase = .running → (takeRole 1 s.fld).map (fun x => x.1) = some u →
      ∃ t, exec .hello s = .next t ∧ t.fld.flag F_TWN_STAT_peer_seen = true ∧ t.fld.twin.inbox = s.fld.twin.inbox.erase u ∧
        (s.fld.role = 1 → t.fld.get F_TWN_STAT_form_code = formCheck s.fld u ∧
          (formCheck s.fld u ≠ 0 → t.fld.sq F_TWN_EVT 1 = true ∧ t.fld.twn = s.fld.twn) ∧
          (formCheck s.fld u = 0 → bitsOf (u.w 0) 15 8 ≠ 2 → s.fld.flag F_TWN_STAT_designation = false →
            t.fld.twn.boundaryB = some (boundaryAfter s.fld 2) ∧ t.fld.twn.toActive = true ∧
            (t.fld.twin.waiting.any (fun y => y == roleUnit 5 (timeWords (boundaryAfter s.fld 2))) || t.fld.twin.replay.any (fun e => e.2 == roleUnit 5 (timeWords (boundaryAfter s.fld 2)))) = true)) ∧
        (s.fld.role = 2 → bitsOf (u.w 0) 15 8 = 1 → t.fld.get F_TWN_STAT_form_code = formCheck s.fld u) ∧
        (s.fld.role = 2 → bitsOf (u.w 0) 15 8 = 2 → s.fld.flag F_TWN_STAT_designation = true →
          t.fld.twn.confAt = true ∧ t.fld.sq F_TWN_EVT 10 = true) ∧
        (s.fld.role = 2 → bitsOf (u.w 0) 15 8 = 2 → s.fld.flag F_TWN_STAT_designation = false → t.fld.twn.resync = true) ∧
        FieldFrame [F_TWN_EVT, F_TWN_STAT] { s.fld with twn := t.fld.twn } s t) ∧
    (∀ (s : State) (u : FlowUnit), s.fld.phase = .running → (takeRole 5 s.fld).map (fun x => x.1) = some u →
      ∃ t, exec .grant s = .next t ∧ t.fld.twin.inbox = s.fld.twin.inbox.erase u ∧
        (s.fld.role = 1 → s.fld.flag F_TWN_STAT_peer_seen = true → s.fld.get F_TWN_STAT_form_code = 0 →
          t.fld.twn.boundaryB = some (wordsTime u 0) ∧ t.fld.twn.toActive = false ∧ t.fld.twn.cause = 0) ∧
        (s.fld.role = 3 → s.fld.twn.reqSent = true → s.fld.twn.boundaryB = none →
          t.fld.twn.boundaryB = some (wordsTime u 0) ∧ t.fld.twn.toActive = true) ∧
        (s.fld.role ≠ 1 → s.fld.role ≠ 3 → t.fld.twn = s.fld.twn) ∧ FieldFrame [] { s.fld with twn := t.fld.twn } s t) ∧
    (∀ s : State, s.fld.phase = .running →
      ∃ t, exec .statusSend s = .next t ∧ (inPair s.fld = true → s.fld.twin.canSend = true →
        t.fld.twin.replay.any (fun e => e.2 == statusUnit s.fld) = true) ∧ FieldFrame [] s.fld s t) ∧
    (∀ (s : State) (u : FlowUnit), s.fld.phase = .running → (takeRole 2 s.fld).map (fun x => x.1) = some u →
      ∃ t, exec .status s = .next t ∧ t.fld.get F_TWN_PEER_role = bitsOf (u.w 0) 15 8 ∧
        t.fld.get F_TWN_PEER_want = bitsOf (u.w 0) 5 4 ∧ t.fld.flag F_TWN_PEER_synced = hasBit (u.w 0) 1 ∧
        t.fld.flag F_TWN_PEER_fault = hasBit (u.w 0) 0 ∧ t.fld.twn.statusAt = some s.fld.now ∧
        (s.fld.role = 2 → t.fld.twn.evL = false) ∧
        (s.fld.role = 2 → s.fld.get F_TWN_PEER_role = 4 → bitsOf (u.w 0) 15 8 = 3 → t.fld.twn.resync = true) ∧
        FieldFrame [F_TWN_EVT, F_TWN_PEER] { s.fld with twn := t.fld.twn } s t) ∧
    (∀ s : State, s.fld.phase = .running → s.fld.role = 2 → (∀ b ∈ s.fld.twn.statusAt, b + 3 * msTicks ≤ s.fld.now) →
      ∃ t, exec .statusAbsence s = .next t ∧ t.fld.twn.evL = true ∧
        (s.fld.twn.evL = false → evP s.fld = false → s.fld.twin.phase ≠ 3 → t.fld.sq F_TWN_EVT 6 = true) ∧
        FieldFrame [F_TWN_EVT] { s.fld with twn := t.fld.twn } s t) ∧
    (∀ (s : State) (u : FlowUnit), s.fld.phase = .running → (takeRole 3 s.fld).map (fun x => x.1) = some u →
      ∃ t, exec .relinquish s = .next t ∧ t.fld.twin.inbox = s.fld.twin.inbox.erase u ∧
        (s.fld.role = 3 → t.fld.twn.evL = true) ∧ FieldFrame [F_TWN_EVT] { s.fld with twn := t.fld.twn } s t) ∧
    (∀ (s : State) (u : FlowUnit), s.fld.phase = .running → (takeRole 4 s.fld).map (fun x => x.1) = some u →
      ∃ t, exec .req s = .next t ∧
        (s.fld.role = 2 → s.fld.get F_TWN_CTRL_want = 1 → t.fld.sq F_TWN_EVT 15 = true ∧ t.fld.twn = s.fld.twn) ∧
        (s.fld.role = 2 → s.fld.get F_TWN_CTRL_want ≠ 1 → t.fld.twn.boundaryB = some (boundaryAfter s.fld 2) ∧
          t.fld.twn.toActive = false ∧ t.fld.twn.cause = u.w 0 ∧ (t.fld.twin.waiting.any (fun y => y == roleUnit 5 (timeWords (boundaryAfter s.fld 2))) || t.fld.twin.replay.any (fun e => e.2 == roleUnit 5 (timeWords (boundaryAfter s.fld 2)))) = true) ∧
        (s.fld.role ≠ 2 → t.fld.twn = s.fld.twn) ∧ FieldFrame [F_TWN_EVT] { s.fld with twn := t.fld.twn } s t) ∧
    (∀ s : State, s.fld.phase = .running → wantsActive s.fld ≠ 0 → s.fld.twn.reqSent = false → s.fld.twn.boundaryB = none →
      s.fld.twin.phase = 3 →
      ∃ t, exec .holdoffElapsed s = .next t ∧ t.fld.twn.reqSent = true ∧ t.fld.twn.cause = wantsActive s.fld ∧
        (t.fld.twin.waiting.any (fun y => y == roleUnit 4 [wantsActive s.fld]) || t.fld.twin.replay.any (fun e => e.2 == roleUnit 4 [wantsActive s.fld])) = true ∧
        FieldFrame [] { s.fld with twn := { s.fld.twn with reqSent := true, cause := wantsActive s.fld } } s t) ∧
    (∀ s : State, s.fld.phase = .running →
      ∃ t, exec .holdoffReset s = .next t ∧ (recentReversions s.fld = [] →
          t.fld.get F_TWN_HOLD_cur_s = s.fld.get F_TWN_REVERT_holdoff_s ∧ t.fld.twn.reversions = [] ∧
          FieldFrame [F_TWN_HOLD] { s.fld with twn := { s.fld.twn with reversions := [] } } s t) ∧
        (recentReversions s.fld ≠ [] → FieldFrame [] s.fld s t)) ∧
    (∀ (s : State) (on : Bool) (ns : Nat), s.fld.pwr.vddSl = true → 400 ≤ ns → s.fld.powered = false → s.fld.phase ≠ .released →
      ∃ t, exec (.twinFaultInChange on ns) s = .next t ∧ t.fld.pin.twinIn = on ∧
        FieldFrame [] { s.fld with pin := { s.fld.pin with twinIn := on } } s t) ∧
    (∀ (s : State) (on : Bool) (ns : Nat), s.fld.powered = true → s.fld.pwr.vddSl = true →
      (ns ≤ 200 → ∃ t, exec (.twinFaultInChange on ns) s = .next t ∧ FieldFrame [] s.fld s t) ∧
      (400 ≤ ns → ∃ t, exec (.twinFaultInChange on ns) s = .next t ∧ t.fld.flag F_TWN_STAT_pin_in = on ∧
        (on = true → evP s.fld = false → s.fld.role = 3 → s.fld.twn.evL = true →
          t.fld.twn.boundaryB = some (takeoverBoundary s.fld) ∧ t.fld.twn.cause = 3) ∧
        (on = true → evP s.fld = false → s.fld.role = 3 → s.fld.twn.evL = false → t.fld.sq F_TWN_EVT 5 = true) ∧
        FieldFrame [F_TWN_EVT, F_TWN_STAT] { s.fld with twn := t.fld.twn, pin := { s.fld.pin with twinIn := on } } s t) ∧
      (200 < ns → ns < 400 → ∃ t, exec (.twinFaultInChange on ns) s = .next t ∧
        (t.fld.flag F_TWN_STAT_pin_in = on ∨ t.fld.twn = s.fld.twn) ∧
        FieldFrame [F_TWN_EVT, F_TWN_STAT] { s.fld with twn := t.fld.twn, pin := { s.fld.pin with twinIn := t.fld.pin.twinIn } } s t)) ∧
    (∀ (s : State) (req : Nat) (data : Word), s.fld.canWrite req = true → s.fld.phase = .running → hasBit data.toNat 8 = false →
      s.fld.engineRuns 17 = true →
      (s.fld.flag F_TWN_CTRL_enable = false → hasBit data.toNat 31 = true → s.fld.role = 0 → s.fld.twin.phase = 0 →
        ∃ t, exec (.twinEnableWrite req data) s = .next t ∧ t.fld.flag F_TWN_CTRL_enable = true ∧ t.fld.role = 1 ∧
          t.fld.twin.phase = 1 ∧ Output.lanePhase .twin ∈ t.fld.out ∧ FieldOnly s t) ∧
      (s.fld.flag F_TWN_CTRL_enable = true → hasBit data.toNat 31 = false → s.fld.role = 2 → s.fld.get F_TWN_PEER_role = 3 →
        ∃ t, exec (.twinEnableWrite req data) s = .next t ∧ t.fld.flag F_TWN_CTRL_enable = true ∧ t.fld.role = 2 ∧
          t.fld.sq F_TWN_EVT 15 = true ∧ FieldOnly s t) ∧
      (s.fld.flag F_TWN_CTRL_enable = true → hasBit data.toNat 31 = false → (s.fld.role ≠ 2 ∨ s.fld.get F_TWN_PEER_role ≠ 3) →
        ∃ t, exec (.twinEnableWrite req data) s = .next t ∧ t.fld.flag F_TWN_CTRL_enable = false ∧
          (s.fld.role = 3 ∨ s.fld.role = 4 → t.fld.twn.aloneAtB = true ∧ t.fld.role = s.fld.role) ∧
          (s.fld.role ≠ 3 → s.fld.role ≠ 4 → t.fld.role = 0) ∧ FieldOnly s t))

/-- A standby applies a record that has arrived whole and in time, once for its boundary, and takes its number; a record that is not
there in time is lost: it is reported, the part is no longer synchronised, and after rec_miss of them the loss is
evidence. At boundary B a standby that takes over is ACTIVE, with its aging restarted; in a handover the requester
becomes ACTIVE and the active part STANDBY, and a completed reversion is noted. (R643, R648, R649, R651, R654, R655,
R657, R659, R660, R661, R662) -/
def Obligations.TwinPairChangesRoles : Prop :=
    (∀ (s : State) (us : List FlowUnit), s.fld.phase = .running → s.fld.role = 3 → readyRecord s.fld = some us →
      s.fld.twn.recFor ≠ some (networkBoundary s.fld) →
      ∃ t, exec .recordApply s = .next t ∧ t.fld.rdN F_TWN_REC = (us.getD 0 {}).w 0 ∧ t.fld.twn.lost = 0 ∧ t.fld.twn.evL = false ∧
        t.fld.twn.recFor = some (networkBoundary s.fld) ∧
        (hasBit ((us.getD 0 {}).w 3) 17 = true → t.fld.flag F_TWN_STAT_synced = true) ∧
        t.fld.cntAt (cTwin 33) = (s.fld.cntAt (cTwin 33) + 1) % 2 ^ 64 ∧ FieldOnly s t) ∧
    (∀ (s : State), s.fld.phase = .running → readyRecord s.fld = none →
      ∃ t, exec .recordApply s = .next t ∧ t.fld.twin.inbox = s.fld.twin.inbox ∧ FieldFrame [] s.fld s t) ∧
    (∀ (s : State), s.fld.phase = .running → s.fld.role = 3 → s.fld.twn.recFor ≠ some (networkBoundary s.fld) →
      networkBoundary s.fld + recordTime s.fld ≤ s.fld.sysNs → readyRecord s.fld = none →
      ∃ t, exec .recordLost s = .next t ∧ t.fld.flag F_TWN_STAT_synced = false ∧ t.fld.sq F_TWN_EVT 4 = true ∧
        t.fld.twn.recFor = some (networkBoundary s.fld) ∧ t.fld.twn.lost = s.fld.twn.lost + 1 ∧ t.fld.twn.syncedAt = none ∧
        (max 1 (s.fld.get F_TWN_TIMING_rec_miss) ≤ s.fld.twn.lost + 1 → t.fld.twn.evL = true ∧
          (s.fld.twn.evL = false → evP s.fld = true → t.fld.twn.boundaryB = some (takeoverBoundary s.fld) ∧ t.fld.twn.cause = 3)) ∧
        FieldFrame [F_TWN_EVT, F_TWN_STAT, F_TWN_EVT_INFO] { s.fld.count (cTwin 34) with twn := t.fld.twn } s t) ∧
    (∀ (s : State) (b : Nat), s.fld.phase = .running → s.fld.role = 3 → s.fld.engineRuns 17 = true → s.fld.twn.cause = 3 →
      s.fld.twn.boundaryB = some b → b ≤ s.fld.sysNs →
      ∃ t, exec .takeover s = .next t ∧ t.fld.role = 2 ∧ t.fld.sq F_TWN_EVT 2 = true ∧ t.fld.twn.boundaryB = none ∧
        (s.fld.flag F_TWN_STAT_synced = false → t.fld.sq F_TWN_EVT 14 = true) ∧ t.fld.fwd.ageTick = s.fld.now ∧
        t.fld.twn.fdbq = [] ∧ FieldOnly s t) ∧
    (∀ (s : State) (b : Nat), s.fld.phase = .running → s.fld.engineRuns 17 = true → (s.fld.twn.cause = 1 ∨ s.fld.twn.cause = 2) →
      s.fld.twn.aloneAtB = false → s.fld.twn.boundaryB = some b → b ≤ s.fld.sysNs →
      ∃ t, exec .handover s = .next t ∧ t.fld.role = (if s.fld.twn.toActive then 2 else 3) ∧ t.fld.sq F_TWN_EVT 3 = true ∧
        t.fld.twn.boundaryB = none ∧ (s.fld.twn.toActive = true → t.fld.twn.recDue = true) ∧
        (s.fld.twn.toActive = false → t.fld.flag F_TWN_STAT_synced = false ∧ t.fld.twn.syncedAt = none) ∧
        (s.fld.twn.cause = 1 → t.fld.twn.reversions.getLast? = some s.fld.now) ∧
        (s.fld.twn.cause = 2 → t.fld.twn.reversions = s.fld.twn.reversions) ∧ FieldOnly s t)

/-- A READ answers the status byte and the words, or all-ones and an event when they are late; a WRITE of a right CRC is
applied word by word, one of a wrong CRC changes no register outside the serial port and raises an event; a bad
command raises an event and is not answered. STATUS and ID answer. MGR_RESET with its key, and the manager's silence,
orphan its locks, discard its staged words, and return the window to reset. SPI_SEL rising too soon is counted. A
change of role waits for the flash; timing of the slave is staged to the next command; a doorbell of the window moves
its count. (R716, R717, R720, R736, R738, R739, R744, R745, R746, R747, R749, R751) -/
def Obligations.SerialManagerCommands : Prop :=
    (∀ (s : State) (addr count period : Nat), slaveOn s.fld = true →
      (accessBad (selFall s.fld) addr count = true →
        ∃ t, exec (.read addr count period) s = .next t ∧ t.fld.sq F_SPI_EVT 3 = true ∧ t.fld.spi.badLast = true ∧
          t.fld.get F_SPI_EVT_INFO_cmd = 0x0B ∧
          FieldFrame [F_SPI_EVT, F_SPI_EVT_INFO, F_SPI_SLAVE, F_CFG_PROOF_STAT] { s.fld with spi := t.fld.spi, cfg := t.fld.cfg } s t) ∧
      (accessBad (selFall s.fld) addr count = false → readLate (selFall s.fld) count period = false →
        ∃ t, exec (.read addr count period) s = .next t ∧ t.fld.get F_SPI_STAT_last_cmd = 0x0B ∧ t.fld.spi.badLast = false ∧
          t.fld.spi.lastCmdTick = s.fld.now ∧
          Output.spiReply (statusByte (selFall s.fld) false :: (readWords count addr (selFall s.fld)).1.flatMap (fun w => bytesBE 4 w.toNat)) ∈
            t.fld.out ∧ FieldOnly s t) ∧
      (accessBad (selFall s.fld) addr count = false → readLate (selFall s.fld) count period = true →
        ∃ t, exec (.read addr count period) s = .next t ∧ t.fld.sq F_SPI_EVT 4 = true ∧
          Output.spiReply (statusByte (selFall s.fld) true :: List.replicate (4 * count) 0xFF) ∈ t.fld.out ∧ FieldOnly s t)) ∧
    (∀ (s : State) (addr crc : Nat) (ws : List Word), slaveOn s.fld = true → s.fld.resetBy = 0 → accessBad (selFall s.fld) addr ws.length = false →
      (writeCrc addr ws ≠ crc →
        ∃ t, exec (.write addr ws crc) s = .next t ∧ t.fld.sq F_SPI_EVT 0 = true ∧ t.fld.spi.crcLast = true ∧
          FieldFrame [F_SPI_EVT, F_SPI_EVT_INFO, F_SPI_STAT, F_SPI_SLAVE, F_CFG_PROOF_STAT]
            { s.fld with spi := t.fld.spi, cfg := t.fld.cfg } s t) ∧
      (writeCrc addr ws = crc → (∀ n, n < ws.length → 0x400000 ≤ addr + 4 * n ∧ addr + 4 * n < 0xE00000) →
        ∃ t, exec (.write addr ws crc) s = .next t ∧ t.fld.spi.crcLast = false ∧ t.fld.get F_SPI_STAT_last_cmd = 0x02 ∧
          t.fld = settle (spiDone 0x02 (writeEnds (writeWords ws addr
            { selFall s.fld with spi := { (selFall s.fld).spi with crcLast := false } }))) ∧ FieldOnly s t)) ∧
    (∀ s : State, slaveOn s.fld = true →
      (∃ t, exec .statusCommand s = .next t ∧ t.fld.get F_SPI_STAT_last_cmd = 0x05 ∧
        Output.spiReply (statusByte (selFall s.fld) false :: bytesBE 4 (liveWord 0x40 F_SPI_STAT (selFall s.fld))) ∈ t.fld.out ∧
        FieldFrame [F_SPI_STAT, F_SPI_SLAVE, F_CFG_PROOF_STAT] { s.fld with spi := t.fld.spi, cfg := t.fld.cfg } s t) ∧
      (∃ t, exec .id s = .next t ∧ t.fld.get F_SPI_STAT_last_cmd = 0x9F ∧
        Output.spiReply (bytesBE 4 (s.fld.rdN F_GLB_ID)) ∈ t.fld.out ∧
        FieldFrame [F_SPI_STAT, F_SPI_SLAVE, F_CFG_PROOF_STAT] { s.fld with spi := t.fld.spi, cfg := t.fld.cfg } s t)) ∧
    (∀ (s : State) (key : Nat), slaveOn s.fld = true →
      (key ≠ 0xA5 → ∃ t, exec (.mgrReset key) s = .next t ∧ t.fld.sq F_SPI_EVT 3 = true ∧ t.fld.spi.badLast = true ∧
        FieldFrame [F_SPI_EVT, F_SPI_EVT_INFO, F_SPI_SLAVE, F_CFG_PROOF_STAT] { s.fld with spi := t.fld.spi, cfg := t.fld.cfg } s t) ∧
      (key = 0xA5 → s.fld.phase = .running → s.fld.spi.staged = none →
        ∃ t, exec (.mgrReset key) s = .next t ∧ t.fld.sq F_SPI_EVT 2 = true ∧ t.fld.staged = s.fld.staged.filter (fun e => e.1 != 0x40) ∧
          (∀ n, n < 32 → lockState s.fld n = 1 → s.fld.get (F_CFG_LOCK_owner n) = 0x40 → lockState t.fld n = 2) ∧
          (∀ n, n < 32 → s.fld.get (F_CFG_LOCK_owner n) ≠ 0x40 → lockState t.fld n = lockState s.fld n) ∧
          t.fld.window = Store.clear (fun o => decide (o < 0x800)) s.fld.window ∧ FieldOnly s t)) ∧
    (∀ s : State, s.fld.phase = .running → s.fld.get F_SPI_CTRL_role = 1 → s.fld.get F_SPI_MGR_mgr_to_ms ≠ 0 → s.fld.spi.timedOut = false →
      s.fld.spi.lastCmdTick + s.fld.get F_SPI_MGR_mgr_to_ms * msTicks ≤ s.fld.now →
      ∃ t, exec .managerTimeout s = .next t ∧ t.fld.sq F_SPI_EVT 2 = true ∧ t.fld.spi.timedOut = true ∧
        t.fld.staged = s.fld.staged.filter (fun e => e.1 != 0x40) ∧
        t.fld.window = Store.clear (fun o => decide (o < 0x800)) s.fld.window ∧ FieldOnly s t) ∧
    (∀ (s : State) (cmd addr : Nat), slaveOn s.fld = true →
      (256 ≤ cmd ∨ ((cmd = 0x0B ∨ cmd = 0x02 ∨ cmd = 0x99) ∧ s.fld.phase = .running) →
        ∃ t, exec (.spiSelAbort cmd addr) s = .next t ∧ t.fld.sq F_SPI_EVT 1 = true ∧
          t.fld.get F_SPI_ABORTS_aborts = (s.fld.get F_SPI_ABORTS_aborts + 1) % 2 ^ 32 ∧
          FieldFrame [F_SPI_EVT, F_SPI_EVT_INFO, F_SPI_ABORTS, F_SPI_SLAVE, F_CFG_PROOF_STAT]
            { s.fld with spi := t.fld.spi, cfg := t.fld.cfg } s t) ∧
      (cmd = 0x05 ∨ cmd = 0x9F → s.fld.spi.staged = none → ∃ t, exec (.spiSelAbort cmd addr) s = .next t ∧ FieldFrame [] s.fld s t)) ∧
    (∀ (s : State) (req : Nat) (data : Word), s.fld.canWrite req = true → lkDenied s.fld req F_SPI_CTRL = false →
      (bitOf data.toNat 31 ≠ s.fld.get F_SPI_CTRL_role → req ≠ 0x40 → s.fld.spi.flash = 0 →
        ∃ t, exec (.spiRoleWrite req data) s = .next t ∧ t.fld.get F_SPI_CTRL_role = bitOf data.toNat 31 ∧
          (s.fld.get F_SPI_CTRL_role = 1 → t.fld.sq F_SPI_EVT 2 = true) ∧ FieldOnly s t) ∧
      (bitOf data.toNat 31 ≠ s.fld.get F_SPI_CTRL_role → s.fld.spi.flash ≠ 0 →
        ∃ t, exec (.spiRoleWrite req data) s = .next t ∧ t.fld.get F_SPI_CTRL_role = s.fld.get F_SPI_CTRL_role ∧
          t.fld.sq F_SPI_EVT 5 = true ∧ FieldOnly s t)) ∧
    (∀ (s : State) (req : Nat) (data : Word), s.fld.canWrite req = true →
      ∃ t, exec (.spiSlaveWrite req data) s = .next t ∧
        (laneCodeBad data.toNat = true → t.fld.sq F_SPI_EVT 3 = true ∧ FieldFrame [F_SPI_EVT] s.fld s t) ∧
        (laneCodeBad data.toNat = false → FieldFrame [] { s.fld with spi := { s.fld.spi with staged := some (word data.toNat) } } s t)) ∧
    (∀ (s : State) (k o : Nat) (data : Word), s.fld.phase = .running → k < 16 → (o = 0x10 ∨ o = 0x14 ∨ o = 0x18) →
      ∃ t, exec (.windowDoorbell (0xF00000 + 0x40 * k + o) data) s = .next t ∧
        (bitsOf (winCtrl s.fld k) 31 29 = 0 → FieldFrame [] s.fld s t) ∧
        (o = 0x10 → bitsOf (winCtrl s.fld k) 31 29 = 4 → judgeTail data.toNat (winWord s.fld (pairOff k 0x10)) (winWord s.fld (pairOff k 0x1C))
          (winTxSize s.fld k) = .accept → FieldFrame [] (setWin (pairOff k 0x10) data.toNat s.fld) s t) ∧
        (o = 0x14 → bitsOf (winCtrl s.fld k) 31 29 = 3 → judgeTail data.toNat (winWord s.fld (pairOff k 0x14)) (winWord s.fld (pairOff k 0x20))
          (winRxSize s.fld k) = .accept → FieldFrame [] (setWin (pairOff k 0x14) data.toNat s.fld) s t) ∧
        (o = 0x18 → bitsOf (winCtrl s.fld k) 31 29 = 3 → judgeHead data.toNat (winWord s.fld (pairOff k 0x18)) (winWord s.fld (pairOff k 0x24)) =
          .accept → FieldFrame [] (setWin (pairOff k 0x18) data.toNat s.fld) s t) ∧ FieldOnly s t)

/-- A write of pin outputs changes the pins that its requester may change and reports the others. A pin's configuration
takes any owner that exists; the alternative function is refused from pin 13. An edge sets the pin's level and, where
selected, its event, at either die. A pair whose channels have differed for the count in force latches its fault and
is forced to DEMAND. A pair's action registers are stored. The moderation of a window pair sets its pending bit.
(R707, R719, R761, R762, R763, R764, R771, R773, R774, R777, R780, R787) -/
def Obligations.PinsAndPairs : Prop :=
    (∀ (s : State) (req off : Nat) (data : Word), s.fld.canWrite req = true → (off = 0x10 ∨ off = 0x14 ∨ off = 0x18 ∨ off = 0x1C) →
      ∃ t, exec (.pinOutWrite req off data) s = .next t ∧
        (∀ n, 4 ≤ n → n < 24 → hasBit (t.fld.rdN F_PIN_OUT) n =
          (if pinAllowed s.fld req n then hasBit (pinProposal off (s.fld.rdN F_PIN_OUT) data.toNat) n else hasBit (s.fld.rdN F_PIN_OUT) n)) ∧
        (∀ n, 4 ≤ n → n < 24 → pinAllowed s.fld req n = false → hasBit (pinNamed off (s.fld.rdN F_PIN_OUT) data.toNat) n = true →
          t.fld.sq F_PIN_EVT 4 = true ∧ t.fld.rdN F_PIN_REJ = (s.fld.rdN F_PIN_REJ + 1) % 2 ^ 32) ∧
        ((∀ n, n < 24 → pinAllowed s.fld req n = true) → FieldFrame [F_PIN_OUT] s.fld s t) ∧
        FieldFrame [F_PIN_OUT, F_PIN_REJ, F_PIN_EVT, F_PIN_EVT_INFO] s.fld s t) ∧
    (∀ (s : State) (req n : Nat) (data : Word), s.fld.canWrite req = true → 4 ≤ n → n < 24 →
      ((13 ≤ n ∧ hasBit data.toNat 7 = true) ∨ ownerOk (bitsOf data.toNat 31 24) = false →
        ∃ t, exec (.pinCfgWrite req n data) s = .next t ∧ t.fld.sq F_PIN_EVT 4 = true ∧ t.fld.get F_PIN_EVT_INFO_pin = n ∧
          FieldFrame [F_PIN_EVT, F_PIN_EVT_INFO] s.fld s t) ∧
      ((n < 13 ∨ hasBit data.toNat 7 = false) → ownerOk (bitsOf data.toNat 31 24) = true → lkDenied s.fld req (F_PIN_CFG n) = false →
        ∃ t, exec (.pinCfgWrite req n data) s = .next t ∧ t.fld.get (F_PIN_CFG_owner n) = bitsOf data.toNat 31 24 ∧
          t.fld.flag (F_PIN_CFG_func n) = hasBit data.toNat 7 ∧
          t.fld.get (F_PIN_CFG_edge n) = (if n < 8 then 0 else bitsOf data.toNat 6 5) ∧
          FieldFrame [F_PIN_CFG n, F_CFG_PROOF_STAT] { s.fld with cfg := t.fld.cfg } s t)) ∧
    (∀ (s : State) (n : Nat) (rising : Bool), s.fld.phase = .running → 4 ≤ n → n < 24 →
      ∃ t, exec (.pinEdge n rising) s = .next t ∧ hasBit t.fld.pin.pads n = rising ∧
        (8 ≤ n → edgeSelected (s.fld.get (F_PIN_CFG_edge n)) rising = true → t.fld.sq F_PIN_EDGE (n - 8) = true ∧
          t.fld.get F_PIN_EVT_INFO_pin = n) ∧
        ((n < 8 ∨ edgeSelected (s.fld.get (F_PIN_CFG_edge n)) rising = false) → FieldFrame [] { s.fld with pin := t.fld.pin } s t) ∧
        FieldFrame [F_PIN_EDGE, F_PIN_EVT_INFO] { s.fld with pin := { s.fld.pin with pads := t.fld.pin.pads } } s t) ∧
    (∀ (s : State) (n : Nat) (rising : Bool), s.hst.inReset = false → n < 16 →
      ∃ t, exec (.hostPinEdge n rising) s = .next t ∧ hasBit (t.hst.rdN H_PIN_IN) n = rising ∧
        (edgeSelected (bitsOf (s.hst.rdN H_PIN_EDGE_CFG) (2 * n + 1) (2 * n)) rising = true → hasBit (t.hst.rdN H_PIN_EVT) n = true) ∧
        (edgeSelected (bitsOf (s.hst.rdN H_PIN_EDGE_CFG) (2 * n + 1) (2 * n)) rising = false → HostFrame [H_PIN_IN] s.hst s t) ∧
        HostFrame [H_PIN_IN, H_PIN_EVT] s.hst s t) ∧
    (∀ (s : State) (p : Nat), p < 2 → s.fld.pwr.vddSl = true → s.fld.powered = true →
      s.fld.flag (F_PIN_PAIR_STAT_disc_fault p) = false → effDisc s.fld p ≤ s.fld.get (F_PIN_PAIR_STAT_run p) →
      ∃ t, exec (.discrepancyFault p) s = .next t ∧ t.fld.flag (F_PIN_PAIR_STAT_disc_fault p) = true ∧
        t.fld.get (F_PIN_PAIR_STAT_state p) = 0 ∧ t.fld.sq F_PIN_EVT (2 + p) = true ∧ t.fld.sq F_FLT_EVT (10 + p) = true ∧
        (s.fld.get (F_PIN_PAIR_STAT_state p) ≠ 0 → t.fld.sq F_PIN_EVT p = true) ∧
        (s.fld.get (F_PIN_PAIR_GATE_ports p), s.fld.get (F_PIN_PAIR_GATE_queues p)) ∈ t.fld.pin.gateStop ∧ FieldOnly s t) ∧
    (∀ (s : State) (req p : Nat) (act : Bool) (data : Word), s.fld.canWrite req = true → p < 2 →
      lkDenied s.fld req (if act then F_PIN_PAIR_ACT p else F_PIN_PAIR_GATE p) = false →
      ∃ t, exec (.pairActionWrite req p act data) s = .next t ∧
        (act = false → t.fld.get (F_PIN_PAIR_GATE_queues p) = bitsOf data.toNat 7 0 ∧
          t.fld.get (F_PIN_PAIR_GATE_ports p) = bitsOf data.toNat 24 8) ∧
        (act = true → t.fld.get (F_PIN_PAIR_ACT_shut_off p) = bitsOf data.toNat 3 0 ∧
          t.fld.get (F_PIN_PAIR_ACT_out_force p) = bitsOf data.toNat 23 4) ∧
        FieldFrame [if act then F_PIN_PAIR_ACT p else F_PIN_PAIR_GATE p, F_CFG_PROOF_STAT] { s.fld with cfg := t.fld.cfg } s t) ∧
    (∀ (s : State) (k cause : Nat), s.fld.phase = .running → k < 16 → winModFires s.fld k cause = true →
      ∃ t, exec (.interruptModeration (4096 + k) cause) s = .next t ∧ hasBit (winWord t.fld 0x408) k = true ∧
        (t.fld.winModer k).count = 0 ∧ FieldFrame [] { s.fld with window := t.fld.window, winMod := t.fld.winMod } s t)

/-- A snapshot of a group copies its counters as they stand; a second one while it runs, or an undefined group, is
ignored; when it is done the bank's view of that group is what was copied and snap_no advances. A scrub pass in RUN
counts itself and corrects a single-bit error of a table word; a double-bit error latches its fault. A table-engine
instance that makes no step latches its fault and rests. A state-table commit checks the admin table; the check
installs it where it passes, or was forced, and otherwise reports why. (R280, R798, R799, R800, R804, R815, R816,
R818, R819, R830, R831, R832) -/
def Obligations.CountersTablesAndWatchdog : Prop :=
    (∀ (s : State) (req : Nat) (data : Word), s.fld.canWrite req = true → req ≤ 0x40 →
      ∃ t, exec (.counterSnapshot req data) s = .next t ∧
        ((bankOf s.fld req).copying = none → groupRange (bitsOf data.toNat 15 0) ≠ none →
          (bankOf t.fld req).copying = some (s.fld.cnt.filter (fun e => inGroup (bitsOf data.toNat 15 0) e.1), bitsOf data.toNat 15 0) ∧
          (bankOf t.fld req).view = (bankOf s.fld req).view ∧ (bankOf t.fld req).num = (bankOf s.fld req).num) ∧
        ((bankOf s.fld req).copying ≠ none ∨ groupRange (bitsOf data.toNat 15 0) = none → bankOf t.fld req = bankOf s.fld req) ∧
        FieldFrame [] (if req = 0x40 then { s.fld with snapSerial := t.fld.snapSerial } else { s.fld with snapHost := t.fld.snapHost }) s t) ∧
    (∀ (s : State) (serial : Bool) (vals : List (Nat × Nat)) (g : Nat), s.fld.phase = .running →
      (if serial then s.fld.snapSerial else s.fld.snapHost).copying = some (vals, g) →
      ∃ t, exec (.snapshotDone serial) s = .next t ∧
        (if serial then t.fld.snapSerial else t.fld.snapHost).copying = none ∧
        (if serial then t.fld.snapSerial else t.fld.snapHost).num = ((if serial then s.fld.snapSerial else s.fld.snapHost).num + 1) % 2 ^ 15 ∧
        (∀ a, inGroup g a = false → vals.all (fun e => e.1 != a) = true →
          Store.get (fun _ => 0) (if serial then t.fld.snapSerial else t.fld.snapHost).view a =
            Store.get (fun _ => 0) (if serial then s.fld.snapSerial else s.fld.snapHost).view a) ∧
        FieldFrame [] (if serial then { s.fld with snapSerial := t.fld.snapSerial } else { s.fld with snapHost := t.fld.snapHost }) s t) ∧
    (∀ s : State, s.fld.phase = .running →
      (powerState s.fld ≠ 0 → ∃ t, exec .scrubPass s = .next t ∧ FieldFrame [] s.fld s t) ∧
      (powerState s.fld = 0 → s.fld.flt.badWords = [] → ∃ t, exec .scrubPass s = .next t ∧
        t.fld.get F_FLT_SCRUB_passes = (s.fld.get F_FLT_SCRUB_passes + 1) % 2 ^ 32 ∧ FieldFrame [F_FLT_SCRUB] s.fld s t)) ∧
    (∀ (s : State) (a m : Nat), s.fld.phase = .running → powerState s.fld = 0 → s.fld.flt.badWords = [(a, m)] →
      (0 < m → m ≠ 3 →
        ∃ t, exec .scrubPass s = .next t ∧ t.fld.flt.badWords = [] ∧ t.fld.rdN F_FLT_TBL_CORR = (s.fld.rdN F_FLT_TBL_CORR + 1) % 2 ^ 32 ∧
          FieldFrame [F_FLT_SCRUB, F_FLT_TBL_CORR] { s.fld with flt := { s.fld.flt with badWords := [] } } s t) ∧
      (m = 3 → (tblRow a).isSome = true →
        ∃ t, exec .scrubPass s = .next t ∧ t.fld.flt.badWords = [] ∧ t.fld.sq F_FLT_EVT 1 = true ∧
          t.pending = s.pending ∧ t.hst = s.hst ∧ t.flash = s.flash ∧ (keyStill s.fld = true → t.key.mem = s.key.mem))) ∧
    (∀ (s : State) (k : Nat), s.fld.phase = .running → k < 19 →
      ∃ t, exec (.watchdog k) s = .next t ∧ t.fld.sq F_FLT_EVT 8 = true ∧
        (k < 16 → s.fld.engineRuns k = true → Shape s → s.fld.flag (F_PORT_MODE_enable k) = false → portState t.fld k = 0) ∧
        (k < 16 → s.fld.engineRuns k = true → Shape s → s.fld.flag (F_PORT_MODE_enable k) = true → portState t.fld k = 2) ∧
        (k = 16 → t.fld.key.op = 0) ∧ (k = 18 → powerState s.fld ≠ 2 → powerState t.fld = 0) ∧
        (∀ n, n < 32 → lockState s.fld n = 1 → s.fld.get (F_CFG_LOCK_owner n) = 0x41 → lockState t.fld n = 2) ∧
        t.pending = s.pending ∧ t.hst = s.hst ∧ t.flash = s.flash ∧ (keyStill s.fld = true → t.key.mem = s.key.mem)) ∧
    (∀ (s : State) (req : Nat) (data : Word), s.fld.canWrite req = true → hasBit data.toNat 31 = true → s.fld.flag F_FLT_ST_STAT_busy = false →
      ∃ t, exec (.stateTableCommit req data) s = .next t ∧ t.fld.flag F_FLT_ST_STAT_busy = true ∧
        t.fld.get F_FLT_ST_STAT_machine = bitsOf data.toNat 1 0 ∧
        FieldFrame [F_FLT_ST_STAT] { s.fld with flt := { s.fld.flt with stChecking := some (bitsOf data.toNat 1 0, hasBit data.toNat 30) } } s t) ∧
    (∀ (s : State) (m : Nat) (force : Bool), s.fld.phase = .running → s.fld.flt.stChecking = some (m, force) → m < 4 →
      ∃ t, exec .stateTableCheckDone s = .next t ∧ t.fld.flag F_FLT_ST_STAT_busy = false ∧
        t.fld.get F_FLT_ST_STAT_result = checkResult s.fld m force ∧ t.fld.flt.stChecking = none ∧
        (checkResult s.fld m force = 0 ∨ checkResult s.fld m force = 6 →
          hasBit (t.fld.get F_FLT_ST_STAT_unchecked) m = decide (checkResult s.fld m force = 6) ∧
          (∀ st w, st < 32 → w < 16 → t.fld.rd (operTblAddr m st w) = s.fld.rd (adminTblAddr m st w)) ∧
          FieldFrame (F_FLT_ST_STAT :: (List.range 32).flatMap (fun st => (List.range 16).map (operTblAddr m st)))
            { s.fld with flt := { s.fld.flt with stChecking := none, badWords := t.fld.flt.badWords } } s t) ∧
        (checkResult s.fld m force ≠ 0 → checkResult s.fld m force ≠ 6 → t.fld.sq F_FLT_EVT2 1 = true ∧
          FieldFrame [F_FLT_ST_STAT] { s.fld with flt := { s.fld.flt with stChecking := none } } s t))

/-- A die is armed with its key by one requester, whose lifetime starts; anyone else's write of the block is turned away
with an event. A held control takes its value, and its bit of F_PTB_ACTIVE follows; it acts on its queue, link, count
or instance. A one-shot control puts its error where it names, or reports that nothing is there; of a triplicated field the
voted value is in use from then on, and a setting that would not make all three copies differ is refused. A held queue is let
go after hold_ms. Disarming, and the end of the lifetime, return every control to its reset value. The host die has
the same arming and lifetime, and its own lane, ACK, memory and DMA controls. (R262, R834, R835, R836, R839, R840, R841) -/
def Obligations.PerturbationForTest : Prop :=
    (∀ (s : State) (req : Nat) (data : Word), s.fld.canWrite req = true → req < 256 →
      (s.fld.flag F_PTB_ARM_armed = false ∨ ptbOwned s.fld req = true → bitsOf data.toNat 31 16 = 0xD0B0 →
        ∃ t, exec (.ptbArm false req data) s = .next t ∧ ptbOwned t.fld req = true ∧ t.fld.ptb.lifeFrom = s.fld.now ∧
          FieldFrame [F_PTB_ARM] { s.fld with ptb := { s.fld.ptb with lifeFrom := s.fld.now } } s t) ∧
      (ptbOwned s.fld req = true → bitsOf data.toNat 31 16 = 0 →
        ∃ t, exec (.ptbArm false req data) s = .next t ∧ t.fld.flag F_PTB_ARM_armed = false ∧ t.fld.sq F_PTB_EVT 1 = true ∧
          (∀ c ∈ heldControls, t.fld.rdN c.1 = 0) ∧ t.fld.rdN F_PTB_ACTIVE = 0 ∧ FieldOnly s t) ∧
      (s.fld.flag F_PTB_ARM_armed = true → ptbOwned s.fld req = false →
        ∃ t, exec (.ptbArm false req data) s = .next t ∧ t.fld.sq F_PTB_EVT 0 = true ∧ FieldFrame [F_PTB_EVT, F_PTB_EVT_INFO] s.fld s t)) ∧
    (∀ (s : State) (req : Nat) (data : Word), s.fld.canWrite req = true → req < 256 →
      (ptbOwned s.fld req = false → ∃ t, exec (.ptbDelay req data) s = .next t ∧ t.fld.sq F_PTB_EVT 0 = true ∧
        t.fld.get F_PTB_EVT_INFO_requester = req ∧ FieldFrame [F_PTB_EVT, F_PTB_EVT_INFO] s.fld s t) ∧
      (ptbOwned s.fld req = true → ∃ t, exec (.ptbDelay req data) s = .next t ∧ t.fld.get F_PTB_DELAY_queues = bitsOf data.toNat 31 24 ∧ t.fld.get F_PTB_DELAY_port = bitsOf data.toNat 20 16 ∧ t.fld.get F_PTB_DELAY_delay = bitsOf data.toNat 15 0 ∧
        hasBit (t.fld.rdN F_PTB_ACTIVE) 0 = (t.fld.rd F_PTB_DELAY != fieldDefault F_PTB_DELAY) ∧
        FieldFrame [F_PTB_DELAY, F_PTB_ACTIVE] s.fld s t)) ∧
    (∀ (s : State) (req : Nat) (data : Word), s.fld.canWrite req = true → req < 256 →
      (ptbOwned s.fld req = false → ∃ t, exec (.ptbHold req data) s = .next t ∧ t.fld.sq F_PTB_EVT 0 = true ∧
        t.fld.get F_PTB_EVT_INFO_requester = req ∧ FieldFrame [F_PTB_EVT, F_PTB_EVT_INFO] s.fld s t) ∧
      (ptbOwned s.fld req = true → ∃ t, exec (.ptbHold req data) s = .next t ∧ t.fld.get F_PTB_HOLD_queues = bitsOf data.toNat 31 24 ∧ t.fld.get F_PTB_HOLD_port = bitsOf data.toNat 20 16 ∧ t.fld.get F_PTB_HOLD_hold_ms = bitsOf data.toNat 15 0 ∧
        hasBit (t.fld.rdN F_PTB_ACTIVE) 1 = (t.fld.rd F_PTB_HOLD != fieldDefault F_PTB_HOLD) ∧
        FieldFrame [F_PTB_HOLD, F_PTB_ACTIVE] { s.fld with ptb := { s.fld.ptb with holdUntil := s.fld.now + bitsOf data.toNat 15 0 * msTicks } } s t)) ∧
    (∀ (s : State) (req : Nat) (data : Word), s.fld.canWrite req = true → req < 256 →
      (ptbOwned s.fld req = false → ∃ t, exec (.ptbSkew req data) s = .next t ∧ t.fld.sq F_PTB_EVT 0 = true ∧
        t.fld.get F_PTB_EVT_INFO_requester = req ∧ FieldFrame [F_PTB_EVT, F_PTB_EVT_INFO] s.fld s t) ∧
      (ptbOwned s.fld req = true → ∃ t, exec (.ptbSkew req data) s = .next t ∧ t.fld.get F_PTB_SKEW_sl_skew = bitsOf data.toNat 31 16 ∧
        hasBit (t.fld.rdN F_PTB_ACTIVE) 4 = (t.fld.rd F_PTB_SKEW != fieldDefault F_PTB_SKEW) ∧
        FieldFrame [F_PTB_SKEW, F_PTB_ACTIVE] s.fld s t)) ∧
    (∀ (s : State) (req : Nat) (data : Word), s.fld.canWrite req = true → req < 256 →
      (ptbOwned s.fld req = false → ∃ t, exec (.ptbXc req data) s = .next t ∧ t.fld.sq F_PTB_EVT 0 = true ∧
        t.fld.get F_PTB_EVT_INFO_requester = req ∧ FieldFrame [F_PTB_EVT, F_PTB_EVT_INFO] s.fld s t) ∧
      (ptbOwned s.fld req = true → ∃ t, exec (.ptbXc req data) s = .next t ∧ t.fld.rd F_PTB_XC = data ∧
        hasBit (t.fld.rdN F_PTB_ACTIVE) 5 = (t.fld.rd F_PTB_XC != fieldDefault F_PTB_XC) ∧
        FieldFrame [F_PTB_XC, F_PTB_ACTIVE] s.fld s t)) ∧
    (∀ (s : State) (req : Nat) (data : Word), s.fld.canWrite req = true → req < 256 →
      (ptbOwned s.fld req = false → ∃ t, exec (.ptbProof req data) s = .next t ∧ t.fld.sq F_PTB_EVT 0 = true ∧
        t.fld.get F_PTB_EVT_INFO_requester = req ∧ FieldFrame [F_PTB_EVT, F_PTB_EVT_INFO] s.fld s t) ∧
      (ptbOwned s.fld req = true → ∃ t, exec (.ptbProof req data) s = .next t ∧ t.fld.rd F_PTB_PROOF = data ∧
        hasBit (t.fld.rdN F_PTB_ACTIVE) 6 = (t.fld.rd F_PTB_PROOF != fieldDefault F_PTB_PROOF) ∧
        FieldFrame [F_PTB_PROOF, F_PTB_ACTIVE] s.fld s t)) ∧
    (∀ (s : State) (req : Nat) (data : Word), s.fld.canWrite req = true → req < 256 →
      (ptbOwned s.fld req = false → ∃ t, exec (.ptbPair req data) s = .next t ∧ t.fld.sq F_PTB_EVT 0 = true ∧
        t.fld.get F_PTB_EVT_INFO_requester = req ∧ FieldFrame [F_PTB_EVT, F_PTB_EVT_INFO] s.fld s t) ∧
      (ptbOwned s.fld req = true → ∃ t, exec (.ptbPair req data) s = .next t ∧ t.fld.get F_PTB_PAIR_pairs = bitsOf data.toNat 17 16 ∧ t.fld.get F_PTB_PAIR_eff_disc = bitsOf data.toNat 15 0 ∧
        hasBit (t.fld.rdN F_PTB_ACTIVE) 7 = (t.fld.rd F_PTB_PAIR != fieldDefault F_PTB_PAIR) ∧
        FieldFrame [F_PTB_PAIR, F_PTB_ACTIVE] s.fld s t)) ∧
    (∀ (s : State) (req : Nat) (data : Word), s.fld.canWrite req = true → req < 256 →
      (ptbOwned s.fld req = false → ∃ t, exec (.ptbAck false req data) s = .next t ∧ t.fld.sq F_PTB_EVT 0 = true ∧
        t.fld.get F_PTB_EVT_INFO_requester = req ∧ FieldFrame [F_PTB_EVT, F_PTB_EVT_INFO] s.fld s t) ∧
      (ptbOwned s.fld req = true → ∃ t, exec (.ptbAck false req data) s = .next t ∧ t.fld.xng.ackAmnesty = (if bitsOf data.toNat 31 30 = 0 then bitsOf data.toNat 7 0 else 0) ∧
        t.fld.twin.ackAmnesty = (if bitsOf data.toNat 31 30 = 1 then bitsOf data.toNat 7 0 else 0) ∧
        hasBit (t.fld.rdN F_PTB_ACTIVE) 3 = (t.fld.rd F_PTB_ACK != fieldDefault F_PTB_ACK) ∧
        FieldFrame [F_PTB_ACK, F_PTB_ACTIVE] s.fld s t)) ∧
    (∀ (s : State) (req : Nat) (data : Word), s.fld.canWrite req = true → req < 256 →
      (ptbOwned s.fld req = false → ∃ t, exec (.ptbWdog req data) s = .next t ∧ t.fld.sq F_PTB_EVT 0 = true ∧
        t.fld.get F_PTB_EVT_INFO_requester = req ∧ FieldFrame [F_PTB_EVT, F_PTB_EVT_INFO] s.fld s t) ∧
      (ptbOwned s.fld req = true → ∃ t, exec (.ptbWdog req data) s = .next t ∧ t.fld.flt.stopped = (if hasBit data.toNat 31 then [bitsOf data.toNat 4 0] else []) ∧
        hasBit (t.fld.rdN F_PTB_ACTIVE) 11 = (t.fld.rd F_PTB_WDOG != fieldDefault F_PTB_WDOG) ∧
        FieldFrame [F_PTB_WDOG, F_PTB_ACTIVE] { s.fld with flt := { s.fld.flt with stopped := t.fld.flt.stopped } } s t)) ∧
    (∀ (s : State) (req : Nat) (data : Word) (who : LinkId), s.fld.canWrite req = true → req < 256 →
      (ptbOwned s.fld req = false → ∃ t, exec (.ptbLane false req data) s = .next t ∧ t.fld.sq F_PTB_EVT 0 = true ∧
        t.fld.get F_PTB_EVT_INFO_requester = req ∧ FieldFrame [F_PTB_EVT, F_PTB_EVT_INFO] s.fld s t) ∧
      (ptbOwned s.fld req = true → ptbLink s.fld (bitsOf data.toNat 31 30) = some who → bitsOf data.toNat 17 16 = 1 →
        ∃ t, exec (.ptbLane false req data) s = .next t ∧ hasBit (t.fld.rdN F_PTB_ACTIVE) 2 = false ∧
          (hasBit data.toNat 29 = false → (t.linkEnd who).corruptRx = true) ∧
          FieldFrame [F_PTB_LANE, F_PTB_ACTIVE] s.fld s t) ∧
      (ptbOwned s.fld req = true → ptbLink s.fld (bitsOf data.toNat 31 30) = none → bitsOf data.toNat 17 16 = 1 →
        ∃ t, exec (.ptbLane false req data) s = .next t ∧ t.fld.sq F_PTB_EVT 2 = true ∧
          FieldFrame [F_PTB_LANE, F_PTB_ACTIVE, F_PTB_EVT] s.fld s t) ∧
      (ptbOwned s.fld req = true → (bitsOf data.toNat 17 16 = 0 ∨ hasBit data.toNat 29 = true ∧ bitsOf data.toNat 17 16 ≠ 1) →
        ∃ t, exec (.ptbLane false req data) s = .next t ∧ t.fld.get F_PTB_LANE_mode = bitsOf data.toNat 17 16 ∧
          t.fld.get F_PTB_LANE_lane = bitsOf data.toNat 26 24 ∧
          hasBit (t.fld.rdN F_PTB_ACTIVE) 2 = (t.fld.rd F_PTB_LANE != fieldDefault F_PTB_LANE) ∧
          FieldFrame [F_PTB_LANE, F_PTB_ACTIVE] s.fld s t)) ∧
    (∀ (s : State) (req : Nat) (data : Word), s.fld.canWrite req = true → req < 256 →
      (ptbOwned s.fld req = false → ∃ t, exec (.ptbEcc false req data) s = .next t ∧ t.fld.sq F_PTB_EVT 0 = true ∧
        t.fld.get F_PTB_EVT_INFO_requester = req ∧ FieldFrame [F_PTB_EVT, F_PTB_EVT_INFO] s.fld s t) ∧
      (ptbOwned s.fld req = true → hasBit data.toNat 31 = true → bitsOf data.toNat 29 28 = 1 →
        ((tblRow (bitsOf data.toNat 23 0)).isSome = true →
          ∃ t, exec (.ptbEcc false req data) s = .next t ∧
            Store.get (fun _ => 0) t.fld.flt.badWords (bitsOf data.toNat 23 0 / 4 * 4) =
              Nat.xor (Store.get (fun _ => 0) s.fld.flt.badWords (bitsOf data.toNat 23 0 / 4 * 4)) (if hasBit data.toNat 30 then 3 else 1) ∧
            FieldFrame [F_PTB_ECC] { s.fld with flt := { s.fld.flt with badWords := t.fld.flt.badWords } } s t) ∧
        ((tblRow (bitsOf data.toNat 23 0)).isSome = false →
          ∃ t, exec (.ptbEcc false req data) s = .next t ∧ t.fld.sq F_PTB_EVT 2 = true ∧ FieldFrame [F_PTB_ECC, F_PTB_EVT] s.fld s t)) ∧
      (ptbOwned s.fld req = true → hasBit data.toNat 31 = true → bitsOf data.toNat 29 28 = 0 → bitsOf data.toNat 23 0 < 16384 →
        ∃ t, exec (.ptbEcc false req data) s = .next t ∧
          FieldFrame [F_PTB_ECC] { s.fld with flt := { s.fld.flt with badCells := t.fld.flt.badCells } } s t)) ∧
    (∀ (s : State) (req c : Nat) (data : Word), s.fld.canWrite req = true → req < 256 →
      (ptbOwned s.fld req = false → ∃ t, exec (.ptbTmr req data) s = .next t ∧ t.fld.sq F_PTB_EVT 0 = true ∧
        t.fld.get F_PTB_EVT_INFO_requester = req ∧ FieldFrame [F_PTB_EVT, F_PTB_EVT_INFO] s.fld s t) ∧
      (ptbOwned s.fld req = true → hasBit data.toNat 31 = true → bitsOf data.toNat 30 29 = 1 → bitsOf data.toNat 21 16 < 43 →
        bitsOf data.toNat 28 27 = c → c < 3 → s.fld.cfg.tmr.any (fun e => e.1 == bitsOf data.toNat 21 16) = false →
        ∃ t, exec (.ptbTmr req data) s = .next t ∧
          tmrCopy t.fld (bitsOf data.toNat 21 16) c = Nat.xor (tmrCopy s.fld (bitsOf data.toNat 21 16) c)
            (spreadMask (tmrMask (tmrReg (bitsOf data.toNat 21 16))) (bitsOf data.toNat 15 0) 32 0) ∧
          (∀ i k, i ≠ bitsOf data.toNat 21 16 ∨ k ≠ c → tmrCopy t.fld i k = tmrCopy s.fld i k) ∧
          FieldFrame [F_PTB_TMR] { s.fld with cfg := { s.fld.cfg with tmr := t.fld.cfg.tmr } } s t) ∧
      (ptbOwned s.fld req = true → Shape s → hasBit data.toNat 31 = true → bitsOf data.toNat 30 29 = 1 → bitsOf data.toNat 21 16 < 43 →
        bitsOf data.toNat 28 27 = c → c < 3 →
        ∃ t, exec (.ptbTmr req data) s = .next t ∧
          Nat.land (t.fld.rdN (tmrReg (bitsOf data.toNat 21 16))) (tmrMask (tmrReg (bitsOf data.toNat 21 16))) =
            Nat.land (votedCopies (bitsOf data.toNat 21 16) (fun k => Nat.xor (tmrCopy s.fld (bitsOf data.toNat 21 16) k)
              (if k = c then spreadMask (tmrMask (tmrReg (bitsOf data.toNat 21 16))) (bitsOf data.toNat 15 0) 32 0 else 0)))
              (tmrMask (tmrReg (bitsOf data.toNat 21 16))) ∧ FieldOnly s t) ∧
      (ptbOwned s.fld req = true → hasBit data.toNat 31 = true → bitsOf data.toNat 30 29 = 2 → bitsOf data.toNat 21 16 < 43 →
        (spreadMask (tmrMask (tmrReg (bitsOf data.toNat 21 16))) (bitsOf data.toNat 15 0) 32 0 = 0 ∨ bitsOf data.toNat 15 0 = 0xFFFF) →
        ∃ t, exec (.ptbTmr req data) s = .next t ∧ t.fld.sq F_PTB_EVT 0 = true ∧ FieldFrame [F_PTB_EVT, F_PTB_EVT_INFO] s.fld s t) ∧
      (ptbOwned s.fld req = true → hasBit data.toNat 31 = true → bitsOf data.toNat 30 29 = 1 → 43 ≤ bitsOf data.toNat 21 16 →
        ∃ t, exec (.ptbTmr req data) s = .next t ∧ t.fld.sq F_PTB_EVT 2 = true ∧ FieldFrame [F_PTB_TMR, F_PTB_EVT] s.fld s t)) ∧
    (∀ (s : State) (req : Nat) (data : Word), s.fld.canWrite req = true → req < 256 →
      (ptbOwned s.fld req = false → ∃ t, exec (.ptbLock req data) s = .next t ∧ t.fld.sq F_PTB_EVT 0 = true ∧
        t.fld.get F_PTB_EVT_INFO_requester = req ∧ FieldFrame [F_PTB_EVT, F_PTB_EVT_INFO] s.fld s t) ∧
      (ptbOwned s.fld req = true → hasBit data.toNat 31 = true → lockState s.fld (bitsOf data.toNat 4 0) = 1 →
        ∃ t, exec (.ptbLock req data) s = .next t ∧ lockState t.fld (bitsOf data.toNat 4 0) = 2 ∧ t.fld.sq F_CFG_EVT 2 = true ∧
          FieldFrame [F_PTB_LOCK, F_CFG_LOCK (bitsOf data.toNat 4 0), F_CFG_EVT, F_CFG_EVT_INFO, F_PIN_OUT] s.fld s t) ∧
      (ptbOwned s.fld req = true → hasBit data.toNat 31 = true → lockState s.fld (bitsOf data.toNat 4 0) ≠ 1 →
        ∃ t, exec (.ptbLock req data) s = .next t ∧ t.fld.sq F_PTB_EVT 2 = true ∧ FieldFrame [F_PTB_LOCK, F_PTB_EVT] s.fld s t)) ∧
    (∀ s : State, s.fld.phase = .running → hasBit (s.fld.rdN F_PTB_ACTIVE) 1 = true → s.fld.ptb.holdUntil ≤ s.fld.now →
      ∃ t, exec .ptbHoldEnd s = .next t ∧ t.fld.rd F_PTB_HOLD = fieldDefault F_PTB_HOLD ∧ hasBit (t.fld.rdN F_PTB_ACTIVE) 1 = false ∧
        FieldFrame [F_PTB_HOLD, F_PTB_ACTIVE] s.fld s t) ∧
    (∀ s : State, s.fld.phase = .running → s.fld.flag F_PTB_ARM_armed = true →
      lifeOver s.fld.now s.fld.ptb.lifeFrom (s.fld.get F_PTB_LIFE_life_ms) = true →
      ∃ t, exec (.ptbLifetimeExpiry false) s = .next t ∧ t.fld.flag F_PTB_ARM_armed = false ∧ t.fld.sq F_PTB_EVT 1 = true ∧
        t.fld.get F_PTB_EVT_INFO_cause = 2 ∧ (∀ c ∈ heldControls, t.fld.rdN c.1 = 0) ∧ t.fld.rdN F_PTB_ACTIVE = 0 ∧ FieldOnly s t) ∧
    (∀ s : State, s.hst.inReset = false → s.hst.flag H_PTB_ARM_armed = true →
      lifeOver s.fld.now s.hst.ptb.lifeFrom (s.hst.get H_PTB_LIFE_life_ms) = true →
      ∃ t, exec (.ptbLifetimeExpiry true) s = .next t ∧ t.hst.flag H_PTB_ARM_armed = false ∧ hasBit (t.hst.rdN H_PTB_EVT) 1 = true ∧
        t.hst.get H_PTB_EVT_INFO_cause = 2 ∧ t.hst.rdN H_PTB_LANE = 0 ∧ t.hst.rdN H_PTB_DMA = 0 ∧ t.hst.ptb = {} ∧ HostOnly s t) ∧
    (∀ (s : State) (data : Word), s.hst.inReset = false →
      (s.hst.flag H_PTB_ARM_armed = false → bitsOf data.toNat 31 16 = 0xD0B0 →
        ∃ t, exec (.ptbArm true 0 data) s = .next t ∧ hostPtbOwned t.hst 0 = true ∧
          HostFrame [H_PTB_ARM] { s.hst with ptb := { s.hst.ptb with lifeFrom := s.fld.now } } s t) ∧
      (s.hst.flag H_PTB_ARM_armed = false →
        (∃ t, exec (.ptbLane true 0 data) s = .next t ∧ hasBit (t.hst.rdN H_PTB_EVT) 0 = true ∧ HostFrame [H_PTB_EVT, H_PTB_EVT_INFO] s.hst s t)) ∧
      (hostPtbOwned s.hst 0 = true →
        (∃ t, exec (.ptbAck true 0 data) s = .next t ∧ t.hst.xng.ackAmnesty = bitsOf data.toNat 7 0 ∧
          HostFrame [H_PTB_ACK] { s.hst with ptb := { s.hst.ptb with active := t.hst.ptb.active } } s t) ∧
        (∃ t, exec (.ptbDma 0 data) s = .next t ∧ t.hst.get H_PTB_DMA_us = bitsOf data.toNat 15 0 ∧
          t.hst.get H_PTB_DMA_function = bitsOf data.toNat 29 24 ∧
          HostFrame [H_PTB_DMA] { s.hst with ptb := { s.hst.ptb with active := t.hst.ptb.active } } s t) ∧
        (bitsOf data.toNat 17 16 = 1 → ∃ t, exec (.ptbLane true 0 data) s = .next t ∧
          (hasBit data.toNat 29 = false → t.hst.xng.corruptRx = true) ∧ hasBit t.hst.ptb.active 2 = false ∧
          HostFrame [H_PTB_LANE] { s.hst with ptb := { s.hst.ptb with active := t.hst.ptb.active } } s t) ∧
        (hasBit data.toNat 31 = true → hostPlaceUsed s.hst (bitsOf data.toNat 29 28) = false →
          ∃ t, exec (.ptbEcc true 0 data) s = .next t ∧ hasBit (t.hst.rdN H_PTB_EVT) 2 = true ∧ HostFrame [H_PTB_ECC, H_PTB_EVT] s.hst s t) ∧
        (hasBit data.toNat 31 = true → hostPlaceUsed s.hst (bitsOf data.toNat 29 28) = true → hasBit data.toNat 30 = false →
          ∃ t, exec (.ptbEcc true 0 data) s = .next t ∧ HostFrame [H_PTB_ECC, H_FLT_ECC_CNT] s.hst s t) ∧
        (hasBit data.toNat 31 = false →
          ∃ t, exec (.ptbEcc true 0 data) s = .next t ∧ HostFrame [H_PTB_ECC] s.hst s t)))
end

