-- ==== Sys2Proof/Laws/Bits.lean ====
section
/-! SUPPORT. Laws of the bit fields: what a field reads after it, or another field of the word, is replaced. -/

namespace Sys2Proof.Machine

theorem testBit_bitsOf (w hi lo i : Nat) : (bitsOf w hi lo).testBit i = (decide (i < hi + 1 - lo) && w.testBit (lo + i)) := by
  simp [bitsOf, Nat.testBit_mod_two_pow, Nat.testBit_shiftRight]

theorem bitsOf_lt (w hi lo : Nat) : bitsOf w hi lo < 2 ^ (hi + 1 - lo) := Nat.mod_lt _ (Nat.two_pow_pos _)

theorem putBits_eq (w hi lo v : Nat) :
    putBits w hi lo v =
      2 ^ lo * (2 ^ (hi + 1 - lo) * (w >>> lo >>> (hi + 1 - lo)) + v % 2 ^ (hi + 1 - lo)) + w % 2 ^ lo := by
  unfold putBits bitsOf
  generalize hi + 1 - lo = n
  simp only [Nat.shiftLeft_eq, Nat.shiftRight_eq_div_pow]
  have h1 := Nat.div_add_mod w (2 ^ lo)
  have h2 := Nat.div_add_mod (w / 2 ^ lo) (2 ^ n)
  generalize w / 2 ^ lo / 2 ^ n = q at *
  generalize w / 2 ^ lo % 2 ^ n = x at *
  generalize v % 2 ^ n = y
  generalize w % 2 ^ lo = r at *
  rw [← h2] at h1
  rw [← h1]
  have e1 : 2 ^ lo * (2 ^ n * q + x) = 2 ^ lo * (2 ^ n * q) + x * 2 ^ lo := by ring
  have e2 : 2 ^ lo * (2 ^ n * q + y) = 2 ^ lo * (2 ^ n * q) + y * 2 ^ lo := by ring
  rw [e1, e2]
  omega

theorem testBit_putBits (w hi lo v i : Nat) (h : lo ≤ hi) :
    (putBits w hi lo v).testBit i = if lo ≤ i ∧ i ≤ hi then v.testBit (i - lo) else w.testBit i := by
  rw [putBits_eq w hi lo v, Nat.testBit_two_pow_mul_add _ (Nat.mod_lt _ (Nat.two_pow_pos _))]
  by_cases h1 : i < lo
  · simp [h1, Nat.testBit_mod_two_pow, Nat.not_le.2 h1]
  · simp only [h1, ↓reduceIte]
    rw [Nat.testBit_two_pow_mul_add _ (Nat.mod_lt _ (Nat.two_pow_pos _))]
    by_cases h2 : i - lo < hi + 1 - lo
    · have h3 : lo ≤ i ∧ i ≤ hi := by omega
      simp [h2, h3, Nat.testBit_mod_two_pow]
    · have h3 : ¬(lo ≤ i ∧ i ≤ hi) := by omega
      simp only [h2, h3, ↓reduceIte, Nat.testBit_shiftRight]
      congr 1
      omega

/-- A field reads what has been put into it, in its width. -/
theorem bitsOf_putBits_same (w hi lo v : Nat) (h : lo ≤ hi) :
    bitsOf (putBits w hi lo v) hi lo = v % 2 ^ (hi + 1 - lo) := by
  apply Nat.eq_of_testBit_eq
  intro i
  rw [testBit_bitsOf, testBit_putBits _ _ _ _ _ h, Nat.testBit_mod_two_pow]
  by_cases h1 : i < hi + 1 - lo
  · have : lo ≤ lo + i ∧ lo + i ≤ hi := by omega
    simp [h1, this]
  · simp [h1]

/-- A field keeps its value when a field that shares no bit with it is replaced. -/
theorem bitsOf_putBits_other (w hi lo v hi' lo' : Nat) (h : lo ≤ hi) (hd : hi < lo' ∨ hi' < lo) :
    bitsOf (putBits w hi lo v) hi' lo' = bitsOf w hi' lo' := by
  apply Nat.eq_of_testBit_eq
  intro i
  rw [testBit_bitsOf, testBit_bitsOf, testBit_putBits _ _ _ _ _ h]
  by_cases h1 : i < hi' + 1 - lo'
  · have : ¬(lo ≤ lo' + i ∧ lo' + i ≤ hi) := by omega
    simp [h1, this]
  · simp [h1]

theorem putBits_lt (w hi lo v n : Nat) (h : lo ≤ hi) (hn : hi < n) (hw : w < 2 ^ n) : putBits w hi lo v < 2 ^ n := by
  apply Nat.lt_pow_two_of_testBit
  intro i hi'
  rw [testBit_putBits _ _ _ _ _ h]
  have : ¬(lo ≤ i ∧ i ≤ hi) := by omega
  simp only [this, ↓reduceIte]
  exact Nat.testBit_lt_two_pow (Nat.lt_of_lt_of_le hw (Nat.pow_le_pow_right (by decide) hi'))

theorem hasBit_eq_testBit (w i : Nat) : hasBit w i = w.testBit i := by
  simp [hasBit, Nat.testBit_eq_decide_div_mod_eq, Nat.shiftRight_eq_div_pow, beq_eq_decide]

theorem testBit_setBit (w i j : Nat) : (setBit w i).testBit j = (decide (i = j) || w.testBit j) := by
  unfold setBit
  rw [hasBit_eq_testBit]
  split
  · rename_i h
    by_cases hj : i = j
    · subst hj
      simp [h]
    · simp [hj]
  · rename_i h
    by_cases hj : i = j
    · subst hj
      rw [Nat.add_comm, Nat.testBit_two_pow_add_eq]
      simpa using h
    · have hb : w + 2 ^ i = putBits w i i 1 := by
        have h0 : bitsOf w i i = 0 := by
          apply Nat.eq_of_testBit_eq
          intro k
          rw [testBit_bitsOf, Nat.zero_testBit]
          by_cases hk : k = 0
          · subst hk
            simpa using h
          · simp [hk]
        have he : i + 1 - i = 1 := by omega
        unfold putBits
        rw [h0, he]
        simp [Nat.shiftLeft_eq]
      rw [hb, testBit_putBits _ _ _ _ _ (Nat.le_refl i)]
      have : ¬(i ≤ j ∧ j ≤ i) := by omega
      simp [this, hj]

theorem hasBit_setBit (w i j : Nat) : hasBit (setBit w i) j = (decide (i = j) || hasBit w j) := by
  rw [hasBit_eq_testBit, hasBit_eq_testBit, testBit_setBit]

theorem toNat_word (v : Nat) (h : v < 2 ^ 32) : (word v).toNat = v := by
  simp only [word, BitVec.toNat_ofNat]
  exact Nat.mod_eq_of_lt h

end Sys2Proof.Machine
end

