-- ==== Sys2Proof/Laws/State.lean ====
section
/-! SUPPORT. What each named update of the two dies leaves unchanged: one lemma per update and field. -/

namespace Sys2Proof.Machine


/-! `FieldDie.wr` -/
@[simp] theorem FieldDie.wr_order (f : FieldDie) (a : Nat) (w : Word) : (f.wr a w).order = f.order := rfl
@[simp] theorem FieldDie.wr_dieId (f : FieldDie) (a : Nat) (w : Word) : (f.wr a w).dieId = f.dieId := rfl
@[simp] theorem FieldDie.wr_straps (f : FieldDie) (a : Nat) (w : Word) : (f.wr a w).straps = f.straps := rfl
@[simp] theorem FieldDie.wr_phase (f : FieldDie) (a : Nat) (w : Word) : (f.wr a w).phase = f.phase := rfl
@[simp] theorem FieldDie.wr_resetBy (f : FieldDie) (a : Nat) (w : Word) : (f.wr a w).resetBy = f.resetBy := rfl
@[simp] theorem FieldDie.wr_staged (f : FieldDie) (a : Nat) (w : Word) : (f.wr a w).staged = f.staged := rfl
@[simp] theorem FieldDie.wr_cnt (f : FieldDie) (a : Nat) (w : Word) : (f.wr a w).cnt = f.cnt := rfl
@[simp] theorem FieldDie.wr_snapHost (f : FieldDie) (a : Nat) (w : Word) : (f.wr a w).snapHost = f.snapHost := rfl
@[simp] theorem FieldDie.wr_snapSerial (f : FieldDie) (a : Nat) (w : Word) : (f.wr a w).snapSerial = f.snapSerial := rfl
@[simp] theorem FieldDie.wr_window (f : FieldDie) (a : Nat) (w : Word) : (f.wr a w).window = f.window := rfl
@[simp] theorem FieldDie.wr_arrivals (f : FieldDie) (a : Nat) (w : Word) : (f.wr a w).arrivals = f.arrivals := rfl
@[simp] theorem FieldDie.wr_launch (f : FieldDie) (a : Nat) (w : Word) : (f.wr a w).launch = f.launch := rfl
@[simp] theorem FieldDie.wr_winMod (f : FieldDie) (a : Nat) (w : Word) : (f.wr a w).winMod = f.winMod := rfl
@[simp] theorem FieldDie.wr_evtq (f : FieldDie) (a : Nat) (w : Word) : (f.wr a w).evtq = f.evtq := rfl
@[simp] theorem FieldDie.wr_evtLost (f : FieldDie) (a : Nat) (w : Word) : (f.wr a w).evtLost = f.evtLost := rfl
@[simp] theorem FieldDie.wr_xng (f : FieldDie) (a : Nat) (w : Word) : (f.wr a w).xng = f.xng := rfl
@[simp] theorem FieldDie.wr_twin (f : FieldDie) (a : Nat) (w : Word) : (f.wr a w).twin = f.twin := rfl
@[simp] theorem FieldDie.wr_cfg (f : FieldDie) (a : Nat) (w : Word) : (f.wr a w).cfg = f.cfg := rfl
@[simp] theorem FieldDie.wr_flt (f : FieldDie) (a : Nat) (w : Word) : (f.wr a w).flt = f.flt := rfl
@[simp] theorem FieldDie.wr_twn (f : FieldDie) (a : Nat) (w : Word) : (f.wr a w).twn = f.twn := rfl
@[simp] theorem FieldDie.wr_pwr (f : FieldDie) (a : Nat) (w : Word) : (f.wr a w).pwr = f.pwr := rfl
@[simp] theorem FieldDie.wr_ports (f : FieldDie) (a : Nat) (w : Word) : (f.wr a w).ports = f.ports := rfl
@[simp] theorem FieldDie.wr_segs (f : FieldDie) (a : Nat) (w : Word) : (f.wr a w).segs = f.segs := rfl
@[simp] theorem FieldDie.wr_gates (f : FieldDie) (a : Nat) (w : Word) : (f.wr a w).gates = f.gates := rfl
@[simp] theorem FieldDie.wr_ptp (f : FieldDie) (a : Nat) (w : Word) : (f.wr a w).ptp = f.ptp := rfl
@[simp] theorem FieldDie.wr_tim (f : FieldDie) (a : Nat) (w : Word) : (f.wr a w).tim = f.tim := rfl
@[simp] theorem FieldDie.wr_str (f : FieldDie) (a : Nat) (w : Word) : (f.wr a w).str = f.str := rfl
@[simp] theorem FieldDie.wr_fwd (f : FieldDie) (a : Nat) (w : Word) : (f.wr a w).fwd = f.fwd := rfl
@[simp] theorem FieldDie.wr_buf (f : FieldDie) (a : Nat) (w : Word) : (f.wr a w).buf = f.buf := rfl
@[simp] theorem FieldDie.wr_key (f : FieldDie) (a : Nat) (w : Word) : (f.wr a w).key = f.key := rfl
@[simp] theorem FieldDie.wr_spi (f : FieldDie) (a : Nat) (w : Word) : (f.wr a w).spi = f.spi := rfl
@[simp] theorem FieldDie.wr_pin (f : FieldDie) (a : Nat) (w : Word) : (f.wr a w).pin = f.pin := rfl
@[simp] theorem FieldDie.wr_ptb (f : FieldDie) (a : Nat) (w : Word) : (f.wr a w).ptb = f.ptb := rfl
@[simp] theorem FieldDie.wr_freeCtr (f : FieldDie) (a : Nat) (w : Word) : (f.wr a w).freeCtr = f.freeCtr := rfl
@[simp] theorem FieldDie.wr_out (f : FieldDie) (a : Nat) (w : Word) : (f.wr a w).out = f.out := rfl

/-! `FieldDie.wrN` -/
@[simp] theorem FieldDie.wrN_order (f : FieldDie) (a v : Nat) : (f.wrN a v).order = f.order := rfl
@[simp] theorem FieldDie.wrN_dieId (f : FieldDie) (a v : Nat) : (f.wrN a v).dieId = f.dieId := rfl
@[simp] theorem FieldDie.wrN_straps (f : FieldDie) (a v : Nat) : (f.wrN a v).straps = f.straps := rfl
@[simp] theorem FieldDie.wrN_phase (f : FieldDie) (a v : Nat) : (f.wrN a v).phase = f.phase := rfl
@[simp] theorem FieldDie.wrN_resetBy (f : FieldDie) (a v : Nat) : (f.wrN a v).resetBy = f.resetBy := rfl
@[simp] theorem FieldDie.wrN_staged (f : FieldDie) (a v : Nat) : (f.wrN a v).staged = f.staged := rfl
@[simp] theorem FieldDie.wrN_cnt (f : FieldDie) (a v : Nat) : (f.wrN a v).cnt = f.cnt := rfl
@[simp] theorem FieldDie.wrN_snapHost (f : FieldDie) (a v : Nat) : (f.wrN a v).snapHost = f.snapHost := rfl
@[simp] theorem FieldDie.wrN_snapSerial (f : FieldDie) (a v : Nat) : (f.wrN a v).snapSerial = f.snapSerial := rfl
@[simp] theorem FieldDie.wrN_window (f : FieldDie) (a v : Nat) : (f.wrN a v).window = f.window := rfl
@[simp] theorem FieldDie.wrN_arrivals (f : FieldDie) (a v : Nat) : (f.wrN a v).arrivals = f.arrivals := rfl
@[simp] theorem FieldDie.wrN_launch (f : FieldDie) (a v : Nat) : (f.wrN a v).launch = f.launch := rfl
@[simp] theorem FieldDie.wrN_winMod (f : FieldDie) (a v : Nat) : (f.wrN a v).winMod = f.winMod := rfl
@[simp] theorem FieldDie.wrN_evtq (f : FieldDie) (a v : Nat) : (f.wrN a v).evtq = f.evtq := rfl
@[simp] theorem FieldDie.wrN_evtLost (f : FieldDie) (a v : Nat) : (f.wrN a v).evtLost = f.evtLost := rfl
@[simp] theorem FieldDie.wrN_xng (f : FieldDie) (a v : Nat) : (f.wrN a v).xng = f.xng := rfl
@[simp] theorem FieldDie.wrN_twin (f : FieldDie) (a v : Nat) : (f.wrN a v).twin = f.twin := rfl
@[simp] theorem FieldDie.wrN_cfg (f : FieldDie) (a v : Nat) : (f.wrN a v).cfg = f.cfg := rfl
@[simp] theorem FieldDie.wrN_flt (f : FieldDie) (a v : Nat) : (f.wrN a v).flt = f.flt := rfl
@[simp] theorem FieldDie.wrN_twn (f : FieldDie) (a v : Nat) : (f.wrN a v).twn = f.twn := rfl
@[simp] theorem FieldDie.wrN_pwr (f : FieldDie) (a v : Nat) : (f.wrN a v).pwr = f.pwr := rfl
@[simp] theorem FieldDie.wrN_ports (f : FieldDie) (a v : Nat) : (f.wrN a v).ports = f.ports := rfl
@[simp] theorem FieldDie.wrN_segs (f : FieldDie) (a v : Nat) : (f.wrN a v).segs = f.segs := rfl
@[simp] theorem FieldDie.wrN_gates (f : FieldDie) (a v : Nat) : (f.wrN a v).gates = f.gates := rfl
@[simp] theorem FieldDie.wrN_ptp (f : FieldDie) (a v : Nat) : (f.wrN a v).ptp = f.ptp := rfl
@[simp] theorem FieldDie.wrN_tim (f : FieldDie) (a v : Nat) : (f.wrN a v).tim = f.tim := rfl
@[simp] theorem FieldDie.wrN_str (f : FieldDie) (a v : Nat) : (f.wrN a v).str = f.str := rfl
@[simp] theorem FieldDie.wrN_fwd (f : FieldDie) (a v : Nat) : (f.wrN a v).fwd = f.fwd := rfl
@[simp] theorem FieldDie.wrN_buf (f : FieldDie) (a v : Nat) : (f.wrN a v).buf = f.buf := rfl
@[simp] theorem FieldDie.wrN_key (f : FieldDie) (a v : Nat) : (f.wrN a v).key = f.key := rfl
@[simp] theorem FieldDie.wrN_spi (f : FieldDie) (a v : Nat) : (f.wrN a v).spi = f.spi := rfl
@[simp] theorem FieldDie.wrN_pin (f : FieldDie) (a v : Nat) : (f.wrN a v).pin = f.pin := rfl
@[simp] theorem FieldDie.wrN_ptb (f : FieldDie) (a v : Nat) : (f.wrN a v).ptb = f.ptb := rfl
@[simp] theorem FieldDie.wrN_freeCtr (f : FieldDie) (a v : Nat) : (f.wrN a v).freeCtr = f.freeCtr := rfl
@[simp] theorem FieldDie.wrN_out (f : FieldDie) (a v : Nat) : (f.wrN a v).out = f.out := rfl

/-! `FieldDie.put` -/
@[simp] theorem FieldDie.put_order (f : FieldDie) (r : Fld) (v : Nat) : (f.put r v).order = f.order := rfl
@[simp] theorem FieldDie.put_dieId (f : FieldDie) (r : Fld) (v : Nat) : (f.put r v).dieId = f.dieId := rfl
@[simp] theorem FieldDie.put_straps (f : FieldDie) (r : Fld) (v : Nat) : (f.put r v).straps = f.straps := rfl
@[simp] theorem FieldDie.put_phase (f : FieldDie) (r : Fld) (v : Nat) : (f.put r v).phase = f.phase := rfl
@[simp] theorem FieldDie.put_resetBy (f : FieldDie) (r : Fld) (v : Nat) : (f.put r v).resetBy = f.resetBy := rfl
@[simp] theorem FieldDie.put_staged (f : FieldDie) (r : Fld) (v : Nat) : (f.put r v).staged = f.staged := rfl
@[simp] theorem FieldDie.put_cnt (f : FieldDie) (r : Fld) (v : Nat) : (f.put r v).cnt = f.cnt := rfl
@[simp] theorem FieldDie.put_snapHost (f : FieldDie) (r : Fld) (v : Nat) : (f.put r v).snapHost = f.snapHost := rfl
@[simp] theorem FieldDie.put_snapSerial (f : FieldDie) (r : Fld) (v : Nat) : (f.put r v).snapSerial = f.snapSerial := rfl
@[simp] theorem FieldDie.put_window (f : FieldDie) (r : Fld) (v : Nat) : (f.put r v).window = f.window := rfl
@[simp] theorem FieldDie.put_arrivals (f : FieldDie) (r : Fld) (v : Nat) : (f.put r v).arrivals = f.arrivals := rfl
@[simp] theorem FieldDie.put_launch (f : FieldDie) (r : Fld) (v : Nat) : (f.put r v).launch = f.launch := rfl
@[simp] theorem FieldDie.put_winMod (f : FieldDie) (r : Fld) (v : Nat) : (f.put r v).winMod = f.winMod := rfl
@[simp] theorem FieldDie.put_evtq (f : FieldDie) (r : Fld) (v : Nat) : (f.put r v).evtq = f.evtq := rfl
@[simp] theorem FieldDie.put_evtLost (f : FieldDie) (r : Fld) (v : Nat) : (f.put r v).evtLost = f.evtLost := rfl
@[simp] theorem FieldDie.put_xng (f : FieldDie) (r : Fld) (v : Nat) : (f.put r v).xng = f.xng := rfl
@[simp] theorem FieldDie.put_twin (f : FieldDie) (r : Fld) (v : Nat) : (f.put r v).twin = f.twin := rfl
@[simp] theorem FieldDie.put_cfg (f : FieldDie) (r : Fld) (v : Nat) : (f.put r v).cfg = f.cfg := rfl
@[simp] theorem FieldDie.put_flt (f : FieldDie) (r : Fld) (v : Nat) : (f.put r v).flt = f.flt := rfl
@[simp] theorem FieldDie.put_twn (f : FieldDie) (r : Fld) (v : Nat) : (f.put r v).twn = f.twn := rfl
@[simp] theorem FieldDie.put_pwr (f : FieldDie) (r : Fld) (v : Nat) : (f.put r v).pwr = f.pwr := rfl
@[simp] theorem FieldDie.put_ports (f : FieldDie) (r : Fld) (v : Nat) : (f.put r v).ports = f.ports := rfl
@[simp] theorem FieldDie.put_segs (f : FieldDie) (r : Fld) (v : Nat) : (f.put r v).segs = f.segs := rfl
@[simp] theorem FieldDie.put_gates (f : FieldDie) (r : Fld) (v : Nat) : (f.put r v).gates = f.gates := rfl
@[simp] theorem FieldDie.put_ptp (f : FieldDie) (r : Fld) (v : Nat) : (f.put r v).ptp = f.ptp := rfl
@[simp] theorem FieldDie.put_tim (f : FieldDie) (r : Fld) (v : Nat) : (f.put r v).tim = f.tim := rfl
@[simp] theorem FieldDie.put_str (f : FieldDie) (r : Fld) (v : Nat) : (f.put r v).str = f.str := rfl
@[simp] theorem FieldDie.put_fwd (f : FieldDie) (r : Fld) (v : Nat) : (f.put r v).fwd = f.fwd := rfl
@[simp] theorem FieldDie.put_buf (f : FieldDie) (r : Fld) (v : Nat) : (f.put r v).buf = f.buf := rfl
@[simp] theorem FieldDie.put_key (f : FieldDie) (r : Fld) (v : Nat) : (f.put r v).key = f.key := rfl
@[simp] theorem FieldDie.put_spi (f : FieldDie) (r : Fld) (v : Nat) : (f.put r v).spi = f.spi := rfl
@[simp] theorem FieldDie.put_pin (f : FieldDie) (r : Fld) (v : Nat) : (f.put r v).pin = f.pin := rfl
@[simp] theorem FieldDie.put_ptb (f : FieldDie) (r : Fld) (v : Nat) : (f.put r v).ptb = f.ptb := rfl
@[simp] theorem FieldDie.put_freeCtr (f : FieldDie) (r : Fld) (v : Nat) : (f.put r v).freeCtr = f.freeCtr := rfl
@[simp] theorem FieldDie.put_out (f : FieldDie) (r : Fld) (v : Nat) : (f.put r v).out = f.out := rfl

/-! `FieldDie.bump` -/
@[simp] theorem FieldDie.bump_order (f : FieldDie) (r : Fld) (n : Nat) : (f.bump r n).order = f.order := rfl
@[simp] theorem FieldDie.bump_dieId (f : FieldDie) (r : Fld) (n : Nat) : (f.bump r n).dieId = f.dieId := rfl
@[simp] theorem FieldDie.bump_straps (f : FieldDie) (r : Fld) (n : Nat) : (f.bump r n).straps = f.straps := rfl
@[simp] theorem FieldDie.bump_phase (f : FieldDie) (r : Fld) (n : Nat) : (f.bump r n).phase = f.phase := rfl
@[simp] theorem FieldDie.bump_resetBy (f : FieldDie) (r : Fld) (n : Nat) : (f.bump r n).resetBy = f.resetBy := rfl
@[simp] theorem FieldDie.bump_staged (f : FieldDie) (r : Fld) (n : Nat) : (f.bump r n).staged = f.staged := rfl
@[simp] theorem FieldDie.bump_cnt (f : FieldDie) (r : Fld) (n : Nat) : (f.bump r n).cnt = f.cnt := rfl
@[simp] theorem FieldDie.bump_snapHost (f : FieldDie) (r : Fld) (n : Nat) : (f.bump r n).snapHost = f.snapHost := rfl
@[simp] theorem FieldDie.bump_snapSerial (f : FieldDie) (r : Fld) (n : Nat) : (f.bump r n).snapSerial = f.snapSerial := rfl
@[simp] theorem FieldDie.bump_window (f : FieldDie) (r : Fld) (n : Nat) : (f.bump r n).window = f.window := rfl
@[simp] theorem FieldDie.bump_arrivals (f : FieldDie) (r : Fld) (n : Nat) : (f.bump r n).arrivals = f.arrivals := rfl
@[simp] theorem FieldDie.bump_launch (f : FieldDie) (r : Fld) (n : Nat) : (f.bump r n).launch = f.launch := rfl
@[simp] theorem FieldDie.bump_winMod (f : FieldDie) (r : Fld) (n : Nat) : (f.bump r n).winMod = f.winMod := rfl
@[simp] theorem FieldDie.bump_evtq (f : FieldDie) (r : Fld) (n : Nat) : (f.bump r n).evtq = f.evtq := rfl
@[simp] theorem FieldDie.bump_evtLost (f : FieldDie) (r : Fld) (n : Nat) : (f.bump r n).evtLost = f.evtLost := rfl
@[simp] theorem FieldDie.bump_xng (f : FieldDie) (r : Fld) (n : Nat) : (f.bump r n).xng = f.xng := rfl
@[simp] theorem FieldDie.bump_twin (f : FieldDie) (r : Fld) (n : Nat) : (f.bump r n).twin = f.twin := rfl
@[simp] theorem FieldDie.bump_cfg (f : FieldDie) (r : Fld) (n : Nat) : (f.bump r n).cfg = f.cfg := rfl
@[simp] theorem FieldDie.bump_flt (f : FieldDie) (r : Fld) (n : Nat) : (f.bump r n).flt = f.flt := rfl
@[simp] theorem FieldDie.bump_twn (f : FieldDie) (r : Fld) (n : Nat) : (f.bump r n).twn = f.twn := rfl
@[simp] theorem FieldDie.bump_pwr (f : FieldDie) (r : Fld) (n : Nat) : (f.bump r n).pwr = f.pwr := rfl
@[simp] theorem FieldDie.bump_ports (f : FieldDie) (r : Fld) (n : Nat) : (f.bump r n).ports = f.ports := rfl
@[simp] theorem FieldDie.bump_segs (f : FieldDie) (r : Fld) (n : Nat) : (f.bump r n).segs = f.segs := rfl
@[simp] theorem FieldDie.bump_gates (f : FieldDie) (r : Fld) (n : Nat) : (f.bump r n).gates = f.gates := rfl
@[simp] theorem FieldDie.bump_ptp (f : FieldDie) (r : Fld) (n : Nat) : (f.bump r n).ptp = f.ptp := rfl
@[simp] theorem FieldDie.bump_tim (f : FieldDie) (r : Fld) (n : Nat) : (f.bump r n).tim = f.tim := rfl
@[simp] theorem FieldDie.bump_str (f : FieldDie) (r : Fld) (n : Nat) : (f.bump r n).str = f.str := rfl
@[simp] theorem FieldDie.bump_fwd (f : FieldDie) (r : Fld) (n : Nat) : (f.bump r n).fwd = f.fwd := rfl
@[simp] theorem FieldDie.bump_buf (f : FieldDie) (r : Fld) (n : Nat) : (f.bump r n).buf = f.buf := rfl
@[simp] theorem FieldDie.bump_key (f : FieldDie) (r : Fld) (n : Nat) : (f.bump r n).key = f.key := rfl
@[simp] theorem FieldDie.bump_spi (f : FieldDie) (r : Fld) (n : Nat) : (f.bump r n).spi = f.spi := rfl
@[simp] theorem FieldDie.bump_pin (f : FieldDie) (r : Fld) (n : Nat) : (f.bump r n).pin = f.pin := rfl
@[simp] theorem FieldDie.bump_ptb (f : FieldDie) (r : Fld) (n : Nat) : (f.bump r n).ptb = f.ptb := rfl
@[simp] theorem FieldDie.bump_freeCtr (f : FieldDie) (r : Fld) (n : Nat) : (f.bump r n).freeCtr = f.freeCtr := rfl
@[simp] theorem FieldDie.bump_out (f : FieldDie) (r : Fld) (n : Nat) : (f.bump r n).out = f.out := rfl

/-! `FieldDie.countN` -/
@[simp] theorem FieldDie.countN_order (f : FieldDie) (a n : Nat) : (f.countN a n).order = f.order := rfl
@[simp] theorem FieldDie.countN_dieId (f : FieldDie) (a n : Nat) : (f.countN a n).dieId = f.dieId := rfl
@[simp] theorem FieldDie.countN_straps (f : FieldDie) (a n : Nat) : (f.countN a n).straps = f.straps := rfl
@[simp] theorem FieldDie.countN_phase (f : FieldDie) (a n : Nat) : (f.countN a n).phase = f.phase := rfl
@[simp] theorem FieldDie.countN_resetBy (f : FieldDie) (a n : Nat) : (f.countN a n).resetBy = f.resetBy := rfl
@[simp] theorem FieldDie.countN_reg (f : FieldDie) (a n : Nat) : (f.countN a n).reg = f.reg := rfl
@[simp] theorem FieldDie.countN_staged (f : FieldDie) (a n : Nat) : (f.countN a n).staged = f.staged := rfl
@[simp] theorem FieldDie.countN_snapHost (f : FieldDie) (a n : Nat) : (f.countN a n).snapHost = f.snapHost := rfl
@[simp] theorem FieldDie.countN_snapSerial (f : FieldDie) (a n : Nat) : (f.countN a n).snapSerial = f.snapSerial := rfl
@[simp] theorem FieldDie.countN_window (f : FieldDie) (a n : Nat) : (f.countN a n).window = f.window := rfl
@[simp] theorem FieldDie.countN_arrivals (f : FieldDie) (a n : Nat) : (f.countN a n).arrivals = f.arrivals := rfl
@[simp] theorem FieldDie.countN_launch (f : FieldDie) (a n : Nat) : (f.countN a n).launch = f.launch := rfl
@[simp] theorem FieldDie.countN_winMod (f : FieldDie) (a n : Nat) : (f.countN a n).winMod = f.winMod := rfl
@[simp] theorem FieldDie.countN_evtq (f : FieldDie) (a n : Nat) : (f.countN a n).evtq = f.evtq := rfl
@[simp] theorem FieldDie.countN_evtLost (f : FieldDie) (a n : Nat) : (f.countN a n).evtLost = f.evtLost := rfl
@[simp] theorem FieldDie.countN_xng (f : FieldDie) (a n : Nat) : (f.countN a n).xng = f.xng := rfl
@[simp] theorem FieldDie.countN_twin (f : FieldDie) (a n : Nat) : (f.countN a n).twin = f.twin := rfl
@[simp] theorem FieldDie.countN_cfg (f : FieldDie) (a n : Nat) : (f.countN a n).cfg = f.cfg := rfl
@[simp] theorem FieldDie.countN_flt (f : FieldDie) (a n : Nat) : (f.countN a n).flt = f.flt := rfl
@[simp] theorem FieldDie.countN_twn (f : FieldDie) (a n : Nat) : (f.countN a n).twn = f.twn := rfl
@[simp] theorem FieldDie.countN_pwr (f : FieldDie) (a n : Nat) : (f.countN a n).pwr = f.pwr := rfl
@[simp] theorem FieldDie.countN_ports (f : FieldDie) (a n : Nat) : (f.countN a n).ports = f.ports := rfl
@[simp] theorem FieldDie.countN_segs (f : FieldDie) (a n : Nat) : (f.countN a n).segs = f.segs := rfl
@[simp] theorem FieldDie.countN_gates (f : FieldDie) (a n : Nat) : (f.countN a n).gates = f.gates := rfl
@[simp] theorem FieldDie.countN_ptp (f : FieldDie) (a n : Nat) : (f.countN a n).ptp = f.ptp := rfl
@[simp] theorem FieldDie.countN_tim (f : FieldDie) (a n : Nat) : (f.countN a n).tim = f.tim := rfl
@[simp] theorem FieldDie.countN_str (f : FieldDie) (a n : Nat) : (f.countN a n).str = f.str := rfl
@[simp] theorem FieldDie.countN_fwd (f : FieldDie) (a n : Nat) : (f.countN a n).fwd = f.fwd := rfl
@[simp] theorem FieldDie.countN_buf (f : FieldDie) (a n : Nat) : (f.countN a n).buf = f.buf := rfl
@[simp] theorem FieldDie.countN_key (f : FieldDie) (a n : Nat) : (f.countN a n).key = f.key := rfl
@[simp] theorem FieldDie.countN_spi (f : FieldDie) (a n : Nat) : (f.countN a n).spi = f.spi := rfl
@[simp] theorem FieldDie.countN_pin (f : FieldDie) (a n : Nat) : (f.countN a n).pin = f.pin := rfl
@[simp] theorem FieldDie.countN_ptb (f : FieldDie) (a n : Nat) : (f.countN a n).ptb = f.ptb := rfl
@[simp] theorem FieldDie.countN_freeCtr (f : FieldDie) (a n : Nat) : (f.countN a n).freeCtr = f.freeCtr := rfl
@[simp] theorem FieldDie.countN_out (f : FieldDie) (a n : Nat) : (f.countN a n).out = f.out := rfl

/-! `FieldDie.count` -/
@[simp] theorem FieldDie.count_order (f : FieldDie) (a : Nat) : (f.count a).order = f.order := rfl
@[simp] theorem FieldDie.count_dieId (f : FieldDie) (a : Nat) : (f.count a).dieId = f.dieId := rfl
@[simp] theorem FieldDie.count_straps (f : FieldDie) (a : Nat) : (f.count a).straps = f.straps := rfl
@[simp] theorem FieldDie.count_phase (f : FieldDie) (a : Nat) : (f.count a).phase = f.phase := rfl
@[simp] theorem FieldDie.count_resetBy (f : FieldDie) (a : Nat) : (f.count a).resetBy = f.resetBy := rfl
@[simp] theorem FieldDie.count_reg (f : FieldDie) (a : Nat) : (f.count a).reg = f.reg := rfl
@[simp] theorem FieldDie.count_staged (f : FieldDie) (a : Nat) : (f.count a).staged = f.staged := rfl
@[simp] theorem FieldDie.count_snapHost (f : FieldDie) (a : Nat) : (f.count a).snapHost = f.snapHost := rfl
@[simp] theorem FieldDie.count_snapSerial (f : FieldDie) (a : Nat) : (f.count a).snapSerial = f.snapSerial := rfl
@[simp] theorem FieldDie.count_window (f : FieldDie) (a : Nat) : (f.count a).window = f.window := rfl
@[simp] theorem FieldDie.count_arrivals (f : FieldDie) (a : Nat) : (f.count a).arrivals = f.arrivals := rfl
@[simp] theorem FieldDie.count_launch (f : FieldDie) (a : Nat) : (f.count a).launch = f.launch := rfl
@[simp] theorem FieldDie.count_winMod (f : FieldDie) (a : Nat) : (f.count a).winMod = f.winMod := rfl
@[simp] theorem FieldDie.count_evtq (f : FieldDie) (a : Nat) : (f.count a).evtq = f.evtq := rfl
@[simp] theorem FieldDie.count_evtLost (f : FieldDie) (a : Nat) : (f.count a).evtLost = f.evtLost := rfl
@[simp] theorem FieldDie.count_xng (f : FieldDie) (a : Nat) : (f.count a).xng = f.xng := rfl
@[simp] theorem FieldDie.count_twin (f : FieldDie) (a : Nat) : (f.count a).twin = f.twin := rfl
@[simp] theorem FieldDie.count_cfg (f : FieldDie) (a : Nat) : (f.count a).cfg = f.cfg := rfl
@[simp] theorem FieldDie.count_flt (f : FieldDie) (a : Nat) : (f.count a).flt = f.flt := rfl
@[simp] theorem FieldDie.count_twn (f : FieldDie) (a : Nat) : (f.count a).twn = f.twn := rfl
@[simp] theorem FieldDie.count_pwr (f : FieldDie) (a : Nat) : (f.count a).pwr = f.pwr := rfl
@[simp] theorem FieldDie.count_ports (f : FieldDie) (a : Nat) : (f.count a).ports = f.ports := rfl
@[simp] theorem FieldDie.count_segs (f : FieldDie) (a : Nat) : (f.count a).segs = f.segs := rfl
@[simp] theorem FieldDie.count_gates (f : FieldDie) (a : Nat) : (f.count a).gates = f.gates := rfl
@[simp] theorem FieldDie.count_ptp (f : FieldDie) (a : Nat) : (f.count a).ptp = f.ptp := rfl
@[simp] theorem FieldDie.count_tim (f : FieldDie) (a : Nat) : (f.count a).tim = f.tim := rfl
@[simp] theorem FieldDie.count_str (f : FieldDie) (a : Nat) : (f.count a).str = f.str := rfl
@[simp] theorem FieldDie.count_fwd (f : FieldDie) (a : Nat) : (f.count a).fwd = f.fwd := rfl
@[simp] theorem FieldDie.count_buf (f : FieldDie) (a : Nat) : (f.count a).buf = f.buf := rfl
@[simp] theorem FieldDie.count_key (f : FieldDie) (a : Nat) : (f.count a).key = f.key := rfl
@[simp] theorem FieldDie.count_spi (f : FieldDie) (a : Nat) : (f.count a).spi = f.spi := rfl
@[simp] theorem FieldDie.count_pin (f : FieldDie) (a : Nat) : (f.count a).pin = f.pin := rfl
@[simp] theorem FieldDie.count_ptb (f : FieldDie) (a : Nat) : (f.count a).ptb = f.ptb := rfl
@[simp] theorem FieldDie.count_freeCtr (f : FieldDie) (a : Nat) : (f.count a).freeCtr = f.freeCtr := rfl
@[simp] theorem FieldDie.count_out (f : FieldDie) (a : Nat) : (f.count a).out = f.out := rfl

/-! `FieldDie.emit` -/
@[simp] theorem FieldDie.emit_order (f : FieldDie) (o : Output) : (f.emit o).order = f.order := rfl
@[simp] theorem FieldDie.emit_dieId (f : FieldDie) (o : Output) : (f.emit o).dieId = f.dieId := rfl
@[simp] theorem FieldDie.emit_straps (f : FieldDie) (o : Output) : (f.emit o).straps = f.straps := rfl
@[simp] theorem FieldDie.emit_phase (f : FieldDie) (o : Output) : (f.emit o).phase = f.phase := rfl
@[simp] theorem FieldDie.emit_resetBy (f : FieldDie) (o : Output) : (f.emit o).resetBy = f.resetBy := rfl
@[simp] theorem FieldDie.emit_reg (f : FieldDie) (o : Output) : (f.emit o).reg = f.reg := rfl
@[simp] theorem FieldDie.emit_staged (f : FieldDie) (o : Output) : (f.emit o).staged = f.staged := rfl
@[simp] theorem FieldDie.emit_cnt (f : FieldDie) (o : Output) : (f.emit o).cnt = f.cnt := rfl
@[simp] theorem FieldDie.emit_snapHost (f : FieldDie) (o : Output) : (f.emit o).snapHost = f.snapHost := rfl
@[simp] theorem FieldDie.emit_snapSerial (f : FieldDie) (o : Output) : (f.emit o).snapSerial = f.snapSerial := rfl
@[simp] theorem FieldDie.emit_window (f : FieldDie) (o : Output) : (f.emit o).window = f.window := rfl
@[simp] theorem FieldDie.emit_arrivals (f : FieldDie) (o : Output) : (f.emit o).arrivals = f.arrivals := rfl
@[simp] theorem FieldDie.emit_launch (f : FieldDie) (o : Output) : (f.emit o).launch = f.launch := rfl
@[simp] theorem FieldDie.emit_winMod (f : FieldDie) (o : Output) : (f.emit o).winMod = f.winMod := rfl
@[simp] theorem FieldDie.emit_evtq (f : FieldDie) (o : Output) : (f.emit o).evtq = f.evtq := rfl
@[simp] theorem FieldDie.emit_evtLost (f : FieldDie) (o : Output) : (f.emit o).evtLost = f.evtLost := rfl
@[simp] theorem FieldDie.emit_xng (f : FieldDie) (o : Output) : (f.emit o).xng = f.xng := rfl
@[simp] theorem FieldDie.emit_twin (f : FieldDie) (o : Output) : (f.emit o).twin = f.twin := rfl
@[simp] theorem FieldDie.emit_cfg (f : FieldDie) (o : Output) : (f.emit o).cfg = f.cfg := rfl
@[simp] theorem FieldDie.emit_flt (f : FieldDie) (o : Output) : (f.emit o).flt = f.flt := rfl
@[simp] theorem FieldDie.emit_twn (f : FieldDie) (o : Output) : (f.emit o).twn = f.twn := rfl
@[simp] theorem FieldDie.emit_pwr (f : FieldDie) (o : Output) : (f.emit o).pwr = f.pwr := rfl
@[simp] theorem FieldDie.emit_ports (f : FieldDie) (o : Output) : (f.emit o).ports = f.ports := rfl
@[simp] theorem FieldDie.emit_segs (f : FieldDie) (o : Output) : (f.emit o).segs = f.segs := rfl
@[simp] theorem FieldDie.emit_gates (f : FieldDie) (o : Output) : (f.emit o).gates = f.gates := rfl
@[simp] theorem FieldDie.emit_ptp (f : FieldDie) (o : Output) : (f.emit o).ptp = f.ptp := rfl
@[simp] theorem FieldDie.emit_tim (f : FieldDie) (o : Output) : (f.emit o).tim = f.tim := rfl
@[simp] theorem FieldDie.emit_str (f : FieldDie) (o : Output) : (f.emit o).str = f.str := rfl
@[simp] theorem FieldDie.emit_fwd (f : FieldDie) (o : Output) : (f.emit o).fwd = f.fwd := rfl
@[simp] theorem FieldDie.emit_buf (f : FieldDie) (o : Output) : (f.emit o).buf = f.buf := rfl
@[simp] theorem FieldDie.emit_key (f : FieldDie) (o : Output) : (f.emit o).key = f.key := rfl
@[simp] theorem FieldDie.emit_spi (f : FieldDie) (o : Output) : (f.emit o).spi = f.spi := rfl
@[simp] theorem FieldDie.emit_pin (f : FieldDie) (o : Output) : (f.emit o).pin = f.pin := rfl
@[simp] theorem FieldDie.emit_ptb (f : FieldDie) (o : Output) : (f.emit o).ptb = f.ptb := rfl
@[simp] theorem FieldDie.emit_freeCtr (f : FieldDie) (o : Output) : (f.emit o).freeCtr = f.freeCtr := rfl

/-! `FieldDie.setFlag` -/
@[simp] theorem FieldDie.setFlag_order (f : FieldDie) (a b : Nat) : (f.setFlag a b).order = f.order := FieldDie.wrN_order _ _ _
@[simp] theorem FieldDie.setFlag_dieId (f : FieldDie) (a b : Nat) : (f.setFlag a b).dieId = f.dieId := FieldDie.wrN_dieId _ _ _
@[simp] theorem FieldDie.setFlag_straps (f : FieldDie) (a b : Nat) : (f.setFlag a b).straps = f.straps := FieldDie.wrN_straps _ _ _
@[simp] theorem FieldDie.setFlag_phase (f : FieldDie) (a b : Nat) : (f.setFlag a b).phase = f.phase := FieldDie.wrN_phase _ _ _
@[simp] theorem FieldDie.setFlag_resetBy (f : FieldDie) (a b : Nat) : (f.setFlag a b).resetBy = f.resetBy := FieldDie.wrN_resetBy _ _ _
@[simp] theorem FieldDie.setFlag_staged (f : FieldDie) (a b : Nat) : (f.setFlag a b).staged = f.staged := FieldDie.wrN_staged _ _ _
@[simp] theorem FieldDie.setFlag_cnt (f : FieldDie) (a b : Nat) : (f.setFlag a b).cnt = f.cnt := FieldDie.wrN_cnt _ _ _
@[simp] theorem FieldDie.setFlag_snapHost (f : FieldDie) (a b : Nat) : (f.setFlag a b).snapHost = f.snapHost := FieldDie.wrN_snapHost _ _ _
@[simp] theorem FieldDie.setFlag_snapSerial (f : FieldDie) (a b : Nat) : (f.setFlag a b).snapSerial = f.snapSerial := FieldDie.wrN_snapSerial _ _ _
@[simp] theorem FieldDie.setFlag_window (f : FieldDie) (a b : Nat) : (f.setFlag a b).window = f.window := FieldDie.wrN_window _ _ _
@[simp] theorem FieldDie.setFlag_arrivals (f : FieldDie) (a b : Nat) : (f.setFlag a b).arrivals = f.arrivals := FieldDie.wrN_arrivals _ _ _
@[simp] theorem FieldDie.setFlag_launch (f : FieldDie) (a b : Nat) : (f.setFlag a b).launch = f.launch := FieldDie.wrN_launch _ _ _
@[simp] theorem FieldDie.setFlag_winMod (f : FieldDie) (a b : Nat) : (f.setFlag a b).winMod = f.winMod := FieldDie.wrN_winMod _ _ _
@[simp] theorem FieldDie.setFlag_evtq (f : FieldDie) (a b : Nat) : (f.setFlag a b).evtq = f.evtq := FieldDie.wrN_evtq _ _ _
@[simp] theorem FieldDie.setFlag_evtLost (f : FieldDie) (a b : Nat) : (f.setFlag a b).evtLost = f.evtLost := FieldDie.wrN_evtLost _ _ _
@[simp] theorem FieldDie.setFlag_xng (f : FieldDie) (a b : Nat) : (f.setFlag a b).xng = f.xng := FieldDie.wrN_xng _ _ _
@[simp] theorem FieldDie.setFlag_twin (f : FieldDie) (a b : Nat) : (f.setFlag a b).twin = f.twin := FieldDie.wrN_twin _ _ _
@[simp] theorem FieldDie.setFlag_cfg (f : FieldDie) (a b : Nat) : (f.setFlag a b).cfg = f.cfg := FieldDie.wrN_cfg _ _ _
@[simp] theorem FieldDie.setFlag_flt (f : FieldDie) (a b : Nat) : (f.setFlag a b).flt = f.flt := FieldDie.wrN_flt _ _ _
@[simp] theorem FieldDie.setFlag_twn (f : FieldDie) (a b : Nat) : (f.setFlag a b).twn = f.twn := FieldDie.wrN_twn _ _ _
@[simp] theorem FieldDie.setFlag_pwr (f : FieldDie) (a b : Nat) : (f.setFlag a b).pwr = f.pwr := FieldDie.wrN_pwr _ _ _
@[simp] theorem FieldDie.setFlag_ports (f : FieldDie) (a b : Nat) : (f.setFlag a b).ports = f.ports := FieldDie.wrN_ports _ _ _
@[simp] theorem FieldDie.setFlag_segs (f : FieldDie) (a b : Nat) : (f.setFlag a b).segs = f.segs := FieldDie.wrN_segs _ _ _
@[simp] theorem FieldDie.setFlag_gates (f : FieldDie) (a b : Nat) : (f.setFlag a b).gates = f.gates := FieldDie.wrN_gates _ _ _
@[simp] theorem FieldDie.setFlag_ptp (f : FieldDie) (a b : Nat) : (f.setFlag a b).ptp = f.ptp := FieldDie.wrN_ptp _ _ _
@[simp] theorem FieldDie.setFlag_tim (f : FieldDie) (a b : Nat) : (f.setFlag a b).tim = f.tim := FieldDie.wrN_tim _ _ _
@[simp] theorem FieldDie.setFlag_str (f : FieldDie) (a b : Nat) : (f.setFlag a b).str = f.str := FieldDie.wrN_str _ _ _
@[simp] theorem FieldDie.setFlag_fwd (f : FieldDie) (a b : Nat) : (f.setFlag a b).fwd = f.fwd := FieldDie.wrN_fwd _ _ _
@[simp] theorem FieldDie.setFlag_buf (f : FieldDie) (a b : Nat) : (f.setFlag a b).buf = f.buf := FieldDie.wrN_buf _ _ _
@[simp] theorem FieldDie.setFlag_key (f : FieldDie) (a b : Nat) : (f.setFlag a b).key = f.key := FieldDie.wrN_key _ _ _
@[simp] theorem FieldDie.setFlag_spi (f : FieldDie) (a b : Nat) : (f.setFlag a b).spi = f.spi := FieldDie.wrN_spi _ _ _
@[simp] theorem FieldDie.setFlag_pin (f : FieldDie) (a b : Nat) : (f.setFlag a b).pin = f.pin := FieldDie.wrN_pin _ _ _
@[simp] theorem FieldDie.setFlag_ptb (f : FieldDie) (a b : Nat) : (f.setFlag a b).ptb = f.ptb := FieldDie.wrN_ptb _ _ _
@[simp] theorem FieldDie.setFlag_freeCtr (f : FieldDie) (a b : Nat) : (f.setFlag a b).freeCtr = f.freeCtr := FieldDie.wrN_freeCtr _ _ _
@[simp] theorem FieldDie.setFlag_out (f : FieldDie) (a b : Nat) : (f.setFlag a b).out = f.out := FieldDie.wrN_out _ _ _

/-! `FieldDie.setPortX` -/
@[simp] theorem FieldDie.setPortX_order (f : FieldDie) (n : Nat) (g : PortX → PortX) : (f.setPortX n g).order = f.order := rfl
@[simp] theorem FieldDie.setPortX_dieId (f : FieldDie) (n : Nat) (g : PortX → PortX) : (f.setPortX n g).dieId = f.dieId := rfl
@[simp] theorem FieldDie.setPortX_straps (f : FieldDie) (n : Nat) (g : PortX → PortX) : (f.setPortX n g).straps = f.straps := rfl
@[simp] theorem FieldDie.setPortX_phase (f : FieldDie) (n : Nat) (g : PortX → PortX) : (f.setPortX n g).phase = f.phase := rfl
@[simp] theorem FieldDie.setPortX_resetBy (f : FieldDie) (n : Nat) (g : PortX → PortX) : (f.setPortX n g).resetBy = f.resetBy := rfl
@[simp] theorem FieldDie.setPortX_reg (f : FieldDie) (n : Nat) (g : PortX → PortX) : (f.setPortX n g).reg = f.reg := rfl
@[simp] theorem FieldDie.setPortX_staged (f : FieldDie) (n : Nat) (g : PortX → PortX) : (f.setPortX n g).staged = f.staged := rfl
@[simp] theorem FieldDie.setPortX_cnt (f : FieldDie) (n : Nat) (g : PortX → PortX) : (f.setPortX n g).cnt = f.cnt := rfl
@[simp] theorem FieldDie.setPortX_snapHost (f : FieldDie) (n : Nat) (g : PortX → PortX) : (f.setPortX n g).snapHost = f.snapHost := rfl
@[simp] theorem FieldDie.setPortX_snapSerial (f : FieldDie) (n : Nat) (g : PortX → PortX) : (f.setPortX n g).snapSerial = f.snapSerial := rfl
@[simp] theorem FieldDie.setPortX_window (f : FieldDie) (n : Nat) (g : PortX → PortX) : (f.setPortX n g).window = f.window := rfl
@[simp] theorem FieldDie.setPortX_arrivals (f : FieldDie) (n : Nat) (g : PortX → PortX) : (f.setPortX n g).arrivals = f.arrivals := rfl
@[simp] theorem FieldDie.setPortX_launch (f : FieldDie) (n : Nat) (g : PortX → PortX) : (f.setPortX n g).launch = f.launch := rfl
@[simp] theorem FieldDie.setPortX_winMod (f : FieldDie) (n : Nat) (g : PortX → PortX) : (f.setPortX n g).winMod = f.winMod := rfl
@[simp] theorem FieldDie.setPortX_evtq (f : FieldDie) (n : Nat) (g : PortX → PortX) : (f.setPortX n g).evtq = f.evtq := rfl
@[simp] theorem FieldDie.setPortX_evtLost (f : FieldDie) (n : Nat) (g : PortX → PortX) : (f.setPortX n g).evtLost = f.evtLost := rfl
@[simp] theorem FieldDie.setPortX_xng (f : FieldDie) (n : Nat) (g : PortX → PortX) : (f.setPortX n g).xng = f.xng := rfl
@[simp] theorem FieldDie.setPortX_twin (f : FieldDie) (n : Nat) (g : PortX → PortX) : (f.setPortX n g).twin = f.twin := rfl
@[simp] theorem FieldDie.setPortX_cfg (f : FieldDie) (n : Nat) (g : PortX → PortX) : (f.setPortX n g).cfg = f.cfg := rfl
@[simp] theorem FieldDie.setPortX_flt (f : FieldDie) (n : Nat) (g : PortX → PortX) : (f.setPortX n g).flt = f.flt := rfl
@[simp] theorem FieldDie.setPortX_twn (f : FieldDie) (n : Nat) (g : PortX → PortX) : (f.setPortX n g).twn = f.twn := rfl
@[simp] theorem FieldDie.setPortX_pwr (f : FieldDie) (n : Nat) (g : PortX → PortX) : (f.setPortX n g).pwr = f.pwr := rfl
@[simp] theorem FieldDie.setPortX_segs (f : FieldDie) (n : Nat) (g : PortX → PortX) : (f.setPortX n g).segs = f.segs := rfl
@[simp] theorem FieldDie.setPortX_gates (f : FieldDie) (n : Nat) (g : PortX → PortX) : (f.setPortX n g).gates = f.gates := rfl
@[simp] theorem FieldDie.setPortX_ptp (f : FieldDie) (n : Nat) (g : PortX → PortX) : (f.setPortX n g).ptp = f.ptp := rfl
@[simp] theorem FieldDie.setPortX_tim (f : FieldDie) (n : Nat) (g : PortX → PortX) : (f.setPortX n g).tim = f.tim := rfl
@[simp] theorem FieldDie.setPortX_str (f : FieldDie) (n : Nat) (g : PortX → PortX) : (f.setPortX n g).str = f.str := rfl
@[simp] theorem FieldDie.setPortX_fwd (f : FieldDie) (n : Nat) (g : PortX → PortX) : (f.setPortX n g).fwd = f.fwd := rfl
@[simp] theorem FieldDie.setPortX_buf (f : FieldDie) (n : Nat) (g : PortX → PortX) : (f.setPortX n g).buf = f.buf := rfl
@[simp] theorem FieldDie.setPortX_key (f : FieldDie) (n : Nat) (g : PortX → PortX) : (f.setPortX n g).key = f.key := rfl
@[simp] theorem FieldDie.setPortX_spi (f : FieldDie) (n : Nat) (g : PortX → PortX) : (f.setPortX n g).spi = f.spi := rfl
@[simp] theorem FieldDie.setPortX_pin (f : FieldDie) (n : Nat) (g : PortX → PortX) : (f.setPortX n g).pin = f.pin := rfl
@[simp] theorem FieldDie.setPortX_ptb (f : FieldDie) (n : Nat) (g : PortX → PortX) : (f.setPortX n g).ptb = f.ptb := rfl
@[simp] theorem FieldDie.setPortX_freeCtr (f : FieldDie) (n : Nat) (g : PortX → PortX) : (f.setPortX n g).freeCtr = f.freeCtr := rfl
@[simp] theorem FieldDie.setPortX_out (f : FieldDie) (n : Nat) (g : PortX → PortX) : (f.setPortX n g).out = f.out := rfl

/-! `FieldDie.setSegX` -/
@[simp] theorem FieldDie.setSegX_order (f : FieldDie) (n : Nat) (g : SegX → SegX) : (f.setSegX n g).order = f.order := rfl
@[simp] theorem FieldDie.setSegX_dieId (f : FieldDie) (n : Nat) (g : SegX → SegX) : (f.setSegX n g).dieId = f.dieId := rfl
@[simp] theorem FieldDie.setSegX_straps (f : FieldDie) (n : Nat) (g : SegX → SegX) : (f.setSegX n g).straps = f.straps := rfl
@[simp] theorem FieldDie.setSegX_phase (f : FieldDie) (n : Nat) (g : SegX → SegX) : (f.setSegX n g).phase = f.phase := rfl
@[simp] theorem FieldDie.setSegX_resetBy (f : FieldDie) (n : Nat) (g : SegX → SegX) : (f.setSegX n g).resetBy = f.resetBy := rfl
@[simp] theorem FieldDie.setSegX_reg (f : FieldDie) (n : Nat) (g : SegX → SegX) : (f.setSegX n g).reg = f.reg := rfl
@[simp] theorem FieldDie.setSegX_staged (f : FieldDie) (n : Nat) (g : SegX → SegX) : (f.setSegX n g).staged = f.staged := rfl
@[simp] theorem FieldDie.setSegX_cnt (f : FieldDie) (n : Nat) (g : SegX → SegX) : (f.setSegX n g).cnt = f.cnt := rfl
@[simp] theorem FieldDie.setSegX_snapHost (f : FieldDie) (n : Nat) (g : SegX → SegX) : (f.setSegX n g).snapHost = f.snapHost := rfl
@[simp] theorem FieldDie.setSegX_snapSerial (f : FieldDie) (n : Nat) (g : SegX → SegX) : (f.setSegX n g).snapSerial = f.snapSerial := rfl
@[simp] theorem FieldDie.setSegX_window (f : FieldDie) (n : Nat) (g : SegX → SegX) : (f.setSegX n g).window = f.window := rfl
@[simp] theorem FieldDie.setSegX_arrivals (f : FieldDie) (n : Nat) (g : SegX → SegX) : (f.setSegX n g).arrivals = f.arrivals := rfl
@[simp] theorem FieldDie.setSegX_launch (f : FieldDie) (n : Nat) (g : SegX → SegX) : (f.setSegX n g).launch = f.launch := rfl
@[simp] theorem FieldDie.setSegX_winMod (f : FieldDie) (n : Nat) (g : SegX → SegX) : (f.setSegX n g).winMod = f.winMod := rfl
@[simp] theorem FieldDie.setSegX_evtq (f : FieldDie) (n : Nat) (g : SegX → SegX) : (f.setSegX n g).evtq = f.evtq := rfl
@[simp] theorem FieldDie.setSegX_evtLost (f : FieldDie) (n : Nat) (g : SegX → SegX) : (f.setSegX n g).evtLost = f.evtLost := rfl
@[simp] theorem FieldDie.setSegX_xng (f : FieldDie) (n : Nat) (g : SegX → SegX) : (f.setSegX n g).xng = f.xng := rfl
@[simp] theorem FieldDie.setSegX_twin (f : FieldDie) (n : Nat) (g : SegX → SegX) : (f.setSegX n g).twin = f.twin := rfl
@[simp] theorem FieldDie.setSegX_cfg (f : FieldDie) (n : Nat) (g : SegX → SegX) : (f.setSegX n g).cfg = f.cfg := rfl
@[simp] theorem FieldDie.setSegX_flt (f : FieldDie) (n : Nat) (g : SegX → SegX) : (f.setSegX n g).flt = f.flt := rfl
@[simp] theorem FieldDie.setSegX_twn (f : FieldDie) (n : Nat) (g : SegX → SegX) : (f.setSegX n g).twn = f.twn := rfl
@[simp] theorem FieldDie.setSegX_pwr (f : FieldDie) (n : Nat) (g : SegX → SegX) : (f.setSegX n g).pwr = f.pwr := rfl
@[simp] theorem FieldDie.setSegX_ports (f : FieldDie) (n : Nat) (g : SegX → SegX) : (f.setSegX n g).ports = f.ports := rfl
@[simp] theorem FieldDie.setSegX_gates (f : FieldDie) (n : Nat) (g : SegX → SegX) : (f.setSegX n g).gates = f.gates := rfl
@[simp] theorem FieldDie.setSegX_ptp (f : FieldDie) (n : Nat) (g : SegX → SegX) : (f.setSegX n g).ptp = f.ptp := rfl
@[simp] theorem FieldDie.setSegX_tim (f : FieldDie) (n : Nat) (g : SegX → SegX) : (f.setSegX n g).tim = f.tim := rfl
@[simp] theorem FieldDie.setSegX_str (f : FieldDie) (n : Nat) (g : SegX → SegX) : (f.setSegX n g).str = f.str := rfl
@[simp] theorem FieldDie.setSegX_fwd (f : FieldDie) (n : Nat) (g : SegX → SegX) : (f.setSegX n g).fwd = f.fwd := rfl
@[simp] theorem FieldDie.setSegX_buf (f : FieldDie) (n : Nat) (g : SegX → SegX) : (f.setSegX n g).buf = f.buf := rfl
@[simp] theorem FieldDie.setSegX_key (f : FieldDie) (n : Nat) (g : SegX → SegX) : (f.setSegX n g).key = f.key := rfl
@[simp] theorem FieldDie.setSegX_spi (f : FieldDie) (n : Nat) (g : SegX → SegX) : (f.setSegX n g).spi = f.spi := rfl
@[simp] theorem FieldDie.setSegX_pin (f : FieldDie) (n : Nat) (g : SegX → SegX) : (f.setSegX n g).pin = f.pin := rfl
@[simp] theorem FieldDie.setSegX_ptb (f : FieldDie) (n : Nat) (g : SegX → SegX) : (f.setSegX n g).ptb = f.ptb := rfl
@[simp] theorem FieldDie.setSegX_freeCtr (f : FieldDie) (n : Nat) (g : SegX → SegX) : (f.setSegX n g).freeCtr = f.freeCtr := rfl
@[simp] theorem FieldDie.setSegX_out (f : FieldDie) (n : Nat) (g : SegX → SegX) : (f.setSegX n g).out = f.out := rfl

/-! `FieldDie.setGateX` -/
@[simp] theorem FieldDie.setGateX_order (f : FieldDie) (n : Nat) (g : GateX → GateX) : (f.setGateX n g).order = f.order := rfl
@[simp] theorem FieldDie.setGateX_dieId (f : FieldDie) (n : Nat) (g : GateX → GateX) : (f.setGateX n g).dieId = f.dieId := rfl
@[simp] theorem FieldDie.setGateX_straps (f : FieldDie) (n : Nat) (g : GateX → GateX) : (f.setGateX n g).straps = f.straps := rfl
@[simp] theorem FieldDie.setGateX_phase (f : FieldDie) (n : Nat) (g : GateX → GateX) : (f.setGateX n g).phase = f.phase := rfl
@[simp] theorem FieldDie.setGateX_resetBy (f : FieldDie) (n : Nat) (g : GateX → GateX) : (f.setGateX n g).resetBy = f.resetBy := rfl
@[simp] theorem FieldDie.setGateX_reg (f : FieldDie) (n : Nat) (g : GateX → GateX) : (f.setGateX n g).reg = f.reg := rfl
@[simp] theorem FieldDie.setGateX_staged (f : FieldDie) (n : Nat) (g : GateX → GateX) : (f.setGateX n g).staged = f.staged := rfl
@[simp] theorem FieldDie.setGateX_cnt (f : FieldDie) (n : Nat) (g : GateX → GateX) : (f.setGateX n g).cnt = f.cnt := rfl
@[simp] theorem FieldDie.setGateX_snapHost (f : FieldDie) (n : Nat) (g : GateX → GateX) : (f.setGateX n g).snapHost = f.snapHost := rfl
@[simp] theorem FieldDie.setGateX_snapSerial (f : FieldDie) (n : Nat) (g : GateX → GateX) : (f.setGateX n g).snapSerial = f.snapSerial := rfl
@[simp] theorem FieldDie.setGateX_window (f : FieldDie) (n : Nat) (g : GateX → GateX) : (f.setGateX n g).window = f.window := rfl
@[simp] theorem FieldDie.setGateX_arrivals (f : FieldDie) (n : Nat) (g : GateX → GateX) : (f.setGateX n g).arrivals = f.arrivals := rfl
@[simp] theorem FieldDie.setGateX_launch (f : FieldDie) (n : Nat) (g : GateX → GateX) : (f.setGateX n g).launch = f.launch := rfl
@[simp] theorem FieldDie.setGateX_winMod (f : FieldDie) (n : Nat) (g : GateX → GateX) : (f.setGateX n g).winMod = f.winMod := rfl
@[simp] theorem FieldDie.setGateX_evtq (f : FieldDie) (n : Nat) (g : GateX → GateX) : (f.setGateX n g).evtq = f.evtq := rfl
@[simp] theorem FieldDie.setGateX_evtLost (f : FieldDie) (n : Nat) (g : GateX → GateX) : (f.setGateX n g).evtLost = f.evtLost := rfl
@[simp] theorem FieldDie.setGateX_xng (f : FieldDie) (n : Nat) (g : GateX → GateX) : (f.setGateX n g).xng = f.xng := rfl
@[simp] theorem FieldDie.setGateX_twin (f : FieldDie) (n : Nat) (g : GateX → GateX) : (f.setGateX n g).twin = f.twin := rfl
@[simp] theorem FieldDie.setGateX_cfg (f : FieldDie) (n : Nat) (g : GateX → GateX) : (f.setGateX n g).cfg = f.cfg := rfl
@[simp] theorem FieldDie.setGateX_flt (f : FieldDie) (n : Nat) (g : GateX → GateX) : (f.setGateX n g).flt = f.flt := rfl
@[simp] theorem FieldDie.setGateX_twn (f : FieldDie) (n : Nat) (g : GateX → GateX) : (f.setGateX n g).twn = f.twn := rfl
@[simp] theorem FieldDie.setGateX_pwr (f : FieldDie) (n : Nat) (g : GateX → GateX) : (f.setGateX n g).pwr = f.pwr := rfl
@[simp] theorem FieldDie.setGateX_ports (f : FieldDie) (n : Nat) (g : GateX → GateX) : (f.setGateX n g).ports = f.ports := rfl
@[simp] theorem FieldDie.setGateX_segs (f : FieldDie) (n : Nat) (g : GateX → GateX) : (f.setGateX n g).segs = f.segs := rfl
@[simp] theorem FieldDie.setGateX_ptp (f : FieldDie) (n : Nat) (g : GateX → GateX) : (f.setGateX n g).ptp = f.ptp := rfl
@[simp] theorem FieldDie.setGateX_tim (f : FieldDie) (n : Nat) (g : GateX → GateX) : (f.setGateX n g).tim = f.tim := rfl
@[simp] theorem FieldDie.setGateX_str (f : FieldDie) (n : Nat) (g : GateX → GateX) : (f.setGateX n g).str = f.str := rfl
@[simp] theorem FieldDie.setGateX_fwd (f : FieldDie) (n : Nat) (g : GateX → GateX) : (f.setGateX n g).fwd = f.fwd := rfl
@[simp] theorem FieldDie.setGateX_buf (f : FieldDie) (n : Nat) (g : GateX → GateX) : (f.setGateX n g).buf = f.buf := rfl
@[simp] theorem FieldDie.setGateX_key (f : FieldDie) (n : Nat) (g : GateX → GateX) : (f.setGateX n g).key = f.key := rfl
@[simp] theorem FieldDie.setGateX_spi (f : FieldDie) (n : Nat) (g : GateX → GateX) : (f.setGateX n g).spi = f.spi := rfl
@[simp] theorem FieldDie.setGateX_pin (f : FieldDie) (n : Nat) (g : GateX → GateX) : (f.setGateX n g).pin = f.pin := rfl
@[simp] theorem FieldDie.setGateX_ptb (f : FieldDie) (n : Nat) (g : GateX → GateX) : (f.setGateX n g).ptb = f.ptb := rfl
@[simp] theorem FieldDie.setGateX_freeCtr (f : FieldDie) (n : Nat) (g : GateX → GateX) : (f.setGateX n g).freeCtr = f.freeCtr := rfl
@[simp] theorem FieldDie.setGateX_out (f : FieldDie) (n : Nat) (g : GateX → GateX) : (f.setGateX n g).out = f.out := rfl

/-! `FieldDie.setPtpX` -/
@[simp] theorem FieldDie.setPtpX_order (f : FieldDie) (n : Nat) (g : PtpX → PtpX) : (f.setPtpX n g).order = f.order := rfl
@[simp] theorem FieldDie.setPtpX_dieId (f : FieldDie) (n : Nat) (g : PtpX → PtpX) : (f.setPtpX n g).dieId = f.dieId := rfl
@[simp] theorem FieldDie.setPtpX_straps (f : FieldDie) (n : Nat) (g : PtpX → PtpX) : (f.setPtpX n g).straps = f.straps := rfl
@[simp] theorem FieldDie.setPtpX_phase (f : FieldDie) (n : Nat) (g : PtpX → PtpX) : (f.setPtpX n g).phase = f.phase := rfl
@[simp] theorem FieldDie.setPtpX_resetBy (f : FieldDie) (n : Nat) (g : PtpX → PtpX) : (f.setPtpX n g).resetBy = f.resetBy := rfl
@[simp] theorem FieldDie.setPtpX_reg (f : FieldDie) (n : Nat) (g : PtpX → PtpX) : (f.setPtpX n g).reg = f.reg := rfl
@[simp] theorem FieldDie.setPtpX_staged (f : FieldDie) (n : Nat) (g : PtpX → PtpX) : (f.setPtpX n g).staged = f.staged := rfl
@[simp] theorem FieldDie.setPtpX_cnt (f : FieldDie) (n : Nat) (g : PtpX → PtpX) : (f.setPtpX n g).cnt = f.cnt := rfl
@[simp] theorem FieldDie.setPtpX_snapHost (f : FieldDie) (n : Nat) (g : PtpX → PtpX) : (f.setPtpX n g).snapHost = f.snapHost := rfl
@[simp] theorem FieldDie.setPtpX_snapSerial (f : FieldDie) (n : Nat) (g : PtpX → PtpX) : (f.setPtpX n g).snapSerial = f.snapSerial := rfl
@[simp] theorem FieldDie.setPtpX_window (f : FieldDie) (n : Nat) (g : PtpX → PtpX) : (f.setPtpX n g).window = f.window := rfl
@[simp] theorem FieldDie.setPtpX_arrivals (f : FieldDie) (n : Nat) (g : PtpX → PtpX) : (f.setPtpX n g).arrivals = f.arrivals := rfl
@[simp] theorem FieldDie.setPtpX_launch (f : FieldDie) (n : Nat) (g : PtpX → PtpX) : (f.setPtpX n g).launch = f.launch := rfl
@[simp] theorem FieldDie.setPtpX_winMod (f : FieldDie) (n : Nat) (g : PtpX → PtpX) : (f.setPtpX n g).winMod = f.winMod := rfl
@[simp] theorem FieldDie.setPtpX_evtq (f : FieldDie) (n : Nat) (g : PtpX → PtpX) : (f.setPtpX n g).evtq = f.evtq := rfl
@[simp] theorem FieldDie.setPtpX_evtLost (f : FieldDie) (n : Nat) (g : PtpX → PtpX) : (f.setPtpX n g).evtLost = f.evtLost := rfl
@[simp] theorem FieldDie.setPtpX_xng (f : FieldDie) (n : Nat) (g : PtpX → PtpX) : (f.setPtpX n g).xng = f.xng := rfl
@[simp] theorem FieldDie.setPtpX_twin (f : FieldDie) (n : Nat) (g : PtpX → PtpX) : (f.setPtpX n g).twin = f.twin := rfl
@[simp] theorem FieldDie.setPtpX_cfg (f : FieldDie) (n : Nat) (g : PtpX → PtpX) : (f.setPtpX n g).cfg = f.cfg := rfl
@[simp] theorem FieldDie.setPtpX_flt (f : FieldDie) (n : Nat) (g : PtpX → PtpX) : (f.setPtpX n g).flt = f.flt := rfl
@[simp] theorem FieldDie.setPtpX_twn (f : FieldDie) (n : Nat) (g : PtpX → PtpX) : (f.setPtpX n g).twn = f.twn := rfl
@[simp] theorem FieldDie.setPtpX_pwr (f : FieldDie) (n : Nat) (g : PtpX → PtpX) : (f.setPtpX n g).pwr = f.pwr := rfl
@[simp] theorem FieldDie.setPtpX_ports (f : FieldDie) (n : Nat) (g : PtpX → PtpX) : (f.setPtpX n g).ports = f.ports := rfl
@[simp] theorem FieldDie.setPtpX_segs (f : FieldDie) (n : Nat) (g : PtpX → PtpX) : (f.setPtpX n g).segs = f.segs := rfl
@[simp] theorem FieldDie.setPtpX_gates (f : FieldDie) (n : Nat) (g : PtpX → PtpX) : (f.setPtpX n g).gates = f.gates := rfl
@[simp] theorem FieldDie.setPtpX_tim (f : FieldDie) (n : Nat) (g : PtpX → PtpX) : (f.setPtpX n g).tim = f.tim := rfl
@[simp] theorem FieldDie.setPtpX_str (f : FieldDie) (n : Nat) (g : PtpX → PtpX) : (f.setPtpX n g).str = f.str := rfl
@[simp] theorem FieldDie.setPtpX_fwd (f : FieldDie) (n : Nat) (g : PtpX → PtpX) : (f.setPtpX n g).fwd = f.fwd := rfl
@[simp] theorem FieldDie.setPtpX_buf (f : FieldDie) (n : Nat) (g : PtpX → PtpX) : (f.setPtpX n g).buf = f.buf := rfl
@[simp] theorem FieldDie.setPtpX_key (f : FieldDie) (n : Nat) (g : PtpX → PtpX) : (f.setPtpX n g).key = f.key := rfl
@[simp] theorem FieldDie.setPtpX_spi (f : FieldDie) (n : Nat) (g : PtpX → PtpX) : (f.setPtpX n g).spi = f.spi := rfl
@[simp] theorem FieldDie.setPtpX_pin (f : FieldDie) (n : Nat) (g : PtpX → PtpX) : (f.setPtpX n g).pin = f.pin := rfl
@[simp] theorem FieldDie.setPtpX_ptb (f : FieldDie) (n : Nat) (g : PtpX → PtpX) : (f.setPtpX n g).ptb = f.ptb := rfl
@[simp] theorem FieldDie.setPtpX_freeCtr (f : FieldDie) (n : Nat) (g : PtpX → PtpX) : (f.setPtpX n g).freeCtr = f.freeCtr := rfl
@[simp] theorem FieldDie.setPtpX_out (f : FieldDie) (n : Nat) (g : PtpX → PtpX) : (f.setPtpX n g).out = f.out := rfl

/-! `FieldDie.napBreak` -/
@[simp] theorem FieldDie.napBreak_order (f : FieldDie) : f.napBreak.order = f.order := rfl
@[simp] theorem FieldDie.napBreak_dieId (f : FieldDie) : f.napBreak.dieId = f.dieId := rfl
@[simp] theorem FieldDie.napBreak_straps (f : FieldDie) : f.napBreak.straps = f.straps := rfl
@[simp] theorem FieldDie.napBreak_phase (f : FieldDie) : f.napBreak.phase = f.phase := rfl
@[simp] theorem FieldDie.napBreak_resetBy (f : FieldDie) : f.napBreak.resetBy = f.resetBy := rfl
@[simp] theorem FieldDie.napBreak_reg (f : FieldDie) : f.napBreak.reg = f.reg := rfl
@[simp] theorem FieldDie.napBreak_staged (f : FieldDie) : f.napBreak.staged = f.staged := rfl
@[simp] theorem FieldDie.napBreak_cnt (f : FieldDie) : f.napBreak.cnt = f.cnt := rfl
@[simp] theorem FieldDie.napBreak_snapHost (f : FieldDie) : f.napBreak.snapHost = f.snapHost := rfl
@[simp] theorem FieldDie.napBreak_snapSerial (f : FieldDie) : f.napBreak.snapSerial = f.snapSerial := rfl
@[simp] theorem FieldDie.napBreak_window (f : FieldDie) : f.napBreak.window = f.window := rfl
@[simp] theorem FieldDie.napBreak_arrivals (f : FieldDie) : f.napBreak.arrivals = f.arrivals := rfl
@[simp] theorem FieldDie.napBreak_launch (f : FieldDie) : f.napBreak.launch = f.launch := rfl
@[simp] theorem FieldDie.napBreak_winMod (f : FieldDie) : f.napBreak.winMod = f.winMod := rfl
@[simp] theorem FieldDie.napBreak_evtq (f : FieldDie) : f.napBreak.evtq = f.evtq := rfl
@[simp] theorem FieldDie.napBreak_evtLost (f : FieldDie) : f.napBreak.evtLost = f.evtLost := rfl
@[simp] theorem FieldDie.napBreak_xng (f : FieldDie) : f.napBreak.xng = f.xng := rfl
@[simp] theorem FieldDie.napBreak_twin (f : FieldDie) : f.napBreak.twin = f.twin := rfl
@[simp] theorem FieldDie.napBreak_cfg (f : FieldDie) : f.napBreak.cfg = f.cfg := rfl
@[simp] theorem FieldDie.napBreak_flt (f : FieldDie) : f.napBreak.flt = f.flt := rfl
@[simp] theorem FieldDie.napBreak_twn (f : FieldDie) : f.napBreak.twn = f.twn := rfl
@[simp] theorem FieldDie.napBreak_ports (f : FieldDie) : f.napBreak.ports = f.ports := rfl
@[simp] theorem FieldDie.napBreak_segs (f : FieldDie) : f.napBreak.segs = f.segs := rfl
@[simp] theorem FieldDie.napBreak_gates (f : FieldDie) : f.napBreak.gates = f.gates := rfl
@[simp] theorem FieldDie.napBreak_ptp (f : FieldDie) : f.napBreak.ptp = f.ptp := rfl
@[simp] theorem FieldDie.napBreak_tim (f : FieldDie) : f.napBreak.tim = f.tim := rfl
@[simp] theorem FieldDie.napBreak_str (f : FieldDie) : f.napBreak.str = f.str := rfl
@[simp] theorem FieldDie.napBreak_fwd (f : FieldDie) : f.napBreak.fwd = f.fwd := rfl
@[simp] theorem FieldDie.napBreak_buf (f : FieldDie) : f.napBreak.buf = f.buf := rfl
@[simp] theorem FieldDie.napBreak_key (f : FieldDie) : f.napBreak.key = f.key := rfl
@[simp] theorem FieldDie.napBreak_spi (f : FieldDie) : f.napBreak.spi = f.spi := rfl
@[simp] theorem FieldDie.napBreak_pin (f : FieldDie) : f.napBreak.pin = f.pin := rfl
@[simp] theorem FieldDie.napBreak_ptb (f : FieldDie) : f.napBreak.ptb = f.ptb := rfl
@[simp] theorem FieldDie.napBreak_freeCtr (f : FieldDie) : f.napBreak.freeCtr = f.freeCtr := rfl
@[simp] theorem FieldDie.napBreak_out (f : FieldDie) : f.napBreak.out = f.out := rfl

/-! `HostDie.wr` -/
@[simp] theorem HostDie.wr_cnt (h : HostDie) (a : Nat) (w : Word) : (h.wr a w).cnt = h.cnt := rfl
@[simp] theorem HostDie.wr_staged (h : HostDie) (a : Nat) (w : Word) : (h.wr a w).staged = h.staged := rfl
@[simp] theorem HostDie.wr_inReset (h : HostDie) (a : Nat) (w : Word) : (h.wr a w).inReset = h.inReset := rfl
@[simp] theorem HostDie.wr_dstate (h : HostDie) (a : Nat) (w : Word) : (h.wr a w).dstate = h.dstate := rfl
@[simp] theorem HostDie.wr_xng (h : HostDie) (a : Nat) (w : Word) : (h.wr a w).xng = h.xng := rfl
@[simp] theorem HostDie.wr_holdq (h : HostDie) (a : Nat) (w : Word) : (h.wr a w).holdq = h.holdq := rfl
@[simp] theorem HostDie.wr_reads (h : HostDie) (a : Nat) (w : Word) : (h.wr a w).reads = h.reads := rfl
@[simp] theorem HostDie.wr_tags (h : HostDie) (a : Nat) (w : Word) : (h.wr a w).tags = h.tags := rfl
@[simp] theorem HostDie.wr_bme (h : HostDie) (a : Nat) (w : Word) : (h.wr a w).bme = h.bme := rfl
@[simp] theorem HostDie.wr_msixEn (h : HostDie) (a : Nat) (w : Word) : (h.wr a w).msixEn = h.msixEn := rfl
@[simp] theorem HostDie.wr_msixMask (h : HostDie) (a : Nat) (w : Word) : (h.wr a w).msixMask = h.msixMask := rfl
@[simp] theorem HostDie.wr_vfEnable (h : HostDie) (a : Nat) (w : Word) : (h.wr a w).vfEnable = h.vfEnable := rfl
@[simp] theorem HostDie.wr_numVfs (h : HostDie) (a : Nat) (w : Word) : (h.wr a w).numVfs = h.numVfs := rfl
@[simp] theorem HostDie.wr_msixPba (h : HostDie) (a : Nat) (w : Word) : (h.wr a w).msixPba = h.msixPba := rfl
@[simp] theorem HostDie.wr_mod (h : HostDie) (a : Nat) (w : Word) : (h.wr a w).mod = h.mod := rfl
@[simp] theorem HostDie.wr_evLost (h : HostDie) (a : Nat) (w : Word) : (h.wr a w).evLost = h.evLost := rfl
@[simp] theorem HostDie.wr_ready (h : HostDie) (a : Nat) (w : Word) : (h.wr a w).ready = h.ready := rfl
@[simp] theorem HostDie.wr_sending (h : HostDie) (a : Nat) (w : Word) : (h.wr a w).sending = h.sending := rfl
@[simp] theorem HostDie.wr_crossing (h : HostDie) (a : Nat) (w : Word) : (h.wr a w).crossing = h.crossing := rfl
@[simp] theorem HostDie.wr_rxFrames (h : HostDie) (a : Nat) (w : Word) : (h.wr a w).rxFrames = h.rxFrames := rfl
@[simp] theorem HostDie.wr_mirrors (h : HostDie) (a : Nat) (w : Word) : (h.wr a w).mirrors = h.mirrors := rfl
@[simp] theorem HostDie.wr_corrSys (h : HostDie) (a : Nat) (w : Word) : (h.wr a w).corrSys = h.corrSys := rfl
@[simp] theorem HostDie.wr_corrPtm (h : HostDie) (a : Nat) (w : Word) : (h.wr a w).corrPtm = h.corrPtm := rfl
@[simp] theorem HostDie.wr_ptb (h : HostDie) (a : Nat) (w : Word) : (h.wr a w).ptb = h.ptb := rfl
@[simp] theorem HostDie.wr_latched (h : HostDie) (a : Nat) (w : Word) : (h.wr a w).latched = h.latched := rfl
@[simp] theorem HostDie.wr_rrHi (h : HostDie) (a : Nat) (w : Word) : (h.wr a w).rrHi = h.rrHi := rfl
@[simp] theorem HostDie.wr_rrLo (h : HostDie) (a : Nat) (w : Word) : (h.wr a w).rrLo = h.rrLo := rfl
@[simp] theorem HostDie.wr_freeCtr (h : HostDie) (a : Nat) (w : Word) : (h.wr a w).freeCtr = h.freeCtr := rfl
@[simp] theorem HostDie.wr_out (h : HostDie) (a : Nat) (w : Word) : (h.wr a w).out = h.out := rfl

/-! `HostDie.wrN` -/
@[simp] theorem HostDie.wrN_cnt (h : HostDie) (a v : Nat) : (h.wrN a v).cnt = h.cnt := rfl
@[simp] theorem HostDie.wrN_staged (h : HostDie) (a v : Nat) : (h.wrN a v).staged = h.staged := rfl
@[simp] theorem HostDie.wrN_inReset (h : HostDie) (a v : Nat) : (h.wrN a v).inReset = h.inReset := rfl
@[simp] theorem HostDie.wrN_dstate (h : HostDie) (a v : Nat) : (h.wrN a v).dstate = h.dstate := rfl
@[simp] theorem HostDie.wrN_xng (h : HostDie) (a v : Nat) : (h.wrN a v).xng = h.xng := rfl
@[simp] theorem HostDie.wrN_holdq (h : HostDie) (a v : Nat) : (h.wrN a v).holdq = h.holdq := rfl
@[simp] theorem HostDie.wrN_reads (h : HostDie) (a v : Nat) : (h.wrN a v).reads = h.reads := rfl
@[simp] theorem HostDie.wrN_tags (h : HostDie) (a v : Nat) : (h.wrN a v).tags = h.tags := rfl
@[simp] theorem HostDie.wrN_bme (h : HostDie) (a v : Nat) : (h.wrN a v).bme = h.bme := rfl
@[simp] theorem HostDie.wrN_msixEn (h : HostDie) (a v : Nat) : (h.wrN a v).msixEn = h.msixEn := rfl
@[simp] theorem HostDie.wrN_msixMask (h : HostDie) (a v : Nat) : (h.wrN a v).msixMask = h.msixMask := rfl
@[simp] theorem HostDie.wrN_vfEnable (h : HostDie) (a v : Nat) : (h.wrN a v).vfEnable = h.vfEnable := rfl
@[simp] theorem HostDie.wrN_numVfs (h : HostDie) (a v : Nat) : (h.wrN a v).numVfs = h.numVfs := rfl
@[simp] theorem HostDie.wrN_msixPba (h : HostDie) (a v : Nat) : (h.wrN a v).msixPba = h.msixPba := rfl
@[simp] theorem HostDie.wrN_mod (h : HostDie) (a v : Nat) : (h.wrN a v).mod = h.mod := rfl
@[simp] theorem HostDie.wrN_evLost (h : HostDie) (a v : Nat) : (h.wrN a v).evLost = h.evLost := rfl
@[simp] theorem HostDie.wrN_ready (h : HostDie) (a v : Nat) : (h.wrN a v).ready = h.ready := rfl
@[simp] theorem HostDie.wrN_sending (h : HostDie) (a v : Nat) : (h.wrN a v).sending = h.sending := rfl
@[simp] theorem HostDie.wrN_crossing (h : HostDie) (a v : Nat) : (h.wrN a v).crossing = h.crossing := rfl
@[simp] theorem HostDie.wrN_rxFrames (h : HostDie) (a v : Nat) : (h.wrN a v).rxFrames = h.rxFrames := rfl
@[simp] theorem HostDie.wrN_mirrors (h : HostDie) (a v : Nat) : (h.wrN a v).mirrors = h.mirrors := rfl
@[simp] theorem HostDie.wrN_corrSys (h : HostDie) (a v : Nat) : (h.wrN a v).corrSys = h.corrSys := rfl
@[simp] theorem HostDie.wrN_corrPtm (h : HostDie) (a v : Nat) : (h.wrN a v).corrPtm = h.corrPtm := rfl
@[simp] theorem HostDie.wrN_ptb (h : HostDie) (a v : Nat) : (h.wrN a v).ptb = h.ptb := rfl
@[simp] theorem HostDie.wrN_latched (h : HostDie) (a v : Nat) : (h.wrN a v).latched = h.latched := rfl
@[simp] theorem HostDie.wrN_rrHi (h : HostDie) (a v : Nat) : (h.wrN a v).rrHi = h.rrHi := rfl
@[simp] theorem HostDie.wrN_rrLo (h : HostDie) (a v : Nat) : (h.wrN a v).rrLo = h.rrLo := rfl
@[simp] theorem HostDie.wrN_freeCtr (h : HostDie) (a v : Nat) : (h.wrN a v).freeCtr = h.freeCtr := rfl
@[simp] theorem HostDie.wrN_out (h : HostDie) (a v : Nat) : (h.wrN a v).out = h.out := rfl

/-! `HostDie.put` -/
@[simp] theorem HostDie.put_cnt (h : HostDie) (r : Fld) (v : Nat) : (h.put r v).cnt = h.cnt := rfl
@[simp] theorem HostDie.put_staged (h : HostDie) (r : Fld) (v : Nat) : (h.put r v).staged = h.staged := rfl
@[simp] theorem HostDie.put_inReset (h : HostDie) (r : Fld) (v : Nat) : (h.put r v).inReset = h.inReset := rfl
@[simp] theorem HostDie.put_dstate (h : HostDie) (r : Fld) (v : Nat) : (h.put r v).dstate = h.dstate := rfl
@[simp] theorem HostDie.put_xng (h : HostDie) (r : Fld) (v : Nat) : (h.put r v).xng = h.xng := rfl
@[simp] theorem HostDie.put_holdq (h : HostDie) (r : Fld) (v : Nat) : (h.put r v).holdq = h.holdq := rfl
@[simp] theorem HostDie.put_reads (h : HostDie) (r : Fld) (v : Nat) : (h.put r v).reads = h.reads := rfl
@[simp] theorem HostDie.put_tags (h : HostDie) (r : Fld) (v : Nat) : (h.put r v).tags = h.tags := rfl
@[simp] theorem HostDie.put_bme (h : HostDie) (r : Fld) (v : Nat) : (h.put r v).bme = h.bme := rfl
@[simp] theorem HostDie.put_msixEn (h : HostDie) (r : Fld) (v : Nat) : (h.put r v).msixEn = h.msixEn := rfl
@[simp] theorem HostDie.put_msixMask (h : HostDie) (r : Fld) (v : Nat) : (h.put r v).msixMask = h.msixMask := rfl
@[simp] theorem HostDie.put_vfEnable (h : HostDie) (r : Fld) (v : Nat) : (h.put r v).vfEnable = h.vfEnable := rfl
@[simp] theorem HostDie.put_numVfs (h : HostDie) (r : Fld) (v : Nat) : (h.put r v).numVfs = h.numVfs := rfl
@[simp] theorem HostDie.put_msixPba (h : HostDie) (r : Fld) (v : Nat) : (h.put r v).msixPba = h.msixPba := rfl
@[simp] theorem HostDie.put_mod (h : HostDie) (r : Fld) (v : Nat) : (h.put r v).mod = h.mod := rfl
@[simp] theorem HostDie.put_evLost (h : HostDie) (r : Fld) (v : Nat) : (h.put r v).evLost = h.evLost := rfl
@[simp] theorem HostDie.put_ready (h : HostDie) (r : Fld) (v : Nat) : (h.put r v).ready = h.ready := rfl
@[simp] theorem HostDie.put_sending (h : HostDie) (r : Fld) (v : Nat) : (h.put r v).sending = h.sending := rfl
@[simp] theorem HostDie.put_crossing (h : HostDie) (r : Fld) (v : Nat) : (h.put r v).crossing = h.crossing := rfl
@[simp] theorem HostDie.put_rxFrames (h : HostDie) (r : Fld) (v : Nat) : (h.put r v).rxFrames = h.rxFrames := rfl
@[simp] theorem HostDie.put_mirrors (h : HostDie) (r : Fld) (v : Nat) : (h.put r v).mirrors = h.mirrors := rfl
@[simp] theorem HostDie.put_corrSys (h : HostDie) (r : Fld) (v : Nat) : (h.put r v).corrSys = h.corrSys := rfl
@[simp] theorem HostDie.put_corrPtm (h : HostDie) (r : Fld) (v : Nat) : (h.put r v).corrPtm = h.corrPtm := rfl
@[simp] theorem HostDie.put_ptb (h : HostDie) (r : Fld) (v : Nat) : (h.put r v).ptb = h.ptb := rfl
@[simp] theorem HostDie.put_latched (h : HostDie) (r : Fld) (v : Nat) : (h.put r v).latched = h.latched := rfl
@[simp] theorem HostDie.put_rrHi (h : HostDie) (r : Fld) (v : Nat) : (h.put r v).rrHi = h.rrHi := rfl
@[simp] theorem HostDie.put_rrLo (h : HostDie) (r : Fld) (v : Nat) : (h.put r v).rrLo = h.rrLo := rfl
@[simp] theorem HostDie.put_freeCtr (h : HostDie) (r : Fld) (v : Nat) : (h.put r v).freeCtr = h.freeCtr := rfl
@[simp] theorem HostDie.put_out (h : HostDie) (r : Fld) (v : Nat) : (h.put r v).out = h.out := rfl

/-! `HostDie.bump` -/
@[simp] theorem HostDie.bump_cnt (h : HostDie) (r : Fld) (n : Nat) : (h.bump r n).cnt = h.cnt := rfl
@[simp] theorem HostDie.bump_staged (h : HostDie) (r : Fld) (n : Nat) : (h.bump r n).staged = h.staged := rfl
@[simp] theorem HostDie.bump_inReset (h : HostDie) (r : Fld) (n : Nat) : (h.bump r n).inReset = h.inReset := rfl
@[simp] theorem HostDie.bump_dstate (h : HostDie) (r : Fld) (n : Nat) : (h.bump r n).dstate = h.dstate := rfl
@[simp] theorem HostDie.bump_xng (h : HostDie) (r : Fld) (n : Nat) : (h.bump r n).xng = h.xng := rfl
@[simp] theorem HostDie.bump_holdq (h : HostDie) (r : Fld) (n : Nat) : (h.bump r n).holdq = h.holdq := rfl
@[simp] theorem HostDie.bump_reads (h : HostDie) (r : Fld) (n : Nat) : (h.bump r n).reads = h.reads := rfl
@[simp] theorem HostDie.bump_tags (h : HostDie) (r : Fld) (n : Nat) : (h.bump r n).tags = h.tags := rfl
@[simp] theorem HostDie.bump_bme (h : HostDie) (r : Fld) (n : Nat) : (h.bump r n).bme = h.bme := rfl
@[simp] theorem HostDie.bump_msixEn (h : HostDie) (r : Fld) (n : Nat) : (h.bump r n).msixEn = h.msixEn := rfl
@[simp] theorem HostDie.bump_msixMask (h : HostDie) (r : Fld) (n : Nat) : (h.bump r n).msixMask = h.msixMask := rfl
@[simp] theorem HostDie.bump_vfEnable (h : HostDie) (r : Fld) (n : Nat) : (h.bump r n).vfEnable = h.vfEnable := rfl
@[simp] theorem HostDie.bump_numVfs (h : HostDie) (r : Fld) (n : Nat) : (h.bump r n).numVfs = h.numVfs := rfl
@[simp] theorem HostDie.bump_msixPba (h : HostDie) (r : Fld) (n : Nat) : (h.bump r n).msixPba = h.msixPba := rfl
@[simp] theorem HostDie.bump_mod (h : HostDie) (r : Fld) (n : Nat) : (h.bump r n).mod = h.mod := rfl
@[simp] theorem HostDie.bump_evLost (h : HostDie) (r : Fld) (n : Nat) : (h.bump r n).evLost = h.evLost := rfl
@[simp] theorem HostDie.bump_ready (h : HostDie) (r : Fld) (n : Nat) : (h.bump r n).ready = h.ready := rfl
@[simp] theorem HostDie.bump_sending (h : HostDie) (r : Fld) (n : Nat) : (h.bump r n).sending = h.sending := rfl
@[simp] theorem HostDie.bump_crossing (h : HostDie) (r : Fld) (n : Nat) : (h.bump r n).crossing = h.crossing := rfl
@[simp] theorem HostDie.bump_rxFrames (h : HostDie) (r : Fld) (n : Nat) : (h.bump r n).rxFrames = h.rxFrames := rfl
@[simp] theorem HostDie.bump_mirrors (h : HostDie) (r : Fld) (n : Nat) : (h.bump r n).mirrors = h.mirrors := rfl
@[simp] theorem HostDie.bump_corrSys (h : HostDie) (r : Fld) (n : Nat) : (h.bump r n).corrSys = h.corrSys := rfl
@[simp] theorem HostDie.bump_corrPtm (h : HostDie) (r : Fld) (n : Nat) : (h.bump r n).corrPtm = h.corrPtm := rfl
@[simp] theorem HostDie.bump_ptb (h : HostDie) (r : Fld) (n : Nat) : (h.bump r n).ptb = h.ptb := rfl
@[simp] theorem HostDie.bump_latched (h : HostDie) (r : Fld) (n : Nat) : (h.bump r n).latched = h.latched := rfl
@[simp] theorem HostDie.bump_rrHi (h : HostDie) (r : Fld) (n : Nat) : (h.bump r n).rrHi = h.rrHi := rfl
@[simp] theorem HostDie.bump_rrLo (h : HostDie) (r : Fld) (n : Nat) : (h.bump r n).rrLo = h.rrLo := rfl
@[simp] theorem HostDie.bump_freeCtr (h : HostDie) (r : Fld) (n : Nat) : (h.bump r n).freeCtr = h.freeCtr := rfl
@[simp] theorem HostDie.bump_out (h : HostDie) (r : Fld) (n : Nat) : (h.bump r n).out = h.out := rfl

/-! `HostDie.countN` -/
@[simp] theorem HostDie.countN_reg (h : HostDie) (a n : Nat) : (h.countN a n).reg = h.reg := rfl
@[simp] theorem HostDie.countN_staged (h : HostDie) (a n : Nat) : (h.countN a n).staged = h.staged := rfl
@[simp] theorem HostDie.countN_inReset (h : HostDie) (a n : Nat) : (h.countN a n).inReset = h.inReset := rfl
@[simp] theorem HostDie.countN_dstate (h : HostDie) (a n : Nat) : (h.countN a n).dstate = h.dstate := rfl
@[simp] theorem HostDie.countN_xng (h : HostDie) (a n : Nat) : (h.countN a n).xng = h.xng := rfl
@[simp] theorem HostDie.countN_holdq (h : HostDie) (a n : Nat) : (h.countN a n).holdq = h.holdq := rfl
@[simp] theorem HostDie.countN_reads (h : HostDie) (a n : Nat) : (h.countN a n).reads = h.reads := rfl
@[simp] theorem HostDie.countN_tags (h : HostDie) (a n : Nat) : (h.countN a n).tags = h.tags := rfl
@[simp] theorem HostDie.countN_bme (h : HostDie) (a n : Nat) : (h.countN a n).bme = h.bme := rfl
@[simp] theorem HostDie.countN_msixEn (h : HostDie) (a n : Nat) : (h.countN a n).msixEn = h.msixEn := rfl
@[simp] theorem HostDie.countN_msixMask (h : HostDie) (a n : Nat) : (h.countN a n).msixMask = h.msixMask := rfl
@[simp] theorem HostDie.countN_vfEnable (h : HostDie) (a n : Nat) : (h.countN a n).vfEnable = h.vfEnable := rfl
@[simp] theorem HostDie.countN_numVfs (h : HostDie) (a n : Nat) : (h.countN a n).numVfs = h.numVfs := rfl
@[simp] theorem HostDie.countN_msixPba (h : HostDie) (a n : Nat) : (h.countN a n).msixPba = h.msixPba := rfl
@[simp] theorem HostDie.countN_mod (h : HostDie) (a n : Nat) : (h.countN a n).mod = h.mod := rfl
@[simp] theorem HostDie.countN_evLost (h : HostDie) (a n : Nat) : (h.countN a n).evLost = h.evLost := rfl
@[simp] theorem HostDie.countN_ready (h : HostDie) (a n : Nat) : (h.countN a n).ready = h.ready := rfl
@[simp] theorem HostDie.countN_sending (h : HostDie) (a n : Nat) : (h.countN a n).sending = h.sending := rfl
@[simp] theorem HostDie.countN_crossing (h : HostDie) (a n : Nat) : (h.countN a n).crossing = h.crossing := rfl
@[simp] theorem HostDie.countN_rxFrames (h : HostDie) (a n : Nat) : (h.countN a n).rxFrames = h.rxFrames := rfl
@[simp] theorem HostDie.countN_mirrors (h : HostDie) (a n : Nat) : (h.countN a n).mirrors = h.mirrors := rfl
@[simp] theorem HostDie.countN_corrSys (h : HostDie) (a n : Nat) : (h.countN a n).corrSys = h.corrSys := rfl
@[simp] theorem HostDie.countN_corrPtm (h : HostDie) (a n : Nat) : (h.countN a n).corrPtm = h.corrPtm := rfl
@[simp] theorem HostDie.countN_ptb (h : HostDie) (a n : Nat) : (h.countN a n).ptb = h.ptb := rfl
@[simp] theorem HostDie.countN_latched (h : HostDie) (a n : Nat) : (h.countN a n).latched = h.latched := rfl
@[simp] theorem HostDie.countN_rrHi (h : HostDie) (a n : Nat) : (h.countN a n).rrHi = h.rrHi := rfl
@[simp] theorem HostDie.countN_rrLo (h : HostDie) (a n : Nat) : (h.countN a n).rrLo = h.rrLo := rfl
@[simp] theorem HostDie.countN_freeCtr (h : HostDie) (a n : Nat) : (h.countN a n).freeCtr = h.freeCtr := rfl
@[simp] theorem HostDie.countN_out (h : HostDie) (a n : Nat) : (h.countN a n).out = h.out := rfl

/-! `HostDie.count` -/
@[simp] theorem HostDie.count_reg (h : HostDie) (a : Nat) : (h.count a).reg = h.reg := rfl
@[simp] theorem HostDie.count_staged (h : HostDie) (a : Nat) : (h.count a).staged = h.staged := rfl
@[simp] theorem HostDie.count_inReset (h : HostDie) (a : Nat) : (h.count a).inReset = h.inReset := rfl
@[simp] theorem HostDie.count_dstate (h : HostDie) (a : Nat) : (h.count a).dstate = h.dstate := rfl
@[simp] theorem HostDie.count_xng (h : HostDie) (a : Nat) : (h.count a).xng = h.xng := rfl
@[simp] theorem HostDie.count_holdq (h : HostDie) (a : Nat) : (h.count a).holdq = h.holdq := rfl
@[simp] theorem HostDie.count_reads (h : HostDie) (a : Nat) : (h.count a).reads = h.reads := rfl
@[simp] theorem HostDie.count_tags (h : HostDie) (a : Nat) : (h.count a).tags = h.tags := rfl
@[simp] theorem HostDie.count_bme (h : HostDie) (a : Nat) : (h.count a).bme = h.bme := rfl
@[simp] theorem HostDie.count_msixEn (h : HostDie) (a : Nat) : (h.count a).msixEn = h.msixEn := rfl
@[simp] theorem HostDie.count_msixMask (h : HostDie) (a : Nat) : (h.count a).msixMask = h.msixMask := rfl
@[simp] theorem HostDie.count_vfEnable (h : HostDie) (a : Nat) : (h.count a).vfEnable = h.vfEnable := rfl
@[simp] theorem HostDie.count_numVfs (h : HostDie) (a : Nat) : (h.count a).numVfs = h.numVfs := rfl
@[simp] theorem HostDie.count_msixPba (h : HostDie) (a : Nat) : (h.count a).msixPba = h.msixPba := rfl
@[simp] theorem HostDie.count_mod (h : HostDie) (a : Nat) : (h.count a).mod = h.mod := rfl
@[simp] theorem HostDie.count_evLost (h : HostDie) (a : Nat) : (h.count a).evLost = h.evLost := rfl
@[simp] theorem HostDie.count_ready (h : HostDie) (a : Nat) : (h.count a).ready = h.ready := rfl
@[simp] theorem HostDie.count_sending (h : HostDie) (a : Nat) : (h.count a).sending = h.sending := rfl
@[simp] theorem HostDie.count_crossing (h : HostDie) (a : Nat) : (h.count a).crossing = h.crossing := rfl
@[simp] theorem HostDie.count_rxFrames (h : HostDie) (a : Nat) : (h.count a).rxFrames = h.rxFrames := rfl
@[simp] theorem HostDie.count_mirrors (h : HostDie) (a : Nat) : (h.count a).mirrors = h.mirrors := rfl
@[simp] theorem HostDie.count_corrSys (h : HostDie) (a : Nat) : (h.count a).corrSys = h.corrSys := rfl
@[simp] theorem HostDie.count_corrPtm (h : HostDie) (a : Nat) : (h.count a).corrPtm = h.corrPtm := rfl
@[simp] theorem HostDie.count_ptb (h : HostDie) (a : Nat) : (h.count a).ptb = h.ptb := rfl
@[simp] theorem HostDie.count_latched (h : HostDie) (a : Nat) : (h.count a).latched = h.latched := rfl
@[simp] theorem HostDie.count_rrHi (h : HostDie) (a : Nat) : (h.count a).rrHi = h.rrHi := rfl
@[simp] theorem HostDie.count_rrLo (h : HostDie) (a : Nat) : (h.count a).rrLo = h.rrLo := rfl
@[simp] theorem HostDie.count_freeCtr (h : HostDie) (a : Nat) : (h.count a).freeCtr = h.freeCtr := rfl
@[simp] theorem HostDie.count_out (h : HostDie) (a : Nat) : (h.count a).out = h.out := rfl

/-! `HostDie.emit` -/
@[simp] theorem HostDie.emit_reg (h : HostDie) (o : Output) : (h.emit o).reg = h.reg := rfl
@[simp] theorem HostDie.emit_cnt (h : HostDie) (o : Output) : (h.emit o).cnt = h.cnt := rfl
@[simp] theorem HostDie.emit_staged (h : HostDie) (o : Output) : (h.emit o).staged = h.staged := rfl
@[simp] theorem HostDie.emit_inReset (h : HostDie) (o : Output) : (h.emit o).inReset = h.inReset := rfl
@[simp] theorem HostDie.emit_dstate (h : HostDie) (o : Output) : (h.emit o).dstate = h.dstate := rfl
@[simp] theorem HostDie.emit_xng (h : HostDie) (o : Output) : (h.emit o).xng = h.xng := rfl
@[simp] theorem HostDie.emit_holdq (h : HostDie) (o : Output) : (h.emit o).holdq = h.holdq := rfl
@[simp] theorem HostDie.emit_reads (h : HostDie) (o : Output) : (h.emit o).reads = h.reads := rfl
@[simp] theorem HostDie.emit_tags (h : HostDie) (o : Output) : (h.emit o).tags = h.tags := rfl
@[simp] theorem HostDie.emit_bme (h : HostDie) (o : Output) : (h.emit o).bme = h.bme := rfl
@[simp] theorem HostDie.emit_msixEn (h : HostDie) (o : Output) : (h.emit o).msixEn = h.msixEn := rfl
@[simp] theorem HostDie.emit_msixMask (h : HostDie) (o : Output) : (h.emit o).msixMask = h.msixMask := rfl
@[simp] theorem HostDie.emit_vfEnable (h : HostDie) (o : Output) : (h.emit o).vfEnable = h.vfEnable := rfl
@[simp] theorem HostDie.emit_numVfs (h : HostDie) (o : Output) : (h.emit o).numVfs = h.numVfs := rfl
@[simp] theorem HostDie.emit_msixPba (h : HostDie) (o : Output) : (h.emit o).msixPba = h.msixPba := rfl
@[simp] theorem HostDie.emit_mod (h : HostDie) (o : Output) : (h.emit o).mod = h.mod := rfl
@[simp] theorem HostDie.emit_evLost (h : HostDie) (o : Output) : (h.emit o).evLost = h.evLost := rfl
@[simp] theorem HostDie.emit_ready (h : HostDie) (o : Output) : (h.emit o).ready = h.ready := rfl
@[simp] theorem HostDie.emit_sending (h : HostDie) (o : Output) : (h.emit o).sending = h.sending := rfl
@[simp] theorem HostDie.emit_crossing (h : HostDie) (o : Output) : (h.emit o).crossing = h.crossing := rfl
@[simp] theorem HostDie.emit_rxFrames (h : HostDie) (o : Output) : (h.emit o).rxFrames = h.rxFrames := rfl
@[simp] theorem HostDie.emit_mirrors (h : HostDie) (o : Output) : (h.emit o).mirrors = h.mirrors := rfl
@[simp] theorem HostDie.emit_corrSys (h : HostDie) (o : Output) : (h.emit o).corrSys = h.corrSys := rfl
@[simp] theorem HostDie.emit_corrPtm (h : HostDie) (o : Output) : (h.emit o).corrPtm = h.corrPtm := rfl
@[simp] theorem HostDie.emit_ptb (h : HostDie) (o : Output) : (h.emit o).ptb = h.ptb := rfl
@[simp] theorem HostDie.emit_latched (h : HostDie) (o : Output) : (h.emit o).latched = h.latched := rfl
@[simp] theorem HostDie.emit_rrHi (h : HostDie) (o : Output) : (h.emit o).rrHi = h.rrHi := rfl
@[simp] theorem HostDie.emit_rrLo (h : HostDie) (o : Output) : (h.emit o).rrLo = h.rrLo := rfl
@[simp] theorem HostDie.emit_freeCtr (h : HostDie) (o : Output) : (h.emit o).freeCtr = h.freeCtr := rfl

/-! `HostDie.setFlag` -/
@[simp] theorem HostDie.setFlag_cnt (h : HostDie) (a b : Nat) : (h.setFlag a b).cnt = h.cnt := HostDie.wrN_cnt _ _ _
@[simp] theorem HostDie.setFlag_staged (h : HostDie) (a b : Nat) : (h.setFlag a b).staged = h.staged := HostDie.wrN_staged _ _ _
@[simp] theorem HostDie.setFlag_inReset (h : HostDie) (a b : Nat) : (h.setFlag a b).inReset = h.inReset := HostDie.wrN_inReset _ _ _
@[simp] theorem HostDie.setFlag_dstate (h : HostDie) (a b : Nat) : (h.setFlag a b).dstate = h.dstate := HostDie.wrN_dstate _ _ _
@[simp] theorem HostDie.setFlag_xng (h : HostDie) (a b : Nat) : (h.setFlag a b).xng = h.xng := HostDie.wrN_xng _ _ _
@[simp] theorem HostDie.setFlag_holdq (h : HostDie) (a b : Nat) : (h.setFlag a b).holdq = h.holdq := HostDie.wrN_holdq _ _ _
@[simp] theorem HostDie.setFlag_reads (h : HostDie) (a b : Nat) : (h.setFlag a b).reads = h.reads := HostDie.wrN_reads _ _ _
@[simp] theorem HostDie.setFlag_tags (h : HostDie) (a b : Nat) : (h.setFlag a b).tags = h.tags := HostDie.wrN_tags _ _ _
@[simp] theorem HostDie.setFlag_bme (h : HostDie) (a b : Nat) : (h.setFlag a b).bme = h.bme := HostDie.wrN_bme _ _ _
@[simp] theorem HostDie.setFlag_msixEn (h : HostDie) (a b : Nat) : (h.setFlag a b).msixEn = h.msixEn := HostDie.wrN_msixEn _ _ _
@[simp] theorem HostDie.setFlag_msixMask (h : HostDie) (a b : Nat) : (h.setFlag a b).msixMask = h.msixMask := HostDie.wrN_msixMask _ _ _
@[simp] theorem HostDie.setFlag_vfEnable (h : HostDie) (a b : Nat) : (h.setFlag a b).vfEnable = h.vfEnable := HostDie.wrN_vfEnable _ _ _
@[simp] theorem HostDie.setFlag_numVfs (h : HostDie) (a b : Nat) : (h.setFlag a b).numVfs = h.numVfs := HostDie.wrN_numVfs _ _ _
@[simp] theorem HostDie.setFlag_msixPba (h : HostDie) (a b : Nat) : (h.setFlag a b).msixPba = h.msixPba := HostDie.wrN_msixPba _ _ _
@[simp] theorem HostDie.setFlag_mod (h : HostDie) (a b : Nat) : (h.setFlag a b).mod = h.mod := HostDie.wrN_mod _ _ _
@[simp] theorem HostDie.setFlag_evLost (h : HostDie) (a b : Nat) : (h.setFlag a b).evLost = h.evLost := HostDie.wrN_evLost _ _ _
@[simp] theorem HostDie.setFlag_ready (h : HostDie) (a b : Nat) : (h.setFlag a b).ready = h.ready := HostDie.wrN_ready _ _ _
@[simp] theorem HostDie.setFlag_sending (h : HostDie) (a b : Nat) : (h.setFlag a b).sending = h.sending := HostDie.wrN_sending _ _ _
@[simp] theorem HostDie.setFlag_crossing (h : HostDie) (a b : Nat) : (h.setFlag a b).crossing = h.crossing := HostDie.wrN_crossing _ _ _
@[simp] theorem HostDie.setFlag_rxFrames (h : HostDie) (a b : Nat) : (h.setFlag a b).rxFrames = h.rxFrames := HostDie.wrN_rxFrames _ _ _
@[simp] theorem HostDie.setFlag_mirrors (h : HostDie) (a b : Nat) : (h.setFlag a b).mirrors = h.mirrors := HostDie.wrN_mirrors _ _ _
@[simp] theorem HostDie.setFlag_corrSys (h : HostDie) (a b : Nat) : (h.setFlag a b).corrSys = h.corrSys := HostDie.wrN_corrSys _ _ _
@[simp] theorem HostDie.setFlag_corrPtm (h : HostDie) (a b : Nat) : (h.setFlag a b).corrPtm = h.corrPtm := HostDie.wrN_corrPtm _ _ _
@[simp] theorem HostDie.setFlag_ptb (h : HostDie) (a b : Nat) : (h.setFlag a b).ptb = h.ptb := HostDie.wrN_ptb _ _ _
@[simp] theorem HostDie.setFlag_latched (h : HostDie) (a b : Nat) : (h.setFlag a b).latched = h.latched := HostDie.wrN_latched _ _ _
@[simp] theorem HostDie.setFlag_rrHi (h : HostDie) (a b : Nat) : (h.setFlag a b).rrHi = h.rrHi := HostDie.wrN_rrHi _ _ _
@[simp] theorem HostDie.setFlag_rrLo (h : HostDie) (a b : Nat) : (h.setFlag a b).rrLo = h.rrLo := HostDie.wrN_rrLo _ _ _
@[simp] theorem HostDie.setFlag_freeCtr (h : HostDie) (a b : Nat) : (h.setFlag a b).freeCtr = h.freeCtr := HostDie.wrN_freeCtr _ _ _
@[simp] theorem HostDie.setFlag_out (h : HostDie) (a b : Nat) : (h.setFlag a b).out = h.out := HostDie.wrN_out _ _ _

/-! `HostDie.setModer` -/
@[simp] theorem HostDie.setModer_reg (h : HostDie) (q : Nat) (m : Moder) : (h.setModer q m).reg = h.reg := rfl
@[simp] theorem HostDie.setModer_cnt (h : HostDie) (q : Nat) (m : Moder) : (h.setModer q m).cnt = h.cnt := rfl
@[simp] theorem HostDie.setModer_staged (h : HostDie) (q : Nat) (m : Moder) : (h.setModer q m).staged = h.staged := rfl
@[simp] theorem HostDie.setModer_inReset (h : HostDie) (q : Nat) (m : Moder) : (h.setModer q m).inReset = h.inReset := rfl
@[simp] theorem HostDie.setModer_dstate (h : HostDie) (q : Nat) (m : Moder) : (h.setModer q m).dstate = h.dstate := rfl
@[simp] theorem HostDie.setModer_xng (h : HostDie) (q : Nat) (m : Moder) : (h.setModer q m).xng = h.xng := rfl
@[simp] theorem HostDie.setModer_holdq (h : HostDie) (q : Nat) (m : Moder) : (h.setModer q m).holdq = h.holdq := rfl
@[simp] theorem HostDie.setModer_reads (h : HostDie) (q : Nat) (m : Moder) : (h.setModer q m).reads = h.reads := rfl
@[simp] theorem HostDie.setModer_tags (h : HostDie) (q : Nat) (m : Moder) : (h.setModer q m).tags = h.tags := rfl
@[simp] theorem HostDie.setModer_bme (h : HostDie) (q : Nat) (m : Moder) : (h.setModer q m).bme = h.bme := rfl
@[simp] theorem HostDie.setModer_msixEn (h : HostDie) (q : Nat) (m : Moder) : (h.setModer q m).msixEn = h.msixEn := rfl
@[simp] theorem HostDie.setModer_msixMask (h : HostDie) (q : Nat) (m : Moder) : (h.setModer q m).msixMask = h.msixMask := rfl
@[simp] theorem HostDie.setModer_vfEnable (h : HostDie) (q : Nat) (m : Moder) : (h.setModer q m).vfEnable = h.vfEnable := rfl
@[simp] theorem HostDie.setModer_numVfs (h : HostDie) (q : Nat) (m : Moder) : (h.setModer q m).numVfs = h.numVfs := rfl
@[simp] theorem HostDie.setModer_msixPba (h : HostDie) (q : Nat) (m : Moder) : (h.setModer q m).msixPba = h.msixPba := rfl
@[simp] theorem HostDie.setModer_evLost (h : HostDie) (q : Nat) (m : Moder) : (h.setModer q m).evLost = h.evLost := rfl
@[simp] theorem HostDie.setModer_ready (h : HostDie) (q : Nat) (m : Moder) : (h.setModer q m).ready = h.ready := rfl
@[simp] theorem HostDie.setModer_sending (h : HostDie) (q : Nat) (m : Moder) : (h.setModer q m).sending = h.sending := rfl
@[simp] theorem HostDie.setModer_crossing (h : HostDie) (q : Nat) (m : Moder) : (h.setModer q m).crossing = h.crossing := rfl
@[simp] theorem HostDie.setModer_rxFrames (h : HostDie) (q : Nat) (m : Moder) : (h.setModer q m).rxFrames = h.rxFrames := rfl
@[simp] theorem HostDie.setModer_mirrors (h : HostDie) (q : Nat) (m : Moder) : (h.setModer q m).mirrors = h.mirrors := rfl
@[simp] theorem HostDie.setModer_corrSys (h : HostDie) (q : Nat) (m : Moder) : (h.setModer q m).corrSys = h.corrSys := rfl
@[simp] theorem HostDie.setModer_corrPtm (h : HostDie) (q : Nat) (m : Moder) : (h.setModer q m).corrPtm = h.corrPtm := rfl
@[simp] theorem HostDie.setModer_ptb (h : HostDie) (q : Nat) (m : Moder) : (h.setModer q m).ptb = h.ptb := rfl
@[simp] theorem HostDie.setModer_latched (h : HostDie) (q : Nat) (m : Moder) : (h.setModer q m).latched = h.latched := rfl
@[simp] theorem HostDie.setModer_rrHi (h : HostDie) (q : Nat) (m : Moder) : (h.setModer q m).rrHi = h.rrHi := rfl
@[simp] theorem HostDie.setModer_rrLo (h : HostDie) (q : Nat) (m : Moder) : (h.setModer q m).rrLo = h.rrLo := rfl
@[simp] theorem HostDie.setModer_freeCtr (h : HostDie) (q : Nat) (m : Moder) : (h.setModer q m).freeCtr = h.freeCtr := rfl
@[simp] theorem HostDie.setModer_out (h : HostDie) (q : Nat) (m : Moder) : (h.setModer q m).out = h.out := rfl

end Sys2Proof.Machine
end

