-- ==== Sys2Proof/Laws/Store.lean ====
section
/-! SUPPORT. Laws of the sparse storage: a read after a write, and the canonical form that every operation keeps. -/

namespace Sys2Proof.Machine

variable {α : Type}

theorem Store.get_insert (d : Nat → α) (k k' : Nat) (v : α) (m : List (Nat × α)) :
    Store.get d (Store.insert k v m) k' = if k' = k then v else Store.get d m k' := by
  induction m with
  | nil => simp [Store.insert, Store.get]
  | cons e m ih =>
    obtain ⟨a, w⟩ := e
    simp only [Store.insert]
    split
    · simp only [Store.get]
    · split
      · rename_i h2
        subst h2
        simp only [Store.get]
        split <;> rfl
      · rename_i h1 h2
        simp only [Store.get, ih]
        by_cases h3 : k' = a
        · subst h3
          simp [Ne.symm h2]
        · simp [h3]

theorem Store.get_erase (d : Nat → α) (k k' : Nat) (m : List (Nat × α)) :
    Store.get d (Store.erase k m) k' = if k' = k then d k' else Store.get d m k' := by
  induction m with
  | nil => simp [Store.erase, Store.get]
  | cons e m ih =>
    obtain ⟨a, w⟩ := e
    simp only [Store.erase] at ih ⊢
    by_cases h : a = k
    · subst h
      simp only [List.filter_cons, ne_eq, not_true_eq_false, decide_false, Bool.false_eq_true, ↓reduceIte, ih, Store.get]
      split <;> simp_all
    · simp only [List.filter_cons, ne_eq, h, not_false_eq_true, decide_true, ↓reduceIte, ih, Store.get]
      by_cases h3 : k' = a
      · subst h3
        simp [h]
      · simp [h3]

/-- A read after a write: the value written at the address, what stood there at every other. -/
theorem Store.get_set [DecidableEq α] (d : Nat → α) (m : List (Nat × α)) (k k' : Nat) (v : α) :
    Store.get d (Store.set d m k v) k' = if k' = k then v else Store.get d m k' := by
  unfold Store.set
  split
  · rename_i h
    rw [Store.get_erase]
    split
    · rename_i h2
      rw [h2, h]
    · rfl
  · exact Store.get_insert d k k' v m

theorem Store.mem_insert (k : Nat) (v : α) (m : List (Nat × α)) (e : Nat × α) (h : e ∈ Store.insert k v m) :
    e = (k, v) ∨ e ∈ m := by
  induction m with
  | nil => simpa [Store.insert] using h
  | cons x m ih =>
    obtain ⟨a, w⟩ := x
    simp only [Store.insert] at h
    split at h
    · simpa using h
    · split at h
      · rcases List.mem_cons.1 h with h | h
        · exact .inl h
        · exact .inr (List.mem_cons_of_mem _ h)
      · rcases List.mem_cons.1 h with h | h
        · exact .inr (h ▸ List.mem_cons_self)
        · exact (ih h).imp id (List.mem_cons_of_mem _)

theorem Store.wf_nil (d : Nat → α) : Store.wf d [] := ⟨.nil, fun _ h => by cases h⟩

theorem Store.wf_filter (d : Nat → α) (p : Nat × α → Bool) (m : List (Nat × α)) (h : Store.wf d m) :
    Store.wf d (m.filter p) :=
  ⟨h.1.filter p, fun e he => h.2 e (List.mem_of_mem_filter he)⟩

theorem Store.wf_erase (d : Nat → α) (k : Nat) (m : List (Nat × α)) (h : Store.wf d m) :
    Store.wf d (Store.erase k m) := Store.wf_filter d _ m h

theorem Store.wf_clear (d : Nat → α) (p : Nat → Bool) (m : List (Nat × α)) (h : Store.wf d m) :
    Store.wf d (Store.clear p m) := Store.wf_filter d _ m h

theorem Store.wf_insert (d : Nat → α) (k : Nat) (v : α) (m : List (Nat × α)) (hv : v ≠ d k) (h : Store.wf d m) :
    Store.wf d (Store.insert k v m) := by
  induction m with
  | nil => exact ⟨List.pairwise_singleton .., by simpa [Store.insert] using hv⟩
  | cons x m ih =>
    obtain ⟨a, w⟩ := x
    obtain ⟨hp, hd⟩ := h
    obtain ⟨ha, hm⟩ := List.pairwise_cons.1 hp
    have hdm : ∀ e ∈ m, e.2 ≠ d e.1 := fun e he => hd e (List.mem_cons_of_mem _ he)
    simp only [Store.insert]
    split
    · rename_i hk
      refine ⟨List.pairwise_cons.2 ⟨fun e he => ?_, hp⟩, fun e he => ?_⟩
      · rcases List.mem_cons.1 he with rfl | he
        · exact hk
        · exact Nat.lt_trans hk (ha e he)
      · rcases List.mem_cons.1 he with rfl | he
        · exact hv
        · exact hd e he
    · split
      · rename_i _ hk
        subst hk
        refine ⟨List.pairwise_cons.2 ⟨ha, hm⟩, fun e he => ?_⟩
        rcases List.mem_cons.1 he with rfl | he
        · exact hv
        · exact hdm e he
      · rename_i h1 h2
        obtain ⟨ip, id⟩ := ih ⟨hm, hdm⟩
        refine ⟨List.pairwise_cons.2 ⟨fun e he => ?_, ip⟩, fun e he => ?_⟩
        · rcases Store.mem_insert k v m e he with rfl | he
          · simp only
            omega
          · exact ha e he
        · rcases List.mem_cons.1 he with rfl | he
          · exact hd (a, w) List.mem_cons_self
          · exact id e he

/-- Every write keeps the canonical form. -/
theorem Store.wf_set [DecidableEq α] (d : Nat → α) (m : List (Nat × α)) (k : Nat) (v : α) (h : Store.wf d m) :
    Store.wf d (Store.set d m k v) := by
  unfold Store.set
  split
  · exact Store.wf_erase d k m h
  · exact Store.wf_insert d k v m ‹_› h

end Sys2Proof.Machine
end

