-- ==== Sys2Proof/Laws/Ops.lean ====
section
/-! SUPPORT. What the named operations of the field die do to registers, and what `settle`, with which every command on
the field die ends, can change. -/

namespace Sys2Proof.Machine

/-! ### Registers -/

theorem FieldDie.rd_eq {f g : FieldDie} (h : f.reg = g.reg) (a : Nat) : f.rd a = g.rd a := by
  unfold FieldDie.rd; rw [h]

theorem FieldDie.get_eq {f g : FieldDie} (r : Fld) (h : f.rd r.addr = g.rd r.addr) : f.get r = g.get r := by
  unfold FieldDie.get FieldDie.rdN; rw [h]

theorem FieldDie.rd_wr (f : FieldDie) (a b : Nat) (w : Word) : (f.wr a w).rd b = if b = a then w else f.rd b :=
  Store.get_set fieldDefault f.reg a b w

theorem FieldDie.rd_wrN (f : FieldDie) (a b v : Nat) : (f.wrN a v).rd b = if b = a then word v else f.rd b :=
  FieldDie.rd_wr f a b (word v)

theorem FieldDie.rd_put (f : FieldDie) (r : Fld) (v b : Nat) :
    (f.put r v).rd b = if b = r.addr then word (putBits (f.rdN r.addr) r.hi r.lo v) else f.rd b :=
  FieldDie.rd_wr f r.addr b _

theorem FieldDie.rd_put_ne (f : FieldDie) (r : Fld) (v b : Nat) (h : b ≠ r.addr) : (f.put r v).rd b = f.rd b := by
  rw [FieldDie.rd_put, if_neg h]

theorem FieldDie.rdN_lt (f : FieldDie) (a : Nat) : f.rdN a < 2 ^ 32 := (f.rd a).isLt

/-- A field reads what has been put into it. -/
theorem FieldDie.get_put (f : FieldDie) (r : Fld) (v : Nat) (h : r.lo ≤ r.hi) (h32 : r.hi < 32) :
    (f.put r v).get r = v % 2 ^ (r.hi + 1 - r.lo) := by
  unfold FieldDie.get FieldDie.rdN
  rw [FieldDie.rd_put, if_pos rfl, toNat_word _ (putBits_lt _ _ _ _ _ h h32 (f.rdN_lt _)), bitsOf_putBits_same _ _ _ _ h]

theorem FieldDie.get_put_addr (f : FieldDie) (r r' : Fld) (v : Nat) (h : r'.addr ≠ r.addr) :
    (f.put r v).get r' = f.get r' := FieldDie.get_eq r' (FieldDie.rd_put_ne f r v _ h)

/-- A field keeps its value when another field of its register is put. -/
theorem FieldDie.get_put_field (f : FieldDie) (r r' : Fld) (v : Nat) (ha : r'.addr = r.addr) (h : r.lo ≤ r.hi)
    (h32 : r.hi < 32) (hd : r.hi < r'.lo ∨ r'.hi < r.lo) : (f.put r v).get r' = f.get r' := by
  unfold FieldDie.get FieldDie.rdN
  rw [FieldDie.rd_put, if_pos ha, toNat_word _ (putBits_lt _ _ _ _ _ h h32 (f.rdN_lt _)),
    bitsOf_putBits_other _ _ _ _ _ _ h hd, FieldDie.rdN, ← ha]

theorem FieldDie.rd_setFlag_ne (f : FieldDie) (a bit b : Nat) (h : b ≠ a) : (f.setFlag a bit).rd b = f.rd b := by
  have := FieldDie.rd_wrN f a b (putBits (setBit (f.rdN a) bit) 31 16 (seqStep (bitsOf (f.rdN a) 31 16)))
  rw [if_neg h] at this
  exact this

theorem setBit_lt (w i : Nat) (hw : w < 2 ^ 32) (hi : i < 32) : setBit w i < 2 ^ 32 := by
  apply Nat.lt_pow_two_of_testBit
  intro j hj
  rw [testBit_setBit]
  have hij : i ≠ j := by omega
  have := Nat.testBit_lt_two_pow (Nat.lt_of_lt_of_le hw (Nat.pow_le_pow_right (n := 2) (by decide) hj))
  simp [hij, this]

theorem FieldDie.rdN_setFlag (f : FieldDie) (a bit : Nat) (hb : bit < 16) :
    (f.setFlag a bit).rdN a = putBits (setBit (f.rdN a) bit) 31 16 (seqStep (bitsOf (f.rdN a) 31 16)) := by
  have := FieldDie.rd_wrN f a a (putBits (setBit (f.rdN a) bit) 31 16 (seqStep (bitsOf (f.rdN a) 31 16)))
  rw [if_pos rfl] at this
  unfold FieldDie.rdN
  unfold FieldDie.setFlag
  rw [this]
  exact toNat_word _ (putBits_lt _ _ _ _ _ (by decide) (by decide) (setBit_lt _ _ (f.rdN_lt a) (by omega)))

/-- A flag that has been set reads 1, and the other flags of its register read as before. -/
theorem FieldDie.sq_setFlag (f : FieldDie) (a bit j : Nat) (hb : bit < 16) (hj : j < 16) :
    (f.setFlag a bit).sq a j = (decide (bit = j) || f.sq a j) := by
  unfold FieldDie.sq
  rw [FieldDie.rdN_setFlag f a bit hb, hasBit_eq_testBit, testBit_putBits _ _ _ _ _ (by decide)]
  have h1 : ¬(16 ≤ j ∧ j ≤ 31) := by omega
  rw [if_neg h1, testBit_setBit, hasBit_eq_testBit]

/-! ### Events -/

theorem FieldDie.setFlag_core (f : FieldDie) (a b : Nat) : (f.setFlag a b).core = f.core := by
  simp only [FieldDie.core, FieldDie.setFlag_order, FieldDie.setFlag_dieId, FieldDie.setFlag_straps, FieldDie.setFlag_phase, FieldDie.setFlag_resetBy, FieldDie.setFlag_staged, FieldDie.setFlag_snapHost, FieldDie.setFlag_snapSerial, FieldDie.setFlag_window, FieldDie.setFlag_arrivals, FieldDie.setFlag_launch, FieldDie.setFlag_winMod, FieldDie.setFlag_cfg, FieldDie.setFlag_flt, FieldDie.setFlag_twn, FieldDie.setFlag_pwr, FieldDie.setFlag_ports, FieldDie.setFlag_segs, FieldDie.setFlag_gates, FieldDie.setFlag_ptp, FieldDie.setFlag_tim, FieldDie.setFlag_str, FieldDie.setFlag_fwd, FieldDie.setFlag_key, FieldDie.setFlag_spi, FieldDie.setFlag_pin, FieldDie.setFlag_ptb]

theorem FieldDie.queueEvt_core (f : FieldDie) (u : FlowUnit) : (f.queueEvt u).core = f.core := by
  unfold FieldDie.queueEvt
  split
  · rfl
  · simp only [FieldDie.setFlag_core]
    rfl

theorem FieldDie.queueEvt_rd (f : FieldDie) (u : FlowUnit) (a : Nat) (h : a ≠ F_XNG_EVT) :
    (f.queueEvt u).rd a = f.rd a := by
  unfold FieldDie.queueEvt
  split
  · rfl
  · rw [FieldDie.rd_setFlag_ne _ _ _ _ h]
    rfl

theorem FieldDie.raise_core (f : FieldDie) (a b : Nat) : (f.raise a b).core = f.core := by
  unfold FieldDie.raise
  dsimp only
  rw [FieldDie.queueEvt_core, FieldDie.setFlag_core]

theorem FieldDie.raise_rd (f : FieldDie) (a bit b : Nat) (h : b ≠ a) (hx : b ≠ F_XNG_EVT) :
    (f.raise a bit).rd b = f.rd b := by
  unfold FieldDie.raise
  dsimp only
  rw [FieldDie.queueEvt_rd _ _ _ hx, FieldDie.rd_setFlag_ne _ _ _ _ h]

/-- An event that has been raised shows in its flag. -/
theorem FieldDie.raise_sq (f : FieldDie) (a bit : Nat) (h : a ≠ F_XNG_EVT) (hb : bit < 16) :
    (f.raise a bit).sq a bit = true := by
  have e : (f.raise a bit).sq a bit = (f.setFlag a bit).sq a bit := by
    unfold FieldDie.sq FieldDie.rdN
    unfold FieldDie.raise
    dsimp only
    rw [FieldDie.queueEvt_rd _ _ _ h]
  rw [e, FieldDie.sq_setFlag _ _ _ _ hb hb]
  simp

/-! ### Sending -/

theorem FieldDie.putUnit_core (f : FieldDie) (who : LinkId) (seed : Nat) (u : FlowUnit) :
    (f.putUnit who seed u).core = f.core := by
  unfold FieldDie.putUnit FieldDie.setLink
  dsimp only
  repeat' split
  all_goals rfl

theorem FieldDie.putUnit_reg (f : FieldDie) (who : LinkId) (seed : Nat) (u : FlowUnit) :
    (f.putUnit who seed u).reg = f.reg := by
  unfold FieldDie.putUnit FieldDie.setLink
  dsimp only
  repeat' split
  all_goals rfl

theorem FieldDie.sendXng_core (f : FieldDie) (u : FlowUnit) : (f.sendXng u).core = f.core := by
  unfold FieldDie.sendXng
  dsimp only
  split
  · rw [FieldDie.putUnit_core]
    rfl
  · rfl

theorem FieldDie.sendXng_reg (f : FieldDie) (u : FlowUnit) : (f.sendXng u).reg = f.reg := by
  unfold FieldDie.sendXng
  dsimp only
  split
  · rw [FieldDie.putUnit_reg]
  · rfl

theorem FieldDie.sendTwin_core (f : FieldDie) (u : FlowUnit) : (f.sendTwin u).core = f.core := by
  unfold FieldDie.sendTwin
  rw [FieldDie.putUnit_core]
  rfl

theorem FieldDie.sendTwin_reg (f : FieldDie) (u : FlowUnit) : (f.sendTwin u).reg = f.reg := by
  unfold FieldDie.sendTwin
  rw [FieldDie.putUnit_reg]

theorem pumpXng_core (k : Nat) (f : FieldDie) : (pumpXng k f).core = f.core ∧ (pumpXng k f).reg = f.reg := by
  induction k generalizing f with
  | zero => exact ⟨rfl, rfl⟩
  | succ k ih =>
    unfold pumpXng
    split
    · exact ⟨rfl, rfl⟩
    · split
      · obtain ⟨h1, h2⟩ := ih ({ f with xng := { f.xng with waiting := _ } }.sendXng _)
        rw [h1, h2, FieldDie.sendXng_core, FieldDie.sendXng_reg]
        exact ⟨rfl, rfl⟩
      · split
        · dsimp only
          obtain ⟨h1, h2⟩ := ih ({ f with evtq := _, evtLost := false }.sendXng _)
          rw [h1, h2, FieldDie.sendXng_core, FieldDie.sendXng_reg]
          exact ⟨rfl, rfl⟩
        · exact ⟨rfl, rfl⟩

theorem pumpTwin_core (k : Nat) (f : FieldDie) : (pumpTwin k f).core = f.core ∧ (pumpTwin k f).reg = f.reg := by
  induction k generalizing f with
  | zero => exact ⟨rfl, rfl⟩
  | succ k ih =>
    unfold pumpTwin
    split
    · exact ⟨rfl, rfl⟩
    · split
      · obtain ⟨h1, h2⟩ := ih ({ f with twin := { f.twin with waiting := _ } }.sendTwin _)
        rw [h1, h2, FieldDie.sendTwin_core, FieldDie.sendTwin_reg]
        exact ⟨rfl, rfl⟩
      · exact ⟨rfl, rfl⟩

/-! ### The end of a command -/

theorem refreshCover_core (f : FieldDie) : (refreshCover f).core = f.core := by
  unfold refreshCover
  split
  · rfl
  · rw [FieldDie.raise_core]
    rfl

theorem refreshCover_rd (f : FieldDie) (a : Nat) (h1 : a ≠ F_FLT_COVER) (h2 : a ≠ F_FLT_EVT2) (h3 : a ≠ F_XNG_EVT) :
    (refreshCover f).rd a = f.rd a := by
  unfold refreshCover
  split
  · rfl
  · rw [FieldDie.raise_rd _ _ _ _ h2 h3]
    exact FieldDie.rd_put_ne f F_FLT_COVER_cover _ a h1

/-- The end of a command changes nothing but the cover register and its event, messages, links and outputs. -/
theorem settle_core (f : FieldDie) : (settle f).core = f.core := by
  unfold settle
  split
  · show (pumpTwin 64 (pumpXng 320 (refreshCover f))).core = f.core
    rw [(pumpTwin_core _ _).1, (pumpXng_core _ _).1, refreshCover_core]
  · rfl

/-- Every register but F_FLT_COVER, F_FLT_EVT2 and F_XNG_EVT reads after the end of a command as before it. -/
theorem settle_rd (f : FieldDie) (a : Nat) (h1 : a ≠ F_FLT_COVER) (h2 : a ≠ F_FLT_EVT2) (h3 : a ≠ F_XNG_EVT) :
    (settle f).rd a = f.rd a := by
  unfold settle
  split
  · have : (forgetFrames (pumpTwin 64 (pumpXng 320 (refreshCover f)))).reg = (refreshCover f).reg := by
      show (pumpTwin 64 (pumpXng 320 (refreshCover f))).reg = _
      rw [(pumpTwin_core _ _).2, (pumpXng_core _ _).2]
    rw [FieldDie.rd_eq this]
    exact refreshCover_rd f a h1 h2 h3
  · rfl

theorem settle_get (f : FieldDie) (r : Fld) (h1 : r.addr ≠ F_FLT_COVER) (h2 : r.addr ≠ F_FLT_EVT2)
    (h3 : r.addr ≠ F_XNG_EVT) : (settle f).get r = f.get r := FieldDie.get_eq r (settle_rd f _ h1 h2 h3)

theorem settle_sq (f : FieldDie) (a bit : Nat) (h1 : a ≠ F_FLT_COVER) (h2 : a ≠ F_FLT_EVT2) (h3 : a ≠ F_XNG_EVT) :
    (settle f).sq a bit = f.sq a bit := by
  unfold FieldDie.sq FieldDie.rdN
  rw [settle_rd f a h1 h2 h3]

theorem FieldDie.core_order (f : FieldDie) : f.core.order = f.order := rfl
theorem FieldDie.core_dieId (f : FieldDie) : f.core.dieId = f.dieId := rfl
theorem FieldDie.core_straps (f : FieldDie) : f.core.straps = f.straps := rfl
theorem FieldDie.core_phase (f : FieldDie) : f.core.phase = f.phase := rfl
theorem FieldDie.core_resetBy (f : FieldDie) : f.core.resetBy = f.resetBy := rfl
theorem FieldDie.core_staged (f : FieldDie) : f.core.staged = f.staged := rfl
theorem FieldDie.core_snapHost (f : FieldDie) : f.core.snapHost = f.snapHost := rfl
theorem FieldDie.core_snapSerial (f : FieldDie) : f.core.snapSerial = f.snapSerial := rfl
theorem FieldDie.core_window (f : FieldDie) : f.core.window = f.window := rfl
theorem FieldDie.core_arrivals (f : FieldDie) : f.core.arrivals = f.arrivals := rfl
theorem FieldDie.core_launch (f : FieldDie) : f.core.launch = f.launch := rfl
theorem FieldDie.core_winMod (f : FieldDie) : f.core.winMod = f.winMod := rfl
theorem FieldDie.core_cfg (f : FieldDie) : f.core.cfg = f.cfg := rfl
theorem FieldDie.core_flt (f : FieldDie) : f.core.flt = f.flt := rfl
theorem FieldDie.core_twn (f : FieldDie) : f.core.twn = f.twn := rfl
theorem FieldDie.core_pwr (f : FieldDie) : f.core.pwr = f.pwr := rfl
theorem FieldDie.core_ports (f : FieldDie) : f.core.ports = f.ports := rfl
theorem FieldDie.core_segs (f : FieldDie) : f.core.segs = f.segs := rfl
theorem FieldDie.core_gates (f : FieldDie) : f.core.gates = f.gates := rfl
theorem FieldDie.core_ptp (f : FieldDie) : f.core.ptp = f.ptp := rfl
theorem FieldDie.core_tim (f : FieldDie) : f.core.tim = f.tim := rfl
theorem FieldDie.core_str (f : FieldDie) : f.core.str = f.str := rfl
theorem FieldDie.core_fwd (f : FieldDie) : f.core.fwd = f.fwd := rfl
theorem FieldDie.core_key (f : FieldDie) : f.core.key = f.key := rfl
theorem FieldDie.core_spi (f : FieldDie) : f.core.spi = f.spi := rfl
theorem FieldDie.core_pin (f : FieldDie) : f.core.pin = f.pin := rfl
theorem FieldDie.core_ptb (f : FieldDie) : f.core.ptb = f.ptb := rfl

@[simp] theorem settle_order (f : FieldDie) : (settle f).order = f.order := by
  rw [← FieldDie.core_order, settle_core, FieldDie.core_order]
@[simp] theorem settle_dieId (f : FieldDie) : (settle f).dieId = f.dieId := by
  rw [← FieldDie.core_dieId, settle_core, FieldDie.core_dieId]
@[simp] theorem settle_straps (f : FieldDie) : (settle f).straps = f.straps := by
  rw [← FieldDie.core_straps, settle_core, FieldDie.core_straps]
@[simp] theorem settle_phase (f : FieldDie) : (settle f).phase = f.phase := by
  rw [← FieldDie.core_phase, settle_core, FieldDie.core_phase]
@[simp] theorem settle_resetBy (f : FieldDie) : (settle f).resetBy = f.resetBy := by
  rw [← FieldDie.core_resetBy, settle_core, FieldDie.core_resetBy]
@[simp] theorem settle_staged (f : FieldDie) : (settle f).staged = f.staged := by
  rw [← FieldDie.core_staged, settle_core, FieldDie.core_staged]
@[simp] theorem settle_snapHost (f : FieldDie) : (settle f).snapHost = f.snapHost := by
  rw [← FieldDie.core_snapHost, settle_core, FieldDie.core_snapHost]
@[simp] theorem settle_snapSerial (f : FieldDie) : (settle f).snapSerial = f.snapSerial := by
  rw [← FieldDie.core_snapSerial, settle_core, FieldDie.core_snapSerial]
@[simp] theorem settle_window (f : FieldDie) : (settle f).window = f.window := by
  rw [← FieldDie.core_window, settle_core, FieldDie.core_window]
@[simp] theorem settle_arrivals (f : FieldDie) : (settle f).arrivals = f.arrivals := by
  rw [← FieldDie.core_arrivals, settle_core, FieldDie.core_arrivals]
@[simp] theorem settle_launch (f : FieldDie) : (settle f).launch = f.launch := by
  rw [← FieldDie.core_launch, settle_core, FieldDie.core_launch]
@[simp] theorem settle_winMod (f : FieldDie) : (settle f).winMod = f.winMod := by
  rw [← FieldDie.core_winMod, settle_core, FieldDie.core_winMod]
@[simp] theorem settle_cfg (f : FieldDie) : (settle f).cfg = f.cfg := by
  rw [← FieldDie.core_cfg, settle_core, FieldDie.core_cfg]
@[simp] theorem settle_flt (f : FieldDie) : (settle f).flt = f.flt := by
  rw [← FieldDie.core_flt, settle_core, FieldDie.core_flt]
@[simp] theorem settle_twn (f : FieldDie) : (settle f).twn = f.twn := by
  rw [← FieldDie.core_twn, settle_core, FieldDie.core_twn]
@[simp] theorem settle_pwr (f : FieldDie) : (settle f).pwr = f.pwr := by
  rw [← FieldDie.core_pwr, settle_core, FieldDie.core_pwr]
@[simp] theorem settle_ports (f : FieldDie) : (settle f).ports = f.ports := by
  rw [← FieldDie.core_ports, settle_core, FieldDie.core_ports]
@[simp] theorem settle_segs (f : FieldDie) : (settle f).segs = f.segs := by
  rw [← FieldDie.core_segs, settle_core, FieldDie.core_segs]
@[simp] theorem settle_gates (f : FieldDie) : (settle f).gates = f.gates := by
  rw [← FieldDie.core_gates, settle_core, FieldDie.core_gates]
@[simp] theorem settle_ptp (f : FieldDie) : (settle f).ptp = f.ptp := by
  rw [← FieldDie.core_ptp, settle_core, FieldDie.core_ptp]
@[simp] theorem settle_tim (f : FieldDie) : (settle f).tim = f.tim := by
  rw [← FieldDie.core_tim, settle_core, FieldDie.core_tim]
@[simp] theorem settle_str (f : FieldDie) : (settle f).str = f.str := by
  rw [← FieldDie.core_str, settle_core, FieldDie.core_str]
@[simp] theorem settle_fwd (f : FieldDie) : (settle f).fwd = f.fwd := by
  rw [← FieldDie.core_fwd, settle_core, FieldDie.core_fwd]
@[simp] theorem settle_key (f : FieldDie) : (settle f).key = f.key := by
  rw [← FieldDie.core_key, settle_core, FieldDie.core_key]
@[simp] theorem settle_spi (f : FieldDie) : (settle f).spi = f.spi := by
  rw [← FieldDie.core_spi, settle_core, FieldDie.core_spi]
@[simp] theorem settle_pin (f : FieldDie) : (settle f).pin = f.pin := by
  rw [← FieldDie.core_pin, settle_core, FieldDie.core_pin]
@[simp] theorem settle_ptb (f : FieldDie) : (settle f).ptb = f.ptb := by
  rw [← FieldDie.core_ptb, settle_core, FieldDie.core_ptb]

@[simp] theorem FieldDie.raise_order (f : FieldDie) (a b : Nat) : (f.raise a b).order = f.order := by
  rw [← FieldDie.core_order, FieldDie.raise_core, FieldDie.core_order]
@[simp] theorem FieldDie.raise_dieId (f : FieldDie) (a b : Nat) : (f.raise a b).dieId = f.dieId := by
  rw [← FieldDie.core_dieId, FieldDie.raise_core, FieldDie.core_dieId]
@[simp] theorem FieldDie.raise_straps (f : FieldDie) (a b : Nat) : (f.raise a b).straps = f.straps := by
  rw [← FieldDie.core_straps, FieldDie.raise_core, FieldDie.core_straps]
@[simp] theorem FieldDie.raise_phase (f : FieldDie) (a b : Nat) : (f.raise a b).phase = f.phase := by
  rw [← FieldDie.core_phase, FieldDie.raise_core, FieldDie.core_phase]
@[simp] theorem FieldDie.raise_resetBy (f : FieldDie) (a b : Nat) : (f.raise a b).resetBy = f.resetBy := by
  rw [← FieldDie.core_resetBy, FieldDie.raise_core, FieldDie.core_resetBy]
@[simp] theorem FieldDie.raise_staged (f : FieldDie) (a b : Nat) : (f.raise a b).staged = f.staged := by
  rw [← FieldDie.core_staged, FieldDie.raise_core, FieldDie.core_staged]
@[simp] theorem FieldDie.raise_snapHost (f : FieldDie) (a b : Nat) : (f.raise a b).snapHost = f.snapHost := by
  rw [← FieldDie.core_snapHost, FieldDie.raise_core, FieldDie.core_snapHost]
@[simp] theorem FieldDie.raise_snapSerial (f : FieldDie) (a b : Nat) : (f.raise a b).snapSerial = f.snapSerial := by
  rw [← FieldDie.core_snapSerial, FieldDie.raise_core, FieldDie.core_snapSerial]
@[simp] theorem FieldDie.raise_window (f : FieldDie) (a b : Nat) : (f.raise a b).window = f.window := by
  rw [← FieldDie.core_window, FieldDie.raise_core, FieldDie.core_window]
@[simp] theorem FieldDie.raise_arrivals (f : FieldDie) (a b : Nat) : (f.raise a b).arrivals = f.arrivals := by
  rw [← FieldDie.core_arrivals, FieldDie.raise_core, FieldDie.core_arrivals]
@[simp] theorem FieldDie.raise_launch (f : FieldDie) (a b : Nat) : (f.raise a b).launch = f.launch := by
  rw [← FieldDie.core_launch, FieldDie.raise_core, FieldDie.core_launch]
@[simp] theorem FieldDie.raise_winMod (f : FieldDie) (a b : Nat) : (f.raise a b).winMod = f.winMod := by
  rw [← FieldDie.core_winMod, FieldDie.raise_core, FieldDie.core_winMod]
@[simp] theorem FieldDie.raise_cfg (f : FieldDie) (a b : Nat) : (f.raise a b).cfg = f.cfg := by
  rw [← FieldDie.core_cfg, FieldDie.raise_core, FieldDie.core_cfg]
@[simp] theorem FieldDie.raise_flt (f : FieldDie) (a b : Nat) : (f.raise a b).flt = f.flt := by
  rw [← FieldDie.core_flt, FieldDie.raise_core, FieldDie.core_flt]
@[simp] theorem FieldDie.raise_twn (f : FieldDie) (a b : Nat) : (f.raise a b).twn = f.twn := by
  rw [← FieldDie.core_twn, FieldDie.raise_core, FieldDie.core_twn]
@[simp] theorem FieldDie.raise_pwr (f : FieldDie) (a b : Nat) : (f.raise a b).pwr = f.pwr := by
  rw [← FieldDie.core_pwr, FieldDie.raise_core, FieldDie.core_pwr]
@[simp] theorem FieldDie.raise_ports (f : FieldDie) (a b : Nat) : (f.raise a b).ports = f.ports := by
  rw [← FieldDie.core_ports, FieldDie.raise_core, FieldDie.core_ports]
@[simp] theorem FieldDie.raise_segs (f : FieldDie) (a b : Nat) : (f.raise a b).segs = f.segs := by
  rw [← FieldDie.core_segs, FieldDie.raise_core, FieldDie.core_segs]
@[simp] theorem FieldDie.raise_gates (f : FieldDie) (a b : Nat) : (f.raise a b).gates = f.gates := by
  rw [← FieldDie.core_gates, FieldDie.raise_core, FieldDie.core_gates]
@[simp] theorem FieldDie.raise_ptp (f : FieldDie) (a b : Nat) : (f.raise a b).ptp = f.ptp := by
  rw [← FieldDie.core_ptp, FieldDie.raise_core, FieldDie.core_ptp]
@[simp] theorem FieldDie.raise_tim (f : FieldDie) (a b : Nat) : (f.raise a b).tim = f.tim := by
  rw [← FieldDie.core_tim, FieldDie.raise_core, FieldDie.core_tim]
@[simp] theorem FieldDie.raise_str (f : FieldDie) (a b : Nat) : (f.raise a b).str = f.str := by
  rw [← FieldDie.core_str, FieldDie.raise_core, FieldDie.core_str]
@[simp] theorem FieldDie.raise_fwd (f : FieldDie) (a b : Nat) : (f.raise a b).fwd = f.fwd := by
  rw [← FieldDie.core_fwd, FieldDie.raise_core, FieldDie.core_fwd]
@[simp] theorem FieldDie.raise_key (f : FieldDie) (a b : Nat) : (f.raise a b).key = f.key := by
  rw [← FieldDie.core_key, FieldDie.raise_core, FieldDie.core_key]
@[simp] theorem FieldDie.raise_spi (f : FieldDie) (a b : Nat) : (f.raise a b).spi = f.spi := by
  rw [← FieldDie.core_spi, FieldDie.raise_core, FieldDie.core_spi]
@[simp] theorem FieldDie.raise_pin (f : FieldDie) (a b : Nat) : (f.raise a b).pin = f.pin := by
  rw [← FieldDie.core_pin, FieldDie.raise_core, FieldDie.core_pin]
@[simp] theorem FieldDie.raise_ptb (f : FieldDie) (a b : Nat) : (f.raise a b).ptb = f.ptb := by
  rw [← FieldDie.core_ptb, FieldDie.raise_core, FieldDie.core_ptb]

@[simp] theorem FieldDie.queueEvt_order (f : FieldDie) (u : FlowUnit) : (f.queueEvt u).order = f.order := by
  rw [← FieldDie.core_order, FieldDie.queueEvt_core, FieldDie.core_order]
@[simp] theorem FieldDie.queueEvt_dieId (f : FieldDie) (u : FlowUnit) : (f.queueEvt u).dieId = f.dieId := by
  rw [← FieldDie.core_dieId, FieldDie.queueEvt_core, FieldDie.core_dieId]
@[simp] theorem FieldDie.queueEvt_straps (f : FieldDie) (u : FlowUnit) : (f.queueEvt u).straps = f.straps := by
  rw [← FieldDie.core_straps, FieldDie.queueEvt_core, FieldDie.core_straps]
@[simp] theorem FieldDie.queueEvt_phase (f : FieldDie) (u : FlowUnit) : (f.queueEvt u).phase = f.phase := by
  rw [← FieldDie.core_phase, FieldDie.queueEvt_core, FieldDie.core_phase]
@[simp] theorem FieldDie.queueEvt_resetBy (f : FieldDie) (u : FlowUnit) : (f.queueEvt u).resetBy = f.resetBy := by
  rw [← FieldDie.core_resetBy, FieldDie.queueEvt_core, FieldDie.core_resetBy]
@[simp] theorem FieldDie.queueEvt_staged (f : FieldDie) (u : FlowUnit) : (f.queueEvt u).staged = f.staged := by
  rw [← FieldDie.core_staged, FieldDie.queueEvt_core, FieldDie.core_staged]
@[simp] theorem FieldDie.queueEvt_snapHost (f : FieldDie) (u : FlowUnit) : (f.queueEvt u).snapHost = f.snapHost := by
  rw [← FieldDie.core_snapHost, FieldDie.queueEvt_core, FieldDie.core_snapHost]
@[simp] theorem FieldDie.queueEvt_snapSerial (f : FieldDie) (u : FlowUnit) : (f.queueEvt u).snapSerial = f.snapSerial := by
  rw [← FieldDie.core_snapSerial, FieldDie.queueEvt_core, FieldDie.core_snapSerial]
@[simp] theorem FieldDie.queueEvt_window (f : FieldDie) (u : FlowUnit) : (f.queueEvt u).window = f.window := by
  rw [← FieldDie.core_window, FieldDie.queueEvt_core, FieldDie.core_window]
@[simp] theorem FieldDie.queueEvt_arrivals (f : FieldDie) (u : FlowUnit) : (f.queueEvt u).arrivals = f.arrivals := by
  rw [← FieldDie.core_arrivals, FieldDie.queueEvt_core, FieldDie.core_arrivals]
@[simp] theorem FieldDie.queueEvt_launch (f : FieldDie) (u : FlowUnit) : (f.queueEvt u).launch = f.launch := by
  rw [← FieldDie.core_launch, FieldDie.queueEvt_core, FieldDie.core_launch]
@[simp] theorem FieldDie.queueEvt_winMod (f : FieldDie) (u : FlowUnit) : (f.queueEvt u).winMod = f.winMod := by
  rw [← FieldDie.core_winMod, FieldDie.queueEvt_core, FieldDie.core_winMod]
@[simp] theorem FieldDie.queueEvt_cfg (f : FieldDie) (u : FlowUnit) : (f.queueEvt u).cfg = f.cfg := by
  rw [← FieldDie.core_cfg, FieldDie.queueEvt_core, FieldDie.core_cfg]
@[simp] theorem FieldDie.queueEvt_flt (f : FieldDie) (u : FlowUnit) : (f.queueEvt u).flt = f.flt := by
  rw [← FieldDie.core_flt, FieldDie.queueEvt_core, FieldDie.core_flt]
@[simp] theorem FieldDie.queueEvt_twn (f : FieldDie) (u : FlowUnit) : (f.queueEvt u).twn = f.twn := by
  rw [← FieldDie.core_twn, FieldDie.queueEvt_core, FieldDie.core_twn]
@[simp] theorem FieldDie.queueEvt_pwr (f : FieldDie) (u : FlowUnit) : (f.queueEvt u).pwr = f.pwr := by
  rw [← FieldDie.core_pwr, FieldDie.queueEvt_core, FieldDie.core_pwr]
@[simp] theorem FieldDie.queueEvt_ports (f : FieldDie) (u : FlowUnit) : (f.queueEvt u).ports = f.ports := by
  rw [← FieldDie.core_ports, FieldDie.queueEvt_core, FieldDie.core_ports]
@[simp] theorem FieldDie.queueEvt_segs (f : FieldDie) (u : FlowUnit) : (f.queueEvt u).segs = f.segs := by
  rw [← FieldDie.core_segs, FieldDie.queueEvt_core, FieldDie.core_segs]
@[simp] theorem FieldDie.queueEvt_gates (f : FieldDie) (u : FlowUnit) : (f.queueEvt u).gates = f.gates := by
  rw [← FieldDie.core_gates, FieldDie.queueEvt_core, FieldDie.core_gates]
@[simp] theorem FieldDie.queueEvt_ptp (f : FieldDie) (u : FlowUnit) : (f.queueEvt u).ptp = f.ptp := by
  rw [← FieldDie.core_ptp, FieldDie.queueEvt_core, FieldDie.core_ptp]
@[simp] theorem FieldDie.queueEvt_tim (f : FieldDie) (u : FlowUnit) : (f.queueEvt u).tim = f.tim := by
  rw [← FieldDie.core_tim, FieldDie.queueEvt_core, FieldDie.core_tim]
@[simp] theorem FieldDie.queueEvt_str (f : FieldDie) (u : FlowUnit) : (f.queueEvt u).str = f.str := by
  rw [← FieldDie.core_str, FieldDie.queueEvt_core, FieldDie.core_str]
@[simp] theorem FieldDie.queueEvt_fwd (f : FieldDie) (u : FlowUnit) : (f.queueEvt u).fwd = f.fwd := by
  rw [← FieldDie.core_fwd, FieldDie.queueEvt_core, FieldDie.core_fwd]
@[simp] theorem FieldDie.queueEvt_key (f : FieldDie) (u : FlowUnit) : (f.queueEvt u).key = f.key := by
  rw [← FieldDie.core_key, FieldDie.queueEvt_core, FieldDie.core_key]
@[simp] theorem FieldDie.queueEvt_spi (f : FieldDie) (u : FlowUnit) : (f.queueEvt u).spi = f.spi := by
  rw [← FieldDie.core_spi, FieldDie.queueEvt_core, FieldDie.core_spi]
@[simp] theorem FieldDie.queueEvt_pin (f : FieldDie) (u : FlowUnit) : (f.queueEvt u).pin = f.pin := by
  rw [← FieldDie.core_pin, FieldDie.queueEvt_core, FieldDie.core_pin]
@[simp] theorem FieldDie.queueEvt_ptb (f : FieldDie) (u : FlowUnit) : (f.queueEvt u).ptb = f.ptb := by
  rw [← FieldDie.core_ptb, FieldDie.queueEvt_core, FieldDie.core_ptb]


end Sys2Proof.Machine
end

