-- ==== Sys2Proof/Laws/Port.lean ====
section
/-! SUPPORT. What a port's change of state can touch: the state it enters is the one it is given, and everything below
the address of the parser's registers but its own status and events reads as before. -/

namespace Sys2Proof.Machine

/-- From `f` to `g` only queues, frames and their registers have moved. -/
structure LowSame (f g : FieldDie) : Prop where
  side : g.side = f.side
  rd : ∀ a, a < 0x140000 → g.rd a = f.rd a

theorem LowSame.refl (f : FieldDie) : LowSame f f := ⟨rfl, fun _ _ => rfl⟩

theorem LowSame.trans {f g h : FieldDie} (a : LowSame f g) (b : LowSame g h) : LowSame f h :=
  ⟨b.side.trans a.side, fun x hx => (b.rd x hx).trans (a.rd x hx)⟩

theorem LowSame.ofEq {f g : FieldDie} (hs : g.side = f.side) (hr : g.reg = f.reg) : LowSame f g :=
  ⟨hs, fun a _ => FieldDie.rd_eq hr a⟩

theorem FieldDie.side_eq {f g : FieldDie} (h : g.core = f.core) : g.side = f.side := by
  have e : ∀ x : FieldDie, x.side = x.core.side := fun _ => rfl
  rw [e g, e f, h]

theorem low_wr (f : FieldDie) (a : Nat) (w : Word) (h : 0x140000 ≤ a) : LowSame f (f.wr a w) :=
  ⟨rfl, fun b hb => by rw [FieldDie.rd_wr, if_neg (by omega)]⟩

theorem low_wrN (f : FieldDie) (a v : Nat) (h : 0x140000 ≤ a) : LowSame f (f.wrN a v) := low_wr f a _ h

theorem low_put (f : FieldDie) (r : Fld) (v : Nat) (h : 0x140000 ≤ r.addr) : LowSame f (f.put r v) := low_wr f r.addr _ h

theorem low_str (f : FieldDie) (x : StrX) : LowSame f { f with str := x } := ⟨rfl, fun _ _ => rfl⟩

theorem low_buf (f : FieldDie) (x : BufX) : LowSame f { f with buf := x } := ⟨rfl, fun _ _ => rfl⟩

theorem low_count (f : FieldDie) (a : Nat) : LowSame f (f.count a) := ⟨rfl, fun _ _ => rfl⟩

theorem low_raise (f : FieldDie) (a b : Nat) (h : 0x140000 ≤ a) : LowSame f (f.raise a b) :=
  ⟨FieldDie.side_eq (f.raise_core a b), fun x hx => FieldDie.raise_rd f a b x (by omega) (by unfold F_XNG_EVT; omega)⟩

theorem low_forAll {α : Type} (g : α → FieldDie → FieldDie) (h : ∀ x f, LowSame f (g x f)) (xs : List α) (f : FieldDie) :
    LowSame f (forAll xs g f) := by
  unfold forAll
  induction xs generalizing f with
  | nil => exact LowSame.refl f
  | cons x xs ih => exact (h x f).trans (ih (g x f))

theorem low_forRange (n : Nat) (g : Nat → FieldDie → FieldDie) (h : ∀ x f, LowSame f (g x f)) (f : FieldDie) :
    LowSame f (forRange n g f) := low_forAll g h (List.range n) f

/-! ### Timestamp queues and charges -/

theorem tsqPush_low (n : Nat) (e : TsEntry) (f : FieldDie) : LowSame f (tsqPush n e f) := by
  unfold tsqPush
  split
  · exact LowSame.refl f
  · split
    · exact LowSame.ofEq rfl rfl
    · exact ((low_count f _).trans (low_put _ _ _ (by decide))).trans (low_raise _ _ _ (by decide))

theorem tsqFrame_low (fr : Frame) (n st re ts : Nat) (f : FieldDie) : LowSame f (tsqFrame fr n st re ts f) := by
  unfold tsqFrame
  split
  · exact tsqPush_low _ _ _
  · exact LowSame.refl f

theorem countQDrop_low (f : FieldDie) (n q c : Nat) : LowSame f (f.countQDrop n q c) := by
  unfold FieldDie.countQDrop FieldDie.countDrop
  dsimp only
  split
  · exact (low_count f _).trans (low_count _ _)
  · exact low_count f _

theorem refreshPool_low (f : FieldDie) : LowSame f (refreshPool f) := low_put f F_BUF_POOL_shared_size _ (by decide)

theorem portUse_ge (n : Nat) : 0x140000 ≤ (F_BUF_PORT_USE_res_used n).addr ∧ 0x140000 ≤ (F_BUF_PORT_USE_shr_used n).addr := by
  constructor <;> · show 0x140000 ≤ F_BUF_PORT_USE n; unfold F_BUF_PORT_USE; omega

theorem chargeSub_low (n q c : Nat) (r : Bool) (f : FieldDie) : LowSame f (chargeSub n q c r f) := by
  unfold chargeSub
  dsimp only
  refine LowSame.trans ?_ (refreshPool_low _)
  split
  · refine LowSame.trans ?_ (low_put _ _ _ (portUse_ge n).1)
    exact low_wrN f _ _ (by unfold occAddr; omega)
  · refine LowSame.trans ?_ (low_put _ _ _ (by decide))
    refine LowSame.trans ?_ (low_put _ _ _ (portUse_ge n).2)
    exact low_wrN f _ _ (by unfold occAddr; omega)

theorem releaseCopy_low (c : Copy) (f : FieldDie) : LowSame f (releaseCopy c f) := chargeSub_low _ _ _ _ _

theorem discardCopy_low (code : Nat) (c : Copy) (f : FieldDie) : LowSame f (discardCopy code c f) := by
  unfold discardCopy
  dsimp only
  refine LowSame.trans ?_ (releaseCopy_low _ _)
  split
  · exact countQDrop_low f _ _ _
  · exact LowSame.trans (countQDrop_low f _ _ _) (tsqFrame_low _ _ _ _ _ _)

theorem discardQueued_low (p : Copy → Bool) (code : Nat) (f : FieldDie) : LowSame f (discardQueued p code f) := by
  unfold discardQueued
  dsimp only
  refine LowSame.trans ?_ (low_forAll _ (discardCopy_low code) _ _)
  exact LowSame.ofEq rfl rfl

theorem emptyPort_low (n code : Nat) (f : FieldDie) : LowSame f (emptyPort n code f) := by
  unfold emptyPort
  dsimp only
  refine LowSame.trans ?_ (low_forAll _ (discardCopy_low code) _ _)
  exact (discardQueued_low _ _ f).trans (LowSame.ofEq rfl rfl)

theorem dropFrameCopies_low (id re : Nat) (f : FieldDie) : LowSame f (dropFrameCopies id re f) := by
  unfold dropFrameCopies
  dsimp only
  refine LowSame.trans ?_ (low_forAll _ releaseCopy_low _ _)
  refine LowSame.ofEq ?_ rfl
  simp only [FieldDie.side, FieldDie.rest, FieldDie.core, List.map_map]
  rfl

/-! ### Meters and frames -/

theorem setBucket_low (m b v : Nat) (f : FieldDie) : LowSame f (setBucket m b v f) :=
  low_wrN f _ _ (by unfold bucketAddr; omega)

theorem setMeterFrac_low (m : Nat) (v : List Nat) (f : FieldDie) : LowSame f (setMeterFrac m v f) := by
  unfold setMeterFrac
  exact low_str f _

theorem meterReturn_low (m b n : Nat) (f : FieldDie) : LowSame f (meterReturn m b n f) := by
  unfold meterReturn
  split
  · exact setBucket_low m b _ f
  · exact (setBucket_low m b _ f).trans (setMeterFrac_low m _ _)

theorem setOctetSum_low (w cyc v : Nat) (f : FieldDie) : LowSame f (setOctetSum w cyc v f) := by
  unfold setOctetSum
  exact low_str f _

theorem revertStage4_low (fr : Frame) (f : FieldDie) : LowSame f (revertStage4 fr f) := by
  unfold revertStage4
  have h1 : ∀ g, LowSame f g → LowSame f (match fr.octets with
      | some (w, cyc, p) => if stage4Frozen g then g else setOctetSum w cyc (octetSum g w cyc - p) g
      | none => g) := by
    intro g hg
    split
    · split
      · exact hg
      · exact hg.trans (setOctetSum_low _ _ _ _)
    · exact hg
  apply h1
  split
  · split
    · exact LowSame.refl _
    · exact (meterReturn_low _ _ _ _).trans (low_count _ _)
  · exact LowSame.refl _

theorem setGateX_side (f : FieldDie) (n : Nat) (g : GateX → GateX) (h : ∀ x, (g x).strip = x.strip) :
    (f.setGateX n g).side = f.side := by
  have e : (List.modify f.gates n g).map GateX.strip = f.gates.map GateX.strip := by
    apply List.ext_getElem?
    intro i
    rw [List.getElem?_map, List.getElem?_map, List.getElem?_modify]
    by_cases hi : n = i
    · subst hi
      cases f.gates[n]? with
      | none => simp
      | some p => simp [h p]
    · simp [hi]
  simp only [FieldDie.side, FieldDie.rest, FieldDie.core, FieldDie.setGateX, modAt, e]

theorem settleRate_low (id len : Nat) (f : FieldDie) : LowSame f (settleRate id len f) := by
  unfold settleRate
  refine low_forRange 17 _ (fun n g => low_forAll _ (fun c g => ?_) _ g) f
  split
  · exact LowSame.refl g
  · exact LowSame.ofEq (setGateX_side g n _ (fun _ => rfl)) rfl

theorem rejectFrame_low (fr : Frame) (re : Nat) (f : FieldDie) : LowSame f (rejectFrame fr re f) := by
  have h0 : LowSame f (if fr.dropped then f else f.countDrop fr.port re) := by
    split
    · exact LowSame.refl f
    · exact low_count f _
  unfold rejectFrame FieldDie.setFrame
  exact (((h0.trans (revertStage4_low fr _)).trans (settleRate_low _ _ _)).trans (dropFrameCopies_low _ _ _)).trans
    (low_buf _ _)

theorem truncateRx_low (n : Nat) (f : FieldDie) : LowSame f (truncateRx n f) :=
  low_forAll _ (fun fr f => rejectFrame_low fr 5 f) _ _

theorem setPortX_side (f : FieldDie) (n : Nat) (g : PortX → PortX) (h : ∀ p, (g p).strip = p.strip) :
    (f.setPortX n g).side = f.side := by
  have e : (List.modify f.ports n g).map PortX.strip = f.ports.map PortX.strip := by
    apply List.ext_getElem?
    intro i
    rw [List.getElem?_map, List.getElem?_map, List.getElem?_modify]
    by_cases hi : n = i
    · subst hi
      cases f.ports[n]? with
      | none => simp
      | some p => simp [h p]
    · simp [hi]
  simp only [FieldDie.side, FieldDie.rest, FieldDie.core, FieldDie.setPortX, modAt, e]

theorem setPortX_low (f : FieldDie) (n : Nat) (g : PortX → PortX) (h : ∀ p, (g p).strip = p.strip) :
    LowSame f (f.setPortX n g) := LowSame.ofEq (setPortX_side f n g h) rfl

theorem abortCopy_low (n : Nat) (c : Copy) (f : FieldDie) : LowSame f (abortCopy n c f) := by
  unfold abortCopy FieldDie.free
  dsimp only
  refine LowSame.trans ?_ (releaseCopy_low _ _)
  split
  · exact LowSame.ofEq rfl rfl
  · refine LowSame.trans ?_ (tsqFrame_low _ _ _ _ _ _)
    exact LowSame.ofEq rfl rfl

theorem abortTx_low (n : Nat) (f : FieldDie) : LowSame f (abortTx n f) := by
  have h0 : LowSame f (f.setPortX n (fun x => { x with sending := none, preempted := none })) :=
    setPortX_low f n _ (fun _ => rfl)
  have hm : ∀ (o : Option Copy) (g : FieldDie), LowSame f g → LowSame f (match o with
      | some c => abortCopy n c g
      | none => g) := by
    intro o g hg
    split
    · exact hg.trans (abortCopy_low _ _ _)
    · exact hg
  exact hm _ _ (hm _ _ h0)

theorem clearCredits_low (n : Nat) (f : FieldDie) : LowSame f (clearCredits n f) := by
  unfold clearCredits
  have h := low_forRange 8 (fun q f => f.wr (creditAddr n q) 0) (fun q f => low_wr f _ _ (by unfold creditAddr; omega)) f
  generalize forRange 8 (fun q f => f.wr (creditAddr n q) 0) f = g at h
  exact h.trans (LowSame.ofEq rfl rfl)

theorem fdbChanged_low (i : Nat) (w : Bool) (f : FieldDie) : LowSame f (fdbChanged i w f) := by
  unfold fdbChanged
  split
  · exact LowSame.refl f
  · split <;> exact LowSame.ofEq rfl rfl

theorem fdbInvalidate_low (i : Nat) (f : FieldDie) : LowSame f (fdbInvalidate i f) := by
  unfold fdbInvalidate
  refine LowSame.trans ?_ (fdbChanged_low _ _ _)
  exact low_wrN f _ _ (by unfold fdbAddr; omega)

theorem fdbRecount_low (f : FieldDie) : LowSame f (fdbRecount f) :=
  (low_put f _ _ (by decide)).trans (low_put _ _ _ (by decide))

theorem fdbPurge_low (p : FdbEntry → Bool) (f : FieldDie) : LowSame f (fdbPurge p f) := by
  unfold fdbPurge
  split
  · exact LowSame.refl f
  · exact LowSame.trans (low_forAll _ fdbInvalidate_low _ f) (fdbRecount_low _)

theorem setActive_low (g v : Nat) (f : FieldDie) : LowSame f (setActive g v f) := by
  have h0 : LowSame f (((f.put (F_FWD_AGG_STAT_active g) v).put F_FWD_EVT_INFO_index g).raise F_FWD_EVT 3) :=
    ((low_put f _ _ (by show 0x140000 ≤ F_FWD_AGG_STAT g; unfold F_FWD_AGG_STAT; omega)).trans
      (low_put _ _ _ (by decide))).trans (low_raise _ _ _ (by decide))
  unfold setActive
  split
  · exact LowSame.refl f
  · dsimp only
    split
    · exact h0.trans (fdbPurge_low _ _)
    · exact h0

theorem memberDown_low (n : Nat) (f : FieldDie) : LowSame f (memberDown n f) := by
  unfold memberDown
  split
  · exact setActive_low _ _ _
  · exact LowSame.refl f

theorem flushOnDown_low (n : Nat) (f : FieldDie) : LowSame f (flushOnDown n f) := by
  unfold flushOnDown
  split
  · exact fdbPurge_low _ f
  · exact LowSame.refl f

/-! ### The change of state -/

theorem LowSame.state {f g : FieldDie} (h : LowSame f g) {n : Nat} (hn : n < 16) : portState g n = portState f n :=
  FieldDie.get_eq _ (h.rd _ (by show F_PORT_STAT n < _; unfold F_PORT_STAT; omega))

theorem raise_port_state (f : FieldDie) (n m b : Nat) (hn : n < 16) :
    portState (f.raise (F_PORT_EVT m) b) n = portState f n :=
  FieldDie.get_eq _ (FieldDie.raise_rd _ _ _ _ (by show F_PORT_STAT n ≠ F_PORT_EVT m; unfold F_PORT_STAT F_PORT_EVT; omega)
    (by show F_PORT_STAT n ≠ F_XNG_EVT; unfold F_PORT_STAT F_XNG_EVT; omega))

theorem put_port_state (f : FieldDie) (n : Nat) (r : Fld) (v : Nat)
    (h : r.addr ≠ F_PORT_STAT n ∨ (r.addr = F_PORT_STAT n ∧ r.lo ≤ r.hi ∧ r.hi < 28)) :
    portState (f.put r v) n = portState f n := by
  rcases h with h | ⟨h1, h2, h3⟩
  · exact FieldDie.get_put_addr f r _ v (Ne.symm h)
  · exact FieldDie.get_put_field f r _ v h1.symm h2 (by omega) (.inl h3)

theorem setPortX_state (f : FieldDie) (n m : Nat) (g : PortX → PortX) : portState (f.setPortX m g) n = portState f n := rfl

theorem refreshPreempt_state (n : Nat) (f : FieldDie) : portState (refreshPreempt n f) n = portState f n := by
  unfold refreshPreempt
  split
  · exact put_port_state _ _ _ _ (.inr ⟨rfl, by simp [F_PORT_STAT_preempt_active], by simp [F_PORT_STAT_preempt_active]⟩)
  · rfl

theorem startVerify_state (n : Nat) (f : FieldDie) : portState (startVerify n f) n = portState f n := by
  unfold startVerify
  split
  · exact put_port_state _ _ _ _ (.inr ⟨rfl, by simp [F_PORT_STAT_verify_state], by simp [F_PORT_STAT_verify_state]⟩)
  · dsimp only
    rw [refreshPreempt_state,
      put_port_state _ _ _ _ (.inr ⟨rfl, by simp [F_PORT_STAT_verify_state], by simp [F_PORT_STAT_verify_state]⟩),
      setPortX_state]

theorem quietSegment_state (n m : Nat) (f : FieldDie) : portState (quietSegment m f) n = portState f n := by
  unfold quietSegment
  have h : ∀ k, F_MDS_STAT k ≠ F_PORT_STAT n := by intro k; unfold F_MDS_STAT F_PORT_STAT; omega
  split
  · dsimp only
    rw [put_port_state _ _ _ _ (.inl (h _)), put_port_state _ _ _ _ (.inl (h _))]
    rfl
  · rfl

theorem showState_state (n old st reason : Nat) (f : FieldDie) (hst : st < 16) :
    portState (showState n old st reason f) n = st := by
  have h0 : ∀ v, portState (((f.put (F_PORT_STAT_state n) st).put (F_PORT_STAT_category n) v)) n = st := by
    intro v
    rw [put_port_state _ _ _ _ (.inr ⟨rfl, by simp [F_PORT_STAT_category], by simp [F_PORT_STAT_category]⟩)]
    have := FieldDie.get_put f (F_PORT_STAT_state n) st (by simp [F_PORT_STAT_state]) (by simp [F_PORT_STAT_state])
    unfold portState
    rw [this]
    simp only [F_PORT_STAT_state]
    omega
  unfold showState
  dsimp only
  split
  · rw [put_port_state _ _ _ _ (.inr ⟨rfl, by simp [F_PORT_STAT_down_reason], by simp [F_PORT_STAT_down_reason]⟩),
      setPortX_state, h0]
  · rw [setPortX_state, h0]

theorem leaveUp_low (n old st : Nat) (f : FieldDie) : LowSame f (leaveUp n old st f) := by
  have h1 : LowSame f (if stateUp old && !stateUp st then memberDown n (abortTx n f) else f) := by
    split
    · exact (abortTx_low n f).trans (memberDown_low n _)
    · exact LowSame.refl f
  have h2 : ∀ g, LowSame g (if (stateUp old && !stateUp st && st != 5) || (old == 5 && st != 5) then truncateRx n g else g) := by
    intro g
    split
    · exact truncateRx_low n g
    · exact LowSame.refl g
  unfold leaveUp
  dsimp only
  split
  · exact (h1.trans (h2 _)).trans (clearCredits_low n _)
  · exact h1.trans (h2 _)

theorem leaveUp_state (n old st : Nat) (f : FieldDie) (hn : n < 16) : portState (leaveUp n old st f) n = portState f n :=
  (leaveUp_low n old st f).state hn

theorem nowDown_state (n old st : Nat) (f : FieldDie) (hn : n < 16) : portState (nowDown n old st f) n = portState f n := by
  have h1 : portState (if stateDown st then quietSegment n (flushOnDown n (emptyPort n 0x0A f)) else f) n = portState f n := by
    split
    · rw [quietSegment_state]
      exact ((emptyPort_low n 0x0A f).trans (flushOnDown_low n _)).state hn
    · rfl
  unfold nowDown
  dsimp only
  split
  · rw [raise_port_state _ _ _ _ hn, h1]
  · rw [h1]

theorem nowUp_state (n old st : Nat) (f : FieldDie) (hn : n < 16) : portState (nowUp n old st f) n = portState f n := by
  unfold nowUp
  dsimp only
  split
  · rw [startVerify_state, raise_port_state _ _ _ _ hn]
    split <;> rfl
  · rfl

/-- A port whose machine runs is afterwards in the state it enters. -/
theorem enterState_state (n st reason : Nat) (f : FieldDie) (hn : n < 16) (hst : st < 16)
    (hr : f.engineRuns n = true) : portState (enterState n st reason f) n = st := by
  unfold enterState
  rw [if_neg (by simp [hr])]
  dsimp only
  rw [nowUp_state _ _ _ _ hn, nowDown_state _ _ _ _ hn, leaveUp_state _ _ _ _ hn, showState_state _ _ _ _ _ hst]

end Sys2Proof.Machine
end

