-- ==== Sys2Proof/WellFormed.lean ====
section
/-! DEFINITION. Well-formed commands: every operand in the range that its rule gives it. What a command with an operand
outside does is nothing at all (the meanings say so); no statement needs it. -/

namespace Sys2Proof.WellFormed

/-! The checks. -/

/-- A number below `k`. -/
def below (k n : Nat) : Bool := decide (n < k)

/-- A number of at most `k`. -/
def atMost (k n : Nat) : Bool := decide (n ≤ k)

/-- A value of 32 bits. -/
def isU32 (n : Nat) : Bool := below (2 ^ 32) n

/-- A requester code of Table 6.1 that makes writes: the functions, the serial manager, the image loader. -/
def isRequester (r : Nat) : Bool := atMost 0x41 r

/-- An address of 24 bits. -/
def isAddr24 (a : Nat) : Bool := below (2 ^ 24) a

/-- A word-aligned register address; the command's rule says of which map. -/
def isWordAddr (a : Nat) : Bool := a % 4 == 0

/-- A word-aligned address in the table windows (Table 4.3). -/
def isTableAddr (a : Nat) : Bool := a % 4 == 0 && isAddr24 a

/-- A word-aligned address in the function window (R717). -/
def isWindowAddr (a : Nat) : Bool := a % 4 == 0 && decide (0xF00000 ≤ a) && isAddr24 a

/-- Byte enables of a word with at least one byte. -/
def isByteEnable (be : Nat) : Bool := decide (0 < be) && below 16 be

/-- The number of words of one serial command (R747). -/
def isCount (n : Nat) : Bool := decide (0 < n)

/-- A general-purpose pin with a register of its own (R761). -/
def isCfgPin (n : Nat) : Bool := decide (4 ≤ n) && below 24 n

/-- An offset among F_PIN_OUT and its set, clear and toggle forms (R763). -/
def isPinOutOff (o : Nat) : Bool := o == 0x10 || o == 0x14 || o == 0x18 || o == 0x1C

/-- A byte offset among the steering entries in BAR0 (R700). -/
def isSteerOff (o : Nat) : Bool := o % 4 == 0 && decide (0x2400 ≤ o) && below 0x2800 o

/-- A ring with an interrupt: a queue pair, the event ring (2048), or a window pair from 4096 on (R707). -/
def isIrqRing (q : Nat) : Bool := atMost 2048 q || (decide (4096 ≤ q) && below 4112 q)

/-- A bit of F_PWR_WAKE_SRC that names a cause. -/
def isWakeBit (b : Nat) : Bool := below 12 b || b == 16 || b == 17 || b == 20

/-- D0, D3hot or D3cold (R130). -/
def isPowerState (d : Nat) : Bool := d == 0 || d == 3 || d == 4

/-- A condition that ends a frame (Table 7.7, R324 to R326), or 0x20, a verify frame (log entry 135). -/
def isEndCond (c : Nat) : Bool := c == 0 || c == 4 || c == 5 || c == 8 || c == 0x18 || c == 0x20

/-- A byte string of exactly `k` bytes. -/
def hasLen (k : Nat) (bs : List Byte) : Bool := bs.length == k

/-- Descriptors of 32 bytes each (R683). -/
def areDescs (ds : List (List Byte)) : Bool := ds.all (hasLen 32)

end Sys2Proof.WellFormed

namespace Sys2Proof

open WellFormed

/-- The operands of a command are in range. -/
def Instr.wf : Instr → Bool
  | .flowUnitReceive _ bytes => hasLen 64 bytes
  | .pinReset _ => true
  | .powerGoodReset _ => true
  | .coldReset => true
  | .internalResetRelease _ straps => below 16 straps
  | .lineTurnOn line _ _ => below 2 line
  | .lineTurnOff line _ => below 2 line
  | .twinFaultInChange _ _ => true
  | .fabricPllLock => true
  | .initialisationComplete => true
  | .configSourceResolved => true
  | .softwareReset r _ => isRequester r
  | .startGo r _ => isRequester r
  | .fineTick => true
  | .safelightTick pads => below 0x1000000 pads
  | .crossCheckOverrun => true
  | .slCalUpdate period => isU32 period
  | .napEntry => true
  | .napExit => true
  | .darkNow r _ => isRequester r
  | .darkAutoRequest => true
  | .darkDrainDone => true
  | .darkDrainTimeout => true
  | .darkPointOfNoReturn => true
  | .wakeCause bit => isWakeBit bit
  | .resumeImageLoaded => true
  | .darkTimeReconcile => true
  | .flashOperationDone => true
  | .flashOperationTimeout => true
  | .exposureNapLead entry => below 64 entry
  | .exposureWindowStart entry => below 64 entry
  | .exposureWindowEnd entry => below 64 entry
  | .exposureBaseWrite r _ => isRequester r
  | .wakeBurstSend port => below 12 port
  | .wakeBurstDetect port _ => below 12 port
  | .sleepLost port => below 12 port
  | .derateSample vline tj => below 0x10000 vline && below 0x10000 tj
  | .derateReadmit => true
  | .hostPowerStateChange d => isPowerState d
  | .hostReset => true
  | .hostResetRelease => true
  | .keyReadHeader r => isRequester r
  | .keyCommit r => isRequester r
  | .keyForcedCommit r => isRequester r
  | .keyAbort r => isRequester r
  | .keyPresencePoll _ => true
  | .keyReply => true
  | .keyReplyTimeout => true
  | .inventory _ => true
  | .loadBuffer off bs => atMost 224 off && hasLen 32 bs
  | .programPage txn slot page crc => isU32 txn && below 2 slot && below 120 page && isU32 crc
  | .verifySlot slot size => below 2 slot && atMost 0x7800 size
  | .writePointer txn ptr bs => isU32 txn && below 2 ptr && hasLen 32 bs
  | .registerWrite r addr be _ => isRequester r && isWordAddr addr && isByteEnable be
  | .sqClear r addr _ => isRequester r && isWordAddr addr
  | .voterCheck => true
  | .proofSweepStart => true
  | .proofSweepEnd => true
  | .proofCommit r => isRequester r
  | .proofCommitIfEqual r => isRequester r
  | .lockAcquire r n => isRequester r && below 32 n
  | .lockRelease r n => isRequester r && below 32 n
  | .lockExpired n => below 32 n
  | .tableEntryWrite r addr _ => isRequester r && isTableAddr addr
  | .portModeWrite r n _ => isRequester r && below 16 n
  | .modeChangeHoldEnd n => below 16 n
  | .maxFrameWrite r n _ => isRequester r && below 16 n
  | .linkEstablished n _ => below 12 n
  | .linkLoss n => below 12 n.port
  | .sleepRequestWrite r n _ => isRequester r && below 12 n
  | .sleepQuiet n => below 12 n
  | .tc10SleepAck n => below 12 n
  | .tc10SleepTimeout n => below 12 n
  | .tc10SleepRetry n => below 12 n
  | .partnerSleep n _ => below 12 n
  | .wakeNow r n _ => isRequester r && below 12 n
  | .podlSleepRequest n => below 2 n
  | .podlWakeReq n _ => below 2 n
  | .verifySend n => below 12 n
  | .verifyResponse n => below 12 n
  | .verifyFail n => below 12 n
  | .pauseReceive n quanta => below 16 n && below 0x10000 quanta
  | .pauseExpire n q => below 4 n && below 8 q
  | .pauseCapped n q => below 4 n && below 8 q
  | .frameStart port phase => below 16 port && below 8 phase
  | .frameEnd port _ cond _ => below 16 port && isEndCond cond
  | .shortPass port bytes => below 17 port && atMost 64 bytes.length
  | .fullPass port _ => below 17 port
  | .keyCaptureArm r _ => isRequester r
  | .learn port => below 17 port
  | .agerTick => true
  | .ageWrite r _ => isRequester r
  | .fdbFlush r _ => isRequester r
  | .fdbFlushDone => true
  | .aggWrite r g _ => isRequester r && below 4 g
  | .memberRejoin g slot => below 4 g && below 4 slot
  | .transmitStart port => below 17 port
  | .transmitEnd port phase => below 17 port && below 8 phase
  | .queueFlush r _ => isRequester r
  | .queueFlushDone => true
  | .bufPortCfgWrite r n _ => isRequester r && below 17 n
  | .watermarkReset r _ => isRequester r
  | .bufferAudit port => below 17 port
  | .unlatch r _ => isRequester r
  | .rateLimiterWrite r n _ _ => isRequester r && below 17 n
  | .gateEdge port => below 17 port
  | .scheduleTrigger r _ => isRequester r
  | .scheduleChange port => below 18 port
  | .networkCycleBoundary => true
  | .aStep r _ => isRequester r
  | .bStep r _ => isRequester r
  | .aSet r _ => isRequester r
  | .bOffWrite r _ => isRequester r
  | .incWrite r _ => isRequester r
  | .rateWrite r _ => isRequester r
  | .domainSwitchRequest r _ => isRequester r
  | .xcIntervalEnd => true
  | .syncReceive n port => below 2 n && below 16 port
  | .syncTimeout n => below 2 n
  | .syncSend n => below 2 n
  | .ptpMessageReceive port _ _ => below 16 port
  | .pdelayExchange port _ _ _ => below 12 port
  | .shutterArm r k _ => isRequester r && below 4 k
  | .shutterEdge k => below 4 k
  | .captureEdge k _ phase => below 4 k && below 8 phase
  | .tsqPop r addr => isRequester r && isWordAddr addr
  | .tsrSend port => below 17 port
  | .timeMessageSend => true
  | .timeMessageReceive _ => true
  | .ptmDialogue _ _ => true
  | .corrSnap _ => true
  | .timeCaptureSnap r _ => isRequester r
  | .ackSend _ => true
  | .replayTimeout _ => true
  | .laneFailure _ lane => below 5 lane
  | .spareReceive _ lane => below 5 lane
  | .spareRepeat _ => true
  | .spareDataSeen _ => true
  | .trainingLanePhase _ rxBad txBad => below 32 rxBad && below 32 txBad
  | .trainingRestart _ => true
  | .trainReceive _ => true
  | .trainEchoReceive _ halfInterval => below 0x10000 halfInterval
  | .crossingTrainingComplete _ => true
  | .retrain _ r _ => isRequester r
  | .apertureRead f off be => below 64 f && isWordAddr off && isByteEnable be
  | .apertureReadTimeout tag => below 256 tag
  | .apertureWrite f off firstBe lastBe words => below 64 f && isWordAddr off && isByteEnable firstBe && below 16 lastBe && !words.isEmpty
  | .regw => true
  | .regr => true
  | .regc => true
  | .evt => true
  | .fnResetReceive => true
  | .holdPurge f _ => below 64 f
  | .hello => true
  | .grant => true
  | .statusSend => true
  | .status => true
  | .statusAbsence => true
  | .recordApply => true
  | .recordLost => true
  | .relinquish => true
  | .takeover => true
  | .req => true
  | .handover => true
  | .twinEnableWrite r _ => isRequester r
  | .holdoffReset => true
  | .txTailDoorbell f ring _ => below 64 f && below 2048 ring
  | .rxTailDoorbell f ring _ => below 64 f && below 2048 ring
  | .cqHeadDoorbell f ring _ => below 64 f && below 2048 ring
  | .ringEnableWrite f _ => below 64 f
  | .functionConfigWrite f target _ _ => below 64 f && below 64 target
  | .txFetchDone qp descs _ => below 2048 qp && areDescs descs
  | .dmaError qp cookie => below 2048 qp && isU32 cookie
  | .txFrameCross => true
  | .data _ => true
  | .launchStoreArrival => true
  | .launchRelease => true
  | .rxDelivery descs => areDescs descs
  | .interruptModeration qp cause => isIrqRing qp && below 3 cause
  | .flr f => below 64 f
  | .hotReset => true
  | .steeringEntryWrite f off _ => below 64 f && isSteerOff off
  | .chkPolyWrite f n _ => below 64 f && below 8 n
  | .chkRunWrite f n _ => below 64 f && below 8 n
  | .chkHoldWrite f n _ => below 64 f && below 8 n
  | .spiRoleWrite r _ => isRequester r
  | .read addr count _ => isAddr24 addr && isCount count
  | .write addr words crc => isAddr24 addr && !words.isEmpty && isU32 crc
  | .statusCommand => true
  | .id => true
  | .mgrReset key => isU32 key
  | .managerTimeout => true
  | .spiSelAbort cmd addr => atMost 256 cmd && isAddr24 addr
  | .spiSlaveWrite r _ => isRequester r
  | .windowDoorbell addr _ => isWindowAddr addr
  | .pinOutWrite r off _ => isRequester r && isPinOutOff off
  | .pinCfgWrite r n _ => isRequester r && isCfgPin n
  | .pinEdge n _ => isCfgPin n
  | .hostPinEdge n _ => below 16 n
  | .discrepancyFault pair => below 2 pair
  | .pairActionWrite r pair _ _ => isRequester r && below 2 pair
  | .counterSnapshot r _ => isRequester r
  | .snapshotDone _ => true
  | .scrubPass => true
  | .watchdog inst => below 19 inst
  | .stateTableCommit r _ => isRequester r
  | .stateTableCheckDone => true
  | .hostFaultLatch code func place => below 4 code && below 64 func && below 4 place
  | .ptbArm _ r _ => isRequester r
  | .ptbDelay r _ => isRequester r
  | .ptbHold r _ => isRequester r
  | .ptbHoldEnd => true
  | .ptbLane _ r _ => isRequester r
  | .ptbAck _ r _ => isRequester r
  | .ptbSkew r _ => isRequester r
  | .ptbXc r _ => isRequester r
  | .ptbProof r _ => isRequester r
  | .ptbPair r _ => isRequester r
  | .ptbEcc _ r _ => isRequester r
  | .ptbTmr r _ => isRequester r
  | .ptbLock r _ => isRequester r
  | .ptbWdog r _ => isRequester r
  | .ptbDma r _ => isRequester r
  | .ptbLifetimeExpiry _ => true
  | .plcaWrite r n _ => isRequester r && below 4 n
  | .beaconSend n => below 4 n
  | .beaconReceive n => below 4 n
  | .toTimerExpiry n => below 4 n
  | .transmitOpportunity n => below 4 n
  | .burstTimerExpiry n => below 4 n
  | .beaconTimeout n => below 4 n
  | .downMsExpiry n => below 4 n
  | .plcaOverlap n => below 4 n
  | .txOverlap n => below 4 n
  | .overlapWindowEnd n => below 4 n
  | .tsr => true
  | .vddSlLoss _ => true
  | .darkroomPowerGoodFall => true
  | .overVoltageTurnOff _ => true
  | .overVoltageRecovery _ => true
  | .sccpExchange n state => below 2 n && below 3 state
  | .announceSend n => below 2 n
  | .announceTimeout n => below 2 n
  | .exposureWakePoint entry port => below 64 entry && below 12 port
  | .partnerAwake port => below 12 port
  | .postOverlapSilence n => below 4 n
  | .holdoffElapsed => true
  | .vectorUnmask v => below 0x4000 v

end Sys2Proof
end

