-- ==== Sys2Proof/Tests/Slice0.lean ====
section
/-! SUPPORT. Tests: ill-formed commands are refused by the checks, single steps on small states, and states that meet the
premises of the statements. -/

namespace Sys2Proof.Tests

open Sys2Proof Sys2Proof.Machine

set_option Elab.async false

/-! ### States -/

/-- The machine with both dies out of reset. -/
def runS : State := { fld := { phase := .running, resetBy := 0 }, hst := { inReset := false } }
/-- As `runS`, with the field die changed. -/
def onF (g : FieldDie → FieldDie) : State := { runS with fld := g runS.fld }
def noSl : State := { runS with fld := { runS.fld with pwr := { runS.fld.pwr with vddSl := false } } }
def inPhase (p : Phase) : State := { runS with fld := { runS.fld with phase := p } }
def heldReset (why : Nat) : State := { runS with fld := { runS.fld with phase := .inReset, resetBy := why, pwr := { runS.fld.pwr with lineLive := [true, false] } } }
def onPwr (g : PwrX → PwrX) : State := onF (fun f => { f with pwr := g f.pwr })
def port (n st : Nat) (g : FieldDie → FieldDie := id) : State := onF (fun f => g (f.put (F_PORT_STAT_state n) st))
def portIn (n st : Nat) (x : PortX → PortX) : State := port n st (fun f => f.setPortX n x)
def later (k : Nat) (f : FieldDie) : FieldDie := { f with tim := { f.tim with c := k } }
def paused : State := port 3 3 (fun f => later 300000 (f.setPortX 3 (fun x => { x with stops := { until_ := 30000000 } :: List.replicate 7 {} })))
def lock (n st own : Nat) (g : FieldDie → FieldDie := id) : State := onF (fun f => g ((f.put (F_CFG_LOCK_state n) st).put (F_CFG_LOCK_owner n) own))
def onCfg (g : CfgX → CfgX) : State := onF (fun f => { f with cfg := g f.cfg })
def sweep (g : CfgX → CfgX) : State := onCfg (fun c => g { c with sweeping := true })
def onSpi (g : SpiX → SpiX) : State := onF (fun f => { f with spi := g f.spi })
def keyState (k : KeyX) (g : FieldDie → FieldDie := id) (chip : KeyChip := { present := true, uid := 0x0102030405060708 }) : State := { onF (fun f => g { f.put F_KEY_STAT_present 1 with key := k }) with key := chip }
def lockF (n own : Nat) (f : FieldDie) : FieldDie := (f.put (F_CFG_LOCK_state n) 1).put (F_CFG_LOCK_owner n) own
def proven (f : FieldDie) : FieldDie := (f.put F_CFG_PROOF_STAT_committed 1).put F_CFG_PROOF_STAT_stale 0
def mac (a : Nat) : List Byte := (List.range 6).map (fun i => BitVec.ofNat 8 (a + i))
def frameBytes : List Byte := let b := mac 0x10 ++ mac 0x20 ++ [0x08, 0x00] ++ List.replicate 50 7; b ++ bytesLE (fcs32 b)
def holding (n : Nat) (frs : List Frame) (g : FieldDie → FieldDie := id) : State := port n 3 (fun f => g { f with buf := { f.buf with frames := frs, nextId := 9 } })
def learner : Frame := { id := 4, port := 3, bytes := frameBytes, rx := false, accepted := true, learn := true, final := some { vid := 5 } }
def fdbEntry (i : Nat) (ws : Nat × Nat × Nat × Nat) (f : FieldDie) : FieldDie := (((f.wrN (fdbAddr i 0) ws.1).wrN (fdbAddr i 1) ws.2.1).wrN (fdbAddr i 2) ws.2.2.1).wrN (fdbAddr i 3) ws.2.2.2
def sent : Frame := { id := 4, port := 2, bytes := frameBytes, rx := false, accepted := true, final := some {} }
def big : Frame := { id := 5, port := 2, bytes := List.replicate 1500 7, rx := false, accepted := true, final := some {} }
def onTim (g : TimeX → TimeX) : State := onF (fun f => { f with tim := g f.tim })
def listed (n : Nat) (f : FieldDie) : FieldDie := (((((f.put (F_STR_GCL_OPER_active n) 1).put (F_STR_GCL_OPER_oper_len n) 2).put (F_STR_GCL_OCYC_oper_cycle n) 100000).wrN (operAddr n 0 0) 0x80000003).wrN (operAddr n 0 1) 500).wrN (operAddr n 1 0) 0x80000081
def adminList (n : Nat) (f : FieldDie) : FieldDie := (((f.put (F_STR_GCL_CTRL_admin_len n) 2).put (F_STR_GCL_CYCLE_cycle_ns n) 100000).wrN (gclAddr n 0 0) 0x80000003).wrN (gclAddr n 1 0) 0x80000081
def pendGate (off : Bool) (f : FieldDie) : FieldDie := f.setGateX 16 (fun x => { x with pending := true, ct := 5000, pendLen := 2, pendCycle := 100000, pendBase := 5000, pendGen := 7, pendOff := off, pendList := [(0x80000003, 500), (0x80000081, 0)] })
def shutSet (k a b p : Nat) (g : FieldDie → FieldDie := id) : State := onF (fun f => g (((f.wrN (F_TIM_SHUT_START_NS k) a).wrN (F_TIM_SHUT_STOP_NS k) b).put (F_TIM_SHUT_PERIOD_period k) p))
def capF (f : FieldDie) : FieldDie := f.put F_TIM_CAP_IN_CFG_edges 0xFF
def tsE : TsEntry := { status := 1, reason := 2, id := 0x1234, ts := 5000000007 }
def onHst (g : HostDie → HostDie) : State := { runS with hst := g runS.hst }
def linked (f : FieldDie) : FieldDie := { f with xng := { f.xng with phase := 3, everUp := true, txNext := 9 } }
def mailed (u : FlowUnit) (g : HostDie → HostDie := id) : State := onHst (fun h => g { h with xng := { h.xng with inbox := [u] } })
def onPtp (n : Nat) (g : PtpX → PtpX) (h : FieldDie → FieldDie := id) : State := onF (fun f => (h f).setPtpX n g)
def slave3 (f : FieldDie) : FieldDie := f.put (F_TIM_PTP_STAT_slave_port 0) 3
def seg (k st : Nat) (x : SegX → SegX) (g : FieldDie → FieldDie := id) : State := port (12 + k) st (fun f => later 3000000 ((g f).setSegX k x))
def follower (k : Nat) (f : FieldDie) : FieldDie := f.wrN (F_MDS_PLCA k) 0x01050820
def turn (g : FieldDie → FieldDie) : State := seg 1 3 (fun x => { x with active := true, toStart := 239999500 }) (fun f => g (f.put (F_MDS_STAT_plca_active 1) 1))
def exposed (w0 w1 w2 w3 : Nat) (f : FieldDie) : FieldDie := (((f.wrN 0x400000 w0).wrN 0x400004 w1).wrN 0x400008 w2).wrN 0x40000C w3
def at_ (ns : Nat) (f : FieldDie) : FieldDie := { f with tim := { f.tim with a := ns * 2 ^ 32 } }
def waking (lim : Nat) : State := port 3 6 (fun f => at_ 20000 ({ (f.put F_PWR_PWAKE_pwake_lim lim).setPortX 3 (fun x => { x with windows := [5] }) with pwr := { f.pwr with expOpen := [(5, 20000)] } }))
def overLoad : State := port 3 3 (fun f => ((((f.put (F_PORT_MODE_enable 3) 1).put F_PWR_CTRL_derate_en 1).wrN F_PWR_COST 0x05050505).wrN F_PWR_SHPRI0 0x00003000) |> forRange 64 (fun i f => f.wrN (0x401000 + 4 * i) 0x80000002))
def dkOk (f : FieldDie) : FieldDie := (((proven f).put F_PWR_CTRL_resume_en 1).put F_PWR_STATE_resume_stat 2).wrN F_PWR_WAKE_SRC 1
def entry (g : FieldDie → FieldDie) : State := onF (fun f => g (later 5000 ((f.put F_PWR_STATE_state 2).put (F_PORT_STAT_state 3) 3)))
def asleep (pg pend : Bool) : State := { runS with fld := { runS.fld with phase := .unpowered, pwr := { runS.fld.pwr with dark := true, mask := 0x100000, pgLow := pg, wakePending := pend } } }
def onL (l : LinkId) (g : Link → Link) (s : State := runS) : State := match l with
  | .host => { s with hst := { s.hst with xng := g s.hst.xng } }
  | .twin => { s with fld := { s.fld with twin := g s.fld.twin } }
  | .field => { s with fld := { s.fld with xng := g s.fld.xng } }
def upL (l : LinkId) (g : Link → Link := id) (s : State := runS) : State := onL l (fun x => g { x with phase := 3, everUp := true, fresh := false }) s
def unitFor (l : LinkId) : FlowUnit := match l with
  | .field => ctrlUnit 5 0 []
  | .twin => { header := 0xA2000000, payload := [] }
  | .host => { header := 0x50000000, payload := [] }
def aUnit : FlowUnit := ctrlUnit 5 0x10000 []
def spareOn (s : State) : State := { s with fld := (s.fld.put F_XNG_CTRL_spare_en 1).put F_TWN_CTRL_spare_en 1, hst := s.hst.put H_XNG_CTRL_spare_en 1 }
def spareOff (s : State) : State := { s with fld := (s.fld.put F_XNG_CTRL_spare_en 0).put F_TWN_CTRL_spare_en 0, hst := s.hst.put H_XNG_CTRL_spare_en 0 }
def onH (g : HostDie → HostDie) : State := { runS with hst := g { runS.hst with xng := { runS.hst.xng with phase := 3 } } }
def apOn (h : HostDie) : HostDie := h.put (H_FUN_FN_CFG_ap_en 0) 1
def gotH (u : FlowUnit) (g : HostDie → HostDie := id) : State := onH (fun h => g { h with xng := { h.xng with inbox := [u] } })
def gotF (u : FlowUnit) (g : FieldDie → FieldDie := id) : State := onF (fun f => g { f with xng := { f.xng with phase := 3, inbox := [u] } })
def dataUnit (first last abort : Bool) (bs : List Byte) : FlowUnit := { header := 0x10000000 + (if first then 2 ^ 27 else 0) + (if last then 2 ^ 26 else 0) + (if abort then 2 ^ 25 else 0) + bs.length * 2 ^ 19, payload := bs }
def taken (l : Link) : Link := ((takeData l).map (fun x => x.2)).getD {}
def lf (en : Bool) (at_ : Nat) : LaunchFrame := { req := 3, launchEn := en, launch := at_, bytes := List.replicate 100 7 }
def ringOn (h : HostDie) : HostDie := { ((h.wrN (H_FUN_FN_QP 0) 0x00000004).wrN (H_FUN_Q_CTRL 2) 0xE0444001).wrN (H_FUN_Q_TXTAIL 2) 5 with bme := [0] }
def txf (q : Nat) : TxFrame := { qp := q, descs := 1, bytes := List.replicate 64 9, attrs := List.replicate 16 0 }
def held (fn : Nat) : State := { runS with hst := holdWrite fn 2 (regwSlots 0x100 15 15 [1, 2]) (apOn runS.hst) }
def regc5 : FlowUnit := { header := 0x40005000, payload := bytesLE 0x1234 }
def regw1 (n a : Nat) : FlowUnit := { header := 0x20300000 + n, payload := regwSlots a 15 15 ((List.range n).map (fun i => word i)) }
def regr1 : FlowUnit := regrUnit 3 9 15 0x1E0000
def arr (x : LaunchFrame) (g : FieldDie → FieldDie := id) : State := onF (fun f => at_ 5000 (g { f with arrivals := [x], launch := [lf true 4000, lf true 6000] }))
def evt5 : FlowUnit := { header := 0x58000000, payload := [1, 2, 3, 4, 5] }
def vfs (h : HostDie) : HostDie := { ((h.wrN (H_FUN_FN_QP 2) 0x00080004).wrN (H_FUN_Q_CTRL 9) 0xE0444001).wrN (H_FUN_Q_TXTAIL 9) 5 with bme := [0, 2], vfEnable := true, numVfs := 4, ready := [txf 9], msixEn := [2] }
def sel2 (w : Nat) : State := onH (fun h => (((ringOn h).wrN (H_FUN_Q_CTRL 2) w).wrN (H_FUN_QSEL 0) 2).wrN (H_FUN_Q_TXHEAD 2) 3)
def steer (live : Bool) (h : HostDie) : HostDie := (((h.wrN (H_FUN_FN_QP 0) 4).wrN (H_FUN_STEER 20) (if live then 0x80001234 else 0x1234)).wrN (H_FUN_STEER 21) 7).wrN (H_FUN_STEER 22) 0x00010001
def dsc (len : Nat) (a : Nat := 0x9000) (eop : Nat := 0) : List Byte := bytesLE a ++ bytesLE 0 ++ bytesLE (len + eop) ++ bytesLE 0 ++ bytesLE 0 ++ bytesLE 0 ++ bytesLE 0 ++ bytesLE 0xC0DE
def macRing (h : HostDie) : HostDie := { ((ringOn h).wrN (H_FUN_Q_RXTAIL 2) 5).wrN (H_FUN_FN_CFG 0) 0x00020010 with rxFrames := [(List.replicate 6 255 ++ List.replicate 60 1, [5, 6])] }
def bcOn (h : HostDie) : HostDie := (macRing h).put (H_FUN_FN_CFG_accept_bc 0) 1
def tw (role : Nat) (g : FieldDie → FieldDie := id) (us : List FlowUnit := []) : State :=
  onF (fun f => g ({ f with twin := { f.twin with phase := 3, fresh := false, everUp := true, inbox := us } }.put F_TWN_STAT_role role))
def helloOf (g : FieldDie → FieldDie) : FlowUnit := helloUnit (g (tw 1).fld)
def proof7 (f : FieldDie) : FieldDie := ((f.wrN F_CFG_PROOF 7).put F_CFG_PROOF_STAT_committed 1).put F_CFG_PROOF_STAT_stale 0
def desig (n : Nat) (f : FieldDie) : FieldDie := (f.put F_TWN_STAT_designation n).put F_TWN_CTRL_enable 1
def eat (s : State) : FieldDie := { s.fld with twin := { s.fld.twin with inbox := [] } }
def recUnits : List FlowUnit := [recUnit 0 0 ([9, 100, 0, 0x20000, 0, 0, 1000000] ++ List.replicate 7 0), recUnit 1 1 (List.replicate 14 0), recUnit 1 2 (List.replicate 14 0), recUnit 15 3 [9, 4]]
def dueB (c : Nat) (act : Bool) (f : FieldDie) : FieldDie := at_ 5000 { f with twn := { f.twn with cause := c, boundaryB := some 4000, toActive := act } }
def sl (g : FieldDie → FieldDie := id) : State := onF (fun f => g { f.put F_SPI_CTRL_role 1 with resetBy := 0, spi := { f.spi with staged := some 0x00000008 } })
def sl0 (g : FieldDie → FieldDie := id) : State := onF (fun f => g (f.put F_SPI_CTRL_role 1))
def own40 (f : FieldDie) : FieldDie := { ((((f.put (F_CFG_LOCK_state 1) 1).put (F_CFG_LOCK_owner 1) 0x40).put (F_CFG_LOCK_state 2) 1).put (F_CFG_LOCK_owner 2) 9) with staged := [(0x40, 0x10, 1), (4, 0x10, 1)], window := [(5, 5), (0x900, 6)] }
def cnted (f : FieldDie) : FieldDie := { ((f.count (cPort 3 0)).count (cXng 5)) with snapHost := { view := [(cPort 3 0, 9), (cXng 5, 8)], num := 32767 } }
def chk (m : Nat) (fo : Bool) : State := onF (fun f => { f with flt := { f.flt with stChecking := some (m, fo) } })
def armd (g : FieldDie → FieldDie := id) : State := onF (fun f => g ((f.put F_PTB_ARM_armed 1).put F_PTB_ARM_owner 5))

/-- `Shape`, as a check. -/
def shapeOk (s : State) : Bool :=
  s.fld.ports.length == 17 && s.fld.segs.length == 4 && s.fld.gates.length == 17 && s.fld.ptp.length == 2 &&
  s.fld.tim.shutters.length == 4 && s.fld.tim.captures.length == 4 && s.fld.tim.capLast.length == 4 && s.fld.tim.tsq.length == 17 &&
  s.fld.tim.pdSeq.length == 12 && s.fld.pin.differ.length == 24 && s.fld.pwr.lineLive.length == 2 && s.fld.pwr.lineAbove.length == 2 &&
  s.fld.pwr.lineOff.length == 2 && s.fld.pwr.lineClass.length == 2 && s.fld.pwr.sccp.length == 2 &&
  s.hst.mirrors.length == 13 && s.hst.enginesNamed && s.hst.readyFresh

theorem shapeOk_shape (s : State) (h : shapeOk s = true) : Shape s := by
  simp only [shapeOk, Bool.and_eq_true, beq_iff_eq] at h
  obtain ⟨⟨⟨⟨⟨⟨⟨⟨⟨⟨⟨⟨⟨⟨⟨⟨⟨h1, h2⟩, h3⟩, h4⟩, h5⟩, h6⟩, h7⟩, h8⟩, h9⟩, h10⟩, h11⟩, h12⟩, h13⟩, h14⟩, h15⟩, h16⟩, h17⟩, h18⟩ := h
  exact ⟨h1, h2, h3, h4, h5, h6, h7, h8, h9, h10, h11, h12, h13, h14, h15, h16, h17, h18⟩

/-- The check holds of each state of a list, so `Shape` does. -/
theorem shapes (l : List State) (h : l.all shapeOk = true) : ∀ s ∈ l, Shape s :=
  fun s hs => shapeOk_shape s (List.all_eq_true.mp h s hs)

/-- The proof is a function of the register words alone. -/
theorem proofValue_of_reg {f g : FieldDie} (h : g.reg = f.reg) : proofValue g = proofValue f := by
  have h1 : ∀ a, g.rdN a = f.rdN a := fun a => by simp only [FieldDie.rdN, FieldDie.rd, h]
  have h2 : sweepReg g = sweepReg f := funext fun c => by simp only [sweepReg, h1]
  have h3 : sweepEntry g = sweepEntry f := funext fun t => funext fun b => by simp only [sweepEntry, h1]
  simp only [proofValue, proofStream, h2, h3]

/-- No number is the only one. -/
theorem exists_other (n : Nat) : ∃ e, n ≠ e := ⟨n + 1, by omega⟩

/-! ### Well-formed commands

One ill-formed command for each check of WellFormed.lean, which the check refuses. -/

theorem test_wf_below : (Instr.lineTurnOn 2 47000 none).wf = false := by decide
theorem test_wf_atMost : (Instr.verifySlot 0 0x7801).wf = false := by decide
theorem test_wf_isU32 : (Instr.mgrReset (2 ^ 32)).wf = false := by decide
theorem test_wf_isRequester : (Instr.lockAcquire 0x42 0).wf = false := by decide
theorem test_wf_isAddr24 : (Instr.read 0x1000000 1 20).wf = false := by decide
theorem test_wf_isWordAddr : (Instr.registerWrite 0x40 0x3 15 0).wf = false := by decide
theorem test_wf_isTableAddr : (Instr.tableEntryWrite 0x40 0x400002 0).wf = false := by decide
theorem test_wf_isWindowAddr : (Instr.windowDoorbell 0xEFFFFC 0).wf = false := by decide
theorem test_wf_isByteEnable : (Instr.registerWrite 0x40 0x4 0 0).wf = false := by decide
theorem test_wf_isCount : (Instr.read 0 0 20).wf = false := by decide
theorem test_wf_isCfgPin : (Instr.pinCfgWrite 0x40 3 0).wf = false := by decide
theorem test_wf_isPinOutOff : (Instr.pinOutWrite 0x40 0x20 0).wf = false := by decide
theorem test_wf_isSteerOff : (Instr.steeringEntryWrite 0 0x2800 0).wf = false := by decide
theorem test_wf_isIrqRing : (Instr.interruptModeration 2049 0).wf = false := by decide
theorem test_wf_isWakeBit : (Instr.wakeCause 12).wf = false := by decide
theorem test_wf_isPowerState : (Instr.hostPowerStateChange 1).wf = false := by decide
theorem test_wf_isEndCond : (Instr.frameEnd 0 [] 1 0).wf = false := by decide
theorem test_wf_hasLen : (Instr.loadBuffer 0 [1, 2]).wf = false := by decide
theorem test_wf_areDescs : (Instr.rxDelivery [[0]]).wf = false := by decide
/-- The largest page of the key and the last slot are well-formed. -/
theorem test_wf_accepts : (Instr.programPage 5 1 119 0).wf = true := by decide

/-! ### Words and the queue -/

/-- No row of the table gives bits, so no word spells a command. -/
theorem test_no_word : decodeTableWord 32 0 = none := rfl

/-- The first command of the queue goes first and the rest waits. -/
theorem test_queue_order :
    step { pending := [.coldReset, .fabricPllLock] } = exec .coldReset { pending := [.fabricPllLock] } := rfl

/-- The machine after reset waits with its queue empty. -/
theorem test_idle_at_reset : step State.reset = .next State.reset := rfl

/-! ### Single steps -/

/-- The field die after a command. -/
def fieldAfter (c : Instr) (s : State) : FieldDie :=
  match exec c s with
  | .next t => t.fld
  | _ => {}

/-- What a register of the field die reads as after a command. -/
def regAfter (c : Instr) (s : State) (a : Nat) : Nat := (fieldAfter c s).rdN a

/-- The ASCII string "123456789". -/
def checkString : List Byte := [0x31, 0x32, 0x33, 0x34, 0x35, 0x36, 0x37, 0x38, 0x39]

/-- The check values of Table 17.1. -/
theorem test_check_crc32 : Nat.xor (chkRun 0 (chkInit 0) checkString) (chkXor 0) = 0xCBF43926 := by decide +kernel
theorem test_check_crc32c : Nat.xor (chkRun 1 (chkInit 1) checkString) (chkXor 1) = 0xE3069283 := by decide +kernel
theorem test_check_crc16 : Nat.xor (chkRun 2 (chkInit 2) checkString) (chkXor 2) = 0x29B1 := by decide +kernel
theorem test_check_crc64 : Nat.xor (chkRun 3 (chkInit 3) checkString) (chkXor 3) = 0x6C40DF5F0B497347 := by decide +kernel

/-- The check string split over two frames leaves the running value of the example of chapter 17. -/
theorem test_check_split :
    chkRun 1 (chkRun 1 (chkInit 1) (checkString.take 4)) (checkString.drop 4) = 0x1CF96D7C := by decide +kernel

/-- A slave of 16 dummy clocks whose measurements are those of the example of chapter 18. -/
def slave (dummy : Nat) : State :=
  onF (fun f => ((f.put F_SPI_CTRL_role 1).put F_SPI_SLAVE_dummy dummy).wrN F_PWR_MEAS 0x02671270)

/-- The READ of Table 18.5: its status byte and its four data bytes. -/
theorem test_serial_read_on_time :
    (fieldAfter (.read 0x10078 1 20) (slave 16)).out = [.spiReply [0, 0x02, 0x67, 0x12, 0x70]] := by decide +kernel

/-- With 14 dummy clocks the same READ returns late: the status byte says so and the data read 0xFF. -/
theorem test_serial_read_late :
    (fieldAfter (.read 0x10078 1 20) (slave 14)).out = [.spiReply [0x80, 0xFF, 0xFF, 0xFF, 0xFF]] := by decide +kernel

/-- The stop circuit of chapter 19 with `run` ticks of disagreement behind it. -/
def stopPair (run : Nat) : State :=
  onF (fun f => ((f.wrN (F_PIN_PAIR_CFG 0) 33).put (F_PIN_PAIR_STAT_state 0) 1).put (F_PIN_PAIR_STAT_run 0) run)

/-- The thirty-third tick of disagreement latches the discrepancy fault (the welded contact of chapter 19). -/
theorem test_pair_fault :
    (fieldAfter (.safelightTick 0x2) (stopPair 32)).get (F_PIN_PAIR_STAT_disc_fault 0) = 1 := by decide +kernel

/-- The thirty-second does not (R779). -/
theorem test_pair_no_fault :
    (fieldAfter (.safelightTick 0x2) (stopPair 31)).get (F_PIN_PAIR_STAT_disc_fault 0) = 0 := by decide +kernel

/-- A whole-word write takes the bits that have a field and no others; a write of fewer bytes takes none (R243). -/
theorem test_write_whole_word :
    regAfter (.registerWrite 0x40 F_SPI_CTRL 15 0xFFFFFF12) (slave 16) F_SPI_CTRL = 0x80000112 := by decide +kernel
theorem test_write_one_byte :
    regAfter (.registerWrite 0x40 F_SPI_CTRL 1 0xFFFFFF12) (slave 16) F_SPI_CTRL = 0x8000000A := by decide +kernel

/-- A lock stays with its owner when another requester releases it (R279). -/
theorem test_lock_of_another :
    (fieldAfter (.lockRelease 5 1) (lock 1 1 7)).get (F_CFG_LOCK_state 1) = 1 := by decide +kernel

/-! ### Premises of the statements over every command -/

theorem witness_empty_queue_idles : State.reset.pending = [] := rfl

/-- `Shape` holds of the state after reset, and a step from it answers a state. -/
theorem witness_lists_keep_their_length : Shape State.reset ∧ step State.reset = .next State.reset :=
  ⟨shapeOk_shape _ (by decide +kernel), rfl⟩

theorem witness_memories_stay_canonical : MemoriesCanonical State.reset ∧ step State.reset = .next State.reset :=
  ⟨by unfold MemoriesCanonical; decide +kernel, rfl⟩

/-- Each part of `CommandsReachTheirOwnAgentOnly` has a command that answers a state. -/
theorem witness_commands_reach_their_own_agent_only :
    (∃ t, exec .coldReset State.reset = .next t) ∧ reachesHost .coldReset = false ∧ writesKey .coldReset = false ∧
      writesFlash .coldReset = false ∧ (∃ t, exec .hotReset State.reset = .next t) ∧ reachesHost .hotReset = true :=
  ⟨⟨_, rfl⟩, rfl, rfl, rfl, ⟨_, rfl⟩, rfl⟩

/-! ### States that meet the premises of the statements -/

/-- The premises of `FieldResetsKeepOnlyTheSafelightDomain` are met. -/
theorem witness_field_resets_keep_only_the_safelight_domain :
    (((fun (s : State) (lowNs : Nat) => released s.fld = true ∧ 1000 ≤ lowNs) runS 1000) ∧
    ((fun (s : State) (lowNs : Nat) => released s.fld = true ∧ s.fld.pwr.vddSl = true ∧ s.fld.pwr.waking = false ∧
      2000 ≤ lowNs) runS 2000) ∧
    ((fun (s : State) (req : Nat) => s.fld.canWrite req = true) runS 1)) ∧
    (((fun (_s : State) (lowNs : Nat) => lowNs ≤ 100) runS 100) ∧
    ((fun (_s : State) (lowNs : Nat) => lowNs ≤ 500) runS 500) ∧
    ((fun (_s : State) (_req : Nat) (data : Word) => data ≠ 0x0000A55A) runS 1 0xA55A0000)) :=
  ⟨by decide +kernel, by decide +kernel⟩

/-- The premises of `ResetPulsesBetweenTheLengths` are met. -/
theorem witness_reset_pulses_between_the_lengths :
    ((fun (s : State) (lowNs : Nat) => released s.fld = true ∧ 100 < lowNs ∧ lowNs < 1000) runS 101) ∧
    ((fun (s : State) (lowNs : Nat) => released s.fld = true ∧ s.fld.pwr.vddSl = true ∧ s.fld.pwr.waking = false ∧
      500 < lowNs ∧ lowNs < 2000) runS 501) := by decide +kernel

/-- The premises of `SafelightLossAndColdReset` are met. -/
theorem witness_safelight_loss_and_cold_reset :
    ((fun (s : State) (mv : Nat) => s.fld.pwr.vddSl = true ∧ mv < 5000) runS 4999) ∧
    ((fun (_s : State) (mv : Nat) => 8000 ≤ mv) runS 8000) ∧
    ((fun (s : State) => s.fld.pwr.vddSl = false) noSl) := by decide +kernel

/-- The premises of `ResetReleaseAndStartUp` are met. -/
theorem witness_reset_release_and_start_up :
    ((fun (s : State) (afterNs : Nat) (_straps : Nat) => s.fld.phase = .inReset ∧ pdEn s.fld = true ∧ s.fld.pwr.vddSl
      = true ∧ s.fld.pwr.waking = false ∧ s.fld.resetBy < 16 ∧ 90000 ≤ afterNs ∧ afterNs ≤ 100000) (heldReset 1)
      90000 9) ∧
    ((fun (s : State) => s.fld.phase = .released) (inPhase .released)) ∧
    ((fun (s : State) => s.fld.phase = .locked ∧ s.fld.pwr.waking = false) (inPhase .locked)) := by decide +kernel

/-- The premises of `ConfigurationResolvedStartsTheFabric` are met. -/
theorem witness_configuration_resolved_starts_the_fabric :
    ((fun (s : State) => s.fld.phase = .resolving ∧ s.fld.pwr.waking = false) (inPhase .resolving)) ∧
    ((fun (s : State) (req : Nat) (data : Word) => s.fld.canWrite req = true ∧ hasBit data.toNat 0 = true ∧ s.fld.get
      F_GLB_CFG_SRC_state = 2) (onF (fun f => f.put F_GLB_CFG_SRC_state 2)) 1 1) := by decide +kernel

/-- The premises of `LinePowerFrontEnds` are met. -/
theorem witness_line_power_front_ends :
    (((fun (s : State) (line : Nat) (mv : Nat) (_r : Option Nat) => line < 2 ∧ lineAbove s.fld line = false ∧ 19500 <
      mv) runS 1 19501 none) ∧
    ((fun (s : State) (line : Nat) (mv : Nat) => line < 2 ∧ lineLive s.fld line = true ∧ lineAbove s.fld line = true
      ∧ 17500 < mv ∧ mv < 18000) (onPwr (fun p =>
      { p with lineLive := [true, false], lineAbove := [true, false], lineOff := [false, true] })) 0 17999) ∧
    ((fun (s : State) (line : Nat) (mv : Nat) => line < 2 ∧ lineLive s.fld line = true ∧ lineAbove s.fld line = true
      ∧ mv < 16000) (onPwr (fun p =>
      { p with lineLive := [true, false], lineAbove := [true, false], lineOff := [false, true] })) 0 15999) ∧
    ((fun (s : State) (mv : Nat) => s.fld.pwr.ov = false ∧ 64000 < mv) runS 64001)) ∧
    (((fun (s : State) (mv : Nat) => s.fld.pwr.ov = true ∧ mv < 60500) (onPwr (fun p => { p with ov := true })) 60499) ∧
    ((fun (s : State) (n : Nat) (state : Nat) => n < 2 ∧ state < 3 ∧ s.fld.pwr.lineClass.getD n 0 ≠ 0) (onPwr (fun p
      => { p with lineClass := [3, 0] })) 0 2) ∧
    ((fun (s : State) (n : Nat) => n < 2 ∧ s.fld.flag (F_PORT_PODL_sleep_ok n) = true ∧ lineAbove s.fld (1 - n) =
      true) (onF (fun f =>
      { f.put (F_PORT_PODL_sleep_ok 1) 1 with pwr := { f.pwr with lineLive := [true, true], lineAbove := [true, true], sccp := [2, 2] } }))
      1) ∧
    ((fun (s : State) (n : Nat) (bySoftware : Bool) => n < 2 ∧ (bySoftware = true → s.fld.phase = .running) ∧
      (bySoftware = false → lineAbove s.fld (1 - n) = false) ∧ sccpOf s.fld n = 3) (onPwr (fun p =>
      { p with sccp := [3, 0] })) 0 false)) ∧
    (∀ s ∈ [runS, (onPwr (fun p =>
      { p with lineLive := [true, false], lineAbove := [true, false], lineOff := [false, true] })), (onPwr (fun p =>
      { p with lineClass := [3, 0] })), (onF (fun f =>
      { f.put (F_PORT_PODL_sleep_ok 1) 1 with pwr := { f.pwr with lineLive := [true, true], lineAbove := [true, true], sccp := [2, 2] } })),
      (onPwr (fun p => { p with sccp := [3, 0] }))], Shape s) :=
  ⟨by decide +kernel, by decide +kernel, shapes _ (by decide +kernel)⟩

/-- The premises of `MaxFrameOutsideItsRangeIsRefused` are met. -/
theorem witness_max_frame_outside_its_range_is_refused :
    ((fun (s : State) (req : Nat) (n : Nat) (data : Word) => s.fld.canWrite req = true ∧ n < 16 ∧ (bitsOf data.toNat
      11 0 < 64 ∨ 2048 < bitsOf data.toNat 11 0)) runS 1 15 63) ∧
    ((fun (s : State) (req : Nat) (n : Nat) (data : Word) => s.fld.canWrite req = true ∧ n < 16 ∧ 64 ≤ bitsOf
      data.toNat 11 0 ∧ bitsOf data.toNat 11 0 ≤ 2048) runS 1 3 64) := by decide +kernel

/-- The premises of `PortModesAndTheirHold` are met. -/
theorem witness_port_modes_and_their_hold :
    ((fun (s : State) (req : Nat) (n : Nat) (data : Word) => s.fld.canWrite req = true ∧ n < 16 ∧ (modeOk n (bitsOf
      data.toNat 6 4) = false ∨ bitsOf data.toNat 3 2 = 3)) runS 1 0 0x0C) ∧
    ((fun (s : State) (_req : Nat) (n : Nat) (data : Word) => s.fld.isRunning = true ∧ n < 16 ∧ s.fld.engineRuns n =
      true ∧ modeOk n (bitsOf data.toNat 6 4) = true ∧ bitsOf data.toNat 3 2 ≠ 3 ∧ (s.fld.portX n).modeBad = false ∧
      s.fld.flag (F_PORT_MODE_enable n) = true ∧ hasBit data.toNat 0 = false) (port 3 3 (fun f => f.put
      (F_PORT_MODE_enable 3) 1)) 1 3 0x10) ∧
    ((fun (s : State) (_req : Nat) (n : Nat) (data : Word) => s.fld.isRunning = true ∧ n < 16 ∧ modeOk n (bitsOf
      data.toNat 6 4) = true ∧ bitsOf data.toNat 3 2 ≠ 3 ∧ (s.fld.portX n).modeBad = false ∧ s.fld.flag
      (F_PORT_MODE_enable n) = false ∧ hasBit data.toNat 0 = false) (port 3 0 (fun f => f.put (F_PORT_MODE_enable 3)
      0)) 1 3 0x10) ∧
    ((fun (s : State) (n : Nat) => s.fld.phase = .running ∧ n < 16 ∧ s.fld.engineRuns n = true ∧ portState s.fld n =
      1 ∧ 5 ∈ (s.fld.portX n).holds ∧ (∀ r ∈ (s.fld.portX n).holds, r = 5) ∧ (s.fld.portX n).modeBad = false) (portIn
      3 1 (fun x => { x with holds := [5] })) 3) := by decide +kernel

/-- The premises of `PortLinkComesAndGoes` are met. -/
theorem witness_port_link_comes_and_goes :
    (((fun (s : State) (n : Nat) (_master : Bool) => s.fld.phase = .running ∧ n < 12 ∧ s.fld.engineRuns n = true ∧
      (portState s.fld n = 2 ∨ portState s.fld n = 6) ∧ (s.fld.portX n).wakeAt ≤ s.fld.now) (port 3 2) 3 true) ∧
    ((fun (s : State) (n : Nat) (ns : Nat) => s.fld.phase = .running ∧ n < 12 ∧ s.fld.engineRuns n = true ∧ portState
      s.fld n = 3 ∧ lossTime s.fld n ≤ ns) (port 3 3) 3 200000) ∧
    ((fun (s : State) (n : Nat) (ns : Nat) => s.fld.phase = .running ∧ n < 12 ∧ s.fld.engineRuns n = true ∧ portState
      s.fld n = 3 ∧ ns < lossTime s.fld n) (port 3 3) 3 9999)) ∧
    (∀ s ∈ [(port 3 3)], Shape s) :=
  ⟨by decide +kernel, shapes _ (by decide +kernel)⟩

/-- The premises of `PortSleepEntry` are met. -/
theorem witness_port_sleep_entry :
    (((fun (s : State) (_req : Nat) (n : Nat) (data : Word) => s.fld.phase = .running ∧ n < 12 ∧ s.fld.engineRuns n =
      true ∧ portState s.fld n = 3 ∧ isT1 s.fld n = true ∧ (s.fld.portX n).windows = [] ∧ (s.fld.portX n).retry =
      false ∧ hasBit data.toNat 1 = true ∧ (hasBit data.toNat 3 = true → queuesBusy s.fld n = false)) (port 3 3) 1 3
      2) ∧
    ((fun (s : State) (n : Nat) => s.fld.phase = .running ∧ n < 12 ∧ s.fld.engineRuns n = true ∧ portState s.fld n =
      4 ∧ (egressEmpty s.fld n = true ∨ (s.fld.portX n).drained = true) ∧ s.fld.inRx n = none ∧ (s.fld.portX
      n).sleepSent = false ∧ (s.fld.portX n).quietFrom + s.fld.get (F_PORT_SLEEP_sleep_idle n) ≤ s.fld.now) (port 3 4
      (later 10000000)) 3) ∧
    ((fun (s : State) (n : Nat) => s.fld.phase = .running ∧ n < 12 ∧ s.fld.engineRuns n = true ∧ portState s.fld n =
      4 ∧ (s.fld.portX n).sleepSent = true ∧ s.fld.now ≤ (s.fld.portX n).sleepAt + 40 * usTicks) (portIn 3 4 (fun x
      => { x with sleepSent := true })) 3)) ∧
    (((fun (s : State) (n : Nat) => s.fld.phase = .running ∧ n < 12 ∧ s.fld.engineRuns n = true ∧ portState s.fld n =
      4 ∧ (s.fld.portX n).sleepSent = true ∧ (s.fld.portX n).sleepAt + 40 * usTicks ≤ s.fld.now) (port 3 4 (fun f =>
      later 5000 (f.setPortX 3 (fun x => { x with sleepSent := true })))) 3) ∧
    ((fun (s : State) (n : Nat) => s.fld.phase = .running ∧ n < 12 ∧ s.fld.engineRuns n = true ∧ portState s.fld n =
      3 ∧ (s.fld.portX n).retry = true ∧ (s.fld.portX n).since + msTicks ≤ s.fld.now ∧ sleepWanted s.fld n = true)
      (port 3 3 (fun f => later 200000 ((f.setPortX 3 (fun x => { x with retry := true })).put
      (F_PORT_SLEEP_sleep_req 3) 1))) 3) ∧
    ((fun (s : State) (n : Nat) (_tc10 : Bool) => s.fld.phase = .running ∧ n < 12 ∧ s.fld.engineRuns n = true ∧
      portState s.fld n = 3 ∧ isT1 s.fld n = true) (port 3 3) 3 true)) ∧
    (∀ s ∈ [(port 3 4 (later 10000000)), (portIn 3 4 (fun x => { x with sleepSent := true })), (port 3 4 (fun f =>
      later 5000 (f.setPortX 3 (fun x => { x with sleepSent := true }))))], Shape s) :=
  ⟨by decide +kernel, by decide +kernel, shapes _ (by decide +kernel)⟩

/-- The premises of `PortWakes` are met. -/
theorem witness_port_wakes :
    ((fun (s : State) (_req : Nat) (n : Nat) (data : Word) => s.fld.phase = .running ∧ n < 12 ∧ s.fld.engineRuns n =
      true ∧ portState s.fld n = 5 ∧ hasBit data.toNat 0 = true ∧ hasBit data.toNat 1 = true) (port 3 5) 1 3 3) ∧
    ((fun (s : State) (n : Nat) => s.fld.phase = .running ∧ n < 12 ∧ portState s.fld n = 6 ∧ (s.fld.portX
      n).partnerAwake = false ∧ (s.fld.portX n).wakeAt ≤ s.fld.now ∧ (∀ b ∈ (s.fld.portX n).burstAt, (s.fld.portX
      n).persist = none → b + 250 * usTicks ≤ s.fld.now) ∧ (∀ b ∈ (s.fld.portX n).burstAt, ∀ p ∈ (s.fld.portX
      n).persist, b + msTicks ≤ s.fld.now ∧ s.fld.now ≤ p + s.fld.get F_PWR_PWAKE_pwake_lim * msTicks) ∧
      ((s.fld.portX n).burstAt = none → (s.fld.portX n).persist = none ∨ s.fld.get F_PWR_PWAKE_pwake_lim ≠ 0)) (port
      3 6) 3) ∧
    ((fun (s : State) (n : Nat) => s.fld.phase = .running ∧ n < 12 ∧ portState s.fld n = 6) (port 11 6) 11) ∧
    ((fun (s : State) (n : Nat) (p : Nat) => s.fld.phase = .running ∧ n < 12 ∧ s.fld.engineRuns n = true ∧ portState
      s.fld n = 6 ∧ (s.fld.portX n).partnerAwake = false ∧ (s.fld.portX n).persist = some p ∧ p + s.fld.get
      F_PWR_PWAKE_pwake_lim * msTicks ≤ s.fld.now) (port 3 6 (fun f => later 400000 ((f.put F_PWR_PWAKE_pwake_lim
      1).setPortX 3 (fun x => { x with persist := some 200000 })))) 3 200000) := by decide +kernel

/-- The premises of `PortVerificationAndPause` are met. -/
theorem witness_port_verification_and_pause :
    (((fun (s : State) (n : Nat) => s.fld.phase = .running ∧ n < 12 ∧ s.fld.get (F_PORT_STAT_verify_state n) = 1 ∧
      portState s.fld n = 3 ∧ (s.fld.portX n).verify < 3 ∧ ((s.fld.portX n).verify = 0 ∨ (s.fld.portX n).verifyAt +
      verifyGap s.fld n ≤ s.fld.now)) (port 3 3 (fun f => f.put (F_PORT_STAT_verify_state 3) 1)) 3) ∧
    ((fun (s : State) (n : Nat) => s.fld.phase = .running ∧ n < 12 ∧ s.fld.get (F_PORT_STAT_verify_state n) = 1 ∧ 0 <
      (s.fld.portX n).verify) (port 3 3 (fun f => (f.setPortX 3 (fun x => { x with verify := 1 })).put
      (F_PORT_STAT_verify_state 3) 1)) 3) ∧
    ((fun (s : State) (n : Nat) => s.fld.phase = .running ∧ n < 12 ∧ s.fld.get (F_PORT_STAT_verify_state n) = 1 ∧ 3 ≤
      (s.fld.portX n).verify ∧ (s.fld.portX n).verifyAt + verifyGap s.fld n ≤ s.fld.now) (port 3 3 (fun f => later
      20000000 ((f.setPortX 3 (fun x => { x with verify := 3 })).put (F_PORT_STAT_verify_state 3) 1))) 3)) ∧
    (((fun (s : State) (n : Nat) (quanta : Nat) => s.fld.phase = .running ∧ n < 4 ∧ quanta < 65536 ∧ stateUp
      (portState s.fld n) = true ∧ s.fld.flag (F_PORT_PAUSE_pause_rx n) = true) (port 3 3 (fun f => (f.put
      (F_PORT_PAUSE_pause_rx 3) 1).put (F_PORT_PAUSE_pause_mask 3) 0x81)) 3 0) ∧
    ((fun (s : State) (n : Nat) (q : Nat) => s.fld.phase = .running ∧ n < 4 ∧ q < 8 ∧ (pauseStop s.fld n q).until_ ≤
      s.fld.now10) (port 3 3) 3 7) ∧
    ((fun (s : State) (n : Nat) (q : Nat) => s.fld.phase = .running ∧ n < 4 ∧ q < 8 ∧ (pauseStop s.fld n q).until_ ≠
      0 ∧ (pauseStop s.fld n q).since + min 1000 (max 1 (s.fld.get (F_PORT_PAUSE_pause_cap n))) * 10000 ≤ s.fld.now10
      ∧ (pauseStop s.fld n q).since + min 1000 (max 1 (s.fld.get (F_PORT_PAUSE_pause_cap n))) * 10000 ≤ (pauseStop
      s.fld n q).until_) paused 3 0)) ∧
    (∀ s ∈ [(port 3 3 (fun f => (f.put (F_PORT_PAUSE_pause_rx 3) 1).put (F_PORT_PAUSE_pause_mask 3) 0x81)), (port 3
      3), paused], Shape s) :=
  ⟨by decide +kernel, by decide +kernel, shapes _ (by decide +kernel)⟩

/-- The premises of `LockReleaseByItsOwnerAlone` are met. -/
theorem witness_lock_release_by_its_owner_alone :
    ((fun (s : State) (req : Nat) (n : Nat) => s.fld.canWrite req = true ∧ n < 32 ∧ lockState s.fld n = 1 ∧ s.fld.get
      (F_CFG_LOCK_owner n) = req) (lock 3 1 7) 7 3) ∧
    ((fun (s : State) (req : Nat) (n : Nat) => s.fld.canWrite req = true ∧ n < 32 ∧ req < 256 ∧ (lockState s.fld n ≠
      1 ∨ s.fld.get (F_CFG_LOCK_owner n) ≠ req)) (lock 3 1 7) 6 3) := by decide +kernel

/-- The premises of `LockGrantAndExpiry` are met. -/
theorem witness_lock_grant_and_expiry :
    ((fun (s : State) (req : Nat) (n : Nat) => s.fld.phase = .running ∧ (n < 5 ∨ (16 ≤ n ∧ n < 32)) ∧ req < 256 ∧
      lockState s.fld n ≠ 1) runS 7 4) ∧
    ((fun (s : State) (_req : Nat) (n : Nat) => s.fld.phase = .running ∧ n < 32 ∧ lockState s.fld n = 1) (lock 3 1 7)
      7 3) ∧
    ((fun (s : State) (n : Nat) => s.fld.phase = .running ∧ n < 32 ∧ lockState s.fld n = 1 ∧ s.fld.get
      F_CFG_LOCK_LIFE_life_ms ≠ 0 ∧ Store.get (fun _ => 0) s.fld.cfg.grantTick n + s.fld.get F_CFG_LOCK_LIFE_life_ms
      * 125000 ≤ s.fld.now) (lock 3 1 7 (fun f => later 30000000 (f.put F_CFG_LOCK_LIFE_life_ms 100))) 3) := by decide +kernel

/-- The premises of `RegisterWritesByAccessCode` are met. -/
theorem witness_register_writes_by_access_code :
    ((fun (s : State) (req : Nat) (_data : Word) => s.fld.phase = .running ∧ s.fld.resetBy = 0 ∧ req ≠ 0x40) runS 1
      0x12345678) ∧
    ((fun (s : State) (req : Nat) (addr : Nat) (be : Nat) (_data : Word) => s.fld.phase = .running ∧ s.fld.resetBy =
      0 ∧ req < 256 ∧ req ≠ 0x40 ∧ addr < 0x1000000 ∧ be ≠ 15) runS 1 0x10004 14 5) ∧
    ((fun (s : State) (_req : Nat) (addr : Nat) (_data : Word) => s.fld.phase = .running ∧ isSqReg addr = true ∧ addr
      ≠ F_FLT_EVT ∧ addr ∉ coverRegs ∧ (addr < 0x070000 ∨ 0x080000 ≤ addr)) (onF (fun f => f.wrN F_PWR_EVT
      0x00050003)) 1 F_PWR_EVT 0x00050001) := by decide +kernel

/-- The premises of `VotersRepairOneCopy` are met. -/
theorem witness_voters_repair_one_copy :
    ((fun (s : State) => s.fld.phase = .running ∧ s.fld.cfg.tmr = []) runS) ∧
    ((fun (s : State) (i : Nat) (c : Nat) (v : Nat) => s.fld.phase = .running ∧ i < tmrCount ∧ c < 3 ∧ s.fld.cfg.tmr
      = [(i, c, v)] ∧ v ≠ Nat.land (s.fld.rdN (tmrReg i)) (tmrMask (tmrReg i))) (onCfg (fun c =>
      { c with tmr := [(42, 2, 0)] })) 42 2 0) ∧
    ((fun (s : State) (v : Nat) (w : Nat) => s.fld.phase = .running ∧ s.fld.cfg.tmr = [(0, 0, v), (0, 1, w)] ∧ v ≠
      s.fld.rdN F_CFG_PROOF ∧ w ≠ s.fld.rdN F_CFG_PROOF ∧ v ≠ w ∧ s.fld.sq F_FLT_EVT 2 = false) (onCfg (fun c =>
      { c with tmr := [(0, 0, 1), (0, 1, 2)] })) 1 2) := by decide +kernel

/-- The premises of `ProofSweepsAndCommits` are met. -/
theorem witness_proof_sweeps_and_commits :
    (((fun (s : State) => s.fld.phase = .running ∧ s.fld.cfg.sweeping = false) runS) ∧
    ((fun (s : State) (req : Nat) => s.fld.canWrite req = true ∧ ownsLock s.fld req 0 = true ∧ s.fld.flag
      F_CFG_PROOF_STAT_busy = false) (lock 0 1 7) 7) ∧
    ((fun (s : State) => s.fld.phase = .running ∧ s.fld.cfg.sweeping = true ∧ s.fld.cfg.commit = none ∧ s.fld.flag
      F_CFG_PROOF_STAT_committed = false) (sweep id)) ∧
    ((fun (s : State) (op : Nat) => s.fld.phase = .running ∧ s.fld.cfg.sweeping = true ∧ s.fld.cfg.commitSweep = true
      ∧ s.fld.cfg.commit = some op ∧ s.fld.cfg.covered = false ∧ s.fld.flag F_CFG_PROOF_STAT_committed = false ∧ (op
      = 2 → proofValue s.fld = s.fld.cfg.expect)) (sweep (fun c => { c with commitSweep := true, commit := some 1 }))
      1)) ∧
    (∃ e, (fun (s : State) => s.fld.phase = .running ∧ s.fld.cfg.sweeping = true ∧ s.fld.cfg.commitSweep = true ∧
      s.fld.cfg.commit = some 2 ∧ s.fld.cfg.covered = false ∧ proofValue s.fld ≠ s.fld.cfg.expect ∧ s.fld.flag
      F_CFG_PROOF_STAT_committed = false) (sweep (fun c =>
      { c with commitSweep := true, commit := some 2, expect := e }))) :=
  ⟨by decide +kernel,
    (exists_other (proofValue runS.fld)).imp fun _ he => ⟨rfl, rfl, rfl, rfl, rfl,
      fun h => he ((proofValue_of_reg rfl).symm.trans h),
      (by decide +kernel : (sweep id).fld.flag F_CFG_PROOF_STAT_committed = false)⟩⟩

/-- The premises of `TableEntriesByWord` are met. -/
theorem witness_table_entries_by_word :
    ((fun (s : State) (req : Nat) (addr : Nat) (_data : Word) (w : TblRow) => s.fld.canWrite req = true ∧ tblRow addr
      = some w ∧ w.kind ≠ .hw ∧ w.words ≠ 1 ∧ addr ≠ w.entryBase addr ∧ addr ∉ coverRegs ∧ addr ≠ F_CFG_PROOF_STAT ∧
      hasBit (s.fld.rdN (w.entryBase addr)) 31 = false) runS 1 0x440004 0x12345678 (⟨0x440000, 32, 2048, 1, 0x40000,
      .swept⟩)) ∧
    ((fun (s : State) (req : Nat) (addr : Nat) (_data : Word) (w : TblRow) => s.fld.canWrite req = true ∧ tblRow addr
      = some w ∧ w.kind ≠ .hw ∧ w.words ≠ 1 ∧ addr ≠ w.entryBase addr ∧ hasBit (s.fld.rdN (w.entryBase addr)) 31 =
      true) (onF (fun f => f.wrN 0x440000 0x80000000)) 1 0x44007C 5 (⟨0x440000, 32, 2048, 1, 0x40000, .swept⟩)) ∧
    ((fun (s : State) (req : Nat) (addr : Nat) (_data : Word) (w : TblRow) => s.fld.canWrite req = true ∧ tblRow addr
      = some w ∧ w.kind = .hw) runS 1 0x520000 5 (⟨0x520000, 1, 4096, 1, 0x4000, .hw⟩)) := by decide +kernel

/-- The premises of `FlashOperations` are met. -/
theorem witness_flash_operations :
    ((fun (s : State) (_a : Nat) => s.fld.phase = .running ∧ s.fld.spi.flash = 1)
      ({ onSpi (fun x => { x with flash := 1 }) with flash := [(5, 1), (0x8005, 2)] }) 5) ∧
    ((fun (s : State) (_a : Nat) => s.fld.phase = .running ∧ s.fld.spi.flash = 2) (onSpi (fun x =>
      { x with flash := 2, image := [1, 2, 3] })) 1) ∧
    ((fun (s : State) => s.fld.phase = .running ∧ (s.fld.spi.flash = 1 ∨ s.fld.spi.flash = 2) ∧ s.fld.spi.flashSince
      + (if s.fld.spi.flash = 2 then 10 else if s.fld.flag F_SPI_MFLASH2_erase_64k then 3000 else 500) * msTicks ≤
      s.fld.now) (onF (fun f => later 9000000 { f with spi := { f.spi with flash := 2, image := [1, 2, 3] } }))) := by decide +kernel

/-- The premises of `KeyRequests` are met. -/
theorem witness_key_requests :
    (((fun (s : State) (req : Nat) => s.fld.canWrite req = true ∧ ownsLock s.fld req 1 = true ∧ s.fld.flag
      F_KEY_STAT_busy = false ∧ hasBit (s.fld.rdN F_GLB_STRAP) 1 = false) (keyState {} (fun f => lockF 1 7 f)) 7) ∧
    ((fun (s : State) (req : Nat) => s.fld.canWrite req = true ∧ ownsLock s.fld req 1 = true ∧ s.fld.flag
      F_KEY_STAT_busy = false ∧ hasBit (s.fld.rdN F_GLB_STRAP) 1 = false ∧ s.fld.flag F_CFG_PROOF_STAT_committed =
      true ∧ s.fld.flag F_CFG_PROOF_STAT_stale = false ∧ s.fld.flag F_KEY_STAT_image_big = false) (keyState {} (fun f
      => proven (lockF 1 7 f))) 7) ∧
    ((fun (s : State) (req : Nat) => s.fld.canWrite req = true ∧ ownsLock s.fld req 1 = true ∧ s.fld.flag
      F_KEY_STAT_busy = true) (keyState { op := 2, step := 4 } (fun f => (lockF 1 7 f).put F_KEY_STAT_busy 1)) 7) ∧
    ((fun (s : State) (req : Nat) => s.fld.canWrite req = true ∧ ownsLock s.fld req 1 = true ∧ s.fld.flag
      F_KEY_STAT_busy = true ∧ keyCommitting s.fld = true ∧ s.fld.key.step ≤ 4) (keyState { op := 2, step := 4 } (fun
      f => (lockF 1 7 f).put F_KEY_STAT_busy 1)) 7)) ∧
    (((fun (s : State) (answers : Nat) => s.fld.phase = .running ∧ s.fld.get F_KEY_CFG_poll ≠ 0 ∧ s.fld.engineRuns 16
      = true ∧ s.fld.flag F_KEY_STAT_busy = false ∧ s.fld.key.failed = false ∧ hasBit (s.fld.rdN F_GLB_STRAP) 1 =
      false ∧ s.fld.key.pollAt + s.fld.get F_KEY_CFG_poll * 1000 * msTicks ≤ s.fld.now ∧ s.fld.flag
      F_KEY_STAT_present = true ∧ (answers = 0 ∨ s.key.present = false ∨ (answers = 1 ∧ s.key.uid ≠ s.fld.rdN
      F_KEY_UID_LO + 2 ^ 32 * s.fld.rdN F_KEY_UID_HI))) (keyState {} (fun f => later 900000000 (f.put F_KEY_CFG_poll
      5))) 0) ∧
    ((fun (s : State) (answers : Nat) => s.fld.phase = .running ∧ s.fld.get F_KEY_CFG_poll ≠ 0 ∧ s.fld.engineRuns 16
      = true ∧ s.fld.flag F_KEY_STAT_busy = false ∧ s.fld.key.failed = false ∧ hasBit (s.fld.rdN F_GLB_STRAP) 1 =
      false ∧ s.fld.key.pollAt + s.fld.get F_KEY_CFG_poll * 1000 * msTicks ≤ s.fld.now ∧ s.fld.flag
      F_KEY_STAT_present = false ∧ answers = 1 ∧ s.key.present = true ∧ s.key.uid < 2 ^ 64) (keyState {} (fun f =>
      later 900000000 ((f.put F_KEY_CFG_poll 5).put F_KEY_STAT_present 0))) 1) ∧
    ((fun (s : State) (answers : Nat) => s.fld.phase = .running ∧ s.fld.get F_KEY_CFG_poll ≠ 0 ∧ s.fld.engineRuns 16
      = true ∧ s.fld.flag F_KEY_STAT_busy = false ∧ s.fld.key.failed = false ∧ hasBit (s.fld.rdN F_GLB_STRAP) 1 =
      false ∧ s.fld.key.pollAt + s.fld.get F_KEY_CFG_poll * 1000 * msTicks ≤ s.fld.now ∧ 2 ≤ answers ∧ s.key.present
      = true) (keyState {} (fun f => later 900000000 (f.put F_KEY_CFG_poll 5))) 2)) :=
  ⟨by decide +kernel, by decide +kernel⟩

/-- The premises of `KeyAnswers` are met. -/
theorem witness_key_answers :
    ((fun (s : State) (args : List Nat) (data : List Byte) (d : List Byte) => s.fld.phase = .running ∧
      s.fld.engineRuns 16 = true ∧ keyCommitting s.fld = true ∧ s.fld.key.step = 4 ∧ s.fld.key.abort = false ∧
      s.fld.key.cmd = some (0xC6, args, data) ∧ s.fld.key.reply = some (0, d) ∧ wordAt d 0 = crc32c s.fld.cfg.image ∧
      s.fld.now ≤ s.fld.key.sentAt + 80 * msTicks) (keyState
      { op := 2, step := 4, cmd := some (0xC6, [0, 0], []), reply := some (0, [0, 0, 0, 0]) } id) ([0, 0]) ([]) ([0,
      0, 0, 0])) ∧
    ((fun (s : State) (args : List Nat) (data : List Byte) => s.fld.phase = .running ∧ s.fld.engineRuns 16 = true ∧
      s.key.present = true ∧ s.fld.key.op = 1 ∧ s.fld.key.step = 1 ∧ s.fld.key.part = 4 ∧ s.fld.key.abort = false ∧
      hasBit s.fld.straps 1 = false ∧ s.fld.key.uid = s.key.uid ∧ s.fld.now ≤ s.fld.key.sentAt + 20 * msTicks ∧
      s.fld.key.page = 0 ∧ s.fld.key.cmd = some (0x33, args, data)) (keyState
      { op := 1, step := 1, part := 4, uid := 0x0102030405060708, cmd := some (0x33, [], []), reply := some (0, List.replicate 32 0) })
      ([]) ([])) ∧
    ((fun (s : State) (c : Nat) (args : List Nat) (data : List Byte) => s.fld.phase = .running ∧ s.fld.engineRuns 16
      = true ∧ s.fld.key.op ≠ 0 ∧ s.fld.key.abort = false ∧ s.fld.key.cmd = some (c, args, data) ∧ s.fld.key.sentAt +
      (if c = 0xC6 then 80 else 20) * msTicks ≤ s.fld.now ∧ s.fld.key.tries < s.fld.get F_KEY_CFG_retries) (keyState
      { op := 1, step := 1, cmd := some (0x33, [4], []) } (later 3000000)) 51 ([4]) ([])) ∧
    ((fun (s : State) (c : Nat) (args : List Nat) (data : List Byte) => s.fld.phase = .running ∧ s.fld.engineRuns 16
      = true ∧ s.fld.key.op ≠ 0 ∧ s.fld.key.abort = false ∧ s.fld.key.cmd = some (c, args, data) ∧ data.length ≤ 32 ∧
      s.fld.key.sentAt + (if c = 0xC6 then 80 else 20) * msTicks ≤ s.fld.now ∧ s.fld.get F_KEY_CFG_retries ≤
      s.fld.key.tries ∧ s.fld.key.step < 16 ∧ s.fld.key.page < 256) (keyState
      { op := 1, step := 1, part := 0, cmd := some (1, [], []), tries := 100 } (later 3000000)) 1 ([]) ([])) :=
  ⟨by decide +kernel, by decide +kernel, by decide +kernel, by decide +kernel⟩

/-- The premises of `KeyChipCommands` are met. -/
theorem witness_key_chip_commands :
    (((fun (s : State) (_others : Nat) => s.key.present = true ∧ hasBit s.fld.straps 1 = false ∧ s.fld.phase =
      .running ∧ s.fld.key.op ≠ 0 ∧ s.fld.key.cmd = some (0x01, [], [])) (keyState
      { op := 1, cmd := some (1, [], []) }) 0) ∧
    ((fun (s : State) (_others : Nat) => s.key.present = true ∧ hasBit s.fld.straps 1 = false ∧ s.fld.phase =
      .resolving ∧ s.fld.pwr.waking = false) ({ inPhase .resolving with key := { present := true, uid := 5 } }) 1) ∧
    ((fun (s : State) (_txn : Nat) (_slot : Nat) (_page : Nat) (_crc : Nat) (_off : Nat) (_size : Nat) (_ptr : Nat)
      (_data : List Byte) => keyTakes s.fld s.key = false) (keyState {}) 5 1 2 3 0 0 1 ([])) ∧
    ((fun (s : State) (off : Nat) (data : List Byte) => keyTakes s.fld s.key = true ∧ off + 32 ≤ 256 ∧ data.length =
      32) (keyState { op := 2, uid := 0x0102030405060708, cmd := some (0xC2, [224], List.replicate 32 7) }) 224
      (List.replicate 32 7))) ∧
    (((fun (s : State) (txn : Nat) (slot : Nat) (page : Nat) => keyTakes s.fld s.key = true ∧ txn < 2 ^ 32 ∧
      s.key.repeated txn 0xC4 = false ∧ slot < 2 ∧ page < 120) (keyState
      { op := 2, uid := 0x0102030405060708, cmd := some (0xC4, [5, 1, 119, 0], []) }) 5 1 119) ∧
    ((fun (s : State) (txn : Nat) (_slot : Nat) (_page : Nat) (_crc : Nat) => keyTakes s.fld s.key = true ∧
      s.key.repeated txn 0xC4 = true) (keyState
      { op := 2, uid := 0x0102030405060708, cmd := some (0xC4, [5, 1, 2, 3], []) } id
      { present := true, uid := 0x0102030405060708, mem := [(0x140, 5), (0x141, 0), (0x142, 0), (0x143, 0), (0x144, 0xC4)] })
      5 1 2 3) ∧
    ((fun (s : State) (slot : Nat) (size : Nat) => keyTakes s.fld s.key = true ∧ slot < 2 ∧ size ≤ 30720 ∧
      s.fld.key.cmd = some (0xC6, [slot, size], [])) (keyState
      { op := 2, uid := 0x0102030405060708, cmd := some (0xC6, [1, 100], []) }) 1 100) ∧
    ((fun (s : State) (txn : Nat) (ptr : Nat) (data : List Byte) => keyTakes s.fld s.key = true ∧ ptr < 2 ∧
      data.length = 32 ∧ txn < 2 ^ 32 ∧ s.key.repeated txn 0xC8 = false) (keyState
      { op := 2, uid := 0x0102030405060708, cmd := some (0xC8, [5, 1], List.replicate 32 7) }) 5 1 (List.replicate 32
      7))) ∧
    (∃ e, (fun (s : State) (txn : Nat) (slot : Nat) (page : Nat) (crc : Nat) => keyTakes s.fld s.key = true ∧ txn < 2
      ^ 32 ∧ s.key.repeated txn 0xC4 = false ∧ slot < 2 ∧ page < 120 ∧ crc ≠ crc32c s.key.page) (keyState
      { op := 2, uid := 0x0102030405060708, cmd := some (0xC4, [5, 1, 119, 0], []) }) 5 1 119 e) :=
  ⟨by decide +kernel, by decide +kernel,
    (exists_other (crc32c (keyState {}).key.page)).imp fun _ he => ⟨by decide +kernel, by decide +kernel, by decide +kernel,
      by decide +kernel, by decide +kernel, he.symm⟩⟩

/-- The premises of `FrameReception` are met. -/
theorem witness_frame_reception :
    (((fun (s : State) (n : Nat) (_phase : Nat) => s.fld.phase = .running ∧ n < 16 ∧ stateUp (portState s.fld n) =
      true ∧ (s.fld.inRx n = none ∨ (n < 12 ∧ s.fld.buf.frames.any (fun fr => fr.port == n && fr.held) = false)) ∧
      powerState s.fld ≠ 2 ∧ ¬ (portState s.fld n = 4 ∧ (s.fld.portX n).sleepSent = true) ∧ (12 ≤ n → (s.fld.segX (n
      - 12)).silentWait = false)) (port 3 3) 3 5) ∧
    ((fun (s : State) (n : Nat) (_phase : Nat) => s.fld.phase = .running ∧ n < 16 ∧ stateUp (portState s.fld n) =
      true ∧ s.fld.inRx n = none ∧ (12 ≤ n → (s.fld.segX (n - 12)).silentWait = false) ∧ powerState s.fld = 2) (port
      3 3 (fun f => f.put F_PWR_STATE_state 2)) 3 5) ∧
    ((fun (s : State) (n : Nat) (_phase : Nat) => s.fld.phase = .running ∧ n < 16 ∧ stateUp (portState s.fld n) =
      true ∧ s.fld.inRx n = none ∧ (12 ≤ n → (s.fld.segX (n - 12)).silentWait = false) ∧ powerState s.fld ≠ 2 ∧
      portState s.fld n = 4 ∧ (s.fld.portX n).sleepSent = true) (portIn 3 4 (fun x => { x with sleepSent := true }))
      3 5)) ∧
    (((fun (s : State) (n : Nat) (cond : Nat) (_frags : Nat) (bytes : List Byte) (fr : Frame) => s.fld.phase =
      .running ∧ n < 16 ∧ s.fld.inRx n = some fr ∧ portState s.fld n ≠ 5 ∧ (cond = 0x20 → 12 ≤ n) ∧ macVerdict
      (fr.bytes ++ bytes) fr.maxFrame cond ≠ 0 ∧ macVerdict (fr.bytes ++ bytes) fr.maxFrame cond ≠ 7) (holding 3
      [{ id := 4, port := 3 }]) 3 4 0 frameBytes ({ id := 4, port := 3 })) ∧
    ((fun (s : State) (n : Nat) (_frags : Nat) (_bytes : List Byte) (fr : Frame) => s.fld.phase = .running ∧ n < 12 ∧
      s.fld.inRx n = some fr) (holding 3 [{ id := 4, port := 3 }]) 3 0 frameBytes ({ id := 4, port := 3 })) ∧
    ((fun (s : State) (n : Nat) (cond : Nat) (_frags : Nat) (bytes : List Byte) (fr : Frame) => s.fld.phase =
      .running ∧ n < 16 ∧ s.fld.inRx n = some fr ∧ portState s.fld n ≠ 5 ∧ (cond = 0x20 → 12 ≤ n) ∧ macVerdict
      (fr.bytes ++ bytes) fr.maxFrame cond = 0) (holding 3 [{ id := 4, port := 3 }]) 3 0 0 frameBytes
      ({ id := 4, port := 3 }))) :=
  ⟨by decide +kernel, by decide +kernel⟩

/-- The premises of `ParserPasses` are met. -/
theorem witness_parser_passes :
    ((fun (s : State) (n : Nat) (_bytes : List Byte) (fr : Frame) => s.fld.phase = .running ∧ n < 17 ∧ s.fld.inRx n =
      some fr ∧ s.fld.get (F_FWD_CT_classes n) = 0) (holding 3 [{ id := 4, port := 3 }]) 3 ([1, 2, 3])
      ({ id := 4, port := 3 })) ∧
    ((fun (s : State) (n : Nat) (fr : Frame) => s.fld.phase = .running ∧ n < 17 ∧ napping s.fld = false ∧ awaitsShort
      s.fld n = some fr) (holding 3 [{ id := 4, port := 3, bytes := frameBytes }] (fun f => f.put (F_FWD_CT_classes
      3) 0xFF)) 3 ({ id := 4, port := 3, bytes := frameBytes })) ∧
    ((fun (s : State) (fr : Frame) => s.fld.phase = .running ∧ s.fld.inRx 16 = some fr) (holding 16
      [{ id := 4, port := 16, bytes := frameBytes }]) ({ id := 4, port := 16, bytes := frameBytes })) ∧
    ((fun (s : State) (n : Nat) (fr : Frame) => s.fld.phase = .running ∧ n < 17 ∧ (n = 16 → s.fld.inRx 16 = none) ∧
      napping s.fld = false ∧ awaitsFull s.fld n = some fr ∧ isMacControl fr.bytes = false) (holding 3
      [{ id := 4, port := 3, bytes := frameBytes, rx := false, accepted := true }]) 3
      ({ id := 4, port := 3, bytes := frameBytes, rx := false, accepted := true })) ∧
    ((fun (s : State) (req : Nat) (data : Word) => s.fld.canWrite req = true ∧ hasBit data.toNat 31 = true) runS 1
      0x80000005) := by decide +kernel

/-- The premises of `FilteringDatabase` are met. -/
theorem witness_filtering_database :
    ((fun (s : State) (n : Nat) (i : Nat) (fr : Frame) (r : ClsResult) => s.fld.phase = .running ∧ n < 17 ∧
      s.fld.buf.frames.find? (fun x => x.port == n && x.learn && x.accepted) = some fr ∧ fr.final = some r ∧ r.vid <
      4096 ∧ s.fld.standbyPath = false ∧ fdbFind s.fld (frameSa fr.bytes) r.vid = none ∧ (s.fld.fwd.meetAt =
      s.fld.now → s.fld.fwd.agedOut = []) ∧ (fdbCands (frameSa fr.bytes) r.vid).find? (fun j => !(s.fld.fdb j).valid)
      = some i) (holding 3 [learner]) 3 (((fdbCands (frameSa frameBytes) 5).find? (fun _ => true)).get!) learner
      ({ vid := 5 })) ∧
    ((fun (s : State) => s.fld.phase = .running ∧ s.fld.get F_FWD_AGE_age_s ≠ 0 ∧ s.fld.fwd.ageTick + s.fld.get
      F_FWD_AGE_age_s * 15625000 ≤ s.fld.now) (onF (fun f => later 50000000 (fdbEntry 4 (0x80000305, 1, 2, 3)
      (fdbEntry 9 (0x80000705, 1, 2, 3) (f.put F_FWD_AGE_age_s 1)))))) ∧
    ((fun (s : State) (req : Nat) (_data : Word) => s.fld.canWrite req = true) (onF (later 500)) 1 5) ∧
    ((fun (s : State) (req : Nat) (data : Word) => s.fld.canWrite req = true ∧ hasBit data.toNat 31 = true ∧
      s.fld.get F_FWD_FLUSH_busy = 0) (onF (fun f => fdbEntry 4 (0x80000305, 1, 2, 3) (fdbEntry 9 (0x80000705, 1, 2,
      3) f))) 1 0x80000000) ∧
    ((fun (s : State) => s.fld.phase = .running ∧ s.fld.flag F_FWD_FLUSH_busy = true) (onF (fun f => f.put
      F_FWD_FLUSH_busy 1))) := by decide +kernel

/-- The premises of `AggregationGroups` are met. -/
theorem witness_aggregation_groups :
    ((fun (s : State) (req : Nat) (g : Nat) (data : Word) => s.fld.canWrite req = true ∧ g < 4 ∧ ((aggPorts
      ((List.range 4).map (fun k => if k = g then data.toNat else s.fld.rdN (F_FWD_AGG k)))).any (fun p => decide (15
      < p)) = true ∨ ¬ (aggPorts ((List.range 4).map (fun k => if k = g then data.toNat else s.fld.rdN (F_FWD_AGG
      k)))).Nodup)) runS 1 0 0x10000010) ∧
    ((fun (s : State) (req : Nat) (g : Nat) (data : Word) => s.fld.canWrite req = true ∧ g < 4 ∧ (aggPorts
      ((List.range 4).map (fun k => if k = g then data.toNat else s.fld.rdN (F_FWD_AGG k)))).any (fun p => decide (15
      < p)) = false ∧ (aggPorts ((List.range 4).map (fun k => if k = g then data.toNat else s.fld.rdN (F_FWD_AGG
      k)))).Nodup ∧ (bitsOf data.toNat 31 28 ≠ s.fld.get (F_FWD_AGG_slot_en g) ∨ bitsOf data.toNat 19 0 ≠ s.fld.get
      (F_FWD_AGG_slots g))) runS 1 3 0x30000041) ∧
    ((fun (s : State) (g : Nat) (slot : Nat) => s.fld.phase = .running ∧ g < 4 ∧ slot < 4 ∧ slotActive s.fld g slot =
      true) (holding 3 [] (fun f => later 300000000 (f.wrN (F_FWD_AGG 1) 0x20000060))) 1 1) := by decide +kernel

/-- The premises of `BufferRegisters` are met. -/
theorem witness_buffer_registers :
    (((fun (s : State) (req : Nat) (data : Word) => s.fld.canWrite req = true ∧ hasBit data.toNat 31 = true ∧
      s.fld.get F_BUF_FLUSH_busy = 0) (onF (fun f =>
      { f with buf := { f.buf with queued := [{ port := 3, queue := 1 }, { port := 3, queue := 2 }] } })) 1
      0x80030002) ∧
    ((fun (s : State) => s.fld.phase = .running ∧ s.fld.flag F_BUF_FLUSH_busy = true) (onF (fun f => f.put
      F_BUF_FLUSH_busy 1))) ∧
    ((fun (s : State) (req : Nat) (n : Nat) (data : Word) => s.fld.canWrite req = true ∧ n < 17 ∧ (4096 < bitsOf
      data.toNat 12 0 ∨ 16384 < ((List.range 17).map (fun k => if k = n then bitsOf data.toNat 12 0 else s.fld.get
      (F_BUF_PORT_CFG_rsv k))).sum)) runS 1 16 4097)) ∧
    (((fun (s : State) (req : Nat) (n : Nat) (data : Word) => s.fld.canWrite req = true ∧ n < 17 ∧ bitsOf data.toNat
      12 0 ≤ 4096 ∧ ((List.range 17).map (fun k => if k = n then bitsOf data.toNat 12 0 else s.fld.get
      (F_BUF_PORT_CFG_rsv k))).sum ≤ 16384) runS 1 16 4096) ∧
    ((fun (s : State) (req : Nat) (data : Word) => s.fld.canWrite req = true ∧ hasBit data.toNat 0 = true) (onF (fun
      f => f.wrN 0x501000 0x00030002)) 1 1) ∧
    ((fun (s : State) (n : Nat) => s.fld.phase = .running ∧ n < 17 ∧ s.fld.sq F_FLT_EVT 0 = false) (onF (fun f =>
      { f with buf := { f.buf with queued := [{ port := 3, queue := 1 }, { port := 4, queue := 2 }] } })) 3)) :=
  ⟨by decide +kernel, by decide +kernel⟩

/-- The premises of `TransmissionOfACopy` are met. -/
theorem witness_transmission_of_a_copy :
    (((fun (s : State) (n : Nat) (c : Copy) => s.fld.phase = .running ∧ ((n < 12 ∧ stateUp (portState s.fld n) = true
      ∧ ¬ (portState s.fld n = 4 ∧ (s.fld.portX n).drained = true)) ∨ (n = 16 ∧ toWindow s.fld c.queue = false)) ∧
      (s.fld.portX n).sending = none ∧ s.fld.flt.badCells = [] ∧ chooseCopy (purgeOverrun n s.fld) n = some c ∧
      c.port = n) (holding 3 [sent] (fun f =>
      { f with buf := { f.buf with queued := [{ frame := 4, port := 3, queue := 1 }] } })) 3
      ({ frame := 4, port := 3, queue := 1 })) ∧
    ((fun (s : State) (n : Nat) (c : Copy) (e : Copy) => s.fld.phase = .running ∧ n < 12 ∧ stateUp (portState s.fld
      n) = true ∧ ¬ (portState s.fld n = 4 ∧ (s.fld.portX n).drained = true) ∧ (s.fld.portX n).sending = some c ∧
      s.fld.flt.badCells = [] ∧ expressCopy (purgeOverrun n s.fld) n = some e ∧ e.port = n ∧ e.frag = false ∧
      canPreempt (purgeOverrun n s.fld) n c = true) (holding 3 [big, sent] (fun f => later 5000
      ({ ((f.put (F_PORT_STAT_preempt_active 3) 1).put (F_PORT_PREEMPT_express 3) 0x80).setPortX 3 (fun x => { x with sending := some { frame := 5, port := 3, queue := 1, start := 4800 } }) with buf := { f.buf with queued := [{ frame := 4, port := 3, queue := 7 }] } }
      : FieldDie))) 3 ({ frame := 5, port := 3, queue := 1, start := 4800 }) ({ frame := 4, port := 3, queue := 7 })) ∧
    ((fun (s : State) (n : Nat) (_phase : Nat) (c : Copy) => s.fld.phase = .running ∧ n < 12 ∨ n = 16 ∧ (s.fld.portX
      n).sending = some c ∧ c.port = n ∧ c.queue < 8 ∧ c.stomped = false ∧ s.fld.flt.badCells = [] ∧ (s.fld.frameOf
      c.frame).rx = false ∧ (s.fld.frameOf c.frame).ptp = none) (holding 16 [sent] (fun f => f.setPortX 16 (fun x =>
      { x with sending := some { frame := 4, port := 16, queue := 1 } }))) 16 0
      ({ frame := 4, port := 16, queue := 1 }))) ∧
    (∀ s ∈ [(holding 3 [sent] (fun f =>
      { f with buf := { f.buf with queued := [{ frame := 4, port := 3, queue := 1 }] } })), (holding 3 [big, sent]
      (fun f => later 5000
      ({ ((f.put (F_PORT_STAT_preempt_active 3) 1).put (F_PORT_PREEMPT_express 3) 0x80).setPortX 3 (fun x => { x with sending := some { frame := 5, port := 3, queue := 1, start := 4800 } }) with buf := { f.buf with queued := [{ frame := 4, port := 3, queue := 7 }] } }
      : FieldDie))), (holding 16 [sent] (fun f => f.setPortX 16 (fun x =>
      { x with sending := some { frame := 4, port := 16, queue := 1 } })))], Shape s) :=
  ⟨by decide +kernel, shapes _ (by decide +kernel)⟩

/-- The premises of `GatesFollowTheirLists` are met. -/
theorem witness_gates_follow_their_lists :
    (((fun (s : State) (n : Nat) => s.fld.phase = .running ∧ n < 17 ∧ listActive s.fld n = false) runS 16) ∧
    ((fun (s : State) (n : Nat) => s.fld.phase = .running ∧ n < 17 ∧ listActive s.fld n = true ∧ operSpans s.fld n ≠
      [] ∧ runningEntry (operSpans s.fld n) (s.fld.sysNs - runningCycle s.fld n) < 256) (onF (fun f =>
      { listed 16 f with tim := { f.tim with a := 12345678 * 2 ^ 32 } })) 16) ∧
    ((fun (s : State) (req : Nat) (data : Word) => s.fld.canWrite req = true ∧ lkDenied s.fld req F_STR_CHG = false ∧
      bitsOf data.toNat 15 0 = s.fld.get F_STR_CHG_STAT_last_gen) (lock 2 1 7) 7 0) ∧
    ((fun (s : State) (req : Nat) (n : Nat) (data : Word) => s.fld.canWrite req = true ∧ lkDenied s.fld req F_STR_CHG
      = false ∧ bitsOf data.toNat 15 0 ≠ s.fld.get F_STR_CHG_STAT_last_gen ∧ (portsIn (s.fld.get
      F_STR_CHG_MASK_ports)).find? (fun m => adminRefused s.fld m != 0) = some n) (lock 2 1 7 (fun f => f.put
      F_STR_CHG_MASK_ports 0x8004)) 7 2 5)) ∧
    (((fun (s : State) (req : Nat) (n : Nat) (data : Word) => s.fld.canWrite req = true ∧ lkDenied s.fld req F_STR_CHG
      = false ∧ bitsOf data.toNat 15 0 ≠ s.fld.get F_STR_CHG_STAT_last_gen ∧ (∀ m, m < 17 → hasBit (s.fld.get
      F_STR_CHG_MASK_ports) m = true → adminRefused s.fld m = 0) ∧ n < 17 ∧ hasBit (s.fld.get F_STR_CHG_MASK_ports) n
      = true) (lock 2 1 7 (fun f => adminList 2 (f.put F_STR_CHG_MASK_ports 4))) 7 2 0xFFFF) ∧
    ((fun (s : State) (n : Nat) => s.fld.phase = .running ∧ n < 17 ∧ (s.fld.gateX n).pending = true ∧ (s.fld.gateX
      n).ct ≤ s.fld.sysNs ∧ (s.fld.gateX n).pendList.length ≤ 256 ∧ (s.fld.gateX n).pendLen ≤ 256 ∧ (s.fld.gateX
      n).pendCycle < 2 ^ 30 ∧ (s.fld.gateX n).pendGen < 2 ^ 16) (onF (fun f =>
      { pendGate true f with tim := { f.tim with a := 5000 * 2 ^ 32 } })) 16) ∧
    ((fun (s : State) => s.fld.phase = .running ∧ windowsDue s.fld = true ∧ (s.fld.str.pendWords.map (fun e =>
      e.1)).Nodup ∧ (∀ e ∈ s.fld.str.pendWords, 0x554000 ≤ e.1 ∧ e.1 < 0x558000)) (onF (fun f =>
      { f.wrN 0x554020 9 with str := { f.str with pendWin := some 4, pendWords := [(0x554000, 5), (0x557FFC, 6)], netStart := 4 } }))) ∧
    ((fun (s : State) => s.fld.phase = .running ∧ networkBoundary s.fld = s.fld.str.netStart) runS)) ∧
    (((fun (s : State) => s.fld.phase = .running ∧ networkBoundary s.fld ≠ s.fld.str.netStart ∧ s.fld.role = 0 ∧
      s.fld.str.pendWin = none ∧ s.fld.twn.boundaryB = none ∧ s.fld.twn.confAt = false ∧ s.fld.twn.aloneAtB = false)
      (onTim (fun x => { x with a := 2500000 * 2 ^ 32 }))) ∧
    ((fun (s : State) (req : Nat) (_data : Word) => s.fld.canWrite req = true) (onF (fun f => (f.wr (streamStatusAddr
      5) 3).wr (sgateStateAddr 5) 4)) 1 0x80000005) ∧
    ((fun (s : State) (req : Nat) (n : Nat) (_burst : Bool) (_data : Word) => s.fld.canWrite req = true ∧ n < 17)
      runS 1 16 true 0xFF123456)) ∧
    (∀ s ∈ [runS, (onF (fun f => { listed 16 f with tim := { f.tim with a := 12345678 * 2 ^ 32 } })), (lock 2 1 7
      (fun f => adminList 2 (f.put F_STR_CHG_MASK_ports 4))), (onF (fun f =>
      { pendGate true f with tim := { f.tim with a := 5000 * 2 ^ 32 } }))], Shape s) :=
  ⟨by decide +kernel, by decide +kernel, by decide +kernel, shapes _ (by decide +kernel)⟩

/-- The premises of `TimeIsSteppedSetAndSteered` are met. -/
theorem witness_time_is_stepped_set_and_steered :
    (((fun (s : State) (req : Nat) (_data : Word) => s.fld.canWrite req = true ∧ lkDenied s.fld req F_TIM_A_STEP =
      false ∧ s.fld.role ≠ 3) (lock 3 1 7) 7 0xFFFFFFFF) ∧
    ((fun (s : State) (req : Nat) (_data : Word) => s.fld.canWrite req = true ∧ lkDenied s.fld req F_TIM_B_STEP =
      false ∧ s.fld.role ≠ 3) (lock 3 1 7) 7 0x7FFFFFFF) ∧
    ((fun (s : State) (req : Nat) (_data : Word) => s.fld.canWrite req = true ∧ req < 256 ∧ lkDenied s.fld req
      F_TIM_A_STEP = false ∧ s.fld.role = 3) (lock 3 1 7 (fun f => f.put F_TWN_STAT_role 3)) 7 1) ∧
    ((fun (s : State) (req : Nat) (_data : Word) => s.fld.canWrite req = true ∧ req < 256 ∧ lkDenied s.fld req
      F_TIM_A_STEP = true) (lock 3 1 7) 6 1) ∧
    ((fun (s : State) (req : Nat) (_data : Word) => s.fld.canWrite req = true ∧ lkDenied s.fld req F_TIM_A_SET_SEC_HI
      = false ∧ s.fld.role ≠ 3) (lock 3 1 7 (fun f =>
      { f with staged := [(7, F_TIM_A_SET_NS, 5), (8, F_TIM_A_SET_NS, 6)] })) 7 1)) ∧
    (((fun (s : State) (req : Nat) (_data : Word) => s.fld.canWrite req = true ∧ s.fld.role ≠ 3) (lock 3 1 7 (fun f =>
      { f with staged := [(7, F_TIM_B_OFF_NS, 5)] })) 7 1) ∧
    ((fun (s : State) (req : Nat) (data : Word) (v : Nat) => s.fld.canWrite req = true ∧ s.fld.role ≠ 3 ∧ v =
      stagedOr s.fld req F_TIM_A_INC_LO + 2 ^ 32 * (data.toNat % 16) ∧ 7875 * 2 ^ 32 ≤ v * 1000 ∧ v * 1000 ≤ 8125 * 2
      ^ 32 ∧ steeredBy s.fld 0 = none) (onF (fun f => f.put (F_TIM_PTP_CFG_en 0) 0)) 1 8 0x800000000) ∧
    ((fun (s : State) (req : Nat) (data : Word) (v : Nat) => s.fld.canWrite req = true ∧ s.fld.role ≠ 3 ∧ v =
      stagedOr s.fld req F_TIM_A_INC_LO + 2 ^ 32 * (data.toNat % 16) ∧ v * 1000 < 7875 * 2 ^ 32 ∨ 8125 * 2 ^ 32 < v *
      1000 ∨ steeredBy s.fld 0 ≠ none) runS 1 7 0x700000000) ∧
    ((fun (s : State) (req : Nat) (_data : Word) => s.fld.canWrite req = true ∧ s.fld.role ≠ 3 ∧ steeredBy s.fld 1 =
      none ∧ s.fld.now < 2 ^ 64) (onTim (fun x => { x with c := 1000, bOff := 5 })) 1 0xFFFFFFFF)) :=
  ⟨by decide +kernel, by decide +kernel⟩

/-- The premises of `DomainsAreSwitchedAndCompared` are met. -/
theorem witness_domains_are_switched_and_compared :
    ((fun (s : State) (req : Nat) (data : Word) => s.fld.phase = .running ∧ ownsLock s.fld req 3 = true ∧ bitsOf
      data.toNat 0 0 ≠ s.fld.activeDom ∧ (domDiff ((s.fld.dom s.fld.activeDom : Int) + s.fld.tim.delta - (s.fld.dom
      (bitsOf data.toNat 0 0) : Int))).natAbs ≤ secFix) (lock 3 1 7 (fun f =>
      { f with tim := { f.tim with c := 1000, a := 500 } })) 7 1) ∧
    ((fun (s : State) (req : Nat) (data : Word) => s.fld.phase = .running ∧ ownsLock s.fld req 3 = true ∧ bitsOf
      data.toNat 0 0 ≠ s.fld.activeDom ∧ secFix < (domDiff ((s.fld.dom s.fld.activeDom : Int) + s.fld.tim.delta -
      (s.fld.dom (bitsOf data.toNat 0 0) : Int))).natAbs) (lock 3 1 7 (fun f =>
      { f with tim := { f.tim with c := 1000, a := 8589934592000000000 } })) 7 1) ∧
    ((fun (s : State) (d : Int) => s.fld.phase = .running ∧ s.fld.tim.xcOn = true ∧ s.fld.tim.xcStart + pow2Sec
      s.fld.tim.xcLog ≤ s.fld.sysNs ∧ d = domDiff ((s.fld.domA : Int) - (s.fld.domB : Int)) + toSigned 32 (s.fld.rdN
      F_PTB_XC) * 2 ^ 32 ∧ (s.fld.tim.xcPrev = none ∨ s.fld.tim.xcVoid = true ∨ ∀ p ∈ s.fld.tim.xcPrev, (d -
      p).natAbs ≤ s.fld.rdN F_TIM_XC * 2 ^ 32)) (onTim (fun x =>
      { x with xcOn := true, a := 9000000000 * 2 ^ 32, xcPrev := some (9000000000 * 2 ^ 32 - 1) })) (9000000000 * 2 ^
      32)) ∧
    ((fun (s : State) (d : Int) => s.fld.phase = .running ∧ s.fld.tim.xcOn = true ∧ s.fld.tim.xcStart + pow2Sec
      s.fld.tim.xcLog ≤ s.fld.sysNs ∧ d = domDiff ((s.fld.domA : Int) - (s.fld.domB : Int)) + toSigned 32 (s.fld.rdN
      F_PTB_XC) * 2 ^ 32 ∧ s.fld.tim.xcVoid = false ∧ (∃ p ∈ s.fld.tim.xcPrev, s.fld.rdN F_TIM_XC * 2 ^ 32 < (d -
      p).natAbs)) (onTim (fun x => { x with xcOn := true, a := 9000000000 * 2 ^ 32, xcPrev := some 0 })) (9000000000
      * 2 ^ 32)) ∧
    ((fun (s : State) (req : Nat) (data : Word) => s.fld.canWrite req = true ∧ hasBit data.toNat 0 = true ∧ s.fld.now
      < 2 ^ 64 ∧ s.fld.domA < domMod) (onTim (fun x =>
      { x with c := 2 ^ 60 + 5, a := 9000000001 * 2 ^ 32, bOff := 77 * 2 ^ 32 })) 1 1) := by decide +kernel

/-- The premises of `TheClocksTick` are met. -/
theorem witness_the_clocks_tick :
    (((fun (s : State) => s.fld.phase = .running) runS) ∧
    ((fun (s : State) (_pads : Nat) => s.fld.phase = .running ∧ s.fld.pwr.vddSl = true) runS 0xFFFFFF) ∧
    ((fun (s : State) => s.fld.phase = .running ∧ xcheckOn s.fld = true ∧ s.fld.pwr.overran = false ∧ 3823 <
      xcheckCount s.fld) (onTim (fun x => { x with c := 4000 }))) ∧
    ((fun (s : State) => (xcheckOn s.fld = false ∨ s.fld.pwr.overran = true ∨ xcheckCount s.fld ≤ 3823)) (onTim (fun
      x => { x with c := 3823 })))) ∧
    (((fun (s : State) (_period : Nat) => s.fld.phase = .running ∧ powerState s.fld = 0 ∧ s.fld.get F_PTB_SKEW_sl_skew
      = 0) runS 2000000000) ∧
    ((fun (s : State) => s.fld.phase = .running ∧ s.fld.flag F_PWR_CTRL_nap_en = true ∧ powerState s.fld = 0 ∧
      s.fld.get F_PWR_NAP_CFG_nap_idle ≤ s.fld.pwr.idle ∧ napIdle s.fld = true ∧ s.fld.engineRuns 18 = true) (onF
      (fun f =>
      { f.put F_PWR_CTRL_nap_en 1 with pwr := { f.pwr with idle := 2000000000 }, tim := { f.tim with lastMs := 0 } }))) ∧
    ((fun (s : State) => s.fld.phase = .running ∧ powerState s.fld = 1 ∧ s.fld.engineRuns 18 = true ∧
      s.fld.pwr.napCause = true) (onF (fun f =>
      { f.put F_PWR_STATE_state 1 with pwr := { f.pwr with napCause := true } })))) ∧
    (∀ s ∈ [runS], Shape s) :=
  ⟨by decide +kernel, by decide +kernel, shapes _ (by decide +kernel)⟩

/-- The premises of `ShuttersAndCaptures` are met. -/
theorem witness_shutters_and_captures :
    (((fun (s : State) (req : Nat) (k : Nat) (a : Nat) (b : Nat) (p : Nat) (data : Word) => s.fld.canWrite req = true
      ∧ k < 4 ∧ hasBit data.toNat 31 = true ∧ a = shutTime s.fld (F_TIM_SHUT_START_NS k) ∧ b = shutTime s.fld
      (F_TIM_SHUT_STOP_NS k) ∧ p = s.fld.get (F_TIM_SHUT_PERIOD_period k) ∧ (s.fld.shutter k).active = false ∧ hasBit
      s.fld.pin.shutOff k = false ∧ a + 8 ≤ b ∧ (p = 0 → s.fld.sysNs ≤ b) ∧ (p ≠ 0 → b - a + 8 ≤ p)) (shutSet 3 100
      200 0) 1 3 100 200 0 0x80000000) ∧
    ((fun (s : State) (req : Nat) (k : Nat) (a : Nat) (b : Nat) (p : Nat) (data : Word) => s.fld.canWrite req = true
      ∧ k < 4 ∧ hasBit data.toNat 31 = true ∧ a = shutTime s.fld (F_TIM_SHUT_START_NS k) ∧ b = shutTime s.fld
      (F_TIM_SHUT_STOP_NS k) ∧ p = s.fld.get (F_TIM_SHUT_PERIOD_period k) ∧ (s.fld.shutter k).active = false ∧ hasBit
      s.fld.pin.shutOff k = false ∧ b < a + 8) (shutSet 0 100 107 0) 1 0 100 107 0 0x80000000) ∧
    ((fun (s : State) (k : Nat) => s.fld.phase = .running ∧ k < 4 ∧ hasBit s.fld.pin.shutOff k = false) (onF (fun f
      =>
      { f.setShutter 2 (fun _ => { armed := true, start := 10, stop := 50 }) with tim := { (f.setShutter 2 (fun _ => { armed := true, start := 10, stop := 50 })).tim with a := 20 * 2 ^ 32 } }))
      2)) ∧
    (((fun (s : State) (k : Nat) (phase : Nat) (rising : Bool) => s.fld.phase = .running ∧ k < 4 ∧ phase < 8 ∧
      captureOn s.fld k rising = true ∧ s.fld.flag (F_PIN_CFG_dir (8 + k)) = false ∧ (∀ l ∈ s.fld.tim.capLast.getD k
      none, l + 16 < 8 * s.fld.now + phase) ∧ (s.fld.tim.captures.getD k []).length < 16) (onF capF) 3 7 true) ∧
    ((fun (s : State) (k : Nat) (phase : Nat) (rising : Bool) => s.fld.phase = .running ∧ k < 4 ∧ phase < 8 ∧
      captureOn s.fld k rising = true ∧ s.fld.flag (F_PIN_CFG_dir (8 + k)) = false ∧ (∀ l ∈ s.fld.tim.capLast.getD k
      none, l + 16 < 8 * s.fld.now + phase) ∧ 16 ≤ (s.fld.tim.captures.getD k []).length) (onF (fun f =>
      { capF f with tim := { f.tim with captures := f.tim.captures.set 3 (List.replicate 16 tsE) } })) 3 7 true) ∧
    ((fun (s : State) (k : Nat) (phase : Nat) (rising : Bool) (l : Nat) => s.fld.phase = .running ∧ k < 4 ∧ phase < 8
      ∧ captureOn s.fld k rising = true ∧ s.fld.flag (F_PIN_CFG_dir (8 + k)) = false ∧ s.fld.tim.capLast.getD k none
      = some l ∧ 8 * s.fld.now + phase ≤ l + 16) (onF (fun f =>
      { capF f with tim := { f.tim with capLast := f.tim.capLast.set 3 (some 0) } })) 3 7 true 0)) ∧
    (∀ s ∈ [(shutSet 3 100 200 0), (shutSet 0 100 107 0), (onF (fun f =>
      { f.setShutter 2 (fun _ => { armed := true, start := 10, stop := 50 }) with tim := { (f.setShutter 2 (fun _ => { armed := true, start := 10, stop := 50 })).tim with a := 20 * 2 ^ 32 } })),
      (onF capF), (onF (fun f =>
      { capF f with tim := { f.tim with captures := f.tim.captures.set 3 (List.replicate 16 tsE) } })), (onF (fun f
      => { capF f with tim := { f.tim with capLast := f.tim.capLast.set 3 (some 0) } }))], Shape s) :=
  ⟨by decide +kernel, by decide +kernel, shapes _ (by decide +kernel)⟩

/-- The premises of `TimestampQueuesAndTimeMessages` are met. -/
theorem witness_timestamp_queues_and_time_messages :
    (((fun (s : State) (req : Nat) (n : Nat) (e : TsEntry) (es : List TsEntry) => s.fld.canWrite req = true ∧ hasTsq n
      = true ∧ s.fld.tim.tsq.getD n [] = e :: es) (onTim (fun x =>
      { x with tsq := List.replicate 16 [] ++ [[tsE, {}]] })) 1 16 tsE ([{}])) ∧
    ((fun (s : State) (req : Nat) (n : Nat) => s.fld.canWrite req = true ∧ hasTsq n = true ∧ s.fld.tim.tsq.getD n []
      = []) runS 1 5) ∧
    ((fun (s : State) (n : Nat) (e : TsEntry) (es : List TsEntry) => s.fld.phase = .running ∧ n < 17 ∧ hasBit
      (s.fld.get F_TIM_TSQ_CFG_mirror) n = true ∧ s.fld.xng.everUp = true ∧ s.fld.xng.canSend = true ∧
      s.fld.tim.tsq.getD n [] = e :: es ∧ s.fld.xng.corruptTx = false ∧ s.fld.laneNoise .field 1 = false) (onF (fun f
      =>
      { linked (f.put F_TIM_TSQ_CFG_mirror 8) with tim := { f.tim with tsq := [[], [], [], [tsE]] ++ List.replicate 13 [] } }))
      3 tsE ([])) ∧
    ((fun (s : State) => s.fld.phase = .running ∧ timeMessageDue s.fld = true ∧ s.fld.xng.canSend = true ∧
      s.fld.xng.corruptTx = false ∧ s.fld.laneNoise .field 1 = false) (onF (fun f =>
      { linked f with tim := { f.tim with a := 5000000 * 2 ^ 32 } }))) ∧
    ((fun (s : State) (hostLocal : Nat) (u : FlowUnit) => s.hst.inReset = false ∧ s.hst.xng.inbox.find? (fun u =>
      u.type == 7) = some u ∧ s.hst.localNs ≤ hostLocal ∧ hostLocal < 2 ^ 64) (mailed (timeUnit (onTim (fun x =>
      { x with a := 77 * 2 ^ 32 })).fld)) 500 (timeUnit (onTim (fun x => { x with a := 77 * 2 ^ 32 })).fld))) ∧
    (((fun (s : State) (u : FlowUnit) (n : Nat) => s.hst.inReset = false ∧ s.hst.xng.inbox.find? (fun u => u.type ==
      6) = some u ∧ bitsOf u.header 27 23 = n ∧ n < 12 ∧ (s.hst.mirrors.getD n []).length < 32) (mailed (tsrUnit 3
      tsE 2)) (tsrUnit 3 tsE 2) 3) ∧
    ((fun (s : State) (u : FlowUnit) (n : Nat) => s.hst.inReset = false ∧ s.hst.xng.inbox.find? (fun u => u.type ==
      6) = some u ∧ bitsOf u.header 27 23 = n ∧ n < 12 ∧ 32 ≤ (s.hst.mirrors.getD n []).length) (mailed (tsrUnit 3
      tsE 2) (fun h => { h with mirrors := List.replicate 13 (List.replicate 32 {}) })) (tsrUnit 3 tsE 2) 3) ∧
    ((fun (s : State) (_m : Nat) (l : Nat) => s.hst.inReset = false ∧ s.hst.localNs ≤ l ∧ l < 2 ^ 64 ∧ s.hst.flag
      H_TSQ_PTM_CFG_ptm_ms = true) (onHst (fun h => h.put H_TSQ_PTM_CFG_ptm_ms 1)) 5 6) ∧
    ((fun (s : State) (_m : Nat) (l : Nat) => s.hst.inReset = false ∧ s.hst.localNs ≤ l ∧ l < 2 ^ 64 ∧ s.hst.flag
      H_TSQ_PTM_CFG_ptm_ms = false) runS 5 6) ∧
    ((fun (s : State) (data : Word) => s.hst.inReset = false ∧ hasBit data.toNat 0 = true) (onHst (fun h =>
      { h with corrSys := (5000000009, 2 ^ 40 + 3), corrPtm := (2 ^ 50 + 1, 2 ^ 33 + 4) })) 1)) ∧
    (∀ s ∈ [(onTim (fun x => { x with tsq := List.replicate 16 [] ++ [[tsE, {}]] })), (onF (fun f =>
      { linked (f.put F_TIM_TSQ_CFG_mirror 8) with tim := { f.tim with tsq := [[], [], [], [tsE]] ++ List.replicate 13 [] } })),
      (mailed (tsrUnit 3 tsE 2)), (mailed (tsrUnit 3 tsE 2) (fun h =>
      { h with mirrors := List.replicate 13 (List.replicate 32 {}) }))], Shape s) :=
  ⟨by decide +kernel, by decide +kernel, shapes _ (by decide +kernel)⟩

/-- The premises of `GptpEngine` are met. -/
theorem witness_gptp_engine :
    (((fun (s : State) (n : Nat) (p : Nat) (x : SyncTime) => s.fld.phase = .running ∧ n < 2 ∧ (s.fld.ptpX n).sync =
      some x ∧ ptpOn s.fld n = true ∧ s.fld.standbyPath = false ∧ slavePort s.fld n = some p ∧ (s.fld.ptpX n).syncNew
      = true ∧ -(2 ^ 31) ≤ syncOffset s.fld p x ∧ syncOffset s.fld p x < 2 ^ 31 ∧ (s.fld.ptpX n).afterWake = false)
      (onPtp 0 (fun x => { x with sync := some { origin := 100, domTs := 100 + 5 }, syncNew := true }) (fun f => id
      (slave3 f))) 0 3 ({ origin := 100, domTs := 100 + 5 })) ∧
    ((fun (s : State) (n : Nat) => s.fld.phase = .running ∧ n < 2 ∧ ptpOn s.fld n = true ∧ s.fld.standbyPath = false
      ∧ slavePort s.fld n = none) runS 0) ∧
    ((fun (s : State) (n : Nat) => s.fld.phase = .running ∧ n < 2 ∧ ptpOn s.fld n = true ∧ s.fld.standbyPath = false
      ∧ slavePort s.fld n ≠ none ∧ ptpState s.fld n ≠ 4 ∧ (s.fld.ptpX n).lastSync + s.fld.get (F_TIM_PTP_TO_sync_to
      n) * intervalTicks (toSigned 4 (s.fld.get (F_TIM_PTP_CFG_log_sync n))) ≤ s.fld.now) (onF (fun f => later
      500000000 (slave3 f))) 0) ∧
    ((fun (s : State) (n : Nat) => s.fld.phase = .running ∧ n < 2 ∧ ptpOn s.fld n = true ∧ s.fld.standbyPath = false
      ∧ (actsAsGm s.fld n = true ∨ (ptpState s.fld n ≠ 4 ∧ (s.fld.ptpX n).sync ≠ none))) (port 3 3 (fun f => (f.put
      (F_TIM_PORT_PDLY_ptp_en 3) 1).put (F_TIM_PORT_STAT_role0 3) 1)) 0) ∧
    ((fun (s : State) (n : Nat) => s.fld.phase = .running ∧ n < 2 ∧ ptpOn s.fld n = true ∧ s.fld.standbyPath = false
      ∧ (actsAsGm s.fld n = true ∨ (slavePort s.fld n).bind (heardOn s.fld n) ≠ none)) (port 3 3 (fun f => (f.put
      (F_TIM_PORT_PDLY_ptp_en 3) 1).put (F_TIM_PORT_STAT_role0 3) 1)) 0)) ∧
    (((fun (s : State) (n : Nat) => s.fld.phase = .running ∧ n < 2 ∧ ptpOn s.fld n = true ∧ s.fld.standbyPath = false)
      (onPtp 0 (fun x => { x with heard := [(3, 0, []), (4, 600000000, [])] }) (later 600000001)) 0) ∧
    ((fun (s : State) (p : Nat) (_ts : Nat) (m : List Byte) => s.fld.phase = .running ∧ p < 12 ∧ s.fld.flag
      (F_TIM_PORT_PDLY_ptp_en p) = true ∧ ptpType m ≠ 2 ∧ ptpType m ≠ 3 ∧ ptpType m ≠ 10 ∧ instOf s.fld (ptpDomain m)
      = none) (onF (fun f => f.put (F_TIM_PORT_PDLY_ptp_en 3) 1)) 3 9 ([0x1B, 2, 0, 0, 0x55])) ∧
    ((fun (s : State) (p : Nat) (_ts : Nat) (n : Nat) (m : List Byte) => s.fld.phase = .running ∧ p < 12 ∧ s.fld.flag
      (F_TIM_PORT_PDLY_ptp_en p) = true ∧ ptpType m = 0 ∧ instOf s.fld (ptpDomain m) = some n ∧ s.fld.standbyPath =
      false ∧ slavePort s.fld n = some p ∧ ptpTwoStep m = false ∧ n < 2) (onF (fun f => (slave3 f).put
      (F_TIM_PORT_PDLY_ptp_en 3) 1)) 3 9 0 ([0x10, 2] ++ List.replicate 70 0)) ∧
    ((fun (s : State) (p : Nat) (_mld : Nat) (_nrr : Nat) (_answered : Bool) => s.fld.phase = .running ∧ p < 12 ∧
      s.fld.flag (F_TIM_PORT_PDLY_pdelay_en p) = true ∧ ptpPort s.fld p = true) (port 3 3 (fun f => ((f.put
      (F_TIM_PORT_PDLY_ptp_en 3) 1).put (F_TIM_PORT_PDLY_pdelay_en 3) 1).put (F_TIM_PORT_STAT_lost 3) 7)) 3 5 6 true)) ∧
    (∀ s ∈ [(onPtp 0 (fun x => { x with sync := some { origin := 100, domTs := 100 + 5 }, syncNew := true }) (fun f
      => id (slave3 f))), runS, (onF (fun f => later 500000000 (slave3 f))), (port 3 3 (fun f => (f.put
      (F_TIM_PORT_PDLY_ptp_en 3) 1).put (F_TIM_PORT_STAT_role0 3) 1)), (onPtp 0 (fun x =>
      { x with heard := [(3, 0, []), (4, 600000000, [])] }) (later 600000001)), (onF (fun f => (slave3 f).put
      (F_TIM_PORT_PDLY_ptp_en 3) 1)), (port 3 3 (fun f => ((f.put (F_TIM_PORT_PDLY_ptp_en 3) 1).put
      (F_TIM_PORT_PDLY_pdelay_en 3) 1).put (F_TIM_PORT_STAT_lost 3) 7))], Shape s) :=
  ⟨by decide +kernel, by decide +kernel, shapes _ (by decide +kernel)⟩

/-- The premises of `SegmentBeaconsAndLosses` are met. -/
theorem witness_segment_beacons_and_losses :
    (((fun (s : State) (req : Nat) (k : Nat) (data : Word) => s.fld.canWrite req = true ∧ k < 4 ∧ plcaOk data.toNat =
      false) runS 1 3 0x00050820) ∧
    ((fun (s : State) (req : Nat) (k : Nat) (data : Word) => s.fld.canWrite req = true ∧ k < 4 ∧ plcaOk data.toNat =
      true ∧ s.fld.flag (F_PORT_MODE_enable (12 + k)) = false) (onF (fun f => f.put (F_PORT_MODE_enable 15) 0)) 1 3
      0x01050820) ∧
    ((fun (s : State) (req : Nat) (k : Nat) (data : Word) => s.fld.canWrite req = true ∧ k < 4 ∧ plcaOk data.toNat =
      true ∧ s.fld.isRunning = true ∧ s.fld.engineRuns (12 + k) = true ∧ s.fld.flag (F_PORT_MODE_enable (12 + k)) =
      true ∧ portState s.fld (12 + k) = 3 ∧ bitsOf data.toNat 20 16 ≠ s.fld.get (F_MDS_PLCA_node_id k)) (seg 3 3 id
      (fun f => f.put (F_PORT_MODE_enable 15) 1)) 1 3 0x01050820) ∧
    ((fun (s : State) (k : Nat) => s.fld.phase = .running ∧ k < 4 ∧ s.fld.engineRuns (12 + k) = true ∧ isCoord s.fld
      k = true ∧ segSilent s.fld k = false ∧ (portState s.fld (12 + k) = 3 ∨ (portState s.fld (12 + k) = 2 ∧
      (s.fld.portX (12 + k)).wakeAt ≤ s.fld.now)) ∧ beaconDue s.fld k = true ∧ (s.fld.portX (12 + k)).sending = none)
      (seg 1 2 id) 1) ∧
    ((fun (s : State) (k : Nat) => s.fld.phase = .running ∧ k < 4 ∧ portState s.fld (12 + k) = 3 ∧ (s.fld.portX (12 +
      k)).sending = none ∧ s.fld.inRx (12 + k) = none ∧ (s.fld.segX k).silentWait = false ∧ isCoord s.fld k = false ∨
      segSilent s.fld k = true) (seg 1 3 (fun x => { x with active := true, lostAt := some 5 }) (follower 1)) 1)) ∧
    (((fun (s : State) (k : Nat) => s.fld.phase = .running ∧ k < 4 ∧ portState s.fld (12 + k) = 3 ∧ (s.fld.portX (12 +
      k)).sending = none ∧ s.fld.inRx (12 + k) = none ∧ (s.fld.segX k).silentWait = false ∧ isCoord s.fld k = true ∧
      segSilent s.fld k = false) (seg 1 3 (fun x => { x with active := true })) 1) ∧
    ((fun (s : State) (k : Nat) => s.fld.phase = .running ∧ k < 4 ∧ s.fld.engineRuns (12 + k) = true ∧ portState
      s.fld (12 + k) = 2 ∧ isCoord s.fld k = false ∧ (s.fld.portX (12 + k)).sending = none ∧ s.fld.inRx (12 + k) =
      none ∧ (s.fld.segX k).silentWait = false ∧ (s.fld.segX k).beacons = 1 ∧ s.fld.now10 ≤ (s.fld.segX k).cycleStart
      + max 1 (s.fld.get (F_MDS_LOSS_beacon_to k)) * 10000 ∧ (s.fld.portX (12 + k)).wakeAt ≤ s.fld.now) (seg 1 2 (fun
      x => { x with beacons := 1, cycleStart := 239999000 }) (follower 1)) 1) ∧
    ((fun (s : State) (k : Nat) => s.fld.phase = .running ∧ k < 4 ∧ isCoord s.fld k = false ∧ portState s.fld (12 +
      k) = 3 ∧ (s.fld.segX k).active = true ∧ (s.fld.segX k).cycleStart + max 1 (s.fld.get (F_MDS_LOSS_beacon_to k))
      * 10000 ≤ s.fld.now10) (seg 1 3 (fun x => { x with active := true }) (fun f => (follower 1 f).put
      (F_MDS_LOSS_beacon_to 1) 5)) 1) ∧
    ((fun (s : State) (k : Nat) (lost : Nat) => s.fld.phase = .running ∧ k < 4 ∧ s.fld.engineRuns (12 + k) = true ∧
      portState s.fld (12 + k) = 3 ∧ (s.fld.segX k).lostAt = some lost ∧ lost + max 1 (s.fld.get (F_MDS_LOSS_down_ms
      k)) * msTicks ≤ s.fld.now) (seg 1 3 (fun x => { x with lostAt := some 5 }) (fun f => (follower 1 f).put
      (F_MDS_LOSS_down_ms 1) 1)) 1 5)) ∧
    (∀ s ∈ [(onF (fun f => f.put (F_PORT_MODE_enable 15) 0)), (seg 3 3 id (fun f => f.put (F_PORT_MODE_enable 15)
      1)), (seg 1 2 id), (seg 1 3 (fun x => { x with active := true, lostAt := some 5 }) (follower 1)), (seg 1 3 (fun
      x => { x with active := true })), (seg 1 2 (fun x => { x with beacons := 1, cycleStart := 239999000 })
      (follower 1)), (seg 1 3 (fun x => { x with active := true }) (fun f => (follower 1 f).put (F_MDS_LOSS_beacon_to
      1) 5)), (seg 1 3 (fun x => { x with lostAt := some 5 }) (fun f => (follower 1 f).put (F_MDS_LOSS_down_ms 1)
      1))], Shape s) :=
  ⟨by decide +kernel, by decide +kernel, shapes _ (by decide +kernel)⟩

/-- The premises of `SegmentOpportunities` are met. -/
theorem witness_segment_opportunities :
    (((fun (s : State) (k : Nat) => s.fld.phase = .running ∧ k < 4 ∧ (s.fld.segX k).active = true ∧ (s.fld.segX
      k).used = false ∧ (s.fld.segX k).toNode < segNodes s.fld k ∧ (s.fld.segX k).toStart + segToTimer s.fld k * 1000
      ≤ s.fld.now10) (seg 1 3 (fun x => { x with active := true })) 1) ∧
    ((fun (s : State) (k : Nat) => s.fld.phase = .running ∧ k < 4 ∧ (s.fld.segX k).active = true ∧ (s.fld.segX
      k).waiting = true ∧ (s.fld.segX k).toStart + segBurstTimer s.fld k * 1000 ≤ s.fld.now10) (seg 1 3 (fun x =>
      { x with active := true, waiting := true })) 1) ∧
    ((fun (s : State) (k : Nat) (c : Copy) => s.fld.phase = .running ∧ k < 4 ∧ ownTurn s.fld k = true ∧ (s.fld.portX
      (12 + k)).sending = none ∧ (s.fld.segX k).used = false ∧ (s.fld.segX k).toStart ≤ s.fld.now10 ∧ s.fld.now10 ≤
      (s.fld.segX k).toStart + 1000 ∧ s.fld.flt.badCells = [] ∧ chooseCopy (purgeOverrun (12 + k) s.fld) (12 + k) =
      some c ∧ c.port = 12 + k ∧ c.frag = false) (turn (fun f =>
      { f with buf := { f.buf with frames := [sent], queued := [{ frame := 4, port := 13, queue := 1 }] } })) 1
      ({ frame := 4, port := 13, queue := 1 })) ∧
    ((fun (s : State) (k : Nat) (_c : Copy) => s.fld.phase = .running ∧ k < 4 ∧ ownTurn s.fld k = true ∧ (s.fld.portX
      (12 + k)).sending = none ∧ (s.fld.segX k).used = false ∧ (s.fld.segX k).toStart ≤ s.fld.now10 ∧ s.fld.now10 ≤
      (s.fld.segX k).toStart + 1000 ∧ s.fld.flt.badCells = [] ∧ s.fld.buf.queued = [] ∧ (s.fld.portX (12 +
      k)).preempted = none) (turn id) 1 ({})) ∧
    ((fun (s : State) (k : Nat) (fr : Frame) => s.fld.phase = .running ∧ k < 4 ∧ s.fld.inRx (12 + k) = some fr) (seg
      1 3 (fun x => { x with active := true, toNode := 3, winOverlaps := 2 }) (fun f =>
      { f with buf := { f.buf with frames := [{ id := 4, port := 13 }] } })) 1 ({ id := 4, port := 13 }))) ∧
    (((fun (s : State) (k : Nat) => s.fld.phase = .running ∧ k < 4 ∧ (s.fld.portX (12 + k)).sending ≠ none) (seg 1 3
      id (fun f => f.setPortX 13 (fun x => { x with sending := some {} }))) 1) ∧
    ((fun (s : State) (k : Nat) => s.fld.phase = .running ∧ k < 4 ∧ (s.fld.portX (12 + k)).sending = none) (seg 1 3
      id) 1) ∧
    ((fun (s : State) (k : Nat) => s.fld.phase = .running ∧ k < 4 ∧ max 1 (s.fld.get (F_MDS_WIN_win_cycles k)) ≤
      (s.fld.segX k).winCycles) (seg 1 3 (fun x => { x with winCycles := 10000, winSeen := 5 })) 1) ∧
    ((fun (s : State) (k : Nat) => s.fld.phase = .running ∧ k < 4 ∧ (s.fld.segX k).silentWait = true ∧ 80 *
      (s.fld.portX (12 + k)).quietFrom + 96000 ≤ s.fld.now10) (seg 1 3 (fun x =>
      { x with active := true, silentWait := true })) 1)) ∧
    (∀ s ∈ [(seg 1 3 (fun x => { x with active := true })), (seg 1 3 (fun x =>
      { x with active := true, waiting := true })), (turn (fun f =>
      { f with buf := { f.buf with frames := [sent], queued := [{ frame := 4, port := 13, queue := 1 }] } })), (turn
      id), (seg 1 3 (fun x => { x with active := true, toNode := 3, winOverlaps := 2 }) (fun f =>
      { f with buf := { f.buf with frames := [{ id := 4, port := 13 }] } })), (seg 1 3 id (fun f => f.setPortX 13
      (fun x => { x with sending := some {} }))), (seg 1 3 id), (seg 1 3 (fun x =>
      { x with winCycles := 10000, winSeen := 5 })), (seg 1 3 (fun x =>
      { x with active := true, silentWait := true }))], Shape s) :=
  ⟨by decide +kernel, by decide +kernel, shapes _ (by decide +kernel)⟩

/-- The premises of `ExposuresHoldPortsAwake` are met. -/
theorem witness_exposures_hold_ports_awake :
    (((fun (s : State) (e : Nat) (start : Nat) => s.fld.phase = .running ∧ e < 64 ∧ expNext s.fld e = some start ∧
      expValid s.fld e = true ∧ expKind s.fld e = 0 ∧ start ≤ s.fld.sysNs + napLead s.fld) (onF (fun f => at_ 7000
      (exposed 0x8000000F 8000 4000 0 (f.put F_PWR_STATE_state 1)))) 0 8000) ∧
    ((fun (s : State) (e : Nat) (start : Nat) => s.fld.phase = .running ∧ e < 64 ∧ expNext s.fld e = some start ∧
      expValid s.fld e = true ∧ expIsOpen s.fld e = false ∧ start ≤ s.fld.sysNs) (onF (fun f => at_ 8100 (exposed
      0x8000000F 8000 4000 0 (((f.put F_PWR_STATE_state 1).put (F_PORT_STAT_state 2) 5).put (F_PORT_STAT_state 3)
      4)))) 0 8000) ∧
    ((fun (s : State) (e : Nat) (n : Nat) => s.fld.phase = .running ∧ e < 64 ∧ n < 12 ∧ s.fld.engineRuns n = true ∧
      s.fld.pwr.expOpen.any (fun w => w.1 == e && decide (w.2 ≤ s.fld.sysNs)) = true ∧ (s.fld.portX n).windows = [e]
      ∧ portState s.fld n = 6 ∧ (s.fld.portX n).partnerAwake = false) (waking 0) 5 3) ∧
    ((fun (s : State) (req : Nat) (_data : Word) => s.fld.canWrite req = true) (onF (fun f =>
      { f with staged := [(7, F_PWR_EXP_BASE_NS, 77)] })) 7 1) ∧
    ((fun (s : State) (e : Nat) (n : Nat) (start : Nat) => s.fld.phase = .running ∧ e < 64 ∧ n < 12 ∧
      s.fld.engineRuns n = true ∧ expNext s.fld e = some start ∧ expValid s.fld e = true ∧ hasBit (expPorts s.fld e)
      n = true ∧ start ≤ s.fld.sysNs + ticksNs s.fld (guardTicks s.fld (worstPartner s.fld (expPorts s.fld e)) (8 *
      (s.fld.now - (s.fld.portX n).since) + (start - s.fld.sysNs)))) (port 3 5 (fun f => at_ 7000 (exposed 0x8000000F
      8000 4000 0 f))) 0 3 8000)) ∧
    (((fun (s : State) (n : Nat) (sig : WakeSignal) => s.fld.phase = .running ∧ n < 12 ∧ s.fld.pwr.dark = false ∧
      recognised s.fld sig = true ∧ s.fld.engineRuns n = true ∧ isT1 s.fld n = true ∧ powerState s.fld ≠ 2 ∧
      portState s.fld n = 5 ∨ portState s.fld n = 7) (port 3 5) 3 (.burst 16000)) ∧
    ((fun (s : State) (n : Nat) (sig : WakeSignal) => s.fld.phase = .running ∧ n < 12 ∧ s.fld.pwr.dark = false ∧
      recognised s.fld sig = true ∧ s.fld.engineRuns n = true ∧ isT1 s.fld n = true ∧ powerState s.fld ≠ 2 ∧
      portState s.fld n = 4) (port 3 4) 3 (.burst 16000)) ∧
    ((fun (s : State) (n : Nat) (sig : WakeSignal) => s.fld.phase = .running ∧ n < 12 ∧ s.fld.pwr.dark = false ∧
      recognised s.fld sig = false ∧ ignored s.fld sig = false ∧ s.fld.engineRuns n = true ∧ isT1 s.fld n = true ∧
      powerState s.fld ≠ 2 ∧ portState s.fld n = 5) (port 3 5) 3 (.burst 4000)) ∧
    ((fun (s : State) (n : Nat) (sig : WakeSignal) => s.fld.phase = .running ∧ n < 12 ∧ s.fld.pwr.dark = false ∧
      ignored s.fld sig = true) (port 3 5) 3 (.burst 3999))) ∧
    (∀ s ∈ [(onF (fun f => at_ 8100 (exposed 0x8000000F 8000 4000 0 (((f.put F_PWR_STATE_state 1).put
      (F_PORT_STAT_state 2) 5).put (F_PORT_STAT_state 3) 4)))), (waking 0), (port 3 5 (fun f => at_ 7000 (exposed
      0x8000000F 8000 4000 0 f))), (port 3 5), (port 3 4)], Shape s) :=
  ⟨by decide +kernel, by decide +kernel, shapes _ (by decide +kernel)⟩

/-- The premises of `DeratingShedsAndReadmits` are met. -/
theorem witness_derating_sheds_and_readmits :
    (((fun (s : State) (vline : Nat) (tj : Nat) => s.fld.phase = .running ∧ vline < 65536 ∧ tj < 65536 ∧ (s.fld.flag
      F_PWR_CTRL_derate_en = false ∨ overBudget s.fld (budgetOf s.fld vline (toSigned 16 tj)) = false)) runS 4800
      250) ∧
    ((fun (s : State) (vline : Nat) (tj : Nat) (n : Nat) => s.fld.phase = .running ∧ vline < 65536 ∧ tj < 65536 ∧
      s.fld.engineRuns n = true ∧ s.fld.flag F_PWR_CTRL_derate_en = true ∧ overBudget s.fld (budgetOf s.fld vline
      (toSigned 16 tj)) = true ∧ nextShed s.fld = some n ∧ portState s.fld n ≠ 0) overLoad 4800 250 3) ∧
    ((fun (s : State) => s.fld.phase = .running ∧ s.fld.rdN F_PWR_SHED ≠ 0 ∧ s.fld.get F_PWR_DERATE_readmit <
      s.fld.pwr.okFor) (port 3 1 (fun f =>
      { (f.setPortX 3 (fun x => { x with holds := [4] })).wrN F_PWR_SHED 8 with pwr := { f.pwr with okFor := 100000 } })))) ∧
    (∀ s ∈ [overLoad, (port 3 1 (fun f =>
      { (f.setPortX 3 (fun x => { x with holds := [4] })).wrN F_PWR_SHED 8 with pwr := { f.pwr with okFor := 100000 } }))],
      Shape s) :=
  ⟨by decide +kernel, shapes _ (by decide +kernel)⟩

/-- The premises of `DarkroomEntryAndExit` are met. -/
theorem witness_darkroom_entry_and_exit :
    (((fun (s : State) (_req : Nat) (data : Word) => s.fld.phase = .running ∧ hasBit data.toNat 2 = true ∧
      s.fld.engineRuns 18 = true ∧ powerState s.fld ≤ 1 ∧ darkCode s.fld = 0) (onF dkOk) 1 0x00000024) ∧
    ((fun (s : State) (_req : Nat) (data : Word) => s.fld.phase = .running ∧ hasBit data.toNat 2 = true ∧
      s.fld.engineRuns 18 = true ∧ powerState s.fld ≤ 1 ∧ darkCode s.fld ≠ 0) runS 1 4) ∧
    ((fun (s : State) => s.fld.phase = .running ∧ s.fld.flag F_PWR_CTRL_dark_auto = true ∧ s.fld.engineRuns 18 = true
      ∧ s.fld.pwr.rxAt + s.fld.get F_PWR_DARK_CFG_dark_idle * msTicks ≤ s.fld.now ∧ powerState s.fld ≤ 1 ∧ darkCode
      s.fld = 0) (onF (fun f => later 200000000 ((dkOk f).put F_PWR_CTRL_dark_auto 1)))) ∧
    ((fun (s : State) => s.fld.phase = .running ∧ s.fld.flag F_PWR_CTRL_dark_auto = true ∧ s.fld.engineRuns 18 = true
      ∧ s.fld.pwr.rxAt + s.fld.get F_PWR_DARK_CFG_dark_idle * msTicks ≤ s.fld.now ∧ powerState s.fld ≤ 1 ∧ darkCode
      s.fld ≠ 0) (onF (fun f => later 200000000 (f.put F_PWR_CTRL_dark_auto 1)))) ∧
    ((fun (s : State) => s.fld.phase = .running ∧ powerState s.fld = 2 ∧ s.fld.pwr.drained = none ∧ s.fld.now ≤
      s.fld.pwr.entryTick + msTicks ∧ drainedNow s.fld = true) (entry id))) ∧
    (((fun (s : State) => s.fld.phase = .running ∧ powerState s.fld = 2 ∧ s.fld.pwr.drained = none ∧
      s.fld.pwr.entryTick + msTicks ≤ s.fld.now) (entry (later 200000))) ∧
    ((fun (s : State) => pastReturn s.fld = true) (entry (fun f =>
      { f.wrN F_GLB_BOOT_CNT 7 with pwr := { f.pwr with drained := some 3, sl := 5 } }))) ∧
    ((fun (s : State) (b : Nat) => isCause b = true ∧ s.fld.pwr.dark = true ∧ s.fld.phase = .unpowered ∧ hasBit
      s.fld.pwr.mask b = true ∧ s.fld.pwr.pgLow = true) (asleep true false) 20) ∧
    ((fun (s : State) (b : Nat) => isCause b = true ∧ s.fld.pwr.dark = true ∧ s.fld.phase = .unpowered ∧ hasBit
      s.fld.pwr.mask b = true ∧ s.fld.pwr.pgLow = false) (asleep false false) 20) ∧
    ((fun (s : State) (b : Nat) => isCause b = true ∧ s.fld.pwr.dark = true ∧ s.fld.phase = .unpowered ∧ hasBit
      s.fld.pwr.mask b = false) (asleep true false) 16)) ∧
    (((fun (s : State) (b : Nat) => isCause b = true ∧ s.fld.phase = .running ∧ s.fld.pwr.dark = false ∧ powerState
      s.fld = 2 ∧ hasBit (s.fld.rdN F_PWR_WAKE_SRC) b = true ∧ (b < 12 → isT1 s.fld b = true ∧ s.fld.engineRuns b =
      true ∧ (portState s.fld b = 5 ∨ portState s.fld b = 7))) (entry (fun f =>
      { f.wrN F_PWR_WAKE_SRC 0x100000 with pwr := { f.pwr with drained := some 5 } })) 20) ∧
    ((fun (s : State) => s.fld.pwr.dark = true ∧ s.fld.phase = .unpowered ∧ s.fld.pwr.wakePending = true) (asleep
      false true)) ∧
    ((fun (s : State) => s.fld.pwr.dark = true ∧ s.fld.phase = .unpowered ∧ s.fld.pwr.wakePending = false) (asleep
      false false)) ∧
    ((fun (s : State) => s.fld.phase = .locked ∧ s.fld.pwr.waking = true ∧ s.fld.pwr.timeDone = false)
      ({ runS with fld := { runS.fld with phase := .locked, pwr := { runS.fld.pwr with waking := true, sl := 40000 } } })) ∧
    ((fun (s : State) => s.fld.phase = .locked ∧ s.fld.pwr.waking = true ∧ s.fld.pwr.timeDone = true)
      ({ runS with fld := { runS.fld with phase := .locked, pwr := { runS.fld.pwr with waking := true, timeDone := true, sl := 40000 } } }))) ∧
    (((fun (s : State) => s.fld.pwr.waking = true ∧ s.fld.pwr.timeDone = false ∧ s.fld.pwr.lockTicks = 1 ∧ s.fld.now =
      s.fld.pwr.slStart ∧ darkElapsed s.fld < 2 ^ 96 ∧ s.fld.tim.darkC < 2 ^ 63 ∧ s.fld.phase = .locked)
      ({ runS with fld := { runS.fld with phase := .locked, pwr := { runS.fld.pwr with waking := true, lockTicks := 1, sl := 40000 } } })) ∧
    ((fun (s : State) => s.fld.pwr.waking = true ∧ s.fld.pwr.timeDone = false ∧ s.fld.pwr.lockTicks = 1 ∧ s.fld.now =
      s.fld.pwr.slStart ∧ darkElapsed s.fld < 2 ^ 96 ∧ s.fld.tim.darkC < 2 ^ 63 ∧ s.fld.phase = .resolving)
      ({ runS with fld := { runS.fld with phase := .resolving, pwr := { runS.fld.pwr with waking := true, lockTicks := 1, sl := 40000 } } }))) ∧
    (∀ s ∈ [(entry id), (entry (fun f =>
      { f.wrN F_PWR_WAKE_SRC 0x100000 with pwr := { f.pwr with drained := some 5 } }))], Shape s) :=
  ⟨by decide +kernel, by decide +kernel, by decide +kernel, by decide +kernel, shapes _ (by decide +kernel)⟩

/-- The premises of `LinkEndsReceive` are met. -/
theorem witness_link_ends_receive :
    (((fun (s : State) (l : LinkId) (bytes : List Byte) => s.linkActs l = true ∧ s.linkNoise l 0 = false ∧ (s.linkEnd
      l).phase = 3 ∧ (s.linkEnd l).closed = false ∧ (s.linkEnd l).corruptRx = false ∧ bytes.length = 64 ∧ unitSeed
      bytes = (s.linkEnd l).expect ∧ unitSeed bytes ≠ unseqSeed) (upL .field) .field ((unitFor .field).bytes 0)) ∧
    ((fun (s : State) (l : LinkId) (bytes : List Byte) => s.linkActs l = true ∧ s.linkNoise l 0 = false ∧ (s.linkEnd
      l).phase = 3 ∧ (s.linkEnd l).closed = false ∧ (s.linkEnd l).expect < 2 ^ 32 ∧ unitSeed bytes ≠ unseqSeed ∧
      ((s.linkEnd l).corruptRx = true ∨ bytes.length ≠ 64 ∨ unitSeed bytes ≠ (s.linkEnd l).expect)) (upL .field (fun
      x => { x with expect := 5, unacked := 3 })) .field ((unitFor .field).bytes 4)) ∧
    ((fun (s : State) (l : LinkId) (bytes : List Byte) => s.linkActs l = true ∧ s.linkNoise l 0 = false ∧ (s.linkEnd
      l).phase = 3 ∧ (s.linkEnd l).closed = false ∧ (s.linkEnd l).corruptRx = false ∧ bytes.length = 64 ∧ unitSeed
      bytes = unseqSeed ∧ (s.linkEnd l).expect ≠ unseqSeed ∧ (unitOf bytes).type = 8 ∧ 4 < bitsOf (unitOf
      bytes).header 27 24) (upL .field) .field (({ header := 0x85000000, payload := [] } : FlowUnit).bytes
      unseqSeed)) ∧
    ((fun (s : State) (l : LinkId) (bytes : List Byte) => s.linkActs l = true ∧ s.linkNoise l 0 = false ∧ (s.linkEnd
      l).phase = 3 ∧ (s.linkEnd l).closed = false ∧ (s.linkEnd l).corruptRx = false ∧ bytes.length = 64 ∧ unitSeed
      bytes = unseqSeed ∧ (s.linkEnd l).expect ≠ unseqSeed ∧ (unitOf bytes).type ≠ 8) (upL .field) .field
      (({ header := 0x95000000, payload := [] } : FlowUnit).bytes unseqSeed)) ∧
    ((fun (s : State) (l : LinkId) (bytes : List Byte) => s.linkActs l = true ∧ s.linkNoise l 0 = false ∧ (s.linkEnd
      l).phase = 3 ∧ (s.linkEnd l).closed = false ∧ unitSeed bytes = unseqSeed ∧ (unitOf bytes).type = 8 ∧ bitsOf
      (unitOf bytes).header 27 24 = 0 ∧ (s.linkEnd l).replay.any (fun e => e.1 == (unitOf bytes).w 0) = true) (upL
      .field (fun x => { x with txNext := 3, replay := [(1, aUnit), (2, aUnit)] })) .field ((ctrlUnit 0 0 [1]).bytes
      unseqSeed))) ∧
    (((fun (s : State) (l : LinkId) (bytes : List Byte) => s.linkActs l = true ∧ s.linkNoise l 0 = false ∧ (s.linkEnd
      l).closed = false ∧ unitSeed bytes = unseqSeed ∧ (unitOf bytes).type = 8 ∧ (s.linkEnd l).phase = 3 ∧ bitsOf
      (unitOf bytes).header 27 24 = 1) (upL .field (fun x =>
      { x with txNext := 3, replay := [(1, aUnit), (2, aUnit)] })) .field ((ctrlUnit 1 0 [2]).bytes unseqSeed)) ∧
    ((fun (s : State) (l : LinkId) (bytes : List Byte) => s.linkActs l = true ∧ s.linkNoise l 0 = false ∧ (s.linkEnd
      l).closed = false ∧ unitSeed bytes = unseqSeed ∧ (unitOf bytes).type = 8 ∧ (s.linkEnd l).phase = 2 ∧ (bitsOf
      (unitOf bytes).header 27 24 = 3 ∨ bitsOf (unitOf bytes).header 27 24 = 4)) (onL .field (fun x =>
      { x with phase := 2 })) .field ((ctrlUnit 3 0 [2]).bytes unseqSeed)) ∧
    ((fun (s : State) (l : LinkId) => s.linkActs l = true ∧ (s.linkEnd l).phase = 3 ∧ 0 < (s.linkEnd l).replay.length
      ∧ (s.linkEnd l).times.headD 0 + 4 * usTicks ≤ s.fld.now) (onF (fun f => later 500
      { f with xng := { f.xng with phase := 3, txNext := 3, replay := [(1, aUnit), (2, aUnit)] } })) .field) ∧
    ((fun (s : State) (l : LinkId) => s.linkActs l = true ∧ (s.linkEnd l).phase = 3 ∧ 0 < (s.linkEnd l).unacked ∧
      (s.linkEnd l).ackAt + usTicks ≤ s.fld.now) (onF (fun f => later 125
      { f with xng := { f.xng with phase := 3, expect := 5, unacked := 1 } })) .field)) :=
  ⟨by decide +kernel, by decide +kernel⟩

/-- The premises of `LanesAreSparedAndLinksTrain` are met. -/
theorem witness_lanes_are_spared_and_links_train :
    (((fun (s : State) (l : LinkId) (lane : Nat) => s.linkActs l = true ∧ (s.linkEnd l).phase = 3 ∧ lane < 4 ∧
      (s.linkEnd l).rxFailed ≠ lane ∧ s.linkSpares l = true ∧ (s.linkEnd l).rxSpareBad = false ∧ (s.linkEnd
      l).rxFailed = 7 ∧ (s.linkEnd l).sparing = none) (spareOn (upL .field)) .field 2) ∧
    ((fun (s : State) (l : LinkId) (lane : Nat) => s.linkActs l = true ∧ (s.linkEnd l).phase = 3 ∧ lane < 4 ∧
      (s.linkEnd l).rxFailed ≠ lane ∧ s.linkSpares l = false ∨ (s.linkEnd l).rxSpareBad = true ∨ (s.linkEnd
      l).rxFailed ≠ 7) (spareOff (upL .field)) .field 2) ∧
    ((fun (s : State) (l : LinkId) => s.linkActs l = true ∧ (s.linkEnd l).phase = 3 ∧ (s.linkEnd l).rxFailed = 7 ∧
      (s.linkEnd l).rxSpareBad = false) (upL .field) .field) ∧
    ((fun (s : State) (l : LinkId) (lane : Nat) => s.linkActs l = true ∧ (s.linkEnd l).phase = 3 ∧ lane < 4) (upL
      .field) .field 3) ∧
    ((fun (s : State) (l : LinkId) (lane : Nat) => s.linkActs l = true ∧ (s.linkEnd l).phase = 3 ∧ (s.linkEnd
      l).sparing = some lane ∧ (s.linkEnd l).spareAt + usTicks ≤ s.fld.now) (onF (fun f => later 125
      { f with xng := { f.xng with phase := 3, sparing := some 1 } })) .field 1)) ∧
    (((fun (s : State) (l : LinkId) (lane : Nat) => s.linkActs l = true ∧ (s.linkEnd l).phase = 3 ∧ (s.linkEnd
      l).sparing = some lane) (upL .field (fun x => { x with sparing := some 1 })) .field 1) ∧
    ((fun (s : State) (l : LinkId) (rxBad : Nat) (txBad : Nat) => s.linkActs l = true ∧ (s.linkEnd l).phase = 1 ∧
      popCount rxBad 5 ≤ 1 ∧ popCount txBad 5 ≤ 1) (onL .field (fun x => { x with phase := 1 })) .field 2 16) ∧
    ((fun (s : State) (l : LinkId) => s.linkActs l = true ∧ ((s.linkEnd l).phase = 1 ∨ (s.linkEnd l).phase = 2) ∧
      (s.linkEnd l).laneAt + msTicks ≤ s.fld.now) (onF (fun f => later 125000
      { f with xng := { f.xng with phase := 2 } })) .field) ∧
    ((fun (s : State) (l : LinkId) (u : FlowUnit) => s.linkActs l = true ∧ (s.linkEnd l).phase = 2 ∧ (s.linkEnd
      l).inbox.find? (isCtrl 3) = some u) (onL .field (fun x =>
      { x with phase := 2, inbox := [ctrlUnit 3 0 [1, 7, 9, 5]] })) .field (ctrlUnit 3 0 [1, 7, 9, 5])) ∧
    ((fun (s : State) (l : LinkId) (u : FlowUnit) (_half : Nat) => s.linkActs l = true ∧ (s.linkEnd l).phase = 2 ∧
      (s.linkEnd l).inbox.find? (isCtrl 4) = some u) (onL .field (fun x =>
      { x with phase := 2, inbox := [ctrlUnit 4 0 []] })) .field (ctrlUnit 4 0 []) 77)) ∧
    (((fun (s : State) (l : LinkId) (fresh : Bool) (boot : Nat) (sent : Nat) (expects : Nat) => s.linkActs l = true ∧
      (s.linkEnd l).phase = 2 ∧ (s.linkEnd l).peerTrain = some (fresh, boot, sent, expects) ∧ (s.linkEnd l).echoed =
      true) (onL .field (fun x =>
      { x with phase := 2, fresh := true, expect := 4, txNext := 3, replay := [(1, aUnit), (2, aUnit)], peerTrain := some (true, 7, 9, 2), echoed := true }))
      .field true 7 9 2) ∧
    ((fun (s : State) (req : Nat) (data : Word) => hasBit data.toNat 1 = true ∧ s.fld.canWrite req = true ∧
      s.fld.phase = .running ∧ 0 < s.fld.xng.phase) (upL .field) 0 0x00040302) ∧
    ((fun (s : State) (req : Nat) (data : Word) => hasBit data.toNat 1 = true ∧ req = 0 ∧ s.hst.inReset = false ∧
      fnExists s.hst 0 = true ∧ 0 < s.hst.xng.phase) (upL .host) 0 0x00040302) ∧
    ((fun (s : State) (req : Nat) (data : Word) => s.fld.canWrite req = true ∧ s.fld.phase = .running ∧ hasBit
      data.toNat 8 = true ∧ s.fld.flag F_TWN_CTRL_enable = true ∧ hasBit data.toNat 31 = true) (let s := upL .twin;
      { s with fld := (s.fld.put F_TWN_CTRL_enable 1) }) 7 0x80000100)) ∧
    (∀ s ∈ [(onL .field (fun x =>
      { x with phase := 2, fresh := true, expect := 4, txNext := 3, replay := [(1, aUnit), (2, aUnit)], peerTrain := some (true, 7, 9, 2), echoed := true }))],
      Shape s) :=
  ⟨by decide +kernel, by decide +kernel, by decide +kernel, shapes _ (by decide +kernel)⟩

/-- The premises of `RegisterMessagesCross` are met. -/
theorem witness_register_messages_cross :
    (((fun (s : State) (f : Nat) (_off : Nat) (_be : Nat) => s.hst.inReset = false ∧ s.hst.enginesNamed = true ∧
      fnExists s.hst f = true ∧ s.hst.dstate = 0 ∧ (s.hst.flag (H_FUN_FN_CFG_ap_en f) = false ∨ s.hst.xng.phase ≠ 3))
      (onH (fun h => h.put (H_FUN_FN_CFG_ap_en 0) 0)) 0 32772 15) ∧
    ((fun (s : State) (f : Nat) (_off : Nat) (_be : Nat) (tag : Nat) => s.hst.inReset = false ∧ s.hst.enginesNamed =
      true ∧ fnExists s.hst f = true ∧ s.hst.dstate = 0 ∧ s.hst.flag (H_FUN_FN_CFG_ap_en f) = true ∧ s.hst.xng.phase
      = 3 ∧ freeTag s.hst = some tag) (onH apOn) 0 16400 15 0) ∧
    ((fun (s : State) (tag : Nat) (f : Nat) => s.hst.inReset = false ∧ s.hst.reads.find? (fun r => r.1 == tag) = some
      (tag, f) ∧ Store.get (fun _ => 0) s.hst.readAt tag + 50 * usTicks ≤ s.fld.now) (let s := onH (fun h =>
      { apOn h with reads := [(5, 0), (6, 0)], holdq := [] }); { s with fld := later 6250 s.fld }) 5 0) ∧
    ((fun (s : State) (f : Nat) (_off : Nat) (_first : Nat) (_last : Nat) (ws : List Word) => s.hst.inReset = false ∧
      fnExists s.hst f = true ∧ f < 64 ∧ s.hst.dstate = 0 ∧ ws ≠ [] ∧ 7 < ws.length) (onH apOn) 0 16400 15 15
      (List.replicate 8 1))) ∧
    (((fun (s : State) (f : Nat) (_off : Nat) (_first : Nat) (_last : Nat) (ws : List Word) => s.hst.inReset = false ∧
      fnExists s.hst f = true ∧ f < 64 ∧ s.hst.dstate = 0 ∧ ws ≠ [] ∧ ws.length ≤ 7 ∧ s.hst.flag (H_FUN_FN_CFG_ap_en
      f) = false) (onH (fun h => h.put (H_FUN_FN_CFG_ap_en 0) 0)) 0 16400 15 15 (List.replicate 3 1)) ∧
    ((fun (s : State) (f : Nat) (_off : Nat) (_first : Nat) (_last : Nat) (ws : List Word) => s.hst.inReset = false ∧
      fnExists s.hst f = true ∧ f < 64 ∧ s.hst.dstate = 0 ∧ ws ≠ [] ∧ ws.length ≤ 7 ∧ s.hst.flag (H_FUN_FN_CFG_ap_en
      f) = true ∧ heldWrites s.hst + ws.length ≤ 4096) (onH apOn) 0 16400 14 7 (List.replicate 7 1)) ∧
    ((fun (s : State) (f : Nat) (data : Word) => s.hst.inReset = false ∧ fnExists s.hst f = true ∧ hasBit data.toNat
      31 = true) (held 0) 0 0x80000000) ∧
    ((fun (s : State) (u : FlowUnit) => s.hst.inReset = false ∧ s.hst.xng.inbox.find? (fun u => u.type == 4) = some
      u) (gotH regc5 (fun h => { h with reads := [(5, 0)] })) regc5)) ∧
    (((fun (s : State) (u : FlowUnit) => s.fld.phase = .running ∧ nextRegMsg s.fld 2 = some u ∧ bitsOf u.header 3 0 =
      1 ∧ bitsOf u.header 27 20 ≠ 0x40) (gotF (regw1 1 0x400000)) (regw1 1 0x400000)) ∧
    ((fun (s : State) (u : FlowUnit) => s.fld.phase = .running ∧ nextRegMsg s.fld 2 = some u) (gotF (regw1 3
      0x400000)) (regw1 3 0x400000)) ∧
    ((fun (s : State) (u : FlowUnit) => s.fld.phase = .running ∧ nextRegMsg s.fld 3 = some u) (gotF regr1) regr1) ∧
    ((fun (s : State) (u : FlowUnit) (fn : Nat) => s.fld.phase = .running ∧ nextRegMsg s.fld 8 = some u ∧ bitsOf
      u.header 23 16 = fn ∧ fn < 0x40) (gotF (fnResetUnit 3 0) (fun f =>
      (((({ f with staged := [(3, 0x10, 1), (4, 0x10, 1)], launch := [lf true 9], arrivals := [lf false 0] }).put
      (F_CFG_LOCK_state 1) 1).put (F_CFG_LOCK_owner 1) 3).put (F_CFG_LOCK_state 2) 1).put (F_CFG_LOCK_owner 2) 9))
      (fnResetUnit 3 0) 3)) ∧
    (∀ s ∈ [(gotF (fnResetUnit 3 0) (fun f =>
      (((({ f with staged := [(3, 0x10, 1), (4, 0x10, 1)], launch := [lf true 9], arrivals := [lf false 0] }).put
      (F_CFG_LOCK_state 1) 1).put (F_CFG_LOCK_owner 1) 3).put (F_CFG_LOCK_state 2) 1).put (F_CFG_LOCK_owner 2) 9))],
      Shape s) :=
  ⟨by decide +kernel, by decide +kernel, by decide +kernel, shapes _ (by decide +kernel)⟩

/-- The premises of `FramesCrossBetweenTheDies` are met. -/
theorem witness_frames_cross_between_the_dies :
    (((fun (s : State) (u : FlowUnit) (l : Link) => s.fld.phase = .running ∧ s.fld.order = .di ∧ takeData s.fld.xng =
      some (u, l)) (gotF (dataUnit true false false [1, 2])) (dataUnit true false false [1, 2])
      ({ (gotF (dataUnit true false false [1, 2])).fld.xng with inbox := [], rxBytes := [1, 2], rxMeta := [0] })) ∧
    ((fun (s : State) (u : FlowUnit) (l : Link) => s.hst.inReset = false ∧ takeData s.hst.xng = some (u, l)) (gotH
      (dataUnit true false false [1, 2])) (dataUnit true false false [1, 2])
      ({ (gotH (dataUnit true false false [1, 2])).hst.xng with inbox := [], rxBytes := [1, 2], rxMeta := [0] })) ∧
    ((fun (s : State) (x : LaunchFrame) (xs : List LaunchFrame) => s.fld.phase = .running ∧ s.fld.arrivals = x :: xs
      ∧ powerState s.fld ≠ 2) (arr (lf false 0)) (lf false 0) ([]))) ∧
    (((fun (s : State) (x : LaunchFrame) => s.fld.phase = .running ∧ s.fld.launch.find? (launchDue s.fld) = some x ∧
      powerState s.fld ≠ 2) (arr (lf false 0)) (lf true 4000)) ∧
    ((fun (s : State) (u : FlowUnit) => s.hst.inReset = false ∧ s.hst.xng.inbox.find? (fun u => u.type == 5) = some
      u) (gotH evt5) evt5) ∧
    ((fun (s : State) (x : TxFrame) (q : Nat) (hi : Bool) => s.hst.inReset = false ∧ s.hst.sending = none ∧
      s.hst.xng.canSend = true ∧ s.hst.holdq = [] ∧ (hi = false → chooseRing s.hst true = none) ∧ chooseRing s.hst hi
      = some q ∧ ringNext s.hst q = some x) (onH (fun h =>
      { (ringOn h).put (H_FUN_Q_CTRL_tx_hi 2) 0 with ready := [txf 2] })) (txf 2) 2 false)) ∧
    (∀ s ∈ [(arr (lf false 0)), (onH (fun h => { (ringOn h).put (H_FUN_Q_CTRL_tx_hi 2) 0 with ready := [txf 2] }))],
      Shape s) :=
  ⟨by decide +kernel, by decide +kernel, shapes _ (by decide +kernel)⟩

/-- The premises of `HostDieResetsAndFaults` are met. -/
theorem witness_host_die_resets_and_faults :
    (((fun (s : State) => s.hst.inReset = true ∧ s.fld.order = .di) ({ runS with hst := {} })) ∧
    ((fun (s : State) (d : Nat) => s.hst.inReset = false ∧ d ≠ s.hst.dstate ∧ d = 0) (onH (fun h =>
      { h with dstate := 3 })) 0) ∧
    ((fun (s : State) (d : Nat) => s.hst.inReset = false ∧ d ≠ s.hst.dstate ∧ d = 3 ∨ d = 4) (onH id) 3)) ∧
    (((fun (s : State) (f : Nat) => s.hst.inReset = false ∧ s.hst.enginesNamed = true ∧ fnExists s.hst f = true ∧ 0 <
      f) (onH vfs) 2) ∧
    ((fun (s : State) => s.hst.inReset = false ∧ fnExists s.hst 0 = true ∧ s.hst.enginesNamed = true) (onH vfs)) ∧
    ((fun (s : State) (code : Nat) (func : Nat) (_place : Nat) => s.hst.inReset = false ∧ code < 4 ∧ func < 64) (onH
      vfs) 0 2 0)) :=
  ⟨by decide +kernel, by decide +kernel⟩

/-- The premises of `HostRingsFollowTheirDriver` are met. -/
theorem witness_host_rings_follow_their_driver :
    (((fun (s : State) (f : Nat) (l : Nat) (_q : Nat) (_data : Word) => s.hst.inReset = false ∧ fnExists s.hst f =
      true ∧ f < 64 ∧ globalQp s.hst f l = none) (onH ringOn) 0 9 0 3) ∧
    ((fun (s : State) (f : Nat) (l : Nat) (q : Nat) (_data : Word) => s.hst.inReset = false ∧ fnExists s.hst f = true
      ∧ f < 64 ∧ globalQp s.hst f l = some q ∧ s.hst.flag (H_FUN_Q_CTRL_tx_en q) = false) (onH (fun h => (ringOn
      h).wrN (H_FUN_Q_CTRL 2) 0)) 0 2 2 0) ∧
    ((fun (s : State) (f : Nat) (l : Nat) (q : Nat) (_data : Word) => s.hst.inReset = false ∧ fnExists s.hst f = true
      ∧ f < 64 ∧ globalQp s.hst f l = some q ∧ s.hst.flag (H_FUN_Q_CTRL_tx_en q) = true) (onH ringOn) 0 2 2 7) ∧
    ((fun (s : State) (f : Nat) (l : Nat) (q : Nat) (_data : Word) => s.hst.inReset = false ∧ fnExists s.hst f = true
      ∧ f < 64 ∧ globalQp s.hst f l = some q ∧ s.hst.flag (H_FUN_Q_CTRL_rx_en q) = false) (onH (fun h => (ringOn
      h).wrN (H_FUN_Q_CTRL 2) 0)) 0 2 2 0) ∧
    ((fun (s : State) (f : Nat) (l : Nat) (q : Nat) (_data : Word) => s.hst.inReset = false ∧ fnExists s.hst f = true
      ∧ f < 64 ∧ globalQp s.hst f l = some q ∧ s.hst.flag (H_FUN_Q_CTRL_rx_en q) = true) (onH ringOn) 0 2 2 7)) ∧
    (((fun (s : State) (f : Nat) (l : Nat) (q : Nat) (_data : Word) => s.hst.inReset = false ∧ fnExists s.hst f = true
      ∧ f < 64 ∧ globalQp s.hst f l = some q ∧ s.hst.flag (H_FUN_Q_CTRL_cq_en q) = false) (onH (fun h => (ringOn
      h).wrN (H_FUN_Q_CTRL 2) 0)) 0 2 2 0) ∧
    ((fun (s : State) (f : Nat) (l : Nat) (q : Nat) (_data : Word) => s.hst.inReset = false ∧ fnExists s.hst f = true
      ∧ f < 64 ∧ globalQp s.hst f l = some q ∧ s.hst.flag (H_FUN_Q_CTRL_cq_en q) = true) (onH ringOn) 0 2 2 7) ∧
    ((fun (s : State) (f : Nat) (q : Nat) (_data : Word) => s.hst.inReset = false ∧ fnExists s.hst f = true ∧ f < 64
      ∧ globalQp s.hst f (s.hst.get (H_FUN_QSEL_qsel f)) = some q ∧ q < 2048 ∧ qpOwner s.hst q = some f ∧
      (s.hst.ready ++ s.hst.crossing ++ s.hst.sending.toList).any (fun x => x.qp == q) = false ∧ bitsOf (s.hst.rdN
      (H_FUN_Q_CTRL q)) 31 29 = 0) (sel2 0) 0 2 3763687424) ∧
    ((fun (s : State) (f : Nat) (q : Nat) (data : Word) => s.hst.inReset = false ∧ fnExists s.hst f = true ∧ f < 64 ∧
      globalQp s.hst f (s.hst.get (H_FUN_QSEL_qsel f)) = some q ∧ q < 2048 ∧ qpOwner s.hst q = some f ∧ (s.hst.ready
      ++ s.hst.crossing ++ s.hst.sending.toList).any (fun x => x.qp == q) = false ∧ hasBit (s.hst.rdN (H_FUN_Q_CTRL
      q)) 31 = true ∧ hasBit data.toNat 31 = true) (sel2 3762569216) 0 2 3763617792) ∧
    ((fun (s : State) (f : Nat) (q : Nat) (data : Word) => s.hst.inReset = false ∧ fnExists s.hst f = true ∧ f < 64 ∧
      globalQp s.hst f (s.hst.get (H_FUN_QSEL_qsel f)) = some q ∧ q < 2048 ∧ qpOwner s.hst q = some f ∧ (s.hst.ready
      ++ s.hst.crossing ++ s.hst.sending.toList).any (fun x => x.qp == q) = false ∧ hasBit (s.hst.rdN (H_FUN_Q_CTRL
      q)) 31 = true ∧ hasBit data.toNat 31 = false) (sel2 3762569216) 0 2 1615085568)) ∧
    (((fun (s : State) (target : Nat) (_cfg : Bool) (_data : Word) => s.hst.inReset = false ∧ target < 64) (onH
      ringOn) 3 true 0x00000010) ∧
    ((fun (s : State) (i : Nat) (w : Nat) (_data : Word) => s.hst.inReset = false ∧ i < 64 ∧ w < 3) (onH (steer
      true)) 5 0 2147488308) ∧
    ((fun (s : State) (v : Nat) => s.hst.inReset = false ∧ fnExists s.hst (v / 256) = true ∧ v / 256 < 64) (onH (fun
      h => { (h.wrN (msixAddr 0 3 3) 1).wrN (H_FUN_FN_CFG 0) 0x10 with bme := [0], msixEn := [0], msixPba := [3] }))
      3) ∧
    ((fun (s : State) (q : Nat) (cause : Nat) (f : Nat) => s.hst.inReset = false ∧ q < 2048 ∧ qpOwner s.hst q = some
      f ∧ modFires s.hst q cause = true) (onH (fun h =>
      { ((ringOn h).wrN (H_FUN_FN_CFG 0) 0x10).setModer 2 { count := 9 } with msixEn := [0] })) 2 0 0) ∧
    ((fun (s : State) (cause : Nat) => s.hst.inReset = false ∧ modFires s.hst 2048 cause = true) (onH (fun h =>
      { ((ringOn h).wrN (H_FUN_FN_CFG 0) 0x10).setModer 2048 { count := 9 } with msixEn := [0] })) 0)) :=
  ⟨by decide +kernel, by decide +kernel, by decide +kernel⟩

/-- The premises of `HostFramesMoveInTheirRings` are met. -/
theorem witness_host_frames_move_in_their_rings :
    (((fun (s : State) (q : Nat) (f : Nat) (ds : List (List Byte)) (_bytes : List Byte) => s.hst.inReset = false ∧
      qpOwner s.hst q = some f ∧ mayFetch s.hst f q = true ∧ wholeFrame ds = true ∧ ds.length ≤ postedTx s.hst q)
      (onH ringOn) 2 0 ([dsc 64 0x9000 0x10000]) (List.replicate 64 1)) ∧
    ((fun (s : State) (q : Nat) (f : Nat) (_cookie : Nat) => s.hst.inReset = false ∧ qpOwner s.hst q = some f ∧
      mayFetch s.hst f q = true ∧ 0 < postedTx s.hst q ∧ cqRoom s.hst q = true ∧ f < 64 ∧ (s.hst.ready ++
      s.hst.crossing ++ s.hst.sending.toList).any (fun x => x.qp == q) = false) (onH ringOn) 2 0 7) ∧
    ((fun (s : State) (_descs : List (List Byte)) (bs : List Byte) (ms : List Nat) (rest : List (List Byte × List
      Nat)) => s.hst.inReset = false ∧ s.hst.rxFrames = (bs, ms) :: rest ∧ steerTargets s.hst bs = []) (onH (fun h =>
      (macRing h).put (H_FUN_FN_CFG_accept_bc 0) 0)) ([dsc 64]) ((List.replicate 6 255 ++ List.replicate 60 1)) ([5,
      6]) ([]))) ∧
    (((fun (s : State) (_descs : List (List Byte)) (bs : List Byte) (ms : List Nat) (rest : List (List Byte × List
      Nat)) (f : Nat) (l : Nat) (q : Nat) (_d : List Byte) => s.hst.inReset = false ∧ s.hst.rxFrames = (bs, ms) ::
      rest ∧ steerTargets s.hst bs = [(f, l)] ∧ globalQp s.hst f l = some q) (onH (fun h => (bcOn h).put
      (H_FUN_FN_CFG_def_qp 0) 2)) ([dsc 256]) ((List.replicate 6 255 ++ List.replicate 60 1)) ([5, 6]) ([]) 0 2 2
      (dsc 256)) ∧
    ((fun (s : State) (n : Nat) (_data : Word) (_hold : Bool) => s.hst.inReset = false ∧ n < 8 ∧ s.hst.sending.any
      (fun x => x.chk.any (fun c => c.1 == n)) = false) (onH id) 3 0x85000002 true) ∧
    ((fun (s : State) (n : Nat) (lo : Nat) (_data : Word) => s.hst.inReset = false ∧ n < 8 ∧ lo < 2 ^ 32 ∧
      s.hst.sending.any (fun x => x.chk.any (fun c => c.1 == n)) = false ∧ ((s.hst.staged.find? (fun e => e.1 == 0 &&
      e.2.1 == H_CHK_RUN_LO n)).map (fun e => e.2.2.toNat)).getD (s.hst.rdN (H_CHK_RUN_LO n)) = lo) (onH (fun h =>
      { h.put (H_CHK_CTRL_poly 3) 3 with staged := [(0, H_CHK_RUN_LO 3, 0x55)] })) 3 85 0x12345678)) :=
  ⟨by decide +kernel, by decide +kernel⟩

/-- The premises of `TwinPairFormsAndReports` are met. -/
theorem witness_twin_pair_forms_and_reports :
    (((fun (s : State) (u : FlowUnit) => s.fld.phase = .running ∧ (takeRole 1 s.fld).map (fun x => x.1) = some u) (tw
      1 (desig 0) [helloOf id]) (helloOf id)) ∧
    ((fun (s : State) (u : FlowUnit) => s.fld.phase = .running ∧ (takeRole 5 s.fld).map (fun x => x.1) = some u) (tw
      1 (fun f => f.put F_TWN_STAT_peer_seen 1) [roleUnit 5 [5, 6, 7]]) (roleUnit 5 [5, 6, 7])) ∧
    ((fun (s : State) => s.fld.phase = .running) (tw 2)) ∧
    ((fun (s : State) (u : FlowUnit) => s.fld.phase = .running ∧ (takeRole 2 s.fld).map (fun x => x.1) = some u) (tw
      2 (fun f => { f.put F_TWN_PEER_role 4 with twn := { f.twn with evL := true } }) [roleUnit 2 [0x313]]) (roleUnit
      2 [0x313])) ∧
    ((fun (s : State) => s.fld.phase = .running ∧ s.fld.role = 2 ∧ (∀ b ∈ s.fld.twn.statusAt, b + 3 * msTicks ≤
      s.fld.now)) (onF (fun f => later 500000 (f.put F_TWN_STAT_role 2))))) ∧
    (((fun (s : State) (u : FlowUnit) => s.fld.phase = .running ∧ (takeRole 3 s.fld).map (fun x => x.1) = some u) (tw
      3 (id) [roleUnit 3 []]) (roleUnit 3 [])) ∧
    ((fun (s : State) (u : FlowUnit) => s.fld.phase = .running ∧ (takeRole 4 s.fld).map (fun x => x.1) = some u) (tw
      2 (fun f => f.put F_TWN_CTRL_want 1) [roleUnit 4 [1]]) (roleUnit 4 [1])) ∧
    ((fun (s : State) => s.fld.phase = .running ∧ wantsActive s.fld ≠ 0 ∧ s.fld.twn.reqSent = false ∧
      s.fld.twn.boundaryB = none ∧ s.fld.twin.phase = 3) (tw 3 (fun f => (f.put F_TWN_CTRL_want 1).put
      F_TWN_STAT_synced 1))) ∧
    ((fun (s : State) (_on : Bool) (ns : Nat) => s.fld.pwr.vddSl = true ∧ 400 ≤ ns ∧ s.fld.powered = false ∧
      s.fld.phase ≠ .released) (inPhase .unpowered) false 400) ∧
    ((fun (s : State) (_on : Bool) (ns : Nat) => s.fld.powered = true ∧ s.fld.pwr.vddSl = true ∧ ns ≤ 200) (tw 3)
      true 200)) ∧
    (((fun (s : State) (_on : Bool) (ns : Nat) => s.fld.powered = true ∧ s.fld.pwr.vddSl = true ∧ 400 ≤ ns) (tw 3)
      true 400) ∧
    ((fun (s : State) (_on : Bool) (ns : Nat) => s.fld.powered = true ∧ s.fld.pwr.vddSl = true ∧ 200 < ns ∧ ns < 400)
      (tw 3) true 300) ∧
    ((fun (s : State) (req : Nat) (data : Word) => s.fld.canWrite req = true ∧ s.fld.phase = .running ∧ hasBit
      data.toNat 8 = false ∧ s.fld.engineRuns 17 = true ∧ s.fld.flag F_TWN_CTRL_enable = false ∧ hasBit data.toNat 31
      = true ∧ s.fld.role = 0 ∧ s.fld.twin.phase = 0) runS 7 0x80000000) ∧
    ((fun (s : State) (req : Nat) (data : Word) => s.fld.canWrite req = true ∧ s.fld.phase = .running ∧ hasBit
      data.toNat 8 = false ∧ s.fld.engineRuns 17 = true ∧ s.fld.flag F_TWN_CTRL_enable = true ∧ hasBit data.toNat 31
      = false ∧ s.fld.role = 2 ∧ s.fld.get F_TWN_PEER_role = 3) (tw 2 (fun f => (f.put F_TWN_CTRL_enable 1).put
      F_TWN_PEER_role 3)) 7 0) ∧
    ((fun (s : State) (req : Nat) (data : Word) => s.fld.canWrite req = true ∧ s.fld.phase = .running ∧ hasBit
      data.toNat 8 = false ∧ s.fld.engineRuns 17 = true ∧ s.fld.flag F_TWN_CTRL_enable = true ∧ hasBit data.toNat 31
      = false ∧ (s.fld.role ≠ 2 ∨ s.fld.get F_TWN_PEER_role ≠ 3)) (tw 3 (fun f => f.put F_TWN_CTRL_enable 1)) 7 0)) :=
  ⟨by decide +kernel, by decide +kernel, by decide +kernel⟩

/-- The premises of `TwinPairChangesRoles` are met. -/
theorem witness_twin_pair_changes_roles :
    ((fun (s : State) (us : List FlowUnit) => s.fld.phase = .running ∧ s.fld.role = 3 ∧ readyRecord s.fld = some us ∧
      s.fld.twn.recFor ≠ some (networkBoundary s.fld)) (tw 3 id recUnits) recUnits) ∧
    ((fun (s : State) => s.fld.phase = .running ∧ readyRecord s.fld = none) (tw 3)) ∧
    ((fun (s : State) => s.fld.phase = .running ∧ s.fld.role = 3 ∧ s.fld.twn.recFor ≠ some (networkBoundary s.fld) ∧
      networkBoundary s.fld + recordTime s.fld ≤ s.fld.sysNs ∧ readyRecord s.fld = none) (tw 3 (at_ 900000))) ∧
    ((fun (s : State) (b : Nat) => s.fld.phase = .running ∧ s.fld.role = 3 ∧ s.fld.engineRuns 17 = true ∧
      s.fld.twn.cause = 3 ∧ s.fld.twn.boundaryB = some b ∧ b ≤ s.fld.sysNs) (tw 3 (dueB 3 true)) 4000) ∧
    ((fun (s : State) (b : Nat) => s.fld.phase = .running ∧ s.fld.engineRuns 17 = true ∧ (s.fld.twn.cause = 1 ∨
      s.fld.twn.cause = 2) ∧ s.fld.twn.aloneAtB = false ∧ s.fld.twn.boundaryB = some b ∧ b ≤ s.fld.sysNs) (tw 3 (dueB
      1 true)) 4000) := by decide +kernel

/-- The premises of `SerialManagerCommands` are met. -/
theorem witness_serial_manager_commands :
    (((fun (s : State) (addr : Nat) (count : Nat) (_period : Nat) => slaveOn s.fld = true ∧ accessBad (selFall s.fld)
      addr count = true) sl 3 1 10) ∧
    ((fun (s : State) (addr : Nat) (count : Nat) (period : Nat) => slaveOn s.fld = true ∧ accessBad (selFall s.fld)
      addr count = false ∧ readLate (selFall s.fld) count period = false) sl 65536 2 40) ∧
    ((fun (s : State) (addr : Nat) (count : Nat) (period : Nat) => slaveOn s.fld = true ∧ accessBad (selFall s.fld)
      addr count = false ∧ readLate (selFall s.fld) count period = true) sl 65536 2 1) ∧
    ((fun (s : State) (addr : Nat) (crc : Nat) (ws : List Word) => slaveOn s.fld = true ∧ s.fld.resetBy = 0 ∧
      accessBad (selFall s.fld) addr ws.length = false ∧ writeCrc addr ws ≠ crc) sl 4194304 5 ([1, 2])) ∧
    ((fun (s : State) (addr : Nat) (crc : Nat) (ws : List Word) => slaveOn s.fld = true ∧ s.fld.resetBy = 0 ∧
      accessBad (selFall s.fld) addr ws.length = false ∧ writeCrc addr ws = crc ∧ (∀ n, n < ws.length → 0x400000 ≤
      addr + 4 * n ∧ addr + 4 * n < 0xE00000)) sl 4194304 (writeCrc 0x400000 [1, 2]) ([1, 2]))) ∧
    (((fun (s : State) => slaveOn s.fld = true) sl) ∧
    ((fun (s : State) (key : Nat) => slaveOn s.fld = true ∧ key ≠ 0xA5) sl 164) ∧
    ((fun (s : State) (key : Nat) => slaveOn s.fld = true ∧ key = 0xA5 ∧ s.fld.phase = .running ∧ s.fld.spi.staged =
      none) (sl0 own40) 165) ∧
    ((fun (s : State) => s.fld.phase = .running ∧ s.fld.get F_SPI_CTRL_role = 1 ∧ s.fld.get F_SPI_MGR_mgr_to_ms ≠ 0 ∧
      s.fld.spi.timedOut = false ∧ s.fld.spi.lastCmdTick + s.fld.get F_SPI_MGR_mgr_to_ms * msTicks ≤ s.fld.now) (sl0
      (fun f => later 500000 ((own40 f).put F_SPI_MGR_mgr_to_ms 2)))) ∧
    ((fun (s : State) (cmd : Nat) (_addr : Nat) => slaveOn s.fld = true ∧ 256 ≤ cmd ∨ ((cmd = 0x0B ∨ cmd = 0x02 ∨ cmd
      = 0x99) ∧ s.fld.phase = .running)) sl 256 4660)) ∧
    (((fun (s : State) (cmd : Nat) (_addr : Nat) => slaveOn s.fld = true ∧ cmd = 0x05 ∨ cmd = 0x9F ∧ s.fld.spi.staged
      = none) sl0 5 0) ∧
    ((fun (s : State) (req : Nat) (data : Word) => s.fld.canWrite req = true ∧ lkDenied s.fld req F_SPI_CTRL = false
      ∧ bitOf data.toNat 31 ≠ s.fld.get F_SPI_CTRL_role ∧ req ≠ 0x40 ∧ s.fld.spi.flash = 0) sl0 3 0) ∧
    ((fun (s : State) (req : Nat) (data : Word) => s.fld.canWrite req = true ∧ lkDenied s.fld req F_SPI_CTRL = false
      ∧ bitOf data.toNat 31 ≠ s.fld.get F_SPI_CTRL_role ∧ s.fld.spi.flash ≠ 0) (sl0 (fun f =>
      { f with spi := { f.spi with flash := 1 } })) 3 0) ∧
    ((fun (s : State) (req : Nat) (_data : Word) => s.fld.canWrite req = true) sl 3 0x00300000) ∧
    ((fun (s : State) (k : Nat) (o : Nat) (_data : Word) => s.fld.phase = .running ∧ k < 16 ∧ (o = 0x10 ∨ o = 0x14 ∨
      o = 0x18)) sl0 2 0x10 3)) :=
  ⟨by decide +kernel, by decide +kernel, by decide +kernel⟩

/-- The premises of `PinsAndPairs` are met. -/
theorem witness_pins_and_pairs :
    (((fun (s : State) (req : Nat) (off : Nat) (_data : Word) => s.fld.canWrite req = true ∧ (off = 0x10 ∨ off = 0x14
      ∨ off = 0x18 ∨ off = 0x1C)) (onF (fun f => (f.put (F_PIN_CFG_owner 9) 5).wrN F_PIN_OUT 0x3300)) 6 16
      0x00FF1230) ∧
    ((fun (s : State) (req : Nat) (n : Nat) (data : Word) => s.fld.canWrite req = true ∧ 4 ≤ n ∧ n < 24 ∧ (13 ≤ n ∧
      hasBit data.toNat 7 = true) ∨ ownerOk (bitsOf data.toNat 31 24) = false) runS 5 13 0xFF000080) ∧
    ((fun (s : State) (req : Nat) (n : Nat) (data : Word) => s.fld.canWrite req = true ∧ 4 ≤ n ∧ n < 24 ∧ (n < 13 ∨
      hasBit data.toNat 7 = false) ∧ ownerOk (bitsOf data.toNat 31 24) = true ∧ lkDenied s.fld req (F_PIN_CFG n) =
      false) runS 5 7 0xFF0000E0) ∧
    ((fun (s : State) (n : Nat) (_rising : Bool) => s.fld.phase = .running ∧ 4 ≤ n ∧ n < 24) runS 9 true)) ∧
    (((fun (s : State) (n : Nat) (_rising : Bool) => s.hst.inReset = false ∧ n < 16) (onH id) 9 true) ∧
    ((fun (s : State) (p : Nat) => p < 2 ∧ s.fld.pwr.vddSl = true ∧ s.fld.powered = true ∧ s.fld.flag
      (F_PIN_PAIR_STAT_disc_fault p) = false ∧ effDisc s.fld p ≤ s.fld.get (F_PIN_PAIR_STAT_run p)) (onF (fun f =>
      (((f.put (F_PIN_PAIR_STAT_run 1) 9).put (F_PIN_PAIR_CFG_disc 1) 9).put (F_PIN_PAIR_STAT_state 1) 1).put
      (F_PIN_PAIR_GATE_queues 1) 3)) 1) ∧
    ((fun (s : State) (req : Nat) (p : Nat) (act : Bool) (_data : Word) => s.fld.canWrite req = true ∧ p < 2 ∧
      lkDenied s.fld req (if act then F_PIN_PAIR_ACT p else F_PIN_PAIR_GATE p) = false) runS 5 1 true 0x00FFFFF1) ∧
    ((fun (s : State) (k : Nat) (cause : Nat) => s.fld.phase = .running ∧ k < 16 ∧ winModFires s.fld k cause = true)
      (onF (fun f => (setWin 0x28 0x00010000 f).setWinModer 0 { count := 4 })) 0 0)) :=
  ⟨by decide +kernel, by decide +kernel⟩

/-- The premises of `CountersTablesAndWatchdog` are met. -/
theorem witness_counters_tables_and_watchdog :
    (((fun (s : State) (req : Nat) (_data : Word) => s.fld.canWrite req = true ∧ req ≤ 0x40) (onF cnted) 5 3) ∧
    ((fun (s : State) (serial : Bool) (vals : List (Nat × Nat)) (g : Nat) => s.fld.phase = .running ∧ (if serial then
      s.fld.snapSerial else s.fld.snapHost).copying = some (vals, g)) (onF (fun f => let g := cnted f;
      { g with snapHost := { g.snapHost with copying := some ([(cPort 3 0, 1)], 3) } })) false ([(cPort 3 0, 1)]) 3) ∧
    ((fun (s : State) => s.fld.phase = .running ∧ powerState s.fld ≠ 0) (onF (fun f => f.put F_PWR_STATE_state 1))) ∧
    ((fun (s : State) => s.fld.phase = .running ∧ powerState s.fld = 0 ∧ s.fld.flt.badWords = []) runS) ∧
    ((fun (s : State) (a : Nat) (m : Nat) => s.fld.phase = .running ∧ powerState s.fld = 0 ∧ s.fld.flt.badWords =
      [(a, m)] ∧ 0 < m ∧ m ≠ 3) (onF (fun f => { f with flt := { f.flt with badWords := [(0x480000, 1)] } })) 4718592
      1)) ∧
    (((fun (s : State) (a : Nat) (m : Nat) => s.fld.phase = .running ∧ powerState s.fld = 0 ∧ s.fld.flt.badWords =
      [(a, m)] ∧ m = 3 ∧ (tblRow a).isSome = true) (onF (fun f =>
      { f with flt := { f.flt with badWords := [(0x480000, 3)] } })) 4718592 3) ∧
    ((fun (s : State) (k : Nat) => s.fld.phase = .running ∧ k < 19) (keyState
      { op := 3, cmd := some (0xC8, [], []) }) 16) ∧
    ((fun (s : State) (req : Nat) (data : Word) => s.fld.canWrite req = true ∧ hasBit data.toNat 31 = true ∧
      s.fld.flag F_FLT_ST_STAT_busy = false) runS 3 0xC0000002) ∧
    ((fun (s : State) (m : Nat) (force : Bool) => s.fld.phase = .running ∧ s.fld.flt.stChecking = some (m, force) ∧ m
      < 4) (chk 0 true) 0 true)) :=
  ⟨by decide +kernel, by decide +kernel⟩

/-- The premises of `PerturbationForTest` are met. -/
theorem witness_perturbation_for_test :
    (((fun (s : State) (req : Nat) (data : Word) => s.fld.canWrite req = true ∧ req < 256 ∧ s.fld.flag F_PTB_ARM_armed
      = false ∨ ptbOwned s.fld req = true ∧ bitsOf data.toNat 31 16 = 0xD0B0) runS 5 0xD0B00000) ∧
    ((fun (s : State) (req : Nat) (data : Word) => s.fld.canWrite req = true ∧ req < 256 ∧ ptbOwned s.fld req = true
      ∧ bitsOf data.toNat 31 16 = 0) (armd (fun f => f.wrN F_PTB_XC 7)) 5 0) ∧
    ((fun (s : State) (req : Nat) (_data : Word) => s.fld.canWrite req = true ∧ req < 256 ∧ s.fld.flag
      F_PTB_ARM_armed = true ∧ ptbOwned s.fld req = false) armd 6 0xD0B00000) ∧
    ((fun (s : State) (req : Nat) (_data : Word) => s.fld.canWrite req = true ∧ req < 256 ∧ ptbOwned s.fld req =
      false) armd 4 0x0503FFFF) ∧
    ((fun (s : State) (req : Nat) (_data : Word) => s.fld.canWrite req = true ∧ req < 256 ∧ ptbOwned s.fld req =
      true) armd 5 0x0503FFFF)) ∧
    (((fun (s : State) (req : Nat) (_data : Word) (_who : LinkId) => s.fld.canWrite req = true ∧ req < 256 ∧ ptbOwned
      s.fld req = false) armd 3 0x20030005 .field) ∧
    ((fun (s : State) (req : Nat) (data : Word) (who : LinkId) => s.fld.canWrite req = true ∧ req < 256 ∧ ptbOwned
      s.fld req = true ∧ ptbLink s.fld (bitsOf data.toNat 31 30) = some who ∧ bitsOf data.toNat 17 16 = 1) armd 5
      0x40010000 .twin) ∧
    ((fun (s : State) (req : Nat) (data : Word) (_who : LinkId) => s.fld.canWrite req = true ∧ req < 256 ∧ ptbOwned
      s.fld req = true ∧ ptbLink s.fld (bitsOf data.toNat 31 30) = none ∧ bitsOf data.toNat 17 16 = 1) (armd (fun f
      => { f with order := .fo })) 5 0x01010000 .field) ∧
    ((fun (s : State) (req : Nat) (data : Word) (_who : LinkId) => s.fld.canWrite req = true ∧ req < 256 ∧ ptbOwned
      s.fld req = true ∧ (bitsOf data.toNat 17 16 = 0 ∨ hasBit data.toNat 29 = true ∧ bitsOf data.toNat 17 16 ≠ 1))
      armd 5 0x24030005 .field) ∧
    ((fun (s : State) (req : Nat) (data : Word) => s.fld.canWrite req = true ∧ req < 256 ∧ ptbOwned s.fld req = true
      ∧ hasBit data.toNat 31 = true ∧ bitsOf data.toNat 29 28 = 1 ∧ (tblRow (bitsOf data.toNat 23 0)).isSome = true)
      armd 5 0xD0480004)) ∧
    (((fun (s : State) (req : Nat) (data : Word) => s.fld.canWrite req = true ∧ req < 256 ∧ ptbOwned s.fld req = true
      ∧ hasBit data.toNat 31 = true ∧ bitsOf data.toNat 29 28 = 1 ∧ (tblRow (bitsOf data.toNat 23 0)).isSome = false)
      armd 5 0x90F00000) ∧
    ((fun (s : State) (req : Nat) (data : Word) => s.fld.canWrite req = true ∧ req < 256 ∧ ptbOwned s.fld req = true
      ∧ hasBit data.toNat 31 = true ∧ bitsOf data.toNat 29 28 = 0 ∧ bitsOf data.toNat 23 0 < 16384) armd 5
      0x80000007) ∧
    ((fun (s : State) (req : Nat) (_c : Nat) (_data : Word) => s.fld.canWrite req = true ∧ req < 256 ∧ ptbOwned s.fld
      req = false) armd 6 1 0xA83F0003) ∧
    ((fun (s : State) (req : Nat) (c : Nat) (data : Word) => s.fld.canWrite req = true ∧ req < 256 ∧ ptbOwned s.fld
      req = true ∧ hasBit data.toNat 31 = true ∧ bitsOf data.toNat 30 29 = 1 ∧ bitsOf data.toNat 21 16 < 43 ∧ bitsOf
      data.toNat 28 27 = c ∧ c < 3 ∧ s.fld.cfg.tmr.any (fun e => e.1 == bitsOf data.toNat 21 16) = false) armd 5 1
      0xA8000003) ∧
    ((fun (s : State) (req : Nat) (c : Nat) (data : Word) => s.fld.canWrite req = true ∧ req < 256 ∧ ptbOwned s.fld
      req = true ∧ hasBit data.toNat 31 = true ∧ bitsOf data.toNat 30 29 = 1 ∧ bitsOf data.toNat 21 16 < 43 ∧ bitsOf
      data.toNat 28 27 = c ∧ c < 3) (armd (fun f => { f with cfg := { f.cfg with tmr := [(3, 0, 1)] } })) 5 1
      0xA8030001)) ∧
    (((fun (s : State) (req : Nat) (_c : Nat) (data : Word) => s.fld.canWrite req = true ∧ req < 256 ∧ ptbOwned s.fld
      req = true ∧ hasBit data.toNat 31 = true ∧ bitsOf data.toNat 30 29 = 2 ∧ bitsOf data.toNat 21 16 < 43 ∧
      (spreadMask (tmrMask (tmrReg (bitsOf data.toNat 21 16))) (bitsOf data.toNat 15 0) 32 0 = 0 ∨ bitsOf data.toNat
      15 0 = 0xFFFF)) armd 5 0 0xC003FFFF) ∧
    ((fun (s : State) (req : Nat) (_c : Nat) (data : Word) => s.fld.canWrite req = true ∧ req < 256 ∧ ptbOwned s.fld
      req = true ∧ hasBit data.toNat 31 = true ∧ bitsOf data.toNat 30 29 = 1 ∧ 43 ≤ bitsOf data.toNat 21 16) armd 5 1
      0xA83F0003) ∧
    ((fun (s : State) (req : Nat) (data : Word) => s.fld.canWrite req = true ∧ req < 256 ∧ ptbOwned s.fld req = true
      ∧ hasBit data.toNat 31 = true ∧ lockState s.fld (bitsOf data.toNat 4 0) = 1) (armd (fun f => (f.put
      (F_CFG_LOCK_state 3) 1).put (F_CFG_LOCK_owner 3) 9)) 5 0x80000003) ∧
    ((fun (s : State) (req : Nat) (data : Word) => s.fld.canWrite req = true ∧ req < 256 ∧ ptbOwned s.fld req = true
      ∧ hasBit data.toNat 31 = true ∧ lockState s.fld (bitsOf data.toNat 4 0) ≠ 1) armd 5 0x80000004) ∧
    ((fun (s : State) => s.fld.phase = .running ∧ hasBit (s.fld.rdN F_PTB_ACTIVE) 1 = true ∧ s.fld.ptb.holdUntil ≤
      s.fld.now) (armd (fun f => (f.wrN F_PTB_HOLD 5).wrN F_PTB_ACTIVE 3)))) ∧
    (((fun (s : State) => s.fld.phase = .running ∧ s.fld.flag F_PTB_ARM_armed = true ∧ lifeOver s.fld.now
      s.fld.ptb.lifeFrom (s.fld.get F_PTB_LIFE_life_ms) = true) (armd (fun f => later 100000000 (((f.put
      F_PTB_LIFE_life_ms 3).wrN F_PTB_HOLD 5).wrN F_PTB_ACTIVE 3)))) ∧
    ((fun (s : State) => s.hst.inReset = false ∧ s.hst.flag H_PTB_ARM_armed = true ∧ lifeOver s.fld.now
      s.hst.ptb.lifeFrom (s.hst.get H_PTB_LIFE_life_ms) = true)
      ({ onH (fun h => ((((h.put H_PTB_LIFE_life_ms 3).put H_PTB_ARM_armed 1).put H_PTB_ARM_owner 0).wrN H_PTB_LANE 5)) with fld := later 100000000 runS.fld })) ∧
    ((fun (s : State) (data : Word) => s.hst.inReset = false ∧ s.hst.flag H_PTB_ARM_armed = false ∧ bitsOf data.toNat
      31 16 = 0xD0B0) (onH id) 0xD0B00000) ∧
    ((fun (s : State) (_data : Word) => s.hst.inReset = false ∧ s.hst.flag H_PTB_ARM_armed = false) (onH id) 5) ∧
    ((fun (s : State) (_data : Word) => s.hst.inReset = false ∧ hostPtbOwned s.hst 0 = true) (onH (fun h => (h.put
      H_PTB_ARM_armed 1).put H_PTB_ARM_owner 0)) 0xB0010009)) ∧
    (((fun (s : State) (data : Word) => s.hst.inReset = false ∧ hostPtbOwned s.hst 0 = true ∧ bitsOf data.toNat 17 16
      = 1) (onH (fun h => (h.put H_PTB_ARM_armed 1).put H_PTB_ARM_owner 0)) 0x80010009) ∧
    ((fun (s : State) (data : Word) => s.hst.inReset = false ∧ hostPtbOwned s.hst 0 = true ∧ hasBit data.toNat 31 =
      true ∧ hostPlaceUsed s.hst (bitsOf data.toNat 29 28) = false) (onH (fun h => (h.put H_PTB_ARM_armed 1).put
      H_PTB_ARM_owner 0)) 0x80010009) ∧
    ((fun (s : State) (data : Word) => s.hst.inReset = false ∧ hostPtbOwned s.hst 0 = true ∧ hasBit data.toNat 31 =
      true ∧ hostPlaceUsed s.hst (bitsOf data.toNat 29 28) = true ∧ hasBit data.toNat 30 = false) (onH (fun h =>
      (h.put H_PTB_ARM_armed 1).put H_PTB_ARM_owner 0)) 0xB0010009) ∧
    ((fun (s : State) (data : Word) => s.hst.inReset = false ∧ hostPtbOwned s.hst 0 = true ∧ hasBit data.toNat 31 =
      false) (onH (fun h => (h.put H_PTB_ARM_armed 1).put H_PTB_ARM_owner 0)) 0x70010009)) ∧
    (∀ s ∈ [(armd (fun f => { f with cfg := { f.cfg with tmr := [(3, 0, 1)] } }))], Shape s) :=
  ⟨by decide +kernel, by decide +kernel, by decide +kernel, by decide +kernel, by decide +kernel, by decide +kernel, shapes _ (by decide +kernel)⟩

end Sys2Proof.Tests
end

section
/-! The frames of the ways in which a command reaches its agents, and that every command keeps to the frame of its own
agent (O4). -/

namespace Sys2Proof.Machine

variable {c : Instr} {s t : State}

/-! ### The ways to reach one die -/

/-- What acts through `onField`, and so through `onRun`, `onWrite`, `onItem` and `onItemWrite`, moves the field die
alone. -/
theorem State.fieldOnly_of_onField {g : FieldDie → FieldDie} (h : s.onField g = .next t) : FieldOnly s t := by
  cases h
  exact ⟨rfl, rfl, rfl, rfl⟩

/-- What acts through `onHost`, and so through `onFn`, moves the host die alone. -/
theorem State.hostOnly_of_onHost {g : HostDie → HostDie} (h : s.onHost g = .next t) : HostOnly s t := by
  cases h
  exact ⟨rfl, rfl, rfl, rfl⟩

/-! ### The ways to reach the key and the flash -/

theorem KeyChip.load_mem (off : Nat) (data : List Byte) (k : KeyChip) : (k.load off data).mem = k.mem := by
  induction data generalizing off k with
  | nil => rfl
  | cons b bs ih => exact ih _ _

theorem carrierOff_mem (f : FieldDie) (k : KeyChip) : (carrierOff f k).mem = k.mem := by
  unfold carrierOff
  split <;> rfl

theorem State.fabricStops_hst {g : FieldDie → FieldDie} (h : s.fabricStops g = .next t) : t.hst = s.hst := by
  cases h
  rfl

theorem State.fieldReset_hst {bit : Nat} (h : s.fieldReset bit = .next t) : t.hst = s.hst :=
  State.fabricStops_hst (g := fun f => resetField { f with resetBy := setBit f.resetBy bit }) h

theorem State.resetIf_hst {seen : Bool} {bit : Nat} (h : s.resetIf seen bit = .next t) : t.hst = s.hst := by
  cases seen with
  | true => exact State.fieldReset_hst h
  | false =>
    cases h
    rfl

theorem State.onAccess_hst {g : FieldDie → FieldDie} (h : s.onAccess g = .next t) : t.hst = s.hst := by
  unfold State.onAccess at h
  dsimp only at h
  split at h
  · exact State.fieldReset_hst (s := { s with fld := g s.fld }) h
  · cases h
    rfl

/-- A fault of the table engine and a time-out of the reader can cut the key off, and reach neither the host die nor the
flash. -/
theorem State.keyMayStop_hst_flash {g : FieldDie → FieldDie} (h : s.keyMayStop g = .next t) :
    t.hst = s.hst ∧ t.flash = s.flash := by
  unfold State.keyMayStop at h
  split at h
  all_goals
    cases h
    exact ⟨rfl, rfl⟩

/-! ### The frame of a command -/

/-- The frame of a command that does not act at the host die: the host die stands, and the bytes of key and flash do so
unless the command is one that can write them. -/
structure OffHostFrame (c : Instr) (s t : State) : Prop where
  hst : t.hst = s.hst
  keyMem : writesKey c = false → t.key.mem = s.key.mem
  flash : writesFlash c = false → t.flash = s.flash

/-- The frame of a command, by the die at which it acts. -/
def CommandFrame (c : Instr) (s t : State) : Prop :=
  match reachesHost c with
  | true => HostOnly s t
  | false => OffHostFrame c s t

theorem CommandFrame.ofHostOnly (hc : reachesHost c = true) (h : HostOnly s t) : CommandFrame c s t := by
  unfold CommandFrame
  rwa [hc]

theorem CommandFrame.ofOffHost (hc : reachesHost c = false) (h : OffHostFrame c s t) : CommandFrame c s t := by
  unfold CommandFrame
  rwa [hc]

/-! ### The frame by the way a command acts -/

theorem CommandFrame.ofFieldOnly (hc : reachesHost c = false) (h : FieldOnly s t) : CommandFrame c s t :=
  .ofOffHost hc ⟨h.hst, fun _ => by rw [h.key], fun _ => h.flash⟩

theorem CommandFrame.onField {g : FieldDie → FieldDie} (hc : reachesHost c = false) (h : s.onField g = .next t) :
    CommandFrame c s t := .ofFieldOnly hc (State.fieldOnly_of_onField h)

theorem CommandFrame.onHost {g : HostDie → HostDie} (hc : reachesHost c = true) (h : s.onHost g = .next t) :
    CommandFrame c s t := .ofHostOnly hc (State.hostOnly_of_onHost h)

theorem CommandFrame.onLink {l : LinkId} {gf gt : FieldDie → FieldDie} {gh : HostDie → HostDie}
    (hc : reachesHost c = decide (l = .host)) (h : s.onLink l gf gt gh = .next t) : CommandFrame c s t := by
  cases l with
  | field | twin => exact .onField hc h
  | host => exact .onHost hc h

theorem CommandFrame.onPtb {host : Bool} {req fa ha data : Nat} (hc : reachesHost c = host)
    (h : s.onPtb host req fa ha data = .next t) : CommandFrame c s t := by
  cases host with
  | false => exact .onField hc h
  | true => exact .onHost hc h

/-- A command that can write both the key and the flash has only the host die to leave alone. -/
theorem CommandFrame.ofWriter (hc : reachesHost c = false) (hk : writesKey c = true) (hf : writesFlash c = true)
    (h : t.hst = s.hst) : CommandFrame c s t :=
  .ofOffHost hc ⟨h, fun hn => absurd (hk.symm.trans hn) (by decide), fun hn => absurd (hf.symm.trans hn) (by decide)⟩

/-- A command that can write the key has the host die and the flash to leave alone. -/
theorem CommandFrame.ofKeyWriter (hc : reachesHost c = false) (hk : writesKey c = true)
    (h : t.hst = s.hst ∧ t.flash = s.flash) : CommandFrame c s t :=
  .ofOffHost hc ⟨h.1, fun hn => absurd (hk.symm.trans hn) (by decide), fun _ => h.2⟩

/-- A command that can write the flash has the host die and the key to leave alone. -/
theorem CommandFrame.ofFlashWriter (hc : reachesHost c = false) (hf : writesFlash c = true)
    (h : t.hst = s.hst ∧ t.key = s.key) : CommandFrame c s t :=
  .ofOffHost hc ⟨h.1, fun _ => by rw [h.2], fun hn => absurd (hf.symm.trans hn) (by decide)⟩

/-! ### Resets, the safelight supply and darkroom (R162, R166, R847) -/

/-- A pulse on a reset pin: long enough it resets, short enough it does nothing, between the two it may do either; while
the die is held it is at most noted. -/
theorem resetPulse_hst {live long short : Prop} [Decidable live] [Decidable long] [Decidable short] {bit : Nat}
    {seen : Bool} {f f' : FieldDie}
    (h : (if live then
        if long then s.fieldReset bit else if short then .next s else ({ s with fld := f } : State).resetIf seen bit
      else .next { s with fld := f' }) = .next t) : t.hst = s.hst := by
  split at h
  · split at h
    · exact State.fieldReset_hst h
    · split at h
      · cases h
        rfl
      · exact State.resetIf_hst (s := { s with fld := f }) h
  · cases h
    rfl

theorem execPinReset_hst {lowNs : Nat} (h : execPinReset lowNs s = .next t) : t.hst = s.hst := by
  unfold execPinReset at h
  exact resetPulse_hst h

theorem execPowerGoodReset_hst {lowNs : Nat} (h : execPowerGoodReset lowNs s = .next t) : t.hst = s.hst := by
  unfold execPowerGoodReset at h
  exact resetPulse_hst h

theorem execSoftwareReset_hst {req : Nat} {data : Word} (h : execSoftwareReset req data s = .next t) :
    t.hst = s.hst := by
  unfold execSoftwareReset at h
  split at h
  · exact State.fieldReset_hst h
  · cases h
    rfl

theorem execVddSlLoss_hst {mv : Nat} (h : execVddSlLoss mv s = .next t) : t.hst = s.hst := by
  unfold execVddSlLoss at h
  split at h
  · split at h
    · exact State.fabricStops_hst h
    · split at h
      · cases h
        rfl
      · split at h
        · exact State.fabricStops_hst (s := { s with fld := s.fld.free.2 }) h
        · cases h
          rfl
  · cases h
    rfl

theorem execDarkPointOfNoReturn_hst (h : execDarkPointOfNoReturn s = .next t) : t.hst = s.hst := by
  unfold execDarkPointOfNoReturn at h
  split at h
  · exact State.fabricStops_hst h
  · cases h
    rfl

theorem execColdReset_fieldOnly (h : execColdReset s = .next t) : FieldOnly s t := by
  unfold execColdReset at h
  split at h
  all_goals
    cases h
    exact ⟨rfl, rfl, rfl, rfl⟩

/-! ### Operations of the serial flash (R755, R756) -/

theorem execFlashOperationDone_hst_key (h : execFlashOperationDone s = .next t) : t.hst = s.hst ∧ t.key = s.key := by
  unfold execFlashOperationDone at h
  split at h
  all_goals
    cases h
    exact ⟨rfl, rfl⟩

theorem execFlashOperationTimeout_hst_key (h : execFlashOperationTimeout s = .next t) :
    t.hst = s.hst ∧ t.key = s.key := by
  unfold execFlashOperationTimeout at h
  split at h
  all_goals
    cases h
    exact ⟨rfl, rfl⟩

/-! ### Commands of the key and its reader (R193, R221 to R223) -/

/-- What the commands of the reader and the key that program nothing leave as it was. -/
structure KeyReadFrame (s t : State) : Prop where
  hst : t.hst = s.hst
  mem : t.key.mem = s.key.mem
  flash : t.flash = s.flash

theorem CommandFrame.ofKeyRead (hc : reachesHost c = false) (h : KeyReadFrame s t) : CommandFrame c s t :=
  .ofOffHost hc ⟨h.hst, fun _ => h.mem, fun _ => h.flash⟩

theorem execInventory_frame {others : Nat} (h : execInventory others s = .next t) : KeyReadFrame s t := by
  unfold execInventory at h
  split at h
  · split at h
    all_goals
      cases h
      exact ⟨rfl, rfl, rfl⟩
  · cases h
    exact ⟨rfl, rfl, rfl⟩

theorem execLoadBuffer_frame {off : Nat} {data : List Byte} (h : execLoadBuffer off data s = .next t) :
    KeyReadFrame s t := by
  unfold execLoadBuffer at h
  split at h
  · cases h
    exact ⟨rfl, KeyChip.load_mem off data s.key, rfl⟩
  · cases h
    exact ⟨rfl, rfl, rfl⟩

theorem execVerifySlot_frame {slot size : Nat} (h : execVerifySlot slot size s = .next t) : KeyReadFrame s t := by
  unfold execVerifySlot at h
  split at h
  all_goals
    cases h
    exact ⟨rfl, rfl, rfl⟩

theorem execKeyReply_frame (h : execKeyReply s = .next t) : KeyReadFrame s t := by
  unfold execKeyReply at h
  split at h
  · split at h
    · cases h
      exact ⟨rfl, carrierOff_mem _ s.key, rfl⟩
    · cases h
      exact ⟨rfl, rfl, rfl⟩
  · cases h
    exact ⟨rfl, rfl, rfl⟩

theorem execProgramPage_hst_flash {txn slot page crc : Nat} (h : execProgramPage txn slot page crc s = .next t) :
    t.hst = s.hst ∧ t.flash = s.flash := by
  unfold execProgramPage at h
  dsimp only at h
  split_ifs at h
  all_goals
    cases h
    exact ⟨rfl, rfl⟩

theorem execWritePointer_hst_flash {txn ptr : Nat} {data : List Byte} (h : execWritePointer txn ptr data s = .next t) :
    t.hst = s.hst ∧ t.flash = s.flash := by
  unfold execWritePointer at h
  dsimp only at h
  split_ifs at h
  all_goals
    cases h
    exact ⟨rfl, rfl⟩

theorem execKeyReplyTimeout_hst_flash (h : execKeyReplyTimeout s = .next t) : t.hst = s.hst ∧ t.flash = s.flash := by
  unfold execKeyReplyTimeout at h
  split at h
  · cases h
    exact ⟨rfl, rfl⟩
  · split at h
    · exact State.keyMayStop_hst_flash h
    · cases h
      exact ⟨rfl, rfl⟩

theorem execWatchdog_hst_flash {inst : Nat} (h : execWatchdog inst s = .next t) :
    t.hst = s.hst ∧ t.flash = s.flash := by
  unfold execWatchdog at h
  split at h
  · exact State.keyMayStop_hst_flash h
  · cases h
    exact ⟨rfl, rfl⟩

theorem execScrubPass_hst_flash (h : execScrubPass s = .next t) : t.hst = s.hst ∧ t.flash = s.flash := by
  unfold execScrubPass at h
  exact State.keyMayStop_hst_flash h

/-! ### Reset of the host die (R167, R715) -/

theorem execHostReset_hostOnly (h : execHostReset s = .next t) : HostOnly s t := by
  cases h
  exact ⟨rfl, rfl, rfl, rfl⟩

theorem execHostResetRelease_hostOnly (h : execHostResetRelease s = .next t) : HostOnly s t := by
  unfold execHostResetRelease at h
  split at h
  all_goals
    cases h
    exact ⟨rfl, rfl, rfl, rfl⟩

/-! ### Commands that name their die by an operand -/

theorem execRegisterWrite_frame {req addr be : Nat} {data : Word} (h : execRegisterWrite req addr be data s = .next t) :
    CommandFrame (.registerWrite req addr be data) s t := by
  unfold execRegisterWrite at h
  split at h
  next hlt => exact .ofWriter (decide_eq_false (Nat.not_le.2 hlt)) rfl rfl (State.onAccess_hst h)
  next hge =>
    have hc : reachesHost (.registerWrite req addr be data) = true := decide_eq_true (Nat.not_lt.1 hge)
    split_ifs at h
    all_goals exact .onHost hc h

theorem execTsqPop_frame {req addr : Nat} (h : execTsqPop req addr s = .next t) :
    CommandFrame (.tsqPop req addr) s t := by
  unfold execTsqPop at h
  split at h
  next hlt => exact .onField (decide_eq_false (Nat.not_le.2 hlt)) h
  next hge => exact .onHost (decide_eq_true (Nat.not_lt.1 hge)) h

theorem execInterruptModeration_frame {qp cause : Nat} (h : execInterruptModeration qp cause s = .next t) :
    CommandFrame (.interruptModeration qp cause) s t := by
  unfold execInterruptModeration at h
  split at h
  next hlt => exact .onHost (decide_eq_true hlt) h
  next hge => exact .onField (decide_eq_false hge) h

theorem execRetrain_frame {l : LinkId} {req : Nat} {data : Word} (h : execRetrain l req data s = .next t) :
    CommandFrame (.retrain l req data) s t := by
  cases l with
  | field | twin => exact .onField rfl h
  | host => exact .onHost rfl h

theorem execPtbLifetimeExpiry_frame {host : Bool} (h : execPtbLifetimeExpiry host s = .next t) :
    CommandFrame (.ptbLifetimeExpiry host) s t := by
  cases host with
  | false => exact .onField rfl h
  | true => exact .onHost rfl h

/-! ### Commands whose effect is written out in the shared operation -/

theorem execWakeCause_fieldOnly {bit : Nat} (h : execWakeCause bit s = .next t) : FieldOnly s t := by
  unfold execWakeCause at h
  exact State.fieldOnly_of_onField h

theorem execOverVoltageTurnOff_fieldOnly {mv : Nat} (h : execOverVoltageTurnOff mv s = .next t) : FieldOnly s t := by
  unfold execOverVoltageTurnOff at h
  exact State.fieldOnly_of_onField h

theorem execDmaError_hostOnly {qp cookie : Nat} (h : execDmaError qp cookie s = .next t) : HostOnly s t := by
  unfold execDmaError at h
  exact State.hostOnly_of_onHost h

theorem execHostFaultLatch_hostOnly {code func place : Nat} (h : execHostFaultLatch code func place s = .next t) :
    HostOnly s t := by
  unfold execHostFaultLatch at h
  exact State.hostOnly_of_onHost h

/-! ### Every command -/

/-- Every command keeps to its frame: by the shared operation through which it acts, or by its own lemma. The last line is
every other command of the field die, which acts through `onField`. -/
theorem exec_commandFrame (h : exec c s = .next t) : CommandFrame c s t := by
  cases c with
  | pinReset => exact .ofWriter rfl rfl rfl (execPinReset_hst h)
  | powerGoodReset => exact .ofWriter rfl rfl rfl (execPowerGoodReset_hst h)
  | softwareReset => exact .ofWriter rfl rfl rfl (execSoftwareReset_hst h)
  | vddSlLoss => exact .ofWriter rfl rfl rfl (execVddSlLoss_hst h)
  | darkPointOfNoReturn => exact .ofWriter rfl rfl rfl (execDarkPointOfNoReturn_hst h)
  | regw | write => exact .ofWriter rfl rfl rfl (State.onAccess_hst h)
  | wakeCause => exact .ofFieldOnly rfl (execWakeCause_fieldOnly h)
  | overVoltageTurnOff => exact .ofFieldOnly rfl (execOverVoltageTurnOff_fieldOnly h)
  | dmaError => exact .ofHostOnly rfl (execDmaError_hostOnly h)
  | hostFaultLatch => exact .ofHostOnly rfl (execHostFaultLatch_hostOnly h)
  | coldReset => exact .ofFieldOnly rfl (execColdReset_fieldOnly h)
  | flashOperationDone => exact .ofFlashWriter rfl rfl (execFlashOperationDone_hst_key h)
  | flashOperationTimeout => exact .ofFlashWriter rfl rfl (execFlashOperationTimeout_hst_key h)
  | inventory => exact .ofKeyRead rfl (execInventory_frame h)
  | loadBuffer => exact .ofKeyRead rfl (execLoadBuffer_frame h)
  | verifySlot => exact .ofKeyRead rfl (execVerifySlot_frame h)
  | keyReply => exact .ofKeyRead rfl (execKeyReply_frame h)
  | programPage => exact .ofKeyWriter rfl rfl (execProgramPage_hst_flash h)
  | writePointer => exact .ofKeyWriter rfl rfl (execWritePointer_hst_flash h)
  | keyReplyTimeout => exact .ofKeyWriter rfl rfl (execKeyReplyTimeout_hst_flash h)
  | watchdog => exact .ofKeyWriter rfl rfl (execWatchdog_hst_flash h)
  | scrubPass => exact .ofKeyWriter rfl rfl (execScrubPass_hst_flash h)
  | registerWrite => exact execRegisterWrite_frame h
  | tsqPop => exact execTsqPop_frame h
  | interruptModeration => exact execInterruptModeration_frame h
  | retrain => exact execRetrain_frame h
  | ptbLifetimeExpiry => exact execPtbLifetimeExpiry_frame h
  | ptbArm | ptbLane | ptbAck | ptbEcc => exact .onPtb rfl h
  | flowUnitReceive | ackSend | replayTimeout | laneFailure | spareReceive | spareRepeat | spareDataSeen
  | trainingLanePhase | trainingRestart | trainReceive | trainEchoReceive | crossingTrainingComplete | data =>
    exact .onLink rfl h
  | hostReset => exact .ofHostOnly rfl (execHostReset_hostOnly h)
  | hostResetRelease => exact .ofHostOnly rfl (execHostResetRelease_hostOnly h)
  | hostPowerStateChange | hotReset | flr | txTailDoorbell | rxTailDoorbell | cqHeadDoorbell | ringEnableWrite
  | functionConfigWrite | txFetchDone | txFrameCross | rxDelivery | steeringEntryWrite | vectorUnmask
  | chkPolyWrite | chkRunWrite | chkHoldWrite | apertureRead | apertureReadTimeout | apertureWrite | holdPurge | regc
  | evt | tsr | timeMessageReceive | ptmDialogue | corrSnap | hostPinEdge | ptbDma =>
    exact .onHost rfl h
  | _ => exact .onField rfl h

/-! ### The four parts of the frame -/

/-- The frame of a command gives each agent that the command does not name. -/
theorem CommandFrame.agents (h : CommandFrame c s t) :
    (reachesHost c = false → t.hst = s.hst) ∧ (reachesHost c = true → t.fld = s.fld) ∧
    (writesKey c = false → t.key.mem = s.key.mem) ∧ (writesFlash c = false → t.flash = s.flash) := by
  unfold CommandFrame at h
  split at h
  next hc =>
    exact ⟨fun hn => absurd (hc.symm.trans hn) (by decide), fun _ => h.fld, fun _ => by rw [h.key], fun _ => h.flash⟩
  next hc => exact ⟨fun _ => h.hst, fun hn => absurd (hc.symm.trans hn) (by decide), h.keyMem, h.flash⟩

/-- Settles O4: every command keeps to the frame of the die at which it acts. -/
theorem commandsReachTheirOwnAgentOnly : Obligations.CommandsReachTheirOwnAgentOnly := by
  unfold Obligations.CommandsReachTheirOwnAgentOnly
  exact fun _ _ _ h => (exec_commandFrame h).agents

end Sys2Proof.Machine
end

section
/-! What the end of a command on the field die leaves alone besides registers: frames, copies, outputs and counters. -/

namespace Sys2Proof.Machine

variable {s t : State} {f g : FieldDie}

/-! ### Counters -/

/-- A counter after another or the same has advanced (R788). -/
theorem FieldDie.cntAt_countN (f : FieldDie) (a b k : Nat) :
    (f.countN a k).cntAt b = if b = a then (f.cntAt a + k) % 2 ^ 64 else f.cntAt b :=
  Store.get_set _ f.cnt a b _

theorem FieldDie.cntAt_count (f : FieldDie) (a b : Nat) :
    (f.count a).cntAt b = if b = a then (f.cntAt a + 1) % 2 ^ 64 else f.cntAt b :=
  f.cntAt_countN a b 1

theorem FieldDie.cntAt_eq (h : g.cnt = f.cnt) (a : Nat) : g.cntAt a = f.cntAt a := by
  unfold FieldDie.cntAt
  rw [h]

/-- The counters of ports lie below those of links. -/
theorem cPort_lt_cXng {n k : Nat} (hn : n < 17) (hk : k < 256) : cPort n k < cXng 0 := by
  unfold cPort cXng
  omega

/-! ### What the end of a command moves besides registers -/

/-- From `f` to `g` messages have at most been queued and sent: frames and copies stand, outputs are added, and only the
counters of the links' own sending move. -/
structure SendSame (f g : FieldDie) : Prop where
  buf : g.buf = f.buf
  out : f.out ⊆ g.out
  cnt : ∀ a, a ≠ cXng 0 → a ≠ cXng 14 → a ≠ cTwin 0 → g.cntAt a = f.cntAt a

theorem SendSame.refl (f : FieldDie) : SendSame f f := ⟨rfl, fun _ h => h, fun _ _ _ _ => rfl⟩

theorem SendSame.trans {h : FieldDie} (a : SendSame f g) (b : SendSame g h) : SendSame f h :=
  ⟨b.buf.trans a.buf, fun _ ho => b.out (a.out ho), fun x h0 h14 ht => (b.cnt x h0 h14 ht).trans (a.cnt x h0 h14 ht)⟩

/-- A step that leaves frames, outputs and counters as they are. -/
theorem SendSame.ofEq (hb : g.buf = f.buf) (ho : g.out = f.out) (hc : g.cnt = f.cnt) : SendSame f g :=
  ⟨hb, fun _ h => ho ▸ h, fun a _ _ _ => FieldDie.cntAt_eq hc a⟩

theorem FieldDie.emit_sendSame (f : FieldDie) (o : Output) : SendSame f (f.emit o) :=
  ⟨rfl, List.subset_append_left _ _, fun _ _ _ _ => rfl⟩

theorem FieldDie.setFlag_sendSame (f : FieldDie) (a bit : Nat) : SendSame f (f.setFlag a bit) :=
  .ofEq (f.setFlag_buf a bit) (f.setFlag_out a bit) (f.setFlag_cnt a bit)

theorem FieldDie.queueEvt_sendSame (f : FieldDie) (u : FlowUnit) : SendSame f (f.queueEvt u) := by
  unfold FieldDie.queueEvt
  split
  · exact .ofEq rfl rfl rfl
  · refine SendSame.trans ?_ (FieldDie.setFlag_sendSame _ _ _)
    refine ⟨rfl, fun _ h => h, fun a _ h14 _ => ?_⟩
    exact (FieldDie.cntAt_count _ (cXng 14) a).trans (if_neg h14)

theorem FieldDie.raise_sendSame (f : FieldDie) (a bit : Nat) : SendSame f (f.raise a bit) :=
  (f.setFlag_sendSame a bit).trans (FieldDie.queueEvt_sendSame _ _)

theorem FieldDie.emitUnit_sendSame (f : FieldDie) (who : LinkId) (seed : Nat) (u : FlowUnit) :
    SendSame f (f.emitUnit who seed u) :=
  (f.emit_sendSame _).trans (FieldDie.emit_sendSame _ _)

theorem FieldDie.count_link_sendSame (f : FieldDie) (who : LinkId) :
    SendSame f (f.count (if who = .twin then cTwin 0 else cXng 0)) := by
  refine ⟨rfl, fun _ h => h, fun a h0 _ ht => ?_⟩
  rw [FieldDie.cntAt_count, if_neg]
  split
  · exact ht
  · exact h0

theorem FieldDie.setLink_sendSame (f : FieldDie) (who : LinkId) (k : Link → Link) : SendSame f (f.setLink who k) := by
  unfold FieldDie.setLink
  split
  all_goals exact .ofEq rfl rfl rfl

theorem FieldDie.putUnit_sendSame (f : FieldDie) (who : LinkId) (seed : Nat) (u : FlowUnit) :
    SendSame f (f.putUnit who seed u) := by
  unfold FieldDie.putUnit
  refine (f.count_link_sendSame who).trans ?_
  generalize f.count _ = f
  have hfree : SendSame f f.free.2 := .ofEq rfl rfl rfl
  dsimp only
  generalize (if who = .twin then f.twin else f.xng) = l
  split
  · exact (f.setLink_sendSame who _).trans (FieldDie.emit_sendSame _ _)
  · split
    · split
      · exact hfree.trans (FieldDie.emit_sendSame _ _)
      · exact hfree.trans (FieldDie.emitUnit_sendSame _ _ _ _)
    · exact f.emitUnit_sendSame who seed u

theorem FieldDie.sendXng_sendSame (f : FieldDie) (u : FlowUnit) : SendSame f (f.sendXng u) := by
  have hsent : SendSame f { f with xng := { f.xng with tick := f.now }.sent u } := .ofEq rfl rfl rfl
  unfold FieldDie.sendXng
  dsimp only
  split
  · exact hsent.trans (FieldDie.putUnit_sendSame _ _ _ _)
  · exact hsent

theorem FieldDie.sendTwin_sendSame (f : FieldDie) (u : FlowUnit) : SendSame f (f.sendTwin u) :=
  SendSame.trans (g := { f with twin := { f.twin with tick := f.now }.sent u }) (.ofEq rfl rfl rfl)
    (FieldDie.putUnit_sendSame _ _ _ _)

theorem pumpXng_sendSame (k : Nat) (f : FieldDie) : SendSame f (pumpXng k f) := by
  induction k generalizing f with
  | zero => exact .refl f
  | succ k ih =>
    unfold pumpXng
    split
    · exact .refl f
    · split
      · refine SendSame.trans ?_ (ih _)
        refine SendSame.trans ?_ (FieldDie.sendXng_sendSame _ _)
        exact .ofEq rfl rfl rfl
      · split
        · refine SendSame.trans ?_ (ih _)
          refine SendSame.trans ?_ (FieldDie.sendXng_sendSame _ _)
          exact .ofEq rfl rfl rfl
        · exact .refl f

theorem pumpTwin_sendSame (k : Nat) (f : FieldDie) : SendSame f (pumpTwin k f) := by
  induction k generalizing f with
  | zero => exact .refl f
  | succ k ih =>
    unfold pumpTwin
    split
    · exact .refl f
    · split
      · refine SendSame.trans ?_ (ih _)
        refine SendSame.trans ?_ (FieldDie.sendTwin_sendSame _ _)
        exact .ofEq rfl rfl rfl
      · exact .refl f

theorem refreshCover_sendSame (f : FieldDie) : SendSame f (refreshCover f) := by
  unfold refreshCover
  split
  · exact .refl f
  · exact SendSame.trans (g := f.put F_FLT_COVER_cover (coverNow f)) (.ofEq rfl rfl rfl) (FieldDie.raise_sendSame _ _ _)

/-- The end of a command forgets frames that nothing needs, and else queues and sends messages. -/
theorem settle_cases (f : FieldDie) : settle f = f ∨ ∃ g, SendSame f g ∧ settle f = forgetFrames g := by
  unfold settle
  split
  · exact .inr ⟨_, (refreshCover_sendSame f).trans ((pumpXng_sendSame 320 _).trans (pumpTwin_sendSame 64 _)), rfl⟩
  · exact .inl rfl

theorem settle_cntAt (f : FieldDie) {a : Nat} (h0 : a ≠ cXng 0) (h14 : a ≠ cXng 14) (ht : a ≠ cTwin 0) :
    (settle f).cntAt a = f.cntAt a := by
  obtain h | ⟨g, hs, h⟩ := settle_cases f
  · rw [h]
  · rw [h]
    exact hs.cnt a h0 h14 ht

theorem settle_cntAt_port (f : FieldDie) {n k : Nat} (hn : n < 17) (hk : k < 256) :
    (settle f).cntAt (cPort n k) = f.cntAt (cPort n k) := by
  have h := cPort_lt_cXng hn hk
  exact settle_cntAt f h.ne (h.trans (by decide)).ne (h.trans (by decide)).ne

theorem settle_queued (f : FieldDie) : (settle f).buf.queued = f.buf.queued := by
  obtain h | ⟨g, hs, h⟩ := settle_cases f
  · rw [h]
  · rw [h, ← hs.buf]
    rfl

theorem settle_waiting (f : FieldDie) : (settle f).buf.waiting = f.buf.waiting := by
  obtain h | ⟨g, hs, h⟩ := settle_cases f
  · rw [h]
  · rw [h, ← hs.buf]
    rfl

theorem settle_nextId (f : FieldDie) : (settle f).buf.nextId = f.buf.nextId := by
  obtain h | ⟨g, hs, h⟩ := settle_cases f
  · rw [h]
  · rw [h, ← hs.buf]
    rfl

/-- A frame in reception is not forgotten. -/
theorem settle_mem_frames {fr : Frame} (hm : fr ∈ f.buf.frames) (hrx : fr.rx = true) : fr ∈ (settle f).buf.frames := by
  obtain h | ⟨g, hs, h⟩ := settle_cases f
  · rwa [h]
  · rw [h]
    exact List.mem_filter.2 ⟨hs.buf ▸ hm, by simp [hrx]⟩

theorem settle_mem_out {o : Output} (ho : o ∈ f.out) : o ∈ (settle f).out := by
  obtain h | ⟨g, hs, h⟩ := settle_cases f
  · rwa [h]
  · rw [h]
    exact hs.out ho

/-! ### From a meaning on the die to the frames of Safety -/

/-- A command for port `n` of a running die acts, and ends as every command does. -/
theorem State.onItem_running {n lim : Nat} {g : FieldDie → FieldDie} (hr : s.fld.phase = .running) (hn : n < lim) :
    s.onItem n lim g = .next { s with fld := settle (g s.fld) } := by
  simp [State.onItem, State.onRun, State.onField, FieldDie.isRunning, hr, hn]

theorem FieldFrame.ofSettle {but : List Nat} {f' : FieldDie} (hrest : g.rest = f'.rest) (hcnt : g.cnt = f'.cnt)
    (hq : g.buf.queued = f'.buf.queued) (hw : g.buf.waiting = f'.buf.waiting)
    (hr : ∀ a, a ∉ but → g.rd a = s.fld.rd a) :
    FieldFrame but f' s { s with fld := settle g } where
  only := ⟨rfl, rfl, rfl, rfl⟩
  rest := by
    refine Eq.trans ?_ hrest
    simp only [FieldDie.rest, settle_core, settle_pwr]
  cnts a h0 h14 ht := (settle_cntAt g h0 h14 ht).trans (FieldDie.cntAt_eq hcnt a)
  queued := (settle_queued g).trans hq
  waiting := (settle_waiting g).trans hw
  regs a ha hc := by
    obtain ⟨h1, h2, h3⟩ : a ≠ F_FLT_COVER ∧ a ≠ F_FLT_EVT2 ∧ a ≠ F_XNG_EVT := by simpa [coverRegs] using hc
    exact (settle_rd g a h1 h2 h3).trans (hr a ha)

end Sys2Proof.Machine
end

section
/-! Frames in reception (O30): what a frame start and a frame's end do, clause by clause of the statement. Each clause holds
but the one of a frame with a MAC condition, which holds as `exec_frameEnd_rejected` has it and not as the statement does. -/

namespace Sys2Proof.Machine

variable {s t : State} {f g : FieldDie} {n : Nat}

/-! ### Frames and outputs are put aside with the registers -/

theorem FieldDie.emit_rest (f : FieldDie) (o : Output) : (f.emit o).rest = f.rest := rfl

theorem FieldDie.setFrame_rest (f : FieldDie) (id : Nat) (k : Frame → Frame) : (f.setFrame id k).rest = f.rest := rfl

theorem resumeAssembly_rest (n : Nat) (f : FieldDie) : (resumeAssembly n f).rest = f.rest := rfl

/-! ### The beginning of a frame (R113, R317, R324) -/

/-- A transmission on a segment is noted in the segment's own record alone. -/
theorem segSeen_segs (n : Nat) (f : FieldDie) : ∃ xs, segSeen n f = { f with segs := xs } := by
  unfold segSeen
  split
  · exact ⟨_, rfl⟩
  · exact ⟨_, rfl⟩

/-- What a frame start finds at the port: it is taken for a frame, or refused under one reason. -/
theorem frameStart_of_up {phase : Nat} (hup : stateUp (portState f n) = true)
    (hrx : f.inRx n = none ∨ (n < 12 ∧ f.buf.frames.any (fun fr => fr.port == n && fr.held) = false))
    (hseg : 12 ≤ n → (f.segX (n - 12)).silentWait = false) :
    frameStart n phase f =
      if powerState f = 2 then (segSeen n f).countDrop n 6
      else if portState f n = 4 ∧ (f.portX n).sleepSent = true then (segSeen n f).countDrop n 9
      else beginRx n phase (holdAssembly n (segSeen n f)) := by
  have hfree : ¬ ((f.inRx n ≠ none ∧ (12 ≤ n ∨ f.buf.frames.any (fun fr => fr.port == n && fr.held))) ∨
      (12 ≤ n ∧ (f.segX (n - 12)).silentWait)) := by
    rintro (⟨hsome, hbusy⟩ | ⟨hn, hsilent⟩)
    · obtain hnone | ⟨hn, hheld⟩ := hrx
      · exact hsome hnone
      · rw [hheld] at hbusy
        simp at hbusy
        omega
    · simp [hseg hn] at hsilent
  obtain ⟨xs, hseen⟩ := segSeen_segs n f
  unfold frameStart
  dsimp only
  rw [if_neg hfree, hseen, if_neg (by simp [hup])]
  rfl

/-- An up port with nothing in its way opens a new frame with its max_frame (R324). -/
theorem exec_frameStart_opens {phase : Nat} (hr : s.fld.phase = .running) (hn : n < 16)
    (hup : stateUp (portState s.fld n) = true)
    (hrx : s.fld.inRx n = none ∨ (n < 12 ∧ s.fld.buf.frames.any (fun fr => fr.port == n && fr.held) = false))
    (hdark : powerState s.fld ≠ 2) (hsleep : ¬ (portState s.fld n = 4 ∧ (s.fld.portX n).sleepSent = true))
    (hseg : 12 ≤ n → (s.fld.segX (n - 12)).silentWait = false) :
    ∃ t, exec (.frameStart n phase) s = .next t ∧ t.fld.buf.nextId = s.fld.buf.nextId + 1 ∧
      (∃ fr ∈ t.fld.buf.frames, fr.id = s.fld.buf.nextId ∧ fr.port = n ∧ fr.rx = true ∧ fr.bytes = [] ∧
        fr.maxFrame = s.fld.get (F_PORT_MAXFRM_max_frame n) ∧ fr.ts = ingressTs s.fld n phase) ∧
      FieldFrame [] { s.fld with segs := t.fld.segs } s t := by
  have hstart := frameStart_of_up (phase := phase) hup hrx hseg
  rw [if_neg hdark, if_neg hsleep] at hstart
  obtain ⟨xs, hseen⟩ := segSeen_segs n s.fld
  rw [hseen] at hstart
  refine ⟨_, State.onItem_running hr hn, ?_, ?_, ?_⟩
  · rw [hstart]
    exact settle_nextId _
  · rw [hstart]
    refine ⟨_, settle_mem_frames (List.mem_append_right _ List.mem_cons_self) rfl, rfl, rfl, rfl, rfl, ?_, rfl⟩
    exact if_neg (by omega)
  · refine FieldFrame.ofSettle ?_ ?_ ?_ ?_ fun a _ => ?_
    all_goals simp only [settle_segs, hstart]
    all_goals rfl

/-- A frame start that is refused counts under its reason and moves nothing else. -/
theorem exec_frameStart_refused {phase code : Nat} (hr : s.fld.phase = .running) (hn : n < 16) (hc : code < 64)
    (hstart : frameStart n phase s.fld = (segSeen n s.fld).countDrop n code) :
    ∃ t, exec (.frameStart n phase) s = .next t ∧
      t.fld.cntAt (cPort n (32 + code)) = (s.fld.cntAt (cPort n (32 + code)) + 1) % 2 ^ 64 ∧
      FieldFrame [] { s.fld.count (cPort n (32 + code)) with segs := t.fld.segs } s t := by
  obtain ⟨xs, hseen⟩ := segSeen_segs n s.fld
  rw [hseen] at hstart
  refine ⟨_, State.onItem_running hr hn, ?_, ?_⟩
  · rw [hstart, settle_cntAt_port _ (by omega) (by omega)]
    exact (FieldDie.cntAt_count _ _ _).trans (if_pos rfl)
  · refine FieldFrame.ofSettle ?_ ?_ ?_ ?_ fun a _ => ?_
    all_goals simp only [settle_segs, hstart]
    all_goals rfl

/-- In DARK_ENTRY a frame start counts under reason 0x06 alone (R113). -/
theorem exec_frameStart_darkEntry {phase : Nat} (hr : s.fld.phase = .running) (hn : n < 16)
    (hup : stateUp (portState s.fld n) = true) (hrx : s.fld.inRx n = none)
    (hseg : 12 ≤ n → (s.fld.segX (n - 12)).silentWait = false) (hdark : powerState s.fld = 2) :
    ∃ t, exec (.frameStart n phase) s = .next t ∧
      t.fld.cntAt (cPort n 38) = (s.fld.cntAt (cPort n 38) + 1) % 2 ^ 64 ∧
      FieldFrame [] { s.fld.count (cPort n 38) with segs := t.fld.segs } s t :=
  exec_frameStart_refused hr hn (by decide) ((frameStart_of_up hup (.inl hrx) hseg).trans (if_pos hdark))

/-- After a TC10 sleep request a frame start counts under reason 0x09 alone (R317). -/
theorem exec_frameStart_sleepSent {phase : Nat} (hr : s.fld.phase = .running) (hn : n < 16)
    (hup : stateUp (portState s.fld n) = true) (hrx : s.fld.inRx n = none)
    (hseg : 12 ≤ n → (s.fld.segX (n - 12)).silentWait = false) (hdark : powerState s.fld ≠ 2)
    (hst : portState s.fld n = 4) (hsent : (s.fld.portX n).sleepSent = true) :
    ∃ t, exec (.frameStart n phase) s = .next t ∧
      t.fld.cntAt (cPort n 41) = (s.fld.cntAt (cPort n 41) + 1) % 2 ^ 64 ∧
      FieldFrame [] { s.fld.count (cPort n 41) with segs := t.fld.segs } s t :=
  exec_frameStart_refused hr hn (by decide)
    (((frameStart_of_up hup (.inl hrx) hseg).trans (if_neg hdark)).trans (if_pos ⟨hst, hsent⟩))

/-- A verify frame is answered, and moves nothing else (R317, R329). -/
theorem exec_frameEnd_verify {frags : Nat} {bytes : List Byte} {fr : Frame} (hr : s.fld.phase = .running) (hn : n < 12)
    (hrx : s.fld.inRx n = some fr) :
    ∃ t, exec (.frameEnd n bytes 0x20 frags) s = .next t ∧ Output.verify n true ∈ t.fld.out ∧
      FieldFrame [] s.fld s t := by
  have hend : frameEnd n bytes 0x20 frags s.fld =
      resumeAssembly n
        ((s.fld.setFrame fr.id (fun x => { x with rx := false, dropped := true })).emit (.verify n true)) := by
    unfold frameEnd
    rw [if_neg (by simp [hrx]), if_pos ⟨rfl, hn⟩]
    unfold verifyReceived
    rw [hrx]
  refine ⟨_, State.onItem_running hr (by omega), ?_, ?_⟩
  · rw [hend]
    refine settle_mem_out ?_
    exact List.mem_append_right _ List.mem_cons_self
  · refine FieldFrame.ofSettle ?_ ?_ ?_ ?_ fun a _ => ?_
    all_goals rw [hend]
    · rw [resumeAssembly_rest, FieldDie.emit_rest, FieldDie.setFrame_rest]
    all_goals rfl

/-! ### What the end of a frame leaves alone -/

/-- From `f` to `g` only queues, frames and their registers have moved, and none of the first 64 counters of a port with a
MAC, where what its MAC receives and discards is counted (Table 20.2). -/
structure EndSame (f g : FieldDie) : Prop where
  low : LowSame f g
  cnt : ∀ n k, n < 16 → k < 64 → g.cntAt (cPort n k) = f.cntAt (cPort n k)

theorem EndSame.refl (f : FieldDie) : EndSame f f := ⟨.refl f, fun _ _ _ _ => rfl⟩

theorem EndSame.trans {h : FieldDie} (a : EndSame f g) (b : EndSame g h) : EndSame f h :=
  ⟨a.low.trans b.low, fun n k hn hk => (b.cnt n k hn hk).trans (a.cnt n k hn hk)⟩

/-- A step that counts nothing. -/
theorem LowSame.endSame (h : LowSame f g) (hc : g.cnt = f.cnt) : EndSame f g :=
  ⟨h, fun _ _ _ _ => FieldDie.cntAt_eq hc _⟩

theorem EndSame.ofEq (hs : g.side = f.side) (hr : g.reg = f.reg) (hc : g.cnt = f.cnt) : EndSame f g :=
  (LowSame.ofEq hs hr).endSame hc

theorem setFrame_endSame (id : Nat) (k : Frame → Frame) (f : FieldDie) : EndSame f (f.setFrame id k) := .ofEq rfl rfl rfl

theorem count_endSame (f : FieldDie) (a : Nat) (h : ∀ n k, n < 16 → k < 64 → cPort n k ≠ a) :
    EndSame f (f.count a) :=
  ⟨low_count f a, fun n k hn hk => (f.cntAt_count a _).trans (if_neg (h n k hn hk))⟩

theorem raise_endSame (f : FieldDie) (a bit : Nat) (ha : 0x140000 ≤ a) : EndSame f (f.raise a bit) := by
  refine ⟨low_raise f a bit ha, fun n k hn hk => ?_⟩
  have h : cPort n k < cXng 0 := cPort_lt_cXng (by omega) (by omega)
  exact (f.raise_sendSame a bit).cnt _ h.ne (h.trans (by decide)).ne (h.trans (by decide)).ne

theorem forAll_endSame {α : Type} (k : α → FieldDie → FieldDie) (h : ∀ x f, EndSame f (k x f)) (xs : List α)
    (f : FieldDie) : EndSame f (forAll xs k f) := by
  unfold forAll
  induction xs generalizing f with
  | nil => exact .refl f
  | cons x xs ih => exact (h x f).trans (ih (k x f))

/-! ### Charges and copies -/

theorem chargeSub_cnt (n q c : Nat) (r : Bool) (f : FieldDie) : (chargeSub n q c r f).cnt = f.cnt := by
  unfold chargeSub refreshPool
  dsimp only
  split
  all_goals simp only [FieldDie.put_cnt, FieldDie.wrN_cnt]

theorem chargeSub_endSame (n q c : Nat) (r : Bool) (f : FieldDie) : EndSame f (chargeSub n q c r f) :=
  (chargeSub_low n q c r f).endSame (chargeSub_cnt n q c r f)

theorem dropFrameCopies_endSame (id re : Nat) (f : FieldDie) : EndSame f (dropFrameCopies id re f) := by
  refine ⟨dropFrameCopies_low id re f, fun n k hn hk => ?_⟩
  unfold dropFrameCopies
  exact (forAll_endSame releaseCopy (fun (c : Copy) => chargeSub_endSame c.port c.queue c.cells c.reserve) _ _).cnt n k hn hk

theorem noteDrained_endSame (n : Nat) (f : FieldDie) : EndSame f (noteDrained n f) := by
  unfold noteDrained
  dsimp only
  split
  · exact .ofEq (setPortX_side f n _ fun _ => rfl) rfl rfl
  · exact .refl f

theorem settleFrame_endSame (id len : Nat) (f : FieldDie) : EndSame f (settleFrame id len f) := by
  unfold settleFrame
  extract_lets n reduce mine sending excess charged shortened drained waiting queued
  have hcharged : EndSame f charged :=
    forAll_endSame _ (fun (c : Copy) => chargeSub_endSame c.port c.queue _ c.reserve) excess f
  have hshortened : EndSame charged shortened := by
    refine .ofEq ?_ rfl rfl
    simp only [shortened, FieldDie.side, FieldDie.rest, FieldDie.core, List.map_map]
    rfl
  have hdrained : EndSame shortened drained := forAll_endSame _ (fun (c : Copy) => noteDrained_endSame c.port) _ _
  exact ((hcharged.trans hshortened).trans hdrained).trans (.ofEq rfl rfl rfl)

/-! ### Timestamps, meters, octet sums and streams -/

theorem tsqPush_host_endSame (e : TsEntry) (f : FieldDie) : EndSame f (tsqPush 16 e f) := by
  unfold tsqPush
  split
  · exact .refl f
  · split
    · exact .ofEq rfl rfl rfl
    · refine EndSame.trans ?_ (raise_endSame _ _ _ (by decide))
      refine EndSame.trans ?_ ((low_put _ _ _ (by decide)).endSame rfl)
      exact count_endSame f (cPort 16 28) fun n k hn hk => by unfold cPort; omega

theorem stageDrop_endSame (fr : Frame) (f : FieldDie) : EndSame f (stageDrop fr 0x30 f) := by
  unfold stageDrop FieldDie.countDrop
  refine EndSame.trans ?_ (setFrame_endSame _ _ _)
  refine EndSame.trans (count_endSame f (cPort fr.port 80) ?_) ?_
  · intro n k hn hk
    unfold cPort
    omega
  · unfold tsqFrame
    split
    · exact tsqPush_host_endSame _ _
    · exact .refl _

theorem meterReturn_endSame (m b k : Nat) (f : FieldDie) : EndSame f (meterReturn m b k f) := by
  refine (meterReturn_low m b k f).endSame ?_
  unfold meterReturn
  split
  all_goals rfl

/-- What a meter gives back to a frame metered with the provisional length. -/
theorem meterRefund_endSame (m : Nat) (b k : Nat) (f : FieldDie) :
    EndSame f (if stage4Frozen f then f else (meterReturn m b k f).count (cMeter m 3)) := by
  split
  · exact .refl f
  · exact (meterReturn_endSame m b k f).trans (count_endSame _ (cMeter m 3) fun n k hn hk => by unfold cPort cMeter; omega)

theorem octetRefund_endSame (w cyc v : Nat) (f : FieldDie) :
    EndSame f (if stage4Frozen f then f else setOctetSum w cyc v f) := by
  split
  · exact .refl f
  · refine (setOctetSum_low w cyc v f).endSame ?_
    unfold setOctetSum
    rfl

theorem settleStage4_endSame (fr : Frame) (len : Nat) (f : FieldDie) : EndSame f (settleStage4 fr len f) := by
  unfold settleStage4
  rcases fr.metered with _ | ⟨m, ex, p⟩ <;> rcases fr.octets with _ | ⟨w, cyc, q⟩
  · exact .refl f
  · exact octetRefund_endSame w cyc _ f
  · exact meterRefund_endSame m _ _ f
  · exact (meterRefund_endSame m _ _ f).trans (octetRefund_endSame w cyc _ _)

theorem revertStage4_endSame (fr : Frame) (f : FieldDie) : EndSame f (revertStage4 fr f) := by
  unfold revertStage4
  rcases fr.metered with _ | ⟨m, ex, p⟩ <;> rcases fr.octets with _ | ⟨w, cyc, q⟩
  · exact .refl f
  · exact octetRefund_endSame w cyc _ f
  · exact meterRefund_endSame m _ _ f
  · exact (meterRefund_endSame m _ _ f).trans (octetRefund_endSame w cyc _ _)

theorem settleRate_endSame (id len : Nat) (f : FieldDie) : EndSame f (settleRate id len f) := by
  unfold settleRate forRange
  refine forAll_endSame _ (fun n f => forAll_endSame _ (fun c f => ?_) _ f) _ f
  split
  · exact .refl f
  · exact .ofEq (setGateX_side f n _ fun _ => rfl) rfl rfl

theorem oversizeStream_endSame (i : Nat) (blocks : Bool) (f : FieldDie) : EndSame f (oversizeStream i blocks f) := by
  unfold oversizeStream
  split
  · unfold blockStream
    split
    · exact .refl f
    · refine EndSame.trans ?_ (raise_endSame _ _ _ (by decide))
      refine EndSame.trans ?_ ((low_put _ _ _ (by decide)).endSame rfl)
      exact (low_wrN f _ _ (by unfold streamStatusAddr; omega)).endSame rfl
  · exact .refl f

/-! ### The verdict of the MAC -/

/-- Under a reason a frame counts once at its port, unless an early pass has dropped it; beyond that its copies, charges
and refunds move (R326, R327, R461). -/
theorem rejectFrame_endSame (fr : Frame) (re : Nat) (f : FieldDie) :
    EndSame (if fr.dropped then f else f.countDrop fr.port re) (rejectFrame fr re f) := by
  unfold rejectFrame
  dsimp only
  generalize (if fr.dropped then f else f.countDrop fr.port re) = f
  refine EndSame.trans ?_ (setFrame_endSame _ _ _)
  exact ((revertStage4_endSame fr f).trans (settleRate_endSame _ _ _)).trans (dropFrameCopies_endSame _ _ _)

/-- An accepted frame counts with its bytes at its port; beyond that its copies, charges and refunds move (R458, R460). -/
theorem acceptFrame_endSame (fr : Frame) (f : FieldDie) :
    EndSame ((f.count (cPort fr.port 0)).countN (cPort fr.port 1) fr.bytes.length) (acceptFrame fr f) := by
  unfold acceptFrame
  dsimp only
  generalize (f.count (cPort fr.port 0)).countN (cPort fr.port 1) fr.bytes.length = f
  refine EndSame.trans ?_ (settleFrame_endSame _ _ _)
  have hset : EndSame f ((settleStage4 fr fr.bytes.length (settleRate fr.id fr.bytes.length f)).setFrame fr.id
      (fun x => { x with rx := false, accepted := true, metered := none, octets := none })) :=
    ((settleRate_endSame _ _ f).trans (settleStage4_endSame fr _ _)).trans (setFrame_endSame _ _ _)
  split
  · refine EndSame.trans ?_ (oversizeStream_endSame _ _ _)
    refine EndSame.trans ?_ (dropFrameCopies_endSame _ _ _)
    refine (hset.trans (stageDrop_endSame fr _)).trans ?_
    exact count_endSame _ (cStream (fr.stream.getD 0) 2) fun n k hn hk => by unfold cPort cStream; omega
  · exact hset

/-! ### The frame of the end of a reception -/

/-- As `side`, with the whole records of ports and gates put aside. -/
def FieldDie.bare (f : FieldDie) : FieldDie := { f.side with ports := [], gates := [] }

/-- From `f` to `g` only queues, frames, the records of ports and gates, and the registers of port `n` have moved. -/
structure RxSame (n : Nat) (f g : FieldDie) : Prop where
  bare : g.bare = f.bare
  rd : ∀ a, a < 0x140000 → a ∉ portRegs n → g.rd a = f.rd a

theorem RxSame.trans {h : FieldDie} (a : RxSame n f g) (b : RxSame n g h) : RxSame n f h :=
  ⟨b.bare.trans a.bare, fun x hx hp => (b.rd x hx hp).trans (a.rd x hx hp)⟩

theorem RxSame.ofEq (hb : g.bare = f.bare) (hr : g.reg = f.reg) : RxSame n f g := ⟨hb, fun a _ _ => FieldDie.rd_eq hr a⟩

theorem RxSame.refl (f : FieldDie) : RxSame n f f := ⟨rfl, fun _ _ _ => rfl⟩

theorem countN_rxSame (f : FieldDie) (a k : Nat) : RxSame n f (f.countN a k) := .ofEq rfl rfl

theorem LowSame.rxSame (h : LowSame f g) : RxSame n f g :=
  ⟨congrArg (fun x : FieldDie => { x with ports := [], gates := [] }) h.side, fun a ha _ => h.rd a ha⟩

/-- The records of ports and gates are all that `bare` forgets of `side`. -/
theorem FieldDie.side_of_bare (h : g.bare = f.bare) : g.side = { f with ports := g.ports, gates := g.gates }.side := by
  have hg : g.side = { g.bare with ports := g.ports.map PortX.strip, gates := g.gates.map GateX.strip } := rfl
  rw [hg, h]
  rfl

/-- A command that ends a reception keeps the frame of its port. -/
theorem PortFrame.ofSettle {f' : FieldDie} (h : RxSame n f' g) (hreg : f'.reg = s.fld.reg) :
    PortFrame n [] { f' with ports := (settle g).ports, gates := (settle g).gates } s { s with fld := settle g } where
  only := ⟨rfl, rfl, rfl, rfl⟩
  side := by
    rw [FieldDie.side_eq (settle_core g), settle_ports, settle_gates]
    exact FieldDie.side_of_bare h.bare
  regs a ha hp hc := by
    obtain ⟨h1, h2, h3⟩ : a ≠ F_FLT_COVER ∧ a ≠ F_FLT_EVT2 ∧ a ≠ F_XNG_EVT := by simpa [coverRegs] using hc
    rw [settle_rd g a h1 h2 h3, h.rd a ha (by simpa using hp)]
    exact FieldDie.rd_eq hreg a

/-! ### The frame in reception -/

theorem FieldDie.port_of_inRx {fr : Frame} (h : f.inRx n = some fr) : fr.port = n := by
  have := List.find?_some h
  simp only [Bool.and_eq_true, beq_iff_eq] at this
  exact this.1.1

/-- The bytes that arrive join the frame in reception. -/
theorem inRx_takeBytes {fr : Frame} (bs : List Byte) (h : f.inRx n = some fr) :
    (takeBytes n bs f).inRx n = some { fr with bytes := fr.bytes ++ bs } := by
  have hkeep : ((fun x : Frame => x.port == n && x.rx && !x.held) ∘
      fun x => if x.id == fr.id then { x with bytes := x.bytes ++ bs } else x) =
      fun x => x.port == n && x.rx && !x.held := by
    funext x
    simp only [Function.comp_apply]
    split
    all_goals rfl
  unfold takeBytes
  rw [h]
  simp only [FieldDie.inRx, FieldDie.setFrame, List.find?_map, hkeep]
  unfold FieldDie.inRx at h
  simp [h]

theorem takeBytes_buf (n : Nat) (bs : List Byte) (f : FieldDie) :
    ∃ b, takeBytes n bs f = { f with buf := b } := by
  unfold takeBytes
  split
  · exact ⟨_, rfl⟩
  · exact ⟨f.buf, rfl⟩

/-! ### The end of a frame (R326) -/

/-- The fragments of the frame that ends are counted (R323). -/
def countFrags (n cond frags : Nat) (f : FieldDie) : FieldDie :=
  let f := f.countN (cPort n 22) frags
  if cond = 8 then f.count (cPort n 24) else if cond = 0x18 then f.count (cPort n 25)
  else if 1 < frags then f.count (cPort n 26) else f

/-- The port is quiet from now on, and the die has received. -/
def rxEnded (n : Nat) (f : FieldDie) : FieldDie :=
  { f.setPortX n (fun x => { x with quietFrom := f.now }) with pwr := { f.pwr with rxAt := f.now } }

theorem countFrags_cnts (n cond frags : Nat) (f : FieldDie) : ∃ m, countFrags n cond frags f = { f with cnt := m } := by
  unfold countFrags
  dsimp only
  split_ifs
  all_goals exact ⟨_, rfl⟩

theorem countFrags_cntAt {k cond frags : Nat} (f : FieldDie) (hk : k < 22 ∨ 26 < k) :
    (countFrags n cond frags f).cntAt (cPort n k) = f.cntAt (cPort n k) := by
  have hne : ∀ j, 22 ≤ j → j ≤ 26 → cPort n k ≠ cPort n j := by
    intro j h1 h2
    unfold cPort
    omega
  unfold countFrags
  dsimp only
  split_ifs
  all_goals simp [FieldDie.cntAt_countN, FieldDie.cntAt_count, hne]

/-- Port `n` after its frame has ended and before the MAC's verdict. -/
def beforeVerdict (n cond frags : Nat) (bytes : List Byte) (f : FieldDie) : FieldDie :=
  rxEnded n (takeBytes n bytes (countFrags n cond frags f))

theorem beforeVerdict_eq (n cond frags : Nat) (bytes : List Byte) (f : FieldDie) :
    ∃ m b ps, beforeVerdict n cond frags bytes f =
      { f with cnt := m, buf := b, ports := ps, pwr := { f.pwr with rxAt := f.now } } := by
  unfold beforeVerdict
  obtain ⟨m, hm⟩ := countFrags_cnts n cond frags f
  obtain ⟨b, hb⟩ := takeBytes_buf n bytes (countFrags n cond frags f)
  rw [hb, hm]
  exact ⟨_, _, _, rfl⟩

theorem beforeVerdict_rxSame (n cond frags : Nat) (bytes : List Byte) (f : FieldDie) :
    RxSame n { f with pwr := { f.pwr with rxAt := f.now } } (beforeVerdict n cond frags bytes f) := by
  obtain ⟨m, b, ps, h⟩ := beforeVerdict_eq n cond frags bytes f
  rw [h]
  exact .ofEq rfl rfl

theorem beforeVerdict_cntAt {k cond frags : Nat} {bytes : List Byte} (f : FieldDie) (hk : k < 22 ∨ 26 < k) :
    (beforeVerdict n cond frags bytes f).cntAt (cPort n k) = f.cntAt (cPort n k) := by
  rw [← countFrags_cntAt (cond := cond) (frags := frags) f hk]
  obtain ⟨b, hb⟩ := takeBytes_buf n bytes (countFrags n cond frags f)
  unfold beforeVerdict
  rw [hb]
  exact FieldDie.cntAt_eq rfl _

/-- A frame's end, other than that of a verify frame, at a port that does not sleep. -/
theorem frameEnd_of_rx {cond frags : Nat} {bytes : List Byte} {fr : Frame} (hrx : f.inRx n = some fr)
    (hst : portState f n ≠ 5) (hc : cond = 0x20 → 12 ≤ n) :
    frameEnd n bytes cond frags f =
      segFrameEnd n (resumeAssembly n (endRx n cond (takeBytes n bytes (countFrags n cond frags f)))) := by
  have hcond : endCond (countFrags n cond frags f) n cond = cond := by
    obtain ⟨m, hm⟩ := countFrags_cnts n cond frags f
    rw [hm]
    exact if_neg fun h => hst h.2.1
  unfold frameEnd
  rw [if_neg (by simp [hrx]), if_neg (by omega)]
  exact congrArg
    (fun c => segFrameEnd n (resumeAssembly n (endRx n c (takeBytes n bytes (countFrags n cond frags f))))) hcond

/-- What the MAC's verdict does to the frame in reception; MAC control frames aside. -/
theorem endRx_of_rx {cond : Nat} {fr : Frame} (hrx : f.inRx n = some fr) (h7 : macVerdict fr.bytes fr.maxFrame cond ≠ 7) :
    endRx n cond f =
      if macVerdict fr.bytes fr.maxFrame cond = 0 then acceptFrame fr (rxEnded n f)
      else rejectFrame fr (macVerdict fr.bytes fr.maxFrame cond) (rxEnded n f) := by
  unfold endRx
  rw [hrx]
  dsimp only
  split
  · rfl
  · exact if_neg fun h => h7 h.1

theorem showNode_cnt (k : Nat) (f : FieldDie) : (showNode k f).cnt = f.cnt := by
  unfold showNode
  dsimp only
  split
  · exact FieldDie.put_cnt f _ _
  · rfl

theorem segFrameEnd_cnt (n : Nat) (f : FieldDie) : (segFrameEnd n f).cnt = f.cnt := by
  unfold segFrameEnd nextNode
  dsimp only
  split
  · split
    · exact showNode_cnt _ _
    · rfl
  · rfl

theorem put_rxSame (f : FieldDie) (r : Fld) (v : Nat) (h : r.addr ∈ portRegs n) : RxSame n f (f.put r v) := by
  refine ⟨?_, fun a _ hp => FieldDie.rd_put_ne f r v a fun he => hp (he ▸ h)⟩
  unfold FieldDie.put
  rfl

theorem showNode_rxSame (hn : 12 ≤ n) (f : FieldDie) : RxSame n f (showNode (n - 12) f) := by
  unfold showNode
  dsimp only
  split
  · exact put_rxSame f _ _ (by simp [portRegs, hn, F_MDS_STAT_cur_to])
  · exact .ofEq rfl rfl

theorem segFrameEnd_rxSame (n : Nat) (f : FieldDie) : RxSame n f (segFrameEnd n f) := by
  unfold segFrameEnd nextNode
  dsimp only
  split
  next hn =>
    split
    · refine RxSame.trans ?_ (showNode_rxSame hn.1 _)
      exact .ofEq rfl rfl
    · exact .ofEq rfl rfl
  · exact .ofEq rfl rfl

/-- After the MAC's verdict the assembly that waited goes on and the segment's opportunity ends: neither counts, and what
moves is the port's own. -/
theorem exec_frameEnd_of_rx {cond frags : Nat} {bytes : List Byte} {fr : Frame} {judged : FieldDie}
    (hr : s.fld.phase = .running) (hn : n < 16) (hrx : s.fld.inRx n = some fr) (hst : portState s.fld n ≠ 5)
    (hc : cond = 0x20 → 12 ≤ n)
    (hend : EndSame judged (endRx n cond (takeBytes n bytes (countFrags n cond frags s.fld))))
    (hjudged : RxSame n (beforeVerdict n cond frags bytes s.fld) judged) :
    ∃ t, exec (.frameEnd n bytes cond frags) s = .next t ∧
      (∀ k, k < 64 → t.fld.cntAt (cPort n k) = judged.cntAt (cPort n k)) ∧
      PortFrame n [] { s.fld with
        pwr := { s.fld.pwr with rxAt := s.fld.now }, ports := t.fld.ports, gates := t.fld.gates } s t := by
  refine ⟨_, State.onItem_running hr hn, fun k hk => ?_, ?_⟩
  · rw [settle_cntAt_port _ (by omega) (by omega), frameEnd_of_rx hrx hst hc, ← hend.cnt n k hn hk]
    exact FieldDie.cntAt_eq (segFrameEnd_cnt n _) _
  · rw [frameEnd_of_rx hrx hst hc]
    refine PortFrame.ofSettle (f' := { s.fld with pwr := { s.fld.pwr with rxAt := s.fld.now } }) ?_ rfl
    refine RxSame.trans ?_ (segFrameEnd_rxSame n _)
    refine RxSame.trans (beforeVerdict_rxSame n cond frags bytes s.fld) (hjudged.trans ?_)
    refine RxSame.trans hend.low.rxSame ?_
    exact .ofEq rfl rfl

/-! ### A frame is discarded, or accepted -/

theorem macVerdict_le (bs : List Byte) (maxFrame cond : Nat) : macVerdict bs maxFrame cond ≤ 8 := by
  unfold macVerdict
  dsimp only
  split_ifs
  all_goals omega

theorem endRx_takeBytes {cond frags : Nat} {bytes : List Byte} {fr : Frame} (hrx : f.inRx n = some fr)
    (h7 : macVerdict (fr.bytes ++ bytes) fr.maxFrame cond ≠ 7) :
    endRx n cond (takeBytes n bytes (countFrags n cond frags f)) =
      if macVerdict (fr.bytes ++ bytes) fr.maxFrame cond = 0 then
        acceptFrame { fr with bytes := fr.bytes ++ bytes } (beforeVerdict n cond frags bytes f)
      else rejectFrame { fr with bytes := fr.bytes ++ bytes } (macVerdict (fr.bytes ++ bytes) fr.maxFrame cond)
        (beforeVerdict n cond frags bytes f) := by
  obtain ⟨m, hm⟩ := countFrags_cnts n cond frags f
  have hrx' : (countFrags n cond frags f).inRx n = some fr := by
    rw [hm]
    exact hrx
  exact endRx_of_rx (inRx_takeBytes bytes hrx') h7

/-- A frame with a MAC condition counts under that one reason, or, dropped by an early pass, under none any more (R326). -/
theorem exec_frameEnd_rejected {cond frags : Nat} {bytes : List Byte} {fr : Frame}
    (hr : s.fld.phase = .running) (hn : n < 16) (hrx : s.fld.inRx n = some fr) (hst : portState s.fld n ≠ 5)
    (hc : cond = 0x20 → 12 ≤ n)
    (h0 : macVerdict (fr.bytes ++ bytes) fr.maxFrame cond ≠ 0)
    (h7 : macVerdict (fr.bytes ++ bytes) fr.maxFrame cond ≠ 7) :
    ∃ t, exec (.frameEnd n bytes cond frags) s = .next t ∧
      t.fld.cntAt (cPort n (32 + macVerdict (fr.bytes ++ bytes) fr.maxFrame cond)) =
        (if fr.dropped then s.fld.cntAt (cPort n (32 + macVerdict (fr.bytes ++ bytes) fr.maxFrame cond))
          else (s.fld.cntAt (cPort n (32 + macVerdict (fr.bytes ++ bytes) fr.maxFrame cond)) + 1) % 2 ^ 64) ∧
      PortFrame n [] { s.fld with
        pwr := { s.fld.pwr with rxAt := s.fld.now }, ports := t.fld.ports, gates := t.fld.gates } s t := by
  have hv := macVerdict_le (fr.bytes ++ bytes) fr.maxFrame cond
  have hend := endRx_takeBytes (frags := frags) hrx h7
  rw [if_neg h0] at hend
  generalize macVerdict (fr.bytes ++ bytes) fr.maxFrame cond = v at hv hend
  have hjudged := rejectFrame_endSame { fr with bytes := fr.bytes ++ bytes } v (beforeVerdict n cond frags bytes s.fld)
  rw [← hend] at hjudged
  dsimp only at hjudged
  rw [FieldDie.port_of_inRx hrx] at hjudged
  obtain ⟨t, ht, hcnt, hframe⟩ := exec_frameEnd_of_rx hr hn hrx hst hc hjudged (by
    split
    · exact .refl _
    · exact countN_rxSame _ _ _)
  refine ⟨t, ht, ?_, hframe⟩
  rw [hcnt _ (by omega)]
  have hbefore : (beforeVerdict n cond frags bytes s.fld).cntAt (cPort n (32 + v)) = s.fld.cntAt (cPort n (32 + v)) :=
    beforeVerdict_cntAt s.fld (.inr (by omega))
  split
  · exact hbefore
  · rw [← hbefore]
    exact (FieldDie.cntAt_count _ _ _).trans (if_pos rfl)

/-- A frame that the MAC accepts counts with its bytes as received (R792). -/
theorem exec_frameEnd_accepted {cond frags : Nat} {bytes : List Byte} {fr : Frame}
    (hr : s.fld.phase = .running) (hn : n < 16) (hrx : s.fld.inRx n = some fr) (hst : portState s.fld n ≠ 5)
    (hc : cond = 0x20 → 12 ≤ n)
    (h0 : macVerdict (fr.bytes ++ bytes) fr.maxFrame cond = 0) :
    ∃ t, exec (.frameEnd n bytes cond frags) s = .next t ∧
      t.fld.cntAt (cPort n 0) = (s.fld.cntAt (cPort n 0) + 1) % 2 ^ 64 ∧
      t.fld.cntAt (cPort n 1) = (s.fld.cntAt (cPort n 1) + (fr.bytes.length + bytes.length)) % 2 ^ 64 ∧
      PortFrame n [] { s.fld with
        pwr := { s.fld.pwr with rxAt := s.fld.now }, ports := t.fld.ports, gates := t.fld.gates } s t := by
  have hend := endRx_takeBytes (frags := frags) hrx (by rw [h0]; decide)
  rw [if_pos h0] at hend
  have hjudged := acceptFrame_endSame { fr with bytes := fr.bytes ++ bytes } (beforeVerdict n cond frags bytes s.fld)
  rw [← hend] at hjudged
  dsimp only at hjudged
  rw [FieldDie.port_of_inRx hrx] at hjudged
  obtain ⟨t, ht, hcnt, hframe⟩ := exec_frameEnd_of_rx hr hn hrx hst hc hjudged
    ((countN_rxSame _ _ 1).trans (countN_rxSame _ _ _))
  have hne : cPort n 0 ≠ cPort n 1 := by
    unfold cPort
    omega
  have hbefore : ∀ k, k < 22 → (beforeVerdict n cond frags bytes s.fld).cntAt (cPort n k) = s.fld.cntAt (cPort n k) :=
    fun k hk => beforeVerdict_cntAt s.fld (.inl hk)
  refine ⟨t, ht, ?_, ?_, hframe⟩
  · rw [hcnt 0 (by omega), FieldDie.cntAt_countN, if_neg hne, FieldDie.cntAt_count, if_pos rfl, hbefore 0 (by omega)]
  · rw [hcnt 1 (by omega), FieldDie.cntAt_countN, if_pos rfl, FieldDie.cntAt_count, if_neg hne.symm, hbefore 1 (by omega),
      List.length_append]

/-! ### The statement -/

/-- Port 3 receives a frame that an early pass has dropped, and its counter of PHY_ERROR holds 2^64, one more than the 64
bits of a counter can (R788): no command brings a counter there, and nothing in the statement keeps one out. -/
def droppedPastRange : State :=
  { fld := { phase := .running, buf := { frames := [{ port := 3, dropped := true }] }, cnt := [(cPort 3 36, 2 ^ 64)] } }

/-- Refutes O30, by its clause of a frame with a MAC condition: at the end of a frame that an early pass has dropped the
counter of that condition stays as it is (R326), where the statement has it reduced modulo 2^64. The two differ only where a
counter holds more than 64 bits; below 2^64 `exec_frameEnd_rejected` is what the clause says. -/
theorem not_frameReception : ¬ Obligations.FrameReception := by
  unfold Obligations.FrameReception
  rintro ⟨-, -, rejected, -, -⟩
  have hr : droppedPastRange.fld.phase = .running := rfl
  have hrx : droppedPastRange.fld.inRx 3 = some { port := 3, dropped := true } := by decide +kernel
  have hst : portState droppedPastRange.fld 3 ≠ 5 := by decide +kernel
  obtain ⟨t, ht, hclaim, -⟩ := rejected _ 3 4 0 [] _ hr (by decide) hrx hst (by decide) (by decide) (by decide)
  obtain ⟨t', ht', hkept, -⟩ := exec_frameEnd_rejected (cond := 4) (frags := 0) (bytes := []) hr (by decide)
    hrx hst (by decide) (by decide) (by decide)
  obtain rfl : t = t' := by
    have := ht.symm.trans ht'
    injection this
  have hlt : t.fld.cntAt (cPort 3 36) < 2 ^ 64 := lt_of_eq_of_lt hclaim (Nat.mod_lt _ (by decide))
  have hpast : t.fld.cntAt (cPort 3 36) = 2 ^ 64 := hkept
  omega

end Sys2Proof.Machine
end

section
/-! The resets of the field die (O8, O9): what the stop of the fabric leaves of the three agents it reaches, and what a pulse
on a reset pin does by its length. -/

namespace Sys2Proof.Machine

variable {s : State} {lowNs bit : Nat}

/-! ### Free values -/

/-- From `f` to `g` the die has at most taken free values. -/
def FreeOnly (f g : FieldDie) : Prop := ∃ c, g = { f with freeCtr := c }

theorem FreeOnly.refl (f : FieldDie) : FreeOnly f f := ⟨f.freeCtr, rfl⟩

theorem FreeOnly.trans {f g h : FieldDie} (a : FreeOnly f g) (b : FreeOnly g h) : FreeOnly f h := by
  obtain ⟨_, rfl⟩ := a
  obtain ⟨c, rfl⟩ := b
  exact ⟨c, rfl⟩

theorem FieldDie.free_freeOnly (f : FieldDie) : FreeOnly f f.free.2 := ⟨_, rfl⟩

theorem freeBytes_freeOnly (n : Nat) (f : FieldDie) : FreeOnly f (freeBytes n f).2 := by
  induction n generalizing f with
  | zero => exact .refl f
  | succ n ih => exact f.free_freeOnly.trans (ih f.free.2)

/-! ### The fabric stops (R166, R221, R756) -/

theorem flashCut_freeOnly (f : FieldDie) (m : List (Nat × Byte)) : FreeOnly f (flashCut f m).1 := by
  unfold flashCut
  split
  · exact .refl f
  · exact freeBytes_freeOnly _ f

theorem tornPage_freeOnly (slot page : Nat) (f : FieldDie) (k : KeyChip) : FreeOnly f (tornPage slot page f k).1 := by
  unfold tornPage
  -- The 256 bytes are put aside unevaluated.
  have h := freeBytes_freeOnly 256 f
  generalize freeBytes 256 f = r at h
  exact h.trans (freeBytes_freeOnly 32 r.2)

theorem tornPointer_freeOnly (ptr : Nat) (f : FieldDie) (k : KeyChip) : FreeOnly f (tornPointer ptr f k).1 :=
  ((freeBytes_freeOnly 28 f).trans (FieldDie.free_freeOnly _)).trans (freeBytes_freeOnly 32 _)

theorem keyCutIn_freeOnly (c : Nat) (args : List Nat) (data : List Byte) (f : FieldDie) (k : KeyChip) :
    FreeOnly f (keyCutIn c args data f k).1 := by
  refine f.free_freeOnly.trans ?_
  unfold keyCutIn
  dsimp only
  split_ifs
  · exact .refl _
  · exact .refl _
  · exact .refl _
  · exact tornPage_freeOnly _ _ _ k
  · exact .refl _
  · exact tornPointer_freeOnly _ _ k

theorem keyCut_freeOnly (f : FieldDie) (k : KeyChip) : FreeOnly f (keyCut f k).1 := by
  unfold keyCut
  dsimp only
  split
  · split
    · exact .refl f
    · exact keyCutIn_freeOnly _ _ _ f k
  · exact .refl f

/-- A key that no programming command is out to keeps its memory when it loses its field. -/
theorem keyCut_mem {f : FieldDie} (h : keyStill f = true) (k : KeyChip) : (keyCut f k).2.mem = k.mem := by
  unfold keyCut
  split
  next c args data hc =>
    have hne : c ≠ 0xC4 ∧ c ≠ 0xC8 := by simpa [keyStill, hc] using h
    rw [if_pos (.inr (.inr hne))]
  · rfl

/-- The fabric stops: beside what becomes of the die, the flash may be left with an operation cut off, the key loses its page
buffer, and it keeps its memory unless a command that programs it is out. -/
theorem State.fabricStops_eq (s : State) (g : FieldDie → FieldDie) :
    ∃ c m k, s.fabricStops g = .next { s with fld := g { s.fld with freeCtr := c }, flash := m, key := k } ∧
      k.buffer = [] ∧ (keyStill s.fld = true → k.mem = s.key.mem) := by
  obtain ⟨c, hc⟩ := flashCut_freeOnly s.fld s.flash
  obtain ⟨c', hk⟩ := keyCut_freeOnly (flashCut s.fld s.flash).1 s.key
  refine ⟨c', (flashCut s.fld s.flash).2, (keyCut (flashCut s.fld s.flash).1 s.key).2, ?_, rfl, fun hs => ?_⟩
  · unfold State.fabricStops
    dsimp only
    rw [hk, hc]
  · refine keyCut_mem ?_ s.key
    rw [hc]
    exact hs

/-! ### A reset begins (R162) -/

theorem Store.get_filter {α : Type} (d : Nat → α) (p : Nat → Bool) (m : List (Nat × α)) (k : Nat) :
    Store.get d (m.filter fun e => p e.1) k = if p k then Store.get d m k else d k := by
  induction m with
  | nil => simp [Store.get]
  | cons e m ih =>
    obtain ⟨a, w⟩ := e
    by_cases hk : k = a
    · subst hk
      cases hp : p k <;> simp [Store.get, ih, hp]
    · cases hp : p a <;> simp [Store.get, ih, hp, hk]

/-- Registers marked SL keep their values in a reset, and every other register and table word takes its reset value. -/
theorem resetField_rd (f : FieldDie) (a : Nat) :
    (resetField f).rd a = if isSl a then f.rd a else fieldDefault a :=
  Store.get_filter fieldDefault isSl f.reg a

/-- A trigger that has come about begins a whole reset, however many free values its sampling has taken. -/
theorem State.fieldReset_begun (s : State) (bit c : Nat) :
    ∃ t, ({ s with fld := { s.fld with freeCtr := c } } : State).fieldReset bit = .next t ∧ ResetBegun bit s t := by
  obtain ⟨c', m, k, hstop, hbuffer, hmem⟩ := State.fabricStops_eq { s with fld := { s.fld with freeCtr := c } }
    (fun f => resetField { f with resetBy := setBit f.resetBy bit })
  exact ⟨_, hstop, {
    phase := rfl, cause := rfl, regs := fun a => resetField_rd _ a, cnt := rfl, buf := rfl, staged := rfl, sl := rfl
    pending := rfl, hst := rfl, keyMem := hmem, keyBuffer := hbuffer }⟩

/-- A trigger sampled between its lengths begins a whole reset or does nothing (R91). -/
theorem State.resetIf_begun_or (s : State) (seen : Bool) (bit : Nat) :
    ∃ t, ({ s with fld := s.fld.free.2 } : State).resetIf seen bit = .next t ∧
      (ResetBegun bit s t ∨ t = { s with fld := { s.fld with freeCtr := s.fld.freeCtr + 1 } }) := by
  cases seen with
  | true =>
    obtain ⟨t, ht, hb⟩ := State.fieldReset_begun s bit (s.fld.freeCtr + 1)
    exact ⟨t, ht, .inl hb⟩
  | false => exact ⟨_, rfl, .inr rfl⟩

/-! ### A pulse on a reset pin (R67, R91, R163) -/

/-- In a reset that another source has begun, a low no longer than the ignored length is not recorded. -/
theorem lateTrigger_short {ignored full : Nat} (f : FieldDie) (hle : ignored ≤ full) (h : lowNs ≤ ignored) :
    lateTrigger ignored full lowNs bit f = f := by
  unfold lateTrigger
  split
  · rfl
  · rw [if_neg (by omega), if_pos (by omega)]

theorem execPinReset_short (h : lowNs ≤ 100) : execPinReset lowNs s = .next s := by
  unfold execPinReset
  rw [if_neg (show ¬1000 ≤ lowNs by omega), if_pos h, lateTrigger_short s.fld (by decide) h]
  exact ite_self _

theorem execPinReset_long (hr : released s.fld = true) (h : 1000 ≤ lowNs) : execPinReset lowNs s = s.fieldReset 1 := by
  unfold execPinReset
  rw [if_pos hr, if_pos h]

theorem execPinReset_between (hr : released s.fld = true) (h : 100 < lowNs) (h' : lowNs < 1000) :
    execPinReset lowNs s = ({ s with fld := s.fld.free.2 } : State).resetIf (hasBit s.fld.free.1 0) 1 := by
  unfold execPinReset
  rw [if_pos hr, if_neg (by omega), if_neg (by omega)]

theorem execPowerGoodReset_short (h : lowNs ≤ 500) : execPowerGoodReset lowNs s = .next s := by
  unfold execPowerGoodReset
  rw [if_neg (show ¬2000 ≤ lowNs by omega), if_pos h, lateTrigger_short s.fld (by decide) h]
  exact ite_self _

theorem execPowerGoodReset_long (hr : released s.fld = true ∧ s.fld.pwr.vddSl = true ∧ s.fld.pwr.waking = false)
    (h : 2000 ≤ lowNs) : execPowerGoodReset lowNs s = s.fieldReset 2 := by
  unfold execPowerGoodReset
  rw [if_pos hr, if_pos h]

theorem execPowerGoodReset_between (hr : released s.fld = true ∧ s.fld.pwr.vddSl = true ∧ s.fld.pwr.waking = false)
    (h : 500 < lowNs) (h' : lowNs < 2000) :
    execPowerGoodReset lowNs s = ({ s with fld := s.fld.free.2 } : State).resetIf (hasBit s.fld.free.1 0) 2 := by
  unfold execPowerGoodReset
  rw [if_pos hr, if_neg (by omega), if_neg (by omega)]

/-! ### The statements -/

/-- Settles O8: each trigger that has come about is a `fieldReset` of its cause bit, and anything less leaves the state. -/
theorem fieldResetsKeepOnlyTheSafelightDomain : Obligations.FieldResetsKeepOnlyTheSafelightDomain := by
  unfold Obligations.FieldResetsKeepOnlyTheSafelightDomain
  refine ⟨fun s lowNs hr h => ?_, fun s lowNs hr hv hw h => ?_, fun s req hw => ?_, fun s lowNs h => execPinReset_short h,
    fun s lowNs h => execPowerGoodReset_short h, fun s req data hne => ?_⟩
  · obtain ⟨t, ht, hb⟩ := s.fieldReset_begun 1 s.fld.freeCtr
    exact ⟨t, (execPinReset_long hr h).trans ht, hb⟩
  · obtain ⟨t, ht, hb⟩ := s.fieldReset_begun 2 s.fld.freeCtr
    exact ⟨t, (execPowerGoodReset_long ⟨hr, hv, hw⟩ h).trans ht, hb⟩
  · obtain ⟨t, ht, hb⟩ := s.fieldReset_begun 3 s.fld.freeCtr
    exact ⟨t, (if_pos ⟨hw, rfl⟩).trans ht, hb⟩
  · exact if_neg fun h => hne h.2

/-- Settles O9: between the lengths a free value decides whether the trigger has come about. -/
theorem resetPulsesBetweenTheLengths : Obligations.ResetPulsesBetweenTheLengths := by
  unfold Obligations.ResetPulsesBetweenTheLengths
  refine ⟨fun s lowNs hr h h' => ?_, fun s lowNs hr hv hw h h' => ?_⟩
  · obtain ⟨t, ht, hb⟩ := s.resetIf_begun_or (hasBit s.fld.free.1 0) 1
    exact ⟨t, (execPinReset_between hr h h').trans ht, hb⟩
  · obtain ⟨t, ht, hb⟩ := s.resetIf_begun_or (hasBit s.fld.free.1 0) 2
    exact ⟨t, (execPowerGoodReset_between ⟨hr, hv, hw⟩ h h').trans ht, hb⟩

end Sys2Proof.Machine
end

section
/-! Release of the internal reset and start-up (O11): what the release, the PLL lock and the end of initialisation do. Each
clause of the statement holds but that of the PLL lock, which also starts the count of safelight edges since the lock. -/

namespace Sys2Proof.Machine

variable {s : State} {f g : FieldDie} {as : List Nat}

/-- The end of a command leaves every register but those of `coverRegs`. -/
theorem settle_rd_of_notMem (f : FieldDie) {a : Nat} (h : a ∉ coverRegs) : (settle f).rd a = f.rd a := by
  obtain ⟨h1, h2, h3⟩ : a ≠ F_FLT_COVER ∧ a ≠ F_FLT_EVT2 ∧ a ≠ F_XNG_EVT := by simpa [coverRegs] using h
  exact settle_rd f a h1 h2 h3

/-! ### The registers that straps, fuses, order code and front end give (R159, R185, R308) -/

/-- From `f` to `g` only registers have moved, and only those listed. -/
structure RegsOnly (as : List Nat) (f g : FieldDie) : Prop where
  core : g.core = f.core
  rd : ∀ a, a ∉ as → g.rd a = f.rd a

theorem RegsOnly.refl (f : FieldDie) : RegsOnly as f f := ⟨rfl, fun _ _ => rfl⟩

theorem RegsOnly.wrN (h : RegsOnly as f g) {a v : Nat} (ha : a ∈ as) : RegsOnly as f (g.wrN a v) where
  core := h.core
  rd b hb := by
    have hne : b ≠ a := fun he => hb (he ▸ ha)
    rw [FieldDie.rd_wrN, if_neg hne, h.rd b hb]

theorem RegsOnly.put (h : RegsOnly as f g) {r : Fld} {v : Nat} (hr : r.addr ∈ as) : RegsOnly as f (g.put r v) :=
  h.wrN hr

/-- The registers whose reset values are no constants, but for F_GLB_STRAP. -/
def identityAddrs : List Nat :=
  [F_GLB_ID, F_KEY_PERS, F_GLB_DIE_ID_LO, F_GLB_DIE_ID_HI, F_GLB_BASE_MAC_LO, F_SPI_CTRL, F_TWN_STAT, F_PORT_PODL 0,
    F_PORT_PODL 1]

theorem identityRegs_regsOnly (f : FieldDie) :
    RegsOnly identityAddrs (f.wrN F_GLB_STRAP f.straps) (identityRegs f) := by
  have podl : ∀ n < 2, ∀ {g}, RegsOnly identityAddrs (f.wrN F_GLB_STRAP f.straps) g → ∀ u v w,
      RegsOnly identityAddrs (f.wrN F_GLB_STRAP f.straps)
        (((g.put (F_PORT_PODL_line_live n) u).put (F_PORT_PODL_class n) v).put (F_PORT_PODL_sccp_state n) w) := by
    intro n hn g h u v w
    have hm : F_PORT_PODL n ∈ identityAddrs := by
      interval_cases n
      all_goals decide
    exact ((h.put hm).put hm).put hm
  unfold identityRegs
  refine podl 1 (by decide) (podl 0 (by decide) ?_ _ _ _) _ _ _
  exact ((((((((RegsOnly.refl _).wrN (by decide)).wrN (by decide)).wrN (by decide)).wrN (by decide)).wrN
    (by decide)).put (by decide)).put (by decide)).put (by decide)

/-! ### The release (R67, R163, R164) -/

theorem FieldDie.rdN_of_rd {a v : Nat} (h : f.rd a = word v) (hv : v < 2 ^ 32) : f.rdN a = v := by
  unfold FieldDie.rdN
  rw [h, toNat_word v hv]

/-- The boot counter keeps to its register (R164). -/
theorem nextBoot_lt (f : FieldDie) : nextBoot f < 2 ^ 32 := by
  have := f.rdN_lt F_GLB_BOOT_CNT
  unfold nextBoot
  split
  · decide
  · omega

/-- The die whose internal reset is released, before straps, fuses and front end show in its registers. -/
def bootDie (straps : Nat) (f : FieldDie) : FieldDie :=
  (({ f with phase := .released, straps := straps % 16, resetBy := 0 } : FieldDie).wrN F_GLB_RST_CAUSE f.resetBy).wrN
    F_GLB_BOOT_CNT (nextBoot f)

theorem releaseReset_of_reset (straps : Nat) (hw : f.pwr.waking = false) :
    releaseReset straps f = identityRegs (bootDie straps f) := if_neg (by simp [hw])

/-- What the released die reads at a register outside its identity. -/
theorem release_rd (straps : Nat) (f : FieldDie) {a : Nat} (ha : a ∉ identityAddrs) (hc : a ∉ coverRegs) :
    (settle (identityRegs (bootDie straps f))).rd a =
      if a = F_GLB_STRAP then word (straps % 16) else (bootDie straps f).rd a :=
  (settle_rd_of_notMem _ hc).trans (((identityRegs_regsOnly _).rd a ha).trans (FieldDie.rd_wrN _ _ _ _))

/-- Released outside a darkroom exit, the die has latched its straps, recorded its causes and counted the boot. -/
theorem exec_internalResetRelease {afterNs straps : Nat} (hphase : s.fld.phase = .inReset) (hen : pdEn s.fld = true)
    (hsl : s.fld.pwr.vddSl = true) (hw : s.fld.pwr.waking = false) (hcause : s.fld.resetBy < 16) (h : 90000 ≤ afterNs)
    (h' : afterNs ≤ 100000) :
    ∃ t, exec (.internalResetRelease afterNs straps) s = .next t ∧ t.fld.phase = .released ∧ t.fld.straps = straps % 16 ∧
      t.fld.rdN F_GLB_STRAP = straps % 16 ∧ t.fld.rdN F_GLB_RST_CAUSE = s.fld.resetBy ∧ t.fld.resetBy = 0 ∧
      t.fld.rdN F_GLB_BOOT_CNT = nextBoot s.fld ∧ FieldOnly s t := by
  have hexec : exec (.internalResetRelease afterNs straps) s =
      .next { s with fld := settle (identityRegs (bootDie straps s.fld)) } := by
    change execInternalResetRelease afterNs straps s = _
    unfold execInternalResetRelease State.onField
    dsimp only
    rw [if_pos ⟨hphase, hen, hsl, h, h'⟩, releaseReset_of_reset straps hw]
  have hcore := (identityRegs_regsOnly (bootDie straps s.fld)).core
  refine ⟨_, hexec, ?_, ?_, ?_, ?_, ?_, ?_, ⟨rfl, rfl, rfl, rfl⟩⟩
  · rw [settle_phase, ← FieldDie.core_phase, hcore]
    rfl
  · rw [settle_straps, ← FieldDie.core_straps, hcore]
    rfl
  · exact FieldDie.rdN_of_rd (release_rd straps s.fld (by decide) (by decide)) (by omega)
  · refine FieldDie.rdN_of_rd ((release_rd straps s.fld (by decide) (by decide)).trans ?_) (by omega)
    exact (FieldDie.rd_wrN _ _ _ _).trans (FieldDie.rd_wrN _ _ _ _)
  · rw [settle_resetBy, ← FieldDie.core_resetBy, hcore]
    rfl
  · refine FieldDie.rdN_of_rd ((release_rd straps s.fld (by decide) (by decide)).trans ?_) (nextBoot_lt s.fld)
    exact FieldDie.rd_wrN _ _ _ _

/-! ### The PLL lock and the end of initialisation (R169, R171, R873) -/

/-- A command that moves only what has no register, no counter and no queue. -/
theorem FieldFrame.ofUnregistered {f' : FieldDie} (hg : g = f') (hreg : f'.reg = s.fld.reg) :
    FieldFrame [] f' s { s with fld := settle g } := by
  subst hg
  exact .ofSettle rfl rfl rfl rfl fun a _ => FieldDie.rd_eq hreg a

/-- The PLL lock starts the fine tick, and with it the count of safelight edges since the lock (R588). -/
theorem exec_fabricPllLock (h : s.fld.phase = .released) :
    ∃ t, exec .fabricPllLock s = .next t ∧
      FieldFrame [] { s.fld with phase := .locked, pwr := { s.fld.pwr with lockTicks := 0 } } s t :=
  ⟨_, rfl, .ofUnregistered (if_pos h) rfl⟩

theorem exec_initialisationComplete (h : s.fld.phase = .locked) (hw : s.fld.pwr.waking = false) :
    ∃ t, exec .initialisationComplete s = .next t ∧ FieldFrame [] { s.fld with phase := .resolving } s t :=
  ⟨_, rfl, .ofUnregistered (if_pos ⟨h, hw⟩) rfl⟩

/-! ### The statement -/

/-- A released die whose count of safelight edges since the PLL lock is already 1. Every reset puts the count to 0 and only a
powered die counts, so that no command brings a released die there, and nothing in the statement keeps one out. -/
def releasedWithLockTicks : State := { fld := { phase := .released, pwr := { lockTicks := 1 } } }

/-- Refutes O11, by its clause of the PLL lock: the lock also puts the count of safelight edges since the lock to 0
(`exec_fabricPllLock`), where the statement has it move the phase alone. The two agree where the count is 0 before. -/
theorem not_resetReleaseAndStartUp : ¬ Obligations.ResetReleaseAndStartUp := by
  unfold Obligations.ResetReleaseAndStartUp
  rintro ⟨-, locks, -⟩
  have hreleased : releasedWithLockTicks.fld.phase = .released := rfl
  obtain ⟨t, ht, hclaim⟩ := locks _ hreleased
  obtain ⟨t', ht', hframe⟩ := exec_fabricPllLock hreleased
  obtain rfl : t = t' := by
    have := ht.symm.trans ht'
    injection this
  have hticks := congrArg (fun f : FieldDie => f.pwr.lockTicks) (hclaim.rest.symm.trans hframe.rest)
  exact absurd hticks (by decide)

end Sys2Proof.Machine
end

section
/-! The line power front ends (O13): what shows in F_PORT_n_PODL, and what the lines and the SCCP states become. -/

namespace Sys2Proof.Machine

variable {s : State} {f g : FieldDie} {n mv : Nat}

/-! ### What a front end shows (R305, R308) -/

/-- From `f` to `g` only F_PORT_n_PODL of trunk `n` and its event have moved, with the message that reports it. -/
structure PodlSame (n : Nat) (f g : FieldDie) : Prop where
  core : g.core = f.core
  send : SendSame f g
  rd : ∀ a, a ∉ [F_PORT_PODL n, F_PORT_EVT n] → a ∉ coverRegs → g.rd a = f.rd a

theorem PodlSame.refl (f : FieldDie) : PodlSame n f f := ⟨rfl, .refl f, fun _ _ _ => rfl⟩

theorem PodlSame.trans {h : FieldDie} (a : PodlSame n f g) (b : PodlSame n g h) : PodlSame n f h :=
  ⟨b.core.trans a.core, a.send.trans b.send, fun x hx hc => (b.rd x hx hc).trans (a.rd x hx hc)⟩

theorem PodlSame.pwr (h : PodlSame n f g) : g.pwr = f.pwr := by
  rw [← FieldDie.core_pwr, h.core, FieldDie.core_pwr]

theorem PodlSame.powered (h : PodlSame n f g) : g.powered = f.powered := by
  have hphase : g.phase = f.phase := by rw [← FieldDie.core_phase, h.core, FieldDie.core_phase]
  unfold FieldDie.powered
  rw [hphase]

/-- What the front ends hold stands apart from what shows. -/
theorem PodlSame.withPwr (h : PodlSame n f g) (p : PwrX) : PodlSame n { f with pwr := p } { g with pwr := p } :=
  ⟨congrArg (fun x : FieldDie => { x with pwr := p }) h.core, ⟨h.send.buf, h.send.out, h.send.cnt⟩, h.rd⟩

theorem put_podlSame (f : FieldDie) (r : Fld) (v : Nat) (hr : r.addr = F_PORT_PODL n) : PodlSame n f (f.put r v) :=
  ⟨rfl, .ofEq rfl rfl rfl, fun _ ha _ => FieldDie.rd_put_ne f r v _ fun h => ha (by simp [h, hr])⟩

theorem raise_podlSame (f : FieldDie) (bit : Nat) : PodlSame n f (f.raise (F_PORT_EVT n) bit) :=
  ⟨f.raise_core _ _, f.raise_sendSame _ _, fun _ ha hc =>
    FieldDie.raise_rd f _ _ _ (fun h => ha (by simp [h])) fun h => hc (by simp [h, coverRegs])⟩

theorem showPodl_podlSame (f : FieldDie) (r : Fld) (v : Nat) (hr : r.addr = F_PORT_PODL n) :
    PodlSame n f (showPodl n r v f) := by
  unfold showPodl
  split
  · exact (put_podlSame f r v hr).trans (raise_podlSame _ _)
  · exact .refl f

/-- The register of trunk `n` is none of those that its event or the end of a command can move. -/
theorem podl_apart (hn : n < 2) : F_PORT_PODL n ≠ F_PORT_EVT n ∧ F_PORT_PODL n ∉ coverRegs := by
  unfold F_PORT_PODL F_PORT_EVT coverRegs F_FLT_COVER F_FLT_EVT2 F_XNG_EVT
  simp only [List.mem_cons, List.not_mem_nil, or_false]
  omega

/-- On a powered die a field of the front end reads what it has been brought to. -/
theorem showPodl_get (hn : n < 2) (hp : f.powered = true) {r : Fld} {v : Nat} (hr : r.addr = F_PORT_PODL n)
    (hlo : r.lo ≤ r.hi) (h32 : r.hi < 32) (hv : v < 2 ^ (r.hi + 1 - r.lo)) : (showPodl n r v f).get r = v := by
  obtain ⟨hevt, hcover⟩ := podl_apart hn
  have hx : F_PORT_PODL n ≠ F_XNG_EVT := fun h => hcover (by simp [h, coverRegs])
  unfold showPodl
  split
  next =>
    rw [FieldDie.get_eq r (FieldDie.raise_rd _ _ _ _ (hr ▸ hevt) (hr ▸ hx)), FieldDie.get_put f r v hlo h32,
      Nat.mod_eq_of_lt hv]
  next h => simpa [hp] using h

/-- A command that moves what the front ends hold to `p`, and what shows of trunk `n`, has the frame of that trunk. -/
theorem PodlSame.onField {k : FieldDie → FieldDie} {p : PwrX} (hn : n < 2) (h : PodlSame n { s.fld with pwr := p } g)
    (hk : k s.fld = g) :
    ∃ t, s.onField k = .next t ∧ t.fld.pwr = p ∧ (∀ r, r.addr = F_PORT_PODL n → t.fld.get r = g.get r) ∧
      FieldFrame [F_PORT_PODL n, F_PORT_EVT n] { s.fld with pwr := p } s t := by
  subst hk
  have hpwr : (settle (k s.fld)).pwr = p := (settle_pwr _).trans h.pwr
  refine ⟨_, rfl, hpwr, fun r hr => ?_, ⟨rfl, rfl, rfl, rfl⟩, ?_, fun a h0 h14 ht => ?_, ?_, ?_, fun a ha hc => ?_⟩
  · exact FieldDie.get_eq r (settle_rd_of_notMem _ (hr ▸ (podl_apart hn).2))
  · unfold FieldDie.rest
    rw [hpwr, settle_core, h.core]
  · exact (settle_cntAt _ h0 h14 ht).trans (h.send.cnt a h0 h14 ht)
  · exact (settle_queued _).trans (congrArg BufX.queued h.send.buf)
  · exact (settle_waiting _).trans (congrArg BufX.waiting h.send.buf)
  · exact (settle_rd_of_notMem _ hc).trans (h.rd a ha hc)

/-! ### Comparators (R82) -/

theorem risesPast_above {lo hi : Nat} (h : hi < mv) (f : FieldDie) : risesPast lo hi mv f = (true, f) := if_pos h

theorem fallsPast_below {lo hi : Nat} (h : mv < lo) (f : FieldDie) : fallsPast lo hi mv f = (true, f) := if_pos h

theorem fallsPast_above {lo hi : Nat} (hle : lo ≤ hi) (h : hi < mv) (f : FieldDie) :
    fallsPast lo hi mv f = (false, f) := by
  unfold fallsPast
  rw [if_neg (by omega), if_pos h]

theorem getD_modAt {α : Type} {xs : List α} (h : n < xs.length) (v d : α) : (modAt xs n fun _ => v).getD n d = v := by
  simp [modAt, List.getD_eq_getElem?_getD, h]

/-! ### The lines (R80, R82, R305) -/

/-- What the front ends hold once line `n` is above the turn-on threshold, or below it. -/
def pwrAbove (n : Nat) (on : Bool) (p : PwrX) : PwrX := { p with lineAbove := modAt p.lineAbove n fun _ => on }

/-- What the front ends hold once line `n` is on with class `cls`. -/
def pwrOn (n cls : Nat) (p : PwrX) : PwrX :=
  { p with
    lineLive := modAt p.lineLive n fun _ => true
    lineOff := modAt p.lineOff n fun _ => false
    lineClass := modAt p.lineClass n fun _ => cls }

/-- What the front ends hold once line `n` is below the turn-off threshold. -/
def pwrOff (n : Nat) (p : PwrX) : PwrX :=
  { p with lineLive := modAt p.lineLive n fun _ => false, lineOff := modAt p.lineOff n fun _ => true }

/-- The class of line `n` once it has risen with resistor `r`: read anew where an application begins (R80). -/
def classAtRise (n : Nat) (r : Option Nat) (p : PwrX) : Nat :=
  if p.lineOff.getD n true then classCode r else p.lineClass.getD n 0

/-- The class of a line shows while the register file is out of reset. -/
def showClass (n cls : Nat) (f : FieldDie) : FieldDie :=
  if f.powered || f.phase == .released then f.put (F_PORT_PODL_class n) cls else f

theorem setAbove_podlSame (n : Nat) (on : Bool) (f : FieldDie) :
    PodlSame n { f with pwr := pwrAbove n on f.pwr } (setAbove n on f) :=
  showPodl_podlSame _ _ _ rfl

theorem setAbove_get (hn : n < 2) (hp : f.powered = true) (on : Bool) :
    (setAbove n on f).get (F_PORT_PODL_line_live n) = if on then 1 else 0 := by
  have hv : (if on then 1 else 0) < 2 := by
    split
    all_goals decide
  unfold setAbove
  refine showPodl_get hn ?_ rfl (Nat.le_refl 16) (show 16 < 32 by decide) hv
  exact hp

theorem showClass_podlSame (n cls : Nat) (f : FieldDie) : PodlSame n f (showClass n cls f) := by
  unfold showClass
  split
  · exact put_podlSame f _ cls rfl
  · exact .refl f

/-- A line that rises past the turn-on threshold: its class is settled and shown, then it is above. -/
theorem lineOn_of_rise {r : Option Nat} (ha : lineAbove f n = false) (h : 19500 < mv) :
    lineOn n mv r f = setAbove n true (showClass n (classAtRise n r f.pwr)
      { f with pwr := pwrOn n (classAtRise n r f.pwr) f.pwr }) := by
  unfold lineOn
  rw [if_neg (by simp [ha]), risesPast_above h]
  rfl

/-- A live line that falls past the turn-on threshold is no longer above it before its turn-off is judged. -/
theorem lineDown_of_fall (hl : lineLive f n = true) (ha : lineAbove f n = true) (h : mv < 18000) :
    lineDown n mv f = lineOffAt n mv (setAbove n false f) := by
  unfold lineDown lineBelow
  rw [if_neg (by simp [hl]), if_neg (by simp [ha]), fallsPast_below h]
  rfl

theorem lineOffAt_of_fall (h : mv < 16000) (f : FieldDie) : lineOffAt n mv f = { f with pwr := pwrOff n f.pwr } := by
  unfold lineOffAt
  rw [fallsPast_below h]
  rfl

theorem lineOffAt_of_between (h : 17500 < mv) (f : FieldDie) : lineOffAt n mv f = f := by
  unfold lineOffAt
  rw [fallsPast_above (by decide) h]
  rfl

/-- A line that rises above the turn-on threshold is on and live, with its class (R80, R82). -/
theorem exec_lineTurnOn_of_rise {r : Option Nat} (hn : n < 2) (hs : Shape s) (ha : lineAbove s.fld n = false)
    (h : 19500 < mv) :
    ∃ t, exec (.lineTurnOn n mv r) s = .next t ∧ lineLive t.fld n = true ∧ lineAbove t.fld n = true ∧
      t.fld.pwr.lineOff.getD n true = false ∧ t.fld.pwr.lineClass.getD n 0 = classAtRise n r s.fld.pwr ∧
      (s.fld.powered = true → t.fld.get (F_PORT_PODL_line_live n) = 1) ∧
      FieldFrame [F_PORT_PODL n, F_PORT_EVT n] { s.fld with pwr := t.fld.pwr } s t := by
  have hrise := lineOn_of_rise (r := r) ha h
  generalize classAtRise n r s.fld.pwr = cls at hrise ⊢
  have hclass := showClass_podlSame n cls { s.fld with pwr := pwrOn n cls s.fld.pwr }
  generalize showClass n cls { s.fld with pwr := pwrOn n cls s.fld.pwr } = shown at hclass hrise
  have hall := (hclass.withPwr _).trans (setAbove_podlSame n true shown)
  obtain ⟨t, ht, hpwr, hget, hframe⟩ := hall.onField hn ((if_pos hn).trans hrise)
  rw [hclass.pwr] at hpwr
  refine ⟨t, ht, ?_, ?_, ?_, ?_, fun hp => ?_, ?_⟩
  · unfold lineLive
    rw [hpwr]
    exact getD_modAt (hs.lineLive ▸ hn) _ _
  · unfold lineAbove
    rw [hpwr]
    exact getD_modAt (hs.lineAbove ▸ hn) _ _
  · rw [hpwr]
    exact getD_modAt (hs.lineOff ▸ hn) _ _
  · rw [hpwr]
    exact getD_modAt (hs.lineClass ▸ hn) _ _
  · exact (hget _ rfl).trans (setAbove_get hn (hclass.powered.trans hp) true)
  · rw [hpwr, ← hclass.pwr]
    exact hframe

/-- A live line that falls into the range between the two thresholds stays on (R82, R305). -/
theorem exec_lineTurnOff_between (hn : n < 2) (hs : Shape s) (hl : lineLive s.fld n = true)
    (ha : lineAbove s.fld n = true) (h : 17500 < mv) (h' : mv < 18000) :
    ∃ t, exec (.lineTurnOff n mv) s = .next t ∧ lineLive t.fld n = true ∧ lineAbove t.fld n = false ∧
      (s.fld.powered = true → t.fld.get (F_PORT_PODL_line_live n) = 0) ∧
      FieldFrame [F_PORT_PODL n, F_PORT_EVT n]
        { s.fld with pwr := { s.fld.pwr with lineAbove := t.fld.pwr.lineAbove } } s t := by
  have hdown := (lineDown_of_fall hl ha h').trans (lineOffAt_of_between h _)
  obtain ⟨t, ht, hpwr, hget, hframe⟩ := (setAbove_podlSame n false s.fld).onField hn ((if_pos hn).trans hdown)
  refine ⟨t, ht, ?_, ?_, fun hp => ?_, ?_⟩
  · unfold lineLive
    rw [hpwr]
    exact hl
  · unfold lineAbove
    rw [hpwr]
    exact getD_modAt (hs.lineAbove ▸ hn) _ _
  · exact (hget _ rfl).trans (setAbove_get hn hp false)
  · rw [hpwr]
    exact hframe

/-- A live line that falls below the turn-off threshold is off, and its next rise begins an application (R80, R82). -/
theorem exec_lineTurnOff_of_fall (hn : n < 2) (hs : Shape s) (hl : lineLive s.fld n = true)
    (ha : lineAbove s.fld n = true) (h : mv < 16000) :
    ∃ t, exec (.lineTurnOff n mv) s = .next t ∧ lineLive t.fld n = false ∧ lineAbove t.fld n = false ∧
      t.fld.pwr.lineOff.getD n true = true ∧
      (s.fld.powered = true → t.fld.get (F_PORT_PODL_line_live n) = 0) ∧
      FieldFrame [F_PORT_PODL n, F_PORT_EVT n] { s.fld with pwr := { s.fld.pwr with
        lineLive := t.fld.pwr.lineLive, lineAbove := t.fld.pwr.lineAbove, lineOff := t.fld.pwr.lineOff } } s t := by
  have hdown := (lineDown_of_fall hl ha (by omega)).trans (lineOffAt_of_fall h _)
  have hbelow := setAbove_podlSame n false s.fld
  obtain ⟨t, ht, hpwr, hget, hframe⟩ := (hbelow.withPwr _).onField hn ((if_pos hn).trans hdown)
  rw [hbelow.pwr] at hpwr
  refine ⟨t, ht, ?_, ?_, ?_, fun hp => ?_, ?_⟩
  · unfold lineLive
    rw [hpwr]
    exact getD_modAt (hs.lineLive ▸ hn) _ _
  · unfold lineAbove
    rw [hpwr]
    exact getD_modAt (hs.lineAbove ▸ hn) _ _
  · rw [hpwr]
    exact getD_modAt (hs.lineOff ▸ hn) _ _
  · exact (hget _ rfl).trans (setAbove_get hn hp false)
  · rw [hpwr]
    rw [hbelow.pwr] at hframe
    exact hframe

/-! ### Over-voltage (R82) -/

theorem exec_overVoltageTurnOff_of_rise (ho : s.fld.pwr.ov = false) (h : 64000 < mv) :
    ∃ t, exec (.overVoltageTurnOff mv) s = .next t ∧
      FieldFrame [] { s.fld with pwr := { s.fld.pwr with ov := true } } s t := by
  refine ⟨_, rfl, .ofUnregistered ((if_neg (by simp [ho])).trans ?_) rfl⟩
  rw [risesPast_above h]

theorem exec_overVoltageRecovery_of_fall (ho : s.fld.pwr.ov = true) (h : mv < 60500) :
    ∃ t, exec (.overVoltageRecovery mv) s = .next t ∧
      FieldFrame [] { s.fld with pwr := { s.fld.pwr with ov := false } } s t := by
  refine ⟨_, rfl, .ofUnregistered ((if_pos ho).trans ?_) rfl⟩
  rw [fallsPast_below h]
  rfl

/-! ### SCCP and PoDL sleep (R305 to R307) -/

/-- A command that brings trunk `n` into the SCCP state `st`. -/
theorem State.onField_sccp {k : FieldDie → FieldDie} {st : Nat} (hn : n < 2) (hst : st < 16) (hs : Shape s)
    (hk : k s.fld = setSccp n st s.fld) :
    ∃ t, s.onField k = .next t ∧ sccpOf t.fld n = st ∧
      (s.fld.powered = true → t.fld.get (F_PORT_PODL_sccp_state n) = st) ∧
      FieldFrame [F_PORT_PODL n, F_PORT_EVT n] { s.fld with pwr := { s.fld.pwr with sccp := t.fld.pwr.sccp } } s t := by
  have hshown : PodlSame n { s.fld with pwr := { s.fld.pwr with sccp := modAt s.fld.pwr.sccp n fun _ => st } }
      (setSccp n st s.fld) := showPodl_podlSame _ _ _ rfl
  obtain ⟨t, ht, hpwr, hget, hframe⟩ := hshown.onField hn hk
  refine ⟨t, ht, ?_, fun hp => ?_, ?_⟩
  · unfold sccpOf
    rw [hpwr]
    exact getD_modAt (hs.sccp ▸ hn) _ _
  · rw [hget _ rfl]
    unfold setSccp
    refine showPodl_get hn ?_ rfl (show 8 ≤ 11 by decide) (show 11 < 32 by decide) hst
    exact hp
  · rw [hpwr]
    exact hframe

/-! ### The statement -/

/-- Settles O13: each comparator answers surely outside its range, and what shows of a trunk follows what its front end
holds. -/
theorem linePowerFrontEnds : Obligations.LinePowerFrontEnds := by
  unfold Obligations.LinePowerFrontEnds
  refine ⟨fun s line mv r hn hs ha h => exec_lineTurnOn_of_rise hn hs ha h, fun s line mv hn hs hl ha =>
    ⟨fun h h' => exec_lineTurnOff_between hn hs hl ha h h', fun h => exec_lineTurnOff_of_fall hn hs hl ha h⟩,
    fun s mv ho h => exec_overVoltageTurnOff_of_rise ho h, fun s mv ho h => exec_overVoltageRecovery_of_fall ho h,
    fun s n state hn hst hc hs => ?_, fun s n hn hok ha hs => ?_, fun s n bySoftware hn hsoft hself hsleep hs => ?_⟩
  · exact State.onField_sccp hn (by omega) hs (if_pos ⟨hn, hst, hc⟩)
  · exact State.onField_sccp hn (by decide) hs (if_pos ⟨hn, hok, ha⟩)
  · have hmay : (if bySoftware then s.fld.isRunning else !lineAbove s.fld (1 - n)) = true := by
      cases bySoftware with
      | true => simpa [FieldDie.isRunning] using hsoft
      | false => simpa using hself
    exact State.onField_sccp hn (by decide) hs ((if_pos ⟨hn, hmay⟩).trans (if_pos hsleep))

end Sys2Proof.Machine
end

section
/-! What every command of a running field die comes to. -/

namespace Sys2Proof.Machine

variable {s : State}

/-- A command of a running die acts, and ends as every command does. -/
theorem State.onRun_running {g : FieldDie → FieldDie} (hr : s.fld.phase = .running) :
    s.onRun g = .next { s with fld := settle (g s.fld) } := by
  simp [State.onRun, State.onField, FieldDie.isRunning, hr]

/-- What a command answers is one state. -/
theorem next_unique {o : Host.Outcome State Fault Refusal} {t u : State} (ht : o = .next t) (hu : o = .next u) : t = u := by
  have := ht.symm.trans hu
  injection this

end Sys2Proof.Machine
end

section
/-! The refutation of O45: a port that an exposure wakes can touch what another port is sending. -/

namespace Sys2Proof.Machine

/-- Port 0 sleeps with a frame still in reception, which port 1 is already sending by cut-through; a window of entry 0,
which names port 0 alone, is due. -/
def cutThroughFromSleeper : State :=
  { fld :=
    { phase := .running
      reg := [(F_PORT_STAT 0, 0x50000000), (0x400000, 0x80000001), (0x400008, 1000)]
      buf := { frames := [{ id := 7, port := 0 }] }
      ports := {} :: { sending := some { frame := 7, port := 1, ct := true } } :: List.replicate 15 {} } }

/-- The wake truncates the frame (R316), and the copy that port 1 sends is marked to end with an inverted FCS (R327). -/
theorem exposureStart_marks_cutThrough :
    ((exposureStart 0 cutThroughFromSleeper.fld).portX 1).sending ≠ (cutThroughFromSleeper.fld.portX 1).sending := by
  decide +kernel

/-- Refutes O45, by its clause of a window's start: a port that the window does not name keeps its state, but not its whole
record, since the wake of a port that it names truncates the frame that was still in reception there (R316), and a
cut-through copy of that frame is marked at the port that sends it (R327). -/
theorem not_exposuresHoldPortsAwake : ¬ Obligations.ExposuresHoldPortsAwake := by
  unfold Obligations.ExposuresHoldPortsAwake
  rintro ⟨-, start, -⟩
  have hshape : Shape cutThroughFromSleeper := by
    constructor
    all_goals rfl
  obtain ⟨t, ht, -, -, -, -, hothers, -⟩ := start cutThroughFromSleeper 0 0 rfl hshape (by decide) (by decide +kernel)
    (by decide +kernel) (by decide +kernel) (by decide)
  obtain rfl := next_unique ht (State.onItem_running rfl (by decide))
  obtain ⟨hkept, -⟩ := hothers 1 (by decide) (by decide +kernel)
  unfold FieldDie.portX at hkept
  rw [settle_ports] at hkept
  exact exposureStart_marks_cutThrough (congrArg PortX.sending hkept)

end Sys2Proof.Machine
end

section
/-! The refutation of O47: the last ACK of the drain can end perturbation of ACKs. -/

namespace Sys2Proof.Machine

/-- A drained die in DARK_ENTRY whose Crossing owes one ACK, which perturbation is about to take as its last one. -/
def drainedUnderAckPerturbation : State :=
  { fld :=
    { phase := .running
      reg := [(F_PWR_STATE, 2), (F_PTB_ACTIVE, 8), (F_PTB_ACK, 1)]
      xng := { phase := 3, unacked := 1, ackAmnesty := 1 } } }

/-- The end of that drain takes the ACK and with it ends the control (R614, R839): F_PTB_ACK returns to 0. -/
theorem drainDone_ends_ackPerturbation : (drainDone drainedUnderAckPerturbation.fld).rd F_PTB_ACK = 0 := by
  decide +kernel

/-- Refutes O47, by its clause of the end of the drain: the field end's last ACK (R614) is one that perturbation can take,
and the ACK that F_PTB_ACK takes last ends it, so that F_PTB_ACK moves too, where the statement lets only the ports'
registers do so. -/
theorem not_darkroomEntryAndExit : ¬ Obligations.DarkroomEntryAndExit := by
  unfold Obligations.DarkroomEntryAndExit
  rintro ⟨-, -, drain, -⟩
  have hshape : Shape drainedUnderAckPerturbation := by
    constructor
    all_goals rfl
  obtain ⟨t, ht, -, -, -, hframe⟩ := drain drainedUnderAckPerturbation rfl hshape (by decide +kernel) rfl (by decide) rfl
  obtain rfl := next_unique ht (State.onRun_running (g := drainDone) rfl)
  have hkept := hframe.regs F_PTB_ACK (by decide) (by decide) (by decide)
  have hends := (settle_rd_of_notMem _ (by decide)).trans drainDone_ends_ackPerturbation
  dsimp only at hkept
  rw [hends] at hkept
  exact absurd hkept (by decide +kernel)

end Sys2Proof.Machine
end

section
/-! What a port's change of state moves: queues, frames and the port's own registers, and of its status no more than the
fields of R301. -/

namespace Sys2Proof.Machine

variable {f g : FieldDie} {n m : Nat}

/-- From `f` to `g` only queues, frames and the registers of port `n` have moved. -/
structure PortSame (n : Nat) (f g : FieldDie) : Prop where
  side : g.side = f.side
  rd : ∀ a, a < 0x140000 → a ∉ portRegs n → g.rd a = f.rd a

theorem PortSame.trans {h : FieldDie} (a : PortSame n f g) (b : PortSame n g h) : PortSame n f h :=
  ⟨b.side.trans a.side, fun x hx hp => (b.rd x hx hp).trans (a.rd x hx hp)⟩

theorem LowSame.portSame (h : LowSame f g) : PortSame n f g := ⟨h.side, fun a ha _ => h.rd a ha⟩

theorem put_portSame (f : FieldDie) (r : Fld) (v : Nat) (h : r.addr ∈ portRegs n) : PortSame n f (f.put r v) :=
  ⟨rfl, fun a _ hp => FieldDie.rd_put_ne f r v a fun he => hp (he ▸ h)⟩

theorem putStat_portSame (f : FieldDie) (r : Fld) (v : Nat) (h : r.addr = F_PORT_STAT n) : PortSame n f (f.put r v) :=
  put_portSame f r v (by simp [portRegs, h])

theorem raise_portSame (f : FieldDie) (b : Nat) : PortSame n f (f.raise (F_PORT_EVT n) b) where
  side := FieldDie.side_eq (f.raise_core _ _)
  rd a ha hp := FieldDie.raise_rd f _ b a (fun he => hp (by simp [portRegs, he])) (by unfold F_XNG_EVT; omega)

theorem napBreak_low (f : FieldDie) : LowSame f f.napBreak := .ofEq rfl rfl

theorem setSegX_low (f : FieldDie) (k : Nat) (p : SegX → SegX) : LowSame f (f.setSegX k p) := .ofEq rfl rfl

/-! ### The parts of a change of state -/

theorem setPortX_portSame {p : PortX → PortX} (h : ∀ x, (p x).strip = x.strip) : PortSame n f (f.setPortX n p) :=
  (setPortX_low f n p h).portSame

theorem setPortX_since_portSame (n : Nat) (f : FieldDie) :
    PortSame n f (f.setPortX n fun x => { x with since := f.now, sleepSent := false, drained := false }) :=
  setPortX_portSame fun _ => rfl

theorem showState_portSame (n old st reason : Nat) (f : FieldDie) : PortSame n f (showState n old st reason f) := by
  have hput : PortSame n f ((f.put (F_PORT_STAT_state n) st).put (F_PORT_STAT_category n) (stateCategory st)) :=
    (putStat_portSame f (F_PORT_STAT_state n) st rfl).trans (putStat_portSame _ (F_PORT_STAT_category n) _ rfl)
  unfold showState
  dsimp only
  generalize (f.put (F_PORT_STAT_state n) st).put (F_PORT_STAT_category n) (stateCategory st) = g at hput ⊢
  have hsince := hput.trans (setPortX_since_portSame n g)
  split
  · exact hsince.trans (putStat_portSame _ _ _ rfl)
  · exact hsince

theorem quietSegment_portSame (n : Nat) (f : FieldDie) : PortSame n f (quietSegment n f) := by
  unfold quietSegment
  split
  next hn =>
    have hm : F_MDS_STAT (n - 12) ∈ portRegs n := by simp [portRegs, hn]
    refine PortSame.trans ?_ (put_portSame _ (F_MDS_STAT_cur_to (n - 12)) 0 hm)
    refine PortSame.trans ?_ (put_portSame _ (F_MDS_STAT_plca_active (n - 12)) 0 hm)
    exact (setSegX_low f (n - 12) _).portSame
  · exact (LowSame.refl f).portSame

theorem nowDown_portSame (n old st : Nat) (f : FieldDie) : PortSame n f (nowDown n old st f) := by
  have hdown : PortSame n f (if stateDown st then quietSegment n (flushOnDown n (emptyPort n 0x0A f)) else f) := by
    split
    · exact ((emptyPort_low n 0x0A f).trans (flushOnDown_low n _)).portSame.trans (quietSegment_portSame n _)
    · exact (LowSame.refl f).portSame
  unfold nowDown
  dsimp only
  split
  · exact hdown.trans (raise_portSame _ _)
  · exact hdown

theorem refreshPreempt_portSame (n : Nat) (f : FieldDie) : PortSame n f (refreshPreempt n f) := by
  unfold refreshPreempt
  split
  · exact putStat_portSame _ _ _ rfl
  · exact (LowSame.refl _).portSame

theorem startVerify_portSame (n : Nat) (f : FieldDie) : PortSame n f (startVerify n f) := by
  unfold startVerify
  split
  · exact putStat_portSame _ _ _ rfl
  · dsimp only
    refine PortSame.trans ?_ (refreshPreempt_portSame n _)
    refine PortSame.trans ?_ (putStat_portSame _ (F_PORT_STAT_verify_state n) _ rfl)
    exact setPortX_portSame fun _ => rfl

theorem nowUp_portSame (n old st : Nat) (f : FieldDie) : PortSame n f (nowUp n old st f) := by
  have hsince : PortSame n f (if stateUp old then f else f.setPortX n (fun x => { x with upSince := f.now })) := by
    split
    · exact (LowSame.refl f).portSame
    · exact setPortX_portSame fun _ => rfl
  unfold nowUp
  split
  · exact ((hsince.trans (low_count _ _).portSame).trans (raise_portSame _ 0)).trans (startVerify_portSame n _)
  · exact (LowSame.refl f).portSame

theorem enterState_portSame (n st reason : Nat) (f : FieldDie) : PortSame n f (enterState n st reason f) := by
  unfold enterState
  split
  · exact (LowSame.refl f).portSame
  · exact ((((napBreak_low f).portSame.trans (showState_portSame n _ st reason _)).trans
      (leaveUp_low n _ st _).portSame).trans (nowDown_portSame n _ st _)).trans (nowUp_portSame n _ st _)

/-- A command that changes a port's state keeps the port's frame. -/
theorem PortSame.frame {s : State} (h : PortSame n s.fld g) : PortFrame n [] s.fld s { s with fld := settle g } where
  only := ⟨rfl, rfl, rfl, rfl⟩
  side := (FieldDie.side_eq (settle_core g)).trans h.side
  regs a ha hp hc := (settle_rd_of_notMem g hc).trans (h.rd a ha (by simpa using hp))

/-! ### What `side` keeps of a port's record -/

theorem FieldDie.portX_strip (f : FieldDie) (n : Nat) : (f.portX n).strip = f.side.ports.getD n ({} : PortX).strip := by
  show _ = (f.ports.map PortX.strip).getD n _
  rw [List.getD_map]
  rfl

theorem portX_strip_eq (h : g.side = f.side) (n : Nat) : (g.portX n).strip = (f.portX n).strip := by
  rw [FieldDie.portX_strip, FieldDie.portX_strip, h]

theorem portX_holds_eq (h : g.side = f.side) (n : Nat) : (g.portX n).holds = (f.portX n).holds :=
  show (g.portX n).strip.holds = (f.portX n).strip.holds by rw [portX_strip_eq h]

theorem portX_windows_eq (h : g.side = f.side) (n : Nat) : (g.portX n).windows = (f.portX n).windows :=
  show (g.portX n).strip.windows = (f.portX n).strip.windows by rw [portX_strip_eq h]

theorem portX_retry_eq (h : g.side = f.side) (n : Nat) : (g.portX n).retry = (f.portX n).retry :=
  show (g.portX n).strip.retry = (f.portX n).strip.retry by rw [portX_strip_eq h]

theorem engineRuns_eq (h : g.side = f.side) (k : Nat) : g.engineRuns k = f.engineRuns k := by
  have hflt : g.side.flt = f.side.flt := by rw [h]
  show (!g.side.flt.stopped.contains k) = !f.side.flt.stopped.contains k
  rw [hflt]

/-! ### The status and the events of the port itself -/

theorem portStat_lt (hn : n < 16) : F_PORT_STAT n < 0x140000 := by unfold F_PORT_STAT; omega

theorem portEvt_lt (hn : n < 16) : F_PORT_EVT n < 0x140000 := by unfold F_PORT_EVT; omega

theorem portStat_ne_evt (n m : Nat) : F_PORT_STAT n ≠ F_PORT_EVT m := by unfold F_PORT_STAT F_PORT_EVT; omega

theorem portStat_ne_xng (hn : n < 16) : F_PORT_STAT n ≠ F_XNG_EVT := by unfold F_PORT_STAT F_XNG_EVT; omega

theorem portEvt_ne_xng (hn : n < 16) : F_PORT_EVT n ≠ F_XNG_EVT := by unfold F_PORT_EVT F_XNG_EVT; omega

theorem portStat_notMem_coverRegs (hn : n < 16) : F_PORT_STAT n ∉ coverRegs := by
  simp only [coverRegs, List.mem_cons, List.not_mem_nil, or_false, not_or]
  unfold F_PORT_STAT F_FLT_COVER F_FLT_EVT2 F_XNG_EVT
  omega

theorem portEvt_notMem_coverRegs (hn : n < 16) : F_PORT_EVT n ∉ coverRegs := by
  simp only [coverRegs, List.mem_cons, List.not_mem_nil, or_false, not_or]
  unfold F_PORT_EVT F_FLT_COVER F_FLT_EVT2 F_XNG_EVT
  omega

theorem setPortX_rd (f : FieldDie) (n : Nat) (p : PortX → PortX) (a : Nat) : (f.setPortX n p).rd a = f.rd a := rfl

theorem setPortX_get (f : FieldDie) (n : Nat) (p : PortX → PortX) (r : Fld) : (f.setPortX n p).get r = f.get r := rfl

theorem FieldDie.sq_eq {a b : Nat} (h : g.rd a = f.rd a) : g.sq a b = f.sq a b := by
  unfold FieldDie.sq FieldDie.rdN
  rw [h]

theorem quietSegment_rd {a : Nat} (h : a < 0x120000) : (quietSegment m f).rd a = f.rd a := by
  unfold quietSegment
  have hne : ∀ k, a ≠ F_MDS_STAT k := by intro k; unfold F_MDS_STAT; omega
  split
  · dsimp only
    rw [FieldDie.rd_put_ne _ _ _ _ (hne _), FieldDie.rd_put_ne _ _ _ _ (hne _)]
    rfl
  · rfl

/-- A port that does not enter UP shows what its new state gives, whatever it empties. -/
theorem enterState_rd_stat {st reason : Nat} (hn : n < 16) (hr : f.engineRuns n = true) (hst : st ≠ 3) :
    (enterState n st reason f).rd (F_PORT_STAT n) = (showState n (portState f n) st reason f.napBreak).rd (F_PORT_STAT n) := by
  have hdown : ∀ g, (nowDown n (portState f n) st g).rd (F_PORT_STAT n) = g.rd (F_PORT_STAT n) := by
    intro g
    have hlow := ((emptyPort_low n 0x0A g).trans (flushOnDown_low n _)).rd _ (portStat_lt hn)
    have hquiet : (if stateDown st then quietSegment n (flushOnDown n (emptyPort n 0x0A g)) else g).rd (F_PORT_STAT n)
        = g.rd (F_PORT_STAT n) := by
      split
      · exact (quietSegment_rd (by unfold F_PORT_STAT; omega)).trans hlow
      · rfl
    unfold nowDown
    dsimp only
    split
    · rw [FieldDie.raise_rd _ _ _ _ (portStat_ne_evt n n) (portStat_ne_xng hn), hquiet]
    · exact hquiet
  unfold enterState
  rw [if_neg (by simp [hr])]
  unfold nowUp
  rw [if_neg hst, hdown, (leaveUp_low n _ st _).rd _ (portStat_lt hn)]

/-- Showing a state leaves the fields of the status between the category and the reason. -/
theorem showState_get {old st reason : Nat} {r : Fld} (ha : r.addr = F_PORT_STAT n) (hlo : 2 ≤ r.lo)
    (hhi : r.hi < 24) : (showState n old st reason f).get r = f.get r := by
  have hcat : ∀ g : FieldDie, ∀ v, (g.put (F_PORT_STAT_category n) v).get r = g.get r := fun g v =>
    FieldDie.get_put_field g _ r v ha (by show 0 ≤ 1; decide) (by show 1 < 32; decide) (.inl (by show 1 < r.lo; omega))
  have hstate : ∀ v, (f.put (F_PORT_STAT_state n) v).get r = f.get r := fun v =>
    FieldDie.get_put_field f _ r v ha (by show 28 ≤ 31; decide) (by show 31 < 32; decide) (.inr (by show r.hi < 28; omega))
  unfold showState
  dsimp only
  split
  · rw [FieldDie.get_put_field _ (F_PORT_STAT_down_reason n) r reason ha (by show 24 ≤ 27; decide) (by show 27 < 32; decide)
      (.inr hhi), setPortX_get, hcat, hstate]
  · rw [setPortX_get, hcat, hstate]

/-- The reason of a port that stops counting as link-up is shown. -/
theorem showState_down_reason {old st reason : Nat} (hst : stateDown st = true) (hold : stateDown old = false) :
    (showState n old st reason f).get (F_PORT_STAT_down_reason n) = reason % 16 := by
  unfold showState
  dsimp only
  rw [if_pos (by simp [hst, hold]), FieldDie.get_put _ _ _ (by show 24 ≤ 27; decide) (by show 27 < 32; decide)]
  rfl

/-- A port that leaves UP for a state that counts as link-down raises link_down (R304). -/
theorem enterState_link_down {st reason : Nat} (hn : n < 16) (hr : f.engineRuns n = true) (hold : portState f n = 3)
    (hst : stateDown st = true) : (enterState n st reason f).sq (F_PORT_EVT n) 1 = true := by
  have hne : st ≠ 3 := by rintro rfl; simp [stateDown] at hst
  unfold enterState
  rw [if_neg (by simp [hr])]
  unfold nowUp nowDown
  rw [if_neg hne, if_pos ⟨hold, hst⟩]
  exact FieldDie.raise_sq _ _ _ (portEvt_ne_xng hn) (by decide)

/-- A port that enters a state that is neither UP nor link-down raises nothing. -/
theorem enterState_rd_evt {st reason : Nat} (hn : n < 16) (hst : st ≠ 3) (hdown : stateDown st = false) :
    (enterState n st reason f).rd (F_PORT_EVT n) = f.rd (F_PORT_EVT n) := by
  have hshow : ∀ old (g : FieldDie), (showState n old st reason g).rd (F_PORT_EVT n) = g.rd (F_PORT_EVT n) := by
    intro old g
    unfold showState
    dsimp only
    have hne : ∀ (h : FieldDie) (r : Fld) v, r.addr = F_PORT_STAT n → (h.put r v).rd (F_PORT_EVT n) = h.rd (F_PORT_EVT n) :=
      fun h r v ha => FieldDie.rd_put_ne h r v _ (ha ▸ (portStat_ne_evt n n).symm)
    rw [if_neg (by simp [hdown]), setPortX_rd, hne _ _ _ rfl, hne _ _ _ rfl]
  unfold enterState
  split
  · rfl
  · unfold nowUp nowDown
    dsimp only
    rw [if_neg hst, if_neg (by simp [hdown]), if_neg (by simp [hdown]), (leaveUp_low n _ st _).rd _ (portEvt_lt hn), hshow]
    rfl

end Sys2Proof.Machine
end

section
/-! What emptying a port's queues, its groups and its learned entries leave: the ports' own records. -/

namespace Sys2Proof.Machine

variable {f g : FieldDie} {n m : Nat}

theorem forAll_ports {α : Type} {g : α → FieldDie → FieldDie} (h : ∀ x f, (g x f).ports = f.ports) (xs : List α)
    (f : FieldDie) : (forAll xs g f).ports = f.ports := by
  unfold forAll
  induction xs generalizing f with
  | nil => rfl
  | cons x xs ih => exact (ih (g x f)).trans (h x f)

/-! ### Queues -/

theorem tsqFrame_ports (fr : Frame) (n st re ts : Nat) (f : FieldDie) : (tsqFrame fr n st re ts f).ports = f.ports := by
  unfold tsqFrame tsqPush
  repeat' split
  all_goals simp only [FieldDie.raise_ports, FieldDie.put_ports, FieldDie.count_ports]

theorem chargeSub_ports (n q c : Nat) (r : Bool) (f : FieldDie) : (chargeSub n q c r f).ports = f.ports := by
  unfold chargeSub refreshPool
  split
  all_goals simp only [FieldDie.put_ports, FieldDie.wrN_ports]

theorem releaseCopy_ports (c : Copy) (f : FieldDie) : (releaseCopy c f).ports = f.ports := chargeSub_ports _ _ _ _ _

theorem countDrop_ports (f : FieldDie) (n c : Nat) : (f.countDrop n c).ports = f.ports := rfl

theorem free_ports (f : FieldDie) : f.free.2.ports = f.ports := rfl

theorem countQDrop_ports (f : FieldDie) (n q c : Nat) : (f.countQDrop n q c).ports = f.ports := by
  unfold FieldDie.countQDrop FieldDie.countDrop
  split
  all_goals simp only [FieldDie.count_ports]

theorem discardCopy_ports (code : Nat) (c : Copy) (f : FieldDie) : (discardCopy code c f).ports = f.ports := by
  unfold discardCopy
  dsimp only
  rw [releaseCopy_ports]
  split
  · exact countQDrop_ports _ _ _ _
  · exact (tsqFrame_ports _ _ _ _ _ _).trans (countQDrop_ports _ _ _ _)

theorem emptyPort_ports (n code : Nat) (f : FieldDie) : (emptyPort n code f).ports = f.ports := by
  unfold emptyPort discardQueued
  dsimp only
  rw [forAll_ports (discardCopy_ports code)]
  exact forAll_ports (discardCopy_ports code) _ _

theorem abortCopy_ports (n : Nat) (c : Copy) (f : FieldDie) : (abortCopy n c f).ports = f.ports := by
  unfold abortCopy
  dsimp only
  rw [releaseCopy_ports]
  split
  · rw [free_ports, FieldDie.count_ports]
  · rw [tsqFrame_ports, free_ports, FieldDie.count_ports]

theorem clearCredits_ports (n : Nat) (f : FieldDie) : (clearCredits n f).ports = f.ports := by
  unfold clearCredits forRange
  dsimp only
  exact forAll_ports (fun q f => FieldDie.wr_ports f (creditAddr n q) 0) (List.range 8) f

/-! ### Learned entries and groups -/

theorem fdbInvalidate_ports (i : Nat) (f : FieldDie) : (fdbInvalidate i f).ports = f.ports := by
  unfold fdbInvalidate fdbChanged
  repeat' split
  all_goals simp only [FieldDie.wrN_ports]

theorem fdbPurge_ports (p : FdbEntry → Bool) (f : FieldDie) : (fdbPurge p f).ports = f.ports := by
  unfold fdbPurge
  split
  · rfl
  · unfold fdbRecount
    dsimp only
    rw [FieldDie.put_ports, FieldDie.put_ports]
    exact forAll_ports fdbInvalidate_ports _ _

theorem setActive_ports (g v : Nat) (f : FieldDie) : (setActive g v f).ports = f.ports := by
  unfold setActive
  split
  · rfl
  · dsimp only
    split
    · rw [fdbPurge_ports, FieldDie.raise_ports, FieldDie.put_ports, FieldDie.put_ports]
    · rw [FieldDie.raise_ports, FieldDie.put_ports, FieldDie.put_ports]

theorem memberDown_ports (n : Nat) (f : FieldDie) : (memberDown n f).ports = f.ports := by
  unfold memberDown
  split
  · exact setActive_ports _ _ _
  · rfl

theorem flushOnDown_ports (n : Nat) (f : FieldDie) : (flushOnDown n f).ports = f.ports := by
  unfold flushOnDown
  split
  · exact fdbPurge_ports _ _
  · rfl

theorem quietSegment_ports (n : Nat) (f : FieldDie) : (quietSegment n f).ports = f.ports := by
  unfold quietSegment
  split
  · dsimp only
    rw [FieldDie.put_ports, FieldDie.put_ports, FieldDie.setSegX_ports]
  · rfl

/-- A port whose state counts as link-down empties its queues and leaves the ports' records. -/
theorem nowDown_ports (n old st : Nat) (f : FieldDie) : (nowDown n old st f).ports = f.ports := by
  have hdown : (if stateDown st then quietSegment n (flushOnDown n (emptyPort n 0x0A f)) else f).ports = f.ports := by
    split
    · rw [quietSegment_ports, flushOnDown_ports, emptyPort_ports]
    · rfl
  unfold nowDown
  dsimp only
  split
  · rw [FieldDie.raise_ports, hdown]
  · exact hdown

/-! ### Truncation -/

theorem setOctetSum_ports (w cyc v : Nat) (f : FieldDie) : (setOctetSum w cyc v f).ports = f.ports := by
  unfold setOctetSum
  rfl

theorem meterReturn_ports (m b k : Nat) (f : FieldDie) : (meterReturn m b k f).ports = f.ports := by
  unfold meterReturn setMeterFrac setBucket
  split
  all_goals simp only [FieldDie.wrN_ports]

theorem revertStage4_ports (fr : Frame) (f : FieldDie) : (revertStage4 fr f).ports = f.ports := by
  unfold revertStage4
  dsimp only
  repeat' split
  all_goals simp only [FieldDie.count_ports, meterReturn_ports, setOctetSum_ports]

theorem settleRate_ports (id len : Nat) (f : FieldDie) : (settleRate id len f).ports = f.ports := by
  unfold settleRate
  refine forAll_ports (fun n f => forAll_ports (fun c f => ?_) _ f) _ f
  split
  · rfl
  · exact FieldDie.setGateX_ports _ _ _

/-- Port `n` sends nothing and has no remainder to send. -/
def Silent (n : Nat) (f : FieldDie) : Prop := (f.portX n).sending = none ∧ (f.portX n).preempted = none

theorem Silent.ofPorts (h : Silent n f) (hp : g.ports = f.ports) : Silent n g := by
  unfold Silent FieldDie.portX
  rw [hp]
  exact h

theorem dropFrameCopies_silent {id re : Nat} (h : Silent n f) : Silent n (dropFrameCopies id re f) := by
  unfold dropFrameCopies
  dsimp only
  refine Silent.ofPorts ?_ (forAll_ports releaseCopy_ports _ _)
  obtain ⟨hs, hp⟩ := h
  unfold FieldDie.portX at hs hp
  unfold Silent FieldDie.portX
  simp only [List.getD_eq_getElem?_getD, List.getElem?_map] at hs hp ⊢
  cases hx : f.ports[n]? with
  | none => exact ⟨rfl, rfl⟩
  | some p =>
    rw [hx] at hs hp
    constructor
    · exact congrArg (Option.map _) hs
    · exact congrArg (Option.map _) hp

theorem setFrame_ports (f : FieldDie) (id : Nat) (p : Frame → Frame) : (f.setFrame id p).ports = f.ports := rfl

theorem truncateRx_silent (h : Silent n f) : Silent n (truncateRx m f) := by
  have hreject : ∀ fr (f : FieldDie), Silent n f → Silent n (rejectFrame fr 5 f) := by
    intro fr f hf
    have hcount : Silent n (if fr.dropped then f else f.countDrop fr.port 5) := by
      split
      · exact hf
      · exact hf.ofPorts (countDrop_ports _ _ _)
    unfold rejectFrame
    refine Silent.ofPorts (dropFrameCopies_silent ?_) (setFrame_ports _ _ _)
    exact hcount.ofPorts ((settleRate_ports fr.id fr.bytes.length _).trans (revertStage4_ports fr _))
  unfold truncateRx forAll
  generalize f.buf.frames.filter (fun fr => fr.port == m && fr.rx) = frs
  induction frs generalizing f with
  | nil => exact h
  | cons fr frs ih =>
    rw [List.foldl_cons]
    exact ih (hreject fr f h)

/-- The end of every transmission of a port leaves it silent. -/
theorem abortTx_silent (hn : n < f.ports.length) : Silent n (abortTx n f) := by
  have habort : ∀ (o : Option Copy) (g : FieldDie), Silent n g → Silent n (match o with
      | some c => abortCopy n c g
      | none => g) := by
    intro o g hg
    split
    · exact hg.ofPorts (abortCopy_ports _ _ _)
    · exact hg
  unfold abortTx
  refine habort _ _ (habort _ _ ?_)
  unfold Silent FieldDie.portX FieldDie.setPortX modAt
  simp [List.getD_eq_getElem?_getD, hn]

end Sys2Proof.Machine
end

section
/-! Link establishment and link loss on P0 to P11 (O16). -/

namespace Sys2Proof.Machine

variable {s : State} {f g : FieldDie} {n : Nat}

theorem napBreak_buf (f : FieldDie) : f.napBreak.buf = f.buf := rfl

theorem napBreak_get (f : FieldDie) (r : Fld) : f.napBreak.get r = f.get r := rfl

/-! ### Entering UP from a state that is not link-up -/

/-- A port that enters UP from TRAINING or WAKING leaves nothing behind: it shows its state and comes up. -/
theorem enterState_up_eq (hr : f.engineRuns n = true) (hold : portState f n = 2 ∨ portState f n = 6) :
    enterState n 3 0 f = nowUp n (portState f n) 3 (showState n (portState f n) 3 0 f.napBreak) := by
  unfold enterState
  rw [if_neg (by simp [hr])]
  unfold nowDown leaveUp
  rcases hold with h | h
  all_goals simp [h, stateUp, stateDown]

theorem refreshPreempt_get {r : Fld} (ha : r.addr = F_PORT_STAT n) (hlo : 8 ≤ r.lo) :
    (refreshPreempt n f).get r = f.get r := by
  unfold refreshPreempt
  split
  · exact FieldDie.get_put_field f _ r _ ha (by show 7 ≤ 7; decide) (by show 7 < 32; decide) (.inl hlo)
  · rfl

theorem startVerify_rd_evt : (startVerify n f).rd (F_PORT_EVT n) = f.rd (F_PORT_EVT n) := by
  have hne : ∀ (h : FieldDie) (r : Fld) v, r.addr = F_PORT_STAT n → (h.put r v).rd (F_PORT_EVT n) = h.rd (F_PORT_EVT n) :=
    fun h r v ha => FieldDie.rd_put_ne h r v _ (ha ▸ (portStat_ne_evt n n).symm)
  unfold startVerify refreshPreempt
  dsimp only
  split
  · exact hne _ _ _ rfl
  · split
    · rw [hne _ _ _ rfl, hne _ _ _ rfl, setPortX_rd]
    · rw [hne _ _ _ rfl, setPortX_rd]

/-- Verification leaves the resolved role as it is. -/
theorem startVerify_role_res :
    (startVerify n f).get (F_PORT_STAT_role_res n) = f.get (F_PORT_STAT_role_res n) := by
  have hv : ∀ (g : FieldDie) v, (g.put (F_PORT_STAT_verify_state n) v).get (F_PORT_STAT_role_res n) =
      g.get (F_PORT_STAT_role_res n) := fun g v =>
    FieldDie.get_put_field g _ _ v rfl (by show 8 ≤ 10; decide) (by show 10 < 32; decide) (.inl (by show 10 < 16; decide))
  unfold startVerify
  dsimp only
  split
  · exact hv _ _
  · rw [refreshPreempt_get rfl (by show 8 ≤ 16; decide), hv, setPortX_get]

/-- The state of verification that a port of chapter 7 begins with (R320). -/
def verifyStart (f : FieldDie) (n : Nat) : Nat :=
  if f.flag (F_PORT_PREEMPT_preempt_en n) = false then 0 else if f.flag (F_PORT_PREEMPT_verify_dis n) then 4 else 1

theorem verifyStart_lt (f : FieldDie) (n : Nat) : verifyStart f n < 8 := by
  unfold verifyStart
  split_ifs
  all_goals omega

theorem startVerify_verify_state (hn : n < 12) :
    (startVerify n f).get (F_PORT_STAT_verify_state n) = verifyStart f n := by
  unfold startVerify
  dsimp only
  rw [if_neg (by omega), refreshPreempt_get rfl (by show 8 ≤ 8; decide),
    FieldDie.get_put _ _ _ (by show 8 ≤ 10; decide) (by show 10 < 32; decide)]
  have hst : (if (!(f.setPortX n fun x => { x with verify := 0, verifyAt := 0 }).flag (F_PORT_PREEMPT_preempt_en n)) = true
      then 0 else if (f.setPortX n fun x => { x with verify := 0, verifyAt := 0 }).flag (F_PORT_PREEMPT_verify_dis n) = true
      then 4 else 1) = verifyStart f n := by
    show (if (!f.flag (F_PORT_PREEMPT_preempt_en n)) = true then 0
      else if f.flag (F_PORT_PREEMPT_verify_dis n) = true then 4 else 1) = _
    unfold verifyStart
    simp only [Bool.not_eq_true']
  rw [hst]
  exact Nat.mod_eq_of_lt (verifyStart_lt f n)

/-- The die on which verification starts as port `n` enters UP. -/
def cameUp (n old : Nat) (f : FieldDie) : FieldDie :=
  ((if stateUp old then f else f.setPortX n (fun x => { x with upSince := f.now })).count (cPort n 7)).raise (F_PORT_EVT n) 0

theorem nowUp_eq (n old : Nat) (f : FieldDie) : nowUp n old 3 f = startVerify n (cameUp n old f) := rfl

theorem cameUp_rd {old a : Nat} (h : a ≠ F_PORT_EVT n) (hx : a ≠ F_XNG_EVT) : (cameUp n old f).rd a = f.rd a := by
  unfold cameUp
  rw [FieldDie.raise_rd _ _ _ _ h hx]
  split <;> rfl

theorem enterState_up_link_up (hn : n < 16) (hr : f.engineRuns n = true) (hold : portState f n = 2 ∨ portState f n = 6) :
    (enterState n 3 0 f).sq (F_PORT_EVT n) 0 = true := by
  rw [enterState_up_eq hr hold, nowUp_eq, FieldDie.sq_eq startVerify_rd_evt]
  exact FieldDie.raise_sq _ _ _ (portEvt_ne_xng hn) (by decide)

theorem enterState_up_role_res (hn : n < 16) (hr : f.engineRuns n = true) (hold : portState f n = 2 ∨ portState f n = 6) :
    (enterState n 3 0 f).get (F_PORT_STAT_role_res n) = f.get (F_PORT_STAT_role_res n) := by
  rw [enterState_up_eq hr hold, nowUp_eq, startVerify_role_res,
    FieldDie.get_eq _ (cameUp_rd (portStat_ne_evt n n) (portStat_ne_xng hn)),
    showState_get rfl (by show 2 ≤ 16; decide) (by show 17 < 24; decide)]
  rfl

theorem portReg_notMem {a : Nat} (hs : a ≠ F_PORT_STAT n) (he : a ≠ F_PORT_EVT n) (hm : ∀ k, a ≠ F_MDS_STAT k) :
    a ∉ portRegs n := by
  unfold portRegs
  split
  · simp [hs, he, hm]
  · simp [hs, he]

theorem portPreempt_notMem {m : Nat} (_hm : m < 16) : F_PORT_PREEMPT m ∉ portRegs n :=
  portReg_notMem (by unfold F_PORT_PREEMPT F_PORT_STAT; omega) (by unfold F_PORT_PREEMPT F_PORT_EVT; omega)
    fun k => by unfold F_PORT_PREEMPT F_MDS_STAT; omega

theorem portMode_notMem {m : Nat} (_hm : m < 16) : F_PORT_MODE m ∉ portRegs n :=
  portReg_notMem (by unfold F_PORT_MODE F_PORT_STAT; omega) (by unfold F_PORT_MODE F_PORT_EVT; omega)
    fun k => by unfold F_PORT_MODE F_MDS_STAT; omega

theorem portSleep_notMem {m : Nat} (_hm : m < 16) : F_PORT_SLEEP m ∉ portRegs n :=
  portReg_notMem (by unfold F_PORT_SLEEP F_PORT_STAT; omega) (by unfold F_PORT_SLEEP F_PORT_EVT; omega)
    fun k => by unfold F_PORT_SLEEP F_MDS_STAT; omega

theorem verifyStart_eq (h : g.rd (F_PORT_PREEMPT n) = f.rd (F_PORT_PREEMPT n)) : verifyStart g n = verifyStart f n := by
  have hget : ∀ r : Fld, r.addr = F_PORT_PREEMPT n → g.flag r = f.flag r := fun r ha => by
    unfold FieldDie.flag
    rw [FieldDie.get_eq (g := f) r (ha ▸ h)]
  unfold verifyStart
  rw [hget _ rfl, hget (F_PORT_PREEMPT_verify_dis n) rfl]

theorem enterState_up_verify_state (hn : n < 12) (hr : f.engineRuns n = true)
    (hold : portState f n = 2 ∨ portState f n = 6) :
    (enterState n 3 0 f).get (F_PORT_STAT_verify_state n) = verifyStart f n := by
  rw [enterState_up_eq hr hold, nowUp_eq, startVerify_verify_state hn]
  refine verifyStart_eq ?_
  rw [cameUp_rd (by unfold F_PORT_PREEMPT F_PORT_EVT; omega) (by unfold F_PORT_PREEMPT F_XNG_EVT; omega)]
  exact (showState_portSame n _ 3 0 f.napBreak).rd _ (by unfold F_PORT_PREEMPT; omega) (portPreempt_notMem (by omega))

/-! ### A sleep request that is effective -/

theorem showState_buf (n old st reason : Nat) (f : FieldDie) : (showState n old st reason f).buf = f.buf := by
  unfold showState
  split
  all_goals simp only [FieldDie.put_buf, FieldDie.setPortX_buf]

theorem startVerify_buf (n : Nat) (f : FieldDie) : (startVerify n f).buf = f.buf := by
  unfold startVerify refreshPreempt
  dsimp only
  repeat' split
  all_goals simp only [FieldDie.put_buf, FieldDie.setPortX_buf]

theorem cameUp_buf (n old : Nat) (f : FieldDie) : (cameUp n old f).buf = f.buf := by
  unfold cameUp
  rw [(FieldDie.raise_sendSame _ _ _).buf, FieldDie.count_buf]
  split
  · rfl
  · rw [FieldDie.setPortX_buf]

theorem enterState_up_buf (hr : f.engineRuns n = true) (hold : portState f n = 2 ∨ portState f n = 6) :
    (enterState n 3 0 f).buf = f.buf := by
  rw [enterState_up_eq hr hold, nowUp_eq, startVerify_buf, cameUp_buf, showState_buf, napBreak_buf]

/-- A sleep request is judged by the port's mode, its request, its windows and its queues. -/
theorem sleepWanted_eq (hn : n < 16) (h : PortSame n f g) (hbuf : g.buf = f.buf) :
    sleepWanted g n = sleepWanted f n := by
  have hmode := h.rd _ (by unfold F_PORT_MODE; omega) (portMode_notMem hn)
  have hsleep := h.rd _ (by unfold F_PORT_SLEEP; omega) (portSleep_notMem hn)
  have ht1 : isT1 g n = isT1 f n := by
    unfold isT1 phyMode
    rw [FieldDie.get_eq (g := f) (F_PORT_MODE_phy_mode n) hmode]
  have hflag : ∀ r : Fld, r.addr = F_PORT_SLEEP n → g.flag r = f.flag r := fun r ha => by
    unfold FieldDie.flag
    rw [FieldDie.get_eq (g := f) r (ha ▸ hsleep)]
  unfold sleepWanted queuesBusy
  rw [ht1, hflag _ rfl, hflag (F_PORT_SLEEP_wake_on_tx n) rfl, portX_windows_eq h.side, hbuf]

theorem trySleep_portSame (n : Nat) (f : FieldDie) : PortSame n f (trySleep n f) := by
  unfold trySleep
  split
  · exact enterState_portSame n 4 0 f
  · exact (LowSame.refl f).portSame

theorem trySleep_state (hn : n < 16) (hr : f.engineRuns n = true) (hup : portState f n = 3) :
    portState (trySleep n f) n = if sleepWanted f n = true ∧ (f.portX n).retry = false then 4 else 3 := by
  unfold trySleep
  by_cases h : sleepWanted f n = true ∧ (f.portX n).retry = false
  · rw [if_pos ⟨hup, h⟩, if_pos h, enterState_state n 4 0 f hn (by decide) hr]
  · rw [if_neg (fun hh => h hh.2), if_neg h, hup]

/-- A sleep entry from UP leaves the role, the state of verification and the events of the port. -/
theorem trySleep_keeps (hn : n < 16) :
    (trySleep n f).get (F_PORT_STAT_role_res n) = f.get (F_PORT_STAT_role_res n) ∧
      (trySleep n f).get (F_PORT_STAT_verify_state n) = f.get (F_PORT_STAT_verify_state n) ∧
      (trySleep n f).rd (F_PORT_EVT n) = f.rd (F_PORT_EVT n) := by
  unfold trySleep
  split
  · by_cases hr : f.engineRuns n = true
    · have hstat := enterState_rd_stat (st := 4) (reason := 0) hn hr (by decide)
      refine ⟨?_, ?_, enterState_rd_evt hn (by decide) rfl⟩
      · rw [FieldDie.get_eq (F_PORT_STAT_role_res n) hstat,
          showState_get rfl (by show 2 ≤ 16; decide) (by show 17 < 24; decide), napBreak_get]
      · rw [FieldDie.get_eq (F_PORT_STAT_verify_state n) hstat,
          showState_get rfl (by show 2 ≤ 8; decide) (by show 10 < 24; decide), napBreak_get]
    · have : enterState n 4 0 f = f := if_pos (by simpa using hr)
      rw [this]
      exact ⟨rfl, rfl, rfl⟩
  · exact ⟨rfl, rfl, rfl⟩

/-! ### The link is established -/

/-- The role that an established link shows. -/
def resolvedRole (f : FieldDie) (n : Nat) (master : Bool) : Nat :=
  if !isT1 f n then 0
  else if f.get (F_PORT_MODE_role n) = 1 then 1
  else if f.get (F_PORT_MODE_role n) = 2 then 2
  else if master then 1 else 2

theorem resolvedRole_lt (f : FieldDie) (n : Nat) (master : Bool) : resolvedRole f n master < 4 := by
  unfold resolvedRole
  split_ifs
  all_goals omega

theorem linkEstablished_eq {master : Bool} (hold : portState f n = 2 ∨ portState f n = 6)
    (hwake : (f.portX n).wakeAt ≤ f.now) :
    linkEstablished n master f =
      trySleep n (enterState n 3 0 (f.put (F_PORT_STAT_role_res n) (resolvedRole f n master))) :=
  if_pos ⟨hold, hwake⟩

/-- A link that is established takes the port to UP, or on to SLEEP_ENTRY. -/
theorem exec_linkEstablished {master : Bool} (hr : s.fld.phase = .running) (hn : n < 12) (he : s.fld.engineRuns n = true)
    (hold : portState s.fld n = 2 ∨ portState s.fld n = 6) (hwake : (s.fld.portX n).wakeAt ≤ s.fld.now) :
    ∃ t, exec (.linkEstablished n master) s = .next t ∧ t.fld.sq (F_PORT_EVT n) 0 = true ∧
      portState t.fld n = (if sleepWanted s.fld n = true ∧ (s.fld.portX n).retry = false then 4 else 3) ∧
      t.fld.get (F_PORT_STAT_role_res n) = resolvedRole s.fld n master ∧
      t.fld.get (F_PORT_STAT_verify_state n) = verifyStart s.fld n ∧ PortFrame n [] s.fld s t := by
  have hn' : n < 16 := by omega
  obtain ⟨shown, hshown⟩ : ∃ g, g = s.fld.put (F_PORT_STAT_role_res n) (resolvedRole s.fld n master) := ⟨_, rfl⟩
  have hput : PortSame n s.fld shown := by
    rw [hshown]
    exact putStat_portSame _ _ _ rfl
  have hbuf : shown.buf = s.fld.buf := by rw [hshown, FieldDie.put_buf]
  have he' : shown.engineRuns n = true := (engineRuns_eq hput.side n).trans he
  have hst : portState shown n = portState s.fld n := by
    rw [hshown]
    exact put_port_state _ _ _ _ (.inr ⟨rfl, by show 16 ≤ 17; decide, by show 17 < 28; decide⟩)
  have hold' : portState shown n = 2 ∨ portState shown n = 6 := by rwa [hst]
  have hup : PortSame n s.fld (enterState n 3 0 shown) := hput.trans (enterState_portSame n 3 0 shown)
  obtain ⟨hrole, hverify, hevt⟩ := trySleep_keeps (f := enterState n 3 0 shown) hn'
  have hmeaning : exec (.linkEstablished n master) s =
      .next { s with fld := settle (trySleep n (enterState n 3 0 shown)) } := by
    rw [hshown, ← linkEstablished_eq hold hwake]
    exact State.onItem_running hr hn
  have hget : ∀ (k : FieldDie) (r : Fld), r.addr = F_PORT_STAT n → (settle k).get r = k.get r := fun k r ha =>
    FieldDie.get_eq r (settle_rd_of_notMem k (ha ▸ portStat_notMem_coverRegs hn'))
  refine ⟨_, hmeaning, ?_, ?_, ?_, ?_, (hup.trans (trySleep_portSame n _)).frame⟩
  · rw [FieldDie.sq_eq (settle_rd_of_notMem _ (portEvt_notMem_coverRegs hn')), FieldDie.sq_eq hevt]
    exact enterState_up_link_up hn' he' hold'
  · have hstate := trySleep_state hn' ((engineRuns_eq hup.side n).trans he)
      (enterState_state n 3 0 shown hn' (by decide) he')
    rw [sleepWanted_eq hn' hup ((enterState_up_buf he' hold').trans hbuf), portX_retry_eq hup.side] at hstate
    exact (hget _ _ rfl).trans hstate
  · rw [hget _ _ rfl, hrole, enterState_up_role_res hn' he' hold', hshown,
      FieldDie.get_put _ _ _ (by show 16 ≤ 17; decide) (by show 17 < 32; decide)]
    exact Nat.mod_eq_of_lt (resolvedRole_lt _ _ _)
  · rw [hget _ _ rfl, hverify, enterState_up_verify_state hn he' hold']
    exact verifyStart_eq (hput.rd _ (by unfold F_PORT_PREEMPT; omega) (portPreempt_notMem hn'))

/-! ### The link is lost -/

theorem ports_length_eq (h : g.side = f.side) : g.ports.length = f.ports.length := by
  have hside : ∀ x : FieldDie, x.side.ports.length = x.ports.length := fun x => List.length_map _
  rw [← hside g, h, hside]

/-- A port that leaves link-up for a state that counts as link-down sends nothing any more (R328). -/
theorem enterState_down_silent {st reason : Nat} (hn : n < f.ports.length) (hr : f.engineRuns n = true)
    (hold : stateUp (portState f n) = true) (hup : stateUp st = false) (hne : st ≠ 3) :
    Silent n (enterState n st reason f) := by
  have hlen : n < (showState n (portState f n) st reason f.napBreak).ports.length := by
    rw [ports_length_eq (showState_portSame n _ st reason _).side]
    exact hn
  have hleave : ∀ old (g : FieldDie), stateUp old = true → n < g.ports.length → Silent n (leaveUp n old st g) := by
    intro old g hg hlen
    have habort : Silent n (memberDown n (abortTx n g)) := (abortTx_silent hlen).ofPorts (memberDown_ports _ _)
    have htrunc : Silent n (if (stateUp old && !stateUp st && st != 5) || (old == 5 && st != 5)
        then truncateRx n (memberDown n (abortTx n g)) else memberDown n (abortTx n g)) := by
      split
      · exact truncateRx_silent habort
      · exact habort
    unfold leaveUp
    dsimp only
    rw [if_pos (c := (stateUp old && !stateUp st) = true) (by simp [hg, hup])]
    split
    · exact htrunc.ofPorts (clearCredits_ports _ _)
    · exact htrunc
  unfold enterState
  rw [if_neg (by simp [hr])]
  unfold nowUp
  rw [if_neg hne]
  exact (hleave _ _ hold hlen).ofPorts (nowDown_ports _ _ _ _)

/-- LINK_LOSS at a port that it names. -/
def linkLost (n ns : Nat) (f : FieldDie) : FieldDie := if portState f n = 3 ∧ lossTime f n ≤ ns then loseLink n f else f

theorem exec_linkLoss_eq {ns : Nat} : exec (.linkLoss ⟨n, ns⟩) s = s.onItem n 12 (linkLost n ns) := rfl

theorem exec_linkLoss_running {ns : Nat} (hr : s.fld.phase = .running) (hn : n < 12) :
    exec (.linkLoss ⟨n, ns⟩) s = .next { s with fld := settle (linkLost n ns s.fld) } :=
  exec_linkLoss_eq.trans (State.onItem_running hr hn)

theorem linkLost_eq_lose {ns : Nat} (hup : portState f n = 3) (hloss : lossTime f n ≤ ns) :
    linkLost n ns f = loseLink n f := if_pos ⟨hup, hloss⟩

theorem linkLost_eq_self {ns : Nat} (hloss : ns < lossTime f n) : linkLost n ns f = f :=
  if_neg fun h => absurd h.2 (by omega)

/-- A loss that lasts the time of the mode takes the port to TRAINING. -/
theorem exec_linkLoss {ns : Nat} (hr : s.fld.phase = .running) (hn : n < 12) (he : s.fld.engineRuns n = true)
    (hports : s.fld.ports.length = 17) (hup : portState s.fld n = 3) (hloss : lossTime s.fld n ≤ ns) :
    ∃ t, exec (.linkLoss ⟨n, ns⟩) s = .next t ∧ portState t.fld n = 2 ∧ t.fld.get (F_PORT_STAT_down_reason n) = 1 ∧
      t.fld.sq (F_PORT_EVT n) 1 = true ∧ t.fld.get (F_PORT_STAT_role_res n) = 0 ∧
      (t.fld.portX n).sending = none ∧ (t.fld.portX n).preempted = none ∧ PortFrame n [] s.fld s t := by
  have hn' : n < 16 := by omega
  have hmeaning : exec (.linkLoss ⟨n, ns⟩) s = .next { s with fld := settle (loseLink n s.fld) } := by
    rw [← linkLost_eq_lose hup hloss]
    exact exec_linkLoss_running hr hn
  obtain ⟨down, hdown⟩ : ∃ g, g = enterState n 2 1 s.fld := ⟨_, rfl⟩
  have hlose : loseLink n s.fld = down.put (F_PORT_STAT_role_res n) 0 := by rw [hdown]; rfl
  have hsame : PortSame n s.fld down := by rw [hdown]; exact enterState_portSame n 2 1 s.fld
  have hstat := enterState_rd_stat (st := 2) (reason := 1) hn' he (by decide)
  have hstate : portState down n = 2 := by rw [hdown]; exact enterState_state n 2 1 s.fld hn' (by decide) he
  have hreason : down.get (F_PORT_STAT_down_reason n) = 1 := by
    rw [hdown, FieldDie.get_eq (F_PORT_STAT_down_reason n) hstat, showState_down_reason rfl (by rw [hup]; rfl)]
  have hflag : down.sq (F_PORT_EVT n) 1 = true := by rw [hdown]; exact enterState_link_down hn' he hup rfl
  have hsilent : Silent n (settle (loseLink n s.fld)) := by
    rw [hlose, hdown]
    refine (enterState_down_silent (st := 2) (reason := 1) (by omega) he (by rw [hup]; rfl) rfl (by decide)).ofPorts ?_
    rw [settle_ports, FieldDie.put_ports]
  have hget : ∀ r : Fld, r.addr = F_PORT_STAT n → (settle (loseLink n s.fld)).get r = (loseLink n s.fld).get r :=
    fun r ha => FieldDie.get_eq r (settle_rd_of_notMem _ (ha ▸ portStat_notMem_coverRegs hn'))
  refine ⟨_, hmeaning, ?_, ?_, ?_, ?_, hsilent.1, hsilent.2, ?_⟩
  · refine (hget (F_PORT_STAT_state n) rfl).trans ?_
    rw [hlose]
    exact (put_port_state _ _ _ _ (.inr ⟨rfl, by show 16 ≤ 17; decide, by show 17 < 28; decide⟩)).trans hstate
  · rw [hget _ rfl, hlose]
    refine Eq.trans ?_ hreason
    exact FieldDie.get_put_field _ _ _ _ rfl (by show 16 ≤ 17; decide) (by show 17 < 32; decide) (.inl (by show 17 < 24; decide))
  · rw [FieldDie.sq_eq (settle_rd_of_notMem _ (portEvt_notMem_coverRegs hn')), hlose,
      FieldDie.sq_eq (FieldDie.rd_put_ne _ _ _ _ (portStat_ne_evt n n).symm)]
    exact hflag
  · rw [hget _ rfl, hlose, FieldDie.get_put _ _ _ (by show 16 ≤ 17; decide) (by show 17 < 32; decide)]
    exact Nat.zero_mod _
  · rw [hlose]
    exact (hsame.trans (putStat_portSame _ _ _ rfl)).frame

/-- A shorter loss changes nothing. -/
theorem exec_linkLoss_short {ns : Nat} (hr : s.fld.phase = .running) (hn : n < 12) (hloss : ns < lossTime s.fld n) :
    ∃ t, exec (.linkLoss ⟨n, ns⟩) s = .next t ∧ FieldFrame [] s.fld s t := by
  have hid := linkLost_eq_self hloss
  refine ⟨{ s with fld := settle (linkLost n ns s.fld) }, exec_linkLoss_running hr hn, ?_⟩
  exact FieldFrame.ofSettle (congrArg FieldDie.rest hid) (congrArg FieldDie.cnt hid) (congrArg (·.buf.queued) hid)
    (congrArg (·.buf.waiting) hid) fun a _ => congrArg (·.rd a) hid

end Sys2Proof.Machine

open Sys2Proof Sys2Proof.Machine

/-- Settles O16: the status and the events of the port are read off each part of its change of state, and everything else
that the change moves is a queue, a frame or a register of the parser and above. -/
theorem portLinkComesAndGoes : Obligations.PortLinkComesAndGoes := by
  refine ⟨fun s n master hr hn he hold hwake => ?_, fun s n ns hr hn he hshape hup => ⟨?_, ?_⟩⟩
  · have h := exec_linkEstablished (master := master) hr hn he hold hwake
    unfold resolvedRole verifyStart at h
    simpa only [Bool.not_eq_true'] using h
  · exact exec_linkLoss hr hn he hshape.ports hup
  · exact exec_linkLoss_short hr hn

end

section
/-! Derating (O46): what a sample reads and records, how it sheds, and what readmission ends. -/

namespace Sys2Proof.Machine

variable {s : State} {f g : FieldDie} {n m : Nat}

/-! ### What budget, demand and the next port to shed are read from -/

/-- The registers that a sample moves when it sheds nothing, with those that any command can. -/
def sampleRegs : List Nat := [F_PWR_MEAS, F_PWR_BUDGET, F_PWR_EVT] ++ coverRegs

/-- Every register but those of `sampleRegs` reads as before. -/
def SampleSame (f g : FieldDie) : Prop := ∀ a, a ∉ sampleRegs → g.rd a = f.rd a

theorem SampleSame.trans {h : FieldDie} (a : SampleSame f g) (b : SampleSame g h) : SampleSame f h :=
  fun x hx => (b x hx).trans (a x hx)

theorem notMem_sampleRegs {a : Nat} (h1 : a ≠ F_PWR_MEAS) (h2 : a ≠ F_PWR_BUDGET) (h3 : a ≠ F_PWR_EVT)
    (h4 : a ≠ F_FLT_COVER) (h5 : a ≠ F_FLT_EVT2) (h6 : a ≠ F_XNG_EVT) : a ∉ sampleRegs := by
  simp [sampleRegs, coverRegs, h1, h2, h3, h4, h5, h6]

/-- Registers from the ports' on hold nothing of a sample's but the report of a lost event. -/
theorem notMem_sampleRegs_of_le {a : Nat} (h : 0x100000 ≤ a) (hx : a ≠ F_XNG_EVT) : a ∉ sampleRegs :=
  notMem_sampleRegs (by unfold F_PWR_MEAS; omega) (by unfold F_PWR_BUDGET; omega) (by unfold F_PWR_EVT; omega)
    (by unfold F_FLT_COVER; omega) (by unfold F_FLT_EVT2; omega) hx

theorem SampleSame.rdN {a : Nat} (h : SampleSame f g) (ha : a ∉ sampleRegs) : g.rdN a = f.rdN a :=
  congrArg BitVec.toNat (h a ha)

theorem SampleSame.get {r : Fld} (h : SampleSame f g) (ha : r.addr ∉ sampleRegs) : g.get r = f.get r :=
  FieldDie.get_eq r (h r.addr ha)

theorem budgetOf_eq (h : SampleSame f g) (vline : Nat) (tj : Int) : budgetOf g vline tj = budgetOf f vline tj := by
  have hbytes : ∀ lo hi, lo ∉ sampleRegs → hi ∉ sampleRegs → breakBytes g lo hi = breakBytes f lo hi := by
    intro lo hi hlo hhi
    unfold breakBytes
    rw [h.rdN hlo, h.rdN hhi]
  unfold budgetOf
  dsimp only
  rw [hbytes F_PWR_CURVE_V0 F_PWR_CURVE_V1 (by decide) (by decide),
    hbytes F_PWR_CURVE_T0 F_PWR_CURVE_T1 (by decide) (by decide),
    h.rdN (notMem_sampleRegs_of_le (by omega) (by unfold F_XNG_EVT; omega))]

theorem drawsPower_eq (h : SampleSame f g) (hn : n < 16) : drawsPower g n = drawsPower f n := by
  unfold drawsPower portState FieldDie.flag
  rw [h.get (r := F_PORT_MODE_enable n) (notMem_sampleRegs_of_le (by show _ ≤ F_PORT_MODE n; unfold F_PORT_MODE; omega)
      (by show F_PORT_MODE n ≠ _; unfold F_PORT_MODE F_XNG_EVT; omega)),
    h.get (r := F_PORT_STAT_state n) (notMem_sampleRegs_of_le (by show _ ≤ F_PORT_STAT n; unfold F_PORT_STAT; omega)
      (portStat_ne_xng hn))]

theorem isShed_eq (h : SampleSame f g) (n : Nat) : isShed g n = isShed f n := by
  unfold isShed
  rw [h.rdN (by decide)]

theorem portCost_eq (h : SampleSame f g) (hn : n < 16) : portCost g n = portCost f n := by
  unfold portCost phyMode
  rw [h.rdN (a := F_PWR_COST) (by decide),
    h.get (r := F_PORT_MODE_phy_mode n) (notMem_sampleRegs_of_le (by show _ ≤ F_PORT_MODE n; unfold F_PORT_MODE; omega)
      (by show F_PORT_MODE n ≠ _; unfold F_PORT_MODE F_XNG_EVT; omega))]

theorem demand_eq (h : SampleSame f g) : demand g = demand f := by
  unfold demand demandOf
  have hfilter : (List.range 16).filter (fun n => drawsPower g n && !isShed g n) =
      (List.range 16).filter (fun n => drawsPower f n && !isShed f n) :=
    List.filter_congr fun n hn => by rw [drawsPower_eq h (List.mem_range.1 hn), isShed_eq h]
  rw [hfilter]
  refine congrArg List.sum (List.map_congr_left fun n hn => portCost_eq h ?_)
  exact List.mem_range.1 (List.mem_filter.1 hn).1

theorem overBudget_eq (h : SampleSame f g) (budget : Nat) : overBudget g budget = overBudget f budget := by
  unfold overBudget
  rw [demand_eq h]

theorem nextShed_eq (h : SampleSame f g) : nextShed g = nextShed f := by
  have hpri : ∀ m, shedPri g m = shedPri f m := by
    intro m
    unfold shedPri
    congr 1
    split
    · exact h.rdN (by decide)
    · exact h.rdN (by decide)
  unfold nextShed
  refine List.foldl_ext _ _ _ fun b n hn => ?_
  rw [drawsPower_eq h (List.mem_range.1 hn), isShed_eq h]
  simp only [hpri]

/-! ### The record of a sample -/

/-- Budget and demand in their register. -/
def showBudget (budget : Nat) (f : FieldDie) : FieldDie :=
  (f.put F_PWR_BUDGET_budget budget).put F_PWR_BUDGET_demand (demand f)

/-- Whether a sample was over its budget, and how many have covered readmission. -/
def noteSample (exceeds : Bool) (k : Nat) (f : FieldDie) : FieldDie :=
  { f with pwr := { f.pwr with overRaised := exceeds, okFor := k } }

theorem noteSample_rd (exceeds : Bool) (k : Nat) (f : FieldDie) (a : Nat) : (noteSample exceeds k f).rd a = f.rd a := rfl

theorem noteSample_get (exceeds : Bool) (k : Nat) (f : FieldDie) (r : Fld) : (noteSample exceeds k f).get r = f.get r := rfl

theorem noteSample_cnt (exceeds : Bool) (k : Nat) (f : FieldDie) : (noteSample exceeds k f).cnt = f.cnt := rfl

theorem noteSample_buf (exceeds : Bool) (k : Nat) (f : FieldDie) : (noteSample exceeds k f).buf = f.buf := rfl

theorem noteSample_rest {exceeds : Bool} {k : Nat} (h : g.core = f.core) :
    (noteSample exceeds k g).rest = (noteSample exceeds k f).rest := by
  have hcore : ∀ x : FieldDie, (noteSample exceeds k x).rest = (noteSample exceeds k x.core).rest := fun _ => rfl
  rw [hcore g, hcore f, h]

/-- How many samples have covered readmission with this one. -/
def coveredFor (budget : Nat) (f : FieldDie) : Nat :=
  if f.rdN F_PWR_SHED ≠ 0 ∧ coversReadmit f budget then f.pwr.okFor + 1 else 0

/-- Whether a sample stays over its budget. -/
def staysOver (budget : Nat) (f : FieldDie) : Bool := overBudget f budget && f.flag F_PWR_CTRL_derate_en

/-- What a sample of this budget records, with what is to be shed shed. -/
def recordSample (budget : Nat) (f : FieldDie) : FieldDie :=
  let h := showBudget budget f
  let g := noteSample (staysOver budget h) (coveredFor budget h) h
  if staysOver budget h && !h.pwr.overRaised then g.raise F_PWR_EVT 7 else g

theorem showBudget_rd {budget a : Nat} (h : a ≠ F_PWR_BUDGET) : (showBudget budget f).rd a = f.rd a := by
  unfold showBudget
  rw [FieldDie.rd_put_ne _ _ _ _ h, FieldDie.rd_put_ne _ _ _ _ h]

theorem FieldDie.put_core (f : FieldDie) (r : Fld) (v : Nat) : (f.put r v).core = f.core := rfl

theorem showBudget_core (budget : Nat) (f : FieldDie) : (showBudget budget f).core = f.core := by
  unfold showBudget
  rw [FieldDie.put_core, FieldDie.put_core]

theorem showBudget_cnt (budget : Nat) (f : FieldDie) : (showBudget budget f).cnt = f.cnt := by
  unfold showBudget
  rw [FieldDie.put_cnt, FieldDie.put_cnt]

theorem showBudget_buf (budget : Nat) (f : FieldDie) : (showBudget budget f).buf = f.buf := by
  unfold showBudget
  rw [FieldDie.put_buf, FieldDie.put_buf]

theorem showBudget_same (budget : Nat) (f : FieldDie) : SampleSame f (showBudget budget f) := fun a ha =>
  showBudget_rd fun he => ha (by rw [he]; decide)

theorem showBudget_budget {budget : Nat} (hb : budget < 65536) :
    (showBudget budget f).get F_PWR_BUDGET_budget = budget := by
  unfold showBudget
  rw [FieldDie.get_put_field _ F_PWR_BUDGET_demand F_PWR_BUDGET_budget _ rfl (by decide) (by decide) (.inl (by decide)),
    FieldDie.get_put f F_PWR_BUDGET_budget budget (by decide) (by decide)]
  exact Nat.mod_eq_of_lt hb

/-- The budget of a sample. -/
def sampleBudget (vline tj : Nat) (f : FieldDie) : Nat := budgetOf f vline (toSigned 16 tj)

/-- The measurement of a sample, in its register. -/
def measured (vline tj : Nat) (f : FieldDie) : FieldDie := f.wrN F_PWR_MEAS (tj * 65536 + vline)

theorem measured_core (vline tj : Nat) (f : FieldDie) : (measured vline tj f).core = f.core := rfl

theorem measured_cnt (vline tj : Nat) (f : FieldDie) : (measured vline tj f).cnt = f.cnt := rfl

theorem measured_buf (vline tj : Nat) (f : FieldDie) : (measured vline tj f).buf = f.buf := rfl

theorem measured_same (vline tj : Nat) (f : FieldDie) : SampleSame f (measured vline tj f) := fun a ha =>
  (FieldDie.rd_wrN f F_PWR_MEAS a _).trans (if_neg fun he => ha (by rw [he]; decide))

theorem measured_rdN {vline tj : Nat} (hv : vline < 65536) (ht : tj < 65536) :
    (measured vline tj f).rdN F_PWR_MEAS = tj * 65536 + vline :=
  FieldDie.rdN_of_rd ((FieldDie.rd_wrN f F_PWR_MEAS _ _).trans (if_pos rfl)) (by omega)

theorem derateSample_eq {vline tj : Nat} (hv : vline < 65536) (ht : tj < 65536) :
    derateSample vline tj f = recordSample (sampleBudget vline tj f)
      (if f.flag F_PWR_CTRL_derate_en then shedPorts (sampleBudget vline tj f) 16 (measured vline tj f)
        else measured vline tj f) := by
  have hbudget : budgetOf (measured vline tj f) vline (toSigned 16 tj) = sampleBudget vline tj f :=
    budgetOf_eq (measured_same vline tj f) _ _
  have hflag : (measured vline tj f).flag F_PWR_CTRL_derate_en = f.flag F_PWR_CTRL_derate_en :=
    congrArg (· != 0) ((measured_same vline tj f).get (r := F_PWR_CTRL_derate_en) (by decide))
  rw [← hbudget, ← hflag]
  unfold derateSample measured
  rw [Nat.mod_eq_of_lt hv, Nat.mod_eq_of_lt ht]
  rfl

theorem recordSample_rd {budget a : Nat} (h2 : a ≠ F_PWR_BUDGET) (h3 : a ≠ F_PWR_EVT) (hx : a ≠ F_XNG_EVT) :
    (recordSample budget f).rd a = f.rd a := by
  unfold recordSample
  dsimp only
  split
  · rw [FieldDie.raise_rd _ _ _ _ h3 hx, noteSample_rd, showBudget_rd h2]
  · rw [noteSample_rd, showBudget_rd h2]

theorem recordSample_same (budget : Nat) (f : FieldDie) : SampleSame f (recordSample budget f) := fun a ha =>
  recordSample_rd (fun he => ha (by rw [he]; decide)) (fun he => ha (by rw [he]; decide))
    (fun he => ha (by rw [he]; decide))

theorem recordSample_budget {budget : Nat} (hb : budget < 65536) :
    (recordSample budget f).get F_PWR_BUDGET_budget = budget := by
  have hrd : (recordSample budget f).rd F_PWR_BUDGET = (showBudget budget f).rd F_PWR_BUDGET := by
    unfold recordSample
    dsimp only
    split
    · rw [FieldDie.raise_rd _ _ _ _ (by decide) (by decide), noteSample_rd]
    · rw [noteSample_rd]
  rw [FieldDie.get_eq F_PWR_BUDGET_budget hrd, showBudget_budget hb]

theorem sampleBudget_lt (vline tj : Nat) (f : FieldDie) : sampleBudget vline tj f < 65536 := by
  unfold sampleBudget budgetOf
  exact bitsOf_lt _ _ _

/-- A sample that is not over its budget, or of a die that does not derate, ends the report of one that was. -/
theorem recordSample_calm {budget : Nat}
    (h : f.flag F_PWR_CTRL_derate_en = false ∨ overBudget f budget = false) :
    recordSample budget f =
      noteSample false (coveredFor budget (showBudget budget f)) (showBudget budget f) := by
  have hflag : (showBudget budget f).flag F_PWR_CTRL_derate_en = f.flag F_PWR_CTRL_derate_en :=
    congrArg (· != 0) ((showBudget_same budget f).get (r := F_PWR_CTRL_derate_en) (by decide))
  have hover : staysOver budget (showBudget budget f) = false := by
    unfold staysOver
    rw [overBudget_eq (showBudget_same budget f), hflag]
    rcases h with h | h
    · rw [h, Bool.and_false]
    · rw [h, Bool.false_and]
  unfold recordSample
  dsimp only
  rw [hover, Bool.false_and, if_neg Bool.false_ne_true]

/-- A sample that sheds nothing records its measurement and its budget. -/
theorem exec_derateSample_calm {vline tj : Nat} (hr : s.fld.phase = .running) (hv : vline < 65536) (ht : tj < 65536)
    (h : s.fld.flag F_PWR_CTRL_derate_en = false ∨ overBudget s.fld (sampleBudget vline tj s.fld) = false) :
    ∃ t, exec (.derateSample vline tj) s = .next t ∧ t.fld.rdN F_PWR_MEAS = tj * 65536 + vline ∧
      t.fld.get F_PWR_BUDGET_budget = sampleBudget vline tj s.fld ∧
      FieldFrame [F_PWR_MEAS, F_PWR_BUDGET] { s.fld with pwr := { s.fld.pwr with
        overRaised := false, okFor := t.fld.pwr.okFor } } s t := by
  obtain ⟨m, hm⟩ : ∃ m, m = measured vline tj s.fld := ⟨_, rfl⟩
  obtain ⟨budget, hb⟩ : ∃ b, b = sampleBudget vline tj s.fld := ⟨_, rfl⟩
  have hsame : SampleSame s.fld m := hm ▸ measured_same vline tj s.fld
  have hflag : m.flag F_PWR_CTRL_derate_en = s.fld.flag F_PWR_CTRL_derate_en :=
    congrArg (· != 0) (hsame.get (r := F_PWR_CTRL_derate_en) (by decide))
  have hover : overBudget m budget = overBudget s.fld budget := overBudget_eq hsame budget
  have hkept : (if s.fld.flag F_PWR_CTRL_derate_en then shedPorts budget 16 m else m) = m := by
    split
    next hen =>
      have hin : overBudget m budget = false := by
        rw [hover, hb]
        exact h.resolve_left (by simp [hen])
      exact if_pos hin
    · rfl
  obtain ⟨k, hcalm⟩ : ∃ k, derateSample vline tj s.fld = noteSample false k (showBudget budget m) := by
    refine ⟨coveredFor budget (showBudget budget m), ?_⟩
    rw [derateSample_eq hv ht, ← hb, ← hm, hkept]
    exact recordSample_calm (by rw [hflag, hover, hb]; exact h)
  have hrd : ∀ a, a ∉ [F_PWR_MEAS, F_PWR_BUDGET] → (noteSample false k (showBudget budget m)).rd a = s.fld.rd a := by
    intro a ha
    obtain ⟨h1, h2⟩ : a ≠ F_PWR_MEAS ∧ a ≠ F_PWR_BUDGET := by simpa using ha
    rw [noteSample_rd, showBudget_rd h2, hm]
    exact (FieldDie.rd_wrN s.fld F_PWR_MEAS a _).trans (if_neg h1)
  have hmeaning : exec (.derateSample vline tj) s =
      .next { s with fld := settle (noteSample false k (showBudget budget m)) } := by
    rw [← hcalm]
    exact State.onRun_running hr
  refine ⟨_, hmeaning, ?_, ?_, ?_⟩
  · refine (congrArg BitVec.toNat (settle_rd_of_notMem _ (by decide))).trans ?_
    rw [noteSample_rd, showBudget_rd (by decide), hm]
    exact measured_rdN hv ht
  · rw [FieldDie.get_eq F_PWR_BUDGET_budget (settle_rd_of_notMem _ (by decide)), noteSample_get, ← hb]
    exact showBudget_budget (hb ▸ sampleBudget_lt _ _ _)
  · have hk : (settle (noteSample false k (showBudget budget m))).pwr.okFor = k := by rw [settle_pwr]; rfl
    rw [hk]
    refine FieldFrame.ofSettle (f' := noteSample false k s.fld) (noteSample_rest ?_) ?_ ?_ ?_ hrd
    · rw [showBudget_core, hm, measured_core]
    · rw [noteSample_cnt, noteSample_cnt, showBudget_cnt, hm, measured_cnt]
    · rw [noteSample_buf, noteSample_buf, showBudget_buf, hm, measured_buf]
    · rw [noteSample_buf, noteSample_buf, showBudget_buf, hm, measured_buf]

end Sys2Proof.Machine
end

section
/-! Shedding and readmission (O46): each port that is shed is one more that stays shed, and readmission ends the hold of
each. -/

namespace Sys2Proof.Machine

variable {s : State} {f g : FieldDie} {n m : Nat}

/-! ### One port is shed -/

/-- Port `n` is shed (R151, R153). -/
def shedPort (n : Nat) (f : FieldDie) : FieldDie :=
  (holdBegin n 4 (f.wrN F_PWR_SHED (setBit (f.rdN F_PWR_SHED) n))).raise F_PWR_EVT 4

theorem portRegs_ge {a : Nat} (h : a ∈ portRegs n) : 0x100000 ≤ a := by
  unfold portRegs at h
  split at h
  · simp only [List.mem_cons, List.not_mem_nil, or_false] at h
    unfold F_PORT_STAT F_PORT_EVT F_MDS_STAT at h
    omega
  · simp only [List.mem_cons, List.not_mem_nil, or_false] at h
    unfold F_PORT_STAT F_PORT_EVT at h
    omega

/-- The hold in the port's record and the reason in its status. -/
def noteHold (n reason : Nat) (f : FieldDie) : FieldDie :=
  (f.setPortX n fun x => { x with holds := if reason ∈ x.holds then x.holds else x.holds ++ [reason] }).put
    (F_PORT_STAT_down_reason n) reason

theorem holdBegin_eq (n reason : Nat) (f : FieldDie) : holdBegin n reason f =
    if portState (noteHold n reason f) n = 0 then noteHold n reason f else enterState n 1 reason (noteHold n reason f) := rfl

theorem noteHold_rd {a reason : Nat} (ha : a ≠ F_PORT_STAT n) : (noteHold n reason f).rd a = f.rd a := by
  unfold noteHold
  rw [FieldDie.rd_put_ne _ _ _ _ ha, setPortX_rd]

theorem noteHold_state {reason : Nat} : portState (noteHold n reason f) n = portState f n := by
  unfold noteHold
  rw [put_port_state _ _ _ _ (.inr ⟨rfl, by show 24 ≤ 27; decide, by show 27 < 28; decide⟩), setPortX_state]

theorem noteHold_flt (n reason : Nat) (f : FieldDie) : (noteHold n reason f).flt = f.flt := by
  unfold noteHold
  rw [FieldDie.put_flt, FieldDie.setPortX_flt]

/-- A hold moves no register below the ports', and of those no port's status but its own. -/
theorem holdBegin_rd {a reason : Nat} (h : a < 0x140000) (ha : a ∉ portRegs n) :
    (holdBegin n reason f).rd a = f.rd a := by
  have hput : (noteHold n reason f).rd a = f.rd a := noteHold_rd fun he => ha (by simp [portRegs, he])
  rw [holdBegin_eq]
  split
  · exact hput
  · exact ((enterState_portSame n 1 reason _).rd a h ha).trans hput

theorem shedPort_rd {a : Nat} (h : a < 0x140000) (ha : a ∉ portRegs n) (hs : a ≠ F_PWR_SHED) (he : a ≠ F_PWR_EVT) :
    (shedPort n f).rd a = f.rd a := by
  unfold shedPort
  rw [FieldDie.raise_rd _ _ _ _ he (by unfold F_XNG_EVT; omega), holdBegin_rd h ha, FieldDie.rd_wrN, if_neg hs]

theorem shedPort_isShed (hn : n < 16) : isShed (shedPort n f) m = (decide (n = m) || isShed f m) := by
  have hrd : (shedPort n f).rd F_PWR_SHED = word (setBit (f.rdN F_PWR_SHED) n) := by
    unfold shedPort
    rw [FieldDie.raise_rd _ _ _ _ (by decide) (by decide),
      holdBegin_rd (by decide) (fun h => absurd (portRegs_ge h) (by decide)), FieldDie.rd_wrN, if_pos rfl]
  unfold isShed
  rw [FieldDie.rdN_of_rd hrd (setBit_lt _ _ (f.rdN_lt _) (by omega)), hasBit_setBit]

theorem shedPort_reports : (shedPort n f).sq F_PWR_EVT 4 = true := FieldDie.raise_sq _ _ _ (by decide) (by decide)

/-- A port that is shed and not disabled is held. -/
theorem shedPort_state (hn : n < 16) (hr : f.engineRuns n = true) (hst : portState f n ≠ 0) :
    portState (shedPort n f) n = 1 := by
  obtain ⟨g, hg⟩ : ∃ g, g = noteHold n 4 (f.wrN F_PWR_SHED (setBit (f.rdN F_PWR_SHED) n)) := ⟨_, rfl⟩
  have hgst : portState g n = portState f n := by
    rw [hg, noteHold_state]
    refine FieldDie.get_eq _ ?_
    rw [FieldDie.rd_wrN, if_neg (by show F_PORT_STAT n ≠ F_PWR_SHED; unfold F_PORT_STAT F_PWR_SHED; omega)]
  have hgr : g.engineRuns n = true := by
    unfold FieldDie.engineRuns at hr ⊢
    rw [hg, noteHold_flt, FieldDie.wrN_flt]
    exact hr
  have hhold : holdBegin n 4 (f.wrN F_PWR_SHED (setBit (f.rdN F_PWR_SHED) n)) = enterState n 1 4 g := by
    rw [holdBegin_eq, ← hg, if_neg (by rw [hgst]; exact hst)]
  unfold shedPort
  rw [hhold]
  refine (FieldDie.get_eq _ (FieldDie.raise_rd _ _ _ _ ?_ (portStat_ne_xng hn))).trans
    (enterState_state n 1 4 g hn (by decide) hgr)
  show F_PORT_STAT n ≠ F_PWR_EVT
  unfold F_PORT_STAT F_PWR_EVT
  omega

/-! ### What shedding further ports leaves -/

/-- From `f` to `g` further ports have been shed. -/
structure ShedMore (f g : FieldDie) : Prop where
  rd : ∀ a, a < 0x20000 → a ≠ F_PWR_SHED → a ≠ F_PWR_EVT → g.rd a = f.rd a
  shed : ∀ m, isShed f m = true → isShed g m = true
  state : ∀ m, m < 16 → isShed f m = true → portState g m = portState f m
  reported : f.sq F_PWR_EVT 4 = true → g.sq F_PWR_EVT 4 = true

theorem ShedMore.refl (f : FieldDie) : ShedMore f f := ⟨fun _ _ _ _ => rfl, fun _ h => h, fun _ _ _ => rfl, fun h => h⟩

theorem ShedMore.trans {h : FieldDie} (a : ShedMore f g) (b : ShedMore g h) : ShedMore f h where
  rd x hx hs he := (b.rd x hx hs he).trans (a.rd x hx hs he)
  shed m hm := b.shed m (a.shed m hm)
  state m hm hs := (b.state m hm (a.shed m hs)).trans (a.state m hm hs)
  reported hr := b.reported (a.reported hr)

theorem portStat_notMem_of_ne (_hm : m < 16) (hne : m ≠ n) : F_PORT_STAT m ∉ portRegs n :=
  portReg_notMem (by unfold F_PORT_STAT; omega) (portStat_ne_evt m n) fun k => by unfold F_PORT_STAT F_MDS_STAT; omega

theorem shedPort_more (hn : n < 16) (hs : isShed f n = false) : ShedMore f (shedPort n f) where
  rd a ha h1 h2 := shedPort_rd (by omega) (fun h => absurd (portRegs_ge h) (by omega)) h1 h2
  shed m hm := by rw [shedPort_isShed hn, hm, Bool.or_true]
  state m hm hshed := by
    have hne : m ≠ n := by
      rintro rfl
      rw [hs] at hshed
      cases hshed
    exact FieldDie.get_eq _ (shedPort_rd (portStat_lt hm) (portStat_notMem_of_ne hm hne)
      (by show F_PORT_STAT m ≠ F_PWR_SHED; unfold F_PORT_STAT F_PWR_SHED; omega)
      (by show F_PORT_STAT m ≠ F_PWR_EVT; unfold F_PORT_STAT F_PWR_EVT; omega))
  reported _ := shedPort_reports

/-- The port that is shed next is one of the sixteen that is not shed yet. -/
theorem nextShed_some (h : nextShed f = some n) : n < 16 ∧ isShed f n = false := by
  have hfold : ∀ (ns : List Nat) (b : Option Nat), (∀ k ∈ ns, k < 16) →
      (∀ k ∈ b, k < 16 ∧ isShed f k = false) →
      ∀ k ∈ ns.foldl (fun (b : Option Nat) n =>
        if drawsPower f n = false ∨ isShed f n ∨ shedPri f n = 0 then b
        else match b with
          | some m => if shedPri f m ≤ shedPri f n then some n else b
          | none => some n) b, k < 16 ∧ isShed f k = false := by
    intro ns
    induction ns with
    | nil => exact fun b _ hb => hb
    | cons x xs ih =>
      intro b hns hb
      refine ih _ (fun k hk => hns k (List.mem_cons_of_mem _ hk)) ?_
      beta_reduce
      split
      · exact hb
      next hx =>
        have hgood : x < 16 ∧ isShed f x = false :=
          ⟨hns x List.mem_cons_self, by simpa using fun h => hx (.inr (.inl h))⟩
        split
        · split
          · rintro k ⟨⟩
            exact hgood
          · exact hb
        · rintro k ⟨⟩
          exact hgood
  exact hfold (List.range 16) none (fun k hk => List.mem_range.1 hk) (by simp) n h

/-! ### Shedding ends -/

/-- The ports that are not shed. -/
def unshed (f : FieldDie) : Finset Nat := (Finset.range 16).filter (fun m => isShed f m = false)

theorem unshed_shedPort (hn : n < 16) (hs : isShed f n = false) : (unshed (shedPort n f)).card < (unshed f).card := by
  refine Finset.card_lt_card ⟨fun m hm => ?_, fun hsub => ?_⟩
  · obtain ⟨h16, hm⟩ := Finset.mem_filter.1 hm
    rw [shedPort_isShed hn, Bool.or_eq_false_iff] at hm
    exact Finset.mem_filter.2 ⟨h16, hm.2⟩
  · have hmem := hsub (Finset.mem_filter.2 ⟨Finset.mem_range.2 hn, hs⟩)
    have := (Finset.mem_filter.1 hmem).2
    rw [shedPort_isShed hn] at this
    simp at this

theorem shedPorts_succ (budget k : Nat) (f : FieldDie) : shedPorts budget (k + 1) f =
    if overBudget f budget = false then f
    else match nextShed f with
      | some n => shedPorts budget k (shedPort n f)
      | none => f := by
  rw [shedPorts]
  split
  · rfl
  · cases nextShed f with
    | none => rfl
    | some n => rfl

theorem shedPorts_more (budget k : Nat) (f : FieldDie) : ShedMore f (shedPorts budget k f) := by
  induction k generalizing f with
  | zero => exact .refl f
  | succ k ih =>
    rw [shedPorts_succ]
    split
    · exact .refl f
    · split
      next n hn =>
        obtain ⟨h16, hs⟩ := nextShed_some hn
        exact (shedPort_more h16 hs).trans (ih _)
      · exact .refl f

/-- With a turn for each port that is not shed, shedding meets the budget or runs out of ports. -/
theorem shedPorts_ends (budget k : Nat) (f : FieldDie) (h : (unshed f).card ≤ k) :
    overBudget (shedPorts budget k f) budget = false ∨ nextShed (shedPorts budget k f) = none := by
  induction k generalizing f with
  | zero =>
    right
    show nextShed f = none
    cases hx : nextShed f with
    | none => rfl
    | some n =>
      obtain ⟨h16, hs⟩ := nextShed_some hx
      have hmem : n ∈ unshed f := Finset.mem_filter.2 ⟨Finset.mem_range.2 h16, hs⟩
      have := Finset.card_pos.2 ⟨n, hmem⟩
      omega
  | succ k ih =>
    rw [shedPorts_succ]
    split
    next hover => exact .inl hover
    · split
      next n hn =>
        obtain ⟨h16, hs⟩ := nextShed_some hn
        have := unshed_shedPort h16 hs
        exact ih _ (by omega)
      next hnone => exact .inr hnone

theorem unshed_card_le (f : FieldDie) : (unshed f).card ≤ 16 :=
  (Finset.card_filter_le _ _).trans (by rw [Finset.card_range])

/-- What a sample over its budget comes to: the next port first, and then as many as it takes. -/
theorem shedPorts_over {budget : Nat} (hover : overBudget f budget = true) (hnext : nextShed f = some n)
    (hr : f.engineRuns n = true) (hst : portState f n ≠ 0) :
    isShed (shedPorts budget 16 f) n = true ∧ portState (shedPorts budget 16 f) n = 1 ∧
      (shedPorts budget 16 f).sq F_PWR_EVT 4 = true := by
  obtain ⟨h16, hs⟩ := nextShed_some hnext
  have hfirst : shedPorts budget 16 f = shedPorts budget 15 (shedPort n f) := by
    rw [shedPorts_succ, if_neg (by simp [hover]), hnext]
  have hmore := shedPorts_more budget 15 (shedPort n f)
  have hshed : isShed (shedPort n f) n = true := by rw [shedPort_isShed h16]; simp
  rw [hfirst]
  exact ⟨hmore.shed n hshed, (hmore.state n h16 hshed).trans (shedPort_state h16 hr hst), hmore.reported shedPort_reports⟩

theorem sq_raise {a b j : Nat} (ha : a ≠ F_XNG_EVT) (hb : b < 16) (hj : j < 16) (h : f.sq a j = true) :
    (f.raise a b).sq a j = true := by
  have hq : (f.raise a b).sq a j = (f.setFlag a b).sq a j := by
    refine FieldDie.sq_eq ?_
    unfold FieldDie.raise
    dsimp only
    rw [FieldDie.queueEvt_rd _ _ _ ha]
  rw [hq, FieldDie.sq_setFlag _ _ _ _ hb hj, h, Bool.or_true]

theorem recordSample_reported {budget : Nat} (h : f.sq F_PWR_EVT 4 = true) : (recordSample budget f).sq F_PWR_EVT 4 = true := by
  have hnote : ∀ e k, (noteSample e k (showBudget budget f)).sq F_PWR_EVT 4 = true := fun e k => by
    rw [FieldDie.sq_eq (noteSample_rd _ _ _ _), FieldDie.sq_eq (showBudget_rd (by decide)), h]
  unfold recordSample
  dsimp only
  split
  · exact sq_raise (by decide) (by decide) (by decide) (hnote _ _)
  · exact hnote _ _

/-- A sample over its budget sheds. -/
theorem exec_derateSample_over {vline tj : Nat} (hr : s.fld.phase = .running) (hv : vline < 65536) (ht : tj < 65536)
    (he : s.fld.engineRuns n = true) (hen : s.fld.flag F_PWR_CTRL_derate_en = true)
    (hover : overBudget s.fld (sampleBudget vline tj s.fld) = true) (hnext : nextShed s.fld = some n)
    (hst : portState s.fld n ≠ 0) :
    ∃ t, exec (.derateSample vline tj) s = .next t ∧ t.fld.rdN F_PWR_MEAS = tj * 65536 + vline ∧
      t.fld.get F_PWR_BUDGET_budget = sampleBudget vline tj s.fld ∧ isShed t.fld n = true ∧ portState t.fld n = 1 ∧
      t.fld.sq F_PWR_EVT 4 = true ∧ (overBudget t.fld (sampleBudget vline tj s.fld) = false ∨ nextShed t.fld = none) ∧
      FieldOnly s t := by
  obtain ⟨m, hm⟩ : ∃ m, m = measured vline tj s.fld := ⟨_, rfl⟩
  obtain ⟨budget, hb⟩ : ∃ b, b = sampleBudget vline tj s.fld := ⟨_, rfl⟩
  obtain ⟨r, hshedr⟩ : ∃ r, r = shedPorts budget 16 m := ⟨_, rfl⟩
  have hmeasured : SampleSame s.fld m := hm ▸ measured_same vline tj s.fld
  have h16 : n < 16 := (nextShed_some hnext).1
  have hstat : F_PORT_STAT n ∉ sampleRegs := notMem_sampleRegs_of_le (by unfold F_PORT_STAT; omega) (portStat_ne_xng h16)
  have hmst : portState m n ≠ 0 := by
    rw [show portState m n = portState s.fld n from hmeasured.get hstat]
    exact hst
  have hmr : m.engineRuns n = true := by rw [hm]; exact he
  obtain ⟨hshed, hheld, hrep⟩ := shedPorts_over (budget := budget) (by rw [overBudget_eq hmeasured, hb]; exact hover)
    ((nextShed_eq hmeasured).trans hnext) hmr hmst
  have hends := shedPorts_ends budget 16 m (unshed_card_le m)
  rw [← hshedr] at hshed hheld hrep hends
  have hmore : ShedMore m r := hshedr ▸ shedPorts_more budget 16 m
  have hmeaning : exec (.derateSample vline tj) s = .next { s with fld := settle (recordSample budget r) } := by
    have heq : derateSample vline tj s.fld = recordSample budget r := by
      rw [derateSample_eq hv ht, if_pos hen, hshedr, hm, hb]
    rw [← heq]
    exact State.onRun_running hr
  have hsettle : SampleSame r (settle (recordSample budget r)) :=
    (recordSample_same budget r).trans fun a ha => settle_rd_of_notMem _ fun hc => ha (List.mem_append_right _ hc)
  rw [← hb]
  refine ⟨_, hmeaning, ?_, ?_, ?_, ?_, ?_, ?_, ⟨rfl, rfl, rfl, rfl⟩⟩
  · refine (congrArg BitVec.toNat (settle_rd_of_notMem _ (by decide))).trans ?_
    rw [recordSample_rd (by decide) (by decide) (by decide), hmore.rd _ (by decide) (by decide) (by decide), hm]
    exact measured_rdN hv ht
  · rw [FieldDie.get_eq F_PWR_BUDGET_budget (settle_rd_of_notMem _ (by decide))]
    exact recordSample_budget (hb ▸ sampleBudget_lt _ _ _)
  · exact (isShed_eq hsettle n).trans hshed
  · exact (hsettle.get hstat).trans hheld
  · rw [FieldDie.sq_eq (settle_rd_of_notMem _ (by decide))]
    exact recordSample_reported hrep
  · rw [overBudget_eq hsettle, nextShed_eq hsettle]
    exact hends

/-! ### Readmission -/

theorem portX_setPortX_ne {p : PortX → PortX} (h : m ≠ n) : (f.setPortX m p).portX n = f.portX n := by
  unfold FieldDie.portX FieldDie.setPortX modAt
  simp [List.getD_eq_getElem?_getD, h]

theorem portX_of_ports (h : g.ports = f.ports) (n : Nat) : g.portX n = f.portX n := by
  unfold FieldDie.portX
  rw [h]

/-- A HELD port that starts training moves no other port's record. -/
theorem enterState_training_portX (hst : portState f m = 1) (h : m ≠ n) : (enterState m 2 1 f).portX n = f.portX n := by
  have hshow : ∀ g : FieldDie, (showState m 1 2 1 g).portX n = g.portX n := by
    intro g
    unfold showState
    dsimp only
    rw [if_neg (by decide), portX_setPortX_ne h]
    exact portX_of_ports ((FieldDie.put_ports _ _ _).trans (FieldDie.put_ports _ _ _)) n
  unfold enterState
  split
  · rfl
  · unfold nowUp
    dsimp only
    rw [if_neg (by decide), portX_of_ports (nowDown_ports _ _ _ _), hst]
    unfold leaveUp
    rw [if_neg (by decide), if_neg (by decide), if_neg (by decide), hshow, portX_of_ports (FieldDie.napBreak_ports f)]

theorem holdEnd_portX {reason : Nat} (h : m ≠ n) : (holdEnd m reason f).portX n = f.portX n := by
  unfold holdEnd
  dsimp only
  split
  next hc => rw [enterState_training_portX hc.1 h, portX_setPortX_ne h]
  · exact portX_setPortX_ne h

theorem holdEnd_holds {reason : Nat} : ((holdEnd n reason f).portX n).holds =
    (f.portX n).holds.filter (fun r => r != reason) := by
  have hset : ((f.setPortX n (fun x => { x with holds := x.holds.filter (fun r => r != reason) })).portX n).holds =
      (f.portX n).holds.filter (fun r => r != reason) := by
    unfold FieldDie.portX FieldDie.setPortX modAt
    simp only [List.getD_eq_getElem?_getD, List.getElem?_modify]
    cases f.ports[n]? with
    | none => rfl
    | some p => simp
  unfold holdEnd
  dsimp only
  split
  · rw [portX_holds_eq (enterState_portSame n 2 1 _).side, hset]
  · exact hset

theorem holdEnd_rd {a reason : Nat} (h : a < 0x20000) : (holdEnd n reason f).rd a = f.rd a := by
  unfold holdEnd
  dsimp only
  split
  · exact (enterState_portSame n 2 1 _).rd a (by omega) fun hp => absurd (portRegs_ge hp) (by omega)
  · rfl

theorem okFor_eq (h : g.side = f.side) : g.pwr.okFor = f.pwr.okFor :=
  show g.side.pwr.okFor = f.side.pwr.okFor by rw [h]

theorem holdEnd_okFor {reason : Nat} : (holdEnd n reason f).pwr.okFor = f.pwr.okFor := by
  unfold holdEnd
  dsimp only
  split
  · exact (okFor_eq (enterState_portSame n 2 1 _).side).trans rfl
  · rfl

/-- The holds of shed ports end, one after the other. -/
def endHolds (ns : List Nat) (f : FieldDie) : FieldDie := forAll ns (fun n f => holdEnd n 4 f) f

theorem endHolds_cons (ns : List Nat) (f : FieldDie) : endHolds (n :: ns) f = endHolds ns (holdEnd n 4 f) := rfl

theorem endHolds_rd {a : Nat} (h : a < 0x20000) (ns : List Nat) (f : FieldDie) : (endHolds ns f).rd a = f.rd a := by
  induction ns generalizing f with
  | nil => rfl
  | cons n ns ih => rw [endHolds_cons, ih, holdEnd_rd h]

theorem endHolds_okFor (ns : List Nat) (f : FieldDie) : (endHolds ns f).pwr.okFor = f.pwr.okFor := by
  induction ns generalizing f with
  | nil => rfl
  | cons n ns ih => rw [endHolds_cons, ih, holdEnd_okFor]

theorem endHolds_portX (ns : List Nat) (f : FieldDie) (h : n ∉ ns) : (endHolds ns f).portX n = f.portX n := by
  induction ns generalizing f with
  | nil => rfl
  | cons m ns ih =>
    obtain ⟨hne, hns⟩ : n ≠ m ∧ n ∉ ns := by simpa using h
    rw [endHolds_cons, ih _ hns, holdEnd_portX (Ne.symm hne)]

theorem endHolds_holds (ns : List Nat) (f : FieldDie) (h : n ∈ ns ∨ 4 ∉ (f.portX n).holds) :
    4 ∉ ((endHolds ns f).portX n).holds := by
  induction ns generalizing f with
  | nil => exact h.resolve_left List.not_mem_nil
  | cons m ns ih =>
    rw [endHolds_cons]
    refine ih _ ?_
    by_cases hm : m = n
    · right
      rw [hm, holdEnd_holds]
      simp
    · rw [holdEnd_portX hm]
      exact h.imp_left fun hmem => (List.mem_cons.1 hmem).resolve_left (Ne.symm hm)

/-- The count of samples and the list of shed ports begin anew. -/
def clearShed (f : FieldDie) : FieldDie := { f with pwr := { f.pwr with okFor := 0 } }.wrN F_PWR_SHED 0

theorem derateReadmit_eq (hshed : f.rdN F_PWR_SHED ≠ 0) (hok : f.get F_PWR_DERATE_readmit < f.pwr.okFor) :
    derateReadmit f =
      (endHolds ((List.range 16).filter (hasBit (f.rdN F_PWR_SHED))) (clearShed f)).raise F_PWR_EVT 5 := by
  unfold derateReadmit
  dsimp only
  rw [if_neg (by omega)]
  rfl

theorem clearShed_rd (f : FieldDie) : (clearShed f).rd F_PWR_SHED = word 0 :=
  (FieldDie.rd_wrN _ _ _ _).trans (if_pos rfl)

theorem clearShed_portX (f : FieldDie) (n : Nat) : (clearShed f).portX n = f.portX n := rfl

theorem clearShed_okFor (f : FieldDie) : (clearShed f).pwr.okFor = 0 := rfl

/-- All shed ports are readmitted together. -/
theorem exec_derateReadmit (hr : s.fld.phase = .running) (hshed : s.fld.rdN F_PWR_SHED ≠ 0)
    (hok : s.fld.get F_PWR_DERATE_readmit < s.fld.pwr.okFor) :
    ∃ t, exec .derateReadmit s = .next t ∧ t.fld.rdN F_PWR_SHED = 0 ∧ t.fld.pwr.okFor = 0 ∧ t.fld.sq F_PWR_EVT 5 = true ∧
      (∀ n, n < 16 → hasBit (s.fld.rdN F_PWR_SHED) n = true → 4 ∉ (t.fld.portX n).holds) ∧
      (∀ n, n < 16 → hasBit (s.fld.rdN F_PWR_SHED) n = false → t.fld.portX n = s.fld.portX n) ∧ FieldOnly s t := by
  obtain ⟨ns, hns⟩ : ∃ ns, ns = (List.range 16).filter (hasBit (s.fld.rdN F_PWR_SHED)) := ⟨_, rfl⟩
  have hmeaning : exec .derateReadmit s =
      .next { s with fld := settle ((endHolds ns (clearShed s.fld)).raise F_PWR_EVT 5) } := by
    rw [hns, ← derateReadmit_eq hshed hok]
    exact State.onRun_running hr
  have hports : ∀ n, (settle ((endHolds ns (clearShed s.fld)).raise F_PWR_EVT 5)).portX n =
      (endHolds ns (clearShed s.fld)).portX n :=
    fun n => portX_of_ports ((settle_ports _).trans (FieldDie.raise_ports _ _ _)) n
  refine ⟨_, hmeaning, ?_, ?_, ?_, fun n hn hbit => ?_, fun n hn hbit => ?_, ⟨rfl, rfl, rfl, rfl⟩⟩
  · refine FieldDie.rdN_of_rd (v := 0) ((settle_rd_of_notMem _ (by decide)).trans ?_) (by decide)
    rw [FieldDie.raise_rd _ _ _ _ (by decide) (by decide), endHolds_rd (by decide), clearShed_rd]
  · show (settle _).pwr.okFor = 0
    rw [settle_pwr, FieldDie.raise_pwr, endHolds_okFor, clearShed_okFor]
  · rw [FieldDie.sq_eq (settle_rd_of_notMem _ (by decide))]
    exact FieldDie.raise_sq _ _ _ (by decide) (by decide)
  · rw [hports]
    refine endHolds_holds ns _ (.inl ?_)
    rw [hns]
    exact List.mem_filter.2 ⟨List.mem_range.2 hn, hbit⟩
  · rw [hports, endHolds_portX ns _ ?_, clearShed_portX]
    rw [hns]
    intro hmem
    rw [(List.mem_filter.1 hmem).2] at hbit
    cases hbit

end Sys2Proof.Machine

open Sys2Proof Sys2Proof.Machine

/-- Settles O46: shedding ends because each turn leaves one port fewer to shed, and readmission ends the hold of each port
that the register lists. -/
theorem deratingShedsAndReadmits : Obligations.DeratingShedsAndReadmits := by
  refine ⟨fun s vline tj hr hv ht h => ?_, fun s vline tj n hr _ hv ht he hen hover hnext hst => ?_,
    fun s hr _ hshed hok => ?_⟩
  · exact exec_derateSample_calm hr hv ht h
  · exact exec_derateSample_over hr hv ht he hen hover hnext hst
  · exact exec_derateReadmit hr hshed hok

end

section
/-! Frames between the dies (O51): the clause of a frame without a launch time does not hold of every state. It does not ask
that the copies in the buffer are for ports that exist, and the charge of one for port 0x3FF9 is kept where the anchor of
domain B is, so that its release sets system time back while the held frames are being released. -/

namespace Sys2Proof.Machine

/-- System time is that of domain B and reads 65,536 ns; a MAC control frame enters stage 1 with such a copy waiting, and
two held frames are due, at 0 and at 100 ns. -/
def clockInCharge : State :=
  { fld :=
    { phase := .running
      reg := [(F_TIM_SYS, 0x10), (F_TIM_B_RATE, 0xFFFFFFE0), (F_TIM_B_ANCHOR_HI, 0x10000)]
      arrivals := [{}]
      launch := [{}, { launch := 100 }]
      buf :=
        { frames := [{ port := 16, bytes := List.replicate 12 0 ++ [0x88, 0x08] }]
          waiting := [{ port := 0x3FF9, cells := 1 }]
          nextId := 1 } } }

theorem clockInCharge_register : F_BUF_PORT_USE 0x3FF9 = F_TIM_B_ANCHOR_HI := rfl

theorem clockInCharge_time : clockInCharge.fld.sysNs = 65536 := by decide +kernel

/-- The release of the first frame ends the MAC control frame, and the second is due no more. -/
theorem launchStoreArrival_keeps_due :
    (launchStoreArrival clockInCharge.fld).launch.any (launchDue clockInCharge.fld) = true := by
  decide +kernel

/-- Refutes O51, by its clause of an arrival without a launch time: a frame whose time had come stays held where the release
of an older one sets system time back. -/
theorem not_framesCrossBetweenTheDies : ¬ Obligations.FramesCrossBetweenTheDies := by
  unfold Obligations.FramesCrossBetweenTheDies
  rintro ⟨-, -, -, arrival, -⟩
  have hshape : Shape clockInCharge := by
    constructor
    all_goals rfl
  obtain ⟨t, ht, -, -, -, -, -, hreleased, -⟩ := arrival clockInCharge {} [] rfl hshape rfl (by decide +kernel)
  obtain rfl := next_unique ht (State.onRun_running rfl)
  obtain ⟨hnone, -⟩ := hreleased rfl
  dsimp only at hnone
  rw [settle_launch, launchStoreArrival_keeps_due] at hnone
  cases hnone

end Sys2Proof.Machine
end

section
/-! Resets, power states and faults of the host die (O52): the clause of a host fault does not hold of every state. It does
not ask that the frame being sent names an engine that exists, and the end of a frame that names another writes its check
value over H_FLT_EVT. -/

namespace Sys2Proof.Machine

/-- The last unit of a frame waits on a link that is up, and the frame names engine 0x183, whose finished value would stand at
H_FLT_EVT. -/
def lastUnitOfStrayEngine : State :=
  { hst :=
    { inReset := false
      xng := { phase := 3 }
      sending := some { chk := some (0x183, 0, 0), unitsLeft := [{}] } } }

theorem strayEngine_register : H_CHK_FIN_HI 0x183 = H_FLT_EVT := rfl

/-- The fault is latched, and the frame that then ends takes its flag away. -/
theorem hostFault_flag_lost :
    hasBit ((settleHost (hostFaultLatch 1 0 0 lastUnitOfStrayEngine.hostNow)).rdN H_FLT_EVT) 1 = false := by
  decide +kernel

/-- A command on a host die out of reset acts, and ends as every command there does. -/
theorem State.onHost_of_out {s : State} {g : HostDie → HostDie} (hr : s.hst.inReset = false) :
    s.onHost g = .next { s with hst := settleHost (g s.hostNow) } := by
  unfold State.onHost
  rw [hr]
  rfl

theorem exec_hostFaultLatch {s : State} {code func place : Nat} (hr : s.hst.inReset = false) (hc : code < 4)
    (hf : func < 64) : exec (.hostFaultLatch code func place) s =
      .next { s with hst := settleHost (hostFaultLatch code func place s.hostNow) } := by
  have hexec : exec (.hostFaultLatch code func place) s = execHostFaultLatch code func place s := rfl
  rw [hexec]
  unfold execHostFaultLatch
  rw [State.onHost_of_out hr, if_pos ⟨hc, hf⟩]

/-- Refutes O52, by its clause of a host fault: the flag of a fault that is latched while the last unit of a frame leaves is
not set afterwards where that frame names an engine beyond the eight. -/
theorem not_hostDieResetsAndFaults : ¬ Obligations.HostDieResetsAndFaults := by
  unfold Obligations.HostDieResetsAndFaults
  rintro ⟨-, -, -, -, -, fault⟩
  obtain ⟨t, ht, hflag, -⟩ := fault lastUnitOfStrayEngine 1 0 0 rfl (by decide) (by decide)
  obtain rfl := next_unique ht (exec_hostFaultLatch rfl (by decide) (by decide))
  rw [hostFault_flag_lost] at hflag
  cases hflag

end Sys2Proof.Machine
end

section
/-! Loss and return of the safelight supply (O10): the die that is left has no register of its own, so each reads its reset
value. -/

namespace Sys2Proof.Machine

variable {s : State} {mv : Nat}

theorem execVddSlLoss_lost (h : s.fld.pwr.vddSl = true) (hmv : mv < 5000) :
    execVddSlLoss mv s = s.fabricStops darkDie := by
  unfold execVddSlLoss
  rw [if_pos h, if_pos hmv]

theorem execVddSlLoss_kept (hmv : 8000 ≤ mv) : execVddSlLoss mv s = .next s := by
  unfold execVddSlLoss
  rw [if_neg (show ¬mv < 5000 by omega), if_pos hmv]
  exact ite_self _

/-- The safelight supply returns to a die that has lost it. -/
theorem execColdReset_returned (h : s.fld.pwr.vddSl = false) :
    execColdReset s =
      .next { s with fld := { darkDie s.fld with phase := .inReset, resetBy := 1, pwr := linePwr s.fld.pwr } } :=
  if_neg (by simp [h])

/-- Settles O10: a loss stops the fabric and leaves `darkDie`, and the return gives that die its supply and its cause. -/
theorem safelightLossAndColdReset : Obligations.SafelightLossAndColdReset := by
  unfold Obligations.SafelightLossAndColdReset
  refine ⟨fun s mv hsl hmv => ?_, fun s mv hmv => execVddSlLoss_kept hmv, fun s hsl => ?_⟩
  · obtain ⟨c, m, k, hstop, -, hmem⟩ := s.fabricStops_eq darkDie
    exact ⟨_, (execVddSlLoss_lost hsl hmv).trans hstop, rfl, rfl, rfl, fun a => rfl, rfl, rfl, hmem, rfl⟩
  · exact ⟨_, execColdReset_returned hsl, rfl, rfl, rfl, rfl, fun a => rfl, ⟨rfl, rfl, rfl, rfl⟩⟩

end Sys2Proof.Machine
end

section
/-! The end of start-up (O12): nothing that follows the start of the fabric moves the phase, and START_GO takes the start hold
from every port. -/

namespace Sys2Proof.Machine

variable {s : State} {f g : FieldDie} {n : Nat}

theorem forAll_phase {α : Type} {k : α → FieldDie → FieldDie} (h : ∀ x f, (k x f).phase = f.phase) (xs : List α)
    (f : FieldDie) : (forAll xs k f).phase = f.phase := by
  unfold forAll
  induction xs generalizing f with
  | nil => rfl
  | cons x xs ih => exact (ih (k x f)).trans (h x f)

theorem forRange_phase {k : Nat → FieldDie → FieldDie} (h : ∀ n f, (k n f).phase = f.phase) (n : Nat) (f : FieldDie) :
    (forRange n k f).phase = f.phase := forAll_phase h (List.range n) f

/-! ### The domain switch and gPTP (R543, R555, R564) -/

@[simp] theorem timeEvt_phase (bit index : Nat) (f : FieldDie) : (timeEvt bit index f).phase = f.phase := by
  unfold timeEvt
  rw [FieldDie.raise_phase, FieldDie.put_phase]

theorem switchTo_phase (y : Nat) (f : FieldDie) : (switchTo y f).phase = f.phase := by
  unfold switchTo
  dsimp only
  split
  · exact timeEvt_phase _ _ _
  · rw [timeEvt_phase, FieldDie.put_phase]

@[simp] theorem domainNamed_phase (f : FieldDie) : (domainNamed f).phase = f.phase := by
  unfold domainNamed
  split
  · rfl
  · exact switchTo_phase _ _

theorem setPtpState_phase (n st : Nat) (f : FieldDie) : (setPtpState n st f).phase = f.phase := by
  unfold setPtpState
  dsimp only
  split_ifs
  all_goals simp

theorem slaveChanged_phase (n : Nat) (old : Option Nat) (f : FieldDie) : (slaveChanged n old f).phase = f.phase := by
  unfold slaveChanged
  dsimp only
  split_ifs
  all_goals simp [setPtpState_phase]

theorem setGm_phase (n id : Nat) (f : FieldDie) : (setGm n id f).phase = f.phase := by
  unfold setGm
  split
  · rfl
  · rw [timeEvt_phase, FieldDie.wrN_phase, FieldDie.wrN_phase]

theorem refreshGm_phase (n : Nat) (f : FieldDie) : (refreshGm n f).phase = f.phase := by
  unfold refreshGm
  split
  · rfl
  · split
    · exact setGm_phase _ _ _
    · split
      · exact setGm_phase _ _ _
      · rfl

theorem refreshRoles_phase (n : Nat) (f : FieldDie) : (refreshRoles n f).phase = f.phase := by
  unfold refreshRoles
  dsimp only
  rw [refreshGm_phase, slaveChanged_phase, FieldDie.put_phase, forRange_phase fun p f => FieldDie.put_phase f _ _]
  exact FieldDie.setPtpX_phase _ _ _

theorem refreshXc_phase (f : FieldDie) : (refreshXc f).phase = f.phase := by
  unfold refreshXc
  dsimp only
  split
  all_goals rfl

@[simp] theorem refreshPtp_phase (f : FieldDie) : (refreshPtp f).phase = f.phase := by
  unfold refreshPtp
  rw [refreshXc_phase, refreshRoles_phase, refreshRoles_phase]

/-! ### The network cycle (R525, R527) -/

theorem changeDone_phase (t : Nat) (f : FieldDie) : (changeDone t f).phase = f.phase := by
  unfold changeDone
  dsimp only
  split_ifs
  all_goals simp

theorem applyWindows_phase (f : FieldDie) : (applyWindows f).phase = f.phase := by
  unfold applyWindows
  dsimp only
  rw [changeDone_phase, forAll_phase fun e f => FieldDie.wr_phase f _ _]

theorem trackCycle_phase (f : FieldDie) : (trackCycle f).phase = f.phase := by
  have hput := FieldDie.put_phase f F_STR_NCYC_ncyc (networkCycle f)
  unfold trackCycle
  dsimp only
  generalize f.put F_STR_NCYC_ncyc (networkCycle f) = g at hput ⊢
  split
  · exact hput
  · exact hput

@[simp] theorem beginNetworkCycle_phase (b : Nat) (f : FieldDie) : (beginNetworkCycle b f).phase = f.phase := by
  have htrack := trackCycle_phase { f with str := { f.str with netStart := b } }
  unfold beginNetworkCycle
  dsimp only
  split
  · exact (applyWindows_phase _).trans htrack
  · exact htrack

/-! ### The links and the twin controller (R610, R639) -/

/-- Training that starts reports at most that the link has gone down, and puts its patterns on the lanes. -/
theorem startTraining_effects (l : Link) :
    (startTraining l).2 = [.event 1, .patterns] ∨ (startTraining l).2 = [.patterns] := by
  unfold startTraining
  dsimp only
  split
  · exact .inl rfl
  · exact .inr rfl

@[simp] theorem onXng_startTraining_phase (f : FieldDie) : (f.onXng startTraining).phase = f.phase := by
  unfold FieldDie.onXng
  dsimp only
  obtain h | h := startTraining_effects { f.xng with tick := f.now }
  all_goals
    rw [h]
    simp [forAll, xngFx]

theorem onTwin_startTraining_phase (f : FieldDie) : (f.onTwin startTraining).phase = f.phase := by
  unfold FieldDie.onTwin
  dsimp only
  obtain h | h := startTraining_effects { f.twin with tick := f.now }
  all_goals
    rw [h]
    simp [forAll, twinFx]

theorem setRole_phase (r : Nat) (f : FieldDie) : (setRole r f).phase = f.phase := by
  unfold setRole
  split
  · dsimp only
    rw [forRange_phase fun n f => FieldDie.put_phase f _ _, FieldDie.put_phase, FieldDie.napBreak_phase]
  · rfl

theorem twinStart_phase (f : FieldDie) : (twinStart f).phase = f.phase := by
  unfold twinStart
  split
  · exact onTwin_startTraining_phase f
  · rfl

@[simp] theorem twinOn_phase (f : FieldDie) : (twinOn f).phase = f.phase := by
  unfold twinOn
  dsimp only
  split
  · exact (setRole_phase _ _).trans (twinStart_phase f)
  · exact twinStart_phase f

/-! ### The fabric and its ports start (R172, R177) -/

/-- The start of the fabric is what makes the die run. -/
theorem startFabric_phase (f : FieldDie) : (startFabric f).phase = .running := by
  have heard : ∀ g : FieldDie, (heardManager g).phase = g.phase := fun _ => rfl
  have pool : ∀ g : FieldDie, (refreshPool g).phase = g.phase := fun _ => FieldDie.put_phase _ _ _
  unfold startFabric
  dsimp only
  rw [heard, onXng_startTraining_phase]
  split
  all_goals simp [pool]

theorem phase_of_side (h : g.side = f.side) : g.phase = f.phase := show g.side.phase = f.side.phase by rw [h]

theorem enterState_phase (n st reason : Nat) (f : FieldDie) : (enterState n st reason f).phase = f.phase :=
  phase_of_side (enterState_portSame n st reason f).side

theorem holdBegin_phase (n reason : Nat) (f : FieldDie) : (holdBegin n reason f).phase = f.phase := by
  have hnote : (noteHold n reason f).phase = f.phase := FieldDie.put_phase _ _ _
  rw [holdBegin_eq]
  split
  · exact hnote
  · exact (enterState_phase n 1 reason _).trans hnote

theorem enablePort_phase (n : Nat) (f : FieldDie) : (enablePort n f).phase = f.phase := by
  unfold enablePort
  split
  · rfl
  · split
    · exact enterState_phase n 2 1 f
    next r _ _ => exact (FieldDie.put_phase _ _ _).trans (enterState_phase n 1 r f)

theorem startPort_phase (n : Nat) (f : FieldDie) : (startPort n f).phase = f.phase := by
  unfold startPort
  split
  · exact enablePort_phase n f
  · exact FieldDie.put_phase _ _ _

theorem startPorts_phase (hold : Option Nat) (f : FieldDie) : (startPorts hold f).phase = f.phase := by
  unfold startPorts
  dsimp only
  rw [forRange_phase startPort_phase]
  cases hold with
  | none => rfl
  | some r => exact forRange_phase (fun n => holdBegin_phase n r) 16 f

/-! ### The flash copy of the configuration (R175, R757) -/

theorem voidResume_phase (f : FieldDie) : (voidResume f).phase = f.phase := by
  unfold voidResume
  split
  all_goals rfl

theorem setResume_phase (v : Nat) (f : FieldDie) : (setResume v f).phase = f.phase := FieldDie.put_phase _ _ _

theorem sendErase_phase (o : Nat) (f : FieldDie) : (sendErase o f).phase = f.phase := rfl

theorem startResume_phase (img : List Byte) (f : FieldDie) : (startResume img f).phase = f.phase := by
  unfold startResume
  split
  · exact voidResume_phase f
  · split
    · rw [FieldDie.raise_phase, setResume_phase, voidResume_phase]
    · dsimp only
      split
      · exact setResume_phase 1 _
      · rw [sendErase_phase, FieldDie.put_phase, setResume_phase]

theorem startFlash_phase (src : Source) (f : FieldDie) : (startFlash src f).phase = f.phase := by
  unfold startFlash
  split
  · exact startResume_phase _ f
  · split
    · exact setResume_phase 2 f
    · rfl

theorem configResolved_phase (k : KeyChip) (m : List (Nat × Byte)) (f : FieldDie) :
    (configResolved k m f).phase = .running := by
  unfold configResolved
  dsimp only
  rw [startFlash_phase, startPorts_phase, startFabric_phase]

theorem execConfigSourceResolved_eq (hp : s.fld.phase = .resolving) (hw : s.fld.pwr.waking = false) :
    execConfigSourceResolved s = .next { s with fld := settle (configResolved s.key s.flash s.fld) } := by
  unfold execConfigSourceResolved State.onField
  dsimp only
  rw [if_pos ⟨hp, hw⟩]

/-! ### START_GO (R178) -/

/-- The hold of the given reason ends at each port listed, one after the other; `endHolds` is the case of reason 4. -/
def endHoldsOf (reason : Nat) (ns : List Nat) (f : FieldDie) : FieldDie := forAll ns (fun n f => holdEnd n reason f) f

theorem endHoldsOf_rd {a reason : Nat} (h : a < 0x20000) (ns : List Nat) (f : FieldDie) :
    (endHoldsOf reason ns f).rd a = f.rd a := by
  induction ns generalizing f with
  | nil => rfl
  | cons m ns ih => exact (ih (holdEnd m reason f)).trans (holdEnd_rd h)

theorem endHoldsOf_holds {reason : Nat} (ns : List Nat) (f : FieldDie) (h : n ∈ ns ∨ reason ∉ (f.portX n).holds) :
    reason ∉ ((endHoldsOf reason ns f).portX n).holds := by
  induction ns generalizing f with
  | nil => exact h.resolve_left List.not_mem_nil
  | cons m ns ih =>
    refine ih (holdEnd m reason f) ?_
    by_cases hm : m = n
    · right
      rw [hm, holdEnd_holds]
      simp
    · rw [holdEnd_portX hm]
      exact h.imp_left fun hmem => (List.mem_cons.1 hmem).resolve_left (Ne.symm hm)

theorem startGo_of_held {data : Nat} (hgo : hasBit data 0 = true) (hheld : f.get F_GLB_CFG_SRC_state = 2) :
    startGo data f = endHoldsOf 3 (List.range 16) (f.put F_GLB_CFG_SRC_state 1) := by
  unfold startGo
  dsimp only
  rw [if_neg (by simp [hgo]), if_pos hheld]
  rfl

theorem execStartGo_of_held {req : Nat} {data : Word} (hw : s.fld.canWrite req = true)
    (hgo : hasBit data.toNat 0 = true) (hheld : s.fld.get F_GLB_CFG_SRC_state = 2) :
    execStartGo req data s =
      .next { s with fld := settle (endHoldsOf 3 (List.range 16) (s.fld.napBreak.put F_GLB_CFG_SRC_state 1)) } := by
  unfold execStartGo State.onWrite State.onField
  dsimp only
  rw [if_pos hw, startGo_of_held hgo ((napBreak_get s.fld _).trans hheld)]

/-! ### The statement -/

/-- Settles O12: the start of the fabric sets the phase and nothing after it does; START_GO writes the state and takes hold 3
from each of the 16 ports. -/
theorem configurationResolvedStartsTheFabric : Obligations.ConfigurationResolvedStartsTheFabric := by
  unfold Obligations.ConfigurationResolvedStartsTheFabric
  refine ⟨fun s hp hw => ?_, fun s req data hw hgo hheld => ?_⟩
  · exact ⟨_, execConfigSourceResolved_eq hp hw, (settle_phase _).trans (configResolved_phase _ _ _), ⟨rfl, rfl, rfl, rfl⟩⟩
  · refine ⟨_, execStartGo_of_held hw hgo hheld, ?_, fun n hn => ?_, ⟨rfl, rfl, rfl, rfl⟩⟩
    · have hkept := (settle_rd_of_notMem (endHoldsOf 3 (List.range 16) (s.fld.napBreak.put F_GLB_CFG_SRC_state 1))
        (a := F_GLB_CFG_SRC) (by decide)).trans (endHoldsOf_rd (by decide) _ _)
      exact (FieldDie.get_eq F_GLB_CFG_SRC_state hkept).trans (FieldDie.get_put _ _ _ (by decide) (by decide))
    · rw [portX_of_ports (settle_ports _)]
      exact endHoldsOf_holds _ _ (.inl (List.mem_range.2 hn))

end Sys2Proof.Machine
end

section
/-! What the operations of the field die leave of the serial window's memory (R716): only the commands of the window and
the resets move it, and every other operation, in the order of the definitions, leaves it as it is. -/

namespace Sys2Proof.Machine

/-! ### Branches and repetitions -/

@[simp] theorem ite_window (c : Prop) [Decidable c] (f g : FieldDie) :
    (if c then f else g).window = if c then f.window else g.window := apply_ite _ _ _ _

@[simp] theorem forAll_window {α : Type} {k : α → FieldDie → FieldDie} (h : ∀ x f, (k x f).window = f.window) (xs : List α)
    (f : FieldDie) : (forAll xs k f).window = f.window := by
  unfold forAll
  induction xs generalizing f with
  | nil => rfl
  | cons x xs ih => exact (ih (k x f)).trans (h x f)

@[simp] theorem forRange_window {k : Nat → FieldDie → FieldDie} (h : ∀ n f, (k n f).window = f.window) (n : Nat)
    (f : FieldDie) : (forRange n k f).window = f.window := forAll_window h (List.range n) f

/-- The die among the answers of an operation, once the operation has been split into them. -/
theorem snd_window {α : Type} {p : α × FieldDie} {a : α} {g : FieldDie} (h : p = (a, g)) : g.window = p.2.window := by
  rw [h]

theorem foldl_window {α β : Type} {k : α × FieldDie → β → α × FieldDie} (h : ∀ a x, (k a x).2.window = a.2.window)
    (xs : List β) (a : α × FieldDie) : (xs.foldl k a).2.window = a.2.window := by
  induction xs generalizing a with
  | nil => rfl
  | cons x xs ih => exact (ih (k a x)).trans (h a x)

/-! ### Registers, events and messages -/

@[simp] theorem FieldDie.free_window (f : FieldDie) : f.free.2.window = f.window := rfl
@[simp] theorem FieldDie.countDrop_window (f : FieldDie) (n code : Nat) : (f.countDrop n code).window = f.window := rfl

@[simp] theorem FieldDie.countQDrop_window (f : FieldDie) (n q code : Nat) :
    (f.countQDrop n q code).window = f.window := by
  unfold FieldDie.countQDrop
  split
  all_goals simp -implicitDefEqProofs

@[simp] theorem FieldDie.setLink_window (f : FieldDie) (who : LinkId) (p : Link → Link) :
    (f.setLink who p).window = f.window := by
  simp [FieldDie.setLink]

@[simp] theorem FieldDie.emitUnit_window (f : FieldDie) (who : LinkId) (seed : Nat) (u : FlowUnit) :
    (f.emitUnit who seed u).window = f.window := rfl

@[simp] theorem FieldDie.putUnit_window (f : FieldDie) (who : LinkId) (seed : Nat) (u : FlowUnit) :
    (f.putUnit who seed u).window = f.window := by
  simp [FieldDie.putUnit]

@[simp] theorem FieldDie.sendXng_window (f : FieldDie) (u : FlowUnit) : (f.sendXng u).window = f.window := by
  simp [FieldDie.sendXng]

@[simp] theorem FieldDie.sendTwin_window (f : FieldDie) (u : FlowUnit) : (f.sendTwin u).window = f.window := by
  simp [FieldDie.sendTwin]

@[simp] theorem FieldDie.announce_window (f : FieldDie) (kind : Nat) : (f.announce kind).window = f.window := by
  simp [FieldDie.announce]

@[simp] theorem FieldDie.touchProof_window (f : FieldDie) : f.touchProof.window = f.window := by
  simp [FieldDie.touchProof]

/-! ### The shared buffer -/

@[simp] theorem tsqPush_window (n : Nat) (e : TsEntry) (f : FieldDie) : (tsqPush n e f).window = f.window := by
  simp [tsqPush]

@[simp] theorem tsqFrame_window (fr : Frame) (n status reason ts : Nat) (f : FieldDie) :
    (tsqFrame fr n status reason ts f).window = f.window := by
  unfold tsqFrame
  split
  all_goals simp -implicitDefEqProofs

@[simp] theorem FieldDie.setFrame_window (f : FieldDie) (id : Nat) (p : Frame → Frame) :
    (f.setFrame id p).window = f.window := rfl

@[simp] theorem refreshPool_window (f : FieldDie) : (refreshPool f).window = f.window := by simp [refreshPool]
@[simp] theorem raiseWm_window (n q : Nat) (f : FieldDie) : (raiseWm n q f).window = f.window := by simp [raiseWm]

@[simp] theorem chargeSub_window (n q c : Nat) (reserve : Bool) (f : FieldDie) :
    (chargeSub n q c reserve f).window = f.window := by
  simp [chargeSub]

@[simp] theorem releaseCopy_window (c : Copy) (f : FieldDie) : (releaseCopy c f).window = f.window := by
  simp [releaseCopy]

@[simp] theorem discardCopy_window (code : Nat) (c : Copy) (f : FieldDie) :
    (discardCopy code c f).window = f.window := by
  simp [discardCopy]

@[simp] theorem discardQueued_window (p : Copy → Bool) (code : Nat) (f : FieldDie) :
    (discardQueued p code f).window = f.window := by
  simp [discardQueued]

@[simp] theorem emptyPort_window (n code : Nat) (f : FieldDie) : (emptyPort n code f).window = f.window := by
  simp [emptyPort]

@[simp] theorem noteDrained_window (n : Nat) (f : FieldDie) : (noteDrained n f).window = f.window := by
  simp [noteDrained]

@[simp] theorem admitCopy_window (fr : Frame) (c : Copy) (f : FieldDie) : (admitCopy fr c f).2.window = f.window := by
  simp only [admitCopy]
  repeat' split
  all_goals simp -implicitDefEqProofs [noCell, placeCopy, chargeAdd]

@[simp] theorem admitCopies_window (fr : Frame) (cs : List Copy) (f : FieldDie) :
    (admitCopies fr cs f).2.window = f.window := by
  unfold admitCopies
  exact foldl_window (fun a c => by simp) cs ([], f)

@[simp] theorem dropFrameCopies_window (id reason : Nat) (f : FieldDie) :
    (dropFrameCopies id reason f).window = f.window := by
  simp [dropFrameCopies]

@[simp] theorem forgetFrames_window (f : FieldDie) : (forgetFrames f).window = f.window := rfl

/-! ### The filtering database -/

@[simp] theorem fdbChanged_window (i : Nat) (write : Bool) (f : FieldDie) :
    (fdbChanged i write f).window = f.window := by
  simp [fdbChanged]

@[simp] theorem fdbRecount_window (f : FieldDie) : (fdbRecount f).window = f.window := by simp [fdbRecount]

@[simp] theorem fdbInvalidate_window (i : Nat) (f : FieldDie) : (fdbInvalidate i f).window = f.window := by
  simp [fdbInvalidate]

@[simp] theorem fdbPurge_window (p : FdbEntry → Bool) (f : FieldDie) : (fdbPurge p f).window = f.window := by
  simp [fdbPurge]

@[simp] theorem setActive_window (p v : Nat) (f : FieldDie) : (setActive p v f).window = f.window := by simp [setActive]

@[simp] theorem memberDown_window (n : Nat) (f : FieldDie) : (memberDown n f).window = f.window := by
  unfold memberDown
  split
  all_goals simp -implicitDefEqProofs

@[simp] theorem fdbWrite_window (i : Nat) (e : FdbEntry) (f : FieldDie) : (fdbWrite i e f).window = f.window := by
  simp [fdbWrite]

@[simp] theorem meetCycle_window (f : FieldDie) : (meetCycle f).window = f.window := by simp [meetCycle]

@[simp] theorem fdbRevive_window (addr vid : Nat) (f : FieldDie) : (fdbRevive addr vid f).window = f.window := by
  unfold fdbRevive
  split
  all_goals simp -implicitDefEqProofs

@[simp] theorem fdbLearn_window (n addr vid : Nat) (f : FieldDie) : (fdbLearn n addr vid f).window = f.window := by
  simp only [fdbLearn]
  repeat' split
  all_goals simp -implicitDefEqProofs

/-! ### Meters -/

@[simp] theorem setBucket_window (m b v : Nat) (f : FieldDie) : (setBucket m b v f).window = f.window := rfl

@[simp] theorem setMeterFrac_window (m : Nat) (v : List Nat) (f : FieldDie) : (setMeterFrac m v f).window = f.window :=
  rfl

@[simp] theorem meterTick_window (m : Nat) (f : FieldDie) : (meterTick m f).window = f.window := by
  simp -implicitDefEqProofs [meterTick]

@[simp] theorem meterFill_window (m : Nat) (full : Bool) (f : FieldDie) : (meterFill m full f).window = f.window := by
  simp [meterFill]

@[simp] theorem meterReturn_window (m b n : Nat) (f : FieldDie) : (meterReturn m b n f).window = f.window := by
  simp [meterReturn]

@[simp] theorem meterFrame_window (m len colour : Nat) (f : FieldDie) :
    (meterFrame m len colour f).2.window = f.window := by
  simp only [meterFrame]
  repeat' split
  all_goals simp -implicitDefEqProofs

@[simp] theorem setOctetSum_window (w cyc v : Nat) (f : FieldDie) : (setOctetSum w cyc v f).window = f.window := by
  simp [setOctetSum]

@[simp] theorem settleStage4_window (fr : Frame) (len : Nat) (f : FieldDie) :
    (settleStage4 fr len f).window = f.window := by
  simp only [settleStage4]
  repeat' split
  all_goals simp -implicitDefEqProofs

@[simp] theorem revertStage4_window (fr : Frame) (f : FieldDie) : (revertStage4 fr f).window = f.window := by
  simp only [revertStage4]
  repeat' split
  all_goals simp -implicitDefEqProofs

@[simp] theorem settleRate_window (id len : Nat) (f : FieldDie) : (settleRate id len f).window = f.window := by
  simp [settleRate]

@[simp] theorem rejectFrame_window (fr : Frame) (reason : Nat) (f : FieldDie) :
    (rejectFrame fr reason f).window = f.window := by
  simp [rejectFrame]

@[simp] theorem resumeAssembly_window (n : Nat) (f : FieldDie) : (resumeAssembly n f).window = f.window := rfl

/-! ### Faults -/

@[simp] theorem setRole_window (r : Nat) (f : FieldDie) : (setRole r f).window = f.window := by
  simp -implicitDefEqProofs [setRole]

@[simp] theorem cancelHandover_window (f : FieldDie) : (cancelHandover f).window = f.window := rfl
@[simp] theorem postTwin_window (u : FlowUnit) (f : FieldDie) : (postTwin u f).window = f.window := by simp [postTwin]
@[simp] theorem enterFailed_window (f : FieldDie) : (enterFailed f).window = f.window := by simp [enterFailed]

@[simp] theorem latchFault_window (code inst : Nat) (f : FieldDie) : (latchFault code inst f).window = f.window := by
  simp -implicitDefEqProofs [latchFault, faultEvt, logFault, takeoverFault]

@[simp] theorem refreshCover_window (f : FieldDie) : (refreshCover f).window = f.window := by simp [refreshCover]

@[simp] theorem pumpXng_window (k : Nat) (f : FieldDie) : (pumpXng k f).window = f.window := by
  induction k generalizing f with
  | zero => rfl
  | succ k ih =>
    unfold pumpXng
    split
    · rfl
    · split
      · simp [ih]
      · split
        · simp [ih]
        · rfl

@[simp] theorem pumpTwin_window (k : Nat) (f : FieldDie) : (pumpTwin k f).window = f.window := by
  induction k generalizing f with
  | zero => rfl
  | succ k ih =>
    unfold pumpTwin
    split
    · rfl
    · split
      · simp [ih]
      · rfl

/-! ### Counters and the end of a command -/

@[simp] theorem writeSnap_window (req data : Nat) (f : FieldDie) : (writeSnap req data f).window = f.window := by
  simp [writeSnap]

/-! ### Ports -/

@[simp] theorem clearCredits_window (n : Nat) (f : FieldDie) : (clearCredits n f).window = f.window := by
  simp -implicitDefEqProofs [clearCredits]

@[simp] theorem abortTx_window (n : Nat) (f : FieldDie) : (abortTx n f).window = f.window := by
  simp only [abortTx]
  repeat' split
  all_goals simp -implicitDefEqProofs [abortCopy]

@[simp] theorem truncateRx_window (n : Nat) (f : FieldDie) : (truncateRx n f).window = f.window := by simp [truncateRx]

@[simp] theorem refreshPreempt_window (n : Nat) (f : FieldDie) : (refreshPreempt n f).window = f.window := by
  simp [refreshPreempt]

@[simp] theorem startVerify_window (n : Nat) (f : FieldDie) : (startVerify n f).window = f.window := by
  simp [startVerify]

@[simp] theorem showState_window (n old st reason : Nat) (f : FieldDie) :
    (showState n old st reason f).window = f.window := by
  simp [showState]

@[simp] theorem leaveUp_window (n old st : Nat) (f : FieldDie) : (leaveUp n old st f).window = f.window := by
  simp [leaveUp]

@[simp] theorem nowDown_window (n old st : Nat) (f : FieldDie) : (nowDown n old st f).window = f.window := by
  simp [nowDown, quietSegment, flushOnDown]

@[simp] theorem nowUp_window (n old st : Nat) (f : FieldDie) : (nowUp n old st f).window = f.window := by simp [nowUp]
@[simp] theorem sleepCut_window (n : Nat) (f : FieldDie) : (sleepCut n f).window = f.window := by simp [sleepCut]

@[simp] theorem enterState_window (n st reason : Nat) (f : FieldDie) :
    (enterState n st reason f).window = f.window := by
  simp [enterState]

@[simp] theorem holdBegin_window (n reason : Nat) (f : FieldDie) : (holdBegin n reason f).window = f.window := by
  simp [holdBegin]

@[simp] theorem holdEnd_window (n reason : Nat) (f : FieldDie) : (holdEnd n reason f).window = f.window := by
  simp [holdEnd]

@[simp] theorem disablePort_window (n : Nat) (f : FieldDie) : (disablePort n f).window = f.window := by
  simp -implicitDefEqProofs [disablePort]

@[simp] theorem enablePort_window (n : Nat) (f : FieldDie) : (enablePort n f).window = f.window := by
  simp only [enablePort]
  repeat' split
  all_goals simp -implicitDefEqProofs

@[simp] theorem modeChanged_window (n old : Nat) (f : FieldDie) : (modeChanged n old f).window = f.window := by
  simp -implicitDefEqProofs [modeChanged]

@[simp] theorem votedMode_window (n : Nat) (f : FieldDie) : (votedMode n f).window = f.window := by simp [votedMode]
@[simp] theorem trySleep_window (n : Nat) (f : FieldDie) : (trySleep n f).window = f.window := by simp [trySleep]

@[simp] theorem declareLost_window (n : Nat) (f : FieldDie) : (declareLost n f).window = f.window := by
  simp [declareLost]

@[simp] theorem beginPersist_window (n : Nat) (f : FieldDie) : (beginPersist n f).window = f.window := by
  simp [beginPersist]

@[simp] theorem sendBurst_window (n : Nat) (f : FieldDie) : (sendBurst n f).window = f.window := rfl

@[simp] theorem startWake_window (n : Nat) (windowed : Bool) (f : FieldDie) :
    (startWake n windowed f).window = f.window := by
  simp [startWake]

@[simp] theorem wakePort_window (n : Nat) (windowed : Bool) (f : FieldDie) :
    (wakePort n windowed f).window = f.window := by
  simp [wakePort]

/-! ### Parsing and classification -/

@[simp] theorem capture_window (n : Nat) (r : ClsResult) (f : FieldDie) : (capture n r f).window = f.window := by
  unfold capture
  split
  · rw [FieldDie.put_window, FieldDie.wrN_window, forRange_window fun k f => FieldDie.wrN_window f _ _]
  · rfl

@[simp] theorem countFinal_window (n : Nat) (r : ClsResult) (f : FieldDie) : (countFinal n r f).window = f.window := by
  simp [countFinal]

/-! ### Streams -/

@[simp] theorem oversizeStream_window (i : Nat) (blocks : Bool) (f : FieldDie) :
    (oversizeStream i blocks f).window = f.window := by
  simp [oversizeStream, blockStream]

@[simp] theorem latchGate_window (p : Nat) (f : FieldDie) : (latchGate p f).window = f.window := by simp [latchGate]

@[simp] theorem streamGate_window (fr : Frame) (i queue colour len : Nat) (f : FieldDie) :
    (streamGate fr i queue colour len f).2.window = f.window := by
  simp only [streamGate]
  repeat' split
  all_goals simp -implicitDefEqProofs

@[simp] theorem streamMeter_window (fr : Frame) (i queue colour len : Nat) (f : FieldDie) :
    (streamMeter fr i queue colour len f).2.window = f.window := by
  simp only [streamMeter]
  repeat' split
  all_goals simp -implicitDefEqProofs

@[simp] theorem stage4_window (fr : Frame) (r : ClsResult) (f : FieldDie) : (stage4 fr r f).2.window = f.window := by
  unfold stage4
  dsimp only
  split
  · rfl
  · split_ifs
    · simp
    · rfl
    · split
      next hgate => simp [snd_window hgate]
      next hgate =>
        split
        next hmeter => simp [snd_window hmeter, snd_window hgate]
        next hmeter => simp [snd_window hmeter, snd_window hgate]

/-! ### Forwarding -/

@[simp] theorem stageDrop_window (fr : Frame) (code : Nat) (f : FieldDie) :
    (stageDrop fr code f).window = f.window := by
  simp [stageDrop]

@[simp] theorem mirrorCopies_window (fr : Frame) (set queue colour cells : Nat) (f : FieldDie) :
    (mirrorCopies fr set queue colour cells f).2.window = f.window := by
  unfold mirrorCopies
  refine foldl_window (fun a s => ?_) (List.range 2) ([], f)
  dsimp only
  split_ifs
  all_goals simp

@[simp] theorem stage6_window (fr : Frame) (r : ClsResult) (set queue colour : Nat) (f : FieldDie) :
    (stage6 fr r set queue colour f).window = f.window := by
  simp [stage6, wakeOnTx]

@[simp] theorem decide_window (fr : Frame) (r : ClsResult) (f : FieldDie) : (decide_ fr r f).window = f.window := rfl

@[simp] theorem finish_window (fr : Frame) (r : ClsResult) (f : FieldDie) : (finish fr r f).window = f.window := by
  unfold finish
  dsimp only
  split
  · simp
  · split
    next hdrop => simp [snd_window hdrop]
    next hpass =>
      split
      all_goals simp -implicitDefEqProofs [snd_window hpass]

@[simp] theorem takeBytes_window (n : Nat) (bs : List Byte) (f : FieldDie) : (takeBytes n bs f).window = f.window := by
  unfold takeBytes
  split
  all_goals simp -implicitDefEqProofs

@[simp] theorem shortPassOp_window (n : Nat) (bytes : List Byte) (f : FieldDie) :
    (shortPassOp n bytes f).window = f.window := by
  simp only [shortPassOp]
  repeat' split
  all_goals simp -implicitDefEqProofs

@[simp] theorem fullPassOp_window (n : Nat) (bytes : List Byte) (f : FieldDie) :
    (fullPassOp n bytes f).window = f.window := by
  simp only [fullPassOp]
  repeat' split
  all_goals simp -implicitDefEqProofs

/-! ### Register access, locks and perturbation -/

@[simp] theorem noteAccess_window (req addr : Nat) (f : FieldDie) : (noteAccess req addr f).window = f.window := by
  simp [noteAccess]

@[simp] theorem lkReject_window (req addr : Nat) (f : FieldDie) : (lkReject req addr f).window = f.window := by
  simp [lkReject]

@[simp] theorem acquireLock_window (req n : Nat) (f : FieldDie) : (acquireLock req n f).2.window = f.window := by
  have granted : ∀ (g : FieldDie) (c : CfgX), ({ g with cfg := c }).window = g.window := fun _ _ => rfl
  unfold acquireLock
  dsimp only
  split
  · rfl
  · split
    · rfl
    · rw [granted, FieldDie.bump_window, FieldDie.put_window, FieldDie.put_window]

@[simp] theorem releaseLock_window (req n : Nat) (f : FieldDie) : (releaseLock req n f).window = f.window := by
  simp -implicitDefEqProofs [releaseLock]

@[simp] theorem pinFall_window (p : Nat → Bool) (f : FieldDie) : (pinFall p f).window = f.window := by simp [pinFall]

@[simp] theorem orphanLock_window (bit n : Nat) (f : FieldDie) : (orphanLock bit n f).window = f.window := by
  simp -implicitDefEqProofs [orphanLock]

@[simp] theorem orphanOwned_window (p : Nat → Bool) (f : FieldDie) : (orphanOwned p f).window = f.window := by
  simp [orphanOwned]

@[simp] theorem dropTmr_window (addr : Nat) (f : FieldDie) : (dropTmr addr f).window = f.window := rfl

@[simp] theorem storeWrite_window (req addr data : Nat) (f : FieldDie) :
    (storeWrite req addr data f).window = f.window := by
  unfold storeWrite
  split
  all_goals simp -implicitDefEqProofs

@[simp] theorem dropStaged_window (p : Nat → Bool) (f : FieldDie) : (dropStaged p f).window = f.window := rfl

@[simp] theorem clearStaged_window (req : Nat) (addrs : List Nat) (f : FieldDie) :
    (clearStaged req addrs f).window = f.window := rfl

@[simp] theorem applyGroup_window (req addr data : Nat) (f : FieldDie) :
    (applyGroup req addr data f).window = f.window := by
  simp [applyGroup]

@[simp] theorem badAccess_window (req addr : Nat) (f : FieldDie) : (badAccess req addr f).window = f.window := by
  simp [badAccess]

@[simp] theorem failedCleared_window (f : FieldDie) : (failedCleared f).window = f.window := by simp [failedCleared]

@[simp] theorem sqWrite_window (addr data : Nat) (f : FieldDie) : (sqWrite addr data f).window = f.window := by
  simp -implicitDefEqProofs [sqWrite, sqClearWrite]

@[simp] theorem endPtb_window (cause : Nat) (f : FieldDie) : (endPtb cause f).window = f.window := by
  simp -implicitDefEqProofs [endPtb]

@[simp] theorem requesterReset_window (p : Nat → Bool) (f : FieldDie) : (requesterReset p f).window = f.window := by
  simp [requesterReset]

/-! ### Commands of the ports -/

@[simp] theorem writePortMode_window (req n data : Nat) (f : FieldDie) :
    (writePortMode req n data f).window = f.window := by
  simp -implicitDefEqProofs [writePortMode]

@[simp] theorem writeMaxFrame_window (req n data : Nat) (f : FieldDie) :
    (writeMaxFrame req n data f).window = f.window := by
  simp [writeMaxFrame]

@[simp] theorem writeSleep_window (req n data : Nat) (f : FieldDie) : (writeSleep req n data f).window = f.window := by
  simp [writeSleep]

@[simp] theorem writePreempt_window (req n data : Nat) (f : FieldDie) :
    (writePreempt req n data f).window = f.window := by
  simp [writePreempt]

@[simp] theorem showPodl_window (n : Nat) (r : Fld) (v : Nat) (f : FieldDie) :
    (showPodl n r v f).window = f.window := by
  simp [showPodl]

@[simp] theorem setSccp_window (n st : Nat) (f : FieldDie) : (setSccp n st f).window = f.window := by simp [setSccp]
@[simp] theorem podlWake_window (n : Nat) (f : FieldDie) : (podlWake n f).window = f.window := by simp [podlWake]

@[simp] theorem setStop_window (n q : Nat) (p : PauseStop → PauseStop) (f : FieldDie) :
    (setStop n q p f).window = f.window := by
  simp [setStop]

@[simp] theorem pauseFrame_window (n quanta : Nat) (f : FieldDie) : (pauseFrame n quanta f).window = f.window := by
  simp [pauseFrame]

@[simp] theorem linkEstablished_window (n : Nat) (master : Bool) (f : FieldDie) :
    (linkEstablished n master f).window = f.window := by
  simp [linkEstablished]

@[simp] theorem loseLink_window (n : Nat) (f : FieldDie) : (loseLink n f).window = f.window := by simp [loseLink]
@[simp] theorem sleepQuiet_window (n : Nat) (f : FieldDie) : (sleepQuiet n f).window = f.window := by simp [sleepQuiet]

@[simp] theorem partnerSleep_window (n : Nat) (tc10 : Bool) (f : FieldDie) :
    (partnerSleep n tc10 f).window = f.window := by
  simp [partnerSleep]

/-! ### Frames -/

@[simp] theorem beginRx_window (n phase : Nat) (f : FieldDie) : (beginRx n phase f).window = f.window := rfl
@[simp] theorem showNode_window (k : Nat) (f : FieldDie) : (showNode k f).window = f.window := by simp [showNode]

@[simp] theorem nextNode_window (k start : Nat) (f : FieldDie) : (nextNode k start f).window = f.window := by
  simp [nextNode]

@[simp] theorem frameStart_window (n phase : Nat) (f : FieldDie) : (frameStart n phase f).window = f.window := by
  simp [frameStart, segSeen, holdAssembly]

@[simp] theorem acceptFrame_window (fr : Frame) (f : FieldDie) : (acceptFrame fr f).window = f.window := by
  simp [acceptFrame, settleFrame]

@[simp] theorem endRx_window (n cond : Nat) (f : FieldDie) : (endRx n cond f).window = f.window := by
  unfold endRx
  split
  all_goals simp -implicitDefEqProofs

@[simp] theorem segFrameEnd_window (n : Nat) (f : FieldDie) : (segFrameEnd n f).window = f.window := by
  simp [segFrameEnd]

@[simp] theorem verifyReceived_window (n : Nat) (f : FieldDie) : (verifyReceived n f).window = f.window := by
  unfold verifyReceived
  split
  all_goals simp -implicitDefEqProofs

@[simp] theorem frameEnd_window (n : Nat) (bytes : List Byte) (cond frags : Nat) (f : FieldDie) :
    (frameEnd n bytes cond frags f).window = f.window := by
  simp [frameEnd]

@[simp] theorem finishP16_window (f : FieldDie) : (finishP16 f).window = f.window := by
  unfold finishP16
  split
  all_goals simp -implicitDefEqProofs

@[simp] theorem fullPassP16_window (f : FieldDie) : (fullPassP16 f).window = f.window := by
  unfold fullPassP16
  split
  all_goals simp -implicitDefEqProofs

@[simp] theorem writeCapCtrl_window (req data : Nat) (f : FieldDie) : (writeCapCtrl req data f).window = f.window := by
  simp [writeCapCtrl]

@[simp] theorem learnOp_window (n : Nat) (f : FieldDie) : (learnOp n f).window = f.window := by
  simp only [learnOp]
  repeat' split
  all_goals simp -implicitDefEqProofs

@[simp] theorem agerTick_window (f : FieldDie) : (agerTick f).window = f.window := by simp [agerTick, ageEntry]

@[simp] theorem writeAge_window (req data : Nat) (f : FieldDie) : (writeAge req data f).window = f.window := by
  simp [writeAge]

@[simp] theorem writeFdbFlush_window (req data : Nat) (f : FieldDie) :
    (writeFdbFlush req data f).window = f.window := by
  simp -implicitDefEqProofs [writeFdbFlush]

@[simp] theorem writeAgg_window (req p data : Nat) (f : FieldDie) : (writeAgg req p data f).window = f.window := by
  simp [writeAgg]

@[simp] theorem writeBufFlush_window (req data : Nat) (f : FieldDie) :
    (writeBufFlush req data f).window = f.window := by
  simp -implicitDefEqProofs [writeBufFlush, flushQueues]

@[simp] theorem writeBufPortCfg_window (req n data : Nat) (f : FieldDie) :
    (writeBufPortCfg req n data f).window = f.window := by
  simp [writeBufPortCfg]

@[simp] theorem writeBufCtrl_window (data : Nat) (f : FieldDie) : (writeBufCtrl data f).window = f.window := by
  simp -implicitDefEqProofs [writeBufCtrl]

@[simp] theorem bufferAudit_window (n : Nat) (f : FieldDie) : (bufferAudit n f).window = f.window := by
  simp -implicitDefEqProofs [bufferAudit]

@[simp] theorem writeUnlatch_window (data : Nat) (f : FieldDie) : (writeUnlatch data f).window = f.window := by
  simp [writeUnlatch]

@[simp] theorem writeRl_window (req n addr data : Nat) (f : FieldDie) :
    (writeRl req n addr data f).window = f.window := by
  simp [writeRl]

/-! ### The launch store -/

@[simp] theorem launchEntry_window (x : LaunchFrame) (status reason : Nat) (f : FieldDie) :
    (launchEntry x status reason f).window = f.window := by
  simp [launchEntry]

@[simp] theorem dropLaunch_window (code : Nat) (x : LaunchFrame) (f : FieldDie) :
    (dropLaunch code x f).window = f.window := by
  simp [dropLaunch]

@[simp] theorem enterStage1_window (x : LaunchFrame) (f : FieldDie) : (enterStage1 x f).window = f.window := by
  simp [enterStage1]

@[simp] theorem releaseOne_window (f : FieldDie) : (releaseOne f).window = f.window := by
  unfold releaseOne
  split
  all_goals simp -implicitDefEqProofs

@[simp] theorem launchStoreArrival_window (f : FieldDie) : (launchStoreArrival f).window = f.window := by
  unfold launchStoreArrival
  split
  all_goals simp -implicitDefEqProofs [storeArrival, releaseDue]

@[simp] theorem purgeLaunch_window (p : Nat → Bool) (code : Nat) (f : FieldDie) :
    (purgeLaunch p code f).window = f.window := by
  simp [purgeLaunch]

/-! ### Moderation of the serial window -/

@[simp] theorem FieldDie.setWinModer_window (f : FieldDie) (k : Nat) (m : Moder) :
    (f.setWinModer k m).window = f.window := rfl

/-! ### Transmission -/

@[simp] theorem purgeOverrun_window (n : Nat) (f : FieldDie) : (purgeOverrun n f).window = f.window := by
  unfold purgeOverrun
  refine forRange_window (fun q f => forRange_window (fun _ f => ?_) _ f) 8 f
  split
  · simp
  · rfl

@[simp] theorem readCells_window (c : Copy) (f : FieldDie) : (readCells c f).2.window = f.window := by
  simp [readCells, noteCell]

@[simp] theorem startCopy_window (c : Copy) (f : FieldDie) : (startCopy c f).window = f.window := by
  simp [startCopy, payRate, takeCopy]

@[simp] theorem preemptNow_window (n : Nat) (f : FieldDie) : (preemptNow n f).window = f.window := by
  unfold preemptNow
  split
  all_goals simp -implicitDefEqProofs

@[simp] theorem countSent_window (c : Copy) (len : Nat) (f : FieldDie) : (countSent c len f).window = f.window := by
  simp [countSent]

@[simp] theorem countStomp_window (c : Copy) (f : FieldDie) : (countStomp c f).window = f.window := by simp [countStomp]

@[simp] theorem finishCopy_window (n phase : Nat) (c : Copy) (f : FieldDie) :
    (finishCopy n phase c f).window = f.window := by
  unfold finishCopy
  dsimp only
  split
  all_goals simp -implicitDefEqProofs

@[simp] theorem transmitEnd_window (n phase : Nat) (f : FieldDie) : (transmitEnd n phase f).window = f.window := by
  unfold transmitEnd
  split
  all_goals simp -implicitDefEqProofs

/-! ### Segments -/

@[simp] theorem plcaChanged_window (k old : Nat) (f : FieldDie) : (plcaChanged k old f).window = f.window := by
  simp [plcaChanged]

@[simp] theorem writePlca_window (req k data : Nat) (f : FieldDie) : (writePlca req k data f).window = f.window := by
  simp [writePlca]

@[simp] theorem cycleDone_window (k len : Nat) (f : FieldDie) : (cycleDone k len f).window = f.window := by
  simp -implicitDefEqProofs [cycleDone]

@[simp] theorem beaconEnds_window (k at_ : Nat) (f : FieldDie) : (beaconEnds k at_ f).window = f.window := by
  simp -implicitDefEqProofs [beaconEnds]

@[simp] theorem beaconSend_window (k : Nat) (f : FieldDie) : (beaconSend k f).window = f.window := by simp [beaconSend]

@[simp] theorem windowOverlap_window (k node : Nat) (f : FieldDie) : (windowOverlap k node f).window = f.window := by
  simp [windowOverlap]

@[simp] theorem txOverlap_window (k : Nat) (f : FieldDie) : (txOverlap k f).window = f.window := by simp [txOverlap]

@[simp] theorem beaconHeard_window (k : Nat) (f : FieldDie) : (beaconHeard k f).window = f.window := by
  simp -implicitDefEqProofs [beaconHeard]

@[simp] theorem plcaOverlap_window (k : Nat) (f : FieldDie) : (plcaOverlap k f).window = f.window := by
  unfold plcaOverlap
  split
  all_goals simp -implicitDefEqProofs

@[simp] theorem beaconReceive_window (k : Nat) (f : FieldDie) : (beaconReceive k f).window = f.window := by
  simp [beaconReceive]

@[simp] theorem beaconTimeout_window (k : Nat) (f : FieldDie) : (beaconTimeout k f).window = f.window := by
  simp [beaconTimeout]

@[simp] theorem downMsExpiry_window (k : Nat) (f : FieldDie) : (downMsExpiry k f).window = f.window := by
  unfold downMsExpiry
  split
  all_goals simp -implicitDefEqProofs

@[simp] theorem toTimerExpiry_window (k : Nat) (f : FieldDie) : (toTimerExpiry k f).window = f.window := by
  simp [toTimerExpiry]

@[simp] theorem transmitOpportunity_window (k : Nat) (f : FieldDie) : (transmitOpportunity k f).window = f.window := by
  simp only [transmitOpportunity]
  repeat' split
  all_goals simp -implicitDefEqProofs

@[simp] theorem burstTimerExpiry_window (k : Nat) (f : FieldDie) : (burstTimerExpiry k f).window = f.window := by
  simp [burstTimerExpiry]

@[simp] theorem segSent_window (n : Nat) (f : FieldDie) : (segSent n f).window = f.window := by simp [segSent]

@[simp] theorem portTransmitEnd_window (port phase : Nat) (f : FieldDie) :
    (portTransmitEnd port phase f).window = f.window := by
  simp [portTransmitEnd]

@[simp] theorem overlapWindowEnd_window (k : Nat) (f : FieldDie) : (overlapWindowEnd k f).window = f.window := by
  simp [overlapWindowEnd]

@[simp] theorem postOverlapSilence_window (k : Nat) (f : FieldDie) : (postOverlapSilence k f).window = f.window := by
  simp [postOverlapSilence]

/-! ### Schedules -/

@[simp] theorem refreshGate_window (n : Nat) (f : FieldDie) : (refreshGate n f).window = f.window := by
  simp only [refreshGate]
  repeat' split
  all_goals simp -implicitDefEqProofs [setHold]

@[simp] theorem makePending_window (n gen : Nat) (at_ : Option Nat) (f : FieldDie) :
    (makePending n gen at_ f).window = f.window := rfl

@[simp] theorem cancelPending_window (f : FieldDie) : (cancelPending f).window = f.window := rfl

@[simp] theorem trigger_window (mask gen : Nat) (at_ : Option Nat) (f : FieldDie) :
    (trigger mask gen at_ f).window = f.window := by
  simp only [trigger]
  repeat' split
  all_goals simp -implicitDefEqProofs

@[simp] theorem writeChg_window (req data : Nat) (f : FieldDie) : (writeChg req data f).window = f.window := by
  simp [writeChg]

@[simp] theorem changeDone_window (t : Nat) (f : FieldDie) : (changeDone t f).window = f.window := by simp [changeDone]

@[simp] theorem portChange_window (n : Nat) (f : FieldDie) : (portChange n f).window = f.window := by
  simp -implicitDefEqProofs [portChange, writeOper]

@[simp] theorem applyWindows_window (f : FieldDie) : (applyWindows f).window = f.window := by
  simp -implicitDefEqProofs [applyWindows]

@[simp] theorem trackCycle_window (f : FieldDie) : (trackCycle f).window = f.window := by
  simp -implicitDefEqProofs [trackCycle]

@[simp] theorem beginNetworkCycle_window (b : Nat) (f : FieldDie) : (beginNetworkCycle b f).window = f.window := by
  simp [beginNetworkCycle]

/-! ### Exposure windows and the power budget -/

@[simp] theorem leaveNap_window (f : FieldDie) : (leaveNap f).window = f.window := by simp [leaveNap]

@[simp] theorem exposureNapLead_window (e : Nat) (f : FieldDie) : (exposureNapLead e f).window = f.window := by
  unfold exposureNapLead
  split
  all_goals simp -implicitDefEqProofs

@[simp] theorem exposureStart_window (e : Nat) (f : FieldDie) : (exposureStart e f).window = f.window := by
  unfold exposureStart
  split
  all_goals simp -implicitDefEqProofs [holdAwake]

@[simp] theorem missExposure_window (n : Nat) (f : FieldDie) : (missExposure n f).window = f.window := by
  simp [missExposure]

@[simp] theorem closeExposure_window (e : Nat) (f : FieldDie) : (closeExposure e f).window = f.window := by
  simp [closeExposure]

@[simp] theorem exposureEnd_window (e : Nat) (f : FieldDie) : (exposureEnd e f).window = f.window := by
  simp [exposureEnd, releaseAwake]

@[simp] theorem writeExpBase_window (req data : Nat) (f : FieldDie) : (writeExpBase req data f).window = f.window := by
  simp [writeExpBase]

@[simp] theorem exposureWake_window (e n : Nat) (f : FieldDie) : (exposureWake e n f).window = f.window := by
  unfold exposureWake
  split
  all_goals simp -implicitDefEqProofs

@[simp] theorem wakeBurst_window (n : Nat) (f : FieldDie) : (wakeBurst n f).window = f.window := by simp [wakeBurst]

@[simp] theorem shedPorts_window (budget k : Nat) (f : FieldDie) : (shedPorts budget k f).window = f.window := by
  induction k generalizing f with
  | zero => rfl
  | succ k ih =>
    unfold shedPorts
    split
    · rfl
    · split
      · simp [ih]
      · rfl

@[simp] theorem derateSample_window (vline tj : Nat) (f : FieldDie) : (derateSample vline tj f).window = f.window := by
  simp -implicitDefEqProofs [derateSample]

@[simp] theorem derateReadmit_window (f : FieldDie) : (derateReadmit f).window = f.window := by simp [derateReadmit]

/-! ### Time -/

@[simp] theorem timeEvt_window (bit index : Nat) (f : FieldDie) : (timeEvt bit index f).window = f.window := by
  simp [timeEvt]

@[simp] theorem setPtpState_window (n st : Nat) (f : FieldDie) : (setPtpState n st f).window = f.window := by
  simp [setPtpState]

@[simp] theorem unlockSteering_window (d : Nat) (f : FieldDie) : (unlockSteering d f).window = f.window := by
  unfold unlockSteering
  split
  all_goals simp -implicitDefEqProofs

@[simp] theorem setBOff_window (v : Nat) (f : FieldDie) : (setBOff v f).window = f.window := by simp [setBOff]
@[simp] theorem stepDone_window (d : Nat) (f : FieldDie) : (stepDone d f).window = f.window := by simp [stepDone]
@[simp] theorem applyA_window (f : FieldDie) : (applyA f).window = f.window := by simp [applyA]
@[simp] theorem applyB_window (f : FieldDie) : (applyB f).window = f.window := by simp [applyB]

@[simp] theorem askStep_window (d : Nat) (v : Int) (f : FieldDie) : (askStep d v f).window = f.window := by
  simp [askStep]

@[simp] theorem unlessStandby_window {p : FieldDie → FieldDie} (h : ∀ f, (p f).window = f.window) (d : Nat) (f : FieldDie) :
    (unlessStandby d p f).window = f.window := by
  simp [unlessStandby, h]

@[simp] theorem writeStep_window (req d data : Nat) (f : FieldDie) : (writeStep req d data f).window = f.window := by
  simp [writeStep]

@[simp] theorem writeASet_window (req data : Nat) (f : FieldDie) : (writeASet req data f).window = f.window := by
  simp [writeASet]

@[simp] theorem writeBOff_window (req data : Nat) (f : FieldDie) : (writeBOff req data f).window = f.window := by
  simp [writeBOff]

@[simp] theorem setInc_window (v : Nat) (f : FieldDie) : (setInc v f).window = f.window := by simp [setInc]

@[simp] theorem writeInc_window (req data : Nat) (f : FieldDie) : (writeInc req data f).window = f.window := by
  simp [writeInc]

@[simp] theorem setRate_window (r : Nat) (f : FieldDie) : (setRate r f).window = f.window := by simp [setRate]

@[simp] theorem writeRate_window (data : Nat) (f : FieldDie) : (writeRate data f).window = f.window := by
  simp [writeRate]

@[simp] theorem switchTo_window (y : Nat) (f : FieldDie) : (switchTo y f).window = f.window := by simp [switchTo]
@[simp] theorem domainNamed_window (f : FieldDie) : (domainNamed f).window = f.window := by simp [domainNamed]
@[simp] theorem refreshXc_window (f : FieldDie) : (refreshXc f).window = f.window := by simp [refreshXc]

@[simp] theorem writeTimSys_window (req data : Nat) (f : FieldDie) : (writeTimSys req data f).window = f.window := by
  simp [writeTimSys]

@[simp] theorem xcIntervalEnd_window (f : FieldDie) : (xcIntervalEnd f).window = f.window := by simp [xcIntervalEnd]

@[simp] theorem FieldDie.setShutter_window (f : FieldDie) (k : Nat) (p : Shutter → Shutter) :
    (f.setShutter k p).window = f.window := rfl

@[simp] theorem moveShutter_window (k t : Nat) (f : FieldDie) : (moveShutter k t f).window = f.window := by
  simp [moveShutter, holdShutter]

@[simp] theorem refreshShutter_window (k : Nat) (f : FieldDie) : (refreshShutter k f).window = f.window := by
  simp [refreshShutter]

@[simp] theorem runShutters_window (t0 t1 : Nat) (f : FieldDie) : (runShutters t0 t1 f).window = f.window := by
  simp [runShutters]

@[simp] theorem timeMoved_window (t0 : Nat) (f : FieldDie) : (timeMoved t0 f).window = f.window := by
  simp [timeMoved, missWindows, missShutters]

@[simp] theorem writeShutter_window (req k data : Nat) (f : FieldDie) :
    (writeShutter req k data f).window = f.window := by
  simp [writeShutter]

@[simp] theorem captureEdge_window (k : Nat) (rising : Bool) (phase : Nat) (f : FieldDie) :
    (captureEdge k rising phase f).window = f.window := by
  simp [captureEdge]

@[simp] theorem popTsq_window (n : Nat) (f : FieldDie) : (popTsq n f).window = f.window := by
  unfold popTsq
  split
  all_goals simp -implicitDefEqProofs

@[simp] theorem popCapture_window (k : Nat) (f : FieldDie) : (popCapture k f).window = f.window := by
  unfold popCapture
  split
  all_goals simp -implicitDefEqProofs

@[simp] theorem popAt_window (addr : Nat) (f : FieldDie) : (popAt addr f).window = f.window := by
  simp only [popAt]
  repeat' split
  all_goals simp -implicitDefEqProofs

@[simp] theorem tsrSend_window (n : Nat) (f : FieldDie) : (tsrSend n f).window = f.window := by
  simp only [tsrSend]
  repeat' split
  all_goals simp -implicitDefEqProofs

@[simp] theorem timeMessageSend_window (f : FieldDie) : (timeMessageSend f).window = f.window := by
  simp [timeMessageSend]

@[simp] theorem writeTimCap_window (data : Nat) (f : FieldDie) : (writeTimCap data f).window = f.window := by
  simp [writeTimCap, putTime]

@[simp] theorem slewTick_window (f : FieldDie) : (slewTick f).window = f.window := by simp [slewTick]
@[simp] theorem rateTick_window (n : Nat) (f : FieldDie) : (rateTick n f).window = f.window := rfl

@[simp] theorem creditTick_window (n q : Nat) (f : FieldDie) : (creditTick n q f).window = f.window := by
  simp [creditTick]

@[simp] theorem refreshStops_window (f : FieldDie) : (refreshStops f).window = f.window := rfl
@[simp] theorem clockTick_window (f : FieldDie) : (clockTick f).window = f.window := by simp [clockTick]

@[simp] theorem fineTick_window (f : FieldDie) : (fineTick f).window = f.window := by
  simp -implicitDefEqProofs [fineTick]

/-! ### The Crossing -/

@[simp] theorem endControl_window (addr bit : Nat) (f : FieldDie) : (endControl addr bit f).window = f.window := by
  simp [endControl]

@[simp] theorem xngFx_window (x : LinkFx) (f : FieldDie) : (xngFx x f).window = f.window := by
  unfold xngFx
  split
  all_goals simp -implicitDefEqProofs

@[simp] theorem twinFx_window (x : LinkFx) (f : FieldDie) : (twinFx x f).window = f.window := by
  unfold twinFx
  split
  all_goals simp -implicitDefEqProofs [fdbAcked]

@[simp] theorem FieldDie.onXng_window (p : Link → LinkAns) (f : FieldDie) : (FieldDie.onXng p f).window = f.window := by
  simp [FieldDie.onXng]

@[simp] theorem FieldDie.onTwin_window (p : Link → LinkAns) (f : FieldDie) :
    (FieldDie.onTwin p f).window = f.window := by
  simp [FieldDie.onTwin]

@[simp] theorem FieldDie.rxNoise_window (who : LinkId) (f : FieldDie) : (FieldDie.rxNoise who f).window = f.window := by
  simp only [FieldDie.rxNoise]
  repeat' split
  all_goals simp -implicitDefEqProofs

@[simp] theorem twinReceive_window (bytes : List Byte) (f : FieldDie) : (twinReceive bytes f).window = f.window := by
  simp [twinReceive]

@[simp] theorem fieldTrained_window (f : FieldDie) : (fieldTrained f).window = f.window := by simp [fieldTrained]
@[simp] theorem twinTrained_window (f : FieldDie) : (twinTrained f).window = f.window := by simp [twinTrained]

/-! ### Pins -/

@[simp] theorem writePinOut_window (req off data : Nat) (f : FieldDie) :
    (writePinOut req off data f).window = f.window := by
  unfold writePinOut
  dsimp only
  split
  all_goals simp -implicitDefEqProofs

@[simp] theorem writePinCfg_window (req n data : Nat) (f : FieldDie) :
    (writePinCfg req n data f).window = f.window := by
  simp [writePinCfg]

@[simp] theorem pinEdge_window (n : Nat) (rising : Bool) (f : FieldDie) : (pinEdge n rising f).window = f.window := by
  simp [pinEdge]

@[simp] theorem setPair_window (p st : Nat) (f : FieldDie) : (setPair p st f).window = f.window := by simp [setPair]

@[simp] theorem discrepancy_window (p : Nat) (f : FieldDie) : (discrepancy p f).window = f.window := by
  simp -implicitDefEqProofs [discrepancy, latchDark]

@[simp] theorem padTick_window (pads n : Nat) (f : FieldDie) : (padTick pads n f).window = f.window := by simp [padTick]

/-! ### gPTP -/

@[simp] theorem engineSend_window (n q : Nat) (what : Option (Nat × Nat)) (m : List Byte) (f : FieldDie) :
    (engineSend n q what m f).window = f.window := by
  simp [engineSend]

@[simp] theorem refreshGm_window (n : Nat) (f : FieldDie) : (refreshGm n f).window = f.window := by
  simp only [refreshGm]
  repeat' split
  all_goals simp -implicitDefEqProofs [setGm]

@[simp] theorem refreshRoles_window (n : Nat) (f : FieldDie) : (refreshRoles n f).window = f.window := by
  simp -implicitDefEqProofs [refreshRoles, slaveChanged]

@[simp] theorem refreshPtp_window (f : FieldDie) : (refreshPtp f).window = f.window := by simp [refreshPtp]

@[simp] theorem refreshCapable_window (p : Nat) (f : FieldDie) : (refreshCapable p f).window = f.window := by
  simp [refreshCapable]

@[simp] theorem pdelayExchange_window (p : Nat) (answered : Bool) (mld nrr : Nat) (f : FieldDie) :
    (pdelayExchange p answered mld nrr f).window = f.window := by
  simp [pdelayExchange]

@[simp] theorem pdelayAnswer_window (p : Nat) (m : List Byte) (ts : Nat) (f : FieldDie) :
    (pdelayAnswer p m ts f).window = f.window := by
  simp [pdelayAnswer]

@[simp] theorem syncMsg_window (n p : Nat) (m : List Byte) (ts : Nat) (f : FieldDie) :
    (syncMsg n p m ts f).window = f.window := by
  simp [syncMsg]

@[simp] theorem followUpMsg_window (n p : Nat) (m : List Byte) (f : FieldDie) :
    (followUpMsg n p m f).window = f.window := by
  unfold followUpMsg
  split
  all_goals simp -implicitDefEqProofs

@[simp] theorem announceMsg_window (n p : Nat) (m : List Byte) (f : FieldDie) :
    (announceMsg n p m f).window = f.window := by
  simp [announceMsg]

@[simp] theorem ptpReceive_window (p : Nat) (m : List Byte) (ts : Nat) (f : FieldDie) :
    (ptpReceive p m ts f).window = f.window := by
  unfold ptpReceive
  dsimp only
  split
  · rfl
  · split
    · simp
    · split
      · rfl
      · split
        · rfl
        · simp -implicitDefEqProofs

@[simp] theorem applyY_window (d : Nat) (y : Int) (f : FieldDie) : (applyY d y f).window = f.window := by simp [applyY]

@[simp] theorem servo_window (n d : Nat) (e : Int) (f : FieldDie) : (servo n d e f).window = f.window := by
  unfold servo
  split
  all_goals simp -implicitDefEqProofs

@[simp] theorem nsWord_window (e : Int) (f : FieldDie) : (nsWord e f).2.window = f.window := by
  unfold nsWord
  split
  all_goals simp -implicitDefEqProofs

@[simp] theorem syncReceive_window (n p : Nat) (f : FieldDie) : (syncReceive n p f).window = f.window := by
  unfold syncReceive
  split
  all_goals simp -implicitDefEqProofs [servoLock]

@[simp] theorem syncTimeout_window (n : Nat) (f : FieldDie) : (syncTimeout n f).window = f.window := by
  simp only [syncTimeout]
  repeat' split
  all_goals simp -implicitDefEqProofs [autoSwitch]

@[simp] theorem announceTimeout_window (n : Nat) (f : FieldDie) : (announceTimeout n f).window = f.window := by
  simp [announceTimeout]

@[simp] theorem syncSend_window (n : Nat) (f : FieldDie) : (syncSend n f).window = f.window := by simp [syncSend]
@[simp] theorem ownAnnounce_window (n : Nat) (f : FieldDie) : (ownAnnounce n f).2.window = f.window := rfl

@[simp] theorem announceSend_window (n : Nat) (f : FieldDie) : (announceSend n f).window = f.window := by
  simp only [announceSend]
  repeat' split
  all_goals simp -implicitDefEqProofs

@[simp] theorem beforeEnd_window (n phase : Nat) (f : FieldDie) : (beforeEnd n phase f).window = f.window := by
  simp only [beforeEnd]
  repeat' split
  all_goals simp -implicitDefEqProofs

@[simp] theorem afterEnd_window (n ts : Nat) (at_ : Stamp) (fr : Frame) (f : FieldDie) :
    (afterEnd n ts at_ fr f).window = f.window := by
  unfold afterEnd
  split
  all_goals simp -implicitDefEqProofs

/-! ### The twin pair -/

theorem takeRole_window {kind : Nat} {f g : FieldDie} {u : FlowUnit} (h : takeRole kind f = some (u, g)) :
    g.window = f.window := by
  unfold takeRole at h
  split at h
  · split at h
    · cases h
      rfl
    · cases h
  · cases h

@[simp] theorem onRole_window {p : FlowUnit → FieldDie → FieldDie} (h : ∀ u f, (p u f).window = f.window) (kind : Nat)
    (f : FieldDie) : (onRole kind p f).window = f.window := by
  unfold onRole
  split
  next htake => exact (h _ _).trans (takeRole_window htake)
  · rfl

@[simp] theorem evidenceChanged_window (byRecord : Bool) (f : FieldDie) :
    (evidenceChanged byRecord f).window = f.window := by
  simp [evidenceChanged, decideRole, reportDown]

@[simp] theorem setEvL_window (l byRecord : Bool) (f : FieldDie) : (setEvL l byRecord f).window = f.window := by
  simp [setEvL]

@[simp] theorem twinFaultIn_window (asserted : Bool) (ns : Nat) (f : FieldDie) :
    (twinFaultIn asserted ns f).window = f.window := by
  simp only [twinFaultIn]
  repeat' split
  all_goals simp -implicitDefEqProofs

@[simp] theorem grantAt_window (active : Bool) (cause : Nat) (f : FieldDie) :
    (grantAt active cause f).window = f.window := by
  simp [grantAt]

@[simp] theorem helloReceived_window (u : FlowUnit) (f : FieldDie) : (helloReceived u f).window = f.window := by
  simp -implicitDefEqProofs [helloReceived]

@[simp] theorem grantReceived_window (u : FlowUnit) (f : FieldDie) : (grantReceived u f).window = f.window := by
  simp [grantReceived]

@[simp] theorem statusSend_window (f : FieldDie) : (statusSend f).window = f.window := by simp [statusSend]
@[simp] theorem tryReq_window (f : FieldDie) : (tryReq f).window = f.window := by simp [tryReq]

@[simp] theorem statusReceived_window (u : FlowUnit) (f : FieldDie) : (statusReceived u f).window = f.window := by
  simp [statusReceived]

@[simp] theorem statusAbsence_window (f : FieldDie) : (statusAbsence f).window = f.window := by simp [statusAbsence]

@[simp] theorem reqReceived_window (u : FlowUnit) (f : FieldDie) : (reqReceived u f).window = f.window := by
  simp [reqReceived]

@[simp] theorem twinOn_window (f : FieldDie) : (twinOn f).window = f.window := by simp [twinOn, twinStart]

@[simp] theorem enableChanged_window (was : Bool) (f : FieldDie) : (enableChanged was f).window = f.window := by
  simp [enableChanged, twinOff]

@[simp] theorem writeTwnCtrl_window (req data : Nat) (f : FieldDie) : (writeTwnCtrl req data f).window = f.window := by
  simp [writeTwnCtrl]

@[simp] theorem reversionDone_window (f : FieldDie) : (reversionDone f).window = f.window := by simp [reversionDone]
@[simp] theorem holdoffReset_window (f : FieldDie) : (holdoffReset f).window = f.window := by simp [holdoffReset]

@[simp] theorem startRecord_window (tb : Nat) (f : FieldDie) : (startRecord tb f).window = f.window := by
  simp -implicitDefEqProofs [startRecord]

@[simp] theorem takeBoundary_window (f : FieldDie) : (takeBoundary f).window = f.window := by
  simp [takeBoundary, boundaryRoles]

@[simp] theorem applyServo_window (n : Nat) (u : FlowUnit) (f : FieldDie) : (applyServo n u f).window = f.window := by
  simp [applyServo, setDomain]

@[simp] theorem applyTime_window (tb : Nat) (us : List FlowUnit) (f : FieldDie) :
    (applyTime tb us f).window = f.window := by
  unfold applyTime
  dsimp only
  split
  all_goals simp -implicitDefEqProofs

@[simp] theorem recordApply_window (f : FieldDie) : (recordApply f).window = f.window := by
  unfold recordApply
  split
  all_goals simp -implicitDefEqProofs [applyRecord, applyFdb, applyMeters, setMeter]

@[simp] theorem recordLost_window (f : FieldDie) : (recordLost f).window = f.window := by simp [recordLost]

@[simp] theorem becomeActive_window (f : FieldDie) : (becomeActive f).window = f.window := by
  simp -implicitDefEqProofs [becomeActive, resumePtp]

@[simp] theorem takeover_window (f : FieldDie) : (takeover f).window = f.window := by
  simp -implicitDefEqProofs [takeover]

@[simp] theorem handover_window (f : FieldDie) : (handover f).window = f.window := by simp [handover]

/-! ### The proof and the flash -/

@[simp] theorem setResume_window (v : Nat) (f : FieldDie) : (setResume v f).window = f.window := rfl
@[simp] theorem resumeFailed_window (f : FieldDie) : (resumeFailed f).window = f.window := by simp [resumeFailed]
@[simp] theorem sendErase_window (o : Nat) (f : FieldDie) : (sendErase o f).window = f.window := by simp [sendErase]

@[simp] theorem startResume_window (img : List Byte) (f : FieldDie) : (startResume img f).window = f.window := by
  simp -implicitDefEqProofs [startResume, voidResume]

@[simp] theorem flashNext_window (m : List (Nat × Byte)) (f : FieldDie) : (flashNext m f).window = f.window := by
  simp -implicitDefEqProofs [flashNext, sendProgram, resumeVerify]

@[simp] theorem freeBytes_window (n : Nat) (f : FieldDie) : (freeBytes n f).2.window = f.window := by
  induction n generalizing f with
  | zero => rfl
  | succ n ih => exact ih f.free.2

@[simp] theorem writeProofCmd_window (req data : Nat) (f : FieldDie) :
    (writeProofCmd req data f).window = f.window := by
  simp [writeProofCmd]

@[simp] theorem stageImage_window (img : List Byte) (f : FieldDie) : (stageImage img f).window = f.window := by
  simp [stageImage]

@[simp] theorem endCommit_window (op v : Nat) (f : FieldDie) : (endCommit op v f).window = f.window := by
  simp [endCommit]

@[simp] theorem endSweep_window (v : Nat) (f : FieldDie) : (endSweep v f).window = f.window := by
  simp only [endSweep]
  repeat' split
  all_goals simp -implicitDefEqProofs

@[simp] theorem setTmr_window (i v : Nat) (f : FieldDie) : (setTmr i v f).window = f.window := rfl

@[simp] theorem voteReport_window (i : Nat) (w : Nat → Nat) (f : FieldDie) : (voteReport i w f).window = f.window := by
  simp [voteReport, tmrCorrected, tmrLost]

@[simp] theorem votedChange_window (i old : Nat) (f : FieldDie) : (votedChange i old f).window = f.window := by
  simp [votedChange]

@[simp] theorem voteEntry_window (i : Nat) (f : FieldDie) : (voteEntry i f).window = f.window := by simp [voteEntry]

/-! ### Tables -/

@[simp] theorem strReject_window (bit port code index : Nat) (f : FieldDie) :
    (strReject bit port code index f).window = f.window := by
  simp [strReject]

theorem forall_mem_ite {α : Type} {P : α → Prop} {c : Prop} [Decidable c] {a b : Option α} :
    (∀ k ∈ (if c then a else b), P k) ↔ (c → ∀ k ∈ a, P k) ∧ (¬ c → ∀ k ∈ b, P k) := by
  split
  next hc => simp [hc]
  next hc => simp [hc]

theorem entryReject_window (base inst e : Nat) (f : FieldDie) :
    ∀ k ∈ entryReject base inst e f, ∀ g, (k g).window = g.window := by
  unfold entryReject
  simp only [forall_mem_ite]
  simp -implicitDefEqProofs

@[simp] theorem entryAccepted_window (base e : Nat) (f : FieldDie) : (entryAccepted base e f).window = f.window := by
  simp [entryAccepted, fdbBecameValid]

@[simp] theorem storeTable_window (t : TblRow) (addr data : Nat) (f : FieldDie) :
    (storeTable t addr data f).window = f.window := by
  simp [storeTable]

@[simp] theorem writeValidWord_window (t : TblRow) (addr data : Nat) (f : FieldDie) :
    (writeValidWord t addr data f).window = f.window := by
  unfold writeValidWord
  dsimp only
  split
  · split
    next k hk => rw [entryReject_window _ _ _ _ k hk, FieldDie.wrN_window, storeTable_window]
    · simp
  · simp

@[simp] theorem tableWrite_window (req addr data : Nat) (f : FieldDie) :
    (tableWrite req addr data f).window = f.window := by
  unfold tableWrite
  split
  all_goals simp -implicitDefEqProofs

@[simp] theorem writeEntry_window (b : Nat) (xs : List (Nat × Nat)) (f : FieldDie) :
    (writeEntry b xs f).window = f.window := by
  unfold writeEntry
  split
  all_goals simp -implicitDefEqProofs

@[simp] theorem applyRun_window (a stride : Nat) (es : List (List Nat)) (f : FieldDie) :
    (applyRun a stride es f).window = f.window := by
  simp [applyRun]

/-! ### The key's reader -/

@[simp] theorem startAnswer_window (others uid : Nat) (f : FieldDie) : (startAnswer others uid f).window = f.window :=
  rfl

@[simp] theorem tornPage_window (slot page : Nat) (f : FieldDie) (k : KeyChip) :
    (tornPage slot page f k).1.window = f.window := by
  unfold tornPage
  split
  next hbytes =>
    split
    next hrecord => rw [snd_window hrecord, freeBytes_window, snd_window hbytes, freeBytes_window]

@[simp] theorem tornPointer_window (ptr : Nat) (f : FieldDie) (k : KeyChip) :
    (tornPointer ptr f k).1.window = f.window := by
  simp [tornPointer]

@[simp] theorem keyCutIn_window (c : Nat) (args : List Nat) (data : List Byte) (f : FieldDie) (k : KeyChip) :
    (keyCutIn c args data f k).1.window = f.window := by
  simp only [keyCutIn]
  repeat' split
  all_goals simp -implicitDefEqProofs

@[simp] theorem keyCut_window (f : FieldDie) (k : KeyChip) : (keyCut f k).1.window = f.window := by
  simp only [keyCut]
  repeat' split
  all_goals simp -implicitDefEqProofs

@[simp] theorem fillKeyRegs_window (a b : List Byte) (f : FieldDie) : (fillKeyRegs a b f).window = f.window := by
  simp [fillKeyRegs]

@[simp] theorem fillKeyUid_window (uid : Nat) (f : FieldDie) : (fillKeyUid uid f).window = f.window := by
  simp -implicitDefEqProofs [fillKeyUid]

@[simp] theorem keySend_window (code : Nat) (args : List Nat) (data : List Byte) (f : FieldDie) :
    (keySend code args data f).window = f.window := rfl

@[simp] theorem keyRead_window (b n : Nat) (f : FieldDie) : (keyRead b n f).window = f.window := rfl
@[simp] theorem keyStep_window (step : Nat) (f : FieldDie) : (keyStep step f).window = f.window := by simp [keyStep]

@[simp] theorem keyResult_window (code step err page : Nat) (f : FieldDie) :
    (keyResult code step err page f).window = f.window := by
  simp -implicitDefEqProofs [keyResult]

@[simp] theorem keyEnd_window (code err : Nat) (f : FieldDie) : (keyEnd code err f).window = f.window := by
  simp only [keyEnd]
  repeat' split
  all_goals simp -implicitDefEqProofs

@[simp] theorem keyStart_window (op : Nat) (f : FieldDie) : (keyStart op f).window = f.window := by
  simp -implicitDefEqProofs [keyStart]

@[simp] theorem keyCommitRequest_window (op : Nat) (f : FieldDie) : (keyCommitRequest op f).window = f.window := by
  unfold keyCommitRequest
  split
  all_goals simp -implicitDefEqProofs

@[simp] theorem keyHeaderRequest_window (f : FieldDie) : (keyHeaderRequest f).window = f.window := by
  simp [keyHeaderRequest]

@[simp] theorem writeKeyCmd_window (req data : Nat) (f : FieldDie) : (writeKeyCmd req data f).window = f.window := by
  simp [writeKeyCmd, keyRequest, keyAsked]

@[simp] theorem presencePoll_window (answers uid : Nat) (f : FieldDie) :
    (presencePoll answers uid f).window = f.window := by
  simp -implicitDefEqProofs [presencePoll, pollFound]

@[simp] theorem sendLoad_window (off : Nat) (f : FieldDie) : (sendLoad off f).window = f.window := rfl
@[simp] theorem openDone_window (own : Bool) (f : FieldDie) : (openDone own f).window = f.window := by simp [openDone]

@[simp] theorem openReply_window (status : Nat) (d : List Byte) (f : FieldDie) :
    (openReply status d f).window = f.window := by
  simp only [openReply]
  repeat' split
  all_goals simp -implicitDefEqProofs

@[simp] theorem keyRetry_window (code err : Nat) (f : FieldDie) : (keyRetry code err f).window = f.window := by
  simp only [keyRetry]
  repeat' split
  all_goals simp -implicitDefEqProofs

@[simp] theorem keyReplied_window (status : Nat) (d : List Byte) (f : FieldDie) :
    (keyReplied status d f).window = f.window := by
  simp [keyReplied, pageRetry, sendPage, takeTxn, closeReply]

@[simp] theorem keySilent_window (f : FieldDie) : (keySilent f).window = f.window := by simp [keySilent]
@[simp] theorem startSilent_window (f : FieldDie) : (startSilent f).window = f.window := by simp [startSilent]

/-! ### State tables -/

@[simp] theorem writeStCommit_window (data : Nat) (f : FieldDie) : (writeStCommit data f).window = f.window := by
  simp -implicitDefEqProofs [writeStCommit]

@[simp] theorem setUnchecked_window (m : Nat) (on : Bool) (f : FieldDie) : (setUnchecked m on f).window = f.window := by
  simp [setUnchecked]

@[simp] theorem stCheckDone_window (f : FieldDie) : (stCheckDone f).window = f.window := by
  unfold stCheckDone
  split
  all_goals simp -implicitDefEqProofs [installTable]

/-! ### Resets and the line -/

@[simp] theorem risesPast_window (lo hi v : Nat) (f : FieldDie) : (risesPast lo hi v f).2.window = f.window := by
  simp only [risesPast]
  repeat' split
  all_goals simp -implicitDefEqProofs

@[simp] theorem fallsPast_window (lo hi v : Nat) (f : FieldDie) : (fallsPast lo hi v f).2.window = f.window := by
  simp only [fallsPast]
  repeat' split
  all_goals simp -implicitDefEqProofs

@[simp] theorem setAbove_window (n : Nat) (on : Bool) (f : FieldDie) : (setAbove n on f).window = f.window := by
  simp [setAbove]

@[simp] theorem lineOn_window (n mv : Nat) (r : Option Nat) (f : FieldDie) : (lineOn n mv r f).window = f.window := by
  simp [lineOn]

@[simp] theorem lineDown_window (n mv : Nat) (f : FieldDie) : (lineDown n mv f).window = f.window := by
  simp [lineDown, lineOffAt, lineBelow]

@[simp] theorem flashCut_window (f : FieldDie) (m : List (Nat × Byte)) : (flashCut f m).1.window = f.window := by
  unfold flashCut
  split
  all_goals simp -implicitDefEqProofs

@[simp] theorem lateTrigger_window (ignored full lowNs bit : Nat) (f : FieldDie) :
    (lateTrigger ignored full lowNs bit f).window = f.window := by
  simp [lateTrigger]

@[simp] theorem identityRegs_window (f : FieldDie) : (identityRegs f).window = f.window := by
  simp -implicitDefEqProofs [identityRegs]

@[simp] theorem releaseReset_window (straps : Nat) (f : FieldDie) : (releaseReset straps f).window = f.window := by
  simp [releaseReset]

@[simp] theorem startGo_window (data : Nat) (f : FieldDie) : (startGo data f).window = f.window := by simp [startGo]

/-! ### Darkroom -/

@[simp] theorem napEntry_window (f : FieldDie) : (napEntry f).window = f.window := by simp [napEntry]

@[simp] theorem slCalUpdate_window (period : Nat) (f : FieldDie) : (slCalUpdate period f).window = f.window := by
  simp [slCalUpdate]

@[simp] theorem darkRefuse_window (auto : Bool) (code : Nat) (f : FieldDie) :
    (darkRefuse auto code f).window = f.window := by
  simp [darkRefuse]

@[simp] theorem darkRequest_window (auto : Bool) (f : FieldDie) : (darkRequest auto f).window = f.window := by
  simp [darkRequest, darkBegin]

@[simp] theorem writePwrCtrl_window (req data : Nat) (f : FieldDie) : (writePwrCtrl req data f).window = f.window := by
  simp [writePwrCtrl, pwrCtrlChanged]

@[simp] theorem darkAuto_window (f : FieldDie) : (darkAuto f).window = f.window := by simp [darkAuto]

@[simp] theorem darkCapture_window (f : FieldDie) : (darkCapture f).window = f.window := by
  simp only [darkCapture]
  repeat' split
  all_goals simp -implicitDefEqProofs

@[simp] theorem captureTick_window (f : FieldDie) : (captureTick f).window = f.window := by simp [captureTick]
@[simp] theorem drainDone_window (f : FieldDie) : (drainDone f).window = f.window := by simp [drainDone, darkPort]
@[simp] theorem drainTimeout_window (f : FieldDie) : (drainTimeout f).window = f.window := by simp [drainTimeout]
@[simp] theorem darkReturn_window (f : FieldDie) : (darkReturn f).window = f.window := by simp [darkReturn]

@[simp] theorem darkAbandon_window (f : FieldDie) : (darkAbandon f).window = f.window := by
  simp -implicitDefEqProofs [darkAbandon]

@[simp] theorem startExit_window (f : FieldDie) : (startExit f).window = f.window := rfl

@[simp] theorem darkCause_window (bit : Nat) (f : FieldDie) : (darkCause bit f).window = f.window := by
  simp -implicitDefEqProofs [darkCause]

@[simp] theorem burstSeen_window (n : Nat) (f : FieldDie) : (burstSeen n f).window = f.window := by simp [burstSeen]

@[simp] theorem wakeCauseSeen_window (bit : Nat) (f : FieldDie) : (wakeCauseSeen bit f).window = f.window := by
  simp [wakeCauseSeen]

@[simp] theorem powerGoodFall_window (f : FieldDie) : (powerGoodFall f).window = f.window := by simp [powerGoodFall]

@[simp] theorem burstDetect_window (n : Nat) (sig : WakeSignal) (f : FieldDie) :
    (burstDetect n sig f).window = f.window := by
  simp only [burstDetect]
  repeat' split
  all_goals simp -implicitDefEqProofs

/-! ### Perturbation -/

@[simp] theorem ptbReject_window (req : Nat) (f : FieldDie) : (ptbReject req f).window = f.window := by simp [ptbReject]
@[simp] theorem ptbVoid_window (f : FieldDie) : (ptbVoid f).window = f.window := by simp [ptbVoid]

@[simp] theorem asOwner_window {p : FieldDie → FieldDie} (h : ∀ f, (p f).window = f.window) (req : Nat) (f : FieldDie) :
    (asOwner req p f).window = f.window := by
  simp [asOwner, h]

@[simp] theorem setControl_window (req addr c data : Nat) (f : FieldDie) :
    (setControl req addr c data f).window = f.window := by
  simp [setControl]

@[simp] theorem writePtbHold_window (req data : Nat) (f : FieldDie) : (writePtbHold req data f).window = f.window := by
  simp [writePtbHold]

@[simp] theorem writePtbAck_window (req data : Nat) (f : FieldDie) : (writePtbAck req data f).window = f.window := by
  simp [writePtbAck]

@[simp] theorem writePtbWdog_window (req data : Nat) (f : FieldDie) : (writePtbWdog req data f).window = f.window := by
  simp [writePtbWdog]

@[simp] theorem writePtbLane_window (req data : Nat) (f : FieldDie) : (writePtbLane req data f).window = f.window := by
  unfold writePtbLane
  dsimp only
  split
  all_goals simp -implicitDefEqProofs

@[simp] theorem flipWord_window (a : Nat) (double : Bool) (f : FieldDie) : (flipWord a double f).window = f.window :=
  rfl

@[simp] theorem flipCell_window (c : Nat) (double : Bool) (f : FieldDie) : (flipCell c double f).window = f.window := by
  simp only [flipCell]
  repeat' split
  all_goals simp -implicitDefEqProofs

@[simp] theorem writePtbEcc_window (req data : Nat) (f : FieldDie) : (writePtbEcc req data f).window = f.window := by
  simp [writePtbEcc]

@[simp] theorem setCopies_window (i : Nat) (w : Nat → Nat) (f : FieldDie) : (setCopies i w f).window = f.window := by
  simp [setCopies]

@[simp] theorem writePtbTmr_window (req data : Nat) (f : FieldDie) : (writePtbTmr req data f).window = f.window := by
  simp [writePtbTmr, setCopy]

@[simp] theorem writePtbLock_window (req data : Nat) (f : FieldDie) : (writePtbLock req data f).window = f.window := by
  simp [writePtbLock]

@[simp] theorem writePtbLife_window (req data : Nat) (f : FieldDie) : (writePtbLife req data f).window = f.window := by
  simp [writePtbLife]

@[simp] theorem writePtb_window (req addr data : Nat) (f : FieldDie) :
    (writePtb req addr data f).window = f.window := by
  simp -implicitDefEqProofs [writePtb, writePtbArm, ptbWrite]

/-! ### Table engines -/

@[simp] theorem restInstance_window (k : Nat) (f : FieldDie) : (restInstance k f).window = f.window := by
  simp [restInstance]

@[simp] theorem watchdog_window (k : Nat) (f : FieldDie) : (watchdog k f).window = f.window := by
  simp [watchdog, wdogControl]

@[simp] theorem checkWord_window (a : Nat) (f : FieldDie) : (checkWord a f).window = f.window := by
  unfold checkWord
  split
  all_goals simp -implicitDefEqProofs [tableLost, reloadTable, invalidate]

@[simp] theorem scrubPass_window (f : FieldDie) : (scrubPass f).window = f.window := by simp [scrubPass]

/-! ### The register file -/

@[simp] theorem heardManager_window (f : FieldDie) : (heardManager f).window = f.window := rfl

@[simp] theorem writeSpiSlave_window (data : Nat) (f : FieldDie) : (writeSpiSlave data f).window = f.window := by
  simp [writeSpiSlave]

@[simp] theorem stageLow_window (req addr data : Nat) (f : FieldDie) :
    (stageLow req addr data f).window = f.window := by
  simp [stageLow, stageWord]

@[simp] theorem glbWrite_window (req addr data : Nat) (f : FieldDie) :
    (glbWrite req addr data f).window = f.window := by
  simp [glbWrite]

@[simp] theorem pwrWrite_window (req addr data : Nat) (f : FieldDie) :
    (pwrWrite req addr data f).window = f.window := by
  simp [pwrWrite]

@[simp] theorem cfgWrite_window (req addr data : Nat) (f : FieldDie) :
    (cfgWrite req addr data f).window = f.window := by
  simp [cfgWrite]

@[simp] theorem pinWrite_window (req addr data : Nat) (f : FieldDie) :
    (pinWrite req addr data f).window = f.window := by
  simp [pinWrite]

@[simp] theorem fltWrite_window (req addr data : Nat) (f : FieldDie) :
    (fltWrite req addr data f).window = f.window := by
  simp [fltWrite]

@[simp] theorem portWrite_window (req addr data : Nat) (f : FieldDie) :
    (portWrite req addr data f).window = f.window := by
  simp [portWrite, writePodl]

@[simp] theorem mdsWrite_window (req addr data : Nat) (f : FieldDie) :
    (mdsWrite req addr data f).window = f.window := by
  simp -implicitDefEqProofs [mdsWrite, writeSegBurst]

@[simp] theorem fwdWrite_window (req addr data : Nat) (f : FieldDie) :
    (fwdWrite req addr data f).window = f.window := by
  simp [fwdWrite]

@[simp] theorem bufWrite_window (req addr data : Nat) (f : FieldDie) :
    (bufWrite req addr data f).window = f.window := by
  simp [bufWrite]

@[simp] theorem strWrite_window (req addr data : Nat) (f : FieldDie) :
    (strWrite req addr data f).window = f.window := by
  simp [strWrite]

@[simp] theorem timWrite_window (req addr data : Nat) (f : FieldDie) :
    (timWrite req addr data f).window = f.window := by
  simp [timWrite, ptpWrite, writePtpCfg, writePdly]

@[simp] theorem writeXngCtrl_window (req data : Nat) (f : FieldDie) : (writeXngCtrl req data f).window = f.window := by
  simp [writeXngCtrl]

@[simp] theorem linkWrite_window (req addr data : Nat) (f : FieldDie) :
    (linkWrite req addr data f).window = f.window := by
  simp [linkWrite]

@[simp] theorem readChangeTime_window (n : Nat) (f : FieldDie) : (readChangeTime n f).2.window = f.window := by
  unfold readChangeTime
  dsimp only
  split
  all_goals simp -implicitDefEqProofs

@[simp] theorem readWord_window (req addr : Nat) (f : FieldDie) : (readWord req addr f).2.window = f.window := by
  simp only [readWord]
  repeat' split
  all_goals simp -implicitDefEqProofs

@[simp] theorem fieldRead_window (req addr be : Nat) (f : FieldDie) :
    (fieldRead req addr be f).2.window = f.window := by
  unfold fieldRead
  dsimp only
  split
  all_goals simp -implicitDefEqProofs

/-! ### Start-up -/

@[simp] theorem loadIdentity_window (h : List Byte) (f : FieldDie) : (loadIdentity h f).window = f.window := by
  simp -implicitDefEqProofs [loadIdentity]

@[simp] theorem commitLoaded_window (proof : Nat) (f : FieldDie) : (commitLoaded proof f).window = f.window := by
  simp [commitLoaded]

@[simp] theorem fillStartKey_window (k : KeyChip) (f : FieldDie) : (fillStartKey k f).window = f.window := by
  simp only [fillStartKey]
  repeat' split
  all_goals simp -implicitDefEqProofs

@[simp] theorem startPort_window (n : Nat) (f : FieldDie) : (startPort n f).window = f.window := by
  simp -implicitDefEqProofs [startPort]

@[simp] theorem startFabric_window (f : FieldDie) : (startFabric f).window = f.window := by simp [startFabric]

@[simp] theorem startPorts_window (hold : Option Nat) (f : FieldDie) : (startPorts hold f).window = f.window := by
  unfold startPorts
  split
  all_goals simp -implicitDefEqProofs

@[simp] theorem startFlash_window (s : Source) (f : FieldDie) : (startFlash s f).window = f.window := by
  simp [startFlash]

@[simp] theorem darkReconcile_window (f : FieldDie) : (darkReconcile f).window = f.window := by
  simp -implicitDefEqProofs [darkReconcile, missDark, darkDomains]

@[simp] theorem darkServo_window (n : Nat) (f : FieldDie) : (darkServo n f).window = f.window := by simp [darkServo]

@[simp] theorem resumeLost_window (f : FieldDie) : (resumeLost f).window = f.window := by
  simp -implicitDefEqProofs [resumeLost]

@[simp] theorem wakePortUp_window (n : Nat) (f : FieldDie) : (wakePortUp n f).window = f.window := by
  simp -implicitDefEqProofs [wakePortUp, wakeAfter]

@[simp] theorem logDark_window (f : FieldDie) : (logDark f).window = f.window := by simp [logDark]

@[simp] theorem wakeDone_window (f : FieldDie) : (wakeDone f).window = f.window := by
  simp only [wakeDone]
  repeat' split
  all_goals simp -implicitDefEqProofs

/-! ### The serial port -/

@[simp] theorem selFall_window (f : FieldDie) : (selFall f).window = f.window := by
  unfold selFall
  dsimp only
  split
  all_goals simp -implicitDefEqProofs

@[simp] theorem spiEvt_window (bit cmd addr : Nat) (f : FieldDie) : (spiEvt bit cmd addr f).window = f.window := by
  simp [spiEvt]

@[simp] theorem spiBad_window (cmd addr : Nat) (f : FieldDie) : (spiBad cmd addr f).window = f.window := by
  simp [spiBad]

@[simp] theorem spiDone_window (cmd : Nat) (f : FieldDie) : (spiDone cmd f).window = f.window := by simp [spiDone]

@[simp] theorem readWords_window (n addr : Nat) (f : FieldDie) : (readWords n addr f).2.window = f.window := by
  induction n generalizing addr f with
  | zero => rfl
  | succ n ih => exact (ih _ _).trans (readWord_window _ _ f)

@[simp] theorem spiRead_window (addr count period : Nat) (f : FieldDie) :
    (spiRead addr count period f).window = f.window := by
  simp [spiRead]

@[simp] theorem spiStatus_window (f : FieldDie) : (spiStatus f).window = f.window := by simp [spiStatus]
@[simp] theorem spiId_window (f : FieldDie) : (spiId f).window = f.window := by simp [spiId]

@[simp] theorem spiAbort_window (cmd addr : Nat) (f : FieldDie) : (spiAbort cmd addr f).window = f.window := by
  simp [spiAbort]

/-! ### Register messages -/

@[simp] theorem consume_window (u : FlowUnit) (f : FieldDie) : (consume u f).window = f.window := rfl

@[simp] theorem fieldRegr_window (f : FieldDie) : (fieldRegr f).window = f.window := by
  unfold fieldRegr
  split
  all_goals simp -implicitDefEqProofs

@[simp] theorem fieldFnReset_window (f : FieldDie) : (fieldFnReset f).window = f.window := by
  unfold fieldFnReset
  split
  all_goals simp -implicitDefEqProofs [fnReset]

@[simp] theorem fieldData_window (f : FieldDie) : (fieldData f).window = f.window := by
  unfold fieldData
  split
  all_goals simp -implicitDefEqProofs

/-! ### Ticks -/

@[simp] theorem xcheckTick_window (f : FieldDie) : (xcheckTick f).window = f.window := by simp [xcheckTick]
@[simp] theorem xcheckOverrun_window (f : FieldDie) : (xcheckOverrun f).window = f.window := by simp [xcheckOverrun]

@[simp] theorem compareTick_window (f : FieldDie) : (compareTick f).window = f.window := by
  simp [compareTick, wantTick, domDiffer, gclDiffer, portDiffer]

@[simp] theorem pairSample_window (pads p : Nat) (f : FieldDie) : (pairSample pads p f).window = f.window := by
  simp [pairSample, pairTick]

@[simp] theorem wakeTickSeen_window (f : FieldDie) : (wakeTickSeen f).window = f.window := by
  unfold wakeTickSeen
  split
  all_goals simp -implicitDefEqProofs

@[simp] theorem phaseTicks_window (f : FieldDie) : (phaseTicks f).window = f.window := by simp [phaseTicks]

@[simp] theorem safelightTick_window (pads : Nat) (f : FieldDie) : (safelightTick pads f).window = f.window := by
  simp [safelightTick]

end Sys2Proof.Machine
end

section
/-! The canonical form of the serial window's memory (R716): the stores of the window keep it, and with them every operation
that can come to one. -/

namespace Sys2Proof.Machine

variable {f g : FieldDie}

/-- The canonical form of the serial window's memory. -/
def WindowWf (m : List (Nat × Byte)) : Prop := Store.wf (fun _ => 0) m

theorem WindowWf.set {m : List (Nat × Byte)} (h : WindowWf m) (o : Nat) (b : Byte) :
    WindowWf (Store.set (fun _ => 0) m o b) := Store.wf_set _ m o b h

theorem WindowWf.clear {m : List (Nat × Byte)} (h : WindowWf m) (p : Nat → Bool) : WindowWf (Store.clear p m) :=
  Store.wf_clear (fun _ => 0) p m h

theorem windowWf_ite {c : Prop} [Decidable c] (hf : WindowWf f.window) (hg : WindowWf g.window) :
    WindowWf (if c then f else g).window := by
  split
  · exact hf
  · exact hg

theorem windowWf_forAll {α : Type} {k : α → FieldDie → FieldDie} (h : ∀ x f, WindowWf f.window → WindowWf (k x f).window)
    (xs : List α) (hf : WindowWf f.window) : WindowWf (forAll xs k f).window := by
  unfold forAll
  induction xs generalizing f with
  | nil => exact hf
  | cons x xs ih => exact ih (h x f hf)

theorem windowWf_forRange {k : Nat → FieldDie → FieldDie} (h : ∀ n f, WindowWf f.window → WindowWf (k n f).window) (n : Nat)
    (hf : WindowWf f.window) : WindowWf (forRange n k f).window := windowWf_forAll h (List.range n) hf

theorem winStore_windowWf (o : Nat) (bs : List Byte) (hf : WindowWf f.window) : WindowWf (winStore o bs f).window := by
  induction bs generalizing o f with
  | nil => exact hf
  | cons b bs ih => exact ih (o + 1) (windowWf_ite (hf.set o b) hf)

theorem setWin_windowWf (o v : Nat) (hf : WindowWf f.window) : WindowWf (setWin o v f).window :=
  winStore_windowWf o (bytesLE v) hf

theorem setWinStat_windowWf (k : Nat) (stopped err : Bool) (code : Nat) (hf : WindowWf f.window) :
    WindowWf (setWinStat k stopped err code f).window := setWin_windowWf _ _ hf

theorem winCompletion_windowWf (k : Nat) (c : Completion) (hf : WindowWf f.window) :
    WindowWf (winCompletion k c f).window := by
  unfold winCompletion
  dsimp only
  rw [FieldDie.setWinModer_window]
  exact setWin_windowWf _ _ (winStore_windowWf _ _ hf)

theorem winSend_windowWf (k : Nat) (hf : WindowWf f.window) : WindowWf (winSend k f).window := by
  unfold winSend
  extract_lets w head posted
  split
  · exact hf
  · split
    · exact hf
    · extract_lets d w2 bad data bytes taken c g
      have hg : WindowWf g.window := winCompletion_windowWf k c (setWin_windowWf _ _ hf)
      clear_value g
      split
      · exact hg
      · exact hg

theorem winSendAll_windowWf (k : Nat) (hf : WindowWf f.window) : WindowWf (winSendAll k f).window :=
  windowWf_forRange (fun _ _ => winSend_windowWf k) _ hf

theorem winRxWrites_windowWf (ds : List (List Byte)) (bs : List Byte) (hf : WindowWf f.window) :
    WindowWf (winRxWrites ds bs f).window := by
  induction ds generalizing bs f with
  | nil => exact hf
  | cons d ds ih => exact ih _ (winStore_windowWf _ _ hf)

theorem winDeliver_windowWf (q : Nat) (bs : List Byte) (ts port : Nat) (hf : WindowWf f.window) :
    WindowWf (winDeliver q bs ts port f).window := by
  unfold winDeliver
  extract_lets k w
  split
  · exact hf
  · split
    · exact hf
    next n bad good _ =>
      split
      · exact hf
      · extract_lets skipped filled taken
        have hskipped : WindowWf skipped.window := windowWf_forAll (fun _ _ => winCompletion_windowWf _ _) bad hf
        have hfilled : WindowWf filled.window := winRxWrites_windowWf good bs hskipped
        exact winCompletion_windowWf _ _ (setWin_windowWf _ _ hfilled)

theorem winWriteCtrl_windowWf (k data : Nat) (hf : WindowWf f.window) : WindowWf (winWriteCtrl k data f).window := by
  unfold winWriteCtrl
  extract_lets old kept refused w start started stopped stated told
  have hstart : ∀ b h t g, WindowWf g.window → WindowWf (start b h t g).window := fun b h t g hg =>
    windowWf_ite (setWin_windowWf _ _ (setWin_windowWf _ _ hg)) hg
  have hstarted : WindowWf started.window := hstart _ _ _ _ (hstart _ _ _ _ (hstart _ _ _ _ (setWin_windowWf _ _ hf)))
  have hstopped : WindowWf stopped.window :=
    windowWf_ite (setWinStat_windowWf _ _ _ _ hstarted) (windowWf_ite (setWinStat_windowWf _ _ _ _ hstarted) hstarted)
  have hstated : WindowWf stated.window :=
    windowWf_ite (setWinStat_windowWf _ _ _ _ hstopped) (windowWf_ite (setWinStat_windowWf _ _ _ _ hstopped) hstopped)
  exact winSendAll_windowWf k (windowWf_ite (setWin_windowWf _ _ hstated) hstated)

theorem winWriteBase_windowWf (k o b data : Nat) (hf : WindowWf f.window) : WindowWf (winWriteBase k o b data f).window :=
  windowWf_ite (setWin_windowWf _ _ hf) (setWin_windowWf _ _ hf)

theorem winBell_windowWf (k o data : Nat) (hf : WindowWf f.window) : WindowWf (winBell k o data f).window :=
  windowWf_ite (winSendAll_windowWf _ (setWin_windowWf _ _ hf)) hf

theorem winWrite_windowWf (o data : Nat) (hf : WindowWf f.window) : WindowWf (winWrite o data f).window := by
  have set : ∀ v, WindowWf (setWin o v f).window := fun v => setWin_windowWf o v hf
  have base : ∀ k o b, WindowWf (winWriteBase k o b data f).window := fun k o b => winWriteBase_windowWf k o b data hf
  unfold winWrite
  refine windowWf_ite hf (windowWf_ite (set _) (windowWf_ite ?_ (windowWf_ite (set _) (windowWf_ite (set _)
    (windowWf_ite (set _) (windowWf_ite (set _) hf))))))
  exact windowWf_ite (winWriteCtrl_windowWf _ _ hf) (windowWf_ite (base _ _ _) (windowWf_ite (base _ _ _) (windowWf_ite
    (base _ _ _) (windowWf_ite (winBell_windowWf _ _ _ hf) (windowWf_ite (set _) hf)))))

theorem winInterrupt_windowWf (k cause : Nat) (hf : WindowWf f.window) : WindowWf (winInterrupt k cause f).window :=
  windowWf_ite (setWin_windowWf _ _ hf) hf

theorem winReset_windowWf (hf : WindowWf f.window) : WindowWf (winReset f).window := by
  unfold winReset
  rw [purgeLaunch_window]
  exact hf.clear (fun o => decide (o < 0x800))

theorem managerReset_windowWf (hf : WindowWf f.window) : WindowWf (managerReset f).window := by
  have noted : ∀ (g : FieldDie) x, ({ g with spi := x }).window = g.window := fun _ _ => rfl
  unfold managerReset
  dsimp only
  rw [FieldDie.raise_window, noted]
  refine winReset_windowWf ?_
  rwa [requesterReset_window]

theorem judgeRole_windowWf (req data : Nat) (hf : WindowWf f.window) : WindowWf (judgeRole req data f).window := by
  have noted : ∀ (g : FieldDie) x, ({ g with spi := x }).window = g.window := fun _ _ => rfl
  have stored : ∀ d, WindowWf (storeWrite req F_SPI_CTRL d f).window := fun d => by rwa [storeWrite_window]
  unfold judgeRole
  dsimp only
  split
  · rw [FieldDie.raise_window]
    exact stored _
  · split
    · exact managerReset_windowWf (stored _)
    · rw [noted]
      exact stored _

theorem writeSpiCtrl_windowWf (req data : Nat) (hf : WindowWf f.window) : WindowWf (writeSpiCtrl req data f).window := by
  have held : WindowWf (if req = 0x40 then { f with spi := { f.spi with roleHeld := none } } else f).window :=
    windowWf_ite hf hf
  unfold writeSpiCtrl
  generalize (if req = 0x40 then { f with spi := { f.spi with roleHeld := none } } else f) = g at held ⊢
  dsimp only
  split
  · rwa [storeWrite_window]
  · exact windowWf_ite held (judgeRole_windowWf _ _ held)

theorem spiWrite_windowWf (req addr data : Nat) (hf : WindowWf f.window) : WindowWf (spiWrite req addr data f).window := by
  unfold spiWrite
  split
  · exact writeSpiCtrl_windowWf _ _ hf
  · simpa using hf

theorem writeEnds_windowWf (hf : WindowWf f.window) : WindowWf (writeEnds f).window := by
  unfold writeEnds
  split
  · exact judgeRole_windowWf _ _ hf
  · exact hf

theorem blockWrite_windowWf (req addr data : Nat) (hf : WindowWf f.window) :
    WindowWf (blockWrite req addr data f).window := by
  have same : ∀ {g : FieldDie}, g.window = f.window → WindowWf g.window := fun h => by rwa [h]
  unfold blockWrite
  exact
    windowWf_ite (same (writePtb_window ..)) <|
    windowWf_ite (same (sqWrite_window ..)) <|
    windowWf_ite (same (stageLow_window ..)) <|
    windowWf_ite (same (glbWrite_window ..)) <|
    windowWf_ite (same (pwrWrite_window ..)) <|
    windowWf_ite (same (cfgWrite_window ..)) <|
    windowWf_ite (same (writeKeyCmd_window ..)) <|
    windowWf_ite (same (storeWrite_window ..)) <|
    windowWf_ite (spiWrite_windowWf _ _ _ hf) <|
    windowWf_ite (same (pinWrite_window ..)) <|
    windowWf_ite (same (fltWrite_window ..)) <|
    windowWf_ite (same (portWrite_window ..)) <|
    windowWf_ite (same (mdsWrite_window ..)) <|
    windowWf_ite (same (writeCapCtrl_window ..)) <|
    windowWf_ite (same (fwdWrite_window ..)) <|
    windowWf_ite (same (bufWrite_window ..)) <|
    windowWf_ite (same (strWrite_window ..)) <|
    windowWf_ite (same (timWrite_window ..)) <|
    windowWf_ite (same (linkWrite_window ..)) <|
    same (storeWrite_window ..)

theorem writeWord_windowWf (req addr data : Nat) (hf : WindowWf f.window) : WindowWf (writeWord req addr data f).window := by
  unfold writeWord
  split_ifs
  · exact blockWrite_windowWf _ _ _ hf
  · rwa [tableWrite_window]
  · exact winWrite_windowWf _ _ hf
  · exact hf

theorem fieldWrite_windowWf (req addr be data : Nat) (hf : WindowWf f.window) :
    WindowWf (fieldWrite req addr be data f).window := by
  unfold fieldWrite
  split_ifs
  · exact hf
  · rwa [badAccess_window]
  · exact writeWord_windowWf _ _ _ hf

theorem writeWords_windowWf (ws : List Word) (addr : Nat) (hf : WindowWf f.window) :
    WindowWf (writeWords ws addr f).window := by
  induction ws generalizing addr f with
  | nil => exact hf
  | cons w ws ih => exact ih _ (fieldWrite_windowWf _ _ _ _ hf)

theorem applyRegw_windowWf (u : FlowUnit) (hf : WindowWf f.window) : WindowWf (applyRegw u f).window :=
  windowWf_forRange (fun _ _ => fieldWrite_windowWf _ _ _ _) _ hf

theorem fieldRegw_windowWf (hf : WindowWf f.window) : WindowWf (fieldRegw f).window := by
  unfold fieldRegw
  split
  · exact applyRegw_windowWf _ hf
  · exact hf

theorem managerTimeout_windowWf (hf : WindowWf f.window) : WindowWf (managerTimeout f).window := by
  unfold managerTimeout
  extract_lets ms
  split
  · exact managerReset_windowWf hf
  · exact hf

theorem spiMgrReset_windowWf (key : Nat) (hf : WindowWf f.window) : WindowWf (spiMgrReset key f).window := by
  unfold spiMgrReset
  split
  · exact hf
  · extract_lets g
    have hg : WindowWf g.window := by
      unfold g
      rwa [selFall_window]
    clear_value g
    split
    · rwa [spiBad_window]
    · rw [spiDone_window]
      exact managerReset_windowWf hg

theorem spiWriteCmd_windowWf (addr : Nat) (ws : List Word) (crc : Nat) (hf : WindowWf f.window) :
    WindowWf (spiWriteCmd addr ws crc f).window := by
  unfold spiWriteCmd
  split
  · exact hf
  · extract_lets g src written
    have hg : WindowWf g.window := by
      unfold g
      rwa [selFall_window]
    clear_value g
    split
    · rwa [spiBad_window]
    · split
      · have hwritten : WindowWf written.window := writeWords_windowWf ws addr hg
        clear_value written
        split
        · exact hwritten
        · rw [spiDone_window]
          exact writeEnds_windowWf hwritten
      · rwa [spiDone_window, spiEvt_window]

theorem startP16_windowWf (c : Copy) (hf : WindowWf f.window) : WindowWf (startP16 c f).window := by
  unfold startP16
  extract_lets g
  have hg : WindowWf g.window := by rwa [show g = startCopy c f from rfl, startCopy_window]
  clear_value g
  split
  · extract_lets fr bs
    split
    · exact windowWf_ite hg (winDeliver_windowWf _ _ _ _ hg)
    · rwa [forAll_window fun u f => FieldDie.sendXng_window f u]
  · exact hg

theorem transmitStart_windowWf (n : Nat) (hf : WindowWf f.window) : WindowWf (transmitStart n f).window := by
  unfold transmitStart
  split
  · exact hf
  · extract_lets g
    have hg : WindowWf g.window := by rwa [show g = purgeOverrun n f from rfl, purgeOverrun_window]
    clear_value g
    split
    · split
      · refine windowWf_ite (startP16_windowWf _ hg) ?_
        rwa [startCopy_window]
      · exact hg
    · split
      · refine windowWf_ite ?_ hg
        rwa [startCopy_window, preemptNow_window]
      · exact hg

theorem loadReg_windowWf (a v : Nat) (hf : WindowWf f.window) : WindowWf (loadReg a v f).window := by
  unfold loadReg
  extract_lets m w
  split
  · exact hf
  · exact fieldWrite_windowWf _ _ _ _ hf

theorem loadRecord_windowWf (r : ImgRec) (hf : WindowWf f.window) : WindowWf (loadRecord r f).window := by
  cases r with
  | regs a ws => exact windowWf_forRange (fun _ _ => loadReg_windowWf _ _) _ hf
  | table a n st es =>
    unfold loadRecord
    rwa [applyRun_window]

theorem loadRecords_windowWf (recs : List ImgRec) (hf : WindowWf f.window) : WindowWf (loadRecords recs f).window := by
  unfold loadRecords
  rw [dropStaged_window]
  exact windowWf_forAll (fun r _ => loadRecord_windowWf r) recs hf

theorem loadImage_windowWf (img : List Byte) (recs : List ImgRec) (hf : WindowWf f.window) :
    WindowWf (loadImage img recs f).window := by
  unfold loadImage
  rw [commitLoaded_window]
  refine loadRecords_windowWf recs ?_
  rwa [loadIdentity_window]

theorem applySource_windowWf (s : Source) (hf : WindowWf f.window) : WindowWf (applySource s f).window := by
  unfold applySource
  extract_lets src failed several loaded
  have hfailed : WindowWf failed.window := by
    refine windowWf_ite ?_ hf
    rwa [FieldDie.raise_window]
  have hseveral : WindowWf several.window := by
    refine windowWf_ite ?_ hfailed
    rwa [FieldDie.raise_window]
  have hloaded : WindowWf loaded.window := by
    unfold loaded
    split
    · rw [FieldDie.put_window]
      exact loadImage_windowWf _ _ hseveral
    · exact hseveral
  rwa [FieldDie.put_window, FieldDie.put_window]

theorem configResolved_windowWf (k : KeyChip) (m : List (Nat × Byte)) (hf : WindowWf f.window) :
    WindowWf (configResolved k m f).window := by
  unfold configResolved
  extract_lets s
  rw [startFlash_window, startPorts_window, startFabric_window]
  refine applySource_windowWf s ?_
  rwa [fillStartKey_window]

theorem resumeImage_windowWf (img : List Byte) (recs : List ImgRec) (hf : WindowWf f.window) :
    WindowWf (resumeImage img recs f).window := by
  unfold resumeImage
  extract_lets loaded
  rw [forAll_window fun m f => meterFill_window m true f, show loaded = setResume 2 (loadImage img recs f) from rfl,
    setResume_window]
  exact loadImage_windowWf img recs hf

theorem resumeLoad_windowWf (m : List (Nat × Byte)) (hf : WindowWf f.window) : WindowWf (resumeLoad m f).window := by
  have hg : WindowWf (f.put F_TIM_SYS_active f.tim.darkActive).window := by rwa [FieldDie.put_window]
  unfold resumeLoad
  generalize f.put F_TIM_SYS_active f.tim.darkActive = g at hg ⊢
  dsimp only
  split
  next i _ =>
    refine windowWf_ite ?_ ?_
    · rw [FieldDie.put_window]
      exact resumeImage_windowWf i.1 i.2 hg
    · rwa [resumeLost_window]
  · rwa [resumeLost_window]

end Sys2Proof.Machine
end

section
/-! The canonical form of the four byte memories (R222, R223, R716, R755, R756): every step keeps it (O5). -/

namespace Sys2Proof.Machine

variable {f : FieldDie} {s t : State} {k : KeyChip} {c : Instr}

/-! ### The key's memory and page buffer -/

/-- The canonical form of the key's memory and of its page buffer. -/
structure KeyWf (k : KeyChip) : Prop where
  mem : Store.wf (fun _ => 0xFF) k.mem
  buffer : Store.wf (fun _ => 0xFF) k.buffer

theorem KeyWf.program (h : KeyWf k) (a : Nat) (bs : List Byte) : KeyWf (k.program a bs) := by
  induction bs generalizing a k with
  | nil => exact h
  | cons b bs ih =>
    have programmed : KeyWf { k with mem := Store.set (fun _ => 0xFF) k.mem a b } := ⟨Store.wf_set _ _ a b h.mem, h.buffer⟩
    exact ih programmed (a + 1)

theorem KeyWf.load (h : KeyWf k) (o : Nat) (bs : List Byte) : KeyWf (k.load o bs) := by
  induction bs generalizing o k with
  | nil => exact h
  | cons b bs ih =>
    have loaded : KeyWf { k with buffer := Store.set (fun _ => 0xFF) k.buffer o b } := ⟨h.mem, Store.wf_set _ _ o b h.buffer⟩
    exact ih loaded (o + 1)

theorem KeyWf.emptied (h : KeyWf k) : KeyWf { k with buffer := [] } := ⟨h.mem, Store.wf_nil _⟩

theorem KeyWf.record (h : KeyWf k) (txn code status : Nat) : KeyWf (k.record txn code status) := h.program _ _

theorem KeyWf.putPage (h : KeyWf k) (txn slot page : Nat) : KeyWf (k.putPage txn slot page) := (h.program _ _).record _ _ _

theorem KeyWf.putPointer (h : KeyWf k) (txn ptr : Nat) (data : List Byte) : KeyWf (k.putPointer txn ptr data) :=
  (h.program _ _).record _ _ _

theorem KeyWf.tornPage (h : KeyWf k) (slot page : Nat) (f : FieldDie) : KeyWf (tornPage slot page f k).2 := by
  unfold Machine.tornPage
  split
  split
  exact (h.program _ _).program _ _

theorem KeyWf.tornPointer (h : KeyWf k) (ptr : Nat) (f : FieldDie) : KeyWf (tornPointer ptr f k).2 :=
  (h.program _ _).program _ _

theorem KeyWf.keyCutIn (h : KeyWf k) (c : Nat) (args : List Nat) (data : List Byte) (f : FieldDie) :
    KeyWf (keyCutIn c args data f k).2 := by
  unfold Machine.keyCutIn
  extract_lets arg
  dsimp only
  split_ifs
  · exact h
  · exact h
  · exact h.putPage _ _ _
  · exact h.tornPage _ _ _
  · exact h.putPointer _ _ _
  · exact h.tornPointer _ _

theorem KeyWf.keyCut (h : KeyWf k) (f : FieldDie) : KeyWf (keyCut f k).2 := by
  unfold Machine.keyCut
  extract_lets cut src
  refine KeyWf.emptied (k := cut.2) ?_
  unfold cut
  split
  · split_ifs
    · exact h
    · exact h.keyCutIn _ _ _ _
  · exact h

theorem KeyWf.carrierOff (h : KeyWf k) (f : FieldDie) : KeyWf (carrierOff f k) := by
  unfold Machine.carrierOff
  split
  · exact h.emptied
  · exact h

/-! ### The serial flash -/

/-- The canonical form of the serial flash. -/
def FlashWf (m : List (Nat × Byte)) : Prop := Store.wf (fun _ => 0xFF) m

theorem FlashWf.store {m : List (Nat × Byte)} (h : FlashWf m) (a : Nat) (bs : List Byte) : FlashWf (flashStore a bs m) := by
  induction bs generalizing a m with
  | nil => exact h
  | cons b bs ih => exact ih (Store.wf_set (fun _ => 0xFF) m a b h) (a + 1)

theorem FlashWf.erase {m : List (Nat × Byte)} (h : FlashWf m) (a n : Nat) : FlashWf (flashErase a n m) :=
  Store.wf_filter (fun _ => 0xFF) _ m h

theorem FlashWf.applied {m : List (Nat × Byte)} (h : FlashWf m) (f : FieldDie) : FlashWf (flashApplied f m) := by
  unfold flashApplied
  extract_lets o
  split
  · exact h.erase _ _
  · split
    · exact h.store _ _
    · exact h

theorem FlashWf.cut {m : List (Nat × Byte)} (h : FlashWf m) (f : FieldDie) : FlashWf (flashCut f m).2 := by
  unfold flashCut
  split
  · exact h
  · exact h.store _ _

/-! ### The four memories together -/

theorem memoriesCanonical_iff : MemoriesCanonical s ↔ KeyWf s.key ∧ FlashWf s.flash ∧ WindowWf s.fld.window :=
  ⟨fun ⟨hm, hb, hf, hw⟩ => ⟨⟨hm, hb⟩, hf, hw⟩, fun ⟨hk, hf, hw⟩ => ⟨hk.mem, hk.buffer, hf, hw⟩⟩

/-- From `s` to `t` every memory that is in canonical form stays so. -/
structure KeepsMemories (s t : State) : Prop where
  key : KeyWf s.key → KeyWf t.key
  flash : FlashWf s.flash → FlashWf t.flash
  window : WindowWf s.fld.window → WindowWf t.fld.window

theorem KeepsMemories.memoriesCanonical (h : KeepsMemories s t) (hs : MemoriesCanonical s) : MemoriesCanonical t := by
  obtain ⟨hk, hf, hw⟩ := memoriesCanonical_iff.1 hs
  exact memoriesCanonical_iff.2 ⟨h.key hk, h.flash hf, h.window hw⟩

theorem KeepsMemories.refl (s : State) : KeepsMemories s s := ⟨id, id, id⟩

/-! ### The ways in which a command acts -/

theorem FieldOnly.keepsMemories (h : FieldOnly s t) (hw : WindowWf s.fld.window → WindowWf t.fld.window) :
    KeepsMemories s t where
  key := by rw [h.key]; exact id
  flash := by rw [h.flash]; exact id
  window := hw

theorem HostOnly.keepsMemories (h : HostOnly s t) : KeepsMemories s t where
  key := by rw [h.key]; exact id
  flash := by rw [h.flash]; exact id
  window := by rw [h.fld]; exact id

theorem State.onField_keepsMemories {k : FieldDie → FieldDie} (hk : WindowWf s.fld.window → WindowWf (k s.fld).window)
    (h : s.onField k = .next t) : KeepsMemories s t := by
  refine (State.fieldOnly_of_onField h).keepsMemories fun hw => ?_
  cases h
  rw [settle_window]
  exact hk hw

/-- What acts at the field die and leaves the window's memory as it is. -/
theorem State.onField_keepsMemories_of_eq {k : FieldDie → FieldDie} (hk : (k s.fld).window = s.fld.window)
    (h : s.onField k = .next t) : KeepsMemories s t :=
  State.onField_keepsMemories (fun hw => by rwa [hk]) h

/-- A register write that keeps the window's memory in canonical form. -/
theorem State.onWrite_keepsMemories {req : Nat} {k : FieldDie → FieldDie}
    (hk : ∀ f, WindowWf f.window → WindowWf (k f).window) (h : s.onWrite req k = .next t) : KeepsMemories s t :=
  State.onField_keepsMemories (fun hw => windowWf_ite (hk s.fld.napBreak hw) hw) h

/-- An event on a running die that keeps the window's memory in canonical form. -/
theorem State.onRun_keepsMemories {k : FieldDie → FieldDie} (hk : ∀ f, WindowWf f.window → WindowWf (k f).window)
    (h : s.onRun k = .next t) : KeepsMemories s t :=
  State.onField_keepsMemories (fun hw => windowWf_ite (hk s.fld hw) hw) h

theorem State.onHost_keepsMemories {k : HostDie → HostDie} (h : s.onHost k = .next t) : KeepsMemories s t :=
  (State.hostOnly_of_onHost h).keepsMemories

theorem State.fabricStops_keepsMemories {k : FieldDie → FieldDie} (hk : ∀ f, (k f).window = [])
    (h : s.fabricStops k = .next t) : KeepsMemories s t := by
  cases h
  refine ⟨fun hkey => hkey.keyCut _, fun hflash => hflash.cut _, fun _ => ?_⟩
  rw [hk]
  exact Store.wf_nil (fun _ => 0)

theorem State.fieldReset_keepsMemories {bit : Nat} (h : s.fieldReset bit = .next t) : KeepsMemories s t :=
  State.fabricStops_keepsMemories (k := fun f => resetField { f with resetBy := setBit f.resetBy bit }) (fun _ => rfl) h

theorem State.resetIf_keepsMemories {seen : Bool} {bit : Nat} (h : s.resetIf seen bit = .next t) : KeepsMemories s t := by
  cases seen with
  | true => exact State.fieldReset_keepsMemories h
  | false =>
    cases h
    exact .refl s

theorem State.onAccess_keepsMemories {k : FieldDie → FieldDie} (hk : ∀ f, WindowWf f.window → WindowWf (k f).window)
    (h : s.onAccess k = .next t) : KeepsMemories s t := by
  unfold State.onAccess at h
  extract_lets g at h
  split at h
  · have hreset := State.fieldReset_keepsMemories (s := { s with fld := g }) h
    exact ⟨hreset.key, hreset.flash, fun hw => hreset.window (hk _ hw)⟩
  · cases h
    refine ⟨id, id, fun hw => ?_⟩
    rw [settle_window]
    exact hk _ hw

theorem State.keyMayStop_keepsMemories {k : FieldDie → FieldDie} (hk : ∀ f, (k f).window = f.window)
    (h : s.keyMayStop k = .next t) : KeepsMemories s t := by
  unfold State.keyMayStop at h
  split at h
  · cases h
    refine ⟨fun hkey => hkey.keyCut _, id, fun hw => ?_⟩
    rwa [settle_window, hk, keyCut_window]
  · cases h
    refine ⟨id, id, fun hw => ?_⟩
    rwa [settle_window, hk]

theorem State.onLink_keepsMemories {l : LinkId} {kf kt : FieldDie → FieldDie} {kh : HostDie → HostDie}
    (hf : ∀ f, (kf f).window = f.window) (ht : ∀ f, (kt f).window = f.window) (h : s.onLink l kf kt kh = .next t) :
    KeepsMemories s t := by
  cases l with
  | field => exact State.onField_keepsMemories_of_eq (by simp [hf]) h
  | twin => exact State.onField_keepsMemories_of_eq (by simp [ht]) h
  | host => exact State.onHost_keepsMemories h

theorem State.onPtb_keepsMemories {host : Bool} {req fa ha data : Nat} (h : s.onPtb host req fa ha data = .next t) :
    KeepsMemories s t := by
  cases host with
  | false => exact State.onField_keepsMemories_of_eq (by simp) h
  | true => exact State.onHost_keepsMemories h

/-- The key executes a command of the reader: the field die takes note of the answer. -/
theorem State.keyDoes_keepsMemories {cmd : Nat × List Nat × List Byte} {ans : Nat × List Byte} (hk : KeyWf s.key → KeyWf k)
    (hf : f.window = s.fld.window) : KeepsMemories s (s.keyDoes cmd k ans f) := by
  refine ⟨hk, id, fun hw => ?_⟩
  unfold State.keyDoes
  refine windowWf_ite ?_ ?_
  · exact hf ▸ hw
  · exact hf ▸ hw

/-! ### Resets, the safelight supply and darkroom -/

theorem resetPulse_keepsMemories {live long short : Prop} [Decidable live] [Decidable long] [Decidable short] {bit : Nat}
    {seen : Bool} {f f' : FieldDie} (hf : f.window = s.fld.window) (hf' : f'.window = s.fld.window)
    (h : (if live then
        if long then s.fieldReset bit else if short then .next s else ({ s with fld := f } : State).resetIf seen bit
      else .next { s with fld := f' }) = .next t) : KeepsMemories s t := by
  have moved : ∀ g : FieldDie, g.window = s.fld.window → KeepsMemories s { s with fld := g } := fun g hg =>
    ⟨id, id, fun hw => hg ▸ hw⟩
  split at h
  · split at h
    · exact State.fieldReset_keepsMemories h
    · split at h
      · cases h
        exact .refl s
      · have hreset := State.resetIf_keepsMemories h
        exact ⟨hreset.key, hreset.flash, fun hw => hreset.window ((moved f hf).window hw)⟩
  · cases h
    exact moved f' hf'

theorem execPinReset_keepsMemories {lowNs : Nat} (h : execPinReset lowNs s = .next t) : KeepsMemories s t := by
  unfold execPinReset at h
  exact resetPulse_keepsMemories (FieldDie.free_window _) (lateTrigger_window _ _ _ _ _) h

theorem execPowerGoodReset_keepsMemories {lowNs : Nat} (h : execPowerGoodReset lowNs s = .next t) : KeepsMemories s t := by
  unfold execPowerGoodReset at h
  exact resetPulse_keepsMemories (FieldDie.free_window _) (lateTrigger_window _ _ _ _ _) h

theorem execSoftwareReset_keepsMemories {req : Nat} {data : Word} (h : execSoftwareReset req data s = .next t) :
    KeepsMemories s t := by
  unfold execSoftwareReset at h
  split at h
  · exact State.fieldReset_keepsMemories h
  · cases h
    exact .refl s

theorem execVddSlLoss_keepsMemories {mv : Nat} (h : execVddSlLoss mv s = .next t) : KeepsMemories s t := by
  have dark : ∀ f, (darkDie f).window = [] := fun _ => rfl
  unfold execVddSlLoss at h
  split at h
  · split at h
    · exact State.fabricStops_keepsMemories dark h
    · split at h
      · cases h
        exact .refl s
      · split at h
        · have hstop := State.fabricStops_keepsMemories (s := { s with fld := s.fld.free.2 }) dark h
          exact ⟨hstop.key, hstop.flash, hstop.window⟩
        · cases h
          exact ⟨id, id, id⟩
  · cases h
    exact .refl s

theorem execDarkPointOfNoReturn_keepsMemories (h : execDarkPointOfNoReturn s = .next t) : KeepsMemories s t := by
  unfold execDarkPointOfNoReturn at h
  split at h
  · exact State.fabricStops_keepsMemories (fun _ => rfl) h
  · cases h
    exact .refl s

theorem execColdReset_keepsMemories (h : execColdReset s = .next t) : KeepsMemories s t := by
  unfold execColdReset at h
  split at h
  · cases h
    exact .refl s
  · cases h
    exact ⟨id, id, fun _ => Store.wf_nil (fun _ => 0)⟩

/-! ### Operations of the serial flash -/

theorem execFlashOperationDone_keepsMemories (h : execFlashOperationDone s = .next t) : KeepsMemories s t := by
  unfold execFlashOperationDone at h
  split at h
  · cases h
    refine ⟨id, fun hflash => hflash.applied _, fun hw => ?_⟩
    rwa [settle_window, flashNext_window]
  · exact State.onField_keepsMemories_of_eq rfl h

theorem execFlashOperationTimeout_keepsMemories (h : execFlashOperationTimeout s = .next t) : KeepsMemories s t := by
  unfold execFlashOperationTimeout at h
  split at h
  · cases h
    refine ⟨id, fun hflash => hflash.store _ _, fun hw => ?_⟩
    rwa [settle_window, resumeFailed_window, freeBytes_window]
  · exact State.onField_keepsMemories_of_eq rfl h

/-! ### Commands of the key and its reader -/

theorem execInventory_keepsMemories {others : Nat} (h : execInventory others s = .next t) : KeepsMemories s t := by
  unfold execInventory at h
  split at h
  · split at h
    · cases h
      exact ⟨id, id, id⟩
    · cases h
      exact State.keyDoes_keepsMemories id rfl
  · cases h
    exact .refl s

theorem execLoadBuffer_keepsMemories {off : Nat} {data : List Byte} (h : execLoadBuffer off data s = .next t) :
    KeepsMemories s t := by
  unfold execLoadBuffer at h
  split at h
  · cases h
    exact State.keyDoes_keepsMemories (fun hk => hk.load off data) rfl
  · cases h
    exact .refl s

theorem execVerifySlot_keepsMemories {slot size : Nat} (h : execVerifySlot slot size s = .next t) : KeepsMemories s t := by
  unfold execVerifySlot at h
  split at h
  · cases h
    exact State.keyDoes_keepsMemories id rfl
  · cases h
    exact .refl s

theorem execProgramPage_keepsMemories {txn slot page crc : Nat} (h : execProgramPage txn slot page crc s = .next t) :
    KeepsMemories s t := by
  unfold execProgramPage at h
  extract_lets k cmd at h
  split at h
  · cases h
    exact .refl s
  · split at h
    · cases h
      exact State.keyDoes_keepsMemories id rfl
    · split at h
      · cases h
        exact State.keyDoes_keepsMemories (fun hk => hk.putPage txn slot page) rfl
      · cases h
        exact State.keyDoes_keepsMemories id rfl

theorem execWritePointer_keepsMemories {txn ptr : Nat} {data : List Byte} (h : execWritePointer txn ptr data s = .next t) :
    KeepsMemories s t := by
  unfold execWritePointer at h
  extract_lets k cmd at h
  split at h
  · cases h
    exact .refl s
  · split at h
    · cases h
      exact State.keyDoes_keepsMemories id rfl
    · cases h
      exact State.keyDoes_keepsMemories (fun hk => hk.putPointer txn ptr data) rfl

theorem execKeyReply_keepsMemories (h : execKeyReply s = .next t) : KeepsMemories s t := by
  unfold execKeyReply at h
  split at h
  · split at h
    · cases h
      refine ⟨fun hk => hk.carrierOff _, id, fun hw => ?_⟩
      rwa [settle_window, keyReplied_window]
    · cases h
      exact .refl s
  · cases h
    exact .refl s

theorem execKeyReplyTimeout_keepsMemories (h : execKeyReplyTimeout s = .next t) : KeepsMemories s t := by
  unfold execKeyReplyTimeout at h
  split at h
  · cases h
    refine ⟨id, id, fun hw => ?_⟩
    rwa [startSilent_window]
  · split at h
    · exact State.keyMayStop_keepsMemories keySilent_window h
    · cases h
      exact .refl s

theorem execWatchdog_keepsMemories {inst : Nat} (h : execWatchdog inst s = .next t) : KeepsMemories s t := by
  unfold execWatchdog at h
  split at h
  · exact State.keyMayStop_keepsMemories (watchdog_window inst) h
  · cases h
    exact .refl s

theorem execScrubPass_keepsMemories (h : execScrubPass s = .next t) : KeepsMemories s t :=
  State.keyMayStop_keepsMemories (fun f => by simp) h

/-! ### Commands that reach a memory through another operation -/

theorem execRegisterWrite_keepsMemories {req addr be : Nat} {data : Word}
    (h : execRegisterWrite req addr be data s = .next t) : KeepsMemories s t := by
  unfold execRegisterWrite at h
  split at h
  · refine State.onAccess_keepsMemories (fun f hw => ?_) h
    have written := fieldWrite_windowWf req addr be data.toNat hw
    exact windowWf_ite (writeEnds_windowWf written) written
  · split_ifs at h
    all_goals exact State.onHost_keepsMemories h

theorem execTsqPop_keepsMemories {req addr : Nat} (h : execTsqPop req addr s = .next t) : KeepsMemories s t := by
  unfold execTsqPop at h
  split at h
  · exact State.onField_keepsMemories_of_eq (by simp) h
  · exact State.onHost_keepsMemories h

theorem execInterruptModeration_keepsMemories {qp cause : Nat} (h : execInterruptModeration qp cause s = .next t) :
    KeepsMemories s t := by
  unfold execInterruptModeration at h
  split at h
  · exact State.onHost_keepsMemories h
  · exact State.onField_keepsMemories (fun hw => windowWf_ite (windowWf_ite (winInterrupt_windowWf _ _ hw) hw) hw) h

theorem execRetrain_keepsMemories {l : LinkId} {req : Nat} {data : Word} (h : execRetrain l req data s = .next t) :
    KeepsMemories s t := by
  cases l with
  | field | twin => exact State.onField_keepsMemories_of_eq (by simp) h
  | host => exact State.onHost_keepsMemories h

theorem execPtbLifetimeExpiry_keepsMemories {host : Bool} (h : execPtbLifetimeExpiry host s = .next t) :
    KeepsMemories s t := by
  cases host with
  | false => exact State.onField_keepsMemories_of_eq (by simp) h
  | true => exact State.onHost_keepsMemories h

theorem execSqClear_keepsMemories {req addr : Nat} {data : Word} (h : execSqClear req addr data s = .next t) :
    KeepsMemories s t :=
  State.onWrite_keepsMemories (fun _ hw => windowWf_ite (blockWrite_windowWf req addr data.toNat hw) hw) h

theorem execSpiRoleWrite_keepsMemories {req : Nat} {data : Word} (h : execSpiRoleWrite req data s = .next t) :
    KeepsMemories s t := by
  refine State.onWrite_keepsMemories (fun f hw => ?_) h
  have written := writeSpiCtrl_windowWf req data.toNat hw
  exact windowWf_ite (writeEnds_windowWf written) written

theorem execWakeCause_keepsMemories {bit : Nat} (h : execWakeCause bit s = .next t) : KeepsMemories s t := by
  unfold execWakeCause at h
  exact State.onField_keepsMemories_of_eq (by simp) h

theorem execOverVoltageTurnOff_keepsMemories {mv : Nat} (h : execOverVoltageTurnOff mv s = .next t) :
    KeepsMemories s t := by
  unfold execOverVoltageTurnOff at h
  exact State.onField_keepsMemories_of_eq (by simp) h

theorem execTransmitEnd_keepsMemories {port phase : Nat} (h : execTransmitEnd port phase s = .next t) :
    KeepsMemories s t := by
  refine State.onField_keepsMemories_of_eq ?_ h
  dsimp only
  split
  · split
    · split
      · simp
      · rfl
    · rfl
  · rfl

/-- Every command keeps the memories; the last line is every other command of the field die, which acts through `onField`
and leaves the window's memory as it is. -/
theorem exec_keepsMemories (h : exec c s = .next t) : KeepsMemories s t := by
  cases c with
  | pinReset => exact execPinReset_keepsMemories h
  | powerGoodReset => exact execPowerGoodReset_keepsMemories h
  | softwareReset => exact execSoftwareReset_keepsMemories h
  | vddSlLoss => exact execVddSlLoss_keepsMemories h
  | darkPointOfNoReturn => exact execDarkPointOfNoReturn_keepsMemories h
  | coldReset => exact execColdReset_keepsMemories h
  | flashOperationDone => exact execFlashOperationDone_keepsMemories h
  | flashOperationTimeout => exact execFlashOperationTimeout_keepsMemories h
  | inventory => exact execInventory_keepsMemories h
  | loadBuffer => exact execLoadBuffer_keepsMemories h
  | verifySlot => exact execVerifySlot_keepsMemories h
  | keyReply => exact execKeyReply_keepsMemories h
  | programPage => exact execProgramPage_keepsMemories h
  | writePointer => exact execWritePointer_keepsMemories h
  | keyReplyTimeout => exact execKeyReplyTimeout_keepsMemories h
  | watchdog => exact execWatchdog_keepsMemories h
  | scrubPass => exact execScrubPass_keepsMemories h
  | regw => exact State.onAccess_keepsMemories (fun f hw => windowWf_ite (fieldRegw_windowWf hw) hw) h
  | write => exact State.onAccess_keepsMemories (fun f hw => spiWriteCmd_windowWf _ _ _ hw) h
  | registerWrite => exact execRegisterWrite_keepsMemories h
  | tsqPop => exact execTsqPop_keepsMemories h
  | interruptModeration => exact execInterruptModeration_keepsMemories h
  | retrain => exact execRetrain_keepsMemories h
  | ptbLifetimeExpiry => exact execPtbLifetimeExpiry_keepsMemories h
  | configSourceResolved =>
    exact State.onField_keepsMemories (fun hw => windowWf_ite (configResolved_windowWf _ _ hw) hw) h
  | resumeImageLoaded =>
    refine State.onField_keepsMemories (fun hw => windowWf_ite ?_ hw) h
    rw [wakeDone_window]
    exact resumeLoad_windowWf _ hw
  | transmitStart =>
    exact State.onRun_keepsMemories (fun _ hw => windowWf_ite (windowWf_ite (transmitStart_windowWf _ hw) hw) hw) h
  | managerTimeout => exact State.onRun_keepsMemories (fun _ => managerTimeout_windowWf) h
  | mgrReset => exact State.onField_keepsMemories (fun hw => spiMgrReset_windowWf _ hw) h
  | windowDoorbell =>
    exact State.onRun_keepsMemories (fun _ hw => windowWf_ite (winWrite_windowWf _ _ hw) hw) h
  | sqClear => exact execSqClear_keepsMemories h
  | spiRoleWrite => exact execSpiRoleWrite_keepsMemories h
  | ptbArm | ptbLane | ptbAck | ptbEcc => exact State.onPtb_keepsMemories h
  | hostReset => exact (execHostReset_hostOnly h).keepsMemories
  | hostResetRelease => exact (execHostResetRelease_hostOnly h).keepsMemories
  | hostPowerStateChange | hotReset | flr | txTailDoorbell | rxTailDoorbell | cqHeadDoorbell | ringEnableWrite
  | functionConfigWrite | txFetchDone | txFrameCross | rxDelivery | steeringEntryWrite | vectorUnmask
  | chkPolyWrite | chkRunWrite | chkHoldWrite | apertureRead | apertureReadTimeout | apertureWrite | holdPurge | regc
  | evt | tsr | timeMessageReceive | ptmDialogue | corrSnap | hostPinEdge | ptbDma =>
    exact State.onHost_keepsMemories h
  | dmaError => exact (execDmaError_hostOnly h).keepsMemories
  | hostFaultLatch => exact (execHostFaultLatch_hostOnly h).keepsMemories
  | flowUnitReceive | ackSend | replayTimeout | laneFailure | spareReceive | spareRepeat | spareDataSeen
  | trainingLanePhase | trainingRestart | trainReceive | trainEchoReceive | crossingTrainingComplete | data =>
    exact State.onLink_keepsMemories (by simp) (by simp) h
  | wakeCause => exact execWakeCause_keepsMemories h
  | overVoltageTurnOff => exact execOverVoltageTurnOff_keepsMemories h
  | transmitEnd => exact execTransmitEnd_keepsMemories h
  | _ => exact State.onField_keepsMemories_of_eq (by simp -implicitDefEqProofs) h

/-- Settles O5: every command keeps the canonical form of each memory, by the operation through which it acts. -/
theorem memoriesStayCanonical : Obligations.MemoriesStayCanonical := by
  unfold Obligations.MemoriesStayCanonical
  intro s t hs h
  unfold step at h
  split at h
  · cases h
    exact hs
  next c rest _ => exact (exec_keepsMemories (s := { s with pending := rest }) h).memoriesCanonical hs

end Sys2Proof.Machine
end

section
/-! The key's own commands (R193 to R196, R222 to R225, R232, R233): what its memory holds after each, and the answers (O29). -/

namespace Sys2Proof.Machine

variable {s : State} {k : KeyChip}

/-! ### Bytes stored one after the other -/

theorem flashStore_get (a : Nat) (bs : List Byte) (m : List (Nat × Byte)) (x : Nat) :
    Store.get (fun _ => 0xFF) (flashStore a bs m) x =
      if a ≤ x ∧ x < a + bs.length then bs.getD (x - a) 0 else Store.get (fun _ => 0xFF) m x := by
  induction bs generalizing a m with
  | nil =>
    have none_inside : ¬ (a ≤ x ∧ x < a + ([] : List Byte).length) := by simp
    rw [if_neg none_inside]
    rfl
  | cons b bs ih =>
    rw [flashStore, ih, Store.get_set, List.length_cons]
    rcases Nat.lt_trichotomy x a with below | first | above
    · rw [if_neg (by omega), if_neg (by omega), if_neg (by omega)]
    · rw [if_neg (by omega), if_pos first, if_pos (by omega), first, Nat.sub_self]
      rfl
    · have rest : x - a = (x - (a + 1)) + 1 := by omega
      rw [if_neg (by omega : x ≠ a), rest, List.getD_cons_succ]
      exact if_congr (by omega) rfl rfl

/-! ### The key's memory after a command has programmed it -/

theorem KeyChip.program_mem (a : Nat) (bs : List Byte) (k : KeyChip) : (k.program a bs).mem = flashStore a bs k.mem := by
  induction bs generalizing a k with
  | nil => rfl
  | cons b bs ih => exact ih _ _

@[simp] theorem KeyChip.program_buffer (a : Nat) (bs : List Byte) (k : KeyChip) : (k.program a bs).buffer = k.buffer := by
  induction bs generalizing a k with
  | nil => rfl
  | cons b bs ih => exact ih _ _

theorem KeyChip.load_buffer (o : Nat) (bs : List Byte) (k : KeyChip) : (k.load o bs).buffer = flashStore o bs k.buffer := by
  induction bs generalizing o k with
  | nil => rfl
  | cons b bs ih => exact ih _ _

theorem KeyChip.byte_program (a : Nat) (bs : List Byte) (x : Nat) :
    (k.program a bs).byte x = if a ≤ x ∧ x < a + bs.length then bs.getD (x - a) 0 else k.byte x := by
  unfold KeyChip.byte
  rw [KeyChip.program_mem, flashStore_get]

theorem KeyChip.byte_program_outside {a x : Nat} {bs : List Byte} (h : x < a ∨ a + bs.length ≤ x) :
    (k.program a bs).byte x = k.byte x := by
  rw [KeyChip.byte_program, if_neg (by omega)]

@[simp] theorem KeyChip.page_length (k : KeyChip) : k.page.length = 256 := by simp [KeyChip.page]

/-! ### The transaction record (Table 5.4) -/

/-- The transaction record without its CRC-32C. -/
def recordBody (txn code status : Nat) : List Byte :=
  bytesLE txn ++ [BitVec.ofNat 8 code, BitVec.ofNat 8 status] ++ List.replicate 22 0xFF

theorem KeyChip.record_eq (txn code status : Nat) :
    k.record txn code status = k.program 0x140 (recordBody txn code status ++ bytesLE (crc32c (recordBody txn code status))) :=
  rfl

theorem recordBody_length (txn code status : Nat) : (recordBody txn code status).length = 28 := by
  simp [recordBody, bytesLE]

@[simp] theorem KeyChip.record_buffer (txn code status : Nat) : (k.record txn code status).buffer = k.buffer :=
  KeyChip.program_buffer _ _ k

theorem KeyChip.byte_record_outside {txn code status x : Nat} (h : x < 0x140 ∨ 0x160 ≤ x) :
    (k.record txn code status).byte x = k.byte x := by
  rw [KeyChip.record_eq]
  refine KeyChip.byte_program_outside ?_
  have length : (recordBody txn code status ++ bytesLE (crc32c (recordBody txn code status))).length = 32 := by
    rw [List.length_append, recordBody_length]
    rfl
  omega

theorem KeyChip.byte_record {txn code status i : Nat} (h : i < 28) :
    (k.record txn code status).byte (0x140 + i) = (recordBody txn code status).getD i 0 := by
  have inside : i < (recordBody txn code status).length := by rwa [recordBody_length]
  rw [KeyChip.record_eq, KeyChip.byte_program, if_pos ⟨by omega, by rw [List.length_append]; omega⟩, Nat.add_sub_cancel_left,
    List.getD_append _ _ _ _ inside]

theorem leBytes_bytesLE (w : Nat) : leBytes (bytesLE w) = w % 2 ^ 32 := by
  simp only [bytesLE, leBytes, BitVec.toNat_ofNat, Nat.shiftRight_eq_div_pow]
  omega

theorem KeyChip.bytes_record (txn code status : Nat) : (k.record txn code status).bytes 0x140 4 = bytesLE txn := by
  have byte_at (i : Nat) (h : i < 28) := KeyChip.byte_record (k := k) (txn := txn) (code := code) (status := status) h
  simp only [KeyChip.bytes, List.range_succ, List.range_zero, List.nil_append, List.cons_append, List.map_cons, List.map_nil,
    byte_at 0 (by decide), byte_at 1 (by decide), byte_at 2 (by decide), byte_at 3 (by decide)]
  rfl

/-- The record that a command leaves makes a second one of the same number a repetition (R233). -/
theorem KeyChip.repeated_record {txn code status : Nat} (ht : txn < 2 ^ 32) (hc : code < 256) :
    (k.record txn code status).repeated txn code = true := by
  have recorded : ((k.record txn code status).byte 0x144).toNat = code :=
    (congrArg BitVec.toNat (KeyChip.byte_record (i := 4) (by decide))).trans (Nat.mod_eq_of_lt hc)
  unfold KeyChip.repeated
  rw [KeyChip.bytes_record, leBytes_bytesLE, Nat.mod_eq_of_lt ht, recorded]
  simp

theorem KeyChip.stored_record {txn code status : Nat} (hs : status < 256) : (k.record txn code status).stored = (status, []) := by
  have recorded : ((k.record txn code status).byte 0x145).toNat = status :=
    (congrArg BitVec.toNat (KeyChip.byte_record (i := 5) (by decide))).trans (Nat.mod_eq_of_lt hs)
  unfold KeyChip.stored
  rw [recorded]

/-! ### What lies in a slot and in a pointer copy -/

/-- A slot lies above the pointer copies and the record (Table 5.2). -/
theorem record_below_slotBase (slot : Nat) : 0x160 ≤ slotBase slot := by
  unfold slotBase
  split <;> decide

theorem KeyChip.putPage_buffer (txn slot page : Nat) : (k.putPage txn slot page).buffer = k.buffer := by
  simp [KeyChip.putPage]

theorem KeyChip.byte_putPage_inside {txn slot page a : Nat} (h : slotBase slot + 256 * page ≤ a)
    (h' : a < slotBase slot + 256 * page + 256) :
    (k.putPage txn slot page).byte a = k.page.getD (a - (slotBase slot + 256 * page)) 0 := by
  have above := record_below_slotBase slot
  rw [KeyChip.putPage, KeyChip.byte_record_outside (by omega), KeyChip.byte_program, if_pos ⟨h, by rwa [KeyChip.page_length]⟩]

theorem KeyChip.byte_putPage_outside {txn slot page a : Nat}
    (h : a < slotBase slot + 256 * page ∨ slotBase slot + 256 * page + 256 ≤ a) (hr : a < 0x140 ∨ 0x160 ≤ a) :
    (k.putPage txn slot page).byte a = k.byte a := by
  rw [KeyChip.putPage, KeyChip.byte_record_outside hr, KeyChip.byte_program_outside (by rwa [KeyChip.page_length])]

theorem KeyChip.putPointer_buffer (txn ptr : Nat) (data : List Byte) : (k.putPointer txn ptr data).buffer = k.buffer := by
  simp [KeyChip.putPointer]

theorem KeyChip.byte_putPointer_inside {txn ptr a : Nat} {data : List Byte} (hp : ptr < 2) (hd : data.length = 32)
    (h : ptrBase ptr ≤ a) (h' : a < ptrBase ptr + 32) :
    (k.putPointer txn ptr data).byte a = data.getD (a - ptrBase ptr) 0 := by
  have below : a < 0x140 := by
    unfold ptrBase at h'
    omega
  rw [KeyChip.putPointer, KeyChip.byte_record_outside (.inl below), KeyChip.byte_program, if_pos ⟨h, by rwa [hd]⟩]

theorem KeyChip.byte_putPointer_outside {txn ptr a : Nat} {data : List Byte} (hd : data.length ≤ 32)
    (h : a < ptrBase ptr ∨ ptrBase ptr + 32 ≤ a) (hr : a < 0x140 ∨ 0x160 ≤ a) :
    (k.putPointer txn ptr data).byte a = k.byte a := by
  rw [KeyChip.putPointer, KeyChip.byte_record_outside hr, KeyChip.byte_program_outside (by omega)]

/-! ### What a command of the key leaves at the other agents -/

theorem State.keyDoes_reg (s : State) (cmd : Nat × List Nat × List Byte) (k : KeyChip) (ans : Nat × List Byte) (f : FieldDie) :
    (s.keyDoes cmd k ans f).fld.reg = f.reg := by
  unfold State.keyDoes
  split <;> rfl

theorem State.keyDoes_answered {cmd : Nat × List Nat × List Byte} (h : s.fld.key.cmd = some cmd) (k : KeyChip)
    (ans : Nat × List Byte) :
    s.keyDoes cmd k ans s.fld = { s with key := k, fld := { s.fld with key := { s.fld.key with reply := some ans } } } := by
  unfold State.keyDoes
  rw [if_pos h]

/-! ### The inventory -/

theorem carrierOn_of_running (hstrap : hasBit s.fld.straps 1 = false) (hr : s.fld.phase = .running) (hop : s.fld.key.op ≠ 0) :
    carrierOn s.fld = true := by
  simp [carrierOn, FieldDie.isRunning, hstrap, hr, hop]

theorem carrierOn_of_resolving (hstrap : hasBit s.fld.straps 1 = false) (hr : s.fld.phase = .resolving)
    (hw : s.fld.pwr.waking = false) : carrierOn s.fld = true := by
  simp [carrierOn, hstrap, hr, hw]

theorem execInventory_of_running {others : Nat} (hkey : s.key.present = true) (hon : carrierOn s.fld = true)
    (hr : s.fld.phase = .running) :
    execInventory others s =
      .next (s.keyDoes (0x01, [], []) s.key
        (if others = 0 then 0 else 1, bytesLE s.key.uid ++ bytesLE (s.key.uid / 2 ^ 32)) s.fld) := by
  unfold execInventory
  rw [if_pos ⟨hkey, hon⟩, if_neg (by simp [hr])]

theorem execInventory_of_resolving {others : Nat} (hkey : s.key.present = true) (hon : carrierOn s.fld = true)
    (hr : s.fld.phase = .resolving) :
    execInventory others s = .next { s with fld := startAnswer others s.key.uid s.fld } := by
  unfold execInventory
  rw [if_pos ⟨hkey, hon⟩, if_pos hr]

/-! ### A key that the commands do not reach -/

theorem execLoadBuffer_of_notTaken {off : Nat} {data : List Byte} (h : keyTakes s.fld s.key = false) :
    execLoadBuffer off data s = .next s := if_neg (by simp [h])

theorem execProgramPage_of_notTaken {txn slot page crc : Nat} (h : keyTakes s.fld s.key = false) :
    execProgramPage txn slot page crc s = .next s := if_pos h

theorem execVerifySlot_of_notTaken {slot size : Nat} (h : keyTakes s.fld s.key = false) :
    execVerifySlot slot size s = .next s := if_neg (by simp [h])

theorem execWritePointer_of_notTaken {txn ptr : Nat} {data : List Byte} (h : keyTakes s.fld s.key = false) :
    execWritePointer txn ptr data s = .next s := if_pos (.inl h)

/-! ### A key that the commands reach -/

theorem execLoadBuffer_of_taken {off : Nat} {data : List Byte} (h : keyTakes s.fld s.key = true) (hoff : off + 32 ≤ 256)
    (hd : data.length = 32) :
    execLoadBuffer off data s = .next (s.keyDoes (0xC2, [off], data) (s.key.load off data) (0, []) s.fld) :=
  if_pos ⟨h, hoff, hd⟩

theorem execVerifySlot_of_taken {slot size : Nat} (h : keyTakes s.fld s.key = true) (hslot : slot < 2) (hsize : size ≤ imageMax) :
    execVerifySlot slot size s = .next (s.keyDoes (0xC6, [slot, size], []) s.key
      (0, bytesLE (crc32c (s.key.bytes (slotBase slot) size))) s.fld) :=
  if_pos ⟨h, hslot, hsize⟩

theorem execProgramPage_of_repeated {txn slot page crc : Nat} (h : keyTakes s.fld s.key = true)
    (hrep : s.key.repeated txn 0xC4 = true) :
    execProgramPage txn slot page crc s = .next (s.keyDoes (0xC4, [txn, slot, page, crc], []) s.key s.key.stored s.fld) := by
  unfold execProgramPage
  dsimp only
  rw [if_neg (by simp [h]), if_pos hrep]

theorem execProgramPage_of_pageOk {txn slot page crc : Nat} (h : keyTakes s.fld s.key = true)
    (hrep : s.key.repeated txn 0xC4 = false) (hok : s.key.pageOk slot page crc = true) :
    execProgramPage txn slot page crc s =
      .next (s.keyDoes (0xC4, [txn, slot, page, crc], []) (s.key.putPage txn slot page) (0, []) s.fld) := by
  unfold execProgramPage
  dsimp only
  rw [if_neg (by simp [h]), if_neg (by simp [hrep]), if_pos hok]

theorem execProgramPage_of_rejected {txn slot page crc : Nat} (h : keyTakes s.fld s.key = true)
    (hrep : s.key.repeated txn 0xC4 = false) (hok : s.key.pageOk slot page crc = false) :
    execProgramPage txn slot page crc s =
      .next (s.keyDoes (0xC4, [txn, slot, page, crc], []) s.key (s.fld.free.1 % 255 + 1, []) s.fld.free.2) := by
  unfold execProgramPage
  dsimp only
  rw [if_neg (by simp [h]), if_neg (by simp [hrep]), if_neg (by simp [hok])]

theorem execWritePointer_of_taken {txn ptr : Nat} {data : List Byte} (h : keyTakes s.fld s.key = true) (hptr : ptr < 2)
    (hd : data.length = 32) (hrep : s.key.repeated txn 0xC8 = false) :
    execWritePointer txn ptr data s =
      .next (s.keyDoes (0xC8, [txn, ptr], data) (s.key.putPointer txn ptr data) (0, []) s.fld) := by
  have taken : ¬ (keyTakes s.fld s.key = false ∨ 2 ≤ ptr ∨ data.length ≠ 32) := by
    simp [h, hd]
    omega
  unfold execWritePointer
  dsimp only
  rw [if_neg taken, if_neg (by simp [hrep])]

/-! ### The statement -/

/-- Settles O29: each command of the key is one `keyDoes`, and what is programmed is read back outside and inside the record. -/
theorem keyChipCommands : Obligations.KeyChipCommands := by
  unfold Obligations.KeyChipCommands
  refine ⟨fun s others hkey hstrap => ⟨fun hr hop hcmd => ?_, fun hr hw => ?_⟩,
    fun s txn slot page crc off size ptr data h => ?_, fun s off data h hoff hd => ?_,
    fun s txn slot page h ht hrep hslot hpage => ⟨?_, fun crc hcrc => ?_⟩, fun s txn slot page crc h hrep => ?_,
    fun s slot size h hslot hsize hcmd => ?_, fun s txn ptr data h hptr hd ht hrep => ?_⟩
  · exact (execInventory_of_running hkey (carrierOn_of_running hstrap hr hop) hr).trans
      (congrArg _ (State.keyDoes_answered hcmd _ _))
  · exact execInventory_of_resolving hkey (carrierOn_of_resolving hstrap hr hw) hr
  · exact ⟨execLoadBuffer_of_notTaken h, execProgramPage_of_notTaken h, execVerifySlot_of_notTaken h,
      execWritePointer_of_notTaken h⟩
  · refine ⟨_, execLoadBuffer_of_taken h hoff hd, KeyChip.load_mem _ _ _, rfl, rfl, State.keyDoes_reg _ _ _ _ _, fun a => ?_⟩
    have loaded := flashStore_get off data s.key.buffer a
    rw [hd, ← KeyChip.load_buffer] at loaded
    exact loaded
  · have hok : s.key.pageOk slot page (crc32c s.key.page) = true := by simp [KeyChip.pageOk, hslot, hpage]
    exact ⟨_, execProgramPage_of_pageOk h hrep hok, KeyChip.putPage_buffer _ _ _, rfl, rfl, State.keyDoes_reg _ _ _ _ _,
      KeyChip.repeated_record ht (by decide), KeyChip.stored_record (by decide),
      fun a => ⟨KeyChip.byte_putPage_inside, KeyChip.byte_putPage_outside⟩⟩
  · have hok : s.key.pageOk slot page crc = false := by simp [KeyChip.pageOk, Ne.symm hcrc]
    exact ⟨_, execProgramPage_of_rejected h hrep hok, rfl, rfl, rfl, State.keyDoes_reg _ _ _ _ _⟩
  · exact ⟨_, execProgramPage_of_repeated h hrep, rfl, rfl, rfl, State.keyDoes_reg _ _ _ _ _⟩
  · exact ⟨_, execVerifySlot_of_taken h hslot hsize, State.keyDoes_answered hcmd _ _⟩
  · exact ⟨_, execWritePointer_of_taken h hptr hd hrep, KeyChip.putPointer_buffer _ _ _, rfl, rfl, State.keyDoes_reg _ _ _ _ _,
      KeyChip.repeated_record ht (by decide),
      fun a => ⟨KeyChip.byte_putPointer_inside hptr hd, KeyChip.byte_putPointer_outside hd.le⟩⟩

end Sys2Proof.Machine
end

section
/-! The key reader on the field die: what sending a command, a step, a result and a presence poll move. -/

namespace Sys2Proof.Machine

variable {but : List Nat} {s : State} {f g h : FieldDie}

/-! ### Registers that stand -/

theorem RegsSame.refl (f : FieldDie) : RegsSame but f f := fun _ _ _ => rfl

theorem RegsSame.trans (a : RegsSame but f g) (b : RegsSame but g h) : RegsSame but f h :=
  fun x hx hc => (b x hx hc).trans (a x hx hc)

theorem RegsSame.ofReg (e : g.reg = f.reg) : RegsSame but f g := fun _ _ _ => FieldDie.rd_eq e _

theorem FieldDie.wrN_regsSame {a : Nat} (ha : a ∈ but) (f : FieldDie) (v : Nat) : RegsSame but f (f.wrN a v) := by
  intro x hx _
  rw [FieldDie.rd_wrN, if_neg fun (e : x = a) => hx (e ▸ ha)]

theorem FieldDie.put_regsSame {r : Fld} (hr : r.addr ∈ but) (f : FieldDie) (v : Nat) : RegsSame but f (f.put r v) :=
  FieldDie.wrN_regsSame hr f _

theorem FieldDie.raise_regsSame {a : Nat} (ha : a ∈ but) (f : FieldDie) (bit : Nat) : RegsSame but f (f.raise a bit) := by
  intro x hx hc
  have ne_evt : x ≠ F_XNG_EVT := fun e => hc (by simp [coverRegs, e])
  exact f.raise_rd a bit x (fun e => hx (e ▸ ha)) ne_evt

theorem settle_regsSame (f : FieldDie) : RegsSame but f (settle f) := fun _ _ hc => settle_rd_of_notMem f hc

/-! ### What the reader moves -/

/-- From `f` to `g` the reader of the key has acted: its own record, the listed registers, the time of quiet before NAP
and what waits to be sent have at most moved. -/
structure ReaderMoves (but : List Nat) (f g : FieldDie) : Prop where
  rest : g.rest = { f.rest with key := g.key }
  send : SendSame f g
  regs : RegsSame but f g

theorem ReaderMoves.trans (a : ReaderMoves but f g) (b : ReaderMoves but g h) : ReaderMoves but f h where
  rest := by rw [b.rest, a.rest]
  send := a.send.trans b.send
  regs := a.regs.trans b.regs

theorem FieldDie.put_readerMoves {r : Fld} (hr : r.addr ∈ but) (f : FieldDie) (v : Nat) : ReaderMoves but f (f.put r v) :=
  ⟨rfl, .ofEq rfl rfl rfl, f.put_regsSame hr v⟩

theorem FieldDie.wrN_readerMoves {a : Nat} (ha : a ∈ but) (f : FieldDie) (v : Nat) : ReaderMoves but f (f.wrN a v) :=
  ⟨rfl, .ofEq rfl rfl rfl, f.wrN_regsSame ha v⟩

theorem FieldDie.raise_readerMoves {a : Nat} (ha : a ∈ but) (f : FieldDie) (bit : Nat) : ReaderMoves but f (f.raise a bit) where
  rest := by
    unfold FieldDie.rest
    rw [FieldDie.raise_core, FieldDie.raise_pwr, FieldDie.raise_key]
    rfl
  send := f.raise_sendSame a bit
  regs := f.raise_regsSame ha bit

theorem FieldDie.emit_readerMoves (f : FieldDie) (o : Output) : ReaderMoves but f (f.emit o) :=
  ⟨rfl, f.emit_sendSame o, .ofReg rfl⟩

theorem FieldDie.napBreak_readerMoves (f : FieldDie) : ReaderMoves but f f.napBreak :=
  ⟨rfl, .ofEq rfl rfl rfl, .ofReg rfl⟩

theorem FieldDie.setKey_readerMoves (f : FieldDie) (k : KeyX) : ReaderMoves but f { f with key := k } :=
  ⟨rfl, .ofEq rfl rfl rfl, .ofReg rfl⟩

/-- What the reader has moved, at the end of its command. -/
theorem ReaderMoves.frame {k : KeyX} (m : ReaderMoves but s.fld g) (hk : g.key = k) :
    FieldFrame but { s.fld with key := k } s { s with fld := settle g } where
  only := ⟨rfl, rfl, rfl, rfl⟩
  rest := by
    have settled : (settle g).rest = g.rest := by simp only [FieldDie.rest, settle_core, settle_pwr]
    rw [settled, m.rest, hk]
    rfl
  cnts a h0 h14 ht := (settle_cntAt g h0 h14 ht).trans (m.send.cnt a h0 h14 ht)
  queued := (settle_queued g).trans (congrArg BufX.queued m.send.buf)
  waiting := (settle_waiting g).trans (congrArg BufX.waiting m.send.buf)
  regs := m.regs.trans (settle_regsSame g)

/-! ### Sending a command (R194, R230) -/

/-- What a command carries besides its own arguments: the key's UID, and with a custom one its manufacturer (R194). -/
def sentWords (code : Nat) (args : List Nat) (uid : Nat) : List Nat :=
  (if code = 0x01 then [] else [uid]) ++ (if 0xC0 ≤ code then [uid / 2 ^ 48 % 256] else []) ++ args

theorem keySend_moves (code : Nat) (args : List Nat) (data : List Byte) (f : FieldDie) :
    ReaderMoves but f (keySend code args data f) :=
  (f.napBreak_readerMoves.trans (FieldDie.setKey_readerMoves _ _)).trans (FieldDie.emit_readerMoves _ _)

theorem keySend_key (code : Nat) (args : List Nat) (data : List Byte) (f : FieldDie) :
    (keySend code args data f).key = { f.key with cmd := some (code, args, data), reply := none, sentAt := f.now } := rfl

theorem keySend_reg (code : Nat) (args : List Nat) (data : List Byte) (f : FieldDie) : (keySend code args data f).reg = f.reg := rfl

theorem keySend_get (code : Nat) (args : List Nat) (data : List Byte) (f : FieldDie) (r : Fld) :
    (keySend code args data f).get r = f.get r := rfl

theorem keySend_mem_out (code : Nat) (args : List Nat) (data : List Byte) (f : FieldDie) :
    Output.keyCommand code (sentWords code args f.key.uid) data ∈ (keySend code args data f).out :=
  List.mem_append_right _ (List.mem_singleton.2 rfl)

/-! ### Steps and results -/

/-- The reader's record at the beginning of a step. -/
def atStep (step : Nat) (f : FieldDie) : FieldDie :=
  { f with key := { f.key with step := step, part := 0, tries := 0 } }

/-- A commit shows its step (Table 5.8), a header read has none to show. -/
theorem keyStep_eq (step : Nat) (f : FieldDie) :
    keyStep step f = if keyCommitting f then (atStep step f).put F_KEY_STAT_step step else atStep step f := rfl

theorem keyStep_moves (hs : F_KEY_STAT ∈ but) (step : Nat) (f : FieldDie) : ReaderMoves but f (keyStep step f) := by
  have record : ReaderMoves but f (atStep step f) := f.setKey_readerMoves _
  rw [keyStep_eq]
  split
  · exact record.trans (FieldDie.put_readerMoves hs _ _)
  · exact record

theorem keyStep_key (step : Nat) (f : FieldDie) :
    (keyStep step f).key = { f.key with step := step, part := 0, tries := 0 } := by
  rw [keyStep_eq]
  split <;> rfl

theorem keyStep_get_step {step : Nat} (hc : keyCommitting f = true) (hs : step < 16) :
    (keyStep step f).get F_KEY_STAT_step = step := by
  rw [keyStep_eq, if_pos hc, FieldDie.get_put _ _ _ (by decide) (by decide)]
  exact Nat.mod_eq_of_lt hs

theorem keyStep_get_busy (step : Nat) (f : FieldDie) : (keyStep step f).get F_KEY_STAT_busy = f.get F_KEY_STAT_busy := by
  rw [keyStep_eq]
  split
  · exact FieldDie.get_put_field (atStep step f) F_KEY_STAT_step F_KEY_STAT_busy step rfl (by decide) (by decide)
      (.inl (by decide))
  · rfl

theorem keyResult_moves (hr : F_KEY_RESULT ∈ but) (code step err page : Nat) (f : FieldDie) :
    ReaderMoves but f (keyResult code step err page f) := FieldDie.wrN_readerMoves hr f _

/-! ### The beginning of a transaction (R213, R217) -/

theorem keyStart_moves (hs : F_KEY_STAT ∈ but) (op : Nat) (f : FieldDie) : ReaderMoves but f (keyStart op f) := by
  refine ReaderMoves.trans ?_ (keySend_moves _ _ _ _)
  refine ReaderMoves.trans ?_ (keyStep_moves hs _ _)
  exact (FieldDie.setKey_readerMoves _ _).trans (FieldDie.put_readerMoves hs _ _)

theorem keyStart_key (op : Nat) (f : FieldDie) : (keyStart op f).key.op = op ∧ (keyStart op f).key.step = 1 ∧
    (keyStart op f).key.cmd = some (0x01, [], []) := by
  unfold keyStart
  rw [keySend_key, keyStep_key]
  exact ⟨rfl, rfl, rfl⟩

theorem keyStart_get_busy (op : Nat) (f : FieldDie) : (keyStart op f).get F_KEY_STAT_busy = 1 := by
  unfold keyStart
  rw [keySend_get, keyStep_get_busy, FieldDie.get_put _ _ _ (by decide) (by decide)]
  rfl

theorem keyStart_get_step {op : Nat} (hop : op = 2 ∨ op = 3) (f : FieldDie) : (keyStart op f).get F_KEY_STAT_step = 1 := by
  unfold keyStart
  rw [keySend_get]
  refine keyStep_get_step ?_ (by decide)
  obtain rfl | rfl := hop
  · rfl
  · rfl

theorem keyStart_mem_out (op : Nat) (f : FieldDie) : Output.keyCommand 0x01 [] [] ∈ (keyStart op f).out :=
  keySend_mem_out 0x01 [] [] _

/-- A transaction that has begun: its own record and F_KEY_STAT have moved, and its inventory is out. -/
structure KeyStarted (op : Nat) (s t : State) : Prop where
  op_eq : t.fld.key.op = op
  step : t.fld.key.step = 1
  cmd : t.fld.key.cmd = some (0x01, [], [])
  busy : t.fld.get F_KEY_STAT_busy = 1
  out : Output.keyCommand 0x01 [] [] ∈ t.fld.out
  frame : FieldFrame [F_KEY_STAT] { s.fld with key := t.fld.key } s t

/-- A transaction begun at a die that differs from the command's by what a reader moves. -/
theorem KeyStarted.ofMoves (m : ReaderMoves [F_KEY_STAT] s.fld f) (op : Nat) :
    KeyStarted op s { s with fld := settle (keyStart op f) } := by
  obtain ⟨hop, hstep, hcmd⟩ := keyStart_key op f
  refine ⟨?_, ?_, ?_, ?_, settle_mem_out (keyStart_mem_out op f), ?_⟩
  · rwa [settle_key]
  · rwa [settle_key]
  · rwa [settle_key]
  · exact (settle_get _ F_KEY_STAT_busy (by decide) (by decide) (by decide)).trans (keyStart_get_busy op f)
  · exact (m.trans (keyStart_moves (by decide) op f)).frame (settle_key _).symm

end Sys2Proof.Machine
end

section
/-! Requests to the key's reader and its presence poll (R195, R213 to R218, R226): what each starts, refuses or finds (O27). -/

namespace Sys2Proof.Machine

variable {but : List Nat} {s : State} {f : FieldDie} {req : Nat}

/-! ### Writes of F_KEY_CMD -/

/-- F_KEY_CMD is under lock 1 (Table 5.8). -/
theorem lkDenied_keyCmd (h : ownsLock f req 1 = true) : lkDenied f req F_KEY_CMD = false := by
  have row : regRow F_KEY_CMD =
      some ⟨0x030004, 0x4, 1, .const 0, false, false, [⟨3, 0, .wo, false, some 1, false⟩]⟩ := rfl
  unfold lkDenied
  rw [row]
  simp [h]

theorem writeKeyCmd_of_ownsLock (h : ownsLock f req 1 = true) (data : Nat) :
    writeKeyCmd req data f = keyRequest (bitsOf data 3 0) (keyAsked (bitsOf data 3 0) f) := by
  unfold writeKeyCmd
  rw [if_neg (by simp [lkDenied_keyCmd h])]

theorem State.onWrite_of_canWrite {k : FieldDie → FieldDie} (h : s.fld.canWrite req = true) :
    s.onWrite req k = .next { s with fld := settle (k s.fld.napBreak) } := by
  unfold State.onWrite State.onField
  dsimp only
  rw [if_pos h]

/-- A permitted write of F_KEY_CMD asks the reader for its operation. -/
theorem onWrite_writeKeyCmd {data op : Nat} (hw : s.fld.canWrite req = true) (hl : ownsLock s.fld req 1 = true)
    (hop : bitsOf data 3 0 = op) :
    s.onWrite req (writeKeyCmd req data) = .next { s with fld := settle (keyRequest op (keyAsked op s.fld.napBreak)) } := by
  have owned : ownsLock s.fld.napBreak req 1 = true := hl
  rw [State.onWrite_of_canWrite hw, writeKeyCmd_of_ownsLock owned, hop]

/-- A request ends the stop of presence polling (R215). -/
theorem keyAsked_of_request {op : Nat} (h : op = 1 ∨ op = 2 ∨ op = 3) (f : FieldDie) :
    keyAsked op f = { f with key := { f.key with failed := false } } := if_pos h

/-- A die of which a request for a transaction has been taken. -/
abbrev askedDie (s : State) : FieldDie := { s.fld.napBreak with key := { s.fld.key with failed := false } }

theorem askedDie_moves (s : State) : ReaderMoves but s.fld (askedDie s) :=
  s.fld.napBreak_readerMoves.trans (FieldDie.setKey_readerMoves _ _)

/-! ### Requests -/

theorem keyHeaderRequest_of_idle (hb : f.flag F_KEY_STAT_busy = false) (hs : hasBit (f.rdN F_GLB_STRAP) 1 = false) :
    keyHeaderRequest f = keyStart 1 f := by
  unfold keyHeaderRequest
  rw [if_neg (by simp [hb]), if_neg (by simp [hs])]

theorem commitRefused_eq_none (hb : f.flag F_KEY_STAT_busy = false) (hs : hasBit (f.rdN F_GLB_STRAP) 1 = false)
    (hc : f.flag F_CFG_PROOF_STAT_committed = true) (hst : f.flag F_CFG_PROOF_STAT_stale = false)
    (hi : f.flag F_KEY_STAT_image_big = false) : commitRefused f = none := by
  simp [commitRefused, hb, hs, hc, hst, hi]

theorem keyCommitRequest_of_permitted (h : commitRefused f = none) (op : Nat) : keyCommitRequest op f = keyStart op f := by
  unfold keyCommitRequest
  rw [h]

theorem keyCommitRequest_of_busy (h : f.flag F_KEY_STAT_busy = true) (op : Nat) :
    keyCommitRequest op f = (keyResult 0x09 0 0 0 f).raise F_KEY_EVT 2 := by
  have refused : commitRefused f = some 0x09 := if_pos h
  unfold keyCommitRequest
  rw [refused]

theorem keyRequest_of_abort (hc : keyCommitting f = true) (hs : f.key.step ≤ 4) :
    keyRequest 4 f = { f with key := { f.key with abort := true } } := by
  unfold keyRequest
  rw [if_neg (by decide), if_neg (by decide), if_pos ⟨rfl, hc, hs⟩]

theorem exec_keyReadHeader_starts (hw : s.fld.canWrite req = true) (hl : ownsLock s.fld req 1 = true)
    (hb : s.fld.flag F_KEY_STAT_busy = false) (hs : hasBit (s.fld.rdN F_GLB_STRAP) 1 = false) :
    exec (.keyReadHeader req) s = .next { s with fld := settle (keyStart 1 (askedDie s)) } := by
  have starts : keyHeaderRequest (askedDie s) = keyStart 1 (askedDie s) := keyHeaderRequest_of_idle hb hs
  have asked : keyAsked 1 s.fld.napBreak = askedDie s := keyAsked_of_request (.inl rfl) _
  have request : keyRequest 1 (askedDie s) = keyHeaderRequest (askedDie s) := if_pos rfl
  rw [← starts, ← request, ← asked]
  exact onWrite_writeKeyCmd hw hl (by decide)

/-- The two requests for a commit. -/
theorem keyRequest_commit {op : Nat} (hop : op = 2 ∨ op = 3) (f : FieldDie) : keyRequest op f = keyCommitRequest op f := by
  unfold keyRequest
  rw [if_neg (by omega), if_pos hop]

theorem onWrite_commit {op : Nat} (hw : s.fld.canWrite req = true) (hl : ownsLock s.fld req 1 = true)
    (hop : op = 2 ∨ op = 3) :
    s.onWrite req (writeKeyCmd req op) = .next { s with fld := settle (keyCommitRequest op (askedDie s)) } := by
  have field : bitsOf op 3 0 = op := by obtain rfl | rfl := hop <;> decide
  rw [onWrite_writeKeyCmd hw hl field, keyRequest_commit hop, keyAsked_of_request (.inr hop)]
  rfl

/-- A permitted commit, forced or not, starts and shows its first step. -/
theorem commit_starts {op : Nat} (hop : op = 2 ∨ op = 3) (hw : s.fld.canWrite req = true)
    (hl : ownsLock s.fld req 1 = true) (hr : commitRefused s.fld = none) :
    ∃ t, s.onWrite req (writeKeyCmd req op) = .next t ∧ t.fld.key.op = op ∧ t.fld.key.step = 1 ∧
      t.fld.get F_KEY_STAT_step = 1 ∧ t.fld.key.cmd = some (0x01, [], []) ∧ t.fld.get F_KEY_STAT_busy = 1 ∧
      Output.keyCommand 0x01 [] [] ∈ t.fld.out ∧ FieldFrame [F_KEY_STAT] { s.fld with key := t.fld.key } s t := by
  have permitted : commitRefused (askedDie s) = none := hr
  have started := KeyStarted.ofMoves (askedDie_moves s) op
  have shown := (settle_get (keyStart op (askedDie s)) F_KEY_STAT_step (by decide) (by decide) (by decide)).trans
    (keyStart_get_step hop _)
  refine ⟨_, onWrite_commit hw hl hop, ?_⟩
  rw [keyCommitRequest_of_permitted permitted]
  exact ⟨started.op_eq, started.step, shown, started.cmd, started.busy, started.out, started.frame⟩

theorem commit_refused_of_busy {op : Nat} (hop : op = 2 ∨ op = 3) (hw : s.fld.canWrite req = true)
    (hl : ownsLock s.fld req 1 = true) (hb : s.fld.flag F_KEY_STAT_busy = true) :
    ∃ t, s.onWrite req (writeKeyCmd req op) = .next t ∧ t.fld.rdN F_KEY_RESULT = 0x09000000 ∧ t.fld.sq F_KEY_EVT 2 = true ∧
      FieldFrame [F_KEY_RESULT, F_KEY_EVT] { s.fld with key := { s.fld.key with failed := false } } s t := by
  have busy : (askedDie s).flag F_KEY_STAT_busy = true := hb
  have moves : ReaderMoves [F_KEY_RESULT, F_KEY_EVT] s.fld ((keyResult 0x09 0 0 0 (askedDie s)).raise F_KEY_EVT 2) :=
    ((askedDie_moves s).trans (keyResult_moves (by decide) _ _ _ _ _)).trans (FieldDie.raise_readerMoves (by decide) _ _)
  refine ⟨_, onWrite_commit hw hl hop, ?_⟩
  rw [keyCommitRequest_of_busy busy]
  refine ⟨FieldDie.rdN_of_rd ?_ (by decide), ?_, moves.frame (FieldDie.raise_key _ _ _)⟩
  · rw [settle_rd_of_notMem _ (by decide), FieldDie.raise_rd _ _ _ _ (by decide) (by decide), keyResult, FieldDie.rd_wrN,
      if_pos rfl]
    rfl
  · rw [settle_sq _ _ _ (by decide) (by decide) (by decide), FieldDie.raise_sq _ _ _ (by decide) (by decide)]

theorem exec_keyAbort_notes (hw : s.fld.canWrite req = true) (hl : ownsLock s.fld req 1 = true)
    (hc : keyCommitting s.fld = true) (hs : s.fld.key.step ≤ 4) :
    exec (.keyAbort req) s =
      .next { s with fld := settle { s.fld.napBreak with key := { s.fld.key with abort := true } } } := by
  have noted : keyRequest 4 (keyAsked 4 s.fld.napBreak) = { s.fld.napBreak with key := { s.fld.key with abort := true } } :=
    keyRequest_of_abort hc hs
  rw [← noted]
  exact onWrite_writeKeyCmd hw hl (by decide)

/-! ### The presence poll (R195, R214, R215) -/

/-- A die whose presence poll has sent its inventory. -/
def polledDie (f : FieldDie) : FieldDie :=
  { f.napBreak with key := { f.key with pollAt := f.now } }.emit (.keyCommand 0x01 [] [])

theorem polledDie_moves (f : FieldDie) : ReaderMoves but f (polledDie f) :=
  (f.napBreak_readerMoves.trans (FieldDie.setKey_readerMoves _ _)).trans (FieldDie.emit_readerMoves _ _)

theorem polledDie_mem_out (f : FieldDie) : Output.keyCommand 0x01 [] [] ∈ (polledDie f).out :=
  List.mem_append_right _ (List.mem_singleton.2 rfl)

/-- A presence poll that is due. -/
structure PollIsDue (s : State) : Prop where
  running : s.fld.phase = .running
  due : pollDue s.fld = true

theorem PollIsDue.exec_eq (h : PollIsDue s) (answers : Nat) :
    exec (.keyPresencePoll answers) s =
      .next { s with fld := settle (pollFound (if s.key.present then answers else 0) s.key.uid (polledDie s.fld)) } := by
  refine (State.onRun_running h.running).trans ?_
  unfold presencePoll
  rw [if_pos h.due]
  rfl

/-- What a poll finds, at the end of its command. -/
theorem pollFound_frame {answers uid : Nat} (m : ReaderMoves but (polledDie s.fld) (pollFound answers uid (polledDie s.fld)))
    (hk : (pollFound answers uid (polledDie s.fld)).key = (polledDie s.fld).key) :
    Output.keyCommand 0x01 [] [] ∈ (settle (pollFound answers uid (polledDie s.fld))).out ∧
      FieldFrame but { s.fld with key := { s.fld.key with pollAt := s.fld.now } } s
        { s with fld := settle (pollFound answers uid (polledDie s.fld)) } :=
  ⟨settle_mem_out (m.send.out (polledDie_mem_out _)), ((polledDie_moves s.fld).trans m).frame hk⟩

theorem pollFound_of_several {answers : Nat} (h : 2 ≤ answers) (uid : Nat) (f : FieldDie) :
    pollFound answers uid f = (f.put F_KEY_STAT_present 1).raise F_KEY_EVT 6 := if_pos h

theorem pollFound_of_gone {answers uid : Nat} (h : answers < 2) (hp : f.flag F_KEY_STAT_present = true)
    (hn : ¬ (answers = 1 ∧ uid = f.rdN F_KEY_UID_LO + 2 ^ 32 * f.rdN F_KEY_UID_HI)) :
    pollFound answers uid f = (f.put F_KEY_STAT_present 0).raise F_KEY_EVT 4 := by
  unfold pollFound
  rw [if_neg (by omega), if_pos hp, if_neg hn]

theorem pollFound_of_come (hp : f.flag F_KEY_STAT_present = false) (uid : Nat) : pollFound 1 uid f = fillKeyUid uid f := by
  unfold pollFound
  rw [if_neg (by decide), if_neg (by simp [hp]), if_pos rfl]

theorem fillKeyUid_moves (uid : Nat) (f : FieldDie) :
    ReaderMoves [F_KEY_STAT, F_KEY_UID_LO, F_KEY_UID_HI] f (fillKeyUid uid f) :=
  ((FieldDie.wrN_readerMoves (by decide) _ _).trans (FieldDie.wrN_readerMoves (by decide) _ _)).trans
    (FieldDie.put_readerMoves (by decide) _ _)

theorem fillKeyUid_key (uid : Nat) (f : FieldDie) : (fillKeyUid uid f).key = f.key := by
  unfold fillKeyUid
  rw [FieldDie.put_key, FieldDie.wrN_key, FieldDie.wrN_key]

theorem fillKeyUid_present (uid : Nat) (f : FieldDie) : (fillKeyUid uid f).get F_KEY_STAT_present = 1 := by
  unfold fillKeyUid
  rw [FieldDie.get_put _ _ _ (by decide) (by decide)]
  rfl

theorem fillKeyUid_rd_lo (uid : Nat) (f : FieldDie) : (fillKeyUid uid f).rd F_KEY_UID_LO = word uid := by
  unfold fillKeyUid
  rw [FieldDie.rd_put_ne _ _ _ _ (by decide), FieldDie.rd_wrN, if_neg (by decide), FieldDie.rd_wrN, if_pos rfl]

theorem fillKeyUid_rd_hi (uid : Nat) (f : FieldDie) : (fillKeyUid uid f).rd F_KEY_UID_HI = word (uid / 2 ^ 32) := by
  unfold fillKeyUid
  rw [FieldDie.rd_put_ne _ _ _ _ (by decide), FieldDie.rd_wrN, if_pos rfl]

/-- A UID of 64 bits is shown in full. -/
theorem settle_fillKeyUid_uid {uid : Nat} (h : uid < 2 ^ 64) (f : FieldDie) :
    (settle (fillKeyUid uid f)).rdN F_KEY_UID_LO + 2 ^ 32 * (settle (fillKeyUid uid f)).rdN F_KEY_UID_HI = uid := by
  unfold FieldDie.rdN
  rw [settle_rd_of_notMem _ (by decide), settle_rd_of_notMem _ (by decide), fillKeyUid_rd_lo, fillKeyUid_rd_hi]
  simp only [word, BitVec.toNat_ofNat]
  omega

theorem keyPresencePoll_gone (h : PollIsDue s) {answers : Nat} (hp : s.fld.flag F_KEY_STAT_present = true)
    (hg : answers = 0 ∨ s.key.present = false ∨
      (answers = 1 ∧ s.key.uid ≠ s.fld.rdN F_KEY_UID_LO + 2 ^ 32 * s.fld.rdN F_KEY_UID_HI)) :
    ∃ t, exec (.keyPresencePoll answers) s = .next t ∧ t.fld.get F_KEY_STAT_present = 0 ∧ t.fld.sq F_KEY_EVT 4 = true ∧
      Output.keyCommand 0x01 [] [] ∈ t.fld.out ∧
      FieldFrame [F_KEY_STAT, F_KEY_EVT] { s.fld with key := { s.fld.key with pollAt := s.fld.now } } s t := by
  refine ⟨_, h.exec_eq answers, ?_⟩
  set found := if s.key.present then answers else 0 with hfound
  have few : found < 2 := by
    rw [hfound]
    split
    · rcases hg with h0 | hno | ⟨h1, _⟩ <;> simp_all
    · decide
  have other : ¬ (found = 1 ∧ s.key.uid = (polledDie s.fld).rdN F_KEY_UID_LO + 2 ^ 32 * (polledDie s.fld).rdN F_KEY_UID_HI) := by
    rintro ⟨h1, huid⟩
    rcases hg with h0 | hno | ⟨_, hne⟩
    · simp [hfound, h0] at h1
    · simp [hfound, hno] at h1
    · exact hne huid
  have gone := pollFound_of_gone few (show (polledDie s.fld).flag F_KEY_STAT_present = true from hp) other
  have moves : ReaderMoves [F_KEY_STAT, F_KEY_EVT] (polledDie s.fld)
      (((polledDie s.fld).put F_KEY_STAT_present 0).raise F_KEY_EVT 4) :=
    (FieldDie.put_readerMoves (by decide) _ _).trans (FieldDie.raise_readerMoves (by decide) _ _)
  have ended := pollFound_frame (gone ▸ moves) (by rw [gone, FieldDie.raise_key, FieldDie.put_key])
  refine ⟨?_, ?_, ended⟩
  · rw [settle_get _ _ (by decide) (by decide) (by decide), gone,
      FieldDie.get_eq _ (FieldDie.raise_rd _ _ _ _ (by decide) (by decide)), FieldDie.get_put _ _ _ (by decide) (by decide)]
    rfl
  · rw [settle_sq _ _ _ (by decide) (by decide) (by decide), gone, FieldDie.raise_sq _ _ _ (by decide) (by decide)]

theorem keyPresencePoll_come (h : PollIsDue s) (hp : s.fld.flag F_KEY_STAT_present = false) (hkey : s.key.present = true)
    (huid : s.key.uid < 2 ^ 64) :
    ∃ t, exec (.keyPresencePoll 1) s = .next t ∧ t.fld.get F_KEY_STAT_present = 1 ∧
      t.fld.rdN F_KEY_UID_LO + 2 ^ 32 * t.fld.rdN F_KEY_UID_HI = s.key.uid ∧ Output.keyCommand 0x01 [] [] ∈ t.fld.out ∧
      FieldFrame [F_KEY_STAT, F_KEY_UID_LO, F_KEY_UID_HI]
        { s.fld with key := { s.fld.key with pollAt := s.fld.now } } s t := by
  refine ⟨_, h.exec_eq 1, ?_⟩
  rw [if_pos hkey]
  have come := pollFound_of_come (show (polledDie s.fld).flag F_KEY_STAT_present = false from hp) s.key.uid
  have ended := pollFound_frame (come ▸ fillKeyUid_moves s.key.uid _) (by rw [come, fillKeyUid_key])
  refine ⟨?_, ?_, ended⟩
  · rw [settle_get _ _ (by decide) (by decide) (by decide), come, fillKeyUid_present]
  · rw [come]
    exact settle_fillKeyUid_uid huid _

theorem keyPresencePoll_several (h : PollIsDue s) {answers : Nat} (hn : 2 ≤ answers) (hkey : s.key.present = true) :
    ∃ t, exec (.keyPresencePoll answers) s = .next t ∧ t.fld.sq F_KEY_EVT 6 = true ∧
      Output.keyCommand 0x01 [] [] ∈ t.fld.out ∧
      FieldFrame [F_KEY_STAT, F_KEY_EVT] { s.fld with key := { s.fld.key with pollAt := s.fld.now } } s t := by
  refine ⟨_, h.exec_eq answers, ?_⟩
  rw [if_pos hkey]
  have several := pollFound_of_several hn s.key.uid (polledDie s.fld)
  have moves : ReaderMoves [F_KEY_STAT, F_KEY_EVT] (polledDie s.fld)
      (((polledDie s.fld).put F_KEY_STAT_present 1).raise F_KEY_EVT 6) :=
    (FieldDie.put_readerMoves (by decide) _ _).trans (FieldDie.raise_readerMoves (by decide) _ _)
  have ended := pollFound_frame (several ▸ moves) (by rw [several, FieldDie.raise_key, FieldDie.put_key])
  refine ⟨?_, ended⟩
  rw [settle_sq _ _ _ (by decide) (by decide) (by decide), several, FieldDie.raise_sq _ _ _ (by decide) (by decide)]

/-! ### The statement -/

/-- Settles O27: a permitted request is one `keyStart`, a refused one a result and its event, and a poll is one
`pollFound`. -/
theorem keyRequests : Obligations.KeyRequests := by
  unfold Obligations.KeyRequests
  refine ⟨fun s req hw hl hb hstrap => ⟨?_, fun hc hst hi => ?_⟩, fun s req hw hl hb => ⟨?_, fun hc hs => ?_⟩,
    fun s answers hr hpoll hrun hb hfail hstrap hdue => ?_⟩
  · have started := KeyStarted.ofMoves (askedDie_moves s) 1
    exact ⟨_, exec_keyReadHeader_starts hw hl hb hstrap, started.op_eq, started.step, started.cmd, started.busy, started.out,
      started.frame⟩
  · have permitted := commitRefused_eq_none hb hstrap hc hst hi
    exact ⟨commit_starts (.inl rfl) hw hl permitted, commit_starts (.inr rfl) hw hl permitted⟩
  · exact commit_refused_of_busy (.inl rfl) hw hl hb
  · exact ⟨_, exec_keyAbort_notes hw hl hc hs,
      (s.fld.napBreak_readerMoves.trans (FieldDie.setKey_readerMoves _ _)).frame rfl⟩
  · have due : PollIsDue s := ⟨hr, by simp [pollDue, hpoll, hb, hfail, hstrap, hrun, hdue]⟩
    refine ⟨keyPresencePoll_gone due, fun hp ha hkey huid => ?_, keyPresencePoll_several due⟩
    subst ha
    exact keyPresencePoll_come due hp hkey huid

end Sys2Proof.Machine
end

section
/-! The end of a key transaction, and a key that loses its field in the middle of a command (R221, R223). -/

namespace Sys2Proof.Machine

variable {but : List Nat} {s : State} {f : FieldDie} {k : KeyChip}

/-! ### The end of a transaction (Table 5.9) -/

/-- The reader's record after a transaction. -/
def KeyX.ended (x : KeyX) : KeyX :=
  { x with op := 0, step := 0, part := 0, page := 0, off := 0, tries := 0, abort := false, cmd := none, reply := none }

/-- The die after a transaction, but for what a commit's end does besides. -/
def keyEnded (code err : Nat) (f : FieldDie) : FieldDie :=
  let r := keyResult code f.key.step err f.key.page f
  ({ r with key := r.key.ended }.put F_KEY_STAT_busy 0).put F_KEY_STAT_step 0

/-- A waiting image becomes the staged one at the end of a commit (R241). -/
def imageTaken (f : FieldDie) : FieldDie :=
  match f.cfg.build with
  | some img => { f with cfg := { f.cfg with image := img, build := none } }
  | none => f

theorem keyEnd_eq (code err : Nat) (f : FieldDie) :
    keyEnd code err f = if keyCommitting f then (imageTaken (keyEnded code err f)).raise F_KEY_EVT (if code = 0 then 1 else 2)
      else keyEnded code err f := rfl

theorem imageTaken_key (f : FieldDie) : (imageTaken f).key = f.key := by
  unfold imageTaken
  split <;> rfl

theorem imageTaken_reg (f : FieldDie) : (imageTaken f).reg = f.reg := by
  unfold imageTaken
  split <;> rfl

theorem keyEnded_key (code err : Nat) (f : FieldDie) : (keyEnded code err f).key = f.key.ended := by
  unfold keyEnded keyResult
  extract_lets r
  have kept : r.key = f.key := FieldDie.wrN_key _ _ _
  rw [FieldDie.put_key, FieldDie.put_key, kept]

theorem keyEnded_regsSame (hr : F_KEY_RESULT ∈ but) (hs : F_KEY_STAT ∈ but) (code err : Nat) (f : FieldDie) :
    RegsSame but f (keyEnded code err f) := by
  have result := (keyResult_moves hr code f.key.step err f.key.page f).regs
  have record := result.trans (FieldDie.setKey_readerMoves _ (keyResult code f.key.step err f.key.page f).key.ended).regs
  exact (record.trans (FieldDie.put_regsSame hs _ 0)).trans (FieldDie.put_regsSame hs _ 0)

theorem keyEnded_get_busy (code err : Nat) (f : FieldDie) : (keyEnded code err f).get F_KEY_STAT_busy = 0 := by
  unfold keyEnded
  rw [FieldDie.get_put_field _ F_KEY_STAT_step F_KEY_STAT_busy 0 rfl (by decide) (by decide) (.inl (by decide)),
    FieldDie.get_put _ _ _ (by decide) (by decide)]
  rfl

/-- The code field of F_KEY_RESULT, the other fields being in their bits. -/
theorem bitsOf_result {code step err page : Nat} (hc : code < 256) (hs : step < 16) (he : err < 256) (hp : page < 256) :
    bitsOf (code * 2 ^ 24 + step * 2 ^ 20 + err * 2 ^ 8 + page) 31 24 = code := by
  unfold bitsOf
  simp only [Nat.shiftRight_eq_div_pow]
  omega

theorem keyResult_get_code {code step err page : Nat} (hc : code < 256) (hs : step < 16) (he : err < 256) (hp : page < 256)
    (f : FieldDie) : (keyResult code step err page f).get F_KEY_RESULT_code = code := by
  have written : (keyResult code step err page f).rdN F_KEY_RESULT = code * 2 ^ 24 + step * 2 ^ 20 + err * 2 ^ 8 + page :=
    FieldDie.rdN_of_rd (by rw [keyResult, FieldDie.rd_wrN, if_pos rfl]) (by omega)
  exact (congrArg (fun w => bitsOf w 31 24) written).trans (bitsOf_result hc hs he hp)

/-- What F_KEY_STAT and the reader's record then show leaves the result. -/
theorem FieldDie.get_code_of_ended (r : FieldDie) (x : KeyX) :
    ((FieldDie.put { r with key := x } F_KEY_STAT_busy 0).put F_KEY_STAT_step 0).get F_KEY_RESULT_code =
      r.get F_KEY_RESULT_code := by
  rw [FieldDie.get_put_addr _ _ _ _ (by decide), FieldDie.get_put_addr _ _ _ _ (by decide)]
  rfl

theorem keyEnded_get_code {code err : Nat} (hc : code < 256) (hs : f.key.step < 16) (he : err < 256) (hp : f.key.page < 256) :
    (keyEnded code err f).get F_KEY_RESULT_code = code :=
  (FieldDie.get_code_of_ended _ _).trans (keyResult_get_code hc hs he hp f)

theorem keyEnd_key (code err : Nat) (f : FieldDie) : (keyEnd code err f).key = f.key.ended := by
  rw [keyEnd_eq]
  split
  · rw [FieldDie.raise_key, imageTaken_key, keyEnded_key]
  · exact keyEnded_key code err f

/-- What the end of a commit does besides moves no register but F_KEY_EVT. -/
theorem keyEnd_rd_of_keyEnded (code err : Nat) (f : FieldDie) {a : Nat} (ha : a ≠ F_KEY_EVT) (hx : a ≠ F_XNG_EVT) :
    (keyEnd code err f).rd a = (keyEnded code err f).rd a := by
  rw [keyEnd_eq]
  split
  · rw [FieldDie.raise_rd _ _ _ _ ha hx, FieldDie.rd_eq (imageTaken_reg _)]
  · rfl

theorem keyEnd_get_busy (code err : Nat) (f : FieldDie) : (keyEnd code err f).get F_KEY_STAT_busy = 0 :=
  (FieldDie.get_eq _ (keyEnd_rd_of_keyEnded code err f (by decide) (by decide))).trans (keyEnded_get_busy code err f)

theorem keyEnd_get_code {code err : Nat} (hc : code < 256) (hs : f.key.step < 16) (he : err < 256) (hp : f.key.page < 256) :
    (keyEnd code err f).get F_KEY_RESULT_code = code :=
  (FieldDie.get_eq _ (keyEnd_rd_of_keyEnded code err f (by decide) (by decide))).trans (keyEnded_get_code hc hs he hp)

theorem keyEnd_regsSame (code err : Nat) (f : FieldDie) :
    RegsSame [F_KEY_STAT, F_KEY_RESULT, F_KEY_EVT] f (keyEnd code err f) := by
  have ended := keyEnded_regsSame (but := [F_KEY_STAT, F_KEY_RESULT, F_KEY_EVT]) (by decide) (by decide) code err f
  rw [keyEnd_eq]
  split
  · exact (ended.trans (.ofReg (imageTaken_reg _))).trans (FieldDie.raise_regsSame (by decide) _ _)
  · exact ended

/-! ### A key that loses its field (R166, R223) -/

theorem freeBytes_length (n : Nat) (f : FieldDie) : (freeBytes n f).1.length = n := by
  induction n generalizing f with
  | zero => rfl
  | succ n ih => exact congrArg (· + 1) (ih f.free.2)

theorem tornPage_byte_outside {slot page a : Nat} (h : a < slotBase slot + 256 * page ∨ slotBase slot + 256 * page + 256 ≤ a)
    (hr : a < 0x140 ∨ 0x160 ≤ a) (f : FieldDie) (k : KeyChip) : (tornPage slot page f k).2.byte a = k.byte a := by
  unfold tornPage
  have bytes := freeBytes_length 256 f
  generalize freeBytes 256 f = b at bytes
  have record := freeBytes_length 32 b.2
  exact (KeyChip.byte_program_outside (by rwa [record])).trans (KeyChip.byte_program_outside (by rwa [bytes]))

theorem tornPointer_byte_outside {ptr a : Nat} (h : a < ptrBase ptr ∨ ptrBase ptr + 32 ≤ a) (hr : a < 0x140 ∨ 0x160 ≤ a)
    (f : FieldDie) (k : KeyChip) : (tornPointer ptr f k).2.byte a = k.byte a := by
  unfold tornPointer
  have bytes := freeBytes_length 28 f
  generalize freeBytes 28 f = b at bytes
  have record := freeBytes_length 32 b.2.free.2
  refine (KeyChip.byte_program_outside (by rwa [record])).trans (KeyChip.byte_program_outside ?_)
  rw [List.length_append, bytes]
  exact h

/-- Whatever becomes of a PROGRAM_PAGE that is cut off, its bytes lie in its page and in the record. -/
theorem keyCutIn_page_byte {args : List Nat} {data : List Byte} {a : Nat}
    (h : a < slotBase (args.getD 1 0) + 256 * args.getD 2 0 ∨ slotBase (args.getD 1 0) + 256 * args.getD 2 0 + 256 ≤ a)
    (hr : a < 0x140 ∨ 0x160 ≤ a) (f : FieldDie) (k : KeyChip) : (keyCutIn 0xC4 args data f k).2.byte a = k.byte a := by
  unfold keyCutIn
  dsimp only
  split
  · rfl
  · rw [if_pos rfl]
    split
    · rfl
    · split
      · exact KeyChip.byte_putPage_outside h hr
      · exact tornPage_byte_outside h hr _ k

/-- Whatever becomes of a WRITE_POINTER that is cut off, its bytes lie in its copy and in the record. -/
theorem keyCutIn_pointer_byte {args : List Nat} {data : List Byte} {a : Nat} (hd : data.length ≤ 32)
    (h : a < ptrBase (args.getD 1 0) ∨ ptrBase (args.getD 1 0) + 32 ≤ a) (hr : a < 0x140 ∨ 0x160 ≤ a)
    (f : FieldDie) (k : KeyChip) : (keyCutIn 0xC8 args data f k).2.byte a = k.byte a := by
  unfold keyCutIn
  dsimp only
  split
  · rfl
  · rw [if_neg (by decide)]
    split
    · exact KeyChip.byte_putPointer_outside hd h hr
    · exact tornPointer_byte_outside h hr _ k

/-- A key that loses its field keeps its memory, or what `keyCutIn` makes of it. -/
theorem keyCut_byte {c : Nat} {args : List Nat} {data : List Byte} (hcmd : f.key.cmd = some (c, args, data)) {a : Nat}
    (h : (keyCutIn c args data f k).2.byte a = k.byte a) : (keyCut f k).2.byte a = k.byte a := by
  unfold keyCut
  rw [hcmd]
  dsimp only
  split
  · rfl
  · exact h

end Sys2Proof.Machine
end

section
/-! The key's answers and its silence (R189, R213, R219, R221, R230, R235): how each moves the reader's transaction on, repeats
its command or ends it (O28). -/

namespace Sys2Proof.Machine

variable {but : List Nat} {s : State} {f : FieldDie} {k : KeyChip} {c : Nat} {args : List Nat} {data : List Byte}

/-! ### The answer to the command that is out (R221) -/

theorem replyLimit_of_cmd (h : f.key.cmd = some (c, args, data)) :
    replyLimit f = f.key.sentAt + (if c = 0xC6 then 80 else 20) * msTicks := by
  unfold replyLimit
  rw [h, Option.map_some]
  simp only [Option.some.injEq]

/-- The reader has a command out, and its engine runs. -/
structure CommandOut (s : State) : Prop where
  running : s.fld.phase = .running
  engine : s.fld.engineRuns 16 = true
  op : s.fld.key.op ≠ 0

theorem CommandOut.isRunning (h : CommandOut s) : s.fld.isRunning = true := by simp [FieldDie.isRunning, h.running]

theorem execKeyReply_of_answer {st : Nat} {d : List Byte} (h : CommandOut s) (ha : keyAnswer s.key s.fld = some (st, d))
    (ht : s.fld.now ≤ replyLimit s.fld) :
    execKeyReply s = .next { s with
      fld := settle (keyReplied st d s.fld), key := carrierOff (keyReplied st d s.fld) s.key } := by
  unfold execKeyReply
  rw [ha]
  exact if_pos ⟨h.isRunning, h.op, h.engine, ht⟩

/-! ### The slot check of step 4 (R219, R235) -/

theorem keyAnswer_of_custom (h : f.key.cmd = some (0xC6, args, data)) (k : KeyChip) : keyAnswer k f = f.key.reply := by
  unfold keyAnswer
  rw [h]
  rfl

/-- The die on which a commit enters step 5: it has taken the next transaction number. -/
def pointerDie (f : FieldDie) : FieldDie := takeTxn (keyStep 5 f)

theorem keyReplied_slotChecked {d : List Byte} (habort : f.key.abort = false) (hstep : f.key.step = 4)
    (hcrc : wordAt d 0 = crc32c f.cfg.image) :
    keyReplied 0 d f = keySend 0xC8 [(pointerDie f).key.txn, 0] (newPointer (pointerDie f)) (pointerDie f) := by
  unfold keyReplied
  dsimp only
  rw [if_neg (by simp [habort]), if_neg (by omega), if_neg (by omega), if_neg (by simp), if_neg (by omega), if_neg (by omega),
    if_pos hstep, if_pos hcrc]
  rfl

theorem takeTxn_rd (f : FieldDie) (a : Nat) :
    (takeTxn f).rd a = if a = F_KEY_TXN then word (txnNext f.key.txn) else f.rd a :=
  FieldDie.rd_wrN { f with key := { f.key with txn := txnNext f.key.txn } } F_KEY_TXN a _

theorem takeTxn_key (f : FieldDie) : (takeTxn f).key = { f.key with txn := txnNext f.key.txn } := FieldDie.wrN_key _ _ _

theorem pointerDie_key (f : FieldDie) :
    (pointerDie f).key = { f.key with step := 5, part := 0, tries := 0, txn := txnNext f.key.txn } := by
  unfold pointerDie
  rw [takeTxn_key, keyStep_key]

theorem pointerDie_rd_txn (f : FieldDie) : (pointerDie f).rd F_KEY_TXN = word (txnNext f.key.txn) := by
  unfold pointerDie
  rw [takeTxn_rd, if_pos rfl, keyStep_key]

theorem pointerDie_get_step (hc : keyCommitting f = true) : (pointerDie f).get F_KEY_STAT_step = 5 := by
  have kept : (pointerDie f).rd F_KEY_STAT = (keyStep 5 f).rd F_KEY_STAT := (takeTxn_rd _ _).trans (if_neg (by decide))
  exact (FieldDie.get_eq _ kept).trans (keyStep_get_step hc (by decide))

theorem pointerDie_regsSame (f : FieldDie) : RegsSame [F_KEY_STAT, F_KEY_TXN] f (pointerDie f) := by
  refine (keyStep_moves (by decide) 5 f).regs.trans fun a ha _ => ?_
  exact (takeTxn_rd _ a).trans (if_neg fun h => ha (by simp [h]))

/-! ### The header of a header read (R213) -/

theorem keyAnswer_of_read (h : f.key.cmd = some (0x33, args, data)) (ht : keyTakes f k = true) :
    keyAnswer k f = some (0, k.bytes (32 * args.getD 0 0) (32 * args.getD 1 0)) := by
  unfold keyAnswer
  rw [h]
  exact (if_pos rfl).trans (if_pos ht)

theorem keyReplied_header (habort : f.key.abort = false) (hstep : f.key.step = 1) (hpart : f.key.part = 4)
    (hc : keyCommitting f = false) (d : List Byte) : keyReplied 0 d f = keyEnd 0 0 f := by
  have header : openReply 0 d f = keyEnd 0 0 f := by
    unfold openReply
    dsimp only
    rw [if_neg (by omega), if_neg (by omega), if_neg (by omega), if_neg (by omega), if_neg (by simp [hc])]
  unfold keyReplied
  dsimp only
  rw [if_neg (by simp [habort]), if_pos hstep, header]

theorem keyEnd_of_read (hc : keyCommitting f = false) (code err : Nat) : keyEnd code err f = keyEnded code err f := by
  rw [keyEnd_eq, if_neg (by simp [hc])]

/-! ### Silence (R219, R230) -/

theorem keyRetry_of_left (h : f.key.cmd = some (c, args, data)) (ht : f.key.tries < f.get F_KEY_CFG_retries) (code err : Nat) :
    keyRetry code err f = keySend c args data { f with key := { f.key with tries := f.key.tries + 1 } } := by
  unfold keyRetry
  rw [if_pos ht]
  dsimp only
  rw [h]

theorem keySilent_of_left (habort : f.key.abort = false) (h : f.key.cmd = some (c, args, data))
    (ht : f.key.tries < f.get F_KEY_CFG_retries) :
    keySilent f = keySend c args data { f with key := { f.key with tries := f.key.tries + 1 } } := by
  unfold keySilent
  rw [if_neg (by simp [habort]), if_pos ht, keyRetry_of_left h ht, keyRetry_of_left h ht, ite_self]

/-- The code under which silence ends a transaction: 0x01 for the inventory, else 0x02. -/
def silentCode (f : FieldDie) : Nat := if f.key.step = 1 ∧ f.key.part = 0 then 1 else 2

/-- The die that silence leaves when no retry remains: after the inventory no key is present. -/
def silentDie (f : FieldDie) : FieldDie := if f.key.step = 1 ∧ f.key.part = 0 then f.put F_KEY_STAT_present 0 else f

theorem keySilent_of_spent (habort : f.key.abort = false) (ht : f.get F_KEY_CFG_retries ≤ f.key.tries) :
    keySilent f = keyEnd (silentCode f) 0 (silentDie f) := by
  have spent : ¬ f.key.tries < f.get F_KEY_CFG_retries := Nat.not_lt.2 ht
  have retry : keyRetry 2 0 f = keyEnd 2 0 f := if_neg spent
  unfold keySilent silentCode silentDie
  rw [if_neg (by simp [habort]), if_neg spent, retry]
  split <;> rfl

theorem silentCode_lt (f : FieldDie) : silentCode f < 256 := by
  unfold silentCode
  split <;> decide

theorem silentDie_key (f : FieldDie) : (silentDie f).key = f.key := by
  unfold silentDie
  split
  · exact FieldDie.put_key _ _ _
  · rfl

theorem silentDie_regsSame (f : FieldDie) : RegsSame [F_KEY_STAT, F_KEY_RESULT, F_KEY_EVT] f (silentDie f) := by
  unfold silentDie
  split
  · exact f.put_regsSame (by decide) _
  · exact .refl f

theorem execKeyReplyTimeout_of_late (h : CommandOut s) (hcmd : s.fld.key.cmd = some (c, args, data))
    (ht : s.fld.key.sentAt + (if c = 0xC6 then 80 else 20) * msTicks ≤ s.fld.now) :
    execKeyReplyTimeout s = s.keyMayStop keySilent := by
  have late : replyLimit s.fld ≤ s.fld.now := by rwa [replyLimit_of_cmd hcmd]
  unfold execKeyReplyTimeout
  rw [if_neg (by simp [h.running]), if_pos ⟨h.isRunning, h.op, by simp [hcmd], h.engine, late⟩]

theorem State.keyMayStop_of_goesOn {g : FieldDie → FieldDie} (h : (g s.fld).key.op ≠ 0) :
    s.keyMayStop g = .next { s with fld := settle (g s.fld) } := if_neg fun hn => h hn.2

theorem State.keyMayStop_of_ends {g : FieldDie → FieldDie} (h : s.fld.key.op ≠ 0) (hg : (g s.fld).key.op = 0) :
    s.keyMayStop g = .next { s with fld := settle (g (keyCut s.fld s.key).1), key := (keyCut s.fld s.key).2 } :=
  if_pos ⟨h, hg⟩

/-- What the end of a transaction by silence shows. -/
structure SilentEnd (f g : FieldDie) : Prop where
  op : g.key.op = 0
  busy : g.get F_KEY_STAT_busy = 0
  code : g.get F_KEY_RESULT_code = silentCode f
  regs : RegsSame [F_KEY_STAT, F_KEY_RESULT, F_KEY_EVT] f g

theorem keySilent_silentEnd (habort : f.key.abort = false) (ht : f.get F_KEY_CFG_retries ≤ f.key.tries)
    (hstep : f.key.step < 16) (hpage : f.key.page < 256) : SilentEnd f (keySilent f) := by
  have same := silentDie_key f
  rw [keySilent_of_spent habort ht]
  refine ⟨?_, keyEnd_get_busy _ _ _, ?_, (silentDie_regsSame f).trans (keyEnd_regsSame _ _ _)⟩
  · rw [keyEnd_key]
    rfl
  · exact keyEnd_get_code (silentCode_lt f) (by rwa [same]) (by decide) (by rwa [same])

/-- The end of a command shows what the die showed. -/
theorem SilentEnd.settled {g : FieldDie} (h : SilentEnd f g) : SilentEnd f (settle g) where
  op := by rw [settle_key, h.op]
  busy := by rw [settle_get _ _ (by decide) (by decide) (by decide), h.busy]
  code := by rw [settle_get _ _ (by decide) (by decide) (by decide), h.code]
  regs := h.regs.trans (settle_regsSame g)

/-! ### The answers and the silence, from command to command -/

theorem keyReply_slotChecked {d : List Byte} (hout : CommandOut s) (hc : keyCommitting s.fld = true)
    (hstep : s.fld.key.step = 4) (habort : s.fld.key.abort = false) (hcmd : s.fld.key.cmd = some (0xC6, args, data))
    (hreply : s.fld.key.reply = some (0, d)) (hcrc : wordAt d 0 = crc32c s.fld.cfg.image)
    (ht : s.fld.now ≤ s.fld.key.sentAt + 80 * msTicks) :
    ∃ t, exec .keyReply s = .next t ∧ t.fld.key.step = 5 ∧ t.fld.get F_KEY_STAT_step = 5 ∧
      t.fld.key.txn = txnNext s.fld.key.txn ∧ t.fld.rd F_KEY_TXN = word (txnNext s.fld.key.txn) ∧
      t.fld.key.cmd.map (fun c => (c.1, c.2.1)) = some (0xC8, [txnNext s.fld.key.txn, 0]) ∧
      t.key = s.key ∧ t.hst = s.hst ∧ t.flash = s.flash ∧ t.pending = s.pending ∧
      RegsSame [F_KEY_STAT, F_KEY_TXN] s.fld t.fld := by
  have answer : keyAnswer s.key s.fld = some (0, d) := (keyAnswer_of_custom hcmd _).trans hreply
  have inTime : s.fld.now ≤ replyLimit s.fld := by
    rw [replyLimit_of_cmd hcmd]
    exact ht
  have sent := keyReplied_slotChecked habort hstep hcrc
  have goesOn : (keyReplied 0 d s.fld).key.op ≠ 0 := by
    rw [sent, keySend_key, pointerDie_key]
    exact hout.op
  have carrier : carrierOff (keyReplied 0 d s.fld) s.key = s.key := if_neg goesOn
  refine ⟨_, execKeyReply_of_answer hout answer inTime, ?_⟩
  dsimp only
  rw [carrier, sent, settle_key, keySend_key, pointerDie_key]
  refine ⟨rfl, ?_, rfl, ?_, rfl, rfl, rfl, rfl, rfl, ?_⟩
  · rw [settle_get _ _ (by decide) (by decide) (by decide), keySend_get, pointerDie_get_step hc]
  · rw [settle_rd_of_notMem _ (by decide), FieldDie.rd_eq (keySend_reg _ _ _ _), pointerDie_rd_txn]
  · exact ((pointerDie_regsSame s.fld).trans (.ofReg (keySend_reg _ _ _ _))).trans (settle_regsSame _)

theorem keyReply_header (hout : CommandOut s) (hop : s.fld.key.op = 1) (hpresent : s.key.present = true)
    (hstep : s.fld.key.step = 1) (hpart : s.fld.key.part = 4) (habort : s.fld.key.abort = false)
    (hstrap : hasBit s.fld.straps 1 = false) (huid : s.fld.key.uid = s.key.uid)
    (ht : s.fld.now ≤ s.fld.key.sentAt + 20 * msTicks) (hpage : s.fld.key.page = 0)
    (hcmd : s.fld.key.cmd = some (0x33, args, data)) :
    ∃ t, exec .keyReply s = .next t ∧ t.fld.key.op = 0 ∧ t.fld.key.cmd = none ∧ t.fld.get F_KEY_STAT_busy = 0 ∧
      t.fld.get F_KEY_RESULT_code = 0 ∧ t.key = { s.key with buffer := [] } ∧
      t.hst = s.hst ∧ t.flash = s.flash ∧ t.pending = s.pending ∧ RegsSame [F_KEY_STAT, F_KEY_RESULT] s.fld t.fld := by
  have takes : keyTakes s.fld s.key = true := by
    simp [keyTakes, carrierOn_of_running hstrap hout.running hout.op, hpresent, huid]
  have inTime : s.fld.now ≤ replyLimit s.fld := by
    rw [replyLimit_of_cmd hcmd]
    exact ht
  have reading : keyCommitting s.fld = false := by simp [keyCommitting, hop]
  have ended := (keyReplied_header habort hstep hpart reading
    (s.key.bytes (32 * args.getD 0 0) (32 * args.getD 1 0))).trans (keyEnd_of_read reading 0 0)
  have record := keyEnded_key 0 0 s.fld
  refine ⟨_, execKeyReply_of_answer hout (keyAnswer_of_read hcmd takes) inTime, ?_⟩
  dsimp only
  rw [ended]
  have carrier : carrierOff (keyEnded 0 0 s.fld) s.key = { s.key with buffer := [] } := if_pos (by rw [record]; rfl)
  refine ⟨?_, ?_, ?_, ?_, carrier, rfl, rfl, rfl, ?_⟩
  · rw [settle_key, record]
    rfl
  · rw [settle_key, record]
    rfl
  · rw [settle_get _ _ (by decide) (by decide) (by decide), keyEnded_get_busy]
  · rw [settle_get _ _ (by decide) (by decide) (by decide),
      keyEnded_get_code (by decide) (by omega) (by decide) (by omega)]
  · exact (keyEnded_regsSame (by decide) (by decide) 0 0 s.fld).trans (settle_regsSame _)

theorem keyReplyTimeout_repeats (hout : CommandOut s) (habort : s.fld.key.abort = false)
    (hcmd : s.fld.key.cmd = some (c, args, data))
    (ht : s.fld.key.sentAt + (if c = 0xC6 then 80 else 20) * msTicks ≤ s.fld.now)
    (hleft : s.fld.key.tries < s.fld.get F_KEY_CFG_retries) :
    ∃ t, exec .keyReplyTimeout s = .next t ∧ t.fld.key.cmd = some (c, args, data) ∧ t.fld.key.reply = none ∧
      Output.keyCommand c (sentWords c args s.fld.key.uid) data ∈ t.fld.out ∧
      FieldFrame [] { s.fld with key := { s.fld.key with
        tries := s.fld.key.tries + 1, reply := none, sentAt := s.fld.now } } s t := by
  have sent := keySilent_of_left habort hcmd hleft
  have record : (keySilent s.fld).key =
      { s.fld.key with tries := s.fld.key.tries + 1, reply := none, sentAt := s.fld.now } := by
    rw [sent, keySend_key, ← hcmd]
    rfl
  have moves : ReaderMoves [] s.fld (keySilent s.fld) := by
    rw [sent]
    exact (s.fld.setKey_readerMoves _).trans (keySend_moves c args data _)
  have out : Output.keyCommand c (sentWords c args s.fld.key.uid) data ∈ (keySilent s.fld).out := by
    rw [sent]
    exact keySend_mem_out c args data _
  have goesOn : (keySilent s.fld).key.op ≠ 0 := by
    rw [record]
    exact hout.op
  refine ⟨_, (execKeyReplyTimeout_of_late hout hcmd ht).trans (State.keyMayStop_of_goesOn goesOn), ?_, ?_,
    settle_mem_out out, moves.frame record⟩
  · rw [settle_key, record, ← hcmd]
  · rw [settle_key, record]

theorem keyReplyTimeout_ends (hout : CommandOut s) (habort : s.fld.key.abort = false)
    (hcmd : s.fld.key.cmd = some (c, args, data))
    (ht : s.fld.key.sentAt + (if c = 0xC6 then 80 else 20) * msTicks ≤ s.fld.now)
    (hspent : s.fld.get F_KEY_CFG_retries ≤ s.fld.key.tries) (hstep : s.fld.key.step < 16) (hpage : s.fld.key.page < 256) :
    ∃ t, exec .keyReplyTimeout s = .next t ∧ SilentEnd s.fld t.fld ∧ t.key = (keyCut s.fld s.key).2 ∧
      t.hst = s.hst ∧ t.flash = s.flash ∧ t.pending = s.pending := by
  have ends := keySilent_silentEnd habort hspent hstep hpage
  obtain ⟨ctr, hcut⟩ := keyCut_freeOnly s.fld s.key
  have atCut : SilentEnd { s.fld with freeCtr := ctr } (keySilent { s.fld with freeCtr := ctr }) :=
    keySilent_silentEnd habort hspent hstep hpage
  have shown := atCut.settled
  refine ⟨_, (execKeyReplyTimeout_of_late hout hcmd ht).trans (State.keyMayStop_of_ends hout.op ends.op), ?_, rfl, rfl, rfl, rfl⟩
  dsimp only
  rw [hcut]
  exact ⟨shown.op, shown.busy, shown.code, shown.regs⟩

/-! ### The statement -/

/-- Settles O28: an answer is one `keyReplied`, silence one `keySilent`, and what the key keeps of its memory is read off
`keyCutIn`. -/
theorem keyAnswersHold : Obligations.KeyAnswers := by
  unfold Obligations.KeyAnswers
  refine ⟨fun s args data d hr he hc hstep habort hcmd hreply hcrc ht => ?_,
    fun s args data hr he hpresent hop hstep hpart habort hstrap huid ht hpage hcmd => ?_,
    fun s c args data hr he hop habort hcmd ht hleft => ?_,
    fun s c args data hr he hop habort hcmd hlen ht hspent hstep hpage => ?_⟩
  · have busy : s.fld.key.op ≠ 0 := fun h0 => by simp [keyCommitting, h0] at hc
    exact keyReply_slotChecked ⟨hr, he, busy⟩ hc hstep habort hcmd hreply hcrc ht
  · exact keyReply_header ⟨hr, he, by omega⟩ hop hpresent hstep hpart habort hstrap huid ht hpage hcmd
  · exact keyReplyTimeout_repeats ⟨hr, he, hop⟩ habort hcmd ht hleft
  · obtain ⟨t, hexec, ended, hkey, hhst, hflash, hpending⟩ :=
      keyReplyTimeout_ends ⟨hr, he, hop⟩ habort hcmd ht hspent hstep hpage
    refine ⟨t, hexec, ended.op, ended.busy, ended.code, fun h4 h8 => ?_, fun hc a ha hrec => ?_, fun hc a ha hrec => ?_,
      by rw [hkey]; rfl, hhst, hflash, hpending, ended.regs⟩
    · rw [hkey, keyCut_mem (by simp [keyStill, hcmd, h4, h8])]
    · subst hc
      rw [hkey, keyCut_byte hcmd (keyCutIn_page_byte ha hrec _ _)]
    · subst hc
      rw [hkey, keyCut_byte hcmd (keyCutIn_pointer_byte hlen ha hrec _ _)]

end Sys2Proof.Machine
end

section
/-! Words of table entries (O25): the clause of an entry that is not valid does not hold of every state. It lets nothing
without a register move but the proof's and the bad words' records, and on an ACTIVE part a word of the filtering database
joins the queue of the state record as well (R424, R645). -/

namespace Sys2Proof.Machine

/-- A running die of an ACTIVE part, its filtering database empty. -/
def activePart : State := { fld := { phase := .running, reg := [(F_TWN_STAT, 0x20000000)] } }

/-- The filtering database's row of the tables. -/
def fdbRow : TblRow := ⟨0x480000, 4, 16448, 1, 0x50000, .swept⟩

/-- Word 1 of entry 0 is stored, and its entry joins the queue. -/
theorem tableWrite_activePart_fdbq :
    (tableWrite 0x40 0x480004 0 activePart.fld.napBreak).twn.fdbq = [(0, true)] := by decide +kernel

/-- Refutes O25, by its clause of an entry that is not valid: the state record's queue grows by the entry. -/
theorem not_tableEntriesByWord : ¬ Obligations.TableEntriesByWord := by
  unfold Obligations.TableEntriesByWord
  rintro ⟨stored, -⟩
  obtain ⟨t, ht, -, -, frame⟩ := stored activePart 0x40 0x480004 0 fdbRow rfl rfl (by decide) (by decide) (by decide)
    (by decide) (by decide) (by decide +kernel)
  obtain rfl := next_unique ht (State.onWrite_of_canWrite rfl)
  have queue := congrArg (fun f : FieldDie => f.twn.fdbq) frame.rest
  dsimp only [FieldDie.rest, FieldDie.core] at queue
  rw [settle_twn] at queue
  have grown := tableWrite_activePart_fdbq.symm.trans queue
  cases grown

end Sys2Proof.Machine
end

section
/-! What a register command moves: registers and what waits to be sent, beside the records that it names. -/

namespace Sys2Proof.Machine

variable {but : List Nat} {f g h f' : FieldDie} {s : State} {req : Nat}

/-- From `f` to `g` the listed registers, the time of quiet before NAP and what waits to be sent have at most moved. -/
structure SoftMoves (but : List Nat) (f g : FieldDie) : Prop where
  rest : g.rest = f.rest
  send : SendSame f g
  regs : RegsSame but f g

theorem SoftMoves.refl (but : List Nat) (f : FieldDie) : SoftMoves but f f := ⟨rfl, .ofEq rfl rfl rfl, .ofReg rfl⟩

theorem SoftMoves.trans (a : SoftMoves but f g) (b : SoftMoves but g h) : SoftMoves but f h :=
  ⟨b.rest.trans a.rest, a.send.trans b.send, a.regs.trans b.regs⟩

theorem FieldDie.wrN_softMoves {a : Nat} (ha : a ∈ but) (f : FieldDie) (v : Nat) : SoftMoves but f (f.wrN a v) :=
  ⟨rfl, .ofEq rfl rfl rfl, f.wrN_regsSame ha v⟩

theorem FieldDie.put_softMoves {r : Fld} (hr : r.addr ∈ but) (f : FieldDie) (v : Nat) : SoftMoves but f (f.put r v) :=
  f.wrN_softMoves hr _

theorem FieldDie.bump_softMoves {r : Fld} (hr : r.addr ∈ but) (f : FieldDie) (n : Nat) : SoftMoves but f (f.bump r n) :=
  f.put_softMoves hr _

theorem FieldDie.raise_softMoves {a : Nat} (ha : a ∈ but) (f : FieldDie) (bit : Nat) : SoftMoves but f (f.raise a bit) where
  rest := by
    unfold FieldDie.rest
    rw [FieldDie.raise_core, FieldDie.raise_pwr]
  send := f.raise_sendSame a bit
  regs := f.raise_regsSame ha bit

theorem FieldDie.napBreak_softMoves (f : FieldDie) : SoftMoves but f f.napBreak := ⟨rfl, .ofEq rfl rfl rfl, .ofReg rfl⟩

/-- What such moves leave at the end of their command. They start at a die with the command's registers. -/
theorem SoftMoves.frame (m : SoftMoves but f' g) (hreg : f'.reg = s.fld.reg) :
    FieldFrame but f' s { s with fld := settle g } where
  only := ⟨rfl, rfl, rfl, rfl⟩
  rest := by
    have settled : (settle g).rest = g.rest := by simp only [FieldDie.rest, settle_core, settle_pwr]
    exact settled.trans m.rest
  cnts a h0 h14 ht := (settle_cntAt g h0 h14 ht).trans (m.send.cnt a h0 h14 ht)
  queued := (settle_queued g).trans (congrArg BufX.queued m.send.buf)
  waiting := (settle_waiting g).trans (congrArg BufX.waiting m.send.buf)
  regs := (RegsSame.ofReg hreg).trans (m.regs.trans (settle_regsSame g))

theorem SoftMoves.rd_eq (m : SoftMoves but f g) {a : Nat} (ha : a ∉ but) (hc : a ∉ coverRegs) : g.rd a = f.rd a :=
  m.regs a ha hc

theorem SoftMoves.get_eq (m : SoftMoves but f g) {r : Fld} (ha : r.addr ∉ but) (hc : r.addr ∉ coverRegs) : g.get r = f.get r :=
  FieldDie.get_eq r (m.regs _ ha hc)

/-! ### Reads at the end of a command -/

theorem settle_get_of_notMem {r : Fld} (hc : r.addr ∉ coverRegs) : (settle g).get r = g.get r :=
  FieldDie.get_eq r (settle_rd_of_notMem g hc)

theorem settle_sq_of_notMem {a b : Nat} (hc : a ∉ coverRegs) : (settle g).sq a b = g.sq a b :=
  FieldDie.sq_eq (settle_rd_of_notMem g hc)

theorem settle_rdN_of_notMem {a : Nat} (hc : a ∉ coverRegs) : (settle g).rdN a = g.rdN a :=
  congrArg BitVec.toNat (settle_rd_of_notMem g hc)

theorem FieldDie.get_raise_ne (f : FieldDie) {r : Fld} {a b : Nat} (ha : r.addr ≠ a) (hx : r.addr ≠ F_XNG_EVT) :
    (f.raise a b).get r = f.get r := FieldDie.get_eq r (f.raise_rd a b _ ha hx)

/-- A field that is the whole word of its register reads as the register. -/
theorem FieldDie.rdN_eq_get_word (f : FieldDie) (a : Nat) : f.rdN a = f.get ⟨a, 31, 0⟩ := by
  have small : f.rdN a < 2 ^ 32 := f.rdN_lt a
  exact (Nat.mod_eq_of_lt small).symm

/-! ### Refused accesses (R243, R246, R279) -/

theorem noteAccess_softMoves (hi : F_CFG_EVT_INFO ∈ but) (addr : Nat) (f : FieldDie) : SoftMoves but f (noteAccess req addr f) :=
  (f.put_softMoves hi _).trans (FieldDie.put_softMoves hi _ _)

theorem noteAccess_requester (hr : req < 256) (addr : Nat) (f : FieldDie) :
    (noteAccess req addr f).get F_CFG_EVT_INFO_requester = req := by
  unfold noteAccess
  rw [FieldDie.get_put_field _ F_CFG_EVT_INFO_addr F_CFG_EVT_INFO_requester _ rfl (by decide) (by decide) (.inl (by decide)),
    FieldDie.get_put _ _ _ (by decide) (by decide)]
  exact Nat.mod_eq_of_lt hr

theorem noteAccess_addr {addr : Nat} (ha : addr < 2 ^ 24) (f : FieldDie) :
    (noteAccess req addr f).get F_CFG_EVT_INFO_addr = addr := by
  unfold noteAccess
  rw [FieldDie.get_put _ _ _ (by decide) (by decide)]
  exact Nat.mod_eq_of_lt ha

/-- The requester and address that a refusal of flag `b` leaves in F_CFG_EVT_INFO. -/
theorem get_raise_cfgEvt {r : Fld} (hr : r.addr = F_CFG_EVT_INFO) (f : FieldDie) (b : Nat) :
    (f.raise F_CFG_EVT b).get r = f.get r :=
  f.get_raise_ne (by rw [hr]; decide) (by rw [hr]; decide)

theorem lkReject_softMoves (hi : F_CFG_EVT_INFO ∈ but) (hr : F_CFG_LK_REJ ∈ but) (he : F_CFG_EVT ∈ but) (addr : Nat)
    (f : FieldDie) : SoftMoves but f (lkReject req addr f) :=
  ((noteAccess_softMoves hi addr f).trans (FieldDie.bump_softMoves hr _ _)).trans (FieldDie.raise_softMoves he _ _)

theorem lkReject_raises (addr : Nat) (f : FieldDie) : (lkReject req addr f).sq F_CFG_EVT 4 = true :=
  FieldDie.raise_sq _ _ _ (by decide) (by decide)

/-- The die of a refused access whose refusal is counted. -/
abbrev countedAccess (req addr : Nat) (f : FieldDie) : FieldDie := (noteAccess req addr f).bump F_CFG_LK_REJ_count 1

theorem lkReject_info {r : Fld} (hr : r.addr = F_CFG_EVT_INFO) (addr : Nat) (f : FieldDie) :
    (lkReject req addr f).get r = (noteAccess req addr f).get r := by
  have counted : (countedAccess req addr f).get r = (noteAccess req addr f).get r :=
    FieldDie.get_put_addr _ _ _ _ (by rw [hr]; decide)
  exact (get_raise_cfgEvt hr _ _).trans counted

theorem lkReject_count (addr : Nat) (f : FieldDie) :
    (lkReject req addr f).rdN F_CFG_LK_REJ = (f.rdN F_CFG_LK_REJ + 1) % 2 ^ 32 := by
  have noted : (noteAccess req addr f).get F_CFG_LK_REJ_count = f.get F_CFG_LK_REJ_count :=
    (FieldDie.get_put_addr _ _ _ _ (by decide)).trans (FieldDie.get_put_addr _ _ _ _ (by decide))
  have raised : (lkReject req addr f).get F_CFG_LK_REJ_count = (countedAccess req addr f).get F_CFG_LK_REJ_count :=
    FieldDie.get_raise_ne _ (by decide) (by decide)
  rw [FieldDie.rdN_eq_get_word, FieldDie.rdN_eq_get_word]
  refine raised.trans ?_
  rw [countedAccess, FieldDie.bump, FieldDie.get_put _ _ _ (by decide) (by decide), noted]
  rfl

end Sys2Proof.Machine
end

section
/-! The release of a lock (O20, R279). -/

namespace Sys2Proof.Machine

variable {s : State} {f : FieldDie} {req n : Nat}

theorem execLockRelease_of_canWrite (hw : s.fld.canWrite req = true) (hn : n < 32) :
    exec (.lockRelease req n) s = .next { s with fld := settle (releaseLock req n s.fld.napBreak) } := by
  refine (State.onWrite_of_canWrite hw).trans ?_
  rw [if_pos hn]

theorem lockRegister_notMem_coverRegs (hn : n < 32) : F_CFG_LOCK n ∉ coverRegs := by
  intro h
  simp only [coverRegs, F_CFG_LOCK, F_FLT_COVER, F_FLT_EVT2, F_XNG_EVT, List.mem_cons, List.not_mem_nil, or_false] at h
  omega

/-- The lock's owner gives it up. -/
def freedLock (n : Nat) (f : FieldDie) : FieldDie := (f.put (F_CFG_LOCK_state n) 0).put (F_CFG_LOCK_owner n) 0xFF

theorem releaseLock_of_owner (hheld : lockState f n = 1) (hown : f.get (F_CFG_LOCK_owner n) = req) :
    releaseLock req n f = freedLock n f := if_pos ⟨hheld, hown⟩

theorem releaseLock_of_other (hn : n < 32) (h : lockState f n ≠ 1 ∨ f.get (F_CFG_LOCK_owner n) ≠ req) :
    releaseLock req n f = lkReject req (F_CFG_LOCK n) f := by
  unfold releaseLock
  rw [if_neg (by rintro ⟨hheld, hown⟩; exact h.elim (· hheld) (· hown)), if_pos hn]

theorem freedLock_softMoves (n : Nat) (f : FieldDie) : SoftMoves [F_CFG_LOCK n] f (freedLock n f) :=
  (FieldDie.put_softMoves (r := F_CFG_LOCK_state n) (List.mem_singleton.2 rfl) f 0).trans
    (FieldDie.put_softMoves (r := F_CFG_LOCK_owner n) (List.mem_singleton.2 rfl) _ _)

theorem freedLock_owner (n : Nat) (f : FieldDie) : (freedLock n f).get (F_CFG_LOCK_owner n) = 0xFF := by
  unfold freedLock
  rw [FieldDie.get_put _ _ _ (by simp [F_CFG_LOCK_owner]) (by simp [F_CFG_LOCK_owner])]
  rfl

/-- The other fields of the lock's register below or above the owner's are those of the die whose state is FREE. -/
theorem freedLock_get {r : Fld} (hr : r.addr = F_CFG_LOCK n) (hd : 23 < r.lo ∨ r.hi < 16) (f : FieldDie) :
    (freedLock n f).get r = (f.put (F_CFG_LOCK_state n) 0).get r :=
  FieldDie.get_put_field _ (F_CFG_LOCK_owner n) r _ hr (by simp [F_CFG_LOCK_owner]) (by simp [F_CFG_LOCK_owner]) hd

theorem freedLock_state (n : Nat) (f : FieldDie) : lockState (freedLock n f) n = 0 := by
  refine (freedLock_get (r := F_CFG_LOCK_state n) rfl (.inl (by simp [F_CFG_LOCK_state])) f).trans ?_
  rw [FieldDie.get_put _ _ _ (by simp [F_CFG_LOCK_state]) (by simp [F_CFG_LOCK_state])]
  exact Nat.zero_mod _

theorem freedLock_grants (n : Nat) (f : FieldDie) :
    (freedLock n f).get (F_CFG_LOCK_grants n) = f.get (F_CFG_LOCK_grants n) :=
  (freedLock_get (r := F_CFG_LOCK_grants n) rfl (.inr (by simp [F_CFG_LOCK_grants])) f).trans
    (FieldDie.get_put_field _ (F_CFG_LOCK_state n) (F_CFG_LOCK_grants n) _ rfl (by simp [F_CFG_LOCK_state])
      (by simp [F_CFG_LOCK_state]) (.inr (by simp [F_CFG_LOCK_state, F_CFG_LOCK_grants])))

/-- Settles O20: the owner's release is `freedLock`, every other one `lkReject`. -/
theorem lockReleaseByItsOwnerAlone : Obligations.LockReleaseByItsOwnerAlone := by
  unfold Obligations.LockReleaseByItsOwnerAlone
  refine ⟨fun s req n hw hn hheld hown => ⟨_, execLockRelease_of_canWrite hw hn, ?_⟩,
    fun s req n hw hn hr hother => ⟨_, execLockRelease_of_canWrite hw hn, ?_⟩⟩
  · have away : F_CFG_LOCK n ∉ coverRegs := lockRegister_notMem_coverRegs hn
    rw [releaseLock_of_owner (f := s.fld.napBreak) hheld hown]
    exact ⟨(settle_get_of_notMem away).trans (freedLock_state n _), (settle_get_of_notMem away).trans (freedLock_owner n _),
      (settle_get_of_notMem away).trans (freedLock_grants n _),
      (s.fld.napBreak_softMoves.trans (freedLock_softMoves n _)).frame rfl⟩
  · have moves : SoftMoves [F_CFG_LK_REJ, F_CFG_EVT, F_CFG_EVT_INFO] s.fld (lkReject req (F_CFG_LOCK n) s.fld.napBreak) :=
      s.fld.napBreak_softMoves.trans (lkReject_softMoves (by decide) (by decide) (by decide) _ _)
    have apart : F_CFG_LOCK n ∉ [F_CFG_LK_REJ, F_CFG_EVT, F_CFG_EVT_INFO] := by
      intro h
      simp only [F_CFG_LOCK, F_CFG_LK_REJ, F_CFG_EVT, F_CFG_EVT_INFO, List.mem_cons, List.not_mem_nil, or_false] at h
      omega
    have small : F_CFG_LOCK n < 2 ^ 24 := by
      simp only [F_CFG_LOCK]
      omega
    have frame := moves.frame (s := s) rfl
    rw [releaseLock_of_other (f := s.fld.napBreak) hn hother]
    refine ⟨frame.regs _ apart (lockRegister_notMem_coverRegs hn), ?_, ?_, ?_, ?_, frame⟩
    · exact (settle_sq_of_notMem (by decide)).trans (lkReject_raises _ _)
    · exact (settle_rdN_of_notMem (by decide)).trans (lkReject_count _ _)
    · exact (settle_get_of_notMem (by decide)).trans ((lkReject_info rfl _ _).trans (noteAccess_requester hr _ _))
    · exact (settle_get_of_notMem (by decide)).trans ((lkReject_info rfl _ _).trans (noteAccess_addr small _))

end Sys2Proof.Machine
end

section
/-! Register messages (O50), frames of the host rings (O54) and perturbation (O60): none of the three holds of every state,
each by a clause of the host die that does not ask that the frame being sent names an engine that exists. The end of
one that names another writes its check value over a register of the clause. -/

namespace Sys2Proof.Machine

/-- A host die out of reset, on whose link, which is up, the last unit of a frame waits. The frame names engine `n`. -/
def strayEngineHost (n : Nat) : HostDie :=
  { inReset := false
    xng := { phase := 3 }
    sending := some { qp := 1, chk := some (n, 0, 0), unitsLeft := [{}] } }

/-! ### The aperture's status (O50) -/

/-- A read of function 1 has been out for 50 us, and the frame names the engine whose running value would stand at the
function's H_XNG_AP_STAT. -/
def lateReadState : State :=
  { fld := { tim := { c := 6250 } }
    hst := { strayEngineHost 0x588 with reads := [(0, 1)] } }

theorem lateRead_register : H_CHK_RUN_LO 0x588 = H_XNG_AP_STAT 1 := rfl

theorem lateRead_flag_lost :
    (settleHost (apertureReadTimeout 0 lateReadState.hostNow)).flag (H_XNG_AP_STAT_timeout 1) = false := by decide +kernel

/-- Refutes O50, by its clause of a read that times out: its flag is not set afterwards. -/
theorem not_registerMessagesCross : ¬ Obligations.RegisterMessagesCross := by
  unfold Obligations.RegisterMessagesCross
  rintro ⟨-, -, timeout, -⟩
  obtain ⟨t, ht, -, hflag, -⟩ := timeout lateReadState 0 1 rfl rfl (by decide)
  obtain rfl := next_unique ht (State.onHost_of_out rfl)
  dsimp only at hflag
  rw [lateRead_flag_lost] at hflag
  cases hflag

/-! ### The head of a ring (O54) -/

/-- One descriptor is posted on ring 0 of function 0, which may fetch it, and the frame names the engine whose running value
would stand at the ring's head. -/
def fetchState : State :=
  { hst :=
    { strayEngineHost 0x7FD01 with
      bme := [0]
      reg := [(H_FUN_FN_QP 0, 1), (H_FUN_Q_CTRL 0, 0xA0000000), (H_FUN_Q_TXTAIL 0, 1)] } }

/-- A last descriptor of no bytes. -/
def emptyDesc : List Byte := [0, 0, 0, 0, 0, 0, 0, 0, 0, 0, 1, 0]

theorem fetchState_register : H_CHK_RUN_LO 0x7FD01 = H_FUN_Q_TXHEAD 0 := rfl

theorem emptyDesc_bad : badDescs [emptyDesc] (fetchState.hst.flag (H_FUN_FN_CFG_directed_ok 0)) (chkBad fetchState.hst 0) = true := by
  decide +kernel

theorem fetch_head_lost : (settleHost (txFetchDone 0 [emptyDesc] [] fetchState.hostNow)).rdN (H_FUN_Q_TXHEAD 0) = 0 := by
  decide +kernel

theorem fetchState_head : fetchState.hst.rdN (H_FUN_Q_TXHEAD 0) = 0 := by decide +kernel

/-- Refutes O54, by its clause of a frame with bad descriptors: its ring's head does not count the descriptor. -/
theorem not_hostFramesMoveInTheirRings : ¬ Obligations.HostFramesMoveInTheirRings := by
  unfold Obligations.HostFramesMoveInTheirRings
  rintro ⟨fetch, -⟩
  obtain ⟨t, ht, -, hbad, -⟩ := fetch fetchState 0 0 [emptyDesc] [] rfl (by decide +kernel) (by decide +kernel)
    (by decide +kernel) (by decide +kernel)
  obtain rfl := next_unique ht (State.onHost_of_out rfl)
  obtain ⟨hhead, -⟩ := hbad emptyDesc_bad (by decide +kernel) rfl
  dsimp only at hhead
  rw [fetch_head_lost, fetchState_head] at hhead
  cases hhead

/-! ### The end of a lifetime (O60) -/

/-- The host die has been armed for its lifetime of 1 ms, and the frame names the engine whose finished value would stand at
H_PTB_EVT. -/
def lifeOverState : State :=
  { fld := { tim := { c := 125000 } }
    hst := { strayEngineHost 0x18B with reg := [(H_PTB_ARM, 0x8000), (H_PTB_LIFE, 1)] } }

theorem lifeOver_register : H_CHK_FIN_HI 0x18B = H_PTB_EVT := rfl

theorem lifeOver_due :
    (fun h : HostDie => h.flag H_PTB_ARM_armed && lifeOver lifeOverState.fld.now h.ptb.lifeFrom (h.get H_PTB_LIFE_life_ms))
      lifeOverState.hostNow = true := by decide +kernel

theorem lifeOver_event_lost : hasBit ((settleHost (endHostPtb 2 lifeOverState.hostNow)).rdN H_PTB_EVT) 1 = false := by
  decide +kernel

/-- Refutes O60, by its clause of the end of the host die's lifetime: its event is not there afterwards. -/
theorem not_perturbationForTest : ¬ Obligations.PerturbationForTest := by
  unfold Obligations.PerturbationForTest
  rintro ⟨-, -, -, -, -, -, -, -, -, -, -, -, -, -, -, hostLife, -⟩
  obtain ⟨t, ht, -, hevent, -⟩ := hostLife lifeOverState rfl (by decide +kernel) (by decide +kernel)
  obtain rfl := next_unique ht (State.onHost_of_out rfl)
  dsimp only at hevent
  rw [if_pos lifeOver_due, lifeOver_event_lost] at hevent
  cases hevent

end Sys2Proof.Machine
end

section
/-! Steps, sets and frequencies of the two domains (O37): what each write asks for, and what a refusal reports. -/

namespace Sys2Proof.Machine

variable {but : List Nat} {f g : FieldDie} {s : State} {req d : Nat}

/-- Dies that differ in the time of quiet before NAP alone. -/
theorem SoftMoves.ofQuiet (hrest : g.rest = f.rest) (hbuf : g.buf = f.buf) (hout : g.out = f.out) (hcnt : g.cnt = f.cnt)
    (hreg : g.reg = f.reg) : SoftMoves but f g :=
  ⟨hrest, .ofEq hbuf hout hcnt, .ofReg hreg⟩

theorem unlessStandby_of_role {k : FieldDie → FieldDie} (h : f.role ≠ 3) : unlessStandby d k f = k f := if_neg h

theorem unlessStandby_of_standby {k : FieldDie → FieldDie} (h : f.role = 3) : unlessStandby d k f = timeEvt 10 d f := if_pos h

/-! ### Events of time -/

theorem timeEvt_softMoves (hi : F_TIM_EVT_INFO ∈ but) (he : F_TIM_EVT ∈ but) (bit index : Nat) (f : FieldDie) :
    SoftMoves but f (timeEvt bit index f) :=
  (f.put_softMoves (r := F_TIM_EVT_INFO_index) hi _).trans (FieldDie.raise_softMoves he _ _)

theorem timeEvt_raises {bit : Nat} (hb : bit < 16) (index : Nat) (f : FieldDie) : (timeEvt bit index f).sq F_TIM_EVT bit = true :=
  FieldDie.raise_sq _ _ _ (by decide) hb

theorem timeEvt_index {index : Nat} (hi : index < 16) (bit : Nat) (f : FieldDie) :
    (timeEvt bit index f).get F_TIM_EVT_INFO_index = index := by
  have kept : (timeEvt bit index f).get F_TIM_EVT_INFO_index = (f.put F_TIM_EVT_INFO_index index).get F_TIM_EVT_INFO_index :=
    FieldDie.get_raise_ne _ (by decide) (by decide)
  rw [kept, FieldDie.get_put _ _ _ (by decide) (by decide)]
  exact Nat.mod_eq_of_lt hi

/-- A refusal with set_rejected, at the end of its command. -/
theorem timeRejected {f' : FieldDie} (m : SoftMoves [F_TIM_EVT_INFO, F_TIM_EVT] f' f) (hreg : f'.reg = s.fld.reg) :
    (settle (timeEvt 10 0 f)).sq F_TIM_EVT 10 = true ∧ (settle (timeEvt 10 0 f)).get F_TIM_EVT_INFO_index = 0 ∧
      FieldFrame [F_TIM_EVT_INFO, F_TIM_EVT] f' s { s with fld := settle (timeEvt 10 0 f) } :=
  ⟨(settle_sq_of_notMem (by decide)).trans (timeEvt_raises (by decide) 0 f),
    (settle_get_of_notMem (by decide)).trans (timeEvt_index (by decide) 10 f),
    (m.trans (timeEvt_softMoves (by decide) (by decide) 10 0 f)).frame hreg⟩

/-! ### Steps (R539, R540) -/

/-- The register whose write steps domain `d`. -/
def stepReg (d : Nat) : Nat := if d = 0 then F_TIM_A_STEP else F_TIM_B_STEP

theorem writeStep_of_denied (h : lkDenied f req (stepReg d) = true) (data : Nat) :
    writeStep req d data f = lkReject req (stepReg d) f := if_pos h

theorem writeStep_of_granted (h : lkDenied f req (stepReg d) = false) (data : Nat) :
    writeStep req d data f = unlessStandby d (askStep d (toSigned 32 data)) f := if_neg (by simpa [stepReg] using h)

theorem step_asked (hw : s.fld.canWrite req = true) (hl : lkDenied s.fld req (stepReg d) = false) (hr : s.fld.role ≠ 3)
    (data : Nat) : s.onWrite req (writeStep req d data) =
      .next { s with fld := settle (askStep d (toSigned 32 data) s.fld.napBreak) } := by
  rw [State.onWrite_of_canWrite hw, writeStep_of_granted (f := s.fld.napBreak) hl,
    unlessStandby_of_role (f := s.fld.napBreak) hr]

theorem askStep_A_moves (v : Int) (f : FieldDie) :
    SoftMoves but { f with tim := { f.tim with aStep := some (f.tim.aStep.getD 0 + v) } } (askStep 0 v f.napBreak) :=
  .ofQuiet rfl rfl rfl rfl rfl

theorem askStep_B_moves (v : Int) (f : FieldDie) :
    SoftMoves but { f with tim := { f.tim with bStep := some (f.tim.bStep.getD 0 + v) } } (askStep 1 v f.napBreak) :=
  .ofQuiet rfl rfl rfl rfl rfl

/-! ### Sets (R250, R539) -/

/-- The words of a set of A and of B's off. -/
def aSetRegs : List Nat := [F_TIM_A_SET_NS, F_TIM_A_SET_SEC_LO, F_TIM_A_SET_SEC_HI]
def bOffRegs : List Nat := [F_TIM_B_OFF_NS, F_TIM_B_OFF_SEC_LO, F_TIM_B_OFF_SEC_HI]

/-- The time that a set of A asks for. -/
def aSetAsked (req data : Nat) (f : FieldDie) : Nat :=
  timeOf (stagedOrZero f req F_TIM_A_SET_NS) (stagedOrZero f req F_TIM_A_SET_SEC_LO) data

/-- The off that a write of B's off asks for. -/
def bSetAsked (req data : Nat) (f : FieldDie) : Nat :=
  timeOf (stagedOr f req F_TIM_B_OFF_NS) (stagedOr f req F_TIM_B_OFF_SEC_LO) data

/-- Dies for which a set of A, or of B's off, waits. -/
def aSetDie (req data : Nat) (f : FieldDie) : FieldDie :=
  { clearStaged req aSetRegs f with tim := { f.tim with aSet := some (aSetAsked req data f) } }
def bSetDie (req data : Nat) (f : FieldDie) : FieldDie :=
  { clearStaged req bOffRegs f with tim := { f.tim with bSet := some (bSetAsked req data f) } }

theorem writeASet_of_granted {data : Nat} (hl : lkDenied f req F_TIM_A_SET_SEC_HI = false) (hr : f.role ≠ 3) :
    writeASet req data f = aSetDie req data f := by
  unfold writeASet
  rw [if_neg (by simp [hl])]
  exact unlessStandby_of_role (f := clearStaged req aSetRegs f) hr

theorem writeBOff_of_role {data : Nat} (hr : f.role ≠ 3) : writeBOff req data f = bSetDie req data f := by
  unfold writeBOff
  exact unlessStandby_of_role (f := clearStaged req bOffRegs f) hr

theorem aSet_moves (req data : Nat) (f : FieldDie) : SoftMoves but (aSetDie req data f) (aSetDie req data f.napBreak) :=
  .ofQuiet rfl rfl rfl rfl rfl

theorem bSet_moves (req data : Nat) (f : FieldDie) : SoftMoves but (bSetDie req data f) (bSetDie req data f.napBreak) :=
  .ofQuiet rfl rfl rfl rfl rfl

/-! ### Increments and rates (R534, R536) -/

theorem stagedOr_lt (f : FieldDie) (req addr : Nat) : stagedOr f req addr < 2 ^ 32 := by
  unfold stagedOr
  split
  · exact BitVec.isLt _
  · exact f.rdN_lt addr

theorem setInc_softMoves (hl : F_TIM_A_INC_LO ∈ but) (hh : F_TIM_A_INC_HI ∈ but) (v : Nat) (f : FieldDie) :
    SoftMoves but f (setInc v f) := (f.wrN_softMoves hl _).trans (FieldDie.wrN_softMoves hh _ _)

theorem FieldDie.rdN_wrN_same {v : Nat} (hv : v < 2 ^ 32) (f : FieldDie) (a : Nat) : (f.wrN a v).rdN a = v :=
  FieldDie.rdN_of_rd ((f.rd_wrN a a v).trans (if_pos rfl)) hv

theorem FieldDie.rdN_wrN_ne {a b : Nat} (h : b ≠ a) (f : FieldDie) (v : Nat) : (f.wrN a v).rdN b = f.rdN b :=
  congrArg BitVec.toNat ((f.rd_wrN a b v).trans (if_neg h))

/-- An increment of 36 bits reads as it was set. -/
theorem incOf_setInc {v : Nat} (hv : v < 2 ^ 36) (f : FieldDie) : incOf (setInc v f) = v := by
  have lo : (setInc v f).rdN F_TIM_A_INC_LO = v % 2 ^ 32 :=
    (FieldDie.rdN_wrN_ne (by decide) _ _).trans (FieldDie.rdN_wrN_same (Nat.mod_lt _ (by decide)) _ _)
  have hi : (setInc v f).rdN F_TIM_A_INC_HI = v / 2 ^ 32 % 16 := FieldDie.rdN_wrN_same (by omega) _ _
  have int : (setInc v f).get F_TIM_A_INC_HI_int = v / 2 ^ 32 % 16 := by
    refine (congrArg (fun w => bitsOf w 3 0) hi).trans ?_
    exact (Nat.mod_eq_of_lt (by simp only [Nat.shiftRight_zero]; omega)).trans (Nat.shiftRight_zero)
  unfold incOf
  rw [lo, int]
  omega

theorem incOf_settle (f : FieldDie) : incOf (settle f) = incOf f := by
  unfold incOf
  rw [settle_rdN_of_notMem (by decide), settle_get_of_notMem (by decide)]

/-- An increment that is not taken. -/
def incRefused (f : FieldDie) (v : Nat) : Prop :=
  v * 1000 < 7875 * 2 ^ 32 ∨ 8125 * 2 ^ 32 < v * 1000 ∨ (steeredBy f 0).isSome

/-- The die whose increment's staged words a write has taken. -/
def incTaken (req : Nat) (f : FieldDie) : FieldDie := clearStaged req [F_TIM_A_INC_LO, F_TIM_A_INC_HI] f

/-- The increment that a write asks for. -/
def incAsked (req data : Nat) (f : FieldDie) : Nat := stagedOr f req F_TIM_A_INC_LO + 2 ^ 32 * (data % 16)

theorem incAsked_lt (req data : Nat) (f : FieldDie) : incAsked req data f < 2 ^ 36 := by
  have word := stagedOr_lt f req F_TIM_A_INC_LO
  unfold incAsked
  omega

theorem incTaken_moves (req : Nat) (f : FieldDie) : SoftMoves but (incTaken req f) (incTaken req f.napBreak) :=
  .ofQuiet rfl rfl rfl rfl rfl

theorem writeInc_of_refused {data : Nat} (hr : f.role ≠ 3) (h : incRefused f (incAsked req data f)) :
    writeInc req data f = timeEvt 10 0 (incTaken req f) := by
  unfold writeInc
  refine (unlessStandby_of_role (f := incTaken req f) hr).trans ?_
  exact if_pos h

theorem writeInc_of_taken {data : Nat} (hr : f.role ≠ 3) (h : ¬incRefused f (incAsked req data f)) :
    writeInc req data f = setInc (incAsked req data f) (incTaken req f) := by
  unfold writeInc
  refine (unlessStandby_of_role (f := incTaken req f) hr).trans ?_
  exact if_neg h

/-- The registers that a change of B's rate moves. -/
def rateRegs : List Nat :=
  [F_TIM_B_OFF_NS, F_TIM_B_OFF_SEC_LO, F_TIM_B_OFF_SEC_HI, F_TIM_B_ANCHOR_LO, F_TIM_B_ANCHOR_HI, F_TIM_B_RATE]

theorem setBOff_softMoves (hn : F_TIM_B_OFF_NS ∈ but) (hl : F_TIM_B_OFF_SEC_LO ∈ but) (hh : F_TIM_B_OFF_SEC_HI ∈ but) (v : Nat)
    (f : FieldDie) : SoftMoves but { f with tim := { f.tim with bOff := v } } (setBOff v f) :=
  ((FieldDie.wrN_softMoves hn _ _).trans (FieldDie.wrN_softMoves hl _ _)).trans (FieldDie.wrN_softMoves hh _ _)

/-- What B's off becomes where its rate changes: all that the old rate has added by now is in it. -/
def rateOff (f : FieldDie) : Nat := domWrap ((f.tim.bOff : Int) + f.bDrift)

/-- A die whose B has taken what its rate has added. -/
def rateDie (f : FieldDie) : FieldDie := { f with tim := { f.tim with bOff := rateOff f } }

theorem rateDie_bOff (f : FieldDie) : (rateDie f).tim.bOff = domWrap ((f.tim.bOff : Int) + f.bDrift) := rfl

theorem rateDie_c (f : FieldDie) : (rateDie f).tim.c = f.tim.c := rfl

theorem rateDie_moves (f : FieldDie) : SoftMoves but (rateDie f) (rateDie f.napBreak) := .ofQuiet rfl rfl rfl rfl rfl

theorem word_toNat (w : Word) : word w.toNat = w := (BitVec.ofNat_toNat 32 w).trans (BitVec.setWidth_eq w)

theorem setRate_softMoves (r : Nat) (f : FieldDie) : SoftMoves rateRegs (rateDie f) (setRate r f) :=
  (((setBOff_softMoves (by decide) (by decide) (by decide) (rateOff f) f).trans (FieldDie.wrN_softMoves (by decide) _ _)).trans
    (FieldDie.wrN_softMoves (by decide) _ _)).trans (FieldDie.wrN_softMoves (by decide) _ _)

theorem setRate_tim (r : Nat) (f : FieldDie) : (setRate r f).tim = (rateDie f).tim := rfl

theorem setRate_now (r : Nat) (f : FieldDie) : (setRate r f).now = f.now := by
  unfold FieldDie.now
  rw [setRate_tim, rateDie_c]

theorem setRate_rate (r : Nat) (f : FieldDie) : (setRate r f).rd F_TIM_B_RATE = word r :=
  (FieldDie.rd_wrN _ _ _ _).trans (if_pos rfl)

theorem setRate_anchor (hnow : f.now < 2 ^ 64) (r : Nat) : (setRate r f).anchor = f.now := by
  have lo : (setRate r f).rdN F_TIM_B_ANCHOR_LO = f.now % 2 ^ 32 :=
    ((FieldDie.rdN_wrN_ne (by decide) _ _).trans (FieldDie.rdN_wrN_ne (by decide) _ _)).trans
      (FieldDie.rdN_wrN_same (Nat.mod_lt _ (by decide)) _ _)
  have hi : (setRate r f).rdN F_TIM_B_ANCHOR_HI = f.now / 2 ^ 32 % 2 ^ 32 :=
    (FieldDie.rdN_wrN_ne (by decide) _ _).trans (FieldDie.rdN_wrN_same (Nat.mod_lt _ (by decide)) _ _)
  unfold FieldDie.anchor
  rw [lo, hi]
  omega

/-- At its anchor a rate has added nothing. -/
theorem bDrift_of_anchor (h : f.anchor = f.now) : f.bDrift = 0 := by
  unfold FieldDie.bDrift
  rw [h, FieldDie.now, Int.sub_self, Int.zero_mul, Int.zero_ediv]

/-- A part of a sum may be reduced into the domain's range first. -/
theorem domWrap_add_domWrap (x y : Int) : domWrap ((domWrap x : Int) + y) = domWrap (x + y) := by
  have reduced : (domWrap x : Int) = x % (domMod : Int) :=
    Int.toNat_of_nonneg (Int.emod_nonneg _ (by decide))
  unfold domWrap at reduced ⊢
  rw [reduced, Int.emod_add_emod]

/-- A change of rate leaves the value of B as it is. -/
theorem setRate_domB (hnow : f.now < 2 ^ 64) (r : Nat) : (setRate r f).domB = f.domB := by
  have still : (setRate r f).bDrift = 0 := bDrift_of_anchor ((setRate_anchor hnow r).trans (setRate_now r f).symm)
  unfold FieldDie.domB
  rw [still, setRate_tim, Int.add_zero, rateDie_bOff, rateDie_c, Int.add_assoc, domWrap_add_domWrap]
  congr 1
  ring

theorem settle_domB (f : FieldDie) : (settle f).domB = f.domB := by
  unfold FieldDie.domB FieldDie.bDrift FieldDie.anchor FieldDie.bRate
  rw [settle_tim, settle_rdN_of_notMem (by decide), settle_rdN_of_notMem (by decide), settle_rdN_of_notMem (by decide)]

theorem settle_anchor (f : FieldDie) : (settle f).anchor = f.anchor := by
  unfold FieldDie.anchor
  rw [settle_rdN_of_notMem (by decide), settle_rdN_of_notMem (by decide)]

theorem writeRate_of_unsteered (hr : f.role ≠ 3) (h : steeredBy f 1 = none) (data : Nat) : writeRate data f = setRate data f := by
  unfold writeRate
  rw [unlessStandby_of_role hr, if_neg (by rw [h]; decide)]

/-! ### The statement -/

/-- Settles O37: each write is the change that it asks for, or the one report of its refusal. -/
theorem timeIsSteppedSetAndSteered : Obligations.TimeIsSteppedSetAndSteered := by
  unfold Obligations.TimeIsSteppedSetAndSteered
  refine ⟨fun s req data hw hl hr => ?_, fun s req data hw hl hr => ?_, fun s req data hw hq => ⟨fun hl hr => ?_, fun hl => ?_⟩,
    fun s req data hw hl hr => ?_, fun s req data hw hr => ?_, fun s req data v hw hr hv => ⟨fun hlo hhi hs => ?_, fun h => ?_⟩,
    fun s req data hw hr hs hnow => ?_⟩
  · exact ⟨_, step_asked (d := 0) hw hl hr _, (askStep_A_moves _ _).frame rfl⟩
  · exact ⟨_, step_asked (d := 1) hw hl hr _, (askStep_B_moves _ _).frame rfl⟩
  · refine ⟨_, State.onWrite_of_canWrite hw, ?_⟩
    rw [writeStep_of_granted (d := 0) (f := s.fld.napBreak) hl, unlessStandby_of_standby (f := s.fld.napBreak) hr]
    exact timeRejected s.fld.napBreak_softMoves rfl
  · have moves : SoftMoves [F_CFG_LK_REJ, F_CFG_EVT, F_CFG_EVT_INFO] s.fld (lkReject req F_TIM_A_STEP s.fld.napBreak) :=
      s.fld.napBreak_softMoves.trans (lkReject_softMoves (by decide) (by decide) (by decide) _ _)
    refine ⟨_, State.onWrite_of_canWrite hw, ?_⟩
    rw [writeStep_of_denied (d := 0) (f := s.fld.napBreak) hl]
    exact ⟨(settle_sq_of_notMem (by decide)).trans (lkReject_raises _ _),
      (settle_get_of_notMem (by decide)).trans ((lkReject_info rfl _ _).trans (noteAccess_requester hq _ _)),
      (settle_get_of_notMem (by decide)).trans ((lkReject_info rfl _ _).trans (noteAccess_addr (by decide) _)),
      (settle_rdN_of_notMem (by decide)).trans (lkReject_count _ _), moves.frame rfl⟩
  · refine ⟨_, State.onWrite_of_canWrite hw, ?_⟩
    rw [writeASet_of_granted (f := s.fld.napBreak) hl hr]
    exact (aSet_moves _ _ _).frame rfl
  · refine ⟨_, State.onWrite_of_canWrite hw, ?_⟩
    rw [writeBOff_of_role (f := s.fld.napBreak) hr]
    exact (bSet_moves _ _ _).frame rfl
  · obtain rfl : v = incAsked req data.toNat s.fld := hv
    have taken : ¬incRefused s.fld (incAsked req data.toNat s.fld) := by
      rintro (below | above | steered)
      · omega
      · omega
      · simp [hs] at steered
    refine ⟨_, State.onWrite_of_canWrite hw, ?_⟩
    rw [writeInc_of_taken (f := s.fld.napBreak) hr taken]
    exact ⟨(incOf_settle _).trans (incOf_setInc (incAsked_lt _ _ _) _),
      ((incTaken_moves req s.fld).trans (setInc_softMoves (by decide) (by decide) _ _)).frame rfl⟩
  · obtain rfl : v = incAsked req data.toNat s.fld := hv
    have refused : incRefused s.fld (incAsked req data.toNat s.fld) := by
      rwa [incRefused, Option.isSome_iff_ne_none]
    refine ⟨_, State.onWrite_of_canWrite hw, ?_⟩
    rw [writeInc_of_refused (f := s.fld.napBreak) hr refused]
    exact timeRejected (incTaken_moves req s.fld) rfl
  · have frame := ((rateDie_moves s.fld).trans (setRate_softMoves data.toNat s.fld.napBreak)).frame (s := s) rfl
    refine ⟨_, State.onWrite_of_canWrite hw, ?_⟩
    rw [writeRate_of_unsteered (f := s.fld.napBreak) hr hs]
    refine ⟨(settle_domB _).trans (setRate_domB (f := s.fld.napBreak) hnow _), ?_,
      (settle_anchor _).trans (setRate_anchor (f := s.fld.napBreak) hnow _), ?_⟩
    · exact (settle_rd_of_notMem _ (by decide)).trans ((setRate_rate _ _).trans (word_toNat data))
    · rw [settle_tim, setRate_tim]
      exact frame

end Sys2Proof.Machine
end

section
/-! Writes by access code (O22): what the proof's staleness, a refused width, a read-only register and a clear write move. -/

namespace Sys2Proof.Machine

variable {but : List Nat} {f g : FieldDie} {s : State} {req addr data : Nat}

/-! ### Flags that a clear write leaves -/

theorem zero_ldiff (b : Nat) : Nat.ldiff 0 b = 0 :=
  Nat.eq_of_testBit_eq fun i => by rw [Nat.testBit_ldiff, Nat.zero_testBit, Bool.false_and]

theorem and_add_ldiff (a : Nat) : ∀ b, (a &&& b) + Nat.ldiff a b = a := by
  induction a using Nat.binaryRec with
  | zero => intro b; rw [Nat.zero_and, zero_ldiff]
  | bit x m ih =>
    intro b
    obtain ⟨y, n, rfl⟩ : ∃ y n, b = Nat.bit y n := ⟨b.bodd, b.div2, (Nat.bit_bodd_div2 b).symm⟩
    have shorter := ih n
    rw [Nat.land_bit, Nat.ldiff_bit, Nat.bit_val, Nat.bit_val, Nat.bit_val]
    have low : (x && y).toNat + (x && !y).toNat = x.toNat := by cases x <;> cases y <;> rfl
    omega

theorem hasBit_andNot (a b i : Nat) : hasBit (andNot a b) i = (hasBit a i && !hasBit b i) := by
  have parts : andNot a b + (a &&& b) = a := Nat.sub_add_cancel Nat.and_le_left
  have cleared : andNot a b = Nat.ldiff a b := by
    have := and_add_ldiff a b
    omega
  rw [cleared, hasBit_eq_testBit, hasBit_eq_testBit, hasBit_eq_testBit, Nat.testBit_ldiff]

theorem hasBit_bitsOf_low {i : Nat} (hi : i < 16) (w : Nat) : hasBit (bitsOf w 15 0) i = hasBit w i := by
  rw [hasBit_eq_testBit, hasBit_eq_testBit, testBit_bitsOf, Nat.zero_add]
  simp [hi]

/-- A word of a sequence number and its flags. -/
theorem hasBit_seqWord {n flags i : Nat} (hf : flags < 2 ^ 16) (hi : i < 16) :
    hasBit (n * 2 ^ 16 + flags) i = hasBit flags i := by
  rw [hasBit_eq_testBit, hasBit_eq_testBit, Nat.mul_comm, Nat.testBit_two_pow_mul_add n hf, if_pos hi]

theorem bitsOf_seqWord {n flags : Nat} (hn : n < 2 ^ 16) (hf : flags < 2 ^ 16) : bitsOf (n * 2 ^ 16 + flags) 31 16 = n := by
  unfold bitsOf
  rw [Nat.shiftRight_eq_div_pow]
  omega

theorem andNot_le (a b : Nat) : andNot a b ≤ a := Nat.sub_le _ _

theorem seqStep_lt {n : Nat} (h : n < 2 ^ 16) : seqStep n < 2 ^ 16 := by
  unfold seqStep
  split <;> omega

/-! ### The clear write of a register of flags (R253) -/

/-- The word that a clear write leaves of `w`. -/
def clearedWord (w data : Nat) : Nat :=
  seqStep (bitsOf w 31 16) * 2 ^ 16 + andNot (bitsOf w 15 0) (bitsOf data 15 0)

theorem clearedFlags_lt (w data : Nat) : andNot (bitsOf w 15 0) (bitsOf data 15 0) < 2 ^ 16 :=
  Nat.lt_of_le_of_lt (andNot_le _ _) (bitsOf_lt w 15 0)

theorem clearedWord_lt (w data : Nat) : clearedWord w data < 2 ^ 32 := by
  have seq := seqStep_lt (bitsOf_lt w 31 16)
  have flags := clearedFlags_lt w data
  unfold clearedWord
  omega

theorem clearedWord_seq (w data : Nat) : bitsOf (clearedWord w data) 31 16 = seqStep (bitsOf w 31 16) :=
  bitsOf_seqWord (seqStep_lt (bitsOf_lt w 31 16)) (clearedFlags_lt w data)

theorem clearedWord_flag {i : Nat} (hi : i < 16) (w data : Nat) :
    hasBit (clearedWord w data) i = (hasBit w i && !hasBit data i) := by
  unfold clearedWord
  rw [hasBit_seqWord (clearedFlags_lt w data) hi, hasBit_andNot, hasBit_bitsOf_low hi, hasBit_bitsOf_low hi]

theorem sqClearWrite_of_current (hf : addr ≠ F_FLT_EVT) (h : bitsOf data 31 16 = bitsOf (f.rdN addr) 31 16) :
    sqClearWrite addr data f = f.wrN addr (clearedWord (f.rdN addr) data) := by
  unfold sqClearWrite
  dsimp only
  rw [if_pos h, if_neg hf]
  rfl

theorem sqClearWrite_of_other (h : bitsOf data 31 16 ≠ bitsOf (f.rdN addr) 31 16) : sqClearWrite addr data f = f := if_neg h

/-- A write of a register of flags outside the perturbation block, other than the fault flags, is its clear write. -/
theorem blockWrite_of_isSqReg (hsq : isSqReg addr = true) (hf : addr ≠ F_FLT_EVT) (hp : addr < 0x070000 ∨ 0x080000 ≤ addr) :
    blockWrite req addr data f = sqClearWrite addr data f := by
  unfold blockWrite
  rw [if_neg (by omega), if_pos hsq]
  unfold sqWrite
  rw [if_pos hsq]
  exact if_neg hf

theorem execSqClear_of_canWrite {data : Word} (hw : s.fld.canWrite req = true) (hsq : isSqReg addr = true)
    (hf : addr ≠ F_FLT_EVT) (hp : addr < 0x070000 ∨ 0x080000 ≤ addr) :
    exec (.sqClear req addr data) s = .next { s with fld := settle (sqClearWrite addr data.toNat s.fld.napBreak) } := by
  have step : exec (.sqClear req addr data) s = execSqClear req addr data s := rfl
  rw [step, execSqClear, State.onWrite_of_canWrite hw, if_pos hsq, blockWrite_of_isSqReg hsq hf hp]

/-! ### Accesses that ask for no reset -/

theorem FieldDie.canWrite_of_running (h : f.phase = .running) (req : Nat) : f.canWrite req = true := by
  simp [FieldDie.canWrite, FieldDie.isRunning, h]

theorem SoftMoves.resetBy_eq (m : SoftMoves but f g) : g.resetBy = f.resetBy := by
  have := congrArg FieldDie.resetBy m.rest
  exact this

theorem State.onAccess_of_noReset {k : FieldDie → FieldDie} (h : (k s.fld).resetBy = 0) :
    s.onAccess k = .next { s with fld := settle (k s.fld) } := by
  unfold State.onAccess
  dsimp only
  rw [if_neg (fun hr => hr.2 h)]

theorem execRegisterWrite_of_field {be : Nat} {data : Word} (hr : req ≠ 0x40) (ha : addr < 0x1000000) :
    exec (.registerWrite req addr be data) s = s.onAccess (fieldWrite req addr be data.toNat) := by
  have written : exec (.registerWrite req addr be data) s = execRegisterWrite req addr be data s := rfl
  rw [written, execRegisterWrite, if_pos ha]
  congr 1
  funext f
  exact if_neg hr

/-- What a register write that asks for no reset leaves. -/
theorem registerWrite_of_moves {be : Nat} {data : Word} {f' : FieldDie} (hr : req ≠ 0x40) (ha : addr < 0x1000000)
    (hreset : f'.resetBy = 0) (hreg : f'.reg = s.fld.reg) (hg : fieldWrite req addr be data.toNat s.fld = g)
    (m : SoftMoves but f' g) :
    exec (.registerWrite req addr be data) s = .next { s with fld := settle g } ∧
      FieldFrame but f' s { s with fld := settle g } := by
  have still : (fieldWrite req addr be data.toNat s.fld).resetBy = 0 := by rw [hg, m.resetBy_eq, hreset]
  refine ⟨?_, m.frame hreg⟩
  rw [execRegisterWrite_of_field hr ha, State.onAccess_of_noReset still, hg]

theorem fieldWrite_of_word (hrun : f.phase = .running) (hreset : f.resetBy = 0) :
    fieldWrite req addr 15 data f = writeWord req addr data f.napBreak := by
  unfold fieldWrite
  rw [if_neg (by simp [FieldDie.canWrite_of_running hrun, hreset]), if_neg (by decide)]

theorem fieldWrite_of_part {be : Nat} (hrun : f.phase = .running) (hreset : f.resetBy = 0) (hbe : be ≠ 15) :
    fieldWrite req addr be data f = badAccess req addr f.napBreak := by
  unfold fieldWrite
  rw [if_neg (by simp [FieldDie.canWrite_of_running hrun, hreset]), if_pos hbe]

theorem badAccess_softMoves (hi : F_CFG_EVT_INFO ∈ but) (he : F_CFG_EVT ∈ but) (addr : Nat) (f : FieldDie) :
    SoftMoves but f (badAccess req addr f) := (noteAccess_softMoves hi addr f).trans (FieldDie.raise_softMoves he _ _)

/-! ### The proof's staleness (R270) -/

theorem FieldDie.queueEvt_softMoves (f : FieldDie) (u : FlowUnit) : SoftMoves but f (f.queueEvt u) where
  rest := by
    have pwr : (f.queueEvt u).pwr = f.pwr := by
      have := congrArg FieldDie.pwr (f.queueEvt_core u)
      exact this
    unfold FieldDie.rest
    rw [FieldDie.queueEvt_core, pwr]
  send := f.queueEvt_sendSame u
  regs := fun _ _ hc => f.queueEvt_rd u _ (fun e => hc (by simp [coverRegs, e]))

/-- A die of which a covered word has been written. -/
def coveredDie (f : FieldDie) : FieldDie := { f with cfg := { f.cfg with covered := true } }

theorem touchProof_eq (f : FieldDie) : f.touchProof =
    if f.flag F_CFG_PROOF_STAT_stale then coveredDie f else ((coveredDie f).put F_CFG_PROOF_STAT_stale 1).announce 3 := rfl

theorem touchProof_softMoves (hs : F_CFG_PROOF_STAT ∈ but) (f : FieldDie) : SoftMoves but (coveredDie f) f.touchProof := by
  rw [touchProof_eq]
  split
  · exact .refl _ _
  · exact (FieldDie.put_softMoves (r := F_CFG_PROOF_STAT_stale) hs _ _).trans (FieldDie.queueEvt_softMoves _ _)

theorem touchProof_stale (f : FieldDie) : f.touchProof.flag F_CFG_PROOF_STAT_stale = true := by
  rw [touchProof_eq]
  split
  · assumption
  · have announced : (((coveredDie f).put F_CFG_PROOF_STAT_stale 1).announce 3).get F_CFG_PROOF_STAT_stale =
        ((coveredDie f).put F_CFG_PROOF_STAT_stale 1).get F_CFG_PROOF_STAT_stale :=
      FieldDie.get_eq _ (FieldDie.queueEvt_rd _ _ _ (by decide))
    unfold FieldDie.flag
    rw [announced, FieldDie.get_put _ _ _ (by decide) (by decide)]
    rfl

theorem SoftMoves.cfg_eq (m : SoftMoves but f g) : g.cfg = f.cfg := by
  have := congrArg FieldDie.cfg m.rest
  exact this

/-! ### Two plain registers -/

/-- F_PWR_COST is one covered field of software's without a lock. -/
def costRow : RegRow := ⟨0x010088, 0x4, 1, .const 0x1405091C, false, true, [⟨31, 0, .rw, false, none, false⟩]⟩

theorem regRow_cost : regRow F_PWR_COST = some costRow := rfl

theorem storeWrite_cost (req data : Nat) (f : FieldDie) :
    storeWrite req F_PWR_COST data f = (f.wrN F_PWR_COST (putBits (f.rdN F_PWR_COST) 31 0 (bitsOf data 31 0))).touchProof := by
  unfold storeWrite
  rw [regRow_cost]
  rfl

/-- The die of a whole write of F_PWR_COST, its field stored and its proof not yet marked. -/
def costStored (data : Nat) (f : FieldDie) : FieldDie :=
  f.wrN F_PWR_COST (putBits (f.rdN F_PWR_COST) 31 0 (bitsOf data 31 0))

theorem writeWord_cost (req data : Nat) (f : FieldDie) :
    writeWord req F_PWR_COST data f = (costStored data f).touchProof := by
  have stored : writeWord req F_PWR_COST data f = storeWrite req F_PWR_COST data f := rfl
  rw [stored, storeWrite_cost, costStored]

/-- F_GLB_ID's fields are read-only. -/
def idRow : RegRow :=
  ⟨0x000000, 0x4, 1, .const 0x0101A101, false, false,
    [⟨31, 24, .ro, false, none, false⟩, ⟨23, 16, .ro, false, none, false⟩, ⟨15, 8, .ro, false, none, false⟩,
      ⟨7, 0, .ro, false, none, false⟩]⟩

theorem regRow_id : regRow F_GLB_ID = some idRow := rfl

theorem storeWrite_id (req data : Nat) (f : FieldDie) : storeWrite req F_GLB_ID data f = f.wrN F_GLB_ID (f.rdN F_GLB_ID) := by
  unfold storeWrite
  rw [regRow_id]
  rfl

theorem writeWord_id (req data : Nat) (f : FieldDie) : writeWord req F_GLB_ID data f = f.wrN F_GLB_ID (f.rdN F_GLB_ID) := by
  have stored : writeWord req F_GLB_ID data f = storeWrite req F_GLB_ID data f := rfl
  rw [stored, storeWrite_id]

/-- A register rewritten with what it holds. -/
theorem FieldDie.wrN_rdN_softMoves (f : FieldDie) (a : Nat) : SoftMoves but f (f.wrN a (f.rdN a)) where
  rest := rfl
  send := .ofEq rfl rfl rfl
  regs b _ _ := by
    rw [FieldDie.rd_wrN]
    split
    next h => rw [h]; exact word_toNat _
    next => rfl

theorem putBits_whole (w : Nat) (data : Word) (hw : w < 2 ^ 32) : word (putBits w 31 0 (bitsOf data.toNat 31 0)) = data := by
  have whole : bitsOf (putBits w 31 0 (bitsOf data.toNat 31 0)) 31 0 = data.toNat := by
    rw [bitsOf_putBits_same _ _ _ _ (by decide)]
    exact (Nat.mod_mod _ _).trans (Nat.mod_eq_of_lt data.isLt)
  have same : putBits w 31 0 (bitsOf data.toNat 31 0) = data.toNat :=
    (Nat.mod_eq_of_lt (putBits_lt w 31 0 _ 32 (by decide) (by decide) hw)).symm.trans whole
  rw [same, word_toNat]

/-! ### The statement -/

theorem costStored_softMoves (data : Nat) (f : FieldDie) :
    SoftMoves [F_PWR_COST, F_CFG_PROOF_STAT] (coveredDie f) (coveredDie (costStored data f.napBreak)) :=
  (coveredDie f).napBreak_softMoves.trans (FieldDie.wrN_softMoves (by decide) (coveredDie f).napBreak _)

/-- Settles O22: each write is one of `touchProof`, `badAccess`, a register rewritten with what it holds, and
`clearedWord`. -/
theorem registerWritesByAccessCode : Obligations.RegisterWritesByAccessCode := by
  unfold Obligations.RegisterWritesByAccessCode
  refine ⟨fun s req data hrun hreset hreq => ?_, fun s req addr be data hrun hreset hr hreq ha hbe => ?_,
    fun s req data hrun hreset hreq => ?_, fun s req addr data hrun hsq hf hc hp => ?_⟩
  · have moves := (costStored_softMoves data.toNat s.fld).trans
      (touchProof_softMoves (List.mem_cons_of_mem _ (List.mem_singleton.2 rfl)) (costStored data.toNat s.fld.napBreak))
    obtain ⟨step, frame⟩ := registerWrite_of_moves (f' := coveredDie s.fld) (addr := F_PWR_COST) (data := data) hreq (by decide) hreset rfl
      ((fieldWrite_of_word hrun hreset).trans (writeWord_cost req data.toNat s.fld.napBreak)) moves
    have kept : (costStored data.toNat s.fld.napBreak).touchProof.rd F_PWR_COST =
        (costStored data.toNat s.fld.napBreak).rd F_PWR_COST :=
      (touchProof_softMoves (List.mem_singleton.2 rfl) _).rd_eq (by decide) (by decide)
    have stored : (costStored data.toNat s.fld.napBreak).rd F_PWR_COST = data :=
      (FieldDie.rd_wrN _ _ _ _).trans ((if_pos rfl).trans (putBits_whole _ data (s.fld.napBreak.rdN_lt _)))
    refine ⟨_, step, (settle_rd_of_notMem _ (by decide)).trans (kept.trans stored), ?_, ?_⟩
    · have shown : (settle (costStored data.toNat s.fld.napBreak).touchProof).get F_CFG_PROOF_STAT_stale = _ :=
        settle_get_of_notMem (by decide)
      exact (congrArg (· != 0) shown).trans (touchProof_stale _)
    · rw [settle_cfg, moves.cfg_eq]
      exact frame
  · have moves : SoftMoves [F_CFG_EVT, F_CFG_EVT_INFO] s.fld (badAccess req addr s.fld.napBreak) :=
      s.fld.napBreak_softMoves.trans (badAccess_softMoves (by decide) (by decide) _ _)
    obtain ⟨step, frame⟩ := registerWrite_of_moves (data := data) hreq ha hreset rfl (fieldWrite_of_part hrun hreset hbe) moves
    refine ⟨_, step, (settle_sq_of_notMem (by decide)).trans (FieldDie.raise_sq _ _ _ (by decide) (by decide)), ?_, ?_, frame⟩
    · exact (settle_get_of_notMem (by decide)).trans ((get_raise_cfgEvt rfl _ _).trans (noteAccess_requester hr _ _))
    · exact (settle_get_of_notMem (by decide)).trans ((get_raise_cfgEvt rfl _ _).trans (noteAccess_addr ha _))
  · have moves : SoftMoves [] s.fld (s.fld.napBreak.wrN F_GLB_ID (s.fld.napBreak.rdN F_GLB_ID)) :=
      s.fld.napBreak_softMoves.trans (FieldDie.wrN_rdN_softMoves _ _)
    obtain ⟨step, frame⟩ := registerWrite_of_moves (addr := F_GLB_ID) (data := data) hreq (by decide) hreset rfl
      ((fieldWrite_of_word hrun hreset).trans (writeWord_id req data.toNat s.fld.napBreak)) moves
    exact ⟨_, step, frame⟩
  · have step := execSqClear_of_canWrite (data := data) (FieldDie.canWrite_of_running hrun req) hsq hf hp
    by_cases hseq : bitsOf data.toNat 31 16 = bitsOf (s.fld.rdN addr) 31 16
    · rw [sqClearWrite_of_current (f := s.fld.napBreak) hf hseq] at step
      have moves : SoftMoves [addr] s.fld (s.fld.napBreak.wrN addr (clearedWord (s.fld.rdN addr) data.toNat)) :=
        s.fld.napBreak_softMoves.trans (FieldDie.wrN_softMoves (List.mem_singleton.2 rfl) _ _)
      have left : (settle (s.fld.napBreak.wrN addr (clearedWord (s.fld.rdN addr) data.toNat))).rdN addr =
          clearedWord (s.fld.rdN addr) data.toNat :=
        (settle_rdN_of_notMem hc).trans (FieldDie.rdN_wrN_same (clearedWord_lt _ _) _ _)
      refine ⟨_, step, moves.frame rfl, fun hne => absurd hseq hne, fun _ => ⟨?_, fun b hb => ?_⟩⟩
      · exact (congrArg (bitsOf · 31 16) left).trans (clearedWord_seq _ _)
      · exact (congrArg (hasBit · b) left).trans (clearedWord_flag hb _ _)
    · rw [sqClearWrite_of_other (f := s.fld.napBreak) hseq] at step
      exact ⟨_, step, (s.fld.napBreak_softMoves (but := [addr])).frame rfl, fun _ => settle_rd_of_notMem _ hc,
        fun h => absurd h hseq⟩

end Sys2Proof.Machine
end

section
/-! What a commit's end does beyond the CFG block (R122, R275, R806 to R811): the image, the resume write and a latched fault
leave the block's registers and the request as they are. -/

namespace Sys2Proof.Machine

variable {f g h : FieldDie} {s : State} {req v op : Nat}

/-- An address outside the CFG block. -/
abbrev outsideCfg (a : Nat) : Prop := a < 0x020000 ∨ 0x030000 ≤ a

/-- From `f` to `g` no register of the CFG block has moved, nor the request for a commit. -/
structure CfgKept (f g : FieldDie) : Prop where
  commit : g.cfg.commit = f.cfg.commit
  regs : ∀ a, 0x020000 ≤ a → a < 0x030000 → g.rd a = f.rd a

theorem CfgKept.trans (a : CfgKept f g) (b : CfgKept g h) : CfgKept f h :=
  ⟨b.commit.trans a.commit, fun x h1 h2 => (b.regs x h1 h2).trans (a.regs x h1 h2)⟩

theorem CfgKept.ofReg (hc : g.cfg.commit = f.cfg.commit) (hr : g.reg = f.reg) : CfgKept f g :=
  ⟨hc, fun _ _ _ => FieldDie.rd_eq hr _⟩

theorem CfgKept.refl (f : FieldDie) : CfgKept f f := .ofReg rfl rfl

theorem CfgKept.get_eq (k : CfgKept f g) {r : Fld} (h1 : 0x020000 ≤ r.addr) (h2 : r.addr < 0x030000) : g.get r = f.get r :=
  FieldDie.get_eq r (k.regs _ h1 h2)

theorem CfgKept.setFlt (f : FieldDie) (x : FltX) : CfgKept f { f with flt := x } := .ofReg rfl rfl

theorem CfgKept.setCfg {c : CfgX} (h : c.commit = f.cfg.commit) : CfgKept f { f with cfg := c } := .ofReg h rfl

theorem CfgKept.wrN {a : Nat} (ha : outsideCfg a) (f : FieldDie) (v : Nat) : CfgKept f (f.wrN a v) where
  commit := rfl
  regs b h1 h2 := by rw [FieldDie.rd_wrN, if_neg (by omega)]

theorem CfgKept.put {r : Fld} (hr : outsideCfg r.addr) (f : FieldDie) (v : Nat) : CfgKept f (f.put r v) := .wrN hr f _

theorem CfgKept.queueEvt (f : FieldDie) (u : FlowUnit) : CfgKept f (f.queueEvt u) where
  commit := by rw [FieldDie.queueEvt_cfg]
  regs a _ h2 := f.queueEvt_rd u a (by simp only [F_XNG_EVT]; omega)

theorem CfgKept.raise {a : Nat} (ha : outsideCfg a) (f : FieldDie) (bit : Nat) : CfgKept f (f.raise a bit) where
  commit := by rw [FieldDie.raise_cfg]
  regs b h1 h2 := f.raise_rd a bit b (by omega) (by simp only [F_XNG_EVT]; omega)

theorem CfgKept.ite {c : Prop} [Decidable c] (hg : CfgKept f g) (hh : CfgKept f h) : CfgKept f (if c then g else h) := by
  split
  · exact hg
  · exact hh

theorem CfgKept.forAll {α : Type} {k : α → FieldDie → FieldDie} (hk : ∀ x f, CfgKept f (k x f)) (xs : List α) :
    ∀ f, CfgKept f (forAll xs k f) := by
  induction xs with
  | nil => exact CfgKept.refl
  | cons x xs ih => exact fun f => (hk x f).trans (ih (k x f))

/-! ### The role (R656, R809) -/

theorem setRole_cfgKept (r : Nat) (f : FieldDie) : CfgKept f (setRole r f) := by
  have silent : ∀ n f, CfgKept f (f.put (F_MDS_STAT_standby_silent n) (if r = 3 then 1 else 0)) := fun n f =>
    .put (.inr (by simp only [F_MDS_STAT_standby_silent, F_MDS_STAT]; omega)) f _
  have napBroken : CfgKept f f.napBreak := .ofReg rfl rfl
  exact .ite ((napBroken.trans (.put (by decide) _ _)).trans (CfgKept.forAll silent _ _)) (.refl f)

theorem cancelHandover_cfgKept (f : FieldDie) : CfgKept f (cancelHandover f) := .ofReg rfl rfl

theorem enterFailed_cfgKept (f : FieldDie) : CfgKept f (enterFailed f) := by
  have unsynced : CfgKept f { f with twn := { f.twn with syncedAt := none, recDue := false } } := .ofReg rfl rfl
  exact (unsynced.trans (setRole_cfgKept 4 _)).trans (cancelHandover_cfgKept _)

theorem sendTwin_commit (u : FlowUnit) (f : FieldDie) : (f.sendTwin u).cfg.commit = f.cfg.commit := by
  rw [← FieldDie.core_cfg, FieldDie.sendTwin_core, FieldDie.core_cfg]

theorem postTwin_cfgKept (u : FlowUnit) (f : FieldDie) : CfgKept f (postTwin u f) :=
  .ite (.ofReg (sendTwin_commit u f) (f.sendTwin_reg u)) (.ofReg rfl rfl)

theorem takeoverFault_cfgKept (f : FieldDie) : CfgKept f (takeoverFault f) := by
  have cancelled := cancelHandover_cfgKept f
  refine .ite (.ite ?_ ?_) (.ite (enterFailed_cfgKept f) (.refl f))
  · exact (cancelled.trans (postTwin_cfgKept _ _)).trans (enterFailed_cfgKept _)
  · exact cancelled.trans (.raise (by decide) _ _)

/-! ### A latched fault (R803, R806, R807) -/

theorem logFault_cfgKept (code inst : Nat) (f : FieldDie) : CfgKept f (logFault code inst f) := by
  unfold logFault
  dsimp only
  refine CfgKept.trans ?_ (.put (r := F_FLT_LOGPTR_next) (by decide) _ _)
  refine CfgKept.trans ?_ (.wrN (a := F_FLT_LOG_SEC _) (by simp only [outsideCfg, F_FLT_LOG_SEC]; omega) _ _)
  refine CfgKept.trans ?_ (.wrN (a := F_FLT_LOG_NS _) (by simp only [outsideCfg, F_FLT_LOG_NS]; omega) _ _)
  refine CfgKept.trans ?_ (.wrN (a := F_FLT_LOG_B _) (by simp only [outsideCfg, F_FLT_LOG_B]; omega) _ _)
  refine CfgKept.trans ?_ (.wrN (a := F_FLT_LOG_A _) (by simp only [outsideCfg, F_FLT_LOG_A]; omega) _ _)
  exact .ite (.put (r := F_FLT_LOGPTR_wraps) (by decide) _ _) (.refl f)

/-- The die of a fault whose flag is set and whose place is latched, and that die once the fault is logged. -/
def latchedDie (code inst : Nat) (f : FieldDie) : FieldDie :=
  let g := f.napBreak.setFlag F_FLT_EVT code
  { g with flt := { g.flt with latched := g.flt.latched ++ [(code, inst)] } }
def loggedDie (code inst : Nat) (f : FieldDie) : FieldDie :=
  faultEvt code inst ((latchedDie code inst f).get F_FLT_LOGPTR_next) (logFault code inst (latchedDie code inst f))

theorem latchFault_eq (code inst : Nat) (f : FieldDie) : latchFault code inst f =
    if f.sq F_FLT_EVT code ∧ (code, inst) ∈ f.flt.latched then f
    else if hasBit ((loggedDie code inst f).get F_FLT_TKO_tko) code then takeoverFault (loggedDie code inst f)
    else loggedDie code inst f := rfl

theorem latchedDie_cfgKept (code inst : Nat) (f : FieldDie) : CfgKept f (latchedDie code inst f) := by
  have quiet : CfgKept f f.napBreak := .ofReg rfl rfl
  have flagged : CfgKept f (f.napBreak.setFlag F_FLT_EVT code) := quiet.trans (.wrN (by decide) _ _)
  exact flagged.trans (.setFlt _ _)

theorem loggedDie_cfgKept (code inst : Nat) (f : FieldDie) : CfgKept f (loggedDie code inst f) :=
  ((latchedDie_cfgKept code inst f).trans (logFault_cfgKept code inst _)).trans (CfgKept.queueEvt _ _)

theorem latchFault_cfgKept (code inst : Nat) (f : FieldDie) : CfgKept f (latchFault code inst f) := by
  have logged := loggedDie_cfgKept code inst f
  rw [latchFault_eq]
  exact .ite (.refl f) (.ite (logged.trans (takeoverFault_cfgKept _)) logged)

/-! ### The image and its resume write (R122, R209, R275) -/

/-- The die that shows whether an image is too large. -/
def imageShown (img : List Byte) (f : FieldDie) : FieldDie :=
  f.put F_KEY_STAT_image_big (if decide (imageMax < img.length) then 1 else 0)

theorem stageImage_eq (img : List Byte) (f : FieldDie) : stageImage img f =
    if decide (imageMax < img.length) then imageShown img f
    else if keyCommitting (imageShown img f) then
      { imageShown img f with cfg := { (imageShown img f).cfg with build := some img } }
    else { imageShown img f with cfg := { (imageShown img f).cfg with image := img } } := rfl

theorem stageImage_cfgKept (img : List Byte) (f : FieldDie) : CfgKept f (stageImage img f) := by
  have shown : CfgKept f (imageShown img f) := .put (r := F_KEY_STAT_image_big) (by decide) f _
  rw [stageImage_eq]
  exact .ite shown (.ite (shown.trans (.setCfg rfl)) (shown.trans (.setCfg rfl)))

theorem voidResume_cfgKept (f : FieldDie) : CfgKept f (voidResume f) := .ite (.refl f) (.ofReg rfl rfl)

theorem setResume_cfgKept (v : Nat) (f : FieldDie) : CfgKept f (setResume v f) :=
  .put (r := F_PWR_STATE_resume_stat) (by decide) f v

/-- The die of which a resume write of `img` has been called for. -/
def resumeCalled (img : List Byte) (f : FieldDie) : FieldDie :=
  setResume 1 { f with spi := { f.spi with image := img, restart := f.spi.flash != 0 } }

theorem startResume_eq (img : List Byte) (f : FieldDie) : startResume img f =
    if f.flag F_PWR_CTRL_resume_en = false then voidResume f
    else if f.get F_SPI_CTRL_role = 1 ∨ imageMax < img.length then (setResume 3 (voidResume f)).raise F_PWR_EVT 6
    else if f.spi.flash != 0 then resumeCalled img f
    else sendErase 0 ((resumeCalled img f).put F_SPI_STAT_flash_busy 1) := rfl

theorem resumeCalled_cfgKept (img : List Byte) (f : FieldDie) : CfgKept f (resumeCalled img f) :=
  CfgKept.trans (g := { f with spi := { f.spi with image := img, restart := f.spi.flash != 0 } }) (.ofReg rfl rfl)
    (setResume_cfgKept 1 _)

theorem sendErase_cfgKept (o : Nat) (f : FieldDie) : CfgKept f (sendErase o f) := .ofReg rfl rfl

theorem startResume_cfgKept (img : List Byte) (f : FieldDie) : CfgKept f (startResume img f) := by
  have voided := voidResume_cfgKept f
  have called := resumeCalled_cfgKept img f
  have busy : CfgKept f ((resumeCalled img f).put F_SPI_STAT_flash_busy 1) :=
    called.trans (.put (r := F_SPI_STAT_flash_busy) (by decide) _ _)
  rw [startResume_eq]
  refine .ite voided (.ite ?_ (.ite called (busy.trans (sendErase_cfgKept 0 _))))
  exact (voided.trans (setResume_cfgKept 3 _)).trans (.raise (by decide) _ _)

end Sys2Proof.Machine
end

section
/-! Sweeps of the proof and the commits that they end (O24). -/

namespace Sys2Proof.Machine

variable {but : List Nat} {f g : FieldDie} {s : State} {req v op : Nat}

/-! ### The beginning of a sweep and of a commit (R268, R272) -/

/-- F_CFG_PROOF_CMD is under lock 0. -/
theorem lkDenied_proofCmd (h : ownsLock f req 0 = true) : lkDenied f req F_CFG_PROOF_CMD = false := by
  have row : regRow F_CFG_PROOF_CMD =
      some ⟨0x020000, 0x4, 1, .const 0, false, false, [⟨3, 0, .wo, false, some 0, false⟩]⟩ := rfl
  unfold lkDenied
  rw [row]
  simp [h]

/-- The die of a commit request that has been taken, before it shows busy. -/
def requestedDie (op : Nat) (f : FieldDie) : FieldDie :=
  { f with cfg := { f.cfg with commit := some op, commitSweep := false, sweeping := false, covered := false } }

theorem writeProofCmd_taken (hl : ownsLock f req 0 = true) (hb : f.flag F_CFG_PROOF_STAT_busy = false)
    (hop : op = 1 ∨ op = 2) : writeProofCmd req op f = (requestedDie op f).put F_CFG_PROOF_STAT_busy 1 := by
  have code : bitsOf op 3 0 = op := by obtain rfl | rfl := hop <;> rfl
  unfold writeProofCmd
  dsimp only
  rw [code, if_neg (by simp [lkDenied_proofCmd hl]), if_neg (by omega), if_neg (by simp [hb])]
  rfl

/-- A request that is taken shows busy, and moves nothing else of F_CFG_PROOF_STAT. -/
theorem proofRequested (hw : s.fld.canWrite req = true) (hl : ownsLock s.fld req 0 = true)
    (hb : s.fld.flag F_CFG_PROOF_STAT_busy = false) (hop : op = 1 ∨ op = 2) :
    ∃ t, s.onWrite req (writeProofCmd req op) = .next t ∧ t.fld.get F_CFG_PROOF_STAT_busy = 1 ∧
      t.fld.get F_CFG_PROOF_STAT_stale = s.fld.get F_CFG_PROOF_STAT_stale ∧
      FieldFrame [F_CFG_PROOF_STAT] (requestedDie op s.fld) s t := by
  have quiet : SoftMoves [F_CFG_PROOF_STAT] (requestedDie op s.fld) (requestedDie op s.fld.napBreak) :=
    (requestedDie op s.fld).napBreak_softMoves
  have moves := quiet.trans (FieldDie.put_softMoves (r := F_CFG_PROOF_STAT_busy) (List.mem_singleton.2 rfl) _ 1)
  refine ⟨_, State.onWrite_of_canWrite hw, ?_⟩
  rw [writeProofCmd_taken (f := s.fld.napBreak) hl hb hop]
  refine ⟨?_, ?_, moves.frame rfl⟩
  · refine (settle_get_of_notMem (by decide)).trans ?_
    rw [FieldDie.get_put _ _ _ (by decide) (by decide)]
    rfl
  · exact (settle_get_of_notMem (by decide)).trans (FieldDie.get_put_field _ F_CFG_PROOF_STAT_busy F_CFG_PROOF_STAT_stale _ rfl
      (by decide) (by decide) (by decide))

theorem proofSweepStart_frame (hr : s.fld.phase = .running) (h : s.fld.cfg.sweeping = false) :
    ∃ t, exec .proofSweepStart s = .next t ∧
      FieldFrame [] { s.fld with cfg := { s.fld.cfg with sweeping := true, commitSweep := s.fld.cfg.commit.isSome } } s t := by
  have step : exec .proofSweepStart s = execProofSweepStart s := rfl
  rw [step, execProofSweepStart, State.onRun_running hr, if_neg (by simp [h])]
  exact ⟨_, rfl, (SoftMoves.refl [] _).frame rfl⟩

/-! ### The end of a sweep (R268, R269) -/

/-- The die that shows and counts the value of a sweep, and the die of that sweep's end. -/
def countedDie (v : Nat) (f : FieldDie) : FieldDie := (f.wrN F_CFG_PROOF_RUN v).bump F_CFG_PROOF_STAT_sweep_cnt 1
def sweptDie (v : Nat) (f : FieldDie) : FieldDie :=
  { countedDie v f with cfg := { (countedDie v f).cfg with sweeping := false } }

/-- What the end of a sweep does for the commit that it decides. -/
def decideCommit (v : Nat) (f : FieldDie) : FieldDie :=
  match f.cfg.commit with
  | some op => if f.cfg.commitSweep then endCommit op v f else f
  | none => f

/-- What a sweep that differs from a proof in effect latches. -/
def judgeProof (v : Nat) (f : FieldDie) : FieldDie :=
  if f.flag F_CFG_PROOF_STAT_committed ∧ f.flag F_CFG_PROOF_STAT_stale = false ∧ Nat.xor v (f.rdN F_PTB_PROOF) ≠ f.rdN F_CFG_PROOF then
    latchFault 3 0 f
  else f

theorem endSweep_eq (v : Nat) (f : FieldDie) : endSweep v f = judgeProof v (decideCommit v (sweptDie v f)) := rfl

theorem execProofSweepEnd_of_sweeping (hr : s.fld.phase = .running) (h : s.fld.cfg.sweeping = true) :
    exec .proofSweepEnd s =
      .next { s with fld := settle (judgeProof (proofValue s.fld) (decideCommit (proofValue s.fld) (sweptDie (proofValue s.fld) s.fld))) } := by
  have step : exec .proofSweepEnd s = execProofSweepEnd s := rfl
  rw [step, execProofSweepEnd, State.onRun_running hr, if_pos h, endSweep_eq]

theorem decideCommit_none (h : f.cfg.commit = none) (v : Nat) : decideCommit v f = f := by
  unfold decideCommit
  rw [h]

theorem decideCommit_some (h : f.cfg.commit = some op) (hs : f.cfg.commitSweep = true) (v : Nat) :
    decideCommit v f = endCommit op v f := by
  unfold decideCommit
  rw [h]
  exact if_pos hs

theorem judgeProof_of_uncommitted (h : f.flag F_CFG_PROOF_STAT_committed = false) (v : Nat) : judgeProof v f = f :=
  if_neg fun hc => by simp [h] at hc

theorem judgeProof_cfgKept (v : Nat) (f : FieldDie) : CfgKept f (judgeProof v f) := .ite (latchFault_cfgKept 3 0 f) (.refl f)

/-- Moves of registers go with any record of the configuration. -/
theorem SoftMoves.withCfg (m : SoftMoves but f g) (c : CfgX) : SoftMoves but { f with cfg := c } { g with cfg := c } where
  rest := congrArg (fun x : FieldDie => { x with cfg := c }) m.rest
  send := ⟨m.send.buf, m.send.out, m.send.cnt⟩
  regs := m.regs

/-- The die that has no sweep running. -/
def unsweptDie (f : FieldDie) : FieldDie := { f with cfg := { f.cfg with sweeping := false } }

theorem countedDie_softMoves (hr : F_CFG_PROOF_RUN ∈ but) (hs : F_CFG_PROOF_STAT ∈ but) (v : Nat) (f : FieldDie) :
    SoftMoves but f (countedDie v f) :=
  (FieldDie.wrN_softMoves hr _ v).trans (FieldDie.bump_softMoves (r := F_CFG_PROOF_STAT_sweep_cnt) hs _ 1)

theorem sweptDie_softMoves (hr : F_CFG_PROOF_RUN ∈ but) (hs : F_CFG_PROOF_STAT ∈ but) (v : Nat) (f : FieldDie) :
    SoftMoves but (unsweptDie f) (sweptDie v f) := (countedDie_softMoves hr hs v f).withCfg { f.cfg with sweeping := false }

theorem setCfg_rd (f : FieldDie) (c : CfgX) (a : Nat) : ({ f with cfg := c } : FieldDie).rd a = f.rd a := rfl

theorem sweptDie_rd (v : Nat) (f : FieldDie) (a : Nat) : (sweptDie v f).rd a = (countedDie v f).rd a := by
  unfold sweptDie
  exact setCfg_rd _ _ a

theorem countedDie_cfg (v : Nat) (f : FieldDie) : (countedDie v f).cfg = f.cfg := by
  unfold countedDie FieldDie.bump
  rw [FieldDie.put_cfg, FieldDie.wrN_cfg]

theorem sweptDie_run (v : Nat) (f : FieldDie) : (sweptDie v f).rd F_CFG_PROOF_RUN = word v := by
  rw [sweptDie_rd, countedDie, FieldDie.bump, FieldDie.rd_put_ne _ _ _ _ (by decide), FieldDie.rd_wrN]
  exact if_pos rfl

theorem wrN_run_get {r : Fld} (hr : r.addr ≠ F_CFG_PROOF_RUN) (v : Nat) (f : FieldDie) :
    (f.wrN F_CFG_PROOF_RUN v).get r = f.get r :=
  FieldDie.get_eq _ ((f.rd_wrN _ _ _).trans (if_neg hr))

theorem sweptDie_count (v : Nat) (f : FieldDie) : (sweptDie v f).get F_CFG_PROOF_STAT_sweep_cnt =
    (f.get F_CFG_PROOF_STAT_sweep_cnt + 1) % 2 ^ 16 := by
  rw [FieldDie.get_eq _ (sweptDie_rd _ _ _), countedDie, FieldDie.bump, FieldDie.get_put _ _ _ (by decide) (by decide),
    wrN_run_get (by decide)]
  rfl

theorem sweptDie_committed (v : Nat) (f : FieldDie) :
    (sweptDie v f).get F_CFG_PROOF_STAT_committed = f.get F_CFG_PROOF_STAT_committed := by
  rw [FieldDie.get_eq _ (sweptDie_rd _ _ _), countedDie, FieldDie.bump, FieldDie.get_put_field _ F_CFG_PROOF_STAT_sweep_cnt
    F_CFG_PROOF_STAT_committed _ rfl (by decide) (by decide) (by decide), wrN_run_get (by decide)]

theorem sweptDie_cfg (v : Nat) (f : FieldDie) : (sweptDie v f).cfg = { f.cfg with sweeping := false } := by
  unfold sweptDie
  dsimp only
  rw [countedDie_cfg]

theorem sweptDie_commit (v : Nat) (f : FieldDie) : (sweptDie v f).cfg.commit = f.cfg.commit := by rw [sweptDie_cfg]
theorem sweptDie_commitSweep (v : Nat) (f : FieldDie) : (sweptDie v f).cfg.commitSweep = f.cfg.commitSweep := by rw [sweptDie_cfg]
theorem sweptDie_covered (v : Nat) (f : FieldDie) : (sweptDie v f).cfg.covered = f.cfg.covered := by rw [sweptDie_cfg]
theorem sweptDie_expect (v : Nat) (f : FieldDie) : (sweptDie v f).cfg.expect = f.cfg.expect := by rw [sweptDie_cfg]

theorem flag_eq_of_get {r : Fld} (h : g.get r = f.get r) : g.flag r = f.flag r := congrArg (· != 0) h

theorem sweptDie_uncommitted (h : f.flag F_CFG_PROOF_STAT_committed = false) (v : Nat) :
    (sweptDie v f).flag F_CFG_PROOF_STAT_committed = false := (flag_eq_of_get (sweptDie_committed v f)).trans h

/-! ### The end of a commit (Table 6.5) -/

/-- The die of a commit that its sweep has ended with `code`. -/
def endedDie (code : Nat) (f : FieldDie) : FieldDie :=
  (({ f with cfg := { f.cfg with commit := none, commitSweep := false } } : FieldDie).put F_CFG_PROOF_STAT_busy 0).put
    F_CFG_PROOF_STAT_result code

/-- The die that has no sweep running and no commit asked for. -/
def uncommittingDie (f : FieldDie) : FieldDie :=
  { f with cfg := { f.cfg with sweeping := false, commit := none, commitSweep := false } }

/-- A commit that its sweep refuses. -/
def refusedDie (v : Nat) (f : FieldDie) : FieldDie := (endedDie 1 (sweptDie v f)).raise F_CFG_EVT 1

/-- The commit's request goes from the sweep's end on. -/
theorem endedDie_swept (code v : Nat) (f : FieldDie) : endedDie code (sweptDie v f) =
    (({ countedDie v f with cfg := (uncommittingDie f).cfg } : FieldDie).put F_CFG_PROOF_STAT_busy 0).put
      F_CFG_PROOF_STAT_result code := by
  simp only [endedDie, sweptDie, countedDie_cfg, uncommittingDie]

theorem refusedDie_softMoves (v : Nat) (f : FieldDie) :
    SoftMoves [F_CFG_PROOF_RUN, F_CFG_PROOF_STAT, F_CFG_EVT] (uncommittingDie f) (refusedDie v f) := by
  unfold refusedDie
  rw [endedDie_swept]
  refine SoftMoves.trans ?_ (FieldDie.raise_softMoves (by decide) _ _)
  refine SoftMoves.trans ?_ (FieldDie.put_softMoves (r := F_CFG_PROOF_STAT_result) (by decide) _ _)
  refine SoftMoves.trans ?_ (FieldDie.put_softMoves (r := F_CFG_PROOF_STAT_busy) (by decide) _ _)
  exact (countedDie_softMoves (by decide) (by decide) v f).withCfg (uncommittingDie f).cfg

theorem endedDie_result {code : Nat} (hc : code < 256) (f : FieldDie) :
    (endedDie code f).get F_CFG_PROOF_STAT_result = code := by
  unfold endedDie
  rw [FieldDie.get_put _ _ _ (by decide) (by decide)]
  exact Nat.mod_eq_of_lt hc

theorem endedDie_busy (code : Nat) (f : FieldDie) : (endedDie code f).get F_CFG_PROOF_STAT_busy = 0 := by
  unfold endedDie
  rw [FieldDie.get_put_field _ F_CFG_PROOF_STAT_result F_CFG_PROOF_STAT_busy _ rfl (by decide) (by decide) (by decide),
    FieldDie.get_put _ _ _ (by decide) (by decide)]
  rfl

theorem endedDie_committed (code : Nat) (f : FieldDie) :
    (endedDie code f).get F_CFG_PROOF_STAT_committed = f.get F_CFG_PROOF_STAT_committed :=
  (FieldDie.get_put_field _ F_CFG_PROOF_STAT_result F_CFG_PROOF_STAT_committed _ rfl (by decide) (by decide) (by decide)).trans
    (FieldDie.get_put_field _ F_CFG_PROOF_STAT_busy F_CFG_PROOF_STAT_committed _ rfl (by decide) (by decide) (by decide))

/-- The die of a commit that its sweep has granted with `code`, 0 for a new proof. -/
def grantedDie (code v : Nat) (f : FieldDie) : FieldDie :=
  ((if code = 0 then dropTmr F_CFG_PROOF (((endedDie code f).wrN F_CFG_PROOF v).put F_CFG_PROOF_STAT_committed 1)
    else endedDie code f).put F_CFG_PROOF_STAT_stale 0).raise F_CFG_EVT 0

/-- What follows a commit that is granted: its image is staged, and written for a resume. -/
def followCommit (code v : Nat) (f : FieldDie) : FieldDie :=
  let g := stageImage (canonicalImage f v) f
  if code = 0 ∨ g.get F_PWR_STATE_resume_stat ≠ 2 then startResume (canonicalImage f v) g else g

theorem endCommit_eq (op v : Nat) (f : FieldDie) : endCommit op v f =
    if commitCode f op v = 0 ∨ commitCode f op v = 3 then
      followCommit (commitCode f op v) v (grantedDie (commitCode f op v) v f)
    else (endedDie (commitCode f op v) f).raise F_CFG_EVT 1 := rfl

theorem followCommit_cfgKept (code v : Nat) (f : FieldDie) : CfgKept f (followCommit code v f) := by
  have staged := stageImage_cfgKept (canonicalImage f v) f
  exact .ite (staged.trans (startResume_cfgKept _ _)) staged

/-- The die whose entry of the proof is `v`, in each of its copies. -/
def provenDie (v : Nat) (f : FieldDie) : FieldDie :=
  dropTmr F_CFG_PROOF (((endedDie 0 f).wrN F_CFG_PROOF v).put F_CFG_PROOF_STAT_committed 1)

/-- The die of a commit that has taken the value `v` as the proof. -/
def provedDie (v : Nat) (f : FieldDie) : FieldDie := ((provenDie v f).put F_CFG_PROOF_STAT_stale 0).raise F_CFG_EVT 0

theorem grantedDie_new (v : Nat) (f : FieldDie) : grantedDie 0 v f = provedDie v f := by
  unfold grantedDie
  rw [if_pos rfl, provedDie, provenDie]

theorem commitCode_unequal (hc : f.cfg.covered = false) (hv : v ≠ f.cfg.expect) : commitCode f 2 v = 1 := by
  unfold commitCode
  rw [if_neg (by simp [hc]), if_pos ⟨rfl, hv⟩]

theorem commitCode_first (hc : f.cfg.covered = false) (hv : op = 2 → v = f.cfg.expect)
    (hn : f.flag F_CFG_PROOF_STAT_committed = false) : commitCode f op v = 0 := by
  unfold commitCode
  rw [if_neg (by simp [hc]), if_neg (fun h => h.2 (hv h.1)), if_neg (by simp [hn])]

theorem endCommit_refused (h : commitCode f op v = 1) : endCommit op v f = (endedDie 1 f).raise F_CFG_EVT 1 := by
  rw [endCommit_eq, h, if_neg (by decide)]

theorem endCommit_proved (h : commitCode f op v = 0) : endCommit op v f = followCommit 0 v (provedDie v f) := by
  rw [endCommit_eq, h, if_pos (.inl rfl), grantedDie_new]

theorem dropTmr_rd (a b : Nat) (f : FieldDie) : (dropTmr a f).rd b = f.rd b := rfl

theorem provenDie_rd (v : Nat) (f : FieldDie) : (provenDie v f).rd F_CFG_PROOF = word v := by
  unfold provenDie
  rw [dropTmr_rd, FieldDie.rd_put_ne _ _ _ _ (by decide), FieldDie.rd_wrN, if_pos rfl]

theorem provenDie_committed (v : Nat) (f : FieldDie) : (provenDie v f).get F_CFG_PROOF_STAT_committed = 1 := by
  unfold provenDie
  rw [FieldDie.get_eq _ (dropTmr_rd _ _ _), FieldDie.get_put _ _ _ (by decide) (by decide)]
  rfl

/-- The fields of F_CFG_PROOF_STAT above stale are those of the commit's end. -/
theorem provenDie_get {r : Fld} (hr : r.addr = F_CFG_PROOF_STAT) (hd : 1 < r.lo) (v : Nat) (f : FieldDie) :
    (provenDie v f).get r = (endedDie 0 f).get r := by
  unfold provenDie
  rw [FieldDie.get_eq _ (dropTmr_rd _ _ _), FieldDie.get_put_field _ F_CFG_PROOF_STAT_committed r _ hr (by decide) (by decide)
    (.inl (Nat.lt_of_succ_lt hd))]
  exact FieldDie.get_eq _ ((FieldDie.rd_wrN _ _ _ _).trans (if_neg (by rw [hr]; decide)))

theorem provedDie_get {r : Fld} (hr : r.addr = F_CFG_PROOF_STAT) (hd : 1 < r.lo ∨ r.hi < 1) (v : Nat) (f : FieldDie) :
    (provedDie v f).get r = (provenDie v f).get r := by
  unfold provedDie
  rw [FieldDie.get_raise_ne _ (by rw [hr]; decide) (by rw [hr]; decide)]
  exact FieldDie.get_put_field _ F_CFG_PROOF_STAT_stale r _ hr (by decide) (by decide) hd

theorem provedDie_stale (v : Nat) (f : FieldDie) : (provedDie v f).get F_CFG_PROOF_STAT_stale = 0 := by
  unfold provedDie
  rw [FieldDie.get_raise_ne _ (by decide) (by decide), FieldDie.get_put _ _ _ (by decide) (by decide)]
  rfl

theorem provedDie_committed (v : Nat) (f : FieldDie) : (provedDie v f).get F_CFG_PROOF_STAT_committed = 1 :=
  (provedDie_get (r := F_CFG_PROOF_STAT_committed) rfl (by decide) v f).trans (provenDie_committed v f)

theorem provedDie_busy (v : Nat) (f : FieldDie) : (provedDie v f).get F_CFG_PROOF_STAT_busy = 0 :=
  (provedDie_get (r := F_CFG_PROOF_STAT_busy) rfl (by decide) v f).trans
    ((provenDie_get (r := F_CFG_PROOF_STAT_busy) rfl (by decide) v f).trans (endedDie_busy 0 f))

theorem provedDie_result (v : Nat) (f : FieldDie) : (provedDie v f).get F_CFG_PROOF_STAT_result = 0 :=
  (provedDie_get (r := F_CFG_PROOF_STAT_result) rfl (by decide) v f).trans
    ((provenDie_get (r := F_CFG_PROOF_STAT_result) rfl (by decide) v f).trans (endedDie_result (by decide) f))

theorem provedDie_proof (v : Nat) (f : FieldDie) : (provedDie v f).rd F_CFG_PROOF = word v := by
  unfold provedDie
  rw [FieldDie.raise_rd _ _ _ _ (by decide) (by decide), FieldDie.rd_put_ne _ _ _ _ (by decide), provenDie_rd]

theorem provedDie_event (v : Nat) (f : FieldDie) : (provedDie v f).sq F_CFG_EVT 0 = true :=
  FieldDie.raise_sq _ _ _ (by decide) (by decide)

theorem provedDie_commit (v : Nat) (f : FieldDie) : (provedDie v f).cfg.commit = none := by
  unfold provedDie
  rw [FieldDie.raise_cfg]
  rfl

theorem settle_cfgKept (f : FieldDie) : CfgKept f (settle f) where
  commit := by rw [settle_cfg]
  regs a h1 h2 := by
    refine settle_rd_of_notMem f fun hc => ?_
    simp only [coverRegs, F_FLT_COVER, F_FLT_EVT2, F_XNG_EVT, List.mem_cons, List.not_mem_nil, or_false] at hc
    omega

/-- The end of a first commit, its fault, image and resume write included, leaves the CFG block as `provedDie` has it. -/
theorem decideCommit_proved (h : f.cfg.commit = some op) (hs : f.cfg.commitSweep = true) (hc : f.cfg.covered = false)
    (hv : op = 2 → v = f.cfg.expect) (hn : f.flag F_CFG_PROOF_STAT_committed = false) :
    CfgKept (provedDie v f) (judgeProof v (decideCommit v f)) := by
  rw [decideCommit_some h hs, endCommit_proved (commitCode_first hc hv hn)]
  exact (followCommit_cfgKept 0 v _).trans (judgeProof_cfgKept v _)

theorem decideCommit_refused (h : f.cfg.commit = some 2) (hs : f.cfg.commitSweep = true) (hc : f.cfg.covered = false)
    (hv : v ≠ f.cfg.expect) (hn : f.flag F_CFG_PROOF_STAT_committed = false) :
    judgeProof v (decideCommit v f) = (endedDie 1 f).raise F_CFG_EVT 1 := by
  rw [decideCommit_some h hs, endCommit_refused (commitCode_unequal hc hv)]
  refine judgeProof_of_uncommitted ?_ v
  have kept : ((endedDie 1 f).raise F_CFG_EVT 1).get F_CFG_PROOF_STAT_committed = f.get F_CFG_PROOF_STAT_committed :=
    (FieldDie.get_raise_ne _ (by decide) (by decide)).trans (endedDie_committed 1 f)
  exact (flag_eq_of_get kept).trans hn

/-! ### The statement -/

section
variable (hr : s.fld.phase = .running) (hsw : s.fld.cfg.sweeping = true) (hn : s.fld.flag F_CFG_PROOF_STAT_committed = false)
include hr hsw hn

/-- A sweep that decides no commit, before the first proof. -/
theorem proofSweepEnd_background (hcm : s.fld.cfg.commit = none) :
    ∃ t, exec .proofSweepEnd s = .next t ∧ t.fld.rd F_CFG_PROOF_RUN = word (proofValue s.fld) ∧
      t.fld.get F_CFG_PROOF_STAT_sweep_cnt = (s.fld.get F_CFG_PROOF_STAT_sweep_cnt + 1) % 2 ^ 16 ∧
      FieldFrame [F_CFG_PROOF_RUN, F_CFG_PROOF_STAT] (unsweptDie s.fld) s t := by
  refine ⟨_, execProofSweepEnd_of_sweeping hr hsw, ?_⟩
  rw [decideCommit_none ((sweptDie_commit _ _).trans hcm), judgeProof_of_uncommitted (sweptDie_uncommitted hn _)]
  exact ⟨(settle_rd_of_notMem _ (by decide)).trans (sweptDie_run _ _),
    (settle_get_of_notMem (by decide)).trans (sweptDie_count _ _),
    (sweptDie_softMoves (by decide) (by decide) _ _).frame rfl⟩

variable (hcs : s.fld.cfg.commitSweep = true) (hc : s.fld.cfg.covered = false)
include hcs hc

/-- The first commit takes the sweep's value as the proof. -/
theorem proofSweepEnd_proved (hcm : s.fld.cfg.commit = some op) (hv : op = 2 → proofValue s.fld = s.fld.cfg.expect) :
    ∃ t, exec .proofSweepEnd s = .next t ∧ CfgKept (provedDie (proofValue s.fld) (sweptDie (proofValue s.fld) s.fld)) t.fld ∧
      FieldOnly s t := by
  have kept := decideCommit_proved ((sweptDie_commit _ _).trans hcm) ((sweptDie_commitSweep _ _).trans hcs)
    ((sweptDie_covered _ _).trans hc) (fun h => (hv h).trans (sweptDie_expect (proofValue s.fld) _).symm)
    (sweptDie_uncommitted hn _)
  exact ⟨_, execProofSweepEnd_of_sweeping hr hsw, kept.trans (settle_cfgKept _), ⟨rfl, rfl, rfl, rfl⟩⟩

/-- A commit of op 2 whose sweep has not found the expected value. -/
theorem proofSweepEnd_refused (hcm : s.fld.cfg.commit = some 2) (hv : proofValue s.fld ≠ s.fld.cfg.expect) :
    ∃ t, exec .proofSweepEnd s = .next t ∧ t.fld.get F_CFG_PROOF_STAT_busy = 0 ∧ t.fld.get F_CFG_PROOF_STAT_result = 1 ∧
      t.fld.sq F_CFG_EVT 1 = true ∧ t.fld.cfg.commit = none ∧
      FieldFrame [F_CFG_PROOF_RUN, F_CFG_PROOF_STAT, F_CFG_EVT] (uncommittingDie s.fld) s t := by
  refine ⟨_, execProofSweepEnd_of_sweeping hr hsw, ?_⟩
  rw [decideCommit_refused ((sweptDie_commit _ _).trans hcm) ((sweptDie_commitSweep _ _).trans hcs)
    ((sweptDie_covered _ _).trans hc) (by rwa [sweptDie_expect]) (sweptDie_uncommitted hn _)]
  refine ⟨?_, ?_, ?_, ?_, ?_⟩
  · exact (settle_get_of_notMem (by decide)).trans
      ((FieldDie.get_raise_ne _ (by decide) (by decide)).trans (endedDie_busy 1 _))
  · exact (settle_get_of_notMem (by decide)).trans
      ((FieldDie.get_raise_ne _ (by decide) (by decide)).trans (endedDie_result (by decide) _))
  · exact (settle_sq_of_notMem (by decide)).trans (FieldDie.raise_sq _ _ _ (by decide) (by decide))
  · exact (congrArg CfgX.commit (settle_cfg _)).trans (congrArg CfgX.commit (FieldDie.raise_cfg _ _ _))
  · exact (refusedDie_softMoves _ s.fld).frame rfl

end

/-- Settles O24: a sweep's end is `sweptDie`, followed for the commit that it decides by `provedDie` or `endedDie`. -/
theorem proofSweepsAndCommits : Obligations.ProofSweepsAndCommits := by
  unfold Obligations.ProofSweepsAndCommits
  refine ⟨fun s hr h => proofSweepStart_frame hr h, fun s req hw hl hb => ⟨?_, ?_⟩,
    fun s hr hsw hcm hn => proofSweepEnd_background hr hsw hn hcm, fun s op hr hsw hcs hcm hc hn hv => ?_,
    fun s hr hsw hcs hcm hc hv hn => proofSweepEnd_refused hr hsw hn hcs hc hcm hv⟩
  · exact proofRequested hw hl hb (.inl rfl)
  · obtain ⟨t, step, busy, -, frame⟩ := proofRequested hw hl hb (.inr rfl)
    exact ⟨t, step, busy, frame⟩
  · obtain ⟨t, step, kept, only⟩ := proofSweepEnd_proved hr hsw hn hcs hc hcm hv
    exact ⟨t, step, (kept.regs _ (by decide) (by decide)).trans (provedDie_proof _ _),
      (kept.get_eq (by decide) (by decide)).trans (provedDie_committed _ _),
      (kept.get_eq (by decide) (by decide)).trans (provedDie_stale _ _),
      (kept.get_eq (by decide) (by decide)).trans (provedDie_busy _ _),
      (kept.get_eq (by decide) (by decide)).trans (provedDie_result _ _),
      (FieldDie.sq_eq (kept.regs _ (by decide) (by decide))).trans (provedDie_event _ _),
      kept.commit.trans (provedDie_commit _ _), only⟩

end Sys2Proof.Machine
end

section
/-! What a register write and the change of a port's state that it brings about move together. -/

namespace Sys2Proof.Machine

variable {but but' : List Nat} {s : State} {f g h f' : FieldDie} {req n : Nat}

theorem side_of_rest (e : g.rest = f.rest) : g.side = f.side := by
  have side_rest : ∀ x : FieldDie, x.side = x.rest.side := fun _ => rfl
  rw [side_rest g, side_rest f, e]

theorem ports_of_rest (e : g.rest = f.rest) : g.ports = f.ports := by
  have ports_rest : ∀ x : FieldDie, x.ports = x.rest.ports := fun _ => rfl
  rw [ports_rest g, ports_rest f, e]

theorem tim_of_rest (e : g.rest = f.rest) : g.tim = f.tim := by
  have tim_rest : ∀ x : FieldDie, x.tim = x.rest.tim := fun _ => rfl
  rw [tim_rest g, tim_rest f, e]

theorem cfg_of_side (e : g.side = f.side) : g.cfg = f.cfg := by
  have cfg_side : ∀ x : FieldDie, x.cfg = x.side.cfg := fun _ => rfl
  rw [cfg_side g, cfg_side f, e]

theorem isRunning_of_side (e : g.side = f.side) : g.isRunning = f.isRunning := by
  have running_side : ∀ x : FieldDie, x.isRunning = x.side.isRunning := fun _ => rfl
  rw [running_side g, running_side f, e]

/-- From `f` to `g` only queues, frames, the listed registers and those of the parser and above have moved, with what
the end of any command can move. -/
structure LowMoves (but : List Nat) (f g : FieldDie) : Prop where
  side : g.side = f.side
  regs : ∀ a, a < 0x140000 → a ∉ but → a ∉ coverRegs → g.rd a = f.rd a

theorem LowMoves.trans (a : LowMoves but f g) (b : LowMoves but g h) : LowMoves but f h :=
  ⟨b.side.trans a.side, fun x hx hp hc => (b.regs x hx hp hc).trans (a.regs x hx hp hc)⟩

theorem SoftMoves.low (m : SoftMoves but f g) (h : but ⊆ but') : LowMoves but' f g :=
  ⟨side_of_rest m.rest, fun a _ hp hc => m.regs a (fun ha => hp (h ha)) hc⟩

theorem SoftMoves.mono (m : SoftMoves but f g) (h : but ⊆ but') : SoftMoves but' f g :=
  ⟨m.rest, m.send, fun a hp hc => m.regs a (fun ha => hp (h ha)) hc⟩

theorem PortSame.low (m : PortSame n f g) (but : List Nat) : LowMoves (portRegs n ++ but) f g :=
  ⟨m.side, fun a ha hp _ => m.rd a ha fun hm => hp (List.mem_append_left _ hm)⟩

/-- What such moves leave at the end of their command. They start at a die with the command's registers. -/
theorem LowMoves.frame (m : LowMoves but f' g) (hreg : f'.reg = s.fld.reg) :
    LowFrame but f' s { s with fld := settle g } where
  only := ⟨rfl, rfl, rfl, rfl⟩
  side := (FieldDie.side_eq (settle_core g)).trans m.side
  regs a ha hp hc := (settle_rd_of_notMem g hc).trans ((m.regs a ha hp hc).trans (FieldDie.rd_eq hreg a))

/-! ### A port's record after it has been changed -/

theorem portX_setPortX_self {p : PortX → PortX} (hn : n < f.ports.length) : (f.setPortX n p).portX n = p (f.portX n) := by
  unfold FieldDie.portX FieldDie.setPortX modAt
  simp [List.getD_eq_getElem?_getD, hn]

/-- Two changes of a port's record that agree at what it holds are one. -/
theorem setPortX_congr {p q : PortX → PortX} (h : p (f.portX n) = q (f.portX n)) : f.setPortX n p = f.setPortX n q := by
  have same : f.ports.modify n p = f.ports.modify n q := by
    refine List.ext_getElem? fun i => ?_
    rw [List.getElem?_modify, List.getElem?_modify]
    by_cases hi : n = i
    · subst hi
      unfold FieldDie.portX at h
      rw [List.getD_eq_getElem?_getD] at h
      cases hx : f.ports[n]? with
      | none => rfl
      | some x =>
        rw [hx] at h
        simpa using h
    · simp [hi]
  unfold FieldDie.setPortX modAt
  rw [same]

/-- Two changes of a port's record, one after the other. -/
theorem setPortX_setPortX (p q : PortX → PortX) : (f.setPortX n p).setPortX n q = f.setPortX n (q ∘ p) := by
  unfold FieldDie.setPortX modAt
  rw [List.modify_modify_eq]

theorem setPortX_id (n : Nat) (f : FieldDie) : f.setPortX n id = f := by
  unfold FieldDie.setPortX modAt
  rw [List.modify_id]

/-- A port whose record is not the default one is one of the die's. -/
theorem lt_ports_length (h : f.portX n ≠ {}) : n < f.ports.length := by
  refine not_le.1 fun hle => h ?_
  unfold FieldDie.portX
  rw [List.getD_eq_getElem?_getD, List.getElem?_eq_none hle]
  rfl

end Sys2Proof.Machine
end

section
/-! Writes of the ports' registers: what each stores, and with the proof marked as stale what that moves. -/

namespace Sys2Proof.Machine

variable {but : List Nat} {s : State} {f g h f' : FieldDie} {req n a v data : Nat}

/-! ### Addresses of the ports' block -/

/-- The registers of the ports, from F_PORT_MODE of P0 to the last of P15. -/
abbrev portBlock (a : Nat) : Prop := 0x100000 ≤ a ∧ a < 0x110000

theorem notMem_coverRegs_of_portBlock (h : portBlock a) : a ∉ coverRegs := by
  obtain ⟨hlo, hhi⟩ := h
  simp only [coverRegs, List.mem_cons, List.not_mem_nil, or_false, not_or]
  unfold F_FLT_COVER F_FLT_EVT2 F_XNG_EVT
  omega

theorem ne_proofStat_of_portBlock (h : portBlock a) : a ≠ F_CFG_PROOF_STAT := by
  unfold F_CFG_PROOF_STAT
  omega

theorem portStat_portBlock (hn : n < 16) : portBlock (F_PORT_STAT n) := by unfold F_PORT_STAT; omega

theorem portMode_portBlock (hn : n < 16) : portBlock (F_PORT_MODE n) := by unfold F_PORT_MODE; omega

theorem portMaxFrame_portBlock (hn : n < 16) : portBlock (F_PORT_MAXFRM n) := by unfold F_PORT_MAXFRM; omega

theorem portSleep_portBlock (hn : n < 16) : portBlock (F_PORT_SLEEP n) := by unfold F_PORT_SLEEP; omega

/-! ### A covered word is stored (R245, R270) -/

/-- The die of which the covered word at `a` has been written as `v`, its CFG record become `c`. -/
def storedAt (a v : Nat) (c : CfgX) (f : FieldDie) : FieldDie := { f.wrN a v with cfg := c }.touchProof

theorem storedAt_cfg (a v : Nat) (c : CfgX) (f : FieldDie) : (storedAt a v c f).cfg = { c with covered := true } :=
  (touchProof_softMoves (List.mem_singleton.2 rfl) { f.wrN a v with cfg := c }).cfg_eq

theorem storedAt_softMoves (a v : Nat) (c : CfgX) (f : FieldDie) :
    SoftMoves [a, F_CFG_PROOF_STAT] { f with cfg := (storedAt a v c f).cfg } (storedAt a v c f) := by
  rw [storedAt_cfg]
  exact (FieldDie.wrN_softMoves (by simp) { f with cfg := { c with covered := true } } v).trans
    (touchProof_softMoves (by simp) { f.wrN a v with cfg := c })

/-- As `storedAt_softMoves`, from the die whose quiet the write breaks. -/
theorem storedAt_napBreak_softMoves (a v : Nat) (c : CfgX) (f : FieldDie) : SoftMoves [a, F_CFG_PROOF_STAT]
    { f with cfg := (storedAt a v c f.napBreak).cfg } (storedAt a v c f.napBreak) :=
  (FieldDie.napBreak_softMoves _).trans (storedAt_softMoves a v c f.napBreak)

theorem storedAt_portX (a v m : Nat) (c : CfgX) (f : FieldDie) : (storedAt a v c f).portX m = f.portX m :=
  portX_of_ports (ports_of_rest (storedAt_softMoves a v c f).rest) m

theorem storedAt_isRunning (a v : Nat) (c : CfgX) (f : FieldDie) : (storedAt a v c f).isRunning = f.isRunning :=
  (isRunning_of_side (side_of_rest (storedAt_softMoves a v c f).rest)).trans rfl

theorem storedAt_engineRuns (a v k : Nat) (c : CfgX) (f : FieldDie) : (storedAt a v c f).engineRuns k = f.engineRuns k :=
  engineRuns_eq (side_of_rest (storedAt_softMoves a v c f).rest) k

/-- Every other register of the ports stands. -/
theorem storedAt_rd_ne {b : Nat} (hb : portBlock b) (hne : b ≠ a) (c : CfgX) (f : FieldDie) :
    (storedAt a v c f).rd b = f.rd b :=
  (storedAt_softMoves a v c f).rd_eq (by simp [hne, ne_proofStat_of_portBlock hb]) (notMem_coverRegs_of_portBlock hb)

theorem storedAt_stale (a v : Nat) (c : CfgX) (f : FieldDie) : (storedAt a v c f).flag F_CFG_PROOF_STAT_stale = true :=
  touchProof_stale _

theorem storedAt_rdN (ha : portBlock a) (hv : v < 2 ^ 32) (c : CfgX) (f : FieldDie) : (storedAt a v c f).rdN a = v := by
  have touched : (storedAt a v c f).rd a = ({ f.wrN a v with cfg := c } : FieldDie).rd a :=
    (touchProof_softMoves (List.mem_singleton.2 rfl) _).rd_eq (by simpa using ne_proofStat_of_portBlock ha)
      (notMem_coverRegs_of_portBlock ha)
  exact (congrArg BitVec.toNat touched).trans (FieldDie.rdN_wrN_same hv f a)

theorem storedAt_get {r : Fld} (hr : r.addr = a) (ha : portBlock a) (hv : v < 2 ^ 32) (c : CfgX) (f : FieldDie) :
    (storedAt a v c f).get r = bitsOf v r.hi r.lo := by
  unfold FieldDie.get
  rw [hr, storedAt_rdN ha hv]

theorem settle_stale (h : g.flag F_CFG_PROOF_STAT_stale = true) : (settle g).flag F_CFG_PROOF_STAT_stale = true := by
  have kept : (settle g).get F_CFG_PROOF_STAT_stale = g.get F_CFG_PROOF_STAT_stale := settle_get_of_notMem (by decide)
  unfold FieldDie.flag
  rw [kept]
  exact h

/-- A command that only stores a covered word. -/
theorem storedAt_frame (a v : Nat) (c : CfgX) (s : State) :
    FieldFrame [a, F_CFG_PROOF_STAT] { s.fld with cfg := (settle (storedAt a v c s.fld.napBreak)).cfg } s
      { s with fld := settle (storedAt a v c s.fld.napBreak) } := by
  rw [settle_cfg]
  exact (storedAt_napBreak_softMoves a v c s.fld).frame rfl

/-- A register write for a thing of number `n` acts on the die whose quiet it breaks. -/
theorem State.onItemWrite_of_canWrite {k : FieldDie → FieldDie} {lim : Nat} (hw : s.fld.canWrite req = true) (hn : n < lim) :
    s.onItemWrite req n lim k = .next { s with fld := settle (k s.fld.napBreak) } := by
  refine (State.onWrite_of_canWrite hw).trans ?_
  rw [if_pos hn]

/-! ### F_PORT_n_MAXFRM (Table 7.10) -/

/-- max_frame is one covered field of software's. -/
def maxFrameRow : RegRow := ⟨0x100008, 0x1000, 16, .const 0x00000800, false, true, [⟨11, 0, .rw, false, none, false⟩]⟩

theorem regRow_maxFrame : ∀ n, n < 16 → regRow (F_PORT_MAXFRM n) = some maxFrameRow := by decide

/-- The word that a write of `data` makes of `w`. -/
def maxFrameWord (w data : Nat) : Nat := putBits w 11 0 (bitsOf data 11 0)

theorem maxFrameWord_lt {w : Nat} (hw : w < 2 ^ 32) (data : Nat) : maxFrameWord w data < 2 ^ 32 :=
  putBits_lt _ _ _ _ _ (by decide) (by decide) hw

theorem maxFrameWord_max_frame (w data : Nat) : bitsOf (maxFrameWord w data) 11 0 = bitsOf data 11 0 :=
  (bitsOf_putBits_same _ _ _ _ (by decide)).trans (Nat.mod_eq_of_lt (bitsOf_lt _ _ _))

theorem storeWrite_maxFrame (hn : n < 16) (req data : Nat) (f : FieldDie) :
    storeWrite req (F_PORT_MAXFRM n) data f =
      storedAt (F_PORT_MAXFRM n) (maxFrameWord (f.rdN (F_PORT_MAXFRM n)) data) f.cfg f := by
  unfold storeWrite
  rw [regRow_maxFrame n hn]
  rfl

theorem writeMaxFrame_of_outside (hv : bitsOf data 11 0 < 64 ∨ 2048 < bitsOf data 11 0) :
    writeMaxFrame req n data f = f.raise (F_PORT_EVT n) 3 := if_pos hv

theorem writeMaxFrame_of_inside (hlo : 64 ≤ bitsOf data 11 0) (hhi : bitsOf data 11 0 ≤ 2048) :
    writeMaxFrame req n data f = storeWrite req (F_PORT_MAXFRM n) data f := if_neg (by omega)

/-- A refusal that mode_reject reports moves nothing else (R293, R325). -/
theorem modeReject_frame (hn : n < 16) (s : State) :
    (settle (s.fld.napBreak.raise (F_PORT_EVT n) 3)).sq (F_PORT_EVT n) 3 = true ∧
      FieldFrame [F_PORT_EVT n] s.fld s { s with fld := settle (s.fld.napBreak.raise (F_PORT_EVT n) 3) } := by
  have moves : SoftMoves [F_PORT_EVT n] s.fld (s.fld.napBreak.raise (F_PORT_EVT n) 3) :=
    s.fld.napBreak_softMoves.trans (FieldDie.raise_softMoves (by simp) _ _)
  refine ⟨?_, moves.frame rfl⟩
  exact (settle_sq_of_notMem (portEvt_notMem_coverRegs hn)).trans (FieldDie.raise_sq _ _ _ (portEvt_ne_xng hn) (by decide))

/-- Settles O14: a refused write only raises, and a permitted one is `storedAt`. -/
theorem maxFrameOutsideItsRangeIsRefused : Obligations.MaxFrameOutsideItsRangeIsRefused := by
  unfold Obligations.MaxFrameOutsideItsRangeIsRefused
  refine ⟨fun s req n data hw hn hv => ?_, fun s req n data hw hn hlo hhi => ?_⟩
  · have step := State.onItemWrite_of_canWrite (k := writeMaxFrame req n data.toNat) hw hn
    rw [writeMaxFrame_of_outside hv] at step
    obtain ⟨raised, frame⟩ := modeReject_frame hn s
    have apart : F_PORT_MAXFRM n ∉ [F_PORT_EVT n] := by
      unfold F_PORT_MAXFRM F_PORT_EVT
      simp
    exact ⟨_, step, raised,
      FieldDie.get_eq _ (frame.regs _ apart (notMem_coverRegs_of_portBlock (portMaxFrame_portBlock hn))), frame⟩
  · have step := State.onItemWrite_of_canWrite (k := writeMaxFrame req n data.toNat) hw hn
    rw [writeMaxFrame_of_inside hlo hhi, storeWrite_maxFrame hn] at step
    have block : portBlock (F_PORT_MAXFRM n) := portMaxFrame_portBlock hn
    refine ⟨_, step, ?_, settle_stale (storedAt_stale _ _ _ _), storedAt_frame _ _ _ s⟩
    have stored := storedAt_get (r := F_PORT_MAXFRM_max_frame n) rfl block
      (maxFrameWord_lt (s.fld.napBreak.rdN_lt (F_PORT_MAXFRM n)) data.toNat) s.fld.napBreak.cfg s.fld.napBreak
    exact (settle_get_of_notMem (r := F_PORT_MAXFRM_max_frame n) (notMem_coverRegs_of_portBlock block)).trans
      (stored.trans (maxFrameWord_max_frame _ _))

end Sys2Proof.Machine
end

section
/-! Port modes (O15): what a write of F_PORT_n_MODE refuses and stores, and the end of the mode-change hold. -/

namespace Sys2Proof.Machine

variable {s : State} {f g : FieldDie} {req n old data : Nat}

/-! ### The stored word (Table 7.8) -/

/-- The three fields of F_PORT_n_MODE are software's and covered; the mode and enable are triplicated. -/
def portModeRow : RegRow :=
  ⟨0x100000, 0x1000, 16, .port, false, true,
    [⟨6, 4, .rw, true, none, false⟩, ⟨3, 2, .rw, false, none, false⟩, ⟨0, 0, .rw, true, none, false⟩]⟩

theorem regRow_portMode : ∀ n, n < 16 → regRow (F_PORT_MODE n) = some portModeRow := by decide

theorem bitOf_of_hasBit_false {w i : Nat} (h : hasBit w i = false) : bitOf w i = 0 := by
  unfold hasBit at h
  unfold bitOf
  simpa using h

/-- The word that a write of `data` makes of `w`. -/
def portModeWord (w data : Nat) : Nat :=
  putBits (putBits (putBits w 6 4 (bitsOf data 6 4)) 3 2 (bitsOf data 3 2)) 0 0 (bitsOf data 0 0)

theorem portModeWord_lt {w : Nat} (hw : w < 2 ^ 32) (data : Nat) : portModeWord w data < 2 ^ 32 :=
  putBits_lt _ _ _ _ _ (by decide) (by decide)
    (putBits_lt _ _ _ _ _ (by decide) (by decide) (putBits_lt _ _ _ _ _ (by decide) (by decide) hw))

theorem portModeWord_enable (w data : Nat) : bitsOf (portModeWord w data) 0 0 = bitsOf data 0 0 :=
  (bitsOf_putBits_same _ _ _ _ (by decide)).trans (Nat.mod_eq_of_lt (bitsOf_lt _ _ _))

theorem portModeWord_role (w data : Nat) : bitsOf (portModeWord w data) 3 2 = bitsOf data 3 2 := by
  unfold portModeWord
  rw [bitsOf_putBits_other _ _ _ _ _ _ (by decide) (by decide), bitsOf_putBits_same _ _ _ _ (by decide)]
  exact Nat.mod_eq_of_lt (bitsOf_lt _ _ _)

theorem portModeWord_phy_mode (w data : Nat) : bitsOf (portModeWord w data) 6 4 = bitsOf data 6 4 := by
  unfold portModeWord
  rw [bitsOf_putBits_other _ _ _ _ _ _ (by decide) (by decide), bitsOf_putBits_other _ _ _ _ _ _ (by decide) (by decide),
    bitsOf_putBits_same _ _ _ _ (by decide)]
  exact Nat.mod_eq_of_lt (bitsOf_lt _ _ _)

/-- The die of which the mode of port `n` has been written: every triplicated copy of it is the one written. -/
abbrev modeStored (n data : Nat) (f : FieldDie) : FieldDie :=
  storedAt (F_PORT_MODE n) (portModeWord (f.rdN (F_PORT_MODE n)) data)
    { f.cfg with tmr := f.cfg.tmr.filter (fun e => tmrReg e.1 != F_PORT_MODE n) } f

theorem storeWrite_portMode (hn : n < 16) (req data : Nat) (f : FieldDie) :
    storeWrite req (F_PORT_MODE n) data f = modeStored n data f := by
  unfold storeWrite
  rw [regRow_portMode n hn]
  rfl

theorem modeStored_softMoves (n data : Nat) (f : FieldDie) : SoftMoves [F_PORT_MODE n, F_CFG_PROOF_STAT]
    { f with cfg := (modeStored n data f.napBreak).cfg } (modeStored n data f.napBreak) :=
  storedAt_napBreak_softMoves _ _ _ f

theorem modeStored_get {r : Fld} (hr : r.addr = F_PORT_MODE n) (hn : n < 16) (data : Nat) (f : FieldDie) :
    (modeStored n data f).get r = bitsOf (portModeWord (f.rdN (F_PORT_MODE n)) data) r.hi r.lo :=
  storedAt_get hr (portMode_portBlock hn) (portModeWord_lt (f.rdN_lt _) data) _ f

theorem modeStored_phyMode (hn : n < 16) (data : Nat) (f : FieldDie) :
    phyMode (modeStored n data f) n = bitsOf data 6 4 :=
  (modeStored_get rfl hn data f).trans (portModeWord_phy_mode _ _)

/-! ### What a write does (R293, R296, R301) -/

theorem writePortMode_of_refused (h : modeOk n (bitsOf data 6 4) = false ∨ bitsOf data 3 2 = 3) :
    writePortMode req n data f = f.raise (F_PORT_EVT n) 3 := if_pos h

/-- A mode that the port accepts leaves the vote as it is. -/
theorem votedMode_of_accepted (hm : modeOk n (phyMode f n) = true) (hb : (f.portX n).modeBad = false) :
    votedMode n f = f := by
  unfold votedMode
  rw [if_pos hm, if_neg (by simp [hb])]

/-- Once enable is 0, the port is disabled where it was enabled, and nothing else follows. -/
theorem modeChanged_of_cleared (hr : f.isRunning = true) (hw : bitOf (f.rdN (F_PORT_MODE n)) 0 = 0) :
    modeChanged n old f = if bitOf old 0 = 1 then disablePort n f else f := by
  unfold modeChanged
  dsimp only
  rw [if_neg (by simp [hr]), if_neg (show ¬(bitOf (f.rdN (F_PORT_MODE n)) 0 = 1 ∧ _) by simp [hw])]
  simp [hw]

theorem disablePort_portSame (n : Nat) (f : FieldDie) : PortSame n f (disablePort n f) :=
  (enterState_portSame n 0 6 f).trans (putStat_portSame _ _ _ rfl)

theorem putReason_state (n v : Nat) (f : FieldDie) :
    portState (f.put (F_PORT_STAT_down_reason n) v) n = portState f n :=
  put_port_state _ _ _ _ (.inr ⟨rfl, by show 24 ≤ 27; decide, by show 27 < 28; decide⟩)

theorem disablePort_state (hn : n < 16) (he : f.engineRuns n = true) : portState (disablePort n f) n = 0 :=
  (putReason_state n 6 _).trans (enterState_state n 0 6 f hn (by decide) he)

/-- An accepted write that leaves enable 0 on a running die: the fields are stored, an enabled port is disabled, and the
reason is DISABLED. -/
theorem writePortMode_of_cleared (hn : n < 16) (hr : f.isRunning = true) (hm : modeOk n (bitsOf data 6 4) = true)
    (hrole : bitsOf data 3 2 ≠ 3) (hb : (f.portX n).modeBad = false) (hdata : hasBit data 0 = false) :
    writePortMode req n data f =
      (if bitOf (f.rdN (F_PORT_MODE n)) 0 = 1 then disablePort n (modeStored n data f)
        else modeStored n data f).put (F_PORT_STAT_down_reason n) 6 := by
  have voted : votedMode n (modeStored n data f) = modeStored n data f :=
    votedMode_of_accepted (by rwa [modeStored_phyMode hn]) (by rwa [storedAt_portX])
  have running : (modeStored n data f).isRunning = true := (storedAt_isRunning ..).trans hr
  have cleared : bitOf ((modeStored n data f).rdN (F_PORT_MODE n)) 0 = 0 := by
    have stored := (modeStored_get (r := F_PORT_MODE_enable n) rfl hn data f).trans (portModeWord_enable _ _)
    exact stored.trans (bitOf_of_hasBit_false hdata)
  unfold writePortMode
  dsimp only
  rw [if_neg (by simp [hm, hrole]), storeWrite_portMode hn, voted, modeChanged_of_cleared running cleared, if_pos]
  refine ⟨?_, hdata⟩
  split
  · exact (isRunning_of_side (disablePort_portSame n _).side).trans running
  · exact running

/-! ### The fields that an accepted write leaves -/

/-- What the status shows beside its register moves no field of the mode. -/
structure ModeShown (n data : Nat) (g : FieldDie) : Prop where
  reason : g.get (F_PORT_STAT_down_reason n) = 6
  mode : g.get (F_PORT_MODE_phy_mode n) = bitsOf data 6 4
  role : g.get (F_PORT_MODE_role n) = bitsOf data 3 2
  enable : g.get (F_PORT_MODE_enable n) = bitsOf data 0 0

/-- A die on which the written mode has been stored and only the port's state has followed shows the write. -/
theorem modeShown_settle (hn : n < 16) (hg : g.rd (F_PORT_MODE n) = (modeStored n data f).rd (F_PORT_MODE n)) :
    ModeShown n data (settle (g.put (F_PORT_STAT_down_reason n) 6)) := by
  have kept : ∀ r : Fld, r.addr = F_PORT_MODE n → (settle (g.put (F_PORT_STAT_down_reason n) 6)).get r =
      bitsOf (portModeWord (f.rdN (F_PORT_MODE n)) data) r.hi r.lo := by
    intro r hr
    have hne : F_PORT_MODE n ≠ F_PORT_STAT n := by
      unfold F_PORT_MODE F_PORT_STAT
      omega
    have hput : (g.put (F_PORT_STAT_down_reason n) 6).rd r.addr = (modeStored n data f).rd r.addr := by
      rw [hr, ← hg]
      exact FieldDie.rd_put_ne g _ _ _ hne
    rw [settle_get_of_notMem (hr ▸ notMem_coverRegs_of_portBlock (portMode_portBlock hn)), FieldDie.get_eq r hput,
      modeStored_get hr hn]
  refine ⟨?_, (kept _ rfl).trans (portModeWord_phy_mode _ _), (kept _ rfl).trans (portModeWord_role _ _),
    (kept _ rfl).trans (portModeWord_enable _ _)⟩
  rw [settle_get_of_notMem (portStat_notMem_coverRegs hn),
    FieldDie.get_put _ _ _ (by show 24 ≤ 27; decide) (by show 27 < 32; decide)]
  rfl

/-! ### The clauses -/

theorem enabled_iff : f.flag (F_PORT_MODE_enable n) = true ↔ bitOf (f.rdN (F_PORT_MODE n)) 0 = 1 := by
  have lt : bitOf (f.rdN (F_PORT_MODE n)) 0 < 2 := Nat.mod_lt _ (by decide)
  have flag : f.flag (F_PORT_MODE_enable n) = (bitOf (f.rdN (F_PORT_MODE n)) 0 != 0) := rfl
  rw [flag, bne_iff_ne]
  omega

theorem canWrite_of_isRunning (h : f.isRunning = true) (req : Nat) : f.canWrite req = true := by
  simp [FieldDie.canWrite, h]

/-- An accepted write that clears enable on a running die (R298, R301). -/
theorem exec_portModeWrite_disables {data : Word} (hr : s.fld.isRunning = true) (hn : n < 16)
    (he : s.fld.engineRuns n = true) (hm : modeOk n (bitsOf data.toNat 6 4) = true) (hrole : bitsOf data.toNat 3 2 ≠ 3)
    (hb : (s.fld.portX n).modeBad = false) (hen : s.fld.flag (F_PORT_MODE_enable n) = true)
    (hdata : hasBit data.toNat 0 = false) :
    ∃ t, exec (.portModeWrite req n data) s = .next t ∧ portState t.fld n = 0 ∧ ModeShown n data.toNat t.fld ∧
      PortFrame n [F_PORT_MODE n, F_CFG_PROOF_STAT] { s.fld with cfg := t.fld.cfg } s t := by
  have enabled : bitOf (s.fld.napBreak.rdN (F_PORT_MODE n)) 0 = 1 := enabled_iff.1 hen
  have step := State.onItemWrite_of_canWrite (k := writePortMode req n data.toNat) (canWrite_of_isRunning hr req) hn
  rw [writePortMode_of_cleared (f := s.fld.napBreak) hn hr hm hrole hb hdata, if_pos enabled] at step
  have stored := modeStored_softMoves n data.toNat s.fld
  have runs : (modeStored n data.toNat s.fld.napBreak).engineRuns n = true := (storedAt_engineRuns ..).trans he
  have down := disablePort_portSame n (modeStored n data.toNat s.fld.napBreak)
  have changed := down.trans (putStat_portSame _ (F_PORT_STAT_down_reason n) 6 rfl)
  refine ⟨_, step, ?_, modeShown_settle hn (down.rd _ ?_ (portMode_notMem hn)), ?_⟩
  · exact (settle_get_of_notMem (portStat_notMem_coverRegs hn)).trans ((putReason_state n 6 _).trans (disablePort_state hn runs))
  · exact (portMode_portBlock hn).2.trans (by decide)
  · rw [settle_cfg, cfg_of_side changed.side]
    exact ((stored.low (List.subset_append_right _ _)).trans (changed.low _)).frame rfl

/-- An accepted write to a disabled port that leaves it so (R301). -/
theorem exec_portModeWrite_stays {data : Word} (hr : s.fld.isRunning = true) (hn : n < 16)
    (hm : modeOk n (bitsOf data.toNat 6 4) = true) (hrole : bitsOf data.toNat 3 2 ≠ 3)
    (hb : (s.fld.portX n).modeBad = false) (hen : s.fld.flag (F_PORT_MODE_enable n) = false)
    (hdata : hasBit data.toNat 0 = false) :
    ∃ t, exec (.portModeWrite req n data) s = .next t ∧ ModeShown n data.toNat t.fld ∧
      portState t.fld n = portState s.fld n ∧
      FieldFrame [F_PORT_MODE n, F_PORT_STAT n, F_CFG_PROOF_STAT] { s.fld with cfg := t.fld.cfg } s t := by
  have disabled : bitOf (s.fld.napBreak.rdN (F_PORT_MODE n)) 0 ≠ 1 :=
    fun h => absurd ((enabled_iff (f := s.fld)).2 h) (by simp [hen])
  have step := State.onItemWrite_of_canWrite (k := writePortMode req n data.toNat) (canWrite_of_isRunning hr req) hn
  rw [writePortMode_of_cleared (f := s.fld.napBreak) hn hr hm hrole hb hdata, if_neg disabled] at step
  have stored := modeStored_softMoves n data.toNat s.fld
  refine ⟨_, step, modeShown_settle hn rfl, ?_, ?_⟩
  · refine (settle_get_of_notMem (portStat_notMem_coverRegs hn)).trans ((putReason_state n 6 _).trans ?_)
    exact FieldDie.get_eq (F_PORT_STAT_state n)
      (storedAt_rd_ne (portStat_portBlock hn) (by unfold F_PORT_STAT F_PORT_MODE; omega) _ s.fld.napBreak)
  · rw [settle_cfg, FieldDie.put_cfg]
    have shown := FieldDie.put_softMoves (r := F_PORT_STAT_down_reason n)
      (but := [F_PORT_MODE n, F_PORT_STAT n, F_CFG_PROOF_STAT]) (List.mem_cons_of_mem _ List.mem_cons_self)
      (modeStored n data.toNat s.fld.napBreak) 6
    exact ((stored.mono (List.cons_subset_cons _ (List.subset_cons_self _ _))).trans shown).frame rfl

/-- The mode-change hold ends as the last one of a HELD port (R296). -/
theorem exec_modeChangeHoldEnd_trains (hr : s.fld.phase = .running) (hn : n < 16) (he : s.fld.engineRuns n = true)
    (hst : portState s.fld n = 1) (hin : 5 ∈ (s.fld.portX n).holds) (hall : ∀ r ∈ (s.fld.portX n).holds, r = 5)
    (hb : (s.fld.portX n).modeBad = false) :
    ∃ t, exec (.modeChangeHoldEnd n) s = .next t ∧ portState t.fld n = 2 ∧
      PortFrame n [] (s.fld.setPortX n (fun x => { x with holds := [] })) s t := by
  obtain ⟨freed, hfreed⟩ : ∃ g, g = s.fld.setPortX n (fun x => { x with holds := [] }) := ⟨_, rfl⟩
  have hlen : n < s.fld.ports.length := lt_ports_length fun h => by simp [h] at hin
  have last : (s.fld.portX n).holds.filter (fun r => r != 5) = [] := by simpa using hall
  have ended : s.fld.setPortX n (fun x => { x with holds := x.holds.filter (fun r => r != 5) }) = freed := by
    rw [hfreed]
    exact setPortX_congr (by simp only [last])
  have trains : holdEnd n 5 s.fld = enterState n 2 1 freed := by
    unfold holdEnd
    dsimp only
    rw [ended, if_pos]
    rw [hfreed, portX_setPortX_self hlen]
    exact ⟨hst, rfl⟩
  have step : exec (.modeChangeHoldEnd n) s = .next { s with fld := settle (enterState n 2 1 freed) } := by
    rw [← trains]
    refine (State.onItem_running hr hn).trans ?_
    rw [if_pos ⟨hin, hb⟩]
  have runs : freed.engineRuns n = true := by rwa [hfreed]
  refine ⟨_, step, ?_, ?_⟩
  · exact (settle_get_of_notMem (portStat_notMem_coverRegs hn)).trans (enterState_state n 2 1 freed hn (by decide) runs)
  · rw [← hfreed]
    exact ((enterState_portSame n 2 1 freed).low []).frame (by rw [hfreed]; rfl)

/-- Settles O15: an accepted write is `modeStored`, followed by `disablePort` where it clears enable, and the end of a last
hold is the entry into TRAINING. -/
theorem portModesAndTheirHold : Obligations.PortModesAndTheirHold := by
  unfold Obligations.PortModesAndTheirHold
  refine ⟨fun s req n data hw hn hbad => ?_, fun s req n data hr hn he hm hrole hb hen hdata => ?_,
    fun s req n data hr hn hm hrole hb hen hdata => ?_, fun s n hr hn he hst hin hall hb =>
      exec_modeChangeHoldEnd_trains hr hn he hst hin hall hb⟩
  · have step := State.onItemWrite_of_canWrite (k := writePortMode req n data.toNat) hw hn
    rw [writePortMode_of_refused hbad] at step
    obtain ⟨raised, frame⟩ := modeReject_frame hn s
    exact ⟨_, step, raised, frame⟩
  · obtain ⟨t, step, state, ⟨reason, mode, role, enable⟩, frame⟩ :=
      exec_portModeWrite_disables (req := req) hr hn he hm hrole hb hen hdata
    exact ⟨t, step, state, reason, mode, role, enable.trans (bitOf_of_hasBit_false hdata), frame⟩
  · obtain ⟨t, step, ⟨reason, mode, role, -⟩, state, frame⟩ :=
      exec_portModeWrite_stays (req := req) hr hn hm hrole hb hen hdata
    exact ⟨t, step, reason, mode, role, state, frame⟩

end Sys2Proof.Machine
end

section
/-! Sleep entry (O17): a request, its handshake and refusal, and a partner that falls silent. -/

namespace Sys2Proof.Machine

variable {s : State} {f g : FieldDie} {req n data : Nat}

/-! ### The stored word (Table 7.11) -/

/-- The fields of F_PORT_n_SLEEP are software's and covered but for sleep_req, which is not covered, and wake_now, which
only acts. -/
def portSleepRow : RegRow :=
  ⟨0x10000C, 0x1000, 12, .const 0x00200000, false, true,
    [⟨31, 16, .rw, false, none, false⟩, ⟨3, 3, .rw, false, none, false⟩, ⟨2, 2, .rw, false, none, false⟩,
      ⟨1, 1, .rw, false, none, true⟩, ⟨0, 0, .wo, false, none, false⟩]⟩

theorem regRow_portSleep : ∀ n, n < 12 → regRow (F_PORT_SLEEP n) = some portSleepRow := by decide

/-- The word that a write of `data` makes of `w`. -/
def portSleepWord (w data : Nat) : Nat :=
  putBits (putBits (putBits (putBits w 31 16 (bitsOf data 31 16)) 3 3 (bitsOf data 3 3)) 2 2 (bitsOf data 2 2)) 1 1
    (bitsOf data 1 1)

theorem portSleepWord_lt {w : Nat} (hw : w < 2 ^ 32) (data : Nat) : portSleepWord w data < 2 ^ 32 := by
  unfold portSleepWord
  iterate 4 refine putBits_lt _ _ _ _ _ (by decide) (by decide) ?_
  exact hw

theorem portSleepWord_sleep_req (w data : Nat) : bitsOf (portSleepWord w data) 1 1 = bitsOf data 1 1 :=
  (bitsOf_putBits_same _ _ _ _ (by decide)).trans (Nat.mod_eq_of_lt (bitsOf_lt _ _ _))

theorem portSleepWord_wake_on_tx (w data : Nat) : bitsOf (portSleepWord w data) 3 3 = bitsOf data 3 3 := by
  unfold portSleepWord
  rw [bitsOf_putBits_other _ _ _ _ _ _ (by decide) (by decide), bitsOf_putBits_other _ _ _ _ _ _ (by decide) (by decide),
    bitsOf_putBits_same _ _ _ _ (by decide)]
  exact Nat.mod_eq_of_lt (bitsOf_lt _ _ _)

/-- The die of which F_PORT_n_SLEEP has been written. -/
abbrev sleepStored (n data : Nat) (f : FieldDie) : FieldDie :=
  storedAt (F_PORT_SLEEP n) (portSleepWord (f.rdN (F_PORT_SLEEP n)) data) f.cfg f

theorem storeWrite_portSleep (hn : n < 12) (req data : Nat) (f : FieldDie) :
    storeWrite req (F_PORT_SLEEP n) data f = sleepStored n data f := by
  unfold storeWrite
  rw [regRow_portSleep n hn]
  rfl

theorem sleepStored_softMoves (n data : Nat) (f : FieldDie) : SoftMoves [F_PORT_SLEEP n, F_CFG_PROOF_STAT]
    { f with cfg := (sleepStored n data f.napBreak).cfg } (sleepStored n data f.napBreak) :=
  storedAt_napBreak_softMoves _ _ _ f

theorem sleepStored_get {r : Fld} (hr : r.addr = F_PORT_SLEEP n) (hn : n < 16) (data : Nat) (f : FieldDie) :
    (sleepStored n data f).get r = bitsOf (portSleepWord (f.rdN (F_PORT_SLEEP n)) data) r.hi r.lo :=
  storedAt_get hr (portSleep_portBlock hn) (portSleepWord_lt (f.rdN_lt _) data) _ f

theorem sleepStored_state (hn : n < 16) (data : Nat) (f : FieldDie) :
    portState (sleepStored n data f) n = portState f n :=
  FieldDie.get_eq (F_PORT_STAT_state n)
    (storedAt_rd_ne (portStat_portBlock hn) (by unfold F_PORT_STAT F_PORT_SLEEP; omega) _ f)

/-! ### An effective request (R310) -/

theorem bitsOf_self (w i : Nat) : bitsOf w i i = bitOf w i := by
  unfold bitsOf bitOf
  rw [Nat.add_sub_cancel_left, Nat.pow_one]

theorem hasBit_iff {w i : Nat} : hasBit w i = true ↔ bitsOf w i i = 1 := by
  rw [bitsOf_self]
  exact beq_iff_eq

/-- A stored request is effective on a T1 port that no window holds and no queued frame wakes. -/
theorem sleepWanted_sleepStored (hn : n < 12) (ht : isT1 f n = true) (hw : (f.portX n).windows = [])
    (hreq : hasBit data 1 = true) (hq : hasBit data 3 = true → queuesBusy f n = false) :
    sleepWanted (sleepStored n data f) n = true := by
  have hn' : n < 16 := by omega
  have t1 : isT1 (sleepStored n data f) n = true := by
    unfold isT1 phyMode
    rw [FieldDie.get_eq (F_PORT_MODE_phy_mode n)
      (storedAt_rd_ne (portMode_portBlock hn') (by unfold F_PORT_MODE F_PORT_SLEEP; omega) _ f)]
    exact ht
  have requested : (sleepStored n data f).get (F_PORT_SLEEP_sleep_req n) = 1 :=
    (sleepStored_get rfl hn' data f).trans ((portSleepWord_sleep_req _ _).trans (hasBit_iff.1 hreq))
  have wakeOnTx : (sleepStored n data f).get (F_PORT_SLEEP_wake_on_tx n) = bitsOf data 3 3 :=
    (sleepStored_get rfl hn' data f).trans (portSleepWord_wake_on_tx _ _)
  have busy : queuesBusy (sleepStored n data f) n = queuesBusy f n := by
    unfold queuesBusy
    rw [(storedAt_softMoves _ _ _ f).send.buf]
  have idle : (!(sleepStored n data f).flag (F_PORT_SLEEP_wake_on_tx n) || !queuesBusy (sleepStored n data f) n) = true := by
    unfold FieldDie.flag
    rw [wakeOnTx, busy]
    by_cases h3 : hasBit data 3 = true
    · simp [hq h3]
    · have : bitsOf data 3 3 = 0 := (bitsOf_self _ _).trans (bitOf_of_hasBit_false (by simpa using h3))
      simp [this]
  unfold sleepWanted
  rw [idle, t1, storedAt_portX, hw]
  unfold FieldDie.flag
  rw [requested]
  simpa using hn

theorem trySleep_of_wanted (hup : portState f n = 3) (hw : sleepWanted f n = true) (hretry : (f.portX n).retry = false) :
    trySleep n f = enterState n 4 0 f := if_pos ⟨hup, hw, hretry⟩

/-- A request on a port that is up is stored and tried. -/
theorem writeSleep_of_up (hn : n < 12) (hr : f.isRunning = true) (hup : portState f n = 3) (hreq : hasBit data 1 = true) :
    writeSleep req n data f = trySleep n (sleepStored n data f) := by
  have running : (sleepStored n data f).isRunning = true := (storedAt_isRunning ..).trans hr
  have up : portState (sleepStored n data f) n = 3 := (sleepStored_state (by omega) data f).trans hup
  unfold writeSleep
  rw [storeWrite_portSleep hn]
  simp [hreq, running, up]

/-- An effective sleep request takes a port in UP to SLEEP_ENTRY. -/
theorem exec_sleepRequestWrite_enters {data : Word} (hr : s.fld.phase = .running) (hn : n < 12)
    (he : s.fld.engineRuns n = true) (hup : portState s.fld n = 3) (ht : isT1 s.fld n = true)
    (hw : (s.fld.portX n).windows = []) (hretry : (s.fld.portX n).retry = false) (hreq : hasBit data.toNat 1 = true)
    (hq : hasBit data.toNat 3 = true → queuesBusy s.fld n = false) :
    ∃ t, exec (.sleepRequestWrite req n data) s = .next t ∧ portState t.fld n = 4 ∧
      t.fld.get (F_PORT_SLEEP_sleep_req n) = 1 ∧
      PortFrame n [F_PORT_SLEEP n, F_CFG_PROOF_STAT] { s.fld with cfg := t.fld.cfg } s t := by
  have hn' : n < 16 := by omega
  have running : s.fld.isRunning = true := by simp [FieldDie.isRunning, hr]
  have wanted : sleepWanted (sleepStored n data.toNat s.fld.napBreak) n = true :=
    sleepWanted_sleepStored (f := s.fld.napBreak) hn ht hw hreq hq
  have up : portState (sleepStored n data.toNat s.fld.napBreak) n = 3 := (sleepStored_state hn' _ _).trans hup
  have step := State.onItemWrite_of_canWrite (k := writeSleep req n data.toNat) (canWrite_of_isRunning running req) hn
  rw [writeSleep_of_up (f := s.fld.napBreak) hn running hup hreq,
    trySleep_of_wanted up wanted (by rw [storedAt_portX]; exact hretry)] at step
  have entered := enterState_portSame n 4 0 (sleepStored n data.toNat s.fld.napBreak)
  have away : F_PORT_SLEEP n ∉ coverRegs := notMem_coverRegs_of_portBlock (portSleep_portBlock hn')
  refine ⟨_, step, ?_, ?_, ?_⟩
  · exact (settle_get_of_notMem (portStat_notMem_coverRegs hn')).trans
      (enterState_state n 4 0 _ hn' (by decide) ((storedAt_engineRuns ..).trans he))
  · have kept := FieldDie.get_eq (F_PORT_SLEEP_sleep_req n)
      (entered.rd (F_PORT_SLEEP n) ((portSleep_portBlock hn').2.trans (by decide)) (portSleep_notMem hn'))
    exact (settle_get_of_notMem away).trans (kept.trans ((sleepStored_get rfl hn' _ _).trans
      ((portSleepWord_sleep_req _ _).trans (hasBit_iff.1 hreq))))
  · rw [settle_cfg, cfg_of_side entered.side]
    exact (((sleepStored_softMoves n data.toNat s.fld).low (List.subset_append_right _ _)).trans (entered.low _)).frame rfl

/-! ### Entering SLEEP (R311 to R313) -/

theorem portStat_get_settle {r : Fld} (hn : n < 16) (hr : r.addr = F_PORT_STAT n) : (settle g).get r = g.get r :=
  settle_get_of_notMem (hr ▸ portStat_notMem_coverRegs hn)

/-- The port is in SLEEP, and shows how it came there. -/
def sleepEntered (n tc10 : Nat) (f : FieldDie) : FieldDie := enterState n 5 0 (f.put (F_PORT_STAT_tc10 n) tc10)

theorem sleepEntered_portSame (n tc10 : Nat) (f : FieldDie) : PortSame n f (sleepEntered n tc10 f) :=
  (putStat_portSame f (F_PORT_STAT_tc10 n) tc10 rfl).trans (enterState_portSame n 5 0 _)

theorem sleepEntered_state {tc10 : Nat} (hn : n < 16) (he : f.engineRuns n = true) :
    portState (sleepEntered n tc10 f) n = 5 := enterState_state n 5 0 _ hn (by decide) he

theorem sleepEntered_tc10 {tc10 : Nat} (hn : n < 16) (he : f.engineRuns n = true) :
    (sleepEntered n tc10 f).get (F_PORT_STAT_tc10 n) = tc10 % 2 := by
  have shown := enterState_rd_stat (f := f.put (F_PORT_STAT_tc10 n) tc10) (st := 5) (reason := 0) hn he (by decide)
  refine (FieldDie.get_eq (F_PORT_STAT_tc10 n) shown).trans ?_
  rw [showState_get rfl (by show 2 ≤ 5; decide) (by show 5 < 24; decide), napBreak_get,
    FieldDie.get_put _ _ _ (by show 5 ≤ 5; decide) (by show 5 < 32; decide)]
  rfl

/-- The port has sent its TC10 sleep request and awaits the answer. -/
def sleepAsked (n : Nat) (f : FieldDie) : FieldDie :=
  ((f.setPortX n (fun x => { x with sleepSent := true, sleepAt := f.now, drained := true })).put (F_PORT_STAT_tc10 n) 1).emit
    (.sleepRequest n)

theorem putTc10_state (n v : Nat) (f : FieldDie) : portState (f.put (F_PORT_STAT_tc10 n) v) n = portState f n :=
  put_port_state _ _ _ _ (.inr ⟨rfl, by show 5 ≤ 5; decide, by show 5 < 28; decide⟩)

theorem emit_get (f : FieldDie) (o : Output) (r : Fld) : (f.emit o).get r = f.get r :=
  FieldDie.get_eq r (FieldDie.rd_eq (FieldDie.emit_reg f o) r.addr)

theorem emit_low (f : FieldDie) (o : Output) : LowSame f (f.emit o) := .ofEq rfl (FieldDie.emit_reg f o)

theorem sleepAsked_portSame (n : Nat) (f : FieldDie) :
    PortSame n (f.setPortX n (fun x => { x with sleepAt := f.now })) (sleepAsked n f) := by
  have marked : f.setPortX n (fun x => { x with sleepSent := true, sleepAt := f.now, drained := true }) =
      (f.setPortX n (fun x => { x with sleepAt := f.now })).setPortX n
        (fun x => { x with sleepSent := true, drained := true }) := by
    rw [setPortX_setPortX]
    rfl
  unfold sleepAsked
  rw [marked]
  refine PortSame.trans ?_ (emit_low _ _).portSame
  refine PortSame.trans ?_ (putStat_portSame _ (F_PORT_STAT_tc10 n) 1 rfl)
  exact setPortX_portSame fun _ => rfl

theorem sleepAsked_state (n : Nat) (f : FieldDie) : portState (sleepAsked n f) n = portState f n :=
  (emit_get _ _ (F_PORT_STAT_state n)).trans ((putTc10_state n 1 _).trans (setPortX_state f n n _))

theorem sleepAsked_tc10 (n : Nat) (f : FieldDie) : (sleepAsked n f).get (F_PORT_STAT_tc10 n) = 1 :=
  (emit_get _ _ _).trans (FieldDie.get_put _ _ 1 (by show 5 ≤ 5; decide) (by show 5 < 32; decide))

theorem sleepAsked_sent (hn : n < f.ports.length) : ((sleepAsked n f).portX n).sleepSent = true := by
  unfold sleepAsked
  rw [portX_of_ports ((FieldDie.emit_ports _ _).trans (FieldDie.put_ports _ _ _)), portX_setPortX_self hn]

theorem sleepAsked_out (n : Nat) (f : FieldDie) : Output.sleepRequest n ∈ (sleepAsked n f).out :=
  List.mem_append_right _ List.mem_cons_self

theorem sleepQuiet_of_quiet (hst : portState f n = 4) (hempty : egressEmpty f n = true ∨ (f.portX n).drained = true)
    (hrx : f.inRx n = none) (hsent : (f.portX n).sleepSent = false)
    (hquiet : (f.portX n).quietFrom + f.get (F_PORT_SLEEP_sleep_idle n) ≤ f.now) :
    sleepQuiet n f = if f.flag F_PWR_CTRL_tc10_en then sleepAsked n f else sleepEntered n 0 f :=
  if_pos ⟨hst, hempty, hrx, hsent, hquiet⟩

/-- A quiet port with an empty egress enters SLEEP, or asks its partner first (R311, R312). -/
theorem exec_sleepQuiet_of_quiet (hr : s.fld.phase = .running) (hn : n < 12) (he : s.fld.engineRuns n = true)
    (hlen : s.fld.ports.length = 17) (hst : portState s.fld n = 4)
    (hempty : egressEmpty s.fld n = true ∨ (s.fld.portX n).drained = true) (hrx : s.fld.inRx n = none)
    (hsent : (s.fld.portX n).sleepSent = false)
    (hquiet : (s.fld.portX n).quietFrom + s.fld.get (F_PORT_SLEEP_sleep_idle n) ≤ s.fld.now) :
    ∃ t, exec (.sleepQuiet n) s = .next t ∧
      (s.fld.flag F_PWR_CTRL_tc10_en = false → portState t.fld n = 5) ∧
      (s.fld.flag F_PWR_CTRL_tc10_en = true → portState t.fld n = 4 ∧ (t.fld.portX n).sleepSent = true ∧
        Output.sleepRequest n ∈ t.fld.out) ∧
      t.fld.flag (F_PORT_STAT_tc10 n) = s.fld.flag F_PWR_CTRL_tc10_en ∧
      PortFrame n [] (s.fld.setPortX n (fun x => { x with
        sleepAt := if s.fld.flag F_PWR_CTRL_tc10_en then s.fld.now else x.sleepAt })) s t := by
  have hn' : n < 16 := by omega
  have step : exec (.sleepQuiet n) s = .next { s with fld := settle (sleepQuiet n s.fld) } := State.onItem_running hr hn
  rw [sleepQuiet_of_quiet hst hempty hrx hsent hquiet] at step
  by_cases htc : s.fld.flag F_PWR_CTRL_tc10_en = true
  · rw [if_pos htc] at step
    simp only [htc, if_true]
    refine ⟨_, step, fun h => (by simp at h), fun _ => ⟨?_, ?_, settle_mem_out ?_⟩, ?_, ?_⟩
    · exact (portStat_get_settle hn' rfl).trans ((sleepAsked_state n s.fld).trans hst)
    · rw [portX_of_ports (settle_ports _)]
      exact sleepAsked_sent (by omega)
    · exact sleepAsked_out n s.fld
    · exact congrArg (· != 0) ((portStat_get_settle hn' rfl).trans (sleepAsked_tc10 n s.fld))
    · exact ((sleepAsked_portSame n s.fld).low []).frame rfl
  · have hno : s.fld.flag F_PWR_CTRL_tc10_en = false := by simpa using htc
    rw [if_neg htc] at step
    simp only [hno]
    refine ⟨_, step, fun _ => ?_, fun h => (by simp at h), ?_, ?_⟩
    · exact (portStat_get_settle hn' rfl).trans (sleepEntered_state hn' he)
    · exact congrArg (· != 0) ((portStat_get_settle hn' rfl).trans (sleepEntered_tc10 hn' he))
    · have record : s.fld.setPortX n (fun x =>
          { x with sleepAt := if (false : Bool) = true then s.fld.now else x.sleepAt }) = s.fld := setPortX_id n s.fld
      rw [record]
      exact (sleepEntered_portSame n 0 s.fld).frame

/-! ### The TC10 handshake (R312) -/

/-- The acknowledgement within 40 µs takes the port to SLEEP. -/
theorem exec_tc10SleepAck_enters (hr : s.fld.phase = .running) (hn : n < 12) (he : s.fld.engineRuns n = true)
    (hst : portState s.fld n = 4) (hsent : (s.fld.portX n).sleepSent = true)
    (hnow : s.fld.now ≤ (s.fld.portX n).sleepAt + 40 * usTicks) :
    ∃ t, exec (.tc10SleepAck n) s = .next t ∧ portState t.fld n = 5 ∧ PortFrame n [] s.fld s t := by
  have inTime : s.fld.now ≤ ackLimit s.fld n := by
    unfold ackLimit
    exact hnow
  have step : exec (.tc10SleepAck n) s = .next { s with fld := settle (enterState n 5 0 s.fld) } := by
    change execTc10SleepAck n s = _
    unfold execTc10SleepAck
    rw [State.onItem_running hr hn, if_pos ⟨hst, hsent, inTime⟩]
  exact ⟨_, step, (portStat_get_settle (by omega) rfl).trans (enterState_state n 5 0 _ (by omega) (by decide) he),
    (enterState_portSame n 5 0 s.fld).frame⟩

/-- The die whose port is to repeat its attempt, back in UP. -/
def sleepRefused (n : Nat) (f : FieldDie) : FieldDie :=
  (enterState n 3 0 (f.setPortX n (fun x => { x with retry := true, sleepSent := false }))).raise (F_PORT_EVT n) 7

theorem sleepRefused_portSame (n : Nat) (f : FieldDie) :
    PortSame n (f.setPortX n (fun x => { x with retry := true })) (sleepRefused n f) := by
  have marked : f.setPortX n (fun x => { x with retry := true, sleepSent := false }) =
      (f.setPortX n (fun x => { x with retry := true })).setPortX n (fun x => { x with sleepSent := false }) := by
    rw [setPortX_setPortX]
    rfl
  unfold sleepRefused
  rw [marked]
  refine PortSame.trans ?_ (raise_portSame _ 7)
  refine PortSame.trans ?_ (enterState_portSame n 3 0 _)
  exact setPortX_portSame fun _ => rfl

theorem sleepRefused_state (hn : n < 16) (he : f.engineRuns n = true) : portState (sleepRefused n f) n = 3 :=
  (raise_port_state _ n n 7 hn).trans (enterState_state n 3 0 _ hn (by decide) he)

theorem sleepRefused_raises (hn : n < 16) : (sleepRefused n f).sq (F_PORT_EVT n) 7 = true :=
  FieldDie.raise_sq _ _ _ (portEvt_ne_xng hn) (by decide)

/-- 40 µs without the acknowledgement take the port back to UP. -/
theorem exec_tc10SleepTimeout_refuses (hr : s.fld.phase = .running) (hn : n < 12) (he : s.fld.engineRuns n = true)
    (hst : portState s.fld n = 4) (hsent : (s.fld.portX n).sleepSent = true)
    (hnow : (s.fld.portX n).sleepAt + 40 * usTicks ≤ s.fld.now) :
    ∃ t, exec (.tc10SleepTimeout n) s = .next t ∧ portState t.fld n = 3 ∧ t.fld.sq (F_PORT_EVT n) 7 = true ∧
      PortFrame n [] (s.fld.setPortX n (fun x => { x with retry := true })) s t := by
  have hn' : n < 16 := by omega
  have late : ackLimit s.fld n ≤ s.fld.now := by
    unfold ackLimit
    exact hnow
  have step : exec (.tc10SleepTimeout n) s = .next { s with fld := settle (sleepRefused n s.fld) } := by
    change execTc10SleepTimeout n s = _
    unfold execTc10SleepTimeout sleepRefused
    rw [State.onItem_running hr hn, if_pos ⟨hst, hsent, late⟩]
  refine ⟨_, step, ?_, ?_, ((sleepRefused_portSame n s.fld).low []).frame rfl⟩
  · exact (portStat_get_settle hn' rfl).trans (sleepRefused_state hn' he)
  · exact (settle_sq_of_notMem (portEvt_notMem_coverRegs hn')).trans (sleepRefused_raises hn')

/-- 1 ms after the refusal the attempt is repeated. -/
theorem exec_tc10SleepRetry_enters (hr : s.fld.phase = .running) (hn : n < 12) (he : s.fld.engineRuns n = true)
    (hup : portState s.fld n = 3) (hretry : (s.fld.portX n).retry = true)
    (hnow : (s.fld.portX n).since + msTicks ≤ s.fld.now) (hw : sleepWanted s.fld n = true) :
    ∃ t, exec (.tc10SleepRetry n) s = .next t ∧ portState t.fld n = 4 ∧
      PortFrame n [] (s.fld.setPortX n (fun x => { x with retry := false })) s t := by
  obtain ⟨cleared, hcleared⟩ : ∃ g, g = s.fld.setPortX n (fun x => { x with retry := false }) := ⟨_, rfl⟩
  have record : cleared.portX n = { s.fld.portX n with retry := false } := by
    rw [hcleared, portX_setPortX_self (lt_ports_length fun h => by simp [h] at hretry)]
  have wanted : sleepWanted cleared n = true := by
    have windows : (cleared.portX n).windows = (s.fld.portX n).windows := by rw [record]
    unfold sleepWanted at hw ⊢
    rw [windows, hcleared]
    exact hw
  have up : portState cleared n = 3 := by rw [hcleared, setPortX_state, hup]
  have step : exec (.tc10SleepRetry n) s = .next { s with fld := settle (enterState n 4 0 cleared) } := by
    rw [← trySleep_of_wanted up wanted (by rw [record]), hcleared]
    change execTc10SleepRetry n s = _
    unfold execTc10SleepRetry
    rw [State.onItem_running hr hn, if_pos ⟨hretry, hnow⟩]
  rw [← hcleared]
  refine ⟨_, step, ?_, ((enterState_portSame n 4 0 cleared).low []).frame (by rw [hcleared]; rfl)⟩
  have runs : cleared.engineRuns n = true := by rwa [hcleared]
  exact (portStat_get_settle (by omega) rfl).trans (enterState_state n 4 0 cleared (by omega) (by decide) runs)

/-! ### A partner that sleeps (R313) -/

theorem loseLink_portSame (n : Nat) (f : FieldDie) : PortSame n f (loseLink n f) :=
  (enterState_portSame n 2 1 f).trans (putStat_portSame _ (F_PORT_STAT_role_res n) 0 rfl)

theorem loseLink_state (hn : n < 16) (he : f.engineRuns n = true) : portState (loseLink n f) n = 2 :=
  (put_port_state _ n (F_PORT_STAT_role_res n) 0 (.inr ⟨rfl, by show 16 ≤ 17; decide, by show 17 < 28; decide⟩)).trans
    (enterState_state n 2 1 f hn (by decide) he)

theorem loseLink_reason (hn : n < 16) (he : f.engineRuns n = true) (hup : portState f n = 3) :
    (loseLink n f).get (F_PORT_STAT_down_reason n) = 1 := by
  have role : (loseLink n f).get (F_PORT_STAT_down_reason n) = (enterState n 2 1 f).get (F_PORT_STAT_down_reason n) :=
    FieldDie.get_put_field _ _ _ _ rfl (by show 16 ≤ 17; decide) (by show 17 < 32; decide) (.inl (by show 17 < 24; decide))
  rw [role, FieldDie.get_eq (F_PORT_STAT_down_reason n) (enterState_rd_stat hn he (by decide)),
    showState_down_reason rfl (by rw [hup]; rfl)]

theorem partnerSleep_followed {tc10 : Bool} (hup : portState f n = 3) (ht : isT1 f n = true)
    (hf : f.flag (F_PORT_SLEEP_sleep_follow n) = true) (hw : (f.portX n).windows = []) :
    partnerSleep n tc10 f = sleepEntered n (if tc10 then 1 else 0) f :=
  (if_pos ⟨hup, ht⟩).trans (if_pos ⟨hf, hw⟩)

theorem partnerSleep_unfollowed {tc10 : Bool} (hup : portState f n = 3) (ht : isT1 f n = true)
    (h : ¬(f.flag (F_PORT_SLEEP_sleep_follow n) = true ∧ (f.portX n).windows = [])) :
    partnerSleep n tc10 f = if tc10 then f else loseLink n f :=
  (if_pos ⟨hup, ht⟩).trans (if_neg h)

/-- What a partner's sleep makes of a port in UP. -/
theorem exec_partnerSleep_of_up {tc10 : Bool} (hr : s.fld.phase = .running) (hn : n < 12) (he : s.fld.engineRuns n = true)
    (hup : portState s.fld n = 3) (ht : isT1 s.fld n = true) :
    ∃ t, exec (.partnerSleep n tc10) s = .next t ∧
      (s.fld.flag (F_PORT_SLEEP_sleep_follow n) = true → (s.fld.portX n).windows = [] →
        portState t.fld n = 5 ∧ t.fld.flag (F_PORT_STAT_tc10 n) = tc10) ∧
      ((s.fld.flag (F_PORT_SLEEP_sleep_follow n) = false ∨ (s.fld.portX n).windows ≠ []) → tc10 = false →
        portState t.fld n = 2 ∧ t.fld.get (F_PORT_STAT_down_reason n) = 1) ∧
      ((s.fld.flag (F_PORT_SLEEP_sleep_follow n) = false ∨ (s.fld.portX n).windows ≠ []) → tc10 = true →
        FieldFrame [] s.fld s t) ∧
      PortFrame n [] s.fld s t := by
  have hn' : n < 16 := by omega
  have step : exec (.partnerSleep n tc10) s = .next { s with fld := settle (partnerSleep n tc10 s.fld) } :=
    State.onItem_running hr hn
  by_cases h : s.fld.flag (F_PORT_SLEEP_sleep_follow n) = true ∧ (s.fld.portX n).windows = []
  · rw [partnerSleep_followed hup ht h.1 h.2] at step
    have follows : ¬(s.fld.flag (F_PORT_SLEEP_sleep_follow n) = false ∨ (s.fld.portX n).windows ≠ []) := by simp [h]
    refine ⟨_, step, fun _ _ => ⟨?_, ?_⟩, fun h' => absurd h' follows, fun h' => absurd h' follows,
      (sleepEntered_portSame n _ s.fld).frame⟩
    · exact (portStat_get_settle hn' rfl).trans (sleepEntered_state hn' he)
    · refine (congrArg (· != 0) ((portStat_get_settle hn' rfl).trans (sleepEntered_tc10 hn' he))).trans ?_
      cases tc10
      all_goals rfl
  · rw [partnerSleep_unfollowed hup ht h] at step
    cases tc10 with
    | true =>
      rw [if_pos rfl] at step
      exact ⟨_, step, fun hf hw => absurd ⟨hf, hw⟩ h, fun _ h' => (by cases h'), fun _ _ => (SoftMoves.refl [] s.fld).frame rfl,
        (LowSame.refl s.fld).portSame.frame⟩
    | false =>
      rw [if_neg (by decide)] at step
      exact ⟨_, step, fun hf hw => absurd ⟨hf, hw⟩ h, fun _ _ => ⟨(portStat_get_settle hn' rfl).trans (loseLink_state hn' he),
        (portStat_get_settle hn' rfl).trans (loseLink_reason hn' he hup)⟩, fun _ h' => (by cases h'),
        (loseLink_portSame n s.fld).frame⟩

/-- Settles O17: each step of sleep entry is one change of state, with the port's record of the attempt. -/
theorem portSleepEntry : Obligations.PortSleepEntry := by
  unfold Obligations.PortSleepEntry
  refine ⟨fun s req n data hr hn he hup ht hw hretry hreq hq => ?_, fun s n hr hn he hs hst hempty hrx hsent hquiet => ?_,
    fun s n hr hn he _ hst hsent => ⟨fun hnow => ?_, fun hnow => ?_⟩, fun s n hr hn he hup hretry hnow hw => ?_,
    fun s n tc10 hr hn he hup ht => ?_⟩
  · exact exec_sleepRequestWrite_enters hr hn he hup ht hw hretry hreq hq
  · exact exec_sleepQuiet_of_quiet hr hn he hs.ports hst hempty hrx hsent hquiet
  · exact exec_tc10SleepAck_enters hr hn he hst hsent hnow
  · exact exec_tc10SleepTimeout_refuses hr hn he hst hsent hnow
  · exact exec_tc10SleepRetry_enters hr hn he hup hretry hnow hw
  · exact exec_partnerSleep_of_up hr hn he hup ht

end Sys2Proof.Machine
end

section
/-! Verification for preemption (O19, R319, R320): its frames, its success and its failure. -/

namespace Sys2Proof.Machine

variable {but : List Nat} {s : State} {f g : FieldDie} {n : Nat}

theorem FieldDie.emit_softMoves (f : FieldDie) (o : Output) : SoftMoves but f (f.emit o) :=
  ⟨rfl, f.emit_sendSame o, .ofReg (f.emit_reg o)⟩

theorem refreshPreempt_softMoves (n : Nat) (f : FieldDie) : SoftMoves [F_PORT_STAT n] f (refreshPreempt n f) := by
  unfold refreshPreempt
  split
  · exact FieldDie.put_softMoves (r := F_PORT_STAT_preempt_active n) List.mem_cons_self f _
  · exact .refl _ f

theorem refreshPreempt_active (hn : n < 12) : (refreshPreempt n f).get (F_PORT_STAT_preempt_active n) =
    if f.flag (F_PORT_PREEMPT_preempt_en n) && (f.flag (F_PORT_PREEMPT_verify_dis n) || f.get (F_PORT_STAT_verify_state n) == 2)
      then 1 else 0 := by
  unfold refreshPreempt
  rw [if_pos hn]
  refine (FieldDie.get_put _ _ _ (by show 7 ≤ 7; decide) (by show 7 < 32; decide)).trans (Nat.mod_eq_of_lt ?_)
  show _ < 2
  split
  all_goals decide

/-- The die whose verification has come to state `v`. -/
def verified (n v : Nat) (f : FieldDie) : FieldDie := refreshPreempt n (f.put (F_PORT_STAT_verify_state n) v)

theorem verified_softMoves (n v : Nat) (f : FieldDie) : SoftMoves [F_PORT_STAT n] f (verified n v f) :=
  (FieldDie.put_softMoves (r := F_PORT_STAT_verify_state n) List.mem_cons_self f v).trans (refreshPreempt_softMoves n _)

theorem putVerify_get (n v : Nat) (f : FieldDie) :
    (f.put (F_PORT_STAT_verify_state n) v).get (F_PORT_STAT_verify_state n) = v % 8 :=
  FieldDie.get_put f _ v (by show 8 ≤ 10; decide) (by show 10 < 32; decide)

theorem verified_verify_state (n v : Nat) (f : FieldDie) : (verified n v f).get (F_PORT_STAT_verify_state n) = v % 8 :=
  (refreshPreempt_get rfl (by show 8 ≤ 8; decide)).trans (putVerify_get n v f)

theorem verified_state (n v : Nat) (f : FieldDie) : portState (verified n v f) n = portState f n :=
  (refreshPreempt_state n _).trans
    (put_port_state f n (F_PORT_STAT_verify_state n) v (.inr ⟨rfl, by show 8 ≤ 10; decide, by show 10 < 28; decide⟩))

/-- Once verification has succeeded, frames are preempted where preempt_en says so (R319). -/
theorem verified_active (hn : n < 12) :
    (verified n 2 f).get (F_PORT_STAT_preempt_active n) = f.get (F_PORT_PREEMPT_preempt_en n) := by
  have enable : (f.put (F_PORT_STAT_verify_state n) 2).get (F_PORT_PREEMPT_preempt_en n) = f.get (F_PORT_PREEMPT_preempt_en n) :=
    FieldDie.get_put_addr f _ _ 2 (by show F_PORT_PREEMPT n ≠ F_PORT_STAT n; unfold F_PORT_PREEMPT F_PORT_STAT; omega)
  have bit : f.get (F_PORT_PREEMPT_preempt_en n) < 2 := bitsOf_lt _ 0 0
  unfold verified
  rw [refreshPreempt_active hn, putVerify_get]
  unfold FieldDie.flag
  rw [enable]
  generalize f.get (F_PORT_PREEMPT_preempt_en n) = en at bit
  interval_cases en
  all_goals simp

/-- A verify frame is sent, up to three of them, verify_ms apart (R320). -/
theorem exec_verifySend_sends (hr : s.fld.phase = .running) (hn : n < 12)
    (hv : s.fld.get (F_PORT_STAT_verify_state n) = 1) (hup : portState s.fld n = 3) (hfew : (s.fld.portX n).verify < 3)
    (hgap : (s.fld.portX n).verify = 0 ∨ (s.fld.portX n).verifyAt + verifyGap s.fld n ≤ s.fld.now) :
    ∃ t, exec (.verifySend n) s = .next t ∧ Output.verify n false ∈ t.fld.out ∧
      FieldFrame [] (s.fld.setPortX n (fun x => { x with verify := x.verify + 1, verifyAt := s.fld.now })) s t := by
  refine ⟨{ s with fld := settle ((s.fld.setPortX n (fun x =>
    { x with verify := x.verify + 1, verifyAt := s.fld.now })).emit (.verify n false)) }, ?_, ?_, ?_⟩
  · change execVerifySend n s = _
    unfold execVerifySend
    rw [State.onItem_running hr hn, if_pos ⟨hv, hup, hfew, hgap⟩]
  · exact settle_mem_out (List.mem_append_right _ List.mem_cons_self)
  · exact (FieldDie.emit_softMoves _ _).frame rfl

/-- A response makes verification succeed (R319). -/
theorem exec_verifyResponse_succeeds (hr : s.fld.phase = .running) (hn : n < 12)
    (hv : s.fld.get (F_PORT_STAT_verify_state n) = 1) (hsent : 0 < (s.fld.portX n).verify) :
    ∃ t, exec (.verifyResponse n) s = .next t ∧ t.fld.get (F_PORT_STAT_verify_state n) = 2 ∧
      t.fld.get (F_PORT_STAT_preempt_active n) = s.fld.get (F_PORT_PREEMPT_preempt_en n) ∧
      portState t.fld n = portState s.fld n ∧ FieldFrame [F_PORT_STAT n] s.fld s t := by
  have hn' : n < 16 := by omega
  refine ⟨{ s with fld := settle (verified n 2 s.fld) }, ?_, ?_, ?_, ?_, (verified_softMoves n 2 s.fld).frame rfl⟩
  · change execVerifyResponse n s = _
    unfold execVerifyResponse verified
    rw [State.onItem_running hr hn, if_pos ⟨hv, hsent⟩]
  · exact (portStat_get_settle hn' rfl).trans (verified_verify_state n 2 s.fld)
  · exact (portStat_get_settle hn' rfl).trans (verified_active hn)
  · exact (portStat_get_settle hn' rfl).trans (verified_state n 2 s.fld)

/-- Without a response to the third frame verification fails (R320). -/
theorem exec_verifyFail_fails (hr : s.fld.phase = .running) (hn : n < 12)
    (hv : s.fld.get (F_PORT_STAT_verify_state n) = 1) (hsent : 3 ≤ (s.fld.portX n).verify)
    (hgap : (s.fld.portX n).verifyAt + verifyGap s.fld n ≤ s.fld.now) :
    ∃ t, exec (.verifyFail n) s = .next t ∧ t.fld.get (F_PORT_STAT_verify_state n) = 3 ∧
      t.fld.sq (F_PORT_EVT n) 4 = true ∧ FieldFrame [F_PORT_STAT n, F_PORT_EVT n] s.fld s t := by
  have hn' : n < 16 := by omega
  have moves : SoftMoves [F_PORT_STAT n, F_PORT_EVT n] s.fld ((verified n 3 s.fld).raise (F_PORT_EVT n) 4) :=
    ((verified_softMoves n 3 s.fld).mono (by simp)).trans (FieldDie.raise_softMoves (by simp) _ 4)
  refine ⟨{ s with fld := settle ((verified n 3 s.fld).raise (F_PORT_EVT n) 4) }, ?_, ?_, ?_, moves.frame rfl⟩
  · change execVerifyFail n s = _
    unfold execVerifyFail verified
    rw [State.onItem_running hr hn, if_pos ⟨hv, hsent, hgap⟩]
  · exact (portStat_get_settle hn' rfl).trans ((FieldDie.get_raise_ne _ (portStat_ne_evt n n) (portStat_ne_xng hn')).trans
      (verified_verify_state n 3 s.fld))
  · exact (settle_sq_of_notMem (portEvt_notMem_coverRegs hn')).trans
      (FieldDie.raise_sq _ _ _ (portEvt_ne_xng hn') (by decide))

end Sys2Proof.Machine
end

section
/-! PAUSE per queue (O19, R330 to R333): a stop of one queue moves no other stop. -/

namespace Sys2Proof.Machine

variable {s : State} {f g h : FieldDie} {n m p q quanta : Nat}

/-! ### The stops of a port -/

/-- The stops of a port, listed for each of its eight queues. -/
def fullStops (xs : List PauseStop) : List PauseStop :=
  if xs.length < 8 then xs ++ List.replicate (8 - xs.length) ({} : PauseStop) else xs

theorem fullStops_length (xs : List PauseStop) : 8 ≤ (fullStops xs).length := by
  unfold fullStops
  split
  · simp
    omega
  · omega

/-- A stop that is not listed is the default one. -/
theorem fullStops_getD (xs : List PauseStop) (p : Nat) : (fullStops xs).getD p {} = xs.getD p {} := by
  unfold fullStops
  split
  · simp only [List.getD_eq_getElem?_getD, List.getElem?_append, List.getElem?_replicate]
    by_cases hp : p < xs.length
    · rw [if_pos hp]
    · rw [if_neg hp, List.getElem?_eq_none (by omega)]
      split
      all_goals rfl
  · rfl

/-- The record of a port with the stop of queue `q` changed. -/
def restop (q : Nat) (k : PauseStop → PauseStop) (x : PortX) : PortX := { x with stops := modAt (fullStops x.stops) q k }

/-- Whether a queue of port `n` is stopped, as F_PORT_n_STAT shows it. -/
def pausedBit (n : Nat) (f : FieldDie) : Nat := if (List.range 8).any (pauseStopped f n) then 1 else 0

theorem setStop_eq (n q : Nat) (k : PauseStop → PauseStop) (f : FieldDie) :
    setStop n q k f = (f.setPortX n (restop q k)).put (F_PORT_STAT_paused n) (pausedBit n (f.setPortX n (restop q k))) := rfl

theorem restop_stop {k : PauseStop → PauseStop} (hn : n < f.ports.length) (hq : q < 8) (p : Nat) :
    pauseStop (f.setPortX n (restop q k)) n p = if p = q then k (pauseStop f n p) else pauseStop f n p := by
  have hlen := fullStops_length (f.portX n).stops
  unfold pauseStop
  rw [portX_setPortX_self hn, ← fullStops_getD (f.portX n).stops p]
  unfold restop modAt
  simp only [List.getD_eq_getElem?_getD, List.getElem?_modify]
  by_cases hpq : p = q
  · subst hpq
    rw [List.getElem?_eq_getElem (by omega)]
    simp
  · simp [hpq, Ne.symm hpq]

/-- From `f` to `g` only the stops of port `n`, and what its status shows of them, have moved. -/
structure StopMoves (n : Nat) (f g : FieldDie) : Prop where
  soft : SoftMoves [F_PORT_STAT n] { f with ports := g.ports } g
  others : ∀ m, m ≠ n → g.portX m = f.portX m
  length : g.ports.length = f.ports.length

theorem StopMoves.refl (n : Nat) (f : FieldDie) : StopMoves n f f := ⟨.refl _ _, fun _ _ => rfl, rfl⟩

theorem SoftMoves.setPorts {but : List Nat} (a : SoftMoves but f g) (xs : List PortX) :
    SoftMoves but { f with ports := xs } { g with ports := xs } where
  rest := by
    have set : ∀ x : FieldDie, ({ x with ports := xs } : FieldDie).rest = { x.rest with ports := xs } := fun _ => rfl
    rw [set, set, a.rest]
  send := ⟨a.send.buf, a.send.out, a.send.cnt⟩
  regs := a.regs

theorem StopMoves.trans (a : StopMoves n f g) (b : StopMoves n g h) : StopMoves n f h where
  soft := (a.soft.setPorts h.ports).trans b.soft
  others m hm := (b.others m hm).trans (a.others m hm)
  length := b.length.trans a.length

theorem setStop_stopMoves (n q : Nat) (k : PauseStop → PauseStop) (f : FieldDie) : StopMoves n f (setStop n q k f) where
  soft := by
    rw [setStop_eq]
    exact FieldDie.put_softMoves (r := F_PORT_STAT_paused n) List.mem_cons_self _ _
  others m hm := by
    rw [setStop_eq]
    exact (portX_of_ports (FieldDie.put_ports _ _ _) m).trans (portX_setPortX_ne hm.symm)
  length := by
    rw [setStop_eq, FieldDie.put_ports]
    exact List.length_modify _ _ _

theorem setStop_stop {k : PauseStop → PauseStop} (hn : n < f.ports.length) (hq : q < 8) (p : Nat) :
    pauseStop (setStop n q k f) n p = if p = q then k (pauseStop f n p) else pauseStop f n p := by
  rw [setStop_eq]
  unfold pauseStop
  rw [portX_of_ports (FieldDie.put_ports _ _ _)]
  exact restop_stop hn hq p

theorem pausedBit_lt (n : Nat) (f : FieldDie) : pausedBit n f < 2 := by
  unfold pausedBit
  split
  all_goals decide

theorem setStop_paused (n q : Nat) (k : PauseStop → PauseStop) (f : FieldDie) :
    (setStop n q k f).get (F_PORT_STAT_paused n) = pausedBit n (f.setPortX n (restop q k)) := by
  rw [setStop_eq, FieldDie.get_put _ _ _ (by show 6 ≤ 6; decide) (by show 6 < 32; decide)]
  exact Nat.mod_eq_of_lt (pausedBit_lt n _)

/-! ### What the time of a stop is read from -/

theorem StopMoves.now10 (m : StopMoves n f g) : g.now10 = f.now10 := by
  have tim : g.tim = f.tim := (tim_of_rest m.soft.rest).trans rfl
  unfold FieldDie.now10 FieldDie.now
  rw [tim]

theorem StopMoves.byteTime (m : StopMoves n f g) (hn : n < 16) : byteTime g n = byteTime f n := by
  have mode : g.rd (F_PORT_MODE n) = f.rd (F_PORT_MODE n) := by
    refine m.soft.rd_eq ?_ (notMem_coverRegs_of_portBlock (portMode_portBlock hn))
    unfold F_PORT_MODE F_PORT_STAT
    simp
  have phy : phyMode g n = phyMode f n := FieldDie.get_eq (F_PORT_MODE_phy_mode n) mode
  unfold Sys2Proof.Machine.byteTime
  rw [phy]

theorem settle_pauseStop (n q : Nat) (f : FieldDie) : pauseStop (settle f) n q = pauseStop f n q := by
  unfold pauseStop
  rw [portX_of_ports (settle_ports f)]

theorem settle_now10 (f : FieldDie) : (settle f).now10 = f.now10 := by
  unfold FieldDie.now10 FieldDie.now
  rw [settle_tim]

/-- What the stops have moved, at the end of their command. -/
theorem StopMoves.frame (m : StopMoves n f g) (hreg : f.reg = s.fld.reg) :
    FieldFrame [F_PORT_STAT n] { f with ports := (settle g).ports } s { s with fld := settle g } := by
  rw [settle_ports]
  exact m.soft.frame hreg

/-! ### A PAUSE frame (R331) -/

/-- The stop `x` with the time of a PAUSE of `quanta`: without a break where the stop `p` has not ended before it. -/
def prolonged (n quanta : Nat) (f : FieldDie) (p x : PauseStop) : PauseStop :=
  { x with
    since := if p.until_ ≠ 0 ∧ f.now10 ≤ p.until_ then x.since else f.now10
    until_ := f.now10 + quanta * 64 * byteTime f n }

/-- What a PAUSE of `quanta` makes of the stop of queue `p`, `mask` naming the queues that honour it (R331, R332). -/
def answeredStop (n quanta mask : Nat) (f : FieldDie) (p : Nat) : PauseStop :=
  let x := pauseStop f n p
  if quanta = 0 then { x with until_ := 0 }
  else if hasBit mask p ∧ x.ignore ≤ f.now10 then prolonged n quanta f x x
  else x

theorem answeredStop_until (n quanta mask : Nat) (f : FieldDie) (p : Nat) :
    (answeredStop n quanta mask f p).until_ = if quanta = 0 then 0
      else if hasBit mask p ∧ (pauseStop f n p).ignore ≤ f.now10 then f.now10 + quanta * 64 * byteTime f n
      else (pauseStop f n p).until_ := by
  unfold answeredStop
  dsimp only
  split_ifs
  all_goals rfl

/-- Other queues' stops do not enter into it. -/
theorem answeredStop_eq {mask : Nat} (a : StopMoves n f g) (hn : n < 16) (hp : pauseStop g n p = pauseStop f n p) :
    answeredStop n quanta mask g p = answeredStop n quanta mask f p := by
  unfold answeredStop prolonged
  rw [a.now10, a.byteTime hn, hp]

/-- The step of `pauseFrame` for queue `q`. -/
def answerPause (n quanta mask q : Nat) (f : FieldDie) : FieldDie :=
  if quanta = 0 then setStop n q (fun x => { x with until_ := 0 }) f
  else
    let p := pauseStop f n q
    if hasBit mask q ∧ p.ignore ≤ f.now10 then setStop n q (prolonged n quanta f p) f else f

theorem answerPause_stopMoves (n quanta mask q : Nat) (f : FieldDie) : StopMoves n f (answerPause n quanta mask q f) := by
  unfold answerPause
  dsimp only
  split_ifs
  · exact setStop_stopMoves n q _ f
  · exact setStop_stopMoves n q _ f
  · exact .refl n f

theorem answerPause_stop {mask : Nat} (hn : n < f.ports.length) (hq : q < 8) (p : Nat) :
    pauseStop (answerPause n quanta mask q f) n p = if p = q then answeredStop n quanta mask f p else pauseStop f n p := by
  unfold answerPause answeredStop
  dsimp only
  by_cases hpq : p = q
  · subst hpq
    rw [if_pos rfl]
    split_ifs
    · exact (setStop_stop hn hq p).trans (if_pos rfl)
    · exact (setStop_stop hn hq p).trans (if_pos rfl)
    · rfl
  · rw [if_neg hpq]
    split_ifs
    · exact (setStop_stop hn hq p).trans (if_neg hpq)
    · exact (setStop_stop hn hq p).trans (if_neg hpq)
    · rfl

/-- The queues answer one after the other, each by its own stop. -/
theorem forAll_answerPause {mask : Nat} (hn : n < 16) (qs : List Nat) (hnodup : qs.Nodup) (hqs : ∀ q ∈ qs, q < 8) :
    ∀ f : FieldDie, n < f.ports.length → StopMoves n f (forAll qs (answerPause n quanta mask) f) ∧
      ∀ p, pauseStop (forAll qs (answerPause n quanta mask) f) n p =
        if p ∈ qs then answeredStop n quanta mask f p else pauseStop f n p := by
  induction qs with
  | nil => exact fun f _ => ⟨.refl n f, fun p => rfl⟩
  | cons q qs ih =>
    intro f hlen
    obtain ⟨hout, hnodup'⟩ := List.nodup_cons.1 hnodup
    have first := answerPause_stopMoves n quanta mask q f
    have stop := answerPause_stop (quanta := quanta) (mask := mask) hlen (hqs q List.mem_cons_self)
    obtain ⟨moves, stops⟩ := ih hnodup' (fun r hr => hqs r (List.mem_cons_of_mem _ hr)) _ (first.length ▸ hlen)
    refine ⟨first.trans moves, fun p => (stops p).trans ?_⟩
    by_cases hpq : p = q
    · subst hpq
      rw [if_neg hout, stop, if_pos rfl, if_pos List.mem_cons_self]
    · have kept : pauseStop (answerPause n quanta mask q f) n p = pauseStop f n p := (stop p).trans (if_neg hpq)
      rw [answeredStop_eq first hn kept, kept]
      simp [hpq]

/-- With pause_rx 1 a PAUSE is counted and each queue answers (R331). -/
theorem pauseFrame_of_rx (hn : n < 4) (hrx : f.flag (F_PORT_PAUSE_pause_rx n) = true) :
    pauseFrame n quanta f = forAll (List.range 8) (answerPause n quanta (f.get (F_PORT_PAUSE_pause_mask n)))
      (f.count (cPort n 6)) := by
  unfold pauseFrame answerPause
  rw [if_pos ⟨hn, hrx⟩]
  dsimp only
  split
  · rfl
  · rfl

/-- A PAUSE at a port that is up stops the queues that honour it (R331). -/
theorem exec_pauseReceive_stops (hr : s.fld.phase = .running) (hlen : s.fld.ports.length = 17) (hn : n < 4)
    (hquanta : quanta < 65536) (hup : stateUp (portState s.fld n) = true)
    (hrx : s.fld.flag (F_PORT_PAUSE_pause_rx n) = true) :
    ∃ t, exec (.pauseReceive n quanta) s = .next t ∧ t.fld.cntAt (cPort n 6) = (s.fld.cntAt (cPort n 6) + 1) % 2 ^ 64 ∧
      (∀ q, q < 8 → (pauseStop t.fld n q).until_ =
        (answeredStop n quanta (s.fld.get (F_PORT_PAUSE_pause_mask n)) s.fld q).until_) ∧
      (∀ m, m ≠ n → t.fld.portX m = s.fld.portX m) ∧
      FieldFrame [F_PORT_STAT n] { s.fld.count (cPort n 6) with ports := t.fld.ports } s t := by
  have counted : n < (s.fld.count (cPort n 6)).ports.length := by
    rw [FieldDie.count_ports]
    omega
  obtain ⟨moves, stops⟩ := forAll_answerPause (n := n) (quanta := quanta) (mask := s.fld.get (F_PORT_PAUSE_pause_mask n))
    (by omega) (List.range 8) List.nodup_range (fun q hq => List.mem_range.1 hq) (s.fld.count (cPort n 6)) counted
  rw [← pauseFrame_of_rx hn hrx] at moves stops
  have frame := moves.frame (s := s) rfl
  refine ⟨{ s with fld := settle (pauseFrame n quanta s.fld) }, ?_, ?_, fun q hq => ?_, fun m hm => ?_, frame⟩
  · change execPauseReceive n quanta s = _
    unfold execPauseReceive
    rw [State.onItem_running hr (by omega), if_pos hup, Nat.mod_eq_of_lt hquanta]
  · rw [settle_cntAt_port _ (by omega) (by decide)]
    have link := cPort_lt_cXng (n := n) (k := 6) (by omega) (by decide)
    refine (moves.soft.send.cnt _ link.ne (link.trans (by decide)).ne (link.trans (by decide)).ne).trans ?_
    exact (FieldDie.cntAt_count s.fld _ _).trans (if_pos rfl)
  · rw [settle_pauseStop, stops, if_pos (List.mem_range.2 hq)]
    rfl
  · exact (portX_of_ports (settle_ports _) m).trans (moves.others m hm)

/-! ### The end of a stop (R331, R332) -/

theorem execPauseExpire_of_over (hr : s.fld.phase = .running) (hn : n < 4) (hq : q < 8)
    (hover : (pauseStop s.fld n q).until_ ≤ s.fld.now10) :
    exec (.pauseExpire n q) s = .next { s with fld := settle (setStop n q id s.fld) } := by
  change execPauseExpire n q s = _
  unfold execPauseExpire
  rw [State.onItem_running hr hn, if_pos ⟨hq, hover⟩]

theorem setStop_id_stop (hn : n < f.ports.length) (hq : q < 8) (p : Nat) :
    pauseStop (setStop n q id f) n p = pauseStop f n p := (setStop_stop hn hq p).trans (ite_self _)

theorem setStop_id_paused (hn : n < f.ports.length) (hq : q < 8) :
    (setStop n q id f).get (F_PORT_STAT_paused n) = pausedBit n f := by
  have stops : pauseStopped (f.setPortX n (restop q id)) n = pauseStopped f n := by
    funext p
    have stop : pauseStop (f.setPortX n (restop q id)) n p = pauseStop f n p := (restop_stop hn hq p).trans (ite_self _)
    unfold pauseStopped
    rw [stop]
    rfl
  rw [setStop_paused]
  unfold pausedBit
  rw [stops]

/-- A stop ends at its time, and the port shows whether one is left. -/
theorem exec_pauseExpire_ends (hr : s.fld.phase = .running) (hlen : s.fld.ports.length = 17) (hn : n < 4) (hq : q < 8)
    (hover : (pauseStop s.fld n q).until_ ≤ s.fld.now10) :
    ∃ t, exec (.pauseExpire n q) s = .next t ∧ pauseStopped t.fld n q = false ∧
      (∀ p, p < 8 → pauseStop t.fld n p = pauseStop s.fld n p) ∧
      t.fld.get (F_PORT_STAT_paused n) = pausedBit n s.fld ∧ (∀ m, m ≠ n → t.fld.portX m = s.fld.portX m) ∧
      FieldFrame [F_PORT_STAT n] { s.fld with ports := t.fld.ports } s t := by
  have moves := setStop_stopMoves n q id s.fld
  have stop : ∀ p, pauseStop (settle (setStop n q id s.fld)) n p = pauseStop s.fld n p := fun p =>
    (settle_pauseStop n p _).trans (setStop_id_stop (by omega) hq p)
  refine ⟨_, execPauseExpire_of_over hr hn hq hover, ?_, fun p _ => stop p, ?_, fun m hm => ?_, moves.frame rfl⟩
  · unfold pauseStopped
    rw [stop, settle_now10, moves.now10]
    exact decide_eq_false (by omega)
  · exact (portStat_get_settle (by omega) rfl).trans (setStop_id_paused (by omega) hq)
  · exact (portX_of_ports (settle_ports _) m).trans (moves.others m hm)

/-- The stop of a queue that has been stopped for pause_cap: released, and for a time deaf to PAUSE (R332). -/
def cappedStop (n : Nat) (f : FieldDie) (x : PauseStop) : PauseStop :=
  { x with until_ := 0, ignore := f.now10 + 2068 * byteTime f n }

theorem execPauseCapped_of_capped (hr : s.fld.phase = .running) (hn : n < 4) (hq : q < 8)
    (hstop : (pauseStop s.fld n q).until_ ≠ 0) (hnow : (pauseStop s.fld n q).since + pauseCap s.fld n ≤ s.fld.now10)
    (huntil : (pauseStop s.fld n q).since + pauseCap s.fld n ≤ (pauseStop s.fld n q).until_) :
    exec (.pauseCapped n q) s =
      .next { s with fld := settle ((setStop n q (cappedStop n s.fld) s.fld).raise (F_PORT_EVT n) 5) } := by
  change execPauseCapped n q s = _
  unfold execPauseCapped
  rw [State.onItem_running hr hn, if_pos ⟨hq, hstop, le_min hnow huntil⟩]
  rfl

/-- A stop of pause_cap ends with pause_capped, and moves no other. -/
theorem exec_pauseCapped_releases (hr : s.fld.phase = .running) (hlen : s.fld.ports.length = 17) (hn : n < 4) (hq : q < 8)
    (hstop : (pauseStop s.fld n q).until_ ≠ 0) (hnow : (pauseStop s.fld n q).since + pauseCap s.fld n ≤ s.fld.now10)
    (huntil : (pauseStop s.fld n q).since + pauseCap s.fld n ≤ (pauseStop s.fld n q).until_) :
    ∃ t, exec (.pauseCapped n q) s = .next t ∧ (pauseStop t.fld n q).until_ = 0 ∧
      (pauseStop t.fld n q).ignore = s.fld.now10 + 2068 * byteTime s.fld n ∧ t.fld.sq (F_PORT_EVT n) 5 = true ∧
      (∀ p, p < 8 → p ≠ q → pauseStop t.fld n p = pauseStop s.fld n p) ∧
      (∀ m, m ≠ n → t.fld.portX m = s.fld.portX m) ∧
      FieldFrame [F_PORT_STAT n, F_PORT_EVT n] { s.fld with ports := t.fld.ports } s t := by
  obtain ⟨capped, hcapped⟩ : ∃ g, g = setStop n q (cappedStop n s.fld) s.fld := ⟨_, rfl⟩
  have moves : StopMoves n s.fld capped := hcapped ▸ setStop_stopMoves n q _ s.fld
  have ports : (settle (capped.raise (F_PORT_EVT n) 5)).ports = capped.ports := (settle_ports _).trans (FieldDie.raise_ports _ _ _)
  have stop : ∀ p, pauseStop (settle (capped.raise (F_PORT_EVT n) 5)) n p =
      if p = q then cappedStop n s.fld (pauseStop s.fld n p) else pauseStop s.fld n p := by
    intro p
    unfold pauseStop
    rw [portX_of_ports ports, hcapped]
    exact setStop_stop (by omega) hq p
  refine ⟨{ s with fld := settle (capped.raise (F_PORT_EVT n) 5) }, ?_, ?_, ?_, ?_, fun p _ hp => ?_, fun m hm => ?_, ?_⟩
  · rw [hcapped]
    exact execPauseCapped_of_capped hr hn hq hstop hnow huntil
  · rw [stop, if_pos rfl]
    rfl
  · rw [stop, if_pos rfl]
    rfl
  · exact (settle_sq_of_notMem (portEvt_notMem_coverRegs (by omega))).trans
      (FieldDie.raise_sq _ _ _ (portEvt_ne_xng (by omega)) (by decide))
  · exact (stop p).trans (if_neg hp)
  · exact (portX_of_ports ports m).trans (moves.others m hm)
  · rw [ports]
    exact ((moves.soft.mono (by simp)).trans (FieldDie.raise_softMoves (by simp) capped 5)).frame rfl

/-- Settles O19: verification comes to a state by `verified`, and PAUSE moves one stop at a time by `setStop`. -/
theorem portVerificationAndPause : Obligations.PortVerificationAndPause := by
  unfold Obligations.PortVerificationAndPause
  refine ⟨fun s n hr hn hv hup hfew hgap => ?_, fun s n hr hn hv hsent => ?_, fun s n hr hn hv hsent hgap => ?_,
    fun s n quanta hr hs hn hquanta hup hrx => ?_, fun s n q hr hs hn hq hover => ?_,
    fun s n q hr hs hn hq hstop hnow huntil => ?_⟩
  · exact exec_verifySend_sends hr hn hv hup hfew hgap
  · exact exec_verifyResponse_succeeds hr hn hv hsent
  · exact exec_verifyFail_fails hr hn hv hsent hgap
  · obtain ⟨t, step, counted, stops, others, frame⟩ := exec_pauseReceive_stops hr hs.ports hn hquanta hup hrx
    exact ⟨t, step, counted, fun q hq => (stops q hq).trans (answeredStop_until ..), others, frame⟩
  · exact exec_pauseExpire_ends hr hs.ports hn hq hover
  · exact exec_pauseCapped_releases hr hs.ports hn hq hstop hnow huntil

end Sys2Proof.Machine
end

section
/-! The refutations of O43 and O44: a frame in reception whose record names a meter past the 4,096 of the table. -/

namespace Sys2Proof.Machine

/-- The counter of what is returned to meter 0x1400 + 16 k + i, were there one, is counter 4 i + 3 of segment `k`. -/
theorem cMeter_past_table (k i : Nat) : cMeter (0x1400 + 0x10 * k + i) 3 = cSeg k (4 * i + 3) := by
  unfold cMeter cSeg
  omega

/-- Segment 0 is in UP, 10 ms after reset, with `x` as its controller, and receives a frame whose record names meter
0x1400 + i. A stream names a meter in 12 bits (Table 12.6), so no command makes such a record, and nothing in the statements
keeps one out. -/
def strayMeter (i : Nat) (x : SegX) : State :=
  { fld :=
    { phase := .running
      reg := [(F_PORT_STAT 12, 0x30000000)]
      tim := { c := 10 * msTicks }
      segs := x :: List.replicate 3 {}
      buf := { frames := [{ port := 12, metered := some (0x1400 + i, false, 0) }] } } }

theorem strayMeter_shape (i : Nat) (x : SegX) : Shape (strayMeter i x) := by
  constructor
  all_goals rfl

/-- The end of a command leaves the counters of segments as they are. -/
theorem settle_cntAt_seg (f : FieldDie) {k j : Nat} (hk : k < 4) (hj : j < 64) :
    (settle f).cntAt (cSeg k j) = f.cntAt (cSeg k j) := by
  have below : cSeg k j < cXng 0 := by unfold cSeg cXng; omega
  exact settle_cntAt f below.ne (below.trans (by decide)).ne (below.trans (by decide)).ne

/-- Segment 0 lost its beacons at reset, and the frame in reception names meter 0x1401. -/
def lostWithStrayMeter : State := strayMeter 1 { lostAt := some 0 }

/-- The loss of the link is counted, and the frame that it truncates returns what it paid to its meter (R326, R509), which
is counted in the same place. -/
theorem downMsExpiry_counts_strayMeter : (downMsExpiry 0 lostWithStrayMeter.fld).cntAt (cMeter 0x1401 3) = 2 := by
  decide +kernel

/-- Refutes O43, by its clause of the loss of the link after down_ms: the link losses of segment 0 (R354) are counted by one,
and by `cMeter_past_table` once more for a frame in reception that names meter 0x1401. The two meet only for a meter number
of 4,096 or more. -/
theorem not_segmentBeaconsAndLosses : ¬ Obligations.SegmentBeaconsAndLosses := by
  unfold Obligations.SegmentBeaconsAndLosses
  rintro ⟨-, -, -, -, -, -, linkLost⟩
  obtain ⟨t, ht, -, -, counted, -⟩ := linkLost lostWithStrayMeter 0 0 rfl (strayMeter_shape _ _) (by decide) (by decide)
    (by decide +kernel) rfl (by decide +kernel)
  obtain rfl := next_unique ht (State.onItem_running rfl (by decide))
  have before : lostWithStrayMeter.fld.cntAt (cSeg 0 7) = 0 := rfl
  have twice : (downMsExpiry 0 lostWithStrayMeter.fld).cntAt (cSeg 0 7) = 2 :=
    cMeter_past_table 0 1 ▸ downMsExpiry_counts_strayMeter
  dsimp only at counted
  rw [settle_cntAt_seg _ (by decide) (by decide), twice, before] at counted
  exact absurd counted (by decide)

/-- A cycle runs on segment 0 in the opportunity of node 3, and the frame in reception names meter 0x1408. -/
def overlappedWithStrayMeter : State := strayMeter 8 { active := true, toNode := 3 }

/-- The overlap is counted against node 3, and the frame that it rejects returns what it paid to its meter (R362, R509),
which is counted in the same place. -/
theorem plcaOverlap_counts_strayMeter : (plcaOverlap 0 overlappedWithStrayMeter.fld).cntAt (cMeter 0x1408 3) = 2 := by
  decide +kernel

/-- Refutes O44, by its clause of an overlap in reception: the overlaps of node 3 of segment 0 (R362) are counted by one, and
by `cMeter_past_table` once more for a frame in reception that names meter 0x1408. The two meet only for a meter number of
4,096 or more. -/
theorem not_segmentOpportunities : ¬ Obligations.SegmentOpportunities := by
  unfold Obligations.SegmentOpportunities
  rintro ⟨-, -, -, overlap, -⟩
  have hrx : overlappedWithStrayMeter.fld.inRx 12 = some { port := 12, metered := some (0x1408, false, 0) } := rfl
  obtain ⟨t, ht, -, -, counted, -⟩ := overlap overlappedWithStrayMeter 0 _ rfl (strayMeter_shape _ _) (by decide) hrx
  obtain rfl := next_unique ht (State.onItem_running rfl (by decide))
  have node : runNode overlappedWithStrayMeter.fld 0 = 3 := by decide +kernel
  have before : overlappedWithStrayMeter.fld.cntAt (cSeg 0 35) = 0 := rfl
  have twice : (plcaOverlap 0 overlappedWithStrayMeter.fld).cntAt (cSeg 0 35) = 2 :=
    cMeter_past_table 0 8 ▸ plcaOverlap_counts_strayMeter
  dsimp only at counted
  rw [node, settle_cntAt_seg _ (by decide) (by decide), twice, before] at counted
  exact absurd counted (by decide)

end Sys2Proof.Machine
end

section
/-! What a step of the data path leaves of the frames and of the counters of parser statuses: charges and copies, meters,
and the verdict of the ingress MAC. The passes of the parser (O31) use it. -/

namespace Sys2Proof.Machine

variable {f g h : FieldDie}

/-! ### Frames that keep their identity -/

/-- From `x` to `y` a frame keeps its number, its port and its place in an assembly, stays in reception if `live` holds of
its number, and what its passes have done stays done. -/
structure FrameKept (live : Nat → Bool) (x y : Frame) : Prop where
  id : y.id = x.id
  port : y.port = x.port
  held : y.held = x.held
  rx : y.rx = (x.rx && live x.id)
  shortDone : x.shortDone = true → y.shortDone = true
  final : x.final ≠ none → y.final ≠ none

theorem FrameKept.ofEq {x y : Frame} (hi : y.id = x.id) (hp : y.port = x.port) (hh : y.held = x.held) (hr : y.rx = x.rx)
    (hs : y.shortDone = x.shortDone) (hf : y.final = x.final) : FrameKept (fun _ => true) x y :=
  ⟨hi, hp, hh, by simp [hr], hs.trans, fun h => hf ▸ h⟩

/-- The frames of `g` are those of `f`, each of them kept; all frames of one number stay in reception, or none. -/
def FramesKept (f g : FieldDie) : Prop :=
  ∃ (live : Nat → Bool) (k : Frame → Frame), g.buf.frames = f.buf.frames.map k ∧ ∀ x, FrameKept live x (k x)

theorem FramesKept.ofEq (hf : g.buf.frames = f.buf.frames) : FramesKept f g :=
  ⟨fun _ => true, id, by simpa using hf, fun _ => .ofEq rfl rfl rfl rfl rfl rfl⟩

theorem FramesKept.trans (a : FramesKept f g) (b : FramesKept g h) : FramesKept f h := by
  obtain ⟨live, k, hg, hk⟩ := a
  obtain ⟨live', k', hh, hk'⟩ := b
  refine ⟨fun i => live i && live' i, k' ∘ k, by rw [hh, hg, List.map_map], fun x => ?_⟩
  have first := hk x
  have second := hk' (k x)
  refine ⟨second.id.trans first.id, second.port.trans first.port, second.held.trans first.held, ?_,
    fun h => second.shortDone (first.shortDone h), fun h => second.final (first.final h)⟩
  rw [Function.comp_apply, second.rx, first.rx, first.id, Bool.and_assoc]

/-- What holds of all frames of number `i`, and of what a kept frame becomes, still holds of them. -/
theorem FramesKept.forall_frames {P : Frame → Prop} (hP : ∀ live x y, FrameKept live x y → P x → P y) {i : Nat}
    (a : FramesKept f g) (hf : ∀ x ∈ f.buf.frames, x.id = i → P x) : ∀ y ∈ g.buf.frames, y.id = i → P y := by
  obtain ⟨live, k, hg, hk⟩ := a
  intro y hy hi
  obtain ⟨x, hx, rfl⟩ := List.mem_map.1 (hg ▸ hy)
  exact hP live x _ (hk x) (hf x hx ((hk x).id.symm.trans hi))

/-- A change of all frames of number `i` after which they are all in reception as before (`b`), or none is. -/
theorem setFrame_framesKept {b : Bool} {k : Frame → Frame} (hk : ∀ x, FrameKept (fun _ => b) x (k x)) (i : Nat) (f : FieldDie) :
    FramesKept f (f.setFrame i k) := by
  refine ⟨fun j => if j == i then b else true, _, rfl, fun x => ?_⟩
  split
  next hx => exact ⟨(hk x).id, (hk x).port, (hk x).held, by simp [hx, (hk x).rx], (hk x).shortDone, (hk x).final⟩
  next hx => exact ⟨rfl, rfl, rfl, by simp [hx], fun h => h, fun h => h⟩

/-- All frames of number `i` are as the change has left them. -/
theorem forall_frames_setFrame {P : Frame → Prop} {k : Frame → Frame} (hP : ∀ x, P (k x)) (i : Nat) (f : FieldDie) :
    ∀ y ∈ (f.setFrame i k).buf.frames, y.id = i → P y := by
  intro y hy hyi
  obtain ⟨x, -, rfl⟩ := List.mem_map.1 hy
  split
  next => exact hP x
  next hne =>
    rw [if_neg hne] at hyi
    exact absurd hyi (by simpa using hne)

/-- No frame of number `i` is in reception. -/
def Ended (i : Nat) (f : FieldDie) : Prop := ∀ x ∈ f.buf.frames, x.id = i → x.rx = false

theorem FramesKept.ended {i : Nat} (a : FramesKept f g) (hf : Ended i f) : Ended i g :=
  a.forall_frames (P := fun x => x.rx = false) (fun _ _ _ hk hx => by rw [hk.rx, hx, Bool.false_and]) hf

/-! ### Steps that count no parser status -/

/-- The counters of parser statuses (Table 20.2, R390): counters 10 to 16 of a port. -/
def statusCounter (a : Nat) : Prop := ∃ n k, n < 17 ∧ 10 ≤ k ∧ k ≤ 16 ∧ a = cPort n k

theorem not_statusCounter_cPort {n k : Nat} (hk : k < 10 ∨ 16 < k ∧ k < 256) : ¬ statusCounter (cPort n k) := by
  rintro ⟨m, j, -, hlo, hhi, h⟩
  unfold cPort at h
  omega

/-- The counters of the eight queues of a port, and counters 1 to 9 whatever the queue. -/
theorem not_statusCounter_cQueue {n q j : Nat} (h : q < 8 ∧ j < 16 ∨ 1 ≤ j ∧ j < 10) : ¬ statusCounter (cQueue n q j) := by
  rintro ⟨m, k, -, hlo, hhi, he⟩
  unfold cQueue cPort at he
  omega

/-- The counters of streams, meters, rules and the links stand above those of ports. -/
theorem not_statusCounter_of_le {a : Nat} (ha : 0xE10000 ≤ a) : ¬ statusCounter a := by
  rintro ⟨m, k, hm, hlo, hhi, rfl⟩
  unfold cPort at ha
  omega

theorem not_statusCounter_cStream (i k : Nat) : ¬ statusCounter (cStream i k) :=
  not_statusCounter_of_le (by unfold cStream; omega)

theorem not_statusCounter_cMeter (m k : Nat) : ¬ statusCounter (cMeter m k) :=
  not_statusCounter_of_le (by unfold cMeter; omega)

/-- From `f` to `g` every frame is kept and no parser status is counted. -/
structure PassSame (f g : FieldDie) : Prop where
  frames : FramesKept f g
  cnt : ∀ a, statusCounter a → g.cntAt a = f.cntAt a

theorem PassSame.ofEq (hf : g.buf.frames = f.buf.frames) (hc : g.cnt = f.cnt) : PassSame f g :=
  ⟨.ofEq hf, fun a _ => FieldDie.cntAt_eq hc a⟩

theorem PassSame.refl (f : FieldDie) : PassSame f f := .ofEq rfl rfl

theorem PassSame.trans (a : PassSame f g) (b : PassSame g h) : PassSame f h :=
  ⟨a.frames.trans b.frames, fun x hx => (b.cnt x hx).trans (a.cnt x hx)⟩

/-- A step that is taken or not. -/
theorem PassSame.ite {c : Prop} [Decidable c] (a : PassSame f g) : PassSame f (if c then g else f) := by
  split
  · exact a
  · exact .refl f

theorem PassSame.ite_not {c : Prop} [Decidable c] (a : PassSame f g) : PassSame f (if c then f else g) := by
  split
  · exact .refl f
  · exact a

theorem SendSame.passSame (a : SendSame f g) : PassSame f g := by
  refine ⟨.ofEq (congrArg BufX.frames a.buf), fun x hx => a.cnt x ?_ ?_ ?_⟩
  all_goals rintro rfl
  all_goals exact absurd hx (not_statusCounter_of_le (by decide))

theorem countN_passSame {a : Nat} (ha : ¬ statusCounter a) (k : Nat) (f : FieldDie) : PassSame f (f.countN a k) :=
  ⟨.ofEq rfl, fun b hb => (f.cntAt_countN a b k).trans (if_neg fun he => ha (by rwa [he] at hb))⟩

theorem count_passSame {a : Nat} (ha : ¬ statusCounter a) (f : FieldDie) : PassSame f (f.count a) := countN_passSame ha 1 f

theorem wrN_passSame (f : FieldDie) (a v : Nat) : PassSame f (f.wrN a v) := .ofEq rfl rfl

theorem put_passSame (f : FieldDie) (r : Fld) (v : Nat) : PassSame f (f.put r v) := .ofEq rfl rfl

theorem setPortX_passSame (f : FieldDie) (n : Nat) (p : PortX → PortX) : PassSame f (f.setPortX n p) := .ofEq rfl rfl

theorem raise_passSame (f : FieldDie) (a bit : Nat) : PassSame f (f.raise a bit) := (f.raise_sendSame a bit).passSame

theorem setFrame_passSame {b : Bool} {k : Frame → Frame} (hk : ∀ x, FrameKept (fun _ => b) x (k x)) (i : Nat) (f : FieldDie) :
    PassSame f (f.setFrame i k) := ⟨setFrame_framesKept hk i f, fun _ _ => rfl⟩

theorem forAll_passSame {α : Type} {k : α → FieldDie → FieldDie} (hk : ∀ x f, PassSame f (k x f)) (xs : List α) (f : FieldDie) :
    PassSame f (forAll xs k f) := by
  unfold forAll
  induction xs generalizing f with
  | nil => exact .refl f
  | cons x xs ih => exact (hk x f).trans (ih (k x f))

/-- As `forAll_passSame`, for a run that gathers answers as it goes. -/
theorem foldl_passSame {α β : Type} {k : α × FieldDie → β → α × FieldDie} {xs : List β}
    (hk : ∀ a, ∀ x ∈ xs, PassSame a.2 (k a x).2) (a : α × FieldDie) : PassSame a.2 (xs.foldl k a).2 := by
  induction xs generalizing a with
  | nil => exact .refl a.2
  | cons x xs ih =>
    exact (hk a x List.mem_cons_self).trans (ih (fun b y hy => hk b y (List.mem_cons_of_mem x hy)) (k a x))

/-! ### Timestamps, charges and copies -/

theorem tsqPush_passSame (n : Nat) (e : TsEntry) (f : FieldDie) : PassSame f (tsqPush n e f) := by
  unfold tsqPush
  split
  · exact .refl f
  · split
    · exact .ofEq rfl rfl
    · refine PassSame.trans ?_ (raise_passSame _ _ _)
      refine PassSame.trans ?_ (put_passSame _ _ _)
      exact count_passSame (not_statusCounter_cPort (by decide)) f

theorem tsqFrame_passSame (fr : Frame) (n st re ts : Nat) (f : FieldDie) : PassSame f (tsqFrame fr n st re ts f) := by
  unfold tsqFrame
  split
  · exact tsqPush_passSame _ _ f
  · exact .refl f

theorem countDrop_passSame {code : Nat} (hc : code < 224) (n : Nat) (f : FieldDie) : PassSame f (f.countDrop n code) :=
  count_passSame (not_statusCounter_cPort (by omega)) f

/-- A stage 6 or 7 drop: at one of the eight queues of a port, or under a reason whose queue counter is one of the first ten. -/
theorem countQDrop_passSame {q code : Nat} (hc : code ≤ 0x26) (hq : q < 8 ∨ code < 0x26) (n : Nat) (f : FieldDie) :
    PassSame f (f.countQDrop n q code) := by
  refine (countDrop_passSame (Nat.lt_of_le_of_lt hc (by decide)) n f).trans ?_
  unfold FieldDie.countQDrop
  split
  next j hj =>
    refine count_passSame (not_statusCounter_cQueue ?_) _
    unfold queueDropIdx at hj
    split_ifs at hj
    all_goals
      injection hj with hj
      omega
  next => exact .refl _

theorem chargeSub_passSame (n q c : Nat) (r : Bool) (f : FieldDie) : PassSame f (chargeSub n q c r f) := by
  unfold chargeSub
  dsimp only
  refine PassSame.trans ?_ (put_passSame _ _ _)
  split
  · exact (wrN_passSame f _ _).trans (put_passSame _ _ _)
  · exact ((wrN_passSame f _ _).trans (put_passSame _ _ _)).trans (put_passSame _ _ _)

theorem raiseWm_passSame (n q : Nat) (f : FieldDie) : PassSame f (raiseWm n q f) :=
  (((wrN_passSame f _ _).trans (put_passSame _ _ _)).trans (put_passSame _ _ _)).trans (put_passSame _ _ _)

theorem chargeAdd_passSame (n q c : Nat) (r : Bool) (f : FieldDie) : PassSame f (chargeAdd n q c r f) := by
  unfold chargeAdd
  dsimp only
  refine PassSame.trans ?_ (put_passSame _ _ _)
  refine PassSame.trans ?_ (raiseWm_passSame n q _)
  split
  · exact (wrN_passSame f _ _).trans (put_passSame _ _ _)
  · exact ((wrN_passSame f _ _).trans (put_passSame _ _ _)).trans (put_passSame _ _ _)

theorem releaseCopy_passSame (c : Copy) (f : FieldDie) : PassSame f (releaseCopy c f) := chargeSub_passSame _ _ _ _ f

theorem noCell_passSame (n : Nat) (f : FieldDie) : PassSame f (noCell n f) := by
  unfold noCell
  dsimp only
  refine .ite ?_
  refine PassSame.trans ?_ (raise_passSame _ _ _)
  refine PassSame.trans ?_ (put_passSame _ _ _)
  exact .ofEq rfl rfl

theorem noteDrained_passSame (n : Nat) (f : FieldDie) : PassSame f (noteDrained n f) := by
  unfold noteDrained
  exact .ite (setPortX_passSame f n _)

theorem placeCopy_passSame (fr : Frame) (c : Copy) (f : FieldDie) : PassSame f (placeCopy fr c f) := by
  unfold placeCopy
  split
  · refine (noteDrained_passSame c.port f).trans ?_
    exact .ofEq rfl rfl
  · exact .ofEq rfl rfl

/-- The reasons of Table 11.1. -/
theorem admitTest_refused {n q cells colour code : Nat} {mirror : Bool} (h : admitTest f n q cells colour mirror = .refused code) :
    code ≤ 0x25 := by
  unfold admitTest at h
  dsimp only at h
  split_ifs at h
  all_goals
    injection h with h
    omega

theorem admitCopy_passSame {c : Copy} (hq : c.queue < 8) (fr : Frame) (f : FieldDie) : PassSame f (admitCopy fr c f).2 := by
  unfold admitCopy
  split
  next code hcode =>
    have refused := admitTest_refused hcode
    have noted : PassSame f (if code = 0x25 then noCell c.port f else f) := .ite (noCell_passSame c.port f)
    dsimp only
    split
    · exact noted.trans (countQDrop_passSame (Nat.le_refl 0x26) (.inl hq) _ _)
    · refine PassSame.trans ?_ (tsqFrame_passSame ..)
      exact noted.trans (countQDrop_passSame (by omega) (.inl hq) _ _)
  next => exact (chargeAdd_passSame ..).trans (placeCopy_passSame ..)
  next => exact (chargeAdd_passSame ..).trans (placeCopy_passSame ..)

theorem admitCopies_passSame {cs : List Copy} (hq : ∀ c ∈ cs, c.queue < 8) (fr : Frame) (f : FieldDie) :
    PassSame f (admitCopies fr cs f).2 :=
  foldl_passSame (α := List Nat) (fun a c hc => admitCopy_passSame (hq c hc) fr a.2) ([], f)

theorem discardCopy_passSame {code : Nat} (hc : code < 0x26) (c : Copy) (f : FieldDie) : PassSame f (discardCopy code c f) := by
  have counted : PassSame f (f.countQDrop c.port c.queue code) := countQDrop_passSame (Nat.le_of_lt hc) (.inr hc) c.port f
  unfold discardCopy
  dsimp only
  refine PassSame.trans ?_ (releaseCopy_passSame c _)
  exact counted.trans (.ite_not (tsqFrame_passSame ..))

theorem dropFrameCopies_passSame (id reason : Nat) (f : FieldDie) : PassSame f (dropFrameCopies id reason f) := by
  unfold dropFrameCopies
  extract_lets gone mark buf dropped
  have hdropped : PassSame f dropped := .ofEq rfl rfl
  exact hdropped.trans (forAll_passSame releaseCopy_passSame gone dropped)

theorem discardQueued_passSame {code : Nat} (hc : code < 0x26) (p : Copy → Bool) (f : FieldDie) :
    PassSame f (discardQueued p code f) := by
  unfold discardQueued
  extract_lets gone buf kept
  have hkept : PassSame f kept := .ofEq rfl rfl
  exact hkept.trans (forAll_passSame (discardCopy_passSame hc) gone kept)

theorem emptyPort_passSame {code : Nat} (hc : code < 0x26) (n : Nat) (f : FieldDie) : PassSame f (emptyPort n code f) := by
  unfold emptyPort
  extract_lets gone queued buf kept
  have hqueued : PassSame f queued := discardQueued_passSame hc _ f
  have hkept : PassSame queued kept := .ofEq rfl rfl
  exact (hqueued.trans hkept).trans (forAll_passSame (discardCopy_passSame hc) gone kept)

theorem settleFrame_passSame (id len : Nat) (f : FieldDie) : PassSame f (settleFrame id len f) := by
  unfold settleFrame
  extract_lets n reduce mine sending excess charged shortened drained waiting queued
  have hcharged : PassSame f charged :=
    forAll_passSame (fun (c : Copy) => chargeSub_passSame c.port c.queue _ c.reserve) excess f
  have hshortened : PassSame charged shortened := .ofEq rfl rfl
  have hdrained : PassSame shortened drained := forAll_passSame (fun (c : Copy) => noteDrained_passSame c.port) _ _
  refine ((hcharged.trans hshortened).trans hdrained).trans ?_
  exact .ofEq rfl rfl

/-! ### Meters, octet sums and rate levels -/

theorem setBucket_passSame (m b v : Nat) (f : FieldDie) : PassSame f (setBucket m b v f) := wrN_passSame f _ _

theorem meterRefund_passSame (m b k : Nat) (f : FieldDie) :
    PassSame f (if stage4Frozen f then f else (meterReturn m b k f).count (cMeter m 3)) := by
  refine .ite_not ?_
  refine PassSame.trans ?_ (count_passSame (not_statusCounter_cMeter m 3) _)
  unfold meterReturn
  split
  · exact setBucket_passSame m b _ f
  · exact .ofEq rfl rfl

theorem setOctetSum_passSame (w cyc v : Nat) (f : FieldDie) : PassSame f (setOctetSum w cyc v f) := by
  unfold setOctetSum
  exact .ofEq rfl rfl

theorem octetRefund_passSame (w cyc v : Nat) (f : FieldDie) :
    PassSame f (if stage4Frozen f then f else setOctetSum w cyc v f) :=
  .ite_not (setOctetSum_passSame w cyc v f)

theorem settleStage4_passSame (fr : Frame) (len : Nat) (f : FieldDie) : PassSame f (settleStage4 fr len f) := by
  unfold settleStage4
  rcases fr.metered with _ | ⟨m, ex, p⟩ <;> rcases fr.octets with _ | ⟨w, cyc, q⟩
  · exact .refl f
  · exact octetRefund_passSame w cyc _ f
  · exact meterRefund_passSame m _ _ f
  · exact (meterRefund_passSame m _ _ f).trans (octetRefund_passSame w cyc _ _)

theorem revertStage4_passSame (fr : Frame) (f : FieldDie) : PassSame f (revertStage4 fr f) := by
  unfold revertStage4
  rcases fr.metered with _ | ⟨m, ex, p⟩ <;> rcases fr.octets with _ | ⟨w, cyc, q⟩
  · exact .refl f
  · exact octetRefund_passSame w cyc _ f
  · exact meterRefund_passSame m _ _ f
  · exact (meterRefund_passSame m _ _ f).trans (octetRefund_passSame w cyc _ _)

theorem settleRate_passSame (id len : Nat) (f : FieldDie) : PassSame f (settleRate id len f) := by
  unfold settleRate forRange
  refine forAll_passSame (fun n f => forAll_passSame (fun c f => .ite_not ?_) _ f) _ f
  exact .ofEq rfl rfl

theorem meterFrame_passSame (m len colour : Nat) (f : FieldDie) : PassSame f (meterFrame m len colour f).2 := by
  have paid (b v k : Nat) :
      PassSame f ((if stage4Frozen f then f else setBucket m b v f).count (cMeter m k)) :=
    (PassSame.ite_not (setBucket_passSame m b v f)).trans (count_passSame (not_statusCounter_cMeter m k) _)
  unfold meterFrame
  extract_lets input pay
  split
  · exact paid 0 _ 0
  · split
    · exact paid 1 _ 1
    · exact count_passSame (not_statusCounter_cMeter m 2) f

theorem latchGate_passSame (i : Nat) (f : FieldDie) : PassSame f (latchGate i f) := by
  unfold latchGate
  exact .ite_not (wrN_passSame f _ _)

theorem oversizeStream_passSame (i : Nat) (blocks : Bool) (f : FieldDie) : PassSame f (oversizeStream i blocks f) := by
  unfold oversizeStream blockStream
  refine .ite (.ite_not ?_)
  refine PassSame.trans ?_ (raise_passSame _ _ _)
  exact (wrN_passSame f _ _).trans (put_passSame _ _ _)

/-! ### The verdict of the MAC -/

theorem stageDrop_passSame {code : Nat} (hc : code < 224) (fr : Frame) (f : FieldDie) : PassSame f (stageDrop fr code f) := by
  unfold stageDrop
  refine PassSame.trans ?_ (setFrame_passSame (b := true) (fun _ => ?_) _ _)
  · exact (countDrop_passSame hc fr.port f).trans (tsqFrame_passSame ..)
  · exact .ofEq rfl rfl rfl rfl rfl rfl

theorem rejectFrame_passSame {reason : Nat} (hc : reason < 224) (fr : Frame) (f : FieldDie) :
    PassSame f (rejectFrame fr reason f) := by
  have counted : PassSame f (if fr.dropped then f else f.countDrop fr.port reason) :=
    .ite_not (countDrop_passSame hc fr.port f)
  unfold rejectFrame
  dsimp only
  refine PassSame.trans ?_ (setFrame_passSame (b := false) (fun x => ?_) _ _)
  · refine PassSame.trans ?_ (dropFrameCopies_passSame _ _ _)
    refine PassSame.trans ?_ (settleRate_passSame _ _ _)
    exact counted.trans (revertStage4_passSame fr _)
  · exact ⟨rfl, rfl, rfl, (Bool.and_false _).symm, fun h => h, fun h => h⟩

theorem rejectFrame_ends (fr : Frame) (reason : Nat) (f : FieldDie) : Ended fr.id (rejectFrame fr reason f) := by
  unfold rejectFrame
  exact forall_frames_setFrame (P := fun x => x.rx = false) (fun _ => rfl) fr.id _

/-- Frame `fr` has been counted, its meter and octet sum settled, and it is no longer in reception. -/
def rxAccepted (fr : Frame) (f : FieldDie) : FieldDie :=
  (settleStage4 fr fr.bytes.length (settleRate fr.id fr.bytes.length
    ((f.count (cPort fr.port 0)).countN (cPort fr.port 1) fr.bytes.length))).setFrame fr.id
      (fun x => { x with rx := false, accepted := true, metered := none, octets := none })

theorem rxAccepted_passSame (fr : Frame) (f : FieldDie) : PassSame f (rxAccepted fr f) := by
  have counted : PassSame f ((f.count (cPort fr.port 0)).countN (cPort fr.port 1) fr.bytes.length) :=
    (count_passSame (not_statusCounter_cPort (by decide)) f).trans
      (countN_passSame (not_statusCounter_cPort (by decide)) _ _)
  unfold rxAccepted
  refine PassSame.trans ?_ (setFrame_passSame (b := false) (fun x => ?_) _ _)
  · exact (counted.trans (settleRate_passSame _ _ _)).trans (settleStage4_passSame fr _ _)
  · exact ⟨rfl, rfl, rfl, (Bool.and_false _).symm, fun h => h, fun h => h⟩

theorem rxAccepted_ends (fr : Frame) (f : FieldDie) : Ended fr.id (rxAccepted fr f) := by
  unfold rxAccepted
  exact forall_frames_setFrame (P := fun x => x.rx = false) (fun _ => rfl) fr.id _

/-- What is left of an acceptance: the drop of a frame that turns out too long for its stream (R498), and its copies. -/
theorem acceptFrame_of_rxAccepted (fr : Frame) (f : FieldDie) : PassSame (rxAccepted fr f) (acceptFrame fr f) := by
  have settled : acceptFrame fr f = settleFrame fr.id fr.bytes.length (if tooLong fr fr.bytes.length then
      oversizeStream (fr.stream.getD 0) fr.blocks (dropFrameCopies fr.id 0x30
        ((stageDrop fr 0x30 (rxAccepted fr f)).count (cStream (fr.stream.getD 0) 2)))
      else rxAccepted fr f) := rfl
  rw [settled]
  generalize rxAccepted fr f = f
  refine PassSame.trans (.ite ?_) (settleFrame_passSame _ _ _)
  refine PassSame.trans ?_ (oversizeStream_passSame _ _ _)
  refine PassSame.trans ?_ (dropFrameCopies_passSame _ _ _)
  exact (stageDrop_passSame (by decide) fr f).trans (count_passSame (not_statusCounter_cStream _ 2) _)

theorem acceptFrame_passSame (fr : Frame) (f : FieldDie) : PassSame f (acceptFrame fr f) :=
  (rxAccepted_passSame fr f).trans (acceptFrame_of_rxAccepted fr f)

theorem acceptFrame_ends (fr : Frame) (f : FieldDie) : Ended fr.id (acceptFrame fr f) :=
  (acceptFrame_of_rxAccepted fr f).frames.ended (rxAccepted_ends fr f)

end Sys2Proof.Machine
end

section
/-! A change of a port's state keeps frames and counts no parser status: a copy admitted at a sleeping port wakes it (R314). -/

namespace Sys2Proof.Machine

variable {f g : FieldDie}

theorem truncateRx_passSame (n : Nat) (f : FieldDie) : PassSame f (truncateRx n f) := by
  unfold truncateRx
  exact forAll_passSame (fun fr f => rejectFrame_passSame (by decide) fr f) _ f

theorem abortCopy_passSame (n : Nat) (c : Copy) (f : FieldDie) : PassSame f (abortCopy n c f) := by
  have counted : PassSame f (f.count (cPort n 5)) := count_passSame (not_statusCounter_cPort (by decide)) f
  have drawn (g : FieldDie) : PassSame g g.free.2 := .ofEq rfl rfl
  unfold abortCopy
  dsimp only
  refine PassSame.trans ?_ (releaseCopy_passSame c _)
  exact (counted.trans (drawn _)).trans (.ite_not (tsqFrame_passSame ..))

theorem abortTx_passSame (n : Nat) (f : FieldDie) : PassSame f (abortTx n f) := by
  unfold abortTx
  dsimp only
  have quiet := setPortX_passSame f n (fun x => { x with sending := none, preempted := none })
  generalize f.setPortX n _ = g at quiet ⊢
  rcases (f.portX n).sending with _ | c <;> rcases (f.portX n).preempted with _ | d
  · exact quiet
  · exact quiet.trans (abortCopy_passSame n d _)
  · exact quiet.trans (abortCopy_passSame n c _)
  · exact (quiet.trans (abortCopy_passSame n c _)).trans (abortCopy_passSame n d _)

theorem clearCredits_passSame (n : Nat) (f : FieldDie) : PassSame f (clearCredits n f) := by
  unfold clearCredits
  have cleared : PassSame f (forRange 8 (fun q f => f.wr (creditAddr n q) 0) f) :=
    forAll_passSame (k := fun q f => f.wr (creditAddr n q) 0) (fun _ _ => .ofEq rfl rfl) (List.range 8) f
  generalize forRange 8 (fun q f => f.wr (creditAddr n q) 0) f = g at cleared ⊢
  refine cleared.trans ?_
  exact .ofEq rfl rfl

theorem fdbInvalidate_passSame (i : Nat) (f : FieldDie) : PassSame f (fdbInvalidate i f) := by
  unfold fdbInvalidate fdbChanged
  refine (wrN_passSame f _ _).trans (.ite_not ?_)
  split
  · exact .ofEq rfl rfl
  · exact .ofEq rfl rfl

theorem fdbPurge_passSame (p : FdbEntry → Bool) (f : FieldDie) : PassSame f (fdbPurge p f) := by
  unfold fdbPurge
  refine .ite_not ?_
  unfold fdbRecount
  refine PassSame.trans ?_ (put_passSame _ _ _)
  exact (forAll_passSame fdbInvalidate_passSame _ f).trans (put_passSame _ _ _)

theorem setActive_passSame (i v : Nat) (f : FieldDie) : PassSame f (setActive i v f) := by
  unfold setActive
  refine .ite_not ?_
  have shown : PassSame f (((f.put (F_FWD_AGG_STAT_active i) v).put F_FWD_EVT_INFO_index i).raise F_FWD_EVT 3) :=
    ((put_passSame f _ _).trans (put_passSame _ _ _)).trans (raise_passSame _ _ _)
  exact shown.trans (.ite (fdbPurge_passSame _ _))

theorem memberDown_passSame (n : Nat) (f : FieldDie) : PassSame f (memberDown n f) := by
  unfold memberDown
  split
  · exact setActive_passSame _ _ f
  · exact .refl f

theorem flushOnDown_passSame (n : Nat) (f : FieldDie) : PassSame f (flushOnDown n f) := by
  unfold flushOnDown
  exact .ite (fdbPurge_passSame _ f)

theorem showState_passSame (n old st reason : Nat) (f : FieldDie) : PassSame f (showState n old st reason f) := by
  unfold showState
  dsimp only
  refine PassSame.trans ?_ (.ite (put_passSame _ _ _))
  exact ((put_passSame f _ _).trans (put_passSame _ _ _)).trans (setPortX_passSame _ n _)

theorem leaveUp_passSame (n old st : Nat) (f : FieldDie) : PassSame f (leaveUp n old st f) := by
  have left : PassSame f (if stateUp old && !stateUp st then memberDown n (abortTx n f) else f) :=
    .ite ((abortTx_passSame n f).trans (memberDown_passSame n _))
  unfold leaveUp
  dsimp only
  exact (left.trans (.ite (truncateRx_passSame n _))).trans (.ite (clearCredits_passSame n _))

theorem quietSegment_passSame (n : Nat) (f : FieldDie) : PassSame f (quietSegment n f) := by
  unfold quietSegment
  refine .ite ?_
  refine PassSame.trans ?_ (put_passSame _ _ _)
  refine PassSame.trans ?_ (put_passSame _ _ _)
  exact .ofEq rfl rfl

theorem nowDown_passSame (n old st : Nat) (f : FieldDie) : PassSame f (nowDown n old st f) := by
  have down : PassSame f (if stateDown st then quietSegment n (flushOnDown n (emptyPort n 0x0A f)) else f) :=
    .ite (((emptyPort_passSame (by decide) n f).trans (flushOnDown_passSame n _)).trans (quietSegment_passSame n _))
  unfold nowDown
  dsimp only
  exact down.trans (.ite (raise_passSame _ _ _))

theorem startVerify_passSame (n : Nat) (f : FieldDie) : PassSame f (startVerify n f) := by
  unfold startVerify refreshPreempt
  split
  · exact put_passSame f _ _
  · dsimp only
    exact ((setPortX_passSame f n _).trans (put_passSame _ _ _)).trans (.ite (put_passSame _ _ _))

theorem nowUp_passSame (n old st : Nat) (f : FieldDie) : PassSame f (nowUp n old st f) := by
  unfold nowUp
  refine .ite ?_
  refine PassSame.trans ?_ (startVerify_passSame n _)
  refine PassSame.trans ?_ (raise_passSame _ _ _)
  refine PassSame.trans ?_ (count_passSame (not_statusCounter_cPort (by decide)) _)
  exact .ite_not (setPortX_passSame f n _)

theorem enterState_passSame (n st reason : Nat) (f : FieldDie) : PassSame f (enterState n st reason f) := by
  unfold enterState
  refine .ite_not ?_
  have woken : PassSame f f.napBreak := .ofEq rfl rfl
  exact (((woken.trans (showState_passSame n _ st reason _)).trans (leaveUp_passSame n _ st _)).trans
    (nowDown_passSame n _ st _)).trans (nowUp_passSame n _ st _)

theorem declareLost_passSame (n : Nat) (f : FieldDie) : PassSame f (declareLost n f) := by
  unfold declareLost
  exact .ite (((enterState_passSame n 7 7 f).trans (put_passSame _ _ _)).trans (raise_passSame _ _ _))

theorem beginPersist_passSame (n : Nat) (f : FieldDie) : PassSame f (beginPersist n f) := by
  unfold beginPersist
  exact (setPortX_passSame f n _).trans (.ite (declareLost_passSame n _))

theorem sendBurst_passSame (n : Nat) (f : FieldDie) : PassSame f (sendBurst n f) := .ofEq rfl rfl

theorem startWake_passSame (n : Nat) (windowed : Bool) (f : FieldDie) : PassSame f (startWake n windowed f) := by
  unfold startWake
  dsimp only
  refine .ite_not ?_
  refine PassSame.trans ?_ (.ite_not (beginPersist_passSame n _))
  refine PassSame.trans ?_ (sendBurst_passSame n _)
  exact ((enterState_passSame n 6 0 f).trans (setPortX_passSame _ n _)).trans (put_passSame _ _ _)

theorem wakeOnTx_passSame (n : Nat) (f : FieldDie) : PassSame f (wakeOnTx n f) := by
  unfold wakeOnTx
  exact .ite (startWake_passSame n false f)

end Sys2Proof.Machine
end

section
/-! Stages 4 to 6 (R403, R466, R489) and the final result of a pass (R389, R390): beyond the status that a pass counts, they
keep frames and count no parser status. -/

namespace Sys2Proof.Machine

variable {f g : FieldDie}

/-! ### Stage 4 -/

/-- A drop under a reason of Table 12.4, or one of the eight queues. -/
def Stage.bounded : Stage → Prop
  | .drop code => code ≤ 0x34
  | .pass queue _ => queue < 8

/-- A part of stage 4 keeps frames, counts no parser status, and answers within its ranges. -/
structure StageKeeps (f : FieldDie) (p : Stage × FieldDie) : Prop where
  same : PassSame f p.2
  bounded : p.1.bounded

theorem StageKeeps.after {p : Stage × FieldDie} (a : PassSame f g) (b : StageKeeps g p) : StageKeeps f p :=
  ⟨a.trans b.same, b.bounded⟩

theorem streamGate_keeps {queue : Nat} (hq : queue < 8) (fr : Frame) (i colour len : Nat) (f : FieldDie) :
    StageKeeps f (streamGate fr i queue colour len f) := by
  have stays : StageKeeps f (.pass queue colour, f) := ⟨.refl f, hq⟩
  have closed : Stage.bounded (.drop 0x32) := show 0x32 ≤ 0x34 by decide
  have full : Stage.bounded (.drop 0x33) := show 0x33 ≤ 0x34 by decide
  unfold streamGate
  dsimp only
  split
  · exact stays
  split
  · exact ⟨.refl f, closed⟩
  split
  · exact stays
  split
  next =>
    split
    · refine ⟨.ite ?_, closed⟩
      exact ((latchGate_passSame _ f).trans (put_passSame _ _ _)).trans (raise_passSame _ _ _)
    · exact stays
  next k _ =>
    have hq' : (if hasBit (windowWord f k 0) 30 = true then bitsOf (windowWord f k 0) 26 24 else queue) < 8 := by
      split
      · exact bitsOf_lt _ 26 24
      · exact hq
    split
    · exact ⟨.refl f, hq'⟩
    split
    · exact ⟨.ite (latchGate_passSame _ f), full⟩
    split
    · exact ⟨.refl f, hq'⟩
    · refine ⟨?_, hq'⟩
      refine (setOctetSum_passSame _ _ _ f).trans (.ite (setFrame_passSame (b := true) (fun _ => ?_) _ _))
      exact .ofEq rfl rfl rfl rfl rfl rfl

theorem streamMeter_keeps {queue : Nat} (hq : queue < 8) (fr : Frame) (i colour len : Nat) (f : FieldDie) :
    StageKeeps f (streamMeter fr i queue colour len f) := by
  unfold streamMeter
  split
  · exact ⟨.refl f, hq⟩
  extract_lets m
  split
  · exact ⟨count_passSame (not_statusCounter_cStream i 7) f, hq⟩
  have metered := meterFrame_passSame m len colour f
  generalize meterFrame m len colour f = p at metered ⊢
  obtain ⟨⟨c, paid⟩, g⟩ := p
  dsimp -zeta only at metered ⊢
  extract_lets noted
  have hnoted : PassSame f noted := by
    unfold noted
    cases paid with
    | none => exact metered
    | some b =>
      refine metered.trans (.ite (setFrame_passSame (b := true) (fun _ => ?_) _ _))
      exact .ofEq rfl rfl rfl rfl rfl rfl
  split
  · exact ⟨hnoted, Nat.le_refl 0x34⟩
  · exact ⟨hnoted, hq⟩

theorem stage4_keeps {r : ClsResult} (hq : r.queue < 8) (fr : Frame) (f : FieldDie) : StageKeeps f (stage4 fr r f) := by
  unfold stage4
  extract_lets stream noted
  have hnoted : PassSame f noted := by
    refine setFrame_passSame (b := true) (fun _ => ?_) fr.id f
    exact .ofEq rfl rfl rfl rfl rfl rfl
  refine StageKeeps.after hnoted ?_
  clear_value noted stream
  cases stream with
  | none => exact ⟨.refl noted, hq⟩
  | some i =>
    dsimp -zeta only
    extract_lets m blocks named len dropped
    have hnamed : PassSame noted named := by
      refine (count_passSame (not_statusCounter_cStream i 0) _).trans (setFrame_passSame (b := true) (fun _ => ?_) _ _)
      exact .ofEq rfl rfl rfl rfl rfl rfl
    refine StageKeeps.after hnamed ?_
    have hdropped {code : Nat} {g : FieldDie} (hs : PassSame named g) (hc : code ≤ 0x34) : StageKeeps named (dropped code g) :=
      ⟨hs.trans (count_passSame (not_statusCounter_cStream i _) g), hc⟩
    clear_value named
    split
    · exact hdropped (oversizeStream_passSame _ _ _) (by decide)
    split
    · exact hdropped (.refl named) (by decide)
    have gated := streamGate_keeps hq fr i r.colour len named
    split
    next hgate =>
      rw [hgate] at gated
      exact hdropped gated.same gated.bounded
    next q c g hgate =>
      rw [hgate] at gated
      have metered := StageKeeps.after gated.same (streamMeter_keeps gated.bounded fr i c len g)
      split
      next hmeter =>
        rw [hmeter] at metered
        exact hdropped metered.same metered.bounded
      next hmeter =>
        rw [hmeter] at metered
        exact ⟨metered.same.trans (count_passSame (not_statusCounter_cStream i 1) _), metered.bounded⟩

/-! ### Stage 5 and the copies (R404, R446, R466) -/

/-- The reasons of Table 10.1. -/
theorem stage5_drop {fr : Frame} {r : ClsResult} {code : Nat} (h : (stage5 f fr r).1 = .drop code) : code ≤ 0x17 := by
  have ten (set : Nat) (h : step10 f set = .drop code) : code ≤ 0x17 := by
    unfold step10 at h
    grind
  have nine (set : Nat) (flood : Bool) (h : step9 f fr r set flood = .drop code) : code ≤ 0x17 := by
    unfold step9 at h
    grind
  have eight (h : step8 f fr r = .drop code) : code ≤ 0x17 := by
    unfold step8 at h
    grind
  unfold stage5 at h
  grind

theorem mirrorCopies_passSame (fr : Frame) (set queue colour cells : Nat) (f : FieldDie) :
    PassSame f (mirrorCopies fr set queue colour cells f).2 := by
  unfold mirrorCopies
  refine foldl_passSame (α := List Copy) (fun a s _ => ?_) ([], f)
  dsimp only
  split
  · split
    · exact count_passSame (not_statusCounter_of_le (by unfold cGlobal; omega)) _
    · exact .refl _
  · exact .refl _

/-- The mirror copies of a frame go into the queue of its own copies. -/
theorem mirrorCopies_queue (fr : Frame) (set queue colour cells : Nat) (f : FieldDie) :
    ∀ c ∈ (mirrorCopies fr set queue colour cells f).1, c.queue = queue := by
  unfold mirrorCopies
  refine List.foldlRecOn (motive := fun (a : List Copy × FieldDie) => ∀ c ∈ a.1, c.queue = queue) _ _
    (fun _ h => absurd h List.not_mem_nil) fun a ha s _ => ?_
  dsimp only
  split
  · split
    · exact ha
    · intro c hc
      obtain hc | hc := List.mem_append.1 hc
      · exact ha c hc
      · rw [List.mem_singleton.1 hc]
  · exact ha

theorem stage6_passSame {queue : Nat} (hq : queue < 8) (fr : Frame) (r : ClsResult) (set colour : Nat) (f : FieldDie) :
    PassSame f (stage6 fr r set queue colour f) := by
  unfold stage6
  extract_lets cells own
  have mirrored := mirrorCopies_passSame fr set queue colour cells f
  have queues := mirrorCopies_queue fr set queue colour cells f
  generalize mirrorCopies fr set queue colour cells f = p at mirrored queues ⊢
  obtain ⟨mir, g⟩ := p
  have hown : ∀ c ∈ own ++ mir, c.queue < 8 := by
    intro c hc
    obtain hc | hc := List.mem_append.1 hc
    · obtain ⟨n, -, rfl⟩ := List.mem_map.1 hc
      exact hq
    · exact (queues c hc).trans_lt hq
  dsimp -zeta only at mirrored ⊢
  have admitted := admitCopies_passSame hown fr g
  generalize admitCopies fr (own ++ mir) g = p at admitted ⊢
  obtain ⟨ports, h⟩ := p
  refine (mirrored.trans admitted).trans ?_
  dsimp only
  split
  · have counted : PassSame h (h.countDrop fr.port 0x29) := countDrop_passSame (by decide) fr.port h
    refine counted.trans (setFrame_passSame (b := true) (fun _ => ?_) _ _)
    exact .ofEq rfl rfl rfl rfl rfl rfl
  · exact forAll_passSame wakeOnTx_passSame ports h

/-! ### The final result (R389, R390, R398, R402) -/

theorem capture_passSame (n : Nat) (r : ClsResult) (f : FieldDie) : PassSame f (capture n r f) := by
  unfold capture
  refine .ite ?_
  refine PassSame.trans ?_ (put_passSame _ _ _)
  refine PassSame.trans ?_ (wrN_passSame _ _ _)
  have disarmed : PassSame f { f with fwd := { f.fwd with armed := false } } := .ofEq rfl rfl
  exact disarmed.trans (forAll_passSame (k := fun k f => f.wrN (F_CLS_CAP k) (r.key.getD k 0))
    (fun _ f => wrN_passSame f _ _) (List.range 10) _)

theorem countFinal_passSame (n : Nat) (r : ClsResult) (f : FieldDie) : PassSame f (countFinal n r f) := by
  unfold countFinal
  refine PassSame.trans (count_passSame ?_ f) (capture_passSame n r _)
  cases r.rule with
  | none => exact not_statusCounter_cPort (by decide)
  | some k => exact not_statusCounter_of_le (Nat.le_trans (by decide) (Nat.le_add_right _ _))

/-- The die whose frames of number `fr.id` have their final classification, its status counted. -/
def statusCounted (fr : Frame) (r : ClsResult) (f : FieldDie) : FieldDie :=
  (decide_ fr r f).count (cPort fr.port (10 + r.status))

/-- After the count of its status a final result counts no status, whatever stages 2 to 6 make of the frame. -/
theorem finish_of_statusCounted {r : ClsResult} (hq : r.queue < 8) (fr : Frame) (f : FieldDie) :
    PassSame (statusCounted fr r f) (finish fr r f) := by
  unfold finish
  extract_lets counted final
  change PassSame counted _
  clear_value counted
  split
  · exact stageDrop_passSame (by decide) fr counted
  have hfinal : PassSame counted final := countFinal_passSame fr.port r counted
  refine hfinal.trans ?_
  have fourth := stage4_keeps hq fr final
  clear_value final
  split
  next code g hcode =>
    rw [hcode] at fourth
    exact fourth.same.trans (stageDrop_passSame (Nat.lt_of_le_of_lt fourth.bounded (by decide)) fr g)
  next queue colour g hpass =>
    rw [hpass] at fourth
    refine fourth.same.trans ?_
    have codes (code : Nat) := stage5_drop (f := g) (fr := fr) (r := r) (code := code)
    generalize stage5 g fr r = p at codes ⊢
    obtain ⟨out, learn⟩ := p
    dsimp -zeta only at codes ⊢
    extract_lets noted
    have hnoted : PassSame g noted := by
      refine setFrame_passSame (b := true) (fun x => ?_) fr.id g
      exact ⟨rfl, rfl, rfl, (Bool.and_true _).symm, fun h => h, fun _ => Option.some_ne_none _⟩
    refine hnoted.trans ?_
    clear_value noted
    cases out with
    | drop code => exact stageDrop_passSame (Nat.lt_of_le_of_lt (codes code rfl) (by decide)) fr noted
    | consumed =>
      refine PassSame.trans ?_ (count_passSame (not_statusCounter_cPort (by decide)) _)
      exact .ofEq rfl rfl
    | ports set => exact stage6_passSame fourth.bounded _ _ set colour noted

theorem statusCounted_framesKept (fr : Frame) (r : ClsResult) (f : FieldDie) : FramesKept f (statusCounted fr r f) :=
  setFrame_framesKept (b := true) (k := fun x => { x with final := some r })
    (fun _ => ⟨rfl, rfl, rfl, (Bool.and_true _).symm, fun h => h, fun _ => Option.some_ne_none _⟩) fr.id f

theorem finish_framesKept {r : ClsResult} (hq : r.queue < 8) (fr : Frame) (f : FieldDie) : FramesKept f (finish fr r f) :=
  (statusCounted_framesKept fr r f).trans (finish_of_statusCounted hq fr f).frames

/-- A final result leaves no frame of its number without a final classification. -/
theorem finish_final {r : ClsResult} (hq : r.queue < 8) (fr : Frame) (f : FieldDie) :
    ∀ y ∈ (finish fr r f).buf.frames, y.id = fr.id → y.final ≠ none :=
  (finish_of_statusCounted hq fr f).frames.forall_frames (P := fun x => x.final ≠ none) (fun _ _ _ hk => hk.final)
    (forall_frames_setFrame (P := fun x => x.final ≠ none) (k := fun x => { x with final := some r })
      (fun _ => Option.some_ne_none _) fr.id f)

/-- A final result counts its status once (R390). -/
theorem finish_cntAt_status {r : ClsResult} {n : Nat} (hq : r.queue < 8) (hs : r.status ≤ 6) (hn : n < 17) {fr : Frame}
    (hp : fr.port = n) (f : FieldDie) : (finish fr r f).cntAt (cPort n (10 + r.status)) =
      (f.cntAt (cPort n (10 + r.status)) + 1) % 2 ^ 64 := by
  subst hp
  rw [(finish_of_statusCounted hq fr f).cnt _ ⟨fr.port, 10 + r.status, hn, by omega, by omega, rfl⟩]
  exact (FieldDie.cntAt_count _ _ _).trans (if_pos rfl)

/-! ### A drop at stage 2 (R389) -/

/-- The entry that a drop writes for a requested timestamp leaves frames, copies and every counter but that of lost entries. -/
theorem tsqFrame_sendSame (fr : Frame) (n st re ts : Nat) (f : FieldDie) :
    SendSame f (tsqFrame fr n st re ts f) ∨ SendSame (f.count (cPort n 28)) (tsqFrame fr n st re ts f) := by
  unfold tsqFrame
  split
  next id _ =>
    unfold tsqPush
    split
    · exact .inl (.refl f)
    split
    · exact .inl (.ofEq rfl rfl rfl)
    · refine .inr (SendSame.trans ?_ (FieldDie.raise_sendSame _ _ _))
      exact .ofEq rfl rfl rfl
  next => exact .inl (.refl f)

theorem tsqFrame_buf (fr : Frame) (n st re ts : Nat) (f : FieldDie) : (tsqFrame fr n st re ts f).buf = f.buf :=
  (tsqFrame_sendSame fr n st re ts f).elim SendSame.buf SendSame.buf

theorem tsqFrame_cntAt_port {m k : Nat} (hm : m < 17) (hk : k < 256) (h28 : k ≠ 28) (fr : Frame) (n st re ts : Nat)
    (f : FieldDie) : (tsqFrame fr n st re ts f).cntAt (cPort m k) = f.cntAt (cPort m k) := by
  have below := cPort_lt_cXng hm hk
  have sent {g h : FieldDie} (s : SendSame g h) : h.cntAt (cPort m k) = g.cntAt (cPort m k) :=
    s.cnt _ below.ne (below.trans (by decide)).ne (below.trans (by decide)).ne
  refine (tsqFrame_sendSame fr n st re ts f).elim sent fun s => (sent s).trans ?_
  exact (FieldDie.cntAt_count _ _ _).trans (if_neg (by unfold cPort; omega))

/-- A frame that a pass drops at stage 2 counts once more under its reason, and none of its copies is made. -/
theorem finish_of_parseDrops {r : ClsResult} {n : Nat} (hs : r.status ≤ 6) (hn : n < 17) {fr : Frame} (hp : fr.port = n)
    (hd : parseDrops f n r = true) :
    (finish fr r f).cntAt (cPort n 44) = (f.cntAt (cPort n 44) + 1) % 2 ^ 64 ∧
      (finish fr r f).buf.waiting = f.buf.waiting ∧ (finish fr r f).buf.queued = f.buf.queued := by
  subst hp
  have dropped : finish fr r f = stageDrop fr 0x0C (statusCounted fr r f) := if_pos hd
  have other : (statusCounted fr r f).cntAt (cPort fr.port 44) = f.cntAt (cPort fr.port 44) :=
    (FieldDie.cntAt_count _ _ _).trans (if_neg (by unfold cPort; omega))
  rw [dropped]
  refine ⟨?_, ?_, ?_⟩
  · refine (tsqFrame_cntAt_port (k := 44) hn (by decide) (by decide) ..).trans ?_
    rw [← other]
    exact (FieldDie.cntAt_count _ _ _).trans (if_pos rfl)
  · exact (congrArg BufX.waiting (tsqFrame_buf ..)).trans rfl
  · exact (congrArg BufX.queued (tsqFrame_buf ..)).trans rfl

end Sys2Proof.Machine
end

section
/-! The parser's passes (O31): the short pass, the full pass, a frame from P16 that has entered whole, and the key capture. -/

namespace Sys2Proof.Machine

variable {s : State} {f g : FieldDie} {n req data : Nat}

/-! ### A classification's ranges (Table 9.1, Table 9.7) -/

theorem walkHeader_status_le (f : FieldDie) (v : Window) (e off : Nat) (k : Walk) : (walkHeader f v e off k).1.status ≤ 5 := by
  unfold walkHeader
  extract_lets w0 w1 tag selEn selAt selN selOk sel noTag next
  generalize headerLength f v e off = p
  obtain ⟨lenAt, len⟩ := p
  dsimp -zeta only
  extract_lets tooLate lenKnown status
  change status ≤ 5
  unfold status
  clear_value next
  split
  · decide
  split
  · decide
  split
  · decide
  cases next with
  | none => exact Nat.zero_le 5
  | some e' =>
    dsimp only
    split_ifs
    all_goals decide

theorem walkFrom_status_le (f : FieldDie) (v : Window) (m e off : Nat) (k : Walk) (hk : k.status ≤ 5) :
    (walkFrom f v m e off k).status ≤ 5 := by
  induction m generalizing e off k with
  | zero => exact hk
  | succ m ih =>
    have header := walkHeader_status_le f v e off k
    unfold walkFrom
    split
    next hw =>
      rw [hw] at header
      exact ih _ _ _ header
    next hw =>
      rw [hw] at header
      exact header

theorem classify_status_le (f : FieldDie) (n : Nat) (v : Window) (short : Bool) : (classify f n v short).status ≤ 6 := by
  change (walkFrame f v).status ≤ 6
  unfold walkFrame
  split
  · exact (walkFrom_status_le f v 12 0 0 {} (by decide)).trans (by decide)
  · exact Nat.le_refl 6

theorem classify_queue_lt (f : FieldDie) (n : Nat) (v : Window) (short : Bool) : (classify f n v short).queue < 8 := by
  have mapped (w cls : Nat) : bitsOf w (3 * cls + 2) (3 * cls) < 8 := by
    have := bitsOf_lt w (3 * cls + 2) (3 * cls)
    rwa [show 3 * cls + 2 + 1 - 3 * cls = 3 by omega] at this
  unfold classify
  dsimp only
  split
  · exact bitsOf_lt _ 18 16
  · exact mapped _ _

/-! ### The frame in reception at the end of a command -/

theorem settle_frames_subset (f : FieldDie) : (settle f).buf.frames ⊆ f.buf.frames := by
  obtain h | ⟨g, hs, h⟩ := settle_cases f
  · rw [h]
    exact fun _ hx => hx
  · rw [h, ← hs.buf]
    exact fun _ hx => (List.mem_filter.1 hx).1

/-- Frames in reception are not forgotten. -/
theorem settle_inRx (f : FieldDie) (n : Nat) : (settle f).inRx n = f.inRx n := by
  obtain h | ⟨g, hs, h⟩ := settle_cases f
  · rw [h]
  · rw [h]
    unfold FieldDie.inRx forgetFrames
    rw [List.find?_filter, ← hs.buf]
    congr 1
    funext x
    rw [Bool.eq_iff_iff]
    cases x.rx
    all_goals simp

theorem FieldDie.mem_of_inRx {fr : Frame} (h : f.inRx n = some fr) : fr ∈ f.buf.frames ∧ fr.rx = true := by
  have found := List.find?_some h
  simp only [Bool.and_eq_true] at found
  exact ⟨List.mem_of_find?_eq_some h, found.1.2⟩

/-- The frame in reception at a port is still the one, or its reception has ended. -/
theorem FramesKept.inRx {fr : Frame} (a : FramesKept f g) (h : f.inRx n = some fr) :
    Ended fr.id g ∨ ∃ fr', g.inRx n = some fr' ∧ fr'.id = fr.id := by
  obtain ⟨live, k, hg, hk⟩ := a
  cases hl : live fr.id with
  | false =>
    refine .inl fun y hy hi => ?_
    obtain ⟨x, -, rfl⟩ := List.mem_map.1 (hg ▸ hy)
    rw [(hk x).rx, ← (hk x).id, hi, hl, Bool.and_false]
  | true =>
    refine .inr ⟨k fr, ?_, (hk fr).id⟩
    have at_n (x : Frame) : ((k x).port == n && (k x).rx && !(k x).held) =
        ((x.port == n && x.rx && !x.held) && live x.id) := by
      rw [(hk x).port, (hk x).rx, (hk x).held]
      cases live x.id
      all_goals simp
    obtain ⟨hfr, before, after, hsplit, hbefore⟩ := List.find?_eq_some_iff_append.1 h
    unfold FieldDie.inRx
    rw [hg]
    refine List.find?_eq_some_iff_append.2 ⟨?_, before.map k, after.map k, by simp [hsplit], ?_⟩
    · rw [at_n, hfr, hl, Bool.and_true]
    · intro y hy
      obtain ⟨x, hx, rfl⟩ := List.mem_map.1 hy
      have := hbefore x hx
      rw [at_n]
      simp_all

theorem FieldDie.setFrame_id (f : FieldDie) (i : Nat) : f.setFrame i (fun x => x) = f := by
  have same : (fun fr : Frame => if fr.id == i then fr else fr) = id := funext fun fr => ite_self fr
  unfold FieldDie.setFrame
  rw [same, List.map_id]

/-- A pass without bytes of its own. -/
theorem takeBytes_nil (n : Nat) (f : FieldDie) : takeBytes n [] f = f := by
  have same : (fun x : Frame => { x with bytes := x.bytes ++ [] }) = fun x => x := by
    funext x
    rw [List.append_nil]
  unfold takeBytes
  split
  · rw [same, FieldDie.setFrame_id]
  · rfl

/-! ### The short pass (R384, R386) -/

theorem awaitsShort_of_noClasses (h : f.get (F_FWD_CT_classes n) = 0) : awaitsShort f n = none := by
  refine List.find?_eq_none.2 fun fr _ => ?_
  simp [wantsShort, h]

/-- A port without cut-through classes makes no short pass: the bytes that arrive join the frame. -/
theorem shortPassOp_of_noClasses (h : f.get (F_FWD_CT_classes n) = 0) (bs : List Byte) :
    shortPassOp n bs f = takeBytes n bs f := by
  obtain ⟨b, hb⟩ := takeBytes_buf n bs f
  have none_awaits : awaitsShort (takeBytes n bs f) n = none := by
    refine awaitsShort_of_noClasses ?_
    rw [hb]
    exact h
  unfold shortPassOp
  dsimp only
  rw [none_awaits]
  exact ite_self _

theorem exec_shortPass_noClasses {bytes : List Byte} {fr : Frame} (hr : s.fld.phase = .running) (hn : n < 17)
    (hrx : s.fld.inRx n = some fr) (hc : s.fld.get (F_FWD_CT_classes n) = 0) :
    ∃ t, exec (.shortPass n bytes) s = .next t ∧
      t.fld.inRx n = some { fr with bytes := fr.bytes ++ (if n = 16 then [] else bytes) } ∧ FieldFrame [] s.fld s t := by
  have step := State.onItem_running (g := shortPassOp n (if n = 16 then [] else bytes)) hr hn
  rw [shortPassOp_of_noClasses hc] at step
  refine ⟨_, step, (settle_inRx _ n).trans (inRx_takeBytes _ hrx), ?_⟩
  unfold takeBytes
  rw [hrx]
  exact .ofSettle rfl rfl rfl rfl fun _ _ => rfl

theorem port_of_awaitsShort {fr : Frame} (h : awaitsShort f n = some fr) : fr.port = n := by
  have found := List.find?_some h
  simp only [Bool.and_eq_true, beq_iff_eq] at found
  exact found.1.1.1

/-- The frame that awaits the short pass has had it, and a final result of it is finished. -/
theorem shortPassOp_of_awaits {fr : Frame} (hnap : napping f = false) (h : awaitsShort f n = some fr) :
    shortPassOp n [] f =
      if shortFinal f n (classify f n (shortWindow fr) true) = true then
        finish { fr with shortDone := true } (classify f n (shortWindow fr) true)
          (f.setFrame fr.id fun x => { x with shortDone := true })
      else f.setFrame fr.id fun x => { x with shortDone := true } := by
  unfold shortPassOp
  dsimp only
  rw [takeBytes_nil, if_neg (by simp [hnap]), h]
  rfl

theorem shortPassOp_frames {fr : Frame} (hnap : napping f = false) (h : awaitsShort f n = some fr) :
    ∀ fr' ∈ (shortPassOp n [] f).buf.frames, fr'.id = fr.id → fr'.shortDone = true ∧
      (shortFinal f n (classify f n (shortWindow fr) true) = true → fr'.final ≠ none) := by
  have passed : ∀ y ∈ (f.setFrame fr.id fun x => { x with shortDone := true }).buf.frames, y.id = fr.id →
      y.shortDone = true := forall_frames_setFrame (P := fun x => x.shortDone = true) (fun _ => rfl) fr.id f
  have queue := classify_queue_lt f n (shortWindow fr) true
  rw [shortPassOp_of_awaits hnap h]
  split
  next =>
    intro y hy hi
    refine ⟨?_, fun _ => finish_final queue { fr with shortDone := true } _ y hy hi⟩
    exact (finish_framesKept queue _ _).forall_frames (P := fun x => x.shortDone = true) (fun _ _ _ hk => hk.shortDone)
      passed y hy hi
  next hf => exact fun y hy hi => ⟨passed y hy hi, fun hf' => absurd hf' hf⟩

theorem exec_shortPass_awaits {fr : Frame} (hr : s.fld.phase = .running) (hn : n < 17) (hnap : napping s.fld = false)
    (h : awaitsShort s.fld n = some fr) :
    ∃ t, exec (.shortPass n []) s = .next t ∧ FieldOnly s t ∧
      ∀ fr' ∈ t.fld.buf.frames, fr'.id = fr.id → fr'.shortDone = true ∧
        (shortFinal s.fld n (classify s.fld n (shortWindow fr) true) = true → fr'.final ≠ none) := by
  have step : exec (.shortPass n []) s = .next { s with fld := settle (shortPassOp n [] s.fld) } :=
    (State.onItem_running hr hn).trans (by rw [ite_self])
  exact ⟨_, step, ⟨rfl, rfl, rfl, rfl⟩, fun y hy => shortPassOp_frames hnap h y (settle_frames_subset _ hy)⟩

/-! ### The full pass (R387) -/

theorem port_of_awaitsFull {fr : Frame} (h : awaitsFull f n = some fr) : fr.port = n := by
  have found := List.find?_some h
  simp only [Bool.and_eq_true, beq_iff_eq] at found
  exact found.1.1.1.1

/-- The frame that awaits the full pass is finished with its result. -/
theorem fullPassOp_of_awaits {fr : Frame} (hnap : napping f = false) (h : awaitsFull f n = some fr)
    (hm : isMacControl fr.bytes = false) :
    fullPassOp n [] f = finish fr (classify f n (fullWindow fr) false) f := by
  unfold fullPassOp
  dsimp only
  rw [takeBytes_nil, if_neg (by simp [hnap]), h]
  exact if_pos hm

theorem fullPassOp_framesKept (n : Nat) (f : FieldDie) : FramesKept f (fullPassOp n [] f) := by
  unfold fullPassOp
  dsimp only
  rw [takeBytes_nil]
  split
  · exact .ofEq rfl
  split
  · split
    · exact finish_framesKept (classify_queue_lt _ _ _ _) _ _
    · exact .ofEq rfl
  · exact .ofEq rfl

theorem fullPassP16_of_none (h : f.inRx 16 = none) : fullPassP16 f = fullPassOp 16 [] f := by
  unfold fullPassP16
  rw [h]

/-- A full pass without bytes of its own, where no frame is entering at P16. -/
theorem exec_fullPass_op (hr : s.fld.phase = .running) (hn : n < 17) (h16 : n = 16 → s.fld.inRx 16 = none) :
    exec (.fullPass n []) s = .next { s with fld := settle (fullPassOp n [] s.fld) } := by
  have step := State.onItem_running (g := fun f => if n = 16 then fullPassP16 f else fullPassOp n [] f) hr hn
  have same : (if n = 16 then fullPassP16 s.fld else fullPassOp n [] s.fld) = fullPassOp n [] s.fld := by
    split
    next hn16 =>
      subst hn16
      exact fullPassP16_of_none (h16 rfl)
    next => rfl
  exact step.trans (by rw [same])

theorem exec_fullPass_awaits {fr : Frame} (hr : s.fld.phase = .running) (hn : n < 17) (h16 : n = 16 → s.fld.inRx 16 = none)
    (hnap : napping s.fld = false) (h : awaitsFull s.fld n = some fr) (hm : isMacControl fr.bytes = false) :
    ∃ t, exec (.fullPass n []) s = .next t ∧ FieldOnly s t ∧
      t.fld.cntAt (cPort n (10 + (classify s.fld n (fullWindow fr) false).status)) =
        (s.fld.cntAt (cPort n (10 + (classify s.fld n (fullWindow fr) false).status)) + 1) % 2 ^ 64 ∧
      (∀ fr' ∈ t.fld.buf.frames, fr'.id = fr.id → fr'.final ≠ none) ∧
      (parseDrops s.fld n (classify s.fld n (fullWindow fr) false) = true →
        t.fld.cntAt (cPort n 44) = (s.fld.cntAt (cPort n 44) + 1) % 2 ^ 64 ∧
        t.fld.buf.waiting = s.fld.buf.waiting ∧ t.fld.buf.queued = s.fld.buf.queued) := by
  have step := exec_fullPass_op hr hn h16
  have port := port_of_awaitsFull h
  have queue := classify_queue_lt s.fld n (fullWindow fr) false
  have status := classify_status_le s.fld n (fullWindow fr) false
  rw [fullPassOp_of_awaits hnap h hm] at step
  generalize classify s.fld n (fullWindow fr) false = r at step queue status ⊢
  refine ⟨_, step, ⟨rfl, rfl, rfl, rfl⟩, ?_, ?_, fun hd => ?_⟩
  · exact (settle_cntAt_port _ hn (by omega)).trans (finish_cntAt_status queue status hn port s.fld)
  · exact fun y hy => finish_final queue fr s.fld y (settle_frames_subset _ hy)
  · obtain ⟨counted, waiting, queued⟩ := finish_of_parseDrops status hn port hd
    exact ⟨(settle_cntAt_port _ hn (by decide)).trans counted, (settle_waiting _).trans waiting,
      (settle_queued _).trans queued⟩

/-! ### A frame from P16 (R694) -/

/-- The frame that enters at P16, all of its bytes in stage 1. -/
def enteredWhole (fr : Frame) : Frame := { fr with bytes := fr.bytes ++ fr.rest, rest := [] }

theorem finishP16_of_inRx {fr : Frame} (h : f.inRx 16 = some fr) :
    finishP16 f = if isMacControl (enteredWhole fr).bytes = true then
        rejectFrame (enteredWhole fr) 7 (f.setFrame fr.id fun _ => enteredWhole fr)
      else acceptFrame (enteredWhole fr) (f.setFrame fr.id fun _ => enteredWhole fr) := by
  unfold finishP16
  rw [h]
  rfl

theorem finishP16_ends {fr : Frame} (h : f.inRx 16 = some fr) : Ended fr.id (finishP16 f) := by
  rw [finishP16_of_inRx h]
  split
  · exact rejectFrame_ends (enteredWhole fr) 7 _
  · exact acceptFrame_ends (enteredWhole fr) _

/-- Another frame that enters at P16 leaves an ended one as it is. -/
theorem finishP16_keeps_ended {i : Nat} (he : Ended i f) : Ended i (finishP16 f) := by
  cases h : f.inRx 16 with
  | none =>
    unfold finishP16
    rwa [h]
  | some fr =>
    obtain ⟨hm, hrx⟩ := FieldDie.mem_of_inRx h
    have other : fr.id ≠ i := fun hi => absurd (he fr hm hi) (by simp [hrx])
    have still : Ended i (f.setFrame fr.id fun _ => enteredWhole fr) := by
      intro y hy hi
      obtain ⟨x, hx, rfl⟩ := List.mem_map.1 hy
      split at hi
      next => exact absurd hi other
      next hne =>
        rw [if_neg hne]
        exact he x hx hi
    rw [finishP16_of_inRx h]
    split
    · exact (rejectFrame_passSame (by decide) _ _).frames.ended still
    · exact (acceptFrame_passSame _ _).frames.ended still

/-- The full pass at P16 ends the reception of the frame that is entering, whatever its length. -/
theorem fullPassP16_ends {fr : Frame} (h : f.inRx 16 = some fr) : Ended fr.id (fullPassP16 f) := by
  unfold fullPassP16
  rw [h]
  dsimp only
  split
  · have entering : FramesKept f (f.setFrame fr.id fun x =>
        { x with bytes := (fr.bytes ++ fr.rest).take 384, rest := (fr.bytes ++ fr.rest).drop 384 }) := by
      refine setFrame_framesKept (b := true) (fun _ => ?_) fr.id f
      exact .ofEq rfl rfl rfl rfl rfl rfl
    obtain ended | ⟨fr', hrx, hi⟩ := (entering.trans (fullPassOp_framesKept 16 _)).inRx h
    · exact finishP16_keeps_ended ended
    · have ended := finishP16_ends hrx
      rwa [hi] at ended
  · exact (fullPassOp_framesKept 16 _).ended (finishP16_ends h)

theorem exec_fullPass_p16 {fr : Frame} (hr : s.fld.phase = .running) (hrx : s.fld.inRx 16 = some fr) :
    ∃ t, exec (.fullPass 16 []) s = .next t ∧ FieldOnly s t ∧ ∀ fr' ∈ t.fld.buf.frames, fr'.id = fr.id → fr'.rx = false := by
  have step := State.onItem_running (g := fun f => if 16 = 16 then fullPassP16 f else fullPassOp 16 [] f) hr
    (show 16 < 17 by decide)
  exact ⟨_, step, ⟨rfl, rfl, rfl, rfl⟩, fun y hy => fullPassP16_ends hrx y (settle_frames_subset _ hy)⟩

/-! ### The key capture (R402) -/

/-- F_CLS_CAP_CTRL is not covered; arm only acts, done is the die's, port is software's. -/
def capCtrlRow : RegRow :=
  ⟨0x140020, 0x4, 1, .const 0, false, false,
    [⟨31, 31, .wo, false, none, false⟩, ⟨30, 30, .ro, false, none, false⟩, ⟨4, 0, .rw, false, none, true⟩]⟩

theorem regRow_capCtrl : regRow F_CLS_CAP_CTRL = some capCtrlRow := rfl

/-- The die of which F_CLS_CAP_CTRL has been written. -/
abbrev capCtrlStored (data : Nat) (f : FieldDie) : FieldDie :=
  f.wrN F_CLS_CAP_CTRL (putBits (f.rdN F_CLS_CAP_CTRL) 4 0 (bitsOf data 4 0))

theorem storeWrite_capCtrl (req data : Nat) (f : FieldDie) : storeWrite req F_CLS_CAP_CTRL data f = capCtrlStored data f := by
  unfold storeWrite
  rw [regRow_capCtrl]
  rfl

theorem capCtrlStored_port (data : Nat) (f : FieldDie) :
    (capCtrlStored data f).get F_CLS_CAP_CTRL_port = bitsOf data 4 0 := by
  have small := putBits_lt (f.rdN F_CLS_CAP_CTRL) 4 0 (bitsOf data 4 0) 32 (by decide) (by decide) (f.rdN_lt _)
  change bitsOf ((capCtrlStored data f).rdN F_CLS_CAP_CTRL) 4 0 = _
  rw [FieldDie.rdN_wrN_same small]
  exact (bitsOf_putBits_same _ _ _ _ (by decide)).trans (Nat.mod_eq_of_lt (bitsOf_lt _ _ _))

/-- The capture has been armed for the port that `data` names. -/
def captureArmed (data : Nat) (f : FieldDie) : FieldDie :=
  { capCtrlStored data f with fwd := { f.fwd with armed := true } }.put F_CLS_CAP_CTRL_done 0

theorem writeCapCtrl_of_arm (h : hasBit data 31 = true) (req : Nat) (f : FieldDie) :
    writeCapCtrl req data f = captureArmed data f := by
  unfold writeCapCtrl
  rw [storeWrite_capCtrl]
  exact if_pos h

theorem captureArmed_done (data : Nat) (f : FieldDie) : (captureArmed data f).get F_CLS_CAP_CTRL_done = 0 := by
  unfold captureArmed
  rw [FieldDie.get_put _ _ _ (by decide) (by decide)]
  rfl

theorem captureArmed_port (data : Nat) (f : FieldDie) : (captureArmed data f).get F_CLS_CAP_CTRL_port = bitsOf data 4 0 := by
  unfold captureArmed
  rw [FieldDie.get_put_field _ F_CLS_CAP_CTRL_done F_CLS_CAP_CTRL_port _ rfl (by decide) (by decide) (.inr (by decide))]
  exact capCtrlStored_port data f

theorem captureArmed_softMoves (data : Nat) (f : FieldDie) :
    SoftMoves [F_CLS_CAP_CTRL] { f with fwd := { f.fwd with armed := true } } (captureArmed data f.napBreak) := by
  have stored : SoftMoves [F_CLS_CAP_CTRL] { f with fwd := { f.fwd with armed := true } }
      { capCtrlStored data f.napBreak with fwd := { f.napBreak.fwd with armed := true } } :=
    (FieldDie.napBreak_softMoves _).trans (FieldDie.wrN_softMoves (List.mem_singleton.2 rfl)
      ({ f with fwd := { f.fwd with armed := true } } : FieldDie).napBreak _)
  refine stored.trans ?_
  exact FieldDie.put_softMoves (r := F_CLS_CAP_CTRL_done) (List.mem_singleton.2 rfl) _ _

theorem exec_keyCaptureArm {data : Word} (hw : s.fld.canWrite req = true) (harm : hasBit data.toNat 31 = true) :
    ∃ t, exec (.keyCaptureArm req data) s = .next t ∧ t.fld.fwd.armed = true ∧ t.fld.get F_CLS_CAP_CTRL_done = 0 ∧
      t.fld.get F_CLS_CAP_CTRL_port = bitsOf data.toNat 4 0 ∧
      FieldFrame [F_CLS_CAP_CTRL] { s.fld with fwd := { s.fld.fwd with armed := true } } s t := by
  have step := State.onWrite_of_canWrite (k := writeCapCtrl req data.toNat) hw
  rw [writeCapCtrl_of_arm harm] at step
  have frame := (captureArmed_softMoves data.toNat s.fld).frame (s := s) rfl
  refine ⟨_, step, ?_, ?_, ?_, frame⟩
  · exact congrArg (fun f : FieldDie => f.fwd.armed) frame.rest
  · exact (settle_get_of_notMem (by decide)).trans (captureArmed_done _ _)
  · exact (settle_get_of_notMem (by decide)).trans (captureArmed_port _ _)

/-! ### The statement -/

/-- Settles O31: the short pass without and with cut-through classes, the entry of a frame from P16, the full pass, and the
key capture, each as its `exec_` lemma has it. -/
theorem parserPasses : Obligations.ParserPasses := by
  unfold Obligations.ParserPasses
  exact ⟨fun _ _ _ _ => exec_shortPass_noClasses, fun _ _ _ => exec_shortPass_awaits, fun _ _ => exec_fullPass_p16,
    fun _ _ _ => exec_fullPass_awaits, fun _ _ _ => exec_keyCaptureArm⟩

end Sys2Proof.Machine
end

section
/-! What changes of the filtering database and of the active slots leave of the registers (R423, R431, R445), and when a
member counts as active (R439). -/

namespace Sys2Proof.Machine

variable {f g : FieldDie} {k m v a : Nat}

/-! ### The filtering database -/

theorem forAll_rd {α : Type} {p : α → FieldDie → FieldDie} (h : ∀ x f, (p x f).rd a = f.rd a) (xs : List α) (f : FieldDie) :
    (forAll xs p f).rd a = f.rd a := by
  unfold forAll
  induction xs generalizing f with
  | nil => rfl
  | cons x xs ih => exact (ih (p x f)).trans (h x f)

theorem fdbChanged_rd (i : Nat) (write : Bool) (f : FieldDie) : (fdbChanged i write f).rd a = f.rd a := by
  unfold fdbChanged
  split
  · rfl
  · split
    all_goals rfl

theorem fdbInvalidate_rd (ha : a < 0x480000) (i : Nat) (f : FieldDie) : (fdbInvalidate i f).rd a = f.rd a := by
  have apart : a ≠ fdbAddr i 0 := by
    unfold fdbAddr
    omega
  unfold fdbInvalidate
  rw [fdbChanged_rd, FieldDie.rd_wrN, if_neg apart]

/-- Registers below the filtering database stand when its entries are invalidated, but for the counts of its entries. -/
theorem fdbPurge_rd (ha : a < 0x480000) (hc : a ≠ F_FWD_FDB_CNT) (p : FdbEntry → Bool) (f : FieldDie) :
    (fdbPurge p f).rd a = f.rd a := by
  unfold fdbPurge
  split
  · rfl
  · unfold fdbRecount
    dsimp only
    rw [FieldDie.rd_put_ne _ _ _ _ hc, FieldDie.rd_put_ne _ _ _ _ hc, forAll_rd (fdbInvalidate_rd ha)]

/-! ### Active slots -/

/-- Group `k` with the active slots `v`, its change raised. -/
abbrev activeShown (k v : Nat) (f : FieldDie) : FieldDie :=
  ((f.put (F_FWD_AGG_STAT_active k) v).put F_FWD_EVT_INFO_index k).raise F_FWD_EVT 3

theorem setActive_eq (k v : Nat) (f : FieldDie) : setActive k v f =
    if f.get (F_FWD_AGG_STAT_active k) = v then f
    else if v = 0 then fdbPurge (groupEntries k) (activeShown k v f) else activeShown k v f := rfl

/-- The registers that a change of group `k`'s active slots does not move. -/
theorem setActive_rd (ha : a < 0x480000) (hk : a ∉ [F_FWD_AGG_STAT k, F_FWD_EVT_INFO, F_FWD_EVT, F_FWD_FDB_CNT])
    (hx : a ≠ F_XNG_EVT) (v : Nat) (f : FieldDie) : (setActive k v f).rd a = f.rd a := by
  simp only [List.mem_cons, List.not_mem_nil, or_false, not_or] at hk
  obtain ⟨hstat, hinfo, hevt, hcnt⟩ := hk
  have shown : (activeShown k v f).rd a = f.rd a := by
    rw [activeShown, FieldDie.raise_rd _ _ _ _ hevt hx, FieldDie.rd_put_ne _ F_FWD_EVT_INFO_index _ _ hinfo,
      FieldDie.rd_put_ne _ (F_FWD_AGG_STAT_active k) _ _ hstat]
  rw [setActive_eq]
  split_ifs
  · rfl
  · rw [fdbPurge_rd ha hcnt, shown]
  · exact shown

theorem aggStat_ne (hk : k < 4) : F_FWD_AGG_STAT k ∉ [F_FWD_EVT_INFO, F_FWD_EVT, F_FWD_FDB_CNT, F_XNG_EVT] := by
  unfold F_FWD_AGG_STAT F_FWD_EVT_INFO F_FWD_EVT F_FWD_FDB_CNT F_XNG_EVT
  simp only [List.mem_cons, List.not_mem_nil, or_false]
  omega

/-- The active slots show as they are set. -/
theorem setActive_active (hk : k < 4) (hv : v < 16) (f : FieldDie) : (setActive k v f).get (F_FWD_AGG_STAT_active k) = v := by
  have apart := aggStat_ne hk
  simp only [List.mem_cons, List.not_mem_nil, or_false, not_or] at apart
  obtain ⟨hinfo, hevt, hcnt, hx⟩ := apart
  have shown : (activeShown k v f).get (F_FWD_AGG_STAT_active k) = v := by
    rw [activeShown, FieldDie.get_raise_ne _ hevt hx, FieldDie.get_put_addr _ F_FWD_EVT_INFO_index _ _ hinfo,
      FieldDie.get_put _ _ _ (Nat.zero_le _) (show 3 < 32 by decide)]
    exact Nat.mod_eq_of_lt hv
  rw [setActive_eq]
  split_ifs with hsame
  · exact hsame
  · rw [FieldDie.get_eq _ (fdbPurge_rd (by show F_FWD_AGG_STAT k < _; unfold F_FWD_AGG_STAT; omega) hcnt _ _), shown]
  · exact shown

theorem now_of_side (e : g.side = f.side) : g.now = f.now := by
  have time_side : ∀ x : FieldDie, x.now = x.side.tim.c := fun _ => rfl
  rw [time_side g, time_side f, e]

/-- Whether a member counts as active is read from its group's slots, its port's state and how long it has been link-up.
No slot names P16. -/
theorem slotActive_eq (hslots : g.rd (F_FWD_AGG k) = f.rd (F_FWD_AGG k)) (hrejoin : g.rd F_FWD_AGG_REJOIN = f.rd F_FWD_AGG_REJOIN)
    (hstate : ∀ n, n < 16 → g.rd (F_PORT_STAT n) = f.rd (F_PORT_STAT n)) (hports : g.ports = f.ports) (hnow : g.now = f.now)
    (hnamed : slotEn f k m = true → slotPort f k m < 16) : slotActive g k m = slotActive f k m := by
  have enabled : slotEn g k m = slotEn f k m := by
    unfold slotEn
    rw [FieldDie.get_eq (g := f) (F_FWD_AGG_slot_en k) hslots]
  have named : slotPort g k m = slotPort f k m := by
    unfold slotPort
    rw [FieldDie.get_eq (g := f) (F_FWD_AGG_slots k) hslots]
  unfold slotActive
  dsimp only
  rw [enabled, named]
  cases hen : slotEn f k m with
  | false => simp only [Bool.false_and]
  | true =>
    have below := hnamed hen
    have up : linkUp g (slotPort f k m) = linkUp f (slotPort f k m) := by
      unfold linkUp portState
      rw [if_neg below.ne, if_neg below.ne, FieldDie.get_eq (g := f) (F_PORT_STAT_state _) (hstate _ below)]
    rw [up, portX_of_ports hports, FieldDie.get_eq (g := f) F_FWD_AGG_REJOIN_rejoin_ms hrejoin, hnow]

/-- Block FWD stands apart from what the end of a command moves, and from the proof's state. -/
theorem notMem_of_fwdBlock (hlo : 0x160000 ≤ a) (hhi : a < 0x170000) : a ∉ F_CFG_PROOF_STAT :: coverRegs := by
  simp only [coverRegs, List.mem_cons, List.not_mem_nil, or_false, not_or]
  unfold F_CFG_PROOF_STAT F_FLT_COVER F_FLT_EVT2 F_XNG_EVT
  omega

theorem aggStat_notMem_coverRegs (hk : k < 4) : F_FWD_AGG_STAT k ∉ coverRegs := fun h =>
  notMem_of_fwdBlock (by unfold F_FWD_AGG_STAT; omega) (by unfold F_FWD_AGG_STAT; omega) (List.mem_cons_of_mem _ h)

theorem settle_setActive_active (hk : k < 4) (hv : v < 16) (f : FieldDie) :
    (settle (setActive k v f)).get (F_FWD_AGG_STAT_active k) = v :=
  (settle_get_of_notMem (aggStat_notMem_coverRegs hk)).trans (setActive_active hk hv f)

/-- The registers that a command which changes group `k`'s active slots last does not move with them. -/
theorem settle_setActive_rd (ha : a < 0x480000) (hc : a ∉ coverRegs)
    (hk : a ∉ [F_FWD_AGG_STAT k, F_FWD_EVT_INFO, F_FWD_EVT, F_FWD_FDB_CNT]) (v : Nat) (f : FieldDie) :
    (settle (setActive k v f)).rd a = f.rd a :=
  (settle_rd_of_notMem _ hc).trans (setActive_rd ha hk (fun e => hc (by simp [coverRegs, e])) v f)

theorem settle_setActive_slots (hk : k < 4) (v : Nat) (f : FieldDie) :
    (settle (setActive k v f)).rd (F_FWD_AGG k) = f.rd (F_FWD_AGG k) := by
  refine settle_setActive_rd (by unfold F_FWD_AGG; omega) (fun h => ?_) ?_ v f
  · exact notMem_of_fwdBlock (by unfold F_FWD_AGG; omega) (by unfold F_FWD_AGG; omega) (List.mem_cons_of_mem _ h)
  · unfold F_FWD_AGG F_FWD_AGG_STAT F_FWD_EVT_INFO F_FWD_EVT F_FWD_FDB_CNT
    simp only [List.mem_cons, List.not_mem_nil, or_false]
    omega

/-- Which members count as active does not change as they are shown. -/
theorem settle_setActive_slotActive (hk : k < 4) (hnamed : slotEn f k m = true → slotPort f k m < 16) (v : Nat) :
    slotActive (settle (setActive k v f)) k m = slotActive f k m := by
  refine slotActive_eq (settle_setActive_slots hk v f) (settle_setActive_rd (by decide) (by decide) ?_ v f)
    (fun n hn => settle_setActive_rd ((portStat_lt hn).trans (by decide)) (portStat_notMem_coverRegs hn) ?_ v f) ?_ ?_ hnamed
  · unfold F_FWD_AGG_REJOIN F_FWD_AGG_STAT F_FWD_EVT_INFO F_FWD_EVT F_FWD_FDB_CNT
    simp only [List.mem_cons, List.not_mem_nil, or_false]
    omega
  · unfold F_PORT_STAT F_FWD_AGG_STAT F_FWD_EVT_INFO F_FWD_EVT F_FWD_FDB_CNT
    simp only [List.mem_cons, List.not_mem_nil, or_false]
    omega
  · exact (settle_ports _).trans (setActive_ports _ _ _)
  · exact (congrArg TimeX.c (settle_tim _)).trans (now_of_side (setActive_low _ _ _).side)

/-! ### Sets of slots -/

theorem hasBit_foldl_setBit (xs : List Nat) (w i : Nat) : hasBit (xs.foldl setBit w) i = (decide (i ∈ xs) || hasBit w i) := by
  induction xs generalizing w with
  | nil => rfl
  | cons x xs ih =>
    rw [List.foldl_cons, ih, hasBit_setBit]
    by_cases hx : x = i
    · simp [hx]
    · simp [hx, show i ≠ x from Ne.symm hx]

/-- The set of the slots that `p` names. -/
abbrev slotSet (p : Nat → Bool) : Nat := ((List.range 4).filter p).foldl setBit 0

theorem hasBit_slotSet (p : Nat → Bool) {i : Nat} (hi : i < 4) : hasBit (slotSet p) i = p i := by
  rw [hasBit_foldl_setBit]
  simp [hi, hasBit]

theorem slotSet_lt (p : Nat → Bool) : slotSet p < 16 := by
  refine Nat.lt_pow_two_of_testBit (n := 4) _ fun i hi => ?_
  rw [← hasBit_eq_testBit, hasBit_foldl_setBit]
  simp [hi, hasBit]

/-- Leaving out what is there already never lengthens a list. -/
theorem length_eraseDups_le (xs : List Nat) : xs.eraseDups.length ≤ xs.length := by
  induction h : xs.length using Nat.strong_induction_on generalizing xs with
  | _ l ih =>
    cases xs with
    | nil => exact Nat.zero_le _
    | cons x xs =>
      have shorter : (xs.filter fun y => !y == x).length ≤ xs.length := List.length_filter_le _ _
      have kept := ih _ (by rw [List.length_cons] at h; omega) (xs.filter fun y => !y == x) rfl
      rw [List.eraseDups_cons, List.length_cons]
      rw [List.length_cons] at h
      omega

theorem length_eraseDups_eq_iff (xs : List Nat) : xs.eraseDups.length = xs.length ↔ xs.Nodup := by
  induction xs with
  | nil => simp
  | cons x xs ih =>
    rw [List.eraseDups_cons, List.nodup_cons, List.length_cons, List.length_cons, Nat.add_right_cancel_iff]
    by_cases hx : x ∈ xs
    · have dropped : (xs.filter fun y => !y == x).length < xs.length :=
        List.length_filter_lt_length_iff_exists.2 ⟨x, hx, by simp⟩
      have short := length_eraseDups_le (xs.filter fun y => !y == x)
      simp only [hx, not_true_eq_false, false_and, iff_false]
      omega
    · have kept : (xs.filter fun y => !y == x) = xs :=
        List.filter_eq_self.2 fun y hy => by simp [show y ≠ x from fun e => hx (e ▸ hy)]
      rw [kept, ih]
      simp [hx]

/-- The ports of enabled slots. -/
theorem mem_aggPorts {ws : List Nat} {p : Nat} : p ∈ aggPorts ws ↔
    ∃ w ∈ ws, ∃ i < 4, hasBit w (28 + i) = true ∧ bitsOf w (5 * i + 4) (5 * i) = p := by
  simp [aggPorts, and_assoc]

theorem hasBit_bitsOf {w hi lo i : Nat} (h : i < hi + 1 - lo) : hasBit (bitsOf w hi lo) i = hasBit w (lo + i) := by
  rw [hasBit_eq_testBit, hasBit_eq_testBit, testBit_bitsOf]
  simp [h]

/-- A field of the low bits of a word. -/
theorem bitsOf_bitsOf_low {w n hi lo : Nat} (h : hi ≤ n) : bitsOf (bitsOf w n 0) hi lo = bitsOf w hi lo := by
  refine Nat.eq_of_testBit_eq fun i => ?_
  rw [testBit_bitsOf, testBit_bitsOf, testBit_bitsOf, Nat.zero_add]
  by_cases hi' : i < hi + 1 - lo
  · simp [hi', show lo + i < n + 1 by omega]
  · simp [hi']

end Sys2Proof.Machine
end

section
/-! Aggregation groups (O33): a refused setting, an accepted change of a group's slots, and a member that rejoins. -/

namespace Sys2Proof.Machine

variable {s : State} {f : FieldDie} {req k m data : Nat}

/-! ### A refused setting (R438) -/

/-- What the registers of the four groups give once that of group `k` holds `data`. -/
abbrev aggWords (k data : Nat) (f : FieldDie) : List Nat :=
  (List.range 4).map (fun j => if j = k then data else f.rdN (F_FWD_AGG j))

/-- The refusal of a setting of group `k`, reported with its number. -/
abbrev aggRefused (k : Nat) (f : FieldDie) : FieldDie := (f.put F_FWD_EVT_INFO_index k).raise F_FWD_EVT 2

theorem writeAgg_of_refused
    (h : (aggPorts (aggWords k data f)).any (fun p => decide (15 < p)) = true ∨ ¬ (aggPorts (aggWords k data f)).Nodup) :
    writeAgg req k data f = aggRefused k f :=
  if_pos (h.imp_right fun dup e => dup ((length_eraseDups_eq_iff _).1 e))

theorem exec_aggWrite_refused {data : Word} (hw : s.fld.canWrite req = true) (hk : k < 4)
    (h : (aggPorts (aggWords k data.toNat s.fld)).any (fun p => decide (15 < p)) = true ∨
      ¬ (aggPorts (aggWords k data.toNat s.fld)).Nodup) :
    ∃ t, exec (.aggWrite req k data) s = .next t ∧ t.fld.sq F_FWD_EVT 2 = true ∧ t.fld.get F_FWD_EVT_INFO_index = k ∧
      FieldFrame [F_FWD_EVT_INFO, F_FWD_EVT] s.fld s t := by
  have step := State.onItemWrite_of_canWrite (k := writeAgg req k data.toNat) hw hk
  rw [writeAgg_of_refused (f := s.fld.napBreak) h] at step
  have moves : SoftMoves [F_FWD_EVT_INFO, F_FWD_EVT] s.fld (aggRefused k s.fld.napBreak) :=
    (s.fld.napBreak_softMoves.trans (FieldDie.put_softMoves (r := F_FWD_EVT_INFO_index) (by simp [F_FWD_EVT_INFO_index]) _ _)).trans
      (FieldDie.raise_softMoves (by simp) _ _)
  have index : (aggRefused k s.fld.napBreak).get F_FWD_EVT_INFO_index = k := by
    rw [aggRefused, FieldDie.get_raise_ne _ (by decide) (by decide), FieldDie.get_put _ _ _ (by decide) (by decide)]
    exact Nat.mod_eq_of_lt (hk.trans (by decide))
  refine ⟨_, step, ?_, ?_, moves.frame rfl⟩
  · exact (settle_sq_of_notMem (by decide)).trans (FieldDie.raise_sq _ _ _ (by decide) (by decide))
  · exact (settle_get_of_notMem (by decide)).trans index

/-! ### An accepted change (R438, R439, R444) -/

/-- The three fields of F_FWD_AGG_g are software's and covered. -/
def aggRow : RegRow :=
  ⟨0x160020, 0x4, 4, .const 0, false, true,
    [⟨31, 28, .rw, false, none, false⟩, ⟨27, 27, .rw, false, none, false⟩, ⟨19, 0, .rw, false, none, false⟩]⟩

theorem regRow_agg : ∀ k, k < 4 → regRow (F_FWD_AGG k) = some aggRow := by decide

/-- The word that a write of `data` makes of `w`. -/
def aggWord (w data : Nat) : Nat :=
  putBits (putBits (putBits w 31 28 (bitsOf data 31 28)) 27 27 (bitsOf data 27 27)) 19 0 (bitsOf data 19 0)

theorem aggWord_lt {w : Nat} (hw : w < 2 ^ 32) (data : Nat) : aggWord w data < 2 ^ 32 :=
  putBits_lt _ _ _ _ _ (by decide) (by decide)
    (putBits_lt _ _ _ _ _ (by decide) (by decide) (putBits_lt _ _ _ _ _ (by decide) (by decide) hw))

theorem aggWord_slot_en (w data : Nat) : bitsOf (aggWord w data) 31 28 = bitsOf data 31 28 := by
  unfold aggWord
  rw [bitsOf_putBits_other _ _ _ _ _ _ (by decide) (by decide), bitsOf_putBits_other _ _ _ _ _ _ (by decide) (by decide),
    bitsOf_putBits_same _ _ _ _ (by decide)]
  exact Nat.mod_eq_of_lt (bitsOf_lt _ _ _)

theorem aggWord_slots (w data : Nat) : bitsOf (aggWord w data) 19 0 = bitsOf data 19 0 :=
  (bitsOf_putBits_same _ _ _ _ (by decide)).trans (Nat.mod_eq_of_lt (bitsOf_lt _ _ _))

/-- The die of which the slots of group `k` have been written. -/
abbrev aggStored (k data : Nat) (f : FieldDie) : FieldDie := storedAt (F_FWD_AGG k) (aggWord (f.rdN (F_FWD_AGG k)) data) f.cfg f

theorem storeWrite_agg (hk : k < 4) (req data : Nat) (f : FieldDie) :
    storeWrite req (F_FWD_AGG k) data f = aggStored k data f := by
  unfold storeWrite
  rw [regRow_agg k hk]
  rfl

theorem aggStored_rdN (hk : k < 4) (data : Nat) (f : FieldDie) :
    (aggStored k data f).rdN (F_FWD_AGG k) = aggWord (f.rdN (F_FWD_AGG k)) data := by
  have apart := notMem_of_fwdBlock (a := F_FWD_AGG k) (by unfold F_FWD_AGG; omega) (by unfold F_FWD_AGG; omega)
  simp only [List.mem_cons, not_or] at apart
  have touched : (aggStored k data f).rd (F_FWD_AGG k) = (f.wrN (F_FWD_AGG k) (aggWord (f.rdN (F_FWD_AGG k)) data)).rd (F_FWD_AGG k) :=
    (touchProof_softMoves (List.mem_singleton.2 rfl) _).rd_eq (by simpa using apart.1) apart.2
  exact (congrArg BitVec.toNat touched).trans (FieldDie.rdN_wrN_same (aggWord_lt (f.rdN_lt _) data) f _)

theorem aggStored_slot_en (hk : k < 4) (data : Nat) (f : FieldDie) :
    (aggStored k data f).get (F_FWD_AGG_slot_en k) = bitsOf data 31 28 := by
  unfold FieldDie.get
  exact (congrArg (fun w => bitsOf w 31 28) (aggStored_rdN hk data f)).trans (aggWord_slot_en _ _)

theorem aggStored_slots (hk : k < 4) (data : Nat) (f : FieldDie) :
    (aggStored k data f).get (F_FWD_AGG_slots k) = bitsOf data 19 0 := by
  unfold FieldDie.get
  exact (congrArg (fun w => bitsOf w 19 0) (aggStored_rdN hk data f)).trans (aggWord_slots _ _)

/-- The learned entries that a change of group `k`'s register from `old` to `new` invalidates: those of the group, and those
of a port that joins or leaves its slots (R444). -/
def entriesLost (k old new : Nat) (e : FdbEntry) : Bool :=
  !e.isStatic && !e.maskDst && (e.dest == 0x18 + k ||
    ((aggPorts [old]).filter (fun p => !(aggPorts [new]).contains p) ++
      (aggPorts [new]).filter (fun p => !(aggPorts [old]).contains p)).contains e.dest)

/-- The die of which the slots of group `k` have been changed, the entries that this invalidates gone. -/
abbrev aggPurged (k data : Nat) (f : FieldDie) : FieldDie :=
  fdbPurge (entriesLost k (f.rdN (F_FWD_AGG k)) (aggWord (f.rdN (F_FWD_AGG k)) data)) (aggStored k data f)

theorem writeAgg_of_accepted (hk : k < 4)
    (hports : (aggPorts (aggWords k data f)).any (fun p => decide (15 < p)) = false) (hdup : (aggPorts (aggWords k data f)).Nodup)
    (hnew : bitsOf data 31 28 ≠ f.get (F_FWD_AGG_slot_en k) ∨ bitsOf data 19 0 ≠ f.get (F_FWD_AGG_slots k)) :
    writeAgg req k data f = setActive k (slotSet (slotActive (aggPurged k data f) k)) (aggPurged k data f) := by
  have taken : ¬ ((aggPorts (aggWords k data f)).any (fun p => decide (15 < p)) = true ∨
      (aggPorts (aggWords k data f)).eraseDups.length ≠ (aggPorts (aggWords k data f)).length) := by
    rw [hports, (length_eraseDups_eq_iff _).2 hdup]
    simp
  have changed : ¬ (bitsOf (f.rdN (F_FWD_AGG k)) 31 28 = bitsOf (aggWord (f.rdN (F_FWD_AGG k)) data) 31 28 ∧
      bitsOf (f.rdN (F_FWD_AGG k)) 19 0 = bitsOf (aggWord (f.rdN (F_FWD_AGG k)) data) 19 0) := by
    rw [aggWord_slot_en, aggWord_slots]
    rintro ⟨hen, hslots⟩
    exact hnew.elim (fun h => h hen.symm) (fun h => h hslots.symm)
  refine (if_neg taken).trans ?_
  rw [storeWrite_agg hk, aggStored_rdN hk]
  exact if_neg changed

theorem slotEn_of_slot_en (h : f.get (F_FWD_AGG_slot_en k) = bitsOf data 31 28) (hm : m < 4) :
    slotEn f k m = hasBit data (28 + m) := by
  unfold slotEn
  rw [h, hasBit_bitsOf hm]

theorem slotPort_of_slots (h : f.get (F_FWD_AGG_slots k) = bitsOf data 19 0) (hm : m < 4) :
    slotPort f k m = bitsOf data (5 * m + 4) (5 * m) := by
  unfold slotPort
  rw [h, bitsOf_bitsOf_low (by omega)]

/-- No enabled slot of an accepted setting names a port above 15. -/
theorem slotPort_lt_of_aggPorts {w : FieldDie} (hk : k < 4) (hm : m < 4)
    (hports : (aggPorts (aggWords k data w)).any (fun p => decide (15 < p)) = false)
    (hslots : f.get (F_FWD_AGG_slots k) = bitsOf data 19 0) (hen : hasBit data (28 + m) = true) : slotPort f k m < 16 := by
  have mem : bitsOf data (5 * m + 4) (5 * m) ∈ aggPorts (aggWords k data w) :=
    mem_aggPorts.2 ⟨data, List.mem_map.2 ⟨k, List.mem_range.2 hk, if_pos rfl⟩, m, hm, hen, rfl⟩
  have low := List.any_eq_false.1 hports _ mem
  rw [slotPort_of_slots hslots hm]
  simp only [decide_eq_true_eq] at low
  omega

theorem exec_aggWrite_accepted {data : Word} (hw : s.fld.canWrite req = true) (hk : k < 4)
    (hports : (aggPorts (aggWords k data.toNat s.fld)).any (fun p => decide (15 < p)) = false)
    (hdup : (aggPorts (aggWords k data.toNat s.fld)).Nodup)
    (hnew : bitsOf data.toNat 31 28 ≠ s.fld.get (F_FWD_AGG_slot_en k) ∨ bitsOf data.toNat 19 0 ≠ s.fld.get (F_FWD_AGG_slots k)) :
    ∃ t, exec (.aggWrite req k data) s = .next t ∧ t.fld.get (F_FWD_AGG_slot_en k) = bitsOf data.toNat 31 28 ∧
      t.fld.get (F_FWD_AGG_slots k) = bitsOf data.toNat 19 0 ∧
      (∀ m, m < 4 → hasBit (t.fld.get (F_FWD_AGG_STAT_active k)) m = slotActive t.fld k m) ∧ FieldOnly s t := by
  have step := State.onItemWrite_of_canWrite (k := writeAgg req k data.toNat) hw hk
  rw [writeAgg_of_accepted (f := s.fld.napBreak) hk hports hdup hnew] at step
  set purged := aggPurged k data.toNat s.fld.napBreak
  have kept : purged.rd (F_FWD_AGG k) = (aggStored k data.toNat s.fld.napBreak).rd (F_FWD_AGG k) :=
    fdbPurge_rd (by unfold F_FWD_AGG; omega) (by unfold F_FWD_AGG F_FWD_FDB_CNT; omega) _ _
  have slot_en : purged.get (F_FWD_AGG_slot_en k) = bitsOf data.toNat 31 28 :=
    (FieldDie.get_eq (F_FWD_AGG_slot_en k) kept).trans (aggStored_slot_en hk _ _)
  have slots : purged.get (F_FWD_AGG_slots k) = bitsOf data.toNat 19 0 :=
    (FieldDie.get_eq (F_FWD_AGG_slots k) kept).trans (aggStored_slots hk _ _)
  refine ⟨_, step, ?_, ?_, fun m hm => ?_, rfl, rfl, rfl, rfl⟩
  · exact (FieldDie.get_eq (F_FWD_AGG_slot_en k) (settle_setActive_slots hk _ _)).trans slot_en
  · exact (FieldDie.get_eq (F_FWD_AGG_slots k) (settle_setActive_slots hk _ _)).trans slots
  · have named : slotEn purged k m = true → slotPort purged k m < 16 := fun hen =>
      slotPort_lt_of_aggPorts hk hm hports slots ((slotEn_of_slot_en slot_en hm).symm.trans hen)
    refine (congrArg (fun w => hasBit w m) (settle_setActive_active hk (slotSet_lt _) _)).trans ?_
    exact (hasBit_slotSet _ hm).trans (settle_setActive_slotActive hk named _).symm

/-! ### A member that rejoins (R439) -/

theorem setBit_ne_zero (w i : Nat) : setBit w i ≠ 0 := by
  intro h
  have := hasBit_setBit w i i
  rw [h] at this
  simp [hasBit] at this

/-- Active slots that are not none move the group's status and the event that reports it. -/
theorem setActive_softMoves {v : Nat} (hv : v ≠ 0) (k : Nat) (f : FieldDie) :
    SoftMoves [F_FWD_AGG_STAT k, F_FWD_EVT_INFO, F_FWD_EVT] f (setActive k v f) := by
  rw [setActive_eq, if_neg hv]
  split
  · exact .refl _ f
  · exact ((FieldDie.put_softMoves (r := F_FWD_AGG_STAT_active k) (by simp [F_FWD_AGG_STAT_active]) f _).trans
      (FieldDie.put_softMoves (r := F_FWD_EVT_INFO_index) (by simp [F_FWD_EVT_INFO_index]) _ _)).trans
      (FieldDie.raise_softMoves (by simp) _ _)

theorem exec_memberRejoin {slot : Nat} (hr : s.fld.phase = .running) (hk : k < 4) (hs : slot < 4)
    (ha : slotActive s.fld k slot = true) :
    ∃ t, exec (.memberRejoin k slot) s = .next t ∧ hasBit (t.fld.get (F_FWD_AGG_STAT_active k)) slot = true ∧
      (∀ m, m < 4 → m ≠ slot → hasBit (t.fld.get (F_FWD_AGG_STAT_active k)) m = hasBit (s.fld.get (F_FWD_AGG_STAT_active k)) m) ∧
      FieldFrame [F_FWD_AGG_STAT k, F_FWD_EVT_INFO, F_FWD_EVT] s.fld s t := by
  have step := State.onItem_running (g := fun f => if slot < 4 ∧ slotActive f k slot = true then
    setActive k (setBit (f.get (F_FWD_AGG_STAT_active k)) slot) f else f) hr hk
  rw [if_pos ⟨hs, ha⟩] at step
  have small : setBit (s.fld.get (F_FWD_AGG_STAT_active k)) slot < 16 := by
    refine Nat.lt_pow_two_of_testBit (n := 4) _ fun i hi => ?_
    rw [testBit_setBit]
    have none_above : (s.fld.get (F_FWD_AGG_STAT_active k)).testBit i = false :=
      Nat.testBit_lt_two_pow (Nat.lt_of_lt_of_le (bitsOf_lt _ 3 0) (Nat.pow_le_pow_right (by decide) hi))
    simp [none_above, show slot ≠ i by omega]
  have active := settle_setActive_active hk small s.fld
  refine ⟨_, step, ?_, fun m _ hne => ?_, (setActive_softMoves (setBit_ne_zero _ _) k s.fld).frame rfl⟩
  · show hasBit ((settle _).get _) slot = true
    rw [active, hasBit_setBit]
    simp
  · show hasBit ((settle _).get _) m = _
    rw [active, hasBit_setBit]
    simp [hne.symm]

/-- Settles O33: a refused setting is `aggRefused`, an accepted one stores its slots, purges and shows the members that
`slotActive` names, and a member that rejoins is one more active slot. -/
theorem aggregationGroups : Obligations.AggregationGroups := by
  unfold Obligations.AggregationGroups
  exact ⟨fun _ _ _ _ => exec_aggWrite_refused, fun _ _ _ _ => exec_aggWrite_accepted, fun _ _ _ => exec_memberRejoin⟩

end Sys2Proof.Machine
end

section
/-! Learning, ageing and flushing (O32): the clause of a learn does not hold of every state. It lets nothing of the twin's
record move but the queue of changes, and on an ACTIVE part a change that finds 4,096 waiting empties that queue and starts
a resync (R424, R647). -/

namespace Sys2Proof.Machine

/-- A frame that P3 has received whole and classified in vid 5, whose source address waits to be learned. -/
def sourceUnknown : Frame :=
  { port := 3, bytes := List.replicate 64 2, rx := false, accepted := true, learn := true, final := some { vid := 5 } }

/-- A running die of an ACTIVE part that holds such a frame; its filtering database is empty, and 4,096 changes wait for the
partner. -/
def fullQueue : State :=
  { fld := { phase := .running, reg := [(F_TWN_STAT, 0x20000000)], buf := { frames := [sourceUnknown] }
             twn := { fdbq := List.replicate 4096 (0, true) } } }

/-- The learn's own change is the one that finds the queue full. -/
theorem learnOp_fullQueue_resync : (learnOp 3 fullQueue.fld).twn.resync = true := by decide +kernel

/-- Refutes O32, by its clause of a learn: the resync that the full queue asks for begins with the learn. -/
theorem not_filteringDatabase : ¬ Obligations.FilteringDatabase := by
  unfold Obligations.FilteringDatabase
  rintro ⟨learned, -⟩
  obtain ⟨t, ht, -, frame⟩ := learned fullQueue 3 (4 * macHash (frameSa sourceUnknown.bytes) 5) sourceUnknown { vid := 5 } rfl (by decide)
    (by decide +kernel) rfl (by decide) (by decide +kernel) (by decide +kernel) (fun _ => rfl) (by decide +kernel)
  obtain rfl := next_unique ht (State.onItem_running rfl (by decide))
  have resync := congrArg (fun f : FieldDie => f.twn.resync) frame.rest
  dsimp only [FieldDie.rest, FieldDie.core] at resync
  rw [settle_twn, learnOp_fullQueue_resync] at resync
  cases resync

end Sys2Proof.Machine
end

section
/-! What the purge of copies that can never fit leaves of the die (R530), before a transmission starts: the ports' records,
system time and the counters of what a port sends. -/

namespace Sys2Proof.Machine

variable {f g h : FieldDie} {n q a : Nat} {c : Copy}

/-! ### System time -/

/-- The registers from which system time is read (R535, R537). -/
def clockRegs : List Nat := [F_TIM_SYS, F_TIM_B_RATE, F_TIM_B_ANCHOR_LO, F_TIM_B_ANCHOR_HI]

/-- What the timestamp queues have no part in stands where `side` does. -/
theorem tim_eq_of_side {β : Type} (p : TimeX → β) (hp : ∀ x, p { x with tsq := [] } = p x) (e : g.side = f.side) :
    p g.tim = p f.tim := by
  have tim_side : ∀ x : FieldDie, p x.tim = p x.side.tim := fun x => (hp x.tim).symm
  rw [tim_side g, tim_side f, e]

/-- System time is read from the clock's registers and from what the die keeps of its domains. -/
theorem sysNs_eq (hside : g.side = f.side) (hregs : ∀ a ∈ clockRegs, g.rd a = f.rd a) : g.sysNs = f.sysNs := by
  have c : g.tim.c = f.tim.c := tim_eq_of_side TimeX.c (fun _ => rfl) hside
  have a : g.tim.a = f.tim.a := tim_eq_of_side TimeX.a (fun _ => rfl) hside
  have offset : g.tim.bOff = f.tim.bOff := tim_eq_of_side TimeX.bOff (fun _ => rfl) hside
  have delta : g.tim.delta = f.tim.delta := tim_eq_of_side TimeX.delta (fun _ => rfl) hside
  have reg : ∀ a ∈ clockRegs, g.rdN a = f.rdN a := fun a ha => congrArg BitVec.toNat (hregs a ha)
  have active : g.activeDom = f.activeDom := FieldDie.get_eq F_TIM_SYS_active (hregs _ (by simp [clockRegs, F_TIM_SYS_active]))
  have rate : g.bRate = f.bRate := congrArg (toSigned 32) (reg _ (by simp [clockRegs]))
  have anchor : g.anchor = f.anchor := by
    unfold FieldDie.anchor
    rw [reg _ (by simp [clockRegs]), reg _ (by simp [clockRegs])]
  unfold FieldDie.sysNs FieldDie.sysFix FieldDie.domA FieldDie.domB FieldDie.bDrift
  rw [active, rate, anchor, c, a, offset, delta]

/-! ### Discarded copies (R465, R530) -/

/-- From `f` to `g` copies have been discarded: the ports' records, system time, and the counters of what ports receive and
send, have not moved. -/
structure DropSame (f g : FieldDie) : Prop where
  low : LowSame f g
  ports : g.ports = f.ports
  clock : ∀ a ∈ clockRegs, g.rd a = f.rd a
  cnt : ∀ m k, m < 17 → k < 28 → g.cntAt (cPort m k) = f.cntAt (cPort m k)

theorem DropSame.refl (f : FieldDie) : DropSame f f := ⟨.refl f, rfl, fun _ _ => rfl, fun _ _ _ _ => rfl⟩

theorem DropSame.trans (a : DropSame f g) (b : DropSame g h) : DropSame f h :=
  ⟨a.low.trans b.low, b.ports.trans a.ports, fun x hx => (b.clock x hx).trans (a.clock x hx),
    fun m k hm hk => (b.cnt m k hm hk).trans (a.cnt m k hm hk)⟩

theorem DropSame.sysNs (a : DropSame f g) : g.sysNs = f.sysNs := sysNs_eq a.low.side a.clock

theorem forAll_dropSame {α : Type} {k : α → FieldDie → FieldDie} {xs : List α} (hk : ∀ x ∈ xs, ∀ f, DropSame f (k x f))
    (f : FieldDie) : DropSame f (forAll xs k f) := by
  unfold forAll
  induction xs generalizing f with
  | nil => exact .refl f
  | cons x xs ih =>
    exact (hk x List.mem_cons_self f).trans (ih (fun y hy => hk y (List.mem_cons_of_mem x hy)) (k x f))

theorem tsqFrame_rd (ha : a ∈ clockRegs) (fr : Frame) (n st re ts : Nat) (f : FieldDie) :
    (tsqFrame fr n st re ts f).rd a = f.rd a := by
  have apart : a ≠ F_TIM_EVT_INFO ∧ a ≠ F_TIM_EVT ∧ a ≠ F_XNG_EVT := by
    revert a
    decide
  obtain ⟨hinfo, hevt, hx⟩ := apart
  unfold tsqFrame tsqPush
  split
  · split_ifs
    · rfl
    · rfl
    · rw [FieldDie.raise_rd _ _ _ _ hevt hx, FieldDie.rd_put_ne _ F_TIM_EVT_INFO_port _ _ hinfo]
      rfl
  · rfl

theorem tsqFrame_dropSame (fr : Frame) (n st re ts : Nat) (f : FieldDie) : DropSame f (tsqFrame fr n st re ts f) :=
  ⟨tsqFrame_low fr n st re ts f, tsqFrame_ports fr n st re ts f, fun _ ha => tsqFrame_rd ha fr n st re ts f,
    fun _ _ hm hk => tsqFrame_cntAt_port hm (hk.trans (by decide)) hk.ne fr n st re ts f⟩

theorem chargeSub_rd (ha : a ∈ clockRegs) (hn : n < 17) (q c : Nat) (reserve : Bool) (f : FieldDie) :
    (chargeSub n q c reserve f).rd a = f.rd a := by
  have apart : a ≠ occAddr n q ∧ a ≠ F_BUF_PORT_USE n ∧ a ≠ F_BUF_POOL := by
    unfold clockRegs F_TIM_SYS F_TIM_B_RATE F_TIM_B_ANCHOR_LO F_TIM_B_ANCHOR_HI at ha
    simp only [List.mem_cons, List.not_mem_nil, or_false] at ha
    unfold occAddr F_BUF_PORT_USE F_BUF_POOL
    omega
  obtain ⟨hocc, huse, hpool⟩ := apart
  unfold chargeSub refreshPool
  dsimp only
  rw [FieldDie.rd_put_ne _ F_BUF_POOL_shared_size _ _ hpool]
  split
  · rw [FieldDie.rd_put_ne _ (F_BUF_PORT_USE_res_used n) _ _ huse, FieldDie.rd_wrN, if_neg hocc]
  · rw [FieldDie.rd_put_ne _ F_BUF_POOL_shared_used _ _ hpool, FieldDie.rd_put_ne _ (F_BUF_PORT_USE_shr_used n) _ _ huse,
      FieldDie.rd_wrN, if_neg hocc]

theorem releaseCopy_dropSame (hp : c.port < 17) (f : FieldDie) : DropSame f (releaseCopy c f) :=
  ⟨releaseCopy_low c f, releaseCopy_ports c f, fun _ ha => chargeSub_rd ha hp _ _ _ f,
    fun _ _ _ _ => FieldDie.cntAt_eq (chargeSub_cnt _ _ _ _ f) _⟩

/-- Reason 0x0D counts above what a port receives and sends (Table 20.2, Table 20.3). -/
theorem countQDrop_dropSame (hq : q < 8) (n : Nat) (f : FieldDie) : DropSame f (f.countQDrop n q 0x0D) := by
  have counted : f.countQDrop n q 0x0D = (f.count (cPort n 45)).count (cQueue n q 3) := rfl
  refine ⟨countQDrop_low f n q 0x0D, countQDrop_ports f n q 0x0D, fun a _ => by rw [counted]; rfl, fun m k hm hk => ?_⟩
  have apart : cPort m k ≠ cQueue n q 3 ∧ cPort m k ≠ cPort n 45 := by
    unfold cQueue cPort
    omega
  rw [counted, FieldDie.cntAt_count, if_neg apart.1, FieldDie.cntAt_count, if_neg apart.2]

theorem discardCopy_dropSame (hp : c.port < 17) (hq : c.queue < 8) (f : FieldDie) : DropSame f (discardCopy 0x0D c f) := by
  have counted := countQDrop_dropSame hq c.port f
  unfold discardCopy
  dsimp only
  refine DropSame.trans ?_ (releaseCopy_dropSame hp _)
  split
  · exact counted
  · exact counted.trans (tsqFrame_dropSame ..)

theorem discardQueued_dropSame {p : Copy → Bool} (hp : ∀ x, p x = true → x.port < 17 ∧ x.queue < 8) (f : FieldDie) :
    DropSame f (discardQueued p 0x0D f) := by
  unfold discardQueued
  extract_lets gone buf kept
  have hkept : DropSame f kept := ⟨.ofEq rfl rfl, rfl, fun _ _ => rfl, fun _ _ _ _ => rfl⟩
  refine hkept.trans (forAll_dropSame (fun x hx f => ?_) kept)
  obtain ⟨port, queue⟩ := hp x (List.mem_filter.1 hx).2
  exact discardCopy_dropSame port queue f

theorem headCopy_some (h : headCopy f n q = some c) : c.port = n ∧ c.queue = q := by
  simpa using List.find?_some h

theorem purgeOverrun_dropSame (hn : n < 17) (f : FieldDie) : DropSame f (purgeOverrun n f) := by
  unfold purgeOverrun forRange
  refine forAll_dropSame (fun q hq f => forAll_dropSame (fun _ _ f => ?_) f) f
  split
  next c hc =>
    obtain ⟨rfl, rfl⟩ := headCopy_some hc
    split
    · refine discardQueued_dropSame (fun x hx => ?_) f
      rw [eq_of_beq hx]
      exact ⟨hn, List.mem_range.1 hq⟩
    · exact .refl f
  next => exact .refl f

end Sys2Proof.Machine
end

section
/-! The start of a copy (R462, R474, R515): with no cell error to read it takes the copy from its place and puts it on the
wire of its port. -/

namespace Sys2Proof.Machine

variable {f g : FieldDie} {n : Nat} {c e : Copy}

/-! ### A copy is taken and launched -/

theorem readCells_of_clean (h : f.flt.badCells = []) (c : Copy) : readCells c f = (c, f) := by
  have flt : ({ f.flt with badCells := [] } : FltX) = f.flt := by rw [← h]
  unfold readCells
  simp only [h, List.filter_nil, List.map_nil, List.append_nil, List.any_nil, Bool.false_eq_true, and_false, if_false]
  rw [flt]
  rfl

/-- Paying for a copy moves the rate level alone. -/
theorem payRate_gates (c : Copy) (f : FieldDie) : ∃ xs, payRate c f = { f with gates := xs } := by
  unfold payRate
  split
  · exact ⟨_, rfl⟩
  · exact ⟨f.gates, rfl⟩

theorem payRate_flt (c : Copy) (f : FieldDie) : (payRate c f).flt = f.flt := by
  obtain ⟨xs, h⟩ := payRate_gates c f
  rw [h]

theorem payRate_ports (c : Copy) (f : FieldDie) : (payRate c f).ports = f.ports := by
  obtain ⟨xs, h⟩ := payRate_gates c f
  rw [h]

theorem payRate_buf (c : Copy) (f : FieldDie) : (payRate c f).buf = f.buf := by
  obtain ⟨xs, h⟩ := payRate_gates c f
  rw [h]

theorem payRate_cnt (c : Copy) (f : FieldDie) : (payRate c f).cnt = f.cnt := by
  obtain ⟨xs, h⟩ := payRate_gates c f
  rw [h]

theorem payRate_low (c : Copy) (f : FieldDie) : LowSame f (payRate c f) := by
  unfold payRate
  split
  · exact .ofEq (setGateX_side f c.port _ fun _ => rfl) rfl
  · exact .refl f

theorem takeCopy_of_queued (h : c.frag = false) (f : FieldDie) :
    takeCopy c f = { f with buf := { f.buf with queued := f.buf.queued.erase c } } := if_neg (by simp [h])

theorem takeCopy_of_remainder (h : c.frag = true) (f : FieldDie) :
    takeCopy c f = f.setPortX c.port (fun x => { x with preempted := none }) := if_pos h

theorem takeCopy_ports_length (c : Copy) (f : FieldDie) : (takeCopy c f).ports.length = f.ports.length := by
  unfold takeCopy
  split
  · simp [FieldDie.setPortX, modAt]
  · rfl

theorem takeCopy_low (c : Copy) (f : FieldDie) : LowSame f (takeCopy c f) := by
  unfold takeCopy
  split
  · exact setPortX_low f c.port _ fun _ => rfl
  · exact low_buf f _

/-- The copy as it goes on the wire of `f`. -/
abbrev onWire (c : Copy) (f : FieldDie) : Copy := launched (payRate c f) c

theorem onWire_identity (c : Copy) (f : FieldDie) :
    (onWire c f).frame = c.frame ∧ (onWire c f).queue = c.queue ∧ (onWire c f).start = f.now := by
  obtain ⟨xs, hpaid⟩ := payRate_gates c f
  unfold onWire launched
  rw [hpaid]
  split
  all_goals exact ⟨rfl, rfl, rfl⟩

/-- A copy that has not been preempted is stamped with the system time of its start (R567). -/
theorem onWire_ts (h : c.frag = false) (f : FieldDie) : (onWire c f).ts = f.sysNs := by
  obtain ⟨xs, hpaid⟩ := payRate_gates c f
  unfold onWire launched
  rw [hpaid, if_neg (by simp [h])]
  rfl

theorem onWire_sent (h : c.frag = true) (f : FieldDie) : (onWire c f).sent = c.sent := by
  unfold onWire launched
  rw [if_pos h]

/-! ### The start (R474) -/

theorem startCopy_of_clean (h : f.flt.badCells = []) (c : Copy) :
    startCopy c f = (takeCopy c (payRate c f)).setPortX c.port (fun x => { x with sending := some (onWire c f) }) := by
  have clean : (takeCopy c (payRate c f)).flt.badCells = [] := by
    rw [← h, ← payRate_flt c f]
    unfold takeCopy
    split
    all_goals rfl
  have read : readCells (onWire c f) (takeCopy c (payRate c f)) = (onWire c f, takeCopy c (payRate c f)) :=
    readCells_of_clean clean _
  unfold startCopy
  dsimp only
  rw [read]

theorem startCopy_low (h : f.flt.badCells = []) (c : Copy) : LowSame f (startCopy c f) := by
  rw [startCopy_of_clean h]
  exact ((payRate_low c f).trans (takeCopy_low c _)).trans (setPortX_low _ _ _ fun _ => rfl)

theorem startCopy_cnt (h : f.flt.badCells = []) (c : Copy) : (startCopy c f).cnt = f.cnt := by
  rw [startCopy_of_clean h, FieldDie.setPortX_cnt, ← payRate_cnt c f]
  unfold takeCopy
  split
  all_goals rfl

/-- The port's record with the copy on its wire. -/
theorem startCopy_portX (h : f.flt.badCells = []) (hp : c.port < f.ports.length) :
    (startCopy c f).portX c.port = { (takeCopy c (payRate c f)).portX c.port with sending := some (onWire c f) } := by
  rw [startCopy_of_clean h]
  exact portX_setPortX_self (by rw [takeCopy_ports_length, payRate_ports]; exact hp)

theorem startCopy_sending (h : f.flt.badCells = []) (hp : c.port < f.ports.length) :
    ((startCopy c f).portX c.port).sending = some (onWire c f) := by
  rw [startCopy_portX h hp]

/-- A queued copy leaves its queue. -/
theorem startCopy_queued (h : f.flt.badCells = []) (hc : c.frag = false) :
    (startCopy c f).buf.queued = f.buf.queued.erase c := by
  rw [startCopy_of_clean h, FieldDie.setPortX_buf, takeCopy_of_queued hc, ← payRate_buf c f]

/-- It leaves the port's remainder where it is (R529). -/
theorem startCopy_preempted (h : f.flt.badCells = []) (hc : c.frag = false) (hp : c.port < f.ports.length) :
    ((startCopy c f).portX c.port).preempted = (f.portX c.port).preempted := by
  have record : (takeCopy c (payRate c f)).portX c.port = f.portX c.port := by
    rw [takeCopy_of_queued hc]
    exact portX_of_ports (payRate_ports c f) c.port
  rw [startCopy_portX h hp, record]

/-- A remainder leaves its place and the queues as they are. -/
theorem startCopy_remainder (h : f.flt.badCells = []) (hc : c.frag = true) (hp : c.port < f.ports.length) :
    ((startCopy c f).portX c.port).preempted = none ∧ (startCopy c f).buf.queued = f.buf.queued := by
  have present : c.port < (payRate c f).ports.length := by
    rw [payRate_ports]
    exact hp
  constructor
  · rw [startCopy_portX h hp, takeCopy_of_remainder hc, portX_setPortX_self present]
  · rw [startCopy_of_clean h, FieldDie.setPortX_buf, takeCopy_of_remainder hc, FieldDie.setPortX_buf, payRate_buf]

/-! ### P16 (R617) -/

theorem FieldDie.sendXng_softMoves (f : FieldDie) (u : FlowUnit) : SoftMoves [] f (f.sendXng u) where
  rest := by
    have pwr : (f.sendXng u).pwr = f.pwr := by
      have := congrArg FieldDie.pwr (f.sendXng_core u)
      exact this
    unfold FieldDie.rest
    rw [FieldDie.sendXng_core, pwr]
  send := f.sendXng_sendSame u
  regs := .ofReg (f.sendXng_reg u)

theorem sendUnits_softMoves (us : List FlowUnit) (f : FieldDie) :
    SoftMoves [] f (forAll us (fun u f => f.sendXng u) f) := by
  unfold forAll
  induction us generalizing f with
  | nil => exact .refl [] f
  | cons u us ih => exact (f.sendXng_softMoves u).trans (ih (f.sendXng u))

/-- Which queues of P16 the serial window takes stands in the window's memory (R718). -/
theorem toWindow_of_window (h : g.window = f.window) (q : Nat) : toWindow g q = toWindow f q := by
  unfold toWindow winWord winBytes winByte
  rw [h]

/-- A copy that starts at P16 for the host die starts as at any port, and its units are sent. -/
theorem startP16_softMoves (h : f.flt.badCells = []) (hc : c.port = 16) (hp : 16 < f.ports.length)
    (hw : toWindow f c.queue = false) : SoftMoves [] (startCopy c f) (startP16 c f) := by
  have sending := startCopy_sending (c := c) h (hc ▸ hp)
  rw [hc] at sending
  have host : toWindow (startCopy c f) (onWire c f).queue = false := by
    obtain ⟨-, queue, -⟩ := onWire_identity c f
    rw [queue, toWindow_of_window (startCopy_window c f)]
    exact hw
  unfold startP16
  dsimp only
  rw [sending]
  dsimp only
  rw [if_neg (by simp [host])]
  exact sendUnits_softMoves _ _

end Sys2Proof.Machine
end

section
/-! TRANSMIT_START (O35, R474, R475, R529): what starts on the wire of a port that is free, and an express copy that preempts. -/

namespace Sys2Proof.Machine

variable {s : State} {f g : FieldDie} {n : Nat} {c e : Copy}

/-- As the purge of port `n` leaves it, the die has no cell error if it had none. -/
theorem purgeOverrun_clean (hn : n < 17) (h : f.flt.badCells = []) : (purgeOverrun n f).flt.badCells = [] := by
  have flt_side : ∀ x : FieldDie, x.flt = x.side.flt := fun _ => rfl
  rw [flt_side, (purgeOverrun_dropSame hn f).low.side]
  exact h

theorem LowSame.lowMoves (a : LowSame f g) (but : List Nat) : LowMoves but f g := ⟨a.side, fun x hx _ _ => a.rd x hx⟩

/-- A link-up port transmits, but in SLEEP_ENTRY once its queues have been empty (R311). -/
theorem mayTransmit_of_up (hup : stateUp (portState f n) = true)
    (hdrained : ¬ (portState f n = 4 ∧ (f.portX n).drained = true)) : mayTransmit f n = true := by
  unfold mayTransmit
  rw [hup]
  by_cases hst : portState f n = 4
  · have : (f.portX n).drained = false := by simpa [hst] using hdrained
    simp [this]
  · simp [hst]

/-! ### A free port -/

theorem transmitStart_of_free (hmay : mayTransmit f n = true) (hn : n < 17) (hfree : (f.portX n).sending = none)
    (hc : chooseCopy (purgeOverrun n f) n = some c) :
    transmitStart n f = if n = 16 then startP16 c (purgeOverrun n f) else startCopy c (purgeOverrun n f) := by
  have free : ((purgeOverrun n f).portX n).sending = none := by
    rw [portX_of_ports (purgeOverrun_dropSame hn f).ports, hfree]
  unfold transmitStart
  rw [if_neg (by simp [hmay])]
  dsimp only
  rw [free]
  dsimp only
  rw [hc]

/-- What a free port that may transmit starts moves beyond `startCopy` at most sends messages. -/
theorem transmitStart_softMoves (hports : f.ports.length = 17) (hclean : f.flt.badCells = [])
    (hport : (n < 12 ∧ stateUp (portState f n) = true ∧ ¬ (portState f n = 4 ∧ (f.portX n).drained = true)) ∨
      (n = 16 ∧ toWindow f c.queue = false))
    (hfree : (f.portX n).sending = none) (hc : chooseCopy (purgeOverrun n f) n = some c) (hp : c.port = n) :
    SoftMoves [] (startCopy c (purgeOverrun n f)) (transmitStart n f) := by
  obtain ⟨hn, hup, hdrained⟩ | ⟨rfl, hw⟩ := hport
  · rw [transmitStart_of_free (mayTransmit_of_up hup hdrained) (by omega) hfree hc, if_neg (by omega)]
    exact .refl [] _
  · have dropped := purgeOverrun_dropSame (n := 16) (by decide) f
    rw [transmitStart_of_free rfl (by decide) hfree hc, if_pos rfl]
    refine startP16_softMoves (purgeOverrun_clean (by decide) hclean) hp (by rw [dropped.ports, hports]; decide) ?_
    rw [toWindow_of_window (purgeOverrun_window 16 f)]
    exact hw

theorem exec_transmitStart_free (hr : s.fld.phase = .running) (hshape : Shape s)
    (hport : (n < 12 ∧ stateUp (portState s.fld n) = true ∧ ¬ (portState s.fld n = 4 ∧ (s.fld.portX n).drained = true)) ∨
      (n = 16 ∧ toWindow s.fld c.queue = false))
    (hfree : (s.fld.portX n).sending = none) (hclean : s.fld.flt.badCells = [])
    (hc : chooseCopy (purgeOverrun n s.fld) n = some c) (hp : c.port = n) :
    ∃ t, exec (.transmitStart n) s = .next t ∧
      (∃ d, (t.fld.portX n).sending = some d ∧ d.frame = c.frame ∧ d.queue = c.queue ∧ d.start = s.fld.now ∧
        (c.frag = false → d.ts = s.fld.sysNs) ∧ (c.frag = true → d.sent = c.sent)) ∧
      (c.frag = false → t.fld.buf.queued = (purgeOverrun n s.fld).buf.queued.erase c) ∧
      (c.frag = true → (t.fld.portX n).preempted = none ∧ t.fld.buf.queued = (purgeOverrun n s.fld).buf.queued) ∧
      LowFrame [] s.fld s t := by
  have hn : n < 12 ∨ n = 16 := hport.imp And.left And.left
  have started := transmitStart_softMoves hshape.ports hclean hport hfree hc hp
  have step := State.onItem_running (n := n) (lim := 17)
    (g := fun f => if n < 12 ∨ n = 16 then transmitStart n f else f) hr (by omega)
  rw [if_pos hn] at step
  have dropped := purgeOverrun_dropSame (n := n) (by omega) s.fld
  have clean := purgeOverrun_clean (n := n) (by omega) hclean
  have present : c.port < (purgeOverrun n s.fld).ports.length := by
    rw [dropped.ports, hshape.ports]
    omega
  have record : (settle (transmitStart n s.fld)).portX n = (startCopy c (purgeOverrun n s.fld)).portX c.port := by
    rw [hp]
    exact portX_of_ports ((settle_ports _).trans (ports_of_rest started.rest)) n
  have queued : (settle (transmitStart n s.fld)).buf.queued = (startCopy c (purgeOverrun n s.fld)).buf.queued :=
    (settle_queued _).trans (congrArg BufX.queued started.send.buf)
  obtain ⟨frame, queue, start⟩ := onWire_identity c (purgeOverrun n s.fld)
  refine ⟨_, step, ⟨onWire c (purgeOverrun n s.fld), ?_, frame, queue, ?_, fun h => ?_, fun h => onWire_sent h _⟩,
    fun h => ?_, fun h => ?_, ?_⟩
  · exact (congrArg PortX.sending record).trans (startCopy_sending clean present)
  · exact start.trans (now_of_side dropped.low.side)
  · exact (onWire_ts h _).trans dropped.sysNs
  · exact queued.trans (startCopy_queued clean h)
  · obtain ⟨preempted, kept⟩ := startCopy_remainder clean h present
    exact ⟨(congrArg PortX.preempted record).trans preempted, queued.trans kept⟩
  · exact (((dropped.low.trans (startCopy_low clean c)).lowMoves []).trans (started.low (List.nil_subset _))).frame rfl

/-! ### Preemption (R321, R475) -/

/-- The copy on the wire of port `n`, cut off for an express one after its least fragment. -/
abbrev remainder (n : Nat) (c : Copy) (f : FieldDie) : Copy := { c with sent := c.sent + fragSent f n c, frag := true }

theorem preemptNow_of_canPreempt (hc : (f.portX n).sending = some c) (hcan : canPreempt f n c = true) :
    preemptNow n f =
      (f.setPortX n (fun x => { x with sending := none, preempted := some (remainder n c f) })).count (cPort n 23) := by
  unfold preemptNow
  rw [hc]
  exact if_pos hcan

theorem preemptNow_flt (hc : (f.portX n).sending = some c) (hcan : canPreempt f n c = true) : (preemptNow n f).flt = f.flt := by
  rw [preemptNow_of_canPreempt hc hcan]
  rfl

theorem preemptNow_queued (hc : (f.portX n).sending = some c) (hcan : canPreempt f n c = true) :
    (preemptNow n f).buf.queued = f.buf.queued := by
  rw [preemptNow_of_canPreempt hc hcan]
  rfl

theorem preemptNow_ports_length (hc : (f.portX n).sending = some c) (hcan : canPreempt f n c = true) :
    (preemptNow n f).ports.length = f.ports.length := by
  rw [preemptNow_of_canPreempt hc hcan]
  simp [FieldDie.setPortX, modAt]

theorem preemptNow_low (hc : (f.portX n).sending = some c) (hcan : canPreempt f n c = true) : LowSame f (preemptNow n f) := by
  rw [preemptNow_of_canPreempt hc hcan]
  refine LowSame.trans ?_ (low_count _ _)
  exact setPortX_low f n _ fun _ => rfl

theorem preemptNow_preempted (hc : (f.portX n).sending = some c) (hcan : canPreempt f n c = true) (hn : n < f.ports.length) :
    ((preemptNow n f).portX n).preempted = some (remainder n c f) := by
  rw [preemptNow_of_canPreempt hc hcan]
  exact congrArg PortX.preempted (portX_setPortX_self hn)

theorem preemptNow_cntAt (hc : (f.portX n).sending = some c) (hcan : canPreempt f n c = true) :
    (preemptNow n f).cntAt (cPort n 23) = (f.cntAt (cPort n 23) + 1) % 2 ^ 64 := by
  rw [preemptNow_of_canPreempt hc hcan]
  exact (FieldDie.cntAt_count _ _ _).trans (if_pos rfl)

theorem transmitStart_of_express (hmay : mayTransmit f n = true) (hn : n < 17) (hc : (f.portX n).sending = some c)
    (he : expressCopy (purgeOverrun n f) n = some e) (hcan : canPreempt (purgeOverrun n f) n c = true) :
    transmitStart n f = startCopy e (preemptNow n (purgeOverrun n f)) := by
  have busy : ((purgeOverrun n f).portX n).sending = some c := by
    rw [portX_of_ports (purgeOverrun_dropSame hn f).ports, hc]
  unfold transmitStart
  rw [if_neg (by simp [hmay])]
  dsimp only
  rw [busy]
  dsimp only
  rw [he]
  exact if_pos hcan

theorem exec_transmitStart_express (hr : s.fld.phase = .running) (hshape : Shape s) (hn : n < 12)
    (hup : stateUp (portState s.fld n) = true) (hdrained : ¬ (portState s.fld n = 4 ∧ (s.fld.portX n).drained = true))
    (hc : (s.fld.portX n).sending = some c) (hclean : s.fld.flt.badCells = [])
    (he : expressCopy (purgeOverrun n s.fld) n = some e) (hp : e.port = n) (hfrag : e.frag = false)
    (hcan : canPreempt (purgeOverrun n s.fld) n c = true) :
    ∃ t, exec (.transmitStart n) s = .next t ∧
      (∃ d, (t.fld.portX n).sending = some d ∧ d.frame = e.frame ∧ d.queue = e.queue ∧ d.start = s.fld.now) ∧
      (t.fld.portX n).preempted = some { c with sent := c.sent + fragSent (purgeOverrun n s.fld) n c, frag := true } ∧
      t.fld.buf.queued = (purgeOverrun n s.fld).buf.queued.erase e ∧
      t.fld.cntAt (cPort n 23) = (s.fld.cntAt (cPort n 23) + 1) % 2 ^ 64 ∧ LowFrame [] s.fld s t := by
  have step := State.onItem_running (n := n) (lim := 17)
    (g := fun f => if n < 12 ∨ n = 16 then transmitStart n f else f) hr (by omega)
  rw [if_pos (Or.inl hn), transmitStart_of_express (mayTransmit_of_up hup hdrained) (by omega) hc he hcan] at step
  have dropped := purgeOverrun_dropSame (n := n) (by omega) s.fld
  have busy : ((purgeOverrun n s.fld).portX n).sending = some c := by rw [portX_of_ports dropped.ports, hc]
  have unharmed := purgeOverrun_clean (n := n) (by omega) hclean
  have present : n < (purgeOverrun n s.fld).ports.length := by
    rw [dropped.ports, hshape.ports]
    omega
  generalize purgeOverrun n s.fld = purged at *
  have clean : (preemptNow n purged).flt.badCells = [] := by rw [preemptNow_flt busy hcan, unharmed]
  have low := preemptNow_low busy hcan
  have waits := preemptNow_preempted busy hcan present
  have counted := preemptNow_cntAt busy hcan
  have queued := preemptNow_queued busy hcan
  have present' : e.port < (preemptNow n purged).ports.length := by
    rw [preemptNow_ports_length busy hcan, hp]
    exact present
  generalize preemptNow n purged = freed at *
  have record : (settle (startCopy e freed)).portX n = (startCopy e freed).portX e.port := by
    rw [hp]
    exact portX_of_ports (settle_ports _) n
  obtain ⟨frame, queue, start⟩ := onWire_identity e freed
  refine ⟨_, step, ⟨onWire e freed, ?_, frame, queue, ?_⟩, ?_, ?_, ?_, ?_⟩
  · exact (congrArg PortX.sending record).trans (startCopy_sending clean present')
  · exact start.trans (now_of_side (dropped.low.trans low).side)
  · refine (congrArg PortX.preempted record).trans ((startCopy_preempted clean hfrag present').trans ?_)
    rw [hp]
    exact waits
  · exact (settle_queued _).trans ((startCopy_queued clean hfrag).trans (congrArg (fun q => q.erase e) queued))
  · refine (settle_cntAt_port _ (by omega) (by decide)).trans ((FieldDie.cntAt_eq (startCopy_cnt clean e) _).trans ?_)
    rw [counted, dropped.cnt n 23 (by omega) (by decide)]
  · exact ((((dropped.low.trans low).trans (startCopy_low clean e)).lowMoves [])).frame rfl

end Sys2Proof.Machine
end

section
/-! TRANSMIT_END (O35, R462, R477, R792): an undamaged copy whose frame has been received leaves its port whole. -/

namespace Sys2Proof.Machine

variable {s : State} {f g : FieldDie} {n phase : Nat} {c : Copy}

/-! ### A port that goes to sleep after its last frame (R310) -/

/-- SLEEP_ENTRY is entered from UP with the port's status shown and its credits cleared (R514). -/
theorem enterState_sleepEntry (hr : f.engineRuns n = true) (hup : portState f n = 3) :
    enterState n 4 0 f = clearCredits n (showState n 3 4 0 f.napBreak) := by
  unfold enterState
  rw [if_neg (by simp [hr]), hup]
  rfl

theorem FieldDie.wr_sendSame (f : FieldDie) (a : Nat) (w : Word) : SendSame f (f.wr a w) :=
  .ofEq (f.wr_buf a w) (f.wr_out a w) (f.wr_cnt a w)

theorem clearCredits_sendSame (n : Nat) (f : FieldDie) : SendSame f (clearCredits n f) := by
  have cleared : ∀ (qs : List Nat) (f : FieldDie), SendSame f (forAll qs (fun q f => f.wr (creditAddr n q) 0) f) := by
    intro qs
    unfold forAll
    induction qs with
    | nil => exact .refl
    | cons q qs ih => exact fun f => (f.wr_sendSame (creditAddr n q) 0).trans (ih (f.wr (creditAddr n q) 0))
  have zero : SendSame f (forRange 8 (fun q f => f.wr (creditAddr n q) 0) f) := cleared _ f
  unfold clearCredits
  generalize forRange 8 (fun q f => f.wr (creditAddr n q) 0) f = g at zero
  exact zero.trans (.ofEq rfl rfl rfl)

theorem showState_sendSame (n old st reason : Nat) (f : FieldDie) : SendSame f (showState n old st reason f) := by
  refine .ofEq (showState_buf n old st reason f) ?_ ?_
  · unfold showState
    split
    all_goals simp only [FieldDie.put_out, FieldDie.setPortX_out]
  · unfold showState
    split
    all_goals simp only [FieldDie.put_cnt, FieldDie.setPortX_cnt]

theorem setPortX_sending {p : PortX → PortX} (h : ∀ x, (p x).sending = x.sending) (n : Nat) (f : FieldDie) :
    ((f.setPortX n p).portX n).sending = (f.portX n).sending := by
  unfold FieldDie.portX FieldDie.setPortX modAt
  rw [List.getD_eq_getElem?_getD, List.getD_eq_getElem?_getD, List.getElem?_modify]
  cases f.ports[n]? with
  | none => rfl
  | some x => simp [h]

theorem showState_sending (n old st reason : Nat) (f : FieldDie) :
    ((showState n old st reason f).portX n).sending = (f.portX n).sending := by
  have shown : ((f.put (F_PORT_STAT_state n) st).put (F_PORT_STAT_category n) (stateCategory st)).ports = f.ports :=
    (FieldDie.put_ports _ _ _).trans (FieldDie.put_ports _ _ _)
  unfold showState
  generalize (f.put (F_PORT_STAT_state n) st).put (F_PORT_STAT_category n) (stateCategory st) = g at *
  dsimp only
  split
  · rw [portX_of_ports (FieldDie.put_ports _ _ _), setPortX_sending (fun _ => by rfl), portX_of_ports shown]
  · rw [setPortX_sending (fun _ => by rfl), portX_of_ports shown]

/-- An effective sleep request takes nothing off the wire, out of the queues or off the counters. -/
theorem trySleep_sendSame (n : Nat) (f : FieldDie) :
    SendSame f (trySleep n f) ∧ ((trySleep n f).portX n).sending = (f.portX n).sending := by
  unfold trySleep
  split
  next h =>
    by_cases hr : f.engineRuns n = true
    · rw [enterState_sleepEntry hr h.1]
      have broken : SendSame f f.napBreak := .ofEq rfl rfl rfl
      refine ⟨(broken.trans (showState_sendSame n 3 4 0 _)).trans (clearCredits_sendSame n _), ?_⟩
      rw [portX_of_ports (clearCredits_ports n _)]
      exact showState_sending n 3 4 0 f.napBreak
    · have still : enterState n 4 0 f = f := if_pos (by simpa using hr)
      rw [still]
      exact ⟨.refl f, rfl⟩
  next => exact ⟨.refl f, rfl⟩

/-! ### The end of a copy (R462) -/

/-- A copy that has been sent whole from port `n` is counted with its length, and its last fragment (R528) with it. -/
def sentWhole (n len : Nat) (c : Copy) (f : FieldDie) : FieldDie :=
  countSent c len (if c.frag then (f.setPortX n (fun x => { x with sending := none })).count (cPort n 23)
    else f.setPortX n (fun x => { x with sending := none }))

/-- Its timestamp entry is written unless it is a mirror copy (R571). -/
def stampedWhole (n phase : Nat) (c : Copy) (f : FieldDie) : FieldDie :=
  if c.mirror then sentWhole n (outBytes c.tag (f.frameOf c.frame).bytes false).length c f
  else tsqFrame (f.frameOf c.frame) n 0 0 (egressTs f c phase)
    (sentWhole n (outBytes c.tag (f.frameOf c.frame).bytes false).length c f)

theorem finishCopy_of_clean (h : f.flt.badCells = []) (hs : c.stomped = false) :
    finishCopy n phase c f = releaseCopy c (if n = 16 then stampedWhole n phase c f
      else (stampedWhole n phase c f).emit (.frame n (outBytes c.tag (f.frameOf c.frame).bytes false))) := by
  have read : (if n = 16 then (c, f) else readCells c f) = (c, f) := by
    split
    · rfl
    · exact readCells_of_clean h c
  unfold finishCopy
  rw [read]
  simp only [hs]
  rfl

theorem low_countN (f : FieldDie) (a k : Nat) : LowSame f (f.countN a k) := ⟨rfl, fun _ _ => rfl⟩

theorem countSent_low (c : Copy) (len : Nat) (f : FieldDie) : LowSame f (countSent c len f) :=
  (((low_count _ _).trans (low_countN _ _ _)).trans (low_count _ _)).trans (low_countN _ _ _)

theorem sentWhole_low (n len : Nat) (c : Copy) (f : FieldDie) : LowSame f (sentWhole n len c f) := by
  have freed : LowSame f (f.setPortX n (fun x => { x with sending := none })) := setPortX_low f n _ fun _ => rfl
  unfold sentWhole
  split
  · exact (freed.trans (low_count _ _)).trans (countSent_low _ _ _)
  · exact freed.trans (countSent_low _ _ _)

theorem sentWhole_buf (n len : Nat) (c : Copy) (f : FieldDie) : (sentWhole n len c f).buf = f.buf := by
  unfold sentWhole countSent
  split
  all_goals simp only [FieldDie.count_buf, FieldDie.countN_buf, FieldDie.setPortX_buf]

theorem sentWhole_sending (hn : n < f.ports.length) (len : Nat) (c : Copy) :
    ((sentWhole n len c f).portX n).sending = none := by
  have ports : (sentWhole n len c f).ports = (f.setPortX n (fun x => { x with sending := none })).ports := by
    unfold sentWhole countSent
    split
    all_goals simp only [FieldDie.count_ports, FieldDie.countN_ports]
  rw [portX_of_ports ports, portX_setPortX_self hn]

/-- Only frames and bytes are counted at the counters of what a port has sent (Table 20.2). -/
theorem countSent_cntAt (hq : c.queue < 8) (len : Nat) (f : FieldDie) :
    (countSent c len f).cntAt (cPort c.port 2) = (f.cntAt (cPort c.port 2) + 1) % 2 ^ 64 ∧
      (countSent c len f).cntAt (cPort c.port 3) = (f.cntAt (cPort c.port 3) + len) % 2 ^ 64 := by
  have frames : cPort c.port 2 ≠ cPort c.port 3 := by
    unfold cPort
    omega
  have queues : ∀ j k, j < 4 → k < 4 → cPort c.port j ≠ cQueue c.port c.queue k := by
    unfold cQueue cPort
    omega
  unfold countSent
  constructor
  · rw [FieldDie.cntAt_countN, if_neg (queues 2 1 (by decide) (by decide)), FieldDie.cntAt_count,
      if_neg (queues 2 0 (by decide) (by decide)), FieldDie.cntAt_countN, if_neg frames, FieldDie.cntAt_count, if_pos rfl]
  · rw [FieldDie.cntAt_countN, if_neg (queues 3 1 (by decide) (by decide)), FieldDie.cntAt_count,
      if_neg (queues 3 0 (by decide) (by decide)), FieldDie.cntAt_countN, if_pos rfl, FieldDie.cntAt_count,
      if_neg frames.symm]

theorem sentWhole_cntAt (hq : c.queue < 8) (len : Nat) (f : FieldDie) :
    (sentWhole c.port len c f).cntAt (cPort c.port 2) = (f.cntAt (cPort c.port 2) + 1) % 2 ^ 64 ∧
      (sentWhole c.port len c f).cntAt (cPort c.port 3) = (f.cntAt (cPort c.port 3) + len) % 2 ^ 64 := by
  have freed : ∀ a, (f.setPortX c.port (fun x => { x with sending := none })).cntAt a = f.cntAt a := fun a => rfl
  have fragment : ∀ k, k < 4 → cPort c.port k ≠ cPort c.port 23 := by
    unfold cPort
    omega
  unfold sentWhole
  split
  · obtain ⟨frames, bytes⟩ := countSent_cntAt hq len
      ((f.setPortX c.port (fun x => { x with sending := none })).count (cPort c.port 23))
    rw [frames, bytes, FieldDie.cntAt_count, FieldDie.cntAt_count, if_neg (fragment 2 (by decide)),
      if_neg (fragment 3 (by decide)), freed, freed]
    exact ⟨rfl, rfl⟩
  · exact countSent_cntAt hq len _

theorem chargeSub_sendSame (n q k : Nat) (r : Bool) (f : FieldDie) : SendSame f (chargeSub n q k r f) := by
  refine .ofEq ?_ ?_ (chargeSub_cnt n q k r f)
  all_goals
    unfold chargeSub refreshPool
    dsimp only
    split
  all_goals simp only [FieldDie.put_buf, FieldDie.put_out, FieldDie.wrN_buf, FieldDie.wrN_out]

theorem releaseCopy_sendSame (c : Copy) (f : FieldDie) : SendSame f (releaseCopy c f) := chargeSub_sendSame _ _ _ _ f

/-! ### A copy that has left its port -/

/-- From `f` to `g` port `n` has sent a copy of `len` bytes whole: nothing is on its wire, the copy is counted, and neither
the copies that wait nor what other ports show has moved. -/
structure LeftWhole (n len : Nat) (f g : FieldDie) : Prop where
  same : PortSame n f g
  buf : g.buf = f.buf
  sending : (g.portX n).sending = none
  frames : g.cntAt (cPort n 2) = (f.cntAt (cPort n 2) + 1) % 2 ^ 64
  bytes : g.cntAt (cPort n 3) = (f.cntAt (cPort n 3) + len) % 2 ^ 64

/-- Steps that take nothing off the wire, out of the queues or off the counters keep it so. -/
theorem LeftWhole.send {len : Nat} {h : FieldDie} (a : LeftWhole n len f g) (hn : n < 17) (same : PortSame n g h)
    (send : SendSame g h) (sending : (h.portX n).sending = (g.portX n).sending) : LeftWhole n len f h := by
  have counted : ∀ k, k < 256 → h.cntAt (cPort n k) = g.cntAt (cPort n k) := fun k hk => by
    have below := cPort_lt_cXng hn hk
    exact send.cnt _ below.ne (below.trans (by decide)).ne (below.trans (by decide)).ne
  exact ⟨a.same.trans same, send.buf.trans a.buf, sending.trans a.sending, (counted 2 (by decide)).trans a.frames,
    (counted 3 (by decide)).trans a.bytes⟩

theorem sentWhole_leftWhole (hn : c.port < f.ports.length) (hq : c.queue < 8) (len : Nat) :
    LeftWhole c.port len f (sentWhole c.port len c f) := by
  obtain ⟨frames, bytes⟩ := sentWhole_cntAt hq len f
  exact ⟨(sentWhole_low _ len c f).portSame, sentWhole_buf _ len c f, sentWhole_sending hn len c, frames, bytes⟩

theorem stampedWhole_leftWhole (hn : c.port < f.ports.length) (h17 : c.port < 17) (hq : c.queue < 8) :
    LeftWhole c.port (outBytes c.tag (f.frameOf c.frame).bytes false).length f (stampedWhole c.port phase c f) := by
  have sent := sentWhole_leftWhole hn hq (outBytes c.tag (f.frameOf c.frame).bytes false).length
  unfold stampedWhole
  generalize sentWhole c.port (outBytes c.tag (f.frameOf c.frame).bytes false).length c f = g at sent
  split
  · exact sent
  · refine ⟨sent.same.trans (tsqFrame_low ..).portSame, (tsqFrame_buf ..).trans sent.buf, ?_, ?_, ?_⟩
    · rw [portX_of_ports (tsqFrame_ports ..), sent.sending]
    · rw [tsqFrame_cntAt_port h17 (by decide) (by decide), sent.frames]
    · rw [tsqFrame_cntAt_port h17 (by decide) (by decide), sent.bytes]

/-- The end of an undamaged copy (R462): a port but P16 emits its frame, with a correct FCS. -/
theorem finishCopy_leftWhole (hclean : f.flt.badCells = []) (hs : c.stomped = false) (hn : c.port < f.ports.length)
    (h17 : c.port < 17) (hq : c.queue < 8) :
    LeftWhole c.port (outBytes c.tag (f.frameOf c.frame).bytes false).length f (finishCopy c.port phase c f) ∧
      (c.port ≠ 16 → Output.frame c.port (outBytes c.tag (f.frameOf c.frame).bytes false) ∈
        (finishCopy c.port phase c f).out) := by
  have stamped := stampedWhole_leftWhole (phase := phase) hn h17 hq
  rw [finishCopy_of_clean hclean hs]
  generalize stampedWhole c.port phase c f = g at stamped
  generalize outBytes c.tag (f.frameOf c.frame).bytes false = bs at *
  have released : ∀ x, LeftWhole c.port bs.length f x → LeftWhole c.port bs.length f (releaseCopy c x) := fun x hx =>
    hx.send h17 (releaseCopy_low c x).portSame (releaseCopy_sendSame c x)
      (by rw [portX_of_ports (releaseCopy_ports c x)])
  by_cases h16 : c.port = 16
  · rw [if_pos h16]
    exact ⟨released g stamped, fun h => absurd h16 h⟩
  · rw [if_neg h16]
    have emitted : LeftWhole c.port bs.length f (g.emit (.frame c.port bs)) :=
      stamped.send h17 (emit_low g _).portSame (g.emit_sendSame _) rfl
    exact ⟨released _ emitted, fun _ => (releaseCopy_sendSame c _).out (List.mem_append_right _ (List.mem_singleton_self _))⟩

/-! ### TRANSMIT_END -/

theorem beforeEnd_of_plain (hc : (f.portX n).sending = some c) (hptp : (f.frameOf c.frame).ptp = none) :
    beforeEnd n phase f = f := by
  unfold beforeEnd
  rw [hc]
  dsimp only
  rw [hptp]

theorem afterEnd_of_plain {fr : Frame} (hptp : fr.ptp = none) (ts : Nat) (at_ : Stamp) (f : FieldDie) :
    afterEnd n ts at_ fr f = f := by
  unfold afterEnd
  rw [hptp]

theorem portTransmitEnd_of_received (hn : n < 12 ∨ n = 16) (hc : (f.portX n).sending = some c)
    (hrx : (f.frameOf c.frame).rx = false) (hend : ((finishCopy n phase c f).portX n).sending = none) :
    portTransmitEnd n phase f = if n < 12 then trySleep n (finishCopy n phase c f) else finishCopy n phase c f := by
  have finished : transmitEnd n phase f = finishCopy n phase c f := by
    unfold transmitEnd
    rw [hc]
    dsimp only
    rw [hrx]
    rfl
  have noSegment : ∀ g, ¬ n < 12 → segSent n g = g := fun g h => if_neg (by omega)
  unfold portTransmitEnd
  rw [hc, if_neg (by simp)]
  dsimp only
  rw [finished, if_pos hend]
  split
  · rfl
  next h => exact noSegment _ h

theorem execTransmitEnd_of_plain (hr : s.fld.phase = .running) (hn : n < 17) (hc : (s.fld.portX n).sending = some c)
    (hptp : (s.fld.frameOf c.frame).ptp = none) :
    execTransmitEnd n phase s = .next { s with fld := settle (portTransmitEnd n phase s.fld) } := by
  unfold execTransmitEnd
  rw [State.onItem_running hr hn, hc]
  dsimp only
  rw [beforeEnd_of_plain hc hptp, afterEnd_of_plain hptp, ite_self]

theorem exec_transmitEnd_whole (hr : s.fld.phase = .running) (hshape : Shape s) (hn : n < 12 ∨ n = 16)
    (hc : (s.fld.portX n).sending = some c) (hp : c.port = n) (hq : c.queue < 8) (hs : c.stomped = false)
    (hclean : s.fld.flt.badCells = []) (hrx : (s.fld.frameOf c.frame).rx = false)
    (hptp : (s.fld.frameOf c.frame).ptp = none) :
    ∃ t, exec (.transmitEnd n phase) s = .next t ∧ (t.fld.portX n).sending = none ∧
      (n < 12 → Output.frame n (outBytes c.tag (s.fld.frameOf c.frame).bytes false) ∈ t.fld.out) ∧
      t.fld.cntAt (cPort n 2) = (s.fld.cntAt (cPort n 2) + 1) % 2 ^ 64 ∧
      t.fld.cntAt (cPort n 3) =
        (s.fld.cntAt (cPort n 3) + (outBytes c.tag (s.fld.frameOf c.frame).bytes false).length) % 2 ^ 64 ∧
      t.fld.buf.queued = s.fld.buf.queued ∧ PortFrame n [] s.fld s t := by
  subst hp
  have h17 : c.port < 17 := by omega
  obtain ⟨left, emitted⟩ := finishCopy_leftWhole (phase := phase) hclean hs (by rw [hshape.ports]; exact h17) h17 hq
  have step := execTransmitEnd_of_plain (phase := phase) hr h17 hc hptp
  rw [portTransmitEnd_of_received hn hc hrx left.sending] at step
  generalize finishCopy c.port phase c s.fld = g at *
  generalize outBytes c.tag (s.fld.frameOf c.frame).bytes false = bs at *
  obtain ⟨slept, sending⟩ := trySleep_sendSame c.port g
  have ended : LeftWhole c.port bs.length s.fld (if c.port < 12 then trySleep c.port g else g) := by
    split
    · exact left.send h17 (trySleep_portSame _ g) slept sending
    · exact left
  have out : c.port < 12 → Output.frame c.port bs ∈ (if c.port < 12 then trySleep c.port g else g).out := fun h => by
    rw [if_pos h]
    exact slept.out (emitted (by omega))
  generalize (if c.port < 12 then trySleep c.port g else g) = h at *
  refine ⟨_, step, ?_, fun hlt => settle_mem_out (out hlt), ?_, ?_, ?_, ended.same.frame⟩
  · exact (congrArg PortX.sending (portX_of_ports (settle_ports h) _)).trans ended.sending
  · exact (settle_cntAt_port h h17 (by decide)).trans ended.frames
  · exact (settle_cntAt_port h h17 (by decide)).trans ended.bytes
  · exact (settle_queued h).trans (congrArg BufX.queued ended.buf)

/-- Settles O35: a start and a preemption by what the purge, the payment and the copy's own move change in turn; an end by
the steps that follow the copy off the wire, none of which takes back what it has moved. -/
theorem transmissionOfACopy : Obligations.TransmissionOfACopy := by
  unfold Obligations.TransmissionOfACopy
  exact ⟨fun _ _ _ => exec_transmitStart_free, fun _ _ _ _ => exec_transmitStart_express,
    fun _ _ _ _ => exec_transmitEnd_whole⟩

end Sys2Proof.Machine
end

section
/-! What a step does with the queue (O1, O2), and that every command answers a next state with the queue as it was (O3). -/

namespace Sys2Proof.Machine

variable {s : State}

/-! ### The front command -/

/-- Settles O1: with a command at the front, the step is that command's meaning on the rest of the queue. -/
theorem stepRunsTheFrontCommand : Obligations.StepRunsTheFrontCommand := by
  unfold Obligations.StepRunsTheFrontCommand
  intro c s
  rfl

/-- Settles O2: with nothing waiting, the step answers the state itself. -/
theorem emptyQueueIdles : Obligations.EmptyQueueIdles := by
  unfold Obligations.EmptyQueueIdles
  intro s hs
  unfold step
  rw [hs]

/-! ### A next state with the queue as it was, by the way a command acts -/

/-- A next state is answered, whose queue is that of `s`. -/
def Answers (s : State) (o : Host.Outcome State Fault Refusal) : Prop := ∃ t, o = .next t ∧ t.pending = s.pending

theorem Answers.next {t : State} (h : t.pending = s.pending) : Answers s (.next t) := ⟨t, rfl, h⟩

theorem Answers.self : Answers s (.next s) := .next rfl

theorem answers_ite {c : Prop} [Decidable c] {o p : Host.Outcome State Fault Refusal} :
    Answers s (if c then o else p) ↔ (c → Answers s o) ∧ (¬c → Answers s p) := by
  split
  all_goals simp_all

theorem State.onField_answers (g : FieldDie → FieldDie) : Answers s (s.onField g) := .next rfl

theorem State.onHost_answers (g : HostDie → HostDie) : Answers s (s.onHost g) := .next rfl

theorem State.onLink_answers (l : LinkId) (gf gt : FieldDie → FieldDie) (gh : HostDie → HostDie) :
    Answers s (s.onLink l gf gt gh) := by
  cases l
  all_goals exact .next rfl

theorem State.onPtb_answers (host : Bool) (req fa ha data : Nat) : Answers s (s.onPtb host req fa ha data) := by
  cases host
  all_goals exact .next rfl

/-- A stop of the fabric, also of a die that has first become another. -/
theorem State.fabricStops_answers {s' : State} (h : s'.pending = s.pending) (g : FieldDie → FieldDie) :
    Answers s (s'.fabricStops g) := .next h

theorem State.fieldReset_answers {s' : State} (h : s'.pending = s.pending) (bit : Nat) : Answers s (s'.fieldReset bit) :=
  .next h

theorem State.resetIf_answers {s' : State} (h : s'.pending = s.pending) (seen : Bool) (bit : Nat) :
    Answers s (s'.resetIf seen bit) := by
  cases seen
  all_goals exact .next h

theorem State.onAccess_answers (g : FieldDie → FieldDie) : Answers s (s.onAccess g) :=
  answers_ite.2 ⟨fun _ => .next rfl, fun _ => .next rfl⟩

theorem State.keyMayStop_answers (g : FieldDie → FieldDie) : Answers s (s.keyMayStop g) :=
  answers_ite.2 ⟨fun _ => .next rfl, fun _ => .next rfl⟩

/-! ### The commands that act in a way of their own -/

theorem execPinReset_answers (lowNs : Nat) : Answers s (execPinReset lowNs s) :=
  answers_ite.2 ⟨fun _ => answers_ite.2 ⟨fun _ => State.fieldReset_answers rfl 1, fun _ =>
    answers_ite.2 ⟨fun _ => .self, fun _ => State.resetIf_answers rfl _ 1⟩⟩, fun _ => .next rfl⟩

theorem execPowerGoodReset_answers (lowNs : Nat) : Answers s (execPowerGoodReset lowNs s) :=
  answers_ite.2 ⟨fun _ => answers_ite.2 ⟨fun _ => State.fieldReset_answers rfl 2, fun _ =>
    answers_ite.2 ⟨fun _ => .self, fun _ => State.resetIf_answers rfl _ 2⟩⟩, fun _ => .next rfl⟩

theorem execSoftwareReset_answers (req : Nat) (data : Word) : Answers s (execSoftwareReset req data s) :=
  answers_ite.2 ⟨fun _ => State.fieldReset_answers rfl 3, fun _ => .self⟩

theorem execVddSlLoss_answers (mv : Nat) : Answers s (execVddSlLoss mv s) := by
  unfold execVddSlLoss
  split_ifs
  all_goals exact .next rfl

theorem execColdReset_answers : Answers s (execColdReset s) := answers_ite.2 ⟨fun _ => .self, fun _ => .next rfl⟩

theorem execDarkPointOfNoReturn_answers : Answers s (execDarkPointOfNoReturn s) :=
  answers_ite.2 ⟨fun _ => State.fabricStops_answers rfl darkroom, fun _ => .self⟩

theorem execFlashOperationDone_answers : Answers s (execFlashOperationDone s) :=
  answers_ite.2 ⟨fun _ => .next rfl, fun _ => .next rfl⟩

theorem execFlashOperationTimeout_answers : Answers s (execFlashOperationTimeout s) :=
  answers_ite.2 ⟨fun _ => .next rfl, fun _ => .next rfl⟩

theorem execInventory_answers (others : Nat) : Answers s (execInventory others s) :=
  answers_ite.2 ⟨fun _ => answers_ite.2 ⟨fun _ => .next rfl, fun _ => .next rfl⟩, fun _ => .self⟩

theorem execLoadBuffer_answers (off : Nat) (data : List Byte) : Answers s (execLoadBuffer off data s) :=
  answers_ite.2 ⟨fun _ => .next rfl, fun _ => .self⟩

theorem execVerifySlot_answers (slot size : Nat) : Answers s (execVerifySlot slot size s) :=
  answers_ite.2 ⟨fun _ => .next rfl, fun _ => .self⟩

theorem execProgramPage_answers (txn slot page crc : Nat) : Answers s (execProgramPage txn slot page crc s) :=
  answers_ite.2 ⟨fun _ => .self, fun _ => answers_ite.2 ⟨fun _ => .next rfl, fun _ =>
    answers_ite.2 ⟨fun _ => .next rfl, fun _ => .next rfl⟩⟩⟩

theorem execWritePointer_answers (txn ptr : Nat) (data : List Byte) : Answers s (execWritePointer txn ptr data s) :=
  answers_ite.2 ⟨fun _ => .self, fun _ => answers_ite.2 ⟨fun _ => .next rfl, fun _ => .next rfl⟩⟩

theorem execKeyReply_answers : Answers s (execKeyReply s) := by
  unfold execKeyReply
  split
  · exact answers_ite.2 ⟨fun _ => .next rfl, fun _ => .self⟩
  · exact .self

theorem execKeyReplyTimeout_answers : Answers s (execKeyReplyTimeout s) :=
  answers_ite.2 ⟨fun _ => .next rfl, fun _ => answers_ite.2 ⟨fun _ => State.keyMayStop_answers _, fun _ => .self⟩⟩

theorem execWatchdog_answers (inst : Nat) : Answers s (execWatchdog inst s) :=
  answers_ite.2 ⟨fun _ => State.keyMayStop_answers _, fun _ => .self⟩

theorem execScrubPass_answers : Answers s (execScrubPass s) := State.keyMayStop_answers _

theorem execRegisterWrite_answers (req addr be : Nat) (data : Word) : Answers s (execRegisterWrite req addr be data s) := by
  unfold execRegisterWrite
  split
  · exact State.onAccess_answers _
  · split_ifs
    all_goals exact State.onHost_answers _

theorem execTsqPop_answers (req addr : Nat) : Answers s (execTsqPop req addr s) :=
  answers_ite.2 ⟨fun _ => State.onField_answers _, fun _ => State.onHost_answers _⟩

theorem execInterruptModeration_answers (qp cause : Nat) : Answers s (execInterruptModeration qp cause s) :=
  answers_ite.2 ⟨fun _ => State.onHost_answers _, fun _ => State.onField_answers _⟩

theorem execRetrain_answers (l : LinkId) (req : Nat) (data : Word) : Answers s (execRetrain l req data s) := by
  cases l
  all_goals exact .next rfl

theorem execPtbLifetimeExpiry_answers (host : Bool) : Answers s (execPtbLifetimeExpiry host s) := by
  cases host
  all_goals exact .next rfl

theorem execHostResetRelease_answers : Answers s (execHostResetRelease s) :=
  answers_ite.2 ⟨fun _ => .next rfl, fun _ => .self⟩

/-! ### Every command -/

/-- Every command answers: by the shared operation through which it acts, or by its own lemma. The last line is every
command that acts through `onField` or `onHost`. -/
theorem exec_answers (c : Instr) : Answers s (exec c s) := by
  cases c with
  | pinReset => exact execPinReset_answers _
  | powerGoodReset => exact execPowerGoodReset_answers _
  | softwareReset => exact execSoftwareReset_answers _ _
  | vddSlLoss => exact execVddSlLoss_answers _
  | coldReset => exact execColdReset_answers
  | darkPointOfNoReturn => exact execDarkPointOfNoReturn_answers
  | flashOperationDone => exact execFlashOperationDone_answers
  | flashOperationTimeout => exact execFlashOperationTimeout_answers
  | inventory => exact execInventory_answers _
  | loadBuffer => exact execLoadBuffer_answers _ _
  | verifySlot => exact execVerifySlot_answers _ _
  | programPage => exact execProgramPage_answers _ _ _ _
  | writePointer => exact execWritePointer_answers _ _ _
  | keyReply => exact execKeyReply_answers
  | keyReplyTimeout => exact execKeyReplyTimeout_answers
  | watchdog => exact execWatchdog_answers _
  | scrubPass => exact execScrubPass_answers
  | regw | write => exact State.onAccess_answers _
  | registerWrite => exact execRegisterWrite_answers _ _ _ _
  | tsqPop => exact execTsqPop_answers _ _
  | interruptModeration => exact execInterruptModeration_answers _ _
  | retrain => exact execRetrain_answers _ _ _
  | ptbLifetimeExpiry => exact execPtbLifetimeExpiry_answers _
  | ptbArm | ptbLane | ptbAck | ptbEcc => exact State.onPtb_answers _ _ _ _ _
  | hostResetRelease => exact execHostResetRelease_answers
  | flowUnitReceive | ackSend | replayTimeout | laneFailure | spareReceive | spareRepeat | spareDataSeen
  | trainingLanePhase | trainingRestart | trainReceive | trainEchoReceive | crossingTrainingComplete | data =>
    exact State.onLink_answers _ _ _ _
  | _ => exact .next rfl

/-- Settles O3: each command's outcome is a next state, by the way in which it acts. -/
theorem everyCommandAnswersANextState : Obligations.EveryCommandAnswersANextState := by
  unfold Obligations.EveryCommandAnswersANextState
  exact fun c s => exec_answers c

end Sys2Proof.Machine
end

section
/-! The state after reset (O7): every store and every queue of it is empty, and every list has its default length. -/

namespace Sys2Proof.Machine

theorem reset_memoriesCanonical : MemoriesCanonical State.reset :=
  ⟨Store.wf_nil _, Store.wf_nil _, Store.wf_nil _, Store.wf_nil _⟩

theorem reset_shape : Shape State.reset := by
  constructor
  all_goals rfl

/-- Settles O7: with nothing written since reset, a register of either die is its reset value. -/
theorem resetMeetsTheInvariants : Obligations.ResetMeetsTheInvariants := by
  unfold Obligations.ResetMeetsTheInvariants
  exact ⟨reset_memoriesCanonical, reset_shape, rfl, rfl, rfl, rfl, fun _ => rfl, fun _ => rfl⟩

end Sys2Proof.Machine
end


section
/-! The refutations of O48 and O49: a record's trailer unit is timed too, and an end that has never been up reports no new
boot count. -/

namespace Sys2Proof.Machine

/-- A unit of the twin link that ends a record (Table 15.3): type 9, kind 15, all else 0. -/
def trailerBytes : List Byte := [0, 0, 0, 0x9F] ++ List.replicate 60 0

/-- The twin link is up and expects the trailer's number; at time 0 the last record's end is noted at 1 ns. -/
def trailerExpected : State :=
  { fld :=
    { phase := .running
      twin := { phase := 3, expect := unitSeed trailerBytes }
      twn := { recEnd := 1 } } }

/-- The trailer's arrival is noted at once (R652). -/
theorem twinReceive_times_trailer : (twinReceive trailerBytes trailerExpected.fld).twn.recEnd = 0 := by
  decide +kernel

/-- Refutes O48, by its clause of a unit under the expected number: at the twin link's end the arrival of a record's trailer
unit is timed as well as that of its header (R652), and the frame leaves room for the header's alone. -/
theorem not_linkEndsReceive : ¬ Obligations.LinkEndsReceive := by
  unfold Obligations.LinkEndsReceive
  rintro ⟨received, -⟩
  obtain ⟨t, ht, -, -, -, -, -, -, hframe, -⟩ := received trailerExpected .twin trailerBytes rfl (by decide +kernel) rfl rfl rfl
    rfl (by decide +kernel) (by decide +kernel)
  have hkept : t.fld.twn.recEnd = trailerExpected.fld.twn.recEnd := congrArg (fun f => f.twn.recEnd) hframe.rest
  obtain rfl := next_unique ht (State.onRun_running (g := twinReceive trailerBytes) rfl)
  dsimp only at hkept
  rw [settle_twn, twinReceive_times_trailer] at hkept
  exact absurd hkept (by decide)

/-- The Crossing's host end trains for the first time, and has the peer's TRAIN, of boot count 1, and its echo. -/
def firstTraining : State :=
  { hst := { inReset := false, xng := { phase := 2, fresh := false, peerTrain := some (false, 1, 0, 0), echoed := true } } }

theorem firstTraining_shape : Shape firstTraining := by
  constructor
  all_goals rfl

/-- Refutes O49, by its clause of completed training at the host end: an end that is not fresh but has never been up has
seen no boot count before, and raises no flag for the first one (R182). -/
theorem not_lanesAreSparedAndLinksTrain : ¬ Obligations.LanesAreSparedAndLinksTrain := by
  unfold Obligations.LanesAreSparedAndLinksTrain
  rintro ⟨-, -, -, -, -, -, -, -, complete, -⟩
  obtain ⟨t, ht, -, -, -, -, -, -, -, -, hnews, -⟩ := complete firstTraining .host false 1 0 0 rfl firstTraining_shape rfl rfl rfl
  obtain ⟨-, -, hboot⟩ := hnews rfl
  obtain ⟨hraised, -⟩ := hboot rfl (by decide +kernel)
  obtain rfl := next_unique ht (u := _) rfl
  exact absurd hraised (by decide +kernel)

end Sys2Proof.Machine
end


section
/-! The clocks of the host die (O41) and its pins (O58): neither holds of every state, each by a clause of the host die that
does not ask that the frame being sent names an engine that exists (`strayEngineHost`). -/

namespace Sys2Proof.Machine

/-! ### The correlation snapshot (O41) -/

/-- The last pair of the Crossing holds 5 ns, and the frame names the engine whose running value would stand at
H_TSQ_CORR_SYS_NS. -/
def correlatedState : State := { hst := { strayEngineHost 0x90 with corrSys := (5, 0) } }

theorem correlated_register : H_CHK_RUN_LO 0x90 = H_TSQ_CORR_SYS_NS := rfl

theorem correlated_time_lost :
    (settleHost (corrSnap (1 : Word).toNat correlatedState.hostNow)).rd H_TSQ_CORR_SYS_NS ≠ word (nsOf correlatedState.hst.corrSys.1) := by
  decide +kernel

/-- Refutes O41, by its clause of the correlation snapshot: the nanoseconds of the pair are not in their register
afterwards where the frame that ends with the command names an engine beyond the eight. -/
theorem not_timestampQueuesAndTimeMessages : ¬ Obligations.TimestampQueuesAndTimeMessages := by
  unfold Obligations.TimestampQueuesAndTimeMessages
  rintro ⟨-, -, -, -, -, -, -, snap⟩
  obtain ⟨t, ht, hns, -⟩ := snap correlatedState 1 rfl rfl
  obtain rfl := next_unique ht (State.onHost_of_out rfl)
  exact correlated_time_lost hns

/-! ### An edge at a host pin (O58) -/

/-- A rising edge of host pin 0 is selected, and the frame names the engine whose finished value would stand at H_PIN_EVT. -/
def hostEdgeState : State := { hst := { strayEngineHost 0x103 with reg := [(H_PIN_EDGE_CFG, 1)] } }

theorem hostEdge_register : H_CHK_FIN_HI 0x103 = H_PIN_EVT := rfl

theorem hostEdge_selected :
    edgeSelected (bitsOf (hostEdgeState.hst.rdN H_PIN_EDGE_CFG) (2 * 0 + 1) (2 * 0)) true = true := by decide +kernel

theorem hostEdge_event_lost : hasBit ((settleHost (hostPinEdge 0 true hostEdgeState.hostNow)).rdN H_PIN_EVT) 0 = false := by
  decide +kernel

/-- Refutes O58, by its clause of an edge at a host pin: the event selected is not there afterwards where the frame that
ends with the command names an engine beyond the eight. -/
theorem not_pinsAndPairs : ¬ Obligations.PinsAndPairs := by
  unfold Obligations.PinsAndPairs
  rintro ⟨-, -, -, hostEdge, -⟩
  obtain ⟨t, ht, -, hevent, -⟩ := hostEdge hostEdgeState 0 true rfl (by decide)
  obtain rfl := next_unique ht (State.onHost_of_out (g := fun h => if 0 < 16 then hostPinEdge 0 true h else h) rfl)
  have lost := (hevent hostEdge_selected).symm.trans hostEdge_event_lost
  cases lost

end Sys2Proof.Machine
end


section
/-! Flash operations (O26): what an erase, a program and an operation cut off by its time-out leave in the flash, and how the
resume write goes on (R755, R756). -/

namespace Sys2Proof.Machine

variable {f g : FieldDie} {s : State} {m : List (Nat × Byte)} {a x : Nat}

/-! ### The flash after an operation -/

theorem flashErase_get (a n x : Nat) (m : List (Nat × Byte)) : Store.get (fun _ => 0xFF) (flashErase a n m) x =
    if a ≤ x ∧ x < a + n then 0xFF else Store.get (fun _ => 0xFF) m x := by
  have left := Store.get_filter (fun _ => (0xFF : Byte)) (fun k => !(decide (a ≤ k) && decide (k < a + n))) m x
  refine left.trans ?_
  by_cases inside : a ≤ x ∧ x < a + n
  · rw [if_pos inside, if_neg]
    simpa using inside
  · rw [if_neg inside, if_pos]
    simp only [Bool.not_eq_eq_eq_not, Bool.not_true, Bool.and_eq_false_iff, decide_eq_false_iff_not]
    omega

theorem eraseUnit_pos (f : FieldDie) : 0 < eraseUnit f := by
  unfold eraseUnit
  split <;> decide

/-- The unit of an address is the addresses of its quotient. -/
theorem unit_iff {u : Nat} (hu : 0 < u) (a x : Nat) : (a / u * u ≤ x ∧ x < a / u * u + u) ↔ x / u = a / u := by
  have below := Nat.div_mul_le_self x u
  have above := Nat.lt_div_mul_add hu (a := x)
  constructor
  · rintro ⟨hle, hlt⟩
    refine le_antisymm ?_ ?_
    · exact Nat.lt_succ_iff.1 ((Nat.div_lt_iff_lt_mul hu).2 (by rwa [Nat.succ_mul]))
    · exact (Nat.le_div_iff_mul_le hu).2 hle
  · intro h
    rw [← h]
    exact ⟨below, above⟩

theorem imagePage_length (img : List Byte) (o : Nat) : (imagePage img o).length = 256 := by
  unfold imagePage
  rw [List.length_take, List.length_append, List.length_replicate]
  omega

theorem imagePage_getD {i : Nat} (hi : i < 256) (img : List Byte) (o : Nat) : (imagePage img o).getD i 0 = img.getD (o + i) 0xFF := by
  have page : (imagePage img o)[i]? = some (img.getD (o + i) 0xFF) := by
    unfold imagePage
    rw [List.getElem?_take, if_pos hi, List.getElem?_append, List.getElem?_take, List.getElem?_drop, List.getElem?_replicate,
      List.length_take, List.length_drop, List.getD_eq_getElem?_getD]
    by_cases hin : o + i < img.length
    · rw [if_pos (by omega), if_pos hi, List.getElem?_eq_getElem hin]
      rfl
    · rw [if_neg (by omega), if_pos (by omega), List.getElem?_eq_none (by omega)]
      rfl
  rw [List.getD_eq_getElem?_getD, page]
  rfl

theorem flashApplied_erase (h : f.spi.flash = 1) (m : List (Nat × Byte)) (x : Nat) :
    Store.get (fun _ => 0xFF) (flashApplied f m) x =
      if x / eraseUnit f = resumeAddr f f.spi.flashAt / eraseUnit f then 0xFF else Store.get (fun _ => 0xFF) m x := by
  unfold flashApplied
  rw [if_pos h, flashErase_get]
  exact if_congr (unit_iff (eraseUnit_pos f) _ _) rfl rfl

theorem flashApplied_program (h : f.spi.flash = 2) (m : List (Nat × Byte)) (x : Nat) :
    Store.get (fun _ => 0xFF) (flashApplied f m) x =
      if resumeAddr f f.spi.flashAt ≤ x ∧ x < resumeAddr f f.spi.flashAt + 256 then
        f.spi.image.getD (f.spi.flashAt + (x - resumeAddr f f.spi.flashAt)) 0xFF
      else Store.get (fun _ => 0xFF) m x := by
  unfold flashApplied
  rw [if_neg (by rw [h]; decide), if_pos h, flashStore_get, imagePage_length]
  refine ite_congr rfl (fun inside => ?_) fun _ => rfl
  rw [imagePage_getD (by omega)]

/-! ### How the write goes on -/

theorem isRunning_of_phase (hr : f.phase = .running) : f.isRunning = true := by
  unfold FieldDie.isRunning
  rw [hr]
  rfl

theorem exec_flashOperationDone (hr : s.fld.phase = .running) (h : s.fld.spi.flash ≠ 0) :
    exec .flashOperationDone s = .next { s with
      fld := settle (flashNext (flashApplied s.fld s.flash) s.fld), flash := flashApplied s.fld s.flash } := by
  have hexec : exec .flashOperationDone s = execFlashOperationDone s := rfl
  rw [hexec]
  unfold execFlashOperationDone
  rw [if_pos ⟨isRunning_of_phase hr, h⟩]

/-- The die that has read the flash's status. -/
def statusRead (f : FieldDie) : FieldDie := f.emit (.flash (f.get F_SPI_MFLASH1_rdsr_op) 0 [])

theorem flashNext_of_erase (h : f.spi.flash = 1) (hre : f.spi.restart = false) (m : List (Nat × Byte)) :
    flashNext m f = if f.spi.flashAt + eraseUnit f < imageMax then sendErase (f.spi.flashAt + eraseUnit f) (statusRead f)
      else sendProgram 0 (statusRead f) := by
  have next : flashNext m f =
      if f.spi.restart then
        if f.spi.image = [] then
          { statusRead f with spi := { (statusRead f).spi with flash := 0, restart := false } }.put F_SPI_STAT_flash_busy 0
        else sendErase 0 { statusRead f with spi := { (statusRead f).spi with restart := false } }
      else if f.spi.flash = 1 then
        if f.spi.flashAt + eraseUnit f < imageMax then sendErase (f.spi.flashAt + eraseUnit f) (statusRead f)
        else sendProgram 0 (statusRead f)
      else if f.spi.flash = 2 then
        if f.spi.flashAt + 256 < f.spi.image.length then sendProgram (f.spi.flashAt + 256) (statusRead f)
        else resumeVerify m (statusRead f)
      else statusRead f := rfl
  rw [next, hre, if_neg Bool.false_ne_true, if_pos h]

theorem sendErase_spi (o : Nat) (f : FieldDie) : (sendErase o f).spi.flash = 1 ∧ (sendErase o f).spi.flashAt = o := ⟨rfl, rfl⟩

theorem sendProgram_spi (o : Nat) (f : FieldDie) : (sendProgram o f).spi.flash = 2 ∧ (sendProgram o f).spi.flashAt = o := ⟨rfl, rfl⟩

/-! ### The time-out (R756) -/

/-- From where, and how many, bytes a running operation can change. -/
def flashReach (f : FieldDie) : Nat × Nat :=
  if f.spi.flash = 1 then (resumeAddr f f.spi.flashAt / eraseUnit f * eraseUnit f, eraseUnit f)
  else (resumeAddr f f.spi.flashAt, 256)

theorem exec_flashOperationTimeout (hr : s.fld.phase = .running) (hl : flashLate s.fld = true) :
    exec .flashOperationTimeout s = .next { s with
      fld := settle (resumeFailed (freeBytes (flashReach s.fld).2 s.fld).2)
      flash := flashStore (flashReach s.fld).1 (freeBytes (flashReach s.fld).2 s.fld).1 s.flash } := by
  have hexec : exec .flashOperationTimeout s = execFlashOperationTimeout s := rfl
  rw [hexec]
  unfold execFlashOperationTimeout
  rw [if_pos ⟨isRunning_of_phase hr, hl⟩]
  rfl

/-- Bytes that the running operation does not reach are as before (R756). -/
theorem flashStore_outside {bs : List Byte} (hbs : bs.length = (flashReach f).2)
    (unit : f.spi.flash = 1 → x / eraseUnit f ≠ resumeAddr f f.spi.flashAt / eraseUnit f)
    (page : f.spi.flash ≠ 1 → x < resumeAddr f f.spi.flashAt ∨ resumeAddr f f.spi.flashAt + 256 ≤ x) :
    Store.get (fun _ => 0xFF) (flashStore (flashReach f).1 bs m) x = Store.get (fun _ => 0xFF) m x := by
  rw [flashStore_get, hbs]
  unfold flashReach
  by_cases erasing : f.spi.flash = 1
  · rw [if_pos erasing, if_neg]
    exact fun inside => unit erasing ((unit_iff (eraseUnit_pos f) _ _).1 inside)
  · rw [if_neg erasing, if_neg]
    have := page erasing
    dsimp only
    omega

theorem resumeFailed_shown (f : FieldDie) : (resumeFailed f).get F_PWR_STATE_resume_stat = 3 ∧
    (resumeFailed f).get F_SPI_STAT_flash_busy = 0 ∧ (resumeFailed f).spi.flash = 0 ∧ (resumeFailed f).sq F_PWR_EVT 6 = true := by
  unfold resumeFailed setResume
  dsimp only
  refine ⟨?_, ?_, ?_, FieldDie.raise_sq _ _ _ (by decide) (by decide)⟩
  · rw [FieldDie.get_raise_ne _ (by decide) (by decide), FieldDie.get_put _ _ _ (by decide) (by decide)]
    rfl
  · rw [FieldDie.get_raise_ne _ (by decide) (by decide), FieldDie.get_put_addr _ _ _ _ (by decide),
      FieldDie.get_put _ _ _ (by decide) (by decide)]
    rfl
  · exact congrArg (fun g => g.spi.flash) (FieldDie.raise_core _ _ _)

/-! ### The obligation -/

/-- Settles O26: what a completed operation stores is `flashApplied`'s, what follows it `flashNext`'s; one cut off by its
time-out stores open bytes in its reach only. -/
theorem flashOperations : Obligations.FlashOperations := by
  unfold Obligations.FlashOperations
  refine ⟨fun s a hr h => ?_, fun s a hr h => ?_, fun s hr h late => ?_⟩
  · refine ⟨_, exec_flashOperationDone hr (by rw [h]; decide), rfl, rfl, rfl, fun hre => ?_, flashApplied_erase h s.flash a⟩
    dsimp only
    rw [settle_spi, flashNext_of_erase h hre]
    change if s.fld.spi.flashAt + eraseUnit s.fld < imageMax then _ else _
    split
    · exact sendErase_spi _ _
    · exact sendProgram_spi _ _
  · exact ⟨_, exec_flashOperationDone hr (by rw [h]; decide), rfl, rfl, rfl, flashApplied_program h s.flash a⟩
  · have busy : flashLate s.fld = true := by
      unfold flashLate flashLimit
      obtain h | h := h <;> simpa [h] using late
    obtain ⟨hstat, hbusy, hflash, hevt⟩ := resumeFailed_shown (freeBytes (flashReach s.fld).2 s.fld).2
    refine ⟨_, exec_flashOperationTimeout hr busy, ?_, ?_, ?_, ?_, rfl, rfl, rfl, fun a unit page => ?_⟩
    · exact (settle_get_of_notMem (by decide)).trans hstat
    · exact (settle_get_of_notMem (by decide)).trans hbusy
    · dsimp only
      rwa [settle_spi]
    · exact (settle_sq_of_notMem (by decide)).trans hevt
    · refine flashStore_outside (freeBytes_length _ _) unit fun notErase => page ?_
      exact h.resolve_left notErase

end Sys2Proof.Machine
end


section
/-! What a latched fault moves (R803, R806 to R809): its flag, its log entry, messages, and with them the role. -/

namespace Sys2Proof.Machine

variable {f g h : FieldDie} {code inst a : Nat}

/-! ### Repetitions -/

theorem forRange_succ {σ : Type} (n : Nat) (k : Nat → σ → σ) (x : σ) : forRange (n + 1) k x = k n (forRange n k x) := by
  unfold forRange
  rw [List.range_succ, List.foldl_append]
  rfl

/-- What each step keeps, all of them keep. -/
theorem forRange_keeps {σ : Type} {P : σ → Prop} {n : Nat} {k : Nat → σ → σ} (hk : ∀ i x, i < n → P x → P (k i x)) {x : σ}
    (hx : P x) : P (forRange n k x) := by
  induction n with
  | zero => exact hx
  | succ n ih =>
    rw [forRange_succ]
    exact hk n _ (Nat.lt_succ_self n) (ih fun i x hi => hk i x (hi.trans (Nat.lt_succ_self n)))

/-- What step `i` sets, under something that the steps before it keep, and the steps after it keep. -/
theorem forRange_sets {σ : Type} {P Q : σ → Prop} {n i : Nat} {k : Nat → σ → σ} (hi : i < n)
    (keeps : ∀ j x, j < n → j ≠ i → P x → P (k j x)) (sets : ∀ x, P x → Q (k i x))
    (stays : ∀ j x, j < n → j ≠ i → Q x → Q (k j x)) {x : σ} (hx : P x) : Q (forRange n k x) := by
  induction n with
  | zero => omega
  | succ n ih =>
    rw [forRange_succ]
    obtain rfl | hlt : i = n ∨ i < n := by omega
    · refine sets _ (forRange_keeps (fun j y hj => keeps j y (by omega) hj.ne) hx)
    · exact stays n _ (Nat.lt_succ_self n) hlt.ne'
        (ih hlt (fun j y hj => keeps j y (by omega)) (fun j y hj => stays j y (by omega)))

/-- As `forRange_keeps`, over a list. -/
theorem forAll_keeps {α σ : Type} {P : σ → Prop} {xs : List α} {k : α → σ → σ} (hk : ∀ y ∈ xs, ∀ x, P x → P (k y x)) {x : σ}
    (hx : P x) : P (forAll xs k x) := by
  unfold forAll
  induction xs generalizing x with
  | nil => exact hx
  | cons y ys ih => exact ih (fun z hz => hk z (List.mem_cons_of_mem y hz)) (hk y List.mem_cons_self x hx)

/-! ### The registers of a fault -/

/-- The registers that a latched fault can move beside its flag: the log, the role and the segments that it silences, the twin
link's events, and losses of messages. -/
def logReg (a : Nat) : Prop :=
  a = F_FLT_LOGPTR ∨ (0x060100 ≤ a ∧ a < 0x060200) ∨ (0x120020 ≤ a ∧ a < 0x120400) ∨ a = F_TWN_STAT ∨
    a = F_TWN_EVT ∨ a = F_XNG_EVT

/-- From `f` to `g` a fault whose flag is set has been logged and has acted on the role: of the registers only those of a fault have moved, of the counters only the links',
and frames and copies stand. -/
structure FaultMoves (f g : FieldDie) : Prop where
  send : SendSame f g
  regs : ∀ a, ¬ logReg a → g.rd a = f.rd a
  pin : g.pin = f.pin
  ports : g.ports = f.ports
  gates : g.gates = f.gates
  tim : g.tim = f.tim

theorem FaultMoves.refl (f : FieldDie) : FaultMoves f f := ⟨.refl f, fun _ _ => rfl, rfl, rfl, rfl, rfl⟩

theorem FaultMoves.trans (m : FaultMoves f g) (n : FaultMoves g h) : FaultMoves f h :=
  ⟨m.send.trans n.send, fun a ha => (n.regs a ha).trans (m.regs a ha), n.pin.trans m.pin, n.ports.trans m.ports,
    n.gates.trans m.gates, n.tim.trans m.tim⟩

/-- A step that leaves registers, counters and everything that moves frames as they are. -/
theorem FaultMoves.ofEq (hs : SendSame f g) (hr : g.reg = f.reg) (hp : g.pin = f.pin) (hx : g.ports = f.ports)
    (hg : g.gates = f.gates) (ht : g.tim = f.tim) : FaultMoves f g :=
  ⟨hs, fun _ _ => FieldDie.rd_eq hr _, hp, hx, hg, ht⟩

theorem FieldDie.wrN_faultMoves (ha : logReg a) (f : FieldDie) (v : Nat) : FaultMoves f (f.wrN a v) :=
  ⟨.ofEq rfl rfl rfl, fun b hb => by rw [FieldDie.rd_wrN, if_neg fun (e : b = a) => hb (e ▸ ha)], rfl, rfl, rfl, rfl⟩

theorem FieldDie.put_faultMoves {r : Fld} (hr : logReg r.addr) (f : FieldDie) (v : Nat) : FaultMoves f (f.put r v) :=
  f.wrN_faultMoves hr _

theorem FieldDie.queueEvt_faultMoves (f : FieldDie) (u : FlowUnit) : FaultMoves f (f.queueEvt u) :=
  ⟨f.queueEvt_sendSame u, fun a ha => f.queueEvt_rd u a fun e => ha (by simp [logReg, e]), f.queueEvt_pin u, f.queueEvt_ports u,
    f.queueEvt_gates u, f.queueEvt_tim u⟩

theorem FieldDie.raise_faultMoves (ha : logReg a) (f : FieldDie) (bit : Nat) : FaultMoves f (f.raise a bit) :=
  (f.wrN_faultMoves ha _).trans (FieldDie.queueEvt_faultMoves _ _)

theorem faultMoves_ite {c : Prop} [Decidable c] (hg : FaultMoves f g) (hh : FaultMoves f h) : FaultMoves f (if c then g else h) := by
  split
  · exact hg
  · exact hh

theorem logReg_mdsStat {n : Nat} (hn : n < 4) : logReg (F_MDS_STAT n) := by
  unfold logReg F_MDS_STAT
  omega

/-! ### The role (R656, R809) -/

theorem setRole_faultMoves (r : Nat) (f : FieldDie) : FaultMoves f (setRole r f) := by
  refine faultMoves_ite ?_ (.refl f)
  have shown : FaultMoves f (f.napBreak.put F_TWN_STAT_role r) :=
    FaultMoves.trans (g := f.napBreak) (.ofEq (.ofEq rfl rfl rfl) rfl rfl rfl rfl rfl)
      (FieldDie.put_faultMoves (.inr (.inr (.inr (.inl rfl)))) _ _)
  exact forRange_keeps (P := FaultMoves f) (fun n g hn m => m.trans (g.put_faultMoves (logReg_mdsStat hn) _)) shown

theorem enterFailed_faultMoves (f : FieldDie) : FaultMoves f (enterFailed f) := by
  have unsynced : FaultMoves f { f with twn := { f.twn with syncedAt := none, recDue := false } } :=
    .ofEq (.ofEq rfl rfl rfl) rfl rfl rfl rfl rfl
  exact (unsynced.trans (setRole_faultMoves 4 _)).trans (.ofEq (.ofEq rfl rfl rfl) rfl rfl rfl rfl rfl)

theorem FieldDie.eq_of_core {β : Type} (p : FieldDie → β) (hp : ∀ x, p x.core = p x) (e : g.core = f.core) : p g = p f := by
  rw [← hp g, ← hp f, e]

theorem postTwin_faultMoves (u : FlowUnit) (f : FieldDie) : FaultMoves f (postTwin u f) := by
  refine faultMoves_ite ?_ (.ofEq (.ofEq rfl rfl rfl) rfl rfl rfl rfl rfl)
  have core := f.sendTwin_core u
  exact .ofEq (f.sendTwin_sendSame u) (f.sendTwin_reg u) (FieldDie.eq_of_core FieldDie.pin (fun _ => rfl) core)
    (FieldDie.eq_of_core FieldDie.ports (fun _ => rfl) core) (FieldDie.eq_of_core FieldDie.gates (fun _ => rfl) core)
    (FieldDie.eq_of_core FieldDie.tim (fun _ => rfl) core)

theorem takeoverFault_faultMoves (f : FieldDie) : FaultMoves f (takeoverFault f) := by
  have cancelled : FaultMoves f (cancelHandover f) := .ofEq (.ofEq rfl rfl rfl) rfl rfl rfl rfl rfl
  refine faultMoves_ite (faultMoves_ite ?_ ?_) (faultMoves_ite (enterFailed_faultMoves f) (.refl f))
  · exact (cancelled.trans (postTwin_faultMoves _ _)).trans (enterFailed_faultMoves _)
  · exact cancelled.trans (FieldDie.raise_faultMoves (.inr (.inr (.inr (.inr (.inl rfl))))) _ _)

/-! ### The log and the flag -/

theorem logReg_log {i : Nat} (hi : i < 16) :
    logReg (F_FLT_LOG_A i) ∧ logReg (F_FLT_LOG_B i) ∧ logReg (F_FLT_LOG_NS i) ∧ logReg (F_FLT_LOG_SEC i) := by
  unfold logReg F_FLT_LOG_A F_FLT_LOG_B F_FLT_LOG_NS F_FLT_LOG_SEC
  omega

theorem logReg_logPtr : logReg F_FLT_LOGPTR := .inl rfl

theorem logFault_faultMoves (code inst : Nat) (f : FieldDie) : FaultMoves f (logFault code inst f) := by
  obtain ⟨ha, hb, hns, hsec⟩ := logReg_log (i := f.get F_FLT_LOGPTR_next) (bitsOf_lt _ _ _)
  unfold logFault
  dsimp only
  refine FaultMoves.trans ?_ (FieldDie.put_faultMoves (r := F_FLT_LOGPTR_next) logReg_logPtr _ _)
  refine FaultMoves.trans ?_ (FieldDie.wrN_faultMoves hsec _ _)
  refine FaultMoves.trans ?_ (FieldDie.wrN_faultMoves hns _ _)
  refine FaultMoves.trans ?_ (FieldDie.wrN_faultMoves hb _ _)
  refine FaultMoves.trans ?_ (FieldDie.wrN_faultMoves ha _ _)
  exact faultMoves_ite (FieldDie.put_faultMoves (r := F_FLT_LOGPTR_wraps) logReg_logPtr _ _) (.refl f)

theorem loggedDie_faultMoves (code inst : Nat) (f : FieldDie) : FaultMoves (latchedDie code inst f) (loggedDie code inst f) :=
  (logFault_faultMoves code inst _).trans (FieldDie.queueEvt_faultMoves _ _)

/-- A fault is one already latched, or its flag is set and what follows is of the log and the role. -/
theorem latchFault_cases (code inst : Nat) (f : FieldDie) :
    (latchFault code inst f = f ∧ f.sq F_FLT_EVT code = true) ∨ FaultMoves (latchedDie code inst f) (latchFault code inst f) := by
  have logged := loggedDie_faultMoves code inst f
  rw [latchFault_eq]
  split
  next before => exact .inl ⟨rfl, before.1⟩
  next =>
    refine .inr ?_
    split
    · exact logged.trans (takeoverFault_faultMoves _)
    · exact logged

theorem latchedDie_reg (code inst : Nat) (f : FieldDie) : (latchedDie code inst f).reg = (f.napBreak.setFlag F_FLT_EVT code).reg := by
  unfold latchedDie
  dsimp only

theorem latchedDie_rd (hne : a ≠ F_FLT_EVT) (code inst : Nat) (f : FieldDie) : (latchedDie code inst f).rd a = f.rd a := by
  rw [FieldDie.rd_eq (latchedDie_reg code inst f), FieldDie.rd_setFlag_ne _ _ _ _ hne]
  rfl

theorem latchedDie_sendSame (code inst : Nat) (f : FieldDie) : SendSame f (latchedDie code inst f) := by
  have woken : SendSame f f.napBreak := .ofEq rfl rfl rfl
  unfold latchedDie
  dsimp only
  exact woken.trans ((f.napBreak.setFlag_sendSame F_FLT_EVT code).trans (.ofEq rfl rfl rfl))

theorem latchedDie_sq (hc : code < 16) (inst : Nat) (f : FieldDie) : (latchedDie code inst f).sq F_FLT_EVT code = true := by
  rw [FieldDie.sq_eq (FieldDie.rd_eq (latchedDie_reg code inst f) _), FieldDie.sq_setFlag _ _ _ _ hc hc, decide_eq_true rfl,
    Bool.true_or]

theorem latchFault_sendSame (code inst : Nat) (f : FieldDie) : SendSame f (latchFault code inst f) := by
  obtain ⟨h, -⟩ | h := latchFault_cases code inst f
  · rw [h]
    exact .refl f
  · exact (latchedDie_sendSame code inst f).trans h.send

theorem latchFault_rd (ha : ¬ logReg a) (hne : a ≠ F_FLT_EVT) (code inst : Nat) (f : FieldDie) :
    (latchFault code inst f).rd a = f.rd a := by
  obtain ⟨h, -⟩ | h := latchFault_cases code inst f
  · rw [h]
  · exact (h.regs a ha).trans (latchedDie_rd hne code inst f)

theorem latchFault_sq (hc : code < 16) (inst : Nat) (f : FieldDie) : (latchFault code inst f).sq F_FLT_EVT code = true := by
  have apart : ¬ logReg F_FLT_EVT := by
    unfold logReg F_FLT_EVT F_FLT_LOGPTR F_TWN_STAT F_TWN_EVT F_XNG_EVT
    omega
  obtain ⟨h, hs⟩ | h := latchFault_cases code inst f
  · rw [h]
    exact hs
  · exact (FieldDie.sq_eq (h.regs _ apart)).trans (latchedDie_sq hc inst f)

end Sys2Proof.Machine
end


section
/-! The buffer's registers (O34): queue flushes, port reserves, watermarks and the audit (R463, R478, R483, R487). -/

namespace Sys2Proof.Machine

variable {f g : FieldDie} {s : State} {n q a req data : Nat}

/-! ### Discarded copies leave what waits as it is -/

theorem countQDrop_buf (f : FieldDie) (n q code : Nat) : (f.countQDrop n q code).buf = f.buf := by
  unfold FieldDie.countQDrop
  dsimp only
  split
  · rfl
  · rfl

theorem refreshPool_buf (f : FieldDie) : (refreshPool f).buf = f.buf := FieldDie.put_buf f _ _

theorem chargeSub_buf (n q c : Nat) (reserve : Bool) (f : FieldDie) : (chargeSub n q c reserve f).buf = f.buf := by
  unfold chargeSub
  dsimp only
  rw [refreshPool_buf]
  split
  · rw [FieldDie.put_buf, FieldDie.wrN_buf]
  · rw [FieldDie.put_buf, FieldDie.put_buf, FieldDie.wrN_buf]

theorem releaseCopy_buf (c : Copy) (f : FieldDie) : (releaseCopy c f).buf = f.buf := chargeSub_buf _ _ _ _ f

theorem discardCopy_buf (code : Nat) (c : Copy) (f : FieldDie) : (discardCopy code c f).buf = f.buf := by
  unfold discardCopy
  dsimp only
  rw [releaseCopy_buf]
  split
  · exact countQDrop_buf f _ _ _
  · rw [tsqFrame_buf, countQDrop_buf]

theorem discardQueued_buf (p : Copy → Bool) (code : Nat) (f : FieldDie) :
    (discardQueued p code f).buf = { f.buf with queued := f.buf.queued.filter (fun c => !p c) } := by
  unfold discardQueued
  exact forAll_keeps (P := fun g : FieldDie => g.buf = { f.buf with queued := f.buf.queued.filter (fun c => !p c) })
    (fun c _ g hg => (discardCopy_buf code c g).trans hg) rfl

/-! ### Queue flushes (R478) -/

/-- F_BUF_FLUSH names a port and queues; its go bit stores nothing and busy is the die's own. -/
def bufFlushRow : RegRow := ⟨0x180010, 0x4, 1, .const 0, false, false,
  [⟨31, 31, .wo, false, none, false⟩, ⟨30, 30, .ro, false, none, false⟩, ⟨20, 16, .rw, false, none, true⟩, ⟨7, 0, .rw, false, none, true⟩]⟩

theorem regRow_bufFlush : regRow F_BUF_FLUSH = some bufFlushRow := by decide

/-- The word that a write of `data` makes of `w`. -/
def bufFlushWord (w data : Nat) : Nat := putBits (putBits w 20 16 (bitsOf data 20 16)) 7 0 (bitsOf data 7 0)

theorem storeWrite_bufFlush (req data : Nat) (f : FieldDie) :
    storeWrite req F_BUF_FLUSH data f = f.wrN F_BUF_FLUSH (bufFlushWord (f.rdN F_BUF_FLUSH) data) := by
  unfold storeWrite
  rw [regRow_bufFlush]
  rfl

theorem bufFlushWord_lt {w : Nat} (hw : w < 2 ^ 32) (data : Nat) : bufFlushWord w data < 2 ^ 32 :=
  putBits_lt _ _ _ _ _ (by decide) (by decide) (putBits_lt _ _ _ _ _ (by decide) (by decide) hw)

theorem bufFlushWord_port (w data : Nat) : bitsOf (bufFlushWord w data) 20 16 = bitsOf data 20 16 := by
  unfold bufFlushWord
  rw [bitsOf_putBits_other _ _ _ _ _ _ (by decide) (by decide), bitsOf_putBits_same _ _ _ _ (by decide)]
  exact Nat.mod_eq_of_lt (bitsOf_lt _ _ _)

theorem bufFlushWord_queues (w data : Nat) : bitsOf (bufFlushWord w data) 7 0 = bitsOf data 7 0 :=
  (bitsOf_putBits_same _ _ _ _ (by decide)).trans (Nat.mod_eq_of_lt (bitsOf_lt _ _ _))

theorem bufFlushWord_busy (w data : Nat) : bitsOf (bufFlushWord w data) 30 30 = bitsOf w 30 30 := by
  unfold bufFlushWord
  rw [bitsOf_putBits_other _ _ _ _ _ _ (by decide) (by decide), bitsOf_putBits_other _ _ _ _ _ _ (by decide) (by decide)]

/-- A flush that starts: the named copies are discarded, and busy is set. -/
theorem writeBufFlush_of_idle (hgo : hasBit data 31 = true) (hidle : f.get F_BUF_FLUSH_busy = 0) :
    writeBufFlush req data f = (flushQueues (bitsOf data 20 16) (bitsOf data 7 0)
      (f.wrN F_BUF_FLUSH (bufFlushWord (f.rdN F_BUF_FLUSH) data))).put F_BUF_FLUSH_busy 1 := by
  have word : (f.wrN F_BUF_FLUSH (bufFlushWord (f.rdN F_BUF_FLUSH) data)).rdN F_BUF_FLUSH = bufFlushWord (f.rdN F_BUF_FLUSH) data :=
    FieldDie.rdN_wrN_same (bufFlushWord_lt (f.rdN_lt _) data) f _
  have idle : (f.wrN F_BUF_FLUSH (bufFlushWord (f.rdN F_BUF_FLUSH) data)).get F_BUF_FLUSH_busy = 0 :=
    (congrArg (bitsOf · 30 30) word).trans ((bufFlushWord_busy _ _).trans hidle)
  have port : (f.wrN F_BUF_FLUSH (bufFlushWord (f.rdN F_BUF_FLUSH) data)).get F_BUF_FLUSH_port = bitsOf data 20 16 :=
    (congrArg (bitsOf · 20 16) word).trans (bufFlushWord_port _ _)
  have queues : (f.wrN F_BUF_FLUSH (bufFlushWord (f.rdN F_BUF_FLUSH) data)).get F_BUF_FLUSH_queues = bitsOf data 7 0 :=
    (congrArg (bitsOf · 7 0) word).trans (bufFlushWord_queues _ _)
  unfold writeBufFlush
  rw [storeWrite_bufFlush]
  dsimp only
  rw [if_pos ⟨hgo, idle⟩, port, queues]

theorem writeBufFlush_low (hgo : hasBit data 31 = true) (hidle : f.get F_BUF_FLUSH_busy = 0) : LowSame f (writeBufFlush req data f) := by
  rw [writeBufFlush_of_idle hgo hidle]
  exact ((low_wrN f _ _ (by decide)).trans (discardQueued_low _ _ _)).trans (low_put _ F_BUF_FLUSH_busy _ (by decide))

/-! ### Port reserves (R463, R487) -/

/-- A port's reserve and the queues that may use it are software's and covered. -/
def bufPortRow : RegRow := ⟨0x180100, 0x10, 17, .const 0xFF000040, false, true,
  [⟨31, 24, .rw, false, none, false⟩, ⟨12, 0, .rw, false, none, false⟩]⟩

theorem regRow_bufPort : ∀ n, n < 17 → regRow (F_BUF_PORT_CFG n) = some bufPortRow := by decide

/-- The word that a write of `data` makes of `w`. -/
def bufPortWord (w data : Nat) : Nat := putBits (putBits w 31 24 (bitsOf data 31 24)) 12 0 (bitsOf data 12 0)

theorem bufPortWord_lt {w : Nat} (hw : w < 2 ^ 32) (data : Nat) : bufPortWord w data < 2 ^ 32 :=
  putBits_lt _ _ _ _ _ (by decide) (by decide) (putBits_lt _ _ _ _ _ (by decide) (by decide) hw)

theorem bufPortWord_rsv (w data : Nat) : bitsOf (bufPortWord w data) 12 0 = bitsOf data 12 0 :=
  (bitsOf_putBits_same _ _ _ _ (by decide)).trans (Nat.mod_eq_of_lt (bitsOf_lt _ _ _))

theorem bufPortWord_rsv_q (w data : Nat) : bitsOf (bufPortWord w data) 31 24 = bitsOf data 31 24 := by
  unfold bufPortWord
  rw [bitsOf_putBits_other _ _ _ _ _ _ (by decide) (by decide), bitsOf_putBits_same _ _ _ _ (by decide)]
  exact Nat.mod_eq_of_lt (bitsOf_lt _ _ _)

theorem storeWrite_bufPort (hn : n < 17) (req data : Nat) (f : FieldDie) : storeWrite req (F_BUF_PORT_CFG n) data f =
    storedAt (F_BUF_PORT_CFG n) (bufPortWord (f.rdN (F_BUF_PORT_CFG n)) data) f.cfg f := by
  unfold storeWrite
  rw [regRow_bufPort n hn]
  rfl

/-- As `storedAt_rdN`, for any register apart from the proof's status. -/
theorem storedAt_rdN_any {v : Nat} (hv : v < 2 ^ 32) (hne : a ≠ F_CFG_PROOF_STAT) (hc : a ∉ coverRegs) (c : CfgX) (f : FieldDie) :
    (storedAt a v c f).rdN a = v := by
  have touched : (storedAt a v c f).rd a = ({ f.wrN a v with cfg := c } : FieldDie).rd a :=
    (touchProof_softMoves (List.mem_singleton.2 rfl) _).rd_eq (by simpa using hne) hc
  exact (congrArg BitVec.toNat touched).trans (FieldDie.rdN_wrN_same hv f a)

/-- The sum of the reserves were port `n`'s `v`. -/
def reserveSum (f : FieldDie) (n v : Nat) : Nat :=
  ((List.range 17).map (fun k => if k = n then v else f.get (F_BUF_PORT_CFG_rsv k))).sum

theorem writeBufPortCfg_eq (req n data : Nat) (f : FieldDie) : writeBufPortCfg req n data f =
    if 4096 < bitsOf data 12 0 ∨ 16384 < reserveSum f n (bitsOf data 12 0) then (f.put F_BUF_EVT_INFO_port n).raise F_BUF_EVT 2
    else refreshPool (storeWrite req (F_BUF_PORT_CFG n) data f) := by
  unfold writeBufPortCfg reserveSum
  rw [List.sum_eq_foldl, List.foldl_map]

/-! ### Watermarks (R487) -/

/-- The watermark of queue `k` of all set to its charge. -/
def resetQueueWm (k : Nat) (f : FieldDie) : FieldDie :=
  f.wrN (occAddr 0 k) (putBits (f.rdN (occAddr 0 k)) 30 16 (bitsOf (f.rdN (occAddr 0 k)) 14 0))

/-- The watermarks of port `n` set to its charges. -/
def resetPortWm (n : Nat) (f : FieldDie) : FieldDie :=
  (f.put (F_BUF_PORT_WM_shr_wm n) (f.get (F_BUF_PORT_USE_shr_used n))).put (F_BUF_PORT_WM_res_wm n) (f.get (F_BUF_PORT_USE_res_used n))

theorem writeBufCtrl_of_reset (h : hasBit data 0 = true) (f : FieldDie) : writeBufCtrl data f =
    (forRange 17 resetPortWm (forRange 136 resetQueueWm f)).put F_BUF_POOL_WM_shared_wm
      ((forRange 17 resetPortWm (forRange 136 resetQueueWm f)).get F_BUF_POOL_shared_used) :=
  if_pos h

theorem resetQueueWm_rd (h : a ≠ occAddr 0 n) (f : FieldDie) : (resetQueueWm n f).rd a = f.rd a := by
  unfold resetQueueWm
  rw [FieldDie.rd_wrN, if_neg h]

theorem resetPortWm_rd (h : a ≠ F_BUF_PORT_WM n) (f : FieldDie) : (resetPortWm n f).rd a = f.rd a := by
  unfold resetPortWm
  rw [FieldDie.rd_put_ne _ (F_BUF_PORT_WM_res_wm n) _ _ h, FieldDie.rd_put_ne _ (F_BUF_PORT_WM_shr_wm n) _ _ h]

/-- What lies below the table of queues stands while their watermarks are reset. -/
theorem resetQueueWms_rd (h : a < 0x501000) (f : FieldDie) : (forRange 136 resetQueueWm f).rd a = f.rd a :=
  forRange_keeps (P := fun g : FieldDie => g.rd a = f.rd a)
    (fun k g _ hg => (resetQueueWm_rd (by unfold occAddr; omega) g).trans hg) rfl

theorem resetQueueWms_word {k : Nat} (hk : k < 136) (f : FieldDie) : (forRange 136 resetQueueWm f).rdN (occAddr 0 k) =
    putBits (f.rdN (occAddr 0 k)) 30 16 (bitsOf (f.rdN (occAddr 0 k)) 14 0) := by
  have apart : ∀ j, j ≠ k → occAddr 0 k ≠ occAddr 0 j := fun j hj => by
    unfold occAddr
    omega
  refine forRange_sets (P := fun g : FieldDie => g.rd (occAddr 0 k) = f.rd (occAddr 0 k))
    (Q := fun g : FieldDie => g.rdN (occAddr 0 k) = putBits (f.rdN (occAddr 0 k)) 30 16 (bitsOf (f.rdN (occAddr 0 k)) 14 0))
    hk (fun j g _ hj hg => (resetQueueWm_rd (apart j hj) g).trans hg) (fun g hg => ?_) (fun j g _ hj hg => ?_) rfl
  · have word : g.rdN (occAddr 0 k) = f.rdN (occAddr 0 k) := congrArg BitVec.toNat hg
    unfold resetQueueWm
    rw [word]
    exact FieldDie.rdN_wrN_same (putBits_lt _ _ _ _ _ (by decide) (by decide) (f.rdN_lt _)) g _
  · exact (congrArg BitVec.toNat (resetQueueWm_rd (apart j hj) g)).trans hg

/-- What is not a port's watermark stands while those are reset. -/
theorem resetPortWms_rd (h : ∀ n, n < 17 → a ≠ F_BUF_PORT_WM n) (f : FieldDie) : (forRange 17 resetPortWm f).rd a = f.rd a :=
  forRange_keeps (P := fun g : FieldDie => g.rd a = f.rd a) (fun n g hn hg => (resetPortWm_rd (h n hn) g).trans hg) rfl

theorem resetPortWm_shown (n : Nat) (f : FieldDie) :
    (resetPortWm n f).get (F_BUF_PORT_WM_shr_wm n) = f.get (F_BUF_PORT_USE_shr_used n) ∧
      (resetPortWm n f).get (F_BUF_PORT_WM_res_wm n) = f.get (F_BUF_PORT_USE_res_used n) := by
  unfold resetPortWm
  constructor
  · rw [FieldDie.get_put_field _ (F_BUF_PORT_WM_res_wm n) (F_BUF_PORT_WM_shr_wm n) _ rfl (Nat.zero_le 12) (by show 12 < 32; decide)
        (.inl (by show 12 < 16; decide)),
      FieldDie.get_put _ (F_BUF_PORT_WM_shr_wm n) _ (by show 16 ≤ 30; decide) (by show 30 < 32; decide)]
    exact Nat.mod_eq_of_lt (bitsOf_lt _ _ _)
  · rw [FieldDie.get_put _ (F_BUF_PORT_WM_res_wm n) _ (Nat.zero_le 12) (by show 12 < 32; decide)]
    exact Nat.mod_eq_of_lt (bitsOf_lt _ _ _)

theorem resetPortWms_shown (hn : n < 17) (f : FieldDie) :
    (forRange 17 resetPortWm f).get (F_BUF_PORT_WM_shr_wm n) = f.get (F_BUF_PORT_USE_shr_used n) ∧
      (forRange 17 resetPortWm f).get (F_BUF_PORT_WM_res_wm n) = f.get (F_BUF_PORT_USE_res_used n) := by
  have use : ∀ j, F_BUF_PORT_USE n ≠ F_BUF_PORT_WM j := fun j => by
    unfold F_BUF_PORT_USE F_BUF_PORT_WM
    omega
  have apart : ∀ j, j ≠ n → F_BUF_PORT_WM n ≠ F_BUF_PORT_WM j := fun j hj => by
    unfold F_BUF_PORT_WM
    omega
  refine forRange_sets (P := fun g : FieldDie => g.rd (F_BUF_PORT_USE n) = f.rd (F_BUF_PORT_USE n))
    (Q := fun g : FieldDie => g.get (F_BUF_PORT_WM_shr_wm n) = f.get (F_BUF_PORT_USE_shr_used n) ∧
      g.get (F_BUF_PORT_WM_res_wm n) = f.get (F_BUF_PORT_USE_res_used n))
    hn (fun j g _ _ hg => (resetPortWm_rd (use j) g).trans hg) (fun g hg => ?_) (fun j g _ hj hg => ?_) rfl
  · obtain ⟨hshr, hres⟩ := resetPortWm_shown n g
    exact ⟨hshr.trans (FieldDie.get_eq _ hg), hres.trans (FieldDie.get_eq _ hg)⟩
  · have kept := resetPortWm_rd (apart j hj) g
    exact ⟨(FieldDie.get_eq (F_BUF_PORT_WM_shr_wm n) kept).trans hg.1, (FieldDie.get_eq (F_BUF_PORT_WM_res_wm n) kept).trans hg.2⟩

theorem writeBufCtrl_low (data : Nat) (f : FieldDie) : LowSame f (writeBufCtrl data f) := by
  unfold writeBufCtrl
  split
  · refine LowSame.trans ?_ (low_put _ F_BUF_POOL_WM_shared_wm _ (by decide))
    refine (low_forRange _ _ (fun k g => low_wrN g _ _ ?_) f).trans (low_forRange _ _ (fun k g => ?_) _)
    · unfold occAddr
      omega
    · exact (low_put _ (F_BUF_PORT_WM_shr_wm k) _ (by show _ ≤ F_BUF_PORT_WM k; unfold F_BUF_PORT_WM; omega)).trans
        (low_put _ (F_BUF_PORT_WM_res_wm k) _ (by show _ ≤ F_BUF_PORT_WM k; unfold F_BUF_PORT_WM; omega))
  · exact .refl f

/-! ### The audit (R483) -/

theorem emptyPort_buf (n code : Nat) (f : FieldDie) : (emptyPort n code f).buf = { f.buf with
    queued := f.buf.queued.filter (fun c => c.port != n), waiting := f.buf.waiting.filter (fun c => c.port != n) } := by
  have emptied := discardQueued_buf (fun c => c.port == n) code f
  unfold emptyPort
  refine forAll_keeps (P := fun g : FieldDie => g.buf = { f.buf with
    queued := f.buf.queued.filter (fun c => c.port != n), waiting := f.buf.waiting.filter (fun c => c.port != n) })
    (fun c _ g hg => (discardCopy_buf code c g).trans hg) ?_
  dsimp only
  rw [emptied]
  rfl

/-- The copies that a port sends have lost their cells. -/
def cutCopies (x : PortX) : PortX :=
  { x with
    sending := x.sending.map fun c => { c with cells := 0, stomp := if c.stomped then c.stomp else 0x27, stomped := true }
    preempted := x.preempted.map fun c => { c with cells := 0, stomp := if c.stomped then c.stomp else 0x27, stomped := true } }

/-- The charge of a queue set to 0. -/
def clearQueueUse (n q : Nat) (f : FieldDie) : FieldDie := f.wrN (occAddr n q) (putBits (f.rdN (occAddr n q)) 14 0 0)

/-- The charges of a port and the pool's share of them set to 0. -/
def clearPortUse (n : Nat) (f : FieldDie) : FieldDie :=
  refreshPool (((f.put (F_BUF_PORT_USE_shr_used n) 0).put (F_BUF_PORT_USE_res_used n) 0).put F_BUF_POOL_shared_used
    (((f.put (F_BUF_PORT_USE_shr_used n) 0).put (F_BUF_PORT_USE_res_used n) 0).get F_BUF_POOL_shared_used -
      f.get (F_BUF_PORT_USE_shr_used n)))

/-- A port emptied, with every charge of it at 0. -/
def auditedPort (n : Nat) (f : FieldDie) : FieldDie :=
  clearPortUse n (forRange 8 (clearQueueUse n) ((emptyPort n 0x27 f).setPortX n cutCopies))

theorem clearPortUse_buf (n : Nat) (f : FieldDie) : (clearPortUse n f).buf = f.buf := by
  unfold clearPortUse
  rw [refreshPool_buf, FieldDie.put_buf, FieldDie.put_buf, FieldDie.put_buf]

theorem auditedPort_buf (n : Nat) (f : FieldDie) : (auditedPort n f).buf = { f.buf with
    queued := f.buf.queued.filter (fun c => c.port != n), waiting := f.buf.waiting.filter (fun c => c.port != n) } := by
  unfold auditedPort
  rw [clearPortUse_buf]
  refine Eq.trans ?_ (emptyPort_buf n 0x27 f)
  exact forRange_keeps (P := fun g : FieldDie => g.buf = (emptyPort n 0x27 f).buf)
    (fun q g _ hg => (FieldDie.wrN_buf g _ _).trans hg) rfl

theorem clearPortUse_rd (h : a ≠ F_BUF_PORT_USE n) (hp : a ≠ F_BUF_POOL) (f : FieldDie) : (clearPortUse n f).rd a = f.rd a := by
  unfold clearPortUse refreshPool
  rw [FieldDie.rd_put_ne _ F_BUF_POOL_shared_size _ _ hp, FieldDie.rd_put_ne _ F_BUF_POOL_shared_used _ _ hp,
    FieldDie.rd_put_ne _ (F_BUF_PORT_USE_res_used n) _ _ h, FieldDie.rd_put_ne _ (F_BUF_PORT_USE_shr_used n) _ _ h]

theorem clearQueueUse_used (n q : Nat) (f : FieldDie) : (clearQueueUse n q f).used n q = 0 := by
  unfold FieldDie.used clearQueueUse
  rw [FieldDie.rdN_wrN_same (putBits_lt _ _ _ _ _ (by decide) (by decide) (f.rdN_lt _)), bitsOf_putBits_same _ _ _ _ (by decide),
    Nat.zero_mod]

theorem clearQueueUse_rd {q' : Nat} (h : q' ≠ q) (f : FieldDie) : (clearQueueUse n q f).rd (occAddr n q') = f.rd (occAddr n q') := by
  have apart : occAddr n q' ≠ occAddr n q := by
    unfold occAddr
    omega
  unfold clearQueueUse
  rw [FieldDie.rd_wrN, if_neg apart]

theorem FieldDie.used_eq (h : g.rd (occAddr n q) = f.rd (occAddr n q)) : g.used n q = f.used n q :=
  congrArg (fun w : Word => bitsOf w.toNat 14 0) h

theorem auditedPort_used (hn : n < 17) (hq : q < 8) (f : FieldDie) : (auditedPort n f).used n q = 0 := by
  have apart : occAddr n q ≠ F_BUF_PORT_USE n ∧ occAddr n q ≠ F_BUF_POOL := by
    unfold occAddr F_BUF_PORT_USE F_BUF_POOL
    omega
  unfold auditedPort
  rw [FieldDie.used_eq (clearPortUse_rd apart.1 apart.2 _)]
  exact forRange_sets (P := fun _ => True) (Q := fun g : FieldDie => g.used n q = 0) hq (fun _ _ _ _ _ => trivial)
    (fun g _ => clearQueueUse_used n q g) (fun j g _ hj hg => (FieldDie.used_eq (clearQueueUse_rd hj.symm g)).trans hg) trivial

theorem auditedPort_use (hn : n < 17) (f : FieldDie) : (auditedPort n f).get (F_BUF_PORT_USE_shr_used n) = 0 ∧
    (auditedPort n f).get (F_BUF_PORT_USE_res_used n) = 0 := by
  have apart : F_BUF_PORT_USE n ≠ F_BUF_POOL := by
    unfold F_BUF_PORT_USE F_BUF_POOL
    omega
  unfold auditedPort
  generalize forRange 8 _ _ = g
  have pool : (clearPortUse n g).rd (F_BUF_PORT_USE n) =
      ((g.put (F_BUF_PORT_USE_shr_used n) 0).put (F_BUF_PORT_USE_res_used n) 0).rd (F_BUF_PORT_USE n) := by
    unfold clearPortUse refreshPool
    rw [FieldDie.rd_put_ne _ F_BUF_POOL_shared_size _ _ apart, FieldDie.rd_put_ne _ F_BUF_POOL_shared_used _ _ apart]
  constructor
  · rw [FieldDie.get_eq (F_BUF_PORT_USE_shr_used n) pool, FieldDie.get_put_field _ (F_BUF_PORT_USE_res_used n)
      (F_BUF_PORT_USE_shr_used n) _ rfl (Nat.zero_le 12) (by show 12 < 32; decide) (.inl (by show 12 < 16; decide)),
      FieldDie.get_put _ (F_BUF_PORT_USE_shr_used n) _ (by show 16 ≤ 30; decide) (by show 30 < 32; decide), Nat.zero_mod]
  · rw [FieldDie.get_eq (F_BUF_PORT_USE_res_used n) pool,
      FieldDie.get_put _ (F_BUF_PORT_USE_res_used n) _ (Nat.zero_le 12) (by show 12 < 32; decide), Nat.zero_mod]

/-- The buffer's registers and tables. -/
def bufferReg (a : Nat) : Prop := (0x180000 ≤ a ∧ a < 0x1E0000) ∨ 0x500000 ≤ a

theorem bufferReg.notMem (h : bufferReg a) : a ∉ coverRegs := by
  unfold bufferReg at h
  simp only [coverRegs, List.mem_cons, List.not_mem_nil, or_false, not_or]
  unfold F_FLT_COVER F_FLT_EVT2 F_XNG_EVT
  omega

theorem bufferReg_occ (n q : Nat) : bufferReg (occAddr n q) := by
  unfold bufferReg occAddr
  omega

theorem bufferReg_port (hn : n < 17) : bufferReg (F_BUF_PORT_CFG n) ∧ bufferReg (F_BUF_PORT_USE n) ∧ bufferReg (F_BUF_PORT_WM n) := by
  unfold bufferReg F_BUF_PORT_CFG F_BUF_PORT_USE F_BUF_PORT_WM
  omega

/-- A latched fault leaves the buffer's registers as they are. -/
theorem latchFault_rd_buffer (h : bufferReg a) (code inst : Nat) (f : FieldDie) : (latchFault code inst f).rd a = f.rd a := by
  refine latchFault_rd ?_ ?_ code inst f
  · unfold bufferReg at h
    unfold logReg F_FLT_LOGPTR F_TWN_STAT F_TWN_EVT F_XNG_EVT
    omega
  · unfold bufferReg at h
    unfold F_FLT_EVT
    omega

/-! ### The clauses -/

theorem flush_clause (s : State) (req : Nat) (data : Word) (hw : s.fld.canWrite req = true) (hgo : hasBit data.toNat 31 = true)
    (hidle : s.fld.get F_BUF_FLUSH_busy = 0) :
    ∃ t, exec (.queueFlush req data) s = .next t ∧ t.fld.get F_BUF_FLUSH_busy = 1 ∧
      t.fld.buf.queued = s.fld.buf.queued.filter
        (fun c => !(c.port == bitsOf data.toNat 20 16 && hasBit (bitsOf data.toNat 7 0) c.queue)) ∧
      t.fld.buf.waiting = s.fld.buf.waiting ∧ LowFrame [] s.fld s t := by
  have flushed := writeBufFlush_of_idle (req := req) (f := s.fld.napBreak) hgo hidle
  have low := (napBreak_low s.fld).trans (writeBufFlush_low (req := req) (f := s.fld.napBreak) hgo hidle)
  refine ⟨_, State.onWrite_of_canWrite hw, ?_, ?_, ?_, (low.lowMoves []).frame rfl⟩
  · refine (settle_get_of_notMem (by decide)).trans ?_
    rw [flushed]
    exact FieldDie.get_put _ F_BUF_FLUSH_busy 1 (by decide) (by decide)
  · refine (settle_queued _).trans ?_
    rw [flushed, FieldDie.put_buf]
    exact congrArg BufX.queued (discardQueued_buf _ _ _)
  · refine (settle_waiting _).trans ?_
    rw [flushed, FieldDie.put_buf]
    exact (congrArg BufX.waiting (discardQueued_buf _ _ _)).trans rfl

theorem flushDone_clause (s : State) (hr : s.fld.phase = .running) (hbusy : s.fld.flag F_BUF_FLUSH_busy = true) :
    ∃ t, exec .queueFlushDone s = .next t ∧ t.fld.get F_BUF_FLUSH_busy = 0 ∧ t.fld.sq F_BUF_EVT 4 = true ∧
      t.fld.get F_BUF_EVT_INFO_port = s.fld.get F_BUF_FLUSH_port ∧
      FieldFrame [F_BUF_FLUSH, F_BUF_EVT_INFO, F_BUF_EVT] s.fld s t := by
  have step := State.onRun_running (g := fun f => if f.flag F_BUF_FLUSH_busy then
    ((f.put F_BUF_FLUSH_busy 0).put F_BUF_EVT_INFO_port (f.get F_BUF_FLUSH_port)).raise F_BUF_EVT 4 else f) hr
  simp only [if_pos hbusy] at step
  have moves : SoftMoves [F_BUF_FLUSH, F_BUF_EVT_INFO, F_BUF_EVT] s.fld
      (((s.fld.put F_BUF_FLUSH_busy 0).put F_BUF_EVT_INFO_port (s.fld.get F_BUF_FLUSH_port)).raise F_BUF_EVT 4) :=
    ((FieldDie.put_softMoves (by simp [F_BUF_FLUSH_busy]) _ _).trans (FieldDie.put_softMoves (by simp [F_BUF_EVT_INFO_port]) _ _)).trans
      (FieldDie.raise_softMoves (by simp) _ _)
  refine ⟨_, step, ?_, ?_, ?_, moves.frame rfl⟩
  · refine (settle_get_of_notMem (by decide)).trans ?_
    rw [FieldDie.get_raise_ne _ (by decide) (by decide), FieldDie.get_put_addr _ _ _ _ (by decide),
      FieldDie.get_put _ _ _ (by decide) (by decide), Nat.zero_mod]
  · exact (settle_sq_of_notMem (by decide)).trans (FieldDie.raise_sq _ _ _ (by decide) (by decide))
  · refine (settle_get_of_notMem (by decide)).trans ?_
    rw [FieldDie.get_raise_ne _ (by decide) (by decide), FieldDie.get_put _ _ _ (by decide) (by decide)]
    exact Nat.mod_eq_of_lt (bitsOf_lt _ _ _)

theorem reserveRefused_clause (s : State) (req n : Nat) (data : Word) (hw : s.fld.canWrite req = true) (hn : n < 17)
    (hbad : 4096 < bitsOf data.toNat 12 0 ∨ 16384 < reserveSum s.fld n (bitsOf data.toNat 12 0)) :
    ∃ t, exec (.bufPortCfgWrite req n data) s = .next t ∧ t.fld.sq F_BUF_EVT 2 = true ∧
      FieldFrame [F_BUF_EVT_INFO, F_BUF_EVT] s.fld s t := by
  have step := State.onItemWrite_of_canWrite (k := writeBufPortCfg req n data.toNat) hw hn
  have bad : 4096 < bitsOf data.toNat 12 0 ∨ 16384 < reserveSum s.fld.napBreak n (bitsOf data.toNat 12 0) := hbad
  rw [writeBufPortCfg_eq, if_pos bad] at step
  have moves : SoftMoves [F_BUF_EVT_INFO, F_BUF_EVT] s.fld ((s.fld.napBreak.put F_BUF_EVT_INFO_port n).raise F_BUF_EVT 2) :=
    (s.fld.napBreak_softMoves.trans (FieldDie.put_softMoves (by simp [F_BUF_EVT_INFO_port]) _ _)).trans
      (FieldDie.raise_softMoves (by simp) _ _)
  exact ⟨_, step, (settle_sq_of_notMem (by decide)).trans (FieldDie.raise_sq _ _ _ (by decide) (by decide)), moves.frame rfl⟩

theorem reserveTaken_clause (s : State) (req n : Nat) (data : Word) (hw : s.fld.canWrite req = true) (hn : n < 17)
    (hrsv : bitsOf data.toNat 12 0 ≤ 4096) (hsum : reserveSum s.fld n (bitsOf data.toNat 12 0) ≤ 16384) :
    ∃ t, exec (.bufPortCfgWrite req n data) s = .next t ∧ t.fld.get (F_BUF_PORT_CFG_rsv n) = bitsOf data.toNat 12 0 ∧
      t.fld.get (F_BUF_PORT_CFG_rsv_q n) = bitsOf data.toNat 31 24 ∧
      FieldFrame [F_BUF_PORT_CFG n, F_BUF_POOL, F_CFG_PROOF_STAT] { s.fld with cfg := t.fld.cfg } s t := by
  have step := State.onItemWrite_of_canWrite (k := writeBufPortCfg req n data.toNat) hw hn
  have kept : ¬ (4096 < bitsOf data.toNat 12 0 ∨ 16384 < reserveSum s.fld.napBreak n (bitsOf data.toNat 12 0)) := by
    rintro (h | h)
    · exact absurd h (not_lt.2 hrsv)
    · exact absurd h (not_lt.2 hsum)
  rw [writeBufPortCfg_eq, if_neg kept, storeWrite_bufPort hn] at step
  have stored := storedAt_napBreak_softMoves (F_BUF_PORT_CFG n) (bufPortWord (s.fld.napBreak.rdN (F_BUF_PORT_CFG n)) data.toNat)
    s.fld.napBreak.cfg s.fld
  have word := storedAt_rdN_any (a := F_BUF_PORT_CFG n) (bufPortWord_lt (s.fld.napBreak.rdN_lt (F_BUF_PORT_CFG n)) data.toNat)
    (by unfold F_BUF_PORT_CFG F_CFG_PROOF_STAT; omega) (bufferReg_port hn).1.notMem s.fld.napBreak.cfg s.fld.napBreak
  generalize hg : storedAt (F_BUF_PORT_CFG n) (bufPortWord (s.fld.napBreak.rdN (F_BUF_PORT_CFG n)) data.toNat)
    s.fld.napBreak.cfg s.fld.napBreak = g at step stored word
  have moves : SoftMoves [F_BUF_PORT_CFG n, F_BUF_POOL, F_CFG_PROOF_STAT] { s.fld with cfg := g.cfg } (refreshPool g) :=
    (stored.mono (by simp)).trans (FieldDie.put_softMoves (by simp [F_BUF_POOL_shared_size]) g _)
  have apart : F_BUF_PORT_CFG n ≠ F_BUF_POOL := by
    unfold F_BUF_PORT_CFG F_BUF_POOL
    omega
  have pooled : (settle (refreshPool g)).rdN (F_BUF_PORT_CFG n) = bufPortWord (s.fld.napBreak.rdN (F_BUF_PORT_CFG n)) data.toNat := by
    rw [settle_rdN_of_notMem (bufferReg_port hn).1.notMem, ← word]
    exact congrArg BitVec.toNat (FieldDie.rd_put_ne g F_BUF_POOL_shared_size _ _ apart)
  refine ⟨_, step, ?_, ?_, ?_⟩
  · unfold FieldDie.get
    dsimp only [F_BUF_PORT_CFG_rsv]
    rw [pooled, bufPortWord_rsv]
  · unfold FieldDie.get
    dsimp only [F_BUF_PORT_CFG_rsv_q]
    rw [pooled, bufPortWord_rsv_q]
  · dsimp only
    rw [settle_cfg, show (refreshPool g).cfg = g.cfg from FieldDie.put_cfg g _ _]
    exact moves.frame rfl

theorem watermark_clause (s : State) (req : Nat) (data : Word) (hw : s.fld.canWrite req = true) (hgo : hasBit data.toNat 0 = true) :
    ∃ t, exec (.watermarkReset req data) s = .next t ∧
      (∀ k, k < 136 → bitsOf (t.fld.rdN (0x501000 + 4 * k)) 30 16 = bitsOf (s.fld.rdN (0x501000 + 4 * k)) 14 0 ∧
        bitsOf (t.fld.rdN (0x501000 + 4 * k)) 14 0 = bitsOf (s.fld.rdN (0x501000 + 4 * k)) 14 0) ∧
      (∀ n, n < 17 → t.fld.get (F_BUF_PORT_WM_shr_wm n) = s.fld.get (F_BUF_PORT_USE_shr_used n) ∧
        t.fld.get (F_BUF_PORT_WM_res_wm n) = s.fld.get (F_BUF_PORT_USE_res_used n)) ∧
      t.fld.get F_BUF_POOL_WM_shared_wm = s.fld.get F_BUF_POOL_shared_used ∧ LowFrame [] s.fld s t := by
  have low := (napBreak_low s.fld).trans (writeBufCtrl_low data.toNat s.fld.napBreak)
  refine ⟨_, State.onWrite_of_canWrite hw, fun k hk => ?_, fun n hn => ?_, ?_, (low.lowMoves []).frame rfl⟩
  all_goals dsimp only
  all_goals rw [writeBufCtrl_of_reset hgo]
  · have at_ : occAddr 0 k = 0x501000 + 4 * k := by
      unfold occAddr
      omega
    have word : (settle ((forRange 17 resetPortWm (forRange 136 resetQueueWm s.fld.napBreak)).put F_BUF_POOL_WM_shared_wm
        ((forRange 17 resetPortWm (forRange 136 resetQueueWm s.fld.napBreak)).get F_BUF_POOL_shared_used))).rdN (occAddr 0 k) =
        putBits (s.fld.rdN (occAddr 0 k)) 30 16 (bitsOf (s.fld.rdN (occAddr 0 k)) 14 0) := by
      rw [settle_rdN_of_notMem (bufferReg_occ 0 k).notMem]
      refine Eq.trans (congrArg BitVec.toNat ?_) (resetQueueWms_word hk s.fld.napBreak)
      refine (FieldDie.rd_put_ne _ F_BUF_POOL_WM_shared_wm _ _ ?_).trans (resetPortWms_rd (fun n hn => ?_) _)
      · show occAddr 0 k ≠ F_BUF_POOL_WM
        unfold occAddr F_BUF_POOL_WM
        omega
      · unfold occAddr F_BUF_PORT_WM
        omega
    rw [← at_, word, bitsOf_putBits_same _ _ _ _ (by decide), bitsOf_putBits_other _ _ _ _ _ _ (by decide) (by decide)]
    exact ⟨Nat.mod_eq_of_lt (bitsOf_lt _ _ _), rfl⟩
  · have apart : F_BUF_PORT_WM n ≠ F_BUF_POOL_WM := by
      unfold F_BUF_PORT_WM F_BUF_POOL_WM
      omega
    have use : (forRange 136 resetQueueWm s.fld.napBreak).rd (F_BUF_PORT_USE n) = s.fld.rd (F_BUF_PORT_USE n) :=
      resetQueueWms_rd (by unfold F_BUF_PORT_USE; omega) s.fld.napBreak
    obtain ⟨hshr, hres⟩ := resetPortWms_shown hn (forRange 136 resetQueueWm s.fld.napBreak)
    have hc := (bufferReg_port hn).2.2.notMem
    constructor
    · rw [settle_get_of_notMem (r := F_BUF_PORT_WM_shr_wm n) hc, FieldDie.get_put_addr _ F_BUF_POOL_WM_shared_wm (F_BUF_PORT_WM_shr_wm n) _ apart, hshr,
        FieldDie.get_eq (F_BUF_PORT_USE_shr_used n) use]
    · rw [settle_get_of_notMem (r := F_BUF_PORT_WM_res_wm n) hc, FieldDie.get_put_addr _ F_BUF_POOL_WM_shared_wm (F_BUF_PORT_WM_res_wm n) _ apart, hres,
        FieldDie.get_eq (F_BUF_PORT_USE_res_used n) use]
  · have pool : (forRange 17 resetPortWm (forRange 136 resetQueueWm s.fld.napBreak)).rd F_BUF_POOL = s.fld.rd F_BUF_POOL := by
      refine (resetPortWms_rd (fun n _ => ?_) _).trans (resetQueueWms_rd (by decide) s.fld.napBreak)
      unfold F_BUF_POOL F_BUF_PORT_WM
      omega
    rw [settle_get_of_notMem (by decide), FieldDie.get_put _ _ _ (by decide) (by decide), FieldDie.get_eq F_BUF_POOL_shared_used pool]
    exact Nat.mod_eq_of_lt (bitsOf_lt _ _ _)

theorem audit_clause (s : State) (n : Nat) (hr : s.fld.phase = .running) (hn : n < 17) :
    ∃ t, exec (.bufferAudit n) s = .next t ∧ (∀ c ∈ t.fld.buf.queued, c.port ≠ n) ∧ (∀ c ∈ t.fld.buf.waiting, c.port ≠ n) ∧
      (∀ q, q < 8 → t.fld.used n q = 0) ∧ t.fld.get (F_BUF_PORT_USE_shr_used n) = 0 ∧
      t.fld.get (F_BUF_PORT_USE_res_used n) = 0 ∧ t.fld.sq F_FLT_EVT 0 = true ∧ FieldOnly s t := by
  have buf : (bufferAudit n s.fld).buf = _ := (latchFault_sendSame 0 (0x8000 + n) (auditedPort n s.fld)).buf.trans (auditedPort_buf n s.fld)
  have kept : ∀ {a}, bufferReg a → (settle (bufferAudit n s.fld)).rd a = (auditedPort n s.fld).rd a := fun ha =>
    (settle_rd_of_notMem _ ha.notMem).trans (latchFault_rd_buffer ha _ _ _)
  obtain ⟨hshr, hres⟩ := auditedPort_use hn s.fld
  have use := kept (bufferReg_port hn).2.1
  refine ⟨_, State.onItem_running hr hn, fun c hc => ?_, fun c hc => ?_, fun q hq => ?_, ?_, ?_, ?_, ⟨rfl, rfl, rfl, rfl⟩⟩
  · dsimp only at hc
    rw [settle_queued, buf] at hc
    simpa using (List.mem_filter.1 hc).2
  · dsimp only at hc
    rw [settle_waiting, buf] at hc
    simpa using (List.mem_filter.1 hc).2
  · dsimp only
    rw [FieldDie.used_eq (kept (bufferReg_occ n q)), auditedPort_used hn hq]
  · dsimp only
    rw [FieldDie.get_eq (F_BUF_PORT_USE_shr_used n) use, hshr]
  · dsimp only
    rw [FieldDie.get_eq (F_BUF_PORT_USE_res_used n) use, hres]
  · dsimp only
    rw [settle_sq_of_notMem (by decide)]
    exact latchFault_sq (by decide) (0x8000 + n) (auditedPort n s.fld)

/-- Settles O34: a flush is a discard of queued copies; a reserve is refused or `storedAt`; a watermark reset and an audit
are repetitions, each step of which sets its own register. -/
theorem bufferRegisters : Obligations.BufferRegisters := by
  unfold Obligations.BufferRegisters
  exact ⟨flush_clause, flushDone_clause,
    fun s req n data hw hn => ⟨reserveRefused_clause s req n data hw hn, reserveTaken_clause s req n data hw hn⟩,
    watermark_clause, fun s n hr hn _ => audit_clause s n hr hn⟩

end Sys2Proof.Machine
end


section
/-! The domain switch, the cross-check and the time capture (O38; R538, R543 to R550). -/

namespace Sys2Proof.Machine

variable {but : List Nat} {f g : FieldDie} {s : State} {req data y a : Nat}

/-! ### The domains -/

/-- Moves stay moves where time has moved alike on both sides. -/
theorem SoftMoves.withTim (m : SoftMoves but f g) (x : TimeX) : SoftMoves but { f with tim := x } { g with tim := x } where
  rest := congrArg (fun r : FieldDie => { r with tim := x }) m.rest
  send := ⟨m.send.buf, m.send.out, m.send.cnt⟩
  regs := m.regs

/-- The registers that give domain B. -/
def rateInputs : List Nat := [F_TIM_B_RATE, F_TIM_B_ANCHOR_LO, F_TIM_B_ANCHOR_HI]

theorem domB_eq (hc : g.tim.c = f.tim.c) (ho : g.tim.bOff = f.tim.bOff) (hr : ∀ a ∈ rateInputs, g.rd a = f.rd a) :
    g.domB = f.domB := by
  have reg : ∀ a ∈ rateInputs, g.rdN a = f.rdN a := fun a ha => congrArg BitVec.toNat (hr a ha)
  unfold FieldDie.domB FieldDie.bDrift FieldDie.anchor FieldDie.bRate
  rw [hc, ho, reg _ (by simp [rateInputs]), reg _ (by simp [rateInputs]), reg _ (by simp [rateInputs])]

theorem dom_eq (ha : g.tim.a = f.tim.a) (hc : g.tim.c = f.tim.c) (ho : g.tim.bOff = f.tim.bOff)
    (hr : ∀ a ∈ rateInputs, g.rd a = f.rd a) (d : Nat) : g.dom d = f.dom d := by
  unfold FieldDie.dom FieldDie.domA
  rw [ha, domB_eq hc ho hr]

theorem sysFix_dom (f : FieldDie) : f.sysFix = domWrap ((f.dom f.activeDom : Nat) + f.tim.delta) := rfl

/-- A signed difference may stand for the difference in a sum that is reduced into the domain's range. -/
theorem domWrap_add_domDiff (x y : Int) : domWrap (y + domDiff x) = domWrap (y + x) := by
  have reduced : domWrap (y + (domWrap x : Int)) = domWrap (y + x) := by
    rw [Int.add_comm, domWrap_add_domWrap, Int.add_comm]
  unfold domDiff
  dsimp only
  split
  · exact reduced
  · rw [← reduced]
    unfold domWrap
    rw [← Int.add_sub_assoc, Int.sub_emod_right]

/-! ### A write of F_TIM_SYS (R543, R550) -/

/-- The domain in use is the die's own; the other fields are software's, domain and auto_sw under the TIME lock. -/
def timSysRow : RegRow := ⟨0x1C0000, 0x4, 1, .const 0, false, true,
  [⟨8, 8, .rw, false, none, false⟩, ⟨4, 4, .ro, false, none, false⟩, ⟨1, 1, .rw, false, some 3, false⟩,
    ⟨0, 0, .rw, true, some 3, false⟩]⟩

theorem regRow_timSys : regRow F_TIM_SYS = some timSysRow := by decide

theorem lkDenied_timSys (h : ownsLock f req 3 = true) : lkDenied f req F_TIM_SYS = false := by
  unfold lkDenied
  rw [regRow_timSys]
  simp [timSysRow, h]

/-- The word that a permitted write of `data` makes of `w`. -/
def timSysWord (w data : Nat) : Nat := putBits (putBits (putBits w 8 8 (bitsOf data 8 8)) 1 1 (bitsOf data 1 1)) 0 0 (bitsOf data 0 0)

theorem timSysWord_lt {w : Nat} (hw : w < 2 ^ 32) (data : Nat) : timSysWord w data < 2 ^ 32 :=
  putBits_lt _ _ _ _ _ (by decide) (by decide)
    (putBits_lt _ _ _ _ _ (by decide) (by decide) (putBits_lt _ _ _ _ _ (by decide) (by decide) hw))

theorem timSysWord_domain (w data : Nat) : bitsOf (timSysWord w data) 0 0 = bitsOf data 0 0 :=
  (bitsOf_putBits_same _ _ _ _ (by decide)).trans (Nat.mod_eq_of_lt (bitsOf_lt _ _ _))

theorem timSysWord_active (w data : Nat) : bitsOf (timSysWord w data) 4 4 = bitsOf w 4 4 := by
  unfold timSysWord
  rw [bitsOf_putBits_other _ _ _ _ _ _ (by decide) (by decide), bitsOf_putBits_other _ _ _ _ _ _ (by decide) (by decide),
    bitsOf_putBits_other _ _ _ _ _ _ (by decide) (by decide)]

/-- The die of which F_TIM_SYS has been written under the lock. -/
abbrev timSysStored (data : Nat) (f : FieldDie) : FieldDie :=
  storedAt F_TIM_SYS (timSysWord (f.rdN F_TIM_SYS) data) { f.cfg with tmr := f.cfg.tmr.filter (fun e => tmrReg e.1 != F_TIM_SYS) } f

theorem ownsLock_wrN {l : Nat} (ha : a ≠ F_CFG_LOCK l) (f : FieldDie) (v req : Nat) : ownsLock (f.wrN a v) req l = ownsLock f req l := by
  have same : (f.wrN a v).rd (F_CFG_LOCK l) = f.rd (F_CFG_LOCK l) := (FieldDie.rd_wrN _ _ _ _).trans (if_neg ha.symm)
  unfold ownsLock lockState
  rw [FieldDie.get_eq (F_CFG_LOCK_state l) same, FieldDie.get_eq (F_CFG_LOCK_owner l) same]

theorem storeWrite_timSys (h : ownsLock f req 3 = true) (data : Nat) : storeWrite req F_TIM_SYS data f = timSysStored data f := by
  have fields : timSysRow.fields.foldl (fun a fld => writeField f req timSysRow.sweep data fld a) (f.rdN F_TIM_SYS, false, false) =
      (timSysWord (f.rdN F_TIM_SYS) data, false, true) := by
    simp only [timSysRow, List.foldl_cons, List.foldl_nil, writeField, h, RegField.covered]
    rfl
  unfold storeWrite
  rw [regRow_timSys]
  dsimp only
  rw [fields]
  simp only [timSysRow, List.any_cons, List.any_nil, ownsLock_wrN (l := 3) (a := F_TIM_SYS) (by decide), h]
  rfl

theorem timSysStored_word (data : Nat) (f : FieldDie) : (timSysStored data f).rdN F_TIM_SYS = timSysWord (f.rdN F_TIM_SYS) data :=
  storedAt_rdN_any (timSysWord_lt (f.rdN_lt _) data) (by decide) (by decide) _ f

theorem timSysStored_domain (data : Nat) (f : FieldDie) : (timSysStored data f).get F_TIM_SYS_domain = bitsOf data 0 0 := by
  unfold FieldDie.get
  rw [show F_TIM_SYS_domain.addr = F_TIM_SYS from rfl, timSysStored_word]
  exact timSysWord_domain _ _

theorem timSysStored_active (data : Nat) (f : FieldDie) : (timSysStored data f).activeDom = f.activeDom := by
  unfold FieldDie.activeDom FieldDie.get
  rw [show F_TIM_SYS_active.addr = F_TIM_SYS from rfl, timSysStored_word]
  exact timSysWord_active _ _

/-- The cross-check's own record follows its enables; nothing else of time does. -/
theorem refreshXc_eq (f : FieldDie) : ∃ x : TimeX, refreshXc f = { f with tim := x } ∧ x.a = f.tim.a ∧ x.c = f.tim.c ∧
    x.bOff = f.tim.bOff ∧ x.delta = f.tim.delta := by
  unfold refreshXc
  dsimp only
  split
  · exact ⟨f.tim, rfl, rfl, rfl, rfl, rfl⟩
  · exact ⟨_, rfl, rfl, rfl, rfl, rfl⟩

theorem writeTimSys_of_owned (h : ownsLock f req 3 = true) (hr : f.isRunning = true) (data : Nat) :
    writeTimSys req data f = domainNamed (refreshXc (timSysStored data f)) := by
  have running : (refreshXc (timSysStored data f)).isRunning = true := by
    obtain ⟨x, hx, -⟩ := refreshXc_eq (timSysStored data f)
    rw [hx]
    exact (storedAt_isRunning _ _ _ f).trans hr
  unfold writeTimSys
  rw [lkDenied_timSys h, storeWrite_timSys h]
  dsimp only
  rw [if_pos (by rw [running]; rfl)]

/-- The difference that becomes the offset when the domain in use becomes `y`. -/
def switchDelta (y : Nat) (f : FieldDie) : Int := domDiff ((f.dom f.activeDom : Int) + f.tim.delta - (f.dom y : Int))

theorem switchTo_refused (h : secFix < (switchDelta y f).natAbs) : switchTo y f = timeEvt 3 y f := if_pos h

theorem switchTo_taken (h : (switchDelta y f).natAbs ≤ secFix) : switchTo y f =
    timeEvt 2 y ({ f with tim := { f.tim with delta := switchDelta y f, timeDue := true } }.put F_TIM_SYS_active y) :=
  if_neg (not_lt.2 h)

/-! ### What a switch request leaves (R543 to R547) -/

/-- A die whose F_TIM_SYS has been written, its cross-check brought up to date: `y` is the domain that it names. -/
structure SysWritten (y : Nat) (f g : FieldDie) : Prop where
  moves : SoftMoves [F_TIM_SYS, F_CFG_PROOF_STAT] { f with cfg := g.cfg, tim := g.tim } g
  named : g.get F_TIM_SYS_domain = y
  active : g.activeDom = f.activeDom
  dom : ∀ d, g.dom d = f.dom d
  delta : g.tim.delta = f.tim.delta

theorem sysWritten (data : Nat) (f : FieldDie) :
    SysWritten (bitsOf data 0 0) f (refreshXc (timSysStored data f.napBreak)) := by
  obtain ⟨x, hx, ha, hc, ho, hd⟩ := refreshXc_eq (timSysStored data f.napBreak)
  have stored := storedAt_napBreak_softMoves F_TIM_SYS (timSysWord (f.napBreak.rdN F_TIM_SYS) data)
    { f.napBreak.cfg with tmr := f.napBreak.cfg.tmr.filter (fun e => tmrReg e.1 != F_TIM_SYS) } f
  have tim : (timSysStored data f.napBreak).tim = f.tim := (tim_of_rest stored.rest).trans rfl
  have named := timSysStored_domain data f.napBreak
  have active := timSysStored_active data f.napBreak
  have inputs : ∀ a ∈ rateInputs, (timSysStored data f.napBreak).rd a = f.rd a := fun a ha => by
    have apart : ∀ a ∈ rateInputs, a ∉ [F_TIM_SYS, F_CFG_PROOF_STAT] ∧ a ∉ coverRegs := by decide
    exact stored.rd_eq (apart a ha).1 (apart a ha).2
  rw [hx]
  refine ⟨stored.withTim x, named, active, dom_eq ?_ ?_ ?_ inputs, hd.trans (congrArg TimeX.delta tim)⟩
  · exact ha.trans (congrArg TimeX.a tim)
  · exact hc.trans (congrArg TimeX.c tim)
  · exact ho.trans (congrArg TimeX.bOff tim)

theorem SysWritten.switchDelta_eq (w : SysWritten y f g) : switchDelta y g = switchDelta y f := by
  unfold switchDelta
  rw [w.active, w.dom, w.dom, w.delta]

theorem SysWritten.sysFix_eq (w : SysWritten y f g) : g.sysFix = f.sysFix := by
  rw [sysFix_dom, sysFix_dom, w.active, w.dom, w.delta]

theorem SysWritten.domainNamed_eq (w : SysWritten y f g) (hy : y ≠ f.activeDom) : domainNamed g = switchTo y g := by
  unfold domainNamed
  rw [w.named, w.active, if_neg hy]

theorem settle_activeDom (f : FieldDie) : (settle f).activeDom = f.activeDom := settle_get_of_notMem (by decide)

theorem settle_sysFix (f : FieldDie) : (settle f).sysFix = f.sysFix := by
  unfold FieldDie.sysFix FieldDie.domA
  rw [settle_activeDom, settle_domB, settle_tim]

/-- Neither event moves the domains or the choice between them. -/
theorem timeEvt_clock (bit index : Nat) (f : FieldDie) : (timeEvt bit index f).tim = f.tim ∧
    (timeEvt bit index f).activeDom = f.activeDom ∧ ∀ d, (timeEvt bit index f).dom d = f.dom d := by
  have moves := timeEvt_softMoves (but := [F_TIM_EVT_INFO, F_TIM_EVT]) (by decide) (by decide) bit index f
  have apart : ∀ a ∈ F_TIM_SYS :: rateInputs, a ∉ [F_TIM_EVT_INFO, F_TIM_EVT] ∧ a ∉ coverRegs := by decide
  have tim := tim_of_rest moves.rest
  refine ⟨tim, moves.get_eq (r := F_TIM_SYS_active) (by decide) (by decide), dom_eq ?_ ?_ ?_ fun a ha => ?_⟩
  · rw [tim]
  · rw [tim]
  · rw [tim]
  · exact moves.rd_eq (apart a (List.mem_cons_of_mem _ ha)).1 (apart a (List.mem_cons_of_mem _ ha)).2

theorem SysWritten.refused (w : SysWritten y s.fld g) (hy : y ≠ s.fld.activeDom) (h : secFix < (switchDelta y s.fld).natAbs) :
    (settle (domainNamed g)).activeDom = s.fld.activeDom ∧ (settle (domainNamed g)).sysFix = s.fld.sysFix ∧
      (settle (domainNamed g)).sq F_TIM_EVT 3 = true ∧
      FieldFrame [F_TIM_SYS, F_CFG_PROOF_STAT, F_TIM_EVT_INFO, F_TIM_EVT]
        { s.fld with cfg := (settle (domainNamed g)).cfg, tim := (settle (domainNamed g)).tim } s
        { s with fld := settle (domainNamed g) } := by
  rw [w.domainNamed_eq hy, switchTo_refused (by rwa [w.switchDelta_eq])]
  obtain ⟨tim, active, dom⟩ := timeEvt_clock 3 y g
  have moves : SoftMoves [F_TIM_SYS, F_CFG_PROOF_STAT, F_TIM_EVT_INFO, F_TIM_EVT] { s.fld with cfg := g.cfg, tim := g.tim }
      (timeEvt 3 y g) := (w.moves.mono (by simp)).trans (timeEvt_softMoves (by simp) (by simp) 3 y g)
  have cfg : (timeEvt 3 y g).cfg = g.cfg := moves.cfg_eq
  refine ⟨?_, ?_, (settle_sq_of_notMem (by decide)).trans (timeEvt_raises (by decide) y g), ?_⟩
  · rw [settle_activeDom, active, w.active]
  · rw [settle_sysFix, sysFix_dom, active, dom, tim, ← sysFix_dom, w.sysFix_eq]
  · rw [settle_cfg, settle_tim, cfg, tim]
    exact moves.frame rfl

/-- The die whose domain in use has become `y`, before the event. -/
def switched (y : Nat) (g : FieldDie) : FieldDie :=
  { g with tim := { g.tim with delta := switchDelta y g, timeDue := true } }.put F_TIM_SYS_active y

theorem switched_active (hy : y < 2) (g : FieldDie) : (switched y g).activeDom = y :=
  (FieldDie.get_put _ F_TIM_SYS_active y (by decide) (by decide)).trans (Nat.mod_eq_of_lt hy)

theorem switched_dom (y d : Nat) (g : FieldDie) : (switched y g).dom d = g.dom d := by
  refine dom_eq (f := g) (g := switched y g) rfl rfl rfl (fun a ha => ?_) d
  have apart : ∀ a ∈ rateInputs, a ≠ F_TIM_SYS := by decide
  exact FieldDie.rd_put_ne _ F_TIM_SYS_active _ _ (apart a ha)

/-- System time does not jump at a switch (R545). -/
theorem switched_sysFix (hy : y < 2) (g : FieldDie) : (switched y g).sysFix = g.sysFix := by
  have delta : (switched y g).tim.delta = switchDelta y g := rfl
  rw [sysFix_dom, sysFix_dom, switched_active hy, switched_dom, delta]
  unfold switchDelta
  rw [domWrap_add_domDiff]
  congr 1
  ring

theorem SysWritten.taken (w : SysWritten y s.fld g) (hy : y ≠ s.fld.activeDom) (hlt : y < 2)
    (h : (switchDelta y s.fld).natAbs ≤ secFix) :
    (settle (domainNamed g)).activeDom = y ∧ (settle (domainNamed g)).sysFix = s.fld.sysFix ∧
      (settle (domainNamed g)).sq F_TIM_EVT 2 = true ∧ (settle (domainNamed g)).get F_TIM_EVT_INFO_index = y ∧
      FieldFrame [F_TIM_SYS, F_CFG_PROOF_STAT, F_TIM_EVT_INFO, F_TIM_EVT]
        { s.fld with cfg := (settle (domainNamed g)).cfg, tim := (settle (domainNamed g)).tim } s
        { s with fld := settle (domainNamed g) } := by
  have named : domainNamed g = timeEvt 2 y (switched y g) :=
    (w.domainNamed_eq hy).trans (switchTo_taken (by rwa [w.switchDelta_eq]))
  rw [named]
  obtain ⟨tim, active, dom⟩ := timeEvt_clock 2 y (switched y g)
  have moves : SoftMoves [F_TIM_SYS, F_CFG_PROOF_STAT, F_TIM_EVT_INFO, F_TIM_EVT]
      { s.fld with cfg := g.cfg, tim := (switched y g).tim } (timeEvt 2 y (switched y g)) :=
    (((w.moves.mono (by simp)).withTim (switched y g).tim).trans (FieldDie.put_softMoves (r := F_TIM_SYS_active) (by simp [F_TIM_SYS_active]) _ y)).trans
      (timeEvt_softMoves (by simp) (by simp) 2 y (switched y g))
  have cfg : (timeEvt 2 y (switched y g)).cfg = g.cfg := moves.cfg_eq
  refine ⟨?_, ?_, (settle_sq_of_notMem (by decide)).trans (timeEvt_raises (by decide) y _),
    (settle_get_of_notMem (by decide)).trans (timeEvt_index (by omega) 2 _), ?_⟩
  · rw [settle_activeDom, active, switched_active hlt]
  · rw [settle_sysFix, sysFix_dom, active, dom, tim, ← sysFix_dom, switched_sysFix hlt, w.sysFix_eq]
  · rw [settle_cfg, settle_tim, cfg, tim]
    exact moves.frame rfl

/-! ### The cross-check (R550) -/

/-- The difference of the domains at an interval's end. -/
def xcDiff (f : FieldDie) : Int := domDiff ((f.domA : Int) - (f.domB : Int)) + toSigned 32 (f.rdN F_PTB_XC) * 2 ^ 32

/-- The die that has recorded it and begins a new interval. -/
def xcRecorded (f : FieldDie) : FieldDie := { f with tim := { f.tim with
  xcPrev := some (xcDiff f)
  xcVoid := false
  xcStart := f.sysNs
  xcLog := toSigned 4 (f.get (F_TIM_PTP_CFG_log_sync 0)) } }

/-- Whether the difference has changed by more than the limit since the last interval. -/
def xcBad (f : FieldDie) : Bool :=
  match f.tim.xcPrev with
  | some p => !f.tim.xcVoid && decide (f.rdN F_TIM_XC * 2 ^ 32 < (xcDiff f - p).natAbs)
  | none => false

theorem xcIntervalEnd_of_due (hon : f.tim.xcOn = true) (hdue : f.tim.xcStart + pow2Sec f.tim.xcLog ≤ f.sysNs) :
    xcIntervalEnd f = if xcBad f then latchFault 5 0 (xcRecorded f) else xcRecorded f := by
  have go : ¬ (f.tim.xcOn = false ∨ f.sysNs < f.tim.xcStart + pow2Sec f.tim.xcLog) := by
    rintro (off | early)
    · rw [hon] at off
      cases off
    · omega
  exact if_neg go

theorem xcBad_of_within (h : f.tim.xcPrev = none ∨ f.tim.xcVoid = true ∨
    ∀ p ∈ f.tim.xcPrev, (xcDiff f - p).natAbs ≤ f.rdN F_TIM_XC * 2 ^ 32) : xcBad f = false := by
  unfold xcBad
  generalize f.rdN F_TIM_XC * 2 ^ 32 = limit at h ⊢
  generalize xcDiff f = d at h ⊢
  generalize f.tim.xcPrev = prev at h ⊢
  cases prev with
  | none => rfl
  | some p =>
    dsimp only
    obtain h | h | h := h
    · cases h
    · rw [h, Bool.not_true, Bool.false_and]
    · rw [decide_eq_false (not_lt.2 (h p (Option.mem_some_self p))), Bool.and_false]

theorem xcBad_of_beyond (hv : f.tim.xcVoid = false)
    (h : ∃ p ∈ f.tim.xcPrev, f.rdN F_TIM_XC * 2 ^ 32 < (xcDiff f - p).natAbs) : xcBad f = true := by
  unfold xcBad
  generalize f.rdN F_TIM_XC * 2 ^ 32 = limit at h ⊢
  generalize xcDiff f = d at h ⊢
  generalize f.tim.xcPrev = prev at h ⊢
  obtain ⟨p, hp, hlt⟩ := h
  obtain rfl := Option.mem_def.1 hp
  dsimp only
  rw [hv, decide_eq_true hlt]
  rfl

theorem latchFault_tim (code inst : Nat) (f : FieldDie) : (latchFault code inst f).tim = f.tim := by
  obtain ⟨h, -⟩ | h := latchFault_cases code inst f
  · rw [h]
  · rw [h.tim]
    unfold latchedDie
    dsimp only
    rw [FieldDie.setFlag_tim]
    rfl

/-! ### The time capture (R538) -/

/-- A time put in three registers reads back as itself. -/
theorem timeOf_parts {t : Nat} (h : t < 2 ^ 48 * 1000000000) : timeOf (nsOf t) (secOf t % 2 ^ 32) (secOf t / 2 ^ 32 % 65536) = t := by
  unfold timeOf nsOf secOf
  omega

/-- Sums reduced into a domain's range lie in it. -/
theorem domWrap_lt (x : Int) : domWrap x < domMod := by
  unfold domWrap
  have above := Int.emod_lt_of_pos x (show (0 : Int) < domMod by decide)
  have below := Int.emod_nonneg x (show (domMod : Int) ≠ 0 by decide)
  omega

/-- A domain's whole nanoseconds lie in the range of the capture's words. -/
theorem wholeNs_lt {v : Nat} (h : v < domMod) : v / 2 ^ 32 < 2 ^ 48 * 1000000000 := by
  unfold domMod secFix at h
  omega

theorem secHi_lt (t : Nat) : secOf t / 2 ^ 32 % 65536 < 2 ^ 32 := lt_trans (Nat.mod_lt _ (by decide)) (by decide)

theorem nsOf_lt (t : Nat) : nsOf t < 2 ^ 32 := lt_trans (Nat.mod_lt _ (by decide)) (by decide)

/-- The time that three words from `a` hold. -/
def timeAt (f : FieldDie) (a : Nat) : Nat := timeOf (f.rdN a) (f.rdN (a + 4)) (f.rdN (a + 8))

theorem timeAt_sys (f : FieldDie) : timeAt f F_TIM_CAP_SYS_NS =
    timeOf (f.rdN F_TIM_CAP_SYS_NS) (f.rdN F_TIM_CAP_SYS_SEC_LO) (f.rdN F_TIM_CAP_SYS_SEC_HI) := rfl

theorem timeAt_a (f : FieldDie) : timeAt f F_TIM_CAP_A_NS =
    timeOf (f.rdN F_TIM_CAP_A_NS) (f.rdN F_TIM_CAP_A_SEC_LO) (f.rdN F_TIM_CAP_A_SEC_HI) := rfl

theorem timeAt_b (f : FieldDie) : timeAt f F_TIM_CAP_B_NS =
    timeOf (f.rdN F_TIM_CAP_B_NS) (f.rdN F_TIM_CAP_B_SEC_LO) (f.rdN F_TIM_CAP_B_SEC_HI) := rfl

theorem putTime_softMoves (h0 : a ∈ but) (h4 : a + 4 ∈ but) (h8 : a + 8 ∈ but) (t : Nat) (f : FieldDie) :
    SoftMoves but f (putTime a t f) :=
  ((f.wrN_softMoves h0 _).trans (FieldDie.wrN_softMoves h4 _ _)).trans (FieldDie.wrN_softMoves h8 _ _)

theorem timeAt_putTime {t : Nat} (h : t < 2 ^ 48 * 1000000000) (a : Nat) (f : FieldDie) : timeAt (putTime a t f) a = t := by
  unfold timeAt putTime
  rw [FieldDie.rdN_wrN_ne (by omega), FieldDie.rdN_wrN_ne (by omega), FieldDie.rdN_wrN_same (nsOf_lt t),
    FieldDie.rdN_wrN_ne (by omega), FieldDie.rdN_wrN_same (Nat.mod_lt _ (by decide)), FieldDie.rdN_wrN_same (secHi_lt t)]
  exact timeOf_parts h

theorem timeAt_eq (h0 : g.rd a = f.rd a) (h4 : g.rd (a + 4) = f.rd (a + 4)) (h8 : g.rd (a + 8) = f.rd (a + 8)) :
    timeAt g a = timeAt f a := by
  unfold timeAt FieldDie.rdN
  rw [h0, h4, h8]

theorem putTime_rd {b : Nat} (hb : b < a ∨ a + 12 ≤ b) (t : Nat) (f : FieldDie) : (putTime a t f).rd b = f.rd b := by
  unfold putTime
  rw [FieldDie.rd_wrN, if_neg (by omega), FieldDie.rd_wrN, if_neg (by omega), FieldDie.rd_wrN, if_neg (by omega)]

theorem timeAt_putTime_other {b : Nat} (hb : b + 12 ≤ a ∨ a + 12 ≤ b) (t : Nat) (f : FieldDie) :
    timeAt (putTime a t f) b = timeAt f b :=
  timeAt_eq (putTime_rd (by omega) t f) (putTime_rd (by omega) t f) (putTime_rd (by omega) t f)

theorem timeAt_wrN_other {b v : Nat} (hb : b + 12 ≤ a ∨ a < b) (f : FieldDie) : timeAt (f.wrN a v) b = timeAt f b := by
  refine timeAt_eq ?_ ?_ ?_ <;> exact (FieldDie.rd_wrN _ _ _ _).trans (if_neg (by omega))

/-- The registers of a capture. -/
def capRegs : List Nat :=
  [F_TIM_CAP_SYS_NS, F_TIM_CAP_SYS_SEC_LO, F_TIM_CAP_SYS_SEC_HI, F_TIM_CAP_A_NS, F_TIM_CAP_A_SEC_LO, F_TIM_CAP_A_SEC_HI,
    F_TIM_CAP_B_NS, F_TIM_CAP_B_SEC_LO, F_TIM_CAP_B_SEC_HI, F_TIM_CAP_CNT_LO, F_TIM_CAP_CNT_HI]

/-- The die that has captured its times. -/
def captured (f : FieldDie) : FieldDie :=
  ((putTime F_TIM_CAP_B_NS (f.domB / 2 ^ 32) (putTime F_TIM_CAP_A_NS (f.domA / 2 ^ 32) (putTime F_TIM_CAP_SYS_NS f.sysNs f))).wrN
    F_TIM_CAP_CNT_LO (f.now % 2 ^ 32)).wrN F_TIM_CAP_CNT_HI (f.now / 2 ^ 32 % 2 ^ 32)

theorem putTime_now (a t : Nat) (f : FieldDie) : (putTime a t f).now = f.now := by
  unfold FieldDie.now putTime
  rw [FieldDie.wrN_tim, FieldDie.wrN_tim, FieldDie.wrN_tim]

theorem writeTimCap_of_snap (h : hasBit data 0 = true) (f : FieldDie) : writeTimCap data f = captured f := by
  unfold writeTimCap captured
  rw [if_pos h]
  dsimp only
  rw [putTime_now, putTime_now, putTime_now]

theorem captured_softMoves (f : FieldDie) : SoftMoves capRegs f (captured f) :=
  ((((putTime_softMoves (by decide) (by decide) (by decide) _ f).trans (putTime_softMoves (by decide) (by decide) (by decide) _ _)).trans
    (putTime_softMoves (by decide) (by decide) (by decide) _ _)).trans (FieldDie.wrN_softMoves (by decide) _ _)).trans
    (FieldDie.wrN_softMoves (by decide) _ _)

theorem captured_sys (f : FieldDie) : timeAt (captured f) F_TIM_CAP_SYS_NS = f.sysNs := by
  unfold captured
  rw [timeAt_wrN_other (by decide), timeAt_wrN_other (by decide), timeAt_putTime_other (by decide),
    timeAt_putTime_other (by decide)]
  exact timeAt_putTime (wholeNs_lt (domWrap_lt _)) _ f

theorem captured_a (h : f.domA < domMod) : timeAt (captured f) F_TIM_CAP_A_NS = f.domA / 2 ^ 32 := by
  unfold captured
  rw [timeAt_wrN_other (by decide), timeAt_wrN_other (by decide), timeAt_putTime_other (by decide)]
  exact timeAt_putTime (wholeNs_lt h) _ _

theorem captured_b (f : FieldDie) : timeAt (captured f) F_TIM_CAP_B_NS = f.domB / 2 ^ 32 := by
  unfold captured
  rw [timeAt_wrN_other (by decide), timeAt_wrN_other (by decide)]
  exact timeAt_putTime (wholeNs_lt (domWrap_lt _)) _ _

theorem captured_count (h : f.now < 2 ^ 64) :
    (captured f).rdN F_TIM_CAP_CNT_LO + 2 ^ 32 * (captured f).rdN F_TIM_CAP_CNT_HI = f.now := by
  have lo : (captured f).rdN F_TIM_CAP_CNT_LO = f.now % 2 ^ 32 :=
    (FieldDie.rdN_wrN_ne (by decide) _ _).trans (FieldDie.rdN_wrN_same (Nat.mod_lt _ (by decide)) _ _)
  have hi : (captured f).rdN F_TIM_CAP_CNT_HI = f.now / 2 ^ 32 % 2 ^ 32 := FieldDie.rdN_wrN_same (Nat.mod_lt _ (by decide)) _ _
  rw [lo, hi]
  omega

theorem settle_timeAt (h : ∀ b ∈ [a, a + 4, a + 8], b ∉ coverRegs) (f : FieldDie) : timeAt (settle f) a = timeAt f a :=
  timeAt_eq (settle_rd_of_notMem f (h _ (by simp))) (settle_rd_of_notMem f (h _ (by simp))) (settle_rd_of_notMem f (h _ (by simp)))

/-! ### The obligation -/

theorem switch_clause (s : State) (req : Nat) (data : Word) (hr : s.fld.phase = .running) (ho : ownsLock s.fld req 3 = true) :
    exec (.domainSwitchRequest req data) s =
      .next { s with fld := settle (domainNamed (refreshXc (timSysStored data.toNat s.fld.napBreak))) } := by
  have running : s.fld.isRunning = true := isRunning_of_phase hr
  have can : s.fld.canWrite req = true := by
    unfold FieldDie.canWrite
    rw [running, Bool.true_or]
  have written := writeTimSys_of_owned (f := s.fld.napBreak) ho running data.toNat
  rw [← written]
  exact State.onWrite_of_canWrite can

theorem xcWithin_clause (s : State) (hr : s.fld.phase = .running) (hon : s.fld.tim.xcOn = true)
    (hdue : s.fld.tim.xcStart + pow2Sec s.fld.tim.xcLog ≤ s.fld.sysNs)
    (h : s.fld.tim.xcPrev = none ∨ s.fld.tim.xcVoid = true ∨
      ∀ p ∈ s.fld.tim.xcPrev, (xcDiff s.fld - p).natAbs ≤ s.fld.rdN F_TIM_XC * 2 ^ 32) :
    ∃ t, exec .xcIntervalEnd s = .next t ∧ t.fld.tim.xcPrev = some (xcDiff s.fld) ∧ t.fld.tim.xcVoid = false ∧
      t.fld.tim.xcStart = s.fld.sysNs ∧ FieldFrame [] { s.fld with tim := t.fld.tim } s t := by
  have step := State.onRun_running (g := xcIntervalEnd) hr
  rw [xcIntervalEnd_of_due hon hdue, xcBad_of_within h, if_neg Bool.false_ne_true] at step
  refine ⟨_, step, ?_, ?_, ?_, ?_⟩
  all_goals dsimp only
  all_goals rw [settle_tim]
  · rfl
  · rfl
  · rfl
  · exact SoftMoves.frame (.refl [] (xcRecorded s.fld)) rfl

theorem xcBeyond_clause (s : State) (hr : s.fld.phase = .running) (hon : s.fld.tim.xcOn = true)
    (hdue : s.fld.tim.xcStart + pow2Sec s.fld.tim.xcLog ≤ s.fld.sysNs) (hv : s.fld.tim.xcVoid = false)
    (h : ∃ p ∈ s.fld.tim.xcPrev, s.fld.rdN F_TIM_XC * 2 ^ 32 < (xcDiff s.fld - p).natAbs) :
    ∃ t, exec .xcIntervalEnd s = .next t ∧ t.fld.tim.xcPrev = some (xcDiff s.fld) ∧ t.fld.sq F_FLT_EVT 5 = true ∧ FieldOnly s t := by
  have step := State.onRun_running (g := xcIntervalEnd) hr
  rw [xcIntervalEnd_of_due hon hdue, xcBad_of_beyond hv h, if_pos rfl] at step
  refine ⟨_, step, ?_, ?_, ⟨rfl, rfl, rfl, rfl⟩⟩
  · dsimp only
    rw [settle_tim, latchFault_tim]
    rfl
  · dsimp only
    rw [settle_sq_of_notMem (by decide)]
    exact latchFault_sq (by decide) 0 _

theorem capture_clause (s : State) (req : Nat) (data : Word) (hw : s.fld.canWrite req = true) (hgo : hasBit data.toNat 0 = true)
    (hnow : s.fld.now < 2 ^ 64) (ha : s.fld.domA < domMod) :
    ∃ t, exec (.timeCaptureSnap req data) s = .next t ∧
      timeOf (t.fld.rdN F_TIM_CAP_SYS_NS) (t.fld.rdN F_TIM_CAP_SYS_SEC_LO) (t.fld.rdN F_TIM_CAP_SYS_SEC_HI) = s.fld.sysNs ∧
      timeOf (t.fld.rdN F_TIM_CAP_A_NS) (t.fld.rdN F_TIM_CAP_A_SEC_LO) (t.fld.rdN F_TIM_CAP_A_SEC_HI) = s.fld.domA / 2 ^ 32 ∧
      timeOf (t.fld.rdN F_TIM_CAP_B_NS) (t.fld.rdN F_TIM_CAP_B_SEC_LO) (t.fld.rdN F_TIM_CAP_B_SEC_HI) = s.fld.domB / 2 ^ 32 ∧
      t.fld.rdN F_TIM_CAP_CNT_LO + 2 ^ 32 * t.fld.rdN F_TIM_CAP_CNT_HI = s.fld.now ∧ FieldFrame capRegs s.fld s t := by
  have step := State.onWrite_of_canWrite (k := writeTimCap data.toNat) hw
  rw [writeTimCap_of_snap hgo] at step
  refine ⟨_, step, ?_, ?_, ?_, ?_, (s.fld.napBreak_softMoves.trans (captured_softMoves _)).frame rfl⟩
  all_goals dsimp only
  · rw [← timeAt_sys, settle_timeAt (by decide)]
    exact captured_sys s.fld.napBreak
  · rw [← timeAt_a, settle_timeAt (by decide)]
    exact captured_a (f := s.fld.napBreak) ha
  · rw [← timeAt_b, settle_timeAt (by decide)]
    exact captured_b s.fld.napBreak
  · rw [settle_rdN_of_notMem (by decide), settle_rdN_of_notMem (by decide)]
    exact captured_count (f := s.fld.napBreak) hnow

/-- Settles O38: a write under the lock is `SysWritten` and then switches or is refused; the cross-check records its
difference before it judges it; a capture puts each time in its own words. -/
theorem domainsAreSwitchedAndCompared : Obligations.DomainsAreSwitchedAndCompared := by
  unfold Obligations.DomainsAreSwitchedAndCompared
  refine ⟨fun s req data hr ho hy => ⟨fun h => ?_, fun h => ?_⟩, fun s d hr hon hdue hd => ?_, capture_clause⟩
  · exact ⟨_, switch_clause s req data hr ho, (sysWritten data.toNat s.fld).taken hy (bitsOf_lt _ _ _) h⟩
  · exact ⟨_, switch_clause s req data hr ho, (sysWritten data.toNat s.fld).refused hy h⟩
  · obtain rfl : d = xcDiff s.fld := hd
    exact ⟨xcWithin_clause s hr hon hdue, xcBeyond_clause s hr hon hdue⟩

end Sys2Proof.Machine
end


section
/-! Shutters and capture inputs (O40; R577 to R582). -/

namespace Sys2Proof.Machine

variable {but : List Nat} {f g : FieldDie} {s : State} {req data k m t a b p : Nat}

/-! ### Lists of like things -/

theorem getD_modAt_self {α : Type} {xs : List α} (h : k < xs.length) (g : α → α) (d : α) :
    (modAt xs k g).getD k d = g (xs.getD k d) := by
  unfold modAt
  simp [List.getD_eq_getElem?_getD, h]

theorem getD_modAt_ne {α : Type} (h : m ≠ k) (xs : List α) (g : α → α) (d : α) : (modAt xs k g).getD m d = xs.getD m d := by
  unfold modAt
  simp [List.getD_eq_getElem?_getD, h.symm]

/-! ### A shutter moves (R577) -/

theorem shutter_setShutter_self {x : Shutter → Shutter} (h : k < f.tim.shutters.length) :
    (f.setShutter k x).shutter k = x (f.shutter k) := getD_modAt_self h _ _

theorem shutter_setShutter_ne {x : Shutter → Shutter} (h : m ≠ k) (f : FieldDie) : (f.setShutter k x).shutter m = f.shutter m :=
  getD_modAt_ne h _ _ _

theorem shutter_of_tim (h : g.tim = f.tim) (m : Nat) : g.shutter m = f.shutter m := by
  unfold FieldDie.shutter
  rw [h]

/-- The level that the output of shutter `k` should have. -/
def shutterLevel (f : FieldDie) (k : Nat) : Nat :=
  ((if (f.shutter k).active then 1 else 0) + f.get (F_TIM_SHUT_CTRL_invert k)) % 2

/-- The output of shutter `k` brought to its level. -/
def showShutter (k t : Nat) (f : FieldDie) : FieldDie :=
  if shutterLevel f k = f.get (F_TIM_SHUT_CTRL_level k) then f
  else (f.put (F_TIM_SHUT_CTRL_level k) (shutterLevel f k)).emit (.shutter k (shutterLevel f k) t)

/-- The shutter of which a pulse begins or ends at time `t`, as its values say. -/
def movedShutter (k t : Nat) (f : FieldDie) : FieldDie := f.setShutter k (fun x => { x.at_ t with missing := false })

theorem refreshShutter_of_free (h : hasBit f.pin.shutOff k = false) :
    refreshShutter k f = showShutter k f.sysNs (movedShutter k f.sysNs f) := by
  unfold refreshShutter moveShutter
  simp only [h, Bool.false_eq_true, if_false]
  rfl

theorem showShutter_tim (k t : Nat) (f : FieldDie) : (showShutter k t f).tim = f.tim := by
  unfold showShutter
  split
  · rfl
  · rfl

theorem showShutter_softMoves (h : F_TIM_SHUT_CTRL k ∈ but) (t : Nat) (f : FieldDie) : SoftMoves but f (showShutter k t f) := by
  unfold showShutter
  split
  · exact .refl but f
  · exact (f.put_softMoves (r := F_TIM_SHUT_CTRL_level k) h _).trans (FieldDie.emit_softMoves _ _)

theorem shutterLevel_lt (f : FieldDie) (k : Nat) : shutterLevel f k < 2 := Nat.mod_lt _ (by decide)

theorem showShutter_level (k t : Nat) (f : FieldDie) : (showShutter k t f).get (F_TIM_SHUT_CTRL_level k) = shutterLevel f k := by
  unfold showShutter
  split
  next same => exact same.symm
  next =>
    refine (FieldDie.get_put f (F_TIM_SHUT_CTRL_level k) _ (Nat.le_refl 0) (by show 0 < 32; decide)).trans ?_
    exact Nat.mod_eq_of_lt (shutterLevel_lt f k)

/-- A field beside the level stands. -/
theorem showShutter_get {r : Fld} (hr : r.addr = F_TIM_SHUT_CTRL k) (hlo : 0 < r.lo) (t : Nat) (f : FieldDie) :
    (showShutter k t f).get r = f.get r := by
  unfold showShutter
  split
  · rfl
  · exact FieldDie.get_put_field f (F_TIM_SHUT_CTRL_level k) r _ hr (Nat.le_refl 0) (by show 0 < 32; decide) (.inl hlo)

theorem shutCtrl_notMem (h : k < 4) : F_TIM_SHUT_CTRL k ∉ coverRegs := by
  simp only [coverRegs, List.mem_cons, List.not_mem_nil, or_false, not_or]
  unfold F_TIM_SHUT_CTRL F_FLT_COVER F_FLT_EVT2 F_XNG_EVT
  omega

/-- What a refresh leaves of the shutters and its own output, for one that no pair holds. -/
structure ShutterMoved (k : Nat) (f g : FieldDie) : Prop where
  own : g.shutter k = { (f.shutter k).at_ f.sysNs with missing := false }
  others : ∀ m, m ≠ k → g.shutter m = f.shutter m
  level : g.get (F_TIM_SHUT_CTRL_level k) = ((if ((f.shutter k).at_ f.sysNs).active then 1 else 0) + f.get (F_TIM_SHUT_CTRL_invert k)) % 2
  tim : g.tim = { f.tim with shutters := g.tim.shutters }
  moves : SoftMoves [F_TIM_SHUT_CTRL k] { f with tim := g.tim } g

theorem refreshShutter_moved (hoff : hasBit f.pin.shutOff k = false) (hk : k < f.tim.shutters.length) :
    ShutterMoved k f (refreshShutter k f) := by
  have moved : (movedShutter k f.sysNs f).shutter k = { (f.shutter k).at_ f.sysNs with missing := false } := shutter_setShutter_self hk
  rw [refreshShutter_of_free hoff]
  have tim := showShutter_tim k f.sysNs (movedShutter k f.sysNs f)
  refine ⟨(shutter_of_tim tim k).trans moved, fun m hm => (shutter_of_tim tim m).trans (shutter_setShutter_ne hm f), ?_, ?_, ?_⟩
  · refine (showShutter_level k f.sysNs _).trans ?_
    unfold shutterLevel
    rw [moved]
    rfl
  · rw [tim]
    rfl
  · rw [tim]
    exact showShutter_softMoves (List.mem_singleton.2 rfl) _ (movedShutter k f.sysNs f)

/-! ### A write of F_TIM_SHUT_k_CTRL (R578) -/

/-- Arm and invert are software's and covered, the level is the die's. -/
def shutCtrlRow : RegRow := ⟨0x1C041C, 0x20, 4, .const 0, false, true,
  [⟨31, 31, .rw, false, none, true⟩, ⟨1, 1, .rw, false, none, false⟩, ⟨0, 0, .ro, false, none, false⟩]⟩

theorem regRow_shutCtrl : ∀ k, k < 4 → regRow (F_TIM_SHUT_CTRL k) = some shutCtrlRow := by decide

/-- The word that a write of `data` makes of `w`. -/
def shutCtrlWord (w data : Nat) : Nat := putBits (putBits w 31 31 (bitsOf data 31 31)) 1 1 (bitsOf data 1 1)

/-- The die of which the control of shutter `k` has been written. -/
abbrev shutStored (k data : Nat) (f : FieldDie) : FieldDie :=
  storedAt (F_TIM_SHUT_CTRL k) (shutCtrlWord (f.rdN (F_TIM_SHUT_CTRL k)) data) f.cfg f

theorem storeWrite_shutCtrl (hk : k < 4) (req data : Nat) (f : FieldDie) :
    storeWrite req (F_TIM_SHUT_CTRL k) data f = shutStored k data f := by
  unfold storeWrite
  rw [regRow_shutCtrl k hk]
  rfl

/-- The times and the period of a shutter. -/
def shutInputs (k : Nat) : List Nat :=
  [F_TIM_SHUT_START_NS k, F_TIM_SHUT_START_NS k + 4, F_TIM_SHUT_START_NS k + 8, F_TIM_SHUT_STOP_NS k, F_TIM_SHUT_STOP_NS k + 4,
    F_TIM_SHUT_STOP_NS k + 8, F_TIM_SHUT_PERIOD k]

theorem shutInputs_apart : ∀ k, k < 4 → ∀ a ∈ clockRegs ++ shutInputs k,
    a ∉ [F_TIM_SHUT_CTRL k, F_CFG_PROOF_STAT] ∧ a ∉ coverRegs := by decide

theorem shutTime_eq (h : ∀ b ∈ [a, a + 4, a + 8], g.rd b = f.rd b) : shutTime g a = shutTime f a := by
  unfold shutTime FieldDie.rdN
  rw [h a (by simp), h (a + 4) (by simp), h (a + 8) (by simp)]

/-- What a stored control leaves of what arms the shutter. -/
structure ShutWritten (k : Nat) (f g : FieldDie) : Prop where
  moves : SoftMoves [F_TIM_SHUT_CTRL k, F_CFG_PROOF_STAT] { f with cfg := g.cfg } g
  sysNs : g.sysNs = f.sysNs
  start : shutTime g (F_TIM_SHUT_START_NS k) = shutTime f (F_TIM_SHUT_START_NS k)
  stop : shutTime g (F_TIM_SHUT_STOP_NS k) = shutTime f (F_TIM_SHUT_STOP_NS k)
  period : g.get (F_TIM_SHUT_PERIOD_period k) = f.get (F_TIM_SHUT_PERIOD_period k)

theorem ShutWritten.tim (w : ShutWritten k f g) : g.tim = f.tim := (tim_of_rest w.moves.rest).trans rfl

theorem ShutWritten.pin (w : ShutWritten k f g) : g.pin = f.pin := by
  have pin_rest : ∀ x : FieldDie, x.pin = x.rest.pin := fun _ => rfl
  rw [pin_rest g, w.moves.rest]
  rfl

theorem shutWritten (hk : k < 4) (data : Nat) (f : FieldDie) : ShutWritten k f (shutStored k data f.napBreak) := by
  have stored := storedAt_napBreak_softMoves (F_TIM_SHUT_CTRL k) (shutCtrlWord (f.napBreak.rdN (F_TIM_SHUT_CTRL k)) data) f.napBreak.cfg f
  have kept : ∀ b ∈ clockRegs ++ shutInputs k, (shutStored k data f.napBreak).rd b = f.rd b := fun b hb =>
    stored.rd_eq (shutInputs_apart k hk b hb).1 (shutInputs_apart k hk b hb).2
  have input : ∀ b ∈ shutInputs k, (shutStored k data f.napBreak).rd b = f.rd b := fun b hb =>
    kept b (List.mem_append_right _ hb)
  refine ⟨stored, ?_, shutTime_eq fun b hb => input b ?_, shutTime_eq fun b hb => input b ?_,
    FieldDie.get_eq _ (input (F_TIM_SHUT_PERIOD k) (by simp [shutInputs]))⟩
  · exact (sysNs_eq (side_of_rest stored.rest) fun b hb => kept b (List.mem_append_left _ hb)).trans rfl
  · simp only [List.mem_cons, List.not_mem_nil, or_false] at hb
    obtain rfl | rfl | rfl := hb <;> simp [shutInputs]
  · simp only [List.mem_cons, List.not_mem_nil, or_false] at hb
    obtain rfl | rfl | rfl := hb <;> simp [shutInputs]

/-- The die whose shutter `k` has been given values, in no pulse yet. -/
def armedDie (k a b p : Nat) (f : FieldDie) : FieldDie := f.setShutter k (fun _ => { armed := true, start := a, stop := b, period := p })

/-- The die whose shutter `k` has been disarmed. -/
def disarmedDie (k : Nat) (f : FieldDie) : FieldDie :=
  (f.put (F_TIM_SHUT_CTRL_arm k) 0).setShutter k (fun x => { x with armed := false, next := none })

/-- Values that R578 admits. -/
def shutAdmitted (t a b p : Nat) : Prop := a + 8 ≤ b ∧ (p = 0 → t ≤ b) ∧ (p ≠ 0 → b - a + 8 ≤ p)

theorem writeShutter_admitted (hk : k < 4) (h31 : hasBit data 31 = true)
    (w : ShutWritten k f (shutStored k data g)) (ha : a = shutTime f (F_TIM_SHUT_START_NS k))
    (hb : b = shutTime f (F_TIM_SHUT_STOP_NS k)) (hp : p = f.get (F_TIM_SHUT_PERIOD_period k))
    (hact : (f.shutter k).active = false) (h : shutAdmitted f.sysNs a b p) :
    writeShutter req k data g = refreshShutter k (armedDie k a b p (shutStored k data g)) := by
  obtain ⟨hab, hlate, hper⟩ := h
  have active : ((shutStored k data g).shutter k).active = false := by rw [shutter_of_tim w.tim, hact]
  unfold writeShutter
  rw [storeWrite_shutCtrl hk]
  dsimp only
  rw [if_neg (by rw [h31]; exact Bool.noConfusion), w.start, w.stop, w.period, w.sysNs, ← ha, ← hb, ← hp, if_neg (by omega),
    if_neg (by omega), if_neg (by rw [active]; exact Bool.false_ne_true)]
  rfl

theorem writeShutter_short (hk : k < 4) (h31 : hasBit data 31 = true)
    (w : ShutWritten k f (shutStored k data g)) (ha : a = shutTime f (F_TIM_SHUT_START_NS k))
    (hb : b = shutTime f (F_TIM_SHUT_STOP_NS k)) (h : b < a + 8) :
    writeShutter req k data g = timeEvt 0 k (refreshShutter k (disarmedDie k (shutStored k data g))) := by
  unfold writeShutter
  rw [storeWrite_shutCtrl hk]
  dsimp only
  rw [if_neg (by rw [h31]; exact Bool.noConfusion), w.start, w.stop, ← ha, ← hb, if_pos h]
  rfl

/-! ### The shutter's clauses -/

theorem timeEvt_get_arm (hk : k < 4) (bit index : Nat) (f : FieldDie) :
    (timeEvt bit index f).get (F_TIM_SHUT_CTRL_arm k) = f.get (F_TIM_SHUT_CTRL_arm k) := by
  have moves := timeEvt_softMoves (but := [F_TIM_EVT_INFO, F_TIM_EVT]) (by decide) (by decide) bit index f
  refine moves.get_eq (r := F_TIM_SHUT_CTRL_arm k) ?_ (shutCtrl_notMem hk)
  show F_TIM_SHUT_CTRL k ∉ _
  unfold F_TIM_SHUT_CTRL F_TIM_EVT_INFO F_TIM_EVT
  simp only [List.mem_cons, List.not_mem_nil, or_false]
  omega

theorem disarmedDie_shutter_ne (h : m ≠ k) (f : FieldDie) : (disarmedDie k f).shutter m = f.shutter m := by
  unfold disarmedDie
  rw [shutter_setShutter_ne h]
  exact shutter_of_tim (f.put_tim _ _) m

theorem setShutter_softMoves (k : Nat) (y : Shutter → Shutter) (x : TimeX) (f : FieldDie) :
    SoftMoves but { f with tim := x } { f.setShutter k y with tim := x } := .refl but { f with tim := x }

/-- Disarming, beside the shutters, writes the arm field alone. -/
theorem disarmedDie_softMoves (h : F_TIM_SHUT_CTRL k ∈ but) (x : TimeX) (f : FieldDie) :
    SoftMoves but { f with tim := x } { disarmedDie k f with tim := x } := by
  have put := (FieldDie.put_softMoves (r := F_TIM_SHUT_CTRL_arm k) h f 0).withTim x
  unfold disarmedDie
  generalize f.put (F_TIM_SHUT_CTRL_arm k) 0 = g at put ⊢
  exact put.trans (setShutter_softMoves k _ x g)

theorem setShutter_get (k : Nat) (x : Shutter → Shutter) (f : FieldDie) (r : Fld) : (f.setShutter k x).get r = f.get r := rfl

theorem disarmedDie_arm (k : Nat) (f : FieldDie) : (disarmedDie k f).get (F_TIM_SHUT_CTRL_arm k) = 0 := by
  rw [disarmedDie, setShutter_get, FieldDie.get_put f (F_TIM_SHUT_CTRL_arm k) 0 (by show 31 ≤ 31; decide) (by show 31 < 32; decide)]
  exact Nat.zero_mod _

theorem refreshShutter_arm (h : hasBit f.pin.shutOff k = false) :
    (refreshShutter k f).get (F_TIM_SHUT_CTRL_arm k) = f.get (F_TIM_SHUT_CTRL_arm k) := by
  rw [refreshShutter_of_free h]
  exact showShutter_get (r := F_TIM_SHUT_CTRL_arm k) rfl (by show 0 < 31; decide) _ _

/-- A shutter in no pulse follows its values alone. -/
theorem at_of_inactive {x : Shutter} (ha : x.active = false) (hn : x.next = none) (t : Nat) :
    x.at_ t = { x with active := x.armed && x.pulseAt t } := by
  unfold Shutter.at_
  rw [ha, hn, if_neg (by simp)]
  dsimp only
  rw [hn]

theorem at_of_disarmed {x : Shutter} (h : x.armed = false) (t : Nat) : (x.at_ t).armed = false := by
  unfold Shutter.at_
  split
  · exact h
  · cases x.next with
    | none => exact h
    | some v => exact h

/-- What a write of the control leaves beside the shutter. -/
theorem ShutWritten.frame (w : ShutWritten k f h) (sub : [F_TIM_SHUT_CTRL k, F_CFG_PROOF_STAT] ⊆ but)
    (m : SoftMoves but { h with tim := g.tim } g) (tim : g.tim = { h.tim with shutters := g.tim.shutters }) :
    SoftMoves but { f with cfg := g.cfg, tim := { f.tim with shutters := g.tim.shutters } } g := by
  have cfg : g.cfg = h.cfg := m.cfg_eq
  rw [w.tim] at tim
  have base : SoftMoves but { f with cfg := g.cfg, tim := g.tim } g := by
    rw [cfg]
    exact ((w.moves.withTim g.tim).mono sub).trans m
  exact tim ▸ base

/-- The write of the control of shutter `k` by a requester that may write. -/
theorem exec_shutterArm (hw : s.fld.canWrite req = true) (hk : k < 4) (data : Word) :
    exec (.shutterArm req k data) s = .next { s with fld := settle (writeShutter req k data.toNat s.fld.napBreak) } :=
  State.onItemWrite_of_canWrite hw hk

theorem settle_shutter (m : Nat) (f : FieldDie) : (settle f).shutter m = f.shutter m := shutter_of_tim (settle_tim f) m

theorem armedShutter_clause (s : State) (req k a b p : Nat) (data : Word) (hw : s.fld.canWrite req = true) (hs : Shape s) (hk : k < 4)
    (h31 : hasBit data.toNat 31 = true) (ha : a = shutTime s.fld (F_TIM_SHUT_START_NS k))
    (hb : b = shutTime s.fld (F_TIM_SHUT_STOP_NS k)) (hp : p = s.fld.get (F_TIM_SHUT_PERIOD_period k))
    (hact : (s.fld.shutter k).active = false) (hoff : hasBit s.fld.pin.shutOff k = false)
    (h : shutAdmitted s.fld.sysNs a b p) :
    ∃ t, exec (.shutterArm req k data) s = .next t ∧ (t.fld.shutter k).armed = true ∧ (t.fld.shutter k).start = a ∧
      (t.fld.shutter k).stop = b ∧ (t.fld.shutter k).period = p ∧
      (t.fld.shutter k).active = (t.fld.shutter k).pulseAt s.fld.sysNs ∧
      (∀ m, m ≠ k → t.fld.shutter m = s.fld.shutter m) ∧
      FieldFrame [F_TIM_SHUT_CTRL k, F_CFG_PROOF_STAT]
        { s.fld with cfg := t.fld.cfg, tim := { s.fld.tim with shutters := t.fld.tim.shutters } } s t := by
  have w := shutWritten hk data.toNat s.fld
  have step := exec_shutterArm hw hk data
  rw [writeShutter_admitted hk h31 w ha hb hp hact h] at step
  have len : k < (shutStored k data.toNat s.fld.napBreak).tim.shutters.length := by
    rw [w.tim, hs.shutters]
    exact hk
  have armed : (armedDie k a b p (shutStored k data.toNat s.fld.napBreak)).shutter k =
      { armed := true, start := a, stop := b, period := p } := shutter_setShutter_self len
  have moved := refreshShutter_moved (f := armedDie k a b p (shutStored k data.toNat s.fld.napBreak)) (k := k)
    ((congrArg (fun x => hasBit x.shutOff k) w.pin).trans hoff) (by
      refine Nat.lt_of_lt_of_eq len ?_
      exact (List.length_modify _ _ _).symm)
  have own := moved.own
  have now : (armedDie k a b p (shutStored k data.toNat s.fld.napBreak)).sysNs = s.fld.sysNs := w.sysNs
  rw [armed, now, at_of_inactive rfl rfl] at own
  refine ⟨_, step, ?_, ?_, ?_, ?_, ?_, fun m hm => ?_, ?_⟩
  all_goals dsimp only
  iterate 4
    · rw [settle_shutter, own]
  · rw [settle_shutter, own]
    rfl
  · rw [settle_shutter, moved.others m hm]
    exact (shutter_setShutter_ne hm _).trans (shutter_of_tim w.tim m)
  · rw [settle_cfg, settle_tim]
    refine (w.frame (List.Subset.refl _) (moved.moves.mono (by simp)) ?_).frame rfl
    exact moved.tim.trans rfl

theorem armShort_clause (s : State) (req k a b : Nat) (data : Word) (hw : s.fld.canWrite req = true) (hs : Shape s) (hk : k < 4)
    (h31 : hasBit data.toNat 31 = true) (ha : a = shutTime s.fld (F_TIM_SHUT_START_NS k))
    (hb : b = shutTime s.fld (F_TIM_SHUT_STOP_NS k)) (hoff : hasBit s.fld.pin.shutOff k = false) (h : b < a + 8) :
    ∃ t, exec (.shutterArm req k data) s = .next t ∧ (t.fld.shutter k).armed = false ∧ t.fld.sq F_TIM_EVT 0 = true ∧
      t.fld.get F_TIM_EVT_INFO_index = k ∧ t.fld.get (F_TIM_SHUT_CTRL_arm k) = 0 ∧
      (∀ m, m ≠ k → t.fld.shutter m = s.fld.shutter m) ∧
      FieldFrame [F_TIM_SHUT_CTRL k, F_CFG_PROOF_STAT, F_TIM_EVT_INFO, F_TIM_EVT]
        { s.fld with cfg := t.fld.cfg, tim := { s.fld.tim with shutters := t.fld.tim.shutters } } s t := by
  have w := shutWritten hk data.toNat s.fld
  have step := exec_shutterArm hw hk data
  rw [writeShutter_short hk h31 w ha hb h] at step
  have len : k < (shutStored k data.toNat s.fld.napBreak).tim.shutters.length := by
    rw [w.tim, hs.shutters]
    exact hk
  have off : hasBit (disarmedDie k (shutStored k data.toNat s.fld.napBreak)).pin.shutOff k = false :=
    (congrArg (fun x => hasBit x.shutOff k) w.pin).trans hoff
  have disarmed : ((disarmedDie k (shutStored k data.toNat s.fld.napBreak)).shutter k).armed = false :=
    congrArg Shutter.armed (shutter_setShutter_self (f := (shutStored k data.toNat s.fld.napBreak).put (F_TIM_SHUT_CTRL_arm k) 0) len)
  have moved := refreshShutter_moved (f := disarmedDie k (shutStored k data.toNat s.fld.napBreak)) (k := k)
    off (by
      refine Nat.lt_of_lt_of_eq len ?_
      exact (List.length_modify _ _ _).symm)
  have evt := timeEvt_softMoves (but := [F_TIM_SHUT_CTRL k, F_CFG_PROOF_STAT, F_TIM_EVT_INFO, F_TIM_EVT]) (by simp) (by simp) 0 k
    (refreshShutter k (disarmedDie k (shutStored k data.toNat s.fld.napBreak)))
  have tim := tim_of_rest evt.rest
  refine ⟨_, step, ?_, ?_, ?_, ?_, fun m hm => ?_, ?_⟩
  all_goals dsimp only
  · rw [settle_shutter, shutter_of_tim tim, moved.own]
    exact at_of_disarmed disarmed _
  · rw [settle_sq_of_notMem (by decide)]
    exact timeEvt_raises (by decide) k _
  · rw [settle_get_of_notMem (by decide)]
    exact timeEvt_index (by omega) 0 _
  · rw [settle_get_of_notMem (shutCtrl_notMem hk), timeEvt_get_arm hk, refreshShutter_arm off]
    exact disarmedDie_arm k _
  · rw [settle_shutter, shutter_of_tim tim, moved.others m hm]
    exact (disarmedDie_shutter_ne hm _).trans (shutter_of_tim w.tim m)
  · rw [settle_cfg, settle_tim]
    refine (w.frame (by simp) ?_ ?_).frame rfl
    · rw [tim]
      have start := disarmedDie_softMoves (but := [F_TIM_SHUT_CTRL k, F_CFG_PROOF_STAT, F_TIM_EVT_INFO, F_TIM_EVT]) List.mem_cons_self
        (refreshShutter k (disarmedDie k (shutStored k data.toNat s.fld.napBreak))).tim (shutStored k data.toNat s.fld.napBreak)
      exact (start.trans (moved.moves.mono (by simp))).trans evt
    · rw [tim]
      exact moved.tim.trans rfl

theorem edge_clause (s : State) (k : Nat) (hr : s.fld.phase = .running) (hs : Shape s) (hk : k < 4)
    (hoff : hasBit s.fld.pin.shutOff k = false) :
    ∃ t, exec (.shutterEdge k) s = .next t ∧
      t.fld.shutter k = { (s.fld.shutter k).at_ s.fld.sysNs with missing := false } ∧
      t.fld.get (F_TIM_SHUT_CTRL_level k) =
        ((if ((s.fld.shutter k).at_ s.fld.sysNs).active then 1 else 0) + s.fld.get (F_TIM_SHUT_CTRL_invert k)) % 2 ∧
      (∀ m, m ≠ k → t.fld.shutter m = s.fld.shutter m) ∧
      FieldFrame [F_TIM_SHUT_CTRL k] { s.fld with tim := { s.fld.tim with shutters := t.fld.tim.shutters } } s t := by
  have moved := refreshShutter_moved hoff (by rw [hs.shutters]; exact hk)
  refine ⟨_, State.onItem_running hr hk, ?_, ?_, fun m hm => ?_, ?_⟩
  all_goals dsimp only
  · rw [settle_shutter, moved.own]
  · rw [settle_get_of_notMem (shutCtrl_notMem hk), moved.level]
  · rw [settle_shutter, moved.others m hm]
  · rw [settle_tim]
    have moves := moved.moves
    rw [moved.tim] at moves
    exact moves.frame rfl

/-! ### Capture inputs (R582) -/

/-- The entry that an edge makes. -/
def edgeEntry (f : FieldDie) (rising : Bool) (phase : Nat) : TsEntry := { status := if rising then 1 else 0, ts := f.sysAt phase }

/-- The die that has recorded an edge of capture input `k`. -/
def edgeTaken (k : Nat) (rising : Bool) (phase : Nat) (f : FieldDie) : FieldDie :=
  { f with tim := { f.tim with
    captures := modAt f.tim.captures k (fun q => q ++ [edgeEntry f rising phase])
    capLast := modAt f.tim.capLast k (fun _ => some (8 * f.now + phase)) } }

variable {rising : Bool} {phase : Nat}

theorem captureEdge_of_far (hp : phase < 8) (hon : captureOn f k rising = true) (hd : f.flag (F_PIN_CFG_dir (8 + k)) = false)
    (h : ∀ l ∈ f.tim.capLast.getD k none, l + 16 < 8 * f.now + phase) :
    captureEdge k rising phase f = if 16 ≤ (f.tim.captures.getD k []).length then timeEvt 6 k (f.count (cGlobal (10 + k)))
      else edgeTaken k rising phase f := by
  have off : ¬(captureOn f k rising = false ∨ f.flag (F_PIN_CFG_dir (8 + k)) = true) := by simp [hon, hd]
  unfold captureEdge edgeTaken edgeEntry
  dsimp only
  rw [Nat.mod_eq_of_lt hp, if_neg off]
  refine if_neg ?_
  cases hl : f.tim.capLast.getD k none with
  | none => exact Bool.false_ne_true
  | some l =>
    have := h l hl
    simp only [decide_eq_true_eq]
    omega

theorem captureEdge_of_near {l : Nat} (hp : phase < 8) (hon : captureOn f k rising = true)
    (hd : f.flag (F_PIN_CFG_dir (8 + k)) = false) (hl : f.tim.capLast.getD k none = some l) (h : 8 * f.now + phase ≤ l + 16) :
    captureEdge k rising phase f = f.count (cGlobal (6 + k)) := by
  have off : ¬(captureOn f k rising = false ∨ f.flag (F_PIN_CFG_dir (8 + k)) = true) := by simp [hon, hd]
  unfold captureEdge
  dsimp only
  rw [Nat.mod_eq_of_lt hp, if_neg off, hl]
  exact if_pos (decide_eq_true h)

theorem captured_edge_clause (s : State) (k phase : Nat) (rising : Bool) (hr : s.fld.phase = .running) (hs : Shape s) (hk : k < 4)
    (hp : phase < 8) (hon : captureOn s.fld k rising = true) (hd : s.fld.flag (F_PIN_CFG_dir (8 + k)) = false)
    (hfar : ∀ l ∈ s.fld.tim.capLast.getD k none, l + 16 < 8 * s.fld.now + phase)
    (hroom : (s.fld.tim.captures.getD k []).length < 16) :
    ∃ t, exec (.captureEdge k rising phase) s = .next t ∧
      t.fld.tim.captures.getD k [] = s.fld.tim.captures.getD k [] ++
        [{ status := if rising then 1 else 0, ts := s.fld.sysAt phase }] ∧
      (∀ m, m ≠ k → t.fld.tim.captures.getD m [] = s.fld.tim.captures.getD m []) ∧
      FieldFrame [] { s.fld with tim := { s.fld.tim with captures := t.fld.tim.captures, capLast := t.fld.tim.capLast } } s t := by
  have step := State.onItem_running (g := captureEdge k rising phase) hr hk
  rw [captureEdge_of_far hp hon hd hfar, if_neg (by omega)] at step
  refine ⟨_, step, ?_, fun m hm => ?_, ?_⟩
  all_goals dsimp only
  all_goals rw [settle_tim]
  · exact getD_modAt_self (by rw [hs.captures]; exact hk) _ _
  · exact getD_modAt_ne hm _ _ _
  · exact SoftMoves.frame (.refl [] (edgeTaken k rising phase s.fld)) rfl

theorem full_edge_clause (s : State) (k phase : Nat) (rising : Bool) (hr : s.fld.phase = .running) (hk : k < 4)
    (hp : phase < 8) (hon : captureOn s.fld k rising = true) (hd : s.fld.flag (F_PIN_CFG_dir (8 + k)) = false)
    (hfar : ∀ l ∈ s.fld.tim.capLast.getD k none, l + 16 < 8 * s.fld.now + phase)
    (hfull : 16 ≤ (s.fld.tim.captures.getD k []).length) :
    ∃ t, exec (.captureEdge k rising phase) s = .next t ∧ t.fld.sq F_TIM_EVT 6 = true ∧ t.fld.get F_TIM_EVT_INFO_index = k ∧
      FieldFrame [F_TIM_EVT_INFO, F_TIM_EVT] (s.fld.count (cGlobal (10 + k))) s t := by
  have step := State.onItem_running (g := captureEdge k rising phase) hr hk
  rw [captureEdge_of_far hp hon hd hfar, if_pos hfull] at step
  refine ⟨_, step, ?_, ?_, (timeEvt_softMoves (by decide) (by decide) 6 k _).frame rfl⟩
  all_goals dsimp only
  · rw [settle_sq_of_notMem (by decide)]
    exact timeEvt_raises (by decide) k _
  · rw [settle_get_of_notMem (by decide)]
    exact timeEvt_index (by omega) 6 _

theorem near_edge_clause (s : State) (k phase : Nat) (rising : Bool) (hr : s.fld.phase = .running) (hk : k < 4)
    (hp : phase < 8) (hon : captureOn s.fld k rising = true) (hd : s.fld.flag (F_PIN_CFG_dir (8 + k)) = false) (l : Nat)
    (hl : s.fld.tim.capLast.getD k none = some l) (hnear : 8 * s.fld.now + phase ≤ l + 16) :
    ∃ t, exec (.captureEdge k rising phase) s = .next t ∧ FieldFrame [] (s.fld.count (cGlobal (6 + k))) s t := by
  have step := State.onItem_running (g := captureEdge k rising phase) hr hk
  rw [captureEdge_of_near hp hon hd hl hnear] at step
  exact ⟨_, step, SoftMoves.frame (.refl [] _) rfl⟩

/-- Settles O40: a written control is `ShutWritten`, a refresh is `ShutterMoved`; an edge at a capture input is near the
last one, finds its queue full, or is taken. -/
theorem shuttersAndCaptures : Obligations.ShuttersAndCaptures := by
  unfold Obligations.ShuttersAndCaptures
  refine ⟨fun s req k a b p data hw hs hk h31 ha hb hp hact hoff => ⟨fun hab hlate hper => ?_, fun h => ?_⟩, edge_clause,
    fun s k phase rising hr hs hk hp hon hd => ⟨?_, ?_, ?_⟩⟩
  · exact armedShutter_clause s req k a b p data hw hs hk h31 ha hb hp hact hoff ⟨hab, hlate, hper⟩
  · exact armShort_clause s req k a b data hw hs hk h31 ha hb hoff h
  · exact captured_edge_clause s k phase rising hr hs hk hp hon hd
  · exact fun hfar => full_edge_clause s k phase rising hr hk hp hon hd hfar
  · exact near_edge_clause s k phase rising hr hk hp hon hd

end Sys2Proof.Machine
end


section
/-! What the steps of the queues move (chapter 11): charges, admission, discarding and timestamp entries write the buffer's own
registers and those of a lost timestamp, and leave the gates and the next frame's number. -/

namespace Sys2Proof.Machine

variable {f g h : FieldDie} {n q a : Nat} {c : Copy}

/-- The registers that the queues' steps write: the buffer's, its tables, and the events of a lost timestamp or message. -/
def queueReg (a : Nat) : Prop :=
  (0x180000 ≤ a ∧ a < 0x180400) ∨ (0x501000 ≤ a ∧ a < 0x501220) ∨ a = F_TIM_EVT ∨ a = F_TIM_EVT_INFO ∨ a = F_XNG_EVT

/-- From `f` to `g` queues and frames have moved, with their registers and ports' records alone. -/
structure QueueMoves (f g : FieldDie) : Prop where
  low : LowSame f g
  regs : ∀ a, ¬ queueReg a → g.rd a = f.rd a
  gates : g.gates = f.gates
  nextId : g.buf.nextId = f.buf.nextId

theorem QueueMoves.refl (f : FieldDie) : QueueMoves f f := ⟨.refl f, fun _ _ => rfl, rfl, rfl⟩

theorem QueueMoves.trans (a : QueueMoves f g) (b : QueueMoves g h) : QueueMoves f h :=
  ⟨a.low.trans b.low, fun x hx => (b.regs x hx).trans (a.regs x hx), b.gates.trans a.gates, b.nextId.trans a.nextId⟩

/-- A step that leaves registers, gates and the buffer's numbering as they are. -/
theorem QueueMoves.ofReg (hs : g.side = f.side) (hr : g.reg = f.reg) (hg : g.gates = f.gates)
    (hb : g.buf.nextId = f.buf.nextId) : QueueMoves f g := ⟨.ofEq hs hr, fun _ _ => FieldDie.rd_eq hr _, hg, hb⟩

theorem QueueMoves.ite {p : Prop} [Decidable p] (hg : QueueMoves f g) (hh : QueueMoves f h) : QueueMoves f (if p then g else h) := by
  split
  · exact hg
  · exact hh

theorem forAll_queueMoves {α : Type} {k : α → FieldDie → FieldDie} {xs : List α} (hk : ∀ x ∈ xs, ∀ f, QueueMoves f (k x f))
    (f : FieldDie) : QueueMoves f (forAll xs k f) :=
  forAll_keeps (P := QueueMoves f) (fun x hx g m => m.trans (hk x hx g)) (.refl f)

theorem queueReg.ge (h : queueReg a) : 0x140000 ≤ a := by
  unfold queueReg F_TIM_EVT F_TIM_EVT_INFO F_XNG_EVT at h
  omega

theorem wrN_queueMoves (ha : queueReg a) (f : FieldDie) (v : Nat) : QueueMoves f (f.wrN a v) :=
  ⟨low_wrN f a v ha.ge, fun b hb => by rw [FieldDie.rd_wrN, if_neg fun e => hb (by rwa [e])], rfl, rfl⟩

theorem put_queueMoves {r : Fld} (hr : queueReg r.addr) (f : FieldDie) (v : Nat) : QueueMoves f (f.put r v) := wrN_queueMoves hr f _

theorem count_queueMoves (f : FieldDie) (i : Nat) : QueueMoves f (f.count i) := .ofReg rfl rfl rfl rfl

theorem raise_queueMoves (ha : queueReg a) (f : FieldDie) (bit : Nat) : QueueMoves f (f.raise a bit) :=
  ⟨low_raise f a bit ha.ge, fun b hb => FieldDie.raise_rd f a bit b (fun e => hb (by rwa [e]))
    (fun e => hb (by rw [e]; exact .inr (.inr (.inr (.inr rfl))))), f.raise_gates a bit,
    congrArg BufX.nextId (f.raise_sendSame a bit).buf⟩

/-! ### Timestamps and charges -/

theorem tsqPush_queueMoves (n : Nat) (e : TsEntry) (f : FieldDie) : QueueMoves f (tsqPush n e f) := by
  unfold tsqPush
  refine .ite (.refl f) (.ite (.ofReg rfl rfl rfl rfl) ?_)
  exact ((count_queueMoves f _).trans (put_queueMoves (.inr (.inr (.inr (.inl rfl)))) _ _)).trans
    (raise_queueMoves (.inr (.inr (.inl rfl))) _ _)

theorem tsqFrame_queueMoves (fr : Frame) (n st re ts : Nat) (f : FieldDie) : QueueMoves f (tsqFrame fr n st re ts f) := by
  unfold tsqFrame
  split
  · exact tsqPush_queueMoves _ _ f
  · exact .refl f

theorem queueReg_occ (hn : n < 17) (hq : q < 8) : queueReg (occAddr n q) := by
  refine .inr (.inl ?_)
  unfold occAddr
  omega

theorem queueReg_use (hn : n < 17) : queueReg (F_BUF_PORT_USE n) := by
  refine .inl ?_
  unfold F_BUF_PORT_USE
  omega

theorem queueReg_wm (hn : n < 17) : queueReg (F_BUF_PORT_WM n) := by
  refine .inl ?_
  unfold F_BUF_PORT_WM
  omega

theorem refreshPool_queueMoves (f : FieldDie) : QueueMoves f (refreshPool f) := put_queueMoves (.inl (by decide)) f _

/-- A charge that is added to or taken from the reserve, or the port's share and the pool. -/
theorem chargeUse_queueMoves (hn : n < 17) (reserve : Bool) (f : FieldDie) (a b c : Nat) :
    QueueMoves f (if reserve then f.put (F_BUF_PORT_USE_res_used n) a
      else (f.put (F_BUF_PORT_USE_shr_used n) b).put F_BUF_POOL_shared_used c) :=
  .ite (put_queueMoves (queueReg_use hn) f _)
    ((put_queueMoves (r := F_BUF_PORT_USE_shr_used n) (queueReg_use hn) f _).trans (put_queueMoves (.inl (by decide)) _ _))

theorem chargeSub_queueMoves (hn : n < 17) (hq : q < 8) (c : Nat) (reserve : Bool) (f : FieldDie) :
    QueueMoves f (chargeSub n q c reserve f) :=
  ((wrN_queueMoves (queueReg_occ hn hq) f _).trans (chargeUse_queueMoves hn reserve _ _ _ _)).trans (refreshPool_queueMoves _)

theorem raiseWm_queueMoves (hn : n < 17) (hq : q < 8) (f : FieldDie) : QueueMoves f (raiseWm n q f) :=
  (((wrN_queueMoves (queueReg_occ hn hq) f _).trans (put_queueMoves (r := F_BUF_PORT_WM_shr_wm n) (queueReg_wm hn) _ _)).trans
    (put_queueMoves (r := F_BUF_PORT_WM_res_wm n) (queueReg_wm hn) _ _)).trans (put_queueMoves (.inl (by decide)) _ _)

theorem chargeAdd_queueMoves (hn : n < 17) (hq : q < 8) (c : Nat) (reserve : Bool) (f : FieldDie) :
    QueueMoves f (chargeAdd n q c reserve f) :=
  (((wrN_queueMoves (queueReg_occ hn hq) f _).trans (chargeUse_queueMoves hn reserve _ _ _ _)).trans
    (raiseWm_queueMoves hn hq _)).trans (refreshPool_queueMoves _)

/-! ### Admission and discarding -/

theorem countQDrop_queueMoves (f : FieldDie) (n q code : Nat) : QueueMoves f (f.countQDrop n q code) := by
  unfold FieldDie.countQDrop FieldDie.countDrop
  dsimp only
  split
  · exact (count_queueMoves f _).trans (count_queueMoves _ _)
  · exact count_queueMoves f _

theorem noCell_queueMoves (n : Nat) (f : FieldDie) : QueueMoves f (noCell n f) := by
  unfold noCell
  dsimp only
  refine .ite ?_ (.refl f)
  have noted : QueueMoves f { f with buf := { f.buf with noCellAt := some f.now } } := .ofReg rfl rfl rfl rfl
  exact (noted.trans (put_queueMoves (.inl (by decide)) _ _)).trans (raise_queueMoves (.inl (by decide)) _ _)

theorem noteDrained_queueMoves (n : Nat) (f : FieldDie) : QueueMoves f (noteDrained n f) :=
  .ite ⟨setPortX_low f n _ fun _ => rfl, fun _ _ => rfl, rfl, rfl⟩ (.refl f)

theorem placeCopy_queueMoves (fr : Frame) (c : Copy) (f : FieldDie) : QueueMoves f (placeCopy fr c f) := by
  have placed : ∀ (g : FieldDie) (x : BufX), x.nextId = g.buf.nextId → QueueMoves g { g with buf := x } :=
    fun g x hx => ⟨low_buf g x, fun _ _ => rfl, rfl, hx⟩
  exact .ite ((noteDrained_queueMoves c.port f).trans (placed _ _ rfl)) (placed f _ rfl)

theorem admitCopy_queueMoves (hn : c.port < 17) (hq : c.queue < 8) (fr : Frame) (f : FieldDie) :
    QueueMoves f (admitCopy fr c f).2 := by
  unfold admitCopy
  split
  next code _ =>
    have noted : QueueMoves f (if code = 0x25 then noCell c.port f else f) := .ite (noCell_queueMoves c.port f) (.refl f)
    dsimp only
    split
    · exact noted.trans (countQDrop_queueMoves _ c.port c.queue 0x26)
    · exact (noted.trans (countQDrop_queueMoves _ _ _ _)).trans (tsqFrame_queueMoves ..)
  next => exact (chargeAdd_queueMoves hn hq _ _ f).trans (placeCopy_queueMoves ..)
  next => exact (chargeAdd_queueMoves hn hq _ _ f).trans (placeCopy_queueMoves ..)

theorem discardCopy_queueMoves (hn : c.port < 17) (hq : c.queue < 8) (code : Nat) (f : FieldDie) :
    QueueMoves f (discardCopy code c f) :=
  ((countQDrop_queueMoves f _ _ _).trans (.ite (.refl _) (tsqFrame_queueMoves ..))).trans (chargeSub_queueMoves hn hq _ _ _)

theorem discardQueued_queueMoves {p : Copy → Bool} (hp : ∀ x, p x = true → x.port < 17 ∧ x.queue < 8) (code : Nat) (f : FieldDie) :
    QueueMoves f (discardQueued p code f) := by
  unfold discardQueued
  extract_lets gone buf kept
  have hkept : QueueMoves f kept := .ofReg rfl rfl rfl rfl
  refine hkept.trans (forAll_queueMoves (fun x hx f => ?_) kept)
  obtain ⟨port, queue⟩ := hp x (List.mem_filter.1 hx).2
  exact discardCopy_queueMoves port queue code f

theorem purgeOverrun_queueMoves (hn : n < 17) (f : FieldDie) : QueueMoves f (purgeOverrun n f) := by
  unfold purgeOverrun forRange
  refine forAll_queueMoves (fun q hq f => forAll_queueMoves (fun _ _ f => ?_) f) f
  split
  next c hc =>
    obtain ⟨rfl, rfl⟩ := headCopy_some hc
    refine .ite (discardQueued_queueMoves (fun x hx => ?_) _ f) (.refl f)
    rw [eq_of_beq hx]
    exact ⟨hn, List.mem_range.1 hq⟩
  next => exact .refl f

end Sys2Proof.Machine
end


section
/-! Gates, schedules and rate limiters (O36; chapter 12). -/

namespace Sys2Proof.Machine

variable {but : List Nat} {f g h : FieldDie} {s : State} {req data n m a gen : Nat}

/-! ### The gates move -/

theorem gateX_setGateX_self {x : GateX → GateX} (h : n < f.gates.length) : (f.setGateX n x).gateX n = x (f.gateX n) :=
  getD_modAt_self h _ _

theorem gateX_setGateX_ne {x : GateX → GateX} (h : m ≠ n) (f : FieldDie) : (f.setGateX n x).gateX m = f.gateX m :=
  getD_modAt_ne h _ _ _

theorem gateX_of_gates (h : g.gates = f.gates) (m : Nat) : g.gateX m = f.gateX m := by
  unfold FieldDie.gateX
  rw [h]

/-- From `f` to `g` gates, queues and frames have moved, with registers from those of the parser on. -/
structure GatesMove (f g : FieldDie) : Prop where
  side : g.side = { f with gates := g.gates }.side
  low : ∀ a, a < 0x140000 → a ∉ coverRegs → g.rd a = f.rd a

theorem GatesMove.trans (a : GatesMove f g) (b : GatesMove g h) : GatesMove f h := by
  refine ⟨?_, fun x hx hc => (b.low x hx hc).trans (a.low x hx hc)⟩
  have sides : ∀ (x : FieldDie) (xs : List GateX), ({ x with gates := xs } : FieldDie).side = { x.side with gates := xs.map GateX.strip } :=
    fun _ _ => rfl
  rw [b.side, sides, a.side]
  rfl

theorem LowSame.gatesMove (a : LowSame f g) (hg : g.gates = f.gates) : GatesMove f g := by
  refine ⟨?_, fun x hx _ => a.rd x hx⟩
  rw [hg]
  exact a.side

theorem QueueMoves.gatesMove (a : QueueMoves f g) : GatesMove f g := a.low.gatesMove a.gates

theorem setGateX_gatesMove (n : Nat) (x : GateX → GateX) (f : FieldDie) : GatesMove f (f.setGateX n x) := ⟨rfl, fun _ _ _ => rfl⟩

theorem put_gatesMove {r : Fld} (hr : 0x140000 ≤ r.addr) (f : FieldDie) (v : Nat) : GatesMove f (f.put r v) :=
  (low_put f r v hr).gatesMove rfl

theorem gates_of_rest (h : g.rest = f.rest) : g.gates = f.gates := by
  have := congrArg FieldDie.gates h
  exact this

theorem SoftMoves.gatesMove (m : SoftMoves but f g) (h : ∀ a ∈ but, 0x140000 ≤ a) : GatesMove f g := by
  refine ⟨?_, fun a ha hc => m.regs a (fun e => absurd (h a e) (by omega)) hc⟩
  rw [gates_of_rest m.rest]
  exact side_of_rest m.rest

theorem GatesMove.frame (m : GatesMove s.fld g) :
    LowFrame [] { s.fld with gates := (settle g).gates } s { s with fld := settle g } := by
  have moves : LowMoves [] { s.fld with gates := (settle g).gates } g := by
    refine ⟨?_, fun a ha _ hc => m.low a ha hc⟩
    rw [settle_gates]
    exact m.side
  exact moves.frame rfl

/-! ### The hold and the running entry (R519, R520, R528) -/

theorem preemptNow_queueMoves (n : Nat) (f : FieldDie) : QueueMoves f (preemptNow n f) := by
  unfold preemptNow
  split
  next c _ =>
    split
    · exact QueueMoves.trans (g := f.setPortX n (fun x => { x with sending := none, preempted := some (remainder n c f) }))
        ⟨setPortX_low f n _ fun _ => rfl, fun _ _ => rfl, rfl, rfl⟩ (count_queueMoves _ _)
    · exact .refl f
  next => exact .refl f

/-- The die of which port `n` has its hold asserted or released. -/
abbrev heldDie (n : Nat) (hold : Bool) (f : FieldDie) : FieldDie := f.setGateX n (fun x => { x with hold := hold })

theorem setHold_queueMoves (n : Nat) (hold : Bool) (f : FieldDie) : QueueMoves (heldDie n hold f) (setHold n hold f) := by
  unfold setHold
  exact QueueMoves.trans (.ite (count_queueMoves _ _) (.refl _)) (.ite (preemptNow_queueMoves n _) (.refl _))

theorem refreshGate_of_inactive (h : listActive f n = false) :
    refreshGate n f = if holdSoon f n = (f.gateX n).hold then f else setHold n (holdSoon f n) f := if_pos h

/-- The number of the entry that runs at port `n`. -/
def entryNow (f : FieldDie) (n : Nat) : Nat := runningEntry (operSpans f n) (f.sysNs - runningCycle f n)

/-- The entry that runs at port `n`. -/
def spanNow (f : FieldDie) (n : Nat) : GateSpan := (operSpans f n).getD (entryNow f n) ⟨0, 0, 0xFF, 0⟩

/-- The gates of a port in an entry that started at `start`, in a cycle from `c`. -/
def inEntry (c start states : Nat) (x : GateX) : GateX := { x with cycleStart := c, entryStart := start, states := states }

/-- The die of which port `n` has begun entry `e`, with the hold that this gives. -/
def entryBegun (n e c start states : Nat) (hold : Bool) (f : FieldDie) : FieldDie :=
  heldDie n hold ((f.setGateX n (inEntry c start states)).put (F_STR_GCL_CUR_entry n) e)

/-- The die of which port `n` is in its running entry. -/
def enteredDie (n : Nat) (f : FieldDie) : FieldDie :=
  entryBegun n (entryNow f n) (runningCycle f n) (runningCycle f n + (spanNow f n).from_) (spanNow f n).states
    (holdAt (operSpans f n) (entryNow f n) (f.gateX n).hold || holdSoon f n) f

theorem refreshGate_of_active (h : listActive f n = true) : QueueMoves (enteredDie n f) (refreshGate n f) := by
  unfold refreshGate
  rw [if_neg (by rw [h]; exact Bool.noConfusion)]
  refine (setHold_queueMoves n _ _).trans ?_
  dsimp only
  split
  · exact .ite (.refl _) (preemptNow_queueMoves n _)
  · exact .refl _

/-- What a refresh of port `n`'s gates leaves: registers but the number of the entry and those of the queues, the other
ports' gates, and of its own everything but where its cycle stands. -/
structure GateRefreshed (n : Nat) (f g : FieldDie) : Prop where
  moves : GatesMove f g
  regs : ∀ a, ¬ queueReg a → a ≠ F_STR_GCL_CUR n → g.rd a = f.rd a
  others : ∀ m, m ≠ n → g.gateX m = f.gateX m
  pending : (g.gateX n).pending = (f.gateX n).pending
  base : (g.gateX n).base = (f.gateX n).base

theorem QueueMoves.gateRefreshed (q : QueueMoves g h) (r : GateRefreshed n f g) : GateRefreshed n f h where
  moves := r.moves.trans q.gatesMove
  regs a ha hc := (q.regs a ha).trans (r.regs a ha hc)
  others m hm := (gateX_of_gates q.gates m).trans (r.others m hm)
  pending := (congrArg GateX.pending (gateX_of_gates q.gates n)).trans r.pending
  base := (congrArg GateX.base (gateX_of_gates q.gates n)).trans r.base

theorem heldDie_gateX (hn : n < f.gates.length) (hold : Bool) : (heldDie n hold f).gateX n = { f.gateX n with hold := hold } :=
  gateX_setGateX_self hn

theorem heldDie_gateRefreshed (hn : n < f.gates.length) (hold : Bool) : GateRefreshed n f (heldDie n hold f) where
  moves := setGateX_gatesMove n _ f
  regs _ _ _ := rfl
  others _ hm := gateX_setGateX_ne hm f
  pending := (congrArg GateX.pending (heldDie_gateX hn hold)).trans rfl
  base := (congrArg GateX.base (heldDie_gateX hn hold)).trans rfl

theorem gclCur_ge (n : Nat) : 0x140000 ≤ F_STR_GCL_CUR n := by
  unfold F_STR_GCL_CUR
  omega

section
variable {e c start states : Nat} {hold : Bool}

theorem entryBegun_gates (n e c start states : Nat) (hold : Bool) (f : FieldDie) :
    entryBegun n e c start states hold f =
      heldDie n hold ((f.setGateX n (inEntry c start states)).put (F_STR_GCL_CUR_entry n) e) := rfl

theorem entryBegun_gateX (hn : n < f.gates.length) : (entryBegun n e c start states hold f).gateX n =
    { inEntry c start states (f.gateX n) with hold := hold } := by
  have begun : (f.setGateX n (inEntry c start states)).gateX n = inEntry c start states (f.gateX n) := gateX_setGateX_self hn
  have len : n < (f.setGateX n (inEntry c start states)).gates.length := Nat.lt_of_lt_of_eq hn (List.length_modify _ _ _).symm
  rw [entryBegun_gates]
  generalize f.setGateX n (inEntry c start states) = g at begun len
  rw [heldDie_gateX (by rw [FieldDie.put_gates]; exact len), gateX_of_gates (g.put_gates _ _), begun]

theorem entryBegun_gateRefreshed (hn : n < f.gates.length) : GateRefreshed n f (entryBegun n e c start states hold f) := by
  have own := entryBegun_gateX (e := e) (c := c) (start := start) (states := states) (hold := hold) hn
  have begun : ∀ m, m ≠ n → (f.setGateX n (inEntry c start states)).gateX m = f.gateX m := fun m hm => gateX_setGateX_ne hm f
  have moves := setGateX_gatesMove n (inEntry c start states) f
  have regs : ∀ a, (f.setGateX n (inEntry c start states)).rd a = f.rd a := fun _ => rfl
  refine ⟨?_, ?_, ?_, (congrArg GateX.pending own).trans rfl, (congrArg GateX.base own).trans rfl⟩
  all_goals rw [entryBegun_gates]
  all_goals generalize f.setGateX n (inEntry c start states) = g at begun moves regs
  · exact (moves.trans (put_gatesMove (r := F_STR_GCL_CUR_entry n) (gclCur_ge n) g e)).trans (setGateX_gatesMove n _ _)
  · exact fun a _ hc => (FieldDie.rd_put_ne g (F_STR_GCL_CUR_entry n) e _ hc).trans (regs a)
  · intro m hm
    rw [← begun m hm]
    exact gateX_setGateX_ne hm _

end

theorem refreshGate_gateRefreshed (hn : n < f.gates.length) : GateRefreshed n f (refreshGate n f) := by
  cases h : listActive f n with
  | true => exact (refreshGate_of_active h).gateRefreshed (entryBegun_gateRefreshed hn)
  | false =>
    rw [refreshGate_of_inactive h]
    split
    · exact ⟨(LowSame.refl f).gatesMove rfl, fun _ _ _ => rfl, fun _ _ => rfl, rfl, rfl⟩
    · exact (setHold_queueMoves n _ f).gateRefreshed (heldDie_gateRefreshed hn _)

theorem idleGate_clause (s : State) (n : Nat) (hr : s.fld.phase = .running) (hs : Shape s) (hn : n < 17)
    (h : listActive s.fld n = false) :
    ∃ t, exec (.gateEdge n) s = .next t ∧ (t.fld.gateX n).hold = holdSoon s.fld n ∧
      (∀ m, m ≠ n → t.fld.gateX m = s.fld.gateX m) ∧
      (holdSoon s.fld n = (s.fld.gateX n).hold → FieldFrame [] s.fld s t) ∧
      LowFrame [] { s.fld with gates := t.fld.gates } s t := by
  have len : n < s.fld.gates.length := by rw [hs.gates]; exact hn
  have refreshed := refreshGate_gateRefreshed len
  have idle := refreshGate_of_inactive h
  refine ⟨_, State.onItem_running hr hn, ?_, fun m hm => ?_, fun same => ?_, refreshed.moves.frame⟩
  · dsimp only
    rw [gateX_of_gates (settle_gates _), idle]
    split
    next same => exact same.symm
    next =>
      rw [gateX_of_gates (setHold_queueMoves n _ _).gates]
      exact congrArg GateX.hold (gateX_setGateX_self len)
  · exact (gateX_of_gates (settle_gates _) m).trans (refreshed.others m hm)
  · rw [idle, if_pos same]
    exact (SoftMoves.refl [] s.fld).frame rfl

theorem gclCur_notMem (n : Nat) (hn : n < 17) : F_STR_GCL_CUR n ∉ coverRegs ∧ ¬ queueReg (F_STR_GCL_CUR n) := by
  unfold queueReg F_STR_GCL_CUR F_TIM_EVT F_TIM_EVT_INFO F_XNG_EVT
  simp only [coverRegs, List.mem_cons, List.not_mem_nil, or_false, not_or]
  unfold F_FLT_COVER F_FLT_EVT2 F_XNG_EVT
  omega

theorem runningGate_clause (s : State) (n : Nat) (hr : s.fld.phase = .running) (hs : Shape s) (hn : n < 17)
    (h : listActive s.fld n = true) (hlt : entryNow s.fld n < 256) :
    ∃ t, exec (.gateEdge n) s = .next t ∧
      t.fld.get (F_STR_GCL_CUR_entry n) = entryNow s.fld n ∧
      (∀ sp ∈ (operSpans s.fld n)[entryNow s.fld n]?,
        (t.fld.gateX n).states = sp.states ∧ (t.fld.gateX n).entryStart = runningCycle s.fld n + sp.from_) ∧
      (t.fld.gateX n).cycleStart = runningCycle s.fld n ∧
      (∀ m, m ≠ n → t.fld.gateX m = s.fld.gateX m) ∧ LowFrame [] { s.fld with gates := t.fld.gates } s t := by
  have len : n < s.fld.gates.length := by rw [hs.gates]; exact hn
  have refreshed := refreshGate_gateRefreshed len
  have moves := refreshGate_of_active h
  have own : (settle (refreshGate n s.fld)).gateX n = _ :=
    ((gateX_of_gates (settle_gates _) n).trans (gateX_of_gates moves.gates n)).trans (entryBegun_gateX len)
  obtain ⟨cover, queue⟩ := gclCur_notMem n hn
  refine ⟨_, State.onItem_running hr hn, ?_, fun sp hsp => ?_, ?_, fun m hm => ?_, refreshed.moves.frame⟩
  · dsimp only
    rw [settle_get_of_notMem (r := F_STR_GCL_CUR_entry n) cover, FieldDie.get_eq (F_STR_GCL_CUR_entry n) (moves.regs _ queue)]
    refine (FieldDie.get_put _ (F_STR_GCL_CUR_entry n) (entryNow s.fld n) (Nat.zero_le 7) (by show 7 < 32; decide)).trans ?_
    exact Nat.mod_eq_of_lt hlt
  · have span : spanNow s.fld n = sp := by
      unfold spanNow
      rw [List.getD_eq_getElem?_getD, hsp]
      rfl
    dsimp only
    rw [own, ← span]
    exact ⟨rfl, rfl⟩
  · dsimp only
    rw [own]
    rfl
  · exact (gateX_of_gates (settle_gates _) m).trans (refreshed.others m hm)

end Sys2Proof.Machine
end


section
/-! Schedule triggers and changes (O36; R522 to R526). -/

namespace Sys2Proof.Machine

variable {but : List Nat} {f g h : FieldDie} {s : State} {req data n m a gen mask : Nat}

/-! ### Triggers -/

/-- The gates of a port of which the admin list of `f` has become pending. -/
def pendOf (f : FieldDie) (gen n : Nat) (x : GateX) : GateX :=
  { x with
    pending := true
    ct := changeTime (adminBase f n) (f.get (F_STR_GCL_CYCLE_cycle_ns n)) (f.sysNs + 64000)
    pendLen := f.get (F_STR_GCL_CTRL_admin_len n)
    pendCycle := f.get (F_STR_GCL_CYCLE_cycle_ns n)
    pendBase := changeTime (adminBase f n) (f.get (F_STR_GCL_CYCLE_cycle_ns n)) (f.sysNs + 64000)
    pendExt := f.get (F_STR_GCL_EXT_ext_ns n)
    pendHold := f.get (F_STR_GCL_HOLD_hold_adv n)
    pendGen := gen
    pendOff := !f.flag (F_STR_GCL_CTRL_gate_en n)
    pendList := (List.range 256).map (fun e => (f.rdN (gclAddr n e 0), f.rdN (gclAddr n e 1)))
    pendTrig := f.str.trigs }

/-- The gates after the lists of `ports` have become pending. -/
def pendGates (f : FieldDie) (gen : Nat) (ports : List Nat) (xs : List GateX) : List GateX :=
  ports.foldl (fun xs n => modAt xs n (pendOf f gen n)) xs

theorem makePending_eq (n gen : Nat) (f : FieldDie) : makePending n gen none f = f.setGateX n (pendOf f gen n) := by
  unfold makePending pendOf
  dsimp only
  rw [Option.getD_none]

theorem pendOf_withGates (gen n : Nat) (xs : List GateX) (f : FieldDie) : pendOf { f with gates := xs } gen n = pendOf f gen n := by
  have now : ({ f with gates := xs } : FieldDie).sysNs = f.sysNs := rfl
  have base : adminBase { f with gates := xs } n = adminBase f n := rfl
  have reads : ∀ r, ({ f with gates := xs } : FieldDie).get r = f.get r := fun _ => rfl
  have words : ∀ a, ({ f with gates := xs } : FieldDie).rdN a = f.rdN a := fun _ => rfl
  have flags : ∀ r, ({ f with gates := xs } : FieldDie).flag r = f.flag r := fun _ => rfl
  unfold pendOf
  rw [now, base]
  simp only [reads, words, flags]

theorem makePendings_eq (gen : Nat) (ports : List Nat) (xs : List GateX) (f : FieldDie) :
    forAll ports (fun n g => makePending n gen none g) { f with gates := xs } = { f with gates := pendGates f gen ports xs } := by
  unfold forAll pendGates
  induction ports generalizing xs with
  | nil => rfl
  | cons n ports ih =>
    have first : makePending n gen none { f with gates := xs } = { f with gates := modAt xs n (pendOf f gen n) } := by
      rw [makePending_eq, pendOf_withGates]
      rfl
    rw [List.foldl_cons, List.foldl_cons, ← ih, ← first]

theorem pendGates_of_notMem {ports : List Nat} (h : n ∉ ports) (f : FieldDie) (gen : Nat) (xs : List GateX) :
    (pendGates f gen ports xs).getD n {} = xs.getD n {} := by
  unfold pendGates
  induction ports generalizing xs with
  | nil => rfl
  | cons m ports ih =>
    rw [List.mem_cons, not_or] at h
    rw [List.foldl_cons, ih h.2]
    exact getD_modAt_ne h.1 _ _ _

theorem pendGates_of_mem {ports : List Nat} (h : n ∈ ports) {xs : List GateX} (hn : n < xs.length) (f : FieldDie) (gen : Nat) :
    ∃ x, (pendGates f gen ports xs).getD n {} = pendOf f gen n x := by
  induction ports generalizing xs with
  | nil => cases h
  | cons m ports ih =>
    have len : n < (modAt xs m (pendOf f gen m)).length := Nat.lt_of_lt_of_eq hn (List.length_modify _ _ _).symm
    by_cases hm : n ∈ ports
    · exact ih hm len
    · obtain rfl : n = m := by
        rcases List.mem_cons.1 h with e | e
        · exact e
        · exact absurd e hm
      exact ⟨_, (pendGates_of_notMem hm f gen _).trans (getD_modAt_self hn _ _)⟩

/-- The die that has counted a trigger. -/
def countedTrig (f : FieldDie) : FieldDie := { f with str := { f.str with trigs := f.str.trigs + 1 } }

/-- The die that has noted a new generation, and one trigger more. -/
def notedGen (gen : Nat) (f : FieldDie) : FieldDie := countedTrig (f.put F_STR_CHG_STAT_last_gen gen)

theorem countedTrig_rd (a : Nat) (f : FieldDie) : (countedTrig f).rd a = f.rd a := rfl

theorem countedTrig_side (f : FieldDie) : (countedTrig f).side = f.side := rfl

theorem countedTrig_gates (f : FieldDie) : { countedTrig f with gates := f.gates } = countedTrig f := rfl

theorem trigger_of_accepted (hg : gen ≠ f.get F_STR_CHG_STAT_last_gen)
    (hf : (portsIn (bitsOf mask 16 0)).find? (fun n => adminRefused f n != 0) = none) (hp : portsIn (bitsOf mask 16 0) ≠ []) :
    ∃ x : StrX, trigger mask gen none f =
      ({ notedGen gen f with gates := pendGates (notedGen gen f) gen (portsIn (bitsOf mask 16 0)) f.gates, str := x }.put
        F_STR_CHG_STAT_result 0).put F_STR_CHG_STAT_pending 1 := by
  have pended := makePendings_eq gen (portsIn (bitsOf mask 16 0)) f.gates (notedGen gen f)
  unfold trigger
  rw [if_neg hg]
  dsimp only
  rw [hf]
  dsimp only
  rw [if_neg (by simp [hp])]
  unfold notedGen at pended ⊢
  have gates : (f.put F_STR_CHG_STAT_last_gen gen).gates = f.gates := f.put_gates _ _
  rw [← gates, countedTrig_gates] at pended
  rw [← gates]
  generalize f.put F_STR_CHG_STAT_last_gen gen = g at pended ⊢
  unfold countedTrig at pended ⊢
  rw [pended]
  split
  · exact ⟨_, rfl⟩
  · exact ⟨_, rfl⟩

theorem notedGen_rd (h : a ≠ F_STR_CHG_STAT) (gen : Nat) (f : FieldDie) : (notedGen gen f).rd a = f.rd a := by
  unfold notedGen
  rw [countedTrig_rd, FieldDie.rd_put_ne f F_STR_CHG_STAT_last_gen _ _ h]

theorem notedGen_sysNs (gen : Nat) (f : FieldDie) : (notedGen gen f).sysNs = f.sysNs := by
  refine sysNs_eq ?_ fun a ha => notedGen_rd (fun e => absurd (e ▸ ha) (by decide)) gen f
  have put := (low_put f F_STR_CHG_STAT_last_gen gen (by decide)).side
  unfold notedGen
  rw [countedTrig_side, put]

/-- The registers of a port's admin list. -/
theorem gcl_ne_stat (n e w : Nat) : F_STR_GCL_CYCLE n ≠ F_STR_CHG_STAT ∧ F_STR_GCL_CTRL n ≠ F_STR_CHG_STAT ∧
    F_STR_GCL_BASE_NS n ≠ F_STR_CHG_STAT ∧ F_STR_GCL_BASE_SEC_LO n ≠ F_STR_CHG_STAT ∧ F_STR_GCL_BASE_SEC_HI n ≠ F_STR_CHG_STAT ∧
    gclAddr n e w ≠ F_STR_CHG_STAT := by
  unfold F_STR_GCL_CYCLE F_STR_GCL_CTRL F_STR_GCL_BASE_NS F_STR_GCL_BASE_SEC_LO F_STR_GCL_BASE_SEC_HI F_STR_CHG_STAT gclAddr
  omega

/-- What is pending is what the admin list was when the trigger came. -/
theorem pendOf_notedGen (gen n : Nat) (f : FieldDie) (x : GateX) : pendOf (notedGen gen f) gen n x =
    { pendOf f gen n x with
      pendExt := (notedGen gen f).get (F_STR_GCL_EXT_ext_ns n), pendHold := (notedGen gen f).get (F_STR_GCL_HOLD_hold_adv n)
      pendOff := !(notedGen gen f).flag (F_STR_GCL_CTRL_gate_en n), pendTrig := (notedGen gen f).str.trigs } := by
  obtain ⟨cycle, ctrl, ns, lo, hi, -⟩ := gcl_ne_stat n 0 0
  have base : adminBase (notedGen gen f) n = adminBase f n := by
    unfold adminBase FieldDie.rdN
    rw [FieldDie.get_eq (F_STR_GCL_BASE_NS_ns n) (notedGen_rd ns gen f), notedGen_rd lo, notedGen_rd hi]
  have list : ∀ e w, (notedGen gen f).rdN (gclAddr n e w) = f.rdN (gclAddr n e w) := fun e w =>
    congrArg BitVec.toNat (notedGen_rd (gcl_ne_stat n e w).2.2.2.2.2 gen f)
  unfold pendOf
  simp only [base, list, notedGen_sysNs, FieldDie.get_eq (F_STR_GCL_CYCLE_cycle_ns n) (notedGen_rd cycle gen f),
    FieldDie.get_eq (F_STR_GCL_CTRL_admin_len n) (notedGen_rd ctrl gen f)]

theorem SoftMoves.withGates (m : SoftMoves but f g) (xs : List GateX) (y : StrX) :
    SoftMoves but { f with gates := xs, str := y } { g with gates := xs, str := y } where
  rest := congrArg (fun r : FieldDie => { r with gates := xs, str := y }) m.rest
  send := ⟨m.send.buf, m.send.out, m.send.cnt⟩
  regs := m.regs

theorem countedTrig_withGates (xs : List GateX) (x : StrX) (f : FieldDie) :
    { countedTrig f with gates := xs, str := x } = { f with gates := xs, str := x } := rfl

theorem withGates_get (xs : List GateX) (x : StrX) (r : Fld) (f : FieldDie) :
    ({ f with gates := xs, str := x } : FieldDie).get r = f.get r := rfl

theorem notedGen_softMoves (gen : Nat) (f : FieldDie) (xs : List GateX) (x : StrX) :
    SoftMoves [F_STR_CHG_STAT] { f with gates := xs, str := x } { notedGen gen f.napBreak with gates := xs, str := x } := by
  have put := (f.napBreak_softMoves.trans (FieldDie.put_softMoves (but := [F_STR_CHG_STAT]) (r := F_STR_CHG_STAT_last_gen) (by decide) f.napBreak gen)).withGates xs x
  unfold notedGen
  rw [countedTrig_withGates]
  exact put

theorem notedGen_gen (h : gen < 2 ^ 16) (f : FieldDie) : (notedGen gen f).get F_STR_CHG_STAT_last_gen = gen := by
  have put := FieldDie.get_put f F_STR_CHG_STAT_last_gen gen (by decide) (by decide)
  unfold notedGen
  rw [FieldDie.get_eq F_STR_CHG_STAT_last_gen (countedTrig_rd _ _), put]
  exact Nat.mod_eq_of_lt h

/-- The write of F_STR_CHG by a requester that may. -/
theorem exec_scheduleTrigger {d : Word} (hw : s.fld.canWrite req = true) (hl : lkDenied s.fld req F_STR_CHG = false) :
    exec (.scheduleTrigger req d) s =
      .next { s with fld := settle (trigger (s.fld.rdN F_STR_CHG_MASK) (bitsOf d.toNat 15 0) none s.fld.napBreak) } := by
  have written : writeChg req d.toNat s.fld.napBreak =
      trigger (s.fld.rdN F_STR_CHG_MASK) (bitsOf d.toNat 15 0) none s.fld.napBreak :=
    if_neg (by
      have same : lkDenied s.fld.napBreak req F_STR_CHG = lkDenied s.fld req F_STR_CHG := rfl
      rw [same, hl]
      exact Bool.false_ne_true)
  rw [← written]
  exact State.onWrite_of_canWrite hw

theorem repeat_clause (s : State) (req : Nat) (data : Word) (hw : s.fld.canWrite req = true)
    (hl : lkDenied s.fld req F_STR_CHG = false) (h : bitsOf data.toNat 15 0 = s.fld.get F_STR_CHG_STAT_last_gen) :
    ∃ t, exec (.scheduleTrigger req data) s = .next t ∧
      t.fld.get F_STR_CHG_STAT_repeats = (s.fld.get F_STR_CHG_STAT_repeats + 1) % 2 ^ 7 ∧
      FieldFrame [F_STR_CHG_STAT] s.fld s t := by
  have repeated : trigger (s.fld.rdN F_STR_CHG_MASK) (bitsOf data.toNat 15 0) none s.fld.napBreak =
      s.fld.napBreak.bump F_STR_CHG_STAT_repeats 1 := if_pos h
  refine ⟨_, exec_scheduleTrigger hw hl, ?_, ?_⟩
  all_goals rw [repeated]
  · rw [settle_get_of_notMem (by decide)]
    exact FieldDie.get_put s.fld.napBreak F_STR_CHG_STAT_repeats _ (by decide) (by decide)
  · exact (s.fld.napBreak_softMoves.trans (FieldDie.put_softMoves (by decide) _ _)).frame rfl

theorem adminRefused_lt (f : FieldDie) (n : Nat) : adminRefused f n < 2 ^ 8 := by
  unfold adminRefused
  dsimp only
  split_ifs <;> decide

theorem mem_portsIn {k : Nat} : n ∈ portsIn k ↔ n < 17 ∧ hasBit k n = true := by simp [portsIn]

theorem refused_clause (s : State) (req n : Nat) (data : Word) (hw : s.fld.canWrite req = true)
    (hl : lkDenied s.fld req F_STR_CHG = false) (hg : bitsOf data.toNat 15 0 ≠ s.fld.get F_STR_CHG_STAT_last_gen)
    (hf : (portsIn (s.fld.get F_STR_CHG_MASK_ports)).find? (fun m => adminRefused s.fld m != 0) = some n) :
    ∃ t, exec (.scheduleTrigger req data) s = .next t ∧ t.fld.get F_STR_CHG_STAT_result = adminRefused s.fld n ∧
      t.fld.get F_STR_EVT_INFO_port = n ∧ t.fld.sq F_STR_EVT 3 = true ∧
      FieldFrame [F_STR_CHG_STAT, F_STR_EVT_INFO, F_STR_EVT] s.fld s t := by
  have hn : n < 17 := (mem_portsIn.1 (List.mem_of_find?_eq_some hf)).1
  have refused : trigger (s.fld.rdN F_STR_CHG_MASK) (bitsOf data.toNat 15 0) none s.fld.napBreak =
      ((s.fld.napBreak.put F_STR_CHG_STAT_result (adminRefused s.fld n)).put F_STR_EVT_INFO_port n).raise F_STR_EVT 3 := by
    unfold trigger
    rw [if_neg (show ¬ bitsOf data.toNat 15 0 = s.fld.napBreak.get F_STR_CHG_STAT_last_gen from hg)]
    dsimp only
    have found : (portsIn (bitsOf (s.fld.rdN F_STR_CHG_MASK) 16 0)).find? (fun n => adminRefused s.fld.napBreak n != 0) = some n := hf
    rw [found]
    rfl
  refine ⟨_, exec_scheduleTrigger hw hl, ?_, ?_, ?_, ?_⟩
  all_goals rw [refused]
  · rw [settle_get_of_notMem (by decide), FieldDie.get_raise_ne (r := F_STR_CHG_STAT_result) _ (by decide) (by decide),
      FieldDie.get_put_addr _ F_STR_EVT_INFO_port F_STR_CHG_STAT_result n (by decide),
      FieldDie.get_put _ _ _ (by decide) (by decide)]
    exact Nat.mod_eq_of_lt (adminRefused_lt s.fld n)
  · rw [settle_get_of_notMem (by decide), FieldDie.get_raise_ne (r := F_STR_EVT_INFO_port) _ (by decide) (by decide),
      FieldDie.get_put _ _ _ (by decide) (by decide)]
    exact Nat.mod_eq_of_lt (lt_trans hn (by decide))
  · rw [settle_sq_of_notMem (by decide)]
    exact FieldDie.raise_sq _ _ _ (by decide) (by decide)
  · exact (((s.fld.napBreak_softMoves.trans (FieldDie.put_softMoves (by decide) _ _)).trans
      (FieldDie.put_softMoves (by decide) _ _)).trans (FieldDie.raise_softMoves (by decide) _ _)).frame rfl

theorem accepted_clause (s : State) (req n : Nat) (data : Word) (hw : s.fld.canWrite req = true)
    (hl : lkDenied s.fld req F_STR_CHG = false) (hs : Shape s) (hg : bitsOf data.toNat 15 0 ≠ s.fld.get F_STR_CHG_STAT_last_gen)
    (hok : ∀ m, m < 17 → hasBit (s.fld.get F_STR_CHG_MASK_ports) m = true → adminRefused s.fld m = 0)
    (hn : n < 17) (hnamed : hasBit (s.fld.get F_STR_CHG_MASK_ports) n = true) :
    ∃ t, exec (.scheduleTrigger req data) s = .next t ∧ (t.fld.gateX n).pending = true ∧
      (t.fld.gateX n).ct = changeTime (adminBase s.fld n) (s.fld.get (F_STR_GCL_CYCLE_cycle_ns n)) (s.fld.sysNs + 64000) ∧
      (t.fld.gateX n).pendLen = s.fld.get (F_STR_GCL_CTRL_admin_len n) ∧
      (t.fld.gateX n).pendList = (List.range 256).map (fun e => (s.fld.rdN (gclAddr n e 0), s.fld.rdN (gclAddr n e 1))) ∧
      (t.fld.gateX n).pendGen = bitsOf data.toNat 15 0 ∧
      (∀ m, m < 17 → hasBit (s.fld.get F_STR_CHG_MASK_ports) m = false → t.fld.gateX m = s.fld.gateX m) ∧
      t.fld.get F_STR_CHG_STAT_last_gen = bitsOf data.toNat 15 0 ∧ t.fld.get F_STR_CHG_STAT_result = 0 ∧
      t.fld.get F_STR_CHG_STAT_pending = 1 ∧
      FieldFrame [F_STR_CHG_STAT] { s.fld with gates := t.fld.gates, str := t.fld.str } s t := by
  have mem : n ∈ portsIn (s.fld.get F_STR_CHG_MASK_ports) := mem_portsIn.2 ⟨hn, hnamed⟩
  have step := exec_scheduleTrigger (d := data) hw hl
  obtain ⟨x, accepted⟩ := trigger_of_accepted (f := s.fld.napBreak) (mask := s.fld.rdN F_STR_CHG_MASK) hg (by
    refine List.find?_eq_none.2 fun m hm => ?_
    obtain ⟨lt, bit⟩ := mem_portsIn.1 hm
    have ok : adminRefused s.fld.napBreak m = 0 := hok m lt bit
    simp [ok]) (List.ne_nil_of_mem mem)
  have base := notedGen_softMoves (bitsOf data.toNat 15 0) s.fld
    (pendGates (notedGen (bitsOf data.toNat 15 0) s.fld.napBreak) (bitsOf data.toNat 15 0)
      (portsIn (bitsOf (s.fld.rdN F_STR_CHG_MASK) 16 0)) s.fld.gates) x
  obtain ⟨y, own⟩ := pendGates_of_mem mem (xs := s.fld.gates) (by rw [hs.gates]; exact hn)
    (notedGen (bitsOf data.toNat 15 0) s.fld.napBreak) (bitsOf data.toNat 15 0)
  rw [pendOf_notedGen] at own
  have others : ∀ m, hasBit (s.fld.get F_STR_CHG_MASK_ports) m = false → _ := fun m hm =>
    pendGates_of_notMem (n := m) (fun h => Bool.false_ne_true (hm.symm.trans (mem_portsIn.1 h).2))
      (notedGen (bitsOf data.toNat 15 0) s.fld.napBreak) (bitsOf data.toNat 15 0) s.fld.gates
  have gen := notedGen_gen (bitsOf_lt data.toNat 15 0) s.fld.napBreak
  have ports : portsIn (bitsOf (s.fld.rdN F_STR_CHG_MASK) 16 0) = portsIn (s.fld.get F_STR_CHG_MASK_ports) := rfl
  rw [accepted] at step
  rw [ports] at step base
  have gates : s.fld.napBreak.gates = s.fld.gates := s.fld.napBreak_gates
  rw [gates] at step
  generalize pendGates (notedGen (bitsOf data.toNat 15 0) s.fld.napBreak) (bitsOf data.toNat 15 0)
    (portsIn (s.fld.get F_STR_CHG_MASK_ports)) s.fld.gates = xs at step base own others
  have last := (withGates_get xs x F_STR_CHG_STAT_last_gen _).trans gen
  generalize hg' : ({ notedGen (bitsOf data.toNat 15 0) s.fld.napBreak with gates := xs, str := x } : FieldDie) = g at step base last
  have gs : g.gates = xs := by rw [← hg']
  have str : g.str = x := by rw [← hg']
  have final : (settle ((g.put F_STR_CHG_STAT_result 0).put F_STR_CHG_STAT_pending 1)).gates = xs := by
    rw [settle_gates, FieldDie.put_gates, FieldDie.put_gates, gs]
  have now : s.fld.napBreak.sysNs = s.fld.sysNs := rfl
  have admin : adminBase s.fld.napBreak n = adminBase s.fld n := rfl
  unfold pendOf at own
  rw [now, admin] at own
  have shown := (congrArg (fun ys : List GateX => ys.getD n {}) final).trans own
  change (settle ((g.put F_STR_CHG_STAT_result 0).put F_STR_CHG_STAT_pending 1)).gateX n = _ at shown
  refine ⟨_, step, ?_, ?_, ?_, ?_, ?_, fun m _ hm => ?_, ?_, ?_, ?_, ?_⟩
  · rw [shown]
  iterate 3
    · rw [shown]
      rfl
  · rw [shown]
  · unfold FieldDie.gateX
    rw [final, others m hm]
  · rw [settle_get_of_notMem (by decide), FieldDie.get_put_field _ F_STR_CHG_STAT_pending F_STR_CHG_STAT_last_gen _ rfl (by decide)
      (by decide) (by decide), FieldDie.get_put_field _ F_STR_CHG_STAT_result F_STR_CHG_STAT_last_gen _ rfl (by decide)
      (by decide) (by decide), last]
  · rw [settle_get_of_notMem (by decide), FieldDie.get_put_field _ F_STR_CHG_STAT_pending F_STR_CHG_STAT_result _ rfl (by decide)
      (by decide) (by decide), FieldDie.get_put _ _ _ (by decide) (by decide)]
    rfl
  · rw [settle_get_of_notMem (by decide), FieldDie.get_put _ _ _ (by decide) (by decide)]
    rfl
  · rw [settle_gates, settle_str, FieldDie.put_gates, FieldDie.put_gates, FieldDie.put_str, FieldDie.put_str, gs, str]
    exact ((base.trans (FieldDie.put_softMoves (by decide) _ _)).trans (FieldDie.put_softMoves (by decide) _ _)).frame rfl

end Sys2Proof.Machine
end


section
/-! A port's change of lists, the change of the windows, the network cycle, latches and rate limiters (O36; R497, R515, R525 to
R527). -/

namespace Sys2Proof.Machine

variable {but : List Nat} {f g h : FieldDie} {s : State} {req data n m a : Nat} {x : GateX}

theorem str_of_rest (h : g.rest = f.rest) : g.str = f.str := by
  have := congrArg FieldDie.str h
  exact this

/-! ### What ends a change (R526) -/

theorem changeDone_softMoves (t : Nat) (f : FieldDie) : SoftMoves [F_STR_CHG_STAT, F_STR_EVT] f (changeDone t f) := by
  have put : ∀ (r : Fld) (v : Nat) (g : FieldDie), r.addr = F_STR_CHG_STAT → SoftMoves [F_STR_CHG_STAT, F_STR_EVT] g (g.put r v) :=
    fun r v g hr => FieldDie.put_softMoves (by simp [hr]) g v
  unfold changeDone
  dsimp only
  split
  · split
    · exact .refl _ f
    · split
      · exact (put _ _ _ rfl).trans (FieldDie.raise_softMoves (by decide) _ _)
      · exact FieldDie.raise_softMoves (by decide) _ _
  · split
    · exact put _ _ _ rfl
    · split
      · exact ((put _ _ _ rfl).trans (put _ _ _ rfl)).trans (FieldDie.raise_softMoves (by decide) _ _)
      · exact (put _ _ _ rfl).trans (FieldDie.raise_softMoves (by decide) _ _)

/-! ### A list becomes operational (R526) -/

/-- The two words of entry `e` of the operational list of port `n`, written. -/
def operEntry (n : Nat) (list : List (Nat × Nat)) (e : Nat) (f : FieldDie) : FieldDie :=
  (f.wrN (operAddr n e 0) (list.getD e (0, 0)).1).wrN (operAddr n e 1) (list.getD e (0, 0)).2

theorem writeOper_eq (n : Nat) (list : List (Nat × Nat)) (f : FieldDie) :
    writeOper n list f = forRange list.length (operEntry n list) f := rfl

theorem operAddr_inj {e d v w : Nat} (hv : v < 2) (hw : w < 2) : operAddr n e v = operAddr n d w ↔ e = d ∧ v = w := by
  unfold operAddr
  omega

theorem writeOper_rd {list : List (Nat × Nat)} {e : Nat} (he : e < list.length) (f : FieldDie) :
    (writeOper n list f).rd (operAddr n e 0) = word (list.getD e (0, 0)).1 ∧
      (writeOper n list f).rd (operAddr n e 1) = word (list.getD e (0, 0)).2 := by
  rw [writeOper_eq]
  refine forRange_sets (P := fun _ => True) (Q := fun g : FieldDie => g.rd (operAddr n e 0) = word (list.getD e (0, 0)).1 ∧
    g.rd (operAddr n e 1) = word (list.getD e (0, 0)).2) he (fun _ _ _ _ _ => trivial) (fun g _ => ?_) (fun d g _ hd hg => ?_) trivial
  · unfold operEntry
    simp [FieldDie.rd_wrN, operAddr_inj]
  · have hne := Ne.symm hd
    unfold operEntry
    simp [FieldDie.rd_wrN, operAddr_inj, hne, hg]

theorem writeOper_lowSame (n : Nat) (list : List (Nat × Nat)) (f : FieldDie) :
    LowSame f (writeOper n list f) ∧ (writeOper n list f).gates = f.gates := by
  rw [writeOper_eq]
  refine forRange_keeps (k := operEntry n list) (P := fun g : FieldDie => LowSame f g ∧ g.gates = f.gates) (fun e g _ hg => ⟨hg.1.trans ?_, hg.2⟩)
    ⟨.refl f, rfl⟩
  exact (low_wrN _ _ _ (by unfold operAddr; omega)).trans (low_wrN _ _ _ (by unfold operAddr; omega))

/-- The registers of port `n` that show what is operational. -/
def operShown (n : Nat) (x : GateX) (f : FieldDie) : FieldDie :=
  (((f.put (F_STR_GCL_OPER_oper_gen n) x.pendGen).put (F_STR_GCL_OPER_active n) (if x.pendOff then 0 else 1)).put
    (F_STR_GCL_OPER_oper_len n) x.pendLen).put (F_STR_GCL_OCYC_oper_cycle n) x.pendCycle

/-- The gates of a port whose pending list has become operational. -/
def changedGate (x : GateX) : GateX :=
  { x with
    pending := false, base := x.pendBase, ext := x.pendExt, holdAdv := x.pendHold, hold := false, states := 0xFF, cycleStart := x.ct,
    entryStart := x.ct }

/-- The die whose port `n` begins with entry 0 of its list. -/
def begunPort (n : Nat) (off : Bool) (f : FieldDie) : FieldDie :=
  (f.setGateX n changedGate).put (F_STR_GCL_CUR_short n) (if off then 0 else shortQueues (f.setGateX n changedGate) n)

/-- The die of which the pending list of port `n` has become operational. -/
def changedPort (n : Nat) (x : GateX) (f : FieldDie) : FieldDie :=
  begunPort n x.pendOff (operShown n x (writeOper n x.pendList f))

theorem portChange_of_due (hp : (f.gateX n).pending = true) (hct : (f.gateX n).ct ≤ f.sysNs) :
    portChange n f = changeDone (f.gateX n).pendTrig (purgeOverrun n (refreshGate n (changedPort n (f.gateX n) f))) :=
  if_neg (by simp [hp, hct])

theorem operShown_rd (h : a ≠ F_STR_GCL_OPER n) (hc : a ≠ F_STR_GCL_OCYC n) (x : GateX) (f : FieldDie) :
    (operShown n x f).rd a = f.rd a := by
  unfold operShown
  rw [FieldDie.rd_put_ne _ (F_STR_GCL_OCYC_oper_cycle n) _ _ hc, FieldDie.rd_put_ne _ (F_STR_GCL_OPER_oper_len n) _ _ h,
    FieldDie.rd_put_ne _ (F_STR_GCL_OPER_active n) _ _ h, FieldDie.rd_put_ne _ (F_STR_GCL_OPER_oper_gen n) _ _ h]

theorem operShown_lowSame (n : Nat) (x : GateX) (f : FieldDie) : LowSame f (operShown n x f) := by
  have oper : 0x140000 ≤ F_STR_GCL_OPER n := by
    unfold F_STR_GCL_OPER
    omega
  have cycle : 0x140000 ≤ F_STR_GCL_OCYC n := by
    unfold F_STR_GCL_OCYC
    omega
  exact (((low_put f (F_STR_GCL_OPER_oper_gen n) _ oper).trans (low_put _ (F_STR_GCL_OPER_active n) _ oper)).trans
    (low_put _ (F_STR_GCL_OPER_oper_len n) _ oper)).trans (low_put _ (F_STR_GCL_OCYC_oper_cycle n) _ cycle)

theorem oper_ne_cycle (n : Nat) : F_STR_GCL_OPER n ≠ F_STR_GCL_OCYC n := by
  unfold F_STR_GCL_OPER F_STR_GCL_OCYC
  omega

/-- What is operational is shown. -/
theorem operShown_get (hlen : x.pendLen ≤ 256) (hcyc : x.pendCycle < 2 ^ 30) (hgen : x.pendGen < 2 ^ 16) (n : Nat) (f : FieldDie) :
    (operShown n x f).get (F_STR_GCL_OPER_oper_gen n) = x.pendGen ∧ (operShown n x f).get (F_STR_GCL_OPER_oper_len n) = x.pendLen ∧
      (operShown n x f).get (F_STR_GCL_OPER_active n) = (if x.pendOff then 0 else 1) ∧ operCycle (operShown n x f) n = x.pendCycle := by
  have beside : ∀ (r : Fld) (g : FieldDie), r.addr = F_STR_GCL_OPER n → (g.put (F_STR_GCL_OCYC_oper_cycle n) x.pendCycle).get r = g.get r :=
    fun r g hr => FieldDie.get_put_addr g (F_STR_GCL_OCYC_oper_cycle n) r _ (by rw [hr]; exact oper_ne_cycle n)
  unfold operShown operCycle
  refine ⟨?_, ?_, ?_, ?_⟩
  · rw [beside _ _ rfl, FieldDie.get_put_field _ (F_STR_GCL_OPER_oper_len n) (F_STR_GCL_OPER_oper_gen n) _ rfl (Nat.zero_le 8)
      (by show 8 < 32; decide) (.inl (by show 8 < 16; decide)),
      FieldDie.get_put_field _ (F_STR_GCL_OPER_active n) (F_STR_GCL_OPER_oper_gen n) _ rfl (Nat.le_refl 15)
      (by show 15 < 32; decide) (.inl (by show 15 < 16; decide)),
      FieldDie.get_put _ (F_STR_GCL_OPER_oper_gen n) _ (by show 16 ≤ 31; decide) (by show 31 < 32; decide)]
    exact Nat.mod_eq_of_lt hgen
  · rw [beside _ _ rfl, FieldDie.get_put _ (F_STR_GCL_OPER_oper_len n) _ (Nat.zero_le 8) (by show 8 < 32; decide)]
    exact Nat.mod_eq_of_lt (Nat.lt_of_le_of_lt hlen (by show 256 < 2 ^ 9; decide))
  · rw [beside _ _ rfl, FieldDie.get_put_field _ (F_STR_GCL_OPER_oper_len n) (F_STR_GCL_OPER_active n) _ rfl (Nat.zero_le 8)
      (by show 8 < 32; decide) (.inl (by show 8 < 15; decide)),
      FieldDie.get_put _ (F_STR_GCL_OPER_active n) _ (Nat.le_refl 15) (by show 15 < 32; decide)]
    refine Nat.mod_eq_of_lt ?_
    show _ < 2
    split <;> decide
  · rw [FieldDie.get_put _ (F_STR_GCL_OCYC_oper_cycle n) _ (Nat.zero_le 29) (by show 29 < 32; decide)]
    exact Nat.mod_eq_of_lt hcyc

/-- The registers of port `n`'s operational list. -/
def operReg (n a : Nat) : Prop := a = F_STR_GCL_OPER n ∨ a = F_STR_GCL_OCYC n ∨ (0x570000 + 0x800 * n ≤ a ∧ a < 0x570800 + 0x800 * n)

theorem operReg_apart (hn : n < 17) (ha : operReg n a) :
    a ≠ F_STR_GCL_CUR n ∧ ¬ queueReg a ∧ a ∉ [F_STR_CHG_STAT, F_STR_EVT] ∧ a ∉ coverRegs := by
  unfold operReg F_STR_GCL_OPER F_STR_GCL_OCYC at ha
  simp only [coverRegs, List.mem_cons, List.not_mem_nil, or_false, not_or]
  unfold F_STR_GCL_CUR queueReg F_STR_CHG_STAT F_STR_EVT F_FLT_COVER F_FLT_EVT2 F_XNG_EVT F_TIM_EVT F_TIM_EVT_INFO
  omega

theorem operShown_gates (n : Nat) (x : GateX) (f : FieldDie) : (operShown n x f).gates = f.gates := by
  unfold operShown
  rw [FieldDie.put_gates, FieldDie.put_gates, FieldDie.put_gates, FieldDie.put_gates]

theorem begunPort_gateRefreshed (hn : n < f.gates.length) (off : Bool) :
    (begunPort n off f).gates.length = f.gates.length ∧ (begunPort n off f).gateX n = changedGate (f.gateX n) ∧
      GatesMove f (begunPort n off f) ∧ ∀ a, a ≠ F_STR_GCL_CUR n → (begunPort n off f).rd a = f.rd a := by
  unfold begunPort
  generalize (if off then 0 else shortQueues (f.setGateX n changedGate) n) = v
  refine ⟨List.length_modify _ _ _, gateX_setGateX_self hn, ?_, fun a ha => FieldDie.rd_put_ne _ (F_STR_GCL_CUR_short n) _ _ ha⟩
  exact (setGateX_gatesMove n changedGate f).trans (put_gatesMove (r := F_STR_GCL_CUR_short n) (gclCur_ge n) _ v)

/-- What a change leaves: the pending list in force, and what shows it. -/
structure PortChanged (n : Nat) (f g : FieldDie) : Prop where
  length : g.gates.length = f.gates.length
  own : g.gateX n = changedGate (f.gateX n)
  moves : GatesMove f g
  regs : ∀ a, a ≠ F_STR_GCL_CUR n → g.rd a = (operShown n (f.gateX n) (writeOper n (f.gateX n).pendList f)).rd a

theorem changedPort_changed (hn : n < f.gates.length) : PortChanged n f (changedPort n (f.gateX n) f) := by
  obtain ⟨low, gates⟩ := writeOper_lowSame n (f.gateX n).pendList f
  have shown := operShown_lowSame n (f.gateX n) (writeOper n (f.gateX n).pendList f)
  have same := (operShown_gates n (f.gateX n) (writeOper n (f.gateX n).pendList f)).trans gates
  unfold changedPort
  generalize hy : operShown n (f.gateX n) (writeOper n (f.gateX n).pendList f) = y at shown same
  obtain ⟨length, own, moves, regs⟩ := begunPort_gateRefreshed (n := n) (f := y) (by rw [same]; exact hn) (f.gateX n).pendOff
  refine ⟨length.trans (congrArg List.length same), own.trans (by rw [gateX_of_gates same]), ?_, fun a ha => ?_⟩
  · exact ((low.trans shown).gatesMove same).trans moves
  · rw [regs a ha, hy]

theorem change_clause (s : State) (n : Nat) (hr : s.fld.phase = .running) (hs : Shape s) (hn : n < 17)
    (hp : (s.fld.gateX n).pending = true) (hct : (s.fld.gateX n).ct ≤ s.fld.sysNs) (hlist : (s.fld.gateX n).pendList.length ≤ 256)
    (hlen : (s.fld.gateX n).pendLen ≤ 256) (hcyc : (s.fld.gateX n).pendCycle < 2 ^ 30) (hgen : (s.fld.gateX n).pendGen < 2 ^ 16) :
    ∃ t, exec (.scheduleChange n) s = .next t ∧ (t.fld.gateX n).pending = false ∧
      (t.fld.gateX n).base = (s.fld.gateX n).pendBase ∧ t.fld.get (F_STR_GCL_OPER_oper_gen n) = (s.fld.gateX n).pendGen ∧
      t.fld.get (F_STR_GCL_OPER_oper_len n) = (s.fld.gateX n).pendLen ∧
      t.fld.get (F_STR_GCL_OPER_active n) = (if (s.fld.gateX n).pendOff then 0 else 1) ∧
      operCycle t.fld n = (s.fld.gateX n).pendCycle ∧
      (∀ e, e < (s.fld.gateX n).pendList.length →
        t.fld.rd (operAddr n e 0) = word ((s.fld.gateX n).pendList.getD e (0, 0)).1 ∧
        t.fld.rd (operAddr n e 1) = word ((s.fld.gateX n).pendList.getD e (0, 0)).2) ∧
      LowFrame [] { s.fld with gates := t.fld.gates } s t := by
  have len : n < s.fld.gates.length := by rw [hs.gates]; exact hn
  have step : exec (.scheduleChange n) s = .next { s with fld := settle (portChange n s.fld) } :=
    (State.onItem_running (g := fun f => if n = 17 then (if windowsDue f then applyWindows f else f) else portChange n f) hr
      (by omega)).trans (by rw [if_neg (by omega)])
  rw [portChange_of_due hp hct] at step
  have changed := changedPort_changed len
  generalize changedPort n (s.fld.gateX n) s.fld = g at step changed
  have refreshed := refreshGate_gateRefreshed (f := g) (by rw [changed.length]; exact len)
  have purged := purgeOverrun_queueMoves hn (refreshGate n g)
  generalize hp' : purgeOverrun n (refreshGate n g) = p at step purged
  have done := changeDone_softMoves (s.fld.gateX n).pendTrig p
  generalize changeDone (s.fld.gateX n).pendTrig p = d at step done
  have gates : (settle d).gateX n = (refreshGate n g).gateX n :=
    gateX_of_gates ((settle_gates d).trans ((gates_of_rest done.rest).trans purged.gates)) n
  have kept : ∀ {a}, operReg n a → (settle d).rd a = (operShown n (s.fld.gateX n) (writeOper n (s.fld.gateX n).pendList s.fld)).rd a := by
    intro a ha
    obtain ⟨cur, queue, own, cover⟩ := operReg_apart hn ha
    rw [settle_rd_of_notMem d cover, done.rd_eq own cover, purged.regs a queue, refreshed.regs a queue cur, changed.regs a cur]
  obtain ⟨gen, length, active, cycle⟩ := operShown_get hlen hcyc hgen n (writeOper n (s.fld.gateX n).pendList s.fld)
  have oper := kept (.inl rfl)
  have moves : GatesMove s.fld d :=
    ((changed.moves.trans refreshed.moves).trans purged.gatesMove).trans (done.gatesMove (by decide))
  refine ⟨_, step, ?_, ?_, ?_, ?_, ?_, ?_, fun e he => ?_, moves.frame⟩
  all_goals dsimp only
  · rw [gates, refreshed.pending, changed.own]
    rfl
  · rw [gates, refreshed.base, changed.own]
    rfl
  · rw [FieldDie.get_eq (F_STR_GCL_OPER_oper_gen n) oper, gen]
  · rw [FieldDie.get_eq (F_STR_GCL_OPER_oper_len n) oper, length]
  · rw [FieldDie.get_eq (F_STR_GCL_OPER_active n) oper, active]
  · exact (FieldDie.get_eq (F_STR_GCL_OCYC_oper_cycle n) (kept (.inr (.inl rfl)))).trans cycle
  · obtain ⟨first, second⟩ := writeOper_rd (n := n) he s.fld
    have at_ : ∀ w, w < 2 → operReg n (operAddr n e w) ∧ operAddr n e w ≠ F_STR_GCL_OPER n ∧ operAddr n e w ≠ F_STR_GCL_OCYC n := by
      intro w hw
      unfold operReg operAddr F_STR_GCL_OPER F_STR_GCL_OCYC
      omega
    obtain ⟨in0, oper0, cycle0⟩ := at_ 0 (by decide)
    obtain ⟨in1, oper1, cycle1⟩ := at_ 1 (by decide)
    rw [kept in0, kept in1, operShown_rd oper0 cycle0, operShown_rd oper1 cycle1]
    exact ⟨first, second⟩

end Sys2Proof.Machine
end


section
/-! The change of the windows, the network cycle, latches and rate limiters (O36; R497, R501, R515, R516, R525, R527). -/

namespace Sys2Proof.Machine

variable {but : List Nat} {f g h : FieldDie} {s : State} {req data n m a : Nat}

/-! ### The windows change (R525) -/

/-- No word of the operational windows resets to anything but 0. -/
theorem tableDefault_window (hlo : 0x554000 ≤ a) (hhi : a < 0x558000) : fieldDefault a = 0 := by
  have apart : ∀ t ∈ tblRows, t.base ∈ [0x401000, 0x410000, 0x414000, 0x420000, 0x4D0000, 0x4E0000, 0x500000, 0x590000] →
      0 < t.inst ∧ (t.base + t.insts * t.inst ≤ 0x554000 ∨ 0x558000 ≤ t.base) := by decide
  unfold fieldDefault
  rw [if_neg (by omega)]
  split
  next t ht =>
    have covers := List.find?_some ht
    have cov : t.base ≤ a ∧ (a - t.base) / t.inst < t.insts := by
      simp only [TblRow.covers, Bool.and_eq_true, decide_eq_true_eq] at covers
      exact ⟨covers.1.1.1, covers.1.2⟩
    have plain : t.base ∉ [0x401000, 0x410000, 0x414000, 0x420000, 0x4D0000, 0x4E0000, 0x500000, 0x590000] := by
      intro special
      obtain ⟨pos, ends⟩ := apart t (List.mem_of_find?_eq_some ht) special
      have lt := (Nat.div_lt_iff_lt_mul pos).1 cov.2
      omega
    simp only [List.mem_cons, List.not_mem_nil, or_false, not_or] at plain
    obtain ⟨h1, h2, h3, h4, h5, h6, h7, h8⟩ := plain
    unfold tableDefault
    simp [h1, h2, h3, h4, h5, h6, h7, h8]
  next => rfl

/-- The die of which the windows that were operational are gone. -/
def windowsCleared (f : FieldDie) : FieldDie :=
  { f with
    reg := Store.clear (fun a => decide (0x554000 ≤ a) && decide (a < 0x558000)) f.reg
    str := { f.str with pendWin := none, pendWords := [], octets := [] } }

theorem applyWindows_eq (f : FieldDie) :
    applyWindows f = changeDone f.str.pendTrig (forAll f.str.pendWords (fun e f => f.wr e.1 e.2) (windowsCleared f)) := rfl

theorem windowsCleared_rd (a : Nat) (f : FieldDie) :
    (windowsCleared f).rd a = if 0x554000 ≤ a ∧ a < 0x558000 then 0 else f.rd a := by
  have filtered := Store.get_filter fieldDefault (fun a => !(decide (0x554000 ≤ a) && decide (a < 0x558000))) f.reg a
  refine filtered.trans ?_
  split
  next out =>
    rw [if_neg (by simp at out; omega)]
    rfl
  next inside =>
    have window : 0x554000 ≤ a ∧ a < 0x558000 := by simpa using inside
    rw [if_pos window, tableDefault_window window.1 window.2]

theorem forAll_wr_rd_of_notMem {ws : List (Nat × Word)} (h : a ∉ ws.map (fun e => e.1)) (f : FieldDie) :
    (forAll ws (fun e f => f.wr e.1 e.2) f).rd a = f.rd a := by
  refine forAll_keeps (P := fun g : FieldDie => g.rd a = f.rd a) (fun e he g hg => ?_) rfl
  have ne : a ≠ e.1 := fun eq => h (eq ▸ List.mem_map_of_mem he)
  rw [FieldDie.rd_wr, if_neg ne, hg]

theorem forAll_wr_rd_of_mem {ws : List (Nat × Word)} (hd : (ws.map (fun e => e.1)).Nodup) {e : Nat × Word} (he : e ∈ ws) (f : FieldDie) :
    (forAll ws (fun e f => f.wr e.1 e.2) f).rd e.1 = e.2 := by
  induction ws generalizing f with
  | nil => cases he
  | cons w ws ih =>
    rw [List.map_cons, List.nodup_cons] at hd
    rcases List.mem_cons.1 he with rfl | he
    · exact (forAll_wr_rd_of_notMem hd.1 _).trans (by rw [FieldDie.rd_wr, if_pos rfl])
    · exact ih hd.2 he _

theorem forAll_wr_str (ws : List (Nat × Word)) (f : FieldDie) : (forAll ws (fun e f => f.wr e.1 e.2) f).str = f.str := by
  refine forAll_keeps (P := fun g : FieldDie => g.str = f.str) (fun e _ g hg => ?_) rfl
  exact hg

theorem windows_clause (s : State) (hr : s.fld.phase = .running) (hdue : windowsDue s.fld = true)
    (hd : (s.fld.str.pendWords.map (fun e => e.1)).Nodup) (hin : ∀ e ∈ s.fld.str.pendWords, 0x554000 ≤ e.1 ∧ e.1 < 0x558000) :
    ∃ t, exec (.scheduleChange 17) s = .next t ∧ t.fld.str.pendWin = none ∧
      (∀ e ∈ s.fld.str.pendWords, t.fld.rd e.1 = e.2) ∧
      (∀ a, 0x554000 ≤ a → a < 0x558000 → a ∉ s.fld.str.pendWords.map (fun e => e.1) → t.fld.rd a = 0) ∧
      (∀ a, (a < 0x554000 ∨ 0x558000 ≤ a) → a ≠ F_STR_CHG_STAT → a ≠ F_STR_EVT → a ∉ coverRegs → t.fld.rd a = s.fld.rd a) ∧
      FieldOnly s t := by
  have step : exec (.scheduleChange 17) s = .next { s with fld := settle (applyWindows s.fld) } :=
    (State.onItem_running (g := fun f => if 17 = 17 then (if windowsDue f then applyWindows f else f) else portChange 17 f) hr
      (by decide)).trans (by rw [if_pos rfl, if_pos hdue])
  rw [applyWindows_eq] at step
  have written := fun {e} he => forAll_wr_rd_of_mem (e := e) hd he (windowsCleared s.fld)
  have unwritten := fun {a} h => forAll_wr_rd_of_notMem (a := a) (ws := s.fld.str.pendWords) h (windowsCleared s.fld)
  have str := forAll_wr_str s.fld.str.pendWords (windowsCleared s.fld)
  generalize forAll s.fld.str.pendWords (fun e f => f.wr e.1 e.2) (windowsCleared s.fld) = g at step written unwritten str
  have done := changeDone_softMoves s.fld.str.pendTrig g
  generalize changeDone s.fld.str.pendTrig g = d at step done
  have kept : ∀ a, a ≠ F_STR_CHG_STAT → a ≠ F_STR_EVT → a ∉ coverRegs → (settle d).rd a = g.rd a := fun a h1 h2 hc =>
    (settle_rd_of_notMem d hc).trans (done.rd_eq (by simp [h1, h2]) hc)
  have window : ∀ a, 0x554000 ≤ a → a < 0x558000 → (settle d).rd a = g.rd a := fun a h1 h2 => by
    refine kept a ?_ ?_ ?_
    · unfold F_STR_CHG_STAT
      omega
    · unfold F_STR_EVT
      omega
    · simp only [coverRegs, List.mem_cons, List.not_mem_nil, or_false, not_or]
      unfold F_FLT_COVER F_FLT_EVT2 F_XNG_EVT
      omega
  refine ⟨_, step, ?_, fun e he => ?_, fun a hlo hhi hn => ?_, fun a hout h1 h2 hc => ?_, ⟨rfl, rfl, rfl, rfl⟩⟩
  all_goals dsimp only
  · rw [settle_str, str_of_rest done.rest, str]
    rfl
  · rw [window _ (hin e he).1 (hin e he).2, written he]
  · rw [window a hlo hhi, unwritten hn, windowsCleared_rd, if_pos ⟨hlo, hhi⟩]
  · have notWritten : a ∉ s.fld.str.pendWords.map (fun e => e.1) := by
      intro hm
      obtain ⟨e, he, rfl⟩ := List.mem_map.1 hm
      have := hin e he
      omega
    rw [kept a h1 h2 hc, unwritten notWritten, windowsCleared_rd, if_neg (by omega)]

/-! ### The network cycle (R527) -/

theorem sameBoundary_clause (s : State) (hr : s.fld.phase = .running) (h : networkBoundary s.fld = s.fld.str.netStart) :
    ∃ t, exec .networkCycleBoundary s = .next t ∧ FieldFrame [] s.fld s t := by
  have stays : takeBoundary s.fld = s.fld := if_pos h
  refine ⟨_, State.onRun_running hr, ?_⟩
  rw [stays]
  exact (SoftMoves.refl [] s.fld).frame rfl

/-- The die whose network cycle began at `b`. -/
def cycleBegun (b : Nat) (f : FieldDie) : FieldDie := { f with str := { f.str with
  netStart := b
  cycles := if f.str.cycles.head? = some b then f.str.cycles else (b :: f.str.cycles).take 128 } }

theorem networkCycle_eq (f : FieldDie) (b : Nat) : networkBoundary { f with str := { f.str with netStart := b } } = networkBoundary f ∧
    networkCycle { f with str := { f.str with netStart := b } } = networkCycle f := ⟨rfl, rfl⟩

theorem beginNetworkCycle_of_none (h : f.str.pendWin = none) :
    beginNetworkCycle (networkBoundary f) f = (cycleBegun (networkBoundary f) f).put F_STR_NCYC_ncyc (networkCycle f) := by
  obtain ⟨boundary, cycle⟩ := networkCycle_eq f (networkBoundary f)
  have tracked : trackCycle { f with str := { f.str with netStart := networkBoundary f } } =
      (cycleBegun (networkBoundary f) f).put F_STR_NCYC_ncyc (networkCycle f) := by
    unfold trackCycle
    dsimp only
    rw [boundary, cycle]
    unfold cycleBegun
    by_cases listed : f.str.cycles.head? = some (networkBoundary f)
    · rw [if_pos listed]
      exact if_pos listed
    · rw [if_neg listed]
      exact if_neg listed
  have idle : windowsDue ((cycleBegun (networkBoundary f) f).put F_STR_NCYC_ncyc (networkCycle f)) = false := by
    unfold windowsDue
    rw [FieldDie.put_str]
    have none : (cycleBegun (networkBoundary f) f).str.pendWin = none := h
    rw [none]
  unfold beginNetworkCycle
  dsimp only
  rw [tracked, if_neg (by rw [idle]; exact Bool.false_ne_true)]

/-- Without a boundary, a resolved conflict or an enable 0 to wait for, no role changes. -/
theorem boundaryRoles_of_none (b : Nat) (hB : f.twn.boundaryB = none) (hconf : f.twn.confAt = false)
    (halone : f.twn.aloneAtB = false) : boundaryRoles b f = f := by
  unfold boundaryRoles
  simp only [hB, hconf, halone, Option.any_none, Bool.false_eq_true, and_false, if_false]

theorem takeBoundary_alone (hb : networkBoundary f ≠ f.str.netStart) (hrole : f.role = 0) (hwin : f.str.pendWin = none)
    (hB : f.twn.boundaryB = none) (hconf : f.twn.confAt = false) (halone : f.twn.aloneAtB = false) :
    takeBoundary f = (cycleBegun (networkBoundary f) f).put F_STR_NCYC_ncyc (networkCycle f) := by
  have begun := beginNetworkCycle_of_none hwin
  have role : ((cycleBegun (networkBoundary f) f).put F_STR_NCYC_ncyc (networkCycle f)).role = f.role :=
    FieldDie.get_put_addr (cycleBegun (networkBoundary f) f) F_STR_NCYC_ncyc F_TWN_STAT_role _ (by decide)
  have twn : ((cycleBegun (networkBoundary f) f).put F_STR_NCYC_ncyc (networkCycle f)).twn = f.twn := FieldDie.put_twn _ _ _
  unfold takeBoundary
  dsimp only
  rw [if_neg hb, begun]
  generalize (cycleBegun (networkBoundary f) f).put F_STR_NCYC_ncyc (networkCycle f) = g at role twn ⊢
  rw [if_neg (by rw [role, hrole]; omega)]
  exact boundaryRoles_of_none _ (by rw [twn, hB]) (by rw [twn, hconf]) (by rw [twn, halone])

theorem boundary_clause (s : State) (hr : s.fld.phase = .running) (hb : networkBoundary s.fld ≠ s.fld.str.netStart)
    (hrole : s.fld.role = 0) (hwin : s.fld.str.pendWin = none) (hB : s.fld.twn.boundaryB = none) (hconf : s.fld.twn.confAt = false)
    (halone : s.fld.twn.aloneAtB = false) :
    ∃ t, exec .networkCycleBoundary s = .next t ∧ t.fld.get F_STR_NCYC_ncyc = networkCycle s.fld % 2 ^ 30 ∧
      FieldFrame [F_STR_NCYC] { s.fld with str := { s.fld.str with
        netStart := networkBoundary s.fld
        cycles := if s.fld.str.cycles.head? = some (networkBoundary s.fld) then s.fld.str.cycles
          else (networkBoundary s.fld :: s.fld.str.cycles).take 128 } } s t := by
  have step := State.onRun_running (g := takeBoundary) hr
  rw [takeBoundary_alone hb hrole hwin hB hconf halone] at step
  refine ⟨_, step, ?_, ?_⟩
  · dsimp only
    rw [settle_get_of_notMem (by decide)]
    exact FieldDie.get_put (cycleBegun (networkBoundary s.fld) s.fld) F_STR_NCYC_ncyc _ (by decide) (by decide)
  · exact (FieldDie.put_softMoves (f := cycleBegun (networkBoundary s.fld) s.fld) (r := F_STR_NCYC_ncyc) (by decide) _).frame rfl

/-! ### Latches (R497, R501) -/

/-- The word that an UNLATCH clears. -/
def unlatched (data : Nat) : List Nat :=
  if hasBit data 31 then [streamStatusAddr (bitsOf data 11 0)]
  else if bitsOf data 11 0 < 256 then [sgateStateAddr (bitsOf data 11 0)] else []

theorem writeUnlatch_softMoves (data : Nat) (f : FieldDie) : SoftMoves (unlatched data) f (writeUnlatch data f) := by
  unfold writeUnlatch unlatched
  dsimp only
  split
  · exact FieldDie.wrN_softMoves (List.mem_singleton.2 rfl) f 0
  · split
    · exact FieldDie.wrN_softMoves (List.mem_singleton.2 rfl) f 0
    · exact .refl [] f

theorem unlatch_clause (s : State) (req : Nat) (data : Word) (hw : s.fld.canWrite req = true) :
    ∃ t, exec (.unlatch req data) s = .next t ∧
      (hasBit data.toNat 31 = true → t.fld.rd (streamStatusAddr (bitsOf data.toNat 11 0)) = 0) ∧
      (hasBit data.toNat 31 = false → bitsOf data.toNat 11 0 < 256 → t.fld.rd (sgateStateAddr (bitsOf data.toNat 11 0)) = 0) ∧
      FieldFrame (if hasBit data.toNat 31 then [streamStatusAddr (bitsOf data.toNat 11 0)]
        else if bitsOf data.toNat 11 0 < 256 then [sgateStateAddr (bitsOf data.toNat 11 0)] else []) s.fld s t := by
  have cover : ∀ i, streamStatusAddr i ∉ coverRegs ∧ sgateStateAddr i ∉ coverRegs := by
    intro i
    simp only [coverRegs, List.mem_cons, List.not_mem_nil, or_false, not_or]
    unfold streamStatusAddr sgateStateAddr F_FLT_COVER F_FLT_EVT2 F_XNG_EVT
    omega
  refine ⟨_, State.onWrite_of_canWrite (k := writeUnlatch data.toNat) hw, fun h => ?_, fun h hlt => ?_,
    (s.fld.napBreak_softMoves.trans (writeUnlatch_softMoves data.toNat _)).frame rfl⟩
  · dsimp only
    rw [settle_rd_of_notMem _ (cover _).1]
    unfold writeUnlatch
    dsimp only
    rw [if_pos h, FieldDie.rd_wr, if_pos rfl]
  · dsimp only
    rw [settle_rd_of_notMem _ (cover _).2]
    unfold writeUnlatch
    dsimp only
    rw [if_neg (by rw [h]; exact Bool.false_ne_true), if_pos hlt, FieldDie.rd_wr, if_pos rfl]

/-! ### Rate limiters (R515, R516) -/

/-- A rate limiter's rate and its queues are software's and covered. -/
def rlCfgRow : RegRow := ⟨0x1A0434, 0x40, 17, .const 0, false, true,
  [⟨31, 24, .rw, false, none, false⟩, ⟨23, 0, .rw, false, none, false⟩]⟩

/-- A rate limiter's burst is software's and covered. -/
def rlBurstRow : RegRow := ⟨0x1A0438, 0x40, 17, .const 0, false, true, [⟨23, 0, .rw, false, none, false⟩]⟩

theorem regRow_rl : ∀ n, n < 17 → regRow (F_STR_RL_CFG n) = some rlCfgRow ∧ regRow (F_STR_RL_BURST n) = some rlBurstRow := by decide

/-- The word that a write of `data` makes of a burst `w`. -/
def rlBurstWord (w data : Nat) : Nat := putBits w 23 0 (bitsOf data 23 0)

/-- The word that a write of `data` makes of a rate and its queues `w`. -/
def rlCfgWord (w data : Nat) : Nat := putBits (putBits w 31 24 (bitsOf data 31 24)) 23 0 (bitsOf data 23 0)

theorem rlBurstWord_lt {w : Nat} (hw : w < 2 ^ 32) (data : Nat) : rlBurstWord w data < 2 ^ 32 :=
  putBits_lt _ _ _ _ _ (by decide) (by decide) hw

theorem rlCfgWord_lt {w : Nat} (hw : w < 2 ^ 32) (data : Nat) : rlCfgWord w data < 2 ^ 32 :=
  putBits_lt _ _ _ _ _ (by decide) (by decide) (putBits_lt _ _ _ _ _ (by decide) (by decide) hw)

theorem bitsOf_putBits_bitsOf {hi lo : Nat} (h : lo ≤ hi) (w data : Nat) :
    bitsOf (putBits w hi lo (bitsOf data hi lo)) hi lo = bitsOf data hi lo :=
  (bitsOf_putBits_same _ _ _ _ h).trans (Nat.mod_eq_of_lt (bitsOf_lt _ _ _))

theorem rlCfgWord_qmask (w data : Nat) : bitsOf (rlCfgWord w data) 31 24 = bitsOf data 31 24 := by
  unfold rlCfgWord
  rw [bitsOf_putBits_other _ _ _ _ _ _ (by decide) (by decide), bitsOf_putBits_bitsOf (by decide)]

theorem storeWrite_rl (hn : n < 17) (req data : Nat) (f : FieldDie) :
    storeWrite req (F_STR_RL_CFG n) data f = storedAt (F_STR_RL_CFG n) (rlCfgWord (f.rdN (F_STR_RL_CFG n)) data) f.cfg f ∧
      storeWrite req (F_STR_RL_BURST n) data f = storedAt (F_STR_RL_BURST n) (rlBurstWord (f.rdN (F_STR_RL_BURST n)) data) f.cfg f := by
  obtain ⟨cfg, burst⟩ := regRow_rl n hn
  unfold storeWrite
  rw [cfg, burst]
  exact ⟨rfl, rfl⟩

/-- The die whose rate limiter at port `n` has its level at the burst `v`. -/
def levelled (n v : Nat) (f : FieldDie) : FieldDie := f.setGateX n (fun x => { x with rlLevel := (v : Int) * 1000000 })

theorem writeRl_eq (req n addr data : Nat) (f : FieldDie) :
    writeRl req n addr data f = levelled n ((storeWrite req addr data f).get (F_STR_RL_BURST_burst n)) (storeWrite req addr data f) := rfl

theorem SoftMoves.levelled (m : SoftMoves but f g) (n v : Nat) : SoftMoves but (levelled n v f) (levelled n v g) := by
  have same := (m.withGates (modAt g.gates n (fun x => { x with rlLevel := (v : Int) * 1000000 })) g.str)
  have base : Machine.levelled n v f = { f with gates := modAt g.gates n (fun x => { x with rlLevel := (v : Int) * 1000000 }), str := g.str } := by
    rw [gates_of_rest m.rest, str_of_rest m.rest]
    rfl
  rw [base]
  exact same

theorem levelled_get (n v : Nat) (r : Fld) (f : FieldDie) : (levelled n v f).get r = f.get r := rfl

theorem levelled_cfg (n v : Nat) (f : FieldDie) : (levelled n v f).cfg = f.cfg := rfl

theorem rl_addr (hn : n < 17) : F_STR_RL_CFG n ∉ coverRegs ∧ F_STR_RL_BURST n ∉ coverRegs ∧ F_STR_RL_CFG n ≠ F_CFG_PROOF_STAT ∧
    F_STR_RL_BURST n ≠ F_CFG_PROOF_STAT ∧ F_STR_RL_BURST n ∉ [F_STR_RL_CFG n, F_CFG_PROOF_STAT] := by
  simp only [coverRegs, List.mem_cons, List.not_mem_nil, or_false, not_or]
  unfold F_STR_RL_CFG F_STR_RL_BURST F_CFG_PROOF_STAT F_FLT_COVER F_FLT_EVT2 F_XNG_EVT
  omega

/-- What a write of a rate limiter's register leaves, once its word is known. -/
theorem rl_frame {v : Nat} (c : CfgX) (s : State) (n w : Nat) (hv : v = a) :
    SoftMoves [w, F_CFG_PROOF_STAT] { levelled n a s.fld with cfg := (storedAt w data c s.fld.napBreak).cfg }
      (levelled n v (storedAt w data c s.fld.napBreak)) := by
  rw [hv]
  exact (storedAt_napBreak_softMoves w data c s.fld).levelled n a

theorem rateLimiter_clause (s : State) (req n : Nat) (burst : Bool) (data : Word) (hw : s.fld.canWrite req = true) (hn : n < 17) :
    ∃ t, exec (.rateLimiterWrite req n burst data) s = .next t ∧
      (burst = true → t.fld.get (F_STR_RL_BURST_burst n) = bitsOf data.toNat 23 0) ∧
      (burst = false → t.fld.get (F_STR_RL_CFG_rate n) = bitsOf data.toNat 23 0 ∧
        t.fld.get (F_STR_RL_CFG_qmask n) = bitsOf data.toNat 31 24) ∧
      FieldFrame [if burst then F_STR_RL_BURST n else F_STR_RL_CFG n, F_CFG_PROOF_STAT]
        { s.fld.setGateX n (fun x => { x with
            rlLevel := ((if burst then bitsOf data.toNat 23 0 else s.fld.get (F_STR_RL_BURST_burst n) : Nat) : Int) * 1000000 })
          with cfg := t.fld.cfg } s t := by
  obtain ⟨cfgCover, burstCover, cfgProof, burstProof, burstApart⟩ := rl_addr hn
  obtain ⟨cfgStored, burstStored⟩ := storeWrite_rl hn req data.toNat s.fld.napBreak
  have step := State.onItemWrite_of_canWrite (k := writeRl req n (if burst then F_STR_RL_BURST n else F_STR_RL_CFG n) data.toNat) hw hn
  rw [writeRl_eq] at step
  cases burst with
  | true =>
    have word := storedAt_rdN_any (rlBurstWord_lt (s.fld.napBreak.rdN_lt (F_STR_RL_BURST n)) data.toNat) burstProof burstCover
      s.fld.napBreak.cfg s.fld.napBreak
    rw [if_pos rfl, burstStored] at step
    have shown : (storedAt (F_STR_RL_BURST n) (rlBurstWord (s.fld.napBreak.rdN (F_STR_RL_BURST n)) data.toNat)
        s.fld.napBreak.cfg s.fld.napBreak).get (F_STR_RL_BURST_burst n) = bitsOf data.toNat 23 0 :=
      (congrArg (fun w => bitsOf w 23 0) word).trans (bitsOf_putBits_bitsOf (by decide) _ _)
    refine ⟨_, step, fun _ => ?_, fun h => absurd h (by decide), ?_⟩
    · dsimp only
      rw [settle_get_of_notMem (r := F_STR_RL_BURST_burst n) burstCover, levelled_get, shown]
    · dsimp only
      rw [settle_cfg, levelled_cfg]
      exact (rl_frame _ s n _ shown).frame rfl
  | false =>
    have word := storedAt_rdN_any (rlCfgWord_lt (s.fld.napBreak.rdN_lt (F_STR_RL_CFG n)) data.toNat) cfgProof cfgCover
      s.fld.napBreak.cfg s.fld.napBreak
    have moves := storedAt_napBreak_softMoves (F_STR_RL_CFG n) (rlCfgWord (s.fld.napBreak.rdN (F_STR_RL_CFG n)) data.toNat)
      s.fld.napBreak.cfg s.fld
    rw [if_neg Bool.false_ne_true, cfgStored] at step
    have kept : (storedAt (F_STR_RL_CFG n) (rlCfgWord (s.fld.napBreak.rdN (F_STR_RL_CFG n)) data.toNat)
        s.fld.napBreak.cfg s.fld.napBreak).get (F_STR_RL_BURST_burst n) = s.fld.get (F_STR_RL_BURST_burst n) :=
      (moves.get_eq (r := F_STR_RL_BURST_burst n) burstApart burstCover).trans rfl
    refine ⟨_, step, fun h => absurd h (by decide), fun _ => ⟨?_, ?_⟩, ?_⟩
    · dsimp only
      rw [settle_get_of_notMem (r := F_STR_RL_CFG_rate n) cfgCover, levelled_get]
      exact (congrArg (fun w => bitsOf w 23 0) word).trans (bitsOf_putBits_bitsOf (by decide) _ _)
    · dsimp only
      rw [settle_get_of_notMem (r := F_STR_RL_CFG_qmask n) cfgCover, levelled_get]
      exact (congrArg (fun w => bitsOf w 31 24) word).trans (rlCfgWord_qmask _ _)
    · dsimp only
      rw [settle_cfg, levelled_cfg]
      exact (rl_frame _ s n _ kept).frame rfl

/-- Settles O36, clause by clause: a refresh of the gates is `GateRefreshed`, an accepted trigger is `pendGates`, a change is
`PortChanged`. -/
theorem gatesFollowTheirLists : Obligations.GatesFollowTheirLists := by
  unfold Obligations.GatesFollowTheirLists
  refine ⟨idleGate_clause, fun s n hr hs hn hact _ hlt => runningGate_clause s n hr hs hn hact hlt, repeat_clause, refused_clause,
    accepted_clause, change_clause, windows_clause, sameBoundary_clause, boundary_clause, unlatch_clause,
    fun s req n burst data hw _ hn => rateLimiter_clause s req n burst data hw hn⟩

end Sys2Proof.Machine
end


section
/-! The twin link's end through a command (chapters 14 and 15): what waits there is sent or waits on, the units received stay,
and what a change of the pair's own record moves. -/

namespace Sys2Proof.Machine

variable {but : List Nat} {f g h : FieldDie} {s : State} {l m k : Link} {u : FlowUnit}

/-! ### Units on the way to the partner -/

/-- A unit waits for the link or for its ACK. -/
def Link.holds (l : Link) (u : FlowUnit) : Bool := l.waiting.any (fun y => y == u) || l.replay.any (fun e => e.2 == u)

/-- From `l` to `m` units have been sent: nothing received is consumed, the phase stands, and every unit sent or waiting is
still held. -/
structure LinkSends (l m : Link) : Prop where
  inbox : m.inbox = l.inbox
  phase : m.phase = l.phase
  replay : ∀ u, l.replay.any (fun e => e.2 == u) = true → m.replay.any (fun e => e.2 == u) = true
  holds : ∀ u, l.holds u = true → m.holds u = true

theorem LinkSends.refl (l : Link) : LinkSends l l := ⟨rfl, rfl, fun _ h => h, fun _ h => h⟩

theorem LinkSends.ofEq (h : m = l) : LinkSends l m := h ▸ .refl l

theorem LinkSends.trans (a : LinkSends l m) (b : LinkSends m k) : LinkSends l k :=
  ⟨b.inbox.trans a.inbox, b.phase.trans a.phase, fun u h => b.replay u (a.replay u h), fun u h => b.holds u (a.holds u h)⟩

/-- A unit that goes out joins the replay buffer. -/
theorem sent_linkSends (l : Link) (u : FlowUnit) : LinkSends l (l.sent u) where
  inbox := rfl
  phase := rfl
  replay v h := by
    unfold Link.sent
    dsimp only
    rw [List.any_append, h, Bool.true_or]
  holds v h := by
    unfold Link.holds Link.sent at *
    dsimp only
    rw [List.any_append]
    cases hw : l.waiting.any (fun y => y == v) with
    | true => simp
    | false =>
      rw [hw, Bool.false_or] at h
      simp [h]

theorem sent_replay (l : Link) (u : FlowUnit) : (l.sent u).replay.any (fun e => e.2 == u) = true := by simp [Link.sent]

theorem unspoilt_linkSends (f : FieldDie) (who : LinkId) :
    LinkSends f.twin (f.setLink who (fun l => { l with corruptTx := false })).twin := by
  unfold FieldDie.setLink
  split
  · exact ⟨rfl, rfl, fun _ h => h, fun _ h => h⟩
  · exact .refl _

theorem putUnit_linkSends (f : FieldDie) (who : LinkId) (seed : Nat) (u : FlowUnit) :
    LinkSends f.twin (f.putUnit who seed u).twin := by
  unfold FieldDie.putUnit
  rw [← f.count_twin (if who = .twin then cTwin 0 else cXng 0)]
  generalize f.count _ = f
  dsimp only
  generalize (if who = .twin then f.twin else f.xng) = l
  split
  · exact unspoilt_linkSends f who
  · split
    · split
      · exact .refl _
      · exact .refl _
    · exact .refl _

theorem ticked_linkSends (l : Link) (t : Nat) (u : FlowUnit) : LinkSends l ({ l with tick := t }.sent u) :=
  LinkSends.trans (m := { l with tick := t }) ⟨rfl, rfl, fun _ h => h, fun _ h => h⟩ (sent_linkSends _ u)

theorem sendTwin_linkSends (f : FieldDie) (u : FlowUnit) : LinkSends f.twin (f.sendTwin u).twin := by
  unfold FieldDie.sendTwin
  refine LinkSends.trans ?_ (putUnit_linkSends _ .twin _ u)
  exact ticked_linkSends f.twin f.now u

theorem sendTwin_replay (f : FieldDie) (u : FlowUnit) : (f.sendTwin u).twin.replay.any (fun e => e.2 == u) = true := by
  unfold FieldDie.sendTwin
  exact (putUnit_linkSends _ .twin _ u).replay u (sent_replay { f.twin with tick := f.now } u)

theorem postTwin_linkSends (u : FlowUnit) (f : FieldDie) : LinkSends f.twin (postTwin u f).twin := by
  unfold postTwin
  split
  · exact sendTwin_linkSends f u
  · refine ⟨rfl, rfl, fun _ h => h, fun v h => ?_⟩
    unfold Link.holds at *
    dsimp only
    rw [List.any_append, Bool.or_right_comm, h, Bool.true_or]

/-- A unit posted is sent or waits. -/
theorem postTwin_holds (u : FlowUnit) (f : FieldDie) : (postTwin u f).twin.holds u = true := by
  unfold postTwin
  split
  · unfold Link.holds
    rw [sendTwin_replay, Bool.or_true]
  · simp [Link.holds]

/-! ### The end of a command -/

theorem queueEvt_twin (f : FieldDie) (u : FlowUnit) : (f.queueEvt u).twin = f.twin := by
  unfold FieldDie.queueEvt
  split
  · rfl
  · rw [FieldDie.setFlag_twin, FieldDie.count_twin]

theorem raise_twin (f : FieldDie) (a bit : Nat) : (f.raise a bit).twin = f.twin := by
  unfold FieldDie.raise
  dsimp only
  rw [queueEvt_twin, FieldDie.setFlag_twin]

theorem refreshCover_twin (f : FieldDie) : (refreshCover f).twin = f.twin := by
  unfold refreshCover
  split
  · rfl
  · rw [raise_twin, FieldDie.put_twin]

theorem sendXng_linkSends (f : FieldDie) (u : FlowUnit) : LinkSends f.twin (f.sendXng u).twin := by
  unfold FieldDie.sendXng
  dsimp only
  split
  · refine LinkSends.trans ?_ (putUnit_linkSends _ .field _ u)
    exact .refl _
  · exact .refl _

theorem pumpXng_linkSends (n : Nat) (f : FieldDie) : LinkSends f.twin (pumpXng n f).twin := by
  induction n generalizing f with
  | zero => exact .refl _
  | succ n ih =>
    unfold pumpXng
    split
    · exact .refl _
    · split
      next u us _ => exact (sendXng_linkSends { f with xng := { f.xng with waiting := us } } u).trans (ih _)
      next =>
        split
        next u us _ => exact (sendXng_linkSends { f with evtq := us, evtLost := false } _).trans (ih _)
        next => exact .refl _

theorem pumpTwin_linkSends (n : Nat) (f : FieldDie) : LinkSends f.twin (pumpTwin n f).twin := by
  induction n generalizing f with
  | zero => exact .refl _
  | succ n ih =>
    unfold pumpTwin
    split
    · exact .refl _
    · split
      next u us hw =>
        refine LinkSends.trans ?_ (ih _)
        have sends := sendTwin_linkSends { f with twin := { f.twin with waiting := us } } u
        refine ⟨sends.inbox, sends.phase, sends.replay, fun v h => ?_⟩
        unfold Link.holds at h
        rw [hw, List.any_cons] at h
        cases hv : u == v with
        | true =>
          rw [← eq_of_beq hv]
          unfold Link.holds
          rw [sendTwin_replay, Bool.or_true]
        | false =>
          rw [hv, Bool.false_or] at h
          exact sends.holds v h
      next => exact .refl _

theorem settle_linkSends (f : FieldDie) : LinkSends f.twin (settle f).twin := by
  unfold settle
  split
  · exact (LinkSends.ofEq (refreshCover_twin f)).trans ((pumpXng_linkSends 320 _).trans (pumpTwin_linkSends 64 _))
  · exact .refl _

/-! ### A ROLE unit is taken -/

/-- The die of which the unit `u` received on the twin link has been consumed. -/
def taken (u : FlowUnit) (f : FieldDie) : FieldDie := { f with twin := { f.twin with inbox := f.twin.inbox.erase u } }

theorem onRole_of_take {kind : Nat} {r : FlowUnit → FieldDie → FieldDie} (h : (takeRole kind f).map (fun x => x.1) = some u) :
    onRole kind r f = r u (taken u f) := by
  unfold onRole
  have found : takeRole kind f = some (u, taken u f) := by
    unfold takeRole at h ⊢
    split
    next v hv =>
      rw [hv] at h
      dsimp only at h
      split at h
      next hk =>
        obtain rfl : v = u := by simpa using h
        rw [if_pos hk]
        rfl
      next => cases h
    next hn =>
      rw [hn] at h
      cases h
  rw [found]

theorem taken_softMoves (u : FlowUnit) (f : FieldDie) : SoftMoves but f (taken u f) := ⟨rfl, .ofEq rfl rfl rfl, .ofReg rfl⟩

/-! ### Changes of the pair's record -/

theorem twn_of_rest (h : g.rest = f.rest) : g.twn = f.twn := by
  have := congrArg FieldDie.twn h
  exact this

theorem SoftMoves.withTwn (a : SoftMoves but f g) (x : TwnX) : SoftMoves but { f with twn := x } { g with twn := x } where
  rest := congrArg (fun r : FieldDie => { r with twn := x }) a.rest
  send := ⟨a.send.buf, a.send.out, a.send.cnt⟩
  regs := a.regs

/-- From `f` to `g` the listed registers, what waits to be sent, and the pair's own record have at most moved. -/
def TwinMoves (but : List Nat) (f g : FieldDie) : Prop := SoftMoves but { f with twn := g.twn } g

theorem SoftMoves.twinMoves (a : SoftMoves but f g) : TwinMoves but f g := by
  have own : ({ f with twn := g.twn } : FieldDie) = f := by rw [twn_of_rest a.rest]
  unfold TwinMoves
  rw [own]
  exact a

theorem TwinMoves.refl (but : List Nat) (f : FieldDie) : TwinMoves but f f := (SoftMoves.refl but f).twinMoves

theorem TwinMoves.trans (a : TwinMoves but f g) (b : TwinMoves but g h) : TwinMoves but f h :=
  SoftMoves.trans (SoftMoves.withTwn a h.twn) b

/-- The pair's record alone changes. -/
theorem setTwn_twinMoves (f : FieldDie) (x : TwnX) : TwinMoves but f { f with twn := x } := SoftMoves.refl but _

theorem TwinMoves.frame (a : TwinMoves but s.fld g) :
    FieldFrame but { s.fld with twn := (settle g).twn } s { s with fld := settle g } := by
  rw [settle_twn]
  exact SoftMoves.frame a rfl

theorem TwinMoves.rd_eq (a : TwinMoves but f g) {r : Nat} (ha : r ∉ but) (hc : r ∉ coverRegs) : g.rd r = f.rd r :=
  (SoftMoves.rd_eq a ha hc).trans rfl

theorem TwinMoves.get_eq (a : TwinMoves but f g) {r : Fld} (ha : r.addr ∉ but) (hc : r.addr ∉ coverRegs) : g.get r = f.get r :=
  FieldDie.get_eq r (a.rd_eq ha hc)

theorem TwinMoves.mono {but' : List Nat} (a : TwinMoves but f g) (h : but ⊆ but') : TwinMoves but' f g := SoftMoves.mono a h

theorem FieldDie.rest_eq (hc : g.core = f.core) : g.rest = f.rest := by
  have rest : ∀ x : FieldDie, x.rest = x.core.rest := fun _ => rfl
  rw [rest g, rest f, hc]

theorem sendTwin_softMoves (u : FlowUnit) (f : FieldDie) : SoftMoves but f (f.sendTwin u) :=
  ⟨FieldDie.rest_eq (f.sendTwin_core u), f.sendTwin_sendSame u, .ofReg (f.sendTwin_reg u)⟩

theorem postTwin_softMoves (u : FlowUnit) (f : FieldDie) : SoftMoves but f (postTwin u f) := by
  unfold postTwin
  split
  · exact sendTwin_softMoves u f
  · exact ⟨rfl, .ofEq rfl rfl rfl, .ofReg rfl⟩

theorem postTwin_twn (u : FlowUnit) (f : FieldDie) : (postTwin u f).twn = f.twn := twn_of_rest (postTwin_softMoves (but := []) u f).rest

/-! ### What a read of time and boundaries rests on -/

/-- Network cycles and system time stand when no register of theirs moves. -/
theorem raise_twn (f : FieldDie) (a bit : Nat) : (f.raise a bit).twn = f.twn :=
  twn_of_rest (FieldDie.raise_softMoves (but := [a]) (List.mem_singleton.2 rfl) f bit).rest

end Sys2Proof.Machine
end


section
/-! The decisions of the twin pair (R655 to R661): boundaries, evidence and requests, and what they move. -/

namespace Sys2Proof.Machine

variable {but : List Nat} {f g h : FieldDie} {s : State} {u : FlowUnit} {a : Nat}

/-! ### Boundaries -/

/-- The registers from which the network cycle and system time are read. -/
def cycleReg (a : Nat) : Prop := a = F_STR_SCHED ∨ (0x1A0400 ≤ a ∧ a < 0x1A0840) ∨ a ∈ clockRegs

/-- What the network cycle rests on stands. -/
structure CycleSame (f g : FieldDie) : Prop where
  boundary : networkBoundary g = networkBoundary f
  cycle : networkCycle g = networkCycle f
  sysNs : g.sysNs = f.sysNs

theorem cycleSame_of (hgates : g.gates = f.gates) (hside : ({ g with tim := g.tim } : FieldDie).sysNs = f.sysNs)
    (hreg : ∀ a, cycleReg a → g.rd a = f.rd a) : CycleSame f g := by
  have now : g.sysNs = f.sysNs := hside
  have port : ∀ n, n < 17 → g.rd (F_STR_GCL_OPER n) = f.rd (F_STR_GCL_OPER n) ∧ g.rd (F_STR_GCL_OCYC n) = f.rd (F_STR_GCL_OCYC n) := by
    intro n hn
    refine ⟨hreg _ (.inr (.inl ?_)), hreg _ (.inr (.inl ?_))⟩
    · unfold F_STR_GCL_OPER
      omega
    · unfold F_STR_GCL_OCYC
      omega
  have master : scheduleMaster g = scheduleMaster f := by
    have number := FieldDie.get_eq F_STR_SCHED_master_port (hreg F_STR_SCHED (.inl rfl))
    unfold scheduleMaster
    dsimp only
    rw [number]
    by_cases hn : f.get F_STR_SCHED_master_port < 17
    · have active : listActive g (f.get F_STR_SCHED_master_port) = listActive f (f.get F_STR_SCHED_master_port) := by
        unfold listActive FieldDie.flag
        rw [FieldDie.get_eq (F_STR_GCL_OPER_active _) (port _ hn).1]
      rw [active]
    · rw [if_neg fun h => hn h.1, if_neg fun h => hn h.1]
  have named : ∀ n, scheduleMaster f = some n → n < 17 := by
    intro n h
    unfold scheduleMaster at h
    dsimp only at h
    split at h
    next c =>
      injection h with h
      rw [← h]
      exact c.1
    next => cases h
  have cycle : ∀ n, n < 17 → operCycle g n = operCycle f n := fun n hn => FieldDie.get_eq (F_STR_GCL_OCYC_oper_cycle n) (port n hn).2
  have running : ∀ n, n < 17 → runningCycle g n = runningCycle f n := by
    intro n hn
    unfold runningCycle extension
    rw [cycle n hn, now, gateX_of_gates hgates]
  refine ⟨?_, ?_, now⟩
  · unfold networkBoundary
    rw [master]
    cases hm : scheduleMaster f with
    | some n => exact running n (named n hm)
    | none =>
      dsimp only
      rw [now]
  · unfold networkCycle
    rw [master]
    cases hm : scheduleMaster f with
    | some n => exact cycle n (named n hm)
    | none => rfl

theorem CycleSame.after (c : CycleSame f g) (k : Nat) : boundaryAfter g k = boundaryAfter f k := by
  unfold boundaryAfter
  rw [c.boundary, c.cycle]

theorem CycleSame.takeover (c : CycleSame f g) : takeoverBoundary g = takeoverBoundary f := by
  unfold takeoverBoundary
  rw [c.sysNs, c.boundary, c.cycle, c.after]

/-- The registers of the twin pair's block. -/
def twinReg (a : Nat) : Prop := 0x1F0000 ≤ a ∧ a < 0x1F0100

theorem twinReg.not_cycleReg (h : twinReg a) : ¬ cycleReg a := by
  unfold twinReg at h
  unfold cycleReg clockRegs F_STR_SCHED F_TIM_SYS F_TIM_B_RATE F_TIM_B_ANCHOR_LO F_TIM_B_ANCHOR_HI
  simp only [List.mem_cons, List.not_mem_nil, or_false]
  omega

theorem cycleReg.notMem (h : cycleReg a) : a ∉ coverRegs := by
  unfold cycleReg clockRegs F_STR_SCHED F_TIM_SYS F_TIM_B_RATE F_TIM_B_ANCHOR_LO F_TIM_B_ANCHOR_HI at h
  simp only [List.mem_cons, List.not_mem_nil, or_false] at h
  simp only [coverRegs, List.mem_cons, List.not_mem_nil, or_false, not_or]
  unfold F_FLT_COVER F_FLT_EVT2 F_XNG_EVT
  omega

theorem SoftMoves.cycleSame (m : SoftMoves but f g) (h : ∀ a ∈ but, twinReg a) : CycleSame f g := by
  have reg : ∀ a, cycleReg a → g.rd a = f.rd a := fun a ha => m.rd_eq (fun hm => (h a hm).not_cycleReg ha) ha.notMem
  refine cycleSame_of (gates_of_rest m.rest) ?_ reg
  exact sysNs_eq (side_of_rest m.rest) fun a ha => reg a (.inr (.inr ha))

theorem TwinMoves.cycleSame (m : TwinMoves but f g) (h : ∀ a ∈ but, twinReg a) : CycleSame f g := by
  have c : CycleSame { f with twn := g.twn } g := SoftMoves.cycleSame m h
  exact ⟨c.boundary.trans rfl, c.cycle.trans rfl, c.sysNs.trans rfl⟩

end Sys2Proof.Machine
end


section
/-! The twin pair's formation, status, evidence and requests (O55; R633, R639 to R641, R655 to R664). -/

namespace Sys2Proof.Machine

variable {but : List Nat} {f g h : FieldDie} {s : State} {u : FlowUnit} {a req data : Nat}

/-! ### What a decision moves (Table 15.6) -/

/-- What a decision on the roles can change in the pair's record, put aside. -/
def TwnX.strip (x : TwnX) : TwnX := { x with boundaryB := none, toActive := false, cause := 0, reqSent := false }

/-- From `f` to `g` a decision has been taken: events have been reported and units posted; of the pair's record only the
coming boundary, what it brings and the request have moved. -/
structure Decided (f g : FieldDie) : Prop where
  moves : TwinMoves [F_TWN_EVT] f g
  twn : g.twn.strip = f.twn.strip
  link : LinkSends f.twin g.twin

theorem Decided.refl (f : FieldDie) : Decided f f := ⟨.refl _ f, rfl, .refl _⟩

theorem Decided.trans (a : Decided f g) (b : Decided g h) : Decided f h :=
  ⟨a.moves.trans b.moves, b.twn.trans a.twn, a.link.trans b.link⟩

theorem Decided.evL (d : Decided f g) : g.twn.evL = f.twn.evL := (congrArg TwnX.evL d.twn).trans rfl

theorem Decided.statusAt (d : Decided f g) : g.twn.statusAt = f.twn.statusAt := (congrArg TwnX.statusAt d.twn).trans rfl

theorem Decided.resync (d : Decided f g) : g.twn.resync = f.twn.resync := (congrArg TwnX.resync d.twn).trans rfl

theorem Decided.role (d : Decided f g) : g.role = f.role := d.moves.get_eq (r := F_TWN_STAT_role) (by decide) (by decide)

theorem Decided.setTwn {x : TwnX} (f : FieldDie) (h : x.strip = f.twn.strip) : Decided f { f with twn := x } :=
  ⟨setTwn_twinMoves f x, h, .refl _⟩

theorem Decided.raise (f : FieldDie) (bit : Nat) : Decided f (f.raise F_TWN_EVT bit) :=
  ⟨(FieldDie.raise_softMoves (List.mem_singleton.2 rfl) f bit).twinMoves, by rw [raise_twn], .ofEq (raise_twin f _ _)⟩

theorem Decided.post (u : FlowUnit) (f : FieldDie) : Decided f (postTwin u f) :=
  ⟨(postTwin_softMoves u f).twinMoves, by rw [postTwin_twn], postTwin_linkSends u f⟩

theorem Decided.ite {p : Prop} [Decidable p] (hg : Decided f g) (hh : Decided f h) : Decided f (if p then g else h) := by
  split
  · exact hg
  · exact hh

theorem reportDown_decided (f : FieldDie) : Decided f (reportDown f) := .ite (.refl f) (.raise f 6)

/-- A take-over that was under way is given up. -/
def takeoverDropped (f : FieldDie) : FieldDie := if f.twn.cause = 3 then { f with twn := { f.twn with boundaryB := none } } else f

theorem takeoverDropped_decided (f : FieldDie) : Decided f (takeoverDropped f) := .ite (.setTwn f rfl) (.refl f)

/-- The die whose take-over comes at its next boundary but 2 us. -/
def takeoverSet (f : FieldDie) : FieldDie :=
  { f with twn := { f.twn with boundaryB := some (takeoverBoundary f), toActive := true, cause := 3 } }

/-- What a standby part that does not take over reports. -/
def standbyReports (byRecord : Bool) (f : FieldDie) : FieldDie :=
  if evP f then f.raise F_TWN_EVT 5
  else if f.twn.evL then reportDown (if byRecord then f else f.raise F_TWN_EVT 4)
  else f

theorem decideRole_of_standby (hr : f.role = 3) (byRecord : Bool) : decideRole byRecord f =
    if evP f && f.twn.evL then takeoverSet f else standbyReports byRecord (takeoverDropped f) := if_pos hr

theorem decideRole_of_active (hr : f.role = 2) (byRecord : Bool) : decideRole byRecord f =
    if evP f then f.raise F_TWN_EVT 7 else if f.twn.evL then reportDown f else f := by
  unfold decideRole
  rw [if_neg (by omega), if_pos hr]

theorem decideRole_of_other (h3 : f.role ≠ 3) (h2 : f.role ≠ 2) (byRecord : Bool) : decideRole byRecord f = f := by
  unfold decideRole
  rw [if_neg h3, if_neg h2]

theorem standbyReports_decided (byRecord : Bool) (f : FieldDie) : Decided f (standbyReports byRecord f) :=
  .ite (.raise f 5) (.ite ((Decided.ite (.refl f) (.raise f 4)).trans (reportDown_decided _)) (.refl f))

theorem decideRole_decided (byRecord : Bool) (f : FieldDie) : Decided f (decideRole byRecord f) := by
  by_cases h3 : f.role = 3
  · rw [decideRole_of_standby h3]
    exact .ite (.setTwn f rfl) ((takeoverDropped_decided f).trans (standbyReports_decided byRecord _))
  · by_cases h2 : f.role = 2
    · rw [decideRole_of_active h2]
      exact .ite (.raise f 7) (.ite (reportDown_decided f) (.refl f))
    · rw [decideRole_of_other h3 h2]
      exact .refl f

theorem cancelHandover_decided (f : FieldDie) : Decided f (cancelHandover f) := .setTwn f rfl

theorem evidenceChanged_decided (byRecord : Bool) (f : FieldDie) : Decided f (evidenceChanged byRecord f) :=
  Decided.trans (.ite (cancelHandover_decided f) (.refl f)) (decideRole_decided byRecord _)

theorem tryReq_decided (f : FieldDie) : Decided f (tryReq f) := by
  unfold tryReq
  refine .ite (.ite (.setTwn f rfl) (.refl f)) (.ite (.refl f) ?_)
  refine Decided.trans ?_ (.post _ _)
  exact .setTwn f rfl

/-- Setting evidence L moves what a decision moves, and sets it. -/
theorem setEvL_decided (l byRecord : Bool) (f : FieldDie) :
    Decided { f with twn := { f.twn with evL := l } } (setEvL l byRecord f) := by
  unfold setEvL
  split
  next same =>
    have own : ({ f with twn := { f.twn with evL := l } } : FieldDie) = f := by rw [← same]
    rw [own]
    exact .refl f
  next => exact evidenceChanged_decided byRecord _

theorem setEvL_twinMoves (l byRecord : Bool) (f : FieldDie) : TwinMoves [F_TWN_EVT] f (setEvL l byRecord f) :=
  (setTwn_twinMoves f _).trans (setEvL_decided l byRecord f).moves

/-! ### STATUS, RELINQUISH and absence (R655, R656) -/

theorem statusSend_clause (s : State) (hr : s.fld.phase = .running) :
    ∃ t, exec .statusSend s = .next t ∧ (inPair s.fld = true → s.fld.twin.canSend = true →
      t.fld.twin.replay.any (fun e => e.2 == statusUnit s.fld) = true) ∧ FieldFrame [] s.fld s t := by
  refine ⟨_, State.onRun_running hr, fun hp hc => ?_, ?_⟩
  · have sent : statusSend s.fld = s.fld.sendTwin (statusUnit s.fld) := if_pos (by rw [hp, hc]; rfl)
    dsimp only
    rw [sent]
    exact (settle_linkSends _).replay _ (sendTwin_replay s.fld _)
  · have moves : SoftMoves [] s.fld (statusSend s.fld) := by
      unfold statusSend
      split
      · exact sendTwin_softMoves _ _
      · exact .refl [] _
    exact moves.frame rfl

/-- The registers of what the partner reports of itself. -/
def peerShown (w : Nat) (f : FieldDie) : FieldDie :=
  (((f.put F_TWN_PEER_role (bitsOf w 15 8)).put F_TWN_PEER_want (bitsOf w 5 4)).put F_TWN_PEER_synced (bitOf w 1)).put F_TWN_PEER_fault (bitOf w 0)

/-- The record of the pair after a STATUS: it has come, a partner that is back is to have a full copy, and a request that it
has freed may be made again. -/
def statusNoted (back freed : Bool) (f : FieldDie) : FieldDie :=
  { f with twn := { f.twn with
    statusAt := some f.now
    resync := f.twn.resync || back
    reqSent := f.twn.reqSent && !(freed && f.twn.boundaryB.isNone) } }

/-- Whether a STATUS tells of a partner back from FAILED. -/
def partnerBack (w : Nat) (f : FieldDie) : Bool := f.role == 2 && f.get F_TWN_PEER_role == 4 && bitsOf w 15 8 == 3

theorem statusReceived_eq (u : FlowUnit) (f : FieldDie) : ∃ freed, statusReceived u f =
    (fun g => tryReq (if g.role = 2 then setEvL false false g else g)) (statusNoted (partnerBack (u.w 0) f) freed (peerShown (u.w 0) f)) :=
  ⟨_, rfl⟩

theorem peerShown_softMoves (w : Nat) (f : FieldDie) : SoftMoves [F_TWN_EVT, F_TWN_PEER] f (peerShown w f) :=
  (((FieldDie.put_softMoves (by decide) f _).trans (FieldDie.put_softMoves (by decide) _ _)).trans
    (FieldDie.put_softMoves (by decide) _ _)).trans (FieldDie.put_softMoves (by decide) _ _)

theorem bitOf_lt (w i : Nat) : bitOf w i < 2 := by
  unfold bitOf
  exact Nat.mod_lt _ (by decide)

theorem peerShown_get (w : Nat) (f : FieldDie) : (peerShown w f).get F_TWN_PEER_role = bitsOf w 15 8 ∧
    (peerShown w f).get F_TWN_PEER_want = bitsOf w 5 4 ∧ (peerShown w f).get F_TWN_PEER_synced = bitOf w 1 ∧
    (peerShown w f).get F_TWN_PEER_fault = bitOf w 0 := by
  unfold peerShown
  refine ⟨?_, ?_, ?_, ?_⟩
  · rw [FieldDie.get_put_field _ F_TWN_PEER_fault F_TWN_PEER_role _ rfl (by decide) (by decide) (by decide),
      FieldDie.get_put_field _ F_TWN_PEER_synced F_TWN_PEER_role _ rfl (by decide) (by decide) (by decide),
      FieldDie.get_put_field _ F_TWN_PEER_want F_TWN_PEER_role _ rfl (by decide) (by decide) (by decide),
      FieldDie.get_put _ _ _ (by decide) (by decide)]
    exact Nat.mod_eq_of_lt (bitsOf_lt _ _ _)
  · rw [FieldDie.get_put_field _ F_TWN_PEER_fault F_TWN_PEER_want _ rfl (by decide) (by decide) (by decide),
      FieldDie.get_put_field _ F_TWN_PEER_synced F_TWN_PEER_want _ rfl (by decide) (by decide) (by decide),
      FieldDie.get_put _ _ _ (by decide) (by decide)]
    exact Nat.mod_eq_of_lt (bitsOf_lt _ _ _)
  · rw [FieldDie.get_put_field _ F_TWN_PEER_fault F_TWN_PEER_synced _ rfl (by decide) (by decide) (by decide),
      FieldDie.get_put _ _ _ (by decide) (by decide)]
    exact Nat.mod_eq_of_lt (bitOf_lt w 1)
  · rw [FieldDie.get_put _ _ _ (by decide) (by decide)]
    exact Nat.mod_eq_of_lt (bitOf_lt w 0)

theorem flag_bit {r : Fld} {w i : Nat} (h : f.get r = bitOf w i) : f.flag r = hasBit w i := by
  unfold FieldDie.flag
  rw [h]
  unfold bitOf hasBit
  obtain e | e : w >>> i % 2 = 0 ∨ w >>> i % 2 = 1 := by omega
  · rw [e]
    rfl
  · rw [e]
    rfl

theorem statusNoted_decides (back freed : Bool) (f : FieldDie) :
    TwinMoves [F_TWN_EVT] f (tryReq (if (statusNoted back freed f).role = 2 then setEvL false false (statusNoted back freed f)
      else statusNoted back freed f)) := by
  refine TwinMoves.trans ?_ (tryReq_decided _).moves
  refine TwinMoves.trans (g := statusNoted back freed f) (setTwn_twinMoves f _) ?_
  split
  · exact setEvL_twinMoves false false _
  · exact .refl _ _

theorem status_clause (s : State) (u : FlowUnit) (hr : s.fld.phase = .running)
    (hu : (takeRole 2 s.fld).map (fun x => x.1) = some u) :
    ∃ t, exec .status s = .next t ∧ t.fld.get F_TWN_PEER_role = bitsOf (u.w 0) 15 8 ∧
      t.fld.get F_TWN_PEER_want = bitsOf (u.w 0) 5 4 ∧ t.fld.flag F_TWN_PEER_synced = hasBit (u.w 0) 1 ∧
      t.fld.flag F_TWN_PEER_fault = hasBit (u.w 0) 0 ∧ t.fld.twn.statusAt = some s.fld.now ∧
      (s.fld.role = 2 → t.fld.twn.evL = false) ∧
      (s.fld.role = 2 → s.fld.get F_TWN_PEER_role = 4 → bitsOf (u.w 0) 15 8 = 3 → t.fld.twn.resync = true) ∧
      FieldFrame [F_TWN_EVT, F_TWN_PEER] { s.fld with twn := t.fld.twn } s t := by
  have step := State.onRun_running (g := onRole 2 statusReceived) hr
  rw [onRole_of_take hu] at step
  obtain ⟨freed, received⟩ := statusReceived_eq u (taken u s.fld)
  rw [received] at step
  have shown := peerShown_get (u.w 0) (taken u s.fld)
  have first : SoftMoves [F_TWN_EVT, F_TWN_PEER] s.fld (peerShown (u.w 0) (taken u s.fld)) :=
    (taken_softMoves u s.fld).trans (peerShown_softMoves _ _)
  have back : partnerBack (u.w 0) (taken u s.fld) = partnerBack (u.w 0) s.fld := rfl
  rw [back] at step
  generalize peerShown (u.w 0) (taken u s.fld) = p at step shown first
  have role : p.role = s.fld.role := first.get_eq (r := F_TWN_STAT_role) (by decide) (by decide)
  have now : p.now = s.fld.now := congrArg (fun x : TimeX => x.c) (tim_of_rest first.rest)
  have then_ := statusNoted_decides (partnerBack (u.w 0) s.fld) freed p
  have noted : (statusNoted (partnerBack (u.w 0) s.fld) freed p).role = p.role := rfl
  dsimp only at step
  rw [noted] at step then_
  have kept : ∀ r : Fld, r.addr = F_TWN_PEER → ∀ g, TwinMoves [F_TWN_EVT] p g → (settle g).get r = p.get r := by
    intro r hr' g m
    rw [settle_get_of_notMem (by rw [hr']; decide)]
    exact m.get_eq (by rw [hr']; decide) (by rw [hr']; decide)
  have strip : ∀ x : FieldDie, x = (if p.role = 2 then setEvL false false (statusNoted (partnerBack (u.w 0) s.fld) freed p)
      else statusNoted (partnerBack (u.w 0) s.fld) freed p) → x.twn.statusAt = some p.now ∧ (p.role = 2 → x.twn.evL = false) ∧
      x.twn.resync = (p.twn.resync || partnerBack (u.w 0) s.fld) := by
    rintro x rfl
    split
    next => 
      have d := setEvL_decided false false (statusNoted (partnerBack (u.w 0) s.fld) freed p)
      exact ⟨d.statusAt.trans rfl, fun _ => d.evL.trans rfl, d.resync.trans rfl⟩
    next h => exact ⟨rfl, fun h' => absurd h' h, rfl⟩
  obtain ⟨at_, evL, resync⟩ := strip _ rfl
  generalize (if p.role = 2 then setEvL false false (statusNoted (partnerBack (u.w 0) s.fld) freed p)
      else statusNoted (partnerBack (u.w 0) s.fld) freed p) = q at step then_ at_ evL resync
  have tried := tryReq_decided q
  obtain ⟨peerRole, want, synced, fault⟩ := shown
  refine ⟨_, step, ?_, ?_, ?_, ?_, ?_, fun h2 => ?_, fun h2 h4 h3 => ?_, ?_⟩
  all_goals dsimp only
  · rw [kept _ rfl _ then_, peerRole]
  · rw [kept _ rfl _ then_, want]
  · exact flag_bit ((kept _ rfl _ then_).trans synced)
  · exact flag_bit ((kept _ rfl _ then_).trans fault)
  · rw [settle_twn, tried.statusAt, at_, now]
  · rw [settle_twn, tried.evL, evL (role.trans h2)]
  · have came : partnerBack (u.w 0) s.fld = true := by
      unfold partnerBack
      rw [h2, h4, h3]
      rfl
    rw [settle_twn, tried.resync, resync, came, Bool.or_true]
  · exact TwinMoves.frame (first.twinMoves.trans (then_.mono (by decide)))

theorem evidence_active (hr : f.role = 2) (byRecord : Bool) (hP : evP f = false) (hL : f.twn.evL = true) (hph : f.twin.phase ≠ 3) :
    (evidenceChanged byRecord f).sq F_TWN_EVT 6 = true := by
  have decide_ : ∀ g : FieldDie, g.role = 2 → evP g = false → g.twn.evL = true → g.twin.phase ≠ 3 →
      (decideRole byRecord g).sq F_TWN_EVT 6 = true := by
    intro g h2 hP hL hph
    rw [decideRole_of_active h2, if_neg (by rw [hP]; exact Bool.false_ne_true), if_pos hL]
    unfold reportDown
    rw [if_neg hph]
    exact FieldDie.raise_sq _ _ _ (by decide) (by decide)
  unfold evidenceChanged
  dsimp only
  split
  · exact decide_ (cancelHandover f) hr hP hL hph
  · exact decide_ f hr hP hL hph

theorem absence_clause (s : State) (hr : s.fld.phase = .running) (h2 : s.fld.role = 2)
    (hgone : ∀ b ∈ s.fld.twn.statusAt, b + 3 * msTicks ≤ s.fld.now) :
    ∃ t, exec .statusAbsence s = .next t ∧ t.fld.twn.evL = true ∧
      (s.fld.twn.evL = false → evP s.fld = false → s.fld.twin.phase ≠ 3 → t.fld.sq F_TWN_EVT 6 = true) ∧
      FieldFrame [F_TWN_EVT] { s.fld with twn := t.fld.twn } s t := by
  have absent : statusAbsence s.fld = setEvL true false s.fld := by
    unfold statusAbsence
    dsimp only
    refine if_pos ⟨h2, ?_⟩
    cases hb : s.fld.twn.statusAt with
    | none => rfl
    | some b => exact decide_eq_true (hgone b hb)
  have step := State.onRun_running (g := statusAbsence) hr
  rw [absent] at step
  refine ⟨_, step, ?_, fun hL hP hph => ?_, TwinMoves.frame (setEvL_twinMoves true false s.fld)⟩
  · dsimp only
    rw [settle_twn, (setEvL_decided true false s.fld).evL]
  · dsimp only
    have changed : setEvL true false s.fld = evidenceChanged false { s.fld with twn := { s.fld.twn with evL := true } } :=
      if_neg (by rw [hL]; exact Bool.false_ne_true)
    rw [settle_sq_of_notMem (by decide), changed]
    exact evidence_active (f := { s.fld with twn := { s.fld.twn with evL := true } }) h2 false hP rfl hph

theorem relinquish_clause (s : State) (u : FlowUnit) (hr : s.fld.phase = .running)
    (hu : (takeRole 3 s.fld).map (fun x => x.1) = some u) :
    ∃ t, exec .relinquish s = .next t ∧ t.fld.twin.inbox = s.fld.twin.inbox.erase u ∧
      (s.fld.role = 3 → t.fld.twn.evL = true) ∧ FieldFrame [F_TWN_EVT] { s.fld with twn := t.fld.twn } s t := by
  have step := State.onRun_running (g := onRole 3 (fun _ f => if f.role = 3 then setEvL true false f else f)) hr
  rw [onRole_of_take hu] at step
  have role : (taken u s.fld).role = s.fld.role := rfl
  have inbox : (taken u s.fld).twin.inbox = s.fld.twin.inbox.erase u := rfl
  have first : TwinMoves [F_TWN_EVT] s.fld (taken u s.fld) := (taken_softMoves u s.fld).twinMoves
  generalize taken u s.fld = g at step role inbox first
  have d := setEvL_decided true false g
  have moves : TwinMoves [F_TWN_EVT] g (if g.role = 3 then setEvL true false g else g) := by
    split
    · exact setEvL_twinMoves true false g
    · exact .refl _ g
  have link : LinkSends g.twin (if g.role = 3 then setEvL true false g else g).twin := by
    split
    · exact d.link
    · exact .refl _
  refine ⟨_, step, ?_, fun h3 => ?_, TwinMoves.frame (first.trans moves)⟩
  · dsimp only
    rw [(settle_linkSends _).inbox, link.inbox, inbox]
  · dsimp only
    rw [settle_twn, if_pos (role.trans h3), d.evL]

end Sys2Proof.Machine
end


section
/-! The twin pair's formation and requests (O55; R640, R641, R659, R662, R663). -/

namespace Sys2Proof.Machine

variable {but : List Nat} {f g h : FieldDie} {s : State} {u : FlowUnit} {a req data : Nat}

/-! ### HELLO (R640, R641, R663) -/

/-- The die that has heard of its partner. -/
def helloSeen (f : FieldDie) : FieldDie := f.put F_TWN_STAT_peer_seen 1

/-- The die that has run the checks of formation. -/
def helloChecked (u : FlowUnit) (f : FieldDie) : FieldDie := (helloSeen f).put F_TWN_STAT_form_code (formCheck f u)

theorem helloSeen_rd (h : a ≠ F_TWN_STAT) (f : FieldDie) : (helloSeen f).rd a = f.rd a :=
  FieldDie.rd_put_ne f F_TWN_STAT_peer_seen _ _ h

theorem helloSeen_get {r : Fld} (hd : 26 < r.lo ∨ r.hi < 26) (f : FieldDie) : (helloSeen f).get r = f.get r := by
  by_cases ha : r.addr = F_TWN_STAT
  · exact FieldDie.get_put_field f F_TWN_STAT_peer_seen r 1 ha (by decide) (by decide) hd
  · exact FieldDie.get_eq r (helloSeen_rd ha f)

/-- The checks of formation read nothing that they write. -/
theorem formCheck_eq (hr : ∀ a, a ≠ F_TWN_STAT → g.rd a = f.rd a)
    (hd : g.get F_TWN_STAT_designation = f.get F_TWN_STAT_designation) (u : FlowUnit) : formCheck g u = formCheck f u := by
  have order := FieldDie.get_eq F_GLB_ID_order (hr F_GLB_ID (by decide))
  have word : ∀ a, a ≠ F_TWN_STAT → g.rdN a = f.rdN a := fun a ha => congrArg BitVec.toNat (hr a ha)
  have name : ∀ i, g.rdN (F_KEY_NAME i) = f.rdN (F_KEY_NAME i) ∨ ¬ i < 8 := by
    intro i
    by_cases hi : i < 8
    · refine .inl (word _ ?_)
      unfold F_KEY_NAME F_TWN_STAT
      omega
    · exact .inr hi
  have names : (List.range 8).any (fun i => u.w (3 + i) != g.rdN (F_KEY_NAME i)) =
      (List.range 8).any (fun i => u.w (3 + i) != f.rdN (F_KEY_NAME i)) := by
    refine Bool.eq_iff_iff.2 ?_
    simp only [List.any_eq_true, List.mem_range]
    refine exists_congr fun i => and_congr_right fun hi => ?_
    rw [(name i).resolve_right (by simpa using hi)]
  have proof : proofWord g = proofWord f := by
    unfold proofWord FieldDie.flag
    rw [FieldDie.get_eq F_CFG_PROOF_STAT_committed (hr F_CFG_PROOF_STAT (by decide)),
      FieldDie.get_eq F_CFG_PROOF_STAT_stale (hr F_CFG_PROOF_STAT (by decide)), word F_CFG_PROOF (by decide)]
  unfold formCheck
  rw [order, word F_GLB_BASE_MAC_LO (by decide), word F_GLB_BASE_MAC_HI (by decide), names, hd, proof]

theorem formCheck_lt (f : FieldDie) (u : FlowUnit) : formCheck f u < 2 ^ 4 := by
  unfold formCheck
  split_ifs <;> decide

theorem helloReceived_eq (u : FlowUnit) (f : FieldDie) : helloReceived u f =
    if f.role = 2 ∧ bitsOf (u.w 0) 15 8 = 2 then
      if f.flag F_TWN_STAT_designation then { helloSeen f with twn := { f.twn with confAt := true } }.raise F_TWN_EVT 10
      else { helloSeen f with twn := { f.twn with resync := true } }
    else if f.role = 1 ∨ (f.role = 2 ∧ bitsOf (u.w 0) 15 8 = 1) then
      if formCheck f u ≠ 0 then (helloChecked u f).raise F_TWN_EVT 1
      else if f.role = 2 ∨ (bitsOf (u.w 0) 15 8 ≠ 2 ∧ f.flag F_TWN_STAT_designation = false) then grantAt true 0 (helloChecked u f)
      else helloChecked u f
    else helloSeen f := by
  have role : (helloSeen f).role = f.role := helloSeen_get (r := F_TWN_STAT_role) (by decide) f
  have des := helloSeen_get (r := F_TWN_STAT_designation) (by decide) f
  have check : formCheck (helloSeen f) u = formCheck f u := formCheck_eq (fun a ha => helloSeen_rd ha f) des u
  have roleC : (helloChecked u f).role = f.role :=
    (FieldDie.get_put_field (helloSeen f) F_TWN_STAT_form_code F_TWN_STAT_role _ rfl (by decide) (by decide) (by decide)).trans role
  have desC : (helloChecked u f).flag F_TWN_STAT_designation = f.flag F_TWN_STAT_designation := by
    unfold FieldDie.flag
    rw [← des]
    exact congrArg (fun v : Nat => v != 0)
      (FieldDie.get_put_field (helloSeen f) F_TWN_STAT_form_code F_TWN_STAT_designation _ rfl (by decide) (by decide) (by decide))
  have desS : (helloSeen f).flag F_TWN_STAT_designation = f.flag F_TWN_STAT_designation := congrArg (fun v : Nat => v != 0) des
  have checked : (helloSeen f).put F_TWN_STAT_form_code (formCheck f u) = helloChecked u f := rfl
  have seen : f.put F_TWN_STAT_peer_seen 1 = helloSeen f := rfl
  have twn : (helloSeen f).twn = f.twn := FieldDie.put_twn _ _ _
  unfold helloReceived
  dsimp only
  rw [seen, role, desS, check, checked, roleC, desC, twn]

/-- What hearing of the partner moves: the pair's status and events. -/
structure HelloHeard (f g : FieldDie) : Prop where
  moves : TwinMoves [F_TWN_EVT, F_TWN_STAT] f g
  link : LinkSends f.twin g.twin
  seen : g.get F_TWN_STAT_peer_seen = 1

theorem Decided.heard {x : FieldDie} (d : Decided g h) (hg : HelloHeard f g) (hx : x = h) : HelloHeard f x := by
  rw [hx]
  exact ⟨hg.moves.trans (d.moves.mono (by decide)), hg.link.trans d.link,
    (d.moves.get_eq (r := F_TWN_STAT_peer_seen) (by decide) (by decide)).trans hg.seen⟩

theorem HelloHeard.setTwn (hg : HelloHeard f g) (x : TwnX) : HelloHeard f { g with twn := x } :=
  ⟨hg.moves.trans (setTwn_twinMoves g x), hg.link, hg.seen⟩

theorem HelloHeard.raise (hg : HelloHeard f g) (bit : Nat) : HelloHeard f (g.raise F_TWN_EVT bit) := (Decided.raise g bit).heard hg rfl

theorem helloSeen_heard (f : FieldDie) : HelloHeard f (helloSeen f) := by
  unfold helloSeen
  refine ⟨(FieldDie.put_softMoves (by decide) f _).twinMoves, .ofEq (f.put_twin _ _), ?_⟩
  rw [FieldDie.get_put f F_TWN_STAT_peer_seen 1 (by decide) (by decide)]
  rfl

theorem helloChecked_heard (u : FlowUnit) (f : FieldDie) : HelloHeard f (helloChecked u f) := by
  have s := helloSeen_heard f
  unfold helloChecked
  generalize helloSeen f = g at s
  refine ⟨s.moves.trans (FieldDie.put_softMoves (by decide) g _).twinMoves, s.link.trans (.ofEq (g.put_twin _ _)), ?_⟩
  rw [FieldDie.get_put_field g F_TWN_STAT_form_code F_TWN_STAT_peer_seen _ rfl (by decide) (by decide) (by decide), s.seen]

/-- The boundary for which the roles are granted. -/
def granted (active : Bool) (cause : Nat) (f : FieldDie) : FieldDie :=
  { f with twn := { f.twn with boundaryB := some (boundaryAfter f 2), toActive := active, cause := cause } }

theorem grantAt_eq (active : Bool) (cause : Nat) (f : FieldDie) :
    grantAt active cause f = postTwin (roleUnit 5 (timeWords (boundaryAfter f 2))) (granted active cause f) := rfl

theorem grantAt_decided (active : Bool) (cause : Nat) (f : FieldDie) : Decided f (grantAt active cause f) := by
  rw [grantAt_eq]
  refine Decided.trans ?_ (.post _ _)
  exact .setTwn f rfl

/-- A grant names the second boundary to come, to this part and to the other. -/
theorem grantAt_names (active : Bool) (cause : Nat) (f : FieldDie) : (grantAt active cause f).twn =
    { f.twn with boundaryB := some (boundaryAfter f 2), toActive := active, cause := cause } ∧
      (grantAt active cause f).twin.holds (roleUnit 5 (timeWords (boundaryAfter f 2))) = true := by
  rw [grantAt_eq]
  exact ⟨postTwin_twn _ _, postTwin_holds _ _⟩

theorem helloReceived_heard (u : FlowUnit) (f : FieldDie) : HelloHeard f (helloReceived u f) := by
  rw [helloReceived_eq]
  have seen := helloSeen_heard f
  have checked := helloChecked_heard u f
  split
  · split
    · exact (seen.setTwn _).raise 10
    · exact seen.setTwn _
  · split
    · split
      · exact checked.raise 1
      · split
        · exact (grantAt_decided true 0 _).heard checked rfl
        · exact checked
    · exact seen

theorem helloChecked_code (u : FlowUnit) (f : FieldDie) : (helloChecked u f).get F_TWN_STAT_form_code = formCheck f u :=
  (FieldDie.get_put (helloSeen f) F_TWN_STAT_form_code _ (by decide) (by decide)).trans (Nat.mod_eq_of_lt (formCheck_lt f u))

/-- The code of the checks that were run is shown. -/
theorem helloReceived_code (h : f.role = 1 ∨ (f.role = 2 ∧ bitsOf (u.w 0) 15 8 = 1)) :
    (helloReceived u f).get F_TWN_STAT_form_code = formCheck f u := by
  have code := helloChecked_code u f
  rw [helloReceived_eq, if_neg (by omega), if_pos h]
  split
  · rw [FieldDie.get_raise_ne (r := F_TWN_STAT_form_code) _ (by decide) (by decide), code]
  · split
    · rw [(grantAt_decided true 0 _).moves.get_eq (r := F_TWN_STAT_form_code) (by decide) (by decide), code]
    · exact code

theorem helloChecked_cycle (u : FlowUnit) (f : FieldDie) : CycleSame f (helloChecked u f) :=
  (helloChecked_heard u f).moves.cycleSame (by unfold twinReg; decide)

theorem hello_clause (s : State) (u : FlowUnit) (hr : s.fld.phase = .running)
    (hu : (takeRole 1 s.fld).map (fun x => x.1) = some u) :
    ∃ t, exec .hello s = .next t ∧ t.fld.flag F_TWN_STAT_peer_seen = true ∧ t.fld.twin.inbox = s.fld.twin.inbox.erase u ∧
      (s.fld.role = 1 → t.fld.get F_TWN_STAT_form_code = formCheck s.fld u ∧
        (formCheck s.fld u ≠ 0 → t.fld.sq F_TWN_EVT 1 = true ∧ t.fld.twn = s.fld.twn) ∧
        (formCheck s.fld u = 0 → bitsOf (u.w 0) 15 8 ≠ 2 → s.fld.flag F_TWN_STAT_designation = false →
          t.fld.twn.boundaryB = some (boundaryAfter s.fld 2) ∧ t.fld.twn.toActive = true ∧
          t.fld.twin.holds (roleUnit 5 (timeWords (boundaryAfter s.fld 2))) = true)) ∧
      (s.fld.role = 2 → bitsOf (u.w 0) 15 8 = 1 → t.fld.get F_TWN_STAT_form_code = formCheck s.fld u) ∧
      (s.fld.role = 2 → bitsOf (u.w 0) 15 8 = 2 → s.fld.flag F_TWN_STAT_designation = true →
        t.fld.twn.confAt = true ∧ t.fld.sq F_TWN_EVT 10 = true) ∧
      (s.fld.role = 2 → bitsOf (u.w 0) 15 8 = 2 → s.fld.flag F_TWN_STAT_designation = false → t.fld.twn.resync = true) ∧
      FieldFrame [F_TWN_EVT, F_TWN_STAT] { s.fld with twn := t.fld.twn } s t := by
  have step := State.onRun_running (g := onRole 1 helloReceived) hr
  rw [onRole_of_take hu] at step
  have heard := helloReceived_heard u (taken u s.fld)
  have equation := helloReceived_eq u (taken u s.fld)
  have code := fun hc => helloReceived_code (f := taken u s.fld) (u := u) hc
  have checkedTwn : (helloChecked u (taken u s.fld)).twn = s.fld.twn := (FieldDie.put_twn _ _ _).trans (FieldDie.put_twn _ _ _)
  have cycle := (helloChecked_cycle u (taken u s.fld)).after 2
  have after : boundaryAfter (taken u s.fld) 2 = boundaryAfter s.fld 2 := rfl
  have check : formCheck (taken u s.fld) u = formCheck s.fld u := rfl
  have role : (taken u s.fld).role = s.fld.role := rfl
  have des : (taken u s.fld).flag F_TWN_STAT_designation = s.fld.flag F_TWN_STAT_designation := rfl
  have inbox : (taken u s.fld).twin.inbox = s.fld.twin.inbox.erase u := rfl
  have first : TwinMoves [F_TWN_EVT, F_TWN_STAT] s.fld (taken u s.fld) := (taken_softMoves u s.fld).twinMoves
  rw [check, role, des] at equation
  rw [role, check] at code
  rw [after] at cycle
  generalize helloChecked u (taken u s.fld) = c at equation checkedTwn cycle
  generalize helloReceived u (taken u s.fld) = g at step heard equation code
  have form : (s.fld.role = 1 ∨ (s.fld.role = 2 ∧ bitsOf (u.w 0) 15 8 = 1)) →
      (settle g).get F_TWN_STAT_form_code = formCheck s.fld u := fun hc =>
    (settle_get_of_notMem (by decide)).trans (code hc)
  refine ⟨_, step, ?_, ?_, fun h1 => ⟨form (.inl h1), fun hbad => ?_, fun hok hp hd => ?_⟩, fun h2 hp => form (.inr ⟨h2, hp⟩),
    fun h2 hp hd => ?_, fun h2 hp hd => ?_, TwinMoves.frame (first.trans heard.moves)⟩
  all_goals dsimp only
  · unfold FieldDie.flag
    rw [settle_get_of_notMem (by decide), heard.seen]
    rfl
  · rw [(settle_linkSends _).inbox, heard.link.inbox, inbox]
  · rw [if_neg (by omega), if_pos (.inl h1), if_pos hbad] at equation
    rw [settle_sq_of_notMem (by decide), settle_twn, equation, raise_twn]
    exact ⟨FieldDie.raise_sq _ _ _ (by decide) (by decide), checkedTwn⟩
  · rw [if_neg (by omega), if_pos (.inl h1), if_neg (by simp [hok]), if_pos (.inr ⟨hp, hd⟩)] at equation
    obtain ⟨twn, holds⟩ := grantAt_names true 0 c
    rw [← equation, cycle] at twn holds
    rw [settle_twn, twn]
    exact ⟨rfl, rfl, (settle_linkSends g).holds _ holds⟩
  · rw [if_pos ⟨h2, hp⟩, if_pos hd] at equation
    rw [settle_sq_of_notMem (by decide), settle_twn, equation, raise_twn]
    exact ⟨rfl, FieldDie.raise_sq _ _ _ (by decide) (by decide)⟩
  · rw [if_pos ⟨h2, hp⟩, if_neg (by rw [hd]; exact Bool.false_ne_true)] at equation
    rw [settle_twn, equation]

end Sys2Proof.Machine
end


section
/-! Grants, requests, the hold-off and TWIN_FAULT_IN (O55; R633, R641, R655, R659, R661, R662). -/

namespace Sys2Proof.Machine

variable {but : List Nat} {f g h : FieldDie} {s : State} {u : FlowUnit} {a req data : Nat}

/-! ### GRANT and REQ -/

theorem grantReceived_moves (u : FlowUnit) (f : FieldDie) : TwinMoves [] f (grantReceived u f) ∧ (grantReceived u f).twin = f.twin := by
  unfold grantReceived
  dsimp only
  split
  · exact ⟨setTwn_twinMoves f _, rfl⟩
  · split
    · exact ⟨setTwn_twinMoves f _, rfl⟩
    · exact ⟨.refl _ f, rfl⟩

theorem grant_clause (s : State) (u : FlowUnit) (hr : s.fld.phase = .running)
    (hu : (takeRole 5 s.fld).map (fun x => x.1) = some u) :
    ∃ t, exec .grant s = .next t ∧ t.fld.twin.inbox = s.fld.twin.inbox.erase u ∧
      (s.fld.role = 1 → s.fld.flag F_TWN_STAT_peer_seen = true → s.fld.get F_TWN_STAT_form_code = 0 →
        t.fld.twn.boundaryB = some (wordsTime u 0) ∧ t.fld.twn.toActive = false ∧ t.fld.twn.cause = 0) ∧
      (s.fld.role = 3 → s.fld.twn.reqSent = true → s.fld.twn.boundaryB = none →
        t.fld.twn.boundaryB = some (wordsTime u 0) ∧ t.fld.twn.toActive = true) ∧
      (s.fld.role ≠ 1 → s.fld.role ≠ 3 → t.fld.twn = s.fld.twn) ∧ FieldFrame [] { s.fld with twn := t.fld.twn } s t := by
  have step := State.onRun_running (g := onRole 5 grantReceived) hr
  rw [onRole_of_take hu] at step
  obtain ⟨moves, twin⟩ := grantReceived_moves u (taken u s.fld)
  have first : TwinMoves [] s.fld (taken u s.fld) := (taken_softMoves u s.fld).twinMoves
  refine ⟨_, step, ?_, fun h1 hs hc => ?_, fun h3 hq hb => ?_, fun h1 h3 => ?_, TwinMoves.frame (first.trans moves)⟩
  all_goals dsimp only
  · rw [(settle_linkSends _).inbox, twin]
    rfl
  · have named : grantReceived u (taken u s.fld) = _ := if_pos ⟨h1, hs, hc⟩
    rw [settle_twn, named]
    exact ⟨rfl, rfl, rfl⟩
  · have named : grantReceived u (taken u s.fld) = _ :=
      (if_neg fun c => absurd (show s.fld.role = 1 from c.1) (by omega)).trans (if_pos ⟨h3, hq, hb⟩)
    rw [settle_twn, named]
    exact ⟨rfl, rfl⟩
  · have unmoved : grantReceived u (taken u s.fld) = taken u s.fld :=
      (if_neg fun c => absurd c.1 h1).trans (if_neg fun c => absurd c.1 h3)
    rw [settle_twn, unmoved]
    rfl

theorem reqReceived_decided (u : FlowUnit) (f : FieldDie) : Decided f (reqReceived u f) :=
  .ite (.refl f) (.ite (.raise f 15) (grantAt_decided false (u.w 0) f))

theorem req_clause (s : State) (u : FlowUnit) (hr : s.fld.phase = .running)
    (hu : (takeRole 4 s.fld).map (fun x => x.1) = some u) :
    ∃ t, exec .req s = .next t ∧
      (s.fld.role = 2 → s.fld.get F_TWN_CTRL_want = 1 → t.fld.sq F_TWN_EVT 15 = true ∧ t.fld.twn = s.fld.twn) ∧
      (s.fld.role = 2 → s.fld.get F_TWN_CTRL_want ≠ 1 → t.fld.twn.boundaryB = some (boundaryAfter s.fld 2) ∧
        t.fld.twn.toActive = false ∧ t.fld.twn.cause = u.w 0 ∧
        t.fld.twin.holds (roleUnit 5 (timeWords (boundaryAfter s.fld 2))) = true) ∧
      (s.fld.role ≠ 2 → t.fld.twn = s.fld.twn) ∧ FieldFrame [F_TWN_EVT] { s.fld with twn := t.fld.twn } s t := by
  have step := State.onRun_running (g := onRole 4 reqReceived) hr
  rw [onRole_of_take hu] at step
  have moves := (reqReceived_decided u (taken u s.fld)).moves
  have first : TwinMoves [F_TWN_EVT] s.fld (taken u s.fld) := (taken_softMoves u s.fld).twinMoves
  have role : (taken u s.fld).role = s.fld.role := rfl
  have want : (taken u s.fld).get F_TWN_CTRL_want = s.fld.get F_TWN_CTRL_want := rfl
  have after : boundaryAfter (taken u s.fld) 2 = boundaryAfter s.fld 2 := rfl
  have twn : (taken u s.fld).twn = s.fld.twn := rfl
  refine ⟨_, step, fun h2 hw => ?_, fun h2 hw => ?_, fun h2 => ?_, TwinMoves.frame (first.trans moves)⟩
  all_goals generalize taken u s.fld = g at role want after twn
  all_goals dsimp only
  · have refused : reqReceived u g = g.raise F_TWN_EVT 15 := (if_neg (by omega)).trans (if_pos (want.trans hw))
    rw [settle_sq_of_notMem (by decide), settle_twn, refused, raise_twn, twn]
    exact ⟨FieldDie.raise_sq _ _ _ (by decide) (by decide), rfl⟩
  · have granted : reqReceived u g = grantAt false (u.w 0) g := (if_neg (by omega)).trans (if_neg (by rw [want]; exact hw))
    obtain ⟨names, holds⟩ := grantAt_names false (u.w 0) g
    rw [after] at names holds
    rw [settle_twn, granted, names]
    exact ⟨rfl, rfl, rfl, (settle_linkSends _).holds _ holds⟩
  · have unmoved : reqReceived u g = g := if_pos (by omega)
    rw [settle_twn, unmoved, twn]

/-! ### Requests and the hold-off (R659, R662) -/

/-- The die that has made its request for cause `c`. -/
def requested (c : Nat) (f : FieldDie) : FieldDie := { f with twn := { f.twn with reqSent := true, cause := c } }

theorem tryReq_of_wants (hw : wantsActive f ≠ 0) (hq : f.twn.reqSent = false) (hB : f.twn.boundaryB = none) (hph : f.twin.phase = 3) :
    tryReq f = postTwin (roleUnit 4 [wantsActive f]) (requested (wantsActive f) f) := by
  unfold tryReq
  dsimp only
  rw [if_neg hw, if_neg (by simp [hq, hB, hph])]
  rfl

theorem holdoff_clause (s : State) (hr : s.fld.phase = .running) (hw : wantsActive s.fld ≠ 0) (hq : s.fld.twn.reqSent = false)
    (hB : s.fld.twn.boundaryB = none) (hph : s.fld.twin.phase = 3) :
    ∃ t, exec .holdoffElapsed s = .next t ∧ t.fld.twn.reqSent = true ∧ t.fld.twn.cause = wantsActive s.fld ∧
      t.fld.twin.holds (roleUnit 4 [wantsActive s.fld]) = true ∧
      FieldFrame [] { s.fld with twn := { s.fld.twn with reqSent := true, cause := wantsActive s.fld } } s t := by
  have step := State.onRun_running (g := tryReq) hr
  rw [tryReq_of_wants hw hq hB hph] at step
  refine ⟨_, step, ?_, ?_, (settle_linkSends _).holds _ (postTwin_holds _ _), ?_⟩
  · dsimp only
    rw [settle_twn, postTwin_twn]
    rfl
  · dsimp only
    rw [settle_twn, postTwin_twn]
    rfl
  · exact (postTwin_softMoves _ (requested (wantsActive s.fld) s.fld)).frame rfl

theorem holdoffReset_clause (s : State) (hr : s.fld.phase = .running) :
    ∃ t, exec .holdoffReset s = .next t ∧ (recentReversions s.fld = [] →
        t.fld.get F_TWN_HOLD_cur_s = s.fld.get F_TWN_REVERT_holdoff_s ∧ t.fld.twn.reversions = [] ∧
        FieldFrame [F_TWN_HOLD] { s.fld with twn := { s.fld.twn with reversions := [] } } s t) ∧
      (recentReversions s.fld ≠ [] → FieldFrame [] s.fld s t) := by
  refine ⟨_, State.onRun_running hr, fun h => ?_, fun h => ?_⟩
  · have reset : holdoffReset s.fld = { s.fld with twn := { s.fld.twn with reversions := [] } }.put F_TWN_HOLD_cur_s
        (s.fld.get F_TWN_REVERT_holdoff_s) := if_pos h
    dsimp only
    rw [reset]
    generalize hg : ({ s.fld with twn := { s.fld.twn with reversions := [] } } : FieldDie) = g
    have twn : g.twn.reversions = [] := by rw [← hg]
    have reg : g.reg = s.fld.reg := by rw [← hg]
    refine ⟨?_, ?_, (FieldDie.put_softMoves (by decide) g _).frame reg⟩
    · rw [settle_get_of_notMem (by decide), FieldDie.get_put _ _ _ (by decide) (by decide)]
      exact Nat.mod_eq_of_lt (bitsOf_lt _ _ _)
    · rw [settle_twn, FieldDie.put_twn, twn]
  · have stays : holdoffReset s.fld = s.fld := if_neg h
    rw [stays]
    exact (SoftMoves.refl [] s.fld).frame rfl

/-! ### TWIN_FAULT_IN (R62, R633, R655) -/

/-- The die whose pin TWIN_FAULT_IN has been at `on`. -/
def pinSeen (on : Bool) (f : FieldDie) : FieldDie := { f with pin := { f.pin with twinIn := on } }

/-- What a level that is recognised does. -/
def pinTaken (on : Bool) (f : FieldDie) : FieldDie :=
  if (f.powered || f.phase == .released) = false ∨ evP f = on then pinSeen on f
  else evidenceChanged false ((pinSeen on f).put F_TWN_STAT_pin_in (if on then 1 else 0))

theorem twinFaultIn_long {ns : Nat} (h : 400 ≤ ns) (on : Bool) (f : FieldDie) : twinFaultIn on ns f = pinTaken on f := by
  unfold twinFaultIn
  rw [if_pos h]
  rfl

theorem twinFaultIn_short {ns : Nat} (h : ns ≤ 200) (on : Bool) (f : FieldDie) : twinFaultIn on ns f = f := by
  unfold twinFaultIn
  rw [if_neg (by omega), if_pos h]
  rfl

theorem twinFaultIn_open {ns : Nat} (h : 200 < ns) (h' : ns < 400) (on : Bool) (f : FieldDie) :
    twinFaultIn on ns f = f.free.2 ∨ twinFaultIn on ns f = pinTaken on f.free.2 := by
  unfold twinFaultIn
  rw [if_neg (by omega), if_neg (by omega)]
  dsimp only
  cases hasBit f.free.1 0 with
  | false => exact .inl rfl
  | true => exact .inr rfl

theorem exec_twinFaultIn (on : Bool) (ns : Nat) (h : s.fld.pwr.vddSl = true) :
    exec (.twinFaultInChange on ns) s = .next { s with fld := settle (twinFaultIn on ns s.fld) } := by
  have taken : (if s.fld.pwr.vddSl then twinFaultIn on ns s.fld else s.fld) = twinFaultIn on ns s.fld := if_pos h
  rw [← taken]
  rfl

theorem SoftMoves.withPin (m : SoftMoves but f g) (x : PinX) : SoftMoves but { f with pin := x } { g with pin := x } where
  rest := congrArg (fun r : FieldDie => { r with pin := x }) m.rest
  send := ⟨m.send.buf, m.send.out, m.send.cnt⟩
  regs := m.regs

/-- What a recognised level leaves on a powered die. -/
structure PinFollowed (on : Bool) (f g : FieldDie) : Prop where
  pin : g.pin = { f.pin with twinIn := on }
  moves : TwinMoves [F_TWN_EVT, F_TWN_STAT] (pinSeen on f) g
  shown : g.flag F_TWN_STAT_pin_in = on

/-- A change of the pin's level is shown and then acted on. -/
theorem pinTaken_changed (hp : f.powered = true) {on : Bool} (h : evP f ≠ on) :
    pinTaken on f = evidenceChanged false ((pinSeen on f).put F_TWN_STAT_pin_in (if on then 1 else 0)) :=
  if_neg (by simp [hp, h])

theorem pinShown (on : Bool) (f : FieldDie) : evP ((pinSeen on f).put F_TWN_STAT_pin_in (if on then 1 else 0)) = on := by
  have get := FieldDie.get_put (pinSeen on f) F_TWN_STAT_pin_in (if on then 1 else 0) (by decide) (by decide)
  unfold evP FieldDie.flag
  rw [get]
  cases on with
  | true => rfl
  | false => rfl

theorem evP_pinSeen (on : Bool) (f : FieldDie) : evP (pinSeen on f) = evP f := by
  unfold pinSeen
  rfl

theorem pinSeen_followed {on : Bool} (h : evP f = on) : PinFollowed on f (pinSeen on f) where
  pin := rfl
  moves := .refl _ _
  shown := (evP_pinSeen on f).trans h

theorem TwinMoves.pin {but : List Nat} (m : TwinMoves but f g) : g.pin = f.pin := by
  have pin := congrArg FieldDie.pin m.rest
  exact pin

theorem pinTaken_same {on : Bool} (h : evP f = on) : pinTaken on f = pinSeen on f := by
  unfold pinTaken
  rw [if_pos (.inr h)]

/-- The level put into its field, before it is acted on. -/
structure PinPut (on : Bool) (f g : FieldDie) : Prop where
  pin : g.pin = { f.pin with twinIn := on }
  moves : TwinMoves [F_TWN_EVT, F_TWN_STAT] (pinSeen on f) g
  shown : evP g = on

theorem pinPut (on : Bool) (f : FieldDie) : PinPut on f ((pinSeen on f).put F_TWN_STAT_pin_in (if on then 1 else 0)) where
  pin := FieldDie.put_pin _ _ _
  moves := (FieldDie.put_softMoves (by decide) _ _).twinMoves
  shown := pinShown on f

theorem PinPut.followed {on : Bool} (p : PinPut on f g) : PinFollowed on f (evidenceChanged false g) := by
  have d := evidenceChanged_decided false g
  have kept : evP (evidenceChanged false g) = evP g := by
    unfold evP FieldDie.flag
    rw [d.moves.get_eq (by decide) (by decide)]
  exact ⟨d.moves.pin.trans p.pin, p.moves.trans (d.moves.mono (by decide)), kept.trans p.shown⟩

theorem pinTaken_followed (hp : f.powered = true) (on : Bool) : PinFollowed on f (pinTaken on f) := by
  by_cases h : evP f = on
  · rw [pinTaken_same h]
    exact pinSeen_followed h
  · rw [pinTaken_changed hp h]
    exact (pinPut on f).followed

theorem PinFollowed.frame {on : Bool} (p : PinFollowed on s.fld g) :
    FieldFrame [F_TWN_EVT, F_TWN_STAT] { s.fld with twn := (settle g).twn, pin := { s.fld.pin with twinIn := on } } s
      { s with fld := settle g } := by
  rw [settle_twn]
  have moves : SoftMoves [F_TWN_EVT, F_TWN_STAT] { s.fld with twn := g.twn, pin := { s.fld.pin with twinIn := on } } g := p.moves
  have reg : ({ s.fld with twn := g.twn, pin := { s.fld.pin with twinIn := on } } : FieldDie).reg = s.fld.reg := rfl
  generalize ({ s.fld with twn := g.twn, pin := { s.fld.pin with twinIn := on } } : FieldDie) = base at moves reg
  exact moves.frame reg

/-- The pin asserted at a standby part: with evidence L it takes over, without it reports. -/
theorem pinAsserted (hp : f.powered = true) (hP : evP f = false) (hr : f.role = 3) :
    (f.twn.evL = true → (pinTaken true f).twn.boundaryB = some (takeoverBoundary f) ∧ (pinTaken true f).twn.cause = 3) ∧
      (f.twn.evL = false → (pinTaken true f).sq F_TWN_EVT 5 = true) := by
  rw [pinTaken_changed hp (by rw [hP]; exact Bool.false_ne_true)]
  have level := pinShown true f
  have seen : CycleSame f (pinSeen true f) := ⟨rfl, rfl, rfl⟩
  have put : SoftMoves [F_TWN_STAT] (pinSeen true f) ((pinSeen true f).put F_TWN_STAT_pin_in (if true then 1 else 0)) :=
    FieldDie.put_softMoves (by decide) _ _
  have cycle := put.cycleSame (by unfold twinReg; decide)
  have role : ((pinSeen true f).put F_TWN_STAT_pin_in (if true then 1 else 0)).role = f.role :=
    FieldDie.get_put_field (pinSeen true f) F_TWN_STAT_pin_in F_TWN_STAT_role _ rfl (by decide) (by decide) (by decide)
  have twn : ((pinSeen true f).put F_TWN_STAT_pin_in (if true then 1 else 0)).twn = f.twn := FieldDie.put_twn _ _ _
  generalize (pinSeen true f).put F_TWN_STAT_pin_in (if true then 1 else 0) = g at level cycle role twn
  have takeover : takeoverBoundary g = takeoverBoundary f := cycle.takeover.trans seen.takeover
  have decide_ : ∀ x : FieldDie, x.role = 3 → evP x = true → takeoverBoundary x = takeoverBoundary f →
      (x.twn.evL = true → (decideRole false x).twn.boundaryB = some (takeoverBoundary f) ∧ (decideRole false x).twn.cause = 3) ∧
        (x.twn.evL = false → (decideRole false x).sq F_TWN_EVT 5 = true) := by
    intro x h3 hx hb
    rw [decideRole_of_standby h3]
    refine ⟨fun hL => ?_, fun hL => ?_⟩
    · rw [if_pos (by rw [hx, hL]; rfl), ← hb]
      exact ⟨rfl, rfl⟩
    · rw [if_neg (by rw [hL, Bool.and_false]; exact Bool.false_ne_true)]
      have dropped : evP (takeoverDropped x) = true := by
        unfold takeoverDropped
        split
        · exact hx
        · exact hx
      unfold standbyReports
      rw [if_pos dropped]
      exact FieldDie.raise_sq _ _ _ (by decide) (by decide)
  rw [← twn]
  unfold evidenceChanged
  dsimp only
  split
  · have cancelled : CycleSame g (cancelHandover g) := (cancelHandover_decided g).moves.cycleSame (by unfold twinReg; decide)
    exact decide_ (cancelHandover g) (role.trans hr) level (cancelled.takeover.trans takeover)
  · exact decide_ g (role.trans hr) level takeover

theorem unpoweredPin_clause (s : State) (on : Bool) (ns : Nat) (hv : s.fld.pwr.vddSl = true) (hns : 400 ≤ ns)
    (hp : s.fld.powered = false) (hph : s.fld.phase ≠ .released) :
    ∃ t, exec (.twinFaultInChange on ns) s = .next t ∧ t.fld.pin.twinIn = on ∧
      FieldFrame [] { s.fld with pin := { s.fld.pin with twinIn := on } } s t := by
  have step := exec_twinFaultIn on ns hv
  have stays : pinTaken on s.fld = pinSeen on s.fld := if_pos (.inl (by simp [hp, hph]))
  rw [twinFaultIn_long hns, stays] at step
  refine ⟨_, step, ?_, (SoftMoves.refl [] (pinSeen on s.fld)).frame rfl⟩
  dsimp only
  rw [settle_pin]
  rfl

theorem poweredPin_clause (s : State) (on : Bool) (ns : Nat) (hp : s.fld.powered = true) (hv : s.fld.pwr.vddSl = true) :
    (ns ≤ 200 → ∃ t, exec (.twinFaultInChange on ns) s = .next t ∧ FieldFrame [] s.fld s t) ∧
    (400 ≤ ns → ∃ t, exec (.twinFaultInChange on ns) s = .next t ∧ t.fld.flag F_TWN_STAT_pin_in = on ∧
      (on = true → evP s.fld = false → s.fld.role = 3 → s.fld.twn.evL = true →
        t.fld.twn.boundaryB = some (takeoverBoundary s.fld) ∧ t.fld.twn.cause = 3) ∧
      (on = true → evP s.fld = false → s.fld.role = 3 → s.fld.twn.evL = false → t.fld.sq F_TWN_EVT 5 = true) ∧
      FieldFrame [F_TWN_EVT, F_TWN_STAT] { s.fld with twn := t.fld.twn, pin := { s.fld.pin with twinIn := on } } s t) ∧
    (200 < ns → ns < 400 → ∃ t, exec (.twinFaultInChange on ns) s = .next t ∧
      (t.fld.flag F_TWN_STAT_pin_in = on ∨ t.fld.twn = s.fld.twn) ∧
      FieldFrame [F_TWN_EVT, F_TWN_STAT] { s.fld with twn := t.fld.twn, pin := { s.fld.pin with twinIn := t.fld.pin.twinIn } } s t) := by
  have step := exec_twinFaultIn on ns hv
  have shown : ∀ {f g}, PinFollowed on f g → (settle g).flag F_TWN_STAT_pin_in = on := fun {f g} p => by
    have kept : (settle g).get F_TWN_STAT_pin_in = g.get F_TWN_STAT_pin_in := settle_get_of_notMem (by decide)
    unfold FieldDie.flag
    rw [kept]
    exact p.shown
  refine ⟨fun hns => ?_, fun hns => ?_, fun hlo hhi => ?_⟩
  · rw [twinFaultIn_short hns] at step
    exact ⟨_, step, (SoftMoves.refl [] s.fld).frame rfl⟩
  · rw [twinFaultIn_long hns] at step
    have followed := pinTaken_followed hp on
    refine ⟨_, step, shown followed, ?_, ?_, followed.frame⟩
    · rintro rfl hP h3 hL
      dsimp only
      rw [settle_twn]
      exact (pinAsserted hp hP h3).1 hL
    · rintro rfl hP h3 hL
      dsimp only
      rw [settle_sq_of_notMem (by decide)]
      exact (pinAsserted hp hP h3).2 hL
  · have freed : SoftMoves [F_TWN_EVT, F_TWN_STAT] s.fld s.fld.free.2 := ⟨rfl, .ofEq rfl rfl rfl, .ofReg rfl⟩
    obtain same | seen := twinFaultIn_open hlo hhi on s.fld
    · rw [same] at step
      refine ⟨_, step, .inr ?_, ?_⟩
      all_goals dsimp only
      · rw [settle_twn]
        rfl
      · rw [settle_twn, settle_pin]
        exact freed.frame rfl
    · rw [seen] at step
      have followed := pinTaken_followed (f := s.fld.free.2) hp on
      refine ⟨_, step, .inl (shown followed), ?_⟩
      dsimp only
      rw [settle_twn, settle_pin, followed.pin]
      generalize pinTaken on s.fld.free.2 = g at followed
      exact SoftMoves.frame (SoftMoves.trans ((freed.withPin { s.fld.pin with twinIn := on }).withTwn g.twn) followed.moves) rfl

end Sys2Proof.Machine
end


section
/-! TWIN_ENABLE_WRITE (R639, R664): what a write stores when a lock may refuse a part of it, what a change of role moves, and
the twin pair's enable. -/

namespace Sys2Proof.Machine

variable {but : List Nat} {f g h : FieldDie} {s : State} {req a v data : Nat}

/-! ### Any write that is stored by its access codes -/

/-- The registers that a stored write can move beside its own. -/
def storeRegs : List Nat := [F_CFG_EVT, F_CFG_EVT_INFO, F_CFG_LK_REJ, F_CFG_PROOF_STAT]

/-- The word at `a` has become `v`; beside it only the write's reports and the configuration's record have moved. -/
structure Wrote (a v : Nat) (f g : FieldDie) : Prop where
  moves : SoftMoves (a :: storeRegs) { f with cfg := g.cfg } g
  word : g.rdN a = v
  twin : g.twin = f.twin

theorem lkReject_twin (req addr : Nat) (f : FieldDie) : (lkReject req addr f).twin = f.twin := by
  unfold lkReject noteAccess
  rw [raise_twin]
  unfold FieldDie.bump
  rw [FieldDie.put_twin, FieldDie.put_twin, FieldDie.put_twin]

theorem touchProof_twin (f : FieldDie) : f.touchProof.twin = f.twin := by
  rw [touchProof_eq]
  split
  · rfl
  · unfold FieldDie.announce
    rw [queueEvt_twin, FieldDie.put_twin]
    rfl

/-- A step that moves only the reports. -/
theorem Wrote.report (w : Wrote a v f g) (m : SoftMoves storeRegs g h) (ht : h.twin = g.twin) (ha : a ∉ storeRegs) (hc : a ∉ coverRegs) :
    Wrote a v f h where
  moves := by
    rw [m.cfg_eq]
    exact w.moves.trans (m.mono (List.subset_cons_self _ _))
  word := (congrArg BitVec.toNat (m.rd_eq ha hc)).trans w.word
  twin := ht.trans w.twin

theorem Wrote.withCfg (w : Wrote a v f g) (c : CfgX) : Wrote a v f { g with cfg := c } where
  moves := SoftMoves.withCfg w.moves c
  word := w.word
  twin := w.twin

theorem wrN_wrote (hv : v < 2 ^ 32) (f : FieldDie) : Wrote a v f (f.wrN a v) where
  moves := FieldDie.wrN_softMoves List.mem_cons_self f v
  word := FieldDie.rdN_wrN_same hv f a
  twin := rfl

/-- What a write of `data` makes of the word at `addr`, whether a lock refused a part of it, and whether the proof is touched. -/
def rowWord (req data : Nat) (row : RegRow) (addr : Nat) (f : FieldDie) : Nat × Bool × Bool :=
  row.fields.foldl (fun a fld => writeField f req row.sweep data fld a) (f.rdN addr, false, false)

/-- Under the votes, a refused part and a covered part, whichever of them the write meets. -/
theorem Wrote.reported (word : Wrote a v f g) (ha : a ∉ storeRegs) (hc : a ∉ coverRegs) (votes refused covered : Bool) :
    Wrote a v f
      (let voted := if votes = true then dropTmr a g else g
       let told := if refused = true then lkReject req a voted else voted
       if covered = true then told.touchProof else told) := by
  have voted : Wrote a v f (if votes = true then dropTmr a g else g) := by
    split
    · exact word.withCfg _
    · exact word
  dsimp only
  generalize (if votes = true then dropTmr a g else g) = g at voted
  have told : Wrote a v f (if refused = true then lkReject req a g else g) := by
    split
    · exact voted.report (lkReject_softMoves (by decide) (by decide) (by decide) a g) (lkReject_twin req a g) ha hc
    · exact voted
  generalize (if refused = true then lkReject req a g else g) = g at told
  split
  · exact (told.withCfg { g.cfg with covered := true }).report (touchProof_softMoves (by decide) g) (touchProof_twin g) ha hc
  · exact told

theorem storeWrite_wrote {row : RegRow} (hrow : regRow a = some row) (ha : a ∉ storeRegs) (hc : a ∉ coverRegs)
    (hv : (rowWord req data row a f).1 < 2 ^ 32) : Wrote a (rowWord req data row a f).1 f (storeWrite req a data f) := by
  unfold storeWrite
  rw [hrow]
  exact (wrN_wrote hv f).reported ha hc _ _ _

/-! ### A write of F_TWN_CTRL -/

def twnCtrlRow : RegRow := ⟨0x1F0000, 0x4, 1, .const 0x00000011, false, true,
   [⟨31, 31, .rw, true, none, false⟩, ⟨17, 16, .rw, false, (some 4), true⟩, ⟨8, 8, .wo, false, none, false⟩,
     ⟨4, 4, .rw, false, none, false⟩, ⟨0, 0, .rw, false, none, false⟩]⟩

theorem regRow_twnCtrl : regRow F_TWN_CTRL = some twnCtrlRow := rfl

/-- The word that a write of `data` makes of `w`: the wish is under a lock. -/
def twnCtrlWord (owns : Bool) (w data : Nat) : Nat :=
  let on := putBits w 31 31 (bitsOf data 31 31)
  putBits (putBits (if owns then putBits on 17 16 (bitsOf data 17 16) else on) 4 4 (bitsOf data 4 4)) 0 0 (bitsOf data 0 0)

theorem twnCtrlWord_lt (owns : Bool) {w : Nat} (hw : w < 2 ^ 32) (data : Nat) : twnCtrlWord owns w data < 2 ^ 32 := by
  have on : putBits w 31 31 (bitsOf data 31 31) < 2 ^ 32 := putBits_lt _ _ _ _ _ (by decide) (by decide) hw
  unfold twnCtrlWord
  refine putBits_lt _ _ _ _ _ (by decide) (by decide) (putBits_lt _ _ _ _ _ (by decide) (by decide) ?_)
  cases owns with
  | true => exact putBits_lt _ _ _ _ _ (by decide) (by decide) on
  | false => exact on

theorem twnCtrlWord_enable (owns : Bool) (w data : Nat) : bitsOf (twnCtrlWord owns w data) 31 31 = bitsOf data 31 31 := by
  have on : bitsOf (putBits w 31 31 (bitsOf data 31 31)) 31 31 = bitsOf data 31 31 := bitsOf_putBits_bitsOf (by decide) _ _
  unfold twnCtrlWord
  dsimp only
  rw [bitsOf_putBits_other _ _ _ _ _ _ (by decide) (by decide), bitsOf_putBits_other _ _ _ _ _ _ (by decide) (by decide)]
  cases owns with
  | true => exact (bitsOf_putBits_other _ _ _ _ _ _ (by decide) (by decide)).trans on
  | false => exact on

theorem rowWord_twnCtrl (req data : Nat) (f : FieldDie) :
    (rowWord req data twnCtrlRow F_TWN_CTRL f).1 = twnCtrlWord (ownsLock f req 4) (f.rdN F_TWN_CTRL) data := by
  unfold rowWord
  simp only [twnCtrlRow, List.foldl_cons, List.foldl_nil, writeField]
  cases ownsLock f req 4 with
  | true => rfl
  | false => rfl

theorem twnCtrl_wrote (req data : Nat) (f : FieldDie) :
    Wrote F_TWN_CTRL (twnCtrlWord (ownsLock f req 4) (f.rdN F_TWN_CTRL) data) f (storeWrite req F_TWN_CTRL data f) := by
  rw [← rowWord_twnCtrl]
  refine storeWrite_wrote regRow_twnCtrl (by decide) (by decide) ?_
  rw [rowWord_twnCtrl]
  exact twnCtrlWord_lt _ (f.rdN_lt _) data

theorem Wrote.engineRuns (w : Wrote a v f g) (k : Nat) : g.engineRuns k = f.engineRuns k :=
  (engineRuns_eq (side_of_rest w.moves.rest) k).trans rfl

theorem Wrote.twn (w : Wrote a v f g) : g.twn = f.twn := (twn_of_rest w.moves.rest).trans rfl

theorem Wrote.get_eq (w : Wrote a v f g) {r : Fld} (hr : r.addr ∉ a :: storeRegs) (hc : r.addr ∉ coverRegs) : g.get r = f.get r :=
  (w.moves.get_eq hr hc).trans rfl

/-- The die keeps the pair's view, and its enable is `on`. -/
structure EnableStored (on : Bool) (f g : FieldDie) : Prop where
  enable : g.flag F_TWN_CTRL_enable = on
  role : g.role = f.role
  runs : g.engineRuns 17 = f.engineRuns 17
  phase : g.twin.phase = f.twin.phase
  out : f.out ⊆ g.out

theorem twnCtrl_stored (req data : Nat) (f : FieldDie) :
    EnableStored (hasBit data 31) f (storeWrite req F_TWN_CTRL data f) := by
  have w := twnCtrl_wrote req data f
  generalize storeWrite req F_TWN_CTRL data f = g at w
  refine ⟨flag_bit ?_, w.get_eq (r := F_TWN_STAT_role) (by decide) (by decide), w.engineRuns 17, congrArg Link.phase w.twin, w.moves.send.out⟩
  have word := w.word
  unfold FieldDie.get
  rw [show F_TWN_CTRL_enable.addr = F_TWN_CTRL from rfl, word]
  exact twnCtrlWord_enable _ _ _

/-! ### A change of role (R639, R656) -/

/-- The registers that a change of role moves. -/
def roleRegs : List Nat := [F_TWN_STAT, F_MDS_STAT 0, F_MDS_STAT 1, F_MDS_STAT 2, F_MDS_STAT 3]

theorem mdsStat_mem (hn : a < 4) : F_MDS_STAT a ∈ roleRegs := by
  obtain rfl | rfl | rfl | rfl : a = 0 ∨ a = 1 ∨ a = 2 ∨ a = 3 := by omega
  all_goals decide

/-- The segments of a standby part are silent. -/
def silenced (r : Nat) (n : Nat) (f : FieldDie) : FieldDie := f.put (F_MDS_STAT_standby_silent n) (if r = 3 then 1 else 0)

theorem setRole_of_runs (h : f.engineRuns 17 = true) (r : Nat) :
    setRole r f = forRange 4 (silenced r) (f.napBreak.put F_TWN_STAT_role r) := by
  unfold setRole
  rw [if_pos h]
  rfl

theorem silenced_softMoves {n : Nat} (hn : n < 4) (r : Nat) (f : FieldDie) : SoftMoves roleRegs f (silenced r n f) :=
  FieldDie.put_softMoves (r := F_MDS_STAT_standby_silent n) (mdsStat_mem hn) f _

theorem setRole_softMoves (r : Nat) (f : FieldDie) : SoftMoves roleRegs f (setRole r f) := by
  by_cases h : f.engineRuns 17 = true
  · rw [setRole_of_runs h]
    refine forRange_keeps (P := SoftMoves roleRegs f) (fun n g hn m => m.trans (silenced_softMoves hn r g)) ?_
    exact f.napBreak_softMoves.trans (FieldDie.put_softMoves (by decide) _ _)
  · unfold setRole
    rw [if_neg h]
    exact .refl _ f

theorem silenced_role {n : Nat} (hn : n < 4) (r : Nat) (f : FieldDie) : (silenced r n f).role = f.role :=
  FieldDie.get_put_addr f (F_MDS_STAT_standby_silent n) F_TWN_STAT_role _ (by
    show F_TWN_STAT ≠ F_MDS_STAT n
    unfold F_TWN_STAT F_MDS_STAT
    omega)

theorem setRole_role (h : f.engineRuns 17 = true) {r : Nat} (hr : r < 16) : (setRole r f).role = r := by
  rw [setRole_of_runs h]
  refine forRange_keeps (P := fun g => g.role = r) (fun n g hn e => (silenced_role hn r g).trans e) ?_
  have get := FieldDie.get_put f.napBreak F_TWN_STAT_role r (by decide) (by decide)
  exact get.trans (Nat.mod_eq_of_lt (show r < 2 ^ (31 + 1 - 28) from hr))

theorem setRole_twin (r : Nat) (f : FieldDie) : (setRole r f).twin = f.twin := by
  by_cases h : f.engineRuns 17 = true
  · rw [setRole_of_runs h]
    exact forRange_keeps (P := fun g : FieldDie => g.twin = f.twin) (fun n g _ e => (FieldDie.put_twin _ _ _).trans e) (FieldDie.put_twin _ _ _)
  · unfold setRole
    rw [if_neg h]

/-! ### Enable (R639, R664) -/

/-- Training begins on a link that waits: its patterns go out. -/
def patterned (f : FieldDie) : FieldDie :=
  { f with twin := (startTraining { f.twin with tick := f.now }).1 }.emit (.lanePhase .twin)

theorem twinStart_of_waiting (h : f.twin.phase = 0) : twinStart f = patterned f := by
  have quiet : (startTraining { f.twin with tick := f.now }).2 = [.patterns] := by
    unfold startTraining
    dsimp only
    rw [h]
    rfl
  unfold twinStart FieldDie.onTwin
  dsimp only
  rw [if_pos h, quiet]
  rfl

/-- The part's record without an announced end of the pair. -/
def unleft (f : FieldDie) : FieldDie := { f with twn := { f.twn with aloneAtB := false } }

theorem twinOn_of_waiting (h : f.twin.phase = 0) (hr : f.role = 0) : twinOn f = setRole 1 (unleft (patterned f)) := by
  unfold twinOn
  dsimp only
  rw [twinStart_of_waiting h, if_pos (by rw [← hr]; rfl)]
  rfl

theorem wantsActive_of_role (h : f.role ≠ 3) : wantsActive f = 0 := by
  unfold wantsActive
  rw [if_pos (.inl h)]

theorem tryReq_of_idle (h : wantsActive f = 0) : tryReq f = f ∨ tryReq f = { f with twn := { f.twn with reqSent := false } } := by
  unfold tryReq
  dsimp only
  rw [if_pos h]
  split
  · exact .inr rfl
  · exact .inl rfl

/-- A part that cannot ask keeps everything but its note of a request. -/
theorem tryReq_keeps {β : Type} (p : FieldDie → β) (hp : ∀ x : FieldDie, p { x with twn := { x.twn with reqSent := false } } = p x)
    (h : wantsActive f = 0) : p (tryReq f) = p f := by
  obtain e | e := tryReq_of_idle h
  · rw [e]
  · rw [e, hp]

theorem writeTwnCtrl_eq (h : hasBit data 8 = false) (req : Nat) (f : FieldDie) : writeTwnCtrl req data f =
    tryReq (if enableKept f data then (storeWrite req F_TWN_CTRL (setBit data 31) f).raise F_TWN_EVT 15
      else enableChanged (f.flag F_TWN_CTRL_enable) (storeWrite req F_TWN_CTRL data f)) := by
  unfold writeTwnCtrl
  dsimp only
  rw [h]
  rfl

/-- What the end of the write leaves of enable, of the role and of the announced end of the pair. -/
structure EnableLeft (on : Bool) (role : Nat) (alone : Bool) (f : FieldDie) : Prop where
  enable : f.flag F_TWN_CTRL_enable = on
  role : f.role = role
  alone : f.twn.aloneAtB = alone

theorem Decided.aloneAtB (d : Decided f g) : g.twn.aloneAtB = f.twn.aloneAtB := (congrArg TwnX.aloneAtB d.twn).trans rfl

theorem EnableLeft.decided {on alone : Bool} {role : Nat} (e : EnableLeft on role alone f) (d : Decided f g) : EnableLeft on role alone g where
  enable := by
    unfold FieldDie.flag
    rw [d.moves.get_eq (by decide) (by decide)]
    exact e.enable
  role := d.role.trans e.role
  alone := d.aloneAtB.trans e.alone

theorem EnableLeft.settled {on alone : Bool} {role : Nat} (e : EnableLeft on role alone f) : EnableLeft on role alone (settle f) where
  enable := by
    unfold FieldDie.flag
    rw [settle_get_of_notMem (by decide)]
    exact e.enable
  role := (settle_get_of_notMem (r := F_TWN_STAT_role) (by decide)).trans e.role
  alone := by rw [settle_twn, e.alone]

theorem SoftMoves.enable (m : SoftMoves roleRegs f g) : g.flag F_TWN_CTRL_enable = f.flag F_TWN_CTRL_enable := by
  unfold FieldDie.flag
  rw [m.get_eq (by decide) (by decide)]

theorem setRole_left (hruns : f.engineRuns 17 = true) {r : Nat} (hr : r < 16) :
    EnableLeft (f.flag F_TWN_CTRL_enable) r f.twn.aloneAtB (setRole r f) where
  enable := (setRole_softMoves r f).enable
  role := setRole_role hruns hr
  alone := by rw [twn_of_rest (setRole_softMoves r f).rest]

theorem twinOn_left (h : f.twin.phase = 0) (hr : f.role = 0) (hruns : f.engineRuns 17 = true) :
    EnableLeft (f.flag F_TWN_CTRL_enable) 1 false (twinOn f) ∧ (twinOn f).twin.phase = 1 ∧ Output.lanePhase .twin ∈ (twinOn f).out := by
  rw [twinOn_of_waiting h hr]
  have left := setRole_left (f := unleft (patterned f)) hruns (r := 1) (by decide)
  have phase : (unleft (patterned f)).twin.phase = 1 := rfl
  have out : Output.lanePhase .twin ∈ (unleft (patterned f)).out := List.mem_append_right _ (List.mem_singleton.2 rfl)
  refine ⟨left, ?_, (setRole_softMoves 1 _).send.out out⟩
  rw [setRole_twin, phase]

theorem twinOff_left (hruns : f.engineRuns 17 = true) :
    EnableLeft (f.flag F_TWN_CTRL_enable) (if f.role = 3 ∨ f.role = 4 then f.role else 0)
      (if f.role = 3 ∨ f.role = 4 then true else f.twn.aloneAtB) (twinOff f) := by
  unfold twinOff
  by_cases h : f.role = 3 ∨ f.role = 4
  · rw [if_pos h, if_pos h, if_pos h]
    exact ⟨rfl, rfl, rfl⟩
  · rw [if_neg h, if_neg h, if_neg h]
    exact setRole_left hruns (by decide)

theorem enableStarts (hk : f.flag F_TWN_CTRL_enable = false) (h31 : hasBit data 31 = true) (h8 : hasBit data 8 = false)
    (hr : f.role = 0) (hph : f.twin.phase = 0) (hruns : f.engineRuns 17 = true) (req : Nat) :
    EnableLeft true 1 false (writeTwnCtrl req data f) ∧ (writeTwnCtrl req data f).twin.phase = 1 ∧
      Output.lanePhase .twin ∈ (writeTwnCtrl req data f).out := by
  have stored := twnCtrl_stored req data f
  rw [writeTwnCtrl_eq h8, if_neg (by simp [enableKept, hk]), hk]
  generalize storeWrite req F_TWN_CTRL data f = g at stored
  have on : enableChanged false g = twinOn g := by
    unfold enableChanged
    rw [stored.enable, h31]
    rfl
  obtain ⟨left, phase, out⟩ := twinOn_left (stored.phase.trans hph) (stored.role.trans hr) (stored.runs.trans hruns)
  rw [stored.enable, h31] at left
  have d := tryReq_decided (twinOn g)
  rw [on]
  exact ⟨left.decided d, d.link.phase.trans phase, d.moves.send.out out⟩

theorem enableStays (hk : f.flag F_TWN_CTRL_enable = true) (h31 : hasBit data 31 = false) (h8 : hasBit data 8 = false)
    (hr : f.role = 2) (hp : f.get F_TWN_PEER_role = 3) (req : Nat) :
    (writeTwnCtrl req data f).flag F_TWN_CTRL_enable = true ∧ (writeTwnCtrl req data f).role = 2 ∧
      (writeTwnCtrl req data f).sq F_TWN_EVT 15 = true := by
  have stored := twnCtrl_stored req (setBit data 31) f
  have set : hasBit (setBit data 31) 31 = true := by simp [hasBit_setBit]
  rw [writeTwnCtrl_eq h8, if_pos (by simp [enableKept, hk, h31, hr, hp])]
  generalize storeWrite req F_TWN_CTRL (setBit data 31) f = g at stored
  have raised := Decided.raise g 15
  have told : (g.raise F_TWN_EVT 15).sq F_TWN_EVT 15 = true := FieldDie.raise_sq _ _ _ (by decide) (by decide)
  have role : (g.raise F_TWN_EVT 15).role = 2 := raised.role.trans (stored.role.trans hr)
  have enable : (g.raise F_TWN_EVT 15).flag F_TWN_CTRL_enable = true := by
    unfold FieldDie.flag
    rw [raised.moves.get_eq (by decide) (by decide)]
    exact stored.enable.trans set
  generalize g.raise F_TWN_EVT 15 = x at told role enable
  have idle := wantsActive_of_role (f := x) (by rw [role]; decide)
  refine ⟨?_, ?_, ?_⟩
  · rw [tryReq_keeps (fun y => y.flag F_TWN_CTRL_enable) (fun _ => rfl) idle, enable]
  · rw [tryReq_keeps FieldDie.role (fun _ => rfl) idle, role]
  · rw [tryReq_keeps (fun y => y.sq F_TWN_EVT 15) (fun _ => rfl) idle, told]

theorem enableEnds (hk : f.flag F_TWN_CTRL_enable = true) (h31 : hasBit data 31 = false) (h8 : hasBit data 8 = false)
    (hp : f.role ≠ 2 ∨ f.get F_TWN_PEER_role ≠ 3) (hruns : f.engineRuns 17 = true) (req : Nat) :
    ∃ alone, EnableLeft false (if f.role = 3 ∨ f.role = 4 then f.role else 0) alone (writeTwnCtrl req data f) ∧
      (f.role = 3 ∨ f.role = 4 → alone = true) := by
  have stored := twnCtrl_stored req data f
  have accepted : enableKept f data = false := by
    unfold enableKept
    obtain h | h := hp
    · simp [h]
    · simp [h]
  have plain : writeTwnCtrl req data f = tryReq (enableChanged true (storeWrite req F_TWN_CTRL data f)) := by
    rw [writeTwnCtrl_eq h8, accepted, hk]
    rfl
  rw [plain]
  generalize storeWrite req F_TWN_CTRL data f = g at stored
  have off : enableChanged true g = twinOff g := by
    unfold enableChanged
    rw [stored.enable, h31]
    rfl
  have left := twinOff_left (stored.runs.trans hruns)
  rw [stored.enable, h31, stored.role] at left
  rw [off]
  refine ⟨_, left.decided (tryReq_decided _), fun h => if_pos h⟩

theorem enable_clause (s : State) (req : Nat) (data : Word) (hw : s.fld.canWrite req = true) (h8 : hasBit data.toNat 8 = false)
    (hruns : s.fld.engineRuns 17 = true) :
      (s.fld.flag F_TWN_CTRL_enable = false → hasBit data.toNat 31 = true → s.fld.role = 0 → s.fld.twin.phase = 0 →
        ∃ t, exec (.twinEnableWrite req data) s = .next t ∧ t.fld.flag F_TWN_CTRL_enable = true ∧ t.fld.role = 1 ∧
          t.fld.twin.phase = 1 ∧ Output.lanePhase .twin ∈ t.fld.out ∧ FieldOnly s t) ∧
      (s.fld.flag F_TWN_CTRL_enable = true → hasBit data.toNat 31 = false → s.fld.role = 2 → s.fld.get F_TWN_PEER_role = 3 →
        ∃ t, exec (.twinEnableWrite req data) s = .next t ∧ t.fld.flag F_TWN_CTRL_enable = true ∧ t.fld.role = 2 ∧
          t.fld.sq F_TWN_EVT 15 = true ∧ FieldOnly s t) ∧
      (s.fld.flag F_TWN_CTRL_enable = true → hasBit data.toNat 31 = false → (s.fld.role ≠ 2 ∨ s.fld.get F_TWN_PEER_role ≠ 3) →
        ∃ t, exec (.twinEnableWrite req data) s = .next t ∧ t.fld.flag F_TWN_CTRL_enable = false ∧
          (s.fld.role = 3 ∨ s.fld.role = 4 → t.fld.twn.aloneAtB = true ∧ t.fld.role = s.fld.role) ∧
          (s.fld.role ≠ 3 → s.fld.role ≠ 4 → t.fld.role = 0) ∧ FieldOnly s t) := by
  have step := State.onWrite_of_canWrite (k := writeTwnCtrl req data.toNat) hw
  refine ⟨fun hk h31 hr hph => ?_, fun hk h31 hr hp => ?_, fun hk h31 hp => ?_⟩
  · obtain ⟨left, phase, out⟩ := enableStarts (f := s.fld.napBreak) hk h31 h8 hr hph hruns req
    generalize writeTwnCtrl req data.toNat s.fld.napBreak = g at step left phase out
    exact ⟨_, step, left.settled.enable, left.settled.role, (settle_linkSends g).phase.trans phase, settle_mem_out out,
      ⟨rfl, rfl, rfl, rfl⟩⟩
  · obtain ⟨enable, role, told⟩ := enableStays (f := s.fld.napBreak) hk h31 h8 hr hp req
    generalize writeTwnCtrl req data.toNat s.fld.napBreak = g at step enable role told
    have left : EnableLeft true 2 g.twn.aloneAtB g := ⟨enable, role, rfl⟩
    refine ⟨_, step, left.settled.enable, left.settled.role, ?_, ⟨rfl, rfl, rfl, rfl⟩⟩
    dsimp only
    rw [settle_sq_of_notMem (by decide), told]
  · obtain ⟨alone, left, ends⟩ := enableEnds (f := s.fld.napBreak) hk h31 h8 hp hruns req
    have base : s.fld.napBreak.role = s.fld.role := rfl
    rw [base] at left ends
    generalize writeTwnCtrl req data.toNat s.fld.napBreak = g at step left
    refine ⟨_, step, left.settled.enable, fun h => ⟨left.settled.alone.trans (ends h), left.settled.role.trans (if_pos h)⟩,
      fun h3 h4 => left.settled.role.trans (if_neg fun h => h.elim h3 h4), ⟨rfl, rfl, rfl, rfl⟩⟩

/-- Settles O55, clause by clause: the decisions on the roles move only the pair's record, its events and posted units. -/
theorem twinPairFormsAndReports : Obligations.TwinPairFormsAndReports := by
  unfold Obligations.TwinPairFormsAndReports
  refine ⟨hello_clause, grant_clause, statusSend_clause, status_clause, absence_clause, relinquish_clause, req_clause,
    holdoff_clause, holdoffReset_clause, unpoweredPin_clause, poweredPin_clause, fun s req data hw _ h8 hruns => enable_clause s req data hw h8 hruns⟩

end Sys2Proof.Machine
end


section
/-! The refutation of O56: at a take-over the part is reported as not synchronised when the boundary leaves it so, and the words
that wait for the stream gates' windows, which the boundary stores, need not be windows in every state. -/

namespace Sys2Proof.Machine

/-- A standby part, not synchronised, whose take-over is due at the boundary at 0 ns, where the pending windows change; the word
that waits for them names F_TWN_STAT, with the role STANDBY and synced 1. -/
def strayWindow : State :=
  { fld :=
    { phase := .running
      reg := [(F_TWN_STAT, 0x30000000)]
      str := { netStart := 1, pendWin := some 0, pendWords := [(F_TWN_STAT, 0x32000000)] }
      twn := { cause := 3, boundaryB := some 0 } } }

/-- The boundary makes the part synchronised, so nothing reports that it was not. -/
theorem strayWindow_unreported : (settle (takeover strayWindow.fld)).sq F_TWN_EVT 14 = false := by
  decide +kernel

theorem exec_takeover {s : State} (h : s.fld.phase = .running) : exec .takeover s = .next { s with fld := settle (takeover s.fld) } :=
  State.onRun_running h

/-- The clause of a take-over makes an event of it that the part was not synchronised. -/
theorem takeover_reports (h : Obligations.TwinPairChangesRoles) {s : State} (hr : s.fld.phase = .running) (h3 : s.fld.role = 3)
    (he : s.fld.engineRuns 17 = true) (hc : s.fld.twn.cause = 3) (hB : s.fld.twn.boundaryB = some 0)
    (hs : s.fld.flag F_TWN_STAT_synced = false) : (settle (takeover s.fld)).sq F_TWN_EVT 14 = true := by
  obtain ⟨-, -, -, takes, -⟩ := h
  obtain ⟨t, ht, -, -, -, unsynced, -⟩ := takes s 0 hr h3 he hc hB (Nat.zero_le _)
  obtain rfl := next_unique ht (exec_takeover hr)
  exact unsynced hs

/-- Refutes O56, by its clause of a take-over: a word that waits for the windows and names F_TWN_STAT sets synced at the boundary
of the take-over, and unsynced_takeover is not raised at the part that was not synchronised before it. -/
theorem not_twinPairChangesRoles : ¬ Obligations.TwinPairChangesRoles := by
  intro h
  have told := takeover_reports h (s := strayWindow) rfl (by decide +kernel) (by decide +kernel) rfl rfl (by decide +kernel)
  exact Bool.false_ne_true (strayWindow_unreported.symm.trans told)

end Sys2Proof.Machine
end


section
/-! The gPTP clocks' records and the clocks (chapter 13): what the shared steps of the engine move. -/

namespace Sys2Proof.Machine

variable {but but' : List Nat} {f g h : FieldDie} {s : State} {n a : Nat}

/-! ### Moves of the gPTP clocks' records and of time -/

/-- From `f` to `g` the listed registers, what waits to be sent, and the gPTP clocks' own records have at most moved. -/
def PtpMoves (but : List Nat) (f g : FieldDie) : Prop := SoftMoves but { f with ptp := g.ptp } g

/-- As `PtpMoves`, with the clocks' own record. -/
def TimeMoves (but : List Nat) (f g : FieldDie) : Prop := SoftMoves but { f with ptp := g.ptp, tim := g.tim } g

theorem ptp_of_rest (h : g.rest = f.rest) : g.ptp = f.ptp := by
  have := congrArg FieldDie.ptp h
  exact this

theorem SoftMoves.withPtp (m : SoftMoves but f g) (x : List PtpX) : SoftMoves but { f with ptp := x } { g with ptp := x } where
  rest := congrArg (fun r : FieldDie => { r with ptp := x }) m.rest
  send := ⟨m.send.buf, m.send.out, m.send.cnt⟩
  regs := m.regs

theorem SoftMoves.ptpMoves (m : SoftMoves but f g) : PtpMoves but f g := by
  have own : ({ f with ptp := g.ptp } : FieldDie) = f := by rw [ptp_of_rest m.rest]
  unfold PtpMoves
  rw [own]
  exact m

theorem PtpMoves.refl (but : List Nat) (f : FieldDie) : PtpMoves but f f := (SoftMoves.refl but f).ptpMoves

theorem PtpMoves.trans (a : PtpMoves but f g) (b : PtpMoves but g h) : PtpMoves but f h :=
  SoftMoves.trans (SoftMoves.withPtp a h.ptp) b

theorem PtpMoves.mono (m : PtpMoves but f g) (h : but ⊆ but') : PtpMoves but' f g := SoftMoves.mono m h

theorem PtpMoves.ite {p : Prop} [Decidable p] (hg : PtpMoves but f g) (hh : PtpMoves but f h) : PtpMoves but f (if p then g else h) := by
  split
  · exact hg
  · exact hh

theorem setPtpX_ptpMoves (f : FieldDie) (n : Nat) (x : PtpX → PtpX) : PtpMoves but f (f.setPtpX n x) := SoftMoves.refl but _

theorem PtpMoves.tim (m : PtpMoves but f g) : g.tim = f.tim := (tim_of_rest (SoftMoves.rest m)).trans rfl

theorem PtpMoves.now (m : PtpMoves but f g) : g.now = f.now := congrArg TimeX.c m.tim

theorem PtpMoves.rd_eq (m : PtpMoves but f g) (ha : a ∉ but) (hc : a ∉ coverRegs) : g.rd a = f.rd a :=
  (SoftMoves.rd_eq m ha hc).trans rfl

theorem PtpMoves.rdN_eq (m : PtpMoves but f g) (ha : a ∉ but) (hc : a ∉ coverRegs) : g.rdN a = f.rdN a :=
  congrArg BitVec.toNat (m.rd_eq ha hc)

theorem PtpMoves.get_eq (m : PtpMoves but f g) {r : Fld} (ha : r.addr ∉ but) (hc : r.addr ∉ coverRegs) : g.get r = f.get r :=
  FieldDie.get_eq r (m.rd_eq ha hc)

theorem PtpMoves.timeMoves (m : PtpMoves but f g) : TimeMoves but f g := by
  have own : ({ f with ptp := g.ptp, tim := g.tim } : FieldDie) = { f with ptp := g.ptp } := by rw [m.tim]
  unfold TimeMoves
  rw [own]
  exact m

theorem SoftMoves.timeMoves (m : SoftMoves but f g) : TimeMoves but f g := m.ptpMoves.timeMoves

theorem TimeMoves.refl (but : List Nat) (f : FieldDie) : TimeMoves but f f := (SoftMoves.refl but f).timeMoves

theorem TimeMoves.trans (a : TimeMoves but f g) (b : TimeMoves but g h) : TimeMoves but f h :=
  SoftMoves.trans (SoftMoves.withTim (SoftMoves.withPtp a h.ptp) h.tim) b

theorem TimeMoves.mono (m : TimeMoves but f g) (h : but ⊆ but') : TimeMoves but' f g := SoftMoves.mono m h

theorem TimeMoves.ite {p : Prop} [Decidable p] (hg : TimeMoves but f g) (hh : TimeMoves but f h) : TimeMoves but f (if p then g else h) := by
  split
  · exact hg
  · exact hh

theorem setTim_timeMoves (f : FieldDie) (x : TimeX) : TimeMoves but f { f with tim := x } := SoftMoves.refl but _

theorem TimeMoves.rd_eq (m : TimeMoves but f g) (ha : a ∉ but) (hc : a ∉ coverRegs) : g.rd a = f.rd a :=
  (SoftMoves.rd_eq m ha hc).trans rfl

theorem TimeMoves.rdN_eq (m : TimeMoves but f g) (ha : a ∉ but) (hc : a ∉ coverRegs) : g.rdN a = f.rdN a :=
  congrArg BitVec.toNat (m.rd_eq ha hc)

theorem TimeMoves.get_eq (m : TimeMoves but f g) {r : Fld} (ha : r.addr ∉ but) (hc : r.addr ∉ coverRegs) : g.get r = f.get r :=
  FieldDie.get_eq r (m.rd_eq ha hc)

/-! ### A gPTP clock's record -/

theorem ptpX_setPtpX_self (hn : n < f.ptp.length) (x : PtpX → PtpX) : (f.setPtpX n x).ptpX n = x (f.ptpX n) := by
  unfold FieldDie.ptpX FieldDie.setPtpX
  exact getD_modAt_self hn x {}

theorem ptpX_setPtpX_ne {k : Nat} (hk : k ≠ n) (x : PtpX → PtpX) : (f.setPtpX n x).ptpX k = f.ptpX k := by
  unfold FieldDie.ptpX FieldDie.setPtpX
  exact getD_modAt_ne hk f.ptp x {}

theorem ptpX_of_ptp (h : g.ptp = f.ptp) (n : Nat) : g.ptpX n = f.ptpX n := by
  unfold FieldDie.ptpX
  rw [h]

theorem SoftMoves.ptpX (m : SoftMoves but f g) (n : Nat) : g.ptpX n = f.ptpX n := ptpX_of_ptp (ptp_of_rest m.rest) n

theorem setPtpX_get (f : FieldDie) (n : Nat) (x : PtpX → PtpX) (r : Fld) : (f.setPtpX n x).get r = f.get r := rfl

/-! ### States and grandmasters -/

/-- The registers of a gPTP clock's state. -/
def stateRegs (n : Nat) : List Nat := [F_TIM_PTP_STAT n, F_TIM_EVT, F_TIM_EVT_INFO]

/-- The registers of a gPTP clock's grandmaster. -/
def gmRegs (n : Nat) : List Nat := [F_TIM_PTP_GM_HI n, F_TIM_PTP_GM_LO n, F_TIM_EVT, F_TIM_EVT_INFO]

/-- The die whose gPTP clock `n` has entered state `st`, its change not yet reported. -/
def stateEntered (n st : Nat) (f : FieldDie) : FieldDie :=
  (f.put (F_TIM_PTP_STAT_state n) st).setPtpX n (fun x => { x with good := 0, badRun := 0 })

theorem setPtpState_eq (n st : Nat) (f : FieldDie) : setPtpState n st f =
    if ptpState f n = st then f
    else if st = 3 then timeEvt 8 n (stateEntered n st f)
    else if ptpState f n = 3 ∨ st = 4 then timeEvt 7 n (stateEntered n st f) else stateEntered n st f := rfl

theorem stateEntered_ptpMoves (n st : Nat) (f : FieldDie) : PtpMoves (stateRegs n) f (stateEntered n st f) :=
  PtpMoves.trans (FieldDie.put_softMoves (r := F_TIM_PTP_STAT_state n) List.mem_cons_self f st).ptpMoves (setPtpX_ptpMoves _ _ _)

theorem timeEvt_soft (h : F_TIM_EVT_INFO ∈ but ∧ F_TIM_EVT ∈ but) (bit index : Nat) (f : FieldDie) : SoftMoves but f (timeEvt bit index f) :=
  timeEvt_softMoves h.1 h.2 bit index f

theorem mem_stateRegs (n : Nat) : F_TIM_EVT_INFO ∈ stateRegs n ∧ F_TIM_EVT ∈ stateRegs n := by
  constructor
  · exact List.mem_cons_of_mem _ (List.mem_cons_of_mem _ List.mem_cons_self)
  · exact List.mem_cons_of_mem _ List.mem_cons_self

theorem mem_gmRegs (n : Nat) : F_TIM_EVT_INFO ∈ gmRegs n ∧ F_TIM_EVT ∈ gmRegs n := by
  constructor
  · exact List.mem_cons_of_mem _ (List.mem_cons_of_mem _ (List.mem_cons_of_mem _ List.mem_cons_self))
  · exact List.mem_cons_of_mem _ (List.mem_cons_of_mem _ List.mem_cons_self)

theorem setPtpState_ptpMoves (n st : Nat) (f : FieldDie) : PtpMoves (stateRegs n) f (setPtpState n st f) := by
  have entered := stateEntered_ptpMoves n st f
  have told : ∀ bit, PtpMoves (stateRegs n) f (timeEvt bit n (stateEntered n st f)) := fun bit =>
    entered.trans (timeEvt_soft (mem_stateRegs n) bit n _).ptpMoves
  rw [setPtpState_eq]
  exact .ite (.refl _ f) (.ite (told 8) (.ite (told 7) entered))

theorem ptpStat_ne_evt (n : Nat) : F_TIM_PTP_STAT n ≠ F_TIM_EVT ∧ F_TIM_PTP_STAT n ≠ F_TIM_EVT_INFO := by
  unfold F_TIM_PTP_STAT F_TIM_EVT F_TIM_EVT_INFO
  omega

theorem timeReg_notMem {a : Nat} (h : 0x1C0000 ≤ a ∧ a < 0x1D0000) : a ∉ coverRegs := by
  simp only [coverRegs, List.mem_cons, List.not_mem_nil, or_false, not_or]
  unfold F_FLT_COVER F_FLT_EVT2 F_XNG_EVT
  omega

theorem ptpStat_notMem (hn : n < 2) : F_TIM_PTP_STAT n ∉ coverRegs := timeReg_notMem (by unfold F_TIM_PTP_STAT; omega)

theorem ptpState_timeEvt (hn : n < 2) (bit index : Nat) (f : FieldDie) : ptpState (timeEvt bit index f) n = ptpState f n := by
  obtain ⟨evt, info⟩ := ptpStat_ne_evt n
  exact (timeEvt_soft (but := [F_TIM_EVT_INFO, F_TIM_EVT]) (by decide) bit index f).get_eq (r := F_TIM_PTP_STAT_state n)
    (by show F_TIM_PTP_STAT n ∉ _; simp [evt, info]) (ptpStat_notMem hn)

theorem ptpState_stateEntered (n : Nat) {st : Nat} (hst : st < 16) (f : FieldDie) : ptpState (stateEntered n st f) n = st := by
  unfold ptpState stateEntered
  rw [setPtpX_get, FieldDie.get_put f (F_TIM_PTP_STAT_state n) st (by show 28 ≤ 31; decide) (by show 31 < 32; decide)]
  exact Nat.mod_eq_of_lt hst

theorem ptpState_setPtpState (hn : n < 2) {st : Nat} (hst : st < 16) (f : FieldDie) : ptpState (setPtpState n st f) n = st := by
  have entered := ptpState_stateEntered n hst f
  rw [setPtpState_eq]
  by_cases h : ptpState f n = st
  · rw [if_pos h, h]
  · rw [if_neg h]
    split
    · rw [ptpState_timeEvt hn, entered]
    · split
      · rw [ptpState_timeEvt hn, entered]
      · exact entered

theorem setGm_softMoves (n id : Nat) (f : FieldDie) : SoftMoves (gmRegs n) f (setGm n id f) := by
  unfold setGm
  split
  · exact .refl _ f
  · refine SoftMoves.trans ?_ (timeEvt_soft (mem_gmRegs n) 11 n _)
    exact (FieldDie.wrN_softMoves List.mem_cons_self f _).trans (FieldDie.wrN_softMoves (List.mem_cons_of_mem _ List.mem_cons_self) _ _)

theorem refreshGm_softMoves (n : Nat) (f : FieldDie) : SoftMoves (gmRegs n) f (refreshGm n f) := by
  unfold refreshGm
  split
  · exact .refl _ f
  · split
    · exact setGm_softMoves n _ f
    · split
      · exact setGm_softMoves n _ f
      · exact .refl _ f

/-! ### Roles -/

/-- The status of the twelve ports that run gPTP. -/
def portStatRegs : List Nat := (List.range 12).map F_TIM_PORT_STAT

/-- The registers that a gPTP clock's roles move. -/
def ptpRegs (n : Nat) : List Nat := portStatRegs ++ (stateRegs n ++ gmRegs n)

theorem portStat_mem {p : Nat} (hp : p < 12) : F_TIM_PORT_STAT p ∈ portStatRegs :=
  List.mem_map.2 ⟨p, List.mem_range.2 hp, rfl⟩

theorem stateRegs_sub (n : Nat) : stateRegs n ⊆ ptpRegs n := fun _ h => List.mem_append_right _ (List.mem_append_left _ h)

theorem gmRegs_sub (n : Nat) : gmRegs n ⊆ ptpRegs n := fun _ h => List.mem_append_right _ (List.mem_append_right _ h)

theorem slaveChanged_ptpMoves (n : Nat) (old : Option Nat) (f : FieldDie) : PtpMoves (stateRegs n) f (slaveChanged n old f) := by
  unfold slaveChanged
  dsimp only
  refine .ite (setPtpState_ptpMoves n 0 f) (.ite (.ite (.refl _ f) (setPtpState_ptpMoves n 1 f)) (.ite ?_ (.refl _ f)))
  exact PtpMoves.trans (setPtpX_ptpMoves f n _) (setPtpState_ptpMoves n 2 _)

/-- The role of port `p` in gPTP clock `n`, as a field. -/
def roleFld (n p : Nat) : Fld := if n = 0 then F_TIM_PORT_STAT_role0 p else F_TIM_PORT_STAT_role1 p

theorem roleFld_addr (n p : Nat) : (roleFld n p).addr = F_TIM_PORT_STAT p := by
  unfold roleFld
  split
  · rfl
  · rfl

/-- The die whose roles of gPTP clock `n` are those listed. -/
def rolesShown (n : Nat) (roles : List Nat) (f : FieldDie) : FieldDie :=
  forRange 12 (fun p f => f.put (roleFld n p) (roles.getD p 0)) f

theorem rolesShown_softMoves (n : Nat) (roles : List Nat) (f : FieldDie) : SoftMoves portStatRegs f (rolesShown n roles f) :=
  forRange_keeps (P := SoftMoves portStatRegs f)
    (fun p g hp m => m.trans (FieldDie.put_softMoves (by rw [roleFld_addr]; exact portStat_mem hp) g _)) (.refl _ f)

/-- What a gPTP clock forgets of ports that take no part. -/
def forgotten (n : Nat) (f : FieldDie) : FieldDie :=
  f.setPtpX n (fun x => { x with
    heard := x.heard.filter (fun h => ptpCapable f n h.1)
    carried := x.carried.filter (fun c => ptpCapable f n c.2) })

/-- The slave port that a gPTP clock is to show: 31 for none. -/
def slaveShown (f : FieldDie) (n : Nat) : Nat := if ptpOn f n then (chosenSlave f n).getD 31 else 31

theorem refreshRoles_eq (n : Nat) (f : FieldDie) : refreshRoles n f =
    refreshGm n (slaveChanged n (slavePort (forgotten n f) n)
      ((rolesShown n ((List.range 12).map (roleOf (forgotten n f) n)) (forgotten n f)).put (F_TIM_PTP_STAT_slave_port n)
        (slaveShown (forgotten n f) n))) := rfl

theorem refreshRoles_ptpMoves (n : Nat) (f : FieldDie) : PtpMoves (ptpRegs n) f (refreshRoles n f) := by
  rw [refreshRoles_eq]
  refine PtpMoves.trans ?_ ((refreshGm_softMoves n _).mono (gmRegs_sub n)).ptpMoves
  refine PtpMoves.trans ?_ ((slaveChanged_ptpMoves n _ _).mono (stateRegs_sub n))
  refine PtpMoves.trans (g := rolesShown n ((List.range 12).map (roleOf (forgotten n f) n)) (forgotten n f)) ?_
    (FieldDie.put_softMoves (r := F_TIM_PTP_STAT_slave_port n) (stateRegs_sub n List.mem_cons_self) _ _).ptpMoves
  refine PtpMoves.trans (g := forgotten n f) (setPtpX_ptpMoves f n _) ?_
  exact ((rolesShown_softMoves n _ _).mono fun _ h => List.mem_append_left _ h).ptpMoves

theorem refreshXc_timeMoves (f : FieldDie) : TimeMoves but f (refreshXc f) := by
  unfold refreshXc
  dsimp only
  exact .ite (.refl _ f) (setTim_timeMoves f _)

/-- The registers that both gPTP clocks' roles move. -/
def allPtpRegs : List Nat := ptpRegs 0 ++ ptpRegs 1

theorem refreshPtp_timeMoves (f : FieldDie) : TimeMoves allPtpRegs f (refreshPtp f) := by
  unfold refreshPtp
  refine TimeMoves.trans ?_ (refreshXc_timeMoves _)
  exact ((refreshRoles_ptpMoves 0 f).mono fun _ h => List.mem_append_left _ h).timeMoves.trans
    ((refreshRoles_ptpMoves 1 _).mono fun _ h => List.mem_append_right _ h).timeMoves

/-! ### The servo (R562, R563) -/

/-- The registers by which a domain is steered. -/
def steerRegs : List Nat :=
  [F_TIM_A_INC_LO, F_TIM_A_INC_HI, F_TIM_B_OFF_NS, F_TIM_B_OFF_SEC_LO, F_TIM_B_OFF_SEC_HI, F_TIM_B_ANCHOR_LO, F_TIM_B_ANCHOR_HI, F_TIM_B_RATE]

theorem setBOff_timeMoves (v : Nat) (f : FieldDie) : TimeMoves steerRegs f (setBOff v f) := by
  unfold setBOff
  dsimp only
  refine TimeMoves.trans (setTim_timeMoves f { f.tim with bOff := v }) (SoftMoves.timeMoves ?_)
  exact ((FieldDie.wrN_softMoves (by decide) _ _).trans (FieldDie.wrN_softMoves (by decide) _ _)).trans (FieldDie.wrN_softMoves (by decide) _ _)

theorem setRate_timeMoves (r : Nat) (f : FieldDie) : TimeMoves steerRegs f (setRate r f) := by
  unfold setRate
  dsimp only
  refine TimeMoves.trans (setBOff_timeMoves (domWrap ((f.tim.bOff : Int) + f.bDrift)) f) (SoftMoves.timeMoves ?_)
  exact ((FieldDie.wrN_softMoves (by decide) _ _).trans (FieldDie.wrN_softMoves (by decide) _ _)).trans (FieldDie.wrN_softMoves (by decide) _ _)

theorem applyY_timeMoves (d : Nat) (y : Int) (f : FieldDie) : TimeMoves steerRegs f (applyY d y f) := by
  unfold applyY
  exact .ite (setInc_softMoves (by decide) (by decide) _ f).timeMoves (setRate_timeMoves _ f)

theorem askStep_timeMoves (d : Nat) (v : Int) (f : FieldDie) : TimeMoves but f (askStep d v f) := by
  unfold askStep
  exact .ite (setTim_timeMoves f _) (setTim_timeMoves f _)

/-- The registers that the servo of gPTP clock `n` moves. -/
def servoRegs (n : Nat) : List Nat := F_TIM_PTP_FREQ n :: (stateRegs n ++ steerRegs)

theorem stateRegs_servo (n : Nat) : stateRegs n ⊆ servoRegs n := fun _ h => List.mem_cons_of_mem _ (List.mem_append_left _ h)

theorem steerRegs_servo (n : Nat) : steerRegs ⊆ servoRegs n := fun _ h => List.mem_cons_of_mem _ (List.mem_append_right _ h)

theorem servo_timeMoves (n d : Nat) (e : Int) (f : FieldDie) : TimeMoves (servoRegs n) f (servo n d e f) := by
  unfold servo
  split
  next =>
    refine TimeMoves.trans ?_ (askStep_timeMoves d _ _)
    refine TimeMoves.trans ?_ ((setPtpState_ptpMoves n 2 _).mono (stateRegs_servo n)).timeMoves
    exact (FieldDie.bump_softMoves (r := F_TIM_PTP_STAT_steps n) (stateRegs_servo n List.mem_cons_self) f 1).timeMoves
  next kp ki _ =>
    refine TimeMoves.trans ?_ ((applyY_timeMoves d _ _).mono (steerRegs_servo n))
    exact TimeMoves.trans (setPtpX_ptpMoves f n _).timeMoves (FieldDie.wrN_softMoves List.mem_cons_self _ _).timeMoves

end Sys2Proof.Machine
end


section
/-! What the gPTP engine sends (R553, R555 to R558): a message joins a queue as a new frame, and one of each kind goes out on each
port on which a gPTP clock sends. -/

namespace Sys2Proof.Machine

variable {but : List Nat} {f g h : FieldDie} {s : State} {n p q k m : Nat}

/-! ### A message of the engine (R558) -/

/-- From `f` to `g` the engine has queued `k` messages: only queues, frames and their registers have moved. -/
structure Sends (k : Nat) (f g : FieldDie) : Prop where
  low : LowSame f g
  regs : ∀ a, ¬ queueReg a → g.rd a = f.rd a
  nextId : g.buf.nextId = f.buf.nextId + k

theorem Sends.refl (f : FieldDie) : Sends 0 f f := ⟨.refl f, fun _ _ => rfl, rfl⟩

theorem Sends.trans (a : Sends k f g) (b : Sends m g h) : Sends (k + m) f h :=
  ⟨a.low.trans b.low, fun x hx => (b.regs x hx).trans (a.regs x hx), by rw [b.nextId, a.nextId]; omega⟩

theorem QueueMoves.sends (m : QueueMoves f g) : Sends 0 f g := ⟨m.low, m.regs, m.nextId⟩

/-- The die with one more frame, not yet queued. -/
def framed (fr : Frame) (f : FieldDie) : FieldDie :=
  { f with buf := { f.buf with frames := f.buf.frames ++ [fr], nextId := f.buf.nextId + 1 } }

theorem framed_sends (fr : Frame) (f : FieldDie) : Sends 1 f (framed fr f) := ⟨low_buf f _, fun _ _ => rfl, rfl⟩

theorem engineSend_sends (hn : n < 17) (hq : q < 8) (what : Option (Nat × Nat)) (msg : List Byte) (f : FieldDie) :
    Sends 1 f (engineSend n q what msg f) := by
  unfold engineSend
  exact (framed_sends _ f).trans (admitCopy_queueMoves hn hq _ _).sends

theorem forAll_sends {ps : List Nat} {e : Nat → FieldDie → FieldDie} (he : ∀ p ∈ ps, ∀ f, Sends 1 f (e p f)) (f : FieldDie) :
    Sends ps.length f (forAll ps e f) := by
  unfold forAll
  induction ps generalizing f with
  | nil => exact .refl f
  | cons p ps ih =>
    have rest := ih (fun x hx => he x (List.mem_cons_of_mem p hx)) (e p f)
    rw [List.length_cons, Nat.add_comm]
    exact (he p List.mem_cons_self f).trans rest

theorem ptp_of_side (h : g.side = f.side) : g.ptp = f.ptp := by
  have side_ptp : ∀ x : FieldDie, x.ptp = x.side.ptp := fun _ => rfl
  rw [side_ptp g, side_ptp f, h]

theorem LowSame.ptpX (a : LowSame f g) (n : Nat) : g.ptpX n = f.ptpX n := ptpX_of_ptp (ptp_of_side a.side) n

theorem LowSame.withPtp (a : LowSame f g) (x : List PtpX) : LowSame { f with ptp := x } { g with ptp := x } :=
  ⟨congrArg (fun r : FieldDie => { r with ptp := x }) a.side, a.rd⟩

theorem sendPorts_lt (h : p ∈ sendPorts f n) : p < 17 := by
  have := List.mem_range.1 (List.mem_filter.1 h).1
  omega

theorem ptpQueue_lt (f : FieldDie) (n : Nat) : f.get (F_TIM_PTP_CFG_queue n) < 8 := bitsOf_lt _ _ _

/-- The end of a command after which the engine has sent, and gPTP clock `n` goes on with the next sequenceId. -/
theorem sends_frame (x : PtpX → PtpX) (a : Sends k s.fld g) (n : Nat) :
    LowFrame [] { s.fld with ptp := (settle (g.setPtpX n x)).ptp } s { s with fld := settle (g.setPtpX n x) } := by
  rw [settle_ptp]
  exact ((a.low.withPtp (g.setPtpX n x).ptp).lowMoves []).frame rfl

/-- What a gPTP clock shows when a message has gone out on each of its ports. -/
theorem sends_settled (hs : Shape s) (hn : n < 2) (x : PtpX → PtpX) (a : Sends k s.fld g) :
    ((settle (g.setPtpX n x)).ptpX n) = x (s.fld.ptpX n) ∧ (settle (g.setPtpX n x)).buf.nextId = s.fld.buf.nextId + k := by
  have length : n < g.ptp.length := by rw [ptp_of_side a.low.side, hs.ptp]; exact hn
  refine ⟨?_, ?_⟩
  · rw [ptpX_of_ptp (settle_ptp _), ptpX_setPtpX_self length, a.low.ptpX]
  · rw [settle_nextId]
    exact a.nextId

/-- The die of which gPTP clock `n` has sent Sync. -/
def syncSent (n : Nat) (f : FieldDie) : FieldDie :=
  forAll (sendPorts f n) (fun p g => engineSend p (f.get (F_TIM_PTP_CFG_queue n)) (some (n, if oneStep g p then 1 else 0))
    (syncBytes g n p (f.ptpX n).seqSync) g) f

theorem syncSend_of_time (hon : ptpOn f n = true) (hpath : f.standbyPath = false)
    (h : actsAsGm f n = true ∨ (ptpState f n ≠ 4 ∧ (f.ptpX n).sync ≠ none)) :
    syncSend n f = (syncSent n f).setPtpX n (fun x => { x with seqSync := ((f.ptpX n).seqSync + 1) % 65536 }) := by
  unfold syncSend
  rw [if_neg]
  · rfl
  · rintro (hoff | hstand | ⟨hgm, hnone⟩)
    · rw [hon] at hoff; cases hoff
    · rw [hpath] at hstand; cases hstand
    · obtain h | ⟨hst, hsync⟩ := h
      · rw [h] at hgm; cases hgm
      · exact hnone.elim hst hsync

theorem syncSent_sends (n : Nat) (f : FieldDie) : Sends (sendPorts f n).length f (syncSent n f) :=
  forAll_sends (fun _ hp _ => engineSend_sends (sendPorts_lt hp) (ptpQueue_lt f n) _ _ _) f

theorem syncSend_clause (s : State) (n : Nat) (hr : s.fld.phase = .running) (hs : Shape s) (hn : n < 2) (hon : ptpOn s.fld n = true)
    (hpath : s.fld.standbyPath = false) (h : actsAsGm s.fld n = true ∨ (ptpState s.fld n ≠ 4 ∧ (s.fld.ptpX n).sync ≠ none)) :
    ∃ t, exec (.syncSend n) s = .next t ∧ (t.fld.ptpX n).seqSync = ((s.fld.ptpX n).seqSync + 1) % 65536 ∧
      t.fld.buf.nextId = s.fld.buf.nextId + (sendPorts s.fld n).length ∧ LowFrame [] { s.fld with ptp := t.fld.ptp } s t := by
  have step := State.onItem_running (g := syncSend n) hr hn
  rw [syncSend_of_time hon hpath h] at step
  have sends := syncSent_sends n s.fld
  generalize syncSent n s.fld = g at step sends
  obtain ⟨shown, nextId⟩ := sends_settled hs hn (fun x => { x with seqSync := ((s.fld.ptpX n).seqSync + 1) % 65536 }) sends
  exact ⟨_, step, congrArg PtpX.seqSync shown, nextId, sends_frame _ sends n⟩

/-! ### Announce (R555) -/

/-- The rest of an Announce after its header, its path trace, and the die: the clock's own, or the relayed one. -/
def announceParts (n : Nat) (f : FieldDie) : List Byte × List Nat × FieldDie :=
  match (if actsAsGm f n then none else (slavePort f n).bind (heardOn f n)) with
  | some m => (relayAnnounce m, pathTrace m ++ [ownClock f], f)
  | none => ((ownAnnounce n f).1, [ownClock f], (ownAnnounce n f).2)

/-- An Announce of gPTP clock `n` for port `p`, as the die `g` sends it. -/
def announceMessage (n : Nat) (parts : List Byte × List Nat × FieldDie) (g : FieldDie) (p : Nat) : List Byte :=
  ptpHeader g 11 (68 + 8 * parts.2.1.length) (g.get (F_TIM_PTP_CFG_domain_number n)) 0x0008 0 p (g.ptpX n).seqAnnounce
    (toSigned 4 (g.get (F_TIM_PTP_CFG_log_announce n))) ++ parts.1 ++
    (bytesBE 2 8 ++ bytesBE 2 (8 * parts.2.1.length) ++ parts.2.1.flatMap (bytesBE 8))

/-- The die of which gPTP clock `n` has sent Announce. -/
def announceSent (n : Nat) (parts : List Byte × List Nat × FieldDie) : FieldDie :=
  forAll (sendPorts parts.2.2 n) (fun p f => engineSend p (parts.2.2.get (F_TIM_PTP_CFG_queue n)) none
    (announceMessage n parts parts.2.2 p) f) parts.2.2

theorem announceSend_of_time (hon : ptpOn f n = true) (hpath : f.standbyPath = false)
    (h : actsAsGm f n = true ∨ (slavePort f n).bind (heardOn f n) ≠ none) : announceSend n f =
      (announceSent n (announceParts n f)).setPtpX n (fun x => { x with
        seqAnnounce := (((announceParts n f).2.2.ptpX n).seqAnnounce + 1) % 65536 }) := by
  unfold announceSend
  dsimp only
  rw [if_neg]
  · rfl
  · rintro (hoff | hstand | ⟨hgm, hnone⟩)
    · rw [hon] at hoff; cases hoff
    · rw [hpath] at hstand; cases hstand
    · obtain h | h := h
      · rw [h] at hgm; cases hgm
      · exact h hnone

/-- Choosing what an Announce says takes at most two values that the spec leaves open. -/
theorem announceParts_same (n : Nat) (f : FieldDie) : ∃ c, (announceParts n f).2.2 = { f with freeCtr := c } := by
  unfold announceParts
  split
  · exact ⟨f.freeCtr, rfl⟩
  · exact ⟨f.freeCtr + 1 + 1, rfl⟩

theorem announceSent_sends (n : Nat) (parts : List Byte × List Nat × FieldDie) :
    Sends (sendPorts parts.2.2 n).length parts.2.2 (announceSent n parts) :=
  forAll_sends (fun _ hp _ => engineSend_sends (sendPorts_lt hp) (ptpQueue_lt parts.2.2 n) _ _ _) parts.2.2

theorem announceSend_clause (s : State) (n : Nat) (hr : s.fld.phase = .running) (hs : Shape s) (hn : n < 2) (hon : ptpOn s.fld n = true)
    (hpath : s.fld.standbyPath = false) (h : actsAsGm s.fld n = true ∨ (slavePort s.fld n).bind (heardOn s.fld n) ≠ none) :
    ∃ t, exec (.announceSend n) s = .next t ∧ (t.fld.ptpX n).seqAnnounce = ((s.fld.ptpX n).seqAnnounce + 1) % 65536 ∧
      t.fld.buf.nextId = s.fld.buf.nextId + (sendPorts s.fld n).length ∧ LowFrame [] { s.fld with ptp := t.fld.ptp } s t := by
  have step := State.onItem_running (g := announceSend n) hr hn
  rw [announceSend_of_time hon hpath h] at step
  have sends := announceSent_sends n (announceParts n s.fld)
  obtain ⟨c, parts⟩ := announceParts_same n s.fld
  generalize announceSent n (announceParts n s.fld) = g at step sends
  rw [parts] at step sends
  have freed : Sends 0 s.fld { s.fld with freeCtr := c } := ⟨.ofEq rfl rfl, fun _ _ => rfl, rfl⟩
  have ports : sendPorts { s.fld with freeCtr := c } n = sendPorts s.fld n := rfl
  have all := freed.trans sends
  rw [ports, Nat.zero_add] at all
  obtain ⟨shown, nextId⟩ := sends_settled hs hn (fun x => { x with seqAnnounce := ((s.fld.ptpX n).seqAnnounce + 1) % 65536 }) all
  exact ⟨_, step, congrArg PtpX.seqAnnounce shown, nextId, sends_frame _ all n⟩

end Sys2Proof.Machine
end


section
/-! gPTP messages received (R552), and the loss of Sync (R556, R564, R565). -/

namespace Sys2Proof.Machine

variable {but : List Nat} {f g h : FieldDie} {s : State} {n p q k ts : Nat} {m : List Byte}

/-! ### Messages received (R552) -/

theorem ptpReceive_of_unknown (hen : f.flag (F_TIM_PORT_PDLY_ptp_en p) = true) (h2 : ptpType m ≠ 2) (h3 : ptpType m ≠ 3)
    (h10 : ptpType m ≠ 10) (hi : instOf f (ptpDomain m) = none) : ptpReceive p m ts f = f.count (cPort p 17) := by
  unfold ptpReceive
  dsimp only
  rw [if_neg (by rw [hen]; rintro ⟨-, h⟩; cases h), if_neg h2, if_neg (by rintro (h | h); exacts [h3 h, h10 h]), hi]

theorem ptpReceive_of_sync (hp : p < 12) (hen : f.flag (F_TIM_PORT_PDLY_ptp_en p) = true) (h0 : ptpType m = 0)
    (hi : instOf f (ptpDomain m) = some n) (hpath : f.standbyPath = false) :
    ptpReceive p m ts f = syncMsg n p m ts (f.count (cPort p 29)) := by
  have path : (f.count (cPort p 29)).standbyPath = false := hpath
  unfold ptpReceive
  dsimp only
  rw [if_neg (by rw [hen]; rintro ⟨-, h⟩; cases h), if_neg (by omega), if_neg (by omega), hi]
  dsimp only
  rw [if_pos h0, if_neg (by rw [path]; rintro (h | h); exacts [by omega, Bool.false_ne_true h]), if_pos h0]

theorem unknownDomain_clause (s : State) (p ts : Nat) (m : List Byte) (hr : s.fld.phase = .running) (hp : p < 12)
    (hen : s.fld.flag (F_TIM_PORT_PDLY_ptp_en p) = true) (h2 : ptpType m ≠ 2) (h3 : ptpType m ≠ 3) (h10 : ptpType m ≠ 10)
    (hi : instOf s.fld (ptpDomain m) = none) :
    ∃ t, exec (.ptpMessageReceive p m ts) s = .next t ∧ FieldFrame [] (s.fld.count (cPort p 17)) s t := by
  have step := State.onItem_running (g := ptpReceive p m ts) hr (show p < 16 by omega)
  rw [ptpReceive_of_unknown hen h2 h3 h10 hi] at step
  exact ⟨_, step, (SoftMoves.refl [] _).frame rfl⟩

/-- The time that a one-step Sync brings. -/
def syncHeard (n p ts : Nat) (m : List Byte) (f : FieldDie) : SyncTime :=
  { origin := ptpTime m, domTs := (heardInstant f p ts).dom (f.get (F_TIM_PTP_CFG_steer n)), localTs := (heardInstant f p ts).c
    corr := ptpCorr m, tlv := (m.drop 44).take 32 }

theorem syncMsg_oneStep (hp : slavePort f n = some p) (h : ptpTwoStep m = false) : syncMsg n p m ts f =
    f.setPtpX n (fun x => { x with sync := some (syncHeard n p ts m f), syncNew := true, pendingSync := none }) := by
  unfold syncMsg
  rw [if_neg (fun e => e hp)]
  dsimp only
  rw [h]
  rfl

theorem heardInstant_count (f : FieldDie) (i p ts : Nat) : heardInstant (f.count i) p ts = heardInstant f p ts := rfl

theorem syncHeard_count (f : FieldDie) (i n p ts : Nat) (m : List Byte) : syncHeard n p ts m (f.count i) = syncHeard n p ts m f := by
  unfold syncHeard
  rw [heardInstant_count]
  rfl

theorem sync_clause (s : State) (p ts n : Nat) (m : List Byte) (hr : s.fld.phase = .running) (hp : p < 12)
    (hen : s.fld.flag (F_TIM_PORT_PDLY_ptp_en p) = true) (h0 : ptpType m = 0) (hi : instOf s.fld (ptpDomain m) = some n)
    (hpath : s.fld.standbyPath = false) (hslave : slavePort s.fld n = some p) (htwo : ptpTwoStep m = false) (hs : Shape s) (hn : n < 2) :
    ∃ t, exec (.ptpMessageReceive p m ts) s = .next t ∧ (t.fld.ptpX n).syncNew = true ∧
      (∃ x, (t.fld.ptpX n).sync = some x ∧ x.origin = ptpTime m ∧ x.corr = ptpCorr m ∧
        x.domTs = (heardInstant s.fld p ts).dom (s.fld.get (F_TIM_PTP_CFG_steer n))) ∧
      (∀ k, k ≠ n → t.fld.ptpX k = s.fld.ptpX k) ∧ FieldFrame [] { s.fld.count (cPort p 29) with ptp := t.fld.ptp } s t := by
  have step := State.onItem_running (g := ptpReceive p m ts) hr (show p < 16 by omega)
  rw [ptpReceive_of_sync hp hen h0 hi hpath, syncMsg_oneStep (f := s.fld.count (cPort p 29)) hslave htwo, syncHeard_count] at step
  have length : n < (s.fld.count (cPort p 29)).ptp.length := by
    rw [show (s.fld.count (cPort p 29)).ptp = s.fld.ptp from rfl, hs.ptp]
    exact hn
  have shown := ptpX_setPtpX_self length
    (fun x => { x with sync := some (syncHeard n p ts m s.fld), syncNew := true, pendingSync := none })
  have others : ∀ k, k ≠ n → ((s.fld.count (cPort p 29)).setPtpX n (fun x => { x with
      sync := some (syncHeard n p ts m s.fld), syncNew := true, pendingSync := none })).ptpX k = s.fld.ptpX k :=
    fun k hk => (ptpX_setPtpX_ne hk _).trans rfl
  have moves := setPtpX_ptpMoves (but := []) (s.fld.count (cPort p 29)) n
    (fun x => { x with sync := some (syncHeard n p ts m s.fld), syncNew := true, pendingSync := none })
  generalize (s.fld.count (cPort p 29)).setPtpX n _ = g at step shown others moves
  have kept : ∀ k, (settle g).ptpX k = g.ptpX k := ptpX_of_ptp (settle_ptp g)
  refine ⟨_, step, ?_, ⟨syncHeard n p ts m s.fld, ?_, rfl, rfl, rfl⟩, fun k hk => (kept k).trans (others k hk), ?_⟩
  · rw [kept, shown]
  · rw [kept, shown]
  · dsimp only
    rw [settle_ptp]
    exact SoftMoves.frame moves rfl

/-! ### No Sync (R556, R564, R565) -/

theorem stateRegs_ge : ∀ a ∈ stateRegs n, 0x140000 ≤ a := by
  unfold stateRegs F_TIM_PTP_STAT F_TIM_EVT F_TIM_EVT_INFO
  simp only [List.mem_cons, List.not_mem_nil, or_false]
  omega

theorem gmRegs_ge : ∀ a ∈ gmRegs n, 0x140000 ≤ a := by
  unfold gmRegs F_TIM_PTP_GM_HI F_TIM_PTP_GM_LO F_TIM_EVT F_TIM_EVT_INFO
  simp only [List.mem_cons, List.not_mem_nil, or_false]
  omega

theorem SoftMoves.lowAbove (m : SoftMoves but f g) (h : ∀ a ∈ but, 0x140000 ≤ a) : LowMoves [] f g :=
  ⟨side_of_rest m.rest, fun a ha _ hc => m.rd_eq (fun hm => absurd (h a hm) (by omega)) hc⟩

theorem PtpMoves.frame (m : PtpMoves but s.fld g) (h : ∀ a ∈ but, 0x140000 ≤ a) :
    LowFrame [] { s.fld with ptp := (settle g).ptp } s { s with fld := settle g } := by
  rw [settle_ptp]
  exact (SoftMoves.lowAbove m h).frame rfl

theorem TimeMoves.frame (m : TimeMoves but s.fld g) (h : ∀ a ∈ but, 0x140000 ≤ a) :
    LowFrame [] { s.fld with ptp := (settle g).ptp, tim := (settle g).tim } s { s with fld := settle g } := by
  rw [settle_ptp, settle_tim]
  exact (SoftMoves.lowAbove m h).frame rfl

/-- The registers that a gPTP clock's state and grandmaster move. -/
def lossOfSyncRegs (n : Nat) : List Nat := F_TIM_SYS :: (stateRegs n ++ gmRegs n)

theorem lossOfSyncRegs_ge : ∀ a ∈ lossOfSyncRegs n, 0x140000 ≤ a := by
  intro a ha
  obtain rfl | ha := List.mem_cons.1 ha
  · decide
  · exact (List.mem_append.1 ha).elim (stateRegs_ge a) (gmRegs_ge a)

theorem stateRegs_loss : stateRegs n ⊆ lossOfSyncRegs n := fun _ h => List.mem_cons_of_mem _ (List.mem_append_left _ h)

theorem gmRegs_loss : gmRegs n ⊆ lossOfSyncRegs n := fun _ h => List.mem_cons_of_mem _ (List.mem_append_right _ h)

theorem ptpStat_notMem_gmRegs (hn : n < 2) : F_TIM_PTP_STAT n ∉ gmRegs n := by
  unfold gmRegs F_TIM_PTP_GM_HI F_TIM_PTP_GM_LO F_TIM_EVT F_TIM_EVT_INFO F_TIM_PTP_STAT
  simp only [List.mem_cons, List.not_mem_nil, or_false, not_or]
  omega

theorem ptpState_refreshGm (hn : n < 2) (f : FieldDie) : ptpState (refreshGm n f) n = ptpState f n :=
  (refreshGm_softMoves n f).get_eq (r := F_TIM_PTP_STAT_state n) (ptpStat_notMem_gmRegs hn) (ptpStat_notMem hn)

theorem ptpState_settle (hn : n < 2) (f : FieldDie) : ptpState (settle f) n = ptpState f n :=
  settle_get_of_notMem (r := F_TIM_PTP_STAT_state n) (ptpStat_notMem hn)

/-- A report of another event leaves the events there. -/
theorem timeEvt_kept {bit j : Nat} (hb : bit < 16) (hj : j < 16) (index : Nat) (h : f.sq F_TIM_EVT j = true) :
    (timeEvt bit index f).sq F_TIM_EVT j = true := by
  have shown : (f.put F_TIM_EVT_INFO_index index).sq F_TIM_EVT j = true :=
    (FieldDie.sq_eq (FieldDie.rd_put_ne _ _ _ _ (by decide))).trans h
  exact sq_raise (by decide) hb hj shown

theorem refreshGm_kept {j : Nat} (hj : j < 16) (h : f.sq F_TIM_EVT j = true) : (refreshGm n f).sq F_TIM_EVT j = true := by
  have set : ∀ id, (setGm n id f).sq F_TIM_EVT j = true := by
    intro id
    unfold setGm
    split
    · exact h
    · refine timeEvt_kept (by decide) hj n ((FieldDie.sq_eq ?_).trans h)
      rw [FieldDie.rd_wrN, if_neg (by unfold F_TIM_EVT F_TIM_PTP_GM_LO; omega), FieldDie.rd_wrN,
        if_neg (by unfold F_TIM_EVT F_TIM_PTP_GM_HI; omega)]
  unfold refreshGm
  split
  · exact h
  · split
    · exact set _
    · split
      · exact set _
      · exact h

/-- The registers that a switch of the domain moves. -/
def switchRegs : List Nat := [F_TIM_SYS, F_TIM_EVT, F_TIM_EVT_INFO]

theorem switchTo_timeMoves (y : Nat) (f : FieldDie) : TimeMoves switchRegs f (switchTo y f) := by
  unfold switchTo
  dsimp only
  refine .ite (timeEvt_soft (by decide) 3 y f).timeMoves ?_
  refine TimeMoves.trans ?_ (timeEvt_soft (by decide) 2 y _).timeMoves
  exact TimeMoves.trans (setTim_timeMoves f { f.tim with
    delta := domDiff ((f.dom f.activeDom : Int) + f.tim.delta - (f.dom y : Int)), timeDue := true })
    (FieldDie.put_softMoves (by decide) _ y).timeMoves

theorem switchTo_kept {j : Nat} (hj : j < 16) (y : Nat) (h : f.sq F_TIM_EVT j = true) : (switchTo y f).sq F_TIM_EVT j = true := by
  unfold switchTo
  dsimp only
  split
  · exact timeEvt_kept (by decide) hj y h
  · exact timeEvt_kept (by decide) hj y ((FieldDie.sq_eq (FieldDie.rd_put_ne _ _ _ _ (by decide))).trans h)

theorem autoSwitch_timeMoves (n : Nat) (f : FieldDie) : TimeMoves switchRegs f (autoSwitch n f) := by
  unfold autoSwitch
  exact .ite (switchTo_timeMoves _ f) (.refl _ f)

theorem autoSwitch_kept {j : Nat} (hj : j < 16) (h : f.sq F_TIM_EVT j = true) : (autoSwitch n f).sq F_TIM_EVT j = true := by
  unfold autoSwitch
  dsimp only
  split
  · exact switchTo_kept hj _ h
  · exact h

theorem ptpState_autoSwitch (hn : n < 2) (f : FieldDie) : ptpState (autoSwitch n f) n = ptpState f n := by
  refine (autoSwitch_timeMoves n f).get_eq (r := F_TIM_PTP_STAT_state n) ?_ (ptpStat_notMem hn)
  show F_TIM_PTP_STAT n ∉ switchRegs
  unfold switchRegs F_TIM_SYS F_TIM_EVT F_TIM_EVT_INFO F_TIM_PTP_STAT
  simp only [List.mem_cons, List.not_mem_nil, or_false, not_or]
  omega

theorem setPtpState_lost (h : ptpState f n ≠ 4) : (setPtpState n 4 f).sq F_TIM_EVT 7 = true := by
  rw [setPtpState_eq, if_neg h, if_neg (by decide), if_pos (.inr rfl)]
  exact timeEvt_raises (by decide) n _

theorem syncTimeout_of_free (hon : ptpOn f n = true) (hpath : f.standbyPath = false) (h : slavePort f n = none) :
    syncTimeout n f = refreshGm n (setPtpState n 1 f) := by
  unfold syncTimeout
  rw [if_neg (by rw [hon, hpath]; rintro (h | h); exacts [Bool.false_ne_true h.symm, Bool.false_ne_true h]), h]

theorem syncTimeout_of_late (hon : ptpOn f n = true) (hpath : f.standbyPath = false) (h : slavePort f n = some p) (h4 : ptpState f n ≠ 4)
    (hlate : (f.ptpX n).lastSync + f.get (F_TIM_PTP_TO_sync_to n) *
      intervalTicks (toSigned 4 (f.get (F_TIM_PTP_CFG_log_sync n))) ≤ f.now) :
    syncTimeout n f = refreshGm n (autoSwitch n (setPtpState n 4 f)) := by
  unfold syncTimeout
  rw [if_neg (by rw [hon, hpath]; rintro (h | h); exacts [Bool.false_ne_true h.symm, Bool.false_ne_true h]), h]
  dsimp only
  rw [if_neg (by rintro (h | h); exacts [h4 h, by omega])]

theorem syncTimeout_clause (s : State) (n : Nat) (hr : s.fld.phase = .running) (hn : n < 2) (hon : ptpOn s.fld n = true)
    (hpath : s.fld.standbyPath = false) :
    (slavePort s.fld n = none → ∃ t, exec (.syncTimeout n) s = .next t ∧ ptpState t.fld n = 1 ∧
      LowFrame [] { s.fld with ptp := t.fld.ptp } s t) ∧
    (slavePort s.fld n ≠ none → ptpState s.fld n ≠ 4 →
      (s.fld.ptpX n).lastSync + s.fld.get (F_TIM_PTP_TO_sync_to n) *
        intervalTicks (toSigned 4 (s.fld.get (F_TIM_PTP_CFG_log_sync n))) ≤ s.fld.now →
      ∃ t, exec (.syncTimeout n) s = .next t ∧ ptpState t.fld n = 4 ∧ t.fld.sq F_TIM_EVT 7 = true ∧
        LowFrame [] { s.fld with ptp := t.fld.ptp, tim := t.fld.tim } s t) := by
  have step := State.onItem_running (g := syncTimeout n) hr hn
  refine ⟨fun hfree => ?_, fun hslave h4 hlate => ?_⟩
  · rw [syncTimeout_of_free hon hpath hfree] at step
    have free := ptpState_setPtpState hn (st := 1) (by decide) s.fld
    have moves := ((setPtpState_ptpMoves n 1 s.fld).mono stateRegs_loss).trans
      ((refreshGm_softMoves n _).mono gmRegs_loss).ptpMoves
    exact ⟨_, step, (ptpState_settle hn _).trans ((ptpState_refreshGm hn _).trans free), moves.frame lossOfSyncRegs_ge⟩
  · obtain ⟨p, hp⟩ := Option.ne_none_iff_exists'.1 hslave
    rw [syncTimeout_of_late hon hpath hp h4 hlate] at step
    have lost := ptpState_setPtpState hn (st := 4) (by decide) s.fld
    have told := setPtpState_lost h4
    have first := ((setPtpState_ptpMoves n 4 s.fld).mono stateRegs_loss).timeMoves
    generalize setPtpState n 4 s.fld = g at step lost told first
    have switch : switchRegs ⊆ lossOfSyncRegs n := by
      intro a ha
      obtain rfl | ha := List.mem_cons.1 ha
      · exact List.mem_cons_self
      · exact stateRegs_loss (List.mem_cons_of_mem _ ha)
    have moves := (first.trans ((autoSwitch_timeMoves n g).mono switch)).trans
      ((refreshGm_softMoves n _).mono gmRegs_loss).timeMoves
    refine ⟨_, step, ?_, ?_, moves.frame lossOfSyncRegs_ge⟩
    · exact (ptpState_settle hn _).trans ((ptpState_refreshGm hn _).trans ((ptpState_autoSwitch hn g).trans lost))
    · exact (settle_sq_of_notMem (by decide)).trans (refreshGm_kept (by decide) (autoSwitch_kept (by decide) told))

end Sys2Proof.Machine
end


section
/-! SYNC_RECEIVE (R561 to R564): a new time gives an offset, and the servo takes it. -/

namespace Sys2Proof.Machine

variable {but : List Nat} {f g h : FieldDie} {s : State} {n p q k ts : Nat} {e : Int}

/-! ### The gPTP clocks' records through the shared steps -/

theorem setPtpX_length (f : FieldDie) (n : Nat) (x : PtpX → PtpX) : (f.setPtpX n x).ptp.length = f.ptp.length := by
  unfold FieldDie.setPtpX modAt
  exact List.length_modify ..

/-- What a change of a gPTP clock's record leaves alone. -/
theorem ptpX_setPtpX_keeps {β : Type} (v : PtpX → β) {x : PtpX → PtpX} (hx : ∀ y, v (x y) = v y) (f : FieldDie) (n : Nat) :
    v ((f.setPtpX n x).ptpX n) = v (f.ptpX n) := by
  by_cases hn : n < f.ptp.length
  · rw [ptpX_setPtpX_self hn, hx]
  · have outside : ∀ g : FieldDie, g.ptp.length = f.ptp.length → g.ptpX n = {} := fun g hg => by
      unfold FieldDie.ptpX
      rw [List.getD_eq_getElem?_getD, List.getElem?_eq_none (by omega)]
      rfl
    rw [outside _ (setPtpX_length f n x), outside f rfl]

/-- What the lock counts do not touch in a gPTP clock's record. -/
def Uncounted {β : Type} (v : PtpX → β) : Prop := ∀ (y : PtpX) (good bad : Nat), v { y with good := good, badRun := bad } = v y

theorem timeEvt_ptpX (bit index : Nat) (f : FieldDie) (n : Nat) : (timeEvt bit index f).ptpX n = f.ptpX n :=
  (timeEvt_soft (but := [F_TIM_EVT_INFO, F_TIM_EVT]) (by decide) bit index f).ptpX n

theorem timeEvt_ptp (bit index : Nat) (f : FieldDie) : (timeEvt bit index f).ptp = f.ptp :=
  ptp_of_rest (timeEvt_soft (but := [F_TIM_EVT_INFO, F_TIM_EVT]) (by decide) bit index f).rest

theorem stateEntered_keeps {β : Type} {v : PtpX → β} (hv : Uncounted v) (n st : Nat) (f : FieldDie) :
    v ((stateEntered n st f).ptpX n) = v (f.ptpX n) := by
  have put : (f.put (F_TIM_PTP_STAT_state n) st).ptpX n = f.ptpX n := ptpX_of_ptp (FieldDie.put_ptp _ _ _) n
  exact (ptpX_setPtpX_keeps v (fun y => hv y 0 0) _ n).trans (congrArg v put)

theorem stateEntered_length (n st : Nat) (f : FieldDie) : (stateEntered n st f).ptp.length = f.ptp.length :=
  (setPtpX_length _ n _).trans (congrArg List.length (FieldDie.put_ptp f (F_TIM_PTP_STAT_state n) st))

theorem setPtpState_keeps {β : Type} {v : PtpX → β} (hv : Uncounted v) (n st : Nat) (f : FieldDie) :
    v ((setPtpState n st f).ptpX n) = v (f.ptpX n) := by
  have entered := stateEntered_keeps hv n st f
  rw [setPtpState_eq]
  split
  · rfl
  · split
    · rw [timeEvt_ptpX, entered]
    · split
      · rw [timeEvt_ptpX, entered]
      · exact entered

theorem setPtpState_length (n st : Nat) (f : FieldDie) : (setPtpState n st f).ptp.length = f.ptp.length := by
  have entered := stateEntered_length n st f
  rw [setPtpState_eq]
  split
  · rfl
  · split
    · rw [timeEvt_ptp, entered]
    · split
      · rw [timeEvt_ptp, entered]
      · exact entered

/-! ### The lock counts (R564) -/

/-- The die whose lock counts have taken offset `e`. -/
def lockCounted (n : Nat) (e : Int) (f : FieldDie) : FieldDie :=
  let near := decide (e.natAbs ≤ f.get (F_TIM_PTP_LOCK_lock_ns n))
  f.setPtpX n (fun x => { x with good := if near then x.good + 1 else 0, badRun := if near then 0 else x.badRun + 1 })

theorem servoLock_eq (n : Nat) (e : Int) (f : FieldDie) : servoLock n e f =
    if ptpState (lockCounted n e f) n = 2 ∧ max 1 (f.get (F_TIM_PTP_LOCK_lock_n n)) ≤ ((lockCounted n e f).ptpX n).good then
      setPtpState n 3 (lockCounted n e f)
    else if ptpState (lockCounted n e f) n = 3 ∧ max 1 (f.get (F_TIM_PTP_LOCK_lock_n n)) ≤ ((lockCounted n e f).ptpX n).badRun then
      setPtpState n 2 (lockCounted n e f)
    else lockCounted n e f := rfl

theorem servoLock_ptpMoves (n : Nat) (e : Int) (f : FieldDie) : PtpMoves (stateRegs n) f (servoLock n e f) := by
  have counted : PtpMoves (stateRegs n) f (lockCounted n e f) := setPtpX_ptpMoves f n _
  rw [servoLock_eq]
  exact .ite (counted.trans (setPtpState_ptpMoves n 3 _)) (.ite (counted.trans (setPtpState_ptpMoves n 2 _)) counted)

theorem servoLock_keeps {β : Type} {v : PtpX → β} (hv : Uncounted v) (n : Nat) (e : Int) (f : FieldDie) :
    v ((servoLock n e f).ptpX n) = v (f.ptpX n) := by
  have counted : v ((lockCounted n e f).ptpX n) = v (f.ptpX n) := ptpX_setPtpX_keeps v (fun y => hv y _ _) f n
  rw [servoLock_eq]
  split
  · rw [setPtpState_keeps hv, counted]
  · split
    · rw [setPtpState_keeps hv, counted]
    · exact counted

/-! ### The servo (R562, R563) -/

theorem servo_of_outside (h : servoEntry f n e = none) (d : Nat) : servo n d e f =
    askStep d (-e) (setPtpState n 2 (f.bump (F_TIM_PTP_STAT_steps n) 1)) := by
  unfold servo
  rw [h]

/-- The integral after offset `e`, and the correction that follows. -/
def servoIntegral (f : FieldDie) (n ki : Nat) (e : Int) : Int := (f.ptpX n).integral + (ki : Int) * e

/-- The correction that the gains give. -/
def servoOutput (f : FieldDie) (n kp ki : Nat) (e : Int) : Int := limitY (-((kp : Int) * e + servoIntegral f n ki e))

/-- The die whose integral has grown and whose correction is shown. -/
def servoShown (n kp ki : Nat) (e : Int) (f : FieldDie) : FieldDie :=
  (f.setPtpX n (fun x => { x with integral := servoIntegral f n ki e })).wrN (F_TIM_PTP_FREQ n) (ofSigned 32 (servoOutput f n kp ki e))

theorem servo_of_inside {kp ki : Nat} (h : servoEntry f n e = some (kp, ki)) (d : Nat) :
    servo n d e f = applyY d (servoOutput f n kp ki e) (servoShown n kp ki e f) := by
  unfold servo
  rw [h]
  rfl

theorem bump_ptpX (f : FieldDie) (r : Fld) (v : Nat) (n : Nat) : (f.bump r v).ptpX n = f.ptpX n :=
  (FieldDie.bump_softMoves (but := [r.addr]) List.mem_cons_self f v).ptpX n

theorem setPtpState_tim (n st : Nat) (f : FieldDie) : (setPtpState n st f).tim = f.tim := (setPtpState_ptpMoves n st f).tim

theorem askStep_ptpX (d : Nat) (v : Int) (f : FieldDie) (n : Nat) : (askStep d v f).ptpX n = f.ptpX n := by
  unfold askStep
  split
  · rfl
  · rfl

theorem setBOff_ptp (v : Nat) (f : FieldDie) : (setBOff v f).ptp = f.ptp := by
  unfold setBOff
  dsimp only
  rw [FieldDie.wrN_ptp, FieldDie.wrN_ptp, FieldDie.wrN_ptp]

theorem applyY_ptp (d : Nat) (y : Int) (f : FieldDie) : (applyY d y f).ptp = f.ptp := by
  unfold applyY
  split
  · unfold setInc
    rw [FieldDie.wrN_ptp, FieldDie.wrN_ptp]
  · unfold setRate
    dsimp only
    rw [FieldDie.wrN_ptp, FieldDie.wrN_ptp, FieldDie.wrN_ptp, setBOff_ptp]

theorem applyY_ptpX (d : Nat) (y : Int) (f : FieldDie) (n : Nat) : (applyY d y f).ptpX n = f.ptpX n := ptpX_of_ptp (applyY_ptp d y f) n

/-- What neither the lock counts nor the integral touch. -/
theorem servo_keeps {β : Type} {v : PtpX → β} (hv : Uncounted v) (hi : ∀ (y : PtpX) (i : Int), v { y with integral := i } = v y)
    (n d : Nat) (e : Int) (f : FieldDie) : v ((servo n d e f).ptpX n) = v (f.ptpX n) := by
  cases h : servoEntry f n e with
  | none => rw [servo_of_outside h, askStep_ptpX, setPtpState_keeps hv, bump_ptpX]
  | some gains =>
    obtain ⟨kp, ki⟩ := gains
    rw [servo_of_inside h, applyY_ptpX]
    exact ptpX_setPtpX_keeps v (fun y => hi y _) f n

/-- Outside the curve the servo asks for a step. -/
theorem servo_asks (h : servoEntry f n e = none) :
    (servo n 0 e f).tim.aStep = some (f.tim.aStep.getD 0 - e) ∧ (servo n 1 e f).tim.bStep = some (f.tim.bStep.getD 0 - e) := by
  have tim : (setPtpState n 2 (f.bump (F_TIM_PTP_STAT_steps n) 1)).tim = f.tim :=
    (setPtpState_tim n 2 _).trans (tim_of_rest (FieldDie.bump_softMoves (but := [F_TIM_PTP_STAT n]) (r := F_TIM_PTP_STAT_steps n)
      List.mem_cons_self f 1).rest)
  rw [servo_of_outside h, servo_of_outside h]
  generalize setPtpState n 2 (f.bump (F_TIM_PTP_STAT_steps n) 1) = g at tim
  unfold askStep
  rw [if_pos rfl, if_neg (by decide), ← tim, Int.sub_eq_add_neg, Int.sub_eq_add_neg]
  exact ⟨rfl, rfl⟩

theorem ofSigned_lt (i : Int) : ofSigned 32 i < 2 ^ 32 := by
  unfold ofSigned
  omega

theorem freq_notMem (hn : n < 2) : F_TIM_PTP_FREQ n ∉ steerRegs ∧ F_TIM_PTP_FREQ n ∉ stateRegs n ∧ F_TIM_PTP_FREQ n ∉ gmRegs n ∧
    F_TIM_PTP_FREQ n ∉ coverRegs := by
  refine ⟨?_, ?_, ?_, timeReg_notMem (by unfold F_TIM_PTP_FREQ; omega)⟩
  all_goals
    simp only [steerRegs, stateRegs, gmRegs, List.mem_cons, List.not_mem_nil, or_false, not_or]
    unfold F_TIM_PTP_FREQ
    simp only [F_TIM_A_INC_LO, F_TIM_A_INC_HI, F_TIM_B_OFF_NS, F_TIM_B_OFF_SEC_LO, F_TIM_B_OFF_SEC_HI, F_TIM_B_ANCHOR_LO, F_TIM_B_ANCHOR_HI,
      F_TIM_B_RATE, F_TIM_PTP_STAT, F_TIM_EVT, F_TIM_EVT_INFO, F_TIM_PTP_GM_HI, F_TIM_PTP_GM_LO]
    omega

/-- Inside the curve the integral grows and the correction is shown. -/
theorem servo_corrects (hn : n < 2) (hlen : f.ptp.length = 2) {kp ki : Nat} (h : servoEntry f n e = some (kp, ki)) (d : Nat) :
    ((servo n d e f).ptpX n).integral = servoIntegral f n ki e ∧
      (servo n d e f).rdN (F_TIM_PTP_FREQ n) = ofSigned 32 (servoOutput f n kp ki e) := by
  rw [servo_of_inside h, applyY_ptpX]
  refine ⟨?_, ?_⟩
  · have shown : (servoShown n kp ki e f).ptpX n = { f.ptpX n with integral := servoIntegral f n ki e } :=
      ptpX_setPtpX_self (by omega) _
    rw [shown]
  · rw [(applyY_timeMoves d _ _).rdN_eq (freq_notMem hn).1 (freq_notMem hn).2.2.2]
    exact FieldDie.rdN_wrN_same (ofSigned_lt _) _ _

/-! ### A new time (R561) -/

/-- The die that shows offset `e` of gPTP clock `n` and has taken its time. -/
def offsetTaken (n : Nat) (e : Int) (f : FieldDie) : FieldDie :=
  (f.wrN (F_TIM_PTP_OFFS n) (ofSigned 32 e)).setPtpX n (fun x => { x with syncNew := false, afterWake := false, lastSync := f.now })

/-- The same die with the gPTP clock at least UNLOCKED. -/
def offsetEntered (n : Nat) (e : Int) (f : FieldDie) : FieldDie :=
  if ptpState (offsetTaken n e f) n = 3 then offsetTaken n e f else setPtpState n 2 (offsetTaken n e f)

theorem syncReceive_of_new {x : SyncTime} (hx : (f.ptpX n).sync = some x) (hon : ptpOn f n = true) (hpath : f.standbyPath = false)
    (hp : slavePort f n = some p) (hnew : (f.ptpX n).syncNew = true) (hlo : -(2 ^ 31) ≤ syncOffset f p x)
    (hhi : syncOffset f p x < 2 ^ 31) (hwake : (f.ptpX n).afterWake = false) :
    syncReceive n p f = refreshGm n (servoLock n (syncOffset f p x)
      (servo n ((offsetEntered n (syncOffset f p x) f).get (F_TIM_PTP_CFG_steer n)) (syncOffset f p x) (offsetEntered n (syncOffset f p x) f))) := by
  have fits : nsWord (syncOffset f p x) f = (ofSigned 32 (syncOffset f p x), f) := if_pos ⟨hlo, hhi⟩
  have awake : ((f.wrN (F_TIM_PTP_OFFS n) (ofSigned 32 (syncOffset f p x))).ptpX n).afterWake = false := hwake
  unfold syncReceive
  rw [hx]
  dsimp only
  rw [if_neg (by rw [hon, hpath, hp, hnew]; simp), fits]
  dsimp only
  rw [awake]
  rfl

/-- The registers that a new offset moves ahead of the servo. -/
def offsetRegs (n : Nat) : List Nat := F_TIM_PTP_OFFS n :: stateRegs n

theorem offsetTaken_ptpMoves (n : Nat) (e : Int) (f : FieldDie) : PtpMoves (offsetRegs n) f (offsetTaken n e f) :=
  PtpMoves.trans (FieldDie.wrN_softMoves List.mem_cons_self f _).ptpMoves (setPtpX_ptpMoves _ n _)

theorem offsetEntered_ptpMoves (n : Nat) (e : Int) (f : FieldDie) : PtpMoves (offsetRegs n) f (offsetEntered n e f) :=
  .ite (offsetTaken_ptpMoves n e f)
    ((offsetTaken_ptpMoves n e f).trans ((setPtpState_ptpMoves n 2 _).mono fun _ h => List.mem_cons_of_mem _ h))

theorem offsetTaken_ptpX (hlen : f.ptp.length = 2) (hn : n < 2) (e : Int) :
    (offsetTaken n e f).ptpX n = { f.ptpX n with syncNew := false, afterWake := false, lastSync := f.now } :=
  ptpX_setPtpX_self (f := f.wrN (F_TIM_PTP_OFFS n) (ofSigned 32 e)) (by show n < f.ptp.length; omega) _

theorem offsetEntered_keeps {β : Type} {v : PtpX → β} (hv : Uncounted v) (n : Nat) (e : Int) (f : FieldDie) :
    v ((offsetEntered n e f).ptpX n) = v ((offsetTaken n e f).ptpX n) := by
  unfold offsetEntered
  split
  · rfl
  · exact setPtpState_keeps hv n 2 _

theorem offsetEntered_length (n : Nat) (e : Int) (f : FieldDie) : (offsetEntered n e f).ptp.length = f.ptp.length := by
  have taken : (offsetTaken n e f).ptp.length = f.ptp.length := setPtpX_length _ n _
  unfold offsetEntered
  split
  · exact taken
  · exact (setPtpState_length n 2 _).trans taken

theorem offs_ne (hn : n < 2) : F_TIM_PTP_OFFS n ∉ stateRegs n ∧ F_TIM_PTP_OFFS n ∉ servoRegs n ∧ F_TIM_PTP_OFFS n ∉ gmRegs n ∧
    F_TIM_PTP_OFFS n ∉ coverRegs := by
  refine ⟨?_, ?_, ?_, timeReg_notMem (by unfold F_TIM_PTP_OFFS; omega)⟩
  all_goals
    simp only [servoRegs, steerRegs, stateRegs, gmRegs, List.mem_cons, List.mem_append, List.not_mem_nil, or_false, not_or]
    simp only [F_TIM_PTP_OFFS, F_TIM_PTP_FREQ, F_TIM_A_INC_LO, F_TIM_A_INC_HI, F_TIM_B_OFF_NS, F_TIM_B_OFF_SEC_LO, F_TIM_B_OFF_SEC_HI,
      F_TIM_B_ANCHOR_LO, F_TIM_B_ANCHOR_HI, F_TIM_B_RATE, F_TIM_PTP_STAT, F_TIM_EVT, F_TIM_EVT_INFO, F_TIM_PTP_GM_HI, F_TIM_PTP_GM_LO]
    omega

theorem offsetEntered_offs (hn : n < 2) (e : Int) (f : FieldDie) : (offsetEntered n e f).rdN (F_TIM_PTP_OFFS n) = ofSigned 32 e := by
  have taken : (offsetTaken n e f).rdN (F_TIM_PTP_OFFS n) = ofSigned 32 e := FieldDie.rdN_wrN_same (ofSigned_lt e) f _
  unfold offsetEntered
  split
  · exact taken
  · exact ((setPtpState_ptpMoves n 2 _).rdN_eq (offs_ne hn).1 (offs_ne hn).2.2.2).trans taken

theorem offsetRegs_notMem (hn : n < 2) {a : Nat} (ha : 0x590000 ≤ a ∨ a = F_TIM_PTP_CFG n) : a ∉ offsetRegs n ∧ a ∉ coverRegs := by
  simp only [offsetRegs, stateRegs, coverRegs, List.mem_cons, List.not_mem_nil, or_false, not_or]
  simp only [F_TIM_PTP_CFG, F_TIM_PTP_OFFS, F_TIM_PTP_STAT, F_TIM_EVT, F_TIM_EVT_INFO, F_FLT_COVER, F_FLT_EVT2, F_XNG_EVT] at *
  omega

theorem offsetEntered_curve (hn : n < 2) (e : Int) (f : FieldDie) :
    servoEntry (offsetEntered n e f) n e = servoEntry f n e ∧
      (offsetEntered n e f).get (F_TIM_PTP_CFG_steer n) = f.get (F_TIM_PTP_CFG_steer n) := by
  have moves := offsetEntered_ptpMoves n e f
  have word : ∀ i w, servoWord (offsetEntered n e f) n i w = servoWord f n i w := fun i w => by
    obtain ⟨ha, hc⟩ := offsetRegs_notMem hn (a := 0x590000 + 8 * (16 * n + i) + 4 * w) (.inl (by omega))
    exact moves.rdN_eq ha hc
  obtain ⟨ha, hc⟩ := offsetRegs_notMem hn (a := F_TIM_PTP_CFG n) (.inr rfl)
  refine ⟨?_, moves.get_eq (r := F_TIM_PTP_CFG_steer n) ha hc⟩
  unfold servoEntry
  simp only [word]

/-- The registers that a new offset moves. -/
def syncRegs (n : Nat) : List Nat := offsetRegs n ++ (servoRegs n ++ gmRegs n)

theorem steerRegs_ge : ∀ a ∈ steerRegs, 0x140000 ≤ a := by decide

theorem syncRegs_ge : ∀ a ∈ syncRegs n, 0x140000 ≤ a := by
  intro a ha
  simp only [syncRegs, offsetRegs, servoRegs, List.mem_append, List.mem_cons] at ha
  obtain (rfl | ha) | (rfl | ha | ha) | ha := ha
  · unfold F_TIM_PTP_OFFS; omega
  · exact stateRegs_ge a ha
  · unfold F_TIM_PTP_FREQ; omega
  · exact stateRegs_ge a ha
  · exact steerRegs_ge a ha
  · exact gmRegs_ge a ha

theorem servoRegs_sync : servoRegs n ⊆ syncRegs n := fun _ h => List.mem_append_right _ (List.mem_append_left _ h)

theorem gmRegs_sync : gmRegs n ⊆ syncRegs n := fun _ h => List.mem_append_right _ (List.mem_append_right _ h)

theorem offsetRegs_sync : offsetRegs n ⊆ syncRegs n := fun _ h => List.mem_append_left _ h

/-- The end of a new offset: the lock counts, and the grandmaster that may change with the state. -/
def offsetEnded (n : Nat) (e : Int) (f : FieldDie) : FieldDie := refreshGm n (servoLock n e f)

theorem offsetEnded_ptpMoves (n : Nat) (e : Int) (f : FieldDie) : PtpMoves (stateRegs n ++ gmRegs n) f (offsetEnded n e f) :=
  ((servoLock_ptpMoves n e f).mono fun _ h => List.mem_append_left _ h).trans
    ((refreshGm_softMoves n _).mono fun _ h => List.mem_append_right _ h).ptpMoves

theorem offsetEnded_keeps {β : Type} {v : PtpX → β} (hv : Uncounted v) (n : Nat) (e : Int) (f : FieldDie) :
    v ((offsetEnded n e f).ptpX n) = v (f.ptpX n) :=
  (congrArg v ((refreshGm_softMoves n _).ptpX n)).trans (servoLock_keeps hv n e f)

theorem offsetEnded_rdN {a : Nat} (hs : a ∉ stateRegs n) (hg : a ∉ gmRegs n) (hc : a ∉ coverRegs) (e : Int) (f : FieldDie) :
    (offsetEnded n e f).rdN a = f.rdN a :=
  (offsetEnded_ptpMoves n e f).rdN_eq (fun h => (List.mem_append.1 h).elim hs hg) hc

/-- The die after SYNC_RECEIVE has taken offset `e`. -/
def offsetDone (n : Nat) (e : Int) (f : FieldDie) : FieldDie :=
  offsetEnded n e (servo n (f.get (F_TIM_PTP_CFG_steer n)) e (offsetEntered n e f))

theorem offsetDone_timeMoves (n : Nat) (e : Int) (f : FieldDie) : TimeMoves (syncRegs n) f (offsetDone n e f) := by
  refine (((offsetEntered_ptpMoves n e f).mono offsetRegs_sync).timeMoves.trans
    ((servo_timeMoves n (f.get (F_TIM_PTP_CFG_steer n)) e _).mono servoRegs_sync)).trans ((offsetEnded_ptpMoves n e _).mono ?_).timeMoves
  exact List.append_subset.2 ⟨fun _ h => servoRegs_sync (stateRegs_servo n h), gmRegs_sync⟩

theorem offsetDone_offs (hn : n < 2) (e : Int) (f : FieldDie) : (offsetDone n e f).rdN (F_TIM_PTP_OFFS n) = ofSigned 32 e := by
  obtain ⟨hs, hv, hg, hc⟩ := offs_ne hn
  unfold offsetDone
  rw [offsetEnded_rdN hs hg hc, (servo_timeMoves n _ e _).rdN_eq hv hc, offsetEntered_offs hn]

/-- What the lock counts and the integral do not touch is what the new time left. -/
theorem offsetDone_keeps {β : Type} {v : PtpX → β} (hv : Uncounted v) (hi : ∀ (y : PtpX) (i : Int), v { y with integral := i } = v y)
    (n : Nat) (e : Int) (f : FieldDie) : v ((offsetDone n e f).ptpX n) = v ((offsetTaken n e f).ptpX n) := by
  unfold offsetDone
  rw [offsetEnded_keeps hv, servo_keeps hv hi, offsetEntered_keeps hv]

theorem offsetDone_tim (n : Nat) (e : Int) (f : FieldDie) :
    (offsetDone n e f).tim = (servo n (f.get (F_TIM_PTP_CFG_steer n)) e (offsetEntered n e f)).tim :=
  (offsetEnded_ptpMoves n e _).tim

/-- Outside the curve: a step that removes the offset is asked of the steered domain. -/
theorem offsetDone_asks (hn : n < 2) (h : servoEntry f n e = none) :
    (f.get (F_TIM_PTP_CFG_steer n) = 0 → (offsetDone n e f).tim.aStep = some (f.tim.aStep.getD 0 - e)) ∧
      (f.get (F_TIM_PTP_CFG_steer n) = 1 → (offsetDone n e f).tim.bStep = some (f.tim.bStep.getD 0 - e)) := by
  have asks := servo_asks ((offsetEntered_curve hn e f).1.trans h)
  rw [(offsetEntered_ptpMoves n e f).tim] at asks
  rw [offsetDone_tim]
  refine ⟨fun hd => ?_, fun hd => ?_⟩
  · rw [hd]
    exact asks.1
  · rw [hd]
    exact asks.2

/-- Inside the curve: the integral grows, and the frequency is shown. -/
theorem offsetDone_corrects (hn : n < 2) (hlen : f.ptp.length = 2) {kp ki : Nat} (h : servoEntry f n e = some (kp, ki)) :
    ((offsetDone n e f).ptpX n).integral = servoIntegral f n ki e ∧
      (offsetDone n e f).rdN (F_TIM_PTP_FREQ n) = ofSigned 32 (servoOutput f n kp ki e) := by
  obtain ⟨-, hs, hg, hc⟩ := freq_notMem hn
  have integral : ((offsetEntered n e f).ptpX n).integral = (f.ptpX n).integral := by
    rw [offsetEntered_keeps (v := PtpX.integral) (fun _ _ _ => rfl), offsetTaken_ptpX hlen hn]
  have same : servoIntegral (offsetEntered n e f) n ki e = servoIntegral f n ki e := by
    unfold servoIntegral
    rw [integral]
  have corrects := servo_corrects hn ((offsetEntered_length n e f).trans hlen) ((offsetEntered_curve hn e f).1.trans h)
    (f.get (F_TIM_PTP_CFG_steer n))
  unfold servoOutput at corrects
  rw [same] at corrects
  unfold offsetDone
  rw [offsetEnded_keeps (v := PtpX.integral) (fun _ _ _ => rfl), offsetEnded_rdN hs hg hc]
  exact corrects

theorem syncReceive_eq {x : SyncTime} (hn : n < 2) (hx : (f.ptpX n).sync = some x) (hon : ptpOn f n = true) (hpath : f.standbyPath = false)
    (hp : slavePort f n = some p) (hnew : (f.ptpX n).syncNew = true) (hlo : -(2 ^ 31) ≤ syncOffset f p x)
    (hhi : syncOffset f p x < 2 ^ 31) (hwake : (f.ptpX n).afterWake = false) :
    syncReceive n p f = offsetDone n (syncOffset f p x) f := by
  rw [syncReceive_of_new hx hon hpath hp hnew hlo hhi hwake, (offsetEntered_curve hn _ f).2]
  rfl

theorem syncReceive_clause (s : State) (n p : Nat) (x : SyncTime) (hr : s.fld.phase = .running) (hs : Shape s) (hn : n < 2)
    (hx : (s.fld.ptpX n).sync = some x) (hon : ptpOn s.fld n = true) (hpath : s.fld.standbyPath = false)
    (hp : slavePort s.fld n = some p) (hnew : (s.fld.ptpX n).syncNew = true) (hlo : -(2 ^ 31) ≤ syncOffset s.fld p x)
    (hhi : syncOffset s.fld p x < 2 ^ 31) (hwake : (s.fld.ptpX n).afterWake = false) :
    ∃ t, exec (.syncReceive n p) s = .next t ∧ t.fld.rdN (F_TIM_PTP_OFFS n) = ofSigned 32 (syncOffset s.fld p x) ∧
      (t.fld.ptpX n).syncNew = false ∧ (t.fld.ptpX n).lastSync = s.fld.now ∧
      (servoEntry s.fld n (syncOffset s.fld p x) = none → s.fld.get (F_TIM_PTP_CFG_steer n) = 0 →
        t.fld.tim.aStep = some (s.fld.tim.aStep.getD 0 - syncOffset s.fld p x)) ∧
      (servoEntry s.fld n (syncOffset s.fld p x) = none → s.fld.get (F_TIM_PTP_CFG_steer n) = 1 →
        t.fld.tim.bStep = some (s.fld.tim.bStep.getD 0 - syncOffset s.fld p x)) ∧
      (∀ kp ki, servoEntry s.fld n (syncOffset s.fld p x) = some (kp, ki) →
        (t.fld.ptpX n).integral = (s.fld.ptpX n).integral + (ki : Int) * syncOffset s.fld p x ∧
        t.fld.rdN (F_TIM_PTP_FREQ n) = ofSigned 32 (limitY (-((kp : Int) * syncOffset s.fld p x +
          ((s.fld.ptpX n).integral + (ki : Int) * syncOffset s.fld p x))))) ∧
      LowFrame [] { s.fld with ptp := t.fld.ptp, tim := t.fld.tim } s t := by
  have step := State.onItem_running (g := syncReceive n p) hr hn
  rw [syncReceive_eq hn hx hon hpath hp hnew hlo hhi hwake] at step
  generalize syncOffset s.fld p x = e at step
  have moves := offsetDone_timeMoves n e s.fld
  have offs := offsetDone_offs hn e s.fld
  have asks := offsetDone_asks (f := s.fld) (e := e) hn
  have corrects : ∀ kp ki, servoEntry s.fld n e = some (kp, ki) → _ := fun kp ki => offsetDone_corrects hn hs.ptp
  have taken := offsetTaken_ptpX (f := s.fld) hs.ptp hn e
  have syncNew : ((offsetDone n e s.fld).ptpX n).syncNew = false := by
    rw [offsetDone_keeps (v := PtpX.syncNew) (fun _ _ _ => rfl) (fun _ _ => rfl), taken]
  have lastSync : ((offsetDone n e s.fld).ptpX n).lastSync = s.fld.now := by
    rw [offsetDone_keeps (v := PtpX.lastSync) (fun _ _ _ => rfl) (fun _ _ => rfl), taken]
  generalize offsetDone n e s.fld = g at *
  have ptpX : (settle g).ptpX n = g.ptpX n := ptpX_of_ptp (settle_ptp g) n
  have rdN : ∀ a, a ∉ coverRegs → (settle g).rdN a = g.rdN a := fun _ ha => settle_rdN_of_notMem ha
  refine ⟨_, step, ?_, ?_, ?_, fun h hd => ?_, fun h hd => ?_, fun kp ki h => ?_, moves.frame syncRegs_ge⟩
  · exact (rdN _ (offs_ne hn).2.2.2).trans offs
  · exact (congrArg PtpX.syncNew ptpX).trans syncNew
  · exact (congrArg PtpX.lastSync ptpX).trans lastSync
  · exact (congrArg TimeX.aStep (settle_tim g)).trans ((asks h).1 hd)
  · exact (congrArg TimeX.bStep (settle_tim g)).trans ((asks h).2 hd)
  · obtain ⟨integral, freq⟩ := corrects kp ki h
    exact ⟨(congrArg PtpX.integral ptpX).trans integral, (rdN _ (freq_notMem hn).2.2.2).trans freq⟩

end Sys2Proof.Machine
end


section
/-! ANNOUNCE_TIMEOUT (R555): what the roles of a gPTP clock rest on, and that they are worked out. -/

namespace Sys2Proof.Machine

variable {but : List Nat} {f g h : FieldDie} {s : State} {n p q k a : Nat}

/-! ### What the roles rest on -/

/-- The registers of the configuration and of the links that the roles of gPTP clock `n` rest on. -/
def roleReg (n a : Nat) : Prop :=
  a = F_GLB_BASE_MAC_LO ∨ a = F_GLB_BASE_MAC_HI ∨ a = F_TIM_PTP_CFG n ∨ a = F_TIM_PTP_PRIO n ∨ a = F_TIM_PTP_VAR n ∨
    a = F_TIM_PTP_ROLE n ∨ ∃ p, p < 12 ∧ (a = F_TIM_PORT_PDLY p ∨ a = F_PORT_STAT p)

theorem roleReg.notMem (hn : n < 2) (h : roleReg n a) (k : Nat) (hk : k < 2) : a ∉ ptpRegs k ∧ a ∉ coverRegs := by
  have stat : ∀ x, x ∈ portStatRegs → ∃ q, q < 12 ∧ x = F_TIM_PORT_STAT q := fun x hx => by
    obtain ⟨q, hq, rfl⟩ := List.mem_map.1 hx
    exact ⟨q, List.mem_range.1 hq, rfl⟩
  refine ⟨fun hm => ?_, ?_⟩
  · have other : (∃ q, q < 12 ∧ a = F_TIM_PORT_STAT q) ∨ a ∈ stateRegs k ∨ a ∈ gmRegs k :=
      (List.mem_append.1 hm).imp (stat a) List.mem_append.1
    simp only [stateRegs, gmRegs, List.mem_cons, List.not_mem_nil, or_false] at other
    simp only [roleReg] at h
    simp only [F_GLB_BASE_MAC_LO, F_GLB_BASE_MAC_HI, F_TIM_PTP_CFG, F_TIM_PTP_PRIO, F_TIM_PTP_VAR, F_TIM_PTP_ROLE, F_TIM_PORT_PDLY,
      F_PORT_STAT, F_TIM_PORT_STAT, F_TIM_PTP_STAT, F_TIM_EVT, F_TIM_EVT_INFO, F_TIM_PTP_GM_HI, F_TIM_PTP_GM_LO] at h other
    obtain ⟨q, hq, other⟩ | other := other
    · obtain h | h | h | h | h | h | ⟨p, hp, h⟩ := h
      all_goals omega
    · obtain h | h | h | h | h | h | ⟨p, hp, h⟩ := h
      all_goals omega
  · simp only [roleReg] at h
    simp only [coverRegs, List.mem_cons, List.not_mem_nil, or_false, not_or]
    simp only [F_GLB_BASE_MAC_LO, F_GLB_BASE_MAC_HI, F_TIM_PTP_CFG, F_TIM_PTP_PRIO, F_TIM_PTP_VAR, F_TIM_PTP_ROLE, F_TIM_PORT_PDLY,
      F_PORT_STAT, F_FLT_COVER, F_FLT_EVT2, F_XNG_EVT] at h ⊢
    obtain h | h | h | h | h | h | ⟨p, hp, h⟩ := h
    all_goals omega

/-- The two dies give gPTP clock `n` the same roles. -/
structure RoleView (n : Nat) (f g : FieldDie) : Prop where
  regs : ∀ a, roleReg n a → g.rd a = f.rd a
  capable : ∀ p, p < 12 → g.get (F_TIM_PORT_STAT_as_capable p) = f.get (F_TIM_PORT_STAT_as_capable p)
  heard : (g.ptpX n).heard = (f.ptpX n).heard
  carried : (g.ptpX n).carried = (f.ptpX n).carried

theorem RoleView.trans (a : RoleView n f g) (b : RoleView n g h) : RoleView n f h :=
  ⟨fun r hr => (b.regs r hr).trans (a.regs r hr), fun p hp => (b.capable p hp).trans (a.capable p hp), b.heard.trans a.heard,
    b.carried.trans a.carried⟩

theorem RoleView.get (v : RoleView n f g) (r : Fld) (h : roleReg n r.addr) : g.get r = f.get r := FieldDie.get_eq r (v.regs r.addr h)

theorem RoleView.flag (v : RoleView n f g) (r : Fld) (h : roleReg n r.addr) : g.flag r = f.flag r := by
  unfold FieldDie.flag
  rw [v.get r h]

theorem RoleView.cfg (v : RoleView n f g) (r : Fld) (h : r.addr = F_TIM_PTP_CFG n) : g.get r = f.get r :=
  v.get r (.inr (.inr (.inl h)))

theorem RoleView.ownClock (v : RoleView n f g) : ownClock g = ownClock f := by
  unfold Machine.ownClock baseMac
  rw [v.get F_GLB_BASE_MAC_HI_octets12 (.inr (.inl rfl)), show g.rdN F_GLB_BASE_MAC_LO = f.rdN F_GLB_BASE_MAC_LO from
    congrArg BitVec.toNat (v.regs _ (.inl rfl))]

theorem RoleView.bmca (v : RoleView n f g) : g.flag (F_TIM_PTP_CFG_bmca n) = f.flag (F_TIM_PTP_CFG_bmca n) :=
  v.flag _ (.inr (.inr (.inl rfl)))

theorem RoleView.on (v : RoleView n f g) : ptpOn g n = ptpOn f n := v.flag _ (.inr (.inr (.inl rfl)))

theorem RoleView.ownRoot (v : RoleView n f g) : ownRoot g n = ownRoot f n := by
  have prio : ∀ r : Fld, r.addr = F_TIM_PTP_PRIO n → g.get r = f.get r := fun r h => v.get r (.inr (.inr (.inr (.inl h))))
  unfold Machine.ownRoot
  rw [v.flag (F_TIM_PTP_CFG_gm_capable n) (.inr (.inr (.inl rfl))), prio (F_TIM_PTP_PRIO_priority1 n) rfl, prio (F_TIM_PTP_PRIO_clockClass n) rfl,
    prio (F_TIM_PTP_PRIO_clockAccuracy n) rfl, prio (F_TIM_PTP_PRIO_priority2 n) rfl,
    v.get (F_TIM_PTP_VAR_variance n) (.inr (.inr (.inr (.inr (.inl rfl))))), v.ownClock]

theorem RoleView.bestHeard (v : RoleView n f g) : bestHeard g n = bestHeard f n := by
  unfold Machine.bestHeard
  rw [v.heard]

theorem RoleView.heardOn (v : RoleView n f g) (p : Nat) : heardOn g n p = heardOn f n p := by
  unfold Machine.heardOn
  rw [v.heard]

theorem RoleView.chosenSlave (v : RoleView n f g) : chosenSlave g n = chosenSlave f n := by
  unfold Machine.chosenSlave
  rw [v.bmca, v.carried, v.bestHeard, v.ownRoot, v.get (F_TIM_PTP_ROLE_roles n) (.inr (.inr (.inr (.inr (.inr (.inl rfl))))))]

theorem RoleView.masterVec (v : RoleView n f g) (p : Nat) : masterVec g n p = masterVec f n p := by
  unfold Machine.masterVec
  rw [v.chosenSlave, v.bestHeard, v.ownClock, v.ownRoot]

theorem RoleView.linkUp (v : RoleView n f g) (hp : p < 12) : linkUp g p = linkUp f p := by
  have state : portState g p = portState f p :=
    FieldDie.get_eq (F_PORT_STAT_state p) (v.regs (F_PORT_STAT p) (.inr (.inr (.inr (.inr (.inr (.inr ⟨p, hp, .inr rfl⟩)))))))
  unfold Machine.linkUp
  rw [if_neg (by omega), if_neg (by omega), state]

theorem RoleView.roleOf (v : RoleView n f g) (hp : p < 12) : roleOf g n p = roleOf f n p := by
  have enabled : g.flag (F_TIM_PORT_PDLY_ptp_en p) = f.flag (F_TIM_PORT_PDLY_ptp_en p) :=
    v.flag _ (.inr (.inr (.inr (.inr (.inr (.inr ⟨p, hp, .inl rfl⟩))))))
  have capable : g.flag (F_TIM_PORT_STAT_as_capable p) = f.flag (F_TIM_PORT_STAT_as_capable p) := by
    unfold FieldDie.flag
    rw [v.capable p hp]
  unfold Machine.roleOf
  rw [v.on, enabled, v.bmca, capable, v.linkUp hp, v.chosenSlave, v.heardOn, v.masterVec,
    v.get (F_TIM_PTP_ROLE_roles n) (.inr (.inr (.inr (.inr (.inr (.inl rfl))))))]

theorem roleOf_lt (f : FieldDie) (n p : Nat) : roleOf f n p < 4 := by
  have static : bitsOf (f.get (F_TIM_PTP_ROLE_roles n)) (2 * p + 1) (2 * p) < 4 := by
    have lt := bitsOf_lt (f.get (F_TIM_PTP_ROLE_roles n)) (2 * p + 1) (2 * p)
    rwa [show 2 * p + 1 + 1 - 2 * p = 2 by omega] at lt
  unfold roleOf
  split
  · decide
  · split
    · split
      · decide
      · split
        · decide
        · split
          · split
            · decide
            · decide
          · decide
    · dsimp only
      split
      · decide
      · exact static

/-! ### A port's status through the roles -/

/-- The fields of a port's status beside its roles. -/
def besideRoles (r : Fld) : Prop := r.hi < 2 ∨ 5 < r.lo

theorem roleFld_bits (n p : Nat) : (roleFld n p).lo ≤ (roleFld n p).hi ∧ (roleFld n p).hi < 32 ∧
    (∀ r, besideRoles r → (roleFld n p).hi < r.lo ∨ r.hi < (roleFld n p).lo) ∧ (roleFld n p).hi + 1 - (roleFld n p).lo = 2 := by
  unfold roleFld besideRoles
  split
  · refine ⟨by show 2 ≤ 3; decide, by show 3 < 32; decide, fun r h => ?_, rfl⟩
    show 3 < r.lo ∨ r.hi < 2
    omega
  · refine ⟨by show 4 ≤ 5; decide, by show 5 < 32; decide, fun r h => ?_, rfl⟩
    show 5 < r.lo ∨ r.hi < 4
    omega

theorem portStat_inj (h : F_TIM_PORT_STAT p = F_TIM_PORT_STAT q) : p = q := by
  unfold F_TIM_PORT_STAT at h
  omega

theorem putRole_beside {r : Fld} (hr : r.addr = F_TIM_PORT_STAT q) (hb : besideRoles r) (n p v : Nat) (f : FieldDie) :
    (f.put (roleFld n p) v).get r = f.get r := by
  obtain ⟨hle, h32, hd, -⟩ := roleFld_bits n p
  by_cases hq : q = p
  · exact FieldDie.get_put_field f (roleFld n p) r v (by rw [hr, roleFld_addr, hq]) hle h32 (hd r hb)
  · exact FieldDie.get_put_addr f (roleFld n p) r v (by rw [hr, roleFld_addr]; exact fun e => hq (portStat_inj e))

theorem rolesShown_beside {r : Fld} (hr : r.addr = F_TIM_PORT_STAT q) (hb : besideRoles r) (n : Nat) (roles : List Nat) (f : FieldDie) :
    (rolesShown n roles f).get r = f.get r :=
  forRange_keeps (P := fun g : FieldDie => g.get r = f.get r) (fun p g _ e => (putRole_beside hr hb n p _ g).trans e) rfl

theorem rolesShown_role (hp : p < 12) {roles : List Nat} (hv : roles.getD p 0 < 4) (n : Nat) (f : FieldDie) :
    (rolesShown n roles f).get (roleFld n p) = roles.getD p 0 := by
  obtain ⟨hle, h32, -, hw⟩ := roleFld_bits n p
  refine forRange_sets (P := fun _ => True) (Q := fun g : FieldDie => g.get (roleFld n p) = roles.getD p 0) hp (fun _ _ _ _ _ => trivial)
    (fun g _ => ?_) (fun q g _ hq e => ?_) trivial
  · have shown := FieldDie.get_put g (roleFld n p) (roles.getD p 0) hle h32
    rw [hw] at shown
    exact shown.trans (Nat.mod_eq_of_lt hv)
  · exact (FieldDie.get_put_addr g (roleFld n q) (roleFld n p) _
      (by rw [roleFld_addr, roleFld_addr]; exact fun e => hq (portStat_inj e).symm)).trans e

/-! ### The roles are worked out (R555) -/

/-- What the state and the grandmaster move is no port's status. -/
theorem portStat_notMem (hp : p < 12) (n : Nat) (hn : n < 2) :
    F_TIM_PORT_STAT p ∉ stateRegs n ++ gmRegs n ∧ F_TIM_PORT_STAT p ∉ coverRegs := by
  simp only [stateRegs, gmRegs, coverRegs, List.mem_cons, List.mem_append, List.not_mem_nil, or_false, not_or]
  simp only [F_TIM_PORT_STAT, F_TIM_PTP_STAT, F_TIM_EVT, F_TIM_EVT_INFO, F_TIM_PTP_GM_HI, F_TIM_PTP_GM_LO, F_FLT_COVER, F_FLT_EVT2,
    F_XNG_EVT]
  omega

/-- What a gPTP clock's state and its choice of a slave port do not touch in its record. -/
def Unslaved {β : Type} (v : PtpX → β) : Prop :=
  ∀ (y : PtpX) (last : Nat), v { y with lastSync := last, sync := none, syncNew := false, pendingSync := none } = v y

theorem slaveChanged_keeps {β : Type} {v : PtpX → β} (hv : Uncounted v) (hs : Unslaved v) (n : Nat) (old : Option Nat) (f : FieldDie) :
    v ((slaveChanged n old f).ptpX n) = v (f.ptpX n) := by
  unfold slaveChanged
  dsimp only
  split
  · exact setPtpState_keeps hv n 0 f
  · split
    · split
      · rfl
      · exact setPtpState_keeps hv n 1 f
    · split
      · exact (setPtpState_keeps hv n 2 _).trans (ptpX_setPtpX_keeps v (fun y => hs y _) f n)
      · rfl

/-- What comes after the roles are shown: the slave port, the state, and the grandmaster. -/
def rolesFollowed (n : Nat) (old : Option Nat) (slave : Nat) (f : FieldDie) : FieldDie :=
  refreshGm n (slaveChanged n old (f.put (F_TIM_PTP_STAT_slave_port n) slave))

theorem rolesFollowed_ptpMoves (n : Nat) (old : Option Nat) (slave : Nat) (f : FieldDie) :
    PtpMoves (stateRegs n ++ gmRegs n) f (rolesFollowed n old slave f) := by
  have put : PtpMoves (stateRegs n) f (f.put (F_TIM_PTP_STAT_slave_port n) slave) :=
    (FieldDie.put_softMoves (r := F_TIM_PTP_STAT_slave_port n) List.mem_cons_self f slave).ptpMoves
  exact ((put.trans (slaveChanged_ptpMoves n old _)).mono fun _ h => List.mem_append_left _ h).trans
    ((refreshGm_softMoves n _).mono fun _ h => List.mem_append_right _ h).ptpMoves

theorem rolesFollowed_keeps {β : Type} {v : PtpX → β} (hv : Uncounted v) (hs : Unslaved v) (n : Nat) (old : Option Nat) (slave : Nat)
    (f : FieldDie) : v ((rolesFollowed n old slave f).ptpX n) = v (f.ptpX n) := by
  have put : (f.put (F_TIM_PTP_STAT_slave_port n) slave).ptpX n = f.ptpX n := ptpX_of_ptp (FieldDie.put_ptp _ _ _) n
  exact ((congrArg v ((refreshGm_softMoves n _).ptpX n)).trans (slaveChanged_keeps hv hs n old _)).trans (congrArg v put)

/-- The roles that a gPTP clock works out. -/
def rolesOf (n : Nat) (f : FieldDie) : List Nat := (List.range 12).map (roleOf f n)

theorem rolesOf_getD (hp : p < 12) (n : Nat) (f : FieldDie) : (rolesOf n f).getD p 0 = roleOf f n p := by
  unfold rolesOf
  rw [List.getD_eq_getElem?_getD, List.getElem?_map, List.getElem?_range hp]
  rfl

theorem refreshRoles_followed (n : Nat) (f : FieldDie) : refreshRoles n f =
    rolesFollowed n (slavePort (forgotten n f) n) (slaveShown (forgotten n f) n) (rolesShown n (rolesOf n (forgotten n f)) (forgotten n f)) :=
  refreshRoles_eq n f

theorem refreshRoles_beside {r : Fld} (hq : q < 12) (hr : r.addr = F_TIM_PORT_STAT q) (hb : besideRoles r) (hn : n < 2) (f : FieldDie) :
    (refreshRoles n f).get r = f.get r := by
  obtain ⟨hm, hc⟩ := portStat_notMem hq n hn
  rw [refreshRoles_followed, (rolesFollowed_ptpMoves n _ _ _).get_eq (by rw [hr]; exact hm) (by rw [hr]; exact hc), rolesShown_beside hr hb]
  rfl

theorem refreshRoles_role (hp : p < 12) (hn : n < 2) (f : FieldDie) :
    (refreshRoles n f).get (roleFld n p) = roleOf (forgotten n f) n p := by
  obtain ⟨hm, hc⟩ := portStat_notMem hp n hn
  have role := rolesOf_getD hp n (forgotten n f)
  rw [refreshRoles_followed, (rolesFollowed_ptpMoves n _ _ _).get_eq (by rw [roleFld_addr]; exact hm) (by rw [roleFld_addr]; exact hc),
    rolesShown_role hp (by rw [role]; exact roleOf_lt _ _ _), role]

theorem refreshRoles_keeps {β : Type} {v : PtpX → β} (hv : Uncounted v) (hs : Unslaved v) (n : Nat) (f : FieldDie) :
    v ((refreshRoles n f).ptpX n) = v ((forgotten n f).ptpX n) := by
  rw [refreshRoles_followed, rolesFollowed_keeps hv hs, (rolesShown_softMoves n _ _).ptpX]

theorem refreshRoles_view (hn : n < 2) (f : FieldDie) : RoleView n (forgotten n f) (refreshRoles n f) where
  regs a ha := by
    obtain ⟨hm, hc⟩ := ha.notMem hn n hn
    exact (refreshRoles_ptpMoves n f).rd_eq hm hc
  capable p hp := refreshRoles_beside hp rfl (.inl (by show 0 < 2; decide)) hn f
  heard := refreshRoles_keeps (v := PtpX.heard) (fun _ _ _ => rfl) (fun _ _ => rfl) n f
  carried := refreshRoles_keeps (v := PtpX.carried) (fun _ _ _ => rfl) (fun _ _ => rfl) n f

theorem settle_view (hn : n < 2) (f : FieldDie) : RoleView n f (settle f) where
  regs a ha := settle_rd_of_notMem f (ha.notMem hn n hn).2
  capable p hp := settle_get_of_notMem (r := F_TIM_PORT_STAT_as_capable p) (portStat_notMem hp n hn).2
  heard := by rw [ptpX_of_ptp (settle_ptp f)]
  carried := by rw [ptpX_of_ptp (settle_ptp f)]

theorem ptpRegs_ge : ∀ a ∈ ptpRegs n, 0x140000 ≤ a := by
  intro a ha
  obtain h | h := List.mem_append.1 ha
  · obtain ⟨p, -, rfl⟩ := List.mem_map.1 h
    unfold F_TIM_PORT_STAT
    omega
  · exact (List.mem_append.1 h).elim (stateRegs_ge a) (gmRegs_ge a)

/-- How long an Announce counts. -/
def announceWait (f : FieldDie) (n : Nat) : Nat :=
  f.get (F_TIM_PTP_TO_announce_to n) * intervalTicks (toSigned 4 (f.get (F_TIM_PTP_CFG_log_announce n)))

/-- The die that has forgotten the Announces that are too old. -/
def aged (n : Nat) (f : FieldDie) : FieldDie :=
  f.setPtpX n (fun x => { x with
    heard := x.heard.filter (fun h => decide (f.now < h.2.1 + announceWait f n))
    carried := x.carried.filter (fun c => decide (f.now < c.1 + announceWait f n)) })

theorem announceTimeout_of_on (hon : ptpOn f n = true) (hpath : f.standbyPath = false) : announceTimeout n f = refreshRoles n (aged n f) := by
  unfold announceTimeout
  rw [if_neg (by rw [hon, hpath]; rintro (h | h); exacts [Bool.false_ne_true h.symm, Bool.false_ne_true h])]
  rfl

theorem forgotten_aged_heard (hlen : f.ptp.length = 2) (hn : n < 2) : ((forgotten n (aged n f)).ptpX n).heard =
    ((f.ptpX n).heard.filter (fun h => decide (f.now < h.2.1 + announceWait f n))).filter (fun h => ptpCapable f n h.1) := by
  have old : (aged n f).ptpX n = _ := ptpX_setPtpX_self (by omega) _
  have part : (forgotten n (aged n f)).ptpX n = _ := ptpX_setPtpX_self (by rw [show (aged n f).ptp.length = f.ptp.length from setPtpX_length f n _]; omega) _
  rw [part, old]
  rfl

theorem announceTimeout_clause (s : State) (n : Nat) (hr : s.fld.phase = .running) (hs : Shape s) (hn : n < 2) (hon : ptpOn s.fld n = true)
    (hpath : s.fld.standbyPath = false) :
    ∃ t, exec (.announceTimeout n) s = .next t ∧
      (t.fld.ptpX n).heard = ((s.fld.ptpX n).heard.filter (fun h => decide (s.fld.now < h.2.1 +
        s.fld.get (F_TIM_PTP_TO_announce_to n) * intervalTicks (toSigned 4 (s.fld.get (F_TIM_PTP_CFG_log_announce n)))))).filter
          (fun h => ptpCapable s.fld n h.1) ∧
      (∀ p, p < 12 → t.fld.get (if n = 0 then F_TIM_PORT_STAT_role0 p else F_TIM_PORT_STAT_role1 p) = roleOf t.fld n p) ∧
      LowFrame [] { s.fld with ptp := t.fld.ptp } s t := by
  have step := State.onItem_running (g := announceTimeout n) hr hn
  rw [announceTimeout_of_on hon hpath] at step
  have heard := forgotten_aged_heard hs.ptp hn
  have view := (refreshRoles_view hn (aged n s.fld)).trans (settle_view hn _)
  refine ⟨_, step, view.heard.trans heard, fun p hp => ?_, ?_⟩
  · have shown := refreshRoles_role hp hn (aged n s.fld)
    have kept : (settle (refreshRoles n (aged n s.fld))).get (roleFld n p) = (refreshRoles n (aged n s.fld)).get (roleFld n p) :=
      settle_get_of_notMem (by rw [roleFld_addr]; exact (portStat_notMem hp n hn).2)
    exact (kept.trans shown).trans (view.roleOf hp).symm
  · have moves : PtpMoves (ptpRegs n) s.fld (refreshRoles n (aged n s.fld)) :=
      PtpMoves.trans (setPtpX_ptpMoves s.fld n _) (refreshRoles_ptpMoves n (aged n s.fld))
    exact moves.frame ptpRegs_ge

end Sys2Proof.Machine
end


section
/-! PDELAY_EXCHANGE (R554, R558): the delay and rate that an answer gives, or one loss more, and as_capable after them. -/

namespace Sys2Proof.Machine

variable {but : List Nat} {f g h : FieldDie} {s : State} {n p q k a : Nat}

/-! ### Whether a port is asCapable (R554) -/

/-- The two dies give port `p` the same peer delay. -/
structure DelayView (p : Nat) (f g : FieldDie) : Prop where
  enabled : g.rd (F_TIM_PORT_PDLY p) = f.rd (F_TIM_PORT_PDLY p)
  thresh : g.rd (F_TIM_PORT_THRESH p) = f.rd (F_TIM_PORT_THRESH p)
  mld : g.rd (F_TIM_PORT_MLD p) = f.rd (F_TIM_PORT_MLD p)
  nrr : g.rd (F_TIM_PORT_NRR p) = f.rd (F_TIM_PORT_NRR p)
  lost : g.get (F_TIM_PORT_STAT_lost p) = f.get (F_TIM_PORT_STAT_lost p)
  measured : g.tim.pdMeasured = f.tim.pdMeasured
  seq : g.tim.pdSeq = f.tim.pdSeq

theorem DelayView.refl (p : Nat) (f : FieldDie) : DelayView p f f := ⟨rfl, rfl, rfl, rfl, rfl, rfl, rfl⟩

theorem DelayView.trans (a : DelayView p f g) (b : DelayView p g h) : DelayView p f h :=
  ⟨b.enabled.trans a.enabled, b.thresh.trans a.thresh, b.mld.trans a.mld, b.nrr.trans a.nrr, b.lost.trans a.lost,
    b.measured.trans a.measured, b.seq.trans a.seq⟩

theorem DelayView.asCapable (v : DelayView p f g) : asCapable g p = asCapable f p := by
  have enabled : g.flag (F_TIM_PORT_PDLY_pdelay_en p) = f.flag (F_TIM_PORT_PDLY_pdelay_en p) := by
    unfold FieldDie.flag
    rw [FieldDie.get_eq (F_TIM_PORT_PDLY_pdelay_en p) v.enabled]
  unfold Machine.asCapable
  rw [enabled, v.measured, show g.rdN (F_TIM_PORT_MLD p) = f.rdN (F_TIM_PORT_MLD p) from congrArg BitVec.toNat v.mld,
    show g.rdN (F_TIM_PORT_THRESH p) = f.rdN (F_TIM_PORT_THRESH p) from congrArg BitVec.toNat v.thresh, v.lost,
    FieldDie.get_eq (F_TIM_PORT_PDLY_allowed_lost p) v.enabled]

/-- The registers of a port's peer delay but its status. -/
def delayReg (p a : Nat) : Prop := a = F_TIM_PORT_PDLY p ∨ a = F_TIM_PORT_THRESH p ∨ a = F_TIM_PORT_MLD p ∨ a = F_TIM_PORT_NRR p

theorem delayReg.ne_stat (h : delayReg p a) (q : Nat) : a ≠ F_TIM_PORT_STAT q := by
  unfold delayReg at h
  unfold F_TIM_PORT_PDLY F_TIM_PORT_THRESH F_TIM_PORT_MLD F_TIM_PORT_NRR at h
  unfold F_TIM_PORT_STAT
  omega

theorem delayReg.notMem (hp : p < 12) (h : delayReg p a) : a ∉ allPtpRegs ∧ a ∉ coverRegs := by
  have other : ∀ n, n < 2 → a ∉ ptpRegs n := by
    intro n hn hm
    obtain hq | hm := List.mem_append.1 hm
    · obtain ⟨q, -, rfl⟩ := List.mem_map.1 hq
      exact h.ne_stat q rfl
    · simp only [stateRegs, gmRegs, List.mem_append, List.mem_cons, List.not_mem_nil, or_false] at hm
      unfold delayReg at h
      simp only [F_TIM_PORT_PDLY, F_TIM_PORT_THRESH, F_TIM_PORT_MLD, F_TIM_PORT_NRR, F_TIM_PTP_STAT, F_TIM_EVT, F_TIM_EVT_INFO,
        F_TIM_PTP_GM_HI, F_TIM_PTP_GM_LO] at h hm
      omega
  refine ⟨fun hm => (List.mem_append.1 hm).elim (other 0 (by decide)) (other 1 (by decide)), timeReg_notMem ?_⟩
  unfold delayReg F_TIM_PORT_PDLY F_TIM_PORT_THRESH F_TIM_PORT_MLD F_TIM_PORT_NRR at h
  omega

/-- Steps that move neither those registers nor the loss count nor the record of measurements. -/
theorem delayView_of (regs : ∀ a, delayReg p a → g.rd a = f.rd a) (lost : g.get (F_TIM_PORT_STAT_lost p) = f.get (F_TIM_PORT_STAT_lost p))
    (measured : g.tim.pdMeasured = f.tim.pdMeasured) (seq : g.tim.pdSeq = f.tim.pdSeq) : DelayView p f g :=
  ⟨regs _ (.inl rfl), regs _ (.inr (.inl rfl)), regs _ (.inr (.inr (.inl rfl))), regs _ (.inr (.inr (.inr rfl))), lost, measured, seq⟩

/-! ### The roles leave a port's delay as it is -/

theorem refreshXc_get (f : FieldDie) (r : Fld) : (refreshXc f).get r = f.get r := by
  unfold refreshXc
  dsimp only
  split
  · rfl
  · rfl

theorem refreshXc_pd (f : FieldDie) : (refreshXc f).tim.pdMeasured = f.tim.pdMeasured ∧ (refreshXc f).tim.pdSeq = f.tim.pdSeq := by
  unfold refreshXc
  dsimp only
  split
  · exact ⟨rfl, rfl⟩
  · exact ⟨rfl, rfl⟩

theorem refreshPtp_beside {r : Fld} (hq : q < 12) (hr : r.addr = F_TIM_PORT_STAT q) (hb : besideRoles r) (f : FieldDie) :
    (refreshPtp f).get r = f.get r := by
  unfold refreshPtp
  rw [refreshXc_get, refreshRoles_beside hq hr hb (by decide), refreshRoles_beside hq hr hb (by decide)]

theorem refreshPtp_pd (f : FieldDie) : (refreshPtp f).tim.pdMeasured = f.tim.pdMeasured ∧ (refreshPtp f).tim.pdSeq = f.tim.pdSeq := by
  have tim : (refreshRoles 1 (refreshRoles 0 f)).tim = f.tim := (refreshRoles_ptpMoves 1 _).tim.trans (refreshRoles_ptpMoves 0 f).tim
  unfold refreshPtp
  have shown := refreshXc_pd (refreshRoles 1 (refreshRoles 0 f))
  rw [tim] at shown
  exact shown

theorem lost_beside (p : Nat) : besideRoles (F_TIM_PORT_STAT_lost p) := .inr (by show 5 < 8; decide)

theorem capable_beside (p : Nat) : besideRoles (F_TIM_PORT_STAT_as_capable p) := .inl (by show 0 < 2; decide)

theorem refreshPtp_delayView (hp : p < 12) (f : FieldDie) : DelayView p f (refreshPtp f) := by
  obtain ⟨measured, seq⟩ := refreshPtp_pd f
  refine delayView_of (fun a ha => ?_) (refreshPtp_beside hp rfl (lost_beside p) f) measured seq
  obtain ⟨hm, hc⟩ := ha.notMem hp
  exact (refreshPtp_timeMoves f).rd_eq hm hc

theorem putCapable_delayView (p v : Nat) (f : FieldDie) : DelayView p f (f.put (F_TIM_PORT_STAT_as_capable p) v) := by
  refine delayView_of (fun a ha => FieldDie.rd_put_ne f (F_TIM_PORT_STAT_as_capable p) v a (ha.ne_stat p)) ?_
    (congrArg TimeX.pdMeasured (FieldDie.put_tim _ _ _)) (congrArg TimeX.pdSeq (FieldDie.put_tim _ _ _))
  exact FieldDie.get_put_field f (F_TIM_PORT_STAT_as_capable p) (F_TIM_PORT_STAT_lost p) v rfl (Nat.le_refl 0) (by show 0 < 32; decide)
    (.inl (by show 0 < 8; decide))

/-- What as_capable is to show. -/
def capableShown (p : Nat) (f : FieldDie) : Nat := if asCapable f p then 1 else 0

theorem refreshCapable_eq (p : Nat) (f : FieldDie) : refreshCapable p f =
    if f.get (F_TIM_PORT_STAT_as_capable p) = capableShown p f then f
    else refreshPtp (f.put (F_TIM_PORT_STAT_as_capable p) (capableShown p f)) := rfl

theorem capableShown_lt (p : Nat) (f : FieldDie) : capableShown p f < 2 := by
  unfold capableShown
  split
  · decide
  · decide

theorem refreshCapable_delayView (hp : p < 12) (f : FieldDie) : DelayView p f (refreshCapable p f) := by
  rw [refreshCapable_eq]
  split
  · exact .refl p f
  · exact (putCapable_delayView p _ f).trans (refreshPtp_delayView hp _)

/-- as_capable shows whether the port is so. -/
theorem refreshCapable_shows (hp : p < 12) (f : FieldDie) :
    (refreshCapable p f).get (F_TIM_PORT_STAT_as_capable p) = if asCapable (refreshCapable p f) p then 1 else 0 := by
  rw [(refreshCapable_delayView hp f).asCapable]
  change _ = capableShown p f
  rw [refreshCapable_eq]
  split
  next same => exact same
  next =>
    rw [refreshPtp_beside hp rfl (capable_beside p),
      FieldDie.get_put f (F_TIM_PORT_STAT_as_capable p) _ (Nat.le_refl 0) (by show 0 < 32; decide)]
    exact Nat.mod_eq_of_lt (capableShown_lt p f)

theorem refreshCapable_timeMoves (hp : p < 12) (f : FieldDie) : TimeMoves allPtpRegs f (refreshCapable p f) := by
  have mem : F_TIM_PORT_STAT p ∈ allPtpRegs := List.mem_append_left _ (List.mem_append_left _ (portStat_mem hp))
  rw [refreshCapable_eq]
  exact .ite (.refl _ f) (TimeMoves.trans (FieldDie.put_softMoves (r := F_TIM_PORT_STAT_as_capable p) mem f _).timeMoves
    (refreshPtp_timeMoves _))

/-! ### An exchange (R554, R558) -/

/-- The die whose port `p` goes on with the next sequenceId and has sent its request. -/
def delayAsked (p : Nat) (f : FieldDie) : FieldDie :=
  engineSend p 7 none (pdelayReq { f with tim := { f.tim with pdSeq := modAt f.tim.pdSeq p (fun s => (s + 1) % 65536) } } p (f.tim.pdSeq.getD p 0))
    { f with tim := { f.tim with pdSeq := modAt f.tim.pdSeq p (fun s => (s + 1) % 65536) } }

/-- The die that an answer has told port `p`'s delay and rate. -/
def delayTold (p mld nrr : Nat) (f : FieldDie) : FieldDie :=
  (({ f with tim := { f.tim with pdMeasured := setBit f.tim.pdMeasured p } }.wrN (F_TIM_PORT_MLD p) mld).wrN (F_TIM_PORT_NRR p) nrr).put
    (F_TIM_PORT_STAT_lost p) 0

/-- The die that has counted a request of port `p` without an answer. -/
def delayLost (p : Nat) (f : FieldDie) : FieldDie := f.put (F_TIM_PORT_STAT_lost p) (min 255 (f.get (F_TIM_PORT_STAT_lost p) + 1))

theorem pdelayExchange_of_on (hen : f.flag (F_TIM_PORT_PDLY_pdelay_en p) = true) (hport : ptpPort f p = true) (answered : Bool)
    (mld nrr : Nat) : pdelayExchange p answered mld nrr f =
      refreshCapable p (if answered then delayTold p mld nrr (delayAsked p f) else delayLost p (delayAsked p f)) := by
  unfold pdelayExchange
  rw [if_neg (by rw [hen, hport]; rintro (h | h); exacts [Bool.false_ne_true h.symm, Bool.false_ne_true h.symm])]
  rfl

theorem delayAsked_sends (hp : p < 12) (f : FieldDie) :
    Sends 1 { f with tim := { f.tim with pdSeq := modAt f.tim.pdSeq p (fun s => (s + 1) % 65536) } } (delayAsked p f) :=
  engineSend_sends (by omega) (by decide) none _ _

theorem portStat_not_queueReg (hp : p < 12) : ¬ queueReg (F_TIM_PORT_STAT p) := by
  unfold queueReg F_TIM_PORT_STAT F_TIM_EVT F_TIM_EVT_INFO F_XNG_EVT
  omega

theorem delayAsked_shown (hp : p < 12) (hlen : f.tim.pdSeq.length = 12) :
    (delayAsked p f).get (F_TIM_PORT_STAT_lost p) = f.get (F_TIM_PORT_STAT_lost p) ∧
      (delayAsked p f).tim.pdMeasured = f.tim.pdMeasured ∧
      (delayAsked p f).tim.pdSeq.getD p 0 = (f.tim.pdSeq.getD p 0 + 1) % 65536 := by
  have sends := delayAsked_sends hp f
  have seq := tim_eq_of_side TimeX.pdSeq (fun _ => rfl) sends.low.side
  have measured := tim_eq_of_side TimeX.pdMeasured (fun _ => rfl) sends.low.side
  refine ⟨(FieldDie.get_eq _ (sends.regs _ (portStat_not_queueReg hp))).trans rfl, measured, ?_⟩
  rw [seq]
  exact getD_modAt_self (by omega) _ 0

theorem mld_ne (p q : Nat) : F_TIM_PORT_MLD p ≠ F_TIM_PORT_NRR q ∧ F_TIM_PORT_MLD p ≠ F_TIM_PORT_STAT q ∧
    F_TIM_PORT_NRR p ≠ F_TIM_PORT_STAT q := by
  unfold F_TIM_PORT_MLD F_TIM_PORT_NRR F_TIM_PORT_STAT
  omega

theorem put_lost (p v : Nat) (hv : v < 256) (f : FieldDie) : (f.put (F_TIM_PORT_STAT_lost p) v).get (F_TIM_PORT_STAT_lost p) = v := by
  rw [FieldDie.get_put f (F_TIM_PORT_STAT_lost p) v (by show 8 ≤ 15; decide) (by show 15 < 32; decide)]
  exact Nat.mod_eq_of_lt hv

theorem delayTold_shown (p mld nrr : Nat) (f : FieldDie) :
    (delayTold p mld nrr f).rd (F_TIM_PORT_MLD p) = word mld ∧ (delayTold p mld nrr f).rd (F_TIM_PORT_NRR p) = word nrr ∧
      (delayTold p mld nrr f).get (F_TIM_PORT_STAT_lost p) = 0 ∧ hasBit (delayTold p mld nrr f).tim.pdMeasured p = true ∧
      (delayTold p mld nrr f).tim.pdSeq = f.tim.pdSeq := by
  obtain ⟨hmn, hms, hns⟩ := mld_ne p p
  unfold delayTold
  refine ⟨?_, ?_, put_lost p 0 (by decide) _, ?_, ?_⟩
  · rw [FieldDie.rd_put_ne _ (F_TIM_PORT_STAT_lost p) _ _ hms, FieldDie.rd_wrN, if_neg hmn, FieldDie.rd_wrN, if_pos rfl]
  · rw [FieldDie.rd_put_ne _ (F_TIM_PORT_STAT_lost p) _ _ hns, FieldDie.rd_wrN, if_pos rfl]
  · rw [FieldDie.put_tim, FieldDie.wrN_tim, FieldDie.wrN_tim, hasBit_setBit]
    simp
  · rw [FieldDie.put_tim, FieldDie.wrN_tim, FieldDie.wrN_tim]

/-- The registers that an answer or its loss moves. -/
def exchangeRegs (p : Nat) : List Nat := [F_TIM_PORT_MLD p, F_TIM_PORT_NRR p, F_TIM_PORT_STAT p]

theorem delayTold_timeMoves (p mld nrr : Nat) (f : FieldDie) : TimeMoves (exchangeRegs p) f (delayTold p mld nrr f) := by
  refine TimeMoves.trans (setTim_timeMoves f { f.tim with pdMeasured := setBit f.tim.pdMeasured p }) (SoftMoves.timeMoves ?_)
  unfold delayTold
  generalize ({ f with tim := { f.tim with pdMeasured := setBit f.tim.pdMeasured p } } : FieldDie) = g
  have mld : SoftMoves (exchangeRegs p) g (g.wrN (F_TIM_PORT_MLD p) mld) := FieldDie.wrN_softMoves List.mem_cons_self g _
  exact (mld.trans (FieldDie.wrN_softMoves (List.mem_cons_of_mem _ List.mem_cons_self) _ _)).trans
    (FieldDie.put_softMoves (r := F_TIM_PORT_STAT_lost p) (List.mem_cons_of_mem _ (List.mem_cons_of_mem _ List.mem_cons_self)) _ 0)

theorem delayLost_timeMoves (p : Nat) (f : FieldDie) : TimeMoves (exchangeRegs p) f (delayLost p f) :=
  (FieldDie.put_softMoves (r := F_TIM_PORT_STAT_lost p) (List.mem_cons_of_mem _ (List.mem_cons_of_mem _ List.mem_cons_self)) f _).timeMoves

theorem LowSame.withTim (a : LowSame f g) (x : TimeX) : LowSame { f with tim := x } { g with tim := x } :=
  ⟨congrArg (fun r : FieldDie => { r with tim := { x with tsq := [] } }) a.side, a.rd⟩

/-- The end of a command in which the engine has sent, and then moved registers of time alone. -/
theorem sent_frame {x : TimeX} (a : LowSame { s.fld with tim := x } f) (m : TimeMoves but f g) (h : ∀ a ∈ but, 0x140000 ≤ a) :
    LowFrame [] { s.fld with ptp := (settle g).ptp, tim := (settle g).tim } s { s with fld := settle g } := by
  rw [settle_ptp, settle_tim]
  have sent : LowSame { s.fld with ptp := g.ptp, tim := g.tim } { f with ptp := g.ptp, tim := g.tim } := (a.withPtp g.ptp).withTim g.tim
  exact ((sent.lowMoves []).trans (SoftMoves.lowAbove m h)).frame rfl

/-- The registers of an exchange and of the roles after it. -/
def delayRegs (p : Nat) : List Nat := exchangeRegs p ++ allPtpRegs

theorem delayRegs_ge : ∀ a ∈ delayRegs p, 0x140000 ≤ a := by
  intro a ha
  obtain h | h := List.mem_append.1 ha
  · simp only [exchangeRegs, F_TIM_PORT_MLD, F_TIM_PORT_NRR, F_TIM_PORT_STAT, List.mem_cons, List.not_mem_nil, or_false] at h
    omega
  · exact (List.mem_append.1 h).elim (ptpRegs_ge a) (ptpRegs_ge a)

theorem settle_delayView (hp : p < 12) (f : FieldDie) : DelayView p f (settle f) := by
  refine delayView_of (fun a ha => settle_rd_of_notMem f (ha.notMem hp).2) ?_ (congrArg TimeX.pdMeasured (settle_tim f))
    (congrArg TimeX.pdSeq (settle_tim f))
  exact settle_get_of_notMem (r := F_TIM_PORT_STAT_lost p) (portStat_notMem hp 0 (by decide)).2

/-- as_capable after the command. -/
theorem settle_refreshCapable (hp : p < 12) (f : FieldDie) : (settle (refreshCapable p f)).get (F_TIM_PORT_STAT_as_capable p) =
    if asCapable (settle (refreshCapable p f)) p then 1 else 0 := by
  rw [(settle_delayView hp _).asCapable, ← refreshCapable_shows hp]
  exact settle_get_of_notMem (r := F_TIM_PORT_STAT_as_capable p) (portStat_notMem hp 0 (by decide)).2

theorem exchange_timeMoves (hp : p < 12) (m : TimeMoves (exchangeRegs p) f g) : TimeMoves (delayRegs p) f (refreshCapable p g) :=
  (m.mono fun _ h => List.mem_append_left _ h).trans ((refreshCapable_timeMoves hp g).mono fun _ h => List.mem_append_right _ h)

theorem pdelay_clause (s : State) (p mld nrr : Nat) (answered : Bool) (hr : s.fld.phase = .running) (hs : Shape s) (hp : p < 12)
    (hen : s.fld.flag (F_TIM_PORT_PDLY_pdelay_en p) = true) (hport : ptpPort s.fld p = true) :
    ∃ t, exec (.pdelayExchange p answered mld nrr) s = .next t ∧
      (answered = true → t.fld.rd (F_TIM_PORT_MLD p) = word mld ∧ t.fld.rd (F_TIM_PORT_NRR p) = word nrr ∧
        t.fld.get (F_TIM_PORT_STAT_lost p) = 0 ∧ hasBit t.fld.tim.pdMeasured p = true) ∧
      (answered = false → t.fld.get (F_TIM_PORT_STAT_lost p) = min 255 (s.fld.get (F_TIM_PORT_STAT_lost p) + 1) ∧
        t.fld.tim.pdMeasured = s.fld.tim.pdMeasured) ∧
      t.fld.get (F_TIM_PORT_STAT_as_capable p) = (if asCapable t.fld p then 1 else 0) ∧
      t.fld.tim.pdSeq.getD p 0 = (s.fld.tim.pdSeq.getD p 0 + 1) % 65536 ∧
      LowFrame [] { s.fld with ptp := t.fld.ptp, tim := t.fld.tim } s t := by
  have step := State.onItem_running (g := pdelayExchange p answered mld nrr) hr hp
  rw [pdelayExchange_of_on hen hport] at step
  obtain ⟨lost, measured, seq⟩ := delayAsked_shown hp hs.pdSeq
  have sends := (delayAsked_sends hp s.fld).low
  generalize delayAsked p s.fld = f at step lost measured seq sends
  cases answered with
  | true =>
    rw [if_pos rfl] at step
    obtain ⟨mldShown, nrrShown, none, hit, seqKept⟩ := delayTold_shown p mld nrr f
    have moves := exchange_timeMoves hp (delayTold_timeMoves p mld nrr f)
    generalize delayTold p mld nrr f = g at step mldShown nrrShown none hit seqKept moves
    have view := (refreshCapable_delayView hp g).trans (settle_delayView hp _)
    refine ⟨_, step, fun _ => ⟨view.mld.trans mldShown, view.nrr.trans nrrShown, view.lost.trans none, ?_⟩, fun h => (by cases h),
      settle_refreshCapable hp g, ?_, sent_frame sends moves delayRegs_ge⟩
    · dsimp only
      rw [view.measured, hit]
    · dsimp only
      rw [view.seq, seqKept, seq]
  | false =>
    rw [if_neg Bool.false_ne_true] at step
    have counted := put_lost p (min 255 (f.get (F_TIM_PORT_STAT_lost p) + 1)) (by omega) f
    have moves := exchange_timeMoves hp (delayLost_timeMoves p f)
    have tim : (delayLost p f).tim = f.tim := FieldDie.put_tim _ _ _
    change (delayLost p f).get (F_TIM_PORT_STAT_lost p) = _ at counted
    generalize delayLost p f = g at step moves tim counted
    have view := (refreshCapable_delayView hp g).trans (settle_delayView hp _)
    refine ⟨_, step, fun h => (by cases h), fun _ => ⟨?_, ?_⟩, settle_refreshCapable hp g, ?_, sent_frame sends moves delayRegs_ge⟩
    · exact (view.lost.trans counted).trans (by rw [lost])
    · exact (view.measured.trans (congrArg TimeX.pdMeasured tim)).trans measured
    · dsimp only
      rw [view.seq, tim, seq]

/-- Settles O42, clause by clause: the engine's steps move registers and records of time, and what it sends the queues. -/
theorem gptpEngine : Obligations.GptpEngine := by
  unfold Obligations.GptpEngine
  exact ⟨fun s n p x hr hs hn hx hon hpath hp hnew hlo hhi hwake => syncReceive_clause s n p x hr hs hn hx hon hpath hp hnew hlo hhi hwake,
    fun s n hr _ hn hon hpath => syncTimeout_clause s n hr hn hon hpath,
    syncSend_clause, announceSend_clause, announceTimeout_clause, unknownDomain_clause, sync_clause, pdelay_clause⟩

end Sys2Proof.Machine
end

section
/-! The lists that stand for a fixed number of like things on the field die: every operation, in the order of the definitions,
leaves each as long as it was. -/

namespace Sys2Proof.Machine

/-! ### How long the lists are -/

/-- How long each list is that stands for a fixed number of like things. -/
structure Sizes where
  ports : Nat
  segs : Nat
  gates : Nat
  ptp : Nat
  shutters : Nat
  captures : Nat
  capLast : Nat
  tsq : Nat
  pdSeq : Nat
  differ : Nat
  lineLive : Nat
  lineAbove : Nat
  lineOff : Nat
  lineClass : Nat
  sccp : Nat

/-- The lengths on a field die. -/
def FieldDie.sizes (f : FieldDie) : Sizes where
  ports := f.ports.length
  segs := f.segs.length
  gates := f.gates.length
  ptp := f.ptp.length
  shutters := f.tim.shutters.length
  captures := f.tim.captures.length
  capLast := f.tim.capLast.length
  tsq := f.tim.tsq.length
  pdSeq := f.tim.pdSeq.length
  differ := f.pin.differ.length
  lineLive := f.pwr.lineLive.length
  lineAbove := f.pwr.lineAbove.length
  lineOff := f.pwr.lineOff.length
  lineClass := f.pwr.lineClass.length
  sccp := f.pwr.sccp.length

@[simp] theorem modAt_length {α : Type} (xs : List α) (i : Nat) (p : α → α) : (modAt xs i p).length = xs.length := by
  simp [modAt]

@[simp] theorem FieldDie.length_ports (f : FieldDie) : f.ports.length = f.sizes.ports := rfl
@[simp] theorem FieldDie.length_segs (f : FieldDie) : f.segs.length = f.sizes.segs := rfl
@[simp] theorem FieldDie.length_gates (f : FieldDie) : f.gates.length = f.sizes.gates := rfl
@[simp] theorem FieldDie.length_ptp (f : FieldDie) : f.ptp.length = f.sizes.ptp := rfl
@[simp] theorem FieldDie.length_shutters (f : FieldDie) : f.tim.shutters.length = f.sizes.shutters := rfl
@[simp] theorem FieldDie.length_captures (f : FieldDie) : f.tim.captures.length = f.sizes.captures := rfl
@[simp] theorem FieldDie.length_capLast (f : FieldDie) : f.tim.capLast.length = f.sizes.capLast := rfl
@[simp] theorem FieldDie.length_tsq (f : FieldDie) : f.tim.tsq.length = f.sizes.tsq := rfl
@[simp] theorem FieldDie.length_pdSeq (f : FieldDie) : f.tim.pdSeq.length = f.sizes.pdSeq := rfl
@[simp] theorem FieldDie.length_differ (f : FieldDie) : f.pin.differ.length = f.sizes.differ := rfl
@[simp] theorem FieldDie.length_lineLive (f : FieldDie) : f.pwr.lineLive.length = f.sizes.lineLive := rfl
@[simp] theorem FieldDie.length_lineAbove (f : FieldDie) : f.pwr.lineAbove.length = f.sizes.lineAbove := rfl
@[simp] theorem FieldDie.length_lineOff (f : FieldDie) : f.pwr.lineOff.length = f.sizes.lineOff := rfl
@[simp] theorem FieldDie.length_lineClass (f : FieldDie) : f.pwr.lineClass.length = f.sizes.lineClass := rfl
@[simp] theorem FieldDie.length_sccp (f : FieldDie) : f.pwr.sccp.length = f.sizes.sccp := rfl

/-- The lengths of a die given by its parts. -/
@[simp] theorem sizes_mk {order dieId straps phase resetBy reg staged cnt snapHost snapSerial window arrivals launch winMod evtq evtLost xng twin cfg flt twn pwr ports segs gates ptp tim str fwd buf key spi pin ptb freeCtr out} :
    (FieldDie.mk order dieId straps phase resetBy reg staged cnt snapHost snapSerial window arrivals launch winMod evtq evtLost xng twin cfg flt twn pwr ports segs gates ptp tim str fwd buf key spi pin ptb freeCtr out).sizes =
      ⟨ports.length, segs.length, gates.length, ptp.length, tim.shutters.length, tim.captures.length, tim.capLast.length,
        tim.tsq.length, tim.pdSeq.length, pin.differ.length, pwr.lineLive.length, pwr.lineAbove.length, pwr.lineOff.length,
        pwr.lineClass.length, pwr.sccp.length⟩ := rfl

/-! ### Branches and repetitions -/

@[simp] theorem ite_sizes (c : Prop) [Decidable c] (f g : FieldDie) :
    (if c then f else g).sizes = if c then f.sizes else g.sizes := apply_ite _ _ _ _

@[simp] theorem forAll_sizes {α : Type} {k : α → FieldDie → FieldDie} (h : ∀ x f, (k x f).sizes = f.sizes) (xs : List α)
    (f : FieldDie) : (forAll xs k f).sizes = f.sizes := by
  unfold forAll
  induction xs generalizing f with
  | nil => rfl
  | cons x xs ih => exact (ih (k x f)).trans (h x f)

@[simp] theorem forRange_sizes {k : Nat → FieldDie → FieldDie} (h : ∀ n f, (k n f).sizes = f.sizes) (n : Nat)
    (f : FieldDie) : (forRange n k f).sizes = f.sizes := forAll_sizes h (List.range n) f

/-- The die among the answers of an operation, once the operation has been split into them. -/
theorem snd_sizes {α : Type} {p : α × FieldDie} {a : α} {g : FieldDie} (h : p = (a, g)) : g.sizes = p.2.sizes := by
  rw [h]

theorem foldl_sizes {α β : Type} {k : α × FieldDie → β → α × FieldDie} (h : ∀ a x, (k a x).2.sizes = a.2.sizes)
    (xs : List β) (a : α × FieldDie) : (xs.foldl k a).2.sizes = a.2.sizes := by
  induction xs generalizing a with
  | nil => rfl
  | cons x xs ih => exact (ih (k a x)).trans (h a x)

/-! ### Registers, events and messages -/

@[simp] theorem FieldDie.wr_sizes (f : FieldDie) (a : Nat) (w : Word) : (f.wr a w).sizes = f.sizes := rfl
@[simp] theorem FieldDie.wrN_sizes (f : FieldDie) (a v : Nat) : (f.wrN a v).sizes = f.sizes := rfl
@[simp] theorem FieldDie.put_sizes (f : FieldDie) (r : Fld) (v : Nat) : (f.put r v).sizes = f.sizes := rfl
@[simp] theorem FieldDie.bump_sizes (f : FieldDie) (r : Fld) (n : Nat) : (f.bump r n).sizes = f.sizes := rfl
@[simp] theorem FieldDie.countN_sizes (f : FieldDie) (a n : Nat) : (f.countN a n).sizes = f.sizes := rfl
@[simp] theorem FieldDie.count_sizes (f : FieldDie) (a : Nat) : (f.count a).sizes = f.sizes := rfl
@[simp] theorem FieldDie.emit_sizes (f : FieldDie) (o : Output) : (f.emit o).sizes = f.sizes := rfl
@[simp] theorem FieldDie.setFlag_sizes (f : FieldDie) (a b : Nat) : (f.setFlag a b).sizes = f.sizes :=
  FieldDie.wrN_sizes f a _
@[simp] theorem FieldDie.napBreak_sizes (f : FieldDie) : f.napBreak.sizes = f.sizes := rfl

@[simp] theorem FieldDie.setPortX_sizes (f : FieldDie) (n : Nat) (p : PortX → PortX) : (f.setPortX n p).sizes = f.sizes := by
  simp [FieldDie.setPortX]

@[simp] theorem FieldDie.setSegX_sizes (f : FieldDie) (n : Nat) (p : SegX → SegX) : (f.setSegX n p).sizes = f.sizes := by
  simp [FieldDie.setSegX]

@[simp] theorem FieldDie.setGateX_sizes (f : FieldDie) (n : Nat) (p : GateX → GateX) : (f.setGateX n p).sizes = f.sizes := by
  simp [FieldDie.setGateX]

@[simp] theorem FieldDie.setPtpX_sizes (f : FieldDie) (n : Nat) (p : PtpX → PtpX) : (f.setPtpX n p).sizes = f.sizes := by
  simp [FieldDie.setPtpX]

@[simp] theorem FieldDie.queueEvt_sizes (f : FieldDie) (u : FlowUnit) : (f.queueEvt u).sizes = f.sizes := by
  simp [FieldDie.queueEvt]

@[simp] theorem FieldDie.raise_sizes (f : FieldDie) (a b : Nat) : (f.raise a b).sizes = f.sizes := by
  simp [FieldDie.raise]


@[simp] theorem FieldDie.free_sizes (f : FieldDie) : f.free.2.sizes = f.sizes := rfl
@[simp] theorem FieldDie.countDrop_sizes (f : FieldDie) (n code : Nat) : (f.countDrop n code).sizes = f.sizes := rfl

@[simp] theorem FieldDie.countQDrop_sizes (f : FieldDie) (n q code : Nat) :
    (f.countQDrop n q code).sizes = f.sizes := by
  unfold FieldDie.countQDrop
  split
  all_goals simp -implicitDefEqProofs

@[simp] theorem FieldDie.setLink_sizes (f : FieldDie) (who : LinkId) (p : Link → Link) :
    (f.setLink who p).sizes = f.sizes := by
  simp [FieldDie.setLink]

@[simp] theorem FieldDie.emitUnit_sizes (f : FieldDie) (who : LinkId) (seed : Nat) (u : FlowUnit) :
    (f.emitUnit who seed u).sizes = f.sizes := rfl

@[simp] theorem FieldDie.putUnit_sizes (f : FieldDie) (who : LinkId) (seed : Nat) (u : FlowUnit) :
    (f.putUnit who seed u).sizes = f.sizes := by
  simp [FieldDie.putUnit]

@[simp] theorem FieldDie.sendXng_sizes (f : FieldDie) (u : FlowUnit) : (f.sendXng u).sizes = f.sizes := by
  simp [FieldDie.sendXng]

@[simp] theorem FieldDie.sendTwin_sizes (f : FieldDie) (u : FlowUnit) : (f.sendTwin u).sizes = f.sizes := by
  simp [FieldDie.sendTwin]

@[simp] theorem FieldDie.announce_sizes (f : FieldDie) (kind : Nat) : (f.announce kind).sizes = f.sizes := by
  simp [FieldDie.announce]

@[simp] theorem FieldDie.touchProof_sizes (f : FieldDie) : f.touchProof.sizes = f.sizes := by
  simp [FieldDie.touchProof]

/-! ### The shared buffer -/

@[simp] theorem tsqPush_sizes (n : Nat) (e : TsEntry) (f : FieldDie) : (tsqPush n e f).sizes = f.sizes := by
  simp [tsqPush]

@[simp] theorem tsqFrame_sizes (fr : Frame) (n status reason ts : Nat) (f : FieldDie) :
    (tsqFrame fr n status reason ts f).sizes = f.sizes := by
  unfold tsqFrame
  split
  all_goals simp -implicitDefEqProofs

@[simp] theorem FieldDie.setFrame_sizes (f : FieldDie) (id : Nat) (p : Frame → Frame) :
    (f.setFrame id p).sizes = f.sizes := rfl

@[simp] theorem refreshPool_sizes (f : FieldDie) : (refreshPool f).sizes = f.sizes := by simp [refreshPool]
@[simp] theorem raiseWm_sizes (n q : Nat) (f : FieldDie) : (raiseWm n q f).sizes = f.sizes := by simp [raiseWm]

@[simp] theorem chargeSub_sizes (n q c : Nat) (reserve : Bool) (f : FieldDie) :
    (chargeSub n q c reserve f).sizes = f.sizes := by
  simp [chargeSub]

@[simp] theorem releaseCopy_sizes (c : Copy) (f : FieldDie) : (releaseCopy c f).sizes = f.sizes := by
  simp [releaseCopy]

@[simp] theorem discardCopy_sizes (code : Nat) (c : Copy) (f : FieldDie) :
    (discardCopy code c f).sizes = f.sizes := by
  simp [discardCopy]

@[simp] theorem discardQueued_sizes (p : Copy → Bool) (code : Nat) (f : FieldDie) :
    (discardQueued p code f).sizes = f.sizes := by
  simp [discardQueued]

@[simp] theorem emptyPort_sizes (n code : Nat) (f : FieldDie) : (emptyPort n code f).sizes = f.sizes := by
  simp [emptyPort]

@[simp] theorem noteDrained_sizes (n : Nat) (f : FieldDie) : (noteDrained n f).sizes = f.sizes := by
  simp [noteDrained]

@[simp] theorem admitCopy_sizes (fr : Frame) (c : Copy) (f : FieldDie) : (admitCopy fr c f).2.sizes = f.sizes := by
  simp only [admitCopy]
  repeat' split
  all_goals simp -implicitDefEqProofs [noCell, placeCopy, chargeAdd]

@[simp] theorem admitCopies_sizes (fr : Frame) (cs : List Copy) (f : FieldDie) :
    (admitCopies fr cs f).2.sizes = f.sizes := by
  unfold admitCopies
  exact foldl_sizes (fun a c => by simp) cs ([], f)

@[simp] theorem dropFrameCopies_sizes (id reason : Nat) (f : FieldDie) :
    (dropFrameCopies id reason f).sizes = f.sizes := by
  simp [dropFrameCopies]

@[simp] theorem forgetFrames_sizes (f : FieldDie) : (forgetFrames f).sizes = f.sizes := rfl

/-! ### The filtering database -/

@[simp] theorem fdbChanged_sizes (i : Nat) (write : Bool) (f : FieldDie) :
    (fdbChanged i write f).sizes = f.sizes := by
  simp [fdbChanged]

@[simp] theorem fdbRecount_sizes (f : FieldDie) : (fdbRecount f).sizes = f.sizes := by simp [fdbRecount]

@[simp] theorem fdbInvalidate_sizes (i : Nat) (f : FieldDie) : (fdbInvalidate i f).sizes = f.sizes := by
  simp [fdbInvalidate]

@[simp] theorem fdbPurge_sizes (p : FdbEntry → Bool) (f : FieldDie) : (fdbPurge p f).sizes = f.sizes := by
  simp [fdbPurge]

@[simp] theorem setActive_sizes (p v : Nat) (f : FieldDie) : (setActive p v f).sizes = f.sizes := by simp [setActive]

@[simp] theorem memberDown_sizes (n : Nat) (f : FieldDie) : (memberDown n f).sizes = f.sizes := by
  unfold memberDown
  split
  all_goals simp -implicitDefEqProofs

@[simp] theorem fdbWrite_sizes (i : Nat) (e : FdbEntry) (f : FieldDie) : (fdbWrite i e f).sizes = f.sizes := by
  simp [fdbWrite]

@[simp] theorem meetCycle_sizes (f : FieldDie) : (meetCycle f).sizes = f.sizes := by simp [meetCycle]

@[simp] theorem fdbRevive_sizes (addr vid : Nat) (f : FieldDie) : (fdbRevive addr vid f).sizes = f.sizes := by
  unfold fdbRevive
  split
  all_goals simp -implicitDefEqProofs

@[simp] theorem fdbLearn_sizes (n addr vid : Nat) (f : FieldDie) : (fdbLearn n addr vid f).sizes = f.sizes := by
  simp only [fdbLearn]
  repeat' split
  all_goals simp -implicitDefEqProofs

/-! ### Meters -/

@[simp] theorem setBucket_sizes (m b v : Nat) (f : FieldDie) : (setBucket m b v f).sizes = f.sizes := rfl

@[simp] theorem setMeterFrac_sizes (m : Nat) (v : List Nat) (f : FieldDie) : (setMeterFrac m v f).sizes = f.sizes :=
  rfl

@[simp] theorem meterTick_sizes (m : Nat) (f : FieldDie) : (meterTick m f).sizes = f.sizes := by
  simp -implicitDefEqProofs [meterTick]

@[simp] theorem meterFill_sizes (m : Nat) (full : Bool) (f : FieldDie) : (meterFill m full f).sizes = f.sizes := by
  simp [meterFill]

@[simp] theorem meterReturn_sizes (m b n : Nat) (f : FieldDie) : (meterReturn m b n f).sizes = f.sizes := by
  simp [meterReturn]

@[simp] theorem meterFrame_sizes (m len colour : Nat) (f : FieldDie) :
    (meterFrame m len colour f).2.sizes = f.sizes := by
  simp only [meterFrame]
  repeat' split
  all_goals simp -implicitDefEqProofs

@[simp] theorem setOctetSum_sizes (w cyc v : Nat) (f : FieldDie) : (setOctetSum w cyc v f).sizes = f.sizes := by
  simp [setOctetSum]

@[simp] theorem settleStage4_sizes (fr : Frame) (len : Nat) (f : FieldDie) :
    (settleStage4 fr len f).sizes = f.sizes := by
  simp only [settleStage4]
  repeat' split
  all_goals simp -implicitDefEqProofs

@[simp] theorem revertStage4_sizes (fr : Frame) (f : FieldDie) : (revertStage4 fr f).sizes = f.sizes := by
  simp only [revertStage4]
  repeat' split
  all_goals simp -implicitDefEqProofs

@[simp] theorem settleRate_sizes (id len : Nat) (f : FieldDie) : (settleRate id len f).sizes = f.sizes := by
  simp [settleRate]

@[simp] theorem rejectFrame_sizes (fr : Frame) (reason : Nat) (f : FieldDie) :
    (rejectFrame fr reason f).sizes = f.sizes := by
  simp [rejectFrame]

@[simp] theorem resumeAssembly_sizes (n : Nat) (f : FieldDie) : (resumeAssembly n f).sizes = f.sizes := rfl

/-! ### Faults -/

@[simp] theorem setRole_sizes (r : Nat) (f : FieldDie) : (setRole r f).sizes = f.sizes := by
  simp -implicitDefEqProofs [setRole]

@[simp] theorem cancelHandover_sizes (f : FieldDie) : (cancelHandover f).sizes = f.sizes := rfl
@[simp] theorem postTwin_sizes (u : FlowUnit) (f : FieldDie) : (postTwin u f).sizes = f.sizes := by simp [postTwin]
@[simp] theorem enterFailed_sizes (f : FieldDie) : (enterFailed f).sizes = f.sizes := by simp [enterFailed]

@[simp] theorem latchFault_sizes (code inst : Nat) (f : FieldDie) : (latchFault code inst f).sizes = f.sizes := by
  simp -implicitDefEqProofs [latchFault, faultEvt, logFault, takeoverFault]

@[simp] theorem refreshCover_sizes (f : FieldDie) : (refreshCover f).sizes = f.sizes := by simp [refreshCover]

@[simp] theorem pumpXng_sizes (k : Nat) (f : FieldDie) : (pumpXng k f).sizes = f.sizes := by
  induction k generalizing f with
  | zero => rfl
  | succ k ih =>
    unfold pumpXng
    split
    · rfl
    · split
      · simp [ih]
      · split
        · simp [ih]
        · rfl

@[simp] theorem pumpTwin_sizes (k : Nat) (f : FieldDie) : (pumpTwin k f).sizes = f.sizes := by
  induction k generalizing f with
  | zero => rfl
  | succ k ih =>
    unfold pumpTwin
    split
    · rfl
    · split
      · simp [ih]
      · rfl

/-! ### Counters and the end of a command -/

@[simp] theorem writeSnap_sizes (req data : Nat) (f : FieldDie) : (writeSnap req data f).sizes = f.sizes := by
  simp [writeSnap]

/-! ### Ports -/

@[simp] theorem clearCredits_sizes (n : Nat) (f : FieldDie) : (clearCredits n f).sizes = f.sizes := by
  simp -implicitDefEqProofs [clearCredits]

@[simp] theorem abortTx_sizes (n : Nat) (f : FieldDie) : (abortTx n f).sizes = f.sizes := by
  simp only [abortTx]
  repeat' split
  all_goals simp -implicitDefEqProofs [abortCopy]

@[simp] theorem truncateRx_sizes (n : Nat) (f : FieldDie) : (truncateRx n f).sizes = f.sizes := by simp [truncateRx]

@[simp] theorem refreshPreempt_sizes (n : Nat) (f : FieldDie) : (refreshPreempt n f).sizes = f.sizes := by
  simp [refreshPreempt]

@[simp] theorem startVerify_sizes (n : Nat) (f : FieldDie) : (startVerify n f).sizes = f.sizes := by
  simp [startVerify]

@[simp] theorem showState_sizes (n old st reason : Nat) (f : FieldDie) :
    (showState n old st reason f).sizes = f.sizes := by
  simp [showState]

@[simp] theorem leaveUp_sizes (n old st : Nat) (f : FieldDie) : (leaveUp n old st f).sizes = f.sizes := by
  simp [leaveUp]

@[simp] theorem nowDown_sizes (n old st : Nat) (f : FieldDie) : (nowDown n old st f).sizes = f.sizes := by
  simp [nowDown, quietSegment, flushOnDown]

@[simp] theorem nowUp_sizes (n old st : Nat) (f : FieldDie) : (nowUp n old st f).sizes = f.sizes := by simp [nowUp]
@[simp] theorem sleepCut_sizes (n : Nat) (f : FieldDie) : (sleepCut n f).sizes = f.sizes := by simp [sleepCut]

@[simp] theorem enterState_sizes (n st reason : Nat) (f : FieldDie) :
    (enterState n st reason f).sizes = f.sizes := by
  simp [enterState]

@[simp] theorem holdBegin_sizes (n reason : Nat) (f : FieldDie) : (holdBegin n reason f).sizes = f.sizes := by
  simp [holdBegin]

@[simp] theorem holdEnd_sizes (n reason : Nat) (f : FieldDie) : (holdEnd n reason f).sizes = f.sizes := by
  simp [holdEnd]

@[simp] theorem disablePort_sizes (n : Nat) (f : FieldDie) : (disablePort n f).sizes = f.sizes := by
  simp -implicitDefEqProofs [disablePort]

@[simp] theorem enablePort_sizes (n : Nat) (f : FieldDie) : (enablePort n f).sizes = f.sizes := by
  simp only [enablePort]
  repeat' split
  all_goals simp -implicitDefEqProofs

@[simp] theorem modeChanged_sizes (n old : Nat) (f : FieldDie) : (modeChanged n old f).sizes = f.sizes := by
  simp -implicitDefEqProofs [modeChanged]

@[simp] theorem votedMode_sizes (n : Nat) (f : FieldDie) : (votedMode n f).sizes = f.sizes := by simp [votedMode]
@[simp] theorem trySleep_sizes (n : Nat) (f : FieldDie) : (trySleep n f).sizes = f.sizes := by simp [trySleep]

@[simp] theorem declareLost_sizes (n : Nat) (f : FieldDie) : (declareLost n f).sizes = f.sizes := by
  simp [declareLost]

@[simp] theorem beginPersist_sizes (n : Nat) (f : FieldDie) : (beginPersist n f).sizes = f.sizes := by
  simp [beginPersist]

@[simp] theorem sendBurst_sizes (n : Nat) (f : FieldDie) : (sendBurst n f).sizes = f.sizes := by simp [sendBurst]

@[simp] theorem startWake_sizes (n : Nat) (windowed : Bool) (f : FieldDie) :
    (startWake n windowed f).sizes = f.sizes := by
  simp [startWake]

@[simp] theorem wakePort_sizes (n : Nat) (windowed : Bool) (f : FieldDie) :
    (wakePort n windowed f).sizes = f.sizes := by
  simp [wakePort]

/-! ### Parsing and classification -/

@[simp] theorem capture_sizes (n : Nat) (r : ClsResult) (f : FieldDie) : (capture n r f).sizes = f.sizes := by
  unfold capture
  split
  · rw [FieldDie.put_sizes, FieldDie.wrN_sizes, forRange_sizes fun k f => FieldDie.wrN_sizes f _ _]
    rfl
  · rfl

@[simp] theorem countFinal_sizes (n : Nat) (r : ClsResult) (f : FieldDie) : (countFinal n r f).sizes = f.sizes := by
  simp [countFinal]

/-! ### Streams -/

@[simp] theorem oversizeStream_sizes (i : Nat) (blocks : Bool) (f : FieldDie) :
    (oversizeStream i blocks f).sizes = f.sizes := by
  simp [oversizeStream, blockStream]

@[simp] theorem latchGate_sizes (p : Nat) (f : FieldDie) : (latchGate p f).sizes = f.sizes := by simp [latchGate]

@[simp] theorem streamGate_sizes (fr : Frame) (i queue colour len : Nat) (f : FieldDie) :
    (streamGate fr i queue colour len f).2.sizes = f.sizes := by
  simp only [streamGate]
  repeat' split
  all_goals simp -implicitDefEqProofs

@[simp] theorem streamMeter_sizes (fr : Frame) (i queue colour len : Nat) (f : FieldDie) :
    (streamMeter fr i queue colour len f).2.sizes = f.sizes := by
  simp only [streamMeter]
  repeat' split
  all_goals simp -implicitDefEqProofs

@[simp] theorem stage4_sizes (fr : Frame) (r : ClsResult) (f : FieldDie) : (stage4 fr r f).2.sizes = f.sizes := by
  unfold stage4
  dsimp only
  split
  · rfl
  · split_ifs
    · simp
    · rfl
    · split
      next hgate => simp [snd_sizes hgate]
      next hgate =>
        split
        next hmeter => simp [snd_sizes hmeter, snd_sizes hgate]
        next hmeter => simp [snd_sizes hmeter, snd_sizes hgate]

/-! ### Forwarding -/

@[simp] theorem stageDrop_sizes (fr : Frame) (code : Nat) (f : FieldDie) :
    (stageDrop fr code f).sizes = f.sizes := by
  simp [stageDrop]

@[simp] theorem mirrorCopies_sizes (fr : Frame) (set queue colour cells : Nat) (f : FieldDie) :
    (mirrorCopies fr set queue colour cells f).2.sizes = f.sizes := by
  unfold mirrorCopies
  refine foldl_sizes (fun a s => ?_) (List.range 2) ([], f)
  dsimp only
  split_ifs
  all_goals simp

@[simp] theorem stage6_sizes (fr : Frame) (r : ClsResult) (set queue colour : Nat) (f : FieldDie) :
    (stage6 fr r set queue colour f).sizes = f.sizes := by
  simp [stage6, wakeOnTx]

@[simp] theorem decide_sizes (fr : Frame) (r : ClsResult) (f : FieldDie) : (decide_ fr r f).sizes = f.sizes := rfl

@[simp] theorem finish_sizes (fr : Frame) (r : ClsResult) (f : FieldDie) : (finish fr r f).sizes = f.sizes := by
  unfold finish
  dsimp only
  split
  · simp
  · split
    next hdrop => simp [snd_sizes hdrop]
    next hpass =>
      split
      all_goals simp -implicitDefEqProofs [snd_sizes hpass]

@[simp] theorem takeBytes_sizes (n : Nat) (bs : List Byte) (f : FieldDie) : (takeBytes n bs f).sizes = f.sizes := by
  unfold takeBytes
  split
  all_goals simp -implicitDefEqProofs

@[simp] theorem shortPassOp_sizes (n : Nat) (bytes : List Byte) (f : FieldDie) :
    (shortPassOp n bytes f).sizes = f.sizes := by
  simp only [shortPassOp]
  repeat' split
  all_goals simp -implicitDefEqProofs

@[simp] theorem fullPassOp_sizes (n : Nat) (bytes : List Byte) (f : FieldDie) :
    (fullPassOp n bytes f).sizes = f.sizes := by
  simp only [fullPassOp]
  repeat' split
  all_goals simp -implicitDefEqProofs

/-! ### Register access, locks and perturbation -/

@[simp] theorem noteAccess_sizes (req addr : Nat) (f : FieldDie) : (noteAccess req addr f).sizes = f.sizes := by
  simp [noteAccess]

@[simp] theorem lkReject_sizes (req addr : Nat) (f : FieldDie) : (lkReject req addr f).sizes = f.sizes := by
  simp [lkReject]

@[simp] theorem acquireLock_sizes (req n : Nat) (f : FieldDie) : (acquireLock req n f).2.sizes = f.sizes := by
  have granted : ∀ (g : FieldDie) (c : CfgX), ({ g with cfg := c }).sizes = g.sizes := fun _ _ => rfl
  unfold acquireLock
  dsimp only
  split
  · rfl
  · split
    · rfl
    · rw [granted, FieldDie.bump_sizes, FieldDie.put_sizes, FieldDie.put_sizes]

@[simp] theorem releaseLock_sizes (req n : Nat) (f : FieldDie) : (releaseLock req n f).sizes = f.sizes := by
  simp -implicitDefEqProofs [releaseLock]

@[simp] theorem pinFall_sizes (p : Nat → Bool) (f : FieldDie) : (pinFall p f).sizes = f.sizes := by simp [pinFall]

@[simp] theorem orphanLock_sizes (bit n : Nat) (f : FieldDie) : (orphanLock bit n f).sizes = f.sizes := by
  simp -implicitDefEqProofs [orphanLock]

@[simp] theorem orphanOwned_sizes (p : Nat → Bool) (f : FieldDie) : (orphanOwned p f).sizes = f.sizes := by
  simp [orphanOwned]

@[simp] theorem dropTmr_sizes (addr : Nat) (f : FieldDie) : (dropTmr addr f).sizes = f.sizes := rfl

@[simp] theorem storeWrite_sizes (req addr data : Nat) (f : FieldDie) :
    (storeWrite req addr data f).sizes = f.sizes := by
  unfold storeWrite
  split
  all_goals simp -implicitDefEqProofs

@[simp] theorem dropStaged_sizes (p : Nat → Bool) (f : FieldDie) : (dropStaged p f).sizes = f.sizes := rfl

@[simp] theorem clearStaged_sizes (req : Nat) (addrs : List Nat) (f : FieldDie) :
    (clearStaged req addrs f).sizes = f.sizes := rfl

@[simp] theorem applyGroup_sizes (req addr data : Nat) (f : FieldDie) :
    (applyGroup req addr data f).sizes = f.sizes := by
  simp [applyGroup]

@[simp] theorem badAccess_sizes (req addr : Nat) (f : FieldDie) : (badAccess req addr f).sizes = f.sizes := by
  simp [badAccess]

@[simp] theorem failedCleared_sizes (f : FieldDie) : (failedCleared f).sizes = f.sizes := by simp [failedCleared]

@[simp] theorem sqWrite_sizes (addr data : Nat) (f : FieldDie) : (sqWrite addr data f).sizes = f.sizes := by
  simp -implicitDefEqProofs [sqWrite, sqClearWrite]

@[simp] theorem endPtb_sizes (cause : Nat) (f : FieldDie) : (endPtb cause f).sizes = f.sizes := by
  simp -implicitDefEqProofs [endPtb]

@[simp] theorem requesterReset_sizes (p : Nat → Bool) (f : FieldDie) : (requesterReset p f).sizes = f.sizes := by
  simp [requesterReset]

/-! ### Commands of the ports -/

@[simp] theorem writePortMode_sizes (req n data : Nat) (f : FieldDie) :
    (writePortMode req n data f).sizes = f.sizes := by
  simp -implicitDefEqProofs [writePortMode]

@[simp] theorem writeMaxFrame_sizes (req n data : Nat) (f : FieldDie) :
    (writeMaxFrame req n data f).sizes = f.sizes := by
  simp [writeMaxFrame]

@[simp] theorem writeSleep_sizes (req n data : Nat) (f : FieldDie) : (writeSleep req n data f).sizes = f.sizes := by
  simp [writeSleep]

@[simp] theorem writePreempt_sizes (req n data : Nat) (f : FieldDie) :
    (writePreempt req n data f).sizes = f.sizes := by
  simp [writePreempt]

@[simp] theorem showPodl_sizes (n : Nat) (r : Fld) (v : Nat) (f : FieldDie) :
    (showPodl n r v f).sizes = f.sizes := by
  simp [showPodl]

@[simp] theorem setSccp_sizes (n st : Nat) (f : FieldDie) : (setSccp n st f).sizes = f.sizes := by simp [setSccp]
@[simp] theorem podlWake_sizes (n : Nat) (f : FieldDie) : (podlWake n f).sizes = f.sizes := by simp [podlWake]

@[simp] theorem setStop_sizes (n q : Nat) (p : PauseStop → PauseStop) (f : FieldDie) :
    (setStop n q p f).sizes = f.sizes := by
  simp [setStop]

@[simp] theorem pauseFrame_sizes (n quanta : Nat) (f : FieldDie) : (pauseFrame n quanta f).sizes = f.sizes := by
  simp [pauseFrame]

@[simp] theorem linkEstablished_sizes (n : Nat) (master : Bool) (f : FieldDie) :
    (linkEstablished n master f).sizes = f.sizes := by
  simp [linkEstablished]

@[simp] theorem loseLink_sizes (n : Nat) (f : FieldDie) : (loseLink n f).sizes = f.sizes := by simp [loseLink]
@[simp] theorem sleepQuiet_sizes (n : Nat) (f : FieldDie) : (sleepQuiet n f).sizes = f.sizes := by simp [sleepQuiet]

@[simp] theorem partnerSleep_sizes (n : Nat) (tc10 : Bool) (f : FieldDie) :
    (partnerSleep n tc10 f).sizes = f.sizes := by
  simp [partnerSleep]

/-! ### Frames -/

@[simp] theorem beginRx_sizes (n phase : Nat) (f : FieldDie) : (beginRx n phase f).sizes = f.sizes := rfl
@[simp] theorem showNode_sizes (k : Nat) (f : FieldDie) : (showNode k f).sizes = f.sizes := by simp [showNode]

@[simp] theorem nextNode_sizes (k start : Nat) (f : FieldDie) : (nextNode k start f).sizes = f.sizes := by
  simp [nextNode]

@[simp] theorem frameStart_sizes (n phase : Nat) (f : FieldDie) : (frameStart n phase f).sizes = f.sizes := by
  simp [frameStart, segSeen, holdAssembly]

@[simp] theorem acceptFrame_sizes (fr : Frame) (f : FieldDie) : (acceptFrame fr f).sizes = f.sizes := by
  simp [acceptFrame, settleFrame]

@[simp] theorem endRx_sizes (n cond : Nat) (f : FieldDie) : (endRx n cond f).sizes = f.sizes := by
  unfold endRx
  split
  all_goals simp -implicitDefEqProofs

@[simp] theorem segFrameEnd_sizes (n : Nat) (f : FieldDie) : (segFrameEnd n f).sizes = f.sizes := by
  simp [segFrameEnd]

@[simp] theorem verifyReceived_sizes (n : Nat) (f : FieldDie) : (verifyReceived n f).sizes = f.sizes := by
  unfold verifyReceived
  split
  all_goals simp -implicitDefEqProofs

@[simp] theorem frameEnd_sizes (n : Nat) (bytes : List Byte) (cond frags : Nat) (f : FieldDie) :
    (frameEnd n bytes cond frags f).sizes = f.sizes := by
  simp [frameEnd]

@[simp] theorem finishP16_sizes (f : FieldDie) : (finishP16 f).sizes = f.sizes := by
  unfold finishP16
  split
  all_goals simp -implicitDefEqProofs

@[simp] theorem fullPassP16_sizes (f : FieldDie) : (fullPassP16 f).sizes = f.sizes := by
  unfold fullPassP16
  split
  all_goals simp -implicitDefEqProofs

@[simp] theorem writeCapCtrl_sizes (req data : Nat) (f : FieldDie) : (writeCapCtrl req data f).sizes = f.sizes := by
  simp [writeCapCtrl]

@[simp] theorem learnOp_sizes (n : Nat) (f : FieldDie) : (learnOp n f).sizes = f.sizes := by
  simp only [learnOp]
  repeat' split
  all_goals simp -implicitDefEqProofs

@[simp] theorem agerTick_sizes (f : FieldDie) : (agerTick f).sizes = f.sizes := by simp [agerTick, ageEntry]

@[simp] theorem writeAge_sizes (req data : Nat) (f : FieldDie) : (writeAge req data f).sizes = f.sizes := by
  simp [writeAge]

@[simp] theorem writeFdbFlush_sizes (req data : Nat) (f : FieldDie) :
    (writeFdbFlush req data f).sizes = f.sizes := by
  simp -implicitDefEqProofs [writeFdbFlush]

@[simp] theorem writeAgg_sizes (req p data : Nat) (f : FieldDie) : (writeAgg req p data f).sizes = f.sizes := by
  simp [writeAgg]

@[simp] theorem writeBufFlush_sizes (req data : Nat) (f : FieldDie) :
    (writeBufFlush req data f).sizes = f.sizes := by
  simp -implicitDefEqProofs [writeBufFlush, flushQueues]

@[simp] theorem writeBufPortCfg_sizes (req n data : Nat) (f : FieldDie) :
    (writeBufPortCfg req n data f).sizes = f.sizes := by
  simp [writeBufPortCfg]

@[simp] theorem writeBufCtrl_sizes (data : Nat) (f : FieldDie) : (writeBufCtrl data f).sizes = f.sizes := by
  simp -implicitDefEqProofs [writeBufCtrl]

@[simp] theorem bufferAudit_sizes (n : Nat) (f : FieldDie) : (bufferAudit n f).sizes = f.sizes := by
  simp -implicitDefEqProofs [bufferAudit]

@[simp] theorem writeUnlatch_sizes (data : Nat) (f : FieldDie) : (writeUnlatch data f).sizes = f.sizes := by
  simp [writeUnlatch]

@[simp] theorem writeRl_sizes (req n addr data : Nat) (f : FieldDie) :
    (writeRl req n addr data f).sizes = f.sizes := by
  simp [writeRl]

/-! ### The launch store -/

@[simp] theorem launchEntry_sizes (x : LaunchFrame) (status reason : Nat) (f : FieldDie) :
    (launchEntry x status reason f).sizes = f.sizes := by
  simp [launchEntry]

@[simp] theorem dropLaunch_sizes (code : Nat) (x : LaunchFrame) (f : FieldDie) :
    (dropLaunch code x f).sizes = f.sizes := by
  simp [dropLaunch]

@[simp] theorem enterStage1_sizes (x : LaunchFrame) (f : FieldDie) : (enterStage1 x f).sizes = f.sizes := by
  simp [enterStage1]

@[simp] theorem releaseOne_sizes (f : FieldDie) : (releaseOne f).sizes = f.sizes := by
  unfold releaseOne
  split
  all_goals simp -implicitDefEqProofs

@[simp] theorem launchStoreArrival_sizes (f : FieldDie) : (launchStoreArrival f).sizes = f.sizes := by
  unfold launchStoreArrival
  split
  all_goals simp -implicitDefEqProofs [storeArrival, releaseDue]

@[simp] theorem purgeLaunch_sizes (p : Nat → Bool) (code : Nat) (f : FieldDie) :
    (purgeLaunch p code f).sizes = f.sizes := by
  simp [purgeLaunch]

/-! ### Moderation of the serial window -/

@[simp] theorem FieldDie.setWinModer_sizes (f : FieldDie) (k : Nat) (m : Moder) :
    (f.setWinModer k m).sizes = f.sizes := rfl

/-! ### Transmission -/

@[simp] theorem purgeOverrun_sizes (n : Nat) (f : FieldDie) : (purgeOverrun n f).sizes = f.sizes := by
  unfold purgeOverrun
  refine forRange_sizes (fun q f => forRange_sizes (fun _ f => ?_) _ f) 8 f
  split
  · simp
  · rfl

@[simp] theorem readCells_sizes (c : Copy) (f : FieldDie) : (readCells c f).2.sizes = f.sizes := by
  simp [readCells, noteCell]

@[simp] theorem startCopy_sizes (c : Copy) (f : FieldDie) : (startCopy c f).sizes = f.sizes := by
  simp [startCopy, payRate, takeCopy]

@[simp] theorem preemptNow_sizes (n : Nat) (f : FieldDie) : (preemptNow n f).sizes = f.sizes := by
  unfold preemptNow
  split
  all_goals simp -implicitDefEqProofs

@[simp] theorem countSent_sizes (c : Copy) (len : Nat) (f : FieldDie) : (countSent c len f).sizes = f.sizes := by
  simp [countSent]

@[simp] theorem countStomp_sizes (c : Copy) (f : FieldDie) : (countStomp c f).sizes = f.sizes := by simp [countStomp]

@[simp] theorem finishCopy_sizes (n phase : Nat) (c : Copy) (f : FieldDie) :
    (finishCopy n phase c f).sizes = f.sizes := by
  unfold finishCopy
  dsimp only
  split
  all_goals simp -implicitDefEqProofs

@[simp] theorem transmitEnd_sizes (n phase : Nat) (f : FieldDie) : (transmitEnd n phase f).sizes = f.sizes := by
  unfold transmitEnd
  split
  all_goals simp -implicitDefEqProofs

/-! ### Segments -/

@[simp] theorem plcaChanged_sizes (k old : Nat) (f : FieldDie) : (plcaChanged k old f).sizes = f.sizes := by
  simp [plcaChanged]

@[simp] theorem writePlca_sizes (req k data : Nat) (f : FieldDie) : (writePlca req k data f).sizes = f.sizes := by
  simp [writePlca]

@[simp] theorem cycleDone_sizes (k len : Nat) (f : FieldDie) : (cycleDone k len f).sizes = f.sizes := by
  simp -implicitDefEqProofs [cycleDone]

@[simp] theorem beaconEnds_sizes (k at_ : Nat) (f : FieldDie) : (beaconEnds k at_ f).sizes = f.sizes := by
  simp -implicitDefEqProofs [beaconEnds]

@[simp] theorem beaconSend_sizes (k : Nat) (f : FieldDie) : (beaconSend k f).sizes = f.sizes := by simp [beaconSend]

@[simp] theorem windowOverlap_sizes (k node : Nat) (f : FieldDie) : (windowOverlap k node f).sizes = f.sizes := by
  simp [windowOverlap]

@[simp] theorem txOverlap_sizes (k : Nat) (f : FieldDie) : (txOverlap k f).sizes = f.sizes := by simp [txOverlap]

@[simp] theorem beaconHeard_sizes (k : Nat) (f : FieldDie) : (beaconHeard k f).sizes = f.sizes := by
  simp -implicitDefEqProofs [beaconHeard]

@[simp] theorem plcaOverlap_sizes (k : Nat) (f : FieldDie) : (plcaOverlap k f).sizes = f.sizes := by
  unfold plcaOverlap
  split
  all_goals simp -implicitDefEqProofs

@[simp] theorem beaconReceive_sizes (k : Nat) (f : FieldDie) : (beaconReceive k f).sizes = f.sizes := by
  simp [beaconReceive]

@[simp] theorem beaconTimeout_sizes (k : Nat) (f : FieldDie) : (beaconTimeout k f).sizes = f.sizes := by
  simp [beaconTimeout]

@[simp] theorem downMsExpiry_sizes (k : Nat) (f : FieldDie) : (downMsExpiry k f).sizes = f.sizes := by
  unfold downMsExpiry
  split
  all_goals simp -implicitDefEqProofs

@[simp] theorem toTimerExpiry_sizes (k : Nat) (f : FieldDie) : (toTimerExpiry k f).sizes = f.sizes := by
  simp [toTimerExpiry]

@[simp] theorem transmitOpportunity_sizes (k : Nat) (f : FieldDie) : (transmitOpportunity k f).sizes = f.sizes := by
  simp only [transmitOpportunity]
  repeat' split
  all_goals simp -implicitDefEqProofs

@[simp] theorem burstTimerExpiry_sizes (k : Nat) (f : FieldDie) : (burstTimerExpiry k f).sizes = f.sizes := by
  simp [burstTimerExpiry]

@[simp] theorem segSent_sizes (n : Nat) (f : FieldDie) : (segSent n f).sizes = f.sizes := by simp [segSent]

@[simp] theorem portTransmitEnd_sizes (port phase : Nat) (f : FieldDie) :
    (portTransmitEnd port phase f).sizes = f.sizes := by
  simp [portTransmitEnd]

@[simp] theorem overlapWindowEnd_sizes (k : Nat) (f : FieldDie) : (overlapWindowEnd k f).sizes = f.sizes := by
  simp [overlapWindowEnd]

@[simp] theorem postOverlapSilence_sizes (k : Nat) (f : FieldDie) : (postOverlapSilence k f).sizes = f.sizes := by
  simp [postOverlapSilence]

/-! ### Schedules -/

@[simp] theorem refreshGate_sizes (n : Nat) (f : FieldDie) : (refreshGate n f).sizes = f.sizes := by
  simp only [refreshGate]
  repeat' split
  all_goals simp -implicitDefEqProofs [setHold]

@[simp] theorem makePending_sizes (n gen : Nat) (at_ : Option Nat) (f : FieldDie) :
    (makePending n gen at_ f).sizes = f.sizes := by
  simp [makePending]

@[simp] theorem cancelPending_sizes (f : FieldDie) : (cancelPending f).sizes = f.sizes := by simp [cancelPending]

@[simp] theorem trigger_sizes (mask gen : Nat) (at_ : Option Nat) (f : FieldDie) :
    (trigger mask gen at_ f).sizes = f.sizes := by
  simp only [trigger]
  repeat' split
  all_goals simp -implicitDefEqProofs

@[simp] theorem writeChg_sizes (req data : Nat) (f : FieldDie) : (writeChg req data f).sizes = f.sizes := by
  simp [writeChg]

@[simp] theorem changeDone_sizes (t : Nat) (f : FieldDie) : (changeDone t f).sizes = f.sizes := by simp [changeDone]

@[simp] theorem portChange_sizes (n : Nat) (f : FieldDie) : (portChange n f).sizes = f.sizes := by
  simp -implicitDefEqProofs [portChange, writeOper]

@[simp] theorem applyWindows_sizes (f : FieldDie) : (applyWindows f).sizes = f.sizes := by
  simp -implicitDefEqProofs [applyWindows]

@[simp] theorem trackCycle_sizes (f : FieldDie) : (trackCycle f).sizes = f.sizes := by
  simp -implicitDefEqProofs [trackCycle]

@[simp] theorem beginNetworkCycle_sizes (b : Nat) (f : FieldDie) : (beginNetworkCycle b f).sizes = f.sizes := by
  simp [beginNetworkCycle]

/-! ### Exposure windows and the power budget -/

@[simp] theorem leaveNap_sizes (f : FieldDie) : (leaveNap f).sizes = f.sizes := by simp [leaveNap]

@[simp] theorem exposureNapLead_sizes (e : Nat) (f : FieldDie) : (exposureNapLead e f).sizes = f.sizes := by
  unfold exposureNapLead
  split
  all_goals simp -implicitDefEqProofs

@[simp] theorem exposureStart_sizes (e : Nat) (f : FieldDie) : (exposureStart e f).sizes = f.sizes := by
  unfold exposureStart
  split
  all_goals simp -implicitDefEqProofs [holdAwake]

@[simp] theorem missExposure_sizes (n : Nat) (f : FieldDie) : (missExposure n f).sizes = f.sizes := by
  simp [missExposure]

@[simp] theorem closeExposure_sizes (e : Nat) (f : FieldDie) : (closeExposure e f).sizes = f.sizes := by
  simp [closeExposure]

@[simp] theorem exposureEnd_sizes (e : Nat) (f : FieldDie) : (exposureEnd e f).sizes = f.sizes := by
  simp [exposureEnd, releaseAwake]

@[simp] theorem writeExpBase_sizes (req data : Nat) (f : FieldDie) : (writeExpBase req data f).sizes = f.sizes := by
  simp [writeExpBase]

@[simp] theorem exposureWake_sizes (e n : Nat) (f : FieldDie) : (exposureWake e n f).sizes = f.sizes := by
  unfold exposureWake
  split
  all_goals simp -implicitDefEqProofs

@[simp] theorem wakeBurst_sizes (n : Nat) (f : FieldDie) : (wakeBurst n f).sizes = f.sizes := by simp [wakeBurst]

@[simp] theorem shedPorts_sizes (budget k : Nat) (f : FieldDie) : (shedPorts budget k f).sizes = f.sizes := by
  induction k generalizing f with
  | zero => rfl
  | succ k ih =>
    unfold shedPorts
    split
    · rfl
    · split
      · simp [ih]
      · rfl

@[simp] theorem derateSample_sizes (vline tj : Nat) (f : FieldDie) : (derateSample vline tj f).sizes = f.sizes := by
  simp -implicitDefEqProofs [derateSample]

@[simp] theorem derateReadmit_sizes (f : FieldDie) : (derateReadmit f).sizes = f.sizes := by simp [derateReadmit]

/-! ### Time -/

@[simp] theorem timeEvt_sizes (bit index : Nat) (f : FieldDie) : (timeEvt bit index f).sizes = f.sizes := by
  simp [timeEvt]

@[simp] theorem setPtpState_sizes (n st : Nat) (f : FieldDie) : (setPtpState n st f).sizes = f.sizes := by
  simp [setPtpState]

@[simp] theorem unlockSteering_sizes (d : Nat) (f : FieldDie) : (unlockSteering d f).sizes = f.sizes := by
  unfold unlockSteering
  split
  all_goals simp -implicitDefEqProofs

@[simp] theorem setBOff_sizes (v : Nat) (f : FieldDie) : (setBOff v f).sizes = f.sizes := by simp [setBOff]
@[simp] theorem stepDone_sizes (d : Nat) (f : FieldDie) : (stepDone d f).sizes = f.sizes := by simp [stepDone]
@[simp] theorem applyA_sizes (f : FieldDie) : (applyA f).sizes = f.sizes := by simp [applyA]
@[simp] theorem applyB_sizes (f : FieldDie) : (applyB f).sizes = f.sizes := by simp [applyB]

@[simp] theorem askStep_sizes (d : Nat) (v : Int) (f : FieldDie) : (askStep d v f).sizes = f.sizes := by
  simp [askStep]

@[simp] theorem unlessStandby_sizes {p : FieldDie → FieldDie} (h : ∀ f, (p f).sizes = f.sizes) (d : Nat) (f : FieldDie) :
    (unlessStandby d p f).sizes = f.sizes := by
  simp [unlessStandby, h]

@[simp] theorem writeStep_sizes (req d data : Nat) (f : FieldDie) : (writeStep req d data f).sizes = f.sizes := by
  simp [writeStep]

@[simp] theorem writeASet_sizes (req data : Nat) (f : FieldDie) : (writeASet req data f).sizes = f.sizes := by
  simp [writeASet, unlessStandby]

@[simp] theorem writeBOff_sizes (req data : Nat) (f : FieldDie) : (writeBOff req data f).sizes = f.sizes := by
  simp [writeBOff, unlessStandby]

@[simp] theorem setInc_sizes (v : Nat) (f : FieldDie) : (setInc v f).sizes = f.sizes := by simp [setInc]

@[simp] theorem writeInc_sizes (req data : Nat) (f : FieldDie) : (writeInc req data f).sizes = f.sizes := by
  simp [writeInc]

@[simp] theorem setRate_sizes (r : Nat) (f : FieldDie) : (setRate r f).sizes = f.sizes := by simp [setRate]

@[simp] theorem writeRate_sizes (data : Nat) (f : FieldDie) : (writeRate data f).sizes = f.sizes := by
  simp [writeRate]

@[simp] theorem switchTo_sizes (y : Nat) (f : FieldDie) : (switchTo y f).sizes = f.sizes := by simp [switchTo]
@[simp] theorem domainNamed_sizes (f : FieldDie) : (domainNamed f).sizes = f.sizes := by simp [domainNamed]
@[simp] theorem refreshXc_sizes (f : FieldDie) : (refreshXc f).sizes = f.sizes := by simp [refreshXc]

@[simp] theorem writeTimSys_sizes (req data : Nat) (f : FieldDie) : (writeTimSys req data f).sizes = f.sizes := by
  simp [writeTimSys]

@[simp] theorem xcIntervalEnd_sizes (f : FieldDie) : (xcIntervalEnd f).sizes = f.sizes := by simp [xcIntervalEnd]

@[simp] theorem FieldDie.setShutter_sizes (f : FieldDie) (k : Nat) (p : Shutter → Shutter) :
    (f.setShutter k p).sizes = f.sizes := by
  simp [FieldDie.setShutter]

@[simp] theorem moveShutter_sizes (k t : Nat) (f : FieldDie) : (moveShutter k t f).sizes = f.sizes := by
  simp [moveShutter, holdShutter]

@[simp] theorem refreshShutter_sizes (k : Nat) (f : FieldDie) : (refreshShutter k f).sizes = f.sizes := by
  simp [refreshShutter]

@[simp] theorem runShutters_sizes (t0 t1 : Nat) (f : FieldDie) : (runShutters t0 t1 f).sizes = f.sizes := by
  simp [runShutters]

@[simp] theorem timeMoved_sizes (t0 : Nat) (f : FieldDie) : (timeMoved t0 f).sizes = f.sizes := by
  simp [timeMoved, missWindows, missShutters]

@[simp] theorem writeShutter_sizes (req k data : Nat) (f : FieldDie) :
    (writeShutter req k data f).sizes = f.sizes := by
  simp [writeShutter]

@[simp] theorem captureEdge_sizes (k : Nat) (rising : Bool) (phase : Nat) (f : FieldDie) :
    (captureEdge k rising phase f).sizes = f.sizes := by
  simp [captureEdge]

@[simp] theorem popTsq_sizes (n : Nat) (f : FieldDie) : (popTsq n f).sizes = f.sizes := by
  unfold popTsq
  split
  all_goals simp -implicitDefEqProofs

@[simp] theorem popCapture_sizes (k : Nat) (f : FieldDie) : (popCapture k f).sizes = f.sizes := by
  unfold popCapture
  split
  all_goals simp -implicitDefEqProofs

@[simp] theorem popAt_sizes (addr : Nat) (f : FieldDie) : (popAt addr f).sizes = f.sizes := by
  simp only [popAt]
  repeat' split
  all_goals simp -implicitDefEqProofs

@[simp] theorem tsrSend_sizes (n : Nat) (f : FieldDie) : (tsrSend n f).sizes = f.sizes := by
  simp only [tsrSend]
  repeat' split
  all_goals simp -implicitDefEqProofs

@[simp] theorem timeMessageSend_sizes (f : FieldDie) : (timeMessageSend f).sizes = f.sizes := by
  simp [timeMessageSend]

@[simp] theorem writeTimCap_sizes (data : Nat) (f : FieldDie) : (writeTimCap data f).sizes = f.sizes := by
  simp [writeTimCap, putTime]

@[simp] theorem slewTick_sizes (f : FieldDie) : (slewTick f).sizes = f.sizes := by simp [slewTick]
@[simp] theorem rateTick_sizes (n : Nat) (f : FieldDie) : (rateTick n f).sizes = f.sizes := by simp [rateTick]

@[simp] theorem creditTick_sizes (n q : Nat) (f : FieldDie) : (creditTick n q f).sizes = f.sizes := by
  simp [creditTick]

@[simp] theorem refreshStops_sizes (f : FieldDie) : (refreshStops f).sizes = f.sizes := rfl
@[simp] theorem clockTick_sizes (f : FieldDie) : (clockTick f).sizes = f.sizes := by simp [clockTick]

@[simp] theorem fineTick_sizes (f : FieldDie) : (fineTick f).sizes = f.sizes := by
  simp -implicitDefEqProofs [fineTick]

/-! ### The Crossing -/

@[simp] theorem endControl_sizes (addr bit : Nat) (f : FieldDie) : (endControl addr bit f).sizes = f.sizes := by
  simp [endControl]

@[simp] theorem xngFx_sizes (x : LinkFx) (f : FieldDie) : (xngFx x f).sizes = f.sizes := by
  unfold xngFx
  split
  all_goals simp -implicitDefEqProofs

@[simp] theorem twinFx_sizes (x : LinkFx) (f : FieldDie) : (twinFx x f).sizes = f.sizes := by
  unfold twinFx
  split
  all_goals simp -implicitDefEqProofs [fdbAcked]

@[simp] theorem FieldDie.onXng_sizes (p : Link → LinkAns) (f : FieldDie) : (FieldDie.onXng p f).sizes = f.sizes := by
  simp [FieldDie.onXng]

@[simp] theorem FieldDie.onTwin_sizes (p : Link → LinkAns) (f : FieldDie) :
    (FieldDie.onTwin p f).sizes = f.sizes := by
  simp [FieldDie.onTwin]

@[simp] theorem FieldDie.rxNoise_sizes (who : LinkId) (f : FieldDie) : (FieldDie.rxNoise who f).sizes = f.sizes := by
  simp only [FieldDie.rxNoise]
  repeat' split
  all_goals simp -implicitDefEqProofs

@[simp] theorem twinReceive_sizes (bytes : List Byte) (f : FieldDie) : (twinReceive bytes f).sizes = f.sizes := by
  simp [twinReceive]

@[simp] theorem fieldTrained_sizes (f : FieldDie) : (fieldTrained f).sizes = f.sizes := by simp [fieldTrained]
@[simp] theorem twinTrained_sizes (f : FieldDie) : (twinTrained f).sizes = f.sizes := by simp [twinTrained]

/-! ### Pins -/

@[simp] theorem writePinOut_sizes (req off data : Nat) (f : FieldDie) :
    (writePinOut req off data f).sizes = f.sizes := by
  unfold writePinOut
  dsimp only
  split
  all_goals simp -implicitDefEqProofs

@[simp] theorem writePinCfg_sizes (req n data : Nat) (f : FieldDie) :
    (writePinCfg req n data f).sizes = f.sizes := by
  simp [writePinCfg]

@[simp] theorem pinEdge_sizes (n : Nat) (rising : Bool) (f : FieldDie) : (pinEdge n rising f).sizes = f.sizes := by
  simp [pinEdge]

@[simp] theorem setPair_sizes (p st : Nat) (f : FieldDie) : (setPair p st f).sizes = f.sizes := by simp [setPair]

@[simp] theorem discrepancy_sizes (p : Nat) (f : FieldDie) : (discrepancy p f).sizes = f.sizes := by
  simp -implicitDefEqProofs [discrepancy, latchDark]

@[simp] theorem padTick_sizes (pads n : Nat) (f : FieldDie) : (padTick pads n f).sizes = f.sizes := by simp [padTick]

/-! ### gPTP -/

@[simp] theorem engineSend_sizes (n q : Nat) (what : Option (Nat × Nat)) (m : List Byte) (f : FieldDie) :
    (engineSend n q what m f).sizes = f.sizes := by
  simp [engineSend]

@[simp] theorem refreshGm_sizes (n : Nat) (f : FieldDie) : (refreshGm n f).sizes = f.sizes := by
  simp only [refreshGm]
  repeat' split
  all_goals simp -implicitDefEqProofs [setGm]

@[simp] theorem refreshRoles_sizes (n : Nat) (f : FieldDie) : (refreshRoles n f).sizes = f.sizes := by
  simp -implicitDefEqProofs [refreshRoles, slaveChanged]

@[simp] theorem refreshPtp_sizes (f : FieldDie) : (refreshPtp f).sizes = f.sizes := by simp [refreshPtp]

@[simp] theorem refreshCapable_sizes (p : Nat) (f : FieldDie) : (refreshCapable p f).sizes = f.sizes := by
  simp [refreshCapable]

@[simp] theorem pdelayExchange_sizes (p : Nat) (answered : Bool) (mld nrr : Nat) (f : FieldDie) :
    (pdelayExchange p answered mld nrr f).sizes = f.sizes := by
  simp [pdelayExchange]

@[simp] theorem pdelayAnswer_sizes (p : Nat) (m : List Byte) (ts : Nat) (f : FieldDie) :
    (pdelayAnswer p m ts f).sizes = f.sizes := by
  simp [pdelayAnswer]

@[simp] theorem syncMsg_sizes (n p : Nat) (m : List Byte) (ts : Nat) (f : FieldDie) :
    (syncMsg n p m ts f).sizes = f.sizes := by
  simp [syncMsg]

@[simp] theorem followUpMsg_sizes (n p : Nat) (m : List Byte) (f : FieldDie) :
    (followUpMsg n p m f).sizes = f.sizes := by
  unfold followUpMsg
  split
  all_goals simp -implicitDefEqProofs

@[simp] theorem announceMsg_sizes (n p : Nat) (m : List Byte) (f : FieldDie) :
    (announceMsg n p m f).sizes = f.sizes := by
  simp [announceMsg]

@[simp] theorem ptpReceive_sizes (p : Nat) (m : List Byte) (ts : Nat) (f : FieldDie) :
    (ptpReceive p m ts f).sizes = f.sizes := by
  unfold ptpReceive
  dsimp only
  split
  · rfl
  · split
    · simp
    · split
      · rfl
      · split
        · rfl
        · simp -implicitDefEqProofs

@[simp] theorem applyY_sizes (d : Nat) (y : Int) (f : FieldDie) : (applyY d y f).sizes = f.sizes := by simp [applyY]

@[simp] theorem servo_sizes (n d : Nat) (e : Int) (f : FieldDie) : (servo n d e f).sizes = f.sizes := by
  unfold servo
  split
  all_goals simp -implicitDefEqProofs

@[simp] theorem nsWord_sizes (e : Int) (f : FieldDie) : (nsWord e f).2.sizes = f.sizes := by
  unfold nsWord
  split
  all_goals simp -implicitDefEqProofs

@[simp] theorem syncReceive_sizes (n p : Nat) (f : FieldDie) : (syncReceive n p f).sizes = f.sizes := by
  unfold syncReceive
  split
  all_goals simp -implicitDefEqProofs [servoLock]

@[simp] theorem syncTimeout_sizes (n : Nat) (f : FieldDie) : (syncTimeout n f).sizes = f.sizes := by
  simp only [syncTimeout]
  repeat' split
  all_goals simp -implicitDefEqProofs [autoSwitch]

@[simp] theorem announceTimeout_sizes (n : Nat) (f : FieldDie) : (announceTimeout n f).sizes = f.sizes := by
  simp [announceTimeout]

@[simp] theorem syncSend_sizes (n : Nat) (f : FieldDie) : (syncSend n f).sizes = f.sizes := by simp [syncSend]
@[simp] theorem ownAnnounce_sizes (n : Nat) (f : FieldDie) : (ownAnnounce n f).2.sizes = f.sizes := rfl

@[simp] theorem announceSend_sizes (n : Nat) (f : FieldDie) : (announceSend n f).sizes = f.sizes := by
  simp only [announceSend]
  repeat' split
  all_goals simp -implicitDefEqProofs

@[simp] theorem beforeEnd_sizes (n phase : Nat) (f : FieldDie) : (beforeEnd n phase f).sizes = f.sizes := by
  simp only [beforeEnd]
  repeat' split
  all_goals simp -implicitDefEqProofs

@[simp] theorem afterEnd_sizes (n ts : Nat) (at_ : Stamp) (fr : Frame) (f : FieldDie) :
    (afterEnd n ts at_ fr f).sizes = f.sizes := by
  unfold afterEnd
  split
  all_goals simp -implicitDefEqProofs

/-! ### The twin pair -/

theorem takeRole_sizes {kind : Nat} {f g : FieldDie} {u : FlowUnit} (h : takeRole kind f = some (u, g)) :
    g.sizes = f.sizes := by
  unfold takeRole at h
  split at h
  · split at h
    · cases h
      rfl
    · cases h
  · cases h

@[simp] theorem onRole_sizes {p : FlowUnit → FieldDie → FieldDie} (h : ∀ u f, (p u f).sizes = f.sizes) (kind : Nat)
    (f : FieldDie) : (onRole kind p f).sizes = f.sizes := by
  unfold onRole
  split
  next htake => exact (h _ _).trans (takeRole_sizes htake)
  · rfl

@[simp] theorem evidenceChanged_sizes (byRecord : Bool) (f : FieldDie) :
    (evidenceChanged byRecord f).sizes = f.sizes := by
  simp [evidenceChanged, decideRole, reportDown]

@[simp] theorem setEvL_sizes (l byRecord : Bool) (f : FieldDie) : (setEvL l byRecord f).sizes = f.sizes := by
  simp [setEvL]

@[simp] theorem twinFaultIn_sizes (asserted : Bool) (ns : Nat) (f : FieldDie) :
    (twinFaultIn asserted ns f).sizes = f.sizes := by
  simp only [twinFaultIn]
  repeat' split
  all_goals simp -implicitDefEqProofs

@[simp] theorem grantAt_sizes (active : Bool) (cause : Nat) (f : FieldDie) :
    (grantAt active cause f).sizes = f.sizes := by
  simp [grantAt]

@[simp] theorem helloReceived_sizes (u : FlowUnit) (f : FieldDie) : (helloReceived u f).sizes = f.sizes := by
  simp -implicitDefEqProofs [helloReceived]

@[simp] theorem grantReceived_sizes (u : FlowUnit) (f : FieldDie) : (grantReceived u f).sizes = f.sizes := by
  simp [grantReceived]

@[simp] theorem statusSend_sizes (f : FieldDie) : (statusSend f).sizes = f.sizes := by simp [statusSend]
@[simp] theorem tryReq_sizes (f : FieldDie) : (tryReq f).sizes = f.sizes := by simp [tryReq]

@[simp] theorem statusReceived_sizes (u : FlowUnit) (f : FieldDie) : (statusReceived u f).sizes = f.sizes := by
  simp [statusReceived]

@[simp] theorem statusAbsence_sizes (f : FieldDie) : (statusAbsence f).sizes = f.sizes := by simp [statusAbsence]

@[simp] theorem reqReceived_sizes (u : FlowUnit) (f : FieldDie) : (reqReceived u f).sizes = f.sizes := by
  simp [reqReceived]

@[simp] theorem twinOn_sizes (f : FieldDie) : (twinOn f).sizes = f.sizes := by simp [twinOn, twinStart]

@[simp] theorem enableChanged_sizes (was : Bool) (f : FieldDie) : (enableChanged was f).sizes = f.sizes := by
  simp [enableChanged, twinOff]

@[simp] theorem writeTwnCtrl_sizes (req data : Nat) (f : FieldDie) : (writeTwnCtrl req data f).sizes = f.sizes := by
  simp [writeTwnCtrl]

@[simp] theorem reversionDone_sizes (f : FieldDie) : (reversionDone f).sizes = f.sizes := by simp [reversionDone]
@[simp] theorem holdoffReset_sizes (f : FieldDie) : (holdoffReset f).sizes = f.sizes := by simp [holdoffReset]

@[simp] theorem startRecord_sizes (tb : Nat) (f : FieldDie) : (startRecord tb f).sizes = f.sizes := by
  simp -implicitDefEqProofs [startRecord]

@[simp] theorem takeBoundary_sizes (f : FieldDie) : (takeBoundary f).sizes = f.sizes := by
  simp [takeBoundary, boundaryRoles]

@[simp] theorem applyServo_sizes (n : Nat) (u : FlowUnit) (f : FieldDie) : (applyServo n u f).sizes = f.sizes := by
  simp [applyServo, setDomain]

@[simp] theorem applyTime_sizes (tb : Nat) (us : List FlowUnit) (f : FieldDie) :
    (applyTime tb us f).sizes = f.sizes := by
  unfold applyTime
  dsimp only
  split
  all_goals simp -implicitDefEqProofs

@[simp] theorem recordApply_sizes (f : FieldDie) : (recordApply f).sizes = f.sizes := by
  unfold recordApply
  split
  all_goals simp -implicitDefEqProofs [applyRecord, applyFdb, applyMeters, setMeter]

@[simp] theorem recordLost_sizes (f : FieldDie) : (recordLost f).sizes = f.sizes := by simp [recordLost]

@[simp] theorem becomeActive_sizes (f : FieldDie) : (becomeActive f).sizes = f.sizes := by
  simp -implicitDefEqProofs [becomeActive, resumePtp]

@[simp] theorem takeover_sizes (f : FieldDie) : (takeover f).sizes = f.sizes := by
  simp -implicitDefEqProofs [takeover]

@[simp] theorem handover_sizes (f : FieldDie) : (handover f).sizes = f.sizes := by simp [handover]

/-! ### The proof and the flash -/

@[simp] theorem setResume_sizes (v : Nat) (f : FieldDie) : (setResume v f).sizes = f.sizes := rfl
@[simp] theorem resumeFailed_sizes (f : FieldDie) : (resumeFailed f).sizes = f.sizes := by simp [resumeFailed]
@[simp] theorem sendErase_sizes (o : Nat) (f : FieldDie) : (sendErase o f).sizes = f.sizes := by simp [sendErase]

@[simp] theorem startResume_sizes (img : List Byte) (f : FieldDie) : (startResume img f).sizes = f.sizes := by
  simp -implicitDefEqProofs [startResume, voidResume]

@[simp] theorem flashNext_sizes (m : List (Nat × Byte)) (f : FieldDie) : (flashNext m f).sizes = f.sizes := by
  simp -implicitDefEqProofs [flashNext, sendProgram, resumeVerify]

@[simp] theorem freeBytes_sizes (n : Nat) (f : FieldDie) : (freeBytes n f).2.sizes = f.sizes := by
  induction n generalizing f with
  | zero => rfl
  | succ n ih => exact ih f.free.2

@[simp] theorem writeProofCmd_sizes (req data : Nat) (f : FieldDie) :
    (writeProofCmd req data f).sizes = f.sizes := by
  simp [writeProofCmd]

@[simp] theorem stageImage_sizes (img : List Byte) (f : FieldDie) : (stageImage img f).sizes = f.sizes := by
  simp [stageImage]

@[simp] theorem endCommit_sizes (op v : Nat) (f : FieldDie) : (endCommit op v f).sizes = f.sizes := by
  simp [endCommit]

@[simp] theorem endSweep_sizes (v : Nat) (f : FieldDie) : (endSweep v f).sizes = f.sizes := by
  simp only [endSweep]
  repeat' split
  all_goals simp -implicitDefEqProofs

@[simp] theorem setTmr_sizes (i v : Nat) (f : FieldDie) : (setTmr i v f).sizes = f.sizes := rfl

@[simp] theorem voteReport_sizes (i : Nat) (w : Nat → Nat) (f : FieldDie) : (voteReport i w f).sizes = f.sizes := by
  simp [voteReport, tmrCorrected, tmrLost]

@[simp] theorem votedChange_sizes (i old : Nat) (f : FieldDie) : (votedChange i old f).sizes = f.sizes := by
  simp [votedChange]

@[simp] theorem voteEntry_sizes (i : Nat) (f : FieldDie) : (voteEntry i f).sizes = f.sizes := by simp [voteEntry]

/-! ### Tables -/

@[simp] theorem strReject_sizes (bit port code index : Nat) (f : FieldDie) :
    (strReject bit port code index f).sizes = f.sizes := by
  simp [strReject]

theorem entryReject_sizes (base inst e : Nat) (f : FieldDie) :
    ∀ k ∈ entryReject base inst e f, ∀ g, (k g).sizes = g.sizes := by
  unfold entryReject
  simp only [forall_mem_ite]
  simp -implicitDefEqProofs

@[simp] theorem entryAccepted_sizes (base e : Nat) (f : FieldDie) : (entryAccepted base e f).sizes = f.sizes := by
  simp [entryAccepted, fdbBecameValid]

@[simp] theorem storeTable_sizes (t : TblRow) (addr data : Nat) (f : FieldDie) :
    (storeTable t addr data f).sizes = f.sizes := by
  simp [storeTable]

@[simp] theorem writeValidWord_sizes (t : TblRow) (addr data : Nat) (f : FieldDie) :
    (writeValidWord t addr data f).sizes = f.sizes := by
  unfold writeValidWord
  dsimp only
  split
  · split
    next k hk => rw [entryReject_sizes _ _ _ _ k hk, FieldDie.wrN_sizes, storeTable_sizes]
    · simp
  · simp

@[simp] theorem tableWrite_sizes (req addr data : Nat) (f : FieldDie) :
    (tableWrite req addr data f).sizes = f.sizes := by
  unfold tableWrite
  split
  all_goals simp -implicitDefEqProofs

@[simp] theorem writeEntry_sizes (b : Nat) (xs : List (Nat × Nat)) (f : FieldDie) :
    (writeEntry b xs f).sizes = f.sizes := by
  unfold writeEntry
  split
  all_goals simp -implicitDefEqProofs

@[simp] theorem applyRun_sizes (a stride : Nat) (es : List (List Nat)) (f : FieldDie) :
    (applyRun a stride es f).sizes = f.sizes := by
  simp [applyRun]

/-! ### The key's reader -/

@[simp] theorem startAnswer_sizes (others uid : Nat) (f : FieldDie) : (startAnswer others uid f).sizes = f.sizes :=
  rfl

@[simp] theorem tornPage_sizes (slot page : Nat) (f : FieldDie) (k : KeyChip) :
    (tornPage slot page f k).1.sizes = f.sizes := by
  unfold tornPage
  split
  next hbytes =>
    split
    next hrecord => rw [snd_sizes hrecord, freeBytes_sizes, snd_sizes hbytes, freeBytes_sizes]

@[simp] theorem tornPointer_sizes (ptr : Nat) (f : FieldDie) (k : KeyChip) :
    (tornPointer ptr f k).1.sizes = f.sizes := by
  simp [tornPointer]

@[simp] theorem keyCutIn_sizes (c : Nat) (args : List Nat) (data : List Byte) (f : FieldDie) (k : KeyChip) :
    (keyCutIn c args data f k).1.sizes = f.sizes := by
  simp only [keyCutIn]
  repeat' split
  all_goals simp -implicitDefEqProofs

@[simp] theorem keyCut_sizes (f : FieldDie) (k : KeyChip) : (keyCut f k).1.sizes = f.sizes := by
  simp only [keyCut]
  repeat' split
  all_goals simp -implicitDefEqProofs

@[simp] theorem fillKeyRegs_sizes (a b : List Byte) (f : FieldDie) : (fillKeyRegs a b f).sizes = f.sizes := by
  simp [fillKeyRegs]

@[simp] theorem fillKeyUid_sizes (uid : Nat) (f : FieldDie) : (fillKeyUid uid f).sizes = f.sizes := by
  simp -implicitDefEqProofs [fillKeyUid]

@[simp] theorem keySend_sizes (code : Nat) (args : List Nat) (data : List Byte) (f : FieldDie) :
    (keySend code args data f).sizes = f.sizes := rfl

@[simp] theorem keyRead_sizes (b n : Nat) (f : FieldDie) : (keyRead b n f).sizes = f.sizes := rfl
@[simp] theorem keyStep_sizes (step : Nat) (f : FieldDie) : (keyStep step f).sizes = f.sizes := by simp [keyStep]

@[simp] theorem keyResult_sizes (code step err page : Nat) (f : FieldDie) :
    (keyResult code step err page f).sizes = f.sizes := by
  simp -implicitDefEqProofs [keyResult]

@[simp] theorem keyEnd_sizes (code err : Nat) (f : FieldDie) : (keyEnd code err f).sizes = f.sizes := by
  simp only [keyEnd]
  repeat' split
  all_goals simp -implicitDefEqProofs

@[simp] theorem keyStart_sizes (op : Nat) (f : FieldDie) : (keyStart op f).sizes = f.sizes := by
  simp -implicitDefEqProofs [keyStart]

@[simp] theorem keyCommitRequest_sizes (op : Nat) (f : FieldDie) : (keyCommitRequest op f).sizes = f.sizes := by
  unfold keyCommitRequest
  split
  all_goals simp -implicitDefEqProofs

@[simp] theorem keyHeaderRequest_sizes (f : FieldDie) : (keyHeaderRequest f).sizes = f.sizes := by
  simp [keyHeaderRequest]

@[simp] theorem writeKeyCmd_sizes (req data : Nat) (f : FieldDie) : (writeKeyCmd req data f).sizes = f.sizes := by
  simp [writeKeyCmd, keyRequest, keyAsked]

@[simp] theorem presencePoll_sizes (answers uid : Nat) (f : FieldDie) :
    (presencePoll answers uid f).sizes = f.sizes := by
  simp -implicitDefEqProofs [presencePoll, pollFound]

@[simp] theorem sendLoad_sizes (off : Nat) (f : FieldDie) : (sendLoad off f).sizes = f.sizes := rfl
@[simp] theorem openDone_sizes (own : Bool) (f : FieldDie) : (openDone own f).sizes = f.sizes := by simp [openDone]

@[simp] theorem openReply_sizes (status : Nat) (d : List Byte) (f : FieldDie) :
    (openReply status d f).sizes = f.sizes := by
  simp only [openReply]
  repeat' split
  all_goals simp -implicitDefEqProofs

@[simp] theorem keyRetry_sizes (code err : Nat) (f : FieldDie) : (keyRetry code err f).sizes = f.sizes := by
  simp only [keyRetry]
  repeat' split
  all_goals simp -implicitDefEqProofs

@[simp] theorem keyReplied_sizes (status : Nat) (d : List Byte) (f : FieldDie) :
    (keyReplied status d f).sizes = f.sizes := by
  simp [keyReplied, pageRetry, sendPage, takeTxn, closeReply]

@[simp] theorem keySilent_sizes (f : FieldDie) : (keySilent f).sizes = f.sizes := by simp [keySilent]
@[simp] theorem startSilent_sizes (f : FieldDie) : (startSilent f).sizes = f.sizes := by simp [startSilent]

/-! ### State tables -/

@[simp] theorem writeStCommit_sizes (data : Nat) (f : FieldDie) : (writeStCommit data f).sizes = f.sizes := by
  simp -implicitDefEqProofs [writeStCommit]

@[simp] theorem setUnchecked_sizes (m : Nat) (on : Bool) (f : FieldDie) : (setUnchecked m on f).sizes = f.sizes := by
  simp [setUnchecked]

@[simp] theorem stCheckDone_sizes (f : FieldDie) : (stCheckDone f).sizes = f.sizes := by
  unfold stCheckDone
  split
  all_goals simp -implicitDefEqProofs [installTable]

/-! ### Resets and the line -/

@[simp] theorem risesPast_sizes (lo hi v : Nat) (f : FieldDie) : (risesPast lo hi v f).2.sizes = f.sizes := by
  simp only [risesPast]
  repeat' split
  all_goals simp -implicitDefEqProofs

@[simp] theorem fallsPast_sizes (lo hi v : Nat) (f : FieldDie) : (fallsPast lo hi v f).2.sizes = f.sizes := by
  simp only [fallsPast]
  repeat' split
  all_goals simp -implicitDefEqProofs

@[simp] theorem setAbove_sizes (n : Nat) (on : Bool) (f : FieldDie) : (setAbove n on f).sizes = f.sizes := by
  simp [setAbove]

@[simp] theorem lineOn_sizes (n mv : Nat) (r : Option Nat) (f : FieldDie) : (lineOn n mv r f).sizes = f.sizes := by
  simp [lineOn]

@[simp] theorem lineDown_sizes (n mv : Nat) (f : FieldDie) : (lineDown n mv f).sizes = f.sizes := by
  simp [lineDown, lineOffAt, lineBelow]

@[simp] theorem flashCut_sizes (f : FieldDie) (m : List (Nat × Byte)) : (flashCut f m).1.sizes = f.sizes := by
  unfold flashCut
  split
  all_goals simp -implicitDefEqProofs

@[simp] theorem lateTrigger_sizes (ignored full lowNs bit : Nat) (f : FieldDie) :
    (lateTrigger ignored full lowNs bit f).sizes = f.sizes := by
  simp [lateTrigger]

@[simp] theorem identityRegs_sizes (f : FieldDie) : (identityRegs f).sizes = f.sizes := by
  simp -implicitDefEqProofs [identityRegs]

@[simp] theorem releaseReset_sizes (straps : Nat) (f : FieldDie) : (releaseReset straps f).sizes = f.sizes := by
  simp [releaseReset]

@[simp] theorem startGo_sizes (data : Nat) (f : FieldDie) : (startGo data f).sizes = f.sizes := by simp [startGo]

/-! ### Darkroom -/

@[simp] theorem napEntry_sizes (f : FieldDie) : (napEntry f).sizes = f.sizes := by simp [napEntry]

@[simp] theorem slCalUpdate_sizes (period : Nat) (f : FieldDie) : (slCalUpdate period f).sizes = f.sizes := by
  simp [slCalUpdate]

@[simp] theorem darkRefuse_sizes (auto : Bool) (code : Nat) (f : FieldDie) :
    (darkRefuse auto code f).sizes = f.sizes := by
  simp [darkRefuse]

@[simp] theorem darkRequest_sizes (auto : Bool) (f : FieldDie) : (darkRequest auto f).sizes = f.sizes := by
  simp [darkRequest, darkBegin]

@[simp] theorem writePwrCtrl_sizes (req data : Nat) (f : FieldDie) : (writePwrCtrl req data f).sizes = f.sizes := by
  simp [writePwrCtrl, pwrCtrlChanged]

@[simp] theorem darkAuto_sizes (f : FieldDie) : (darkAuto f).sizes = f.sizes := by simp [darkAuto]

@[simp] theorem darkCapture_sizes (f : FieldDie) : (darkCapture f).sizes = f.sizes := by
  simp only [darkCapture]
  repeat' split
  all_goals simp -implicitDefEqProofs

@[simp] theorem captureTick_sizes (f : FieldDie) : (captureTick f).sizes = f.sizes := by simp [captureTick]
@[simp] theorem drainDone_sizes (f : FieldDie) : (drainDone f).sizes = f.sizes := by simp [drainDone, darkPort]
@[simp] theorem drainTimeout_sizes (f : FieldDie) : (drainTimeout f).sizes = f.sizes := by simp [drainTimeout]
@[simp] theorem darkReturn_sizes (f : FieldDie) : (darkReturn f).sizes = f.sizes := by simp [darkReturn]

@[simp] theorem darkAbandon_sizes (f : FieldDie) : (darkAbandon f).sizes = f.sizes := by
  simp -implicitDefEqProofs [darkAbandon]

@[simp] theorem startExit_sizes (f : FieldDie) : (startExit f).sizes = f.sizes := rfl

@[simp] theorem darkCause_sizes (bit : Nat) (f : FieldDie) : (darkCause bit f).sizes = f.sizes := by
  simp -implicitDefEqProofs [darkCause]

@[simp] theorem burstSeen_sizes (n : Nat) (f : FieldDie) : (burstSeen n f).sizes = f.sizes := by simp [burstSeen]

@[simp] theorem wakeCauseSeen_sizes (bit : Nat) (f : FieldDie) : (wakeCauseSeen bit f).sizes = f.sizes := by
  simp [wakeCauseSeen]

@[simp] theorem powerGoodFall_sizes (f : FieldDie) : (powerGoodFall f).sizes = f.sizes := by simp [powerGoodFall]

@[simp] theorem burstDetect_sizes (n : Nat) (sig : WakeSignal) (f : FieldDie) :
    (burstDetect n sig f).sizes = f.sizes := by
  simp only [burstDetect]
  repeat' split
  all_goals simp -implicitDefEqProofs

/-! ### Perturbation -/

@[simp] theorem ptbReject_sizes (req : Nat) (f : FieldDie) : (ptbReject req f).sizes = f.sizes := by simp [ptbReject]
@[simp] theorem ptbVoid_sizes (f : FieldDie) : (ptbVoid f).sizes = f.sizes := by simp [ptbVoid]

@[simp] theorem asOwner_sizes {p : FieldDie → FieldDie} (h : ∀ f, (p f).sizes = f.sizes) (req : Nat) (f : FieldDie) :
    (asOwner req p f).sizes = f.sizes := by
  simp [asOwner, h]

@[simp] theorem setControl_sizes (req addr c data : Nat) (f : FieldDie) :
    (setControl req addr c data f).sizes = f.sizes := by
  simp [setControl]

@[simp] theorem writePtbHold_sizes (req data : Nat) (f : FieldDie) : (writePtbHold req data f).sizes = f.sizes := by
  simp [writePtbHold]

@[simp] theorem writePtbAck_sizes (req data : Nat) (f : FieldDie) : (writePtbAck req data f).sizes = f.sizes := by
  simp [writePtbAck]

@[simp] theorem writePtbWdog_sizes (req data : Nat) (f : FieldDie) : (writePtbWdog req data f).sizes = f.sizes := by
  simp [writePtbWdog]

@[simp] theorem writePtbLane_sizes (req data : Nat) (f : FieldDie) : (writePtbLane req data f).sizes = f.sizes := by
  unfold writePtbLane
  dsimp only
  split
  all_goals simp -implicitDefEqProofs

@[simp] theorem flipWord_sizes (a : Nat) (double : Bool) (f : FieldDie) : (flipWord a double f).sizes = f.sizes :=
  rfl

@[simp] theorem flipCell_sizes (c : Nat) (double : Bool) (f : FieldDie) : (flipCell c double f).sizes = f.sizes := by
  simp only [flipCell]
  repeat' split
  all_goals simp -implicitDefEqProofs

@[simp] theorem writePtbEcc_sizes (req data : Nat) (f : FieldDie) : (writePtbEcc req data f).sizes = f.sizes := by
  simp [writePtbEcc]

@[simp] theorem setCopies_sizes (i : Nat) (w : Nat → Nat) (f : FieldDie) : (setCopies i w f).sizes = f.sizes := by
  simp [setCopies]

@[simp] theorem writePtbTmr_sizes (req data : Nat) (f : FieldDie) : (writePtbTmr req data f).sizes = f.sizes := by
  simp [writePtbTmr, setCopy]

@[simp] theorem writePtbLock_sizes (req data : Nat) (f : FieldDie) : (writePtbLock req data f).sizes = f.sizes := by
  simp [writePtbLock]

@[simp] theorem writePtbLife_sizes (req data : Nat) (f : FieldDie) : (writePtbLife req data f).sizes = f.sizes := by
  simp [writePtbLife]

@[simp] theorem writePtb_sizes (req addr data : Nat) (f : FieldDie) :
    (writePtb req addr data f).sizes = f.sizes := by
  simp -implicitDefEqProofs [writePtb, writePtbArm, ptbWrite]

/-! ### Table engines -/

@[simp] theorem restInstance_sizes (k : Nat) (f : FieldDie) : (restInstance k f).sizes = f.sizes := by
  simp [restInstance]

@[simp] theorem watchdog_sizes (k : Nat) (f : FieldDie) : (watchdog k f).sizes = f.sizes := by
  simp [watchdog, wdogControl]

@[simp] theorem checkWord_sizes (a : Nat) (f : FieldDie) : (checkWord a f).sizes = f.sizes := by
  unfold checkWord
  split
  all_goals simp -implicitDefEqProofs [tableLost, reloadTable, invalidate]

@[simp] theorem scrubPass_sizes (f : FieldDie) : (scrubPass f).sizes = f.sizes := by simp [scrubPass]

/-! ### The register file -/

@[simp] theorem heardManager_sizes (f : FieldDie) : (heardManager f).sizes = f.sizes := rfl

@[simp] theorem writeSpiSlave_sizes (data : Nat) (f : FieldDie) : (writeSpiSlave data f).sizes = f.sizes := by
  simp [writeSpiSlave]

@[simp] theorem stageLow_sizes (req addr data : Nat) (f : FieldDie) :
    (stageLow req addr data f).sizes = f.sizes := by
  simp [stageLow, stageWord]

@[simp] theorem glbWrite_sizes (req addr data : Nat) (f : FieldDie) :
    (glbWrite req addr data f).sizes = f.sizes := by
  simp [glbWrite]

@[simp] theorem pwrWrite_sizes (req addr data : Nat) (f : FieldDie) :
    (pwrWrite req addr data f).sizes = f.sizes := by
  simp [pwrWrite]

@[simp] theorem cfgWrite_sizes (req addr data : Nat) (f : FieldDie) :
    (cfgWrite req addr data f).sizes = f.sizes := by
  simp [cfgWrite]

@[simp] theorem pinWrite_sizes (req addr data : Nat) (f : FieldDie) :
    (pinWrite req addr data f).sizes = f.sizes := by
  simp [pinWrite]

@[simp] theorem fltWrite_sizes (req addr data : Nat) (f : FieldDie) :
    (fltWrite req addr data f).sizes = f.sizes := by
  simp [fltWrite]

@[simp] theorem portWrite_sizes (req addr data : Nat) (f : FieldDie) :
    (portWrite req addr data f).sizes = f.sizes := by
  simp [portWrite, writePodl]

@[simp] theorem mdsWrite_sizes (req addr data : Nat) (f : FieldDie) :
    (mdsWrite req addr data f).sizes = f.sizes := by
  simp -implicitDefEqProofs [mdsWrite, writeSegBurst]

@[simp] theorem fwdWrite_sizes (req addr data : Nat) (f : FieldDie) :
    (fwdWrite req addr data f).sizes = f.sizes := by
  simp [fwdWrite]

@[simp] theorem bufWrite_sizes (req addr data : Nat) (f : FieldDie) :
    (bufWrite req addr data f).sizes = f.sizes := by
  simp [bufWrite]

@[simp] theorem strWrite_sizes (req addr data : Nat) (f : FieldDie) :
    (strWrite req addr data f).sizes = f.sizes := by
  simp [strWrite]

@[simp] theorem timWrite_sizes (req addr data : Nat) (f : FieldDie) :
    (timWrite req addr data f).sizes = f.sizes := by
  simp [timWrite, ptpWrite, writePtpCfg, writePdly]

@[simp] theorem writeXngCtrl_sizes (req data : Nat) (f : FieldDie) : (writeXngCtrl req data f).sizes = f.sizes := by
  simp [writeXngCtrl]

@[simp] theorem linkWrite_sizes (req addr data : Nat) (f : FieldDie) :
    (linkWrite req addr data f).sizes = f.sizes := by
  simp [linkWrite]

@[simp] theorem readChangeTime_sizes (n : Nat) (f : FieldDie) : (readChangeTime n f).2.sizes = f.sizes := by
  unfold readChangeTime
  dsimp only
  split
  all_goals simp -implicitDefEqProofs

@[simp] theorem readWord_sizes (req addr : Nat) (f : FieldDie) : (readWord req addr f).2.sizes = f.sizes := by
  simp only [readWord]
  repeat' split
  all_goals simp -implicitDefEqProofs

@[simp] theorem fieldRead_sizes (req addr be : Nat) (f : FieldDie) :
    (fieldRead req addr be f).2.sizes = f.sizes := by
  unfold fieldRead
  dsimp only
  split
  all_goals simp -implicitDefEqProofs

/-! ### Start-up -/

@[simp] theorem loadIdentity_sizes (h : List Byte) (f : FieldDie) : (loadIdentity h f).sizes = f.sizes := by
  simp -implicitDefEqProofs [loadIdentity]

@[simp] theorem commitLoaded_sizes (proof : Nat) (f : FieldDie) : (commitLoaded proof f).sizes = f.sizes := by
  simp [commitLoaded]

@[simp] theorem fillStartKey_sizes (k : KeyChip) (f : FieldDie) : (fillStartKey k f).sizes = f.sizes := by
  simp only [fillStartKey]
  repeat' split
  all_goals simp -implicitDefEqProofs

@[simp] theorem startPort_sizes (n : Nat) (f : FieldDie) : (startPort n f).sizes = f.sizes := by
  simp -implicitDefEqProofs [startPort]

@[simp] theorem startFabric_sizes (f : FieldDie) : (startFabric f).sizes = f.sizes := by simp [startFabric]

@[simp] theorem startPorts_sizes (hold : Option Nat) (f : FieldDie) : (startPorts hold f).sizes = f.sizes := by
  unfold startPorts
  split
  all_goals simp -implicitDefEqProofs

@[simp] theorem startFlash_sizes (s : Source) (f : FieldDie) : (startFlash s f).sizes = f.sizes := by
  simp [startFlash]

@[simp] theorem darkReconcile_sizes (f : FieldDie) : (darkReconcile f).sizes = f.sizes := by
  simp -implicitDefEqProofs [darkReconcile, missDark, darkDomains]

@[simp] theorem darkServo_sizes (n : Nat) (f : FieldDie) : (darkServo n f).sizes = f.sizes := by simp [darkServo]

@[simp] theorem wakePortUp_sizes (n : Nat) (f : FieldDie) : (wakePortUp n f).sizes = f.sizes := by
  simp -implicitDefEqProofs [wakePortUp, wakeAfter]

@[simp] theorem logDark_sizes (f : FieldDie) : (logDark f).sizes = f.sizes := by simp [logDark]

@[simp] theorem wakeDone_sizes (f : FieldDie) : (wakeDone f).sizes = f.sizes := by
  simp only [wakeDone]
  repeat' split
  all_goals simp -implicitDefEqProofs

/-! ### The serial port -/

@[simp] theorem selFall_sizes (f : FieldDie) : (selFall f).sizes = f.sizes := by
  unfold selFall
  dsimp only
  split
  all_goals simp -implicitDefEqProofs

@[simp] theorem spiEvt_sizes (bit cmd addr : Nat) (f : FieldDie) : (spiEvt bit cmd addr f).sizes = f.sizes := by
  simp [spiEvt]

@[simp] theorem spiBad_sizes (cmd addr : Nat) (f : FieldDie) : (spiBad cmd addr f).sizes = f.sizes := by
  simp [spiBad]

@[simp] theorem spiDone_sizes (cmd : Nat) (f : FieldDie) : (spiDone cmd f).sizes = f.sizes := by simp [spiDone]

@[simp] theorem readWords_sizes (n addr : Nat) (f : FieldDie) : (readWords n addr f).2.sizes = f.sizes := by
  induction n generalizing addr f with
  | zero => rfl
  | succ n ih => exact (ih _ _).trans (readWord_sizes _ _ f)

@[simp] theorem spiRead_sizes (addr count period : Nat) (f : FieldDie) :
    (spiRead addr count period f).sizes = f.sizes := by
  simp [spiRead]

@[simp] theorem spiStatus_sizes (f : FieldDie) : (spiStatus f).sizes = f.sizes := by simp [spiStatus]
@[simp] theorem spiId_sizes (f : FieldDie) : (spiId f).sizes = f.sizes := by simp [spiId]

@[simp] theorem spiAbort_sizes (cmd addr : Nat) (f : FieldDie) : (spiAbort cmd addr f).sizes = f.sizes := by
  simp [spiAbort]

/-! ### Register messages -/

@[simp] theorem consume_sizes (u : FlowUnit) (f : FieldDie) : (consume u f).sizes = f.sizes := rfl

@[simp] theorem fieldRegr_sizes (f : FieldDie) : (fieldRegr f).sizes = f.sizes := by
  unfold fieldRegr
  split
  all_goals simp -implicitDefEqProofs

@[simp] theorem fieldFnReset_sizes (f : FieldDie) : (fieldFnReset f).sizes = f.sizes := by
  unfold fieldFnReset
  split
  all_goals simp -implicitDefEqProofs [fnReset]

@[simp] theorem fieldData_sizes (f : FieldDie) : (fieldData f).sizes = f.sizes := by
  unfold fieldData
  split
  all_goals simp -implicitDefEqProofs

/-! ### Ticks -/

@[simp] theorem xcheckTick_sizes (f : FieldDie) : (xcheckTick f).sizes = f.sizes := by simp [xcheckTick]
@[simp] theorem xcheckOverrun_sizes (f : FieldDie) : (xcheckOverrun f).sizes = f.sizes := by simp [xcheckOverrun]

@[simp] theorem compareTick_sizes (f : FieldDie) : (compareTick f).sizes = f.sizes := by
  simp [compareTick, wantTick, domDiffer, gclDiffer, portDiffer]

@[simp] theorem pairSample_sizes (pads p : Nat) (f : FieldDie) : (pairSample pads p f).sizes = f.sizes := by
  simp [pairSample, pairTick]

@[simp] theorem wakeTickSeen_sizes (f : FieldDie) : (wakeTickSeen f).sizes = f.sizes := by
  unfold wakeTickSeen
  split
  all_goals simp -implicitDefEqProofs

@[simp] theorem phaseTicks_sizes (f : FieldDie) : (phaseTicks f).sizes = f.sizes := by simp [phaseTicks]

@[simp] theorem safelightTick_sizes (pads : Nat) (f : FieldDie) : (safelightTick pads f).sizes = f.sizes := by
  simp [safelightTick]

end Sys2Proof.Machine
end


section
/-! The lengths of the field die's lists over the commands of the serial window, the serial port and the start-up. -/

namespace Sys2Proof.Machine

@[simp] theorem winStore_sizes (o : Nat) (bs : List Byte) (f : FieldDie) : (winStore o bs f).sizes = f.sizes := by
  induction bs generalizing o f with
  | nil => rfl
  | cons b bs ih => exact (ih _ _).trans (ite_sizes ..|>.trans (ite_self _))

@[simp] theorem setWin_sizes (o v : Nat) (f : FieldDie) : (setWin o v f).sizes = f.sizes := winStore_sizes o _ f

@[simp] theorem setWinStat_sizes (k : Nat) (stopped err : Bool) (code : Nat) (f : FieldDie) :
    (setWinStat k stopped err code f).sizes = f.sizes := setWin_sizes _ _ f

@[simp] theorem winCompletion_sizes (k : Nat) (c : Completion) (f : FieldDie) :
    (winCompletion k c f).sizes = f.sizes := by
  unfold winCompletion
  extract_lets t n stored told m
  rw [FieldDie.setWinModer_sizes]
  exact (setWin_sizes _ _ stored).trans (winStore_sizes _ _ f)

@[simp] theorem winSend_sizes (k : Nat) (f : FieldDie) : (winSend k f).sizes = f.sizes := by
  unfold winSend
  extract_lets w head posted
  split
  · rfl
  · split
    · rfl
    · extract_lets d w2 bad data bytes taken c g
      have hg : g.sizes = f.sizes := (winCompletion_sizes k c _).trans (setWin_sizes _ _ f)
      clear_value g
      split
      · exact hg
      · exact hg

@[simp] theorem winSendAll_sizes (k : Nat) (f : FieldDie) : (winSendAll k f).sizes = f.sizes :=
  forRange_sizes (fun _ f => winSend_sizes k f) _ f

@[simp] theorem winRxWrites_sizes (ds : List (List Byte)) (bs : List Byte) (f : FieldDie) :
    (winRxWrites ds bs f).sizes = f.sizes := by
  induction ds generalizing bs f with
  | nil => rfl
  | cons d ds ih => exact (ih _ _).trans (winStore_sizes _ _ f)

@[simp] theorem winDeliver_sizes (q : Nat) (bs : List Byte) (ts port : Nat) (f : FieldDie) :
    (winDeliver q bs ts port f).sizes = f.sizes := by
  unfold winDeliver
  extract_lets k w
  split
  · rfl
  · split
    · rfl
    next n bad good _ =>
      split
      · rfl
      · rw [winCompletion_sizes, setWin_sizes, winRxWrites_sizes, forAll_sizes fun _ _ => winCompletion_sizes ..]

@[simp] theorem winWriteCtrl_sizes (k data : Nat) (f : FieldDie) : (winWriteCtrl k data f).sizes = f.sizes := by
  simp [winWriteCtrl]

@[simp] theorem winWriteBase_sizes (k o b data : Nat) (f : FieldDie) : (winWriteBase k o b data f).sizes = f.sizes := by
  simp [winWriteBase]

@[simp] theorem winBell_sizes (k o data : Nat) (f : FieldDie) : (winBell k o data f).sizes = f.sizes := by simp [winBell]
@[simp] theorem winWrite_sizes (o data : Nat) (f : FieldDie) : (winWrite o data f).sizes = f.sizes := by simp [winWrite]
@[simp] theorem winInterrupt_sizes (k cause : Nat) (f : FieldDie) : (winInterrupt k cause f).sizes = f.sizes := by
  simp [winInterrupt]

@[simp] theorem winReset_sizes (f : FieldDie) : (winReset f).sizes = f.sizes := by
  simp -implicitDefEqProofs [winReset]

@[simp] theorem managerReset_sizes (f : FieldDie) : (managerReset f).sizes = f.sizes := by
  simp -implicitDefEqProofs [managerReset]

@[simp] theorem judgeRole_sizes (req data : Nat) (f : FieldDie) : (judgeRole req data f).sizes = f.sizes := by
  simp -implicitDefEqProofs [judgeRole]

@[simp] theorem writeSpiCtrl_sizes (req data : Nat) (f : FieldDie) : (writeSpiCtrl req data f).sizes = f.sizes := by
  simp -implicitDefEqProofs [writeSpiCtrl]

@[simp] theorem spiWrite_sizes (req addr data : Nat) (f : FieldDie) : (spiWrite req addr data f).sizes = f.sizes := by
  simp [spiWrite]

@[simp] theorem writeEnds_sizes (f : FieldDie) : (writeEnds f).sizes = f.sizes := by
  unfold writeEnds
  split
  all_goals simp -implicitDefEqProofs

@[simp] theorem blockWrite_sizes (req addr data : Nat) (f : FieldDie) : (blockWrite req addr data f).sizes = f.sizes := by
  simp [blockWrite]

@[simp] theorem writeWord_sizes (req addr data : Nat) (f : FieldDie) : (writeWord req addr data f).sizes = f.sizes := by
  simp [writeWord]

@[simp] theorem fieldWrite_sizes (req addr be data : Nat) (f : FieldDie) :
    (fieldWrite req addr be data f).sizes = f.sizes := by
  simp [fieldWrite]

@[simp] theorem writeWords_sizes (ws : List Word) (addr : Nat) (f : FieldDie) :
    (writeWords ws addr f).sizes = f.sizes := by
  induction ws generalizing addr f with
  | nil => rfl
  | cons w ws ih => exact (ih _ _).trans (fieldWrite_sizes ..)

@[simp] theorem applyRegw_sizes (u : FlowUnit) (f : FieldDie) : (applyRegw u f).sizes = f.sizes :=
  forRange_sizes (fun _ _ => fieldWrite_sizes ..) _ f

@[simp] theorem fieldRegw_sizes (f : FieldDie) : (fieldRegw f).sizes = f.sizes := by
  unfold fieldRegw
  split
  all_goals simp -implicitDefEqProofs

@[simp] theorem managerTimeout_sizes (f : FieldDie) : (managerTimeout f).sizes = f.sizes := by simp [managerTimeout]

@[simp] theorem spiMgrReset_sizes (key : Nat) (f : FieldDie) : (spiMgrReset key f).sizes = f.sizes := by
  simp [spiMgrReset]

@[simp] theorem spiWriteCmd_sizes (addr : Nat) (ws : List Word) (crc : Nat) (f : FieldDie) :
    (spiWriteCmd addr ws crc f).sizes = f.sizes := by
  simp [spiWriteCmd]

@[simp] theorem startP16_sizes (c : Copy) (f : FieldDie) : (startP16 c f).sizes = f.sizes := by
  unfold startP16
  dsimp only
  repeat' split
  all_goals simp -implicitDefEqProofs

@[simp] theorem transmitStart_sizes (n : Nat) (f : FieldDie) : (transmitStart n f).sizes = f.sizes := by
  unfold transmitStart
  dsimp only
  repeat' split
  all_goals simp -implicitDefEqProofs

@[simp] theorem loadReg_sizes (a v : Nat) (f : FieldDie) : (loadReg a v f).sizes = f.sizes := by simp [loadReg]

@[simp] theorem loadRecord_sizes (r : ImgRec) (f : FieldDie) : (loadRecord r f).sizes = f.sizes := by
  cases r with
  | regs a ws => exact forRange_sizes (fun _ _ => loadReg_sizes ..) _ f
  | table a n st es => simp [loadRecord]

@[simp] theorem loadRecords_sizes (recs : List ImgRec) (f : FieldDie) : (loadRecords recs f).sizes = f.sizes := by
  simp [loadRecords]

@[simp] theorem loadImage_sizes (img : List Byte) (recs : List ImgRec) (f : FieldDie) :
    (loadImage img recs f).sizes = f.sizes := by
  simp [loadImage]

@[simp] theorem applySource_sizes (s : Source) (f : FieldDie) : (applySource s f).sizes = f.sizes := by
  unfold applySource
  dsimp only
  repeat' split
  all_goals simp -implicitDefEqProofs

@[simp] theorem configResolved_sizes (k : KeyChip) (m : List (Nat × Byte)) (f : FieldDie) :
    (configResolved k m f).sizes = f.sizes := by
  simp [configResolved]

@[simp] theorem resumeImage_sizes (img : List Byte) (recs : List ImgRec) (f : FieldDie) :
    (resumeImage img recs f).sizes = f.sizes := by
  simp [resumeImage]

end Sys2Proof.Machine
end


section
/-! The lists of the field die are whole after a reset and in darkroom, and the restored ones after a lost resume image. -/

namespace Sys2Proof.Machine

variable {f : FieldDie}

/-- The lengths that the lists of the field die have (chapter 1, R575, R577). -/
def wholeSizes : Sizes := ⟨17, 4, 17, 2, 4, 4, 4, 17, 12, 24, 2, 2, 2, 2, 2⟩

theorem resetField_sizes (h : f.sizes = wholeSizes) : (resetField f).sizes = wholeSizes := by
  simp [resetField, keptPwr, linePwr, keptTime, keptPins, h, wholeSizes]

theorem darkDie_sizes (h : f.sizes = wholeSizes) : (darkDie f).sizes = wholeSizes := by
  simp [darkDie, linePwr, keptPins, h, wholeSizes]

theorem darkroom_sizes (h : f.sizes = wholeSizes) : (darkroom f).sizes = wholeSizes := by
  simp [darkroom, keptPwr, linePwr, darkTime, keptPins, h, wholeSizes]

theorem resumeLost_sizes (h : f.sizes = wholeSizes) : (resumeLost f).sizes = wholeSizes := by
  simp -implicitDefEqProofs [resumeLost, h, wholeSizes]

theorem resumeLoad_sizes (m : List (Nat × Byte)) (h : f.sizes = wholeSizes) : (resumeLoad m f).sizes = wholeSizes := by
  have hput : (f.put F_TIM_SYS_active f.tim.darkActive).sizes = wholeSizes := h
  unfold resumeLoad
  dsimp only
  split
  · split
    · rw [FieldDie.put_sizes, resumeImage_sizes]
      exact hput
    · exact resumeLost_sizes hput
  · exact resumeLost_sizes hput

@[simp] theorem settle_sizes (f : FieldDie) : (settle f).sizes = f.sizes := by
  simp [settle]

end Sys2Proof.Machine
end


section
/-! The mirror queues of the host die and the frames that it has fetched: most operations leave them alone; the others keep
the queues' number and the frames whole. -/

namespace Sys2Proof.Machine

variable {h : HostDie}

/-! ### What is looked at -/

/-- The number of mirror queues, the fetched frames that have not started, and the frame that is being sent. -/
structure HostQueues where
  mirrors : Nat
  ready : List TxFrame
  sending : Option TxFrame

/-- Those of a host die. -/
def HostDie.queues (h : HostDie) : HostQueues := ⟨h.mirrors.length, h.ready, h.sending⟩

@[simp] theorem HostDie.length_mirrors (h : HostDie) : h.mirrors.length = h.queues.mirrors := rfl
@[simp] theorem HostDie.ready_eq (h : HostDie) : h.ready = h.queues.ready := rfl
@[simp] theorem HostDie.sending_eq (h : HostDie) : h.sending = h.queues.sending := rfl

/-- The queues of a die given by its parts. -/
@[simp] theorem queues_mk {reg cnt staged inReset dstate xng holdq reads readAt tags bme msixEn msixMask vfEnable numVfs msixPba mod evLost ready sending crossing rxFrames mirrors localNs corrSys corrPtm ptb latched rrHi rrLo freeCtr out} :
    (HostDie.mk reg cnt staged inReset dstate xng holdq reads readAt tags bme msixEn msixMask vfEnable numVfs msixPba mod
      evLost ready sending crossing rxFrames mirrors localNs corrSys corrPtm ptb latched rrHi rrLo freeCtr out).queues =
      ⟨mirrors.length, ready, sending⟩ := rfl

/-! ### Operations that leave all of it alone -/

@[simp] theorem ite_queues (c : Prop) [Decidable c] (g h : HostDie) :
    (if c then g else h).queues = if c then g.queues else h.queues := apply_ite _ _ _ _

theorem forAll_queues {α : Type} {k : α → HostDie → HostDie} (hk : ∀ x h, (k x h).queues = h.queues) (xs : List α)
    (h : HostDie) : (forAll xs k h).queues = h.queues := by
  unfold forAll
  induction xs generalizing h with
  | nil => rfl
  | cons x xs ih => exact (ih (k x h)).trans (hk x h)

theorem forRange_queues {k : Nat → HostDie → HostDie} (hk : ∀ n h, (k n h).queues = h.queues) (n : Nat) (h : HostDie) :
    (forRange n k h).queues = h.queues := forAll_queues hk (List.range n) h

theorem foldl_queues {α β : Type} {k : α × HostDie → β → α × HostDie} (hk : ∀ a x, (k a x).2.queues = a.2.queues)
    (xs : List β) (a : α × HostDie) : (xs.foldl k a).2.queues = a.2.queues := by
  induction xs generalizing a with
  | nil => rfl
  | cons x xs ih => exact (ih (k a x)).trans (hk a x)

@[simp] theorem HostDie.wr_queues (h : HostDie) (a : Nat) (w : Word) : (h.wr a w).queues = h.queues := rfl
@[simp] theorem HostDie.wrN_queues (h : HostDie) (a v : Nat) : (h.wrN a v).queues = h.queues := rfl
@[simp] theorem HostDie.put_queues (h : HostDie) (r : Fld) (v : Nat) : (h.put r v).queues = h.queues := rfl
@[simp] theorem HostDie.bump_queues (h : HostDie) (r : Fld) (n : Nat) : (h.bump r n).queues = h.queues := rfl
@[simp] theorem HostDie.countN_queues (h : HostDie) (a n : Nat) : (h.countN a n).queues = h.queues := rfl
@[simp] theorem HostDie.count_queues (h : HostDie) (a : Nat) : (h.count a).queues = h.queues := rfl
@[simp] theorem HostDie.emit_queues (h : HostDie) (o : Output) : (h.emit o).queues = h.queues := rfl
@[simp] theorem HostDie.free_queues (h : HostDie) : h.free.2.queues = h.queues := rfl
@[simp] theorem HostDie.setModer_queues (h : HostDie) (q : Nat) (m : Moder) : (h.setModer q m).queues = h.queues := rfl
@[simp] theorem HostDie.setFlag_queues (h : HostDie) (a b : Nat) : (h.setFlag a b).queues = h.queues :=
  HostDie.wrN_queues h a _
@[simp] theorem HostDie.readLocal_queues (h : HostDie) (v : Nat) : (h.readLocal v).queues = h.queues := rfl

@[simp] theorem sendMsix_queues (f v : Nat) (h : HostDie) : (sendMsix f v h).queues = h.queues := by simp [sendMsix]
@[simp] theorem flushPba_queues (f v : Nat) (h : HostDie) : (flushPba f v h).queues = h.queues := by simp [flushPba]

@[simp] theorem pushCompletion_queues (q : Nat) (c : Completion) (h : HostDie) :
    (pushCompletion q c h).queues = h.queues := by
  unfold pushCompletion
  dsimp only
  rw [HostDie.setModer_queues, HostDie.wrN_queues, HostDie.emit_queues]

@[simp] theorem writeRecord_queues (ws : List Nat) (lost host : Bool) (h : HostDie) :
    (writeRecord ws lost host h).queues = h.queues := by
  unfold writeRecord
  split
  · rfl
  · exact HostDie.setFlag_queues _ _ _

@[simp] theorem HostDie.raise_queues (h : HostDie) (a b : Nat) : (h.raise a b).queues = h.queues := by
  simp -implicitDefEqProofs [HostDie.raise]

@[simp] theorem funEvent_queues (f bit qp : Nat) (h : HostDie) : (funEvent f bit qp h).queues = h.queues := by
  simp [funEvent]

@[simp] theorem HostDie.emitUnit_queues (h : HostDie) (seed : Nat) (u : FlowUnit) : (h.emitUnit seed u).queues = h.queues := rfl

@[simp] theorem HostDie.putUnit_queues (h : HostDie) (seed : Nat) (u : FlowUnit) :
    (h.putUnit seed u).queues = h.queues := by
  simp -implicitDefEqProofs [HostDie.putUnit]

@[simp] theorem HostDie.sendXng_queues (h : HostDie) (u : FlowUnit) : (h.sendXng u).queues = h.queues := by
  simp [HostDie.sendXng]

@[simp] theorem setEngine_queues (n v : Nat) (h : HostDie) : (setEngine n v h).queues = h.queues := by
  simp -implicitDefEqProofs [setEngine]

@[simp] theorem chkCompute_queues (x : TxFrame) (h : HostDie) : (chkCompute x h).2.queues = h.queues := by
  unfold chkCompute
  split
  · rfl
  · exact HostDie.put_queues ..

/-- The computation leaves the engine that the frame names. -/
@[simp] theorem chkCompute_chk (x : TxFrame) (h : HostDie) : (chkCompute x h).1.chk = x.chk := by
  unfold chkCompute
  split
  · rfl
  · rfl

@[simp] theorem chkEnd_queues (x : TxFrame) (h : HostDie) : (chkEnd x h).queues = h.queues := by
  unfold chkEnd
  split
  · rfl
  · simp -implicitDefEqProofs

@[simp] theorem chkUndo_queues (x : TxFrame) (h : HostDie) : (chkUndo x h).queues = h.queues := by
  unfold chkUndo
  split
  · rfl
  · dsimp only
    split
    · simp -implicitDefEqProofs
    · simp -implicitDefEqProofs

@[simp] theorem resetEngine_queues (n : Nat) (h : HostDie) : (resetEngine n h).queues = h.queues := by
  simp -implicitDefEqProofs [resetEngine]

@[simp] theorem frameCrossed_queues (x : TxFrame) (seq : Nat) (h : HostDie) :
    (frameCrossed x seq h).queues = h.queues := by
  simp -implicitDefEqProofs [frameCrossed]

@[simp] theorem qpEvent_queues (q bit : Nat) (h : HostDie) : (qpEvent q bit h).queues = h.queues := by
  unfold qpEvent
  split
  · exact funEvent_queues _ _ _ h
  · rfl

@[simp] theorem ackFrames_queues (p : Nat → Bool) (h : HostDie) : (ackFrames p h).queues = h.queues := rfl

@[simp] theorem hostFault_queues (code fn : Nat) (h : HostDie) : (hostFault code fn h).queues = h.queues := by
  simp [hostFault]

@[simp] theorem hostFx_queues (x : LinkFx) (h : HostDie) : (hostFx x h).queues = h.queues := by
  cases x with
  | _ => simp -implicitDefEqProofs [hostFx]

@[simp] theorem HostDie.onXng_queues (g : Link → LinkAns) (h : HostDie) : (h.onXng g).queues = h.queues :=
  forAll_queues hostFx_queues _ _

@[simp] theorem HostDie.rxNoise_queues (h : HostDie) : h.rxNoise.queues = h.queues := by
  simp -implicitDefEqProofs [HostDie.rxNoise]

@[simp] theorem purgeHeld_queues (p : Held → Bool) (h : HostDie) : (purgeHeld p h).queues = h.queues := rfl

@[simp] theorem hostTrained_queues (h : HostDie) : (hostTrained h).queues = h.queues := by
  unfold hostTrained
  split
  · simp -implicitDefEqProofs
  · rfl

@[simp] theorem localAnswer_queues (f tag : Nat) (late : Bool) (h : HostDie) : (localAnswer f tag late h).queues = h.queues := by
  simp -implicitDefEqProofs [localAnswer]

@[simp] theorem apertureRead_queues (f off be : Nat) (h : HostDie) : (apertureRead f off be h).queues = h.queues := by
  unfold apertureRead
  split
  · rfl
  · split
    · exact localAnswer_queues ..
    · split
      · rfl
      · rfl

@[simp] theorem apertureReadTimeout_queues (t : Nat) (h : HostDie) : (apertureReadTimeout t h).queues = h.queues := by
  unfold apertureReadTimeout
  split
  · split
    · rfl
    · exact localAnswer_queues ..
  · rfl

@[simp] theorem holdWrite_queues (fn count : Nat) (slots : List Byte) (h : HostDie) :
    (holdWrite fn count slots h).queues = h.queues := by
  unfold holdWrite
  dsimp only
  split
  · split
    · rfl
    · rfl
  · rfl

@[simp] theorem apertureWrite_queues (f off firstBe lastBe : Nat) (ws : List Word) (h : HostDie) :
    (apertureWrite f off firstBe lastBe ws h).queues = h.queues := by
  simp -implicitDefEqProofs [apertureWrite]

@[simp] theorem holdPurge_queues (f data : Nat) (h : HostDie) : (holdPurge f data h).queues = h.queues := by
  simp -implicitDefEqProofs [holdPurge]

@[simp] theorem announceReset_queues (fn : Nat) (h : HostDie) : (announceReset fn h).queues = h.queues := rfl

@[simp] theorem endHostPtb_queues (cause : Nat) (h : HostDie) : (endHostPtb cause h).queues = h.queues := by
  simp -implicitDefEqProofs [endHostPtb]

/-! ### Rings, functions and registers -/

@[simp] theorem ringBell_queues (f l q a v : Nat) (b : Bell) (h : HostDie) : (ringBell f l q a v b h).queues = h.queues := by
  cases b with
  | same | stale | accept => rfl
  | overrun => exact funEvent_queues _ _ _ h

theorem doorbell_queues {k : Nat → HostDie → HostDie} (hk : ∀ q h, (k q h).queues = h.queues) (f l : Nat) (en : Nat → Fld)
    (h : HostDie) : (doorbell f l en k h).queues = h.queues := by
  unfold doorbell
  split
  · exact funEvent_queues _ _ _ h
  · split
    · exact hk _ h
    · rfl

@[simp] theorem txBell_queues (f l v : Nat) (h : HostDie) : (txBell f l v h).queues = h.queues :=
  doorbell_queues (fun _ _ => ringBell_queues ..) _ _ _ h
@[simp] theorem rxBell_queues (f l v : Nat) (h : HostDie) : (rxBell f l v h).queues = h.queues :=
  doorbell_queues (fun _ _ => ringBell_queues ..) _ _ _ h
@[simp] theorem cqBell_queues (f l v : Nat) (h : HostDie) : (cqBell f l v h).queues = h.queues :=
  doorbell_queues (fun _ _ => ringBell_queues ..) _ _ _ h

@[simp] theorem bellWrite_queues (fn off data : Nat) (h : HostDie) : (bellWrite fn off data h).queues = h.queues := by
  simp [bellWrite]

@[simp] theorem startRing_queues (was now_ : Bool) (head tail : Nat) (h : HostDie) :
    (startRing was now_ head tail h).queues = h.queues := by
  simp [startRing]

@[simp] theorem geometryRefused_queues (q : Nat) (h : HostDie) : (geometryRefused q h).queues = h.queues := by
  simp [geometryRefused]

@[simp] theorem writeFnConfig_queues (t : Nat) (cfg : Bool) (data : Nat) (h : HostDie) :
    (writeFnConfig t cfg data h).queues = h.queues := by
  simp [writeFnConfig]

@[simp] theorem writeSteer_queues (i w data : Nat) (h : HostDie) : (writeSteer i w data h).queues = h.queues := by
  simp -implicitDefEqProofs [writeSteer]

@[simp] theorem rxWrites_queues (ds : List (List Byte)) (bs : List Byte) (h : HostDie) :
    (rxWrites ds bs h).queues = h.queues := by
  induction ds generalizing bs h with
  | nil => rfl
  | cons d ds ih => exact ih _ _

@[simp] theorem deliverTo_queues (f l : Nat) (bs : List Byte) (ts port : Nat) (ds : List (List Byte)) (h : HostDie) :
    (deliverTo f l bs ts port ds h).2.queues = h.queues := by
  generalize answer : deliverTo f l bs ts port ds h = r
  unfold deliverTo at answer
  split at answer
  · rw [← answer]
  · split at answer
    · rw [← answer, HostDie.count_queues]
    · extract_lets head posted at answer
      split at answer
      · rw [← answer, HostDie.count_queues]
      next n bad good _ =>
        split at answer
        · rw [← answer, HostDie.count_queues]
        · rw [← answer, HostDie.countN_queues, HostDie.count_queues, pushCompletion_queues, HostDie.wrN_queues,
            rxWrites_queues, forAll_queues fun _ _ => pushCompletion_queues ..]

@[simp] theorem rxDelivery_queues (descs : List (List Byte)) (h : HostDie) : (rxDelivery descs h).queues = h.queues := by
  unfold rxDelivery
  split
  · rfl
  next bs ms rest _ =>
    dsimp only
    split
    · rfl
    · refine (foldl_queues (fun a t => ?_) _ _).trans rfl
      exact deliverTo_queues ..

@[simp] theorem interruptModeration_queues (q cause : Nat) (h : HostDie) :
    (interruptModeration q cause h).queues = h.queues := by
  unfold interruptModeration
  dsimp only
  split
  · split
    · exact sendMsix_queues ..
    · split
      · exact sendMsix_queues ..
      · rfl
  · rfl

@[simp] theorem popMirror_queues (q : Nat) (h : HostDie) : (popMirror q h).queues = h.queues := by
  unfold popMirror
  split
  · rfl
  · rw [forAll_queues fun _ _ => HostDie.wr_queues ..]
    simp

@[simp] theorem popHostAt_queues (off : Nat) (h : HostDie) : (popHostAt off h).queues = h.queues := by
  unfold popHostAt
  split
  · exact popMirror_queues _ h
  · rfl

@[simp] theorem ptmDialogue_queues (master hostLocal : Nat) (h : HostDie) :
    (ptmDialogue master hostLocal h).queues = h.queues := by
  simp [ptmDialogue]

@[simp] theorem corrSnap_queues (data : Nat) (h : HostDie) : (corrSnap data h).queues = h.queues := by
  unfold corrSnap
  split
  · rfl
  · rfl

@[simp] theorem hostPinEdge_queues (n : Nat) (rising : Bool) (h : HostDie) : (hostPinEdge n rising h).queues = h.queues := by
  simp [hostPinEdge]

@[simp] theorem hostPtbReject_queues (fn : Nat) (h : HostDie) : (hostPtbReject fn h).queues = h.queues := by
  simp [hostPtbReject]

@[simp] theorem writeHostArm_queues (now fn data : Nat) (h : HostDie) : (writeHostArm now fn data h).queues = h.queues := by
  simp -implicitDefEqProofs [writeHostArm]

@[simp] theorem setHostControl_queues (addr c mask data : Nat) (h : HostDie) :
    (setHostControl addr c mask data h).queues = h.queues := rfl

@[simp] theorem writeHostLane_queues (data : Nat) (h : HostDie) : (writeHostLane data h).queues = h.queues := by
  simp -implicitDefEqProofs [writeHostLane]

@[simp] theorem writeHostAck_queues (data : Nat) (h : HostDie) : (writeHostAck data h).queues = h.queues := rfl

@[simp] theorem hostSqWrite_queues (addr data : Nat) (h : HostDie) : (hostSqWrite addr data h).queues = h.queues := by
  simp [hostSqWrite]

@[simp] theorem writeHostXng_queues (data : Nat) (h : HostDie) : (writeHostXng data h).queues = h.queues := by
  simp -implicitDefEqProofs [writeHostXng]

@[simp] theorem stageHost_queues (fn key data : Nat) (h : HostDie) : (stageHost fn key data h).queues = h.queues := rfl

@[simp] theorem applyHost_queues (fn lo data : Nat) (h : HostDie) : (applyHost fn lo data h).queues = h.queues := rfl

@[simp] theorem writeMsix_queues (fn o data : Nat) (h : HostDie) : (writeMsix fn o data h).queues = h.queues := by
  simp [writeMsix]

@[simp] theorem writeEvqHead_queues (data : Nat) (h : HostDie) : (writeEvqHead data h).queues = h.queues := by
  unfold writeEvqHead
  split
  · rfl
  · rfl
  · exact HostDie.raise_queues ..
  · rfl

@[simp] theorem writeEvq_queues (off data : Nat) (h : HostDie) : (writeEvq off data h).queues = h.queues := by
  simp -implicitDefEqProofs [writeEvq]

@[simp] theorem writeHostPin_queues (off data : Nat) (h : HostDie) : (writeHostPin off data h).queues = h.queues := by
  simp -implicitDefEqProofs [writeHostPin]

@[simp] theorem writePcieCfg_queues (fn k data : Nat) (h : HostDie) : (writePcieCfg fn k data h).queues = h.queues := by
  have flushed : ∀ g, (flushAll fn g).queues = g.queues := fun g => forRange_queues (fun _ _ => flushPba_queues ..) _ g
  simp [writePcieCfg, flushed]

/-! ### Messages and power states -/

@[simp] theorem hostRegc_queues (h : HostDie) : (hostRegc h).queues = h.queues := by
  unfold hostRegc takeHost
  split
  next g taken =>
    split at taken
    · cases taken
      dsimp only
      split
      · rfl
      · rfl
    · cases taken
  · rfl

@[simp] theorem hostEvt_queues (h : HostDie) : (hostEvt h).queues = h.queues := by
  unfold hostEvt takeHost
  split
  next g taken =>
    split at taken
    · cases taken
      exact writeRecord_queues ..
    · cases taken
  · rfl

@[simp] theorem hostTsr_queues (h : HostDie) : (hostTsr h).queues = h.queues := by
  unfold hostTsr takeHost
  split
  next g taken =>
    split at taken
    · cases taken
      simp
    · cases taken
  · rfl

@[simp] theorem hostTime_queues (hostLocal : Nat) (h : HostDie) : (hostTime hostLocal h).queues = h.queues := by
  unfold hostTime takeHost
  dsimp only
  split
  next g taken =>
    split at taken
    · cases taken
      rfl
    · cases taken
  · rfl

@[simp] theorem hostData_queues (h : HostDie) : (hostData h).queues = h.queues := by
  unfold hostData
  split
  · split
    · rfl
    · rfl
  · rfl

@[simp] theorem hostPower_queues (d : Nat) (h : HostDie) : (hostPower d h).queues = h.queues := by
  simp -implicitDefEqProofs [hostPower]

end Sys2Proof.Machine
end


section
/-! The mirror queues and fetched frames of the host die stay whole (R575, R727): the operations that move them. -/

namespace Sys2Proof.Machine

variable {g h : HostDie}

/-- The engine that a frame names, if any, is one of the eight (R727). -/
def TxFrame.named (x : TxFrame) : Prop := ∀ c ∈ x.chk, c.1 < 8

/-- There are 13 mirror queues, every fetched frame names an engine that exists, and none that waits is acknowledged or
aborted. -/
structure HostDie.Whole (h : HostDie) : Prop where
  mirrors : h.queues.mirrors = 13
  ready : ∀ x ∈ h.queues.ready, x.named ∧ x.acked = false ∧ x.dead = false
  sending : ∀ x ∈ h.queues.sending, x.named

theorem whole_of_queues (hq : g.queues = h.queues) (hw : h.Whole) : g.Whole := by
  obtain ⟨mirrors, ready, sending⟩ := hw
  exact ⟨hq ▸ mirrors, hq ▸ ready, hq ▸ sending⟩

theorem HostDie.whole_iff :
    h.Whole ↔ h.mirrors.length = 13 ∧ h.enginesNamed = true ∧ h.readyFresh = true := by
  simp only [HostDie.enginesNamed, HostDie.readyFresh]
  constructor
  · rintro ⟨mirrors, ready, sending⟩
    refine ⟨mirrors, ?_, ?_⟩
    · simp only [List.all_eq_true, List.mem_append, Option.mem_toList, Option.all_eq_true, decide_eq_true_eq]
      rintro x (hx | hx)
      · exact (ready x hx).1
      · exact sending x hx
    · simp only [List.all_eq_true, Bool.and_eq_true, Bool.not_eq_true']
      exact fun x hx => (ready x hx).2
  · simp only [List.all_eq_true, List.mem_append, Option.mem_toList, Option.all_eq_true, decide_eq_true_eq,
      Bool.and_eq_true, Bool.not_eq_true']
    rintro ⟨mirrors, engines, fresh⟩
    exact ⟨mirrors, fun x hx => ⟨engines x (.inl hx), fresh x hx⟩, fun x hx => engines x (.inr hx)⟩

/-- Fewer frames wait. -/
theorem HostDie.Whole.fewer (hw : h.Whole) {xs : List TxFrame} (hxs : xs ⊆ h.ready) : ({ h with ready := xs } : HostDie).Whole :=
  ⟨hw.mirrors, fun x hx => hw.ready x (hxs hx), hw.sending⟩

/-- One more frame waits. -/
theorem HostDie.Whole.fetched (hw : h.Whole) {x : TxFrame} (hx : x.named) (hacked : x.acked = false) (hdead : x.dead = false) :
    ({ h with ready := h.ready ++ [x] } : HostDie).Whole := by
  refine ⟨hw.mirrors, fun y hy => ?_, hw.sending⟩
  obtain hy | hy := List.mem_append.1 hy
  · exact hw.ready y hy
  · obtain rfl := List.mem_singleton.1 hy
    exact ⟨hx, hacked, hdead⟩

/-- Another frame, or none, is being sent. -/
theorem HostDie.Whole.sent (hw : h.Whole) {o : Option TxFrame} (ho : ∀ x ∈ o, x.named) :
    ({ h with sending := o } : HostDie).Whole :=
  ⟨hw.mirrors, hw.ready, ho⟩

theorem HostDie.Whole.forAll {α : Type} {k : α → HostDie → HostDie} (hk : ∀ x h, h.Whole → (k x h).Whole) (xs : List α)
    (hw : h.Whole) : (forAll xs k h).Whole := by
  unfold Machine.forAll
  induction xs generalizing h with
  | nil => exact hw
  | cons x xs ih => exact ih (hk x h hw)

/-! ### Sending and completing -/

theorem sendFrameUnit_whole {x : TxFrame} (hx : x.named) (hw : h.Whole) : (sendFrameUnit x h).Whole := by
  unfold sendFrameUnit
  split
  · exact hw.sent (by simp)
  next u us _ =>
    have hsent : (h.sendXng u).Whole := whole_of_queues (HostDie.sendXng_queues h u) hw
    dsimp only
    split
    · exact whole_of_queues (frameCrossed_queues ..) (hsent.sent (by simp))
    · exact hsent.sent fun y hy => by
        obtain rfl := Option.mem_some.1 hy
        exact hx

theorem pumpHost_whole (k : Nat) (hw : h.Whole) : (pumpHost k h).Whole := by
  induction k generalizing h with
  | zero => exact hw
  | succ k ih =>
    unfold pumpHost
    split
    · exact hw
    · split
      next x hx => exact ih (sendFrameUnit_whole (hw.sending x hx) hw)
      · split
        next m ms _ => exact ih (whole_of_queues (h := h) (HostDie.sendXng_queues ..) hw)
        · exact hw

theorem dmaStop_whole (q : Nat) (hw : h.Whole) : (dmaStop q h).Whole := by
  unfold dmaStop
  extract_lets g
  have hg : g.Whole := whole_of_queues (h := h) (by simp -implicitDefEqProofs [g]) hw
  exact whole_of_queues (qpEvent_queues ..) (hg.fewer (List.filter_subset_self _))

theorem pumpCompletions_whole (k : Nat) (hw : h.Whole) : (pumpCompletions k h).Whole := by
  induction k generalizing h with
  | zero => exact hw
  | succ k ih =>
    unfold pumpCompletions
    split
    · exact ih (whole_of_queues (h := h) (pushCompletion_queues ..) hw)
    · split
      next x _ =>
        extract_lets taken moved told
        have htaken : taken.Whole := hw.fewer List.erase_subset
        have htold : told.Whole := whole_of_queues (h := taken) ((pushCompletion_queues ..).trans rfl) htaken
        clear_value told
        split
        · exact ih (dmaStop_whole _ htold)
        · exact ih htold
      · exact hw

theorem settleHost_whole (hw : h.Whole) : (settleHost h).Whole := by
  unfold settleHost
  split
  · exact hw
  · exact whole_of_queues (HostDie.put_queues ..) (pumpCompletions_whole _ (pumpHost_whole _ hw))

/-! ### Rings -/

theorem fetchedFrame_named (h : HostDie) (f q : Nat) (ds : List (List Byte)) (data : List Byte) :
    (fetchedFrame h f q ds data).named := by
  intro c hc
  unfold fetchedFrame at hc
  dsimp only at hc
  split at hc
  · obtain rfl := Option.mem_some.1 hc
    exact bitsOf_lt _ _ _
  · cases hc

theorem txFetchDone_whole (q : Nat) (ds : List (List Byte)) (data : List Byte) (hw : h.Whole) :
    (txFetchDone q ds data h).Whole := by
  unfold txFetchDone
  split
  · split
    · exact hw.fetched (fetchedFrame_named h _ _ _ _) rfl rfl
    · exact hw
  · exact hw

theorem writeQCtrl_whole (q data : Nat) (hw : h.Whole) : (writeQCtrl q data h).Whole := by
  unfold writeQCtrl
  extract_lets old tx rx cq w refused w' h₁ h₂ h₃ h₄ h₅ h₆ left h₇
  have h₆w : h₆.Whole := by
    refine whole_of_queues (h := h) ?_ hw
    simp -implicitDefEqProofs [h₆, h₅, h₄, h₃, h₂, h₁]
  clear_value h₆
  have hleft : left.Whole := h₆w.fewer (List.filter_subset_self _)
  have h₇w : h₇.Whole := by
    unfold h₇
    split
    · split
      · exact hleft
      · exact whole_of_queues (HostDie.put_queues ..) hleft
    · exact h₆w
  clear_value h₇
  split
  · exact whole_of_queues (geometryRefused_queues ..) h₇w
  · exact h₇w

theorem startFrame_whole {x : TxFrame} (hi : Bool) (hx : x.named) (hw : h.Whole) : (startFrame x hi h).Whole := by
  unfold startFrame
  extract_lets h₁ h₂ h₃ r
  have h₁w : h₁.Whole := hw.fewer List.erase_subset
  clear_value h₁
  have h₃w : h₃.Whole := whole_of_queues (h := h₁) (by simp -implicitDefEqProofs [h₃, h₂]) h₁w
  clear_value h₃
  have hr : r.2.Whole := whole_of_queues (chkCompute_queues x h₃) h₃w
  refine hr.sent fun y hy => ?_
  obtain rfl := Option.mem_some.1 hy
  intro c hc
  exact hx c (chkCompute_chk x h₃ ▸ hc)

theorem ringNext_mem {x : TxFrame} {q : Nat} (hx : ringNext h q = some x) : x ∈ h.ready := by
  unfold ringNext at hx
  split at hx
  next y hy =>
    obtain ⟨-, hyx⟩ := Option.ite_none_right_eq_some.1 hx
    exact Option.some.inj hyx ▸ List.mem_of_find?_eq_some hy
  · cases hx

theorem txFrameCross_whole (hw : h.Whole) : (txFrameCross h).Whole := by
  have picked : ∀ {o : Option Nat} {x}, o.bind (ringNext h) = some x → x.named := fun hx => by
    obtain ⟨q, -, hq⟩ := Option.bind_eq_some_iff.1 hx
    exact (hw.ready _ (ringNext_mem hq)).1
  unfold txFrameCross
  split
  · exact hw
  · dsimp only
    split
    next x hx => exact startFrame_whole true (picked hx) hw
    · split
      next x hx => exact startFrame_whole false (picked hx) hw
      · exact hw

/-! ### Resets and faults -/

theorem abortSending_named {x : TxFrame} (hx : x.named) : (abortSending x).named := by
  unfold abortSending
  split
  · intro c hc
    cases hc
  · exact hx

theorem resetFn_whole (f : Nat) (hw : h.Whole) : (resetFn f h).Whole := by
  unfold resetFn
  extract_lets mine aborted epoch isQp own engines left
  have haborted : aborted.Whole := by
    unfold aborted
    split
    next x hx =>
      split
      · refine whole_of_queues (chkUndo_queues ..) (hw.sent fun y hy => ?_)
        obtain rfl := Option.mem_some.1 hy
        exact abortSending_named (hw.sending x hx)
      · exact hw
    · exact hw
  clear_value aborted
  have hleft : left.Whole :=
    ⟨haborted.mirrors, fun x hx => haborted.ready x (List.mem_of_mem_filter hx), haborted.sending⟩
  clear_value left
  exact whole_of_queues (forAll_queues resetEngine_queues _ _) (whole_of_queues (HostDie.put_queues ..) hleft)

theorem resetAll_whole (hw : h.Whole) : (resetAll h).Whole := by
  unfold resetAll
  extract_lets h₁ wide h₂
  have h₁w : h₁.Whole := hw.forAll (fun f _ => resetFn_whole f) _
  exact whole_of_queues (announceReset_queues ..) (whole_of_queues (endHostPtb_queues ..) (whole_of_queues (h := h₁) rfl h₁w))

theorem eccReaction_whole (place : Nat) (hw : h.Whole) : (eccReaction place h).Whole := by
  unfold eccReaction
  split
  · exact whole_of_queues (HostDie.onXng_queues ..) hw
  · split
    · split
      · exact whole_of_queues (h := h) (HostDie.countN_queues ..) hw
      · exact hw
    · split
      · split
        next x hx =>
          refine whole_of_queues (chkUndo_queues ..) (hw.sent fun y hy => ?_)
          obtain rfl := Option.mem_some.1 hy
          exact abortSending_named (hw.sending x hx)
        · exact hw
      · exact hw

theorem hostFaultLatch_whole (code fn place : Nat) (hw : h.Whole) : (hostFaultLatch code fn place h).Whole := by
  have hfault : (hostFault code fn h).Whole := whole_of_queues (hostFault_queues ..) hw
  unfold hostFaultLatch
  dsimp only
  split
  · exact eccReaction_whole place hfault
  · split
    · refine hfault.forAll (fun q h hq => ?_) _
      split
      · exact dmaStop_whole q hq
      · exact hq
    · exact hfault

/-! ### Engine registers -/

theorem writeRun_whole (n v : Nat) (hw : h.Whole) : (writeRun n v h).Whole := by
  unfold writeRun
  split
  next x hx =>
    split
    · refine hw.sent fun y hy => ?_
      obtain rfl := Option.mem_some.1 hy
      exact hw.sending x hx
    · exact whole_of_queues (setEngine_queues ..) hw
  · exact whole_of_queues (setEngine_queues ..) hw

theorem writeChkCtrl_whole (sets : Bool) (n data : Nat) (hw : h.Whole) : (writeChkCtrl sets n data h).Whole := by
  have hset : (((h.put (H_CHK_CTRL_hold n) (bitOf data 31)).put (H_CHK_CTRL_owner n) (bitsOf data 29 24)).put
      (H_CHK_CTRL_poly n) (bitsOf data 1 0)).Whole := whole_of_queues (by simp -implicitDefEqProofs) hw
  unfold writeChkCtrl
  dsimp only
  split
  · exact writeRun_whole _ _ hset
  · exact hset

theorem writeChkRun_whole (f n data : Nat) (hw : h.Whole) : (writeChkRun f n data h).Whole := by
  unfold writeChkRun
  exact writeRun_whole _ _ (whole_of_queues (h := h) rfl hw)

theorem writeChk_whole (fn off data : Nat) (hw : h.Whole) : (writeChk fn off data h).Whole := by
  unfold writeChk
  dsimp only
  split
  · exact writeChkCtrl_whole _ _ _ hw
  · split
    · exact whole_of_queues (stageHost_queues ..) hw
    · split
      · exact writeChkRun_whole _ _ _ hw
      · exact hw

/-! ### Registers of BAR0 -/

theorem writeHostEcc_whole (data : Nat) (hw : h.Whole) : (writeHostEcc data h).Whole := by
  unfold writeHostEcc
  extract_lets g place
  have hg : g.Whole := whole_of_queues (HostDie.wrN_queues ..) hw
  clear_value g
  split
  · exact hg
  · split
    · exact whole_of_queues (HostDie.raise_queues ..) hg
    · dsimp only
      split
      · exact whole_of_queues (HostDie.free_queues g) hg
      · split
        · exact hostFaultLatch_whole _ _ _ (whole_of_queues (HostDie.free_queues g) hg)
        · exact whole_of_queues (HostDie.bump_queues ..) (whole_of_queues (HostDie.free_queues g) hg)

theorem hostPtbWrite_whole (now addr data : Nat) (hw : h.Whole) : (hostPtbWrite now addr data h).Whole := by
  unfold hostPtbWrite
  split_ifs
  · exact whole_of_queues (h := h) rfl hw
  · exact whole_of_queues (writeHostLane_queues ..) hw
  · exact whole_of_queues (writeHostAck_queues ..) hw
  · exact whole_of_queues (setHostControl_queues ..) hw
  · exact writeHostEcc_whole _ hw
  · exact whole_of_queues (hostSqWrite_queues ..) hw
  · exact hw

theorem writeHostPtb_whole (now fn addr data : Nat) (hw : h.Whole) : (writeHostPtb now fn addr data h).Whole := by
  unfold writeHostPtb
  split_ifs
  · exact hw
  · exact hw
  · exact whole_of_queues (writeHostArm_queues ..) hw
  · exact hostPtbWrite_whole _ _ _ hw
  · exact whole_of_queues (hostPtbReject_queues ..) hw

theorem writeQueue_whole (fn q o data : Nat) (hw : h.Whole) : (writeQueue fn q o data h).Whole := by
  have applied : ∀ lo, (applyHost fn lo data h).Whole := fun lo => whole_of_queues (applyHost_queues ..) hw
  unfold writeQueue
  extract_lets k
  split_ifs
  · exact writeQCtrl_whole _ _ hw
  · exact whole_of_queues (HostDie.wrN_queues ..) hw
  · exact whole_of_queues (stageHost_queues ..) hw
  · exact whole_of_queues (h := h) rfl hw
  · exact whole_of_queues (geometryRefused_queues ..) (whole_of_queues (h := h) rfl hw)
  · exact applied _
  · exact hw

theorem writeOwn_whole (fn off data : Nat) (hw : h.Whole) : (writeOwn fn off data h).Whole := by
  unfold writeOwn
  split_ifs
  · exact whole_of_queues (HostDie.wrN_queues ..) hw
  · exact whole_of_queues (HostDie.put_queues ..) hw
  · exact hw
  · exact whole_of_queues (holdPurge_queues ..) hw
  · exact whole_of_queues (HostDie.wrN_queues ..) hw
  · split
    · exact writeQueue_whole _ _ _ _ hw
    · exact hw
  · exact whole_of_queues (HostDie.wrN_queues ..) hw
  · exact whole_of_queues (hostSqWrite_queues ..) hw
  · exact whole_of_queues (writeMsix_queues ..) hw
  · exact hw

theorem writePf_whole (now off data : Nat) (hw : h.Whole) : (writePf now off data h).Whole := by
  unfold writePf
  split_ifs
  · exact whole_of_queues (hostSqWrite_queues ..) hw
  · exact whole_of_queues (writeHostXng_queues ..) hw
  · exact whole_of_queues (writeFnConfig_queues ..) hw
  · exact whole_of_queues (writeSteer_queues ..) hw
  · exact whole_of_queues (writeEvq_queues ..) hw
  · exact writeChk_whole _ _ _ hw
  · exact whole_of_queues (HostDie.wrN_queues ..) hw
  · exact whole_of_queues (corrSnap_queues ..) hw
  · exact whole_of_queues (writeHostPin_queues ..) hw
  · exact writeHostPtb_whole _ _ _ _ hw
  · exact hw

theorem hostWrite_whole (now fn off be data : Nat) (hw : h.Whole) : (hostWrite now fn off be data h).Whole := by
  unfold hostWrite
  split_ifs
  · exact whole_of_queues (apertureWrite_queues ..) hw
  · exact hw
  · exact writeOwn_whole _ _ _ hw
  · exact writePf_whole _ _ _ hw
  · exact hw

end Sys2Proof.Machine
end


section
/-! The lists that stand for a fixed number of like things: every step keeps their number (O6). -/

namespace Sys2Proof.Machine

variable {s t : State} {f : FieldDie} {c : Instr}

/-- From `s` to `t` the lists of the field die stay whole, and those of the host die. -/
structure KeepsShape (s t : State) : Prop where
  fld : s.fld.sizes = wholeSizes → t.fld.sizes = wholeSizes
  hst : s.hst.Whole → t.hst.Whole

theorem shape_iff : Shape s ↔ s.fld.sizes = wholeSizes ∧ s.hst.Whole := by
  rw [HostDie.whole_iff]
  constructor
  · rintro ⟨ports, segs, gates, ptp, shutters, captures, capLast, tsq, pdSeq, differ, lineLive, lineAbove, lineOff,
      lineClass, sccp, mirrors, engines, fresh⟩
    refine ⟨?_, mirrors, engines, fresh⟩
    simp only [FieldDie.sizes, wholeSizes, ports, segs, gates, ptp, shutters, captures, capLast, tsq, pdSeq, differ,
      lineLive, lineAbove, lineOff, lineClass, sccp]
  · rintro ⟨sizes, mirrors, engines, fresh⟩
    simp only [FieldDie.sizes, wholeSizes, Sizes.mk.injEq] at sizes
    obtain ⟨ports, segs, gates, ptp, shutters, captures, capLast, tsq, pdSeq, differ, lineLive, lineAbove, lineOff,
      lineClass, sccp⟩ := sizes
    exact ⟨ports, segs, gates, ptp, shutters, captures, capLast, tsq, pdSeq, differ, lineLive, lineAbove, lineOff,
      lineClass, sccp, mirrors, engines, fresh⟩

theorem KeepsShape.shape (h : KeepsShape s t) (hs : Shape s) : Shape t := by
  obtain ⟨hf, hh⟩ := shape_iff.1 hs
  exact shape_iff.2 ⟨h.fld hf, h.hst hh⟩

theorem KeepsShape.refl (s : State) : KeepsShape s s := ⟨id, id⟩

/-! ### The ways in which a command acts -/

theorem FieldOnly.keepsShape (h : FieldOnly s t) (hf : t.fld.sizes = s.fld.sizes) : KeepsShape s t where
  fld := by rw [hf]; exact id
  hst := by rw [h.hst]; exact id

theorem State.onField_keepsShape {k : FieldDie → FieldDie} (hk : (k s.fld).sizes = s.fld.sizes)
    (h : s.onField k = .next t) : KeepsShape s t := by
  refine (State.fieldOnly_of_onField h).keepsShape ?_
  cases h
  rw [settle_sizes, hk]

theorem State.onHost_keepsShape {k : HostDie → HostDie} (hk : ∀ h, h.Whole → (k h).Whole) (h : s.onHost k = .next t) :
    KeepsShape s t := by
  cases h
  refine ⟨id, fun hw => settleHost_whole ?_⟩
  split
  · exact hw
  · exact hk _ (whole_of_queues (h := s.hst) rfl hw)

/-- What acts at the host die and leaves the queues alone. -/
theorem State.onHost_keepsShape_of_eq {k : HostDie → HostDie} (hk : ∀ h, (k h).queues = h.queues)
    (h : s.onHost k = .next t) : KeepsShape s t :=
  State.onHost_keepsShape (fun g => whole_of_queues (hk g)) h

theorem State.onFn_keepsShape {fn : Nat} {k : HostDie → HostDie} (hk : ∀ h, h.Whole → (k h).Whole)
    (h : s.onFn fn k = .next t) : KeepsShape s t := by
  refine State.onHost_keepsShape (fun g hg => ?_) h
  split
  · exact hk g hg
  · exact hg

theorem State.onFn_keepsShape_of_eq {fn : Nat} {k : HostDie → HostDie} (hk : ∀ h, (k h).queues = h.queues)
    (h : s.onFn fn k = .next t) : KeepsShape s t :=
  State.onFn_keepsShape (fun g => whole_of_queues (hk g)) h

theorem State.fabricStops_keepsShape {k : FieldDie → FieldDie}
    (hk : ∀ f, f.sizes = wholeSizes → (k f).sizes = wholeSizes) (h : s.fabricStops k = .next t) : KeepsShape s t := by
  cases h
  refine ⟨fun hf => hk _ ?_, id⟩
  rwa [keyCut_sizes, flashCut_sizes]

theorem State.fieldReset_keepsShape {bit : Nat} (h : s.fieldReset bit = .next t) : KeepsShape s t :=
  State.fabricStops_keepsShape (k := fun f => resetField { f with resetBy := setBit f.resetBy bit })
    (fun f hf => resetField_sizes (f := { f with resetBy := setBit f.resetBy bit }) hf) h

theorem State.resetIf_keepsShape {seen : Bool} {bit : Nat} (h : s.resetIf seen bit = .next t) : KeepsShape s t := by
  cases seen with
  | true => exact State.fieldReset_keepsShape h
  | false =>
    cases h
    exact .refl s

theorem State.onAccess_keepsShape {k : FieldDie → FieldDie} (hk : ∀ f, (k f).sizes = f.sizes)
    (h : s.onAccess k = .next t) : KeepsShape s t := by
  unfold State.onAccess at h
  extract_lets g at h
  have hg : g.sizes = s.fld.sizes := hk _
  split at h
  · have hreset := State.fieldReset_keepsShape (s := { s with fld := g }) h
    exact ⟨fun hf => hreset.fld (hg.trans hf), hreset.hst⟩
  · cases h
    exact ⟨fun hf => (settle_sizes g).trans (hg.trans hf), id⟩

theorem State.keyMayStop_keepsShape {k : FieldDie → FieldDie} (hk : ∀ f, (k f).sizes = f.sizes)
    (h : s.keyMayStop k = .next t) : KeepsShape s t := by
  unfold State.keyMayStop at h
  split at h
  · cases h
    refine ⟨fun hf => ?_, id⟩
    rwa [settle_sizes, hk, keyCut_sizes]
  · cases h
    refine ⟨fun hf => ?_, id⟩
    rwa [settle_sizes, hk]

theorem State.onLink_keepsShape {l : LinkId} {kf kt : FieldDie → FieldDie} {kh : HostDie → HostDie}
    (hf : ∀ f, (kf f).sizes = f.sizes) (ht : ∀ f, (kt f).sizes = f.sizes) (hh : ∀ h, (kh h).queues = h.queues)
    (h : s.onLink l kf kt kh = .next t) : KeepsShape s t := by
  cases l with
  | field => exact State.onField_keepsShape (by simp [hf]) h
  | twin => exact State.onField_keepsShape (by simp [ht]) h
  | host => exact State.onHost_keepsShape_of_eq hh h

theorem State.onPtb_keepsShape {host : Bool} {req fa ha data : Nat} (h : s.onPtb host req fa ha data = .next t) :
    KeepsShape s t := by
  cases host with
  | false => exact State.onField_keepsShape (by simp) h
  | true => exact State.onHost_keepsShape (fun _ => writeHostPtb_whole _ _ _ _) h

/-- The key executes a command of the reader: the field die takes note of the answer. -/
theorem State.keyDoes_keepsShape {cmd : Nat × List Nat × List Byte} {k : KeyChip} {ans : Nat × List Byte}
    (hf : f.sizes = s.fld.sizes) : KeepsShape s (s.keyDoes cmd k ans f) := by
  refine ⟨fun hw => ?_, id⟩
  unfold State.keyDoes
  simp -implicitDefEqProofs [hf, hw]

/-! ### Resets, the safelight supply and darkroom -/

theorem resetPulse_keepsShape {live long short : Prop} [Decidable live] [Decidable long] [Decidable short] {bit : Nat}
    {seen : Bool} {f f' : FieldDie} (hf : f.sizes = s.fld.sizes) (hf' : f'.sizes = s.fld.sizes)
    (h : (if live then
        if long then s.fieldReset bit else if short then .next s else ({ s with fld := f } : State).resetIf seen bit
      else .next { s with fld := f' }) = .next t) : KeepsShape s t := by
  split at h
  · split at h
    · exact State.fieldReset_keepsShape h
    · split at h
      · cases h
        exact .refl s
      · have hreset := State.resetIf_keepsShape h
        exact ⟨fun hw => hreset.fld (hf.trans hw), hreset.hst⟩
  · cases h
    exact ⟨fun hw => hf'.trans hw, id⟩

theorem execPinReset_keepsShape {lowNs : Nat} (h : execPinReset lowNs s = .next t) : KeepsShape s t := by
  unfold execPinReset at h
  exact resetPulse_keepsShape (FieldDie.free_sizes _) (lateTrigger_sizes _ _ _ _ _) h

theorem execPowerGoodReset_keepsShape {lowNs : Nat} (h : execPowerGoodReset lowNs s = .next t) : KeepsShape s t := by
  unfold execPowerGoodReset at h
  exact resetPulse_keepsShape (FieldDie.free_sizes _) (lateTrigger_sizes _ _ _ _ _) h

theorem execSoftwareReset_keepsShape {req : Nat} {data : Word} (h : execSoftwareReset req data s = .next t) :
    KeepsShape s t := by
  unfold execSoftwareReset at h
  split at h
  · exact State.fieldReset_keepsShape h
  · cases h
    exact .refl s

theorem execVddSlLoss_keepsShape {mv : Nat} (h : execVddSlLoss mv s = .next t) : KeepsShape s t := by
  have dark : ∀ f : FieldDie, f.sizes = wholeSizes → (darkDie f).sizes = wholeSizes := fun _ => darkDie_sizes
  unfold execVddSlLoss at h
  split at h
  · split at h
    · exact State.fabricStops_keepsShape dark h
    · split at h
      · cases h
        exact .refl s
      · split at h
        · have hstop := State.fabricStops_keepsShape (s := { s with fld := s.fld.free.2 }) dark h
          exact ⟨hstop.fld, hstop.hst⟩
        · cases h
          exact ⟨id, id⟩
  · cases h
    exact .refl s

theorem execDarkPointOfNoReturn_keepsShape (h : execDarkPointOfNoReturn s = .next t) : KeepsShape s t := by
  unfold execDarkPointOfNoReturn at h
  split at h
  · exact State.fabricStops_keepsShape (fun _ => darkroom_sizes) h
  · cases h
    exact .refl s

theorem execColdReset_keepsShape (h : execColdReset s = .next t) : KeepsShape s t := by
  unfold execColdReset at h
  split at h
  · cases h
    exact .refl s
  · cases h
    exact ⟨fun hf => darkDie_sizes hf, id⟩

/-! ### Operations of the serial flash, and the key -/

theorem execFlashOperationDone_keepsShape (h : execFlashOperationDone s = .next t) : KeepsShape s t := by
  unfold execFlashOperationDone at h
  split at h
  · cases h
    refine ⟨fun hf => ?_, id⟩
    rwa [settle_sizes, flashNext_sizes]
  · exact State.onField_keepsShape rfl h

theorem execFlashOperationTimeout_keepsShape (h : execFlashOperationTimeout s = .next t) : KeepsShape s t := by
  unfold execFlashOperationTimeout at h
  split at h
  · cases h
    refine ⟨fun hf => ?_, id⟩
    rwa [settle_sizes, resumeFailed_sizes, freeBytes_sizes]
  · exact State.onField_keepsShape rfl h

theorem execInventory_keepsShape {others : Nat} (h : execInventory others s = .next t) : KeepsShape s t := by
  unfold execInventory at h
  split at h
  · split at h
    · cases h
      exact ⟨id, id⟩
    · cases h
      exact State.keyDoes_keepsShape rfl
  · cases h
    exact .refl s

theorem execLoadBuffer_keepsShape {off : Nat} {data : List Byte} (h : execLoadBuffer off data s = .next t) :
    KeepsShape s t := by
  unfold execLoadBuffer at h
  split at h
  · cases h
    exact State.keyDoes_keepsShape rfl
  · cases h
    exact .refl s

theorem execVerifySlot_keepsShape {slot size : Nat} (h : execVerifySlot slot size s = .next t) : KeepsShape s t := by
  unfold execVerifySlot at h
  split at h
  · cases h
    exact State.keyDoes_keepsShape rfl
  · cases h
    exact .refl s

theorem execProgramPage_keepsShape {txn slot page crc : Nat} (h : execProgramPage txn slot page crc s = .next t) :
    KeepsShape s t := by
  unfold execProgramPage at h
  extract_lets k cmd at h
  split_ifs at h
  · cases h
    exact .refl s
  all_goals
    cases h
    exact State.keyDoes_keepsShape rfl

theorem execWritePointer_keepsShape {txn ptr : Nat} {data : List Byte} (h : execWritePointer txn ptr data s = .next t) :
    KeepsShape s t := by
  unfold execWritePointer at h
  extract_lets k cmd at h
  split_ifs at h
  · cases h
    exact .refl s
  all_goals
    cases h
    exact State.keyDoes_keepsShape rfl

theorem execKeyReply_keepsShape (h : execKeyReply s = .next t) : KeepsShape s t := by
  unfold execKeyReply at h
  split at h
  · split at h
    · cases h
      refine ⟨fun hf => ?_, id⟩
      rwa [settle_sizes, keyReplied_sizes]
    · cases h
      exact .refl s
  · cases h
    exact .refl s

theorem execKeyReplyTimeout_keepsShape (h : execKeyReplyTimeout s = .next t) : KeepsShape s t := by
  unfold execKeyReplyTimeout at h
  split at h
  · cases h
    refine ⟨fun hf => ?_, id⟩
    rwa [startSilent_sizes]
  · split at h
    · exact State.keyMayStop_keepsShape keySilent_sizes h
    · cases h
      exact .refl s

theorem execWatchdog_keepsShape {inst : Nat} (h : execWatchdog inst s = .next t) : KeepsShape s t := by
  unfold execWatchdog at h
  split at h
  · exact State.keyMayStop_keepsShape (watchdog_sizes inst) h
  · cases h
    exact .refl s

/-! ### Commands that reach either die -/

theorem execRegisterWrite_keepsShape {req addr be : Nat} {data : Word} (h : execRegisterWrite req addr be data s = .next t) :
    KeepsShape s t := by
  unfold execRegisterWrite at h
  split at h
  · exact State.onAccess_keepsShape (fun f => by simp -implicitDefEqProofs) h
  · split_ifs at h
    · exact State.onFn_keepsShape (fun _ => hostWrite_whole _ _ _ _ _) h
    · exact State.onFn_keepsShape_of_eq (fun _ => bellWrite_queues ..) h
    · exact State.onFn_keepsShape_of_eq (fun _ => rfl) h
    · exact State.onFn_keepsShape_of_eq (fun _ => writePcieCfg_queues ..) h
    · exact State.onHost_keepsShape (fun _ hw => hw) h

theorem execTsqPop_keepsShape {req addr : Nat} (h : execTsqPop req addr s = .next t) : KeepsShape s t := by
  unfold execTsqPop at h
  split at h
  · refine State.onField_keepsShape ?_ h
    rw [ite_sizes, popAt_sizes, FieldDie.napBreak_sizes, ite_self]
  · exact State.onHost_keepsShape_of_eq (k := popHostAt (addr - 0x1000000)) (fun _ => popHostAt_queues ..) h

theorem execInterruptModeration_keepsShape {qp cause : Nat} (h : execInterruptModeration qp cause s = .next t) :
    KeepsShape s t := by
  unfold execInterruptModeration at h
  split at h
  · exact State.onHost_keepsShape_of_eq (by simp) h
  · exact State.onField_keepsShape (by simp) h

theorem execRetrain_keepsShape {l : LinkId} {req : Nat} {data : Word} (h : execRetrain l req data s = .next t) :
    KeepsShape s t := by
  cases l with
  | field | twin => exact State.onField_keepsShape (by simp) h
  | host => exact State.onFn_keepsShape_of_eq (by simp) h

theorem execPtbLifetimeExpiry_keepsShape {host : Bool} (h : execPtbLifetimeExpiry host s = .next t) : KeepsShape s t := by
  cases host with
  | false => exact State.onField_keepsShape (by simp) h
  | true =>
    refine State.onHost_keepsShape_of_eq (k := fun g => if g.flag H_PTB_ARM_armed && lifeOver s.fld.now g.ptb.lifeFrom
      (g.get H_PTB_LIFE_life_ms) then endHostPtb 2 g else g) (fun g => ?_) h
    rw [ite_queues, endHostPtb_queues, ite_self]

end Sys2Proof.Machine
end


section
/-! Every step keeps the lists of fixed length and the fetched frames whole (O6). -/

namespace Sys2Proof.Machine

variable {s t : State} {c : Instr}

theorem execWakeCause_keepsShape {bit : Nat} (h : execWakeCause bit s = .next t) : KeepsShape s t := by
  unfold execWakeCause at h
  exact State.onField_keepsShape (by simp) h

theorem execOverVoltageTurnOff_keepsShape {mv : Nat} (h : execOverVoltageTurnOff mv s = .next t) : KeepsShape s t := by
  unfold execOverVoltageTurnOff at h
  exact State.onField_keepsShape (by simp) h

theorem execTransmitEnd_keepsShape {port phase : Nat} (h : execTransmitEnd port phase s = .next t) : KeepsShape s t := by
  refine State.onField_keepsShape ?_ h
  dsimp only
  split
  · split
    · split
      · simp
      · rfl
    · rfl
  · rfl

theorem execResumeImageLoaded_keepsShape (h : execResumeImageLoaded s = .next t) : KeepsShape s t := by
  cases h
  refine ⟨fun hf => ?_, id⟩
  have hload := resumeLoad_sizes s.flash hf
  rw [settle_sizes]
  dsimp only
  generalize resumeLoad s.flash s.fld = loaded at hload ⊢
  split
  · rw [wakeDone_sizes]
    exact hload
  · exact hf

theorem execHostReset_keepsShape (h : execHostReset s = .next t) : KeepsShape s t := by
  cases h
  exact ⟨id, fun _ => ⟨rfl, by simp, by simp⟩⟩

theorem execHostResetRelease_keepsShape (h : execHostResetRelease s = .next t) : KeepsShape s t := by
  unfold execHostResetRelease at h
  split at h
  · cases h
    refine ⟨id, fun hw => settleHost_whole (whole_of_queues (announceReset_queues ..) ?_)⟩
    exact whole_of_queues (h := s.hst) (HostDie.onXng_queues ..) hw
  · cases h
    exact .refl s

theorem execDmaError_keepsShape {qp cookie : Nat} (h : execDmaError qp cookie s = .next t) : KeepsShape s t := by
  unfold execDmaError at h
  refine State.onHost_keepsShape (fun g hw => ?_) h
  split
  · split
    · exact hw.fetched (x := { qp := qp, descs := 1, status := 2, cookie := cookie % 2 ^ 32 }) (by simp [TxFrame.named]) rfl rfl
    · exact hw
  · exact hw

theorem execHostFaultLatch_keepsShape {code func place : Nat} (h : execHostFaultLatch code func place s = .next t) :
    KeepsShape s t := by
  unfold execHostFaultLatch at h
  refine State.onHost_keepsShape (fun g hw => ?_) h
  split
  · exact hostFaultLatch_whole _ _ _ hw
  · exact hw

theorem execFlr_keepsShape {fn : Nat} (h : execFlr fn s = .next t) : KeepsShape s t := by
  unfold execFlr at h
  refine State.onFn_keepsShape (fun g hw => ?_) h
  split
  · exact resetAll_whole hw
  · exact whole_of_queues (announceReset_queues ..) (resetFn_whole fn hw)

theorem execRingEnableWrite_keepsShape {fn : Nat} {data : Word} (h : execRingEnableWrite fn data s = .next t) :
    KeepsShape s t := by
  unfold execRingEnableWrite at h
  refine State.onFn_keepsShape (fun g hw => ?_) h
  split
  · exact writeQCtrl_whole _ _ hw
  · exact hw

/-- A command on a function that asks for more than that the function exists. -/
theorem State.onFnIf_keepsShape {fn : Nat} {p : Prop} [Decidable p] {k : HostDie → HostDie}
    (hk : ∀ h, h.Whole → (k h).Whole) (h : s.onFn fn (fun h => if p then k h else h) = .next t) : KeepsShape s t := by
  refine State.onFn_keepsShape (fun g hw => ?_) h
  split
  · exact hk g hw
  · exact hw

theorem execHostPinEdge_keepsShape {n : Nat} {rising : Bool} (h : execHostPinEdge n rising s = .next t) :
    KeepsShape s t := by
  unfold execHostPinEdge at h
  refine State.onHost_keepsShape_of_eq (fun g => ?_) h
  rw [ite_queues, hostPinEdge_queues, ite_self]

theorem execVectorUnmask_keepsShape {v : Nat} (h : execVectorUnmask v s = .next t) : KeepsShape s t := by
  unfold execVectorUnmask at h
  refine State.onFn_keepsShape_of_eq (fun g => ?_) h
  rw [flushPba_queues, HostDie.wrN_queues]

theorem execChkHoldWrite_keepsShape {fn n : Nat} {data : Word} (h : execChkHoldWrite fn n data s = .next t) :
    KeepsShape s t := by
  unfold execChkHoldWrite at h
  refine State.onFn_keepsShape (fun g hw => ?_) h
  split
  · exact writeChkCtrl_whole _ _ _ hw
  · exact hw

theorem execScrubPass_keepsShape (h : execScrubPass s = .next t) : KeepsShape s t :=
  State.keyMayStop_keepsShape (fun f => by simp) h

theorem execRegw_keepsShape (h : execRegw s = .next t) : KeepsShape s t := by
  unfold execRegw at h
  exact State.onAccess_keepsShape (k := fun f => if f.isRunning then fieldRegw f else f) (fun f => by simp) h

/-- Every command keeps the lists; the last line is every other command of the field die, which acts through `onField`. -/
theorem exec_keepsShape (h : exec c s = .next t) : KeepsShape s t := by
  cases c with
  | pinReset => exact execPinReset_keepsShape h
  | powerGoodReset => exact execPowerGoodReset_keepsShape h
  | softwareReset => exact execSoftwareReset_keepsShape h
  | vddSlLoss => exact execVddSlLoss_keepsShape h
  | darkPointOfNoReturn => exact execDarkPointOfNoReturn_keepsShape h
  | coldReset => exact execColdReset_keepsShape h
  | flashOperationDone => exact execFlashOperationDone_keepsShape h
  | flashOperationTimeout => exact execFlashOperationTimeout_keepsShape h
  | inventory => exact execInventory_keepsShape h
  | loadBuffer => exact execLoadBuffer_keepsShape h
  | verifySlot => exact execVerifySlot_keepsShape h
  | keyReply => exact execKeyReply_keepsShape h
  | programPage => exact execProgramPage_keepsShape h
  | writePointer => exact execWritePointer_keepsShape h
  | keyReplyTimeout => exact execKeyReplyTimeout_keepsShape h
  | watchdog => exact execWatchdog_keepsShape h
  | scrubPass => exact execScrubPass_keepsShape h
  | regw => exact execRegw_keepsShape h
  | write => exact State.onAccess_keepsShape (fun f => spiWriteCmd_sizes ..) h
  | registerWrite => exact execRegisterWrite_keepsShape h
  | tsqPop => exact execTsqPop_keepsShape h
  | interruptModeration => exact execInterruptModeration_keepsShape h
  | retrain => exact execRetrain_keepsShape h
  | ptbLifetimeExpiry => exact execPtbLifetimeExpiry_keepsShape h
  | resumeImageLoaded => exact execResumeImageLoaded_keepsShape h
  | ptbArm | ptbLane | ptbAck | ptbEcc => exact State.onPtb_keepsShape h
  | hostReset => exact execHostReset_keepsShape h
  | hostResetRelease => exact execHostResetRelease_keepsShape h
  | hotReset => exact State.onHost_keepsShape (fun _ => resetAll_whole) h
  | flr => exact execFlr_keepsShape h
  | ringEnableWrite => exact execRingEnableWrite_keepsShape h
  | txFetchDone => exact State.onHost_keepsShape (fun _ => txFetchDone_whole _ _ _) h
  | txFrameCross => exact State.onHost_keepsShape (fun _ => txFrameCross_whole) h
  | dmaError => exact execDmaError_keepsShape h
  | hostFaultLatch => exact execHostFaultLatch_keepsShape h
  | chkPolyWrite => exact State.onFnIf_keepsShape (fun _ => writeChkCtrl_whole _ _ _) h
  | chkRunWrite => exact State.onFnIf_keepsShape (fun _ => writeChkRun_whole _ _ _) h
  | chkHoldWrite => exact execChkHoldWrite_keepsShape h
  | ptbDma => exact State.onHost_keepsShape (fun _ => writeHostPtb_whole _ _ _ _) h
  | txTailDoorbell => exact State.onFn_keepsShape_of_eq (fun _ => txBell_queues ..) h
  | rxTailDoorbell => exact State.onFn_keepsShape_of_eq (fun _ => rxBell_queues ..) h
  | cqHeadDoorbell => exact State.onFn_keepsShape_of_eq (fun _ => cqBell_queues ..) h
  | apertureRead => exact State.onFn_keepsShape_of_eq (fun _ => apertureRead_queues ..) h
  | apertureWrite => exact State.onFn_keepsShape_of_eq (fun _ => apertureWrite_queues ..) h
  | holdPurge => exact State.onFn_keepsShape_of_eq (fun _ => holdPurge_queues ..) h
  | functionConfigWrite => exact State.onFnIf_keepsShape (fun _ => whole_of_queues (writeFnConfig_queues ..)) h
  | steeringEntryWrite => exact State.onFnIf_keepsShape (fun _ => whole_of_queues (writeSteer_queues ..)) h
  | vectorUnmask => exact execVectorUnmask_keepsShape h
  | hostPowerStateChange => exact State.onHost_keepsShape_of_eq (fun _ => hostPower_queues ..) h
  | rxDelivery => exact State.onHost_keepsShape_of_eq (fun _ => rxDelivery_queues ..) h
  | apertureReadTimeout => exact State.onHost_keepsShape_of_eq (fun _ => apertureReadTimeout_queues ..) h
  | regc => exact State.onHost_keepsShape_of_eq hostRegc_queues h
  | evt => exact State.onHost_keepsShape_of_eq hostEvt_queues h
  | tsr => exact State.onHost_keepsShape_of_eq hostTsr_queues h
  | timeMessageReceive => exact State.onHost_keepsShape_of_eq (fun _ => hostTime_queues ..) h
  | ptmDialogue => exact State.onHost_keepsShape_of_eq (fun _ => ptmDialogue_queues ..) h
  | corrSnap => exact State.onHost_keepsShape_of_eq (fun _ => corrSnap_queues ..) h
  | hostPinEdge => exact execHostPinEdge_keepsShape h
  | flowUnitReceive | ackSend | replayTimeout | laneFailure | spareReceive | spareRepeat | spareDataSeen
  | trainingLanePhase | trainingRestart | trainReceive | trainEchoReceive | crossingTrainingComplete | data =>
    exact State.onLink_keepsShape (by simp) (by simp) (by simp) h
  | wakeCause => exact execWakeCause_keepsShape h
  | overVoltageTurnOff => exact execOverVoltageTurnOff_keepsShape h
  | transmitEnd => exact execTransmitEnd_keepsShape h
  | _ => exact State.onField_keepsShape (by simp -implicitDefEqProofs) h

/-- Settles O6: every command keeps the lists, by the operation through which it acts. -/
theorem listsKeepTheirLength : Obligations.ListsKeepTheirLength := by
  unfold Obligations.ListsKeepTheirLength
  intro s t hs h
  unfold step at h
  split at h
  · cases h
    exact hs
  next c rest _ =>
    have pending : Shape { s with pending := rest } := shape_iff.2 (shape_iff (s := s).1 hs)
    exact (exec_keepsShape h).shape pending

end Sys2Proof.Machine
end
